-- ==== Sys2Proof/Word.lean ====
section
/-! DEFINITION. The word types of the machine (R6, R59, R91): bytes, 64-bit registers, 512-bit vector registers. -/
namespace Sys2Proof

/-- One byte of memory (R6). -/
abbrev Byte := BitVec 8

/-- One scalar register, one DVA, one 64-bit memory word (R6, R87). -/
abbrev Word := BitVec 64

/-- One vector register (R91). -/
abbrev Vec := BitVec 512

/-- One instruction word (R103). -/
abbrev IWord := BitVec 32

end Sys2Proof
end

