-- ==== Sys2Proof/Config.lean ====
section
/-! DEFINITION. What an implementation fixes (R19) and the values the spec leaves open: each free value is an opaque
constant, so that nothing can be proved of which value it is. -/
namespace Sys2Proof.Config

/-- Default share exponent, balance exponent, pre-emption grace (ticks) and link-silence limit (ticks) of the VD88
(R19). -/
def shareK : Nat := 16
def balB : Nat := 14
def grace : Nat := 20000
def silence : Nat := 2000000

/-- The full/empty bit of a word of memory, by its key, before the first tagged write (R187) (DESIGN CHOICE, log 4). -/
opaque fullInit : Nat → Bool

/-- The number of the device at the far end of each link, as the links are wired (R329, R381) (DESIGN CHOICE, log 45). -/
opaque peer : Nat → Nat

/-- Which of several allowed outcomes a choice takes, by the state's counter of free values (DESIGN CHOICE, log 59). -/
opaque free : Nat → Nat

/-- A yes or no that the spec leaves open, by the state's counter of free values (DESIGN CHOICE, log 59). -/
opaque freeBool : Nat → Bool

/-- A word that the spec leaves open, by the state's counter of free values (DESIGN CHOICE, log 59). -/
opaque freeWord : Nat → Word

/-- The N32 lane that VCVT gives for a negative S8 lane (R71, R169 state none) (DESIGN CHOICE, log 67). -/
opaque widenNegative : BitVec 8 → BitVec 32

/-- Bytes of a message or signature that another standard defines (R338, R339, R371), by counter and length
(PRESUMED, log 49). -/
opaque freeBytes : Nat → Nat → List Byte

/-- The unique device secret (R370). -/
opaque deviceSecret : List Byte

/-- A signature of a message by a key of the device, one of the many that ECDSA allows (R339, R370) (PRESUMED, log 49). -/
opaque sign : List Byte → List Byte → Nat → List Byte

/-- The derivation of a secret from another and a measurement, by TCG DICE layering (R370) (PRESUMED, log 49). -/
opaque derive : List Byte → List Byte → List Byte

/-- The number of each management command in a record (R382 numbers none) (DESIGN CHOICE, log 44). -/
opaque commandNo : Nat → Word

/-- The sender descriptor through which the firmware of a bridge forwards a launch block that is for another device of its
group; none for a block of its own (R337 does not say what names the device) (DESIGN CHOICE, log 22). -/
opaque forwardTo : List Word → Option Word

end Sys2Proof.Config
end

