-- ==== Sys2Proof/Syntax.lean ====
section
/-! DEFINITION. The abstract instructions: one constructor for each row of spec/opcode_table.json. 298 rows
are instruction words (fields as the table names them, R103 to R126); the other 83 are the part's own steps, whose
arguments name the unit, thread, operation or arriving flit that the step is about; they come first here. -/
namespace Sys2Proof

/-- One 96-byte flit of a link (R327): the header fields by name, then the payload bytes. `link` is the link on which it
arrives or leaves. -/
structure Flit where
  link : Nat
  cls : Nat          -- H0[63:62]
  sub : Nat          -- H0[61]
  kind : Nat         -- H0[60:55]
  ddev : Nat         -- H0[54:43]
  sdev : Nat         -- H0[42:31]
  dlcn : Nat         -- H0[30:20]
  slcn : Nat         -- H0[19:9]
  hops : Nat         -- H0[8:4]
  len : Nat          -- H1[63:57]
  addr : Nat         -- H1[55:0]
  tag : Nat          -- H2[63:48]
  eseq : Nat         -- H2[47:32]
  lseq : Nat         -- H2[31:16]
  param : Nat        -- H3[63:32]
  crc : Nat          -- H3[31:0]
  spare : Nat        -- the bits that R327 gives as zero: H0[3:0], H1[56], H2[15:0], from the least
  payload : List Byte
  deriving DecidableEq, Repr

/-- The registers that a host or management write reaches and that have no behaviour of their own (R7, R338, R358,
R366): the part reads them later. -/
inductive HostReg where
  | hosttail | mhost | ldoor | lmslots
  | msixTable (i : Nat)              -- BAR0 0x0100-0x04FF, 8-byte word i (R338)
  | msixPba                          -- BAR0 0x0500
  | bar0Other (off : Nat)            -- every other BAR0 offset: ignored (R338)
  | bar2 (off : Nat)                 -- an 8-byte word of the BAR2 window (R338)
  | ftbase | elbase | recbase | det | mode | pstate | secst
  | cktgt (i : Nat)                  -- CKTGT word i of 32 (R366)
  | control (off : Nat)              -- an 8-byte word of the device control page (R358)
  deriving DecidableEq, Repr

/-- A firmware image, the public key that it names and its signature (R370). -/
structure Firmware where
  image : List Byte
  key : List Byte
  signature : List Byte
  deriving DecidableEq, Repr

/-- A debug token (R372): the digest of the device identity, the launches and the expiry tick that it names, and the public
key and signature that it comes with. -/
structure Token where
  identity : List Byte
  launches : List Nat
  expiry : Nat
  key : List Byte
  signature : List Byte
  deriving DecidableEq, Repr

/-- What a CHALLENGE or a GET_MEASUREMENTS asks for (R339): the device and the nonce. -/
structure ReportRequest where
  device : Nat
  nonce : List Byte
  deriving DecidableEq, Repr

/-- What bring-up finds and sets (R379): firmware, training, the numbers and base registers firmware writes. -/
structure BringUp where
  images : List Firmware             -- in load order (R370)
  trainOk : Bool                     -- HBM, boundaries and links train (R13, R15)
  badStep : Nat                      -- else the step, its cause and the unit of the cause, for the error log (R381)
  cause : Nat
  badUnit : Nat
  removed : List (List Nat)          -- of each of the ten die boundaries, the modules that fail training or lane repair (R15)
  devno : Nat
  ftbase : Word
  elbase : Word
  recbase : Word
  cktgt : List Word
  control : List Word                -- the control page (R358)
  queues : List Word                 -- the seventeen words of the launch-queue table (R40)
  linksUp : Word                     -- UP bits (R326)
  launchArea : Word                  -- where firmware copies launch blocks that come by mailbox (R337)
  relay : List (Nat × Word)          -- the descriptors over which attestation reports are relayed, by device (R339)
  debugToken : Option Token          -- the token presented to the management controller, for DEBUG-FULL (R372)
  deriving DecidableEq, Repr

/-- The safe-tier targets that RESTORE names, by their place in CKTGT, and the first segment that cannot be read from
them, if any (R380). -/
structure RestoreSource where
  targets : List Nat
  badSegment : Option Nat
  deriving DecidableEq, Repr

/-- The steps of the part itself, then the instruction words, each in the order of the table. -/
inductive Instr where
  | handlerStart (core slot : Nat)   -- HANDLER_START, R25
  | threadPlacement (core slot pos : Nat)   -- THREAD_PLACEMENT, R39
  | shareComputation (core : Nat)   -- SHARE_COMPUTATION, R42
  | urgentShareComputation (core : Nat)   -- URGENT_SHARE_COMPUTATION, R44
  | preemption (tid : Nat)   -- PREEMPTION, R354
  | preemptionGraceExpiry (tid : Nat)   -- PREEMPTION_GRACE_EXPIRY, R292
  | waitLimitExpiry (tid : Nat)   -- WAIT_LIMIT_EXPIRY, R353
  | deferredResultReturn (acc : Nat)   -- DEFERRED_RESULT_RETURN, R32
  | mtArrival (tid : Nat)   -- MT_ARRIVAL, R49
  | launchInboxCompletion (lnum : Nat)   -- LAUNCH_INBOX_COMPLETION, R46
  | launchMailboxCompletion (lnum : Nat)   -- LAUNCH_MAILBOX_COMPLETION, R336
  | stageBalancer (lnum : Nat)   -- STAGE_BALANCER, R56
  | asyncTrapDelivery (tid : Nat)   -- ASYNC_TRAP_DELIVERY, R350
  | uintDelivery (tid : Nat)   -- UINT_DELIVERY, R352
  | homeWrite (acc : Nat)   -- HOME_WRITE, R182
  | directoryOverflow (line : Nat)   -- DIRECTORY_OVERFLOW, R185
  | copyStart (core op : Nat)   -- COPY_START, R261
  | copyCompletion (core op : Nat)   -- COPY_COMPLETION, R267
  | copyInboxAction (core op : Nat)   -- COPY_INBOX_ACTION, R267
  | pushAction (core op : Nat)   -- PUSH_ACTION, R269
  | mxuCommandStart (grove : Nat)   -- MXU_COMMAND_START, R288
  | mxuRow (core op : Nat)   -- MXU_ROW, R282
  | mxuCommandComplete (core op : Nat)   -- MXU_COMMAND_COMPLETE, R286
  | watchActionStart (slice entry : Nat)   -- WATCH_ACTION_START, R273
  | canopyRound (group : Nat)   -- CANOPY_ROUND, R342
  | remoteCopyData (f : Flit)   -- REMOTE_COPY_DATA, R383
  | remoteCopyCompletionRequest (f : Flit)   -- REMOTE_COPY_COMPLETION_REQUEST, R330
  | remoteCopyReport (f : Flit)   -- REMOTE_COPY_REPORT, R383
  | mailboxPayload (f : Flit)   -- MAILBOX_PAYLOAD, R384
  | mailboxSequenceWord (f : Flit)   -- MAILBOX_SEQUENCE_WORD, R384
  | slotReleaseNotice (f : Flit)   -- SLOT_RELEASE_NOTICE, R384
  | cutHeader (f : Flit)   -- CUT_HEADER, R385
  | cutUnit (f : Flit)   -- CUT_UNIT, R313
  | cutMarker (f : Flit)   -- CUT_MARKER, R319
  | cutAcknowledgement (f : Flit)   -- CUT_ACKNOWLEDGEMENT, R317
  | timeBaseSynchronisation (f : Flit)   -- TIME_BASE_SYNCHRONISATION, R386
  | discardReport (f : Flit)   -- DISCARD_REPORT, R386
  | linkAcknowledgement (f : Flit)   -- LINK_ACKNOWLEDGEMENT, R386
  | retryRequest (f : Flit)   -- RETRY_REQUEST, R386
  | linkIdle (f : Flit)   -- LINK_IDLE, R386
  | bulkWriteFault (f : Flit)   -- BULK_WRITE_FAULT, R386
  | bulkData (f : Flit)   -- BULK_DATA, R386
  | linkOutOfService (link : Nat)   -- LINK_OUT_OF_SERVICE, R329
  | boundaryModuleFailure (boundary module : Nat)   -- BOUNDARY_MODULE_FAILURE, R15
  | cutSend (sotx die peer : Nat)   -- CUT_SEND, R317
  | membershipEvaluation (sotx die : Nat)   -- MEMBERSHIP_EVALUATION, R320
  | silenceExpiry (sotx die member : Nat)   -- SILENCE_EXPIRY, R320
  | rshipBoundExpiry (sotx die : Nat)   -- RSHIP_BOUND_EXPIRY, R318
  | migrationRequest (page : List (Nat × Byte))   -- MIGRATION_REQUEST, R341
  | ldoor (v : Word)   -- LDOOR, R337
  | launchMailboxTake   -- LAUNCH_MAILBOX_TAKE, R337
  | mdoor (v : Word)   -- MDOOR, R340
  | dmhead (v : Word)   -- DMHEAD, R358
  | summary (v : Word)               -- SUMMARY, R376
  | registerWrite (r : HostReg) (v : Word)   -- REGISTER_WRITE, R7
  | checkpoint   -- CHECKPOINT, R378
  | restore (src : RestoreSource)   -- RESTORE, R380
  | bringUp (b : BringUp)   -- BRING_UP, R379
  | enterService   -- ENTER_SERVICE, R367
  | enterTest   -- ENTER_TEST, R367
  | enterD1   -- ENTER_D1, R368
  | enterD2   -- ENTER_D2, R368
  | enterD3   -- ENTER_D3, R368
  | wakeD0   -- WAKE_D0, R368
  | clockLevelWrite (level : BitVec 2)   -- CLOCK_LEVEL_WRITE, R369
  | clockLevelChange   -- CLOCK_LEVEL_CHANGE, R18
  | debugToken (tok : Token)   -- DEBUG_TOKEN, R372
  | debugTokenExpiry   -- DEBUG_TOKEN_EXPIRY, R372
  | debugTokenRevocation   -- DEBUG_TOKEN_REVOCATION, R372
  | debugResume (tid : Nat)   -- DEBUG_RESUME, R372
  | getVersion   -- GET_VERSION, R339
  | getCapabilities   -- GET_CAPABILITIES, R339
  | negotiateAlgorithms   -- NEGOTIATE_ALGORITHMS, R339
  | getDigests   -- GET_DIGESTS, R339
  | getCertificate   -- GET_CERTIFICATE, R339
  | challenge (r : ReportRequest)   -- CHALLENGE, R339
  | getMeasurements (r : ReportRequest)   -- GET_MEASUREMENTS, R371
  | sessionEstablishment   -- SESSION_ESTABLISHMENT, R339
  | replayEventDelivery   -- REPLAY_EVENT_DELIVERY, R375
  | illegalEncoding (word : BitVec 32)   -- ILLEGAL_ENCODING, R128
  | flitCrcFailure (f : Flit)   -- FLIT_CRC_FAILURE, R328
  | reservedKindFlit (f : Flit)   -- RESERVED_KIND_FLIT, R328
  | managementLaunchSubmission (addr : Word)   -- MANAGEMENT_LAUNCH_SUBMISSION, R375
  | add (w : BitVec 1) (d : BitVec 7) (a : BitVec 7) (b : BitVec 7)   -- ADD, R133
  | sub (w : BitVec 1) (d : BitVec 7) (a : BitVec 7) (b : BitVec 7)   -- SUB, R133
  | and (w : BitVec 1) (d : BitVec 7) (a : BitVec 7) (b : BitVec 7)   -- AND, R133
  | or (w : BitVec 1) (d : BitVec 7) (a : BitVec 7) (b : BitVec 7)   -- OR, R133
  | xor (w : BitVec 1) (d : BitVec 7) (a : BitVec 7) (b : BitVec 7)   -- XOR, R133
  | andn (w : BitVec 1) (d : BitVec 7) (a : BitVec 7) (b : BitVec 7)   -- ANDN, R133
  | shl (w : BitVec 1) (d : BitVec 7) (a : BitVec 7) (b : BitVec 7)   -- SHL, R133
  | shr (w : BitVec 1) (d : BitVec 7) (a : BitVec 7) (b : BitVec 7)   -- SHR, R133
  | sra (w : BitVec 1) (d : BitVec 7) (a : BitVec 7) (b : BitVec 7)   -- SRA, R133
  | min (w : BitVec 1) (d : BitVec 7) (a : BitVec 7) (b : BitVec 7)   -- MIN, R133
  | max (w : BitVec 1) (d : BitVec 7) (a : BitVec 7) (b : BitVec 7)   -- MAX, R133
  | minn (w : BitVec 1) (d : BitVec 7) (a : BitVec 7) (b : BitVec 7)   -- MINN, R133
  | maxn (w : BitVec 1) (d : BitVec 7) (a : BitVec 7) (b : BitVec 7)   -- MAXN, R133
  | mul (w : BitVec 1) (d : BitVec 7) (a : BitVec 7) (b : BitVec 7)   -- MUL, R133
  | mulh (w : BitVec 1) (d : BitVec 7) (a : BitVec 7) (b : BitVec 7)   -- MULH, R133
  | mulhn (w : BitVec 1) (d : BitVec 7) (a : BitVec 7) (b : BitVec 7)   -- MULHN, R133
  | divs (w : BitVec 1) (d : BitVec 7) (a : BitVec 7) (b : BitVec 7)   -- DIVS, R134
  | divn (w : BitVec 1) (d : BitVec 7) (a : BitVec 7) (b : BitVec 7)   -- DIVN, R134
  | rems (w : BitVec 1) (d : BitVec 7) (a : BitVec 7) (b : BitVec 7)   -- REMS, R134
  | remn (w : BitVec 1) (d : BitVec 7) (a : BitVec 7) (b : BitVec 7)   -- REMN, R134
  | clz (w : BitVec 1) (d : BitVec 7) (a : BitVec 7)   -- CLZ, R134
  | ctz (w : BitVec 1) (d : BitVec 7) (a : BitVec 7)   -- CTZ, R134
  | popc (w : BitVec 1) (d : BitVec 7) (a : BitVec 7)   -- POPC, R134
  | rotl (w : BitVec 1) (d : BitVec 7) (a : BitVec 7) (b : BitVec 7)   -- ROTL, R134
  | rotr (w : BitVec 1) (d : BitVec 7) (a : BitVec 7) (b : BitVec 7)   -- ROTR, R134
  | addsh1 (w : BitVec 1) (d : BitVec 7) (a : BitVec 7) (b : BitVec 7)   -- ADDSH1, R134
  | addsh2 (w : BitVec 1) (d : BitVec 7) (a : BitVec 7) (b : BitVec 7)   -- ADDSH2, R134
  | addsh3 (w : BitVec 1) (d : BitVec 7) (a : BitVec 7) (b : BitVec 7)   -- ADDSH3, R134
  | spbank (w : BitVec 1) (d : BitVec 7) (a : BitVec 7)   -- SPBANK, R135
  | sprow (w : BitVec 1) (d : BitVec 7) (a : BitVec 7)   -- SPROW, R135
  | brev (w : BitVec 1) (d : BitVec 7) (a : BitVec 7)   -- BREV, R134
  | bswap (w : BitVec 1) (d : BitVec 7) (a : BitVec 7)   -- BSWAP, R134
  | ceq (w : BitVec 1) (p : BitVec 1) (k : BitVec 6) (a : BitVec 7) (b : BitVec 7)   -- CEQ, R136
  | cne (w : BitVec 1) (p : BitVec 1) (k : BitVec 6) (a : BitVec 7) (b : BitVec 7)   -- CNE, R136
  | clt (w : BitVec 1) (p : BitVec 1) (k : BitVec 6) (a : BitVec 7) (b : BitVec 7)   -- CLT, R136
  | cle (w : BitVec 1) (p : BitVec 1) (k : BitVec 6) (a : BitVec 7) (b : BitVec 7)   -- CLE, R136
  | cltn (w : BitVec 1) (p : BitVec 1) (k : BitVec 6) (a : BitVec 7) (b : BitVec 7)   -- CLTN, R136
  | clen (w : BitVec 1) (p : BitVec 1) (k : BitVec 6) (a : BitVec 7) (b : BitVec 7)   -- CLEN, R136
  | cbit (w : BitVec 1) (p : BitVec 1) (k : BitVec 6) (a : BitVec 7) (b : BitVec 7)   -- CBIT, R136
  | addi (w : BitVec 1) (d : BitVec 7) (a : BitVec 7) (i : BitVec 11)   -- ADDI, R137
  | andi (w : BitVec 1) (d : BitVec 7) (a : BitVec 7) (i : BitVec 11)   -- ANDI, R137
  | ori (w : BitVec 1) (d : BitVec 7) (a : BitVec 7) (i : BitVec 11)   -- ORI, R137
  | xori (w : BitVec 1) (d : BitVec 7) (a : BitVec 7) (i : BitVec 11)   -- XORI, R137
  | muli (w : BitVec 1) (d : BitVec 7) (a : BitVec 7) (i : BitVec 11)   -- MULI, R137
  | shli (w : BitVec 1) (d : BitVec 7) (a : BitVec 7) (n : BitVec 6)   -- SHLI, R138
  | shri (w : BitVec 1) (d : BitVec 7) (a : BitVec 7) (n : BitVec 6)   -- SHRI, R138
  | srai (w : BitVec 1) (d : BitVec 7) (a : BitVec 7) (n : BitVec 6)   -- SRAI, R138
  | rotli (w : BitVec 1) (d : BitVec 7) (a : BitVec 7) (n : BitVec 6)   -- ROTLI, R138
  | ceqi (w : BitVec 1) (p : BitVec 1) (k : BitVec 6) (a : BitVec 7) (i : BitVec 8)   -- CEQI, R140
  | cnei (w : BitVec 1) (p : BitVec 1) (k : BitVec 6) (a : BitVec 7) (i : BitVec 8)   -- CNEI, R140
  | clti (w : BitVec 1) (p : BitVec 1) (k : BitVec 6) (a : BitVec 7) (i : BitVec 8)   -- CLTI, R140
  | clei (w : BitVec 1) (p : BitVec 1) (k : BitVec 6) (a : BitVec 7) (i : BitVec 8)   -- CLEI, R140
  | cltni (w : BitVec 1) (p : BitVec 1) (k : BitVec 6) (a : BitVec 7) (i : BitVec 8)   -- CLTNI, R140
  | cleni (w : BitVec 1) (p : BitVec 1) (k : BitVec 6) (a : BitVec 7) (i : BitVec 8)   -- CLENI, R140
  | cgti (w : BitVec 1) (p : BitVec 1) (k : BitVec 6) (a : BitVec 7) (i : BitVec 8)   -- CGTI, R140
  | cgei (w : BitVec 1) (p : BitVec 1) (k : BitVec 6) (a : BitVec 7) (i : BitVec 8)   -- CGEI, R140
  | exti (w : BitVec 1) (d : BitVec 7) (a : BitVec 7) (x : BitVec 5) (l : BitVec 6)   -- EXTI, R139
  | lqz (w : BitVec 1) (d : BitVec 7) (q : BitVec 2) (i : BitVec 16)   -- LQZ, R141
  | lqk (w : BitVec 1) (d : BitVec 7) (q : BitVec 2) (i : BitVec 16)   -- LQK, R141
  | pcadd (w : BitVec 1) (d : BitVec 7) (q : BitVec 1) (i : BitVec 16)   -- PCADD, R141
  | psel (w : BitVec 1) (d : BitVec 7) (a : BitVec 7) (b : BitVec 7) (k : BitVec 4)   -- PSEL, R142
  | pand (w : BitVec 1) (k : BitVec 6) (j : BitVec 6) (m : BitVec 6)   -- PAND, R143
  | por (w : BitVec 1) (k : BitVec 6) (j : BitVec 6) (m : BitVec 6)   -- POR, R143
  | pxor (w : BitVec 1) (k : BitVec 6) (j : BitVec 6) (m : BitVec 6)   -- PXOR, R143
  | pandn (w : BitVec 1) (k : BitVec 6) (j : BitVec 6) (m : BitVec 6)   -- PANDN, R143
  | porn (w : BitVec 1) (k : BitVec 6) (j : BitVec 6) (m : BitVec 6)   -- PORN, R143
  | pnand (w : BitVec 1) (k : BitVec 6) (j : BitVec 6) (m : BitVec 6)   -- PNAND, R143
  | pnor (w : BitVec 1) (k : BitVec 6) (j : BitVec 6) (m : BitVec 6)   -- PNOR, R143
  | pxnor (w : BitVec 1) (k : BitVec 6) (j : BitVec 6) (m : BitVec 6)   -- PXNOR, R143
  | brPset (w : BitVec 1) (x : BitVec 6) (o : BitVec 15)   -- BR_PSET, R144
  | brPclr (w : BitVec 1) (x : BitVec 6) (o : BitVec 15)   -- BR_PCLR, R144
  | brZ (w : BitVec 1) (x : BitVec 6) (o : BitVec 15)   -- BR_Z, R144
  | brNz (w : BitVec 1) (x : BitVec 6) (o : BitVec 15)   -- BR_NZ, R144
  | brEop (w : BitVec 1) (o : BitVec 15)   -- BR_EOP, R144
  | brEos (w : BitVec 1) (o : BitVec 15)   -- BR_EOS, R144
  | brQe (w : BitVec 1) (o : BitVec 15)   -- BR_QE, R144
  | br (w : BitVec 1) (o : BitVec 15)   -- BR, R144
  | jmp (w : BitVec 1) (o : BitVec 25)   -- JMP, R145
  | jal (w : BitVec 1) (o : BitVec 25)   -- JAL, R145
  | jalr (w : BitVec 1) (d : BitVec 7) (a : BitVec 7) (i : BitVec 11)   -- JALR, R146
  | repf (w : BitVec 1) (n : BitVec 6) (m : BitVec 3) (t : BitVec 4)   -- REPF, R147
  | nop (w : BitVec 1)   -- NOP, R150
  | yield (w : BitVec 1)   -- YIELD, R150
  | texit (w : BitVec 1) (a : BitVec 7) (j : BitVec 1)   -- TEXIT, R151
  | halt (w : BitVec 1)   -- HALT, R152
  | faddF32 (w : BitVec 1) (d : BitVec 7) (a : BitVec 7) (b : BitVec 7)   -- FADD_F32, R157
  | fsubF32 (w : BitVec 1) (d : BitVec 7) (a : BitVec 7) (b : BitVec 7)   -- FSUB_F32, R157
  | fmulF32 (w : BitVec 1) (d : BitVec 7) (a : BitVec 7) (b : BitVec 7)   -- FMUL_F32, R157
  | fdivF32 (w : BitVec 1) (d : BitVec 7) (a : BitVec 7) (b : BitVec 7)   -- FDIV_F32, R157
  | fsqrtF32 (w : BitVec 1) (d : BitVec 7) (a : BitVec 7)   -- FSQRT_F32, R157
  | fminF32 (w : BitVec 1) (d : BitVec 7) (a : BitVec 7) (b : BitVec 7)   -- FMIN_F32, R158
  | fmaxF32 (w : BitVec 1) (d : BitVec 7) (a : BitVec 7) (b : BitVec 7)   -- FMAX_F32, R158
  | fmaF32 (w : BitVec 1) (d : BitVec 7) (a : BitVec 7) (b : BitVec 7)   -- FMA_F32, R157
  | fmsF32 (w : BitVec 1) (d : BitVec 7) (a : BitVec 7) (b : BitVec 7)   -- FMS_F32, R157
  | fnmaF32 (w : BitVec 1) (d : BitVec 7) (a : BitVec 7) (b : BitVec 7)   -- FNMA_F32, R157
  | fabsF32 (w : BitVec 1) (d : BitVec 7) (a : BitVec 7)   -- FABS_F32, R157
  | fnegF32 (w : BitVec 1) (d : BitVec 7) (a : BitVec 7)   -- FNEG_F32, R157
  | fcpsF32 (w : BitVec 1) (d : BitVec 7) (a : BitVec 7) (b : BitVec 7)   -- FCPS_F32, R157
  | fceqF32 (w : BitVec 1) (p : BitVec 1) (k : BitVec 6) (a : BitVec 7) (b : BitVec 7)   -- FCEQ_F32, R159
  | fcltF32 (w : BitVec 1) (p : BitVec 1) (k : BitVec 6) (a : BitVec 7) (b : BitVec 7)   -- FCLT_F32, R159
  | fcleF32 (w : BitVec 1) (p : BitVec 1) (k : BitVec 6) (a : BitVec 7) (b : BitVec 7)   -- FCLE_F32, R159
  | faddF64 (w : BitVec 1) (d : BitVec 7) (a : BitVec 7) (b : BitVec 7)   -- FADD_F64, R157
  | fsubF64 (w : BitVec 1) (d : BitVec 7) (a : BitVec 7) (b : BitVec 7)   -- FSUB_F64, R157
  | fmulF64 (w : BitVec 1) (d : BitVec 7) (a : BitVec 7) (b : BitVec 7)   -- FMUL_F64, R157
  | fdivF64 (w : BitVec 1) (d : BitVec 7) (a : BitVec 7) (b : BitVec 7)   -- FDIV_F64, R157
  | fsqrtF64 (w : BitVec 1) (d : BitVec 7) (a : BitVec 7)   -- FSQRT_F64, R157
  | fminF64 (w : BitVec 1) (d : BitVec 7) (a : BitVec 7) (b : BitVec 7)   -- FMIN_F64, R158
  | fmaxF64 (w : BitVec 1) (d : BitVec 7) (a : BitVec 7) (b : BitVec 7)   -- FMAX_F64, R158
  | fmaF64 (w : BitVec 1) (d : BitVec 7) (a : BitVec 7) (b : BitVec 7)   -- FMA_F64, R157
  | fmsF64 (w : BitVec 1) (d : BitVec 7) (a : BitVec 7) (b : BitVec 7)   -- FMS_F64, R157
  | fnmaF64 (w : BitVec 1) (d : BitVec 7) (a : BitVec 7) (b : BitVec 7)   -- FNMA_F64, R157
  | fabsF64 (w : BitVec 1) (d : BitVec 7) (a : BitVec 7)   -- FABS_F64, R157
  | fnegF64 (w : BitVec 1) (d : BitVec 7) (a : BitVec 7)   -- FNEG_F64, R157
  | fcpsF64 (w : BitVec 1) (d : BitVec 7) (a : BitVec 7) (b : BitVec 7)   -- FCPS_F64, R157
  | fceqF64 (w : BitVec 1) (p : BitVec 1) (k : BitVec 6) (a : BitVec 7) (b : BitVec 7)   -- FCEQ_F64, R159
  | fcltF64 (w : BitVec 1) (p : BitVec 1) (k : BitVec 6) (a : BitVec 7) (b : BitVec 7)   -- FCLT_F64, R159
  | fcleF64 (w : BitVec 1) (p : BitVec 1) (k : BitVec 6) (a : BitVec 7) (b : BitVec 7)   -- FCLE_F64, R159
  | fcvtF64F32 (w : BitVec 1) (d : BitVec 7) (a : BitVec 7)   -- FCVT_F64_F32, R160
  | fcvtF32F64 (w : BitVec 1) (d : BitVec 7) (a : BitVec 7)   -- FCVT_F32_F64, R160
  | fcvtF32S64 (w : BitVec 1) (d : BitVec 7) (a : BitVec 7)   -- FCVT_F32_S64, R160
  | fcvtF32N64 (w : BitVec 1) (d : BitVec 7) (a : BitVec 7)   -- FCVT_F32_N64, R160
  | fcvtF64S64 (w : BitVec 1) (d : BitVec 7) (a : BitVec 7)   -- FCVT_F64_S64, R160
  | fcvtF64N64 (w : BitVec 1) (d : BitVec 7) (a : BitVec 7)   -- FCVT_F64_N64, R160
  | fcvtS64F32 (w : BitVec 1) (d : BitVec 7) (a : BitVec 7)   -- FCVT_S64_F32, R160
  | fcvtN64F32 (w : BitVec 1) (d : BitVec 7) (a : BitVec 7)   -- FCVT_N64_F32, R160
  | fcvtS64F64 (w : BitVec 1) (d : BitVec 7) (a : BitVec 7)   -- FCVT_S64_F64, R160
  | fcvtN64F64 (w : BitVec 1) (d : BitVec 7) (a : BitVec 7)   -- FCVT_N64_F64, R160
  | fcvtF32B16 (w : BitVec 1) (d : BitVec 7) (a : BitVec 7)   -- FCVT_F32_B16, R160
  | fcvtB16F32 (w : BitVec 1) (d : BitVec 7) (a : BitVec 7)   -- FCVT_B16_F32, R160
  | fcvtF32F16 (w : BitVec 1) (d : BitVec 7) (a : BitVec 7)   -- FCVT_F32_F16, R160
  | fcvtF16F32 (w : BitVec 1) (d : BitVec 7) (a : BitVec 7)   -- FCVT_F16_F32, R160
  | fcvtF32E4 (w : BitVec 1) (d : BitVec 7) (a : BitVec 7)   -- FCVT_F32_E4, R160
  | fcvtF32E5 (w : BitVec 1) (d : BitVec 7) (a : BitVec 7)   -- FCVT_F32_E5, R160
  | fcvtE4F32 (w : BitVec 1) (d : BitVec 7) (a : BitVec 7)   -- FCVT_E4_F32, R160
  | fcvtE5F32 (w : BitVec 1) (d : BitVec 7) (a : BitVec 7)   -- FCVT_E5_F32, R160
  | vadd (w : BitVec 1) (d : BitVec 5) (a : BitVec 5) (b : BitVec 5) (m : BitVec 1) (t : BitVec 3)   -- VADD, R163
  | vsub (w : BitVec 1) (d : BitVec 5) (a : BitVec 5) (b : BitVec 5) (m : BitVec 1) (t : BitVec 3)   -- VSUB, R163
  | vmul (w : BitVec 1) (d : BitVec 5) (a : BitVec 5) (b : BitVec 5) (m : BitVec 1) (t : BitVec 3)   -- VMUL, R163
  | vdiv (w : BitVec 1) (d : BitVec 5) (a : BitVec 5) (b : BitVec 5) (m : BitVec 1) (t : BitVec 3)   -- VDIV, R163
  | vfma (w : BitVec 1) (d : BitVec 5) (a : BitVec 5) (b : BitVec 5) (m : BitVec 1) (t : BitVec 3)   -- VFMA, R163
  | vfms (w : BitVec 1) (d : BitVec 5) (a : BitVec 5) (b : BitVec 5) (m : BitVec 1) (t : BitVec 3)   -- VFMS, R163
  | vfnma (w : BitVec 1) (d : BitVec 5) (a : BitVec 5) (b : BitVec 5) (m : BitVec 1) (t : BitVec 3)   -- VFNMA, R163
  | vsqrt (w : BitVec 1) (d : BitVec 5) (a : BitVec 5) (m : BitVec 1) (t : BitVec 3)   -- VSQRT, R163
  | vmin (w : BitVec 1) (d : BitVec 5) (a : BitVec 5) (b : BitVec 5) (m : BitVec 1) (t : BitVec 3)   -- VMIN, R163
  | vmax (w : BitVec 1) (d : BitVec 5) (a : BitVec 5) (b : BitVec 5) (m : BitVec 1) (t : BitVec 3)   -- VMAX, R163
  | vabs (w : BitVec 1) (d : BitVec 5) (a : BitVec 5) (m : BitVec 1) (t : BitVec 3)   -- VABS, R163
  | vneg (w : BitVec 1) (d : BitVec 5) (a : BitVec 5) (m : BitVec 1) (t : BitVec 3)   -- VNEG, R163
  | vcps (w : BitVec 1) (d : BitVec 5) (a : BitVec 5) (b : BitVec 5) (m : BitVec 1) (t : BitVec 3)   -- VCPS, R163
  | vrcp (w : BitVec 1) (d : BitVec 5) (a : BitVec 5) (m : BitVec 1) (t : BitVec 3)   -- VRCP, R164
  | vrsq (w : BitVec 1) (d : BitVec 5) (a : BitVec 5) (m : BitVec 1) (t : BitVec 3)   -- VRSQ, R164
  | vexp2 (w : BitVec 1) (d : BitVec 5) (a : BitVec 5) (m : BitVec 1) (t : BitVec 3)   -- VEXP2, R164
  | vlog2 (w : BitVec 1) (d : BitVec 5) (a : BitVec 5) (m : BitVec 1) (t : BitVec 3)   -- VLOG2, R164
  | vdot (w : BitVec 1) (d : BitVec 5) (a : BitVec 5) (b : BitVec 5) (m : BitVec 1) (t : BitVec 3)   -- VDOT, R165
  | vand (w : BitVec 1) (d : BitVec 5) (a : BitVec 5) (b : BitVec 5) (m : BitVec 1) (t : BitVec 3)   -- VAND, R166
  | vor (w : BitVec 1) (d : BitVec 5) (a : BitVec 5) (b : BitVec 5) (m : BitVec 1) (t : BitVec 3)   -- VOR, R166
  | vxor (w : BitVec 1) (d : BitVec 5) (a : BitVec 5) (b : BitVec 5) (m : BitVec 1) (t : BitVec 3)   -- VXOR, R166
  | vshl (w : BitVec 1) (d : BitVec 5) (a : BitVec 5) (b : BitVec 5) (m : BitVec 1) (t : BitVec 3)   -- VSHL, R166
  | vshr (w : BitVec 1) (d : BitVec 5) (a : BitVec 5) (b : BitVec 5) (m : BitVec 1) (t : BitVec 3)   -- VSHR, R166
  | vsra (w : BitVec 1) (d : BitVec 5) (a : BitVec 5) (b : BitVec 5) (m : BitVec 1) (t : BitVec 3)   -- VSRA, R166
  | vceq (w : BitVec 1) (c : BitVec 1) (a : BitVec 5) (b : BitVec 5) (m : BitVec 1) (t : BitVec 3)   -- VCEQ, R167
  | vcne (w : BitVec 1) (c : BitVec 1) (a : BitVec 5) (b : BitVec 5) (m : BitVec 1) (t : BitVec 3)   -- VCNE, R167
  | vclt (w : BitVec 1) (c : BitVec 1) (a : BitVec 5) (b : BitVec 5) (m : BitVec 1) (t : BitVec 3)   -- VCLT, R167
  | vcle (w : BitVec 1) (c : BitVec 1) (a : BitVec 5) (b : BitVec 5) (m : BitVec 1) (t : BitVec 3)   -- VCLE, R167
  | vsel (w : BitVec 1) (d : BitVec 5) (a : BitVec 5) (b : BitVec 5) (t : BitVec 3)   -- VSEL, R168
  | vadds (w : BitVec 1) (d : BitVec 5) (a : BitVec 5) (b : BitVec 5) (m : BitVec 1) (t : BitVec 3)   -- VADDS, R166
  | vsubs (w : BitVec 1) (d : BitVec 5) (a : BitVec 5) (b : BitVec 5) (m : BitVec 1) (t : BitVec 3)   -- VSUBS, R166
  | vmulh (w : BitVec 1) (d : BitVec 5) (a : BitVec 5) (b : BitVec 5) (m : BitVec 1) (t : BitVec 3)   -- VMULH, R166
  | vcvt (w : BitVec 1) (d : BitVec 5) (a : BitVec 5) (p : BitVec 5) (m : BitVec 1) (t : BitVec 3) (s : BitVec 3)   -- VCVT, R169
  | vperm (w : BitVec 1) (d : BitVec 5) (a : BitVec 5) (b : BitVec 5) (m : BitVec 1) (t : BitVec 3)   -- VPERM, R170
  | vbcst (w : BitVec 1) (d : BitVec 5) (a : BitVec 5) (l : BitVec 5) (m : BitVec 1) (t : BitVec 3)   -- VBCST, R170
  | vins (w : BitVec 1) (d : BitVec 5) (a : BitVec 5) (l : BitVec 5) (m : BitVec 1) (t : BitVec 3)   -- VINS, R170
  | vext (w : BitVec 1) (d : BitVec 5) (a : BitVec 5) (l : BitVec 5) (m : BitVec 1) (t : BitVec 3)   -- VEXT, R170
  | vzipl (w : BitVec 1) (d : BitVec 5) (a : BitVec 5) (b : BitVec 5) (m : BitVec 1) (t : BitVec 3)   -- VZIPL, R170
  | vziph (w : BitVec 1) (d : BitVec 5) (a : BitVec 5) (b : BitVec 5) (m : BitVec 1) (t : BitVec 3)   -- VZIPH, R170
  | vuzpe (w : BitVec 1) (d : BitVec 5) (a : BitVec 5) (b : BitVec 5) (m : BitVec 1) (t : BitVec 3)   -- VUZPE, R170
  | vuzpo (w : BitVec 1) (d : BitVec 5) (a : BitVec 5) (b : BitVec 5) (m : BitVec 1) (t : BitVec 3)   -- VUZPO, R170
  | vrsum (w : BitVec 1) (d : BitVec 5) (a : BitVec 5) (m : BitVec 1) (t : BitVec 3)   -- VRSUM, R171
  | vrmax (w : BitVec 1) (d : BitVec 5) (a : BitVec 5) (m : BitVec 1) (t : BitVec 3)   -- VRMAX, R171
  | vrmin (w : BitVec 1) (d : BitVec 5) (a : BitVec 5) (m : BitVec 1) (t : BitVec 3)   -- VRMIN, R171
  | vrand (w : BitVec 1) (d : BitVec 5) (a : BitVec 5) (m : BitVec 1) (t : BitVec 3)   -- VRAND, R171
  | vror (w : BitVec 1) (d : BitVec 5) (a : BitVec 5) (m : BitVec 1) (t : BitVec 3)   -- VROR, R171
  | vmovs (w : BitVec 1) (d : BitVec 5) (a : BitVec 5) (m : BitVec 1) (t : BitVec 3)   -- VMOVS, R170
  | lds8 (w : BitVec 1) (t : BitVec 7) (b : BitVec 7) (r : BitVec 3) (o : BitVec 8)   -- LDS8, R190
  | ldn8 (w : BitVec 1) (t : BitVec 7) (b : BitVec 7) (r : BitVec 3) (o : BitVec 8)   -- LDN8, R190
  | lds16 (w : BitVec 1) (t : BitVec 7) (b : BitVec 7) (r : BitVec 3) (o : BitVec 8)   -- LDS16, R190
  | ldn16 (w : BitVec 1) (t : BitVec 7) (b : BitVec 7) (r : BitVec 3) (o : BitVec 8)   -- LDN16, R190
  | lds32 (w : BitVec 1) (t : BitVec 7) (b : BitVec 7) (r : BitVec 3) (o : BitVec 8)   -- LDS32, R190
  | ldn32 (w : BitVec 1) (t : BitVec 7) (b : BitVec 7) (r : BitVec 3) (o : BitVec 8)   -- LDN32, R190
  | ld64 (w : BitVec 1) (t : BitVec 7) (b : BitVec 7) (r : BitVec 3) (o : BitVec 8)   -- LD64, R190
  | st8 (w : BitVec 1) (t : BitVec 7) (b : BitVec 7) (r : BitVec 3) (o : BitVec 8)   -- ST8, R190
  | st16 (w : BitVec 1) (t : BitVec 7) (b : BitVec 7) (r : BitVec 3) (o : BitVec 8)   -- ST16, R190
  | st32 (w : BitVec 1) (t : BitVec 7) (b : BitVec 7) (r : BitVec 3) (o : BitVec 8)   -- ST32, R190
  | st64 (w : BitVec 1) (t : BitVec 7) (b : BitVec 7) (r : BitVec 3) (o : BitVec 8)   -- ST64, R190
  | vld (w : BitVec 1) (t : BitVec 5) (b : BitVec 7) (m : BitVec 1) (r : BitVec 2)   -- VLD, R193
  | vlds (w : BitVec 1) (t : BitVec 5) (b : BitVec 7) (x : BitVec 7) (m : BitVec 1) (r : BitVec 2)   -- VLDS, R193
  | vgth (w : BitVec 1) (t : BitVec 5) (b : BitVec 7) (x : BitVec 5) (m : BitVec 1) (r : BitVec 2)   -- VGTH, R193
  | vst (w : BitVec 1) (t : BitVec 5) (b : BitVec 7) (m : BitVec 1) (r : BitVec 2)   -- VST, R193
  | vsts (w : BitVec 1) (t : BitVec 5) (b : BitVec 7) (x : BitVec 7) (m : BitVec 1) (r : BitVec 2)   -- VSTS, R193
  | vsct (w : BitVec 1) (t : BitVec 5) (b : BitVec 7) (x : BitVec 5) (m : BitVec 1) (r : BitVec 2)   -- VSCT, R193
  | amo64Swap (w : BitVec 1) (d : BitVec 7) (a : BitVec 7) (b : BitVec 7) (r : BitVec 2)   -- AMO64_SWAP, R196
  | amo64Cas (w : BitVec 1) (d : BitVec 7) (a : BitVec 7) (b : BitVec 7) (r : BitVec 2)   -- AMO64_CAS, R196
  | amo64Add (w : BitVec 1) (d : BitVec 7) (a : BitVec 7) (b : BitVec 7) (r : BitVec 2)   -- AMO64_ADD, R196
  | amo64Fadd (w : BitVec 1) (d : BitVec 7) (a : BitVec 7) (b : BitVec 7) (r : BitVec 2)   -- AMO64_FADD, R196
  | amo32Swap (w : BitVec 1) (d : BitVec 7) (a : BitVec 7) (b : BitVec 7) (r : BitVec 2)   -- AMO32_SWAP, R196
  | amo32Cas (w : BitVec 1) (d : BitVec 7) (a : BitVec 7) (b : BitVec 7) (r : BitVec 2)   -- AMO32_CAS, R196
  | amo32Add (w : BitVec 1) (d : BitVec 7) (a : BitVec 7) (b : BitVec 7) (r : BitVec 2)   -- AMO32_ADD, R196
  | amo32Fadd (w : BitVec 1) (d : BitVec 7) (a : BitVec 7) (b : BitVec 7) (r : BitVec 2)   -- AMO32_FADD, R196
  | redAdd (w : BitVec 1) (z : BitVec 1) (s : BitVec 3) (a : BitVec 7) (b : BitVec 7)   -- RED_ADD, R197
  | redAnd (w : BitVec 1) (z : BitVec 1) (s : BitVec 3) (a : BitVec 7) (b : BitVec 7)   -- RED_AND, R197
  | redOr (w : BitVec 1) (z : BitVec 1) (s : BitVec 3) (a : BitVec 7) (b : BitVec 7)   -- RED_OR, R197
  | redXor (w : BitVec 1) (z : BitVec 1) (s : BitVec 3) (a : BitVec 7) (b : BitVec 7)   -- RED_XOR, R197
  | redMax (w : BitVec 1) (z : BitVec 1) (s : BitVec 3) (a : BitVec 7) (b : BitVec 7)   -- RED_MAX, R197
  | redMin (w : BitVec 1) (z : BitVec 1) (s : BitVec 3) (a : BitVec 7) (b : BitVec 7)   -- RED_MIN, R197
  | redMaxn (w : BitVec 1) (z : BitVec 1) (s : BitVec 3) (a : BitVec 7) (b : BitVec 7)   -- RED_MAXN, R197
  | redMinn (w : BitVec 1) (z : BitVec 1) (s : BitVec 3) (a : BitVec 7) (b : BitVec 7)   -- RED_MINN, R197
  | redFadd (w : BitVec 1) (z : BitVec 1) (s : BitVec 3) (a : BitVec 7) (b : BitVec 7)   -- RED_FADD, R197
  | redFmax (w : BitVec 1) (z : BitVec 1) (s : BitVec 3) (a : BitVec 7) (b : BitVec 7)   -- RED_FMAX, R197
  | redFmin (w : BitVec 1) (z : BitVec 1) (s : BitVec 3) (a : BitVec 7) (b : BitVec 7)   -- RED_FMIN, R197
  | vamoSwap (w : BitVec 1) (d : BitVec 5) (a : BitVec 5) (b : BitVec 5) (m : BitVec 1) (t : BitVec 3) (r : BitVec 2)   -- VAMO_SWAP, R198
  | vamoAdd (w : BitVec 1) (d : BitVec 5) (a : BitVec 5) (b : BitVec 5) (m : BitVec 1) (t : BitVec 3) (r : BitVec 2)   -- VAMO_ADD, R198
  | vamoAnd (w : BitVec 1) (d : BitVec 5) (a : BitVec 5) (b : BitVec 5) (m : BitVec 1) (t : BitVec 3) (r : BitVec 2)   -- VAMO_AND, R198
  | vamoOr (w : BitVec 1) (d : BitVec 5) (a : BitVec 5) (b : BitVec 5) (m : BitVec 1) (t : BitVec 3) (r : BitVec 2)   -- VAMO_OR, R198
  | vamoXor (w : BitVec 1) (d : BitVec 5) (a : BitVec 5) (b : BitVec 5) (m : BitVec 1) (t : BitVec 3) (r : BitVec 2)   -- VAMO_XOR, R198
  | vamoMax (w : BitVec 1) (d : BitVec 5) (a : BitVec 5) (b : BitVec 5) (m : BitVec 1) (t : BitVec 3) (r : BitVec 2)   -- VAMO_MAX, R198
  | vamoMin (w : BitVec 1) (d : BitVec 5) (a : BitVec 5) (b : BitVec 5) (m : BitVec 1) (t : BitVec 3) (r : BitVec 2)   -- VAMO_MIN, R198
  | vamoFadd (w : BitVec 1) (d : BitVec 5) (a : BitVec 5) (b : BitVec 5) (m : BitVec 1) (t : BitVec 3) (r : BitVec 2)   -- VAMO_FADD, R198
  | fence (w : BitVec 1) (s : BitVec 3)   -- FENCE, R200
  | ldfe (w : BitVec 1) (d : BitVec 7) (a : BitVec 7)   -- LDFE, R201
  | ldfec (w : BitVec 1) (d : BitVec 7) (a : BitVec 7)   -- LDFEC, R201
  | stfe (w : BitVec 1) (d : BitVec 7) (a : BitVec 7)   -- STFE, R201
  | waitge (w : BitVec 1) (d : BitVec 7) (a : BitVec 7)   -- WAITGE, R202
  | migrate (w : BitVec 1) (a : BitVec 7)   -- MIGRATE, R204
  | prefetch (w : BitVec 1) (a : BitVec 7) (l : BitVec 1)   -- PREFETCH, R205
  | fork (w : BitVec 1) (d : BitVec 7) (a : BitVec 7) (n : BitVec 5)   -- FORK, R232
  | joinw (w : BitVec 1) (a : BitVec 7)   -- JOINW, R233
  | launch (w : BitVec 1) (a : BitVec 7)   -- LAUNCH, R234
  | tinfo (w : BitVec 1) (d : BitVec 7) (s : BitVec 3)   -- TINFO, R235
  | qbind (w : BitVec 1) (q : BitVec 3) (a : BitVec 7)   -- QBIND, R237
  | qpoll (w : BitVec 1) (d : BitVec 7) (q : BitVec 3)   -- QPOLL, R242
  | send (w : BitVec 1) (q : BitVec 3) (a : BitVec 7)   -- SEND, R243
  | sende (w : BitVec 1) (q : BitVec 3) (a : BitVec 7)   -- SENDE, R243
  | vqrd (w : BitVec 1) (v : BitVec 5) (q : BitVec 3)   -- VQRD, R241
  | vqwr (w : BitVec 1) (q : BitVec 3) (v : BitVec 5)   -- VQWR, R241
  | itemget (w : BitVec 1) (d : BitVec 7) (a : BitVec 7)   -- ITEMGET, R245
  | itemput (w : BitVec 1) (d : BitVec 7) (a : BitVec 7) (o : BitVec 1)   -- ITEMPUT, R246
  | barj (w : BitVec 1) (a : BitVec 7)   -- BARJ, R249
  | barl (w : BitVec 1) (a : BitVec 7)   -- BARL, R249
  | bara (w : BitVec 1) (a : BitVec 7)   -- BARA, R250
  | barw (w : BitVec 1) (a : BitVec 7)   -- BARW, R250
  | barm (w : BitVec 1) (d : BitVec 7) (a : BitVec 7)   -- BARM, R251
  | csig (w : BitVec 1) (d : BitVec 7) (a : BitVec 7) (s : BitVec 3)   -- CSIG, R253
  | xset (w : BitVec 1) (d : BitVec 7) (f : BitVec 5) (e : BitVec 1)   -- XSET, R266
  | xget (w : BitVec 1) (d : BitVec 7) (f : BitVec 5) (e : BitVec 1)   -- XGET, R266
  | xlaunch (w : BitVec 1) (d : BitVec 7) (e : BitVec 1)   -- XLAUNCH, R266
  | xwait (w : BitVec 1) (a : BitVec 7) (e : BitVec 1)   -- XWAIT, R266
  | trig (w : BitVec 1) (d : BitVec 7) (a : BitVec 7)   -- TRIG, R274
  | trigc (w : BitVec 1) (a : BitVec 7)   -- TRIGC, R275
  | trigq (w : BitVec 1) (d : BitVec 7) (a : BitVec 7)   -- TRIGQ, R276
  | mxwait (w : BitVec 1) (a : BitVec 7)   -- MXWAIT, R294
  | mxrd (w : BitVec 1) (v : BitVec 5) (a : BitVec 7)   -- MXRD, R295
  | hdone (w : BitVec 1)   -- HDONE, R296
  | ppt (w : BitVec 1) (m : BitVec 2)   -- PPT, R297
  | radd (w : BitVec 1) (d : BitVec 7) (a : BitVec 7)   -- RADD, R308
  | rmax (w : BitVec 1) (d : BitVec 7) (a : BitVec 7)   -- RMAX, R308
  | rlww (w : BitVec 1) (d : BitVec 7) (a : BitVec 7)   -- RLWW, R310
  | rsadd (w : BitVec 1) (d : BitVec 7) (a : BitVec 7)   -- RSADD, R308
  | rsrem (w : BitVec 1) (d : BitVec 7) (a : BitVec 7)   -- RSREM, R308
  | rshas (w : BitVec 1) (d : BitVec 7) (a : BitVec 7) (k : BitVec 6)   -- RSHAS, R312
  | rmean (w : BitVec 1) (d : BitVec 7) (a : BitVec 7)   -- RMEAN, R308
  | rfront (w : BitVec 1) (d : BitVec 7) (a : BitVec 7) (c : BitVec 6)   -- RFRONT, R321
  | rwaitf (w : BitVec 1) (d : BitVec 7) (a : BitVec 7) (c : BitVec 6)   -- RWAITF, R321
  | hlcrd (w : BitVec 1) (d : BitVec 7)   -- HLCRD, R316
  | rship (w : BitVec 1) (a : BitVec 7)   -- RSHIP, R318
  | rstat (w : BitVec 1) (d : BitVec 7) (a : BitVec 7) (s : BitVec 3)   -- RSTAT, R323
  | mbsend (w : BitVec 1) (d : BitVec 7) (a : BitVec 7)   -- MBSEND, R333
  | mbrecv (w : BitVec 1) (d : BitVec 7) (a : BitVec 7)   -- MBRECV, R334
  | mbpoll (w : BitVec 1) (d : BitVec 7) (a : BitVec 7)   -- MBPOLL, R335
  | trputAdd (w : BitVec 1) (v : BitVec 5) (t : BitVec 2)   -- TRPUT_ADD, R344
  | trputMin (w : BitVec 1) (v : BitVec 5) (t : BitVec 2)   -- TRPUT_MIN, R344
  | trputMax (w : BitVec 1) (v : BitVec 5) (t : BitVec 2)   -- TRPUT_MAX, R344
  | trputAnd (w : BitVec 1) (v : BitVec 5)   -- TRPUT_AND, R344
  | trputOr (w : BitVec 1) (v : BitVec 5)   -- TRPUT_OR, R344
  | trputXor (w : BitVec 1) (v : BitVec 5)   -- TRPUT_XOR, R344
  | trputBcast (w : BitVec 1) (v : BitVec 5) (t : BitVec 2)   -- TRPUT_BCAST, R344
  | trputBarrier (w : BitVec 1) (v : BitVec 5)   -- TRPUT_BARRIER, R344
  | trget (w : BitVec 1) (v : BitVec 5)   -- TRGET, R344
  | trap (w : BitVec 1) (c : BitVec 6)   -- TRAP, R363
  | eret (w : BitVec 1)   -- ERET, R348
  | uiret (w : BitVec 1)   -- UIRET, R352
  | csrrd (w : BitVec 1) (d : BitVec 7) (c : BitVec 6) (n : BitVec 6)   -- CSRRD, R364
  | csrwr (w : BitVec 1) (d : BitVec 7) (c : BitVec 6) (n : BitVec 6)   -- CSRWR, R364
  | csrset (w : BitVec 1) (d : BitVec 7) (c : BitVec 6) (n : BitVec 6)   -- CSRSET, R364
  | csrclr (w : BitVec 1) (d : BitVec 7) (c : BitVec 6) (n : BitVec 6)   -- CSRCLR, R364
  | grd (w : BitVec 1) (d : BitVec 7) (g : BitVec 5)   -- GRD, R153
  | gwr (w : BitVec 1) (d : BitVec 7) (g : BitVec 5)   -- GWR, R153
  | tlbinv (w : BitVec 1) (a : BitVec 7) (s : BitVec 3)   -- TLBINV, R365
  | tlbinvAll (w : BitVec 1) (s : BitVec 3)   -- TLBINV_ALL, R365
  | bkpt (w : BitVec 1)   -- BKPT, R363
  deriving DecidableEq, Repr

end Sys2Proof
end

