-- ==== Sys2Proof/WellFormed.lean ====
section
/-! DEFINITION. Well-formed instructions: the field values that R87, R94, R103 to R126 and the instruction chapters
allow. Every other value raises ILLEGAL_ENCODING (R107 step 1). -/
namespace Sys2Proof

/-- The kinds of ILLEGAL_ENCODING that a field value causes. -/
inductive EncodingFault where
  | reservedRegister       -- register number 127 read (R87)
  | forbiddenDestination   -- a stream register, tid or 127 written (R87)
  | deferredDestination    -- a deferred result not to a window register or zr (R31)
  | bankRule               -- a source pair of one parity (R94)
  | badType                -- a TY outside the member's set (R124, R125, R126)
  | badOrder               -- an ORD that the access does not take (R105)
  | badScope               -- a scope code that the instruction excludes (R122)
  | badSelector            -- a selector the chapter leaves unassigned (R126)
  | badField               -- an engine field or count the chapter leaves unassigned (R126, R232, R266)
  | badLane                -- a lane number at or beyond the lane count (R170)
  | badPart                -- a part number at or beyond P (R169)
  | badCsr                 -- a CSR number that R95 leaves unassigned
  | unusedField            -- an unused field that is not zero (R104, R126, R167)
  | maskForbidden          -- M = 1 where M must be 0 (R168, R170)
  | extractRange           -- lo + width above 64 (R139)
  | badUnit                -- a step's argument names no unit of the part (R11)
  deriving DecidableEq, Repr

/-- One check: its fault where the condition fails. -/
def chk (c : Prop) [Decidable c] (e : EncodingFault) : Option EncodingFault := if c then none else some e

/-- The first fault of a list of checks. -/
def first (cs : List (Option EncodingFault)) : Option EncodingFault := cs.findSome? id

/-- A scalar field that is read (R87). -/
def src (f : BitVec 7) : Option EncodingFault := chk (f ≠ 127#7) .reservedRegister

/-- A scalar field that is written (R87): a window register, a channel head, zr or pw. -/
def dst (f : BitVec 7) : Option EncodingFault :=
  chk (f.toNat ≤ 119 ∨ f = 124#7 ∨ f = 126#7) .forbiddenDestination

/-- The destination of a deferred result (R31): a window register or zr. -/
def deferredDst (f : BitVec 7) : Option EncodingFault := chk (f.toNat ≤ 111 ∨ f = 124#7) .deferredDestination

/-- The bank rule on two scalar fields (R94). -/
def bank (a b : BitVec 7) : Option EncodingFault :=
  chk (¬ (a.toNat ≤ 111 ∧ b.toNat ≤ 111 ∧ a.toNat % 2 = b.toNat % 2)) .bankRule

/-- The bank rule on two vector fields (R94). -/
def vbank (a b : BitVec 5) : Option EncodingFault := chk (a.toNat % 2 ≠ b.toNat % 2) .bankRule

/-- The set of lane types a member takes (R123, R124). -/
def types (l : List Nat) (t : BitVec 3) : Option EncodingFault := chk (t.toNat ∈ l) .badType

/-- EXTI's range (R139). -/
def extract (l : BitVec 6) (x : BitVec 5) : Option EncodingFault :=
  chk (l.toNat + (x.toNat + 1) ≤ 64) .extractRange

/-- The number of lanes of a lane type (R123, R161). -/
def lanesOf (t : BitVec 3) : Nat :=
  match t.toNat with
  | 0 | 5 | 6 => 16
  | 1 | 2 => 32
  | _ => 64

/-- The number of parts P of a VCVT from s to t (R169). -/
def vcvtParts (s t : BitVec 3) : Nat := max (lanesOf s) (lanesOf t) / min (lanesOf s) (lanesOf t)

/-- The lane that VBCST, VINS and VEXT name (R170). -/
def laneNumber (t : BitVec 3) (m : BitVec 1) (l : BitVec 5) : Nat :=
  if lanesOf t ≤ 32 then l.toNat else 32 * m.toNat + l.toNat

/-- The lane rule of VBCST, VINS and VEXT (R170). -/
def lane (t : BitVec 3) (m : BitVec 1) (l : BitVec 5) : Option EncodingFault :=
  first [chk (lanesOf t = 64 ∨ m = 0#1) .maskForbidden, chk (laneNumber t m l < lanesOf t) .badLane]

/-- The engine fields that exist (R258, R280). -/
abbrev fieldAssigned (e : BitVec 1) (f : BitVec 5) : Prop :=
  (e = 0#1 ∧ f.toNat ≤ 13) ∨ (e = 1#1 ∧ f.toNat ≤ 15 ∧ f.toNat ≠ 8 ∧ f.toNat ≠ 14)

/-- The CSR numbers that exist (R95, R96). -/
abbrev csrAssigned (n : Nat) : Prop :=
  n ≤ 12 ∨ (0x400 ≤ n ∧ n < 0x5C0 ∧ (n - 0x400) % 64 ≤ 12) ∨ (0x7C0 ≤ n ∧ n ≤ 0x7C4) ∨ n = 0x800 ∨
  (0x808 ≤ n ∧ n ≤ 0x80F) ∨ (0x820 ≤ n ∧ n ≤ 0x83F) ∨ (0x840 ≤ n ∧ n ≤ 0x85F)

/-- The first field of i that holds a value its row does not allow, if any: ILLEGAL_ENCODING for a fetched word (R107
step 1); for a step of the part itself, an argument that names no unit (R11, R12). -/
def Instr.encodingFault (i : Instr) : Option EncodingFault :=
  match i with
  | .add _ d a b => first [dst d, src a, src b, bank a b]
  | .sub _ d a b => first [dst d, src a, src b, bank a b]
  | .and _ d a b => first [dst d, src a, src b, bank a b]
  | .or _ d a b => first [dst d, src a, src b, bank a b]
  | .xor _ d a b => first [dst d, src a, src b, bank a b]
  | .andn _ d a b => first [dst d, src a, src b, bank a b]
  | .shl _ d a b => first [dst d, src a, src b, bank a b]
  | .shr _ d a b => first [dst d, src a, src b, bank a b]
  | .sra _ d a b => first [dst d, src a, src b, bank a b]
  | .min _ d a b => first [dst d, src a, src b, bank a b]
  | .max _ d a b => first [dst d, src a, src b, bank a b]
  | .minn _ d a b => first [dst d, src a, src b, bank a b]
  | .maxn _ d a b => first [dst d, src a, src b, bank a b]
  | .mul _ d a b => first [dst d, src a, src b, bank a b]
  | .mulh _ d a b => first [dst d, src a, src b, bank a b]
  | .mulhn _ d a b => first [dst d, src a, src b, bank a b]
  | .divs _ d a b => first [dst d, src a, src b, bank a b]
  | .divn _ d a b => first [dst d, src a, src b, bank a b]
  | .rems _ d a b => first [dst d, src a, src b, bank a b]
  | .remn _ d a b => first [dst d, src a, src b, bank a b]
  | .clz _ d a => first [dst d, src a]
  | .ctz _ d a => first [dst d, src a]
  | .popc _ d a => first [dst d, src a]
  | .rotl _ d a b => first [dst d, src a, src b, bank a b]
  | .rotr _ d a b => first [dst d, src a, src b, bank a b]
  | .addsh1 _ d a b => first [dst d, src a, src b, bank a b]
  | .addsh2 _ d a b => first [dst d, src a, src b, bank a b]
  | .addsh3 _ d a b => first [dst d, src a, src b, bank a b]
  | .spbank _ d a => first [dst d, src a]
  | .sprow _ d a => first [dst d, src a]
  | .brev _ d a => first [dst d, src a]
  | .bswap _ d a => first [dst d, src a]
  | .ceq _ _ _ a b => first [src a, src b, bank a b]
  | .cne _ _ _ a b => first [src a, src b, bank a b]
  | .clt _ _ _ a b => first [src a, src b, bank a b]
  | .cle _ _ _ a b => first [src a, src b, bank a b]
  | .cltn _ _ _ a b => first [src a, src b, bank a b]
  | .clen _ _ _ a b => first [src a, src b, bank a b]
  | .cbit _ _ _ a b => first [src a, src b, bank a b]
  | .addi _ d a _ => first [dst d, src a]
  | .andi _ d a _ => first [dst d, src a]
  | .ori _ d a _ => first [dst d, src a]
  | .xori _ d a _ => first [dst d, src a]
  | .muli _ d a _ => first [dst d, src a]
  | .shli _ d a _ => first [dst d, src a]
  | .shri _ d a _ => first [dst d, src a]
  | .srai _ d a _ => first [dst d, src a]
  | .rotli _ d a _ => first [dst d, src a]
  | .ceqi _ _ _ a _ => first [src a]
  | .cnei _ _ _ a _ => first [src a]
  | .clti _ _ _ a _ => first [src a]
  | .clei _ _ _ a _ => first [src a]
  | .cltni _ _ _ a _ => first [src a]
  | .cleni _ _ _ a _ => first [src a]
  | .cgti _ _ _ a _ => first [src a]
  | .cgei _ _ _ a _ => first [src a]
  | .exti _ d a x l => first [dst d, src a, extract l x]
  | .lqz _ d _ _ => first [dst d]
  | .lqk _ d _ _ => first [dst d]
  | .pcadd _ d _ _ => first [dst d]
  | .psel _ d a b _ => first [dst d, src a, src b, bank a b]
  | .pand _ _ _ _ => none
  | .por _ _ _ _ => none
  | .pxor _ _ _ _ => none
  | .pandn _ _ _ _ => none
  | .porn _ _ _ _ => none
  | .pnand _ _ _ _ => none
  | .pnor _ _ _ _ => none
  | .pxnor _ _ _ _ => none
  | .brPset _ _ _ => none
  | .brPclr _ _ _ => none
  | .brZ _ _ _ => none
  | .brNz _ _ _ => none
  | .brEop _ _ => none
  | .brEos _ _ => none
  | .brQe _ _ => none
  | .br _ _ => none
  | .jmp _ _ => none
  | .jal _ _ => none
  | .jalr _ d a _ => first [dst d, src a]
  | .repf _ _ _ _ => none
  | .nop _ => none
  | .yield _ => none
  | .texit _ a j => first [src a, chk (j = 1#1 ∨ a = 0#7) .unusedField]
  | .halt _ => none
  | .faddF32 _ d a b => first [dst d, src a, src b, bank a b]
  | .fsubF32 _ d a b => first [dst d, src a, src b, bank a b]
  | .fmulF32 _ d a b => first [dst d, src a, src b, bank a b]
  | .fdivF32 _ d a b => first [dst d, src a, src b, bank a b]
  | .fsqrtF32 _ d a => first [dst d, src a]
  | .fminF32 _ d a b => first [dst d, src a, src b, bank a b]
  | .fmaxF32 _ d a b => first [dst d, src a, src b, bank a b]
  | .fmaF32 _ d a b => first [dst d, src a, src b, bank a b]
  | .fmsF32 _ d a b => first [dst d, src a, src b, bank a b]
  | .fnmaF32 _ d a b => first [dst d, src a, src b, bank a b]
  | .fabsF32 _ d a => first [dst d, src a]
  | .fnegF32 _ d a => first [dst d, src a]
  | .fcpsF32 _ d a b => first [dst d, src a, src b, bank a b]
  | .fceqF32 _ _ _ a b => first [src a, src b, bank a b]
  | .fcltF32 _ _ _ a b => first [src a, src b, bank a b]
  | .fcleF32 _ _ _ a b => first [src a, src b, bank a b]
  | .faddF64 _ d a b => first [dst d, src a, src b, bank a b]
  | .fsubF64 _ d a b => first [dst d, src a, src b, bank a b]
  | .fmulF64 _ d a b => first [dst d, src a, src b, bank a b]
  | .fdivF64 _ d a b => first [dst d, src a, src b, bank a b]
  | .fsqrtF64 _ d a => first [dst d, src a]
  | .fminF64 _ d a b => first [dst d, src a, src b, bank a b]
  | .fmaxF64 _ d a b => first [dst d, src a, src b, bank a b]
  | .fmaF64 _ d a b => first [dst d, src a, src b, bank a b]
  | .fmsF64 _ d a b => first [dst d, src a, src b, bank a b]
  | .fnmaF64 _ d a b => first [dst d, src a, src b, bank a b]
  | .fabsF64 _ d a => first [dst d, src a]
  | .fnegF64 _ d a => first [dst d, src a]
  | .fcpsF64 _ d a b => first [dst d, src a, src b, bank a b]
  | .fceqF64 _ _ _ a b => first [src a, src b, bank a b]
  | .fcltF64 _ _ _ a b => first [src a, src b, bank a b]
  | .fcleF64 _ _ _ a b => first [src a, src b, bank a b]
  | .fcvtF64F32 _ d a => first [dst d, src a]
  | .fcvtF32F64 _ d a => first [dst d, src a]
  | .fcvtF32S64 _ d a => first [dst d, src a]
  | .fcvtF32N64 _ d a => first [dst d, src a]
  | .fcvtF64S64 _ d a => first [dst d, src a]
  | .fcvtF64N64 _ d a => first [dst d, src a]
  | .fcvtS64F32 _ d a => first [dst d, src a]
  | .fcvtN64F32 _ d a => first [dst d, src a]
  | .fcvtS64F64 _ d a => first [dst d, src a]
  | .fcvtN64F64 _ d a => first [dst d, src a]
  | .fcvtF32B16 _ d a => first [dst d, src a]
  | .fcvtB16F32 _ d a => first [dst d, src a]
  | .fcvtF32F16 _ d a => first [dst d, src a]
  | .fcvtF16F32 _ d a => first [dst d, src a]
  | .fcvtF32E4 _ d a => first [dst d, src a]
  | .fcvtF32E5 _ d a => first [dst d, src a]
  | .fcvtE4F32 _ d a => first [dst d, src a]
  | .fcvtE5F32 _ d a => first [dst d, src a]
  | .vadd _ _ a b _ t => first [types [0, 1, 2, 5, 6, 7] t, vbank a b]
  | .vsub _ _ a b _ t => first [types [0, 1, 2, 5, 6, 7] t, vbank a b]
  | .vmul _ _ a b _ t => first [types [0, 1, 2, 5, 6, 7] t, vbank a b]
  | .vdiv _ _ a b _ t => first [types [0, 1, 2] t, vbank a b]
  | .vfma _ _ a b _ t => first [types [0, 1, 2] t, vbank a b]
  | .vfms _ _ a b _ t => first [types [0, 1, 2] t, vbank a b]
  | .vfnma _ _ a b _ t => first [types [0, 1, 2] t, vbank a b]
  | .vsqrt _ _ _ _ t => first [types [0, 1, 2] t]
  | .vmin _ _ a b _ _ => first [vbank a b]
  | .vmax _ _ a b _ _ => first [vbank a b]
  | .vabs _ _ _ _ t => first [types [0, 1, 2, 3, 4, 5, 7] t]
  | .vneg _ _ _ _ t => first [types [0, 1, 2, 3, 4, 5, 7] t]
  | .vcps _ _ a b _ t => first [types [0, 1, 2, 3, 4] t, vbank a b]
  | .vrcp _ _ _ _ t => first [types [0] t]
  | .vrsq _ _ _ _ t => first [types [0] t]
  | .vexp2 _ _ _ _ t => first [types [0] t]
  | .vlog2 _ _ _ _ t => first [types [0] t]
  | .vdot _ _ a b _ t => first [types [1, 7] t, vbank a b]
  | .vand _ _ a b _ _ => first [vbank a b]
  | .vor _ _ a b _ _ => first [vbank a b]
  | .vxor _ _ a b _ _ => first [vbank a b]
  | .vshl _ _ a b _ t => first [types [5, 6, 7] t, vbank a b]
  | .vshr _ _ a b _ t => first [types [5, 6, 7] t, vbank a b]
  | .vsra _ _ a b _ t => first [types [5, 7] t, vbank a b]
  | .vceq _ _ a b _ _ => first [vbank a b]
  | .vcne _ _ a b _ _ => first [vbank a b]
  | .vclt _ _ a b _ _ => first [vbank a b]
  | .vcle _ _ a b _ _ => first [vbank a b]
  | .vsel _ _ a b _ => first [vbank a b]
  | .vadds _ _ a b _ t => first [types [5, 6, 7] t, vbank a b]
  | .vsubs _ _ a b _ t => first [types [5, 6, 7] t, vbank a b]
  | .vmulh _ _ a b _ t => first [types [5, 6] t, vbank a b]
  | .vcvt _ _ _ p _ t s => first [chk (s ≠ t) .badType, chk (p.toNat < vcvtParts s t) .badPart]
  | .vperm _ _ a b _ _ => first [vbank a b]
  | .vbcst _ _ _ l m t => first [lane t m l]
  | .vins _ _ _ l m t => first [lane t m l]
  | .vext _ _ _ l m t => first [lane t m l]
  | .vzipl _ _ a b _ _ => first [vbank a b]
  | .vziph _ _ a b _ _ => first [vbank a b]
  | .vuzpe _ _ a b _ _ => first [vbank a b]
  | .vuzpo _ _ a b _ _ => first [vbank a b]
  | .vrsum _ _ _ _ t => first [types [0, 1, 2, 5, 6, 7] t]
  | .vrmax _ _ _ _ _ => none
  | .vrmin _ _ _ _ _ => none
  | .vrand _ _ _ _ t => first [types [5, 6, 7] t]
  | .vror _ _ _ _ t => first [types [5, 6, 7] t]
  | .vmovs _ _ _ _ _ => none
  | .lds8 _ t b r _ => first [deferredDst t, src b, chk (r ≠ 7#3) .badOrder]
  | .ldn8 _ t b r _ => first [deferredDst t, src b, chk (r ≠ 7#3) .badOrder]
  | .lds16 _ t b r _ => first [deferredDst t, src b, chk (r ≠ 7#3) .badOrder]
  | .ldn16 _ t b r _ => first [deferredDst t, src b, chk (r ≠ 7#3) .badOrder]
  | .lds32 _ t b r _ => first [deferredDst t, src b, chk (r ≠ 7#3) .badOrder]
  | .ldn32 _ t b r _ => first [deferredDst t, src b, chk (r ≠ 7#3) .badOrder]
  | .ld64 _ t b r _ => first [deferredDst t, src b, chk (r ≠ 7#3) .badOrder]
  | .st8 _ t b r _ => first [src t, src b, bank b t, chk (r ≠ 2#3 ∧ r ≠ 6#3 ∧ r ≠ 7#3) .badOrder]
  | .st16 _ t b r _ => first [src t, src b, bank b t, chk (r ≠ 2#3 ∧ r ≠ 6#3 ∧ r ≠ 7#3) .badOrder]
  | .st32 _ t b r _ => first [src t, src b, bank b t, chk (r ≠ 2#3 ∧ r ≠ 6#3 ∧ r ≠ 7#3) .badOrder]
  | .st64 _ t b r _ => first [src t, src b, bank b t, chk (r ≠ 2#3 ∧ r ≠ 6#3 ∧ r ≠ 7#3) .badOrder]
  | .vld _ _ b _ _ => first [src b]
  | .vlds _ _ b x _ _ => first [src b, src x, bank b x]
  | .vgth _ _ b _ _ _ => first [src b]
  | .vst _ _ b _ _ => first [src b]
  | .vsts _ _ b x _ _ => first [src b, src x, bank b x]
  | .vsct _ _ b _ _ _ => first [src b]
  | .amo64Swap _ d a b _ => first [deferredDst d, src a, src b, bank a b]
  | .amo64Cas _ d a b _ => first [deferredDst d, src a, src b, bank a b]
  | .amo64Add _ d a b _ => first [deferredDst d, src a, src b, bank a b]
  | .amo64Fadd _ d a b _ => first [deferredDst d, src a, src b, bank a b]
  | .amo32Swap _ d a b _ => first [deferredDst d, src a, src b, bank a b]
  | .amo32Cas _ d a b _ => first [deferredDst d, src a, src b, bank a b]
  | .amo32Add _ d a b _ => first [deferredDst d, src a, src b, bank a b]
  | .amo32Fadd _ d a b _ => first [deferredDst d, src a, src b, bank a b]
  | .redAdd _ _ s a b => first [src a, src b, bank a b, chk (s.toNat ≤ 4) .badScope]
  | .redAnd _ _ s a b => first [src a, src b, bank a b, chk (s.toNat ≤ 4) .badScope]
  | .redOr _ _ s a b => first [src a, src b, bank a b, chk (s.toNat ≤ 4) .badScope]
  | .redXor _ _ s a b => first [src a, src b, bank a b, chk (s.toNat ≤ 4) .badScope]
  | .redMax _ _ s a b => first [src a, src b, bank a b, chk (s.toNat ≤ 4) .badScope]
  | .redMin _ _ s a b => first [src a, src b, bank a b, chk (s.toNat ≤ 4) .badScope]
  | .redMaxn _ _ s a b => first [src a, src b, bank a b, chk (s.toNat ≤ 4) .badScope]
  | .redMinn _ _ s a b => first [src a, src b, bank a b, chk (s.toNat ≤ 4) .badScope]
  | .redFadd _ _ s a b => first [src a, src b, bank a b, chk (s.toNat ≤ 4) .badScope]
  | .redFmax _ _ s a b => first [src a, src b, bank a b, chk (s.toNat ≤ 4) .badScope]
  | .redFmin _ _ s a b => first [src a, src b, bank a b, chk (s.toNat ≤ 4) .badScope]
  | .vamoSwap _ _ a b _ t _ => first [vbank a b, types [0, 5, 6] t]
  | .vamoAdd _ _ a b _ t _ => first [vbank a b, types [0, 5, 6] t]
  | .vamoAnd _ _ a b _ t _ => first [vbank a b, types [5, 6] t]
  | .vamoOr _ _ a b _ t _ => first [vbank a b, types [5, 6] t]
  | .vamoXor _ _ a b _ t _ => first [vbank a b, types [5, 6] t]
  | .vamoMax _ _ a b _ t _ => first [vbank a b, types [0, 5, 6] t]
  | .vamoMin _ _ a b _ t _ => first [vbank a b, types [0, 5, 6] t]
  | .vamoFadd _ _ a b _ t _ => first [vbank a b, types [0] t]
  | .fence _ s => first [chk (s.toNat ≤ 5) .badScope]
  | .ldfe _ d a => first [dst d, src a]
  | .ldfec _ d a => first [dst d, src a]
  | .stfe _ d a => first [src d, src a]
  | .waitge _ d a => first [src d, src a]
  | .migrate _ a => first [src a]
  | .prefetch _ a _ => first [src a]
  | .fork _ d a n => first [src d, src a, chk (n.toNat ≤ 24) .badField]
  | .joinw _ a => first [src a]
  | .launch _ a => first [src a]
  | .tinfo _ d s => first [dst d, chk (s.toNat ≤ 5) .badSelector]
  | .qbind _ _ a => first [src a]
  | .qpoll _ d _ => first [dst d]
  | .send _ _ a => first [src a]
  | .sende _ _ a => first [src a]
  | .vqrd _ _ _ => none
  | .vqwr _ _ _ => none
  | .itemget _ d a => first [dst d, dst a]
  | .itemput _ d a _ => first [src d, src a]
  | .barj _ a => first [src a]
  | .barl _ a => first [src a]
  | .bara _ a => first [src a]
  | .barw _ a => first [src a]
  | .barm _ d a => first [dst d, src a]
  | .csig _ d a s => first [src d, src a, chk (1 ≤ s.toNat ∧ s.toNat ≤ 4) .badScope]
  | .xset _ d f e => first [src d, chk (fieldAssigned e f) .badField]
  | .xget _ d f e => first [dst d, chk (fieldAssigned e f) .badField]
  | .xlaunch _ d _ => first [dst d]
  | .xwait _ a _ => first [src a]
  | .trig _ d a => first [deferredDst d, src a]
  | .trigc _ a => first [src a]
  | .trigq _ d a => first [dst d, src a]
  | .mxwait _ a => first [src a]
  | .mxrd _ _ a => first [src a]
  | .hdone _ => none
  | .ppt _ _ => none
  | .radd _ d a => first [deferredDst d, src a]
  | .rmax _ d a => first [deferredDst d, src a]
  | .rlww _ d a => first [deferredDst d, src a]
  | .rsadd _ d a => first [deferredDst d, src a]
  | .rsrem _ d a => first [deferredDst d, src a]
  | .rshas _ d a _ => first [src d, src a]
  | .rmean _ d a => first [deferredDst d, src a]
  | .rfront _ d a _ => first [deferredDst d, src a]
  | .rwaitf _ d a _ => first [src d, src a]
  | .hlcrd _ d => first [dst d]
  | .rship _ a => first [src a]
  | .rstat _ d a s => first [dst d, src a, chk (s.toNat ≤ 3) .badSelector]
  | .mbsend _ d a => first [src d, src a]
  | .mbrecv _ d a => first [dst d, src a]
  | .mbpoll _ d a => first [dst d, src a]
  | .trputAdd _ _ t => first [chk (t ≠ 3#2) .badType]
  | .trputMin _ _ t => first [chk (t ≠ 3#2) .badType]
  | .trputMax _ _ t => first [chk (t ≠ 3#2) .badType]
  | .trputAnd _ _ => none
  | .trputOr _ _ => none
  | .trputXor _ _ => none
  | .trputBcast _ _ t => first [chk (t ≠ 3#2) .badType]
  | .trputBarrier _ _ => none
  | .trget _ _ => none
  | .trap _ _ => none
  | .eret _ => none
  | .uiret _ => none
  | .csrrd _ d c n => first [dst d, chk (csrAssigned (c.toNat * 64 + n.toNat)) .badCsr]
  | .csrwr _ d c n => first [src d, chk (csrAssigned (c.toNat * 64 + n.toNat)) .badCsr]
  | .csrset _ d c n => first [src d, chk (csrAssigned (c.toNat * 64 + n.toNat)) .badCsr]
  | .csrclr _ d c n => first [src d, chk (csrAssigned (c.toNat * 64 + n.toNat)) .badCsr]
  | .grd _ d _ => first [dst d]
  | .gwr _ d _ => first [src d]
  | .tlbinv _ a s => first [src a, chk (1 ≤ s.toNat ∧ s.toNat ≤ 4) .badScope]
  | .tlbinvAll _ s => first [chk (1 ≤ s.toNat ∧ s.toNat ≤ 4) .badScope]
  | .bkpt _ => none
  | .handlerStart core slot => first [chk (core < 2048) .badUnit, chk (slot < 8) .badUnit]
  | .threadPlacement core slot pos => first [chk (core < 2048) .badUnit, chk (slot < 8) .badUnit, chk (pos < 8) .badUnit]
  | .shareComputation core => first [chk (core < 2048) .badUnit]
  | .urgentShareComputation core => first [chk (core < 2048) .badUnit]
  | .preemption _ => none
  | .preemptionGraceExpiry _ => none
  | .waitLimitExpiry _ => none
  | .deferredResultReturn _ => none
  | .mtArrival _ => none
  | .launchInboxCompletion lnum => first [chk (lnum < 16384) .badUnit]
  | .launchMailboxCompletion lnum => first [chk (lnum < 16384) .badUnit]
  | .stageBalancer lnum => first [chk (lnum < 16384) .badUnit]
  | .asyncTrapDelivery _ => none
  | .uintDelivery _ => none
  | .homeWrite _ => none
  | .directoryOverflow _ => none
  | .copyStart core _ => first [chk (core < 2048) .badUnit]
  | .copyCompletion core _ => first [chk (core < 2048) .badUnit]
  | .copyInboxAction core _ => first [chk (core < 2048) .badUnit]
  | .pushAction core _ => first [chk (core < 2048) .badUnit]
  | .mxuCommandStart grove => first [chk (grove < 256) .badUnit]
  | .mxuRow core _ => first [chk (core < 2048) .badUnit]
  | .mxuCommandComplete core _ => first [chk (core < 2048) .badUnit]
  | .watchActionStart slice entry => first [chk (slice < 2048) .badUnit, chk (entry < 64) .badUnit]
  | .canopyRound group => first [chk (1 ≤ group ∧ group ≤ 255) .badUnit]
  | .remoteCopyData f => first [chk (f.link < 16) .badUnit]
  | .remoteCopyCompletionRequest f => first [chk (f.link < 16) .badUnit]
  | .remoteCopyReport f => first [chk (f.link < 16) .badUnit]
  | .mailboxPayload f => first [chk (f.link < 16) .badUnit]
  | .mailboxSequenceWord f => first [chk (f.link < 16) .badUnit]
  | .slotReleaseNotice f => first [chk (f.link < 16) .badUnit]
  | .cutHeader f => first [chk (f.link < 16) .badUnit]
  | .cutUnit f => first [chk (f.link < 16) .badUnit]
  | .cutMarker f => first [chk (f.link < 16) .badUnit]
  | .cutAcknowledgement f => first [chk (f.link < 16) .badUnit]
  | .timeBaseSynchronisation f => first [chk (f.link < 16) .badUnit]
  | .discardReport f => first [chk (f.link < 16) .badUnit]
  | .linkAcknowledgement f => first [chk (f.link < 16) .badUnit]
  | .retryRequest f => first [chk (f.link < 16) .badUnit]
  | .linkIdle f => first [chk (f.link < 16) .badUnit]
  | .bulkWriteFault f => first [chk (f.link < 16) .badUnit]
  | .bulkData f => first [chk (f.link < 16) .badUnit]
  | .linkOutOfService link => first [chk (link < 16) .badUnit]
  | .boundaryModuleFailure boundary module => first [chk (boundary < 10) .badUnit, chk (module < 48) .badUnit]
  | .cutSend sotx die peer => first [chk (sotx < 4096) .badUnit, chk (die < 8) .badUnit, chk (peer < 64) .badUnit]
  | .membershipEvaluation sotx die => first [chk (sotx < 4096) .badUnit, chk (die < 8) .badUnit]
  | .silenceExpiry sotx die member => first [chk (sotx < 4096) .badUnit, chk (die < 8) .badUnit, chk (member < 64) .badUnit]
  | .rshipBoundExpiry sotx die => first [chk (sotx < 4096) .badUnit, chk (die < 8) .badUnit]
  | .migrationRequest _ => none
  | .ldoor _ => none
  | .launchMailboxTake => none
  | .mdoor _ => none
  | .dmhead _ => none
  | .summary .. => none
  | .registerWrite _ _ => none
  | .checkpoint => none
  | .restore _ => none
  | .bringUp _ => none
  | .enterService => none
  | .enterTest => none
  | .enterD1 => none
  | .enterD2 => none
  | .enterD3 => none
  | .wakeD0 => none
  | .clockLevelWrite _ => none
  | .clockLevelChange => none
  | .debugToken _ => none
  | .debugTokenExpiry => none
  | .debugTokenRevocation => none
  | .debugResume _ => none
  | .getVersion => none
  | .getCapabilities => none
  | .negotiateAlgorithms => none
  | .getDigests => none
  | .getCertificate => none
  | .challenge _ => none
  | .getMeasurements _ => none
  | .sessionEstablishment => none
  | .replayEventDelivery => none
  | .illegalEncoding _ => none
  | .flitCrcFailure f => first [chk (f.link < 16) .badUnit]
  | .reservedKindFlit f => first [chk (f.link < 16) .badUnit]
  | .managementLaunchSubmission _ => none

/-- Well-formed: no field fault. -/
def Instr.WellFormed (i : Instr) : Prop := i.encodingFault = none

end Sys2Proof
end

