-- ==== Sys2Proof/Decode.lean ====
section
/-! DEFINITION. Decoding (R103 to R128) and, after it, the encoder written from the same tables. -/
namespace Sys2Proof

/-- Why a word is no instruction: ILLEGAL_ENCODING (R107, R128), by name. -/
inductive DecodeError where
  | unassigned                       -- no row of R117 to R126 has these fixed bits, or an unused field is not zero
  | fault (e : EncodingFault)        -- a row has, but a field value is not one the row allows
  deriving DecidableEq, Repr

/-- Field of n bits from bit lo of a word (R103). -/
def fld (w lo n : Nat) : BitVec n := BitVec.ofNat n (w / 2 ^ lo)

/-- Major 0x00 (R117). -/
def decodeIop (w : Nat) : Option Instr :=
  match w / 2 ^ 0 % 16 with
  | 0 => some (.add (fld w 31 1) (fld w 18 7) (fld w 11 7) (fld w 4 7))
  | 1 => some (.sub (fld w 31 1) (fld w 18 7) (fld w 11 7) (fld w 4 7))
  | 2 => some (.and (fld w 31 1) (fld w 18 7) (fld w 11 7) (fld w 4 7))
  | 3 => some (.or (fld w 31 1) (fld w 18 7) (fld w 11 7) (fld w 4 7))
  | 4 => some (.xor (fld w 31 1) (fld w 18 7) (fld w 11 7) (fld w 4 7))
  | 5 => some (.andn (fld w 31 1) (fld w 18 7) (fld w 11 7) (fld w 4 7))
  | 6 => some (.shl (fld w 31 1) (fld w 18 7) (fld w 11 7) (fld w 4 7))
  | 7 => some (.shr (fld w 31 1) (fld w 18 7) (fld w 11 7) (fld w 4 7))
  | 8 => some (.sra (fld w 31 1) (fld w 18 7) (fld w 11 7) (fld w 4 7))
  | 9 => some (.min (fld w 31 1) (fld w 18 7) (fld w 11 7) (fld w 4 7))
  | 10 => some (.max (fld w 31 1) (fld w 18 7) (fld w 11 7) (fld w 4 7))
  | 11 => some (.minn (fld w 31 1) (fld w 18 7) (fld w 11 7) (fld w 4 7))
  | 12 => some (.maxn (fld w 31 1) (fld w 18 7) (fld w 11 7) (fld w 4 7))
  | 13 => some (.mul (fld w 31 1) (fld w 18 7) (fld w 11 7) (fld w 4 7))
  | 14 => some (.mulh (fld w 31 1) (fld w 18 7) (fld w 11 7) (fld w 4 7))
  | 15 => some (.mulhn (fld w 31 1) (fld w 18 7) (fld w 11 7) (fld w 4 7))
  | _ => none

/-- Major 0x01 (R117). -/
def decodeIop2 (w : Nat) : Option Instr :=
  match w / 2 ^ 0 % 16 with
  | 0 => some (.divs (fld w 31 1) (fld w 18 7) (fld w 11 7) (fld w 4 7))
  | 1 => some (.divn (fld w 31 1) (fld w 18 7) (fld w 11 7) (fld w 4 7))
  | 2 => some (.rems (fld w 31 1) (fld w 18 7) (fld w 11 7) (fld w 4 7))
  | 3 => some (.remn (fld w 31 1) (fld w 18 7) (fld w 11 7) (fld w 4 7))
  | 4 => if w / 2 ^ 4 % 128 = 0 then some (.clz (fld w 31 1) (fld w 18 7) (fld w 11 7))
    else none
  | 5 => if w / 2 ^ 4 % 128 = 0 then some (.ctz (fld w 31 1) (fld w 18 7) (fld w 11 7))
    else none
  | 6 => if w / 2 ^ 4 % 128 = 0 then some (.popc (fld w 31 1) (fld w 18 7) (fld w 11 7))
    else none
  | 7 => some (.rotl (fld w 31 1) (fld w 18 7) (fld w 11 7) (fld w 4 7))
  | 8 => some (.rotr (fld w 31 1) (fld w 18 7) (fld w 11 7) (fld w 4 7))
  | 9 => some (.addsh1 (fld w 31 1) (fld w 18 7) (fld w 11 7) (fld w 4 7))
  | 10 => some (.addsh2 (fld w 31 1) (fld w 18 7) (fld w 11 7) (fld w 4 7))
  | 11 => some (.addsh3 (fld w 31 1) (fld w 18 7) (fld w 11 7) (fld w 4 7))
  | 12 => if w / 2 ^ 4 % 128 = 0 then some (.spbank (fld w 31 1) (fld w 18 7) (fld w 11 7))
    else none
  | 13 => if w / 2 ^ 4 % 128 = 0 then some (.sprow (fld w 31 1) (fld w 18 7) (fld w 11 7))
    else none
  | 14 => if w / 2 ^ 4 % 128 = 0 then some (.brev (fld w 31 1) (fld w 18 7) (fld w 11 7))
    else none
  | 15 => if w / 2 ^ 4 % 128 = 0 then some (.bswap (fld w 31 1) (fld w 18 7) (fld w 11 7))
    else none
  | _ => none

/-- Major 0x02 (R117). -/
def decodeCmp (w : Nat) : Option Instr :=
  match w / 2 ^ 0 % 16 with
  | 0 => some (.ceq (fld w 31 1) (fld w 24 1) (fld w 18 6) (fld w 11 7) (fld w 4 7))
  | 1 => some (.cne (fld w 31 1) (fld w 24 1) (fld w 18 6) (fld w 11 7) (fld w 4 7))
  | 2 => some (.clt (fld w 31 1) (fld w 24 1) (fld w 18 6) (fld w 11 7) (fld w 4 7))
  | 3 => some (.cle (fld w 31 1) (fld w 24 1) (fld w 18 6) (fld w 11 7) (fld w 4 7))
  | 4 => some (.cltn (fld w 31 1) (fld w 24 1) (fld w 18 6) (fld w 11 7) (fld w 4 7))
  | 5 => some (.clen (fld w 31 1) (fld w 24 1) (fld w 18 6) (fld w 11 7) (fld w 4 7))
  | 6 => some (.cbit (fld w 31 1) (fld w 24 1) (fld w 18 6) (fld w 11 7) (fld w 4 7))
  | _ => none

/-- Major 0x04 (R117). -/
def decodeAddi (w : Nat) : Option Instr :=
  some (.addi (fld w 31 1) (fld w 18 7) (fld w 11 7) (fld w 0 11))

/-- Major 0x05 (R117). -/
def decodeAndi (w : Nat) : Option Instr :=
  some (.andi (fld w 31 1) (fld w 18 7) (fld w 11 7) (fld w 0 11))

/-- Major 0x06 (R117). -/
def decodeOri (w : Nat) : Option Instr :=
  some (.ori (fld w 31 1) (fld w 18 7) (fld w 11 7) (fld w 0 11))

/-- Major 0x07 (R117). -/
def decodeXori (w : Nat) : Option Instr :=
  some (.xori (fld w 31 1) (fld w 18 7) (fld w 11 7) (fld w 0 11))

/-- Major 0x08 (R117). -/
def decodeShfi (w : Nat) : Option Instr :=
  match w / 2 ^ 6 % 32 with
  | 0 => some (.shli (fld w 31 1) (fld w 18 7) (fld w 11 7) (fld w 0 6))
  | 8 => some (.shri (fld w 31 1) (fld w 18 7) (fld w 11 7) (fld w 0 6))
  | 16 => some (.srai (fld w 31 1) (fld w 18 7) (fld w 11 7) (fld w 0 6))
  | 24 => some (.rotli (fld w 31 1) (fld w 18 7) (fld w 11 7) (fld w 0 6))
  | _ => none

/-- Major 0x09 (R117). -/
def decodeCmpi (w : Nat) : Option Instr :=
  match w / 2 ^ 8 % 8 with
  | 0 => some (.ceqi (fld w 31 1) (fld w 24 1) (fld w 18 6) (fld w 11 7) (fld w 0 8))
  | 1 => some (.cnei (fld w 31 1) (fld w 24 1) (fld w 18 6) (fld w 11 7) (fld w 0 8))
  | 2 => some (.clti (fld w 31 1) (fld w 24 1) (fld w 18 6) (fld w 11 7) (fld w 0 8))
  | 3 => some (.clei (fld w 31 1) (fld w 24 1) (fld w 18 6) (fld w 11 7) (fld w 0 8))
  | 4 => some (.cltni (fld w 31 1) (fld w 24 1) (fld w 18 6) (fld w 11 7) (fld w 0 8))
  | 5 => some (.cleni (fld w 31 1) (fld w 24 1) (fld w 18 6) (fld w 11 7) (fld w 0 8))
  | 6 => some (.cgti (fld w 31 1) (fld w 24 1) (fld w 18 6) (fld w 11 7) (fld w 0 8))
  | 7 => some (.cgei (fld w 31 1) (fld w 24 1) (fld w 18 6) (fld w 11 7) (fld w 0 8))
  | _ => none

/-- Major 0x0A (R117). -/
def decodeExti (w : Nat) : Option Instr :=
  some (.exti (fld w 31 1) (fld w 18 7) (fld w 11 7) (fld w 6 5) (fld w 0 6))

/-- Major 0x0B (R117). -/
def decodeMuli (w : Nat) : Option Instr :=
  some (.muli (fld w 31 1) (fld w 18 7) (fld w 11 7) (fld w 0 11))

/-- Major 0x0C (R117). -/
def decodeLqz (w : Nat) : Option Instr :=
  some (.lqz (fld w 31 1) (fld w 18 7) (fld w 16 2) (fld w 0 16))

/-- Major 0x0D (R117). -/
def decodeLqk (w : Nat) : Option Instr :=
  some (.lqk (fld w 31 1) (fld w 18 7) (fld w 16 2) (fld w 0 16))

/-- Major 0x0E (R117). -/
def decodePcadd (w : Nat) : Option Instr :=
  if w / 2 ^ 17 % 2 = 0 then some (.pcadd (fld w 31 1) (fld w 18 7) (fld w 16 1) (fld w 0 16))
  else none

/-- Major 0x0F (R117). -/
def decodePsel (w : Nat) : Option Instr :=
  some (.psel (fld w 31 1) (fld w 18 7) (fld w 11 7) (fld w 4 7) (fld w 0 4))

/-- Major 0x10 (R117). -/
def decodePlog (w : Nat) : Option Instr :=
  match w / 2 ^ 8 % 8 with
  | 0 => if w / 2 ^ 6 % 4 = 0 ∧ w / 2 ^ 17 % 2 = 0 ∧ w / 2 ^ 24 % 2 = 0 then some (.pand (fld w 31 1) (fld w 18 6) (fld w 11 6) (fld w 0 6))
    else none
  | 1 => if w / 2 ^ 6 % 4 = 0 ∧ w / 2 ^ 17 % 2 = 0 ∧ w / 2 ^ 24 % 2 = 0 then some (.por (fld w 31 1) (fld w 18 6) (fld w 11 6) (fld w 0 6))
    else none
  | 2 => if w / 2 ^ 6 % 4 = 0 ∧ w / 2 ^ 17 % 2 = 0 ∧ w / 2 ^ 24 % 2 = 0 then some (.pxor (fld w 31 1) (fld w 18 6) (fld w 11 6) (fld w 0 6))
    else none
  | 3 => if w / 2 ^ 6 % 4 = 0 ∧ w / 2 ^ 17 % 2 = 0 ∧ w / 2 ^ 24 % 2 = 0 then some (.pandn (fld w 31 1) (fld w 18 6) (fld w 11 6) (fld w 0 6))
    else none
  | 4 => if w / 2 ^ 6 % 4 = 0 ∧ w / 2 ^ 17 % 2 = 0 ∧ w / 2 ^ 24 % 2 = 0 then some (.porn (fld w 31 1) (fld w 18 6) (fld w 11 6) (fld w 0 6))
    else none
  | 5 => if w / 2 ^ 6 % 4 = 0 ∧ w / 2 ^ 17 % 2 = 0 ∧ w / 2 ^ 24 % 2 = 0 then some (.pnand (fld w 31 1) (fld w 18 6) (fld w 11 6) (fld w 0 6))
    else none
  | 6 => if w / 2 ^ 6 % 4 = 0 ∧ w / 2 ^ 17 % 2 = 0 ∧ w / 2 ^ 24 % 2 = 0 then some (.pnor (fld w 31 1) (fld w 18 6) (fld w 11 6) (fld w 0 6))
    else none
  | 7 => if w / 2 ^ 6 % 4 = 0 ∧ w / 2 ^ 17 % 2 = 0 ∧ w / 2 ^ 24 % 2 = 0 then some (.pxnor (fld w 31 1) (fld w 18 6) (fld w 11 6) (fld w 0 6))
    else none
  | _ => none

/-- Major 0x11 (R117). -/
def decodeBr (w : Nat) : Option Instr :=
  match w / 2 ^ 21 % 16 with
  | 0 => some (.brPset (fld w 31 1) (fld w 15 6) (fld w 0 15))
  | 1 => some (.brPclr (fld w 31 1) (fld w 15 6) (fld w 0 15))
  | 2 => some (.brZ (fld w 31 1) (fld w 15 6) (fld w 0 15))
  | 3 => some (.brNz (fld w 31 1) (fld w 15 6) (fld w 0 15))
  | 4 => if w / 2 ^ 15 % 64 = 0 then some (.brEop (fld w 31 1) (fld w 0 15))
    else none
  | 5 => if w / 2 ^ 15 % 64 = 0 then some (.brEos (fld w 31 1) (fld w 0 15))
    else none
  | 6 => if w / 2 ^ 15 % 64 = 0 then some (.brQe (fld w 31 1) (fld w 0 15))
    else none
  | 7 => if w / 2 ^ 15 % 64 = 0 then some (.br (fld w 31 1) (fld w 0 15))
    else none
  | _ => none

/-- Major 0x12 (R117). -/
def decodeJmp (w : Nat) : Option Instr :=
  some (.jmp (fld w 31 1) (fld w 0 25))

/-- Major 0x13 (R117). -/
def decodeJal (w : Nat) : Option Instr :=
  some (.jal (fld w 31 1) (fld w 0 25))

/-- Major 0x14 (R117). -/
def decodeJalr (w : Nat) : Option Instr :=
  some (.jalr (fld w 31 1) (fld w 18 7) (fld w 11 7) (fld w 0 11))

/-- Major 0x15 (R117). -/
def decodeRepf (w : Nat) : Option Instr :=
  if w / 2 ^ 4 % 128 = 0 ∧ w / 2 ^ 14 % 16 = 0 ∧ w / 2 ^ 24 % 2 = 0 then some (.repf (fld w 31 1) (fld w 18 6) (fld w 11 3) (fld w 0 4))
  else none

/-- Major 0x16 (R117). -/
def decodeCtl (w : Nat) : Option Instr :=
  match w / 2 ^ 6 % 32 with
  | 0 => if w / 2 ^ 0 % 64 = 0 ∧ w / 2 ^ 11 % 16384 = 0 then some (.nop (fld w 31 1))
    else none
  | 1 => if w / 2 ^ 0 % 64 = 0 ∧ w / 2 ^ 11 % 16384 = 0 then some (.yield (fld w 31 1))
    else none
  | 2 => if w / 2 ^ 1 % 32 = 0 ∧ w / 2 ^ 18 % 128 = 0 then some (.texit (fld w 31 1) (fld w 11 7) (fld w 0 1))
    else none
  | 3 => if w / 2 ^ 0 % 64 = 0 ∧ w / 2 ^ 11 % 16384 = 0 then some (.halt (fld w 31 1))
    else none
  | _ => none

/-- Major 0x18 (R117). -/
def decodeFs (w : Nat) : Option Instr :=
  match w / 2 ^ 0 % 16 with
  | 0 => some (.faddF32 (fld w 31 1) (fld w 18 7) (fld w 11 7) (fld w 4 7))
  | 1 => some (.fsubF32 (fld w 31 1) (fld w 18 7) (fld w 11 7) (fld w 4 7))
  | 2 => some (.fmulF32 (fld w 31 1) (fld w 18 7) (fld w 11 7) (fld w 4 7))
  | 3 => some (.fdivF32 (fld w 31 1) (fld w 18 7) (fld w 11 7) (fld w 4 7))
  | 4 => if w / 2 ^ 4 % 128 = 0 then some (.fsqrtF32 (fld w 31 1) (fld w 18 7) (fld w 11 7))
    else none
  | 5 => some (.fminF32 (fld w 31 1) (fld w 18 7) (fld w 11 7) (fld w 4 7))
  | 6 => some (.fmaxF32 (fld w 31 1) (fld w 18 7) (fld w 11 7) (fld w 4 7))
  | 7 => some (.fmaF32 (fld w 31 1) (fld w 18 7) (fld w 11 7) (fld w 4 7))
  | 8 => some (.fmsF32 (fld w 31 1) (fld w 18 7) (fld w 11 7) (fld w 4 7))
  | 9 => some (.fnmaF32 (fld w 31 1) (fld w 18 7) (fld w 11 7) (fld w 4 7))
  | 10 => if w / 2 ^ 4 % 128 = 0 then some (.fabsF32 (fld w 31 1) (fld w 18 7) (fld w 11 7))
    else none
  | 11 => if w / 2 ^ 4 % 128 = 0 then some (.fnegF32 (fld w 31 1) (fld w 18 7) (fld w 11 7))
    else none
  | 12 => some (.fcpsF32 (fld w 31 1) (fld w 18 7) (fld w 11 7) (fld w 4 7))
  | 13 => some (.fceqF32 (fld w 31 1) (fld w 24 1) (fld w 18 6) (fld w 11 7) (fld w 4 7))
  | 14 => some (.fcltF32 (fld w 31 1) (fld w 24 1) (fld w 18 6) (fld w 11 7) (fld w 4 7))
  | 15 => some (.fcleF32 (fld w 31 1) (fld w 24 1) (fld w 18 6) (fld w 11 7) (fld w 4 7))
  | _ => none

/-- Major 0x19 (R117). -/
def decodeFd (w : Nat) : Option Instr :=
  match w / 2 ^ 0 % 16 with
  | 0 => some (.faddF64 (fld w 31 1) (fld w 18 7) (fld w 11 7) (fld w 4 7))
  | 1 => some (.fsubF64 (fld w 31 1) (fld w 18 7) (fld w 11 7) (fld w 4 7))
  | 2 => some (.fmulF64 (fld w 31 1) (fld w 18 7) (fld w 11 7) (fld w 4 7))
  | 3 => some (.fdivF64 (fld w 31 1) (fld w 18 7) (fld w 11 7) (fld w 4 7))
  | 4 => if w / 2 ^ 4 % 128 = 0 then some (.fsqrtF64 (fld w 31 1) (fld w 18 7) (fld w 11 7))
    else none
  | 5 => some (.fminF64 (fld w 31 1) (fld w 18 7) (fld w 11 7) (fld w 4 7))
  | 6 => some (.fmaxF64 (fld w 31 1) (fld w 18 7) (fld w 11 7) (fld w 4 7))
  | 7 => some (.fmaF64 (fld w 31 1) (fld w 18 7) (fld w 11 7) (fld w 4 7))
  | 8 => some (.fmsF64 (fld w 31 1) (fld w 18 7) (fld w 11 7) (fld w 4 7))
  | 9 => some (.fnmaF64 (fld w 31 1) (fld w 18 7) (fld w 11 7) (fld w 4 7))
  | 10 => if w / 2 ^ 4 % 128 = 0 then some (.fabsF64 (fld w 31 1) (fld w 18 7) (fld w 11 7))
    else none
  | 11 => if w / 2 ^ 4 % 128 = 0 then some (.fnegF64 (fld w 31 1) (fld w 18 7) (fld w 11 7))
    else none
  | 12 => some (.fcpsF64 (fld w 31 1) (fld w 18 7) (fld w 11 7) (fld w 4 7))
  | 13 => some (.fceqF64 (fld w 31 1) (fld w 24 1) (fld w 18 6) (fld w 11 7) (fld w 4 7))
  | 14 => some (.fcltF64 (fld w 31 1) (fld w 24 1) (fld w 18 6) (fld w 11 7) (fld w 4 7))
  | 15 => some (.fcleF64 (fld w 31 1) (fld w 24 1) (fld w 18 6) (fld w 11 7) (fld w 4 7))
  | _ => none

/-- Major 0x1A (R117). -/
noncomputable def decodeFcv (w : Nat) : Option Instr :=
  match w / 2 ^ 0 % 16 with
  | 0 => if w / 2 ^ 4 % 128 = 0 then some (.fcvtF64F32 (fld w 31 1) (fld w 18 7) (fld w 11 7))
    else none
  | 1 => if w / 2 ^ 4 % 128 = 0 then some (.fcvtF32F64 (fld w 31 1) (fld w 18 7) (fld w 11 7))
    else none
  | 2 => if w / 2 ^ 4 % 128 = 0 then some (.fcvtF32S64 (fld w 31 1) (fld w 18 7) (fld w 11 7))
    else none
  | 3 => if w / 2 ^ 4 % 128 = 0 then some (.fcvtF32N64 (fld w 31 1) (fld w 18 7) (fld w 11 7))
    else none
  | 4 => if w / 2 ^ 4 % 128 = 0 then some (.fcvtF64S64 (fld w 31 1) (fld w 18 7) (fld w 11 7))
    else none
  | 5 => if w / 2 ^ 4 % 128 = 0 then some (.fcvtF64N64 (fld w 31 1) (fld w 18 7) (fld w 11 7))
    else none
  | 6 => if w / 2 ^ 4 % 128 = 0 then some (.fcvtS64F32 (fld w 31 1) (fld w 18 7) (fld w 11 7))
    else none
  | 7 => if w / 2 ^ 4 % 128 = 0 then some (.fcvtN64F32 (fld w 31 1) (fld w 18 7) (fld w 11 7))
    else none
  | 8 => if w / 2 ^ 4 % 128 = 0 then some (.fcvtS64F64 (fld w 31 1) (fld w 18 7) (fld w 11 7))
    else none
  | 9 => if w / 2 ^ 4 % 128 = 0 then some (.fcvtN64F64 (fld w 31 1) (fld w 18 7) (fld w 11 7))
    else none
  | 10 => if w / 2 ^ 4 % 128 = 0 then some (.fcvtF32B16 (fld w 31 1) (fld w 18 7) (fld w 11 7))
    else none
  | 11 => if w / 2 ^ 4 % 128 = 0 then some (.fcvtB16F32 (fld w 31 1) (fld w 18 7) (fld w 11 7))
    else none
  | 12 => if w / 2 ^ 4 % 128 = 0 then some (.fcvtF32F16 (fld w 31 1) (fld w 18 7) (fld w 11 7))
    else none
  | 13 => if w / 2 ^ 4 % 128 = 0 then some (.fcvtF16F32 (fld w 31 1) (fld w 18 7) (fld w 11 7))
    else none
  | 14 => if w / 2 ^ 4 % 128 = 0 then some (.fcvtF32E4 (fld w 31 1) (fld w 18 7) (fld w 11 7))
    else if w / 2 ^ 4 % 128 = 1 then some (.fcvtF32E5 (fld w 31 1) (fld w 18 7) (fld w 11 7))
    else none
  | 15 => if w / 2 ^ 4 % 128 = 0 then some (.fcvtE4F32 (fld w 31 1) (fld w 18 7) (fld w 11 7))
    else if w / 2 ^ 4 % 128 = 1 then some (.fcvtE5F32 (fld w 31 1) (fld w 18 7) (fld w 11 7))
    else none
  | _ => none

/-- Major 0x20 (R117). -/
noncomputable def decodeVa (w : Nat) : Option Instr :=
  match w / 2 ^ 0 % 64 with
  | 0 => some (.vadd (fld w 31 1) (fld w 20 5) (fld w 15 5) (fld w 10 5) (fld w 9 1) (fld w 6 3))
  | 1 => some (.vsub (fld w 31 1) (fld w 20 5) (fld w 15 5) (fld w 10 5) (fld w 9 1) (fld w 6 3))
  | 2 => some (.vmul (fld w 31 1) (fld w 20 5) (fld w 15 5) (fld w 10 5) (fld w 9 1) (fld w 6 3))
  | 3 => some (.vdiv (fld w 31 1) (fld w 20 5) (fld w 15 5) (fld w 10 5) (fld w 9 1) (fld w 6 3))
  | 4 => some (.vfma (fld w 31 1) (fld w 20 5) (fld w 15 5) (fld w 10 5) (fld w 9 1) (fld w 6 3))
  | 5 => some (.vfms (fld w 31 1) (fld w 20 5) (fld w 15 5) (fld w 10 5) (fld w 9 1) (fld w 6 3))
  | 6 => some (.vfnma (fld w 31 1) (fld w 20 5) (fld w 15 5) (fld w 10 5) (fld w 9 1) (fld w 6 3))
  | 7 => if w / 2 ^ 10 % 32 = 0 then some (.vsqrt (fld w 31 1) (fld w 20 5) (fld w 15 5) (fld w 9 1) (fld w 6 3))
    else none
  | 8 => some (.vmin (fld w 31 1) (fld w 20 5) (fld w 15 5) (fld w 10 5) (fld w 9 1) (fld w 6 3))
  | 9 => some (.vmax (fld w 31 1) (fld w 20 5) (fld w 15 5) (fld w 10 5) (fld w 9 1) (fld w 6 3))
  | 10 => if w / 2 ^ 10 % 32 = 0 then some (.vabs (fld w 31 1) (fld w 20 5) (fld w 15 5) (fld w 9 1) (fld w 6 3))
    else none
  | 11 => if w / 2 ^ 10 % 32 = 0 then some (.vneg (fld w 31 1) (fld w 20 5) (fld w 15 5) (fld w 9 1) (fld w 6 3))
    else none
  | 12 => some (.vcps (fld w 31 1) (fld w 20 5) (fld w 15 5) (fld w 10 5) (fld w 9 1) (fld w 6 3))
  | 13 => if w / 2 ^ 10 % 32 = 0 then some (.vrcp (fld w 31 1) (fld w 20 5) (fld w 15 5) (fld w 9 1) (fld w 6 3))
    else none
  | 14 => if w / 2 ^ 10 % 32 = 0 then some (.vrsq (fld w 31 1) (fld w 20 5) (fld w 15 5) (fld w 9 1) (fld w 6 3))
    else none
  | 15 => if w / 2 ^ 10 % 32 = 0 then some (.vexp2 (fld w 31 1) (fld w 20 5) (fld w 15 5) (fld w 9 1) (fld w 6 3))
    else none
  | 16 => if w / 2 ^ 10 % 32 = 0 then some (.vlog2 (fld w 31 1) (fld w 20 5) (fld w 15 5) (fld w 9 1) (fld w 6 3))
    else none
  | 17 => some (.vdot (fld w 31 1) (fld w 20 5) (fld w 15 5) (fld w 10 5) (fld w 9 1) (fld w 6 3))
  | 18 => some (.vand (fld w 31 1) (fld w 20 5) (fld w 15 5) (fld w 10 5) (fld w 9 1) (fld w 6 3))
  | 19 => some (.vor (fld w 31 1) (fld w 20 5) (fld w 15 5) (fld w 10 5) (fld w 9 1) (fld w 6 3))
  | 20 => some (.vxor (fld w 31 1) (fld w 20 5) (fld w 15 5) (fld w 10 5) (fld w 9 1) (fld w 6 3))
  | 21 => some (.vshl (fld w 31 1) (fld w 20 5) (fld w 15 5) (fld w 10 5) (fld w 9 1) (fld w 6 3))
  | 22 => some (.vshr (fld w 31 1) (fld w 20 5) (fld w 15 5) (fld w 10 5) (fld w 9 1) (fld w 6 3))
  | 23 => some (.vsra (fld w 31 1) (fld w 20 5) (fld w 15 5) (fld w 10 5) (fld w 9 1) (fld w 6 3))
  | 24 => if w / 2 ^ 21 % 16 = 0 then some (.vceq (fld w 31 1) (fld w 20 1) (fld w 15 5) (fld w 10 5) (fld w 9 1) (fld w 6 3))
    else none
  | 25 => if w / 2 ^ 21 % 16 = 0 then some (.vcne (fld w 31 1) (fld w 20 1) (fld w 15 5) (fld w 10 5) (fld w 9 1) (fld w 6 3))
    else none
  | 26 => if w / 2 ^ 21 % 16 = 0 then some (.vclt (fld w 31 1) (fld w 20 1) (fld w 15 5) (fld w 10 5) (fld w 9 1) (fld w 6 3))
    else none
  | 27 => if w / 2 ^ 21 % 16 = 0 then some (.vcle (fld w 31 1) (fld w 20 1) (fld w 15 5) (fld w 10 5) (fld w 9 1) (fld w 6 3))
    else none
  | 28 => if w / 2 ^ 9 % 2 = 0 then some (.vsel (fld w 31 1) (fld w 20 5) (fld w 15 5) (fld w 10 5) (fld w 6 3))
    else none
  | 29 => some (.vadds (fld w 31 1) (fld w 20 5) (fld w 15 5) (fld w 10 5) (fld w 9 1) (fld w 6 3))
  | 30 => some (.vsubs (fld w 31 1) (fld w 20 5) (fld w 15 5) (fld w 10 5) (fld w 9 1) (fld w 6 3))
  | 31 => some (.vmulh (fld w 31 1) (fld w 20 5) (fld w 15 5) (fld w 10 5) (fld w 9 1) (fld w 6 3))
  | _ => none

/-- Major 0x21 (R117). -/
noncomputable def decodeVx (w : Nat) : Option Instr :=
  if w / 2 ^ 3 % 8 = 0 then some (.vcvt (fld w 31 1) (fld w 20 5) (fld w 15 5) (fld w 10 5) (fld w 9 1) (fld w 6 3) (fld w 0 3)) else
  match w / 2 ^ 0 % 64 with
  | 8 => some (.vperm (fld w 31 1) (fld w 20 5) (fld w 15 5) (fld w 10 5) (fld w 9 1) (fld w 6 3))
  | 9 => some (.vbcst (fld w 31 1) (fld w 20 5) (fld w 15 5) (fld w 10 5) (fld w 9 1) (fld w 6 3))
  | 10 => some (.vins (fld w 31 1) (fld w 20 5) (fld w 15 5) (fld w 10 5) (fld w 9 1) (fld w 6 3))
  | 11 => some (.vext (fld w 31 1) (fld w 20 5) (fld w 15 5) (fld w 10 5) (fld w 9 1) (fld w 6 3))
  | 12 => some (.vzipl (fld w 31 1) (fld w 20 5) (fld w 15 5) (fld w 10 5) (fld w 9 1) (fld w 6 3))
  | 13 => some (.vziph (fld w 31 1) (fld w 20 5) (fld w 15 5) (fld w 10 5) (fld w 9 1) (fld w 6 3))
  | 14 => some (.vuzpe (fld w 31 1) (fld w 20 5) (fld w 15 5) (fld w 10 5) (fld w 9 1) (fld w 6 3))
  | 15 => some (.vuzpo (fld w 31 1) (fld w 20 5) (fld w 15 5) (fld w 10 5) (fld w 9 1) (fld w 6 3))
  | 16 => if w / 2 ^ 10 % 32 = 0 then some (.vrsum (fld w 31 1) (fld w 20 5) (fld w 15 5) (fld w 9 1) (fld w 6 3))
    else none
  | 17 => if w / 2 ^ 10 % 32 = 0 then some (.vrmax (fld w 31 1) (fld w 20 5) (fld w 15 5) (fld w 9 1) (fld w 6 3))
    else none
  | 18 => if w / 2 ^ 10 % 32 = 0 then some (.vrmin (fld w 31 1) (fld w 20 5) (fld w 15 5) (fld w 9 1) (fld w 6 3))
    else none
  | 19 => if w / 2 ^ 10 % 32 = 0 then some (.vrand (fld w 31 1) (fld w 20 5) (fld w 15 5) (fld w 9 1) (fld w 6 3))
    else none
  | 20 => if w / 2 ^ 10 % 32 = 0 then some (.vror (fld w 31 1) (fld w 20 5) (fld w 15 5) (fld w 9 1) (fld w 6 3))
    else none
  | 21 => if w / 2 ^ 10 % 32 = 0 then some (.vmovs (fld w 31 1) (fld w 20 5) (fld w 15 5) (fld w 9 1) (fld w 6 3))
    else none
  | _ => none

/-- Major 0x24 (R117). -/
noncomputable def decodeLds8 (w : Nat) : Option Instr :=
  some (.lds8 (fld w 31 1) (fld w 18 7) (fld w 11 7) (fld w 8 3) (fld w 0 8))

/-- Major 0x25 (R117). -/
noncomputable def decodeLdn8 (w : Nat) : Option Instr :=
  some (.ldn8 (fld w 31 1) (fld w 18 7) (fld w 11 7) (fld w 8 3) (fld w 0 8))

/-- Major 0x26 (R117). -/
noncomputable def decodeLds16 (w : Nat) : Option Instr :=
  some (.lds16 (fld w 31 1) (fld w 18 7) (fld w 11 7) (fld w 8 3) (fld w 0 8))

/-- Major 0x27 (R117). -/
noncomputable def decodeLdn16 (w : Nat) : Option Instr :=
  some (.ldn16 (fld w 31 1) (fld w 18 7) (fld w 11 7) (fld w 8 3) (fld w 0 8))

/-- Major 0x28 (R117). -/
noncomputable def decodeLds32 (w : Nat) : Option Instr :=
  some (.lds32 (fld w 31 1) (fld w 18 7) (fld w 11 7) (fld w 8 3) (fld w 0 8))

/-- Major 0x29 (R117). -/
noncomputable def decodeLdn32 (w : Nat) : Option Instr :=
  some (.ldn32 (fld w 31 1) (fld w 18 7) (fld w 11 7) (fld w 8 3) (fld w 0 8))

/-- Major 0x2A (R117). -/
noncomputable def decodeLd64 (w : Nat) : Option Instr :=
  some (.ld64 (fld w 31 1) (fld w 18 7) (fld w 11 7) (fld w 8 3) (fld w 0 8))

/-- Major 0x2B (R117). -/
noncomputable def decodeSt8 (w : Nat) : Option Instr :=
  some (.st8 (fld w 31 1) (fld w 18 7) (fld w 11 7) (fld w 8 3) (fld w 0 8))

/-- Major 0x2C (R117). -/
noncomputable def decodeSt16 (w : Nat) : Option Instr :=
  some (.st16 (fld w 31 1) (fld w 18 7) (fld w 11 7) (fld w 8 3) (fld w 0 8))

/-- Major 0x2D (R117). -/
noncomputable def decodeSt32 (w : Nat) : Option Instr :=
  some (.st32 (fld w 31 1) (fld w 18 7) (fld w 11 7) (fld w 8 3) (fld w 0 8))

/-- Major 0x2E (R117). -/
noncomputable def decodeSt64 (w : Nat) : Option Instr :=
  some (.st64 (fld w 31 1) (fld w 18 7) (fld w 11 7) (fld w 8 3) (fld w 0 8))

/-- Major 0x2F (R117). -/
noncomputable def decodeVmem (w : Nat) : Option Instr :=
  match w / 2 ^ 3 % 8 with
  | 0 => if w / 2 ^ 6 % 128 = 0 then some (.vld (fld w 31 1) (fld w 20 5) (fld w 13 7) (fld w 2 1) (fld w 0 2))
    else none
  | 1 => some (.vlds (fld w 31 1) (fld w 20 5) (fld w 13 7) (fld w 6 7) (fld w 2 1) (fld w 0 2))
  | 2 => if w / 2 ^ 11 % 4 = 0 then some (.vgth (fld w 31 1) (fld w 20 5) (fld w 13 7) (fld w 6 5) (fld w 2 1) (fld w 0 2))
    else none
  | 4 => if w / 2 ^ 6 % 128 = 0 then some (.vst (fld w 31 1) (fld w 20 5) (fld w 13 7) (fld w 2 1) (fld w 0 2))
    else none
  | 5 => some (.vsts (fld w 31 1) (fld w 20 5) (fld w 13 7) (fld w 6 7) (fld w 2 1) (fld w 0 2))
  | 6 => if w / 2 ^ 11 % 4 = 0 then some (.vsct (fld w 31 1) (fld w 20 5) (fld w 13 7) (fld w 6 5) (fld w 2 1) (fld w 0 2))
    else none
  | _ => none

/-- Major 0x30 (R117). -/
noncomputable def decodeAmo64 (w : Nat) : Option Instr :=
  match w / 2 ^ 0 % 4 with
  | 0 => some (.amo64Swap (fld w 31 1) (fld w 18 7) (fld w 11 7) (fld w 4 7) (fld w 2 2))
  | 1 => some (.amo64Cas (fld w 31 1) (fld w 18 7) (fld w 11 7) (fld w 4 7) (fld w 2 2))
  | 2 => some (.amo64Add (fld w 31 1) (fld w 18 7) (fld w 11 7) (fld w 4 7) (fld w 2 2))
  | 3 => some (.amo64Fadd (fld w 31 1) (fld w 18 7) (fld w 11 7) (fld w 4 7) (fld w 2 2))
  | _ => none

/-- Major 0x31 (R117). -/
noncomputable def decodeAmo32 (w : Nat) : Option Instr :=
  match w / 2 ^ 0 % 4 with
  | 0 => some (.amo32Swap (fld w 31 1) (fld w 18 7) (fld w 11 7) (fld w 4 7) (fld w 2 2))
  | 1 => some (.amo32Cas (fld w 31 1) (fld w 18 7) (fld w 11 7) (fld w 4 7) (fld w 2 2))
  | 2 => some (.amo32Add (fld w 31 1) (fld w 18 7) (fld w 11 7) (fld w 4 7) (fld w 2 2))
  | 3 => some (.amo32Fadd (fld w 31 1) (fld w 18 7) (fld w 11 7) (fld w 4 7) (fld w 2 2))
  | _ => none

/-- Major 0x32 (R117). -/
noncomputable def decodeRed (w : Nat) : Option Instr :=
  match w / 2 ^ 0 % 16 with
  | 0 => if w / 2 ^ 22 % 8 = 0 then some (.redAdd (fld w 31 1) (fld w 21 1) (fld w 18 3) (fld w 11 7) (fld w 4 7))
    else none
  | 1 => if w / 2 ^ 22 % 8 = 0 then some (.redAnd (fld w 31 1) (fld w 21 1) (fld w 18 3) (fld w 11 7) (fld w 4 7))
    else none
  | 2 => if w / 2 ^ 22 % 8 = 0 then some (.redOr (fld w 31 1) (fld w 21 1) (fld w 18 3) (fld w 11 7) (fld w 4 7))
    else none
  | 3 => if w / 2 ^ 22 % 8 = 0 then some (.redXor (fld w 31 1) (fld w 21 1) (fld w 18 3) (fld w 11 7) (fld w 4 7))
    else none
  | 4 => if w / 2 ^ 22 % 8 = 0 then some (.redMax (fld w 31 1) (fld w 21 1) (fld w 18 3) (fld w 11 7) (fld w 4 7))
    else none
  | 5 => if w / 2 ^ 22 % 8 = 0 then some (.redMin (fld w 31 1) (fld w 21 1) (fld w 18 3) (fld w 11 7) (fld w 4 7))
    else none
  | 6 => if w / 2 ^ 22 % 8 = 0 then some (.redMaxn (fld w 31 1) (fld w 21 1) (fld w 18 3) (fld w 11 7) (fld w 4 7))
    else none
  | 7 => if w / 2 ^ 22 % 8 = 0 then some (.redMinn (fld w 31 1) (fld w 21 1) (fld w 18 3) (fld w 11 7) (fld w 4 7))
    else none
  | 8 => if w / 2 ^ 22 % 8 = 0 then some (.redFadd (fld w 31 1) (fld w 21 1) (fld w 18 3) (fld w 11 7) (fld w 4 7))
    else none
  | 9 => if w / 2 ^ 22 % 8 = 0 then some (.redFmax (fld w 31 1) (fld w 21 1) (fld w 18 3) (fld w 11 7) (fld w 4 7))
    else none
  | 10 => if w / 2 ^ 22 % 8 = 0 then some (.redFmin (fld w 31 1) (fld w 21 1) (fld w 18 3) (fld w 11 7) (fld w 4 7))
    else none
  | _ => none

/-- Major 0x33 (R117). -/
noncomputable def decodeVamo (w : Nat) : Option Instr :=
  match w / 2 ^ 2 % 16 with
  | 0 => some (.vamoSwap (fld w 31 1) (fld w 20 5) (fld w 15 5) (fld w 10 5) (fld w 9 1) (fld w 6 3) (fld w 0 2))
  | 1 => some (.vamoAdd (fld w 31 1) (fld w 20 5) (fld w 15 5) (fld w 10 5) (fld w 9 1) (fld w 6 3) (fld w 0 2))
  | 2 => some (.vamoAnd (fld w 31 1) (fld w 20 5) (fld w 15 5) (fld w 10 5) (fld w 9 1) (fld w 6 3) (fld w 0 2))
  | 3 => some (.vamoOr (fld w 31 1) (fld w 20 5) (fld w 15 5) (fld w 10 5) (fld w 9 1) (fld w 6 3) (fld w 0 2))
  | 4 => some (.vamoXor (fld w 31 1) (fld w 20 5) (fld w 15 5) (fld w 10 5) (fld w 9 1) (fld w 6 3) (fld w 0 2))
  | 5 => some (.vamoMax (fld w 31 1) (fld w 20 5) (fld w 15 5) (fld w 10 5) (fld w 9 1) (fld w 6 3) (fld w 0 2))
  | 6 => some (.vamoMin (fld w 31 1) (fld w 20 5) (fld w 15 5) (fld w 10 5) (fld w 9 1) (fld w 6 3) (fld w 0 2))
  | 7 => some (.vamoFadd (fld w 31 1) (fld w 20 5) (fld w 15 5) (fld w 10 5) (fld w 9 1) (fld w 6 3) (fld w 0 2))
  | _ => none

/-- Major 0x34 (R117). -/
noncomputable def decodeSync (w : Nat) : Option Instr :=
  match w / 2 ^ 6 % 32 with
  | 0 => if w / 2 ^ 3 % 8 = 0 ∧ w / 2 ^ 11 % 16384 = 0 then some (.fence (fld w 31 1) (fld w 0 3))
    else none
  | 1 => if w / 2 ^ 0 % 64 = 0 then some (.ldfe (fld w 31 1) (fld w 18 7) (fld w 11 7))
    else none
  | 2 => if w / 2 ^ 0 % 64 = 0 then some (.ldfec (fld w 31 1) (fld w 18 7) (fld w 11 7))
    else none
  | 3 => if w / 2 ^ 0 % 64 = 0 then some (.stfe (fld w 31 1) (fld w 18 7) (fld w 11 7))
    else none
  | 4 => if w / 2 ^ 0 % 64 = 0 then some (.waitge (fld w 31 1) (fld w 18 7) (fld w 11 7))
    else none
  | 5 => if w / 2 ^ 0 % 64 = 0 ∧ w / 2 ^ 18 % 128 = 0 then some (.migrate (fld w 31 1) (fld w 11 7))
    else none
  | 6 => if w / 2 ^ 1 % 32 = 0 ∧ w / 2 ^ 18 % 128 = 0 then some (.prefetch (fld w 31 1) (fld w 11 7) (fld w 0 1))
    else none
  | _ => none

/-- Major 0x35 (R117). -/
noncomputable def decodeThr (w : Nat) : Option Instr :=
  match w / 2 ^ 6 % 32 with
  | 0 => if w / 2 ^ 5 % 2 = 0 then some (.fork (fld w 31 1) (fld w 18 7) (fld w 11 7) (fld w 0 5))
    else none
  | 1 => if w / 2 ^ 0 % 64 = 0 ∧ w / 2 ^ 18 % 128 = 0 then some (.joinw (fld w 31 1) (fld w 11 7))
    else none
  | 2 => if w / 2 ^ 0 % 64 = 0 ∧ w / 2 ^ 18 % 128 = 0 then some (.launch (fld w 31 1) (fld w 11 7))
    else none
  | 3 => if w / 2 ^ 3 % 8 = 0 ∧ w / 2 ^ 11 % 128 = 0 then some (.tinfo (fld w 31 1) (fld w 18 7) (fld w 0 3))
    else none
  | _ => none

/-- Major 0x36 (R117). -/
noncomputable def decodeChn (w : Nat) : Option Instr :=
  match w / 2 ^ 6 % 32 with
  | 0 => if w / 2 ^ 0 % 64 = 0 ∧ w / 2 ^ 21 % 16 = 14 then some (.qbind (fld w 31 1) (fld w 18 3) (fld w 11 7))
    else none
  | 1 => if w / 2 ^ 0 % 64 = 0 ∧ w / 2 ^ 14 % 16 = 14 then some (.qpoll (fld w 31 1) (fld w 18 7) (fld w 11 3))
    else none
  | 2 => if w / 2 ^ 0 % 64 = 0 ∧ w / 2 ^ 21 % 16 = 14 then some (.send (fld w 31 1) (fld w 18 3) (fld w 11 7))
    else none
  | 3 => if w / 2 ^ 0 % 64 = 0 ∧ w / 2 ^ 21 % 16 = 14 then some (.sende (fld w 31 1) (fld w 18 3) (fld w 11 7))
    else none
  | 4 => if w / 2 ^ 0 % 64 = 0 ∧ w / 2 ^ 14 % 16 = 14 ∧ w / 2 ^ 23 % 4 = 0 then some (.vqrd (fld w 31 1) (fld w 18 5) (fld w 11 3))
    else none
  | 5 => if w / 2 ^ 0 % 64 = 0 ∧ w / 2 ^ 16 % 4 = 0 ∧ w / 2 ^ 21 % 16 = 14 then some (.vqwr (fld w 31 1) (fld w 18 3) (fld w 11 5))
    else none
  | 6 => if w / 2 ^ 0 % 64 = 0 then some (.itemget (fld w 31 1) (fld w 18 7) (fld w 11 7))
    else none
  | 7 => if w / 2 ^ 1 % 32 = 0 then some (.itemput (fld w 31 1) (fld w 18 7) (fld w 11 7) (fld w 0 1))
    else none
  | _ => none

/-- Major 0x37 (R117). -/
noncomputable def decodeBar (w : Nat) : Option Instr :=
  match w / 2 ^ 6 % 32 with
  | 0 => if w / 2 ^ 0 % 64 = 0 ∧ w / 2 ^ 18 % 128 = 0 then some (.barj (fld w 31 1) (fld w 11 7))
    else none
  | 1 => if w / 2 ^ 0 % 64 = 0 ∧ w / 2 ^ 18 % 128 = 0 then some (.barl (fld w 31 1) (fld w 11 7))
    else none
  | 2 => if w / 2 ^ 0 % 64 = 0 ∧ w / 2 ^ 18 % 128 = 0 then some (.bara (fld w 31 1) (fld w 11 7))
    else none
  | 3 => if w / 2 ^ 0 % 64 = 0 ∧ w / 2 ^ 18 % 128 = 0 then some (.barw (fld w 31 1) (fld w 11 7))
    else none
  | 4 => if w / 2 ^ 0 % 64 = 0 then some (.barm (fld w 31 1) (fld w 18 7) (fld w 11 7))
    else none
  | 5 => if w / 2 ^ 3 % 8 = 0 then some (.csig (fld w 31 1) (fld w 18 7) (fld w 11 7) (fld w 0 3))
    else none
  | _ => none

/-- Major 0x38 (R117). -/
noncomputable def decodeEng (w : Nat) : Option Instr :=
  match w / 2 ^ 6 % 32 with
  | 0 => if w / 2 ^ 11 % 128 = 0 then some (.xset (fld w 31 1) (fld w 18 7) (fld w 1 5) (fld w 0 1))
    else none
  | 1 => if w / 2 ^ 11 % 128 = 0 then some (.xget (fld w 31 1) (fld w 18 7) (fld w 1 5) (fld w 0 1))
    else none
  | 2 => if w / 2 ^ 1 % 32 = 0 ∧ w / 2 ^ 11 % 128 = 0 then some (.xlaunch (fld w 31 1) (fld w 18 7) (fld w 0 1))
    else none
  | 3 => if w / 2 ^ 1 % 32 = 0 ∧ w / 2 ^ 18 % 128 = 0 then some (.xwait (fld w 31 1) (fld w 11 7) (fld w 0 1))
    else none
  | 4 => if w / 2 ^ 0 % 64 = 0 then some (.trig (fld w 31 1) (fld w 18 7) (fld w 11 7))
    else none
  | 5 => if w / 2 ^ 0 % 64 = 0 ∧ w / 2 ^ 18 % 128 = 0 then some (.trigc (fld w 31 1) (fld w 11 7))
    else none
  | 6 => if w / 2 ^ 0 % 64 = 0 then some (.trigq (fld w 31 1) (fld w 18 7) (fld w 11 7))
    else none
  | 7 => if w / 2 ^ 0 % 64 = 0 ∧ w / 2 ^ 18 % 128 = 0 then some (.mxwait (fld w 31 1) (fld w 11 7))
    else none
  | 8 => if w / 2 ^ 0 % 64 = 0 ∧ w / 2 ^ 23 % 4 = 0 then some (.mxrd (fld w 31 1) (fld w 18 5) (fld w 11 7))
    else none
  | 9 => if w / 2 ^ 0 % 64 = 0 ∧ w / 2 ^ 11 % 16384 = 0 then some (.hdone (fld w 31 1))
    else none
  | 10 => if w / 2 ^ 2 % 16 = 0 ∧ w / 2 ^ 11 % 16384 = 0 then some (.ppt (fld w 31 1) (fld w 0 2))
    else none
  | _ => none

/-- Major 0x39 (R117). -/
noncomputable def decodeRep (w : Nat) : Option Instr :=
  match w / 2 ^ 6 % 32 with
  | 0 => if w / 2 ^ 0 % 64 = 0 then some (.radd (fld w 31 1) (fld w 18 7) (fld w 11 7))
    else none
  | 1 => if w / 2 ^ 0 % 64 = 0 then some (.rmax (fld w 31 1) (fld w 18 7) (fld w 11 7))
    else none
  | 2 => if w / 2 ^ 0 % 64 = 0 then some (.rlww (fld w 31 1) (fld w 18 7) (fld w 11 7))
    else none
  | 3 => if w / 2 ^ 0 % 64 = 0 then some (.rsadd (fld w 31 1) (fld w 18 7) (fld w 11 7))
    else none
  | 4 => if w / 2 ^ 0 % 64 = 0 then some (.rsrem (fld w 31 1) (fld w 18 7) (fld w 11 7))
    else none
  | 5 => some (.rshas (fld w 31 1) (fld w 18 7) (fld w 11 7) (fld w 0 6))
  | 6 => if w / 2 ^ 0 % 64 = 0 then some (.rmean (fld w 31 1) (fld w 18 7) (fld w 11 7))
    else none
  | 7 => some (.rfront (fld w 31 1) (fld w 18 7) (fld w 11 7) (fld w 0 6))
  | 8 => some (.rwaitf (fld w 31 1) (fld w 18 7) (fld w 11 7) (fld w 0 6))
  | 9 => if w / 2 ^ 0 % 64 = 0 ∧ w / 2 ^ 11 % 128 = 0 then some (.hlcrd (fld w 31 1) (fld w 18 7))
    else none
  | 10 => if w / 2 ^ 0 % 64 = 0 ∧ w / 2 ^ 18 % 128 = 0 then some (.rship (fld w 31 1) (fld w 11 7))
    else none
  | 11 => if w / 2 ^ 3 % 8 = 0 then some (.rstat (fld w 31 1) (fld w 18 7) (fld w 11 7) (fld w 0 3))
    else none
  | _ => none

/-- Major 0x3A (R117). -/
noncomputable def decodeFab (w : Nat) : Option Instr :=
  match w / 2 ^ 6 % 32 with
  | 0 => if w / 2 ^ 0 % 64 = 0 then some (.mbsend (fld w 31 1) (fld w 18 7) (fld w 11 7))
    else none
  | 1 => if w / 2 ^ 0 % 64 = 0 then some (.mbrecv (fld w 31 1) (fld w 18 7) (fld w 11 7))
    else none
  | 2 => if w / 2 ^ 0 % 64 = 0 then some (.mbpoll (fld w 31 1) (fld w 18 7) (fld w 11 7))
    else none
  | 3 => if w / 2 ^ 0 % 8 = 0 ∧ w / 2 ^ 5 % 2 = 0 ∧ w / 2 ^ 16 % 512 = 0 then some (.trputAdd (fld w 31 1) (fld w 11 5) (fld w 3 2))
    else if w / 2 ^ 0 % 8 = 1 ∧ w / 2 ^ 5 % 2 = 0 ∧ w / 2 ^ 16 % 512 = 0 then some (.trputMin (fld w 31 1) (fld w 11 5) (fld w 3 2))
    else if w / 2 ^ 0 % 8 = 2 ∧ w / 2 ^ 5 % 2 = 0 ∧ w / 2 ^ 16 % 512 = 0 then some (.trputMax (fld w 31 1) (fld w 11 5) (fld w 3 2))
    else if w / 2 ^ 0 % 64 = 3 ∧ w / 2 ^ 16 % 512 = 0 then some (.trputAnd (fld w 31 1) (fld w 11 5))
    else if w / 2 ^ 0 % 64 = 4 ∧ w / 2 ^ 16 % 512 = 0 then some (.trputOr (fld w 31 1) (fld w 11 5))
    else if w / 2 ^ 0 % 64 = 5 ∧ w / 2 ^ 16 % 512 = 0 then some (.trputXor (fld w 31 1) (fld w 11 5))
    else if w / 2 ^ 0 % 8 = 6 ∧ w / 2 ^ 5 % 2 = 0 ∧ w / 2 ^ 16 % 512 = 0 then some (.trputBcast (fld w 31 1) (fld w 11 5) (fld w 3 2))
    else if w / 2 ^ 0 % 64 = 7 ∧ w / 2 ^ 16 % 512 = 0 then some (.trputBarrier (fld w 31 1) (fld w 11 5))
    else none
  | 4 => if w / 2 ^ 0 % 64 = 0 ∧ w / 2 ^ 11 % 128 = 0 ∧ w / 2 ^ 23 % 4 = 0 then some (.trget (fld w 31 1) (fld w 18 5))
    else none
  | _ => none

/-- Major 0x3C (R117). -/
noncomputable def decodeSys (w : Nat) : Option Instr :=
  match w / 2 ^ 6 % 32 with
  | 0 => if w / 2 ^ 11 % 16384 = 0 then some (.trap (fld w 31 1) (fld w 0 6))
    else none
  | 1 => if w / 2 ^ 0 % 64 = 0 ∧ w / 2 ^ 11 % 16384 = 0 then some (.eret (fld w 31 1))
    else none
  | 2 => if w / 2 ^ 0 % 64 = 0 ∧ w / 2 ^ 11 % 16384 = 0 then some (.uiret (fld w 31 1))
    else none
  | 3 => if w / 2 ^ 17 % 2 = 0 then some (.csrrd (fld w 31 1) (fld w 18 7) (fld w 11 6) (fld w 0 6))
    else none
  | 4 => if w / 2 ^ 17 % 2 = 0 then some (.csrwr (fld w 31 1) (fld w 18 7) (fld w 11 6) (fld w 0 6))
    else none
  | 5 => if w / 2 ^ 17 % 2 = 0 then some (.csrset (fld w 31 1) (fld w 18 7) (fld w 11 6) (fld w 0 6))
    else none
  | 6 => if w / 2 ^ 17 % 2 = 0 then some (.csrclr (fld w 31 1) (fld w 18 7) (fld w 11 6) (fld w 0 6))
    else none
  | 7 => if w / 2 ^ 5 % 2 = 0 ∧ w / 2 ^ 11 % 128 = 0 then some (.grd (fld w 31 1) (fld w 18 7) (fld w 0 5))
    else none
  | 8 => if w / 2 ^ 5 % 2 = 0 ∧ w / 2 ^ 11 % 128 = 0 then some (.gwr (fld w 31 1) (fld w 18 7) (fld w 0 5))
    else none
  | 9 => if w / 2 ^ 3 % 8 = 0 ∧ w / 2 ^ 18 % 128 = 0 then some (.tlbinv (fld w 31 1) (fld w 11 7) (fld w 0 3))
    else if w / 2 ^ 3 % 8 = 1 ∧ w / 2 ^ 11 % 16384 = 0 then some (.tlbinvAll (fld w 31 1) (fld w 0 3))
    else none
  | 10 => if w / 2 ^ 0 % 64 = 0 ∧ w / 2 ^ 11 % 16384 = 0 then some (.bkpt (fld w 31 1))
    else none
  | _ => none

/-- The instruction that an assigned encoding stands for, and none for an unassigned one (R117 to R128). -/
noncomputable def parse (w : Nat) : Option Instr :=
  match w / 2 ^ 25 % 64 with
  | 0 => decodeIop w
  | 1 => decodeIop2 w
  | 2 => decodeCmp w
  | 4 => decodeAddi w
  | 5 => decodeAndi w
  | 6 => decodeOri w
  | 7 => decodeXori w
  | 8 => decodeShfi w
  | 9 => decodeCmpi w
  | 10 => decodeExti w
  | 11 => decodeMuli w
  | 12 => decodeLqz w
  | 13 => decodeLqk w
  | 14 => decodePcadd w
  | 15 => decodePsel w
  | 16 => decodePlog w
  | 17 => decodeBr w
  | 18 => decodeJmp w
  | 19 => decodeJal w
  | 20 => decodeJalr w
  | 21 => decodeRepf w
  | 22 => decodeCtl w
  | 24 => decodeFs w
  | 25 => decodeFd w
  | 26 => decodeFcv w
  | 32 => decodeVa w
  | 33 => decodeVx w
  | 36 => decodeLds8 w
  | 37 => decodeLdn8 w
  | 38 => decodeLds16 w
  | 39 => decodeLdn16 w
  | 40 => decodeLds32 w
  | 41 => decodeLdn32 w
  | 42 => decodeLd64 w
  | 43 => decodeSt8 w
  | 44 => decodeSt16 w
  | 45 => decodeSt32 w
  | 46 => decodeSt64 w
  | 47 => decodeVmem w
  | 48 => decodeAmo64 w
  | 49 => decodeAmo32 w
  | 50 => decodeRed w
  | 51 => decodeVamo w
  | 52 => decodeSync w
  | 53 => decodeThr w
  | 54 => decodeChn w
  | 55 => decodeBar w
  | 56 => decodeEng w
  | 57 => decodeRep w
  | 58 => decodeFab w
  | 60 => decodeSys w
  | _ => none

/-- The decoder: total on every word (R107 step 1, R128). -/
noncomputable def decode (w : Nat) : Except DecodeError Instr :=
  match parse w with
  | none => .error .unassigned
  | some i =>
    match i.encodingFault with
    | some e => .error (.fault e)
    | none => .ok i

/-- The four bytes of an instruction, least significant first (R6, R103). -/
def wordOfBytes (bs : List Byte) : Nat := bs.foldr (fun b acc => b.toNat + 256 * acc) 0

/-- Decoding at the byte level: the instruction of the first four bytes and the bytes after it. -/
noncomputable def decodeBytes (bs : List Byte) : Option (Except DecodeError Instr × List Byte) :=
  match bs with
  | b0 :: b1 :: b2 :: b3 :: rest => some (decode (wordOfBytes [b0, b1, b2, b3]), rest)
  | _ => none

/-- A number with field v added at bit lo (R103). -/
def put {n : Nat} (v : BitVec n) (lo acc : Nat) : Nat := v.toNat * 2 ^ lo + acc

/-- The word of an instruction as a number: its fixed part (R118 to R126 and the chapters' tables) and its fields in
their places (R103). A step of the part itself has no word: 0, see `Instr.hasWord`. -/
def wordOf (i : Instr) : Nat :=
  match i with
  | .add w d a b => put w 31 (put d 18 (put a 11 (put b 4 (0))))
  | .sub w d a b => put w 31 (put d 18 (put a 11 (put b 4 (1))))
  | .and w d a b => put w 31 (put d 18 (put a 11 (put b 4 (2))))
  | .or w d a b => put w 31 (put d 18 (put a 11 (put b 4 (3))))
  | .xor w d a b => put w 31 (put d 18 (put a 11 (put b 4 (4))))
  | .andn w d a b => put w 31 (put d 18 (put a 11 (put b 4 (5))))
  | .shl w d a b => put w 31 (put d 18 (put a 11 (put b 4 (6))))
  | .shr w d a b => put w 31 (put d 18 (put a 11 (put b 4 (7))))
  | .sra w d a b => put w 31 (put d 18 (put a 11 (put b 4 (8))))
  | .min w d a b => put w 31 (put d 18 (put a 11 (put b 4 (9))))
  | .max w d a b => put w 31 (put d 18 (put a 11 (put b 4 (10))))
  | .minn w d a b => put w 31 (put d 18 (put a 11 (put b 4 (11))))
  | .maxn w d a b => put w 31 (put d 18 (put a 11 (put b 4 (12))))
  | .mul w d a b => put w 31 (put d 18 (put a 11 (put b 4 (13))))
  | .mulh w d a b => put w 31 (put d 18 (put a 11 (put b 4 (14))))
  | .mulhn w d a b => put w 31 (put d 18 (put a 11 (put b 4 (15))))
  | .divs w d a b => put w 31 (put d 18 (put a 11 (put b 4 (33554432))))
  | .divn w d a b => put w 31 (put d 18 (put a 11 (put b 4 (33554433))))
  | .rems w d a b => put w 31 (put d 18 (put a 11 (put b 4 (33554434))))
  | .remn w d a b => put w 31 (put d 18 (put a 11 (put b 4 (33554435))))
  | .clz w d a => put w 31 (put d 18 (put a 11 (33554436)))
  | .ctz w d a => put w 31 (put d 18 (put a 11 (33554437)))
  | .popc w d a => put w 31 (put d 18 (put a 11 (33554438)))
  | .rotl w d a b => put w 31 (put d 18 (put a 11 (put b 4 (33554439))))
  | .rotr w d a b => put w 31 (put d 18 (put a 11 (put b 4 (33554440))))
  | .addsh1 w d a b => put w 31 (put d 18 (put a 11 (put b 4 (33554441))))
  | .addsh2 w d a b => put w 31 (put d 18 (put a 11 (put b 4 (33554442))))
  | .addsh3 w d a b => put w 31 (put d 18 (put a 11 (put b 4 (33554443))))
  | .spbank w d a => put w 31 (put d 18 (put a 11 (33554444)))
  | .sprow w d a => put w 31 (put d 18 (put a 11 (33554445)))
  | .brev w d a => put w 31 (put d 18 (put a 11 (33554446)))
  | .bswap w d a => put w 31 (put d 18 (put a 11 (33554447)))
  | .ceq w p k a b => put w 31 (put p 24 (put k 18 (put a 11 (put b 4 (67108864)))))
  | .cne w p k a b => put w 31 (put p 24 (put k 18 (put a 11 (put b 4 (67108865)))))
  | .clt w p k a b => put w 31 (put p 24 (put k 18 (put a 11 (put b 4 (67108866)))))
  | .cle w p k a b => put w 31 (put p 24 (put k 18 (put a 11 (put b 4 (67108867)))))
  | .cltn w p k a b => put w 31 (put p 24 (put k 18 (put a 11 (put b 4 (67108868)))))
  | .clen w p k a b => put w 31 (put p 24 (put k 18 (put a 11 (put b 4 (67108869)))))
  | .cbit w p k a b => put w 31 (put p 24 (put k 18 (put a 11 (put b 4 (67108870)))))
  | .addi w d a i => put w 31 (put d 18 (put a 11 (put i 0 (134217728))))
  | .andi w d a i => put w 31 (put d 18 (put a 11 (put i 0 (167772160))))
  | .ori w d a i => put w 31 (put d 18 (put a 11 (put i 0 (201326592))))
  | .xori w d a i => put w 31 (put d 18 (put a 11 (put i 0 (234881024))))
  | .muli w d a i => put w 31 (put d 18 (put a 11 (put i 0 (369098752))))
  | .shli w d a n => put w 31 (put d 18 (put a 11 (put n 0 (268435456))))
  | .shri w d a n => put w 31 (put d 18 (put a 11 (put n 0 (268435968))))
  | .srai w d a n => put w 31 (put d 18 (put a 11 (put n 0 (268436480))))
  | .rotli w d a n => put w 31 (put d 18 (put a 11 (put n 0 (268436992))))
  | .ceqi w p k a i => put w 31 (put p 24 (put k 18 (put a 11 (put i 0 (301989888)))))
  | .cnei w p k a i => put w 31 (put p 24 (put k 18 (put a 11 (put i 0 (301990144)))))
  | .clti w p k a i => put w 31 (put p 24 (put k 18 (put a 11 (put i 0 (301990400)))))
  | .clei w p k a i => put w 31 (put p 24 (put k 18 (put a 11 (put i 0 (301990656)))))
  | .cltni w p k a i => put w 31 (put p 24 (put k 18 (put a 11 (put i 0 (301990912)))))
  | .cleni w p k a i => put w 31 (put p 24 (put k 18 (put a 11 (put i 0 (301991168)))))
  | .cgti w p k a i => put w 31 (put p 24 (put k 18 (put a 11 (put i 0 (301991424)))))
  | .cgei w p k a i => put w 31 (put p 24 (put k 18 (put a 11 (put i 0 (301991680)))))
  | .exti w d a x l => put w 31 (put d 18 (put a 11 (put x 6 (put l 0 (335544320)))))
  | .lqz w d q i => put w 31 (put d 18 (put q 16 (put i 0 (402653184))))
  | .lqk w d q i => put w 31 (put d 18 (put q 16 (put i 0 (436207616))))
  | .pcadd w d q i => put w 31 (put d 18 (put q 16 (put i 0 (469762048))))
  | .psel w d a b k => put w 31 (put d 18 (put a 11 (put b 4 (put k 0 (503316480)))))
  | .pand w k j m => put w 31 (put k 18 (put j 11 (put m 0 (536870912))))
  | .por w k j m => put w 31 (put k 18 (put j 11 (put m 0 (536871168))))
  | .pxor w k j m => put w 31 (put k 18 (put j 11 (put m 0 (536871424))))
  | .pandn w k j m => put w 31 (put k 18 (put j 11 (put m 0 (536871680))))
  | .porn w k j m => put w 31 (put k 18 (put j 11 (put m 0 (536871936))))
  | .pnand w k j m => put w 31 (put k 18 (put j 11 (put m 0 (536872192))))
  | .pnor w k j m => put w 31 (put k 18 (put j 11 (put m 0 (536872448))))
  | .pxnor w k j m => put w 31 (put k 18 (put j 11 (put m 0 (536872704))))
  | .brPset w x o => put w 31 (put x 15 (put o 0 (570425344)))
  | .brPclr w x o => put w 31 (put x 15 (put o 0 (572522496)))
  | .brZ w x o => put w 31 (put x 15 (put o 0 (574619648)))
  | .brNz w x o => put w 31 (put x 15 (put o 0 (576716800)))
  | .brEop w o => put w 31 (put o 0 (578813952))
  | .brEos w o => put w 31 (put o 0 (580911104))
  | .brQe w o => put w 31 (put o 0 (583008256))
  | .br w o => put w 31 (put o 0 (585105408))
  | .jmp w o => put w 31 (put o 0 (603979776))
  | .jal w o => put w 31 (put o 0 (637534208))
  | .jalr w d a i => put w 31 (put d 18 (put a 11 (put i 0 (671088640))))
  | .repf w n m t => put w 31 (put n 18 (put m 11 (put t 0 (704643072))))
  | .nop w => put w 31 (738197504)
  | .yield w => put w 31 (738197568)
  | .texit w a j => put w 31 (put a 11 (put j 0 (738197632)))
  | .halt w => put w 31 (738197696)
  | .faddF32 w d a b => put w 31 (put d 18 (put a 11 (put b 4 (805306368))))
  | .fsubF32 w d a b => put w 31 (put d 18 (put a 11 (put b 4 (805306369))))
  | .fmulF32 w d a b => put w 31 (put d 18 (put a 11 (put b 4 (805306370))))
  | .fdivF32 w d a b => put w 31 (put d 18 (put a 11 (put b 4 (805306371))))
  | .fsqrtF32 w d a => put w 31 (put d 18 (put a 11 (805306372)))
  | .fminF32 w d a b => put w 31 (put d 18 (put a 11 (put b 4 (805306373))))
  | .fmaxF32 w d a b => put w 31 (put d 18 (put a 11 (put b 4 (805306374))))
  | .fmaF32 w d a b => put w 31 (put d 18 (put a 11 (put b 4 (805306375))))
  | .fmsF32 w d a b => put w 31 (put d 18 (put a 11 (put b 4 (805306376))))
  | .fnmaF32 w d a b => put w 31 (put d 18 (put a 11 (put b 4 (805306377))))
  | .fabsF32 w d a => put w 31 (put d 18 (put a 11 (805306378)))
  | .fnegF32 w d a => put w 31 (put d 18 (put a 11 (805306379)))
  | .fcpsF32 w d a b => put w 31 (put d 18 (put a 11 (put b 4 (805306380))))
  | .fceqF32 w p k a b => put w 31 (put p 24 (put k 18 (put a 11 (put b 4 (805306381)))))
  | .fcltF32 w p k a b => put w 31 (put p 24 (put k 18 (put a 11 (put b 4 (805306382)))))
  | .fcleF32 w p k a b => put w 31 (put p 24 (put k 18 (put a 11 (put b 4 (805306383)))))
  | .faddF64 w d a b => put w 31 (put d 18 (put a 11 (put b 4 (838860800))))
  | .fsubF64 w d a b => put w 31 (put d 18 (put a 11 (put b 4 (838860801))))
  | .fmulF64 w d a b => put w 31 (put d 18 (put a 11 (put b 4 (838860802))))
  | .fdivF64 w d a b => put w 31 (put d 18 (put a 11 (put b 4 (838860803))))
  | .fsqrtF64 w d a => put w 31 (put d 18 (put a 11 (838860804)))
  | .fminF64 w d a b => put w 31 (put d 18 (put a 11 (put b 4 (838860805))))
  | .fmaxF64 w d a b => put w 31 (put d 18 (put a 11 (put b 4 (838860806))))
  | .fmaF64 w d a b => put w 31 (put d 18 (put a 11 (put b 4 (838860807))))
  | .fmsF64 w d a b => put w 31 (put d 18 (put a 11 (put b 4 (838860808))))
  | .fnmaF64 w d a b => put w 31 (put d 18 (put a 11 (put b 4 (838860809))))
  | .fabsF64 w d a => put w 31 (put d 18 (put a 11 (838860810)))
  | .fnegF64 w d a => put w 31 (put d 18 (put a 11 (838860811)))
  | .fcpsF64 w d a b => put w 31 (put d 18 (put a 11 (put b 4 (838860812))))
  | .fceqF64 w p k a b => put w 31 (put p 24 (put k 18 (put a 11 (put b 4 (838860813)))))
  | .fcltF64 w p k a b => put w 31 (put p 24 (put k 18 (put a 11 (put b 4 (838860814)))))
  | .fcleF64 w p k a b => put w 31 (put p 24 (put k 18 (put a 11 (put b 4 (838860815)))))
  | .fcvtF64F32 w d a => put w 31 (put d 18 (put a 11 (872415232)))
  | .fcvtF32F64 w d a => put w 31 (put d 18 (put a 11 (872415233)))
  | .fcvtF32S64 w d a => put w 31 (put d 18 (put a 11 (872415234)))
  | .fcvtF32N64 w d a => put w 31 (put d 18 (put a 11 (872415235)))
  | .fcvtF64S64 w d a => put w 31 (put d 18 (put a 11 (872415236)))
  | .fcvtF64N64 w d a => put w 31 (put d 18 (put a 11 (872415237)))
  | .fcvtS64F32 w d a => put w 31 (put d 18 (put a 11 (872415238)))
  | .fcvtN64F32 w d a => put w 31 (put d 18 (put a 11 (872415239)))
  | .fcvtS64F64 w d a => put w 31 (put d 18 (put a 11 (872415240)))
  | .fcvtN64F64 w d a => put w 31 (put d 18 (put a 11 (872415241)))
  | .fcvtF32B16 w d a => put w 31 (put d 18 (put a 11 (872415242)))
  | .fcvtB16F32 w d a => put w 31 (put d 18 (put a 11 (872415243)))
  | .fcvtF32F16 w d a => put w 31 (put d 18 (put a 11 (872415244)))
  | .fcvtF16F32 w d a => put w 31 (put d 18 (put a 11 (872415245)))
  | .fcvtF32E4 w d a => put w 31 (put d 18 (put a 11 (872415246)))
  | .fcvtF32E5 w d a => put w 31 (put d 18 (put a 11 (872415262)))
  | .fcvtE4F32 w d a => put w 31 (put d 18 (put a 11 (872415247)))
  | .fcvtE5F32 w d a => put w 31 (put d 18 (put a 11 (872415263)))
  | .vadd w d a b m t => put w 31 (put d 20 (put a 15 (put b 10 (put m 9 (put t 6 (1073741824))))))
  | .vsub w d a b m t => put w 31 (put d 20 (put a 15 (put b 10 (put m 9 (put t 6 (1073741825))))))
  | .vmul w d a b m t => put w 31 (put d 20 (put a 15 (put b 10 (put m 9 (put t 6 (1073741826))))))
  | .vdiv w d a b m t => put w 31 (put d 20 (put a 15 (put b 10 (put m 9 (put t 6 (1073741827))))))
  | .vfma w d a b m t => put w 31 (put d 20 (put a 15 (put b 10 (put m 9 (put t 6 (1073741828))))))
  | .vfms w d a b m t => put w 31 (put d 20 (put a 15 (put b 10 (put m 9 (put t 6 (1073741829))))))
  | .vfnma w d a b m t => put w 31 (put d 20 (put a 15 (put b 10 (put m 9 (put t 6 (1073741830))))))
  | .vsqrt w d a m t => put w 31 (put d 20 (put a 15 (put m 9 (put t 6 (1073741831)))))
  | .vmin w d a b m t => put w 31 (put d 20 (put a 15 (put b 10 (put m 9 (put t 6 (1073741832))))))
  | .vmax w d a b m t => put w 31 (put d 20 (put a 15 (put b 10 (put m 9 (put t 6 (1073741833))))))
  | .vabs w d a m t => put w 31 (put d 20 (put a 15 (put m 9 (put t 6 (1073741834)))))
  | .vneg w d a m t => put w 31 (put d 20 (put a 15 (put m 9 (put t 6 (1073741835)))))
  | .vcps w d a b m t => put w 31 (put d 20 (put a 15 (put b 10 (put m 9 (put t 6 (1073741836))))))
  | .vrcp w d a m t => put w 31 (put d 20 (put a 15 (put m 9 (put t 6 (1073741837)))))
  | .vrsq w d a m t => put w 31 (put d 20 (put a 15 (put m 9 (put t 6 (1073741838)))))
  | .vexp2 w d a m t => put w 31 (put d 20 (put a 15 (put m 9 (put t 6 (1073741839)))))
  | .vlog2 w d a m t => put w 31 (put d 20 (put a 15 (put m 9 (put t 6 (1073741840)))))
  | .vdot w d a b m t => put w 31 (put d 20 (put a 15 (put b 10 (put m 9 (put t 6 (1073741841))))))
  | .vand w d a b m t => put w 31 (put d 20 (put a 15 (put b 10 (put m 9 (put t 6 (1073741842))))))
  | .vor w d a b m t => put w 31 (put d 20 (put a 15 (put b 10 (put m 9 (put t 6 (1073741843))))))
  | .vxor w d a b m t => put w 31 (put d 20 (put a 15 (put b 10 (put m 9 (put t 6 (1073741844))))))
  | .vshl w d a b m t => put w 31 (put d 20 (put a 15 (put b 10 (put m 9 (put t 6 (1073741845))))))
  | .vshr w d a b m t => put w 31 (put d 20 (put a 15 (put b 10 (put m 9 (put t 6 (1073741846))))))
  | .vsra w d a b m t => put w 31 (put d 20 (put a 15 (put b 10 (put m 9 (put t 6 (1073741847))))))
  | .vceq w c a b m t => put w 31 (put c 20 (put a 15 (put b 10 (put m 9 (put t 6 (1073741848))))))
  | .vcne w c a b m t => put w 31 (put c 20 (put a 15 (put b 10 (put m 9 (put t 6 (1073741849))))))
  | .vclt w c a b m t => put w 31 (put c 20 (put a 15 (put b 10 (put m 9 (put t 6 (1073741850))))))
  | .vcle w c a b m t => put w 31 (put c 20 (put a 15 (put b 10 (put m 9 (put t 6 (1073741851))))))
  | .vsel w d a b t => put w 31 (put d 20 (put a 15 (put b 10 (put t 6 (1073741852)))))
  | .vadds w d a b m t => put w 31 (put d 20 (put a 15 (put b 10 (put m 9 (put t 6 (1073741853))))))
  | .vsubs w d a b m t => put w 31 (put d 20 (put a 15 (put b 10 (put m 9 (put t 6 (1073741854))))))
  | .vmulh w d a b m t => put w 31 (put d 20 (put a 15 (put b 10 (put m 9 (put t 6 (1073741855))))))
  | .vcvt w d a p m t s => put w 31 (put d 20 (put a 15 (put p 10 (put m 9 (put t 6 (put s 0 (1107296256)))))))
  | .vperm w d a b m t => put w 31 (put d 20 (put a 15 (put b 10 (put m 9 (put t 6 (1107296264))))))
  | .vbcst w d a l m t => put w 31 (put d 20 (put a 15 (put l 10 (put m 9 (put t 6 (1107296265))))))
  | .vins w d a l m t => put w 31 (put d 20 (put a 15 (put l 10 (put m 9 (put t 6 (1107296266))))))
  | .vext w d a l m t => put w 31 (put d 20 (put a 15 (put l 10 (put m 9 (put t 6 (1107296267))))))
  | .vzipl w d a b m t => put w 31 (put d 20 (put a 15 (put b 10 (put m 9 (put t 6 (1107296268))))))
  | .vziph w d a b m t => put w 31 (put d 20 (put a 15 (put b 10 (put m 9 (put t 6 (1107296269))))))
  | .vuzpe w d a b m t => put w 31 (put d 20 (put a 15 (put b 10 (put m 9 (put t 6 (1107296270))))))
  | .vuzpo w d a b m t => put w 31 (put d 20 (put a 15 (put b 10 (put m 9 (put t 6 (1107296271))))))
  | .vrsum w d a m t => put w 31 (put d 20 (put a 15 (put m 9 (put t 6 (1107296272)))))
  | .vrmax w d a m t => put w 31 (put d 20 (put a 15 (put m 9 (put t 6 (1107296273)))))
  | .vrmin w d a m t => put w 31 (put d 20 (put a 15 (put m 9 (put t 6 (1107296274)))))
  | .vrand w d a m t => put w 31 (put d 20 (put a 15 (put m 9 (put t 6 (1107296275)))))
  | .vror w d a m t => put w 31 (put d 20 (put a 15 (put m 9 (put t 6 (1107296276)))))
  | .vmovs w d a m t => put w 31 (put d 20 (put a 15 (put m 9 (put t 6 (1107296277)))))
  | .lds8 w t b r o => put w 31 (put t 18 (put b 11 (put r 8 (put o 0 (1207959552)))))
  | .ldn8 w t b r o => put w 31 (put t 18 (put b 11 (put r 8 (put o 0 (1241513984)))))
  | .lds16 w t b r o => put w 31 (put t 18 (put b 11 (put r 8 (put o 0 (1275068416)))))
  | .ldn16 w t b r o => put w 31 (put t 18 (put b 11 (put r 8 (put o 0 (1308622848)))))
  | .lds32 w t b r o => put w 31 (put t 18 (put b 11 (put r 8 (put o 0 (1342177280)))))
  | .ldn32 w t b r o => put w 31 (put t 18 (put b 11 (put r 8 (put o 0 (1375731712)))))
  | .ld64 w t b r o => put w 31 (put t 18 (put b 11 (put r 8 (put o 0 (1409286144)))))
  | .st8 w t b r o => put w 31 (put t 18 (put b 11 (put r 8 (put o 0 (1442840576)))))
  | .st16 w t b r o => put w 31 (put t 18 (put b 11 (put r 8 (put o 0 (1476395008)))))
  | .st32 w t b r o => put w 31 (put t 18 (put b 11 (put r 8 (put o 0 (1509949440)))))
  | .st64 w t b r o => put w 31 (put t 18 (put b 11 (put r 8 (put o 0 (1543503872)))))
  | .vld w t b m r => put w 31 (put t 20 (put b 13 (put m 2 (put r 0 (1577058304)))))
  | .vlds w t b x m r => put w 31 (put t 20 (put b 13 (put x 6 (put m 2 (put r 0 (1577058312))))))
  | .vgth w t b x m r => put w 31 (put t 20 (put b 13 (put x 6 (put m 2 (put r 0 (1577058320))))))
  | .vst w t b m r => put w 31 (put t 20 (put b 13 (put m 2 (put r 0 (1577058336)))))
  | .vsts w t b x m r => put w 31 (put t 20 (put b 13 (put x 6 (put m 2 (put r 0 (1577058344))))))
  | .vsct w t b x m r => put w 31 (put t 20 (put b 13 (put x 6 (put m 2 (put r 0 (1577058352))))))
  | .amo64Swap w d a b r => put w 31 (put d 18 (put a 11 (put b 4 (put r 2 (1610612736)))))
  | .amo64Cas w d a b r => put w 31 (put d 18 (put a 11 (put b 4 (put r 2 (1610612737)))))
  | .amo64Add w d a b r => put w 31 (put d 18 (put a 11 (put b 4 (put r 2 (1610612738)))))
  | .amo64Fadd w d a b r => put w 31 (put d 18 (put a 11 (put b 4 (put r 2 (1610612739)))))
  | .amo32Swap w d a b r => put w 31 (put d 18 (put a 11 (put b 4 (put r 2 (1644167168)))))
  | .amo32Cas w d a b r => put w 31 (put d 18 (put a 11 (put b 4 (put r 2 (1644167169)))))
  | .amo32Add w d a b r => put w 31 (put d 18 (put a 11 (put b 4 (put r 2 (1644167170)))))
  | .amo32Fadd w d a b r => put w 31 (put d 18 (put a 11 (put b 4 (put r 2 (1644167171)))))
  | .redAdd w z s a b => put w 31 (put z 21 (put s 18 (put a 11 (put b 4 (1677721600)))))
  | .redAnd w z s a b => put w 31 (put z 21 (put s 18 (put a 11 (put b 4 (1677721601)))))
  | .redOr w z s a b => put w 31 (put z 21 (put s 18 (put a 11 (put b 4 (1677721602)))))
  | .redXor w z s a b => put w 31 (put z 21 (put s 18 (put a 11 (put b 4 (1677721603)))))
  | .redMax w z s a b => put w 31 (put z 21 (put s 18 (put a 11 (put b 4 (1677721604)))))
  | .redMin w z s a b => put w 31 (put z 21 (put s 18 (put a 11 (put b 4 (1677721605)))))
  | .redMaxn w z s a b => put w 31 (put z 21 (put s 18 (put a 11 (put b 4 (1677721606)))))
  | .redMinn w z s a b => put w 31 (put z 21 (put s 18 (put a 11 (put b 4 (1677721607)))))
  | .redFadd w z s a b => put w 31 (put z 21 (put s 18 (put a 11 (put b 4 (1677721608)))))
  | .redFmax w z s a b => put w 31 (put z 21 (put s 18 (put a 11 (put b 4 (1677721609)))))
  | .redFmin w z s a b => put w 31 (put z 21 (put s 18 (put a 11 (put b 4 (1677721610)))))
  | .vamoSwap w d a b m t r => put w 31 (put d 20 (put a 15 (put b 10 (put m 9 (put t 6 (put r 0 (1711276032)))))))
  | .vamoAdd w d a b m t r => put w 31 (put d 20 (put a 15 (put b 10 (put m 9 (put t 6 (put r 0 (1711276036)))))))
  | .vamoAnd w d a b m t r => put w 31 (put d 20 (put a 15 (put b 10 (put m 9 (put t 6 (put r 0 (1711276040)))))))
  | .vamoOr w d a b m t r => put w 31 (put d 20 (put a 15 (put b 10 (put m 9 (put t 6 (put r 0 (1711276044)))))))
  | .vamoXor w d a b m t r => put w 31 (put d 20 (put a 15 (put b 10 (put m 9 (put t 6 (put r 0 (1711276048)))))))
  | .vamoMax w d a b m t r => put w 31 (put d 20 (put a 15 (put b 10 (put m 9 (put t 6 (put r 0 (1711276052)))))))
  | .vamoMin w d a b m t r => put w 31 (put d 20 (put a 15 (put b 10 (put m 9 (put t 6 (put r 0 (1711276056)))))))
  | .vamoFadd w d a b m t r => put w 31 (put d 20 (put a 15 (put b 10 (put m 9 (put t 6 (put r 0 (1711276060)))))))
  | .fence w s => put w 31 (put s 0 (1744830464))
  | .ldfe w d a => put w 31 (put d 18 (put a 11 (1744830528)))
  | .ldfec w d a => put w 31 (put d 18 (put a 11 (1744830592)))
  | .stfe w d a => put w 31 (put d 18 (put a 11 (1744830656)))
  | .waitge w d a => put w 31 (put d 18 (put a 11 (1744830720)))
  | .migrate w a => put w 31 (put a 11 (1744830784))
  | .prefetch w a l => put w 31 (put a 11 (put l 0 (1744830848)))
  | .fork w d a n => put w 31 (put d 18 (put a 11 (put n 0 (1778384896))))
  | .joinw w a => put w 31 (put a 11 (1778384960))
  | .launch w a => put w 31 (put a 11 (1778385024))
  | .tinfo w d s => put w 31 (put d 18 (put s 0 (1778385088)))
  | .qbind w q a => put w 31 (put q 18 (put a 11 (1841299456)))
  | .qpoll w d q => put w 31 (put d 18 (put q 11 (1812168768)))
  | .send w q a => put w 31 (put q 18 (put a 11 (1841299584)))
  | .sende w q a => put w 31 (put q 18 (put a 11 (1841299648)))
  | .vqrd w v q => put w 31 (put v 18 (put q 11 (1812168960)))
  | .vqwr w q v => put w 31 (put q 18 (put v 11 (1841299776)))
  | .itemget w d a => put w 31 (put d 18 (put a 11 (1811939712)))
  | .itemput w d a o => put w 31 (put d 18 (put a 11 (put o 0 (1811939776))))
  | .barj w a => put w 31 (put a 11 (1845493760))
  | .barl w a => put w 31 (put a 11 (1845493824))
  | .bara w a => put w 31 (put a 11 (1845493888))
  | .barw w a => put w 31 (put a 11 (1845493952))
  | .barm w d a => put w 31 (put d 18 (put a 11 (1845494016)))
  | .csig w d a s => put w 31 (put d 18 (put a 11 (put s 0 (1845494080))))
  | .xset w d f e => put w 31 (put d 18 (put f 1 (put e 0 (1879048192))))
  | .xget w d f e => put w 31 (put d 18 (put f 1 (put e 0 (1879048256))))
  | .xlaunch w d e => put w 31 (put d 18 (put e 0 (1879048320)))
  | .xwait w a e => put w 31 (put a 11 (put e 0 (1879048384)))
  | .trig w d a => put w 31 (put d 18 (put a 11 (1879048448)))
  | .trigc w a => put w 31 (put a 11 (1879048512))
  | .trigq w d a => put w 31 (put d 18 (put a 11 (1879048576)))
  | .mxwait w a => put w 31 (put a 11 (1879048640))
  | .mxrd w v a => put w 31 (put v 18 (put a 11 (1879048704)))
  | .hdone w => put w 31 (1879048768)
  | .ppt w m => put w 31 (put m 0 (1879048832))
  | .radd w d a => put w 31 (put d 18 (put a 11 (1912602624)))
  | .rmax w d a => put w 31 (put d 18 (put a 11 (1912602688)))
  | .rlww w d a => put w 31 (put d 18 (put a 11 (1912602752)))
  | .rsadd w d a => put w 31 (put d 18 (put a 11 (1912602816)))
  | .rsrem w d a => put w 31 (put d 18 (put a 11 (1912602880)))
  | .rshas w d a k => put w 31 (put d 18 (put a 11 (put k 0 (1912602944))))
  | .rmean w d a => put w 31 (put d 18 (put a 11 (1912603008)))
  | .rfront w d a c => put w 31 (put d 18 (put a 11 (put c 0 (1912603072))))
  | .rwaitf w d a c => put w 31 (put d 18 (put a 11 (put c 0 (1912603136))))
  | .hlcrd w d => put w 31 (put d 18 (1912603200))
  | .rship w a => put w 31 (put a 11 (1912603264))
  | .rstat w d a s => put w 31 (put d 18 (put a 11 (put s 0 (1912603328))))
  | .mbsend w d a => put w 31 (put d 18 (put a 11 (1946157056)))
  | .mbrecv w d a => put w 31 (put d 18 (put a 11 (1946157120)))
  | .mbpoll w d a => put w 31 (put d 18 (put a 11 (1946157184)))
  | .trputAdd w v t => put w 31 (put v 11 (put t 3 (1946157248)))
  | .trputMin w v t => put w 31 (put v 11 (put t 3 (1946157249)))
  | .trputMax w v t => put w 31 (put v 11 (put t 3 (1946157250)))
  | .trputAnd w v => put w 31 (put v 11 (1946157251))
  | .trputOr w v => put w 31 (put v 11 (1946157252))
  | .trputXor w v => put w 31 (put v 11 (1946157253))
  | .trputBcast w v t => put w 31 (put v 11 (put t 3 (1946157254)))
  | .trputBarrier w v => put w 31 (put v 11 (1946157255))
  | .trget w v => put w 31 (put v 18 (1946157312))
  | .trap w c => put w 31 (put c 0 (2013265920))
  | .eret w => put w 31 (2013265984)
  | .uiret w => put w 31 (2013266048)
  | .csrrd w d c n => put w 31 (put d 18 (put c 11 (put n 0 (2013266112))))
  | .csrwr w d c n => put w 31 (put d 18 (put c 11 (put n 0 (2013266176))))
  | .csrset w d c n => put w 31 (put d 18 (put c 11 (put n 0 (2013266240))))
  | .csrclr w d c n => put w 31 (put d 18 (put c 11 (put n 0 (2013266304))))
  | .grd w d g => put w 31 (put d 18 (put g 0 (2013266368)))
  | .gwr w d g => put w 31 (put d 18 (put g 0 (2013266432)))
  | .tlbinv w a s => put w 31 (put a 11 (put s 0 (2013266496)))
  | .tlbinvAll w s => put w 31 (put s 0 (2013266504))
  | .bkpt w => put w 31 (2013266560)
  | .handlerStart _ _ => 0
  | .threadPlacement _ _ _ => 0
  | .shareComputation _ => 0
  | .urgentShareComputation _ => 0
  | .preemption _ => 0
  | .preemptionGraceExpiry _ => 0
  | .waitLimitExpiry _ => 0
  | .deferredResultReturn _ => 0
  | .mtArrival _ => 0
  | .launchInboxCompletion _ => 0
  | .launchMailboxCompletion _ => 0
  | .stageBalancer _ => 0
  | .asyncTrapDelivery _ => 0
  | .uintDelivery _ => 0
  | .homeWrite _ => 0
  | .directoryOverflow _ => 0
  | .copyStart _ _ => 0
  | .copyCompletion _ _ => 0
  | .copyInboxAction _ _ => 0
  | .pushAction _ _ => 0
  | .mxuCommandStart _ => 0
  | .mxuRow _ _ => 0
  | .mxuCommandComplete _ _ => 0
  | .watchActionStart _ _ => 0
  | .canopyRound _ => 0
  | .remoteCopyData _ => 0
  | .remoteCopyCompletionRequest _ => 0
  | .remoteCopyReport _ => 0
  | .mailboxPayload _ => 0
  | .mailboxSequenceWord _ => 0
  | .slotReleaseNotice _ => 0
  | .cutHeader _ => 0
  | .cutUnit _ => 0
  | .cutMarker _ => 0
  | .cutAcknowledgement _ => 0
  | .timeBaseSynchronisation _ => 0
  | .discardReport _ => 0
  | .linkAcknowledgement _ => 0
  | .retryRequest _ => 0
  | .linkIdle _ => 0
  | .bulkWriteFault _ => 0
  | .bulkData _ => 0
  | .linkOutOfService _ => 0
  | .boundaryModuleFailure _ _ => 0
  | .cutSend _ _ _ => 0
  | .membershipEvaluation _ _ => 0
  | .silenceExpiry _ _ _ => 0
  | .rshipBoundExpiry _ _ => 0
  | .migrationRequest _ => 0
  | .ldoor _ => 0
  | .launchMailboxTake => 0
  | .mdoor _ => 0
  | .dmhead _ => 0
  | .summary .. => 0
  | .registerWrite _ _ => 0
  | .checkpoint => 0
  | .restore _ => 0
  | .bringUp _ => 0
  | .enterService => 0
  | .enterTest => 0
  | .enterD1 => 0
  | .enterD2 => 0
  | .enterD3 => 0
  | .wakeD0 => 0
  | .clockLevelWrite _ => 0
  | .clockLevelChange => 0
  | .debugToken _ => 0
  | .debugTokenExpiry => 0
  | .debugTokenRevocation => 0
  | .debugResume _ => 0
  | .getVersion => 0
  | .getCapabilities => 0
  | .negotiateAlgorithms => 0
  | .getDigests => 0
  | .getCertificate => 0
  | .challenge _ => 0
  | .getMeasurements _ => 0
  | .sessionEstablishment => 0
  | .replayEventDelivery => 0
  | .illegalEncoding _ => 0
  | .flitCrcFailure _ => 0
  | .reservedKindFlit _ => 0
  | .managementLaunchSubmission _ => 0

/-- True of the instructions that a thread fetches, false of the part's own steps. -/
def Instr.hasWord (i : Instr) : Bool :=
  match i with
  | .add _ _ _ _ => true
  | .sub _ _ _ _ => true
  | .and _ _ _ _ => true
  | .or _ _ _ _ => true
  | .xor _ _ _ _ => true
  | .andn _ _ _ _ => true
  | .shl _ _ _ _ => true
  | .shr _ _ _ _ => true
  | .sra _ _ _ _ => true
  | .min _ _ _ _ => true
  | .max _ _ _ _ => true
  | .minn _ _ _ _ => true
  | .maxn _ _ _ _ => true
  | .mul _ _ _ _ => true
  | .mulh _ _ _ _ => true
  | .mulhn _ _ _ _ => true
  | .divs _ _ _ _ => true
  | .divn _ _ _ _ => true
  | .rems _ _ _ _ => true
  | .remn _ _ _ _ => true
  | .clz _ _ _ => true
  | .ctz _ _ _ => true
  | .popc _ _ _ => true
  | .rotl _ _ _ _ => true
  | .rotr _ _ _ _ => true
  | .addsh1 _ _ _ _ => true
  | .addsh2 _ _ _ _ => true
  | .addsh3 _ _ _ _ => true
  | .spbank _ _ _ => true
  | .sprow _ _ _ => true
  | .brev _ _ _ => true
  | .bswap _ _ _ => true
  | .ceq _ _ _ _ _ => true
  | .cne _ _ _ _ _ => true
  | .clt _ _ _ _ _ => true
  | .cle _ _ _ _ _ => true
  | .cltn _ _ _ _ _ => true
  | .clen _ _ _ _ _ => true
  | .cbit _ _ _ _ _ => true
  | .addi _ _ _ _ => true
  | .andi _ _ _ _ => true
  | .ori _ _ _ _ => true
  | .xori _ _ _ _ => true
  | .muli _ _ _ _ => true
  | .shli _ _ _ _ => true
  | .shri _ _ _ _ => true
  | .srai _ _ _ _ => true
  | .rotli _ _ _ _ => true
  | .ceqi _ _ _ _ _ => true
  | .cnei _ _ _ _ _ => true
  | .clti _ _ _ _ _ => true
  | .clei _ _ _ _ _ => true
  | .cltni _ _ _ _ _ => true
  | .cleni _ _ _ _ _ => true
  | .cgti _ _ _ _ _ => true
  | .cgei _ _ _ _ _ => true
  | .exti _ _ _ _ _ => true
  | .lqz _ _ _ _ => true
  | .lqk _ _ _ _ => true
  | .pcadd _ _ _ _ => true
  | .psel _ _ _ _ _ => true
  | .pand _ _ _ _ => true
  | .por _ _ _ _ => true
  | .pxor _ _ _ _ => true
  | .pandn _ _ _ _ => true
  | .porn _ _ _ _ => true
  | .pnand _ _ _ _ => true
  | .pnor _ _ _ _ => true
  | .pxnor _ _ _ _ => true
  | .brPset _ _ _ => true
  | .brPclr _ _ _ => true
  | .brZ _ _ _ => true
  | .brNz _ _ _ => true
  | .brEop _ _ => true
  | .brEos _ _ => true
  | .brQe _ _ => true
  | .br _ _ => true
  | .jmp _ _ => true
  | .jal _ _ => true
  | .jalr _ _ _ _ => true
  | .repf _ _ _ _ => true
  | .nop _ => true
  | .yield _ => true
  | .texit _ _ _ => true
  | .halt _ => true
  | .faddF32 _ _ _ _ => true
  | .fsubF32 _ _ _ _ => true
  | .fmulF32 _ _ _ _ => true
  | .fdivF32 _ _ _ _ => true
  | .fsqrtF32 _ _ _ => true
  | .fminF32 _ _ _ _ => true
  | .fmaxF32 _ _ _ _ => true
  | .fmaF32 _ _ _ _ => true
  | .fmsF32 _ _ _ _ => true
  | .fnmaF32 _ _ _ _ => true
  | .fabsF32 _ _ _ => true
  | .fnegF32 _ _ _ => true
  | .fcpsF32 _ _ _ _ => true
  | .fceqF32 _ _ _ _ _ => true
  | .fcltF32 _ _ _ _ _ => true
  | .fcleF32 _ _ _ _ _ => true
  | .faddF64 _ _ _ _ => true
  | .fsubF64 _ _ _ _ => true
  | .fmulF64 _ _ _ _ => true
  | .fdivF64 _ _ _ _ => true
  | .fsqrtF64 _ _ _ => true
  | .fminF64 _ _ _ _ => true
  | .fmaxF64 _ _ _ _ => true
  | .fmaF64 _ _ _ _ => true
  | .fmsF64 _ _ _ _ => true
  | .fnmaF64 _ _ _ _ => true
  | .fabsF64 _ _ _ => true
  | .fnegF64 _ _ _ => true
  | .fcpsF64 _ _ _ _ => true
  | .fceqF64 _ _ _ _ _ => true
  | .fcltF64 _ _ _ _ _ => true
  | .fcleF64 _ _ _ _ _ => true
  | .fcvtF64F32 _ _ _ => true
  | .fcvtF32F64 _ _ _ => true
  | .fcvtF32S64 _ _ _ => true
  | .fcvtF32N64 _ _ _ => true
  | .fcvtF64S64 _ _ _ => true
  | .fcvtF64N64 _ _ _ => true
  | .fcvtS64F32 _ _ _ => true
  | .fcvtN64F32 _ _ _ => true
  | .fcvtS64F64 _ _ _ => true
  | .fcvtN64F64 _ _ _ => true
  | .fcvtF32B16 _ _ _ => true
  | .fcvtB16F32 _ _ _ => true
  | .fcvtF32F16 _ _ _ => true
  | .fcvtF16F32 _ _ _ => true
  | .fcvtF32E4 _ _ _ => true
  | .fcvtF32E5 _ _ _ => true
  | .fcvtE4F32 _ _ _ => true
  | .fcvtE5F32 _ _ _ => true
  | .vadd _ _ _ _ _ _ => true
  | .vsub _ _ _ _ _ _ => true
  | .vmul _ _ _ _ _ _ => true
  | .vdiv _ _ _ _ _ _ => true
  | .vfma _ _ _ _ _ _ => true
  | .vfms _ _ _ _ _ _ => true
  | .vfnma _ _ _ _ _ _ => true
  | .vsqrt _ _ _ _ _ => true
  | .vmin _ _ _ _ _ _ => true
  | .vmax _ _ _ _ _ _ => true
  | .vabs _ _ _ _ _ => true
  | .vneg _ _ _ _ _ => true
  | .vcps _ _ _ _ _ _ => true
  | .vrcp _ _ _ _ _ => true
  | .vrsq _ _ _ _ _ => true
  | .vexp2 _ _ _ _ _ => true
  | .vlog2 _ _ _ _ _ => true
  | .vdot _ _ _ _ _ _ => true
  | .vand _ _ _ _ _ _ => true
  | .vor _ _ _ _ _ _ => true
  | .vxor _ _ _ _ _ _ => true
  | .vshl _ _ _ _ _ _ => true
  | .vshr _ _ _ _ _ _ => true
  | .vsra _ _ _ _ _ _ => true
  | .vceq _ _ _ _ _ _ => true
  | .vcne _ _ _ _ _ _ => true
  | .vclt _ _ _ _ _ _ => true
  | .vcle _ _ _ _ _ _ => true
  | .vsel _ _ _ _ _ => true
  | .vadds _ _ _ _ _ _ => true
  | .vsubs _ _ _ _ _ _ => true
  | .vmulh _ _ _ _ _ _ => true
  | .vcvt _ _ _ _ _ _ _ => true
  | .vperm _ _ _ _ _ _ => true
  | .vbcst _ _ _ _ _ _ => true
  | .vins _ _ _ _ _ _ => true
  | .vext _ _ _ _ _ _ => true
  | .vzipl _ _ _ _ _ _ => true
  | .vziph _ _ _ _ _ _ => true
  | .vuzpe _ _ _ _ _ _ => true
  | .vuzpo _ _ _ _ _ _ => true
  | .vrsum _ _ _ _ _ => true
  | .vrmax _ _ _ _ _ => true
  | .vrmin _ _ _ _ _ => true
  | .vrand _ _ _ _ _ => true
  | .vror _ _ _ _ _ => true
  | .vmovs _ _ _ _ _ => true
  | .lds8 _ _ _ _ _ => true
  | .ldn8 _ _ _ _ _ => true
  | .lds16 _ _ _ _ _ => true
  | .ldn16 _ _ _ _ _ => true
  | .lds32 _ _ _ _ _ => true
  | .ldn32 _ _ _ _ _ => true
  | .ld64 _ _ _ _ _ => true
  | .st8 _ _ _ _ _ => true
  | .st16 _ _ _ _ _ => true
  | .st32 _ _ _ _ _ => true
  | .st64 _ _ _ _ _ => true
  | .vld _ _ _ _ _ => true
  | .vlds _ _ _ _ _ _ => true
  | .vgth _ _ _ _ _ _ => true
  | .vst _ _ _ _ _ => true
  | .vsts _ _ _ _ _ _ => true
  | .vsct _ _ _ _ _ _ => true
  | .amo64Swap _ _ _ _ _ => true
  | .amo64Cas _ _ _ _ _ => true
  | .amo64Add _ _ _ _ _ => true
  | .amo64Fadd _ _ _ _ _ => true
  | .amo32Swap _ _ _ _ _ => true
  | .amo32Cas _ _ _ _ _ => true
  | .amo32Add _ _ _ _ _ => true
  | .amo32Fadd _ _ _ _ _ => true
  | .redAdd _ _ _ _ _ => true
  | .redAnd _ _ _ _ _ => true
  | .redOr _ _ _ _ _ => true
  | .redXor _ _ _ _ _ => true
  | .redMax _ _ _ _ _ => true
  | .redMin _ _ _ _ _ => true
  | .redMaxn _ _ _ _ _ => true
  | .redMinn _ _ _ _ _ => true
  | .redFadd _ _ _ _ _ => true
  | .redFmax _ _ _ _ _ => true
  | .redFmin _ _ _ _ _ => true
  | .vamoSwap _ _ _ _ _ _ _ => true
  | .vamoAdd _ _ _ _ _ _ _ => true
  | .vamoAnd _ _ _ _ _ _ _ => true
  | .vamoOr _ _ _ _ _ _ _ => true
  | .vamoXor _ _ _ _ _ _ _ => true
  | .vamoMax _ _ _ _ _ _ _ => true
  | .vamoMin _ _ _ _ _ _ _ => true
  | .vamoFadd _ _ _ _ _ _ _ => true
  | .fence _ _ => true
  | .ldfe _ _ _ => true
  | .ldfec _ _ _ => true
  | .stfe _ _ _ => true
  | .waitge _ _ _ => true
  | .migrate _ _ => true
  | .prefetch _ _ _ => true
  | .fork _ _ _ _ => true
  | .joinw _ _ => true
  | .launch _ _ => true
  | .tinfo _ _ _ => true
  | .qbind _ _ _ => true
  | .qpoll _ _ _ => true
  | .send _ _ _ => true
  | .sende _ _ _ => true
  | .vqrd _ _ _ => true
  | .vqwr _ _ _ => true
  | .itemget _ _ _ => true
  | .itemput _ _ _ _ => true
  | .barj _ _ => true
  | .barl _ _ => true
  | .bara _ _ => true
  | .barw _ _ => true
  | .barm _ _ _ => true
  | .csig _ _ _ _ => true
  | .xset _ _ _ _ => true
  | .xget _ _ _ _ => true
  | .xlaunch _ _ _ => true
  | .xwait _ _ _ => true
  | .trig _ _ _ => true
  | .trigc _ _ => true
  | .trigq _ _ _ => true
  | .mxwait _ _ => true
  | .mxrd _ _ _ => true
  | .hdone _ => true
  | .ppt _ _ => true
  | .radd _ _ _ => true
  | .rmax _ _ _ => true
  | .rlww _ _ _ => true
  | .rsadd _ _ _ => true
  | .rsrem _ _ _ => true
  | .rshas _ _ _ _ => true
  | .rmean _ _ _ => true
  | .rfront _ _ _ _ => true
  | .rwaitf _ _ _ _ => true
  | .hlcrd _ _ => true
  | .rship _ _ => true
  | .rstat _ _ _ _ => true
  | .mbsend _ _ _ => true
  | .mbrecv _ _ _ => true
  | .mbpoll _ _ _ => true
  | .trputAdd _ _ _ => true
  | .trputMin _ _ _ => true
  | .trputMax _ _ _ => true
  | .trputAnd _ _ => true
  | .trputOr _ _ => true
  | .trputXor _ _ => true
  | .trputBcast _ _ _ => true
  | .trputBarrier _ _ => true
  | .trget _ _ => true
  | .trap _ _ => true
  | .eret _ => true
  | .uiret _ => true
  | .csrrd _ _ _ _ => true
  | .csrwr _ _ _ _ => true
  | .csrset _ _ _ _ => true
  | .csrclr _ _ _ _ => true
  | .grd _ _ _ => true
  | .gwr _ _ _ => true
  | .tlbinv _ _ _ => true
  | .tlbinvAll _ _ => true
  | .bkpt _ => true
  | .handlerStart _ _ => false
  | .threadPlacement _ _ _ => false
  | .shareComputation _ => false
  | .urgentShareComputation _ => false
  | .preemption _ => false
  | .preemptionGraceExpiry _ => false
  | .waitLimitExpiry _ => false
  | .deferredResultReturn _ => false
  | .mtArrival _ => false
  | .launchInboxCompletion _ => false
  | .launchMailboxCompletion _ => false
  | .stageBalancer _ => false
  | .asyncTrapDelivery _ => false
  | .uintDelivery _ => false
  | .homeWrite _ => false
  | .directoryOverflow _ => false
  | .copyStart _ _ => false
  | .copyCompletion _ _ => false
  | .copyInboxAction _ _ => false
  | .pushAction _ _ => false
  | .mxuCommandStart _ => false
  | .mxuRow _ _ => false
  | .mxuCommandComplete _ _ => false
  | .watchActionStart _ _ => false
  | .canopyRound _ => false
  | .remoteCopyData _ => false
  | .remoteCopyCompletionRequest _ => false
  | .remoteCopyReport _ => false
  | .mailboxPayload _ => false
  | .mailboxSequenceWord _ => false
  | .slotReleaseNotice _ => false
  | .cutHeader _ => false
  | .cutUnit _ => false
  | .cutMarker _ => false
  | .cutAcknowledgement _ => false
  | .timeBaseSynchronisation _ => false
  | .discardReport _ => false
  | .linkAcknowledgement _ => false
  | .retryRequest _ => false
  | .linkIdle _ => false
  | .bulkWriteFault _ => false
  | .bulkData _ => false
  | .linkOutOfService _ => false
  | .boundaryModuleFailure _ _ => false
  | .cutSend _ _ _ => false
  | .membershipEvaluation _ _ => false
  | .silenceExpiry _ _ _ => false
  | .rshipBoundExpiry _ _ => false
  | .migrationRequest _ => false
  | .ldoor _ => false
  | .launchMailboxTake => false
  | .mdoor _ => false
  | .dmhead _ => false
  | .summary .. => false
  | .registerWrite _ _ => false
  | .checkpoint => false
  | .restore _ => false
  | .bringUp _ => false
  | .enterService => false
  | .enterTest => false
  | .enterD1 => false
  | .enterD2 => false
  | .enterD3 => false
  | .wakeD0 => false
  | .clockLevelWrite _ => false
  | .clockLevelChange => false
  | .debugToken _ => false
  | .debugTokenExpiry => false
  | .debugTokenRevocation => false
  | .debugResume _ => false
  | .getVersion => false
  | .getCapabilities => false
  | .negotiateAlgorithms => false
  | .getDigests => false
  | .getCertificate => false
  | .challenge _ => false
  | .getMeasurements _ => false
  | .sessionEstablishment => false
  | .replayEventDelivery => false
  | .illegalEncoding _ => false
  | .flitCrcFailure _ => false
  | .reservedKindFlit _ => false
  | .managementLaunchSubmission _ => false

/-- The encoder: the word of an instruction that a thread fetches. -/
def encode (i : Instr) : Option IWord :=
  if i.hasWord then some (BitVec.ofNat 32 (wordOf i)) else none

/-- The word that a trap's tval holds for instruction i (R107): its encoding. -/
def tvalWord (i : Instr) : Word := BitVec.ofNat 64 (wordOf i)

/-- The bytes of a word in memory order (R6). -/
def bytesOfWord (w : Nat) : List Byte :=
  [BitVec.ofNat 8 w, BitVec.ofNat 8 (w / 2 ^ 8), BitVec.ofNat 8 (w / 2 ^ 16), BitVec.ofNat 8 (w / 2 ^ 24)]

/-- The instruction that the decoder reads from the table's numbering of a word: every row has 32 bits. -/
noncomputable def decodeTableWord (nbits w : Nat) : Option Instr :=
  if nbits ≤ 32 then
    match decodeBytes (bytesOfWord w) with
    | some (.ok i, _) => some i
    | _ => none
  else none

end Sys2Proof
end

