-- ==== Sys2Proof/Machine/State.lean ====
section
/-! DEFINITION. The state of the machine: everything the spec gives one Dymir device, as plain data (R5 to R23, R87 to
R102, and the chapters named at each field), the reasons a step can stop, and the state at reset. -/
namespace Sys2Proof.Machine

/-- A sparse table: number and entry. A number that is not listed has the reset value of its kind. -/
abbrev Tab (α : Type) := List (Nat × α)

/-- Thread states (R35). -/
inductive TState where
  | unplaced | ready | parked | blocked | trapped | suspended | exited
  deriving DecidableEq, Repr

/-- Kinds of thread (R21). -/
inductive Kind where
  | anchored | mt | handler
  deriving DecidableEq, Repr

/-- Roles (R24). -/
inductive Role where
  | general | access | execute
  deriving DecidableEq, Repr

/-- What a handler thread runs for (R25): a trapped resident (R346), a directory line (R185) or the rows of a bank to
drain, with the row as it was drained, whether it is poisoned, and the thread that launched the command (R285). -/
inductive HandlerFor where
  | system (target code : Nat)
  | directory (line : Nat)
  | drain (core xid bank row lnum : Nat) (data : BitVec 4096) (bad : Bool) (owner : Nat)
  deriving DecidableEq, Repr

/-- A trap to deliver: code and tval (R345, R350). -/
structure TrapRec where
  code : Nat
  tval : Word
  deriving DecidableEq, Repr

/-- A queued user-level interrupt (R268, R352). -/
structure Uint where
  xid : Nat
  block : Word
  vector : Word
  trap : Option Nat := none          -- its block could not be read: the trap at delivery (R268)
  deriving DecidableEq, Repr

/-- One outstanding deferred result (R30 to R34): its destination (window register, 124, or 128 + vector register), the
accesses it still waits for, and what it will write when it is settled. -/
structure Deferred where
  num : Nat
  dest : Nat
  waiting : List Nat
  value : Vec
  taint : Bool
  flags : BitVec 5
  poison : Option Word
  full : Option Word := none         -- an RSADD on a full set: the address of its trap (R308)
  deriving DecidableEq, Repr

/-- What a BLOCKED thread waits for (R30, R127). -/
inductive WaitOn where
  | heads (srcs dsts : List Nat)                   -- channel heads and stream registers (R90)
  | word                                           -- a registered waiter at a home (R203)
  | inboxRoom (lcn inbox words : Nat)              -- SEND, SENDE (R243)
  | wide (core chan : Nat) (read : Bool)           -- VQRD, VQWR (R241)
  | engineRoom (core engine : Nat)                 -- XLAUNCH (R266)
  | transfer (core engine xid : Nat)               -- XWAIT, MXWAIT (R266, R294)
  | itemGet                                        -- ITEMGET (R245)
  | itemPut (queue seq : Nat)                      -- ITEMPUT (R246)
  | barrier (obj phase : Nat)                      -- BARW (R250)
  | replica (a : Word)                             -- RSHAS (R312)
  | frontier (a : Word) (slot : Nat) (v : Word)    -- RWAITF (R321)
  | mailboxRoom (a : Word)                         -- MBSEND (R333)
  | mailboxMessage (a : Word)                      -- MBRECV (R334)
  | canopyRoom (core : Nat)                        -- TRPUT (R344)
  | canopyResult (core : Nat)                      -- TRGET (R344)
  | reply                                          -- TRIGQ, RSTAT: the answer of a home (R127)
  deriving DecidableEq, Repr

/-- A packet being built (R243). -/
structure Packet where
  head : Nat
  words : List Word
  deriving DecidableEq, Repr

/-- A stage item held (R54). -/
structure Item where
  handle : Word
  seq : BitVec 32
  deriving DecidableEq, Repr

/-- One word in an inbox: the end-of-packet mark, and the accesses whose accounting passes at the dequeue (R224). -/
structure InWord where
  word : Word
  last : Bool
  acct : List Nat
  deriving DecidableEq, Repr

/-- What an instruction holds in reserve once its sources and its room are there (R90 step 1), or while it waits with them
read (R201): an entry of a local channel, a word of an inbox, an item of a stage's input (its queue, none at stage 0), room
in a channel or an inbox, a place in an unordered stage queue, a number in an ordered one. -/
inductive Taken where
  | entry (core num : Nat) (e : Vec)
  | word (core num : Nat) (w : InWord)
  | item (lnum : Nat) (queue : Option Nat) (it : Item)
  | room (core num : Nat) (inbox : Bool) (n : Nat)
  | place (lnum queue : Nat)
  | number (lnum queue : Nat) (seq : BitVec 32)
  deriving DecidableEq, Repr

/-- A blocking wait in progress (R353): its heads, what is reserved for it, and whether step 1 of R90 is complete, so that it
cannot be withdrawn. -/
structure Wait where
  what : WaitOn
  start : Word
  limit : Word
  tval : Word
  srcs : List Nat := []
  dsts : List Nat := []
  grip : List Taken := []
  ready : Bool := false
  deriving DecidableEq, Repr

/-- A stream register's binding (R271): engine 0 identifier, the next element, their number, and, once the copy has
started, for each byte of the destination in the order of its elements the access that writes it and its key. -/
structure StreamReg where
  xid : Nat
  next : Nat
  total : Nat
  elems : List (Nat × Nat) := []
  deriving DecidableEq, Repr

/-- The per-thread CSRs that hold a value (R96): `wnd` and `time` are computed, `hsel` is a handler's. -/
structure Csrs where
  fcsr : Word := 0
  ts : Word := 0
  tcause : Word := 0
  tepc : Word := 0
  tval : Word := 0
  tprog : Word := 0
  uepc : Word := 0
  uxid : Word := 0
  uiblk : Word := 0
  waitlim : Word := 0
  repst : Word := 0
  hsel : Word := 0
  deriving DecidableEq, Repr

/-- Where a thread is resident (R11). -/
structure Place where
  core : Nat
  slot : Nat
  pos : Nat
  deriving DecidableEq, Repr

/-- What comes once a release may be performed (R90, R240): writes through fields that name heads, whose room is held, with
their values and the jump of the instruction; the enqueue of VQWR of a vector register; the closing of a packet by SENDE;
the child of a FORK with its entry and the number of registers it takes (R232). -/
inductive Stall where
  | heads (writes : List (Nat × Word)) (target : Option Word)
  | wide (head vreg : Nat)
  | packet (head : Nat)
  | fork (entry : Word) (n : Nat)
  deriving DecidableEq, Repr

/-- One thread (R21 to R25, R35, R39). -/
structure Thread where
  kind : Kind
  role : Role
  lnum : Nat                         -- launch number (R38)
  tnum : Nat                         -- thread number (R39)
  slen : Nat
  vlen : Nat
  sbase : Nat := 0                   -- window bases within the core's files (R22)
  vbase : Nat := 0
  state : TState := .unplaced
  place : Option Place := none
  core : Nat                         -- the core it is bound to, stands on, or is queued at
  origin : Nat := 0                  -- origin core of a queued MT (R47)
  pc : Word
  x : List Word                      -- scalar window (slen of them)
  taint : List Bool                  -- one per window register (R93)
  v : List Vec                       -- vector window
  pw : Word := 0
  csr : Csrs := {}
  outs : List Deferred := []         -- outstanding deferred results (R31)
  marked : Bool := false             -- the blocking instruction in progress carries the marker (R32)
  wait : Option Wait := none
  hold : List Nat := []              -- accesses that a stall waits for (R200, R213)
  frame : List IWord := []           -- captured words (R147)
  heads : List Word := List.replicate 8 0      -- binding descriptors, 0 for unbound (R236)
  streams : List (Option StreamReg) := [none, none, none, none]
  packet : Option Packet := none
  item : Option Item := none
  shadow0 : List Word                -- fields 0-13 (R258)
  shadow1 : List Word                -- fields 0-15 (R280)
  traps : List TrapRec := []         -- undelivered asynchronous traps, oldest first (R350)
  uints : List Uint := []            -- queued user-level interrupts (R352)
  waitCount : Nat := 0               -- R28
  age : Nat := 0                     -- turns of its core before its placement (R29)
  preempt : Bool := false            -- a pre-emption is pending (R354)
  ppt : Bool := false                -- PPT has asked for it, or its grace has run (R292, R297)
  arrivals : Tab Nat := []           -- barrier object and the phase of the last arrival (R250)
  joined : List Nat := []            -- barrier objects joined (R249)
  stage : Nat := 0                   -- stage of a PIPELINE thread (R52)
  index : Nat := 0                   -- j * 8 + i of a PIPELINE thread (R39)
  job : Option HandlerFor := none    -- a handler's purpose (R25)
  banks : List Bool := [false, false]          -- accumulator banks owned (R289)
  saved : List (Option Nat) := [none, none]    -- bank slots that hold a saved bank (R291)
  live : Word := 3                   -- live-tile mask of the last PPT (R297)
  slotIdx : Option Nat := none       -- context slot that holds it while SUSPENDED or saved by JOINW (R355)
  slotCore : Nat := 0                -- the core of that slot
  lastPut : Option (Nat × Nat) := none         -- op and type of its last TRPUT (R344)
  accLost : Bool := false            -- ACC_LOST is due at placement (R292)
  graceAt : Word := 0                -- when the grace of a pending pre-emption ends (R292)
  debugStop : Bool := false          -- stopped by a claimed breakpoint (R372)
  slotLogged : Bool := false         -- its wait for a save slot is in the error log (R355)
  stalled : Option Stall := none     -- an enqueue that waits for its release (R90)
  flying : Bool := false             -- an MT between two cores (R49)
  moved : Bool := false              -- its core has changed stage; it restarts at its next ITEMGET (R57)
  deriving DecidableEq, Repr

/-- One local channel (R238). -/
structure Chan where
  owner : Option Nat := none
  wide : Bool := false
  entries : List Vec := []
  reserved : Nat := 0                -- entries held in reserve: room, and entries taken but not yet dequeued (R90, R201)
  deriving DecidableEq, Repr

/-- One inbox (R239). -/
structure Inbox where
  words : List InWord := []
  reserved : Nat := 0
  owner : Option Nat := none         -- launch whose thread last bound it for receiving (R254)
  deriving DecidableEq, Repr

/-- One issue slot (R26 to R28, R25). -/
structure Slot where
  owner : Nat := 0                   -- launch queue, slotcfg[7:4] (R101)
  pol : Bool := false                -- in force (R28)
  polNext : Bool := false            -- slotcfg[0]; in force from the slot's next turn (R101)
  lastPos : Nat := 6
  current : Option Nat := none       -- the GTO resident, by position
  greed : Nat := 0                   -- its consecutive turns
  yielded : Bool := false            -- its run ended by YIELD (R150)
  starts : List HandlerFor := []     -- handler starts waiting, oldest first (R25)
  deriving DecidableEq, Repr

/-- A band table entry (R102). -/
structure Band where
  saved : Bool := false
  v : Bool := false
  lnum : Nat := 0
  deriving DecidableEq, Repr

/-- An operation of engine 0 or of an MXU, as XLAUNCH captured it (R259, R281). -/
structure EngOp where
  xid : Nat
  engine : Nat
  fields : List Word
  tid : Nat                          -- launching thread
  lnum : Nat
  user : Bool
  state : Nat := 0                   -- 0 queued, 1 running, 2 action due, 3 action waiting
  after : List Nat := []             -- accesses before the operation's own (R221)
  pending : List Nat := []           -- its writes not yet performed
  fault : Option TrapRec := none     -- an execution fault (R270)
  row : Nat := 0                     -- next row of an MXU command (R282)
  early : Tab (Byte × Bool) := []    -- operand bytes of its rows read before the row is computed, each with whether it is
                                     -- poisoned, by row · 2^64 + key (R222, R283)
  held : Bool := false               -- its thread is SUSPENDED and owns the bank (R291)
  watch : Option Word := none        -- started by this watch handle (R273)
  stage : Nat := 0                   -- stage of the launching thread (R269)
  sent : Nat := 0                    -- kind-0 flits of a remote copy (R383)
  closed : Bool := false             -- its kind-1 flit has been sent (R330)
  acked : Bool := false              -- its kind-2 flit has arrived (R330)
  deriving DecidableEq, Repr

/-- One accumulator bank (R277, R289): 128 rows of 128 elements of 32 bits, poisoned rows, its owner. -/
structure Bank where
  rows : List (BitVec 4096) := List.replicate 128 0
  poison : List Nat := []
  owner : Option Nat := none
  ending : Bool := false             -- its owner has given it up by PPT; commands still accumulate (R297)
  deriving DecidableEq, Repr

/-- An operand in a canopy inject queue (R342, R343): its group, round, op and type. -/
structure Operand where
  group : Nat
  round : Nat
  op : Nat
  ty : Nat
  data : Vec
  deriving DecidableEq, Repr

/-- A round's result in an extract queue; `bad` where operations or types differed (R343). -/
structure CanopyResult where
  group : Nat
  round : Nat
  data : Vec
  bad : Bool
  barrier : Bool
  deriving DecidableEq, Repr

/-- One core (R101, R102 and the chapters). -/
structure Core where
  tbase : Word := 0
  slots : List Slot := List.replicate 8 {}
  nextSlot : Nat := 0                -- the slot whose turn is next (R26) (DESIGN CHOICE, log 6)
  rotation : Nat := 0                -- R40
  bands : List Band := List.replicate 32 {}
  pmc : List Word := List.replicate 16 0
  pmsel : List (BitVec 8) := List.replicate 16 0
  pmcLater : Tab Word := []          -- writes that take effect at the next turn (R102)
  pmselLater : Tab (BitVec 8) := []
  g : List Word := List.replicate 32 0         -- R92
  runq : List Nat := []              -- MTs, oldest first (R47)
  deque : List Nat := []             -- MTs, top (oldest) first (R47)
  chans : List Chan := List.replicate 16 {}
  inboxes : List Inbox := List.replicate 16 {}
  xidNext : Nat := 1                 -- R257
  eng0 : List EngOp := []            -- R255
  eng1 : List EngOp := []
  xstat : List (Nat × Nat) := [(0, 0), (0, 0)] -- DONE and LAST of each engine (R260)
  trailing : List EngOp := []        -- copies whose action has been performed and whose last pieces have not (R223, R226)
  mxwgt : Nat := 1                   -- R280
  bankA : Bank := {}
  bankB : Bank := {}
  canopyIn : List Operand := []      -- inject queue (R342)
  canopyOut : List CanopyResult := []          -- extract queue
  canopyHeld : Option CanopyResult := none     -- a result that the node above holds while the extract queue is full (R342)
  canopyN : Tab Nat := []            -- operands injected here for each group: the next round (R342)
  ctxSlots : List Nat := []          -- context slots in use (R355)
  bandSlots : Tab (Nat × Nat) := []  -- band slot: launch and band (R357)
  bankSlots : List Nat := []
  claims : List (Nat × Nat × Bool) := []       -- a launch that waited for bands at a share boundary, the holder, placed since (R357)
  urgent : Bool := false             -- an extra share computation is due (R44)
  wasActive : List Nat := []         -- URGENT queues that are active (R44)
  unmapped : List Nat := []          -- queues whose last slot the share computation of this cycle took (R45)
  lastShare : Nat := 0               -- the rotation of the last share computation (R42)
  queueWords : Option (List Word) := none      -- the control words at that computation (R40)
  deriving DecidableEq, Repr

/-- One translation that a TLB may still hold (R361): the owner is a core (LCN) or a grove (4096 + GN). -/
structure TlbEntry where
  owner : Nat
  vpn : Nat                          -- VA / 64 KiB
  leaf : Word
  big : Bool
  deriving DecidableEq, Repr

/-- A translation that a page-table store has replaced (R361): any core may still use it but those whose TLBs a TLBINV has
covered since, given by its core and scope (R365). -/
structure Stale where
  va : Nat
  leaf : Word
  big : Bool
  gone : List (Nat × Nat) := []
  deriving DecidableEq, Repr

/-- Where an access goes: the byte key, the home, the KIND of the page (R179; 8 is a scratchpad, 9 a B-store), the SOT
index of a view page, and the DVA. -/
structure Loc where
  key : Nat
  home : Nat
  kind : Nat
  sotx : Nat
  va : Word
  deriving DecidableEq, Repr

/-- The operations a home performs on a word (R196, R197, R198). -/
inductive Rmw where
  | swap | cas | add | fadd | and | or | xor | max | min | maxn | minn | fmax | fmin
  deriving DecidableEq, Repr

/-- How the value of a read becomes part of a deferred result. -/
inductive Sink where
  | scalar (bytes : Nat) (signed : Bool)       -- R190
  | lane (i : Nat) (window : Nat)              -- R192: the window's format
  | old (i : Nat)                              -- VAMO lane (R198)
  | whole                                      -- all 64 bits
  deriving DecidableEq, Repr

/-- Where a piece of a copy comes from: bytes at places, converted as XFORM states (0 as they are, 3 narrowed), or a result of
the extract port (R344). -/
inductive CopySrc where
  | mem (parts : List (Loc × Nat)) (conv : Nat)
  | extract
  deriving DecidableEq, Repr

/-- What one access does when it is performed (R206). -/
inductive AccOp where
  | load (bytes : Nat) (num : Nat) (sink : Sink) (consume : Bool)
  | store (bytes : List Byte)
  | rmw (op : Rmw) (bytes : Nat) (b cmp : Word) (result : Option (Nat × Sink))
  | stfe (x : Word)
  | gwr (n : Nat) (x : Word)
  -- a piece of an engine's destination; once its source is read, the bytes not yet written by offset, each with whether it is poisoned
  | unit (src : CopySrc) (size : Nat) (bytes : Option (Tab (Byte × Bool)))
  -- elements of two bytes at an odd destination: the ranges of it not yet given to pieces (R261, R262)
  | split (src : CopySrc) (dst : Word) (size : Nat) (left : List (Nat × Nat))
  | row (src dst : Word) (pack : Bool) (room : Option Nat)     -- a row that a copy packs or unpacks, and the pitch (R262)
  | fail (r : TrapRec)                                         -- a piece that meets an execution fault (R270)
  | ship (dst : Word) (src : CopySrc) (size : Nat)             -- a piece of a remote copy (R383)
  | inject (src : CopySrc)                                     -- a unit of a copy to the inject port (R344)
  | arm (block : List Loc) (user : Bool) (lnum num : Nat)      -- TRIG: the words of its block, and who arms (R274)
  | mxrd (bank row chunk num : Nat) (before : List Nat)        -- MXRD, and the commands launched before it (R295)
  -- an update (R308): source key and length of RLWW; the number once taken (R304)
  | replica (member : Nat) (x : Word) (src : Option (Nat × Nat)) (num : Nat) (taken : Option Word)
  | frontier (slot : Nat) (num : Nat)                                  -- RFRONT (R321)
  deriving DecidableEq, Repr

/-- One access that has been issued and not yet performed (R206 to R213). -/
structure Access where
  id : Nat
  tid : Nat                          -- the thread in whose counters it stands
  core : Nat                         -- the core it was issued from
  level : Nat                        -- level of its home (R209)
  loc : Loc
  after : List Nat                   -- the accesses that are performed first
  acq : Bool                         -- an acquire: every later access of the thread follows it (R211)
  op : AccOp
  raw : Tab (Byte × Bool) := []      -- bytes of an engine's source read so far, by offset, each with whether it is poisoned (R222, R265)
  deriving DecidableEq, Repr

/-- The instructions that wait at a home for a word (R201, R202, R233). -/
inductive WaiterKind where
  | ldfe | ldfec | waitge (x : Word) | joinw
  deriving DecidableEq, Repr

/-- A registered waiter, in registration order (R203). -/
structure Waiter where
  tid : Nat
  loc : Loc
  kind : WaiterKind
  dest : Nat
  taint : Bool
  marked : Bool
  deriving DecidableEq, Repr

/-- A stage of a pipeline (R51) with its balancer counts (R55). -/
structure Stage where
  entry : Word
  inq : Nat
  outa : Nat
  outb : Nat
  role : Role
  kind : Kind
  slen : Nat
  vlen : Nat
  resid : Nat
  slots : Nat
  minc : Nat
  maxc : Nat
  arg : Word
  depthSum : Nat := 0                -- sum of samples of held items (R55)
  samples : Nat := 0
  blockedTurns : Nat := 0
  residentTurns : Nat := 0
  deriving DecidableEq, Repr

/-- A stage queue (R51, R53). -/
structure StageQueue where
  home : Nat
  ordered : Bool
  cap : Nat
  next : Nat := 0                    -- next undelivered sequence number, modulo 2^32
  items : List Item := []            -- held, in order of acceptance
  taken : List (Item × Bool) := []   -- in the order of delivery: in reserve for a thread (true), or given back by a wait
                                     -- that was withdrawn and delivered first (R90)
  reserved : Nat := 0                -- places held in reserve (R90)
  claimed : List (BitVec 32) := []   -- numbers held in reserve in an ordered queue (R90)
  deriving DecidableEq, Repr

/-- One launch (R36 to R57). `words` are words 0 to 15 as they were read. -/
structure Launch where
  words : List Word
  addr : Word                        -- the block's address
  user : Bool := true                -- mode of the launching thread
  loc : Option Loc := none           -- place of word 16; none for a launch that firmware submits (R337)
  running : Bool := false
  started : Bool := false            -- its threads have been created
  created : Nat := 0                 -- threads created at its start (R39)
  forked : Nat := 0                  -- FORKs and SPAWN actions since (R39)
  drawn : Nat := 0                   -- item numbers drawn (R53)
  taken : List (Nat × Bool) := []    -- of those, in reserve for a thread (true), or given back and drawn first (R90)
  stages : List Stage := []
  queues : List StageQueue := []
  coreStage : Tab Nat := []          -- core and the stage it serves (R52)
  moving : List Nat := []            -- cores moved whose threads have not all restarted (R57)
  bal : Nat := 14                    -- balance exponent (R51)
  lastBal : Nat := 0                 -- the interval that the balancer last ended (R55)
  word16 : List Nat := []            -- accesses that write word 16 (R46)
  canopyLost : Nat := 0
  firmware : Bool := false           -- submitted by firmware in START-UP (R367)
  managed : Bool := false            -- submitted, or brought back by RESTORE, from the management controller (R367)
  deriving DecidableEq, Repr

/-- The completion action of a launch that waits for room (R46, R336). -/
structure Completion where
  lnum : Nat
  words : List Word
  user : Bool
  after : List Nat
  deriving DecidableEq, Repr

/-- One barrier object (R248). Participants and arrivals by thread. -/
structure Barrier where
  phase : BitVec 32 := 0
  scope : Nat := 0
  parts : List Nat := []
  arrived : List Nat := []
  deriving DecidableEq, Repr

/-- A firing whose action has not started (R273, R274): k, x, T and, for COPY, the parameter block as it was read at the
firing, or the trap that reading it met. -/
structure Firing where
  k : Nat
  x : Word
  t : Word
  block : List Word := []
  fault : Option Nat := none
  unread : Bool := false             -- its block stands on a line that its home held back at the firing (R185)
  deriving DecidableEq, Repr

/-- One entry of a watch table (R272, R273). `state` is 0 FREE, 1 ARMED, 2 RETIRING. -/
structure Watch where
  state : Nat := 0
  gen : BitVec 16 := 0
  loc : Loc := ⟨0, 0, 0, 0, 0⟩
  words : List Word := []            -- the trigger block
  t : Word := 0
  r : Nat := 0
  k : Nat := 0
  pend : List Firing := []           -- firings whose action has not started, oldest first
  tid : Nat := 0                     -- the arming thread and its launch
  lnum : Nat := 0
  user : Bool := true
  after : List Nat := []             -- accesses before the actions' own (R225)
  deriving DecidableEq, Repr

/-- What the safe tier holds of HBM: the bytes that the flits of a checkpoint carried, with their full/empty bits and poison
as they were then, and the place in CKTGT of the target that holds each segment (R378, R380). -/
structure Image where
  mem : List Host.Cell := []
  full : Tab Bool := []
  poison : List Nat := []
  placed : Tab Nat := []
  deriving DecidableEq, Repr

/-- The streaming of a checkpoint (R378): the segments that no target holds, in the order in which they go out, what has been
sent, the place in CKTGT whose turn is next, and the places of targets found unreachable. -/
structure Stream where
  left : List Nat
  sent : Image := {}
  next : Nat := 0
  dead : List Nat := []
  deriving DecidableEq, Repr

/-- The management controller's registers and state (R366 to R381) (DESIGN CHOICE, log 5). -/
structure Mgmt where
  ftbase : Word := 0
  elbase : Word := 0
  recbase : Word := 0
  cktgt : List Word := List.replicate 32 0
  power : Nat := 0                   -- PSTATE[1:0]
  level : Nat := 0                   -- PSTATE[3:2]
  powerLater : Option Nat := none    -- a request that waits (R368)
  levelLater : Option Nat := none    -- R369
  secst : Nat := 0
  det : Bool := false
  reclost : Bool := false
  elIndex : Nat := 0
  elTotal : Nat := 0
  recIndex : Nat := 0
  devno : Nat := 0
  token : Option (List Nat × Nat) := none      -- launches and expiry of the debug token (R372)
  ckpt : Bool := false               -- a checkpoint runs (R378)
  modeLater : Option Nat := none     -- a change of mode that waits for residents to be pre-empted (R367)
  held : Bool := false               -- RESTORE in START-UP: threads are held until SERVICE (R380)
  replayAt : Option Nat := none      -- replay: index of the next record (R375)
  -- recorded values of the time base not yet read again, by kind, unit and reader (R375)
  supplied : List (Nat × Nat × Word × Word) := []
  keyHash : List Byte := List.replicate 48 0   -- fuses: the hash of the key that firmware is signed with (R370)
  firmware : List (List Byte) := []            -- the images that run (R370)
  measurements : List (List Byte) := []        -- of the firmware images (R370)
  cdi : List Byte := []              -- compound device identifier (R370)
  identityKey : List Byte := []
  aliasKey : List Byte := []         -- signs reports; in DEBUG-FULL the debug alias key does
  debugKey : List Byte := []
  launchArea : Word := 0             -- where firmware copies blocks of the launch mailbox (R337)
  relay : Tab Word := []             -- mailbox descriptors over which signed reports are relayed (R339): a sender under the
                                     -- device's own number, on the bridge a receiver for each other device
  stream : Option Stream := none     -- a checkpoint streams to its targets (R378)
  slotWaits : List Nat := []         -- cores whose wait for a band slot is in the error log (R355)
  buffer : List Byte := []           -- of the controller: a summary asked for by command (R376)
  debugReads : List (List Byte) := []          -- what a debugger has read (R373)
  deriving DecidableEq, Repr

/-- A cut being received from one sender (R317, R385): its header once complete, the units still to come, the parts of
the header, unit or marker in hand. -/
structure Cut where
  k : Word := 0
  vv : List Word := []
  headed : Bool := false             -- the header is complete
  units : Nat := 0
  bytes : List Byte := []
  part : Nat := 0
  tag : Nat := 0                     -- TAG of its flits (R385)
  stopped : Bool := false            -- not applied; everything is discarded until the sender starts again (R317)
  deriving DecidableEq, Repr

/-- What the part keeps for one local replica besides its memory: key SOT index * 8 + die (R304 to R320). -/
structure Replica where
  valid : Bool := false              -- the entry was valid when last used
  seen : List Word := []             -- the entry as it last failed; none while it is valid (R299: one count for each change)
  timers : Tab Word := []            -- tick of the last change of each member's heartbeat (R320)
  lift : Option (Word × Word) := none          -- RSHIP: CSN to reach and the tick the lift ends (R318)
  cuts : Tab Cut := []               -- by 4 * sender slot + class
  order : Tab Word := []             -- by sender slot: k of the latest cut whose header has come (R317)
  -- in deterministic mode: a rotation of its die, and the peers sent to in it, 64 for an evaluation (R374)
  round : Nat × List Nat := (0, [])
  deriving DecidableEq, Repr

/-- One Sweric link (R327, R329, R386) (DESIGN CHOICE, log 43). -/
structure Link where
  up : Bool := false                 -- trained and in service
  sent : List Flit := []             -- flits sent and not acknowledged
  next : Nat := 0                    -- next LSEQ
  seen : Nat := 65535                -- highest LSEQ received
  credits : List Nat := [0, 0, 0, 0, 0]        -- management, demand, engine, gossip, bulk
  retries : Nat := 0
  exhausted : Bool := false          -- its retries have run out (R329, R376)
  deriving DecidableEq, Repr

/-- A remote copy or a mailbox message that arrives (R383, R384): its flits, those being performed, the first fault; once
its completion request or sequence word has come, the address and value to add or write and the flits it counts. -/
structure Arrival where
  no : Nat := 0                      -- which of those under way
  dev : Nat
  core : Nat
  tag : Nat
  mail : Bool
  count : Nat := 0
  pending : List Nat := []
  fault : Option TrapRec := none
  closed : Bool := false
  add : Bool := false
  addr : Word := 0
  value : Word := 0
  parts : Nat := 0
  deriving DecidableEq, Repr

/-- A mailbox message sent to another device (R333): its number, descriptor, slot and sequence word, and the thread that
takes a fault; kept until its slot is released. -/
structure Mail where
  core : Nat
  n : Nat
  dev : Nat
  desc : Word
  slot : Word
  seq : Word
  tid : Nat
  z : Nat := 64                      -- its length in bytes
  deriving DecidableEq, Repr

/-- Modes of the device (R367). -/
inductive Mode where
  | boot | test | service | recovery
  deriving DecidableEq, Repr

/-- The signing algorithms that the bridge offers (R339): ECDSA over brainpoolP384r1 with SHA-384. -/
inductive SignAlg where
  | ecdsaBrainpoolP384r1Sha384
  deriving DecidableEq, Repr

/-- What the bridge answers over SPDM (R339, R371): a message of that standard, a report, UnsupportedRequest, or a refusal
(R373). -/
inductive Answer where
  | message (bytes : List Byte)
  | algorithms (signing : List SignAlg) (rest : List Byte)
  | report (devno secst : Nat) (mode : Mode) (measurements : List (List Byte)) (nonce : List Byte) (debug : Bool)
      (signature : List Byte)
  | relayed (devno : Nat) (bytes : List Byte)          -- the message that carries another device's signed report
  | unsupported
  | refused
  deriving DecidableEq, Repr

/-- BAR0 and the host's side (R338, R340, R376): registers, the rings' heads and tails, and what the part has written to
host memory or answered, oldest first (DESIGN CHOICE, log 5). -/
structure HostPort where
  lhead : Word := 0
  hosttail : Word := 0
  mhead : Word := 0
  mtail : Word := 0
  mhost : Word := 0
  summary : Word := 0                -- ADDR, BUSY and QUIET (R376)
  sumStart : Word := 0               -- the tick at which the summary in progress began
  sumHost : Bool := true             -- it goes to the host, not to a buffer of the controller
  sumPart : List (List Byte) := []   -- its sections read so far
  sumTrunc : Nat := 0                -- its TRUNC bits
  msix : List Word := List.replicate 128 0
  pba : Word := 0
  hostNext : Bool := false           -- the next ring to serve is the host's (R340)
  writes : List (Word × List Byte) := []
  answers : List Answer := []
  reads : List (List Byte) := []     -- what the host's reads of BAR0 and BAR2 have returned (R338)
  deriving DecidableEq, Repr

/-- What a debugger reaches through the management controller (R373): word i of a thread's context as R356 lays it out, or
bytes at an address as a thread sees it, or at a byte key; word i of what the machine record of R380 holds of a core, of a
slice, or of the device. -/
inductive DebugAt where
  | context (tid i : Nat)
  | memory (tid : Nat) (a : Word) (n : Nat)
  | physical (key n : Nat)
  | core (c i : Nat)
  | slice (c i : Nat)
  | device (i : Nat)
  | register (r : HostReg)           -- of the management controller (R366)
  deriving DecidableEq, Repr

/-- What the environment chooses next: a turn of a core, one of the part's steps, time, an error of memory at a byte key,
correctable where it names a symbol (R186), a read of BAR0 or BAR2 by the host, a write of BAR2 (R338), the management
command for a summary (R376), a read or a write by a debugger (R373), or what the safe-tier targets hold, written by another
device (R380) (model's own). -/
inductive Choice where
  | turn (core : Nat)
  | event (e : Instr)
  | tick (n : Nat)
  | memoryError (key : Nat) (symbol : Option Nat)
  | hostRead (bar2 : Bool) (off n : Nat)
  | hostWrite (off : Nat) (bs : List Byte)
  | summaryCommand (v : Word)
  | debugRead (w : DebugAt)
  | debugWrite (w : DebugAt) (bs : List Byte)
  | safeTier (im : Option Image)
  deriving DecidableEq, Repr, Inhabited

/-- The machine. -/
structure State where
  mem : List Host.Cell := []         -- HBM, scratchpads and B-stores by byte key, canonical form
  full : Tab Bool := []              -- full/empty bits set since power-on, by word key (R187)
  poison : List Nat := []            -- poisoned atoms and scratchpad words, by key (R186)
  ctl : List Word := List.replicate 11 0       -- control page words (R358)
  time : Word := 0                   -- R17
  cores : Tab Core := []
  threads : Tab Thread := []
  nextTid : Nat := 1
  launches : Tab Launch := []
  nextLnum : Nat := 0                -- R38
  completions : List Completion := []
  groveQ : Tab (List Nat) := []      -- R47
  dieQ : Tab (List Nat) := []
  overflow : List Nat := []
  lqtStart : List Word := []         -- the control words of the queues at bring-up (R40)
  npSeen : Tab (List Nat) := []      -- queue with NP set: cores that have passed a boundary since (R45)
  barriers : Tab Barrier := []
  accs : List Access := []           -- issued and not performed, in order of issue
  accN : Nat := 1
  waiters : List Waiter := []
  -- lines whose directory entry has overflowed; true once a write has started the handler that clears the record (R185)
  overflowed : Tab Bool := []
  tlbs : List TlbEntry := []
  stale : List Stale := []           -- translations that page-table stores have replaced and no TLBINV has dropped for every core (R361)
  dropped : Nat := 0                 -- invalidations of every TLB by the part (R341): none of its own step stays
  roots : Word × Word := (0, 0)      -- PTBASE and HGBASE as walks use them: those of the last TLBINV with ALL at DEVICE (R358)
  watch : Tab (List Watch) := []     -- per slice, 64 entries (R272)
  hlc : Word := 0                    -- S (R315)
  canopy : Tab Nat := []             -- group and the next round to combine (R342)
  replicas : Tab Replica := []
  mxu : Tab (Nat × Nat) := []        -- per grove: the core the arbiter visits and the commands started there (R288) (DESIGN CHOICE, log 6)
  dieTurns : Tab Nat := []           -- rotations that the scheduler of each die has counted (R382)
  queued : List Flit := []           -- flits that wait to leave, oldest first (R329)
  links : List Link := List.replicate 16 {}
  boundaries : List (Nat × List Nat) := List.replicate 10 (48, [])     -- working modules, and those removed since bring-up (R13, R15)
  eseqOut : Tab Nat := []            -- next ESEQ by device, class and sub (R327)
  eseqIn : Tab Nat := []             -- last ESEQ delivered
  dieFlits : List Flit := []         -- flits of cuts between dies of the device (R327)
  arrivals : List Arrival := []
  mailOut : List Mail := []
  host : HostPort := {}
  image : Option Image := none
  mode : Mode := .service
  mgmt : Mgmt := {}
  cur : Nat := 0                     -- the thread that issues
  iword : Word := 0                  -- the word it issues
  freeN : Nat := 0                   -- counter of free values
  agenda : List Choice := []
  deriving DecidableEq, Repr

/-- Why a step stops with a fault. -/
inductive Fault where
  /-- Raised by every instruction word when no live thread is issuing: nothing in the machine executes it. Safe. -/
  | noIssuingThread
  deriving DecidableEq, Repr

/-- Why a step has no meaning. -/
inductive Refusal where
  /-- Raised by an arm of the dispatch that has no meaning yet. Safe. -/
  | notModelled (mnemonic : String)
  /-- Raised by one of the part's own steps in a state in which the spec does not let it happen. Safe. -/
  | notEnabled
  deriving DecidableEq, Repr

/-- The machine at entry to SERVICE (R379): no thread and no launch. The tables of firmware lie side by side at the top of
HBM, and memory lists what the spec says of them: BRIDGE of device 0 (R326), and WEIGHT 1 of each queue (R40)
(DESIGN CHOICE, log 2, 3, 5). -/
def State.reset : State :=
  { mem := (0xBFFFFF0002, 0x10#8) :: (List.range 16).map (fun q => (0xBFFFFF2008 + 8 * q, 1#8))
    ctl := [0, 0, 0xBFFFF00000, 0, 0, 0xBFFFFF2000, 0, 0, 0, 0, 0]
    lqtStart := List.replicate 16 1
    mgmt := { ftbase := 0xBFFFFF0000, elbase := 0xBFFFFE07FF, recbase := 0xBFFFFD0000 } }

end Sys2Proof.Machine
end

