-- ==== Sys2Proof/Machine/Tab.lean ====
section
/-! DEFINITION. Tables, lists and numbers: the small operations that the machine's operations share. -/
namespace Sys2Proof.Machine

/-- The entry of number k, if the table lists one. -/
def look {α : Type} (l : Tab α) (k : Nat) : Option α :=
  match l with
  | [] => none
  | (j, a) :: r => if j = k then some a else look r k

/-- The table with entry a at number k. -/
def put {α : Type} (l : Tab α) (k : Nat) (a : α) : Tab α :=
  match l with
  | [] => [(k, a)]
  | (j, b) :: r => if j = k then (k, a) :: r else (j, b) :: put r k a

/-- The table without number k. -/
def drop {α : Type} (l : Tab α) (k : Nat) : Tab α := l.filter (fun e => e.1 ≠ k)

/-- The i-th entry of a list, or d. -/
def nth {α : Type} (l : List α) (i : Nat) (d : α) : α := l.getD i d

/-- The list with its i-th entry changed by f. -/
def modify {α : Type} (l : List α) (i : Nat) (f : α → α) : List α :=
  match l, i with
  | [], _ => []
  | a :: r, 0 => f a :: r
  | a :: r, i + 1 => a :: modify r i f

/-- The first number from lo to lo + n - 1 that is not in l. -/
def firstFree (l : List Nat) (lo n : Nat) : Option Nat := ((List.range n).map (· + lo)).find? (fun i => ¬ i ∈ l)

/-- Bits [hi:lo] of a word as a number. -/
def bits (x : Word) (hi lo : Nat) : Nat := x.toNat / 2 ^ lo % 2 ^ (hi - lo + 1)

/-- The word with bits [hi:lo] replaced by n. -/
def setBits (x : Word) (hi lo n : Nat) : Word :=
  let m : Word := BitVec.ofNat 64 ((2 ^ (hi - lo + 1) - 1) * 2 ^ lo)
  (x &&& ~~~m) ||| (BitVec.ofNat 64 (n * 2 ^ lo) &&& m)

/-- A number as a word. -/
def word (n : Nat) : Word := BitVec.ofNat 64 n

/-- All ones. -/
def allOnes : Word := 0xFFFFFFFFFFFFFFFF#64

/-- The least n bytes of a number, least significant first (R6). -/
def bytesOf (n x : Nat) : List Byte :=
  match n with
  | 0 => []
  | k + 1 => BitVec.ofNat 8 x :: bytesOf k (x / 256)

/-- The number that bytes hold, least significant first (R6). -/
def ofBytes (bs : List Byte) : Nat :=
  match bs with
  | [] => 0
  | b :: r => b.toNat + 256 * ofBytes r

/-- Does a list of flags hold at i. -/
def bitAt (x : Word) (i : Nat) : Bool := x.getLsbD i

/-- The list without repeats, first occurrences kept. -/
def dedup (l : List Nat) : List Nat := l.foldl (fun acc x => if x ∈ acc then acc else acc ++ [x]) []

/-- Sum of a list. -/
def total (l : List Nat) : Nat := l.foldl (· + ·) 0

end Sys2Proof.Machine
end

