-- ==== Sys2Proof/Machine/Flags.lean ====
section
/-! DEFINITION. Floating point: the six formats, exact values, Round, and every operation with its flags (R59 to R72,
R80, R157 to R164, R169). Values are codes (numbers below 2^width); flags are the five bits of `fcsr[6:2]` (R69). -/
namespace Sys2Proof.Machine

/-- NV, DZ, OF, UF, NX in `fcsr` order, NX least (R69). -/
abbrev Flags := BitVec 5

def flagNX : Flags := 1#5
def flagUF : Flags := 2#5
def flagOF : Flags := 4#5
def flagDZ : Flags := 8#5
def flagNV : Flags := 16#5

/-- A floating-point format (R61): exponent and fraction widths; E4 has no infinity (R62). -/
structure Fmt where
  eb : Nat
  fb : Nat
  infs : Bool
  deriving DecidableEq, Repr

def F64 : Fmt := ⟨11, 52, true⟩
def F32 : Fmt := ⟨8, 23, true⟩
def F16 : Fmt := ⟨5, 10, true⟩
def B16 : Fmt := ⟨8, 7, true⟩
def E4 : Fmt := ⟨4, 3, false⟩
def E5 : Fmt := ⟨5, 2, true⟩
/-- The set G of R164: F32 values whose fraction bits [11:0] are zero. -/
def fmtG : Fmt := ⟨8, 11, true⟩

/-- Width of a format. -/
def Fmt.width (f : Fmt) : Nat := 1 + f.eb + f.fb

/-- The code of the sign bit. -/
def Fmt.signBit (f : Fmt) : Nat := 2 ^ (f.eb + f.fb)

/-- The code of the largest finite magnitude. -/
def Fmt.maxCode (f : Fmt) : Nat := if f.infs then (2 ^ f.eb - 1) * 2 ^ f.fb - 1 else f.signBit - 2

/-- The code of +infinity; E4 saturates (R68). -/
def Fmt.infCode (f : Fmt) : Nat := if f.infs then (2 ^ f.eb - 1) * 2 ^ f.fb else f.maxCode

/-- The canonical quiet NaN (R63). -/
def Fmt.nan (f : Fmt) : Nat := if f.infs then (2 ^ f.eb - 1) * 2 ^ f.fb + 2 ^ (f.fb - 1) else f.signBit - 1

/-- The exponent of the least subnormal: a code's magnitude counts units of 2 to this. -/
def Fmt.emin (f : Fmt) : Int := 2 - (2 ^ (f.eb - 1) : Nat) - (f.fb : Nat)

/-- Rounding modes (R66). -/
inductive RM where
  | rne | rtz | rdn | rup
  deriving DecidableEq, Repr

/-- The rounding mode of `fcsr[1:0]` (R66). -/
def rmOf (fcsr : Word) : RM :=
  match bits fcsr 1 0 with
  | 0 => .rne
  | 1 => .rtz
  | 2 => .rdn
  | _ => .rup

/-- What a code stands for: a NaN (signalling or quiet), an infinity, or the exact value (-1)^neg * m * 2^e. -/
inductive Val where
  | nan (signalling : Bool)
  | inf (neg : Bool)
  | fin (neg : Bool) (m : Nat) (e : Int)
  deriving DecidableEq, Repr

/-- The value of a code (R61, R62). -/
def unpack (f : Fmt) (c : Nat) : Val :=
  let neg := decide (c / f.signBit % 2 = 1)
  let x := c / 2 ^ f.fb % 2 ^ f.eb
  let r := c % 2 ^ f.fb
  if f.infs then
    if x = 2 ^ f.eb - 1 then
      if r = 0 then .inf neg else .nan (decide (r / 2 ^ (f.fb - 1) = 0))
    else if x = 0 then .fin neg r f.emin
    else .fin neg (r + 2 ^ f.fb) (f.emin + (x - 1 : Nat))
  else if c % f.signBit = f.signBit - 1 then .nan false
  else if x = 0 then .fin neg r f.emin
  else .fin neg (r + 2 ^ f.fb) (f.emin + (x - 1 : Nat))

/-- A magnitude code with its sign. -/
def signed (f : Fmt) (neg : Bool) (c : Nat) : Nat := if neg then f.signBit + c else c

/-- The number of bits of m. -/
def bitlen (m : Nat) : Nat := if m = 0 then 0 else m.log2 + 1

/-- Does a magnitude with remainder r of 2^k (r < 2^k) above the integer part q round up under a mode. -/
def roundUp (rm : RM) (neg : Bool) (q r k : Nat) : Bool :=
  match rm with
  | .rne => decide (2 * r > 2 ^ k) || (decide (2 * r = 2 ^ k) && decide (q % 2 = 1))
  | .rtz => false
  | .rdn => neg && decide (r ≠ 0)
  | .rup => !neg && decide (r ≠ 0)

/-- m * 2^e in units of 2^u, rounded under a mode, and whether that is inexact. -/
def quantise (rm : RM) (neg : Bool) (m : Nat) (e u : Int) : Nat × Bool :=
  if u ≤ e then (m * 2 ^ (e - u).toNat, false)
  else
    let k := (u - e).toNat
    let q := m / 2 ^ k
    let r := m % 2 ^ k
    (if roundUp rm neg q r k then q + 1 else q, decide (r ≠ 0))

/-- Round(x, F, m) of the exact nonzero value (-1)^neg * m * 2^e (R67, R68, R65). -/
def roundTo (f : Fmt) (rm : RM) (neg : Bool) (m : Nat) (e : Int) : Nat × Flags :=
  let top : Int := e + (bitlen m : Nat) - 1                    -- exponent of the leading bit
  let norm : Int := f.emin + (f.fb : Nat)                       -- exponent of the least normal
  let u : Int := max (top - (f.fb : Nat)) f.emin
  let (q, inexact) := quantise rm neg m e u
  let code := q + (u - f.emin).toNat * 2 ^ f.fb
  if code > f.maxCode then
    let away := match rm with
      | .rne => true
      | .rtz => false
      | .rdn => neg
      | .rup => !neg
    (signed f neg (if f.infs && away then f.infCode else f.maxCode), flagOF ||| flagNX)
  else
    let tiny := decide (top < norm) &&
      decide (Int.ofNat (bitlen (quantise rm neg m e (top - (f.fb : Nat))).1) - 1 + (top - (f.fb : Nat)) < norm)
    (signed f neg code,
      (if inexact then flagNX else 0#5) ||| (if inexact && tiny then flagUF else 0#5))

/-- The canonical NaN, with NV where invalid. -/
def nanOf (f : Fmt) (invalid : Bool) : Nat × Flags := (f.nan, if invalid then flagNV else 0#5)

/-- An infinity of the format; in E4 it saturates, with OF and NX (R68). -/
def infOf (f : Fmt) (neg : Bool) : Nat × Flags :=
  (signed f neg f.infCode, if f.infs then 0#5 else flagOF ||| flagNX)

/-- Is any of the values a signalling NaN. -/
def anySignalling (vs : List Val) : Bool := vs.any (fun v => v == .nan true)

/-- Is any of the values a NaN. -/
def anyNan (vs : List Val) : Bool := vs.any (fun v => v == .nan true || v == .nan false)

/-- A signed exact value as an integer in units of 2^u (u at most its exponent). -/
def scaled (neg : Bool) (m : Nat) (e u : Int) : Int :=
  let x : Int := Int.ofNat (m * 2 ^ (e - u).toNat)
  if neg then -x else x

/-- The rounded sum of two exact values: of several, see `fsumVals` (R67: the sign of an exact zero sum). -/
def addVals (f : Fmt) (rm : RM) (a b : Val) : Nat × Flags :=
  match a, b with
  | .nan _, _ => nanOf f (anySignalling [a, b])
  | _, .nan _ => nanOf f (anySignalling [a, b])
  | .inf s, .inf t => if s = t then infOf f s else nanOf f true
  | .inf s, _ => infOf f s
  | _, .inf t => infOf f t
  | .fin s m e, .fin t n k =>
    if m = 0 ∧ n = 0 then
      (signed f (if s = t then s else decide (rm = .rdn)) 0, 0#5)
    else
      let u := min e k
      let x := scaled s m e u + scaled t n k u
      if x = 0 then (signed f (decide (rm = .rdn)) 0, 0#5)
      else roundTo f rm (decide (x < 0)) x.natAbs u

/-- A value with its sign inverted. -/
def Val.neg (v : Val) : Val :=
  match v with
  | .nan b => .nan b
  | .inf s => .inf (!s)
  | .fin s m e => .fin (!s) m e

/-- The sign of a value; a NaN has none here. -/
def Val.isNeg (v : Val) : Bool :=
  match v with
  | .nan _ => false
  | .inf s => s
  | .fin s _ _ => s

/-- The exact product. 0 by infinity is invalid: a NaN marked signalling (R64). -/
def mulVals (a b : Val) : Val :=
  match a, b with
  | .nan s, .nan t => .nan (s || t)
  | .nan s, .inf _ => .nan s
  | .nan s, .fin _ _ _ => .nan s
  | .inf _, .nan t => .nan t
  | .fin _ _ _, .nan t => .nan t
  | .inf s, .inf t => .inf (s != t)
  | .inf s, .fin t m _ => if m = 0 then .nan true else .inf (s != t)
  | .fin s m _, .inf t => if m = 0 then .nan true else .inf (s != t)
  | .fin s m e, .fin t n k => .fin (s != t) (m * n) (e + k)

/-- An exact value rounded to a format. -/
def roundVal (f : Fmt) (rm : RM) (v : Val) : Nat × Flags :=
  match v with
  | .nan s => nanOf f s
  | .inf s => infOf f s
  | .fin s m e => if m = 0 then (signed f s 0, 0#5) else roundTo f rm s m e

/-- a + b (R157). -/
def fadd (f : Fmt) (rm : RM) (a b : Nat) : Nat × Flags := addVals f rm (unpack f a) (unpack f b)

/-- a - b (R157). -/
def fsub (f : Fmt) (rm : RM) (a b : Nat) : Nat × Flags := addVals f rm (unpack f a) (unpack f b).neg

/-- a * b (R157). -/
def fmul (f : Fmt) (rm : RM) (a b : Nat) : Nat × Flags := roundVal f rm (mulVals (unpack f a) (unpack f b))

/-- a * b + c with one rounding (R80, R157): the product and the sum are exact. -/
def fmaVals (f : Fmt) (rm : RM) (a b c : Val) : Nat × Flags := addVals f rm (mulVals a b) c

def ffma (f : Fmt) (rm : RM) (a b c : Nat) : Nat × Flags :=
  fmaVals f rm (unpack f a) (unpack f b) (unpack f c)

/-- a * b - c with one rounding. -/
def ffms (f : Fmt) (rm : RM) (a b c : Nat) : Nat × Flags :=
  fmaVals f rm (unpack f a) (unpack f b) (unpack f c).neg

/-- -(a * b) + c with one rounding. -/
def ffnma (f : Fmt) (rm : RM) (a b c : Nat) : Nat × Flags :=
  fmaVals f rm (unpack f a).neg (unpack f b) (unpack f c)

/-- The quotient m / n as an integer with k further bits and one sticky bit: value q * 2^-(k+1). -/
def quotient (m n k : Nat) : Nat :=
  let q := m * 2 ^ k / n
  2 * q + (if m * 2 ^ k % n = 0 then 0 else 1)

/-- a / b of exact values (R157). -/
def divVals (f : Fmt) (rm : RM) (a b : Val) : Nat × Flags :=
  match a, b with
  | .nan _, _ => nanOf f (anySignalling [a, b])
  | _, .nan _ => nanOf f (anySignalling [a, b])
  | .inf _, .inf _ => nanOf f true
  | .inf s, .fin t _ _ => infOf f (s != t)
  | .fin s _ _, .inf t => (signed f (s != t) 0, 0#5)
  | .fin s m e, .fin t n k =>
    if n = 0 then
      if m = 0 then nanOf f true else (signed f (s != t) f.infCode, flagDZ)
    else if m = 0 then (signed f (s != t) 0, 0#5)
    else
      let w := f.fb + 4 + bitlen n
      roundTo f rm (s != t) (quotient m n w) (e - k - (w : Nat) - 1)

def fdiv (f : Fmt) (rm : RM) (a b : Nat) : Nat × Flags := divVals f rm (unpack f a) (unpack f b)

/-- Bits of the integer square root of n, from bit i downwards. -/
def isqrtFrom (n r i : Nat) : Nat :=
  match i with
  | 0 => if (r + 1) * (r + 1) ≤ n then r + 1 else r
  | j + 1 => let c := r + 2 ^ (j + 1); if c * c ≤ n then isqrtFrom n c j else isqrtFrom n r j

/-- The integer square root. -/
def isqrt (n : Nat) : Nat := isqrtFrom n 0 (bitlen n / 2 + 1)

/-- The square root of an exact value (R157). -/
def sqrtVal (f : Fmt) (rm : RM) (a : Val) : Nat × Flags :=
  match a with
  | .nan s => nanOf f s
  | .inf s => if s then nanOf f true else infOf f false
  | .fin s m e =>
    if m = 0 then (signed f s 0, 0#5)
    else if s then nanOf f true
    else
      let k := 2 * (f.fb + 4)
      let odd := decide (e % 2 ≠ 0)
      let m' := (if odd then 2 * m else m) * 2 ^ k
      let e' : Int := (if odd then e - 1 else e) - (k : Nat)
      let r := isqrt m'
      roundTo f rm false (2 * r + (if r * r = m' then 0 else 1)) (e' / 2 - 1)

def fsqrt (f : Fmt) (rm : RM) (a : Nat) : Nat × Flags := sqrtVal f rm (unpack f a)

/-- a < b on values that are no NaN: −0 is not below +0 here. -/
def ltVals (a b : Val) : Bool :=
  match a, b with
  | .nan _, _ => false
  | _, .nan _ => false
  | .inf s, .inf t => s && !t
  | .inf s, .fin _ _ _ => s
  | .fin _ _ _, .inf t => !t
  | .fin s m e, .fin t n k =>
    let u := min e k
    decide (scaled s m e u < scaled t n k u)

/-- a = b on values that are no NaN: the zeros are equal (R159). -/
def eqVals (a b : Val) : Bool :=
  match a, b with
  | .nan _, _ => false
  | _, .nan _ => false
  | .inf s, .inf t => s == t
  | .inf _, .fin _ _ _ => false
  | .fin _ _ _, .inf _ => false
  | .fin s m e, .fin t n k =>
    let u := min e k
    decide (scaled s m e u = scaled t n k u)

/-- Is a below b in the order of R158, in which −0 lies below +0. -/
def orderedBelow (a b : Val) : Bool := ltVals a b || (eqVals a b && a.isNeg && !b.isNeg)

/-- FMIN and FMAX (R158). -/
def fminmax (isMax : Bool) (f : Fmt) (a b : Nat) : Nat × Flags :=
  let x := unpack f a
  let y := unpack f b
  let fl := if anySignalling [x, y] then flagNV else 0#5
  match x, y with
  | .nan _, .nan _ => (f.nan, fl)
  | .nan _, _ => (b % 2 ^ f.width, fl)
  | _, .nan _ => (a % 2 ^ f.width, fl)
  | _, _ => if orderedBelow x y != isMax then (a % 2 ^ f.width, fl) else (b % 2 ^ f.width, fl)

def fmin (f : Fmt) (a b : Nat) : Nat × Flags := fminmax false f a b
def fmax (f : Fmt) (a b : Nat) : Nat × Flags := fminmax true f a b

/-- FABS, FNEG and FCPS (R157): the sign bit of a set to neg; a NaN gives the canonical NaN. `also` is a further operand
whose signalling NaN sets NV. -/
def withSign (f : Fmt) (a : Nat) (neg : Bool) (also : List Val) : Nat × Flags :=
  match unpack f a with
  | .nan s => (f.nan, if s || anySignalling also then flagNV else 0#5)
  | _ => (signed f neg (a % f.signBit), if anySignalling also then flagNV else 0#5)

def signOf (f : Fmt) (a : Nat) : Bool := decide (a / f.signBit % 2 = 1)
def fabs (f : Fmt) (a : Nat) : Nat × Flags := withSign f a false []
def fneg (f : Fmt) (a : Nat) : Nat × Flags := withSign f a (!signOf f a) []
def fcps (f : Fmt) (a b : Nat) : Nat × Flags := withSign f a (signOf f b) [unpack f b]

/-- The compares (R159). -/
inductive FCmp where
  | eq | ne | lt | le
  deriving DecidableEq, Repr

def fcompare (k : FCmp) (f : Fmt) (a b : Nat) : Bool × Flags :=
  let x := unpack f a
  let y := unpack f b
  let quiet := if anySignalling [x, y] then flagNV else 0#5
  let loud := if anyNan [x, y] then flagNV else 0#5
  match k with
  | .eq => (eqVals x y, quiet)
  | .ne => (!eqVals x y, quiet)
  | .lt => (ltVals x y, loud)
  | .le => (ltVals x y || eqVals x y, loud)

/-- Float to float (R71): widening is exact. -/
def fconvert (src dst : Fmt) (rm : RM) (a : Nat) : Nat × Flags := roundVal dst rm (unpack src a)

/-- Integer to float (R71). -/
def ofInt (f : Fmt) (rm : RM) (x : Int) : Nat × Flags :=
  if x = 0 then (0, 0#5) else roundTo f rm (decide (x < 0)) x.natAbs 0

/-- Float to integer within lo to hi (R71). -/
def toInt (f : Fmt) (rm : RM) (lo hi : Int) (a : Nat) : Int × Flags :=
  match unpack f a with
  | .nan _ => (0, flagNV)
  | .inf s => (if s then lo else hi, flagNV)
  | .fin s m e =>
    let (q, inexact) := quantise rm s m e 0
    let x : Int := if s then -(q : Int) else q
    if x > hi then (hi, flagNV)
    else if x < lo then (lo, flagNV)
    else (x, if inexact then flagNX else 0#5)

/-- A value rounded to G, ties to even, as F32 (R164): a value above the largest member of G gives +infinity with OF and NX.
The rule names no negative bound: a value below the negative of that member gives −infinity with the same flags
(DESIGN CHOICE, log 72). The last bit of m is sticky where the value is not exact. -/
def roundG (neg : Bool) (m : Nat) (e : Int) : Nat × Flags :=
  let top : Int := e + (bitlen m : Nat) - 1
  let u : Int := min e (127 - 11)
  let beyond := decide (top > 127) || (decide (top = 127) &&
    decide (m * 2 ^ (e - u).toNat > (2 ^ 12 - 1) * 2 ^ ((127 - 11) - u).toNat))
  if beyond then (signed F32 neg F32.infCode, flagOF ||| flagNX)
  else
    let (c, fl) := roundTo fmtG .rne neg m e
    (c * 2 ^ 12, fl)

/-- VRCP (R164). -/
def frcp (a : Nat) : Nat × Flags :=
  match unpack F32 a with
  | .nan s => nanOf F32 s
  | .inf s => (signed F32 s 0, 0#5)
  | .fin s m e =>
    if m = 0 then (signed F32 s F32.infCode, flagDZ)
    else roundG s (quotient 1 m 64) (-e - 65)

/-- VRSQ (R164). -/
def frsq (a : Nat) : Nat × Flags :=
  match unpack F32 a with
  | .nan s => nanOf F32 s
  | .inf s => if s then nanOf F32 true else (0, 0#5)
  | .fin s m e =>
    if m = 0 then (signed F32 s F32.infCode, flagDZ)
    else if s then nanOf F32 true
    else
      let odd := decide (e % 2 ≠ 0)
      let m' := if odd then 2 * m else m
      let e' := if odd then e - 1 else e
      let r := isqrt (2 ^ 160 / m')
      roundG false (2 * r + (if r * r * m' = 2 ^ 160 then 0 else 1)) (-(e' / 2) - 81)

/-- 2 to the fraction 0.b1 b2 ... of a list of bits, as an integer in units of 2^-256: `root` is 2^(2^-i) for the bit at
hand. Every root and product is cut down, which loses less than 2^-190 of the value. -/
def exp2Frac (bs : List Bool) (root acc : Nat) : Nat :=
  match bs with
  | [] => acc
  | b :: r =>
    let root' := isqrt (root * 2 ^ 256)
    exp2Frac r root' (if b then acc * root' / 2 ^ 256 else acc)

/-- VEXP2 (R164). An operand nearer to 0 than 2^-30 gives 1.0, inexact: 2^a then lies nearer to 1 than to any other
member of G. For the others the fraction of a has at most 54 bits. -/
def fexp2 (a : Nat) : Nat × Flags :=
  match unpack F32 a with
  | .nan s => nanOf F32 s
  | .inf s => if s then (0, 0#5) else (F32.infCode, 0#5)
  | .fin s m e =>
    if m = 0 then (0x3F800000, 0#5)
    else if e + (bitlen m : Nat) ≤ -30 then (0x3F800000, flagNX)
    else if e + (bitlen m : Nat) > 9 then
      (if s then (0, flagUF ||| flagNX) else (F32.infCode, flagOF ||| flagNX))
    else
      let x : Int := scaled s m (e + 64) 0                      -- a in units of 2^-64, exact
      let n : Int := x / (2 ^ 64 : Nat)
      let fr : Nat := (x % (2 ^ 64 : Nat)).toNat
      if fr = 0 then roundG false 1 n
      else
        let bs := (List.range 64).map (fun i => decide (fr / 2 ^ (63 - i) % 2 = 1))
        let v := exp2Frac bs (2 * 2 ^ 256) (2 ^ 256)
        roundG false (2 * v + 1) (n - 257)

/-- n binary digits of log2(x), for x in [1, 2) in units of 2^-256. -/
def log2Digits (n x acc : Nat) : Nat :=
  match n with
  | 0 => acc
  | k + 1 =>
    let y := x * x / 2 ^ 256
    if y ≥ 2 * 2 ^ 256 then log2Digits k (y / 2) (2 * acc + 1) else log2Digits k y (2 * acc)

/-- VLOG2 (R164). -/
def flog2 (a : Nat) : Nat × Flags :=
  match unpack F32 a with
  | .nan s => nanOf F32 s
  | .inf s => if s then nanOf F32 true else (F32.infCode, 0#5)
  | .fin s m e =>
    if m = 0 then (signed F32 true F32.infCode, flagDZ)
    else if s then nanOf F32 true
    else
      let k := m.log2
      let n : Int := e + (k : Nat)
      if m = 2 ^ k then (if n = 0 then (0, 0#5) else roundG (decide (n < 0)) n.natAbs 0)
      else
        let d := log2Digits 100 (m * 2 ^ (256 - k)) 0
        let x : Int := n * (2 ^ 100 : Nat) + d                   -- cut down: the true value is a little above x
        if x < 0 then roundG true (2 * x.natAbs - 1) (-101) else roundG false (2 * x.natAbs + 1) (-101)

/-- B16 dot product (R80, R165): acc + (a0 b0 + a1 b1), rounded once. -/
def dot2 (f : Fmt) (rm : RM) (acc a0 b0 a1 b1 : Val) : Nat × Flags :=
  let p := mulVals a0 b0
  let q := mulVals a1 b1
  match p, q with
  | .nan s, _ => nanOf f (s || anySignalling [q, acc])
  | _, .nan t => nanOf f (t || anySignalling [p, acc])
  | .inf s, .inf t => if s = t then addVals f rm p acc else nanOf f true
  | .inf _, _ => addVals f rm p acc
  | _, .inf _ => addVals f rm q acc
  | .fin s m e, .fin t n k =>
    let u := min e k
    let x := scaled s m e u + scaled t n k u
    if x = 0 then
      (if m = 0 ∧ n = 0 then addVals f rm (.fin (if s = t then s else decide (rm = .rdn)) 0 0) acc
       else addVals f rm (.fin (decide (rm = .rdn)) 0 0) acc)
    else addVals f rm (.fin (decide (x < 0)) x.natAbs u) acc

/-- A signed number as a w-bit code. -/
def ofSigned (w : Nat) (x : Int) : Nat := (x % (2 ^ w : Nat)).toNat

/-- The signed number of a w-bit code. -/
def toSigned (w c : Nat) : Int := if c % 2 ^ w < 2 ^ (w - 1) then (c % 2 ^ w : Nat) else (c % 2 ^ w : Nat) - (2 ^ w : Nat)

/-- Clamp to a range (R71, R166). -/
def clamp (lo hi x : Int) : Int := if x > hi then hi else if x < lo then lo else x

end Sys2Proof.Machine
end

