-- ==== Sys2Proof/Machine/Memory.lean ====
section
/-! DEFINITION. Bytes at homes: the one memory of the device in canonical form, the byte keys of its regions (R173,
R178, R360), and the control page (R358). -/
namespace Sys2Proof.Machine

/-- A byte of the list: an address that is not listed reads 0 (DESIGN CHOICE, log 3). -/
def Memory.read (m : List Host.Cell) (k : Nat) : Byte :=
  match m with
  | [] => 0
  | (a, b) :: r => if a = k then b else Memory.read r k

/-- The list with byte b at k: addresses stay rising, and no entry is 0. -/
def Memory.write (m : List Host.Cell) (k : Nat) (b : Byte) : List Host.Cell :=
  match m with
  | [] => if b = 0 then [] else [(k, b)]
  | (a, c) :: r =>
    if a < k then (a, c) :: Memory.write r k b
    else if a = k then (if b = 0 then r else (k, b) :: r)
    else if b = 0 then (a, c) :: r else (k, b) :: (a, c) :: r

/-- Every listed address is above lo. -/
def Memory.above (lo : Nat) (m : List Host.Cell) : Bool :=
  match m with
  | [] => true
  | (a, b) :: r => decide (lo < a) && decide (b ≠ 0) && Memory.above a r

/-- The canonical form: addresses strictly rising, and no entry equal to what an unlisted address reads as. -/
def Memory.wf (m : List Host.Cell) : Bool :=
  match m with
  | [] => true
  | (a, b) :: r => decide (b ≠ 0) && Memory.above a r

/-- HBM is physical addresses below this (R360). -/
def hbmEnd : Nat := 0xC000000000

/-- The control page's frame (R358). -/
def controlPage : Nat := 0xFF00000000

/-- Byte o of the scratchpad of core c (R174). -/
def scratchKey (c o : Nat) : Nat := 2 ^ 44 + c * 2 ^ 20 + o

/-- Byte o of the B-store of grove g (R277). -/
def bstoreKey (g o : Nat) : Nat := 2 ^ 45 + g * 2 ^ 21 + o

/-- Is k a byte of the control page. -/
def inControl (k : Nat) : Bool := decide (controlPage ≤ k ∧ k < controlPage + 0x10000)

/-- The byte at offset o of the control page (R358). -/
def State.rdControl (s : State) (o : Nat) : Byte := BitVec.ofNat 8 ((nth s.ctl (o / 8) 0).toNat / 2 ^ (8 * (o % 8)))

/-- A byte at its home: memory, or a control word's byte (R358). -/
def State.rdByte (s : State) (k : Nat) : Byte :=
  if inControl k then s.rdControl (k - controlPage) else Memory.read s.mem k

/-- The bridge of a group (R325). -/
def State.bridge (s : State) : Bool := decide (s.mgmt.devno % 16 = 0)

/-- The bits that word i of the control page holds: the fields that R358 gives it by bit; its other bits are zero (R7). -/
def controlBits (i : Nat) : Word :=
  match i with
  | 0 => BitVec.ofNat 64 (2 ^ 40 - 2 ^ 13)
  | 1 => BitVec.ofNat 64 (2 ^ 40 - 2 ^ 14)
  | 2 => BitVec.ofNat 64 (2 ^ 40 - 2 ^ 16)
  | 5 => BitVec.ofNat 64 (2 ^ 40 - 2 ^ 8)
  | 7 => BitVec.ofNat 64 (2 ^ 40 - 2 ^ 26)
  | 8 => BitVec.ofNat 64 (2 ^ 64 - 2 ^ 52 + 2 ^ 40 - 2 ^ 5)
  | _ => BitVec.allOnes 64

/-- The state after byte b is written at offset o of the control page. DMTAIL, the words of the bridge on another device,
and every other offset ignore writes (R358). -/
def State.wrControl (s : State) (o : Nat) (b : Byte) : State :=
  if o / 8 ≤ 6 ∨ (o / 8 ≤ 9 ∧ s.bridge) then
    { s with ctl := modify s.ctl (o / 8) (fun x =>
        setBits x (8 * (o % 8) + 7) (8 * (o % 8)) b.toNat &&& controlBits (o / 8)) }
  else s

/-- The state after byte b is written at k. -/
def State.wrByte (s : State) (k : Nat) (b : Byte) : State :=
  if inControl k then s.wrControl (k - controlPage) b else { s with mem := Memory.write s.mem k b }

/-- n bytes from k. -/
def State.rdBytes (s : State) (k n : Nat) : List Byte := (List.range n).map (fun i => s.rdByte (k + i))

/-- The state after the bytes are written from k. -/
def State.wrBytes (s : State) (k : Nat) (bs : List Byte) : State :=
  match bs with
  | [] => s
  | b :: r => (s.wrByte k b).wrBytes (k + 1) r

/-- The number in n bytes from k, little-endian (R6). -/
def State.rdNum (s : State) (k n : Nat) : Nat := ofBytes (s.rdBytes k n)

/-- The byte key of word i of the launch-queue table (R40, R358). -/
def State.lqtKey (s : State) (i : Nat) : Nat := bits (nth s.ctl 5 0) 39 8 * 2 ^ 8 + 8 * i

/-- Byte o of the fabric table (R326). -/
def State.ftKey (s : State) (o : Nat) : Nat := bits s.mgmt.ftbase 39 6 * 2 ^ 6 + o

/-- What a write of byte b by software leaves at k. Words 0 to 7 of the fabric table are read only (R326). In a control word of
the launch-queue table a 1 clears NP, and the reserved bits stay 0 (R7, R40). -/
def State.fieldByte (s : State) (k : Nat) (b : Byte) : Byte :=
  let base := s.lqtKey 1
  if s.ftKey 0 ≤ k ∧ k < s.ftKey 64 then s.rdByte k
  else if base ≤ k ∧ k < base + 128 then
    match (k - base) % 8 with
    | 0 => b
    | 1 => (b &&& 1#8) ||| (s.rdByte k &&& 2#8 &&& ~~~b)
    | _ => 0
  else b

/-- What a write of the bytes by software leaves from k. -/
def State.fieldBytes (s : State) (k : Nat) (bs : List Byte) : List Byte :=
  if (k < s.lqtKey 17 ∧ s.lqtKey 1 < k + bs.length) ∨ (k < s.ftKey 64 ∧ s.ftKey 0 < k + bs.length) then
    (bs.zip (List.range bs.length)).map (fun e => s.fieldByte (k + e.2) e.1)
  else bs

/-- The word at k. -/
def State.rdWord (s : State) (k : Nat) : Word := BitVec.ofNat 64 (s.rdNum k 8)

/-- The state after a word is written at k. -/
def State.wrWord (s : State) (k : Nat) (x : Word) : State := s.wrBytes k (bytesOf 8 x.toNat)

end Sys2Proof.Machine
end

