-- ==== Sys2Proof/Machine/Basic.lean ====
section
/-! DEFINITION. Accessors of the state: cores, threads, launches, thread fields with a layout (R88, R97 to R100), levels
and scopes (R209), free values, the error log (R381) and the record ring (R382). -/
namespace Sys2Proof.Machine

/-- The outcome type of every meaning. -/
abbrev Out := Host.Outcome State Fault Refusal

/-- Core c; a core that the table does not list is as at entry to SERVICE. -/
def State.core (s : State) (c : Nat) : Core := (look s.cores c).getD {}

def State.setCore (s : State) (c : Nat) (k : Core) : State := { s with cores := put s.cores c k }

def State.modCore (s : State) (c : Nat) (f : Core → Core) : State := s.setCore c (f (s.core c))

def State.thread (s : State) (tid : Nat) : Option Thread := look s.threads tid

def State.setThread (s : State) (tid : Nat) (t : Thread) : State := { s with threads := put s.threads tid t }

/-- The state with thread tid changed; no change where there is none. -/
def State.modThread (s : State) (tid : Nat) (f : Thread → Thread) : State :=
  match s.thread tid with
  | some t => s.setThread tid (f t)
  | none => s

def State.launchOf (s : State) (n : Nat) : Option Launch := look s.launches n

def State.setLaunch (s : State) (n : Nat) (l : Launch) : State := { s with launches := put s.launches n l }

def State.modLaunch (s : State) (n : Nat) (f : Launch → Launch) : State :=
  match s.launchOf n with
  | some l => s.setLaunch n (f l)
  | none => s

/-- Slot j of a core. -/
def Core.slot (k : Core) (j : Nat) : Slot := nth k.slots j {}

/-- The rotation count of the scheduler of die d, which goes round with the die's lowest core (R382) (DESIGN CHOICE, log 54). -/
def State.dieRotation (s : State) (d : Nat) : Nat := (look s.dieTurns d).getD 0

/-- Turns that a core has given (R26). -/
def Core.turns (k : Core) : Nat := 8 * k.rotation + k.nextSlot

def State.modSlot (s : State) (c j : Nat) (f : Slot → Slot) : State :=
  s.modCore c (fun k => { k with slots := modify k.slots j f })

/-- Threads that are not EXITED, with their numbers. -/
def State.live (s : State) : List (Nat × Thread) := s.threads.filter (fun e => e.2.state ≠ .exited)

/-- The thread resident at a place (R35: a resident is READY, PARKED, BLOCKED or TRAPPED). -/
def State.resident (s : State) (c j p : Nat) : Option (Nat × Thread) :=
  s.live.find? (fun e => e.2.place = some ⟨c, j, p⟩)

/-- The residents of a core. -/
def State.residents (s : State) (c : Nat) : List (Nat × Thread) :=
  s.live.filter (fun e => match e.2.place with
    | some q => decide (q.core = c)
    | none => false)

/-- User mode: `ts.MODE` = 0b00 (R97). -/
def Thread.user (t : Thread) : Bool := decide (bits t.csr.ts 17 16 = 0)

/-- The grove, die and numbers of a core (R11, R12). -/
def groveOf (c : Nat) : Nat := c / 8
def dieOf (c : Nat) : Nat := c / 256

/-- The home number that stands for the B-store of grove g (R180). -/
def bstoreHome (g : Nat) : Nat := 4096 + g

/-- The level of home h measured from core c, as a scope code (R209). -/
def levelOf (c h : Nat) : Nat :=
  if h ≥ 4096 then 2
  else if h = c then 1
  else if groveOf h = groveOf c then 2
  else if dieOf h = dieOf c then 3
  else 4

/-- Does scope x cover a home of a level (R209). THREAD covers none. -/
def covers (x level : Nat) : Bool := decide (level ≤ x)

/-- `tid` of a thread (R88). -/
def Thread.tidWord (t : Thread) : Word :=
  let q := t.place.getD ⟨t.core, 0, 0⟩
  word ((t.tnum % 2 ^ 32) * 2 ^ 32 + (t.lnum % 2 ^ 14) * 2 ^ 18 + (if t.kind = .mt then 2 ^ 17 else 0)
    + q.pos * 2 ^ 14 + q.slot * 2 ^ 11 + q.core)

/-- `wnd` of a thread (R100). -/
def Thread.wnd (t : Thread) : Word :=
  word (t.vbase * 2 ^ 24 + t.vlen * 2 ^ 18 + t.sbase * 2 ^ 7 + t.slen)

/-- Window register i, 0 beyond the window. -/
def Thread.xr (t : Thread) (i : Nat) : Word := nth t.x i 0

/-- Vector register i, 0 beyond the window. -/
def Thread.vr (t : Thread) (i : Nat) : Vec := nth t.v i 0

/-- The thread with window register i written, with its taint. -/
def Thread.setX (t : Thread) (i : Nat) (x : Word) (taint : Bool) : Thread :=
  { t with x := modify t.x i (fun _ => x), taint := modify t.taint i (fun _ => taint) }

def Thread.setV (t : Thread) (i : Nat) (x : Vec) : Thread := { t with v := modify t.v i (fun _ => x) }

def Thread.modCsr (t : Thread) (f : Csrs → Csrs) : Thread := { t with csr := f t.csr }

/-- Flags ORed into `fcsr` (R70). -/
def Thread.addFlags (t : Thread) (fl : Flags) : Thread :=
  t.modCsr (fun c => { c with fcsr := c.fcsr ||| word (fl.toNat * 4) })

/-- Inside a repeat frame (R99). -/
def Thread.inFrame (t : Thread) : Bool := bitAt t.csr.repst 31

/-- A fresh number for a free value, and the state that will not give it again. -/
def State.fresh (s : State) : Nat × State := (s.freeN, { s with freeN := s.freeN + 1 })

/-- One of several outcomes that the spec leaves open, by the counter of free values; the only one where there is one. -/
def pick (n : Nat) (l : List Nat) : Nat :=
  match l with
  | [] => 0
  | [a] => a
  | l => nth l (Config.free n % l.length) 0

/-- PMC events of a core counted under the selection in force (R102). -/
def Core.count (k : Core) (event n : Nat) : Core :=
  { k with pmc := (k.pmc.zip k.pmsel).map (fun e => if e.2.toNat = event then e.1 + word n else e.1) }

def State.count (s : State) (c event n : Nat) : State :=
  if (s.core c).pmsel.any (fun e => decide (e.toNat = event)) then s.modCore c (fun k => k.count event n) else s

/-- Unit fields of the error log (R381): class and index. -/
def unitCore (c : Nat) : Nat := c
def unitDie (d : Nat) : Nat := 2 * 4096 + d
def unitBoundary (b : Nat) : Nat := 3 * 4096 + b
def unitLink (l : Nat) : Nat := 4 * 4096 + l
def unitDevice : Nat := 6 * 4096
def unitManagement : Nat := 7 * 4096

/-- Physical address of the error log's entry i (R366). -/
def State.elEntry (s : State) (i : Nat) : Nat := bits s.mgmt.elbase 39 16 * 2 ^ 16 + 32 * i

/-- An event in the error log (R366, R381): merged into the last entry when that has the same code and unit. -/
def State.logError (s : State) (code unit : Nat) (w2 w3 : Word) : State :=
  let n := bits s.mgmt.elbase 15 0 + 1
  let last := s.elEntry ((s.mgmt.elIndex + n - 1) % n)
  let head := s.rdWord (last + 8)
  if s.mgmt.elTotal > 0 ∧ bits head 23 0 = code + unit * 2 ^ 8 then
    s.wrWord (last + 8) (setBits head 31 24 (min 255 (bits head 31 24 + 1)))
  else
    let a := s.elEntry s.mgmt.elIndex
    let s := ((s.wrWord a s.time).wrWord (a + 8) (word (code + unit * 2 ^ 8))).wrWord (a + 16) w2
    let s := s.wrWord (a + 24) w3
    { s with mgmt := { s.mgmt with elIndex := (s.mgmt.elIndex + 1) % n, elTotal := s.mgmt.elTotal + 1 } }

/-- The die whose scheduler counts the rotations of a record's unit that is no core: links 2d and 2d + 1 leave from die d
(R11); the device and the controller stand with die 0 (DESIGN CHOICE, log 54). -/
def unitScheduler (unit : Nat) : Nat :=
  if unit / 4096 = 2 then unit % 4096 % 8 else if unit / 4096 = 4 then unit % 4096 / 2 % 8 else 0

/-- The rotation count at which a record of a unit stands (R382). -/
def State.unitRotation (s : State) (unit : Nat) : Nat :=
  if unit / 4096 = 0 then (s.core (unit % 4096)).rotation else s.dieRotation (unitScheduler unit)

/-- A record of deterministic mode (R374, R382): nothing outside it, or once recording has stopped. A record has room for 255
continuations, and what goes beyond is left out (DESIGN CHOICE, log 54). -/
def State.record (s : State) (unit kind : Nat) (w2 w3 : Word) (more : List Word) : State :=
  if ¬ s.mgmt.det ∨ s.mode ≠ .service ∨ s.mgmt.reclost then s
  else
    let room := (bits s.mgmt.recbase 15 0 + 1) * 2048
    let cont := more.take 1020
    let extra := (cont.length + 3) / 4
    if s.mgmt.recIndex + 1 + extra > room then
      let s := { s with mgmt := { s.mgmt with reclost := true } }
      s.logError 0x14 unitDevice (word s.mgmt.recIndex) 0
    else
      let base := bits s.mgmt.recbase 39 16 * 2 ^ 16 + 32 * s.mgmt.recIndex
      let ws := [word (s.unitRotation unit), word (unit + kind * 2 ^ 16 + extra * 2 ^ 24), w2, w3] ++ cont ++
        List.replicate (4 * extra - cont.length) 0
      let s := { s with mgmt := { s.mgmt with recIndex := s.mgmt.recIndex + 1 + extra } }
      s.wrBytes base (ws.flatMap (fun w => bytesOf 8 w.toNat))

/-- Is a replay under way (R375). -/
def State.replaying (s : State) : Bool := decide (s.mode = .test) && s.mgmt.det && s.mgmt.replayAt.isSome

/-- Does the part make its own choices in fixed orders (R374, R375). -/
def State.fixed (s : State) : Bool := s.mgmt.det && (decide (s.mode = .service) || decide (s.mode = .test))

/-- One of several outcomes that the part chooses: the first in its fixed order in deterministic mode and a replay (R374), else
free. -/
def State.pick (s : State) (l : List Nat) : Nat := if s.fixed then l.headD 0 else Machine.pick s.freeN l

/-- A free yes or no of the part's own, by number n: no in deterministic mode and a replay (R374). -/
def State.flips (s : State) (n : Nat) : Bool := ! s.fixed && Config.freeBool n

/-- A value of the time base for a reader (R374, R382): x, recorded in deterministic mode; in a replay the one that the next
record of its kind, unit and reader holds (R375). -/
def State.timeValue (s : State) (c kind : Nat) (who x : Word) : Word × State :=
  match (if s.replaying then s.mgmt.supplied.find? (fun e => decide (e.1 = kind ∧ e.2.1 = unitCore c ∧ e.2.2.1 = who)) else none) with
  | some e => (e.2.2.2, { s with mgmt := { s.mgmt with supplied := s.mgmt.supplied.erase e } })
  | none => (x, s.record (unitCore c) kind who x [])

end Sys2Proof.Machine
end

