-- ==== Sys2Proof/Machine/Translate.lean ====
section
/-! DEFINITION. Addresses: the regions of a DVA (R173), the scratchpad (R174, R175), the page walk and its checks (R178,
R179, R359, R360), homes (R180), the TLBs (R361), and the checks of R188 in their order. -/
namespace Sys2Proof.Machine

/-- Trap codes (R345). -/
def cILLEGAL : Nat := 0x01
def cREGISTER : Nat := 0x02
def cHAZARD : Nat := 0x03
def cPRIVILEGE : Nat := 0x04
def cROLE : Nat := 0x05
def cMISALIGNED : Nat := 0x06
def cSPRANGE : Nat := 0x07
def cNOTPRESENT : Nat := 0x08
def cPERMISSION : Nat := 0x09
def cOWNERSHIP : Nat := 0x0A
def cVIEW : Nat := 0x0B
def cWAITLIMIT : Nat := 0x0C
def cFORMAT : Nat := 0x0D
def cACCLOST : Nat := 0x0E
def cCHANNEL : Nat := 0x0F
def cPACKET : Nat := 0x10
def cSTAGE : Nat := 0x11
def cMIGRATE : Nat := 0x12
def cECC : Nat := 0x13
def cBREAKPOINT : Nat := 0x14
def cSYSCALL : Nat := 0x15
def cUNAVAILABLE : Nat := 0x16

/-- Who makes an access: mode, launch, and the core it is issued from. -/
structure Who where
  user : Bool
  lnum : Nat
  core : Nat
  deriving DecidableEq, Repr

/-- What an access is, for the checks of R173, R179 and R360. -/
inductive For where
  | load | store | atomic | fullEmpty | stfe | waitge | migrate | update | view | copyRead | copyWrite | remoteWrite | fetch
  deriving DecidableEq, Repr

/-- An access that a page with W = 0 forbids (R360). -/
def For.writes (u : For) : Bool :=
  match u with
  | .store => true
  | .atomic => true
  | .stfe => true
  | .update => true
  | .copyWrite => true
  | .remoteWrite => true
  | _ => false

/-- A copy's side or an engine access: not a core access (R173, R188 check 5). -/
def For.copies (u : For) : Bool :=
  match u with
  | .copyRead => true
  | .copyWrite => true
  | .remoteWrite => true
  | _ => false

/-- The regions of R173. -/
inductive Region where
  | global | scratch (lcn window offset : Nat) | bstore (offset : Nat) | own (window offset : Nat) | window (offset : Nat)
  deriving DecidableEq, Repr

/-- The region of a DVA, or none: no region, or a bit that must be zero is not (R173). -/
def regionOf (a : Word) : Option Region :=
  let top := bits a 63 56
  if top = 0x00 then some .global
  else if top = 0xE0 then
    if bits a 55 53 = 0 ∧ bits a 38 20 = 0 then some (.scratch (bits a 52 42) (bits a 41 39) (bits a 19 0)) else none
  else if top = 0xE8 then (if bits a 55 21 = 0 then some (.bstore (bits a 20 0)) else none)
  else if 0xF0 ≤ top ∧ top ≤ 0xF7 then
    (if bits a 55 20 = 0 then some (.own (bits a 58 56) (bits a 19 0)) else none)
  else if top = 0xFC then (if bits a 55 16 = 0 then some (.window (bits a 15 0)) else none)
  else none

/-- Bytes of a scratchpad (R174). -/
def scratchSize : Nat := 1015808

/-- The band of a scratchpad offset (R175). -/
def bandOf (o : Nat) : Nat := o / 31744

/-- The band check of R175: the first byte from offset o of n that user code of a launch may not reach. -/
def State.bandFault (s : State) (w : Who) (c o n : Nat) : Option Nat :=
  if ¬ w.user then none
  else
    ((List.range n).map (· + o)).find? (fun i =>
      let b := nth (s.core c).bands (bandOf i) {}
      ¬ (b.v = true ∧ b.lnum = w.lnum))

/-- Fields of a leaf entry (R359). -/
def leafKind (e : Word) : Nat := bits e 62 60
def leafW (e : Word) : Bool := bitAt e 58
def leafX (e : Word) : Bool := bitAt e 57
def leafS (e : Word) : Bool := bitAt e 56
def leafOwn (e : Word) : Bool := bitAt e 55
def leafSotx (e : Word) : Nat := bits e 15 4

/-- Is core c a member of home group g (R180). -/
def State.inGroup (s : State) (g c : Nat) : Bool :=
  let base := bits s.roots.2 39 14 * 2 ^ 14
  (s.rdByte (base + 256 * g + c / 8)).getLsbD (c % 8)

/-- The members of home group g in ascending LCN (R180). -/
def State.group (s : State) (g : Nat) : List Nat := (List.range 2048).filter (fun c => s.inGroup g c)

/-- The physical address of va under a leaf (R359). -/
def leafPA (e : Word) (big : Bool) (va : Nat) : Nat :=
  if big then bits e 39 26 * 2 ^ 26 + va % 2 ^ 26 else bits e 39 16 * 2 ^ 16 + va % 2 ^ 16

/-- A leaf entry whose fields and values are not malformed (R359, R360): fields reserved as zero, and a KIND. -/
def leafForm (e : Word) (big : Bool) : Bool :=
  let k := leafKind e
  bitAt e 59 && decide (k ≠ 7) && (k == 4 || !leafOwn e) && decide (bits e 42 40 = 0) && decide (bits e 3 0 = 0)
    && (!big || decide (bits e 25 16 = 0)) && (k == 2 || k == 3 || decide (leafSotx e = 0))
    && (!bitAt e 54 || decide (bits e 53 49 = 0))

/-- A well-formed leaf entry that translates va: its group has a member, and the physical address exists (R360 check 1)
(DEDUCED, log 40). -/
def State.leafOk (s : State) (e : Word) (big : Bool) (va : Nat) : Bool :=
  (!bitAt e 54 || !(s.group (bits e 48 43)).isEmpty)
    && (decide (leafPA e big va < hbmEnd) || inControl (leafPA e big va))

/-- The outcome of a walk (R359, R360 check 1): a leaf, or not present, with the entry to log when it is malformed. -/
inductive Walk where
  | leaf (e : Word) (big : Bool)
  | absent
  | malformed (entry : Nat)
  deriving DecidableEq, Repr

/-- One step of the walk of va at the table at base, with the indexes of the levels that remain (R359). -/
def State.walkFrom (s : State) (base : Nat) (idx : List Nat) (va : Nat) : Walk :=
  match idx with
  | [] => .absent
  | i :: rest =>
    let at' := base + 8 * i
    let e := s.rdWord at'
    if ¬ bitAt e 63 then .absent
    else if bitAt e 59 then
      (if rest.length ≤ 1 then
        (if ¬ leafForm e (rest.length = 1) then .malformed at'
         else if s.leafOk e (rest.length = 1) va then .leaf e (rest.length = 1)
         else .absent)
      else .malformed at')
    else if rest.isEmpty then .malformed at'
    else if setBits (setBits e 63 63 0) 39 13 0 ≠ 0 then .malformed at'
    else s.walkFrom (bits e 39 13 * 2 ^ 13) rest va

/-- The indexes of a global virtual address at the four levels (R359). -/
def pageIndexes (va : Nat) : List Nat := [va / 2 ^ 46 % 1024, va / 2 ^ 36 % 1024, va / 2 ^ 26 % 1024, va / 2 ^ 16 % 1024]

/-- The walk of a global virtual address from PTBASE, as it is in force (R358, R359). -/
def State.walk (s : State) (va : Nat) : Walk := s.walkFrom (bits s.roots.1 39 13 * 2 ^ 13) (pageIndexes va) va

/-- Do the TLBs of an owner lie within a scope of core c (R365). -/
def tlbCovered (c scope owner : Nat) : Bool :=
  if owner ≥ 4096 then
    let g := owner - 4096
    match scope with
    | 0 => false
    | 1 => false
    | 2 => decide (g = groveOf c)
    | 3 => decide (g / 32 = dieOf c)
    | _ => true
  else decide (levelOf c owner ≤ scope)

/-- Does a translation map the page of va: of 64 MiB, or of 64 KiB. -/
def mapsPage (big : Bool) (at' va : Nat) : Bool :=
  if big then decide (at' / 2 ^ 26 = va / 2 ^ 26) else decide (at' / 2 ^ 16 = va / 2 ^ 16)

/-- Translations of va that core c's TLBs may hold (R361): those noted at its accesses, and those that page-table stores
have replaced. -/
def State.cached (s : State) (c va : Nat) : List (Word × Bool) :=
  ((s.tlbs.filter (fun e => (e.owner = c || e.owner = bstoreHome (groveOf c)) && mapsPage e.big (e.vpn * 2 ^ 16) va)).map
    (fun e => (e.leaf, e.big))) ++
  ((s.stale.filter (fun e => mapsPage e.big e.va va && ! e.gone.any (fun q => tlbCovered q.1 q.2 c))).map
    (fun e => (e.leaf, e.big)))

/-- The leaf that translates va for core c: the walk's, or, until a TLBINV has covered the core, one that it replaced
(R361) (DEDUCED, log 62). -/
def State.leafFor (s : State) (c va : Nat) : Walk :=
  let fresh := s.walk va
  let old := (s.cached c va).filter (fun e => decide (.leaf e.1 e.2 ≠ fresh))
  match old[s.pick (List.range old.length)]? with
  | some e => if s.flips s.freeN then .leaf e.1 e.2 else fresh
  | none => fresh

/-- The words of a page table at base that memory lists, by index, with V set (R359). -/
def State.tableWords (s : State) (base : Nat) : List (Nat × Word) :=
  (dedup ((s.mem.filter (fun c => decide (base ≤ c.1 ∧ c.1 < base + 8192))).map (fun c => (c.1 - base) / 8))).filterMap
    (fun i => if bitAt (s.rdWord (base + 8 * i)) 63 then some (i, s.rdWord (base + 8 * i)) else none)

/-- The leaf entries below the table at base that maps addresses from va, with what they map; n levels are below it. -/
def State.leavesFrom (s : State) (base va n : Nat) : List Stale :=
  match n with
  | 0 => (s.tableWords base).map (fun e => { va := va + e.1 * 2 ^ 16, leaf := e.2, big := false })
  | k + 1 =>
    (s.tableWords base).flatMap (fun e =>
      let at' := va + e.1 * 2 ^ (16 + 10 * (k + 1))
      if bitAt e.2 59 then [{ va := at', leaf := e.2, big := true }] else s.leavesFrom (bits e.2 39 13 * 2 ^ 13) at' k)

/-- The translations that a choice, made in state old, has replaced by writes of page tables (R361). Where the part has
invalidated every TLB none is left; a page that has only become the device's is used as such at once (R341). -/
def State.noteStale (s old : State) : State :=
  if s.dropped ≠ old.dropped then { s with stale := [] }
  else if s.mem = old.mem ∨ s.roots ≠ old.roots then s
  else
    { s with stale := s.stale ++ (old.leavesFrom (bits old.roots.1 39 13 * 2 ^ 13) 0 3).filter (fun e =>
        decide (old.walk e.va = .leaf e.leaf e.big) && decide (s.walk e.va ≠ .leaf e.leaf e.big) &&
        ! (decide (s.walk e.va = .leaf (setBits e.leaf 55 55 1) e.big) && decide (leafKind e.leaf = 4))) }

/-- The home of a physical address under a leaf (R180). -/
def State.homeOf (s : State) (e : Word) (pa : Nat) : Nat :=
  if bitAt e 54 then
    let g := s.group (bits e 48 43)
    let h := pa / 128
    nth g ((h ^^^ (h / 2 ^ 11) ^^^ (h / 2 ^ 22)) % (max 1 g.length)) 0
  else bits e 53 43

/-- Page permissions (R360 check 2) and the KIND table (R179), in that order. -/
def pageFault (w : Who) (u : For) (e : Word) (big : Bool) (va : Nat) : Option Nat :=
  let k := leafKind e
  if leafS e && w.user then some cPERMISSION
  else if u.writes && !leafW e then some cPERMISSION
  else if u = .fetch ∧ (¬ leafX e ∨ (k ≠ 0 ∧ k ≠ 6)) then some cPERMISSION
  else if inControl (leafPA e big va) ∧ (k ≠ 6 ∨ ¬ leafS e) then some cPERMISSION
  else if u = .fetch ∨ u = .migrate then none
  else if u = .remoteWrite then (if k = 5 then none else some cPERMISSION)
  else if u = .update then (if k = 2 then none else some cVIEW)
  else if u = .view then (if k = 2 ∨ k = 3 then none else some cVIEW)
  else if k = 2 then some cVIEW
  else if k = 3 then (if u = .load ∨ u = .copyRead then none else some cVIEW)
  else if u = .fullEmpty ∨ u = .stfe then (if k = 1 then none else some cPERMISSION)
  else if k = 4 ∧ ¬ leafOwn e then some cOWNERSHIP
  else none

/-- The place of a global address (R178 to R180, R360): checks 6 and 7 of R188. -/
def State.globalLoc (s : State) (w : Who) (u : For) (a : Word) : Except TrapRec Loc :=
  match s.leafFor w.core a.toNat with
  | .leaf e big =>
    match pageFault w u e big a.toNat with
    | some c => .error ⟨c, a⟩
    | none =>
      let pa := leafPA e big a.toNat
      .ok ⟨pa, s.homeOf e pa, leafKind e, leafSotx e, a⟩
  | _ => .error ⟨cNOTPRESENT, a⟩

/-- The place of a scratchpad byte: checks 4 and 5 of R188, then the KIND column of R179. -/
def State.scratchLoc (s : State) (w : Who) (u : For) (a : Word) (size c win o : Nat) : Except TrapRec Loc :=
  if u = .fullEmpty ∨ u = .stfe then .error ⟨cPERMISSION, a⟩
  else if u = .update ∨ u = .view then .error ⟨cVIEW, a⟩
  else if u = .migrate then .ok ⟨scratchKey c o, c, 8, 0, a⟩
  else if o + size > scratchSize then .error ⟨cSPRANGE, a⟩
  else
    match s.bandFault w c o size with
    | some i => .error ⟨cSPRANGE, a + w64 (i - o)⟩
    | none =>
      if win = 6 ∧ ¬ u.copies then .error ⟨cFORMAT, a⟩
      else .ok ⟨scratchKey c o, c, 8, 0, a⟩
where
  /-- A number as a word. -/
  w64 (n : Nat) : Word := BitVec.ofNat 64 n

/-- Checks 2 to 7 of R188 on an address that forms an access of `size` bytes, but for what a value view asks (R301). -/
def State.placeAt (s : State) (w : Who) (u : For) (a : Word) (size : Nat) : Except TrapRec Loc :=
  match regionOf a with
  | none => .error ⟨cNOTPRESENT, a⟩
  | some .global => s.globalLoc w u a
  | some (.scratch c win o) => s.scratchLoc w u a size c win o
  | some (.own win o) => s.scratchLoc w u a size w.core win o
  | some (.bstore o) =>
    if u.copies ∧ u ≠ .remoteWrite then .ok ⟨bstoreKey (groveOf w.core) o, bstoreHome (groveOf w.core), 9, 0, a⟩
    else .error ⟨cPERMISSION, a⟩
  | some (.window _) => .error ⟨cPERMISSION, a⟩

/-- The TLBs of core c and its grove hold the translation that an access used (R361); a malformed entry that a walk met
is logged (R360) (DEDUCED, log 62). -/
def State.noteTlb (s : State) (c : Nat) (a : Word) : State :=
  if bits a 63 56 ≠ 0 then s
  else
    let va := a.toNat
    match s.leafFor c va with
    | .leaf e big =>
      let keep := fun o => s.tlbs.filter (fun t => ¬ (t.owner = o ∧ t.vpn = va / 2 ^ 16))
      if s.tlbs.any (fun t => decide (t.leaf = e ∧ t.owner = c ∧ t.vpn = va / 2 ^ 16)) then s
      else { s with tlbs := ⟨c, va / 2 ^ 16, e, big⟩ :: ⟨bstoreHome (groveOf c), va / 2 ^ 16, e, big⟩ :: keep c }
    | .malformed at' => s.logError 0x0D (unitDie (dieOf c)) (BitVec.ofNat 64 at') a
    | .absent => s

/-- A malformed entry that the walk of an address met is logged (R360); only PAGE_NOT_PRESENT comes from one. -/
def State.noteWalk (s : State) (c : Nat) (r : TrapRec) : State :=
  if r.code ≠ cNOTPRESENT ∨ bits r.tval 63 56 ≠ 0 then s
  else
    match s.leafFor c r.tval.toNat with
    | .malformed at' => s.logError 0x0D (unitDie (dieOf c)) (BitVec.ofNat 64 at') r.tval
    | _ => s

/-- The bank of a scratchpad address and its row (R135, R174). -/
def spBank (a : Word) : Nat := bits a 19 4 % 31
def spRow (a : Word) : Nat := bits a 19 4 / 31

end Sys2Proof.Machine
end

