-- ==== Sys2Proof/Machine/Replica.lean ====
section
/-! DEFINITION. Replicated objects at their homes (R298 to R324): the table, resolution of an address, the state of each
type, local updates, values, joins, the tideline and membership. State and tideline areas are memory of the device. -/
namespace Sys2Proof.Machine

/-- The byte of memory behind a global virtual address, as a unit of the part reaches it: none where the walk finds no
leaf. -/
def State.vkey (s : State) (va : Nat) : Option Nat :=
  match s.walk va with
  | .leaf e big => some (leafPA e big va)
  | _ => none

/-- A byte of an object's state or of its tables; a page that is not mapped reads 0 there (DESIGN CHOICE, log 38). -/
def State.vbyte (s : State) (va : Nat) : Byte :=
  match s.vkey va with
  | some k => s.rdByte k
  | none => 0

def State.vbytes (s : State) (va n : Nat) : List Byte := (List.range n).map (fun i => s.vbyte (va + i))

def State.vnum (s : State) (va n : Nat) : Nat := ofBytes (s.vbytes va n)

def State.vword (s : State) (va : Nat) : Word := BitVec.ofNat 64 (s.vnum va 8)

def State.vput (s : State) (va : Nat) (bs : List Byte) : State :=
  match bs with
  | [] => s
  | b :: r =>
    (match s.vkey va with
     | some k => s.wrByte k b
     | none => s).vput (va + 1) r

/-- Base of core c's save region (R355). -/
def State.saveBase (s : State) (c : Nat) : Nat := (nth s.ctl 3 0).toNat + c * 2 ^ 24

def ctxAddr (base i : Nat) : Nat := base + 0x1000 + 4096 * i

def State.vputWord (s : State) (va : Nat) (x : Word) : State := s.vput va (bytesOf 8 x.toNat)

/-- Types of object (R298). -/
inductive OType where
  | pcsum | maxr | lwwt | awset | cmean
  deriving DecidableEq, Repr

/-- A SOT entry that is valid, by field (R298). -/
structure Sot where
  x : Nat
  ty : OType
  efmt : Nat
  device : Bool
  n : Nat
  tsz : Nat
  cap : Nat
  caplog : Nat
  nelem : Nat
  ubase : Nat
  vbase : Nat
  lbase : Nat
  dstr : Nat
  mlist : Nat
  tl : Nat
  ovfb : Nat
  ovfn : Nat
  silent : Nat
  locals : List Nat
  peers : List Nat
  w0 : Word
  w3 : Word
  deriving DecidableEq, Repr

/-- The sixteen words of SOT entry x (R298, R358). -/
def State.sotWords (s : State) (x : Nat) : List Word :=
  (List.range 16).map (fun i => s.rdWord (bits (nth s.ctl 2 0) 39 16 * 2 ^ 16 + 128 * x + 8 * i))

/-- Element size (R298). -/
def Sot.esize (o : Sot) : Nat :=
  match o.efmt with
  | 0 => 4
  | 1 => 8
  | 2 => 8
  | 3 => 8
  | 4 => 1
  | _ => 4

/-- Bytes of the value image (R298). -/
def Sot.image (o : Sot) : Nat := if o.ty = .awset then 4 * o.cap else o.nelem * o.esize

/-- Tiles, or shipping units of an AWSET table (R298). -/
def Sot.tiles (o : Sot) : Nat := if o.ty = .awset then 64 * o.cap / o.tsz else o.image / o.tsz

/-- Shipping units of a replica, in unit order (R302). -/
def Sot.units (o : Sot) : Nat :=
  match o.ty with
  | .pcsum => o.n * o.tiles
  | .cmean => o.n * o.tiles
  | _ => o.tiles

/-- Offset of the CSN words in the state (R302). -/
def Sot.csnOff (o : Sot) : Nat :=
  match o.ty with
  | .pcsum => o.n * o.image + 8 * o.n * o.tiles
  | .maxr => o.image
  | .lwwt => o.tiles * o.tsz + 16 * o.tiles
  | .awset => 64 * o.cap + 512
  | .cmean => 16 * o.n * o.nelem

/-- State size (R302). -/
def Sot.stateSize (o : Sot) : Nat := o.csnOff + 8 * o.units

/-- The formats each type takes (R298). -/
def efmtOk (ty : OType) (e : Nat) : Bool :=
  match ty with
  | .pcsum => e == 0 || e == 1 || e == 2
  | .maxr => e == 0 || e == 2 || e == 3
  | .lwwt => e == 4
  | .awset => e == 5
  | .cmean => e == 1

/-- The type code of word 0 (R298). -/
def otypeOf (n : Nat) : Option OType :=
  match n with
  | 1 => some .pcsum
  | 2 => some .maxr
  | 3 => some .lwwt
  | 4 => some .awset
  | 5 => some .cmean
  | _ => none

/-- The entry's fields, without the checks. -/
def sotOf (x : Nat) (w : List Word) (ty : OType) : Sot :=
  let g := fun i => nth w i 0
  let w0 := g 0
  { x := x, ty := ty, efmt := bits w0 6 4, device := bitAt w0 3, n := bits w0 14 8, tsz := 2 ^ bits w0 19 16,
    cap := if ty = .awset then 2 ^ bits w0 24 20 else 0, caplog := bits w0 24 20, nelem := bits (g 3) 31 0,
    ubase := (g 4).toNat, vbase := (g 5).toNat, lbase := (g 6).toNat, dstr := (g 7).toNat, mlist := (g 8).toNat,
    tl := (g 9).toNat, ovfb := (g 10).toNat, ovfn := bits (g 11) 31 0, silent := (g 12).toNat,
    locals := (List.range 8).map (fun d => bits (g 1) (8 * d + 6) (8 * d)),
    peers := (List.range 8).map (fun j => bits (g 2) (8 * j + 6) (8 * j)), w0 := w0, w3 := g 3 }

/-- Member identifier of slot m (R300). -/
def State.memberId (s : State) (o : Sot) (m : Nat) : Word := s.vword (o.mlist + 8 * m)

/-- The member table's rules (R300). -/
def State.membersOk (s : State) (o : Sot) : Bool :=
  let ids := (List.range o.n).map (fun m => s.memberId o m)
  ids.all (fun i => decide (bits i 63 15 = 0 ∧ (o.device → bits i 2 0 = 0))) &&
    decide (dedup (ids.map BitVec.toNat) = ids.map BitVec.toNat)
    && (List.range (64 - o.n)).all (fun i => decide (s.memberId o (o.n + i) = 0))

/-- The number of the first word of an entry that fails R298 or R300, if any. -/
def State.sotFault (s : State) (w : List Word) : Option Nat :=
  let g := fun i => nth w i 0
  match otypeOf (bits (g 0) 2 0) with
  | none => some 0
  | some ty =>
    let o := sotOf 0 w ty
    let byte0 := fun (x : Word) => (List.range 8).all (fun d => ! bitAt x (8 * d + 7))
    let checks : List (Nat × Bool) :=
      [(0, decide (bits (g 0) 63 25 = 0) && ! bitAt (g 0) 15 && ! bitAt (g 0) 7),
       (0, efmtOk ty o.efmt && decide (8 ≤ bits (g 0) 19 16) && decide (bits (g 0) 19 16 ≤ 13) && decide (1 ≤ o.n)
         && decide (o.n ≤ 64)),
       (0, if ty = .awset then decide (4 ≤ o.caplog ∧ o.caplog ≤ 20 ∧ bits (g 0) 19 16 - 6 ≤ o.caplog)
         else decide (o.caplog = 0)),
       (1, byte0 (g 1) && o.locals.all (fun l => decide (l = 127 ∨ l < o.n))),
       (2, byte0 (g 2) && o.peers.all (fun p => decide (p ≤ 63))),
       (3, decide (bits (g 3) 63 32 = 0) && (if ty = .awset then decide (o.nelem = 0)
         else decide (o.image % o.tsz = 0))),
       (4, decide (o.ubase % o.tsz = 0)), (5, decide (o.vbase % o.tsz = 0)), (6, decide (o.lbase % 4096 = 0)),
       (7, if o.device then decide (o.dstr = 0)
         else decide (o.dstr ≠ 0 ∧ o.dstr % o.tsz = 0 ∧ o.dstr % 4096 = 0 ∧ o.image ≤ o.dstr ∧ o.stateSize ≤ o.dstr
           ∧ (ty = .awset → 64 * o.ovfn ≤ o.dstr))),
       (8, decide (o.mlist % 64 = 0) && s.membersOk o), (9, decide (o.tl % 65536 = 0)),
       (10, if ty = .awset then decide (o.ovfb % 64 = 0) else decide (o.ovfb = 0)),
       (11, decide (bits (g 11) 63 32 = 0)),
       (13, decide (g 13 = 0)), (14, decide (g 14 = 0)), (15, decide (g 15 = 0))]
    (checks.find? (fun c => ! c.2)).map (fun c => c.1)

/-- SOT entry x, when it is valid (R299). -/
def State.sot (s : State) (x : Nat) : Option Sot :=
  let w := s.sotWords x
  match s.sotFault w, otypeOf (bits (nth w 0 0) 2 0) with
  | none, some ty => some (sotOf x w ty)
  | _, _ => none

/-- What the part keeps for replica d of object x. -/
def State.replica (s : State) (x d : Nat) : Replica := (look s.replicas (8 * x + d)).getD {}

def State.modReplica (s : State) (x d : Nat) (f : Replica → Replica) : State :=
  { s with replicas := put s.replicas (8 * x + d) (f (s.replica x d)) }

/-- What the part keeps for the replicas of an entry that is not valid is forgotten: a later validation starts anew (R320). -/
def State.closeObject (s : State) (x : Nat) : State :=
  { s with replicas := s.replicas.map (fun q => if q.1 / 8 = x then (q.1, { seen := q.2.seen }) else q) }

/-- The failure of an entry, or its TYPE of 0, is counted once for each change of it (R299): also where it fails by a later
change of its member table. -/
def State.noteSot (s : State) (x : Nat) : State :=
  let w := s.sotWords x
  match s.sotFault w with
  | none => if (s.replica x 0).seen.isEmpty then s else s.modReplica x 0 (fun r => { r with seen := [] })
  | some n =>
    if (s.replica x 0).seen = w then s
    else
      let s := s.logError 0x0E unitDevice (BitVec.ofNat 64 x) (BitVec.ofNat 64 n)
      (s.closeObject x).modReplica x 0 (fun r => { r with seen := w })

/-- A resolved address (R301). -/
structure Elem where
  o : Sot
  d : Nat
  self : Nat
  off : Nat
  deriving DecidableEq, Repr

/-- Resolution of an address in a view page of SOT index x (R301): an update view or a value view. -/
def resolve (o : Sot) (update : Bool) (a : Nat) : Option Elem :=
  let base := if update then o.ubase else o.vbase
  if a < base then none
  else
    let d := if o.device then 0 else (a - base) / o.dstr
    let off := a - base - d * o.dstr
    let self := nth o.locals d 127
    if d > 7 ∨ self = 127 ∨ off ≥ o.image then none else some ⟨o, d, self, off⟩

/-- The home of an address of region 0x00 by its page (R180). -/
def State.homeOfVa (s : State) (va : Nat) : Nat :=
  match s.walk va with
  | .leaf e big => s.homeOf e (leafPA e big va)
  | _ => 0

/-- The home of an element: of its update-view address; of the base for AWSET (R301). -/
def State.elemHome (s : State) (e : Elem) : Nat :=
  s.homeOfVa (e.o.ubase + e.d * e.o.dstr + (if e.o.ty = .awset then 0 else e.off))

/-- Base of replica d's state, tideline area and overflow area. -/
def Elem.lbase (e : Elem) : Nat := e.o.lbase + e.d * e.o.dstr
def Elem.tl (e : Elem) : Nat := e.o.tl + 65536 * e.d
def Elem.ovf (e : Elem) : Nat := e.o.ovfb + e.d * e.o.dstr

/-- Addresses within the tideline area (R319). -/
def Elem.hv (e : Elem) (m c : Nat) : Nat := e.tl + 8 * (64 * m + c)
def Elem.member (e : Elem) (m : Nat) : Nat := e.tl + 0x8000 + 8 * m
def Elem.shipped (e : Elem) (j : Nat) : Nat := e.tl + 0x8200 + 8 * j
def Elem.usn (e : Elem) : Nat := e.tl + 0x8240
def Elem.csn (e : Elem) : Nat := e.tl + 0x8248
def Elem.view (e : Elem) : Nat := e.tl + 0x8250
def Elem.beat (e : Elem) : Nat := e.tl + 0x8258
def Elem.front (e : Elem) (c : Nat) : Nat := e.tl + 0x8400 + 8 * c
def Elem.unitCsn (e : Elem) (u : Nat) : Nat := e.lbase + e.o.csnOff + 8 * u

/-- The SILENT limit of an object (R298, R19). -/
def Sot.silence (o : Sot) : Nat := if o.silent = 0 then Config.silence else o.silent

/-- A change of shipping unit u (R305). -/
def State.bumpCsn (s : State) (e : Elem) (u : Nat) : State :=
  let c := s.vword e.csn + 1
  (s.vputWord e.csn c).vputWord (e.unitCsn u) c

/-- Float format of an object's elements; none for integers. -/
def Sot.fmt (o : Sot) : Option Fmt :=
  match o.efmt with
  | 0 => some F32
  | 1 => some F64
  | _ => none

/-- The sum of two elements (R308, R311): RNE, or wrapping. -/
def Sot.addElem (o : Sot) (a b : Nat) : Nat :=
  match o.fmt with
  | some f => (fadd f .rne a b).1
  | none => (a + b) % 2 ^ 64

/-- The key of a MAXR element (R309), and the element with a NaN made canonical. -/
def maxKey (efmt x : Nat) : Int × Nat :=
  match efmt with
  | 2 => (toSigned 64 x, x)
  | 3 => (x, x)
  | _ =>
    if x / 2 ^ 23 % 256 = 255 ∧ x % 2 ^ 23 ≠ 0 then ((2 ^ 32 : Nat), 0x7FC00000)
    else if x / 2 ^ 31 = 0 then ((2 ^ 31 + x : Nat), x)
    else ((2 ^ 31 - 1 : Nat) - (x % 2 ^ 31 : Nat), x)

/-- The larger of two MAXR elements; the first when the keys are equal (R309). -/
def largerElem (efmt a b : Nat) : Nat :=
  let ka := maxKey efmt a
  let kb := maxKey efmt b
  if kb.1 > ka.1 then kb.2 else a

/-- HLCNOW (R315): the stamp, and the state that holds it. `who` is the reader's `tid`, 0 for a join unit, at core c
(R382). -/
def State.hlcNow (s : State) (c : Nat) (who : Word) : Word × State :=
  let p := BitVec.ofNat 64 (bits s.time 57 10 * 2 ^ 16)
  let (n, s) := s.timeValue c 6 who (if (s.hlc + 1).toNat ≥ p.toNat then s.hlc + 1 else p)
  (n, { s with hlc := if n.toNat > s.hlc.toNat then n else s.hlc })

/-- A dot of an AWSET element (R302): slot and counter. -/
structure Dot where
  r : Nat
  k : Nat
  deriving DecidableEq, Repr

def dotOf (w : Word) : Dot := ⟨bits w 45 40, bits w 39 0⟩
def Dot.word (d : Dot) : Word := BitVec.ofNat 64 (d.r * 2 ^ 40 + d.k)

/-- Address of AWSET entry j, and its page when used. -/
def Elem.entry (e : Elem) (j : Nat) : Nat := e.lbase + 64 * j

def State.page (s : State) (e : Elem) (j : Nat) : Option Nat :=
  let w := s.vword (e.entry j)
  if bitAt w 32 then some (bits w 31 0) else none

/-- The home index of a page (R308). -/
def homeIndex (o : Sot) (p : Nat) : Nat := p * 0x9E3779B1 % 2 ^ 32 / 2 ^ (32 - o.caplog)

/-- Probing from index h: the entry that holds p, or the first without USED (R308). -/
def State.probe (s : State) (e : Elem) (p h fuel : Nat) : Option (Nat × Bool) :=
  match fuel with
  | 0 => none
  | k + 1 =>
    let j := h % e.o.cap
    match s.page e j with
    | none => some (j, false)
    | some q => if q = p then some (j, true) else s.probe e p (h + 1) k

def State.findPage (s : State) (e : Elem) (p : Nat) : Option Nat :=
  match s.probe e p (homeIndex e.o p) e.o.cap with
  | some (j, true) => some j
  | _ => none

/-- The pages a replica's set holds, with their entries. -/
def State.pages (s : State) (e : Elem) : List (Nat × Nat) :=
  (List.range e.o.cap).filterMap (fun j => (s.page e j).map (fun p => (p, j)))

/-- Blocks of an overflow chain, from the address in NEXT. -/
def State.chain (s : State) (b fuel : Nat) : List Nat :=
  match fuel with
  | 0 => []
  | k + 1 => if b = 0 then [] else b :: s.chain (s.vword (b + 56)).toNat k

/-- The dots of entry j (R302). -/
def State.dots (s : State) (e : Elem) (j : Nat) : List Dot :=
  let w0 := s.vword (e.entry j)
  let inl := (List.range (bits w0 39 37)).map (fun i => dotOf (s.vword (e.entry j + 8 + 8 * i)))
  let blocks := s.chain (s.vword (e.entry j + 56)).toNat 16
  let more := blocks.flatMap (fun b => (List.range 7).map (fun i => s.vword (b + 8 * i)))
  inl ++ (more.filter (fun w => w ≠ 0)).map dotOf

/-- Overflow blocks that no chain uses, lowest first. -/
def State.freeBlocks (s : State) (e : Elem) : List Nat :=
  let used := (s.pages e).flatMap (fun q => s.chain (s.vword (e.entry q.2 + 56)).toNat 16)
  ((List.range e.o.ovfn).map (fun i => e.ovf + 64 * i)).filter (fun b => ¬ b ∈ used)

/-- Overflow blocks that a number of dots needs. -/
def blocksFor (n : Nat) : Nat := (n - 6 + 6) / 7

/-- The chain of blocks holding dots seven at a time. -/
def State.putChain (s : State) (blocks : List Nat) (ds : List Dot) : State :=
  match blocks with
  | [] => s
  | b :: rest =>
    let ws := (ds.take 7).map Dot.word
    let ws := ws ++ List.replicate (7 - ws.length) (0 : Word) ++ [BitVec.ofNat 64 (rest.headD 0)]
    (s.vput b (ws.flatMap (fun w => bytesOf 8 w.toNat))).putChain rest (ds.drop 7)

/-- Entry j written with a page and its dots (R302); none when the overflow area has no room. -/
def State.setEntry (s : State) (e : Elem) (j p : Nat) (ds : List Dot) : Option State :=
  let own := s.chain (s.vword (e.entry j + 56)).toNat 16
  let need := if ds.length ≤ 6 then 0 else blocksFor ds.length
  let free := if (s.page e j).isSome then own ++ s.freeBlocks e else s.freeBlocks e
  if free.length < need then none
  else
    let blocks := free.take need
    let inl := (ds.take 6).map Dot.word
    let ws : List Word := [BitVec.ofNat 64 (min 6 ds.length * 2 ^ 37 + 2 ^ 32 + p)] ++ inl ++
      List.replicate (6 - inl.length) 0 ++ [BitVec.ofNat 64 (blocks.headD 0)]
    some ((s.vput (e.entry j) (ws.flatMap (fun w => bytesOf 8 w.toNat))).putChain blocks (ds.drop 6))

/-- Entry j made empty. -/
def State.clearEntry (s : State) (e : Elem) (j : Nat) : State :=
  s.vput (e.entry j) (List.replicate 64 0)

/-- Later entries of a probe run move back over the hole at i (R308). -/
def State.closeGap (s : State) (e : Elem) (i j fuel : Nat) : State :=
  match fuel with
  | 0 => s.clearEntry e i
  | n + 1 =>
    let j := (j + 1) % e.o.cap
    match s.page e j with
    | none => s.clearEntry e i
    | some q =>
      let h := homeIndex e.o q
      let c := e.o.cap
      -- the entry at j stays when its home lies cyclically after the hole and at or before j
      if (h + c - i - 1) % c < (j + c - i) % c then s.closeGap e i j n
      else (s.vput (e.entry i) (s.vbytes (e.entry j) 64)).closeGap e j j n

/-- Deletion of a page (R308). -/
def State.deletePage (s : State) (e : Elem) (p : Nat) : State :=
  match s.findPage e p with
  | some j => s.closeGap e j j e.o.cap
  | none => s

/-- A page's dots set, the page inserted if absent; none when the table or the overflow area has no room (R308, R314). -/
def State.putPage (s : State) (e : Elem) (p : Nat) (ds : List Dot) : Option State :=
  match s.probe e p (homeIndex e.o p) e.o.cap with
  | some (j, true) => s.setEntry e j p ds
  | some (j, false) => if (s.pages e).length ≥ e.o.cap - 1 then none else s.setEntry e j p ds
  | none => none

/-- The shipping unit of a page (R302). -/
def pageUnit (o : Sot) (p : Nat) : Nat := homeIndex o p / (o.tsz / 64)

/-- Address of VV[r]. -/
def Elem.vv (e : Elem) (r : Nat) : Nat := e.lbase + 64 * e.o.cap + 8 * r

/-- What a local update did: the state, and whether it failed for want of room (R308). -/
structure Updated where
  s : State
  full : Bool := false

/-- The local update of an update instruction (R308), by its MN: 0 RADD, 1 RMAX, 2 RLWW, 3 RSADD, 4 RSREM, 6 RMEAN. -/
def State.localUpdate (s : State) (e : Elem) (member : Nat) (x : Word) (src : List Byte) : Updated :=
  let o := e.o
  let E := o.esize
  let i := e.off / E
  let t := e.off / o.tsz
  match member with
  | 0 =>
    let a := e.lbase + e.self * o.image + i * E
    let v := o.addElem (s.vnum a E) (x.toNat % 2 ^ (8 * E))
    let va := e.lbase + o.n * o.image + 8 * (e.self * o.tiles + t)
    ⟨((s.vput a (bytesOf E v)).vputWord va (s.vword va + 1)).bumpCsn e (e.self * o.tiles + t), false⟩
  | 1 =>
    let a := e.lbase + i * E
    ⟨(s.vput a (bytesOf E (largerElem o.efmt (s.vnum a E) (x.toNat % 2 ^ (8 * E))))).bumpCsn e t, false⟩
  | 2 =>
    let (h, s) := s.hlcNow (s.elemHome e) 0
    let s := (s.vput (e.lbase + t * o.tsz) src).vputWord (e.lbase + o.tiles * o.tsz + 16 * t) h
    ⟨(s.vputWord (e.lbase + o.tiles * o.tsz + 16 * t + 8) (s.memberId o e.self)).bumpCsn e t, false⟩
  | 3 =>
    let p := x.toNat % 2 ^ 32
    let k := s.vword (e.vv e.self) + 1
    match s.putPage e p [⟨e.self, k.toNat % 2 ^ 40⟩] with
    | some s' => ⟨(s'.vputWord (e.vv e.self) k).bumpCsn e (pageUnit o p), false⟩
    | none => ⟨s, true⟩
  | 4 =>
    let p := x.toNat % 2 ^ 32
    ⟨(s.deletePage e p).bumpCsn e (pageUnit o p), false⟩
  | _ =>
    let a := e.lbase + 16 * (e.self * o.nelem + i)
    let sum := (fadd F64 .rne (s.vnum (a + 8) 8) x.toNat).1
    ⟨((s.vputWord a (s.vword a + 1)).vput (a + 8) (bytesOf 8 sum)).bumpCsn e (e.self * o.tiles + t), false⟩

/-- Insertion into an ascending list. -/
def insertSorted (x : Nat) (l : List Nat) : List Nat :=
  match l with
  | [] => [x]
  | y :: r => if x ≤ y then x :: y :: r else y :: insertSorted x r

/-- Element i of a value view, with the NV of a zero count (R85, R311). -/
def State.valueElem (s : State) (e : Elem) (i : Nat) : Nat × Flags :=
  let o := e.o
  let E := o.esize
  match o.ty with
  | .pcsum =>
    let x := fun m => s.vnum (e.lbase + m * o.image + i * E) E
    (((List.range (o.n - 1)).map (· + 1)).foldl (fun v m => o.addElem v (x m)) (x 0), 0#5)
  | .maxr => (s.vnum (e.lbase + i * E) E, 0#5)
  | .lwwt => (s.vnum (e.lbase + i) 1, 0#5)
  | .awset =>
    let ps := (s.pages e).foldl (fun l q => insertSorted q.1 l) []
    (nth ps i 0xFFFFFFFF, 0#5)
  | .cmean =>
    let a := fun m => e.lbase + 16 * (m * o.nelem + i)
    let sum := ((List.range (o.n - 1)).map (· + 1)).foldl (fun v m => (fadd F64 .rne v (s.vnum (a m + 8) 8)).1)
      (s.vnum (a 0 + 8) 8)
    let cnt := total ((List.range o.n).map (fun m => s.vnum (a m) 8)) % 2 ^ 64
    if cnt = 0 then (0, flagNV)
    else (((divVals F64 .rne (unpack F64 sum) (.fin false cnt 0))).1, 0#5)

/-- n bytes of a value view from an offset of the image, with flags (R311). -/
def State.valueBytes (s : State) (e : Elem) (n : Nat) : List Byte × Flags :=
  let E := e.o.esize
  (List.range n).foldl (fun acc i =>
    let off := e.off + i
    let (v, fl) := s.valueElem e (off / E)
    (acc.1 ++ [BitVec.ofNat 8 (v / 2 ^ (8 * (off % E)))], acc.2 ||| fl)) ([], 0#5)

/-- The entries that probing for a page visits (R308). -/
def State.probeRun (s : State) (e : Elem) (p h fuel : Nat) : List Nat :=
  match fuel with
  | 0 => []
  | k + 1 =>
    let j := h % e.o.cap
    j :: (match s.page e j with
      | none => []
      | some q => if q = p then [] else s.probeRun e p (h + 1) k)

/-- The entries of a probe run from index j on, to the first without USED (R308). -/
def State.restOfRun (s : State) (e : Elem) (j fuel : Nat) : List Nat :=
  match fuel with
  | 0 => []
  | k + 1 => if (s.page e (j % e.o.cap)).isNone then [j % e.o.cap] else (j % e.o.cap) :: s.restOfRun e (j + 1) k

/-- State, as addresses and lengths, that a search of a set for a page reads: word 0 of each entry of its probe run. -/
def State.runRanges (s : State) (e : Elem) (p : Nat) : List (Nat × Nat) :=
  (s.probeRun e p (homeIndex e.o p) e.o.cap).map (fun j => (e.entry j, 8))

/-- State that an element's value is computed from (R311). -/
def State.valueRanges (_s : State) (e : Elem) : List (Nat × Nat) :=
  let o := e.o
  let E := o.esize
  let i := e.off / E
  match o.ty with
  | .pcsum => (List.range o.n).map (fun m => (e.lbase + m * o.image + i * E, E))
  | .maxr => [(e.lbase + i * E, E)]
  | .lwwt => [(e.lbase + i, 1)]
  | .awset => (List.range o.cap).map (fun j => (e.entry j, 8))
  | .cmean => (List.range o.n).map (fun m => (e.lbase + 16 * (m * o.nelem + i), 16))

/-- The entry of page p with its chain of dots, where the table has one; with the rest of its run where a deletion moves it
(R308, R314). -/
def State.pageRanges (s : State) (e : Elem) (p : Nat) (rest : Bool) : List (Nat × Nat) :=
  match s.findPage e p with
  | none => []
  | some j =>
    ((if rest then s.restOfRun e j e.o.cap else [j]).map (fun j => (e.entry j, 64))) ++
      (s.chain (s.vword (e.entry j + 56)).toNat 16).map (fun b => (b, 64))

/-- State that a local update finds, by its MN: what it reads, and the words that it counts up (R305, R308, R324). RLWW reads
neither its tile nor its stamp (DEDUCED, log 39). -/
def State.updateRanges (s : State) (e : Elem) (member : Nat) (x : Word) : List (Nat × Nat) :=
  let o := e.o
  let E := o.esize
  let i := e.off / E
  let t := e.off / o.tsz
  let p := x.toNat % 2 ^ 32
  let unit := match o.ty with
    | .pcsum => e.self * o.tiles + t
    | .cmean => e.self * o.tiles + t
    | .awset => homeIndex o p / (o.tsz / 64)
    | _ => t
  [(e.csn, 8), (e.unitCsn unit, 8)] ++
  (match member with
   | 0 => [(e.lbase + e.self * o.image + i * E, E), (e.lbase + o.n * o.image + 8 * (e.self * o.tiles + t), 8)]
   | 1 => [(e.lbase + i * E, E)]
   | 2 => []
   | 3 => s.runRanges e p ++ s.pageRanges e p false ++ [(e.lbase + 64 * o.cap + 8 * e.self, 8)]
   | 4 => s.runRanges e p ++ s.pageRanges e p true
   | _ => [(e.lbase + 16 * (e.self * o.nelem + i), 16)])

/-- The STATE of member m in a replica's view (R319): 0 LIVE, 1 ABSENT, 2 REJOINING. -/
def State.memberState (s : State) (e : Elem) (m : Nat) : Nat := bits (s.vword (e.member m)) 1 0

/-- F[c] recomputed over the LIVE members and self (R319). -/
def State.recomputeFront (s : State) (e : Elem) (c : Nat) : State :=
  let live := (List.range e.o.n).filter (fun m => m = e.self ∨ s.memberState e m = 0)
  let least := live.foldl (fun acc m => min acc (s.vword (e.hv m c)).toNat) (2 ^ 64 - 1)
  if least > (s.vword (e.front c)).toNat then s.vputWord (e.front c) (BitVec.ofNat 64 least) else s

/-- F recomputed for every contributor (R319). -/
def State.recomputeF (s : State) (e : Elem) : State :=
  (List.range e.o.n).foldl (fun s c => s.recomputeFront e c) s

/-- A change of member m's state: VIEW rises by 1, and F is recomputed (R319, R320); the order of the cuts of one that is gone
starts afresh (DESIGN CHOICE, log 37). -/
def State.setMember (s : State) (e : Elem) (m st : Nat) : State :=
  let w := setBits (s.vword (e.member m)) 1 0 st
  let s := ((s.vputWord (e.member m) w).vputWord e.view (s.vword e.view + 1)).recomputeF e
  if st = 1 then s.modReplica e.o.x e.d (fun r => { r with order := r.order.filter (fun q => decide (q.1 ≠ m)) }) else s

/-- The larger of a word and what stands at an address. -/
def State.raiseWord (s : State) (va : Nat) (x : Word) : State := if x.toNat > (s.vword va).toNat then s.vputWord va x else s

/-- AS[self]: the largest number below which every update has been performed (R304); it only rises (R319). `pending` are
numbers taken. F is not recomputed by it: that follows a marker or a change of a member's state (R319). -/
def State.raiseAs (s : State) (e : Elem) (pending : List Nat) : State :=
  let u := pending.foldl (fun acc n => min acc (n - 1)) (s.vword e.usn).toNat
  s.raiseWord (e.hv e.self e.self) (BitVec.ofNat 64 u)

/-- The object digest's CRC-32 (R300): one byte. -/
def crcByte (c b : Nat) : Nat :=
  (List.range 8).foldl (fun c _ => if c % 2 = 1 then c / 2 ^^^ 0xEDB88320 else c / 2) (c ^^^ b)

/-- CRC-32 of bytes (R300, R327). -/
def crc32 (bs : List Byte) : Nat := (bs.foldl (fun c b => crcByte c b.toNat) 0xFFFFFFFF) ^^^ 0xFFFFFFFF

/-- The object digest (R300). -/
def State.digest (s : State) (o : Sot) : Nat :=
  crc32 ((o.w0 :: o.w3 :: (List.range 64).map (fun m => s.memberId o m)).flatMap (fun w => bytesOf 8 w.toNat))

/-- Checks 2 to 7 of R188 on an address that forms an access of `size` bytes; a read of a value view is resolved in its
object's entry, and its home is that of the update view (R299, R301). -/
def State.locate' (s : State) (w : Who) (u : For) (a : Word) (size : Nat) : Except TrapRec Loc :=
  match s.placeAt w u a size with
  | .error e => .error e
  | .ok l =>
    if l.kind ≠ 3 ∨ (u ≠ .load ∧ u ≠ .copyRead) then .ok l
    else
      match s.sot l.sotx with
      | none => .error ⟨cUNAVAILABLE, a⟩
      | some o =>
        match resolve o false a.toNat with
        | none => .error ⟨cVIEW, a⟩
        | some e => .ok { l with home := s.elemHome e }

/-- The entry of a view page that an access uses is checked (R299). -/
def State.noteUse (s : State) (l : Loc) : State := if l.kind = 3 then s.noteSot l.sotx else s

/-- The entry that made a read of a value view UNAVAILABLE is counted (R299). -/
def State.noteEntry (s : State) (w : Who) (r : TrapRec) : State :=
  if r.code ≠ cUNAVAILABLE then s
  else
    match s.placeAt w .load r.tval 1 with
    | .ok l => s.noteUse l
    | .error _ => s

/-- The checks of R188 in their order, and the place where the access is performed. -/
def State.locate (s : State) (w : Who) (u : For) (a : Word) (size : Nat) : Except TrapRec Loc :=
  if a.toNat % size ≠ 0 then .error ⟨cMISALIGNED, a⟩ else s.locate' w u a size

/-- Every byte of n from a, checked one after the other: the first fault (R234, R274). -/
def State.locateBytes (s : State) (w : Who) (u : For) (a : Word) (n : Nat) : Except TrapRec (List Loc) :=
  (List.range n).foldl (fun acc i =>
    match acc with
    | .error e => .error e
    | .ok l =>
      match s.locate' w u (a + BitVec.ofNat 64 i) 1 with
      | .error e => .error e
      | .ok p => .ok (l ++ [p])) (.ok [])

end Sys2Proof.Machine
end

