-- ==== Sys2Proof/Machine/Stage.lean ====
section
/-! DEFINITION. Pipelines: stage queues, items, the end of a stage's input (R51 to R54, R245, R246). -/
namespace Sys2Proof.Machine

/-- Fields of the launch block's words (R37). -/
def Launch.w (l : Launch) (i : Nat) : Word := nth l.words i 0
def Launch.kind (l : Launch) : Nat := bits (l.w 0) 3 0
def Launch.queue (l : Launch) : Nat := bits (l.w 0) 7 4
def Launch.steal (l : Launch) : Nat := bits (l.w 0) 10 8
def Launch.slots (l : Launch) : Nat := bits (l.w 0) 14 11
def Launch.resid (l : Launch) : Nat := bits (l.w 0) 18 15
def Launch.role (l : Launch) : Role :=
  match bits (l.w 0) 20 19 with
  | 1 => .access
  | 2 => .execute
  | _ => .general
def Launch.mt (l : Launch) : Bool := bitAt (l.w 0) 21
def Launch.slen (l : Launch) : Nat := bits (l.w 0) 28 22
def Launch.vlen (l : Launch) : Nat := bits (l.w 0) 34 29
def Launch.bands (l : Launch) : Nat := bits (l.w 0) 40 35
def Launch.cmpl (l : Launch) : Nat := bits (l.w 0) 44 41
def Launch.cgroup (l : Launch) : Nat := bits (l.w 0) 52 45
def Launch.entry (l : Launch) : Word := l.w 1
def Launch.count (l : Launch) : Nat := (l.w 3).toNat
def Launch.bar0 (l : Launch) : Nat := bits (l.w 5) 15 0
def Launch.barn (l : Launch) : Nat := bits (l.w 5) 31 16
def Launch.pipeline (l : Launch) : Bool := decide (l.kind = 2)

/-- Is core c in the core set (R37). -/
def Launch.hasCore (l : Launch) (c : Nat) : Bool :=
  bitAt (l.w 2) (c / 256) && bitAt (l.w 2) (16 + c / 8 % 32) && bitAt (l.w 2) (8 + c % 8) && decide (c < 2048)

/-- The core set in ascending LCN. -/
def Launch.cores (l : Launch) : List Nat := (List.range 2048).filter l.hasCore

/-- Threads of a launch that are not EXITED. -/
def State.threadsOf (s : State) (n : Nat) : List (Nat × Thread) := s.live.filter (fun e => e.2.lnum = n)

/-- PUSH items of a stage not yet put (R269): operations of its threads with ACT = PUSH of KIND 0. -/
def State.pushHeld (s : State) (n stage : Nat) : Bool :=
  s.cores.any (fun e => (e.2.eng0 ++ e.2.eng1).any (fun op =>
    decide (op.lnum = n) && op.fault.isNone &&
    decide (bits (nth op.fields 9 0) 7 4 = 4 ∧ bits (nth op.fields 10 0) 63 62 = 0 ∧ op.stage = stage)))

/-- Items given back by waits that were withdrawn, in the order of delivery: they are delivered first (R90). -/
def StageQueue.returned (q : StageQueue) : List Item := (q.taken.filter (fun e => ! e.2)).map (fun e => e.1)

/-- Numbers given back by waits that were withdrawn: they are drawn first (R90). -/
def Launch.returned (l : Launch) : List Nat := (l.taken.filter (fun e => ! e.2)).map (fun e => e.1)

/-- Items that a queue holds (R53): one in reserve for a thread, or given back, is not yet dequeued and keeps its place. -/
def StageQueue.held (q : StageQueue) : Nat := q.items.length + q.taken.length

/-- Is an item of its input held in reserve for a waiting thread (R90). -/
def Thread.itemInReserve (t : Thread) : Bool :=
  t.wait.any (fun w => w.grip.any (fun g =>
    match g with
    | .item .. => true
    | _ => false))

/-- Does a stage hold an item (R54, R269). -/
def State.stageHolds (s : State) (n stage : Nat) : Bool :=
  (s.threadsOf n).any (fun e => decide (e.2.stage = stage) && (e.2.item.isSome || e.2.itemInReserve)) || s.pushHeld n stage

/-- The stages of a launch that have finished, found from those whose input needs no other (R54). -/
def State.finishedFrom (s : State) (n : Nat) (l : Launch) (fuel : Nat) (done : List Nat) : List Nat :=
  match fuel with
  | 0 => done
  | k + 1 =>
    let fin := (List.range l.stages.length).filter (fun i =>
      let st := nth l.stages i ⟨0, 127, 127, 127, .general, .anchored, 0, 0, 0, 0, 0, 0, 0, 0, 0, 0, 0⟩
      let atEnd :=
        if i = 0 then decide (l.drawn ≥ l.count) && l.returned.isEmpty
        else
          let q := nth l.queues st.inq { home := 0, ordered := false, cap := 0 }
          q.items.all (fun it => decide (it.handle = 0)) && q.returned.isEmpty &&
          (List.range l.stages.length).all (fun j =>
            let u := nth l.stages j st
            decide (u.outa ≠ st.inq ∧ u.outb ≠ st.inq) || decide (j ∈ done))
      atEnd && !s.stageHolds n i)
    s.finishedFrom n l k fin

/-- The finished stages of launch n. -/
def State.finishedStages (s : State) (n : Nat) (l : Launch) : List Nat := s.finishedFrom n l 9 []

/-- Has every stage that outputs to queue q finished. -/
def State.upstreamDone (s : State) (n : Nat) (l : Launch) (q : Nat) : Bool :=
  let done := s.finishedStages n l
  (List.range l.stages.length).all (fun j =>
    match l.stages[j]? with
    | some u => decide (u.outa ≠ q ∧ u.outb ≠ q) || decide (j ∈ done)
    | none => true)

/-- Distance of a sequence number from the next undelivered one, modulo 2^32 (R246). -/
def seqDist (next q : Nat) : Nat := (q + 2 ^ 32 - next % 2 ^ 32) % 2 ^ 32

/-- The next undelivered sequence number of an ordered queue (R53): the oldest in reserve or given back, if any is. -/
def StageQueue.start (q : StageQueue) : Nat :=
  (q.next + 2 ^ 32 - (q.taken.map (fun e => seqDist e.1.seq.toNat q.next)).foldl max 0) % 2 ^ 32

/-- The held item nearest to the next undelivered number. -/
def nearest (next : Nat) (l : List Item) : Option Item :=
  l.foldl (fun acc it =>
    match acc with
    | none => some it
    | some b => if seqDist next it.seq.toNat < seqDist next b.seq.toNat then some it else some b) none

/-- An ordered queue that has passed the numbers filled with handle 0 (R53). -/
def passEmpty (fuel : Nat) (q : StageQueue) : StageQueue :=
  match fuel with
  | 0 => q
  | k + 1 =>
    match q.items.find? (fun it => decide (it.handle = 0 ∧ it.seq.toNat = q.next % 2 ^ 32)) with
    | some it => passEmpty k { q with items := q.items.filter (fun x => x ≠ it), next := (q.next + 1) % 2 ^ 32 }
    | none => q

/-- The item that a queue would deliver now (R53), given whether every stage above it has finished. -/
def deliverable (q : StageQueue) (upDone : Bool) : Option Item :=
  if ¬ q.returned.isEmpty then q.returned.head?
  else if ¬ q.ordered then q.items.head?
  else
    match q.items.find? (fun it => decide (it.seq.toNat = q.next % 2 ^ 32)) with
    | some it => some it
    | none => if upDone then nearest q.next (q.items.filter (fun it => it.handle ≠ 0)) else none

/-- The queue after it delivers an item. -/
def delivered (q : StageQueue) (it : Item) : StageQueue :=
  if ¬ q.returned.isEmpty then { q with taken := q.taken.eraseP (fun e => ! e.2) }
  else if ¬ q.ordered then { q with items := q.items.drop 1 }
  else passEmpty q.cap { q with items := q.items.filter (fun x => x ≠ it), next := (it.seq.toNat + 1) % 2 ^ 32 }

/-- The queue after an item that it would deliver is taken into reserve (R90): it keeps its place. -/
def reserveItem (q : StageQueue) (it : Item) : StageQueue :=
  match q.returned with
  | _ :: _ => { q with taken := modify q.taken (q.taken.findIdx (fun e => ! e.2)) (fun e => (e.1, true)) }
  | [] => { delivered q it with taken := q.taken ++ [(it, true)] }

/-- The queue after an item in reserve is given back (R90). -/
def restoreItem (q : StageQueue) (it : Item) : StageQueue :=
  { q with taken := modify q.taken (q.taken.findIdx (fun e => decide (e = (it, true)))) (fun e => (e.1, false)) }

/-- What an ITEMGET finds (R245): an item, the end of the input, or nothing yet. -/
inductive Input where
  | item (it : Item) (l : Launch)
  | atEnd
  | nothing

/-- The input of a stage of launch n (R53, R54, R245): the item and the launch after it is taken. -/
def State.inputOf (s : State) (n : Nat) (l : Launch) (stage : Nat) : Input :=
  if stage = 0 then
    match l.returned with
    | i :: _ => .item ⟨BitVec.ofNat 64 i, BitVec.ofNat 32 i⟩ { l with taken := l.taken.eraseP (fun e => ! e.2) }
    | [] =>
      if l.drawn < l.count then
        .item ⟨BitVec.ofNat 64 l.drawn, BitVec.ofNat 32 l.drawn⟩ { l with drawn := l.drawn + 1 }
      else .atEnd
  else
    match l.stages[stage]? with
    | none => .atEnd
    | some st =>
      match l.queues[st.inq]? with
      | none => .atEnd
      | some q =>
        let up := s.upstreamDone n l st.inq
        match deliverable q up with
        | some it => .item it { l with queues := modify l.queues st.inq (fun _ => delivered q it) }
        | none => if up then .atEnd else .nothing

/-- A launch after the item that its stage would take is taken into reserve (R90): its number in the queue, none at stage 0. -/
def Launch.reserve (l : Launch) (stage : Nat) (it : Item) : Option Nat × Launch :=
  if stage = 0 then
    (none, if l.returned.isEmpty then { l with drawn := l.drawn + 1, taken := l.taken ++ [(it.handle.toNat, true)] }
      else { l with taken := modify l.taken (l.taken.findIdx (fun e => ! e.2)) (fun e => (e.1, true)) })
  else
    let q := ((l.stages[stage]?).map (fun st => st.inq)).getD 0
    (some q, { l with queues := modify l.queues q (fun u => reserveItem u it) })

/-- What an offer to a queue meets (R53, R246): accepted, room to wait for, or STAGE. -/
inductive Offer where
  | accepted (q : StageQueue)
  | wait
  | stage
  deriving DecidableEq

/-- An item offered to a queue (R246). A number held in reserve for a put to come counts as held (DESIGN CHOICE, log 24). -/
def offer (q : StageQueue) (it : Item) : Offer :=
  if ¬ q.ordered then
    if q.cap ≤ q.held + q.reserved then .wait
    else if it.handle = 0 then .accepted q else .accepted { q with items := q.items ++ [it] }
  else
    let δ := seqDist q.next it.seq.toNat
    if δ ≥ 2 ^ 31 ∨ q.items.any (fun x => decide (x.seq = it.seq)) ∨ it.seq ∈ q.claimed then .stage
    else if seqDist q.start it.seq.toNat < q.cap then .accepted (passEmpty (q.cap + 1) { q with items := q.items ++ [it] })
    else .wait

/-- The number of the output queue that a thread's stage names (R51): OUTA or OUTB; none for 127. -/
def Launch.output (l : Launch) (stage : Nat) (second : Bool) : Option Nat :=
  match l.stages[stage]? with
  | none => none
  | some st => let q := if second then st.outb else st.outa; if q = 127 then none else some q

end Sys2Proof.Machine
end

