-- ==== Sys2Proof/Machine/Operands.lean ====
section
/-! DEFINITION. Operand forms: reading and writing scalar fields (R87 to R90, R129, R240), channel heads and stream
registers, settlement of deferred results (R32 to R34), and the retirement of an instruction. -/
namespace Sys2Proof.Machine

/-- Fields of a binding descriptor (R236). -/
def headKind (h : Word) : Nat := bits h 31 29
def headWide (h : Word) : Bool := bitAt h 28
def headScope (h : Word) : Nat := bits h 27 25
def headSecond (h : Word) : Bool := bitAt h 15
def headNum (h : Word) : Nat := bits h 14 11
def headLcn (h : Word) : Nat := bits h 10 0

/-- The descriptor of head i (0 to 7) of a thread. -/
def Thread.headOf (t : Thread) (i : Nat) : Word := nth t.heads i 0

/-- Is access id issued and not yet performed. -/
def State.pending (s : State) (id : Nat) : Bool := s.accs.any (fun a => a.id = id)

/-- Those of a list that are not yet performed. -/
def State.stillPending (s : State) (ids : List Nat) : List Nat := ids.filter s.pending

/-- The accounting of accesses passes to a thread (R224). -/
def State.passAccounting (s : State) (tid : Nat) (ids : List Nat) : State :=
  { s with accs := s.accs.map (fun a => if a.id ∈ ids then { a with tid := tid } else a) }

/-- The lines that directory-overflow handlers serve, from the request of their start to their end (R185). -/
def State.heldLines (s : State) : List Nat :=
  s.live.filterMap (fun e => match e.2.job with
    | some (.directory m) => some m
    | _ => none) ++
  s.cores.flatMap (fun e => e.2.slots.flatMap (fun j => j.starts.filterMap (fun h => match h with
    | .directory m => some m
    | _ => none)))

/-- Does a directory-overflow handler serve the line of a byte (R185): its home holds every access back. -/
def State.lineHeld (s : State) (key : Nat) : Bool := decide (key / 128 ∈ s.heldLines)

/-- One entry dequeued through a scalar source field (R87, R240): the value and the state after it; none where it must
wait. Fields that name no head or stream register read as R129 states. An element in a poisoned atom reads as the bytes it
holds (DESIGN CHOICE, log 74). -/
def State.readField (s : State) (tid : Nat) (f : Nat) : Option (Word × State) :=
  match s.thread tid with
  | none => some (0, s)
  | some t =>
    if f ≤ 111 then some (t.xr f, s)
    else if f ≤ 119 then
      let h := t.headOf (f - 112)
      match headKind h with
      | 1 =>
        match (nth (s.core t.core).chans (headNum h) {}).entries with
        | [] => none
        | e :: r =>
          some (e.truncate 64, s.modCore t.core (fun k =>
            { k with chans := modify k.chans (headNum h) (fun c => { c with entries := r }) }))
      | 3 =>
        match (nth (s.core t.core).inboxes (headNum h) {}).words with
        | [] => none
        | e :: r =>
          let s := s.modCore t.core (fun k =>
            { k with inboxes := modify k.inboxes (headNum h) (fun b => { b with words := r }) })
          let s := s.modThread tid (fun t => t.modCsr (fun c => { c with ts := setBits c.ts 0 0 (if e.last then 1 else 0) }))
          some (e.word, s.passAccounting tid e.acct)
      | 5 =>
        match s.launchOf t.lnum with
        | none => some (0, s)
        | some l =>
          match (s.setThread tid { t with item := none }).inputOf t.lnum l t.stage with
          | .nothing => none
          | .atEnd =>
            some (0, s.setThread tid { (t.modCsr (fun c => { c with ts := setBits c.ts 1 1 1 })) with item := none })
          | .item it l' => some (it.handle, (s.setLaunch t.lnum l').setThread tid { t with item := some it })
      | _ => none
    else if f ≤ 123 then
      match nth t.streams (f - 120) none with
      | none => none
      | some r =>
        let elem := (r.elems.drop (8 * r.next)).take 8
        if elem.length < 8 ∨ elem.any (fun b => s.pending b.1 || s.lineHeld b.2) then none
        else
          let r' := { r with next := r.next + 1 }
          let rows := (s.core t.core).eng0.any (fun o => decide (o.xid = r.xid) && s.accs.any (fun a =>
            decide (a.id ∈ o.pending) && (match a.op with
              | .row .. => true
              | .split .. => true
              | _ => false)))
          let v := if r'.next ≥ r.total ∧ ¬ rows then none else some r'
          some (BitVec.ofNat 64 (ofBytes (elem.map (fun b => s.rdByte b.2))),
            s.setThread tid { t with streams := modify t.streams (f - 120) (fun _ => v) })
    else if f = 125 then some (t.tidWord, s)
    else if f = 126 then some (t.pw, s)
    else some (0, s)

/-- Several source fields read in field order (R90 step 2). -/
def State.readFields (s : State) (tid : Nat) (fs : List Nat) : Option (List Word × State) :=
  match fs with
  | [] => some ([], s)
  | f :: r =>
    match s.readField tid f with
    | none => none
    | some (x, s') =>
      match s'.readFields tid r with
      | none => none
      | some (xs, s'') => some (x :: xs, s'')

/-- What is held in reserve goes back where it came from, in front; an item of a stage has kept its place (R53, R90). -/
def State.giveBack (s : State) (g : Taken) : State :=
  let chan := fun (c n : Nat) (f : Chan → Chan) => s.modCore c (fun k => { k with chans := modify k.chans n f })
  let box := fun (c n : Nat) (f : Inbox → Inbox) => s.modCore c (fun k => { k with inboxes := modify k.inboxes n f })
  match g with
  | .entry c n e => chan c n (fun h => { h with entries := e :: h.entries, reserved := h.reserved - 1 })
  | .word c n w => box c n (fun b => { b with words := w :: b.words, reserved := b.reserved - 1 })
  | .item l none it => s.modLaunch l (fun l =>
      { l with taken := modify l.taken (l.taken.findIdx (fun e => decide (e = (it.handle.toNat, true)))) (fun e => (e.1, false)) })
  | .item l (some q) it =>
    s.modLaunch l (fun l => { l with queues := modify l.queues q (fun u => restoreItem u it) })
  | .room c n true k => box c n (fun b => { b with reserved := b.reserved - k })
  | .room c n false k => chan c n (fun h => { h with reserved := h.reserved - k })
  | .place l q => s.modLaunch l (fun l => { l with queues := modify l.queues q (fun u => { u with reserved := u.reserved - 1 }) })
  | .number l q n => s.modLaunch l (fun l =>
      { l with queues := modify l.queues q (fun u => { u with claimed := u.claimed.erase n }) })

/-- Everything that thread tid holds in reserve is given back (R90). -/
def State.dropGrip (s : State) (tid : Nat) : State :=
  match (s.thread tid).bind (fun t => t.wait) with
  | none => s
  | some w =>
    if w.grip.isEmpty ∧ ¬ w.ready then s
    else
      (w.grip.foldr (fun g s => s.giveBack g) s).modThread tid (fun t =>
        { t with wait := t.wait.map (fun w => { w with grip := [], ready := false }) })

/-- The entry that a source field would dequeue now taken into reserve (R90 step 1); nothing for a register, a stream
register, or the end of a stage's input. -/
def State.takeSource (s : State) (tid f : Nat) : List Taken × State :=
  match s.thread tid with
  | none => ([], s)
  | some t =>
    let h := t.headOf (f - 112)
    let n := headNum h
    if f < 112 ∨ f > 119 then ([], s)
    else
      match headKind h with
      | 1 =>
        match (nth (s.core t.core).chans n {}).entries with
        | [] => ([], s)
        | e :: r =>
          ([.entry t.core n e], s.modCore t.core (fun k => { k with chans := modify k.chans n (fun c =>
            { c with entries := r, reserved := c.reserved + 1 }) }))
      | 3 =>
        match (nth (s.core t.core).inboxes n {}).words with
        | [] => ([], s)
        | e :: r =>
          ([.word t.core n e], s.modCore t.core (fun k => { k with inboxes := modify k.inboxes n (fun b =>
            { b with words := r, reserved := b.reserved + 1 }) }))
      | 5 =>
        match s.launchOf t.lnum with
        | none => ([], s)
        | some l =>
          match (s.setThread tid { t with item := none }).inputOf t.lnum l t.stage with
          | .item it _ => let (q, l') := l.reserve t.stage it; ([.item t.lnum q it], s.setLaunch t.lnum l')
          | _ => ([], s)
      | _ => ([], s)

/-- Room for one entry through a destination field held in reserve (R90 step 1), for a stage output by the item that the thread
holds then: a place, or in an ordered queue its number. -/
def State.takeRoom (s : State) (tid : Nat) (item : Option Item) (f : Nat) : List Taken × State :=
  match s.thread tid with
  | none => ([], s)
  | some t =>
    let h := t.headOf (f - 112)
    let n := headNum h
    if f < 112 ∨ f > 119 then ([], s)
    else
      match headKind h with
      | 2 => ([.room t.core n false 1], s.modCore t.core (fun k =>
          { k with chans := modify k.chans n (fun c => { c with reserved := c.reserved + 1 }) }))
      | 4 => ([.room (headLcn h) n true 1], s.modCore (headLcn h) (fun k =>
          { k with inboxes := modify k.inboxes n (fun b => { b with reserved := b.reserved + 1 }) }))
      | 6 =>
        match s.launchOf t.lnum with
        | none => ([], s)
        | some l =>
          match l.output t.stage (headSecond h) with
          | none => ([], s)
          | some q =>
            match l.queues[q]?, item with
            | some u, some it =>
              if ¬ u.ordered then
                ([.place t.lnum q], s.setLaunch t.lnum { l with
                   queues := modify l.queues q (fun u => { u with reserved := u.reserved + 1 }) })
              else if offer u ⟨1, it.seq⟩ = .stage then ([], s)
              else
                ([.number t.lnum q it.seq],
                  s.setLaunch t.lnum { l with queues := modify l.queues q (fun u => { u with claimed := u.claimed ++ [it.seq] }) })
            | _, _ => ([], s)
      | _ => ([], s)

/-- The entries of source fields and the room of destination fields taken into reserve for the wait of thread tid. -/
def State.takeGrip (s : State) (tid : Nat) (srcs dsts : List Nat) (ready : Bool) : State :=
  let step := fun (take : State → Nat → List Taken × State) (acc : List Taken × State) (f : Nat) =>
    let (g, s) := take acc.2 f
    (acc.1 ++ g, s)
  let (g, s) := srcs.foldl (step (fun s f => s.takeSource tid f)) ([], s)
  let item := (g.reverse.findSome? (fun e => match e with
    | .item _ _ it => some it
    | _ => none)).or ((s.thread tid).bind (fun t => t.item))
  let (g, s) := dsts.foldl (step (fun s f => s.takeRoom tid item f)) (g, s)
  s.modThread tid (fun t => { t with wait := t.wait.map (fun w => { w with grip := w.grip ++ g, ready := ready }) })

/-- Entries of a local channel, or words of an inbox, held in reserve for waiting threads: they are not yet dequeued. -/
def State.inReserve (s : State) (c n : Nat) (inbox : Bool) : Nat :=
  total (s.live.map (fun e => ((e.2.wait.map (fun w => w.grip)).getD []).countP (fun g =>
    match g with
    | .entry c' n' _ => ! inbox && decide (c' = c ∧ n' = n)
    | .word c' n' _ => inbox && decide (c' = c ∧ n' = n)
    | _ => false)))

/-- Room for one entry through head i of a thread (R90, R240). -/
def State.headRoom (s : State) (tid i : Nat) (x : Word) : Bool :=
  match s.thread tid with
  | none => false
  | some t =>
    let h := t.headOf i
    match headKind h with
    | 2 => let c := nth (s.core t.core).chans (headNum h) {}; decide (c.entries.length + c.reserved < 64)
    | 4 => let b := nth (s.core (headLcn h)).inboxes (headNum h) {}; decide (b.words.length + b.reserved < 64)
    | 6 =>
      match s.launchOf t.lnum, t.item with
      | some l, some it =>
        match l.output t.stage (headSecond h) with
        | some q =>
          match l.queues[q]? with
          | some q => offer q ⟨x, it.seq⟩ != .wait
          | none => false
        | none => false
      | _, _ => false
    | _ => false

/-- One entry enqueued through head i (R240), into room that is there. -/
def State.enqueue (s : State) (tid i : Nat) (x : Word) : State :=
  match s.thread tid with
  | none => s
  | some t =>
    let h := t.headOf i
    match headKind h with
    | 2 => s.modCore t.core (fun k =>
        { k with chans := modify k.chans (headNum h) (fun c => { c with entries := c.entries ++ [x.zeroExtend 512] }) })
    | 4 => s.modCore (headLcn h) (fun k =>
        { k with inboxes := modify k.inboxes (headNum h) (fun b => { b with words := b.words ++ [⟨x, true, []⟩] }) })
    | 6 =>
      match s.launchOf t.lnum, t.item with
      | some l, some it =>
        match l.output t.stage (headSecond h) with
        | some q =>
          match l.queues[q]? with
          | some u =>
            match offer u ⟨x, it.seq⟩ with
            | .accepted u' => s.setLaunch t.lnum { l with queues := modify l.queues q (fun _ => u') }
            | _ => s
          | none => s
        | none => s
      | _, _ => s
    | _ => s

/-- Wr(f, x) with a taint (R129). -/
def State.writeField (s : State) (tid : Nat) (f : Nat) (x : Word) (taint : Bool) : State :=
  if f ≤ 111 then s.modThread tid (fun t => t.setX f x taint)
  else if f ≤ 119 then s.enqueue tid (f - 112) x
  else if f = 126 then s.modThread tid (fun t => { t with pw := x })
  else s

/-- One settled result written into its thread (R32, R70). -/
def Thread.settleOne (t : Thread) (d : Deferred) : Thread :=
  let t := if d.dest ≤ 111 then t.setX d.dest (d.value.truncate 64) d.taint
    else if d.dest ≥ 128 then t.setV (d.dest - 128) d.value else t
  t.addFlags d.flags

/-- Words at an offset of the context slot that holds a thread, if one does: what comes to a thread while it is SUSPENDED
stands in its saved context (R350, R356) (DEDUCED, log 16). -/
def State.slotPut (s : State) (t : Thread) (off : Nat) (ws : List Word) : State :=
  match t.slotIdx with
  | some i => s.vput (ctxAddr (s.saveBase t.slotCore) i + off) (ws.flatMap (fun w => bytesOf 8 w.toNat))
  | none => s

/-- An asynchronous trap queued for a thread; beyond eight it goes to the error log only (R350). -/
def State.queueTrap (s : State) (tid : Nat) (r : TrapRec) : State :=
  match s.thread tid with
  | none => s
  | some t =>
    if t.traps.length < 8 then
      (s.setThread tid { t with traps := t.traps ++ [r] }).slotPut t (0x628 + 16 * t.traps.length) [BitVec.ofNat 64 r.code, r.tval]
    else
      let p := t.place.getD ⟨t.core, 0, 0⟩
      s.logError 0x0B (unitCore t.core) r.tval (BitVec.ofNat 64 (r.code + (p.slot * 8 + p.pos) * 2 ^ 8))

/-- Every result of thread tid that has returned is written (R32, R34); a poisoned one brings ECC_UNCORRECTABLE (R186). -/
def State.settle (s : State) (tid : Nat) : State :=
  match s.thread tid with
  | none => s
  | some t =>
    let ready := t.outs.filter (fun d => d.waiting.isEmpty)
    let t' := ready.foldl Thread.settleOne { t with outs := t.outs.filter (fun d => !d.waiting.isEmpty) }
    let s := s.setThread tid t'
    let s := (ready.filterMap (fun d => d.full)).foldl (fun s a => s.queueTrap tid ⟨0x16, a⟩) s
    (ready.filterMap (fun d => d.poison)).foldl (fun s a => s.queueTrap tid ⟨0x13, a⟩) s

/-- Have all deferred results of a thread returned. -/
def Thread.allReturned (t : Thread) : Bool := t.outs.all (fun d => d.waiting.isEmpty)

/-- The accesses that a thread's outstanding results wait for. -/
def Thread.outIds (t : Thread) : List Nat := t.outs.flatMap (fun d => d.waiting)

/-- The thread past the instruction just issued: the next word, the next of a repeat frame (R148), or a target. -/
def Thread.advance (t : Thread) (target : Option Word) : Thread :=
  match target with
  | some a => { t with pc := a }
  | none =>
    if ¬ t.inFrame then { t with pc := t.pc + 4 }
    else
      let r := t.csr.repst
      let idx := bits r 18 15
      let pass := bits r 24 19
      if idx < 15 then { (t.modCsr (fun c => { c with repst := setBits r 18 15 (idx + 1) })) with pc := t.pc + 4 }
      else if pass < bits r 30 25 then
        { (t.modCsr (fun c => { c with repst := setBits (setBits r 18 15 0) 24 19 (pass + 1) })) with pc := t.pc - 60 }
      else { (t.modCsr (fun c => { c with repst := setBits r 31 31 0 })) with pc := t.pc + 4, frame := [] }

/-- The end of an issued instruction of thread tid: it is satisfied, the next one stands at pc, and the marker parks the
thread until its results have returned (R32). Events 2 and 4 are counted (R102). -/
def State.retire (s : State) (tid : Nat) (marker : Bool) (target : Option Word) : State :=
  match s.thread tid with
  | none => s
  | some t =>
    let t := { t.advance target with state := .ready, wait := none, hold := [], marked := false }
    let s := { s.setThread tid t with freeN := s.freeN + 1 }
    let s := s.count t.core 2 1
    if ¬ marker then s
    else
      let s := s.count t.core 4 1
      if t.allReturned then s.settle tid else s.modThread tid (fun t => { t with state := .parked })

/-- Part of a deferred result has come back (R32): f changes the result, access id no longer delays it. A parked thread
whose results have all returned is settled; results of a thread that is not READY or BLOCKED settle as they return
(R33, R34). -/
def State.giveResult (s : State) (tid num id : Nat) (f : Deferred → Deferred) : State :=
  match s.thread tid with
  | none => s
  | some t =>
    if t.state = .exited then s
    else
      let t := { t with outs := t.outs.map (fun d =>
        if d.num = num then { f d with waiting := d.waiting.filter (fun i => i ≠ id) } else d) }
      let s := s.setThread tid t
      match t.state with
      | .parked => if t.allReturned then (s.settle tid).modThread tid (fun t => { t with state := .ready }) else s
      | .trapped => s.settle tid
      | .suspended => s.settle tid
      | _ => s

end Sys2Proof.Machine
end

