-- ==== Sys2Proof/Machine/Queues.lean ====
section
/-! DEFINITION. The task queues (R47 to R50): deque, grove queue, die queue and overflow area, spilling upwards in
blocks, and the run queue. A list holds its oldest entry (the top) first. -/
namespace Sys2Proof.Machine

/-- Entries of one launch and one origin core (R47). -/
def State.sameBlock (s : State) (a b : Nat) : Bool :=
  match s.thread a, s.thread b with
  | some t, some u => decide (t.lnum = u.lnum ∧ t.origin = u.origin)
  | _, _ => false

/-- The block that a full level spills: its oldest entry and up to seven more like it, oldest first; and the rest. -/
def State.spillBlock (s : State) (l : List Nat) : List Nat × List Nat :=
  match l with
  | [] => ([], [])
  | a :: r =>
    let more := (r.filter (s.sameBlock a)).take 7
    (a :: more, r.filter (fun x => ¬ x ∈ more))

/-- Die queue d spills blocks until n more entries fit: also where it is not full but has too few free entries for the
block that comes (R47) (DESIGN CHOICE, log 14). -/
def State.roomDie (s : State) (d n fuel : Nat) : State :=
  match fuel with
  | 0 => s
  | k + 1 =>
    let q := (look s.dieQ d).getD []
    if q.length + n ≤ 4096 then s
    else
      let (up, rest) := s.spillBlock q
      ({ s with overflow := s.overflow ++ up, dieQ := put s.dieQ d rest }).roomDie d n k

/-- A block pushed on the bottom of the die queue of die d (R47). -/
def State.pushDie (s : State) (d : Nat) (b : List Nat) : State :=
  let s := s.roomDie d b.length 8
  { s with dieQ := put s.dieQ d ((look s.dieQ d).getD [] ++ b) }

/-- Grove queue g spills blocks until n more entries fit: also where it is not full but has too few free entries for the
block that comes (R47) (DESIGN CHOICE, log 14). -/
def State.roomGrove (s : State) (g n fuel : Nat) : State :=
  match fuel with
  | 0 => s
  | k + 1 =>
    let q := (look s.groveQ g).getD []
    if q.length + n ≤ 512 then s
    else
      let (up, rest) := s.spillBlock q
      (({ s with groveQ := put s.groveQ g rest }).pushDie (g / 32) up).roomGrove g n k

/-- A block pushed on the bottom of the grove queue of grove g. -/
def State.pushGrove (s : State) (g : Nat) (b : List Nat) : State :=
  let s := s.roomGrove g b.length 8
  { s with groveQ := put s.groveQ g ((look s.groveQ g).getD [] ++ b) }

/-- An MT pushed on the bottom of core c's deque; a full one spills first (R47). -/
def State.pushDeque (s : State) (c tid : Nat) : State :=
  let q := (s.core c).deque
  if q.length < 64 then s.modCore c (fun k => { k with deque := k.deque ++ [tid] })
  else
    let (up, rest) := s.spillBlock q
    (s.modCore c (fun k => { k with deque := rest ++ [tid] })).pushGrove (groveOf c) up

/-- An MT that joins core c's run queue, or its deque when that is full (R49). -/
def State.pushRun (s : State) (c tid : Nat) : State :=
  if (s.core c).runq.length < 64 then s.modCore c (fun k => { k with runq := k.runq ++ [tid] })
  else s.pushDeque c tid

end Sys2Proof.Machine
end

