-- ==== Sys2Proof/Machine/Home.lean ====
section
/-! DEFINITION. Accesses: how one is issued with the accesses that are ordered before it (R206 to R216), and what its
home does when it is performed (R182, R186, R187, R195 to R203), with the waiters (R203) and watch entries (R274) that a
write wakes. -/
namespace Sys2Proof.Machine

/-- A handler start queued for position 7 of a slot (R25). -/
def State.queueHandler (s : State) (c j : Nat) (h : HandlerFor) : State :=
  s.modSlot c j (fun q => { q with starts := q.starts ++ [h] })

/-- Has the line of a byte overflowed sharers that no write has yet begun to invalidate (R185). -/
def State.lineShared (s : State) (key : Nat) : Bool := decide (look s.overflowed (key / 128) = some false)

/-- A write of a line with overflowed sharers starts the handler that invalidates them, at slot PA[9:7] of the home core
(R185). -/
def State.invalidate (s : State) (key home : Nat) : State :=
  if s.lineShared key then
    ({ s with overflowed := put s.overflowed (key / 128) true }).queueHandler (home % 4096) (key / 128 % 8) (.directory (key / 128))
  else s

/-- An access of the part at the line of a byte (R185): it waits while a handler serves the line, and a write of a line with
overflowed sharers first starts that handler and is complete after its end (DEDUCED, log 60). -/
def State.atLine (s : State) (key home : Nat) (write : Bool) (go : Option State) : Option State :=
  if s.lineHeld key then none else if write && s.lineShared key then some (s.invalidate key home) else go

/-- The same for an access of the part that reads some bytes and writes at some places. -/
def State.atLines (s : State) (reads : List Nat) (writes : List Loc) (go : Option State) : Option State :=
  if reads.any s.lineHeld || writes.any (fun l => s.lineHeld l.key) then none
  else
    match writes.find? (fun l => s.lineShared l.key) with
    | some l => some (s.invalidate l.key l.home)
    | none => go

/-- A read whose value is not yet bound (R206). A reduction without result counts as a write. -/
def AccOp.isRead (o : AccOp) : Bool :=
  match o with
  | .load .. => true
  | .rmw _ _ _ _ r => r.isSome
  | .replica .. => true
  | .frontier .. => true
  | .arm .. => true
  | .mxrd .. => true
  | _ => false

/-- A write (R206, R213). -/
def AccOp.isWrite (o : AccOp) : Bool :=
  match o with
  | .load .. => false
  | .frontier .. => false
  | .arm .. => false
  | .mxrd .. => false
  | _ => true

/-- Bytes an access reaches. -/
def AccOp.size (o : AccOp) : Nat :=
  match o with
  | .load n _ _ _ => n
  | .store bs => bs.length
  | .rmw _ n _ _ _ => n
  | .stfe _ => 8
  | .gwr _ _ => 1
  | .unit _ n _ => n
  | .split _ _ n _ => n
  | .arm .. => 8
  | .replica .. => 1
  | .frontier .. => 8
  | _ => 1

/-- Do the byte ranges of two accesses meet. -/
def overlap (k n j m : Nat) : Bool := decide (k < j + m ∧ j < k + n)

/-- The atom or scratchpad word of a byte key (R182, R186). -/
def atomOf (k : Nat) : Nat := if k ≥ 2 ^ 44 ∧ k < 2 ^ 45 then k - k % 16 else k - k % 32

/-- Do the byte ranges of two accesses reach one atom or scratchpad word. -/
def sameAtom (k n j m : Nat) : Bool :=
  decide (atomOf k ≤ atomOf (j + m - 1) ∧ atomOf j ≤ atomOf (k + n - 1))

/-- The coherence edge (R183, R208): must a new access at key k of n bytes follow access a of the same thread. A read
follows an earlier write of the same atom; any access follows a write of a copy whose accounting has passed to the thread
(R224); any access follows an RLWW that reads the bytes as its source, and a TRIG that reads them as part of its block. -/
def mustFollow (a : Access) (k n : Nat) (read : Bool) : Bool :=
  overlap k n a.loc.key a.op.size || (read && a.op.isWrite && sameAtom k n a.loc.key a.op.size) ||
    (match a.op with
     | .replica _ _ (some (j, m)) _ _ => overlap k n j m
     | .unit .. => sameAtom k n a.loc.key a.op.size
     | .arm block .. => block.any (fun l => overlap k n l.key 8)
     | _ => false)

/-- The accesses of thread tid that a release at scope x orders before itself (R210). -/
def State.releaseIds (s : State) (tid x : Nat) : List Nat :=
  (s.accs.filter (fun a => a.tid = tid && (a.op.isRead || covers x a.level))).map (fun a => a.id)

/-- The acquires of a thread that are not yet performed (R211). -/
def State.acquireIds (s : State) (tid : Nat) : List Nat :=
  (s.accs.filter (fun a => a.tid = tid && a.acq)).map (fun a => a.id)

/-- The writes of a thread that are not yet complete (R204). -/
def State.writeIds (s : State) (tid : Nat) : List Nat :=
  (s.accs.filter (fun a => a.tid = tid && a.op.isWrite)).map (fun a => a.id)

/-- Does a TRIG, not yet performed, evaluate a word that meets n bytes at k: the word its block names now (R208, R225). -/
def State.watchesAt (s : State) (a : Access) (k n : Nat) : Bool :=
  match a.op with
  | .arm (b :: _) user lnum _ =>
    (match s.locate ⟨user, lnum, a.core⟩ .load (s.rdWord b.key) 8 with
     | .ok l => overlap k n l.key 8
     | .error _ => false)
  | _ => false

/-- The accesses of a thread that meet n bytes at k. -/
def State.meetIds (s : State) (tid k n : Nat) (read : Bool) : List Nat :=
  (s.accs.filter (fun a => a.tid = tid && (mustFollow a k n read || s.watchesAt a k n))).map (fun a => a.id)

/-- An access issued by a thread, after the accesses named. -/
def State.issueAfter (s : State) (tid core : Nat) (loc : Loc) (op : AccOp) (acq : Bool) (after : List Nat) : State :=
  let a : Access := { id := s.accN, tid := tid, core := core, level := levelOf core loc.home, loc := loc,
                      after := dedup after, acq := acq, op := op }
  { s with accs := s.accs ++ [a], accN := s.accN + 1 }

/-- An access issued by a thread, after the accesses that R208 orders before it and those of `extra`. -/
def State.issueAcc (s : State) (tid core : Nat) (loc : Loc) (op : AccOp) (acq : Bool) (extra : List Nat) : State :=
  s.issueAfter tid core loc op acq (s.meetIds tid loc.key op.size op.isRead ++ s.acquireIds tid ++ extra)

/-- An access of the part on behalf of thread tid (0 for none), after those of `after` alone. -/
def State.partAcc (s : State) (tid core : Nat) (loc : Loc) (op : AccOp) (after : List Nat) : State :=
  s.issueAfter tid core loc op false after

/-- A deferred result opened for thread tid: its number and the state (R30, R31). -/
def State.openResult (s : State) (tid dest : Nat) (value : Vec) (taint : Bool) (waiting : List Nat) : State :=
  let d : Deferred := { num := s.accN, dest := dest, waiting := waiting, value := value, taint := taint, flags := 0, poison := none }
  s.modThread tid (fun t => { t with outs := t.outs ++ [d] })

/-- The first poisoned atom or word among n bytes from k (R186). -/
def State.poisoned (s : State) (k n : Nat) : Option Nat :=
  s.poison.find? (fun p => decide (atomOf k ≤ p ∧ p < k + n))

/-- The element of the object that a view access reaches (R301). -/
def State.elemAt (s : State) (loc : Loc) : Option Elem :=
  match s.sot loc.sotx with
  | some o => resolve o (loc.kind = 2) loc.va.toNat
  | none => none

/-- The bytes that a read finds at a place: those of memory, or, in a value view, those the home computes (R311). -/
def State.readAt (s : State) (loc : Loc) (n : Nat) : List Byte × Flags :=
  if loc.kind = 3 then
    match s.elemAt loc with
    | some e => s.valueBytes e n
    | none => (List.replicate n 0, 0#5)
  else (s.rdBytes loc.key n, 0#5)

/-- Poison in ranges of state, given as address and length, with the home of the address (R324). -/
def State.poisonIn (s : State) (ranges : List (Nat × Nat)) : Option (Nat × Nat) :=
  ranges.findSome? (fun r => (List.range ((r.2 + 7) / 8)).findSome? (fun i =>
    (s.vkey (r.1 + 8 * i)).bind (fun k =>
      (s.poisoned k (min 8 (r.2 - 8 * i))).map (fun p => (p, s.homeOfVa (r.1 + 8 * i))))))

/-- State that n bytes of a value view are computed from (R311). -/
def State.imageRanges (s : State) (e : Elem) (n : Nat) : List (Nat × Nat) :=
  let E := e.o.esize
  if e.o.ty = .awset then s.valueRanges e
  else (List.range ((e.off % E + n + E - 1) / E)).flatMap (fun i => s.valueRanges { e with off := e.off + i * E })

/-- Poison that a read of n bytes meets; of a value view, in the state it reads (R311). -/
def State.readPoison (s : State) (loc : Loc) (n : Nat) : Option Nat :=
  if loc.kind = 3 then
    match s.elemAt loc with
    | some e => (s.poisonIn (s.imageRanges e n)).map (fun p => p.1)
    | none => none
  else s.poisoned loc.key n

/-- Each of n words from a, checked as a load of 8 bytes: the first fault (R234, R274). -/
def State.checkWords (s : State) (w : Who) (a : Word) (n : Nat) : Except TrapRec (List Loc) :=
  (List.range n).foldl (fun acc i =>
    match acc with
    | .error e => .error e
    | .ok l =>
      match s.locate' w .load (a + word (8 * i)) 8 with
      | .error e => .error e
      | .ok p => .ok (l ++ [p])) (.ok [])

/-- The words found at places (DESIGN CHOICE, log 65). -/
def State.wordsAt (s : State) (ls : List Loc) : List Word := ls.map (fun l => word (ofBytes (s.readAt l 8).1))

/-- The address that names a byte key: a physical address, or the DVA of a scratchpad or B-store byte (R173, R360)
(DESIGN CHOICE, log 68). -/
def keyAddress (k : Nat) : Word :=
  if k ≥ 2 ^ 45 then BitVec.ofNat 64 (0xE8 * 2 ^ 56 + k % 2 ^ 21)
  else if k ≥ 2 ^ 44 then BitVec.ofNat 64 (0xE0 * 2 ^ 56 + (k - 2 ^ 44) / 2 ^ 20 * 2 ^ 42 + k % 2 ^ 20)
  else BitVec.ofNat 64 k

/-- The address of a poisoned atom or word that an access met (R186): in the address space of the access, but for the state
behind a view (DESIGN CHOICE, log 68). -/
def Loc.poisonAt (l : Loc) (p : Nat) : Word :=
  if l.kind = 2 ∨ l.kind = 3 then keyAddress p else l.va + BitVec.ofNat 64 p - BitVec.ofNat 64 l.key

/-- An atom marked poisoned, counted in the error log (R186, R265; w3 as R381). -/
def State.setPoison (s : State) (k home w3 : Nat) : State :=
  let p := atomOf k
  if p ∈ s.poison then s
  else ({ s with poison := s.poison ++ [p] }).logError 0x02 (unitCore (home % 4096)) (keyAddress p) (BitVec.ofNat 64 w3)

/-- A write of n bytes at k clears the poison of every atom it covers whole (R186). -/
def State.clearPoison (s : State) (k n : Nat) : State :=
  { s with poison := s.poison.filter (fun p =>
      let w := if p ≥ 2 ^ 44 ∧ p < 2 ^ 45 then 16 else 32
      ¬ (k ≤ p ∧ p + w ≤ k + n)) }

/-- The full/empty bit of the word at k (R187) (DESIGN CHOICE, log 4). -/
def State.isFull (s : State) (k : Nat) : Bool := (look s.full (k / 8)).getD (Config.fullInit (k / 8))

def State.setFull (s : State) (k : Nat) (b : Bool) : State := { s with full := put s.full (k / 8) b }

/-- The words that a write of n bytes at k through a tagged mapping covers whole become empty (R187). -/
def State.emptyWords (s : State) (loc : Loc) (n : Nat) : State :=
  if loc.kind ≠ 1 then s
  else
    ((List.range (n / 8 + 1)).map (fun i => loc.key + 7 - (loc.key + 7) % 8 + 8 * i)).foldl
      (fun s k => if k + 8 ≤ loc.key + n then s.setFull k false else s) s

/-- The new value of a read-modify-write (R196 to R198): old, operand and comparand of w bytes. Floating point rounds
RNE and sets no flag (R195). -/
def rmwValue (op : Rmw) (w old b cmp : Nat) : Nat :=
  let m := 2 ^ (8 * w)
  let f := if w = 8 then F64 else F32
  match op with
  | .swap => b % m
  | .cas => if old = cmp % m then b % m else old
  | .add => (old + b) % m
  | .fadd => (fadd f .rne old b).1
  | .and => old &&& (b % m)
  | .or => old ||| (b % m)
  | .xor => old ^^^ (b % m)
  | .max => if toSigned (8 * w) old < toSigned (8 * w) b then b % m else old
  | .min => if toSigned (8 * w) b < toSigned (8 * w) old then b % m else old
  | .maxn => max old (b % m)
  | .minn => min old (b % m)
  | .fmax => (fmax f old b).1
  | .fmin => (fmin f old b).1

/-- The condition of a trigger (R273): CMP in w1[1:0]. -/
def watchHolds (w : Watch) (x : Word) : Bool :=
  match bits (nth w.words 1 0) 1 0 with
  | 0 => decide (x.toNat ≥ w.t.toNat)
  | 1 => decide (x = w.t)
  | _ => decide (x &&& w.t = w.t)

/-- Fire() (R274). -/
def watchFire (w : Watch) (x : Word) : Watch :=
  let f : Firing := { k := w.k, x := x, t := w.t }
  let w := { w with pend := w.pend ++ [f], k := w.k + 1 }
  if w.r = 0 then { w with state := 2 } else { w with r := w.r - 1, t := w.t + nth w.words 3 0 }

/-- The loop of Fire() on the value a write left (R274): at most one firing for each repeat left and one more. -/
def watchLoop (fuel : Nat) (w : Watch) (x : Word) : Watch :=
  match fuel with
  | 0 => w
  | n + 1 => if w.state = 1 ∧ watchHolds w x then watchLoop n (watchFire w x) x else w

/-- The watch table of a slice. -/
def State.watchTable (s : State) (c : Nat) : List Watch := (look s.watch c).getD (List.replicate 64 {})

/-- A firing of a COPY entry of slice c with the parameter block as it reads it (R273): not yet, while a home holds its line back
(R185). -/
def State.readBlock (s : State) (c : Nat) (w : Watch) (f : Firing) : Firing :=
  match s.checkWords ⟨w.user, w.lnum, c⟩ (nth w.words 4 0) 16 with
  | .error e => { f with fault := some e.code, unread := false }
  | .ok ls =>
    if ls.any (fun l => s.lineHeld l.key) then { f with unread := true }
    else
      match ls.findSome? (fun l => s.readPoison l 8) with
      | some _ => { f with fault := some cECC, unread := false }
      | none => { f with block := s.wordsAt ls, unread := false }

/-- The new firings of a COPY entry of slice c with the parameter block that each reads (R273). -/
def State.readBlocks (s : State) (c old : Nat) (w : Watch) : Watch :=
  if bits (nth w.words 1 0) 3 2 ≠ 0 ∨ w.pend.length ≤ old then w
  else { w with pend := w.pend.take old ++ (w.pend.drop old).map (s.readBlock c w) }

/-- An ARMED entry of slice c evaluated on a value (R274): each firing of a COPY reads its block (R273). -/
def State.fireWatch (s : State) (c : Nat) (w : Watch) (x : Word) : Watch :=
  s.readBlocks c w.pend.length (watchLoop (w.r + 1) w x)

/-- Every ARMED entry on the word at k evaluated after a write, in entry order (R274). -/
def State.evalWatch (s : State) (k home : Nat) : State :=
  let x := s.rdWord k
  let t := s.watchTable home
  if t.any (fun w => w.state = 1 && decide (w.loc.key = k)) then
    { s with watch := put s.watch home (t.map (fun w =>
        if w.state = 1 && decide (w.loc.key = k) then s.fireWatch home w x else w)) }
  else s

/-- Does a waiter's condition hold now (R201, R202, R233). -/
def State.waiterHolds (s : State) (w : Waiter) : Bool :=
  match w.kind with
  | .ldfe => s.isFull w.loc.key
  | .ldfec => s.isFull w.loc.key
  | .waitge x => decide ((s.rdWord w.loc.key).toNat ≥ x.toNat)
  | .joinw => decide (s.rdWord w.loc.key = 0)

/-- Room for one entry through a field that names a head held for a stalled enqueue, or given back (R90 step 4). -/
def State.reserveHead (s : State) (tid f : Nat) (take : Bool) : State :=
  let (g, q) := s.takeRoom tid ((s.thread tid).bind (fun t => t.item)) f
  if take then q else g.foldl (fun s g => s.giveBack g) s

/-- The value that LDFE or LDFEC gives: 0 from a poisoned word, which brings ECC_UNCORRECTABLE (R186). -/
def State.wordValue (s : State) (tid : Nat) (loc : Loc) : Word × State :=
  match s.poisoned loc.key 8 with
  | some p => (0, s.queueTrap tid ⟨0x13, loc.poisonAt p⟩)
  | none => (s.rdWord loc.key, s)

/-- An MT that JOINW saved goes to the bottom of a core's deque (R50, R233). -/
def State.wakeJoin (s : State) (tid c : Nat) : State :=
  (s.modThread tid (fun t =>
    { t with state := .unplaced, core := c, origin := c })).pushDeque c tid

/-- The release scope of an enqueue through a head (R240); none for a field that is no head. -/
def Thread.headRelease (t : Thread) (f : Nat) : Option Nat :=
  if f < 112 ∨ f > 119 then none
  else if headKind (t.headOf (f - 112)) = 6 then some 4
  else some (headScope (t.headOf (f - 112)))

/-- The accesses that the writes through some fields wait for: their releases, and earlier acquires (R90, R240). -/
def State.enqueueIds (s : State) (tid : Nat) (t : Thread) (fs : List Nat) : List Nat :=
  fs.flatMap (fun f =>
    match t.headRelease f with
    | some sc => s.releaseIds tid sc ++ s.acquireIds tid
    | none => [])

/-- An instruction with its results at hand stalls until they may be enqueued, with the room held (R90 step 4). -/
def State.stallEnqueue (s : State) (tid : Nat) (ws : List (Nat × Word)) (target : Option Word) (marker : Bool) : State :=
  match s.thread tid with
  | none => s
  | some t =>
    let ids := s.enqueueIds tid t (ws.map (fun w => w.1))
    (ws.foldl (fun s w => s.reserveHead tid w.1 true) s).modThread tid (fun t =>
      { t with stalled := some (.heads ws target), hold := ids, marked := marker, state := .ready, wait := none })

/-- The value that a satisfied LDFE or LDFEC writes: at once, or through a head once its release may be performed. -/
def State.giveWaited (s : State) (w : Waiter) (x : Word) : State :=
  if w.dest < 112 ∨ w.dest > 119 then (s.writeField w.tid w.dest x w.taint).retire w.tid w.marked none
  else s.stallEnqueue w.tid [(w.dest, x)] none w.marked

/-- The sources of a waiting instruction are dequeued as it completes (R90): what it held in reserve. -/
def State.takeSources (s : State) (tid : Nat) : State :=
  let srcs := (((s.thread tid).bind (fun t => t.wait)).map (fun w => w.srcs)).getD []
  match (s.dropGrip tid).readFields tid srcs with
  | some (_, s') => s'
  | none => s.dropGrip tid

/-- One satisfied waiter completes (R201, R203, R233). `at'` is the core whose deque a resumed MT joins. An LDFE of a poisoned
word gives 0 and empties it all the same (DESIGN CHOICE, log 72). -/
def State.completeWaiter (s : State) (w : Waiter) (at' : Nat) : State :=
  let s := { s with waiters := s.waiters.filter (fun v => v.tid ≠ w.tid) }.takeSources w.tid
  match w.kind with
  | .joinw =>
    match s.thread w.tid with
    | some t => if t.kind = .mt then s.wakeJoin w.tid at' else s.retire w.tid w.marked none
    | none => s
  | .waitge _ => s.retire w.tid w.marked none
  | .ldfe =>
    let (x, s) := s.wordValue w.tid w.loc
    (s.setFull w.loc.key false).giveWaited w x
  | .ldfec =>
    let (x, s) := s.wordValue w.tid w.loc
    s.giveWaited w x

/-- The waiters on the word at k re-evaluated in the order of their registration (R203). -/
def State.evalWaiters (s : State) (k at' : Nat) : State :=
  (s.waiters.filter (fun w => w.loc.key = k)).foldl
    (fun s w => if s.waiters.any (fun v => v.tid = w.tid) && s.waiterHolds w then s.completeWaiter w at' else s) s

/-- What follows a write of n bytes at a place: waiters, then watch entries, of every word it touches (R203, R274). -/
def State.afterWrite (s : State) (loc : Loc) (n at' : Nat) : State :=
  ((List.range (n / 8 + 2)).map (fun i => loc.key - loc.key % 8 + 8 * i)).foldl
    (fun s k => if k < loc.key + n then (s.evalWaiters k at').evalWatch k loc.home else s) s

/-- Bytes written at a home by a store, a copy or an add (R182, R186, R187; R7 for the control words of R40). -/
def State.writeAt (s : State) (loc : Loc) (bs : List Byte) (at' : Nat) : State :=
  let s := ((s.invalidate loc.key loc.home).wrBytes loc.key (s.fieldBytes loc.key bs)).clearPoison loc.key bs.length
  (s.emptyWords loc bs.length).afterWrite loc bs.length at'

/-- The atomic add of an 8-byte word at its home: CADD, CSIG, join words, ADD actions (R187, R223). A poisoned word is
not added to (R186); a CADD of one is dropped and nothing reports it (DESIGN CHOICE, log 74). -/
def State.addAt (s : State) (loc : Loc) (x : Word) (at' : Nat) : State :=
  if (s.poisoned loc.key 8).isSome then s
  else s.writeAt loc (bytesOf 8 (s.rdWord loc.key + x).toNat) at'

/-- The element that a load of a typed window gives (R73, R74, R192): value and flags. -/
def loadLane (window x : Nat) : Nat × Flags :=
  match window with
  | 2 => fconvert B16 F32 .rne x
  | 3 => fconvert F16 F32 .rne x
  | 4 => fconvert E4 F32 .rne x
  | 5 => fconvert E5 F32 .rne x
  | 7 => (ofSigned 32 (toSigned 8 x), 0#5)
  | _ => (x, 0#5)

/-- w bits of a vector replaced at lane i. -/
def setLane (w i : Nat) (v : Vec) (x : Nat) : Vec :=
  let m : Vec := BitVec.ofNat 512 ((2 ^ w - 1) * 2 ^ (w * i))
  (v &&& ~~~m) ||| BitVec.ofNat 512 (x % 2 ^ w * 2 ^ (w * i))

/-- Lane i of w bits. -/
def getLane (w i : Nat) (v : Vec) : Nat := v.toNat / 2 ^ (w * i) % 2 ^ w

/-- A value that comes back put where its sink says (R190, R192, R198). -/
def sinkValue (k : Sink) (x : Nat) (d : Deferred) : Deferred :=
  match k with
  | .scalar n sgn => { d with value := BitVec.ofNat 512 (if sgn then ofSigned 64 (toSigned (8 * n) x) else x) }
  | .whole => { d with value := BitVec.ofNat 512 x }
  | .lane i w => let (y, fl) := loadLane w x; { d with value := setLane 32 i d.value y, flags := d.flags ||| fl }
  | .old i => { d with value := setLane 32 i d.value x }

/-- A read that met poison: 0, and ECC_UNCORRECTABLE when it is settled (R186). Of several poisoned lanes of one instruction
there is one trap, with the address of the one that returned last (DESIGN CHOICE, log 72). -/
def poisonValue (k : Sink) (p : Word) (d : Deferred) : Deferred :=
  { sinkValue k 0 d with poison := some p }

/-- The updates of a thread that a value-view load of n bytes follows: those of an element that it reads (R307). -/
def State.viewIds (s : State) (tid : Nat) (loc : Loc) (n : Nat) : List Nat :=
  if loc.kind ≠ 3 then []
  else
    match s.elemAt loc with
    | none => []
    | some e =>
      (s.accs.filter (fun a =>
        a.tid = tid && decide (a.loc.kind = 2 ∧ a.loc.sotx = loc.sotx) &&
        (match s.elemAt a.loc with
         | some f => decide (f.d = e.d ∧ (e.o.ty = .awset ∨
             (e.off / e.o.esize ≤ f.off / e.o.esize ∧ f.off / e.o.esize ≤ (e.off + n - 1) / e.o.esize) ∨
             (e.o.ty = .lwwt ∧ f.off / e.o.tsz = e.off / e.o.tsz)))
         | none => false))).map (fun a => a.id)

/-- Update numbers of a replica taken and not yet performed (R304). -/
def State.takenNumbers (s : State) (e : Elem) : List Nat :=
  s.accs.filterMap (fun a =>
    match a.op with
    | .replica _ _ _ _ (some u) =>
      match s.elemAt a.loc with
      | some e' => if e'.o.x = e.o.x ∧ e'.d = e.d then some u.toNat else none
      | none => none
    | _ => none)

/-- An update instruction performed at its element's home with number u (R304, R307, R308). Poison in the state that it
finds, or in the source of an RLWW, makes it a poisoned atomic (R186, R324) (DEDUCED, log 39). -/
def State.performUpdate (s : State) (a : Access) (member : Nat) (x : Word) (src : Option (Nat × Nat)) (num : Nat)
    (u : Word) : State :=
  match s.elemAt a.loc with
  | none => s.giveResult a.tid num a.id (sinkValue .whole u.toNat)
  | some e =>
    let source := src.bind (fun q => s.poisoned q.1 q.2)
    match source.or ((s.poisonIn (s.updateRanges e member x)).map (fun p => p.1)) with
    | some p =>
      let s := s.logError 0x02 (unitCore (a.loc.home % 4096)) (keyAddress p) 3
      (s.raiseAs e (s.takenNumbers e)).giveResult a.tid num a.id (poisonValue .whole (keyAddress p))
    | none =>
      let bytes := match src with
        | some (k, n) => s.rdBytes k n
        | none => []
      let r := s.localUpdate e member x bytes
      let s := r.s.raiseAs e (r.s.takenNumbers e)
      let s := if r.full then
          s.logError 0x0F (unitCore (a.loc.home % 4096)) (BitVec.ofNat 64 e.o.x) (BitVec.ofNat 64 (x.toNat % 2 ^ 32))
        else s
      s.giveResult a.tid num a.id (fun d =>
        { sinkValue .whole u.toNat d with full := if r.full then some a.loc.va else none })

/-- Access id changed by f. -/
def State.modAcc (s : State) (id : Nat) (f : Access → Access) : State :=
  { s with accs := s.accs.map (fun a => if a.id = id then f a else a) }

/-- An access that has been performed leaves the list, and the operation that waits for it. -/
def State.dropAcc (s : State) (id : Nat) : State := { s with accs := s.accs.filter (fun a => a.id ≠ id) }

/-- What one access of a thread does at its home; the pieces of engines are performed in Engines. Access a has left the list of
those not yet performed. -/
def State.performOp (s : State) (a : Access) : State :=
  match a.op with
  | .load n num sink _ =>
    match s.readPoison a.loc n with
    | some p => s.giveResult a.tid num a.id (poisonValue sink (a.loc.poisonAt p))
    | none =>
      let (bs, fl) := s.readAt a.loc n
      s.giveResult a.tid num a.id (fun d => let d := sinkValue sink (ofBytes bs) d; { d with flags := d.flags ||| fl })
  | .store bs => s.writeAt a.loc bs a.loc.home
  | .rmw op n b cmp res =>
    match s.poisoned a.loc.key n with
    | some p =>
      match res with
      | some (num, sink) => s.giveResult a.tid num a.id (poisonValue sink (a.loc.poisonAt p))
      | none => s.queueTrap a.tid ⟨0x13, a.loc.poisonAt p⟩
    | none =>
      let old := s.rdNum a.loc.key n
      let new := rmwValue op n old b.toNat cmp.toNat
      let write := ! (op == .cas && decide (old ≠ cmp.toNat % 2 ^ (8 * n)))
      match res with
      | some (num, sink) =>
        let s := if write then (s.wrBytes a.loc.key (s.fieldBytes a.loc.key (bytesOf n new))).afterWrite a.loc n a.loc.home else s
        s.giveResult a.tid num a.id (sinkValue sink old)
      | none => s.writeAt a.loc (bytesOf n new) a.loc.home
  | .stfe x =>
    let s := (s.wrBytes a.loc.key (s.fieldBytes a.loc.key (bytesOf 8 x.toNat))).setFull a.loc.key true
    s.afterWrite a.loc 8 a.loc.home
  | .gwr n x => s.modCore a.core (fun k => { k with g := modify k.g n (fun _ => x) })
  | .replica member x src num taken =>
    match taken with
    | some u => s.performUpdate a member x src num u
    | none => s
  | .frontier c num =>
    match s.elemAt a.loc with
    | some e => s.giveResult a.tid num a.id (sinkValue .whole (s.vword (e.front c)).toNat)
    | none => s.giveResult a.tid num a.id (sinkValue .whole 0)
  | _ => s

/-- Every access that a must follow has been performed (R207). -/
def State.canPerform (s : State) (a : Access) : Bool := a.after.all (fun i => ! s.pending i)

/-- Access a performed at its home (R206). An update instruction takes its number first, in the order the requests reach
the home of the tideline area (R304), and is performed by a second step. -/
def State.perform (s : State) (a : Access) : State :=
  match a.op with
  | .replica m x src num none =>
    match s.elemAt a.loc with
    | some e =>
      let u := s.vword e.usn + 1
      let s := s.vputWord e.usn u
      s.modAcc a.id (fun b => { b with op := .replica m x src num (some u) })
    | none => (s.dropAcc a.id).performOp { a with op := .replica m x src num (some 0) }
  | _ => (s.dropAcc a.id).performOp a

end Sys2Proof.Machine
end

