-- ==== Sys2Proof/Machine/Exit.lean ====
section
/-! DEFINITION. What a thread gives back when it ends (R151, R152, R254, R289) and the completion of a launch (R46,
R254). -/
namespace Sys2Proof.Machine

/-- A local channel that no head of a live thread names and that is empty has no owner (R238). -/
def State.releaseChan (s : State) (c n : Nat) : State :=
  let k := nth (s.core c).chans n {}
  let named := s.live.any (fun e => decide (e.2.core = c) &&
    e.2.heads.any (fun h => (headKind h == 1 || headKind h == 2) && headNum h == n))
  if k.entries.isEmpty && !named then
    s.modCore c (fun q => { q with chans := modify q.chans n (fun k => { k with owner := none, wide := false }) })
  else s

/-- Head i of a thread unbound (R237): no entry is discarded. -/
def State.unbindHead (s : State) (tid i : Nat) : State :=
  match s.thread tid with
  | none => s
  | some t =>
    let h := t.headOf i
    let s := s.setThread tid { t with heads := modify t.heads i (fun _ => 0) }
    if headKind h = 1 ∨ headKind h = 2 then s.releaseChan t.core (headNum h) else s

/-- Every head unbound (R247, R254). -/
def State.unbindAll (s : State) (tid : Nat) : State := (List.range 8).foldl (fun s i => s.unbindHead tid i) s

/-- A phase completes when it has an arrival and every participant has arrived in it (R248). -/
def Barrier.check (b : Barrier) : Barrier :=
  if ¬ b.arrived.isEmpty ∧ b.parts.all (fun p => decide (p ∈ b.arrived)) then
    { b with phase := b.phase + 1, arrived := [] }
  else b

def State.barrier (s : State) (n : Nat) : Barrier := (look s.barriers n).getD {}

def State.modBarrier (s : State) (n : Nat) (f : Barrier → Barrier) : State :=
  { s with barriers := put s.barriers n (f (s.barrier n)) }

/-- BARL (R249): the thread is no participant; an arrival it has made still counts. -/
def State.leaveBarrier (s : State) (tid n : Nat) : State :=
  let s := s.modBarrier n (fun b =>
    if tid ∈ b.parts then ({ b with parts := b.parts.filter (fun p => p ≠ tid) }).check else b)
  s.modThread tid (fun t => { t with joined := t.joined.filter (fun m => m ≠ n) })

def State.leaveBarriers (s : State) (tid : Nat) : State :=
  match s.thread tid with
  | none => s
  | some t => t.joined.foldl (fun s n => s.leaveBarrier tid n) s

/-- Bank b of a core. -/
def Core.bank (k : Core) (b : Nat) : Bank := if b = 0 then k.bankA else k.bankB

def Core.modBank (k : Core) (b : Nat) (f : Bank → Bank) : Core :=
  if b = 0 then { k with bankA := f k.bankA } else { k with bankB := f k.bankB }

/-- The thread owns no bank of its core any more (R289). -/
def State.freeBanks (s : State) (tid c : Nat) : State :=
  s.modCore c (fun k =>
    let f := fun (b : Bank) => if b.owner = some tid then { b with owner := none } else b
    (k.modBank 0 f).modBank 1 f)

/-- An open packet is discarded and its reservation freed (R243, R244). -/
def State.dropPacket (s : State) (tid : Nat) : State :=
  match s.thread tid with
  | none => s
  | some t =>
    match t.packet with
    | none => s
    | some p =>
      let h := t.headOf p.head
      (s.setThread tid { t with packet := none }).modCore (headLcn h) (fun k =>
        { k with inboxes := modify k.inboxes (headNum h) (fun b => { b with reserved := b.reserved - 8 }) })

/-- A blocking wait is withdrawn (R90, R203): its registration is removed, and what it held in reserve is given back. -/
def State.withdraw (s : State) (tid : Nat) : State :=
  let s := { s with waiters := s.waiters.filter (fun w => w.tid ≠ tid) }.dropGrip tid
  s.modThread tid (fun t => { t with wait := none, state := if t.state = .blocked then .ready else t.state })

/-- The operations of a thread held while it is SUSPENDED go on when it has ended. -/
def State.releaseOps (s : State) (tid c : Nat) : State :=
  s.modCore c (fun k => { k with eng1 := k.eng1.map (fun o => if o.tid = tid then { o with held := false } else o) })

/-- A directory-overflow handler has ended (R185): a record that it cleared for a write is gone, and the waiters of the
line's words are evaluated. -/
def State.releaseLine (s : State) (line : Nat) : State :=
  let s := if look s.overflowed line = some true then { s with overflowed := drop s.overflowed line } else s
  (s.waiters.filter (fun w => decide (w.loc.key / 128 = line))).foldl
    (fun (s : State) w => s.evalWaiters w.loc.key (w.loc.home % 4096)) s

/-- The thread ends (R151): EXITED, its position and window free, its heads, barriers, banks and item given up. -/
def State.endThread (s : State) (tid : Nat) : State :=
  match s.thread tid with
  | none => s
  | some t =>
    let s := ((((s.withdraw tid).dropPacket tid).unbindAll tid).leaveBarriers tid).freeBanks tid t.core
    let s := (s.releaseOps tid t.core).modThread tid (fun t =>
      { t with state := .exited, place := none, item := none, outs := [], streams := [none, none, none, none],
               wait := none, hold := [], preempt := false, job := none, slotIdx := none })
    let s := match t.slotIdx with
      | some i => s.modCore t.slotCore (fun k => { k with ctxSlots := k.ctxSlots.filter (fun j => j ≠ i) })
      | none => s
    match t.job with
    | some (.directory line) => s.releaseLine line
    | _ => s

/-- Every byte range of a launch's word 16 as the part writes it (R37): LNUM, STATE, REASON. -/
def word16 (lnum state reason : Nat) : Word := BitVec.ofNat 64 (lnum % 2 ^ 14 + state * 2 ^ 14 + reason * 2 ^ 16)

/-- A write of word 16 by the part, after its earlier writes of that word and the accesses given (R46). -/
def State.writeWord16 (s : State) (n state : Nat) (after : List Nat) : State :=
  match s.launchOf n with
  | none => s
  | some l =>
    match l.loc with
    | none => s
    | some loc =>
      (s.partAcc 0 (loc.home % 4096) loc (.store (bytesOf 8 (word16 n state 0).toNat)) (after ++ l.word16)).setLaunch n
        { l with word16 := l.word16 ++ [s.accN] }

/-- The accesses of a launch's threads that are not yet performed. -/
def State.launchIds (s : State) (n : Nat) : List Nat :=
  (s.accs.filter (fun a =>
    match s.thread a.tid with
    | some t => decide (t.lnum = n)
    | none => false)).map (fun a => a.id)

/-- The bands of a launch on every core, and its band slots, are free (R46, R357). -/
def State.freeBands (s : State) (n : Nat) : State :=
  { s with cores := s.cores.map (fun (e : Nat × Core) =>
      let slots := e.2.bandSlots.filter (fun b => b.2.1 ≠ n)
      (e.1, { e.2 with
        bands := (e.2.bands.zip (List.range 32)).map (fun q =>
          let b := if q.1.v ∧ q.1.lnum = n then ({} : Band) else q.1
          { b with saved := slots.any (fun x => decide (x.2.2 = q.2)) })
        bandSlots := slots
        claims := e.2.claims.filter (fun (q : Nat × Nat × Bool) => decide (q.1 ≠ n ∧ q.2.1 ≠ n)) })) }

/-- What a launch leaves behind it is cleared (R254, R342): channels, inboxes it received on, canopy rounds, barriers. -/
def State.clearLaunch (s : State) (n : Nat) (l : Launch) : State :=
  let s := { s with cores := s.cores.map (fun (e : Nat × Core) =>
      (e.1, { e.2 with
        chans := e.2.chans.map (fun (c : Chan) => if c.owner = some n then {} else c)
        inboxes := e.2.inboxes.map (fun (b : Inbox) => if b.owner = some n then { b with words := [], owner := none } else b)
        canopyIn := e.2.canopyIn.filter (fun o => l.cgroup = 0 ∨ o.group ≠ l.cgroup)
        canopyOut := e.2.canopyOut.filter (fun o => l.cgroup = 0 ∨ o.group ≠ l.cgroup)
        canopyHeld := e.2.canopyHeld.filter (fun o => decide (l.cgroup = 0 ∨ o.group ≠ l.cgroup))
        canopyN := if l.cgroup = 0 then e.2.canopyN else drop e.2.canopyN l.cgroup })) }
  let s := if l.cgroup = 0 then s else { s with canopy := drop s.canopy l.cgroup }
  { s with barriers := s.barriers.filter (fun e => ¬ (l.bar0 ≤ e.1 ∧ e.1 < l.bar0 + l.barn)) }

/-- CADD of a completion (R46): an access that adds CPB at CPA once `after` have been performed; a fault goes to the
error log. -/
def State.completionAdd (s : State) (n : Nat) (l : Launch) (after : List Nat) : State :=
  let core := l.cores.headD 0
  match s.locate ⟨l.user, n, core⟩ .atomic (l.w 6) 8 with
  | .error e => s.logError 0x0A unitDevice (BitVec.ofNat 64 n) (BitVec.ofNat 64 e.code)
  | .ok loc =>
    s.partAcc 0 core loc (.rmw .add 8 (l.w 7) 0 none) after

/-- Has launch n ended: all its threads have exited and, for PIPELINE, every stage has finished and no core is between
two stages (R46, R57). -/
def State.launchEnded (s : State) (n : Nat) (l : Launch) : Bool :=
  l.started && (s.threadsOf n).isEmpty &&
    (! l.pipeline || (decide ((s.finishedStages n l).length = l.stages.length) && l.moving.isEmpty))

/-- A launch that has ended is completed (R46): its remains are cleared (R254), bands released, COMPLETE written as a
release at DEVICE, and CMPL performed, or queued where it waits for room. Its number is free. -/
def State.complete (s : State) (n : Nat) : State :=
  match s.launchOf n with
  | none => s
  | some l =>
    if ¬ s.launchEnded n l then s
    else
      let ids := s.launchIds n
      let s := ((s.clearLaunch n l).freeBands n).writeWord16 n 2 ids
      let after := ids ++ (match s.launchOf n with
        | some l => l.word16
        | none => [])
      let s := match l.cmpl with
        | 1 => s.completionAdd n l after
        | 2 => { s with completions := s.completions ++ [(⟨n, l.words, l.user, after⟩ : Completion)] }
        | 3 => { s with completions := s.completions ++ [(⟨n, l.words, l.user, after⟩ : Completion)] }
        | _ => s
      { s with launches := drop s.launches n }

end Sys2Proof.Machine
end

