-- ==== Sys2Proof/Machine/Save.lean ====
section
/-! DEFINITION. The save regions (R355, R356): contexts, bands and banks saved and read back, and pre-emption (R34, R290
to R292, R354, R357). -/
namespace Sys2Proof.Machine

def bandAddr (base i : Nat) : Nat := base + 0x200000 + 32768 * i
def bankAddr (base i : Nat) : Nat := base + 0xE00000 + 65536 * i

/-- XSTAT of engine e (R260, R280). -/
def Core.xstatWord (k : Core) (e : Nat) : Word :=
  let d := nth k.xstat e (0, 0)
  word (d.1 * 2 ^ 32 + d.2 * 2 ^ 16 + (if e = 0 then k.eng0 else k.eng1).length)

/-- A list of flags as a word, the first in bit 0. -/
def flagWord (l : List Bool) : Word :=
  word ((l.zip (List.range 64)).foldl (fun acc e => if e.1 then acc + 2 ^ e.2 else acc) 0)

/-- The list cut or filled to n entries. -/
def fit {α : Type} (n : Nat) (d : α) (l : List α) : List α := l.take n ++ List.replicate (n - l.length) d

/-- The resume address: the REPF while a frame is in progress (R99, R356). -/
def Thread.resumePc (t : Thread) : Word :=
  if t.inFrame then t.pc - word (4 * (bits t.csr.repst 18 15 + 1)) else t.pc

/-- The per-thread CSRs in CSR-number order, with tcause as a pre-emption writes it (R354, R356). -/
def Thread.csrWords (t : Thread) (cause : Word) : List Word :=
  let c := t.csr
  [c.fcsr, c.ts, cause, c.tepc, c.tval, c.tprog, c.uepc, c.uxid, c.uiblk, c.waitlim, c.repst, t.wnd]

/-- Bits and numbers of the role field (R356). -/
def roleCode (r : Role) : Nat :=
  match r with
  | .general => 0
  | .access => 1
  | .execute => 2

def roleOf (n : Nat) : Role :=
  match n with
  | 1 => .access
  | 2 => .execute
  | _ => .general

/-- Word `0x620` of a context: banks owned and saved (R356). -/
def Thread.bankWord (t : Thread) : Word :=
  let b := fun i => decide (nth t.banks i false = true)
  let sv := fun i => nth t.saved i none
  word ((if b 0 then 1 else 0) + (if b 1 then 2 else 0) + (if (sv 0).isSome then 4 else 0) +
    (if (sv 1).isSome then 8 else 0) + (sv 0).getD 0 * 2 ^ 10 + (sv 1).getD 0 * 2 ^ 16)

/-- The 512 words of a context slot (R356). -/
def State.contextWords (s : State) (t : Thread) (cause : Word) : List Word :=
  let k := s.core t.core
  fit 112 0 t.x ++ [flagWord (t.taint.take 64), flagWord (t.taint.drop 64), t.pw, t.resumePc] ++ t.csrWords cause ++
  fit 8 0 t.heads ++ fit 8 0 (t.streams.map (fun r =>
    match r with
    | some r => word (r.xid + r.next * 2 ^ 16)
    | none => 0)) ++
  fit 16 0 (t.uints.flatMap (fun u => [word u.xid, u.block])) ++
  fit 16 0 (modify (fit 14 0 t.shadow0) 12 (fun _ => k.xstatWord 0)) ++
  fit 16 0 (modify (fit 14 0 t.shadow1) 12 (fun _ => k.xstatWord 1)) ++
  [t.tidWord, word (t.slen + t.vlen * 2 ^ 8 + roleCode t.role * 2 ^ 16),
   (t.item.map (fun i => i.handle)).getD 0,
   (t.item.map (fun i => word (i.seq.toNat + 2 ^ 32))).getD 0, t.bankWord] ++
  fit 16 0 (t.traps.flatMap (fun r => [word r.code, r.tval])) ++ List.replicate 43 0 ++
  fit 256 0 (t.v.flatMap (fun v => (List.range 8).map (fun i => word (v.toNat / 2 ^ (64 * i)))))

/-- Words written at a virtual address by the part. -/
def State.vputWords (s : State) (va : Nat) (ws : List Word) : State := s.vput va (ws.flatMap (fun w => bytesOf 8 w.toNat))

/-- The context of thread tid written to slot i of its core. -/
def State.writeContext (s : State) (tid i : Nat) (cause : Word) : State :=
  match s.thread tid with
  | none => s
  | some t => s.vputWords (ctxAddr (s.saveBase t.core) i) (s.contextWords t cause)

/-- The queued user-level interrupts of a context slot: the part keeps the handler PC of each beside it, and for an entry
that software has written the PC is free (R268, R356) (DESIGN CHOICE, log 17). -/
def savedUints (n : Nat) (held : List Uint) (ps : List (Word × Word)) : List Uint :=
  ((ps.zip (List.range ps.length)).filter (fun p => decide (bits p.1.1 15 0 ≠ 0))).map (fun p =>
    let xid := bits p.1.1 15 0
    match held[p.2]? with
    | some u => if u.xid = xid ∧ u.block = p.1.2 then u else ⟨xid, p.1.2, Config.freeWord n, none⟩
    | none => ⟨xid, p.1.2, Config.freeWord n, none⟩)

/-- A stream register of a context slot: the number of its elements is free where software has written a binding that the
part did not save (R356) (DESIGN CHOICE, log 17). -/
def savedStream (n : Nat) (held : Option StreamReg) (w : Word) : Option StreamReg :=
  if w = 0 then none
  else
    let xid := bits w 15 0
    let next := bits w 63 16
    match held with
    | some r => some { r with xid := xid, next := next }
    | none => some { xid := xid, next := next, total := Config.free n }

/-- The bits that per-thread CSR n holds; the others are reserved and read as zero, whatever a context slot has there (R7, R97 to
R99). -/
def csrBits (n : Nat) : Word :=
  match n with
  | 0 => 0x7F
  | 1 => 0x10307
  | 2 => 0x800000FF
  | 5 => 0x7F
  | 7 => 0xFFFF
  | 10 => 0xFFFFFF00
  | _ => BitVec.allOnes 64

/-- The fields of a context slot read back into a thread (R356): slot and position of `tid` are those of its new place.
Where system software has not mapped the slot, the part keeps the values it has (DESIGN CHOICE, log 17; DEDUCED, log 16). -/
def State.readContext (s : State) (t : Thread) (i : Nat) : Thread :=
  let a := ctxAddr (s.saveBase t.slotCore) i
  if (s.vkey a).isNone then t
  else
    let w := fun o => s.vword (a + o)
    let r := fun n => w (0x3A0 + 8 * n) &&& csrBits n
    let tmpl := w 0x608
    let slen := bits tmpl 6 0
    let vlen := bits tmpl 13 8
    let c : Csrs :=
      { t.csr with
        fcsr := r 0, ts := r 1, tcause := r 2, tepc := r 3, tval := r 4, tprog := r 5, uepc := r 6, uxid := r 7, uiblk := r 8,
        waitlim := r 9, repst := r 10 }
    let rd := fun (o n : Nat) => (List.range n).map (fun j => w (o + 8 * j))
    let taint := (List.range slen).map (fun j => if j < 64 then bitAt (w 0x380) j else bitAt (w 0x388) (j - 64))
    let own := w 0x620
    let bank := fun (b lo : Nat) => if bitAt own (2 + b) then some (bits own (lo + 4) lo) else none
    let pairs := fun (o : Nat) => (List.range 8).map (fun j => (w (o + 16 * j), w (o + 16 * j + 8)))
    { t with
      slen := slen, vlen := vlen, role := roleOf (bits tmpl 17 16),
      x := rd 0 slen, taint := taint, pw := w 0x390, pc := w 0x398, csr := c, heads := rd 0x400 8,
      streams := (t.streams.zip (rd 0x440 4)).map (fun e => savedStream s.freeN e.1 e.2),
      uints := savedUints s.freeN t.uints (pairs 0x480),
      shadow0 := rd 0x500 14, shadow1 := rd 0x580 14, tnum := bits (w 0x600) 63 32, lnum := bits (w 0x600) 31 18,
      kind := if bitAt (w 0x600) 17 then .mt else .anchored, banks := [bitAt own 0, bitAt own 1], saved := [bank 0 10, bank 1 16],
      item := (if bitAt (w 0x618) 32 then some ⟨w 0x610, (w 0x618).truncate 32⟩ else none),
      traps := ((pairs 0x628).filter (fun e => decide (bits e.1 7 0 ≠ 0))).map (fun e => ⟨bits e.1 7 0, e.2⟩),
      v := (List.range vlen).map (fun j =>
        (BitVec.ofNat 512 (ofBytes (s.vbytes (a + 0x800 + 64 * j) 64)))) }

/-- Poison of n bytes at key `src` also at key `dst` (R186, R357). -/
def State.copyPoison (s : State) (src dst n : Nat) : State :=
  let clean := s.poison.filter (fun p => ¬ (dst ≤ p ∧ p < dst + n))
  let moved := (s.poison.filter (fun p => decide (src ≤ p ∧ p < src + n))).map (fun p => p - src + dst)
  { s with poison := clean ++ moved.filter (fun p => ¬ p ∈ clean) }

/-- The 31,744 bytes of band b of core c copied to band slot i, or back (R357) (DEDUCED, log 16). -/
def State.copyBand (s : State) (c b i : Nat) (out : Bool) : State :=
  let a := bandAddr (s.saveBase c) i
  let k := scratchKey c (31744 * b)
  match s.vkey a with
  | none => s
  | some m =>
    if out then (s.wrBytes m (s.rdBytes k 31744)).copyPoison k m 31744
    else (s.wrBytes k (s.rdBytes m 31744)).copyPoison m k 31744

/-- A bank's contents written to bank slot i of core c, poisoned rows as poisoned atoms (R355, R287). -/
def State.saveBank (s : State) (c b i : Nat) : State :=
  let a := bankAddr (s.saveBase c) i
  let k := (s.core c).bank b
  let s := s.vput a (k.rows.flatMap (fun r => bytesOf 512 r.toNat))
  match s.vkey a with
  | none => s
  | some m =>
    k.poison.foldl (fun s r => { s with poison := (m + 512 * r) :: s.poison.filter (fun p => p ≠ m + 512 * r) }) s

/-- A bank slot read back (R291, R292). -/
def State.loadBank (s : State) (c b i : Nat) : State :=
  match s.vkey (bankAddr (s.saveBase c) i) with
  | none => s
  | some m =>
    let rows := (List.range 128).map (fun r => BitVec.ofNat 4096 (s.rdNum (m + 512 * r) 512))
    let bad := (List.range 128).filter (fun r => (s.poisoned (m + 512 * r) 512).isSome)
    s.modCore c (fun k => k.modBank b (fun q => { q with rows := rows, poison := bad }))

/-- A slot wait in the error log, once (R355, R381). -/
def State.logSlotWait (s : State) (tid c kind : Nat) : State :=
  match s.thread tid with
  | some t =>
    if t.slotLogged then s
    else (s.logError 0x0C (unitCore c) (word kind) 0).setThread tid { t with slotLogged := true }
  | none => s

/-- Banks of its core that a thread owns (R289). -/
def State.ownedBanks (s : State) (tid : Nat) : List Nat :=
  match s.thread tid with
  | none => []
  | some t => [0, 1].filter (fun b => ((s.core t.core).bank b).owner = some tid)

/-- Rows of an MXU command (R280). -/
def EngOp.rows (o : EngOp) : Nat := bits (nth o.fields 2 0) 7 0
def EngOp.bankOf (o : EngOp) : Nat := bits (nth o.fields 4 0) 0 0

/-- Has a command completed the accumulation of every row, or stopped. -/
def EngOp.accumulated (o : EngOp) : Bool := decide (o.row ≥ o.rows) || o.fault.isSome

/-- Every earlier command of the core on bank b has completed its accumulation. -/
def Core.bankQuiet (k : Core) (b : Nat) : Bool := k.eng1.all (fun o => decide (o.bankOf ≠ b) || o.accumulated)

/-- A bank that its owner has given up is free once its commands have accumulated (R297). -/
def Core.settleBanks (k : Core) : Core :=
  [0, 1].foldl (fun (k : Core) (b : Nat) =>
    if (k.bank b).ending && k.bankQuiet b then k.modBank b (fun q => { q with owner := none, ending := false }) else k) k

/-- Dies that hold a core of a launch's core set (R290). -/
def Launch.dies (l : Launch) : List Nat := dedup (l.cores.map dieOf)

/-- The cooperative regime (R290). -/
def State.cooperative (s : State) (t : Thread) : Bool :=
  match s.launchOf t.lnum with
  | some l => decide (l.dies.length > 1)
  | none => false

/-- Every access that delays a boundary has been performed: results returned, no stall in progress, and no instruction that
runs to its end (R34, R90). -/
def State.boundary (s : State) (t : Thread) : Bool :=
  t.allReturned && (s.stillPending t.hold).isEmpty && t.packet.isNone && t.stalled.isNone &&
    t.wait.all (fun w => ! w.ready)

/-- Is a boundary of thread t permitted for pre-emption (R354), banks apart. A thread stopped at a claimed breakpoint has no
handler to wait for (DESIGN CHOICE, log 55). -/
def State.permitted (s : State) (t : Thread) : Bool :=
  decide (t.kind ≠ .handler) && t.place.isSome &&
  (decide (t.state = .ready) || decide (t.state = .parked) || decide (t.state = .blocked) ||
    (decide (t.state = .trapped) && t.debugStop)) && s.boundary t

/-- The commands of a thread that are queued or running on engine 1 of its core. -/
def State.ownOps (s : State) (tid c : Nat) : List EngOp := (s.core c).eng1.filter (fun o => o.tid = tid)

/-- The engine-1 commands of a thread discarded (R292): XMFAULT takes CODE 0x0E, and it and DONE the identifier of the last
of them; writes of rows already drained that are not complete are dropped (DESIGN CHOICE, log 74). -/
def State.discardOps (s : State) (tid c : Nat) : State :=
  let ops := s.ownOps tid c
  let ids := ops.flatMap (fun o => o.pending)
  let s := { s with accs := s.accs.filter (fun a => ¬ a.id ∈ ids) }
  let s := s.modCore c (fun k => Core.settleBanks
    { k with
      eng1 := k.eng1.filter (fun o => o.tid ≠ tid)
      xstat := (match ops.getLast? with
        | some o => modify k.xstat 1 (fun d => (o.xid, d.2))
        | none => k.xstat) })
  match ops.getLast? with
  | some o => s.modThread tid (fun t => { t with shadow1 := modify t.shadow1 13 (fun _ => word (0x0E * 2 ^ 16 + o.xid)) })
  | none => s

/-- One bank saved with the context of its owner and freed; none where no bank slot is free (R291, R355). -/
def State.saveOwned (s : State) (tid c b : Nat) : Option State :=
  match firstFree (s.core c).bankSlots 0 32 with
  | none => none
  | some i =>
    let s := s.saveBank c b i
    let s := s.modCore c (fun k =>
      { k.modBank b (fun q => { q with owner := none }) with bankSlots := k.bankSlots ++ [i] })
    some (s.modThread tid (fun t => { t with saved := modify t.saved b (fun _ => some i), banks := modify t.banks b (fun _ => true) }))

/-- The banks named saved, the others the thread owns released: one given up by PPT once its commands have accumulated
(R297). -/
def State.saveBanks (s : State) (tid c : Nat) (keep : List Nat) : Option State :=
  ([0, 1].filter (fun b => ((s.core c).bank b).owner = some tid)).foldl (fun acc b =>
    match acc with
    | none => none
    | some s =>
      if b ∈ keep then s.saveOwned tid c b
      else some (s.modCore c (fun k => if (k.bank b).ending then k else k.modBank b (fun q => { q with owner := none })))) (some s)

/-- Settling, and the wait withdrawn (R354 steps 1 and 2). -/
def State.quiesce (s : State) (tid : Nat) : State :=
  let s := (s.settle tid).withdraw tid
  s.modThread tid (fun t => { t with hold := [], streams := t.streams })

/-- The thread leaves its position: an anchored one SUSPENDED in a context slot, an MT into its core's run queue (R43,
R354). None where no context slot is free. -/
def State.leavePosition (s : State) (tid : Nat) : Option State :=
  match s.thread tid with
  | none => none
  | some t =>
    let cause : Word := word (2 ^ 31 + 0x17)
    let t' := { t with preempt := false, ppt := false, marked := false, slotLogged := false, csr := { t.csr with tcause := cause } }
    if t.kind = .mt then
      some ((s.setThread tid { t' with state := .unplaced, place := none }).pushRun t.core tid)
    else
      match firstFree (s.core t.core).ctxSlots 0 511 with
      | none => none
      | some i =>
        let s := s.writeContext tid i cause
        let s := s.modCore t.core (fun k =>
          { k with
            ctxSlots := k.ctxSlots ++ [i]
            eng1 := k.eng1.map (fun o => if o.tid = tid ∧ (nth t.saved o.bankOf none).isSome then { o with held := true } else o) })
        some (s.setThread tid { t' with state := .suspended, place := none, slotIdx := some i, slotCore := t.core })

/-- Pre-emption with the banks of `keep` saved (R354). Where a slot is missing, only the wait is recorded. -/
def State.preemptNow (s : State) (tid : Nat) (keep : List Nat) : State :=
  match s.thread tid with
  | none => s
  | some t =>
    let q := s.quiesce tid
    match q.saveBanks tid t.core keep with
    | none => s.logSlotWait tid t.core 2
    | some q =>
      match q.leavePosition tid with
      | none => s.logSlotWait tid t.core 0
      | some q => q

/-- The grace of a cooperative pre-emption in ticks (R19, R292, R358). -/
def State.grace (s : State) : Nat :=
  let g := (nth s.ctl 4 0).toNat
  if g = 0 then Config.grace else g

/-- Pre-emption forced after the grace (R292): nothing saved, commands discarded, ACC_LOST at the next placement. -/
def State.preemptForced (s : State) (tid : Nat) : State :=
  match s.thread tid with
  | none => s
  | some t =>
    let lost := s.ownedBanks tid
    let some' := ! (s.ownOps tid t.core).isEmpty
    let s' := s.discardOps tid t.core
    let s' := (s'.freeBanks tid t.core).modThread tid (fun t =>
      { t with accLost := true, banks := [false, false],
               live := word ((if 0 ∈ lost then 1 else 0) + (if 1 ∈ lost then 2 else 0) + (if some' then 4 else 0)) })
    match (s'.quiesce tid).leavePosition tid with
    | some q => q
    | none => s.logSlotWait tid t.core 0

/-- May a bank owner be saved now: earlier commands of other threads on its banks have accumulated (R291). -/
def State.banksReady (s : State) (tid c : Nat) (bs : List Nat) : Bool :=
  bs.all (fun b => (s.core c).eng1.all (fun o => decide (o.bankOf ≠ b) || decide (o.tid = tid) || o.accumulated))

/-- The banks of its core that a pre-emption of thread tid saves: those it owns, or those that its PPT named (R291,
R292), but none that it has given up (R297). -/
def State.keptBanks (s : State) (tid : Nat) : List Nat :=
  match s.thread tid with
  | none => []
  | some t => (s.ownedBanks tid).filter (fun b => (! t.ppt || bitAt t.live b) && ! ((s.core t.core).bank b).ending)

/-- Is a pending pre-emption of thread tid possible at its present boundary (R291, R292, R354). -/
def State.canPreempt (s : State) (tid : Nat) : Bool :=
  match s.thread tid with
  | none => false
  | some t =>
    let kept := s.keptBanks tid
    s.permitted t && ((s.ownedBanks tid).isEmpty ||
      (if s.cooperative t then t.ppt && kept.all (fun b => (s.core t.core).bankQuiet b)
       else s.banksReady tid t.core kept))

/-- Does a pending pre-emption of thread tid find the slots that it takes (R355), so that it can be done now. -/
def State.preempts (s : State) (tid : Nat) : Bool :=
  s.canPreempt tid && ((s.preemptNow tid (s.keptBanks tid)).thread tid).any (fun t => t.place.isNone)

/-- A pre-emption asked for (R354): it is pending, and is taken at the first boundary that permits it, in the order of R351. -/
def State.askPreempt (s : State) (tid : Nat) : State :=
  s.modThread tid (fun t => if t.preempt then t else { t with preempt := true, graceAt := s.time + word s.grace })

/-- Every resident that a change of mode, CHECKPOINT or D2 pre-empts (R367, R368, R378). -/
def State.preemptAll (s : State) : State :=
  ((s.live.filter (fun e => e.2.place.isSome && decide (e.2.kind ≠ .handler))).map (fun e => e.1)).foldl
    (fun s tid => s.askPreempt tid) s

/-- A fatal module error (R15, R349, R367): recorded, and the device goes into RECOVERY once every resident has been
pre-empted. -/
def State.fatalError (s : State) (unit cause : Nat) (w3 : Word) : State :=
  let s := (s.logError 0x05 unit (word cause) w3).preemptAll
  { s with mgmt := { s.mgmt with modeLater := some 3 } }

end Sys2Proof.Machine
end

