-- ==== Sys2Proof/Machine/Create.lean ====
section
/-! DEFINITION. Threads created by launches (R39), the start of a launch (R38), and the restart of a moved core's threads
(R57). -/
namespace Sys2Proof.Machine

/-- The shadow set of engine 0 at reset (R258). -/
def freshShadow0 : List Word := [0, 0, 0, 0, 0, 1, 0, 0, 1, 0, 0, 0, 0, 0]

/-- The shadow set of engine 1 at reset (R280). -/
def freshShadow1 : List Word := List.replicate 14 0

/-- A thread as it is created (R39): the first registers given, everything else at reset. -/
def newThread (kind : Kind) (role : Role) (lnum tnum slen vlen core : Nat) (pc : Word) (regs : List Word) : Thread :=
  { kind := kind, role := role, lnum := lnum, tnum := tnum % 2 ^ 32, slen := slen, vlen := vlen, core := core,
    origin := core, pc := pc, x := fit slen 0 regs, taint := List.replicate slen false, v := List.replicate vlen 0,
    shadow0 := freshShadow0, shadow1 := freshShadow1 }

/-- A thread added: its identity in the model is the next number. -/
def State.addThread (s : State) (t : Thread) : State :=
  { s with threads := s.threads ++ [(s.nextTid, t)], nextTid := s.nextTid + 1 }

/-- A thread added to a core, waiting for placement: an anchored one UNPLACED, an MT in the core's run queue (R39). -/
def State.addBound (s : State) (t : Thread) : State :=
  let tid := s.nextTid
  let s := s.addThread t
  if t.kind = .mt then s.pushRun t.core tid else s

/-- ARGS (R37). -/
def Launch.args (l : Launch) : List Word := (List.range 8).map (fun i => l.w (8 + i))

/-- The kind a TKIND bit names. -/
def kindOf (mt : Bool) : Kind := if mt then .mt else .anchored

/-- An entry of a stage table (R51), of its four words. -/
def stageOf (w : List Word) : Stage :=
  let w1 := nth w 1 0
  let w2 := nth w 2 0
  { entry := nth w 0 0, inq := bits w1 6 0, outa := bits w1 13 7, outb := bits w1 20 14, role := roleOf (bits w1 22 21),
    kind := kindOf (bitAt w1 23), slen := bits w1 30 24, vlen := bits w1 36 31, resid := bits w1 40 37,
    slots := bits w1 44 41, minc := bits w2 15 0, maxc := bits w2 31 16, arg := nth w 3 0 }

/-- Thread j, i of a stage on the c-th core of the set (R39, R51). -/
def Launch.stageThread (l : Launch) (n stage c core j i : Nat) (st : Stage) : Thread :=
  { newThread st.kind st.role n (c * 64 + j * 8 + i) st.slen st.vlen core st.entry (l.args.take 7 ++ [st.arg]) with
    stage := stage, index := j * 8 + i }

/-- The cores that INIT gives each stage, in ascending LCN (R52). -/
def initialStages (cores : List Nat) (inits : List Nat) (k : Nat) : Tab Nat :=
  match inits with
  | [] => []
  | n :: r => (cores.take n).map (fun c => (c, k)) ++ initialStages (cores.drop n) r (k + 1)

/-- The INIT field of each stage as a list: the number of cores it begins with. -/
def stageInits (table : List Word) (nst : Nat) : List Nat :=
  (List.range nst).map (fun k => bits (nth table (8 + 4 * k + 2) 0) 47 32)

/-- The threads of a launch created (R39) (DESIGN CHOICE, log 57). -/
def State.createThreads (s : State) (n : Nat) (l : Launch) : State :=
  let cores := l.cores
  let before := s.nextTid
  let s := match l.kind with
    | 0 =>
      (cores.zip (List.range cores.length)).foldl (fun (s : State) (e : Nat × Nat) =>
        (List.range (l.slots * l.resid)).foldl (fun (s : State) (q : Nat) =>
          s.addBound (newThread (kindOf l.mt) l.role n (e.2 * l.slots * l.resid + q) l.slen l.vlen e.1 l.entry l.args)) s) s
    | 1 =>
      (List.range l.count).foldl (fun (s : State) (q : Nat) =>
        let core := nth cores (q % max 1 cores.length) 0
        let tid := s.nextTid
        (s.addThread (newThread .mt .general n q 24 0 core l.entry l.args)).pushDeque core tid) s
    | _ =>
      (cores.zip (List.range cores.length)).foldl (fun (s : State) (e : Nat × Nat) =>
        let k := (look l.coreStage e.1).getD 0
        match l.stages[k]? with
        | none => s
        | some st =>
          (List.range (st.slots * st.resid)).foldl (fun (s : State) (q : Nat) =>
            s.addBound (l.stageThread n k e.2 e.1 (q / st.resid) (q % st.resid) st)) s) s
  let now := s.dieRotation (dieOf (cores.headD 0)) / 2 ^ l.bal
  s.modLaunch n (fun l => { l with started := true, created := s.nextTid - before, lastBal := now })

/-- Do the barrier range or the canopy group of launch n meet those of a live launch submitted before it (R38)? -/
def State.heldBack (s : State) (n : Nat) (l : Launch) : Bool :=
  (s.launches.takeWhile (fun e => decide (e.1 ≠ n))).any (fun e =>
    (decide (0 < l.barn ∧ 0 < e.2.barn ∧ l.bar0 < e.2.bar0 + e.2.barn ∧ e.2.bar0 < l.bar0 + l.barn) ||
     decide (l.cgroup ≠ 0 ∧ e.2.cgroup = l.cgroup)))

/-- Accepted launches start in the order of their submission, each as soon as no live launch holds it back (R38). -/
def State.startLaunches (s : State) : State :=
  (s.launches.filter (fun e => ! e.2.started)).foldl (fun s e =>
    match s.launchOf e.1 with
    | some l => if l.started || s.heldBack e.1 l then s else s.createThreads e.1 l
    | none => s) s

/-- The position of a core in a launch's core set. -/
def Launch.indexOf (l : Launch) (c : Nat) : Nat := (l.cores.filter (fun d => decide (d < c))).length

/-- Threads of launch n that belong to core c by their number (R57). -/
def State.coreThreads (s : State) (n : Nat) (l : Launch) (c : Nat) : List (Nat × Thread) :=
  (s.threadsOf n).filter (fun e => decide (e.2.kind ≠ .handler ∧ e.2.tnum / 64 = l.indexOf c))

/-- Once every thread of a moved core has restarted or ended, the missing recipient threads are created (R57). -/
def State.finishMove (s : State) (n c : Nat) : State :=
  match s.launchOf n with
  | none => s
  | some l =>
    let ts := s.coreThreads n l c
    if ¬ c ∈ l.moving ∨ ts.any (fun e => e.2.moved) then s
    else
      let k := (look l.coreStage c).getD 0
      match l.stages[k]? with
      | none => s
      | some st =>
        let s := s.setLaunch n { l with moving := l.moving.filter (fun d => d ≠ c) }
        (List.range (st.slots * st.resid)).foldl (fun (s : State) (q : Nat) =>
          let j := q / st.resid
          let i := q % st.resid
          if ts.any (fun e => decide (e.2.index = j * 8 + i)) then s
          else s.addBound (l.stageThread n k (l.indexOf c) c j i st)) s

/-- The core whose threads thread t belongs to (R57). -/
def Launch.homeCore (l : Launch) (t : Thread) : Nat := nth l.cores (t.tnum / 64) t.core

/-- The state after launch n has been completed also starts the launches it held back (R38). -/
def State.completeAndStart (s : State) (n : Nat) : State := (s.complete n).startLaunches

/-- A thread of a moved core at its next ITEMGET (R57): it restarts in the recipient, or ends. -/
def State.restartThread (s : State) (tid : Nat) : State :=
  match s.thread tid with
  | none => s
  | some t =>
    match s.launchOf t.lnum with
    | none => s
    | some l =>
      let c := l.homeCore t
      let k := (look l.coreStage c).getD 0
      match l.stages[k]? with
      | none => s
      | some st =>
        let j := t.index / 8
        let i := t.index % 8
        if j < st.slots ∧ i < st.resid then
          let s := ((((s.settle tid).withdraw tid).unbindAll tid).leaveBarriers tid).freeBanks tid t.core
          let fresh := l.stageThread t.lnum k (t.tnum / 64) c j i st
          let s := s.setThread tid fresh
          let s := if st.kind = .mt then s.pushRun c tid else s
          s.finishMove t.lnum c
        else ((s.settle tid).endThread tid).finishMove t.lnum c |>.completeAndStart t.lnum

/-- A thread ends, as by TEXIT (R151): it may end its launch, and launches held back start (R38, R46). -/
def State.finishThread (s : State) (tid : Nat) : State :=
  match s.thread tid with
  | none => s
  | some t =>
    let s := s.endThread tid
    let s := match s.launchOf t.lnum with
      | some l => if l.pipeline && decide (t.kind ≠ Kind.handler) then s.finishMove t.lnum (l.homeCore t) else s
      | none => s
    s.completeAndStart t.lnum

end Sys2Proof.Machine
end

