-- ==== Sys2Proof/Machine/Ops.lean ====
section
/-! DEFINITION. The operations that every instruction shares: execution faults of engines (R270), taking a trap (R346,
R349, R285), the return from one (R348, R149), and the issue of an instruction with the checks of R107 in their order, the
waits of R90 and the settlement of R32. -/
namespace Sys2Proof.Machine

/-- The queue of engine e of a core. -/
def Core.engine (k : Core) (e : Nat) : List EngOp := if e = 0 then k.eng0 else k.eng1

def Core.setEngine (k : Core) (e : Nat) (l : List EngOp) : Core := if e = 0 then { k with eng0 := l } else { k with eng1 := l }

/-- Operation xid of engine e of core c, if it is queued or running. -/
def State.engOp (s : State) (c e xid : Nat) : Option EngOp := ((s.core c).engine e).find? (fun o => o.xid = xid)

/-- Operation xid of engine e of core c changed by f, also where only its last pieces are left. -/
def State.modOp (s : State) (c e xid : Nat) (f : EngOp → EngOp) : State :=
  s.modCore c (fun k =>
    { k.setEngine e ((k.engine e).map (fun o => if o.xid = xid then f o else o)) with
      trailing := k.trailing.map (fun o => if o.xid = xid ∧ o.engine = e then f o else o) })

/-- An operation leaves its engine: DONE takes its identifier (R260). -/
def State.endOp (s : State) (c e xid : Nat) : State :=
  s.modCore c (fun k => Core.settleBanks
    { k.setEngine e ((k.engine e).filter (fun o => o.xid ≠ xid)) with
      xstat := modify k.xstat e (fun d => (xid, d.2))
      trailing := k.trailing.filter (fun o => o.xid ≠ xid ∨ o.engine ≠ e) })

/-- An execution fault reported (R270): XFAULT and an asynchronous trap of the launching thread, its stream register
unbound (R271); or the error log. -/
def State.reportFault (s : State) (c e : Nat) (o : EngOp) (r : TrapRec) : State :=
  let s := s.noteWalk c r
  let log := s.logError 0x07 (unitCore c) r.tval (word (r.code + o.xid * 2 ^ 8 + e * 2 ^ 24))
  match s.thread o.tid with
  | none => log
  | some t =>
    if t.state = .exited ∨ o.watch.isSome then log
    else
      let f := word (r.code * 2 ^ 16 + o.xid)
      let streams := t.streams.map (fun b =>
        match b with
        | some q => if q.xid = o.xid ∧ e = 0 then none else some q
        | none => none)
      let u := if e = 0 then { t with shadow0 := modify t.shadow0 13 (fun _ => f), streams := streams }
        else { t with shadow1 := modify t.shadow1 13 (fun _ => f) }
      let s := (s.setThread o.tid u).slotPut t (if e = 0 then 0x568 else 0x5E8) [f]
      let s := ((u.streams.zip (List.range 4)).filter (fun q => q.1.isNone && e = 0)).foldl
        (fun (s : State) q => s.slotPut t (0x440 + 8 * q.2) [0]) s
      s.queueTrap o.tid r

/-- Is a drain handler of command xid of core c started or queued (R285). -/
def State.drainsOf (s : State) (c xid : Nat) : List Nat :=
  (s.live.filter (fun e =>
    match e.2.job with
    | some (.drain c' x' ..) => decide (c' = c ∧ x' = xid)
    | _ => false)).map (fun e => e.1)

def isDrain (c xid : Nat) (h : HandlerFor) : Bool :=
  match h with
  | .drain c' x' .. => decide (c' = c ∧ x' = xid)
  | _ => false

/-- A command that stopped on a fault ends once the drains of its rows have been performed: its writes, and its handlers,
running or queued (R285, R287). -/
def State.faultEnd (s : State) (c xid : Nat) : State :=
  match s.engOp c 1 xid with
  | some o =>
    if o.fault.isSome && o.pending.isEmpty && (s.drainsOf c xid).isEmpty &&
      ! (s.core c).slots.any (fun j => j.starts.any (isDrain c xid)) then s.endOp c 1 xid
    else s
  | none => s

/-- A command stopped by a fault, its drains left as they are (R270, R287). -/
def State.stopCommand (s : State) (c xid : Nat) (r : TrapRec) : State :=
  ((s.modOp c 1 xid (fun q => { q with fault := some r })).modCore c Core.settleBanks).faultEnd c xid

/-- An execution fault (R270): the operation stops and writes no further byte. A copy leaves its queue; a command stays
until its running handlers have ended, and handlers not started are dropped (R285). -/
def State.execFault (s : State) (c e : Nat) (o : EngOp) (r : TrapRec) : State :=
  let s := { s with accs := s.accs.filter (fun a => ¬ a.id ∈ o.pending) }
  let s := if e = 0 then s.endOp c 0 o.xid
    else
      ((s.modCore c (fun k =>
        { k with slots := k.slots.map (fun j => { j with starts := j.starts.filter (fun h => ! isDrain c o.xid h) }) })).modOp
          c 1 o.xid (fun q => { q with pending := [] })).stopCommand c o.xid r
  s.reportFault c e o r

/-- A drain handler has raised a trap and has ended (R285): its command stops; the launching thread has the fault reported
also where the command has stopped or been discarded before. -/
def State.drainFault (s : State) (c xid lnum owner : Nat) (r : TrapRec) : State :=
  match s.engOp c 1 xid with
  | some o => if o.fault.isSome then (s.reportFault c 1 o r).faultEnd c xid else s.execFault c 1 o r
  | none => s.reportFault c 1 { xid := xid, engine := 1, fields := [], tid := owner, lnum := lnum, user := true } r

/-- Taking a synchronous trap, or an asynchronous one at a boundary (R346, R350): the cause registers written, the thread
TRAPPED, its handler requested. A trap of a handler is a double fault, a fatal error or an execution fault (R349, R285). -/
def State.enterTrap (s : State) (tid : Nat) (async : Bool) (r : TrapRec) (tepc : Word) : State :=
  match s.thread tid with
  | none => s
  | some t =>
    match t.job with
    | some (.system target first) =>
      let s := (s.noteWalk t.core r).logError 0x06 (unitCore t.core) (word first) (word r.code)
      ((s.finishThread tid).settle target).finishThread target
    | some (.directory _) =>
      ((s.noteWalk t.core r).endThread tid).fatalError (unitCore t.core) 2 (word r.code)
    | some (.drain c xid _ _ n _ _ owner) => (s.finishThread tid).drainFault c xid n owner r
    | none =>
      let s := if async then s else s.noteWalk t.core r
      let s := ((s.withdraw tid).dropPacket tid).settle tid
      let s := s.modThread tid (fun t =>
        { t with
          csr := { t.csr with tcause := word (r.code + (if async then 2 ^ 31 else 0)), tepc := tepc, tval := r.tval }
          state := .trapped, marked := false, hold := [] })
      let s := s.count t.core 5 (if r.code = cHAZARD then 1 else 0)
      match t.place with
      | some p => s.queueHandler p.core p.slot (.system tid r.code)
      | none => s

/-- The place of an instruction word (R132): only region 0x00 is fetched from. -/
def State.fetchLoc (s : State) (t : Thread) (a : Word) : Except TrapRec Loc :=
  match regionOf a with
  | some .global => s.locate ⟨t.user, t.lnum, t.core⟩ .fetch a 4
  | some _ => .error ⟨if a.toNat % 4 = 0 then cPERMISSION else cMISALIGNED, a⟩
  | none => .error ⟨if a.toNat % 4 = 0 then cNOTPRESENT else cMISALIGNED, a⟩

/-- The word at a, as a fetch reads it. R186 states no value for a fetch from a poisoned atom: it is free
(DESIGN CHOICE, log 42). -/
def State.fetchAt (s : State) (t : Thread) (a : Word) : Except TrapRec Nat :=
  match s.fetchLoc t a with
  | .ok l =>
    if (s.poisoned l.key 4).isSome then .ok ((Config.freeWord (s.freeN + l.key)).toNat % 2 ^ 32) else .ok (s.rdNum l.key 4)
  | .error e => .error e

/-- Is the word that a thread fetches next on a line that its home holds back (R185). -/
def State.fetchHeld (s : State) (t : Thread) : Bool :=
  ! s.heldLines.isEmpty && t.stalled.isNone && ! (t.inFrame && ! t.frame.isEmpty) &&
    (match s.fetchLoc t t.pc with
     | .ok l => s.lineHeld l.key
     | .error _ => false)

/-- The sixteen words after a REPF (R147). -/
def State.fetchFrame (s : State) (t : Thread) (repf : Word) : Except TrapRec (List IWord) :=
  (List.range 16).foldl (fun acc i =>
    match acc with
    | .error e => .error e
    | .ok l =>
      match s.fetchAt t (repf + word (4 + 4 * i)) with
      | .ok x => .ok (l ++ [BitVec.ofNat 32 x])
      | .error e => .error e) (.ok [])

/-- Majors that a frame may hold (R147). -/
def frameMajor (w : IWord) : Bool :=
  let m := w.toNat / 2 ^ 25 % 64
  decide (m ≤ 1 ∨ m = 0x18 ∨ m = 0x19 ∨ m = 0x1A ∨ m = 0x20 ∨ m = 0x21)

/-- The frame captured at issue of the REPF at an address, or the trap that stops it (R147). -/
def State.capture (s : State) (t : Thread) (repf : Word) : Except TrapRec (List IWord) :=
  match s.fetchFrame t repf with
  | .error e => .error e
  | .ok l =>
    match l.find? (fun w => ! frameMajor w) with
    | some w => .error ⟨cILLEGAL, w.zeroExtend 64⟩
    | none => .ok l

/-- Is a word of the frame of the REPF at an address on a line that its home holds back (R185). -/
def State.frameHeld (s : State) (t : Thread) (repf : Word) : Bool :=
  ! s.heldLines.isEmpty && (List.range 16).any (fun i =>
    match s.fetchLoc t (repf + word (4 + 4 * i)) with
    | .ok l => s.lineHeld l.key
    | .error _ => false)

/-- A thread is READY at the instruction pc; inside a frame the frame is captured again from the REPF (R149). -/
def State.resumeAt (s : State) (tid : Nat) (pc : Word) : State :=
  let s := s.modThread tid (fun t => { t with state := .ready, pc := pc, wait := none, hold := [], frame := [] })
  match s.thread tid with
  | none => s
  | some t =>
    if ¬ t.inFrame then s
    else
      let repf := pc - word (4 * (bits t.csr.repst 18 15 + 1))
      match s.capture t repf with
      | .ok l => s.setThread tid { t with frame := l }
      | .error e =>
        let t := { (t.modCsr (fun c => { c with repst := setBits c.repst 31 31 0 })) with pc := repf }
        (s.setThread tid t).enterTrap tid false e repf

/-- ERET of the handler tid whose target is given (R348): the handler ends, the target is READY at its `tepc`, and every
access of the handler precedes the target's next (R227). -/
def State.returnFrom (s : State) (tid target : Nat) : State :=
  let ids := (s.accs.filter (fun a => a.tid = tid)).map (fun a => a.id)
  let s := s.finishThread tid
  match s.thread target with
  | none => s
  | some t =>
    if t.state ≠ .trapped then s
    else (s.resumeAt target t.csr.tepc).modThread target (fun u => { u with hold := u.hold ++ ids })

/-- What a role forbids (R24): the floating-point and vector majors to ACCESS, data addresses to EXECUTE. -/
inductive RoleClass where
  | any | float | address
  deriving DecidableEq, Repr

/-- What an instruction names and needs, for the checks of R107 and the waits of R90. Scalar sources stand in the order
in which they are dequeued; `regs` are window registers it reads or writes by number, `mems` vector registers. -/
structure Use where
  srcs : List Nat := []
  dst : Option Nat := none
  dst2 : Option Nat := none
  regs : List Nat := []
  upto : Nat := 0                    -- it reads the window registers below this (FORK)
  vregs : List Nat := []
  heads : List Nat := []             -- heads named by a 3-bit field (QPOLL, SEND, VQRD)
  mtOnly : Bool := false             -- ORD = 101 (R105, R107)
  system : Bool := false
  role : RoleClass := .any
  packetHead : Option Nat := none    -- SEND and SENDE: the head whose packet may be open (R244)
  packet : Bool := false             -- permitted in an open packet when it names no head (R131, R244)
  acq : Bool := false                -- it makes an access that follows earlier acquires (R211)
  rel : Option Nat := none           -- it is a release at this scope (R210)
  deriving DecidableEq, Repr

/-- What the body of an instruction does once its sources are read. -/
inductive Act where
  | done (s : State)                 -- complete; the next instruction follows
  | value (x : Word) (s : State)     -- its destination takes x, with the taint of its sources (R93)
  | clean (x : Word) (s : State)     -- its destination takes x, untainted
  | link (x a : Word) (s : State)    -- its destination takes x, untainted, and control goes to a
  | pair (x y : Word) (s : State)    -- its second destination takes y, then its destination x
  | jump (a : Word) (s : State)      -- control goes to a
  | trap (code : Nat) (tval : Word)  -- a trap of execution: nothing has happened
  | trapAfter (code : Nat) (tval : Word) (f : State → State)     -- a trap after a part of it has been performed (R194)
  | wait (w : WaitOn) (tval : Word)  -- it blocks (R30) with nothing dequeued, and is issued again
  | register (w : WaitOn) (tval : Word) (f : State → State)      -- it blocks, having done f, with what its sources gave in reserve
  | stall (ids : List Nat)           -- it waits for accesses, what its heads need in reserve; no time limit applies (R90)
  | stallAfter (ids : List Nat) (f : State → State)              -- the same, having done f (R250)
  | release (e : Stall) (ids : List Nat) (s : State)     -- its enqueue waits for accesses, with its room held in s (R90)
  | left (s : State)                 -- the thread has gone on, ended or moved in s

/-- An access of an instruction that reads some bytes and writes at some places as it takes effect (R185): it stalls while a handler
serves one of the lines, and a write of a line with overflowed sharers first starts the handler that invalidates them. -/
def State.whenLines (s : State) (reads : List Nat) (writes : List Loc) (go : Act) : Act :=
  if reads.any s.lineHeld || writes.any (fun l => s.lineHeld l.key) then .stall []
  else
    match writes.find? (fun l => s.lineShared l.key) with
    | some l => .stallAfter [] (fun s => s.invalidate l.key l.home)
    | none => go

/-- Scalar fields that name channel heads or stream registers. -/
def isHead (f : Nat) : Bool := decide (112 ≤ f ∧ f ≤ 119)
def isStream (f : Nat) : Bool := decide (120 ≤ f ∧ f ≤ 123)

def Use.dsts (u : Use) : List Nat := u.dst2.toList ++ u.dst.toList
def Use.fields (u : Use) : List Nat := u.srcs ++ u.dsts

/-- Registers beyond the window (R23, R91), as `tval` gives them. -/
def Use.badRegs (u : Use) (t : Thread) : List Nat :=
  dedup (((u.fields ++ u.regs ++ (if u.upto > t.slen then [t.slen] else [])).filter (fun f => decide (f ≤ 111 ∧ f ≥ t.slen))) ++
    (u.vregs.filter (fun v => decide (v ≥ t.vlen))).map (fun v => 128 + v))

/-- Heads and stream registers that are unbound or absent (R89), as `tval` gives them. -/
def Use.unbound (u : Use) (t : Thread) : List Nat :=
  dedup ((u.fields ++ u.heads.map (fun h => h + 112)).filter (fun f =>
    (isHead f && (decide (t.kind = Kind.mt) || decide (headKind (t.headOf (f - 112)) = 0))) ||
    (isStream f && (decide (t.kind = Kind.mt) || (nth t.streams (f - 120) none).isNone))))

/-- Pending registers named (R33), as `tval` gives them. -/
def Use.pendingRegs (u : Use) (t : Thread) : List Nat :=
  dedup (((u.fields ++ u.regs ++ List.range u.upto).filter (fun f => decide (f ≤ 111)) ++ u.vregs.map (fun v => 128 + v)).filter
    (fun f => t.outs.any (fun d => decide (d.dest = f))))

/-- Heads used against their binding (R240). -/
def Use.wrongWay (u : Use) (t : Thread) : List Nat :=
  let rd := fun f => isHead f && (let h := t.headOf (f - 112)
    ! ((headKind h == 1 && ! headWide h) || headKind h == 3 || headKind h == 5))
  let wr := fun f => isHead f && (let h := t.headOf (f - 112)
    ! ((headKind h == 2 && ! headWide h) || headKind h == 4 || headKind h == 6))
  dedup (u.srcs.filter rd ++ u.dsts.filter wr)

/-- The first trap of R107, then PACKET (R244), then the directions of R240; `tval` is free where several registers
fail one check. -/
def State.checks (s : State) (t : Thread) (u : Use) : Option TrapRec :=
  let w := s.iword
  let bad := u.badRegs t
  let unb := u.unbound t
  let pend := u.pendingRegs t
  let way := u.wrongWay t
  if u.mtOnly && decide (t.kind ≠ Kind.mt) then some ⟨cILLEGAL, w⟩
  else if u.system && t.user then some ⟨cPRIVILEGE, w⟩
  else if (u.role = .float ∧ t.role = .access) ∨ (u.role = .address ∧ t.role = .execute) then some ⟨cROLE, w⟩
  else if ¬ bad.isEmpty then some ⟨cREGISTER, word (s.pick bad)⟩
  else if ¬ unb.isEmpty then some ⟨cCHANNEL, word (s.pick unb)⟩
  else if ¬ pend.isEmpty then some ⟨cHAZARD, word (s.pick pend)⟩
  else if t.packet.isSome && decide (u.packetHead ≠ t.packet.map (fun p => p.head)) && (! u.packet ||
      (u.fields.any (fun f => isHead f || isStream f))) then some ⟨cPACKET, w⟩
  else if ¬ way.isEmpty then some ⟨cCHANNEL, word (s.pick way)⟩
  else if t.kind = .handler ∧ u.srcs.any (fun f => isHead f && headKind (t.headOf (f - 112)) == 5) then
    some ⟨cSTAGE, allOnes⟩
  else none

/-- What a thread takes from or needs at a channel or an inbox: the core, the number, which end, how many. -/
structure Need where
  core : Nat
  num : Nat
  inbox : Bool
  room : Bool
  count : Nat
  deriving DecidableEq, Repr

/-- The room that the destination heads of an instruction need (R90). -/
def Thread.headNeeds (t : Thread) (dsts : List Nat) : List Need :=
  dsts.filterMap (fun f =>
    let h := t.headOf (f - 112)
    if ! isHead f then none
    else if headKind h == 2 then some ⟨t.core, headNum h, false, true, 1⟩
    else if headKind h == 4 then some ⟨headLcn h, headNum h, true, true, 1⟩
    else none)

/-- Entries or room there is at the end of a channel or inbox. -/
def State.supply (s : State) (n : Need) : Nat :=
  if n.inbox then
    let b := nth (s.core n.core).inboxes n.num {}
    64 - (b.words.length + b.reserved)
  else
    let c := nth (s.core n.core).chans n.num {}
    if n.room then (if c.wide then 16 else 64) - (c.entries.length + c.reserved) else c.entries.length

/-- Needs at the same end of the same object. -/
def Need.same (a b : Need) : Bool := decide (a.core = b.core ∧ a.num = b.num ∧ a.inbox = b.inbox ∧ a.room = b.room)

/-- Can every one of the needs be met out of what there is, beside what is held in reserve (R90). -/
def State.available (s : State) (ns : List Need) : Bool :=
  ns.all (fun n => decide (total ((ns.filter n.same).map (fun m => m.count)) ≤ s.supply n))

/-- Is there room for what an instruction puts through its stage-output heads (R53, R240): a thread that holds no item
meets no wait, but STAGE. -/
def State.outputsReady (s : State) (tid : Nat) (dsts : List Nat) : Bool :=
  match s.thread tid with
  | none => true
  | some t => dsts.all (fun f =>
      ! (isHead f && headKind (t.headOf (f - 112)) == 6) || t.item.isNone || s.headRoom tid (f - 112) 1)

/-- What step 1 of R90 waits for: the values of every source and the state with them dequeued, where the destinations have
room. ITEMGET's destinations take the item that it finds. -/
def State.sources (s : State) (tid : Nat) (t : Thread) (u : Use) : Option (List Word × State) :=
  if ¬ s.available (t.headNeeds u.dsts) then none
  else
    match s.readFields tid u.srcs with
    | none => none
    | some (xs, s') => if u.dst2.isNone && ! s'.outputsReady tid u.dsts then none else some (xs, s')

/-- Does an instruction name a channel head. -/
def Use.named (u : Use) : Bool := u.fields.any isHead || ! u.heads.isEmpty

/-- The state in which an instruction finds again what was held in reserve for it (R90). -/
def State.unheld (s : State) (tid : Nat) (u : Use) : State := if u.named then s.dropGrip tid else s

/-- Room for an item that ITEMGET finds, of launch l as it takes it, in the stage outputs among its destinations (R240): two on
one unordered queue need two places (DESIGN CHOICE, log 24). -/
def Launch.itemRoom (l : Launch) (t : Thread) (it : Item) (dsts : List Nat) : Bool :=
  match dsts with
  | [] => true
  | f :: r =>
    if ! (isHead f && headKind (t.headOf (f - 112)) == 6) then l.itemRoom t it r
    else
      match l.output t.stage (headSecond (t.headOf (f - 112))) with
      | none => l.itemRoom t it r
      | some q =>
        match l.queues[q]? with
        | none => l.itemRoom t it r
        | some u => offer u ⟨1, it.seq⟩ != .wait &&
          ({ l with queues := modify l.queues q (fun u => { u with reserved := u.reserved + 1 }) } : Launch).itemRoom t it r

/-- The thread is BLOCKED on a condition (R30, R353): a wait in progress keeps its start and its limit. -/
def State.blockOn (s : State) (tid : Nat) (what : WaitOn) (tval : Word) (srcs dsts : List Nat) : State :=
  s.modThread tid (fun t =>
    let w : Wait := match t.wait with
      | some w => { w with what := what, tval := tval, srcs := srcs, dsts := dsts }
      | none => { what := what, start := s.time, limit := t.csr.waitlim, tval := tval, srcs := srcs, dsts := dsts }
    { t with state := .blocked, wait := some w })

/-- STAGE from a write of a stage-output head (R240, R246), by the item that the thread holds. -/
def State.outputTrap (s : State) (tid f : Nat) (x : Word) : Option TrapRec :=
  match s.thread tid with
  | none => none
  | some t =>
    if ¬ isHead f ∨ headKind (t.headOf (f - 112)) ≠ 6 then none
    else
      match t.item with
      | none => some ⟨cSTAGE, allOnes⟩
      | some it =>
        match s.launchOf t.lnum with
        | none => none
        | some l =>
          match (l.output t.stage (headSecond (t.headOf (f - 112)))).bind (fun q => l.queues[q]?) with
          | none => none
          | some q => if offer q ⟨x, it.seq⟩ = .stage then some ⟨cSTAGE, it.seq.zeroExtend 64⟩ else none

/-- The OR of the taint bits of the window registers read (R93). -/
def Use.taint (u : Use) (t : Thread) : Bool :=
  (u.srcs ++ u.regs).any (fun f => decide (f ≤ 111) && nth t.taint f false)

/-- Results written through destination fields, each with its taint, in their order, then retirement (R90 steps 4 and 5). -/
def State.giveDsts (s : State) (tid : Nat) (ws : List (Nat × Word × Bool)) (marker : Bool) (target : Option Word) : State :=
  match s.thread tid with
  | none => s
  | some t =>
    if (s.enqueueIds tid t (ws.map (fun w => w.1))).isEmpty then
      (ws.foldl (fun s w => s.writeField tid w.1 w.2.1 w.2.2) s).retire tid marker target
    else s.stallEnqueue tid (ws.map (fun w => (w.1, w.2.1))) target marker

/-- The words of a thread's open packet enqueued together, the last one marked; the words reserved for it are freed (R243). -/
def State.closePacket (s : State) (tid : Nat) (t : Thread) (q : Nat) (words : List Word) : State :=
  let h := t.headOf q
  let ws := words.zip ((List.range words.length).map (fun i => decide (i + 1 = words.length)))
  (s.modCore (headLcn h) (fun k => { k with inboxes := modify k.inboxes (headNum h) (fun b =>
    { b with words := b.words ++ ws.map (fun e => ⟨e.1, e.2, []⟩), reserved := b.reserved - 8 }) })).modThread tid
      (fun t => { t with packet := none })

/-- The child that FORK creates, with copies of the first n registers and their taint, on the bottom of the core's deque
(R232). -/
def State.spawnChild (s : State) (th : Thread) (e : Word) (n : Nat) : State :=
  let num := match s.launchOf th.lnum with
    | some l => l.created + l.forked
    | none => 0
  let child := newThread .mt .general th.lnum num 24 0 th.core e (th.x.take n)
  let child := { child with taint := fit 24 false (th.taint.take n) }
  let tid := s.nextTid
  ((s.addThread child).modLaunch th.lnum (fun l => { l with forked := l.forked + 1 })).pushDeque th.core tid

/-- The writes of a stalled enqueue made, into the room held for them (R90 step 5); a put that its queue refuses by now
traps (R246). -/
def State.finishWrites (s : State) (tid : Nat) (t : Thread) (ws : List (Nat × Word)) (target : Option Word) : State :=
  match ws with
  | [] => s.retire tid t.marked target
  | (f, x) :: r =>
    let s := s.reserveHead tid f false
    match s.outputTrap tid f x with
    | some e => { (r.foldl (fun s w => s.reserveHead tid w.1 false) s).enterTrap tid false e t.pc with freeN := s.freeN + 1 }
    | none => (s.writeField tid f x false).finishWrites tid t r target

/-- The end of what waited for a release (R90 step 5, R232). -/
def State.finishStall (s : State) (tid : Nat) : State :=
  match s.thread tid with
  | none => s
  | some t =>
    let go := s.modThread tid (fun t => { t with stalled := none })
    match t.stalled with
    | none => s
    | some (.heads ws target) => go.finishWrites tid t ws target
    | some (.wide q v) =>
      (go.modCore t.core (fun k => { k with chans := modify k.chans (headNum (t.headOf q)) (fun c =>
        { c with entries := c.entries ++ [t.vr v], reserved := c.reserved - 1 }) })).retire tid t.marked none
    | some (.packet q) =>
      (go.closePacket tid t q ((t.packet.map (fun p => p.words)).getD [])).retire tid t.marked none
    | some (.fork e n) => (go.spawnChild t e n).retire tid t.marked none

/-- The accesses that write the next element of a stream register, as the thread's own accesses to its bytes stand (R208). -/
def State.streamIds (s : State) (tid : Nat) (t : Thread) (f : Nat) : List Nat :=
  if ¬ isStream f then []
  else
    match nth t.streams (f - 120) none with
    | none => []
    | some r => ((r.elems.drop (8 * r.next)).take 8).flatMap (fun b => s.meetIds tid b.2 1 true)

/-- Accesses that an instruction waits for before it takes effect (R200, R208, R210, R211, R213): a dequeue, the read of a
stream register and an acquire follow earlier acquires; the read of an element also the thread's own accesses to it
(DEDUCED, log 60). -/
def State.before (s : State) (tid : Nat) (u : Use) (t : Thread) : List Nat :=
  let reads := u.srcs.any (fun f => isHead f || isStream f) || u.acq
  let ids := if reads then s.acquireIds tid else []
  let ids := ids ++ u.srcs.flatMap (s.streamIds tid t)
  ids ++ (match u.rel with
    | some sc => s.releaseIds tid sc ++ s.acquireIds tid
    | none => [])

/-- Does an instruction take an item through a stage-input head on a core that has been moved (R57, R240). -/
def Use.restarts (u : Use) (t : Thread) : Bool :=
  t.moved && u.srcs.any (fun f => isHead f && headKind (t.headOf (f - 112)) == 5)

/-- Room for a result through a stage-output head is missing: only ITEMGET finds this here, for the item it takes. -/
def State.lacksRoom (s : State) (tid f : Nat) (x : Word) : Bool :=
  match s.thread tid with
  | none => false
  | some t => isHead f && headKind (t.headOf (f - 112)) == 6 && ! s.headRoom tid (f - 112) x

/-- What the writes of an instruction through its destinations meet, one after another (R240, R246): nothing, a trap, or room to
wait for. -/
def State.meetPuts (s : State) (tid : Nat) (ws : List (Nat × Word)) : Option (Option TrapRec) :=
  match ws with
  | [] => none
  | (f, x) :: r =>
    match s.outputTrap tid f x with
    | some e => some (some e)
    | none => if s.lacksRoom tid f x then some none else (s.reserveHead tid f true).meetPuts tid r

/-- A stall of an instruction whose sources and room are there (R90): it keeps them in reserve, and nothing withdraws it. -/
def State.stallOn (s : State) (tid : Nat) (u : Use) (ids : List Nat) : State :=
  if ¬ u.named then s.modThread tid (fun t => { t with hold := ids, state := .ready, wait := none })
  else
    ((s.blockOn tid (.heads u.srcs u.dsts) 0 u.srcs u.dsts).takeGrip tid u.srcs u.dsts true).modThread tid
      (fun t => { t with hold := ids, state := .ready })

/-- The state after an instruction whose sources have been read. `s0` is the state before anything was dequeued. -/
def State.finish (s0 : State) (tid : Nat) (t : Thread) (u : Use) (marker : Bool) (a : Act) : State :=
  let block := fun (w : WaitOn) (tv : Word) (f : State → State) =>
    let s := (f (s0.blockOn tid w tv u.srcs u.dsts)).takeGrip tid u.srcs u.dsts false
    { s with freeN := s.freeN + 1 }
  let trap := fun (r : TrapRec) => { s0.enterTrap tid false r t.pc with freeN := s0.freeN + 1 }
  let put := fun (ws : List (Nat × Word × Bool)) (target : Option Word) (s : State) =>
    match s.meetPuts tid (ws.map (fun w => (w.1, w.2.1))) with
    | some (some r) => trap r
    | some none => block .itemGet (s0.iword.zeroExtend 64) (fun s => s.modThread tid (fun t => { t with item := none }))
    | none => s.giveDsts tid ws marker target
  let dst := fun (x : Word) (taint : Bool) => (u.dst.toList).map (fun f => (f, x, taint))
  match a with
  | .done s => s.retire tid marker none
  | .jump pc s => s.retire tid marker (some pc)
  | .trap c v => trap ⟨c, v⟩
  | .trapAfter c v f => { (f s0).enterTrap tid false ⟨c, v⟩ t.pc with freeN := s0.freeN + 1 }
  | .wait w tv => block w tv id
  | .register w tv f => block w tv f
  | .stall ids => s0.stallOn tid u ids
  | .stallAfter ids f => (f s0).stallOn tid u ids
  | .release e ids s => s.modThread tid (fun t =>
      { t with stalled := some e, hold := ids, marked := marker, state := .ready, wait := none })
  | .left s => s
  | .value x s => put (dst x (u.taint t)) none s
  | .clean x s => put (dst x false) none s
  | .link x a s => put (dst x false) (some a) s
  | .pair x y s => put ((u.dst2.toList).map (fun f => (f, y, false)) ++ dst x false) none s

/-- The first head or stream register that is not ready, as `tval` of WAIT_LIMIT gives it (R353). -/
def State.waitingOn (s : State) (tid : Nat) (u : Use) : Nat :=
  ((u.srcs.filter (fun f => isHead f || isStream f)).find? (fun f => (s.readField tid f).isNone)).getD
    (u.dsts.find? isHead |>.getD ((u.srcs.find? isHead).getD 124))

/-- A thread ends by TEXIT, HALT or HDONE (R151, R152, R285, R348): a system handler ends its target too. -/
def State.leave (s : State) (tid : Nat) : State :=
  match s.thread tid with
  | none => s
  | some t =>
    let s := (s.count t.core 2 1).finishThread tid
    match t.job with
    | some (.system target _) => (s.settle target).finishThread target
    | some (.drain c xid ..) => s.faultEnd c xid
    | _ => s

/-- The i-th value read. -/
def arg (xs : List Word) (i : Nat) : Word := nth xs i 0

/-- One instruction issued by the thread whose turn it is, with nothing in reserve for it: the checks of R107, the waits of
R90, the body on the values read, and its end. One whose step 1 was complete (`kept`) runs to its end on a moved core too (R57,
R90). -/
def issueNow (kept : Bool) (marker : BitVec 1) (u : Use) (body : State → Nat → Thread → List Word → Act) (s : State) : Out :=
  match s.thread s.cur with
  | none => .fault .noIssuingThread
  | some t =>
    if t.state = .exited then .fault .noIssuingThread
    else
      let tid := s.cur
      let mk := decide (marker = 1)
      match s.checks t u with
      | some r => .next { s.enterTrap tid false r t.pc with freeN := s.freeN + 1 }
      | none =>
        if ! kept && u.restarts t then .next (s.restartThread tid)
        else
          let ids := s.stillPending (s.before tid u t)
          if ¬ ids.isEmpty then .next (s.modThread tid (fun t => { t with hold := ids }))
          else
            match s.sources tid t u with
            | none =>
              .next { s.blockOn tid (.heads u.srcs u.dsts) (word (s.waitingOn tid u)) u.srcs u.dsts with freeN := s.freeN + 1 }
            | some (xs, s') => .next (s.finish tid t u mk (body s' tid t xs))

/-- Is step 1 of R90 complete for the instruction of a thread, which a wait or a stall still holds up. -/
def State.stepOne (s : State) (tid : Nat) : Bool := ((s.thread tid).bind (fun t => t.wait)).any (fun w => w.ready)

/-- One instruction issued by the thread whose turn it is: it finds what was held in reserve for it (R90). -/
def issue (marker : BitVec 1) (u : Use) (body : State → Nat → Thread → List Word → Act) (s : State) : Out :=
  issueNow (s.stepOne s.cur) marker u body (s.unheld s.cur u)

end Sys2Proof.Machine
end

