-- ==== Sys2Proof/Machine/Scalar.lean ====
section
/-! DEFINITION. Integer, predicate and control-flow instructions (R129 to R153). -/
namespace Sys2Proof.Machine

/-- Wr(D, f(a, b)) of a binary format-A member (R133, R134). -/
def intBinary (w : BitVec 1) (d a b : BitVec 7) (f : Word → Word → Word) (s : State) : Out :=
  issue w { srcs := [a.toNat, b.toNat], dst := some d.toNat, packet := true }
    (fun s _ _ xs => .value (f (arg xs 0) (arg xs 1)) s) s

/-- Wr(D, f(a)) of a unary member or an immediate form (R134, R137 to R139). -/
def intUnary (w : BitVec 1) (d a : BitVec 7) (f : Word → Word) (s : State) : Out :=
  issue w { srcs := [a.toNat], dst := some d.toNat, packet := true } (fun s _ _ xs => .value (f (arg xs 0)) s) s

/-- `pw` bit k replaced, or ANDed into (R136). -/
def setPw (pw : Word) (p : BitVec 1) (k : Nat) (c : Bool) : Word :=
  let b := if p = 1 then pw.getLsbD k && c else c
  setBits pw k k (if b then 1 else 0)

/-- A compare into `pw` of two registers (R136). -/
def compareRegs (w p : BitVec 1) (k : BitVec 6) (a b : BitVec 7) (f : Word → Word → Bool) (s : State) : Out :=
  issue w { srcs := [a.toNat, b.toNat], packet := true }
    (fun s tid _ xs => .done (s.modThread tid (fun t => { t with pw := setPw t.pw p k.toNat (f (arg xs 0) (arg xs 1)) }))) s

/-- A compare into `pw` with an immediate (R140). -/
def compareImm (w p : BitVec 1) (k : BitVec 6) (a : BitVec 7) (f : Word → Bool) (s : State) : Out :=
  issue w { srcs := [a.toNat], packet := true }
    (fun s tid _ xs => .done (s.modThread tid (fun t => { t with pw := setPw t.pw p k.toNat (f (arg xs 0)) }))) s

/-- Predicate logic (R143). -/
def predLogic (w : BitVec 1) (k j m : BitVec 6) (f : Bool → Bool → Bool) (s : State) : Out :=
  issue w { packet := true }
    (fun s tid _ _ => .done (s.modThread tid (fun t =>
      { t with pw := setPw t.pw 0 k.toNat (f (t.pw.getLsbD j.toNat) (t.pw.getLsbD m.toNat)) }))) s

/-- A branch on a condition of the thread and, for forms 2 and 3, of a window register (R144). -/
def branch (w : BitVec 1) (o : BitVec 15) (regs : List Nat) (c : Thread → Bool) (s : State) : Out :=
  issue w { regs := regs }
    (fun s _ t _ => .jump (if c t then t.pc + 4 * o.signExtend 64 else t.pc + 4) s) s

/-- The S64 quotient (R60, R134). -/
def quotS (a b : Word) : Word := if b = 0 then allOnes else BitVec.ofInt 64 (Int.tdiv a.toInt b.toInt)
def quotN (a b : Word) : Word := if b = 0 then allOnes else word (a.toNat / b.toNat)

/-- Leading zero bits, trailing zero bits, one bits, and reversals (R134). -/
def countLeading (a : Word) (n : Nat) : Nat :=
  match n with
  | 0 => 0
  | k + 1 => if a.getLsbD k then 0 else 1 + countLeading a k
def leadingZeros (a : Word) : Word := word (countLeading a 64)
def trailingZeros (a : Word) : Word := word (((List.range 64).find? (fun i => a.getLsbD i)).getD 64)
def onesCount (a : Word) : Word := word ((List.range 64).filter (fun i => a.getLsbD i)).length
def bitReverse (a : Word) : Word :=
  word ((List.range 64).foldl (fun acc i => 2 * acc + (if a.getLsbD i then 1 else 0)) 0)
def byteReverse (a : Word) : Word := word (ofBytes (bytesOf 8 a.toNat).reverse)

/-- Shift counts are the low six bits (R133). -/
def amount (b : Word) : Nat := b.toNat % 64

/-- ADD (R133). -/
def execAdd (w : BitVec 1) (d a b : BitVec 7) (s : State) : Out := intBinary w d a b (fun a b => a + b) s

/-- SUB (R133). -/
def execSub (w : BitVec 1) (d a b : BitVec 7) (s : State) : Out := intBinary w d a b (fun a b => a - b) s

/-- AND (R133). -/
def execAnd (w : BitVec 1) (d a b : BitVec 7) (s : State) : Out := intBinary w d a b (fun a b => a &&& b) s

/-- OR (R133). -/
def execOr (w : BitVec 1) (d a b : BitVec 7) (s : State) : Out := intBinary w d a b (fun a b => a ||| b) s

/-- XOR (R133). -/
def execXor (w : BitVec 1) (d a b : BitVec 7) (s : State) : Out := intBinary w d a b (fun a b => a ^^^ b) s

/-- ANDN (R133). -/
def execAndn (w : BitVec 1) (d a b : BitVec 7) (s : State) : Out := intBinary w d a b (fun a b => a &&& ~~~b) s

/-- SHL (R133). -/
def execShl (w : BitVec 1) (d a b : BitVec 7) (s : State) : Out := intBinary w d a b (fun a b => a <<< amount b) s

/-- SHR (R133). -/
def execShr (w : BitVec 1) (d a b : BitVec 7) (s : State) : Out := intBinary w d a b (fun a b => a >>> amount b) s

/-- SRA (R133). -/
def execSra (w : BitVec 1) (d a b : BitVec 7) (s : State) : Out := intBinary w d a b (fun a b => a.sshiftRight (amount b)) s

/-- MIN (R133). -/
def execMin (w : BitVec 1) (d a b : BitVec 7) (s : State) : Out := intBinary w d a b (fun a b => if a.toInt < b.toInt then a else b) s

/-- MAX (R133). -/
def execMax (w : BitVec 1) (d a b : BitVec 7) (s : State) : Out := intBinary w d a b (fun a b => if a.toInt < b.toInt then b else a) s

/-- MINN (R133). -/
def execMinn (w : BitVec 1) (d a b : BitVec 7) (s : State) : Out := intBinary w d a b (fun a b => if a.toNat < b.toNat then a else b) s

/-- MAXN (R133). -/
def execMaxn (w : BitVec 1) (d a b : BitVec 7) (s : State) : Out := intBinary w d a b (fun a b => if a.toNat < b.toNat then b else a) s

/-- MUL (R133). -/
def execMul (w : BitVec 1) (d a b : BitVec 7) (s : State) : Out := intBinary w d a b (fun a b => a * b) s

/-- MULH (R133). -/
def execMulh (w : BitVec 1) (d a b : BitVec 7) (s : State) : Out :=
  intBinary w d a b (fun a b => BitVec.ofInt 64 (a.toInt * b.toInt / 2 ^ 64)) s

/-- MULHN (R133). -/
def execMulhn (w : BitVec 1) (d a b : BitVec 7) (s : State) : Out := intBinary w d a b (fun a b => word (a.toNat * b.toNat / 2 ^ 64)) s

/-- DIVS (R134). -/
def execDivs (w : BitVec 1) (d a b : BitVec 7) (s : State) : Out := intBinary w d a b (fun a b => quotS a b) s

/-- DIVN (R134). -/
def execDivn (w : BitVec 1) (d a b : BitVec 7) (s : State) : Out := intBinary w d a b (fun a b => quotN a b) s

/-- REMS (R134). -/
def execRems (w : BitVec 1) (d a b : BitVec 7) (s : State) : Out := intBinary w d a b (fun a b => a - b * quotS a b) s

/-- REMN (R134). -/
def execRemn (w : BitVec 1) (d a b : BitVec 7) (s : State) : Out := intBinary w d a b (fun a b => a - b * quotN a b) s

/-- ROTL (R134). -/
def execRotl (w : BitVec 1) (d a b : BitVec 7) (s : State) : Out := intBinary w d a b (fun a b => a.rotateLeft (amount b)) s

/-- ROTR (R134). -/
def execRotr (w : BitVec 1) (d a b : BitVec 7) (s : State) : Out := intBinary w d a b (fun a b => a.rotateRight (amount b)) s

/-- ADDSH1 (R134). -/
def execAddsh1 (w : BitVec 1) (d a b : BitVec 7) (s : State) : Out := intBinary w d a b (fun a b => a * 2 + b) s

/-- ADDSH2 (R134). -/
def execAddsh2 (w : BitVec 1) (d a b : BitVec 7) (s : State) : Out := intBinary w d a b (fun a b => a * 4 + b) s

/-- ADDSH3 (R134). -/
def execAddsh3 (w : BitVec 1) (d a b : BitVec 7) (s : State) : Out := intBinary w d a b (fun a b => a * 8 + b) s

/-- CLZ (R134). -/
def execClz (w : BitVec 1) (d a : BitVec 7) (s : State) : Out := intUnary w d a leadingZeros s

/-- CTZ (R134). -/
def execCtz (w : BitVec 1) (d a : BitVec 7) (s : State) : Out := intUnary w d a trailingZeros s

/-- POPC (R134). -/
def execPopc (w : BitVec 1) (d a : BitVec 7) (s : State) : Out := intUnary w d a onesCount s

/-- SPBANK (R135). -/
def execSpbank (w : BitVec 1) (d a : BitVec 7) (s : State) : Out := intUnary w d a (fun a => word (spBank a)) s

/-- SPROW (R135). -/
def execSprow (w : BitVec 1) (d a : BitVec 7) (s : State) : Out := intUnary w d a (fun a => word (spRow a)) s

/-- BREV (R134). -/
def execBrev (w : BitVec 1) (d a : BitVec 7) (s : State) : Out := intUnary w d a bitReverse s

/-- BSWAP (R134). -/
def execBswap (w : BitVec 1) (d a : BitVec 7) (s : State) : Out := intUnary w d a byteReverse s

/-- CEQ (R136). -/
def execCeq (w p : BitVec 1) (k : BitVec 6) (a b : BitVec 7) (s : State) : Out :=
  compareRegs w p k a b (fun a b => a == b) s

/-- CNE (R136). -/
def execCne (w p : BitVec 1) (k : BitVec 6) (a b : BitVec 7) (s : State) : Out :=
  compareRegs w p k a b (fun a b => a != b) s

/-- CLT (R136). -/
def execClt (w p : BitVec 1) (k : BitVec 6) (a b : BitVec 7) (s : State) : Out :=
  compareRegs w p k a b (fun a b => decide (a.toInt < b.toInt)) s

/-- CLE (R136). -/
def execCle (w p : BitVec 1) (k : BitVec 6) (a b : BitVec 7) (s : State) : Out :=
  compareRegs w p k a b (fun a b => decide (a.toInt ≤ b.toInt)) s

/-- CLTN (R136). -/
def execCltn (w p : BitVec 1) (k : BitVec 6) (a b : BitVec 7) (s : State) : Out :=
  compareRegs w p k a b (fun a b => decide (a.toNat < b.toNat)) s

/-- CLEN (R136). -/
def execClen (w p : BitVec 1) (k : BitVec 6) (a b : BitVec 7) (s : State) : Out :=
  compareRegs w p k a b (fun a b => decide (a.toNat ≤ b.toNat)) s

/-- CBIT (R136). -/
def execCbit (w p : BitVec 1) (k : BitVec 6) (a b : BitVec 7) (s : State) : Out :=
  compareRegs w p k a b (fun a b => a.getLsbD (amount b)) s

/-- ADDI (R137). -/
def execAddi (w : BitVec 1) (d a : BitVec 7) (i : BitVec 11) (s : State) : Out := intUnary w d a (fun a => a + i.signExtend 64) s

/-- ANDI (R137). -/
def execAndi (w : BitVec 1) (d a : BitVec 7) (i : BitVec 11) (s : State) : Out := intUnary w d a (fun a => a &&& i.zeroExtend 64) s

/-- ORI (R137). -/
def execOri (w : BitVec 1) (d a : BitVec 7) (i : BitVec 11) (s : State) : Out := intUnary w d a (fun a => a ||| i.zeroExtend 64) s

/-- XORI (R137). -/
def execXori (w : BitVec 1) (d a : BitVec 7) (i : BitVec 11) (s : State) : Out := intUnary w d a (fun a => a ^^^ i.zeroExtend 64) s

/-- MULI (R137). -/
def execMuli (w : BitVec 1) (d a : BitVec 7) (i : BitVec 11) (s : State) : Out := intUnary w d a (fun a => a * i.signExtend 64) s

/-- SHLI (R138). -/
def execShli (w : BitVec 1) (d a : BitVec 7) (n : BitVec 6) (s : State) : Out := intUnary w d a (fun a => a <<< n.toNat) s

/-- SHRI (R138). -/
def execShri (w : BitVec 1) (d a : BitVec 7) (n : BitVec 6) (s : State) : Out := intUnary w d a (fun a => a >>> n.toNat) s

/-- SRAI (R138). -/
def execSrai (w : BitVec 1) (d a : BitVec 7) (n : BitVec 6) (s : State) : Out := intUnary w d a (fun a => a.sshiftRight n.toNat) s

/-- ROTLI (R138). -/
def execRotli (w : BitVec 1) (d a : BitVec 7) (n : BitVec 6) (s : State) : Out := intUnary w d a (fun a => a.rotateLeft n.toNat) s

/-- CEQI (R140). -/
def execCeqi (w p : BitVec 1) (k : BitVec 6) (a : BitVec 7) (i : BitVec 8) (s : State) : Out :=
  compareImm w p k a (fun a => a == i.signExtend 64) s

/-- CNEI (R140). -/
def execCnei (w p : BitVec 1) (k : BitVec 6) (a : BitVec 7) (i : BitVec 8) (s : State) : Out :=
  compareImm w p k a (fun a => a != i.signExtend 64) s

/-- CLTI (R140). -/
def execClti (w p : BitVec 1) (k : BitVec 6) (a : BitVec 7) (i : BitVec 8) (s : State) : Out :=
  compareImm w p k a (fun a => decide (a.toInt < i.toInt)) s

/-- CLEI (R140). -/
def execClei (w p : BitVec 1) (k : BitVec 6) (a : BitVec 7) (i : BitVec 8) (s : State) : Out :=
  compareImm w p k a (fun a => decide (a.toInt ≤ i.toInt)) s

/-- CLTNI (R140). -/
def execCltni (w p : BitVec 1) (k : BitVec 6) (a : BitVec 7) (i : BitVec 8) (s : State) : Out :=
  compareImm w p k a (fun a => decide (a.toNat < i.toNat)) s

/-- CLENI (R140). -/
def execCleni (w p : BitVec 1) (k : BitVec 6) (a : BitVec 7) (i : BitVec 8) (s : State) : Out :=
  compareImm w p k a (fun a => decide (a.toNat ≤ i.toNat)) s

/-- CGTI (R140). -/
def execCgti (w p : BitVec 1) (k : BitVec 6) (a : BitVec 7) (i : BitVec 8) (s : State) : Out :=
  compareImm w p k a (fun a => decide (a.toInt > i.toInt)) s

/-- CGEI (R140). -/
def execCgei (w p : BitVec 1) (k : BitVec 6) (a : BitVec 7) (i : BitVec 8) (s : State) : Out :=
  compareImm w p k a (fun a => decide (a.toInt ≥ i.toInt)) s

/-- EXTI (R139): x is width - 1 and l is lo. -/
def execExti (w : BitVec 1) (d a : BitVec 7) (x : BitVec 5) (l : BitVec 6) (s : State) : Out :=
  intUnary w d a (fun a => word (a.toNat / 2 ^ l.toNat % 2 ^ (x.toNat + 1))) s

/-- LQZ (R141). -/
def execLqz (w : BitVec 1) (d : BitVec 7) (q : BitVec 2) (i : BitVec 16) (s : State) : Out :=
  issue w { dst := some d.toNat, packet := true } (fun s _ _ _ => .value (i.zeroExtend 64 <<< (16 * q.toNat)) s) s

/-- LQK (R141): the destination is read, so it keeps its taint. -/
def execLqk (w : BitVec 1) (d : BitVec 7) (q : BitVec 2) (i : BitVec 16) (s : State) : Out :=
  issue w { srcs := [d.toNat], dst := some d.toNat, packet := true }
    (fun s _ _ xs => .value (setBits (arg xs 0) (16 * q.toNat + 15) (16 * q.toNat) i.toNat) s) s

/-- PCADD (R141). -/
def execPcadd (w : BitVec 1) (d : BitVec 7) (q : BitVec 1) (i : BitVec 16) (s : State) : Out :=
  issue w { dst := some d.toNat, packet := true }
    (fun s _ t _ => .value (t.pc + (i.signExtend 64 <<< (16 * q.toNat))) s) s

/-- PSEL (R142). -/
def execPsel (w : BitVec 1) (d a b : BitVec 7) (k : BitVec 4) (s : State) : Out :=
  issue w { srcs := [a.toNat, b.toNat], dst := some d.toNat, packet := true }
    (fun s _ t xs => .value (if t.pw.getLsbD k.toNat then arg xs 0 else arg xs 1) s) s

/-- PAND (R143). -/
def execPand (w : BitVec 1) (k j m : BitVec 6) (s : State) : Out := predLogic w k j m (fun x y => x && y) s

/-- POR (R143). -/
def execPor (w : BitVec 1) (k j m : BitVec 6) (s : State) : Out := predLogic w k j m (fun x y => x || y) s

/-- PXOR (R143). -/
def execPxor (w : BitVec 1) (k j m : BitVec 6) (s : State) : Out := predLogic w k j m (fun x y => x ^^ y) s

/-- PANDN (R143). -/
def execPandn (w : BitVec 1) (k j m : BitVec 6) (s : State) : Out := predLogic w k j m (fun x y => x && !y) s

/-- PORN (R143). -/
def execPorn (w : BitVec 1) (k j m : BitVec 6) (s : State) : Out := predLogic w k j m (fun x y => x || !y) s

/-- PNAND (R143). -/
def execPnand (w : BitVec 1) (k j m : BitVec 6) (s : State) : Out := predLogic w k j m (fun x y => !(x && y)) s

/-- PNOR (R143). -/
def execPnor (w : BitVec 1) (k j m : BitVec 6) (s : State) : Out := predLogic w k j m (fun x y => !(x || y)) s

/-- PXNOR (R143). -/
def execPxnor (w : BitVec 1) (k j m : BitVec 6) (s : State) : Out := predLogic w k j m (fun x y => !(x ^^ y)) s

/-- brPset (R144). -/
def execBrPset (w : BitVec 1) (x : BitVec 6) (o : BitVec 15) (s : State) : Out := branch w o [] (fun t => t.pw.getLsbD x.toNat) s

/-- brPclr (R144). -/
def execBrPclr (w : BitVec 1) (x : BitVec 6) (o : BitVec 15) (s : State) : Out := branch w o [] (fun t => !t.pw.getLsbD x.toNat) s

/-- brZ (R144). -/
def execBrZ (w : BitVec 1) (x : BitVec 6) (o : BitVec 15) (s : State) : Out := branch w o [x.toNat] (fun t => t.xr x.toNat == 0) s

/-- brNz (R144). -/
def execBrNz (w : BitVec 1) (x : BitVec 6) (o : BitVec 15) (s : State) : Out := branch w o [x.toNat] (fun t => t.xr x.toNat != 0) s

/-- brEop (R144). -/
def execBrEop (w : BitVec 1) (o : BitVec 15) (s : State) : Out := branch w o [] (fun t => t.csr.ts.getLsbD 0) s

/-- brEos (R144). -/
def execBrEos (w : BitVec 1) (o : BitVec 15) (s : State) : Out := branch w o [] (fun t => t.csr.ts.getLsbD 1) s

/-- brQe (R144). -/
def execBrQe (w : BitVec 1) (o : BitVec 15) (s : State) : Out := branch w o [] (fun t => t.csr.ts.getLsbD 2) s

/-- BR (R144). -/
def execBr (w : BitVec 1) (o : BitVec 15) (s : State) : Out := branch w o [] (fun _ => true) s

/-- JMP (R145). -/
def execJmp (w : BitVec 1) (o : BitVec 25) (s : State) : Out :=
  issue w {} (fun s _ t _ => .jump (t.pc + 4 * o.signExtend 64) s) s

/-- JAL (R145): `s1` takes the address of the next instruction, untainted. -/
def execJal (w : BitVec 1) (o : BitVec 25) (s : State) : Out :=
  issue w { regs := [1] }
    (fun s tid t _ => .jump (t.pc + 4 * o.signExtend 64) (s.modThread tid (fun u => u.setX 1 (t.pc + 4) false))) s

/-- JALR (R146). -/
def execJalr (w : BitVec 1) (d a : BitVec 7) (i : BitVec 11) (s : State) : Out :=
  issue w { srcs := [a.toNat], dst := some d.toNat }
    (fun s _ t xs =>
      let goal := arg xs 0 + 4 * i.signExtend 64
      if goal.toNat % 4 ≠ 0 then .trap cMISALIGNED goal else .link (t.pc + 4) goal s) s

/-- REPF (R147, R148): the frame is captured and checked, and runs from its first word. -/
def execRepf (w : BitVec 1) (n : BitVec 6) (m : BitVec 3) (t : BitVec 4) (s : State) : Out :=
  issue w {} (fun s tid th _ =>
    if s.frameHeld th th.pc then .stall []
    else match s.capture th th.pc with
    | .error e => .trap e.code e.tval
    | .ok l =>
      .jump (th.pc + 4) (s.modThread tid (fun u =>
        { u with
          frame := l
          csr := { u.csr with repst := word (2 ^ 31 + n.toNat * 2 ^ 25 + m.toNat * 2 ^ 12 + t.toNat * 2 ^ 8) } }))) s

/-- NOP (R150). -/
def execNop (w : BitVec 1) (s : State) : Out := issue w { packet := true } (fun s _ _ _ => .done s) s

/-- YIELD (R150): the greed run of the GTO resident ends. -/
def execYield (w : BitVec 1) (s : State) : Out :=
  issue w {} (fun s _ t _ =>
    match t.place with
    | none => .done s
    | some p => .done (s.modSlot p.core p.slot (fun q =>
        if ¬ q.pol ∧ q.current = some p.pos then { q with yielded := true } else q))) s

/-- TEXIT (R151): the thread settles, decrements a join word as a release where J is set, and ends. -/
def execTexit (w : BitVec 1) (a : BitVec 7) (j : BitVec 1) (s : State) : Out :=
  issue w { srcs := if j = 1 then [a.toNat] else [], role := if j = 1 then .address else .any,
            rel := if j = 1 then some 4 else none }
    (fun s tid t xs =>
      if ¬ t.allReturned then .stall t.outIds
      else
        let s := s.settle tid
        if j = 0 then .left (s.leave tid)
        else
          match s.locate ⟨t.user, t.lnum, t.core⟩ .atomic (arg xs 0) 8 with
          | .error e => .trap e.code e.tval
          | .ok l => s.whenLines [] [l] (.left ((s.addAt l allOnes t.core).leave tid))) s

/-- HALT (R152). -/
def execHalt (w : BitVec 1) (s : State) : Out := issue w {} (fun s tid _ _ => .left (s.leave tid)) s

/-- The place of `g` register n of core c: the core's own slice (R153, R220) (DEDUCED, log 61). -/
def gLoc (c n : Nat) : Loc := ⟨2 ^ 46 + 32 * (32 * c + n), c, 8, 0, 0⟩

/-- GRD (R153) (DEDUCED, log 61). -/
def execGrd (w : BitVec 1) (d : BitVec 7) (g : BitVec 5) (s : State) : Out :=
  issue w { dst := some d.toNat, acq := true }
    (fun s tid t _ =>
      let ids := s.meetIds tid (gLoc t.core g.toNat).key 1 true
      if ids.isEmpty then .clean (nth (s.core t.core).g g.toNat 0) s else .stall ids) s

/-- GWR (R153): a store homed on the core's own slice (DEDUCED, log 61). -/
def execGwr (w : BitVec 1) (d : BitVec 7) (g : BitVec 5) (s : State) : Out :=
  issue w { srcs := [d.toNat] }
    (fun s tid t xs => .done (s.issueAcc tid t.core (gLoc t.core g.toNat) (.gwr g.toNat (arg xs 0)) false [])) s

end Sys2Proof.Machine
end

