-- ==== Sys2Proof/Machine/Float.lean ====
section
/-! DEFINITION. Scalar floating-point arithmetic, compares and conversions (R154 to R160). -/
namespace Sys2Proof.Machine

/-- A result and its flags: the flags go into `fcsr` (R70), the result through D zero-extended (R154). -/
def floatResult (s : State) (tid : Nat) (r : Nat × Flags) : Act :=
  .value (word r.1) (s.modThread tid (fun t => t.addFlags r.2))

/-- A binary member (R157), rounding as `fcsr.RM` stands (R155). -/
def floatBinary (w : BitVec 1) (d a b : BitVec 7) (f : RM → Nat → Nat → Nat × Flags) (s : State) : Out :=
  issue w { srcs := [a.toNat, b.toNat], dst := some d.toNat, role := .float }
    (fun s tid t xs => floatResult s tid (f (rmOf t.csr.fcsr) (arg xs 0).toNat (arg xs 1).toNat)) s

/-- A unary member (R157) or a conversion (R160). -/
def floatUnary (w : BitVec 1) (d a : BitVec 7) (f : RM → Nat → Nat × Flags) (s : State) : Out :=
  issue w { srcs := [a.toNat], dst := some d.toNat, role := .float }
    (fun s tid t xs => floatResult s tid (f (rmOf t.csr.fcsr) (arg xs 0).toNat)) s

/-- A member that reads its accumulator through D (R157). -/
def floatTernary (w : BitVec 1) (d a b : BitVec 7) (f : RM → Nat → Nat → Nat → Nat × Flags) (s : State) : Out :=
  issue w { srcs := [a.toNat, b.toNat, d.toNat], dst := some d.toNat, role := .float }
    (fun s tid t xs =>
      floatResult s tid (f (rmOf t.csr.fcsr) (arg xs 0).toNat (arg xs 1).toNat (arg xs 2).toNat)) s

/-- A compare into `pw` (R159). -/
def floatCompare (w p : BitVec 1) (k : BitVec 6) (a b : BitVec 7) (f : Nat → Nat → Bool × Flags) (s : State) : Out :=
  issue w { srcs := [a.toNat, b.toNat], role := .float }
    (fun s tid _ xs =>
      let r := f (arg xs 0).toNat (arg xs 1).toNat
      .done (s.modThread tid (fun t => { t.addFlags r.2 with pw := setPw t.pw p k.toNat r.1 }))) s

/-- Float to a 64-bit integer, saturating (R71). -/
def toS64 (f : Fmt) (rm : RM) (a : Nat) : Nat × Flags :=
  let r := toInt f rm (-(2 ^ 63 : Nat)) ((2 ^ 63 : Nat) - 1) a
  (ofSigned 64 r.1, r.2)
def toN64 (f : Fmt) (rm : RM) (a : Nat) : Nat × Flags :=
  let r := toInt f rm 0 ((2 ^ 64 : Nat) - 1) a
  (ofSigned 64 r.1, r.2)

/-- FADD on F32 (R157). -/
def execFaddF32 (w : BitVec 1) (d a b : BitVec 7) (s : State) : Out := floatBinary w d a b (fadd F32) s

/-- FSUB on F32 (R157). -/
def execFsubF32 (w : BitVec 1) (d a b : BitVec 7) (s : State) : Out := floatBinary w d a b (fsub F32) s

/-- FMUL on F32 (R157). -/
def execFmulF32 (w : BitVec 1) (d a b : BitVec 7) (s : State) : Out := floatBinary w d a b (fmul F32) s

/-- FDIV on F32 (R157). -/
def execFdivF32 (w : BitVec 1) (d a b : BitVec 7) (s : State) : Out := floatBinary w d a b (fdiv F32) s

/-- FSQRT on F32 (R157). -/
def execFsqrtF32 (w : BitVec 1) (d a : BitVec 7) (s : State) : Out := floatUnary w d a (fsqrt F32) s

/-- FMIN on F32 (R158). -/
def execFminF32 (w : BitVec 1) (d a b : BitVec 7) (s : State) : Out := floatBinary w d a b (fun _ => fmin F32) s

/-- FMAX on F32 (R158). -/
def execFmaxF32 (w : BitVec 1) (d a b : BitVec 7) (s : State) : Out := floatBinary w d a b (fun _ => fmax F32) s

/-- FCPS on F32 (R157). -/
def execFcpsF32 (w : BitVec 1) (d a b : BitVec 7) (s : State) : Out := floatBinary w d a b (fun _ => fcps F32) s

/-- FMA on F32 (R157). -/
def execFmaF32 (w : BitVec 1) (d a b : BitVec 7) (s : State) : Out := floatTernary w d a b (ffma F32) s

/-- FMS on F32 (R157). -/
def execFmsF32 (w : BitVec 1) (d a b : BitVec 7) (s : State) : Out := floatTernary w d a b (ffms F32) s

/-- FNMA on F32 (R157). -/
def execFnmaF32 (w : BitVec 1) (d a b : BitVec 7) (s : State) : Out := floatTernary w d a b (ffnma F32) s

/-- FABS on F32 (R157). -/
def execFabsF32 (w : BitVec 1) (d a : BitVec 7) (s : State) : Out := floatUnary w d a (fun _ => fabs F32) s

/-- FNEG on F32 (R157). -/
def execFnegF32 (w : BitVec 1) (d a : BitVec 7) (s : State) : Out := floatUnary w d a (fun _ => fneg F32) s

/-- FCEQ on F32 (R159). -/
def execFceqF32 (w p : BitVec 1) (k : BitVec 6) (a b : BitVec 7) (s : State) : Out :=
  floatCompare w p k a b (fcompare .eq F32) s

/-- FCLT on F32 (R159). -/
def execFcltF32 (w p : BitVec 1) (k : BitVec 6) (a b : BitVec 7) (s : State) : Out :=
  floatCompare w p k a b (fcompare .lt F32) s

/-- FCLE on F32 (R159). -/
def execFcleF32 (w p : BitVec 1) (k : BitVec 6) (a b : BitVec 7) (s : State) : Out :=
  floatCompare w p k a b (fcompare .le F32) s

/-- FADD on F64 (R157). -/
def execFaddF64 (w : BitVec 1) (d a b : BitVec 7) (s : State) : Out := floatBinary w d a b (fadd F64) s

/-- FSUB on F64 (R157). -/
def execFsubF64 (w : BitVec 1) (d a b : BitVec 7) (s : State) : Out := floatBinary w d a b (fsub F64) s

/-- FMUL on F64 (R157). -/
def execFmulF64 (w : BitVec 1) (d a b : BitVec 7) (s : State) : Out := floatBinary w d a b (fmul F64) s

/-- FDIV on F64 (R157). -/
def execFdivF64 (w : BitVec 1) (d a b : BitVec 7) (s : State) : Out := floatBinary w d a b (fdiv F64) s

/-- FSQRT on F64 (R157). -/
def execFsqrtF64 (w : BitVec 1) (d a : BitVec 7) (s : State) : Out := floatUnary w d a (fsqrt F64) s

/-- FMIN on F64 (R158). -/
def execFminF64 (w : BitVec 1) (d a b : BitVec 7) (s : State) : Out := floatBinary w d a b (fun _ => fmin F64) s

/-- FMAX on F64 (R158). -/
def execFmaxF64 (w : BitVec 1) (d a b : BitVec 7) (s : State) : Out := floatBinary w d a b (fun _ => fmax F64) s

/-- FCPS on F64 (R157). -/
def execFcpsF64 (w : BitVec 1) (d a b : BitVec 7) (s : State) : Out := floatBinary w d a b (fun _ => fcps F64) s

/-- FMA on F64 (R157). -/
def execFmaF64 (w : BitVec 1) (d a b : BitVec 7) (s : State) : Out := floatTernary w d a b (ffma F64) s

/-- FMS on F64 (R157). -/
def execFmsF64 (w : BitVec 1) (d a b : BitVec 7) (s : State) : Out := floatTernary w d a b (ffms F64) s

/-- FNMA on F64 (R157). -/
def execFnmaF64 (w : BitVec 1) (d a b : BitVec 7) (s : State) : Out := floatTernary w d a b (ffnma F64) s

/-- FABS on F64 (R157). -/
def execFabsF64 (w : BitVec 1) (d a : BitVec 7) (s : State) : Out := floatUnary w d a (fun _ => fabs F64) s

/-- FNEG on F64 (R157). -/
def execFnegF64 (w : BitVec 1) (d a : BitVec 7) (s : State) : Out := floatUnary w d a (fun _ => fneg F64) s

/-- FCEQ on F64 (R159). -/
def execFceqF64 (w p : BitVec 1) (k : BitVec 6) (a b : BitVec 7) (s : State) : Out :=
  floatCompare w p k a b (fcompare .eq F64) s

/-- FCLT on F64 (R159). -/
def execFcltF64 (w p : BitVec 1) (k : BitVec 6) (a b : BitVec 7) (s : State) : Out :=
  floatCompare w p k a b (fcompare .lt F64) s

/-- FCLE on F64 (R159). -/
def execFcleF64 (w p : BitVec 1) (k : BitVec 6) (a b : BitVec 7) (s : State) : Out :=
  floatCompare w p k a b (fcompare .le F64) s

/-- FCVT F64F32 (R160, R71). -/
def execFcvtF64F32 (w : BitVec 1) (d a : BitVec 7) (s : State) : Out := floatUnary w d a (fconvert F32 F64) s

/-- FCVT F32F64 (R160, R71). -/
def execFcvtF32F64 (w : BitVec 1) (d a : BitVec 7) (s : State) : Out := floatUnary w d a (fconvert F64 F32) s

/-- FCVT F32S64 (R160, R71). -/
def execFcvtF32S64 (w : BitVec 1) (d a : BitVec 7) (s : State) : Out := floatUnary w d a (fun rm a => ofInt F32 rm (toSigned 64 a)) s

/-- FCVT F32N64 (R160, R71). -/
def execFcvtF32N64 (w : BitVec 1) (d a : BitVec 7) (s : State) : Out := floatUnary w d a (fun rm a => ofInt F32 rm a) s

/-- FCVT F64S64 (R160, R71). -/
def execFcvtF64S64 (w : BitVec 1) (d a : BitVec 7) (s : State) : Out := floatUnary w d a (fun rm a => ofInt F64 rm (toSigned 64 a)) s

/-- FCVT F64N64 (R160, R71). -/
def execFcvtF64N64 (w : BitVec 1) (d a : BitVec 7) (s : State) : Out := floatUnary w d a (fun rm a => ofInt F64 rm a) s

/-- FCVT S64F32 (R160, R71). -/
def execFcvtS64F32 (w : BitVec 1) (d a : BitVec 7) (s : State) : Out := floatUnary w d a (toS64 F32) s

/-- FCVT N64F32 (R160, R71). -/
def execFcvtN64F32 (w : BitVec 1) (d a : BitVec 7) (s : State) : Out := floatUnary w d a (toN64 F32) s

/-- FCVT S64F64 (R160, R71). -/
def execFcvtS64F64 (w : BitVec 1) (d a : BitVec 7) (s : State) : Out := floatUnary w d a (toS64 F64) s

/-- FCVT N64F64 (R160, R71). -/
def execFcvtN64F64 (w : BitVec 1) (d a : BitVec 7) (s : State) : Out := floatUnary w d a (toN64 F64) s

/-- FCVT F32B16 (R160, R71). -/
def execFcvtF32B16 (w : BitVec 1) (d a : BitVec 7) (s : State) : Out := floatUnary w d a (fconvert B16 F32) s

/-- FCVT B16F32 (R160, R71). -/
def execFcvtB16F32 (w : BitVec 1) (d a : BitVec 7) (s : State) : Out := floatUnary w d a (fconvert F32 B16) s

/-- FCVT F32F16 (R160, R71). -/
def execFcvtF32F16 (w : BitVec 1) (d a : BitVec 7) (s : State) : Out := floatUnary w d a (fconvert F16 F32) s

/-- FCVT F16F32 (R160, R71). -/
def execFcvtF16F32 (w : BitVec 1) (d a : BitVec 7) (s : State) : Out := floatUnary w d a (fconvert F32 F16) s

/-- FCVT F32E4 (R160, R71). -/
def execFcvtF32E4 (w : BitVec 1) (d a : BitVec 7) (s : State) : Out := floatUnary w d a (fconvert E4 F32) s

/-- FCVT E4F32 (R160, R71). -/
def execFcvtE4F32 (w : BitVec 1) (d a : BitVec 7) (s : State) : Out := floatUnary w d a (fconvert F32 E4) s

/-- FCVT F32E5 (R160, R71). -/
def execFcvtF32E5 (w : BitVec 1) (d a : BitVec 7) (s : State) : Out := floatUnary w d a (fconvert E5 F32) s

/-- FCVT E5F32 (R160, R71). -/
def execFcvtE5F32 (w : BitVec 1) (d a : BitVec 7) (s : State) : Out := floatUnary w d a (fconvert F32 E5) s

end Sys2Proof.Machine
end

