-- ==== Sys2Proof/Machine/Vector.lean ====
section
/-! DEFINITION. Vector arithmetic, compares, conversions, lane moves and reductions (R161 to R171). -/
namespace Sys2Proof.Machine

/-- Lane width of a TY (R123, R161). -/
def tyWidth (t : Nat) : Nat :=
  match t with
  | 0 => 32
  | 1 => 16
  | 2 => 16
  | 5 => 32
  | 6 => 32
  | _ => 8

/-- Lanes of a TY. -/
def tyLanes (t : Nat) : Nat := 512 / tyWidth t

/-- The floating-point format of a TY; none for the integers (R123). -/
def tyFmt (t : Nat) : Option Fmt :=
  match t with
  | 0 => some F32
  | 1 => some B16
  | 2 => some F16
  | 3 => some E4
  | 4 => some E5
  | _ => none

/-- The integer that a lane of an integer TY holds: N32 is unsigned (R166). -/
def laneInt (t x : Nat) : Int := if t = 6 then (x : Int) else toSigned (tyWidth t) x

/-- The range of an integer TY. -/
def tyMin (t : Nat) : Int := if t = 6 then 0 else -(2 ^ (tyWidth t - 1) : Nat)
def tyMax (t : Nat) : Int := if t = 6 then (2 ^ 32 : Nat) - 1 else (2 ^ (tyWidth t - 1) : Nat) - 1

/-- Lanes of width w put together, lane 0 in the low bits (R91). -/
def packLanes (w : Nat) (l : List Nat) : Vec := BitVec.ofNat 512 (l.foldr (fun x acc => x % 2 ^ w + 2 ^ w * acc) 0)

/-- The lane loop of R161 over n lanes of width w: lanes that are not enabled keep those of c. -/
def overLanes (w : Nat) (c : Vec) (en : Nat → Bool) (f : Nat → Nat × Flags) : Vec × Flags :=
  let r := (List.range (512 / w)).map (fun i => if en i then f i else (getLane w i c, 0#5))
  (packLanes w (r.map (fun x => x.1)), r.foldl (fun fl x => fl ||| x.2) 0#5)

/-- An instruction that names vector registers and perhaps scalar ones by number, and writes VD with flags. -/
def vecWrite (w : BitVec 1) (d : BitVec 5) (vs : List (BitVec 5)) (regs : List Nat) (f : Thread → Vec × Flags)
    (s : State) : Out :=
  issue w { vregs := (d :: vs).map (fun v => v.toNat), regs := regs, role := .float }
    (fun s tid t _ =>
      let r := f t
      .done (s.modThread tid (fun u => (u.setV d.toNat r.1).addFlags r.2))) s

/-- Is lane i enabled (R161). -/
def enabled (m : BitVec 1) (t : Thread) (i : Nat) : Bool := decide (m = 0) || t.pw.getLsbD i

/-- A member that computes each enabled lane from the lanes of VA, VB and VD (R161). -/
def laneOp (w : BitVec 1) (d a b : BitVec 5) (m : BitVec 1) (t : BitVec 3)
    (f : RM → Nat → Nat → Nat → Nat × Flags) (s : State) : Out :=
  let n := tyWidth t.toNat
  vecWrite w d [a, b] [] (fun th =>
    let va := th.vr a.toNat
    let vb := th.vr b.toNat
    let vc := th.vr d.toNat
    overLanes n vc (enabled m th) (fun i =>
      f (rmOf th.csr.fcsr) (getLane n i va) (getLane n i vb) (getLane n i vc))) s

/-- The same for a unary member: VB names no register. -/
def laneUnary (w : BitVec 1) (d a : BitVec 5) (m : BitVec 1) (t : BitVec 3) (f : RM → Nat → Nat × Flags) (s : State) :
    Out :=
  let n := tyWidth t.toNat
  vecWrite w d [a] [] (fun th =>
    overLanes n (th.vr d.toNat) (enabled m th) (fun i => f (rmOf th.csr.fcsr) (getLane n i (th.vr a.toNat)))) s

/-- A lane function by type: floating point, or integers computed exactly and reduced modulo 2^w (R163, R166). -/
def byType (t : BitVec 3) (ff : Fmt → RM → Nat → Nat → Nat × Flags) (fi : Int → Int → Int) (rm : RM) (a b : Nat) :
    Nat × Flags :=
  match tyFmt t.toNat with
  | some f => ff f rm a b
  | none => (ofSigned (tyWidth t.toNat) (fi (laneInt t.toNat a) (laneInt t.toNat b)), 0#5)

/-- A floating-point lane function; on an integer TY, which decode refuses here, the lane of VA. -/
def floatLane (t : BitVec 3) (g : Fmt → Nat × Flags) (a : Nat) : Nat × Flags :=
  match tyFmt t.toNat with
  | some f => g f
  | none => (a, 0#5)

/-- A shift count: b[4:0], or b[2:0] for S8 (R166). -/
def laneShift (t : BitVec 3) (b : Nat) : Nat := b % tyWidth t.toNat

/-- VADD (R163, R166). -/
def execVadd (w : BitVec 1) (d a b : BitVec 5) (m : BitVec 1) (t : BitVec 3) (s : State) : Out :=
  laneOp w d a b m t (fun rm a b _ => byType t fadd (fun a b => a + b) rm a b) s

/-- VSUB (R163, R166). -/
def execVsub (w : BitVec 1) (d a b : BitVec 5) (m : BitVec 1) (t : BitVec 3) (s : State) : Out :=
  laneOp w d a b m t (fun rm a b _ => byType t fsub (fun a b => a - b) rm a b) s

/-- VMUL (R163, R166). -/
def execVmul (w : BitVec 1) (d a b : BitVec 5) (m : BitVec 1) (t : BitVec 3) (s : State) : Out :=
  laneOp w d a b m t (fun rm a b _ => byType t fmul (fun a b => a * b) rm a b) s

/-- VDIV (R163). -/
def execVdiv (w : BitVec 1) (d a b : BitVec 5) (m : BitVec 1) (t : BitVec 3) (s : State) : Out :=
  laneOp w d a b m t (fun rm a b _ => floatLane t (fun f => fdiv f rm a b) a) s

/-- VFMA (R163): VD is the accumulator. -/
def execVfma (w : BitVec 1) (d a b : BitVec 5) (m : BitVec 1) (t : BitVec 3) (s : State) : Out :=
  laneOp w d a b m t (fun rm a b c => floatLane t (fun f => ffma f rm a b c) a) s

/-- VFMS (R163): VD is the accumulator. -/
def execVfms (w : BitVec 1) (d a b : BitVec 5) (m : BitVec 1) (t : BitVec 3) (s : State) : Out :=
  laneOp w d a b m t (fun rm a b c => floatLane t (fun f => ffms f rm a b c) a) s

/-- VFNMA (R163): VD is the accumulator. -/
def execVfnma (w : BitVec 1) (d a b : BitVec 5) (m : BitVec 1) (t : BitVec 3) (s : State) : Out :=
  laneOp w d a b m t (fun rm a b c => floatLane t (fun f => ffnma f rm a b c) a) s

/-- VSQRT (R163). -/
def execVsqrt (w : BitVec 1) (d a : BitVec 5) (m : BitVec 1) (t : BitVec 3) (s : State) : Out :=
  laneUnary w d a m t (fun rm a => floatLane t (fun f => fsqrt f rm a) a) s

/-- VMIN (R158, R163, R166). -/
def execVmin (w : BitVec 1) (d a b : BitVec 5) (m : BitVec 1) (t : BitVec 3) (s : State) : Out :=
  laneOp w d a b m t (fun rm a b _ => byType t (fun f _ => fmin f) (fun a b => if a < b then a else b) rm a b) s

/-- VMAX (R158, R163, R166). -/
def execVmax (w : BitVec 1) (d a b : BitVec 5) (m : BitVec 1) (t : BitVec 3) (s : State) : Out :=
  laneOp w d a b m t (fun rm a b _ => byType t (fun f _ => fmax f) (fun a b => if a < b then b else a) rm a b) s

/-- VABS (R163, R166). -/
def execVabs (w : BitVec 1) (d a : BitVec 5) (m : BitVec 1) (t : BitVec 3) (s : State) : Out :=
  laneUnary w d a m t (fun rm a => byType t (fun f _ a _ => fabs f a) (fun a _ => Int.natAbs a) rm a 0) s

/-- VNEG (R163, R166). -/
def execVneg (w : BitVec 1) (d a : BitVec 5) (m : BitVec 1) (t : BitVec 3) (s : State) : Out :=
  laneUnary w d a m t (fun rm a => byType t (fun f _ a _ => fneg f a) (fun a _ => -a) rm a 0) s

/-- VCPS (R163). -/
def execVcps (w : BitVec 1) (d a b : BitVec 5) (m : BitVec 1) (t : BitVec 3) (s : State) : Out :=
  laneOp w d a b m t (fun _ a b _ => floatLane t (fun f => fcps f a b) a) s

/-- VRCP (R164). -/
def execVrcp (w : BitVec 1) (d a : BitVec 5) (m : BitVec 1) (t : BitVec 3) (s : State) : Out := laneUnary w d a m t (fun _ a => frcp a) s

/-- VRSQ (R164). -/
def execVrsq (w : BitVec 1) (d a : BitVec 5) (m : BitVec 1) (t : BitVec 3) (s : State) : Out := laneUnary w d a m t (fun _ a => frsq a) s

/-- VEXP2 (R164). -/
def execVexp2 (w : BitVec 1) (d a : BitVec 5) (m : BitVec 1) (t : BitVec 3) (s : State) : Out := laneUnary w d a m t (fun _ a => fexp2 a) s

/-- VLOG2 (R164). -/
def execVlog2 (w : BitVec 1) (d a : BitVec 5) (m : BitVec 1) (t : BitVec 3) (s : State) : Out := laneUnary w d a m t (fun _ a => flog2 a) s

/-- VDOT (R80, R165): two products of B16, or four of S8, into each of sixteen 32-bit lanes of VD. -/
def execVdot (w : BitVec 1) (d a b : BitVec 5) (m : BitVec 1) (t : BitVec 3) (s : State) : Out :=
  vecWrite w d [a, b] [] (fun th =>
    let va := th.vr a.toNat
    let vb := th.vr b.toNat
    let vc := th.vr d.toNat
    overLanes 32 vc (enabled m th) (fun i =>
      if t = 1 then
        let x := fun j => unpack B16 (getLane 16 (2 * i + j) va)
        let y := fun j => unpack B16 (getLane 16 (2 * i + j) vb)
        dot2 F32 (rmOf th.csr.fcsr) (unpack F32 (getLane 32 i vc)) (x 0) (y 0) (x 1) (y 1)
      else
        let p := fun j => toSigned 8 (getLane 8 (4 * i + j) va) * toSigned 8 (getLane 8 (4 * i + j) vb)
        (ofSigned 32 ((getLane 32 i vc : Nat) + p 0 + p 1 + p 2 + p 3), 0#5))) s

/-- VAND (R166). -/
def execVand (w : BitVec 1) (d a b : BitVec 5) (m : BitVec 1) (t : BitVec 3) (s : State) : Out :=
  laneOp w d a b m t (fun _ a b _ => (a &&& b, 0#5)) s

/-- VOR (R166). -/
def execVor (w : BitVec 1) (d a b : BitVec 5) (m : BitVec 1) (t : BitVec 3) (s : State) : Out :=
  laneOp w d a b m t (fun _ a b _ => (a ||| b, 0#5)) s

/-- VXOR (R166). -/
def execVxor (w : BitVec 1) (d a b : BitVec 5) (m : BitVec 1) (t : BitVec 3) (s : State) : Out :=
  laneOp w d a b m t (fun _ a b _ => (a ^^^ b, 0#5)) s

/-- VSHL (R166). -/
def execVshl (w : BitVec 1) (d a b : BitVec 5) (m : BitVec 1) (t : BitVec 3) (s : State) : Out :=
  laneOp w d a b m t (fun _ a b _ => ((a * 2 ^ laneShift t b) % 2 ^ tyWidth t.toNat, 0#5)) s

/-- VSHR (R166). -/
def execVshr (w : BitVec 1) (d a b : BitVec 5) (m : BitVec 1) (t : BitVec 3) (s : State) : Out :=
  laneOp w d a b m t (fun _ a b _ => (a / 2 ^ laneShift t b, 0#5)) s

/-- VSRA (R166). -/
def execVsra (w : BitVec 1) (d a b : BitVec 5) (m : BitVec 1) (t : BitVec 3) (s : State) : Out :=
  laneOp w d a b m t (fun _ a b _ => (ofSigned (tyWidth t.toNat) (toSigned (tyWidth t.toNat) a / (2 ^ laneShift t b : Nat)), 0#5)) s

/-- VADDS (R166): clamped to the lane type. -/
def execVadds (w : BitVec 1) (d a b : BitVec 5) (m : BitVec 1) (t : BitVec 3) (s : State) : Out :=
  laneOp w d a b m t (fun rm a b _ =>
    byType t (fun _ _ a _ => (a, 0#5)) (fun a b => clamp (tyMin t.toNat) (tyMax t.toNat) (a + b)) rm a b) s

/-- VSUBS (R166): clamped to the lane type. -/
def execVsubs (w : BitVec 1) (d a b : BitVec 5) (m : BitVec 1) (t : BitVec 3) (s : State) : Out :=
  laneOp w d a b m t (fun rm a b _ =>
    byType t (fun _ _ a _ => (a, 0#5)) (fun a b => clamp (tyMin t.toNat) (tyMax t.toNat) (a - b)) rm a b) s

/-- VMULH (R166). -/
def execVmulh (w : BitVec 1) (d a b : BitVec 5) (m : BitVec 1) (t : BitVec 3) (s : State) : Out :=
  laneOp w d a b m t (fun rm a b _ => byType t (fun _ _ a _ => (a, 0#5)) (fun a b => a * b / (2 ^ 32 : Nat)) rm a b) s

/-- A vector compare into `pw` (R167): the bits of the enabled lanes replaced, or ANDed into. -/
def vecCompare (w c : BitVec 1) (a b : BitVec 5) (m : BitVec 1) (t : BitVec 3) (k : FCmp) (fi : Int → Int → Bool)
    (s : State) : Out :=
  let n := tyWidth t.toNat
  issue w { vregs := [a.toNat, b.toNat], role := .float } (fun s tid th _ =>
    let lane := fun i =>
      let x := getLane n i (th.vr a.toNat)
      let y := getLane n i (th.vr b.toNat)
      match tyFmt t.toNat with
      | some f => fcompare k f x y
      | none => (fi (laneInt t.toNat x) (laneInt t.toNat y), 0#5)
    let on := (List.range (512 / n)).filter (enabled m th)
    let fl := on.foldl (fun fl i => fl ||| (lane i).2) 0#5
    .done (s.modThread tid (fun u =>
      { u.addFlags fl with pw := on.foldl (fun p i => setPw p c i (lane i).1) u.pw }))) s

/-- VCEQ (R167). -/
def execVceq (w c : BitVec 1) (a b : BitVec 5) (m : BitVec 1) (t : BitVec 3) (s : State) : Out :=
  vecCompare w c a b m t .eq (fun a b => a == b) s

/-- VCNE (R167). -/
def execVcne (w c : BitVec 1) (a b : BitVec 5) (m : BitVec 1) (t : BitVec 3) (s : State) : Out :=
  vecCompare w c a b m t .ne (fun a b => a != b) s

/-- VCLT (R167). -/
def execVclt (w c : BitVec 1) (a b : BitVec 5) (m : BitVec 1) (t : BitVec 3) (s : State) : Out :=
  vecCompare w c a b m t .lt (fun a b => decide (a < b)) s

/-- VCLE (R167). -/
def execVcle (w c : BitVec 1) (a b : BitVec 5) (m : BitVec 1) (t : BitVec 3) (s : State) : Out :=
  vecCompare w c a b m t .le (fun a b => decide (a ≤ b)) s

/-- VSEL (R168). -/
def execVsel (w : BitVec 1) (d a b : BitVec 5) (t : BitVec 3) (s : State) : Out :=
  let n := tyWidth t.toNat
  vecWrite w d [a, b] [] (fun th =>
    overLanes n 0 (fun _ => true) (fun i =>
      (getLane n i (if th.pw.getLsbD i then th.vr a.toNat else th.vr b.toNat), 0#5))) s

/-- One element converted between types (R71, R169): integers saturate. -/
def convertLane (src dst : Nat) (rm : RM) (x : Nat) : Nat × Flags :=
  match tyFmt src, tyFmt dst with
  | some f, some g => fconvert f g rm x
  | some f, none => let r := toInt f rm (tyMin dst) (tyMax dst) x; (ofSigned (tyWidth dst) r.1, r.2)
  | none, some g => ofInt g rm (laneInt src x)
  | none, none =>
    if src = 7 ∧ dst = 6 ∧ laneInt src x < 0 then ((Config.widenNegative (BitVec.ofNat 8 x)).toNat, 0#5)
    else (ofSigned (tyWidth dst) (clamp (tyMin dst) (tyMax dst) (laneInt src x)), 0#5)

/-- VCVT (R169): part p of the source, or into part p of the destination. -/
def execVcvt (w : BitVec 1) (d a p : BitVec 5) (m : BitVec 1) (t u : BitVec 3) (s : State) : Out :=
  let ns := tyLanes u.toNat
  let nd := tyLanes t.toNat
  let k := min ns nd
  vecWrite w d [a] [] (fun th =>
    overLanes (tyWidth t.toNat) (th.vr d.toNat)
      (fun i => enabled m th i && (decide (ns > nd) || decide (p.toNat * k ≤ i ∧ i < p.toNat * k + k)))
      (fun i =>
        let j := if ns > nd then p.toNat * k + i else i - p.toNat * k
        convertLane u.toNat t.toNat (rmOf th.csr.fcsr) (getLane (tyWidth u.toNat) j (th.vr a.toNat)))) s

/-- VPERM (R170). -/
def execVperm (w : BitVec 1) (d a b : BitVec 5) (m : BitVec 1) (t : BitVec 3) (s : State) : Out :=
  let n := tyWidth t.toNat
  vecWrite w d [a, b] [] (fun th =>
    overLanes n (th.vr d.toNat) (enabled m th) (fun i =>
      (getLane n (getLane n i (th.vr b.toNat) % tyLanes t.toNat) (th.vr a.toNat), 0#5))) s

/-- The lane that VBCST, VINS and VEXT name: M is its high bit when there are 64 lanes (R170). -/
def laneNumber (l : BitVec 5) (m : BitVec 1) (t : BitVec 3) : Nat :=
  if tyLanes t.toNat = 64 then 32 * m.toNat + l.toNat else l.toNat

/-- VBCST (R170). -/
def execVbcst (w : BitVec 1) (d a l : BitVec 5) (m : BitVec 1) (t : BitVec 3) (s : State) : Out :=
  let n := tyWidth t.toNat
  vecWrite w d [a] [] (fun th =>
    overLanes n 0 (fun _ => true) (fun _ => (getLane n (laneNumber l m t) (th.vr a.toNat), 0#5))) s

/-- VINS (R170): a is the number of a scalar register. -/
def execVins (w : BitVec 1) (d a l : BitVec 5) (m : BitVec 1) (t : BitVec 3) (s : State) : Out :=
  let n := tyWidth t.toNat
  vecWrite w d [] [a.toNat] (fun th => (setLane n (laneNumber l m t) (th.vr d.toNat) (th.xr a.toNat).toNat, 0#5)) s

/-- VEXT (R170): d is the number of a scalar register, written untainted. -/
def execVext (w : BitVec 1) (d a l : BitVec 5) (m : BitVec 1) (t : BitVec 3) (s : State) : Out :=
  issue w { vregs := [a.toNat], dst := some d.toNat, role := .float } (fun s _ th _ =>
    let x := getLane (tyWidth t.toNat) (laneNumber l m t) (th.vr a.toNat)
    .clean (if t = 5 ∨ t = 7 then BitVec.ofInt 64 (toSigned (tyWidth t.toNat) x) else word x) s) s

/-- VMOVS (R170): a is the number of a scalar register. -/
def execVmovs (w : BitVec 1) (d a : BitVec 5) (m : BitVec 1) (t : BitVec 3) (s : State) : Out :=
  vecWrite w d [] [a.toNat] (fun th =>
    overLanes (tyWidth t.toNat) (th.vr d.toNat) (enabled m th) (fun _ => ((th.xr a.toNat).toNat, 0#5))) s

/-- A lane move of two sources (R170): which source lane each destination lane takes, true for VB. -/
def laneMove (w : BitVec 1) (d a b : BitVec 5) (m : BitVec 1) (t : BitVec 3) (f : Nat → Bool × Nat) (s : State) : Out :=
  let n := tyWidth t.toNat
  vecWrite w d [a, b] [] (fun th =>
    overLanes n (th.vr d.toNat) (enabled m th) (fun i =>
      (getLane n (f i).2 (if (f i).1 then th.vr b.toNat else th.vr a.toNat), 0#5))) s

/-- VZIPL (R170). -/
def execVzipl (w : BitVec 1) (d a b : BitVec 5) (m : BitVec 1) (t : BitVec 3) (s : State) : Out :=
  laneMove w d a b m t (fun i => (decide (i % 2 = 1), i / 2)) s

/-- VZIPH (R170). -/
def execVziph (w : BitVec 1) (d a b : BitVec 5) (m : BitVec 1) (t : BitVec 3) (s : State) : Out :=
  laneMove w d a b m t (fun i => (decide (i % 2 = 1), i / 2 + tyLanes t.toNat / 2)) s

/-- VUZPE (R170). -/
def execVuzpe (w : BitVec 1) (d a b : BitVec 5) (m : BitVec 1) (t : BitVec 3) (s : State) : Out :=
  laneMove w d a b m t (fun i => (decide (i ≥ tyLanes t.toNat / 2), 2 * (i % (tyLanes t.toNat / 2)))) s

/-- VUZPO (R170). -/
def execVuzpo (w : BitVec 1) (d a b : BitVec 5) (m : BitVec 1) (t : BitVec 3) (s : State) : Out :=
  laneMove w d a b m t (fun i => (decide (i ≥ tyLanes t.toNat / 2), 2 * (i % (tyLanes t.toNat / 2)) + 1)) s

/-- One level of the tree of R81: neighbours combined, the lower lane on the left. -/
def pairUp (op : Nat → Nat → Nat × Flags) (l : List Nat) : List Nat × Flags :=
  match l with
  | a :: b :: r =>
    let x := op a b
    let y := pairUp op r
    (x.1 :: y.1, x.2 ||| y.2)
  | l => (l, 0#5)

/-- The tree over 2^n lanes (R81). -/
def treeOf (op : Nat → Nat → Nat × Flags) (n : Nat) (l : List Nat) : Nat × Flags :=
  match n with
  | 0 => (nth l 0 0, 0#5)
  | k + 1 =>
    let r := pairUp op l
    let x := treeOf op k r.1
    (x.1, r.2 ||| x.2)

/-- A reduction (R171): each enabled lane enters through `enter`, a disabled one as the identity; the result fills the low
u bits of VD and the others become zero. -/
def reduce (w : BitVec 1) (d a : BitVec 5) (m : BitVec 1) (t : BitVec 3) (u ident : Nat) (enter : Nat → Nat × Flags)
    (op : RM → Nat → Nat → Nat × Flags) (s : State) : Out :=
  let n := tyWidth t.toNat
  vecWrite w d [a] [] (fun th =>
    let xs := (List.range (tyLanes t.toNat)).map (fun i =>
      if enabled m th i then enter (getLane n i (th.vr a.toNat)) else (ident, 0#5))
    let r := treeOf (op (rmOf th.csr.fcsr)) (tyLanes t.toNat).log2 (xs.map (fun x => x.1))
    (BitVec.ofNat 512 (r.1 % 2 ^ u), xs.foldl (fun fl x => fl ||| x.2) r.2)) s

/-- VRSUM (R171): F32 sums of widened lanes, or 32-bit wrapping sums. With no lane enabled nothing is computed. -/
def execVrsum (w : BitVec 1) (d a : BitVec 5) (m : BitVec 1) (t : BitVec 3) (s : State) : Out :=
  match tyFmt t.toNat with
  | some f =>
    reduce w d a m t 32 0x80000000 (fun x => if f = F32 then (x, 0#5) else fconvert f F32 .rne x) (fun rm => fadd F32 rm) s
  | none =>
    reduce w d a m t 32 0 (fun x => (ofSigned 32 (laneInt t.toNat x), 0#5)) (fun _ a b => ((a + b) % 2 ^ 32, 0#5)) s

/-- VRMAX and VRMIN (R158, R171). -/
def reduceMinMax (w : BitVec 1) (d a : BitVec 5) (m : BitVec 1) (t : BitVec 3) (isMax : Bool) (s : State) : Out :=
  let n := tyWidth t.toNat
  match tyFmt t.toNat with
  | some f => reduce w d a m t n (signed f isMax f.infCode) (fun x => (x, 0#5)) (fun _ => fminmax isMax f) s
  | none =>
    reduce w d a m t n (ofSigned n (if isMax then tyMin t.toNat else tyMax t.toNat)) (fun x => (x, 0#5))
      (fun _ a b => (if decide (laneInt t.toNat a < laneInt t.toNat b) = isMax then b else a, 0#5)) s

/-- VRMAX (R171). -/
def execVrmax (w : BitVec 1) (d a : BitVec 5) (m : BitVec 1) (t : BitVec 3) (s : State) : Out := reduceMinMax w d a m t true s

/-- VRMIN (R171). -/
def execVrmin (w : BitVec 1) (d a : BitVec 5) (m : BitVec 1) (t : BitVec 3) (s : State) : Out := reduceMinMax w d a m t false s

/-- VRAND (R171). -/
def execVrand (w : BitVec 1) (d a : BitVec 5) (m : BitVec 1) (t : BitVec 3) (s : State) : Out :=
  reduce w d a m t (tyWidth t.toNat) (2 ^ tyWidth t.toNat - 1) (fun x => (x, 0#5)) (fun _ a b => (a &&& b, 0#5)) s

/-- VROR (R171). -/
def execVror (w : BitVec 1) (d a : BitVec 5) (m : BitVec 1) (t : BitVec 3) (s : State) : Out :=
  reduce w d a m t (tyWidth t.toNat) 0 (fun x => (x, 0#5)) (fun _ a b => (a ||| b, 0#5)) s

end Sys2Proof.Machine
end

