-- ==== Sys2Proof/Machine/Access.lean ====
section
/-! DEFINITION. Loads, stores, atomics, fences, full/empty words, waits and migration (R188 to R205). -/
namespace Sys2Proof.Machine

/-- Who makes an access of a thread's instruction. -/
def Thread.who (t : Thread) : Who := ⟨t.user, t.lnum, t.core⟩

/-- The context of an MT sent to core c (R49, R204): it holds no position until it arrives. -/
def State.sendTo (s : State) (tid c : Nat) : State :=
  s.modThread tid (fun t =>
    { t with state := .unplaced, place := none, flying := true, core := c, preempt := false, ppt := false, wait := none, hold := [] })

/-- The steps by which an MT moves to the home of an address before its access (R195, R204): it settles, its writes
complete, and it goes there unless it stands there; `k` goes on in place. -/
def State.moveTo (s : State) (tid : Nat) (t : Thread) (home : Nat) (k : State → Act) : Act :=
  if ¬ t.allReturned then .stall t.outIds
  else if ¬ (s.writeIds tid).isEmpty then .stall (s.writeIds tid)
  else
    let s := s.settle tid
    if home % 4096 = t.core then k s else .left (s.sendTo tid (home % 4096))

/-- Results of a thread that have not returned; the 33rd deferred instruction is held at issue (R31). -/
def Thread.tooMany (t : Thread) : Bool := decide ((t.outs.filter (fun d => ! d.waiting.isEmpty)).length ≥ 32)

/-- The taint bit of a scalar field (R93). -/
def Thread.taintOf (t : Thread) (f : Nat) : Bool := decide (f ≤ 111) && nth t.taint f false

/-- Window registers that a field names by number. -/
def winReg (f : BitVec 7) : List Nat := if f.toNat ≤ 111 then [f.toNat] else []

/-- One load issued whose value is the whole result (R190, R196). -/
def State.issueLoad (s : State) (tid : Nat) (t : Thread) (loc : Loc) (dest n : Nat) (sink : Sink) (taint acq : Bool) : State :=
  let num := s.accN
  (s.openResult tid dest 0 taint [num]).issueAcc tid t.core loc (.load n num sink false) acq (s.viewIds tid loc n)

/-- A scalar load (R190): r is ORD (R105). -/
def scalarLoad (w : BitVec 1) (t b : BitVec 7) (r : BitVec 3) (o : BitVec 8) (n : Nat) (sgn : Bool) (s : State) : Out :=
  issue w { srcs := [b.toNat], regs := winReg t, role := .address, mtOnly := decide (r = 5) } (fun s tid th xs =>
    let a := arg xs 0 + o.signExtend 64 * word n
    match s.locate th.who .load a n with
    | .error e => .trapAfter e.code e.tval (fun s => s.noteEntry th.who e)
    | .ok loc =>
      if th.tooMany then .stall th.outIds
      else
        let go := fun (s : State) =>
          .done (((s.noteTlb th.core a).noteUse loc).issueLoad tid th loc t.toNat n (.scalar n sgn)
            (decide (r = 2) || th.taintOf b.toNat) (decide (r = 1 ∨ r = 6)))
        if r = 5 then s.moveTo tid th loc.home go else go s) s

/-- A scalar store (R190). -/
def scalarStore (w : BitVec 1) (t b : BitVec 7) (r : BitVec 3) (o : BitVec 8) (n : Nat) (s : State) : Out :=
  issue w { srcs := [b.toNat, t.toNat], role := .address, mtOnly := decide (r = 5) } (fun s tid th xs =>
    let a := arg xs 0 + o.signExtend 64 * word n
    match s.locate th.who .store a n with
    | .error e => .trap e.code e.tval
    | .ok loc =>
      let go := fun (s : State) =>
        .done ((s.noteTlb th.core a).issueAcc tid th.core loc (.store (bytesOf n (arg xs 1).toNat)) false
          (if r = 1 then s.releaseIds tid 4 else []))
      if r = 5 then s.moveTo tid th loc.home go else go s) s

/-- LDS8 (R189, R190). -/
def execLds8 (w : BitVec 1) (t b : BitVec 7) (r : BitVec 3) (o : BitVec 8) (s : State) : Out := scalarLoad w t b r o 1 true s

/-- LDN8 (R189, R190). -/
def execLdn8 (w : BitVec 1) (t b : BitVec 7) (r : BitVec 3) (o : BitVec 8) (s : State) : Out := scalarLoad w t b r o 1 false s

/-- LDS16 (R189, R190). -/
def execLds16 (w : BitVec 1) (t b : BitVec 7) (r : BitVec 3) (o : BitVec 8) (s : State) : Out := scalarLoad w t b r o 2 true s

/-- LDN16 (R189, R190). -/
def execLdn16 (w : BitVec 1) (t b : BitVec 7) (r : BitVec 3) (o : BitVec 8) (s : State) : Out := scalarLoad w t b r o 2 false s

/-- LDS32 (R189, R190). -/
def execLds32 (w : BitVec 1) (t b : BitVec 7) (r : BitVec 3) (o : BitVec 8) (s : State) : Out := scalarLoad w t b r o 4 true s

/-- LDN32 (R189, R190). -/
def execLdn32 (w : BitVec 1) (t b : BitVec 7) (r : BitVec 3) (o : BitVec 8) (s : State) : Out := scalarLoad w t b r o 4 false s

/-- LD64 (R189, R190). -/
def execLd64 (w : BitVec 1) (t b : BitVec 7) (r : BitVec 3) (o : BitVec 8) (s : State) : Out := scalarLoad w t b r o 8 false s

/-- ST8 (R189, R190). -/
def execSt8 (w : BitVec 1) (t b : BitVec 7) (r : BitVec 3) (o : BitVec 8) (s : State) : Out := scalarStore w t b r o 1 s

/-- ST16 (R189, R190). -/
def execSt16 (w : BitVec 1) (t b : BitVec 7) (r : BitVec 3) (o : BitVec 8) (s : State) : Out := scalarStore w t b r o 2 s

/-- ST32 (R189, R190). -/
def execSt32 (w : BitVec 1) (t b : BitVec 7) (r : BitVec 3) (o : BitVec 8) (s : State) : Out := scalarStore w t b r o 4 s

/-- ST64 (R189, R190). -/
def execSt64 (w : BitVec 1) (t b : BitVec 7) (r : BitVec 3) (o : BitVec 8) (s : State) : Out := scalarStore w t b r o 8 s

/-- The region and window of a base address (R192): none for global memory. -/
inductive LaneRegion where
  | global | own (window : Nat) | remote (window : Nat) | other
  deriving DecidableEq, Repr

def laneRegion (a : Word) : LaneRegion :=
  match regionOf a with
  | some .global => .global
  | some (.own w _) => .own w
  | some (.scratch _ w _) => .remote w
  | _ => .other

/-- The window of a base: 0 in global memory, and of a base in no region or in 0xE8 or 0xFC, whose lanes are so aligned to 4
(DESIGN CHOICE, log 72). -/
def LaneRegion.window (r : LaneRegion) : Nat :=
  match r with
  | .own w => w
  | .remote w => w
  | _ => 0

/-- Element size of a window (R192). Window 6 has none: its lanes take FORMAT whatever their alignment (DEDUCED, log 41). -/
def windowSize (w : Nat) : Nat :=
  match w with
  | 0 => 4
  | 1 => 4
  | 2 => 2
  | 3 => 2
  | _ => 1

/-- The checks of R188 on one lane, with those of R192 as step 5 (DEDUCED, log 41). -/
def State.locateLane (s : State) (w : Who) (u : For) (base a : Word) (e : Nat) : Except TrapRec Loc :=
  if a.toNat % e ≠ 0 then .error ⟨cMISALIGNED, a⟩
  else
    let same := decide (laneRegion a = laneRegion base)
    match laneRegion a with
    | .other => s.locate' w u a e
    | .global => if same then s.locate' w u a e else .error ⟨cFORMAT, a⟩
    | _ =>
      match s.locate' w u a e with
      | .error r => if r.code = cSPRANGE then .error r else .error (if same then r else ⟨cFORMAT, a⟩)
      | .ok l => if same then .ok l else .error ⟨cFORMAT, a⟩

/-- The first lane of a vector memory instruction (R194). -/
def Thread.startLane (t : Thread) : Nat := if bitAt t.csr.tprog 6 then bits t.csr.tprog 5 0 else 0

/-- `tprog` after a fault at lane i, or after completion (R193, R194). -/
def Thread.stopAt (t : Thread) (i : Option Nat) : Thread :=
  t.modCsr (fun c => { c with tprog := match i with
    | some i => word (64 + i)
    | none => setBits c.tprog 6 6 0 })

/-- The enabled lanes from the start to the first fault: lane, address and place (R193). -/
def State.laneScan (s : State) (addr : Nat → Word) (check : Word → Except TrapRec Loc) (lanes : List Nat) :
    List (Nat × Word × Loc) × Option (Nat × TrapRec) :=
  match lanes with
  | [] => ([], none)
  | i :: r =>
    match check (addr i) with
    | .error e => ([], some (i, e))
    | .ok l => let (ls, f) := s.laneScan addr check r; ((i, addr i, l) :: ls, f)

/-- The end of a vector memory instruction: complete, or the trap of the lane that failed, with the lanes before it
performed (R194). -/
def laneEnd (s : State) (tid : Nat) (f : Option (Nat × TrapRec)) (g : State → State) : Act :=
  match f with
  | none => .done ((g s).modThread tid (fun t => t.stopAt none))
  | some (i, e) =>
    .trapAfter e.code e.tval (fun s =>
      let s := (g s).modThread tid (fun t => t.stopAt (some i))
      match s.thread tid with
      | some t => s.noteEntry t.who e
      | none => s)

/-- Lane accesses issued one by one, each with its operation and what it waits for (R193). -/
def State.issueLanes (s : State) (tid core : Nat) (acq : Bool) (ls : List (Nat × Word × Loc)) (op : Nat → AccOp)
    (after : State → Loc → AccOp → List Nat) : State :=
  ls.foldl (fun s e => ((s.noteTlb core e.2.1).noteUse e.2.2).issueAfter tid core e.2.2 (op e.1) acq (after s e.2.2 (op e.1))) s

/-- Lanes that a mask enables from the start lane (R193). -/
def Thread.lanesFrom (t : Thread) (m : BitVec 1) (n : Nat) : List Nat :=
  (List.range n).filter (fun i => decide (i ≥ t.startLane) && enabled m t i)

/-- A vector load (R192, R193): the result keeps VT in the lanes that are not loaded. -/
def vectorLoad (w : BitVec 1) (t : BitVec 5) (srcs : List Nat) (vs : List (BitVec 5)) (m : BitVec 1) (r : BitVec 2)
    (addr : Thread → List Word → Nat → Nat → Word) (s : State) : Out :=
  issue w { srcs := srcs, vregs := (t :: vs).map (fun v => v.toNat), role := .address } (fun s tid th xs =>
    let base := arg xs 0
    let win := (laneRegion base).window
    let e := windowSize win
    let (ls, f) := s.laneScan (addr th xs e) (fun a => s.locateLane th.who .load base a e) (th.lanesFrom m 16)
    if th.tooMany then .stall th.outIds
    else
      laneEnd s tid f (fun s =>
        let num := s.accN
        let pre := s.acquireIds tid
        let s0 := s
        let s := s.openResult tid (128 + t.toNat) (th.vr t.toNat) false ((List.range ls.length).map (fun i => num + i))
        s.issueLanes tid th.core (decide (r = 1)) ls (fun i => .load e num (.lane i win) false)
          (fun _ l op => s0.meetIds tid l.key op.size true ++ pre ++ s0.viewIds tid l e))) s

/-- The bytes and flags of one lane stored through a window (R74, R192). -/
def storeLane (win : Nat) (rm : RM) (x : Nat) : List Byte × Flags :=
  let f := fun (n : Nat) (r : Nat × Flags) => (bytesOf n r.1, r.2)
  match win with
  | 2 => f 2 (fconvert F32 B16 rm x)
  | 3 => f 2 (fconvert F32 F16 rm x)
  | 4 => f 1 (fconvert F32 E4 rm x)
  | 5 => f 1 (fconvert F32 E5 rm x)
  | 7 => f 1 (ofSigned 8 (clamp (-128) 127 (toSigned 32 x)), 0#5)
  | _ => f 4 (x, 0#5)

/-- The stores of a vector store, in lane order: each lane with its place and bytes; lanes that together write a whole
scratchpad word are one store of it (R215). -/
def mergeLanes (ls : List (Nat × Word × Loc)) (bytes : Nat → List Byte) : List (Word × Loc × List Byte) :=
  let base := fun (l : Loc) => l.key - l.key % 16
  let inWord := fun (b : Nat) => ls.filter (fun (e : Nat × Word × Loc) => decide (base e.2.2 = b))
  let image := fun (b : Nat) => (List.range 16).filterMap (fun i =>
    (inWord b).reverse.findSome? (fun (e : Nat × Word × Loc) => if e.2.2.key ≤ b + i then (bytes e.1)[b + i - e.2.2.key]? else none))
  ls.filterMap (fun (e : Nat × Word × Loc) =>
    let b := base e.2.2
    let w := image b
    if e.2.2.key < 2 ^ 44 ∨ 2 ^ 45 ≤ e.2.2.key ∨ w.length < 16 then some (e.2.1, e.2.2, bytes e.1)
    else if (inWord b).head?.map (fun f => f.1) ≠ some e.1 then none
    else
      let d := word (e.2.2.key - b)
      some (e.2.1 - d, { e.2.2 with key := b, va := e.2.2.va - d }, w))

/-- A vector store (R192, R193). -/
def vectorStore (w : BitVec 1) (t : BitVec 5) (srcs : List Nat) (vs : List (BitVec 5)) (m : BitVec 1) (r : BitVec 2)
    (addr : Thread → List Word → Nat → Nat → Word) (s : State) : Out :=
  issue w { srcs := srcs, vregs := (t :: vs).map (fun v => v.toNat), role := .address } (fun s tid th xs =>
    let base := arg xs 0
    let win := (laneRegion base).window
    let e := windowSize win
    let (ls, f) := s.laneScan (addr th xs e) (fun a => s.locateLane th.who .store base a e) (th.lanesFrom m 16)
    let lane := fun i => storeLane win (rmOf th.csr.fcsr) (getLane 32 i (th.vr t.toNat))
    laneEnd s tid f (fun s =>
      let pre := s.acquireIds tid ++ (if r = 1 then s.releaseIds tid 4 else [])
      let s := (mergeLanes ls (fun i => (lane i).1)).foldl (fun (s : State) e =>
        ((s.noteTlb th.core e.1).noteUse e.2.1).issueAfter tid th.core e.2.1 (.store e.2.2) false
          (s.meetIds tid e.2.1.key e.2.2.length false ++ pre)) s
      s.modThread tid (fun u => u.addFlags (ls.foldl (fun fl e => fl ||| (lane e.1).2) 0#5)))) s

/-- Lane addresses (R191). -/
def addrContig (_ : Thread) (xs : List Word) (e i : Nat) : Word := arg xs 0 + word (i * e)
def addrStride (_ : Thread) (xs : List Word) (_ i : Nat) : Word := arg xs 0 + word i * arg xs 1
def addrIndex (x : BitVec 5) (t : Thread) (xs : List Word) (_ i : Nat) : Word :=
  arg xs 0 + (BitVec.ofNat 32 (getLane 32 i (t.vr x.toNat))).signExtend 64

/-- VLD (R193). -/
def execVld (w : BitVec 1) (t : BitVec 5) (b : BitVec 7) (m : BitVec 1) (r : BitVec 2) (s : State) : Out :=
  vectorLoad w t [b.toNat] [] m r addrContig s

/-- VLDS (R193). -/
def execVlds (w : BitVec 1) (t : BitVec 5) (b x : BitVec 7) (m : BitVec 1) (r : BitVec 2) (s : State) : Out :=
  vectorLoad w t [b.toNat, x.toNat] [] m r addrStride s

/-- VGTH (R193). -/
def execVgth (w : BitVec 1) (t : BitVec 5) (b : BitVec 7) (x : BitVec 5) (m : BitVec 1) (r : BitVec 2) (s : State) : Out :=
  vectorLoad w t [b.toNat] [x] m r (addrIndex x) s

/-- VST (R193). -/
def execVst (w : BitVec 1) (t : BitVec 5) (b : BitVec 7) (m : BitVec 1) (r : BitVec 2) (s : State) : Out :=
  vectorStore w t [b.toNat] [] m r addrContig s

/-- VSTS (R193). -/
def execVsts (w : BitVec 1) (t : BitVec 5) (b x : BitVec 7) (m : BitVec 1) (r : BitVec 2) (s : State) : Out :=
  vectorStore w t [b.toNat, x.toNat] [] m r addrStride s

/-- VSCT (R193). -/
def execVsct (w : BitVec 1) (t : BitVec 5) (b : BitVec 7) (x : BitVec 5) (m : BitVec 1) (r : BitVec 2) (s : State) : Out :=
  vectorStore w t [b.toNat] [x] m r (addrIndex x) s

/-- An atomic with return (R195, R196): r is FN[3:2]. CAS reads its comparand through D. -/
def atomic (w : BitVec 1) (d a b : BitVec 7) (r : BitVec 2) (n : Nat) (op : Rmw) (s : State) : Out :=
  issue w { srcs := [a.toNat, b.toNat], regs := winReg d, role := .address } (fun s tid th xs =>
    match s.locate th.who .atomic (arg xs 0) n with
    | .error e => .trap e.code e.tval
    | .ok loc =>
      if th.tooMany then .stall th.outIds
      else
        let go := fun (s : State) =>
          let num := s.accN
          let cmp := if d.toNat ≤ 111 then th.xr d.toNat else 0
          .done (((s.noteTlb th.core (arg xs 0)).openResult tid d.toNat 0 (th.taintOf a.toNat || th.taintOf b.toNat) [num]).issueAcc
            tid th.core loc (.rmw op n (arg xs 1) cmp (some (num, .whole))) (bitAt (word r.toNat) 0)
            (if bitAt (word r.toNat) 1 then s.releaseIds tid 4 else []))
        if th.kind = .mt then s.moveTo tid th loc.home go else go s) s

/-- AMO64 SWAP (R196). -/
def execAmo64Swap (w : BitVec 1) (d a b : BitVec 7) (r : BitVec 2) (s : State) : Out := atomic w d a b r 8 .swap s

/-- AMO64 CAS (R196). -/
def execAmo64Cas (w : BitVec 1) (d a b : BitVec 7) (r : BitVec 2) (s : State) : Out := atomic w d a b r 8 .cas s

/-- AMO64 ADD (R196). -/
def execAmo64Add (w : BitVec 1) (d a b : BitVec 7) (r : BitVec 2) (s : State) : Out := atomic w d a b r 8 .add s

/-- AMO64 FADD (R196). -/
def execAmo64Fadd (w : BitVec 1) (d a b : BitVec 7) (r : BitVec 2) (s : State) : Out := atomic w d a b r 8 .fadd s

/-- AMO32 SWAP (R196). -/
def execAmo32Swap (w : BitVec 1) (d a b : BitVec 7) (r : BitVec 2) (s : State) : Out := atomic w d a b r 4 .swap s

/-- AMO32 CAS (R196). -/
def execAmo32Cas (w : BitVec 1) (d a b : BitVec 7) (r : BitVec 2) (s : State) : Out := atomic w d a b r 4 .cas s

/-- AMO32 ADD (R196). -/
def execAmo32Add (w : BitVec 1) (d a b : BitVec 7) (r : BitVec 2) (s : State) : Out := atomic w d a b r 4 .add s

/-- AMO32 FADD (R196). -/
def execAmo32Fadd (w : BitVec 1) (d a b : BitVec 7) (r : BitVec 2) (s : State) : Out := atomic w d a b r 4 .fadd s

/-- A reduction without result (R197): z is the width, c the release scope. -/
def reduction (w z : BitVec 1) (c : BitVec 3) (a b : BitVec 7) (op : Rmw) (s : State) : Out :=
  let n := if z = 1 then 4 else 8
  issue w { srcs := [a.toNat, b.toNat], role := .address } (fun s tid th xs =>
    match s.locate th.who .atomic (arg xs 0) n with
    | .error e => .trap e.code e.tval
    | .ok loc =>
      .done ((s.noteTlb th.core (arg xs 0)).issueAcc tid th.core loc (.rmw op n (arg xs 1) 0 none) false
        (if c = 0 then [] else s.releaseIds tid c.toNat))) s

/-- RED ADD (R197). -/
def execRedAdd (w z : BitVec 1) (c : BitVec 3) (a b : BitVec 7) (s : State) : Out := reduction w z c a b .add s

/-- RED AND (R197). -/
def execRedAnd (w z : BitVec 1) (c : BitVec 3) (a b : BitVec 7) (s : State) : Out := reduction w z c a b .and s

/-- RED OR (R197). -/
def execRedOr (w z : BitVec 1) (c : BitVec 3) (a b : BitVec 7) (s : State) : Out := reduction w z c a b .or s

/-- RED XOR (R197). -/
def execRedXor (w z : BitVec 1) (c : BitVec 3) (a b : BitVec 7) (s : State) : Out := reduction w z c a b .xor s

/-- RED MAX (R197). -/
def execRedMax (w z : BitVec 1) (c : BitVec 3) (a b : BitVec 7) (s : State) : Out := reduction w z c a b .max s

/-- RED MIN (R197). -/
def execRedMin (w z : BitVec 1) (c : BitVec 3) (a b : BitVec 7) (s : State) : Out := reduction w z c a b .min s

/-- RED MAXN (R197). -/
def execRedMaxn (w z : BitVec 1) (c : BitVec 3) (a b : BitVec 7) (s : State) : Out := reduction w z c a b .maxn s

/-- RED MINN (R197). -/
def execRedMinn (w z : BitVec 1) (c : BitVec 3) (a b : BitVec 7) (s : State) : Out := reduction w z c a b .minn s

/-- RED FADD (R197). -/
def execRedFadd (w z : BitVec 1) (c : BitVec 3) (a b : BitVec 7) (s : State) : Out := reduction w z c a b .fadd s

/-- RED FMAX (R197). -/
def execRedFmax (w z : BitVec 1) (c : BitVec 3) (a b : BitVec 7) (s : State) : Out := reduction w z c a b .fmax s

/-- RED FMIN (R197). -/
def execRedFmin (w z : BitVec 1) (c : BitVec 3) (a b : BitVec 7) (s : State) : Out := reduction w z c a b .fmin s

/-- A vector atomic (R198): eight lanes, addresses from VA, operands from VB, old values into VD. -/
def vectorAtomic (w : BitVec 1) (d a b : BitVec 5) (m : BitVec 1) (r : BitVec 2) (op : Rmw) (s : State) : Out :=
  issue w { vregs := [d.toNat, a.toNat, b.toNat], role := .address } (fun s tid th _ =>
    let addr := fun i => word (getLane 64 i (th.vr a.toNat))
    let (ls, f) := s.laneScan addr (fun x => s.locate th.who .atomic x 4) (th.lanesFrom m 8)
    if th.tooMany then .stall th.outIds
    else
      laneEnd s tid f (fun s =>
        let num := s.accN
        let pre := s.acquireIds tid ++ (if bitAt (word r.toNat) 1 then s.releaseIds tid 4 else [])
        let s := s.openResult tid (128 + d.toNat) (th.vr d.toNat) false ((List.range ls.length).map (fun i => num + i))
        s.issueLanes tid th.core (bitAt (word r.toNat) 0) ls
          (fun i => .rmw op 4 (word (getLane 32 i (th.vr b.toNat))) 0 (some (num, .old i)))
          (fun s l op => s.meetIds tid l.key op.size true ++ pre))) s

/-- VAMO SWAP (R198). -/
def execVamoSwap (w : BitVec 1) (d a b : BitVec 5) (m : BitVec 1) (_t : BitVec 3) (r : BitVec 2) (s : State) : Out :=
  vectorAtomic w d a b m r .swap s

/-- VAMO ADD (R198): lanes of TY F32, which R125 allows, are added as integers of 32 bits (DESIGN CHOICE, log 73). -/
def execVamoAdd (w : BitVec 1) (d a b : BitVec 5) (m : BitVec 1) (_t : BitVec 3) (r : BitVec 2) (s : State) : Out :=
  vectorAtomic w d a b m r .add s

/-- VAMO AND (R198). -/
def execVamoAnd (w : BitVec 1) (d a b : BitVec 5) (m : BitVec 1) (_t : BitVec 3) (r : BitVec 2) (s : State) : Out :=
  vectorAtomic w d a b m r .and s

/-- VAMO OR (R198). -/
def execVamoOr (w : BitVec 1) (d a b : BitVec 5) (m : BitVec 1) (_t : BitVec 3) (r : BitVec 2) (s : State) : Out :=
  vectorAtomic w d a b m r .or s

/-- VAMO XOR (R198). -/
def execVamoXor (w : BitVec 1) (d a b : BitVec 5) (m : BitVec 1) (_t : BitVec 3) (r : BitVec 2) (s : State) : Out :=
  vectorAtomic w d a b m r .xor s

/-- VAMO FADD (R198). -/
def execVamoFadd (w : BitVec 1) (d a b : BitVec 5) (m : BitVec 1) (_t : BitVec 3) (r : BitVec 2) (s : State) : Out :=
  vectorAtomic w d a b m r .fadd s

/-- VAMO MAX (R198): signed for S32, unsigned for N32, R158 for F32. -/
def execVamoMax (w : BitVec 1) (d a b : BitVec 5) (m : BitVec 1) (t : BitVec 3) (r : BitVec 2) (s : State) : Out :=
  vectorAtomic w d a b m r (if t = 0 then .fmax else if t = 6 then .maxn else .max) s

/-- VAMO MIN (R198): signed for S32, unsigned for N32, R158 for F32. -/
def execVamoMin (w : BitVec 1) (d a b : BitVec 5) (m : BitVec 1) (t : BitVec 3) (r : BitVec 2) (s : State) : Out :=
  vectorAtomic w d a b m r (if t = 0 then .fmin else if t = 6 then .minn else .min) s

/-- FENCE (R200): the thread stalls until the writes within the scope are complete; later accesses follow its earlier
reads, which do not hold the thread. -/
def execFence (w : BitVec 1) (c : BitVec 3) (s : State) : Out :=
  issue w {} (fun s tid _ _ =>
    let ws := (s.accs.filter (fun a => a.tid = tid && a.op.isWrite && covers c.toNat a.level)).map (fun a => a.id)
    if ¬ ws.isEmpty then .stall ws
    else
      .done { s with accs := s.accs.map (fun a => if a.tid = tid && a.op.isRead then { a with acq := true } else a) }) s

/-- LDFE and LDFEC (R201): satisfied at once, or registered at the home (R203). A poisoned word gives 0, and LDFE empties it
(DESIGN CHOICE, log 72). Where its stage output would refuse the value, STAGE comes before it is registered and before the word is
emptied (R240) (DESIGN CHOICE, log 24). -/
def fullLoad (w : BitVec 1) (d a : BitVec 7) (empties : Bool) (s : State) : Out :=
  issue w { srcs := [a.toNat], dst := some d.toNat, role := .address, acq := true } (fun s tid th xs =>
    match s.locate th.who .fullEmpty (arg xs 0) 8 with
    | .error e => .trap e.code e.tval
    | .ok loc =>
      let ids := s.meetIds tid loc.key 8 true
      if ¬ ids.isEmpty then .stall ids
      else
        let s := s.noteTlb th.core (arg xs 0)
        if s.isFull loc.key ∧ ¬ s.lineHeld loc.key then
          let (x, s) := s.wordValue tid loc
          .value x (if empties then s.setFull loc.key false else s)
        else
          let wt : Waiter := ⟨tid, loc, if empties then .ldfe else .ldfec, d.toNat, th.taintOf a.toNat, decide (w = 1)⟩
          match s.outputTrap tid d.toNat 1 with
          | some r => .trap r.code r.tval
          | none => .register .word (arg xs 0) (fun s => { s.noteTlb th.core (arg xs 0) with waiters := s.waiters ++ [wt] })) s

/-- LDFE (R201). -/
def execLdfe (w : BitVec 1) (d a : BitVec 7) (s : State) : Out := fullLoad w d a true s

/-- LDFEC (R201). -/
def execLdfec (w : BitVec 1) (d a : BitVec 7) (s : State) : Out := fullLoad w d a false s

/-- STFE (R201): a store and a release at DEVICE. -/
def execStfe (w : BitVec 1) (d a : BitVec 7) (s : State) : Out :=
  issue w { srcs := [d.toNat, a.toNat], role := .address } (fun s tid th xs =>
    match s.locate th.who .stfe (arg xs 1) 8 with
    | .error e => .trap e.code e.tval
    | .ok loc =>
      .done ((s.noteTlb th.core (arg xs 1)).issueAcc tid th.core loc (.stfe (arg xs 0)) false (s.releaseIds tid 4))) s

/-- WAITGE (R202). R186 does not name it: where it issues on a poisoned word it is satisfied and takes ECC_UNCORRECTABLE, and
one that is registered is evaluated on the bits that the word holds (DESIGN CHOICE, log 72). -/
def execWaitge (w : BitVec 1) (d a : BitVec 7) (s : State) : Out :=
  issue w { srcs := [d.toNat, a.toNat], role := .address, acq := true } (fun s tid th xs =>
    match s.locate th.who .waitge (arg xs 1) 8 with
    | .error e => .trap e.code e.tval
    | .ok loc =>
      let ids := s.meetIds tid loc.key 8 true
      if ¬ ids.isEmpty then .stall ids
      else
        let s := s.noteTlb th.core (arg xs 1)
        let wt : Waiter := ⟨tid, loc, .waitge (arg xs 0), 124, false, decide (w = 1)⟩
        let register : Act := .register .word (arg xs 1) (fun s =>
          { s.noteTlb th.core (arg xs 1) with waiters := s.waiters ++ [wt] })
        if s.lineHeld loc.key then register
        else
          match s.poisoned loc.key 8 with
          | some p => .done (s.queueTrap tid ⟨cECC, loc.poisonAt p⟩)
          | none => if (s.rdWord loc.key).toNat ≥ (arg xs 0).toNat then .done s else register) s

/-- MIGRATE (R204). -/
def execMigrate (w : BitVec 1) (a : BitVec 7) (s : State) : Out :=
  issue w { srcs := [a.toNat], role := .address } (fun s tid th xs =>
    if th.kind ≠ .mt then .trap cMIGRATE (arg xs 0)
    else
      match s.locate th.who .migrate (arg xs 0) 1 with
      | .error e => .trap e.code e.tval
      | .ok loc =>
        if ¬ th.allReturned then .stall th.outIds
        else if ¬ (s.writeIds tid).isEmpty then .stall (s.writeIds tid)
        else
          let s := (s.settle tid).noteTlb th.core (arg xs 0)
          if loc.home % 4096 = th.core then .done s
          else .left ((s.retire tid false none).sendTo tid (loc.home % 4096))) s

/-- PREFETCH (R205): it asks for a line and changes no value; where the address is that of a cached page that it may load
from, its walk may fill a TLB (R361). -/
def execPrefetch (w : BitVec 1) (a : BitVec 7) (_l : BitVec 1) (s : State) : Out :=
  issue w { srcs := [a.toNat], role := .address } (fun s _ th xs =>
    match s.locate' th.who .load (arg xs 0) 1 with
    | .ok l => .done (if l.kind ≤ 1 ∨ l.kind = 4 ∨ l.kind = 5 then s.noteTlb th.core (arg xs 0) else s)
    | .error _ => .done s) s

end Sys2Proof.Machine
end

