-- ==== Sys2Proof/Machine/Threads.lean ====
section
/-! DEFINITION. Creating and joining work, launches, channels, packets, items and barriers (R231 to R254), with the
validation of a launch block and its stage table (R37, R38, R51, R52). -/
namespace Sys2Proof.Machine

/-- Word i of the launch-queue table (R40). -/
def State.lqt (s : State) (i : Nat) : Word := s.rdWord (s.lqtKey i)

/-- FORK (R232): the join word is incremented first; the release comes after it, and the child is pushed last
(DESIGN CHOICE, log 19). -/
def execFork (w : BitVec 1) (d a : BitVec 7) (n : BitVec 5) (s : State) : Out :=
  let join := decide (d.toNat ≠ 124)
  issue w { srcs := [d.toNat, a.toNat], upto := n.toNat, role := if join then .address else .any, acq := join }
    (fun s tid th xs =>
      let e := arg xs 1
      let place := if join then
          match s.locate th.who .atomic (arg xs 0) 8 with
          | .error e => .error e
          | .ok l => .ok (some l)
        else (Except.ok none : Except TrapRec (Option Loc))
      let create := fun (s : State) =>
        let ids := s.stillPending (s.releaseIds tid 4 ++ s.acquireIds tid)
        if ids.isEmpty then .done (s.spawnChild th e n.toNat) else .release (.fork e n.toNat) ids s
      if e.toNat % 4 ≠ 0 then .trap cMISALIGNED e
      else if (match s.launchOf th.lnum with
        | some l => l.pipeline
        | none => false) then .trap cSTAGE allOnes
      else
        match place with
        | .error r => .trap r.code r.tval
        | .ok none => create s
        | .ok (some l) =>
          let ids := s.meetIds tid l.key 8 true
          if ¬ ids.isEmpty then .stall ids
          else
            s.whenLines [] [l]
              (let s := s.noteTlb th.core (arg xs 0)
               create (match s.poisoned l.key 8 with
                 | some p => s.queueTrap tid ⟨cECC, l.poisonAt p⟩
                 | none => s.addAt l 1 l.home))) s

/-- JOINW (R233, R50). -/
def execJoinw (w : BitVec 1) (a : BitVec 7) (s : State) : Out :=
  issue w { srcs := [a.toNat], role := .address, acq := true } (fun s tid th xs =>
    match s.locate th.who .atomic (arg xs 0) 8 with
    | .error e => .trap e.code e.tval
    | .ok loc =>
      let ids := s.meetIds tid loc.key 8 true
      if ¬ ids.isEmpty then .stall ids
      else
        let s := s.noteTlb th.core (arg xs 0)
        let wt : Waiter := ⟨tid, loc, .joinw, 124, false, decide (w = 1)⟩
        if s.lineHeld loc.key then .stall []
        else match s.poisoned loc.key 8 with
        | some p => .done (s.queueTrap tid ⟨cECC, loc.poisonAt p⟩)
        | none =>
          if s.rdWord loc.key = 0 then .done s
          else if th.kind ≠ .mt then
            .register .word (arg xs 0) (fun s => { s.noteTlb th.core (arg xs 0) with waiters := s.waiters ++ [wt] })
          else if ¬ th.allReturned then .stall th.outIds
          else
            match firstFree (s.core th.core).ctxSlots 0 511 with
            | none => .left (s.logSlotWait tid th.core 0)
            | some i =>
              let s := ((s.settle tid).retire tid false none).writeContext tid i th.csr.tcause
              let s := s.modCore th.core (fun k => { k with ctxSlots := k.ctxSlots ++ [i] })
              let s := { s with waiters := s.waiters ++ [wt] }
              .left (s.modThread tid (fun t =>
                { t with state := .unplaced, place := none, slotIdx := some i, slotCore := th.core, slotLogged := false }))) s

/-- The template rules of reason 4 (R38). -/
def templateOk (slen vlen resid slots role : Nat) (mt : Bool) : Bool :=
  decide (8 ≤ slen ∧ slen ≤ 112 ∧ slen % 8 = 0 ∧ vlen ≤ 32 ∧ vlen % 4 = 0 ∧ 1 ≤ resid ∧ resid ≤ 7) &&
  decide (1 ≤ slots ∧ slots ≤ 8 ∧ resid * slen ≤ 224 ∧ resid * vlen ≤ 56) &&
  (! mt || decide (slen = 24 ∧ vlen = 0 ∧ role = 0))

/-- Stages with no way from a stage that is not listed before them: what remains in the end lies on a cycle (R52). -/
def peel (edges : List (Nat × Nat)) (left : List Nat) (fuel : Nat) : List Nat :=
  match fuel with
  | 0 => left
  | k + 1 => peel edges (left.filter (fun b => edges.any (fun e => decide (e.2 = b ∧ e.1 ∈ left)))) k

/-- A stage table that is valid (R51, R52): its 72 words, and the number of cores in the set. -/
def stageTableOk (t : List Word) (cores : Nat) : Bool :=
  let h := nth t 0 0
  let nst := bits h 3 0
  let nsq := bits h 8 4
  let bal := bits h 13 9
  let entry := fun k => (t.drop (8 + 4 * k)).take 4
  let st := fun k => stageOf (entry k)
  let ks := List.range nst
  let named := fun q => decide (q = 127 ∨ q < nsq)
  let edges := ks.flatMap (fun k => (ks.filter (fun b => decide (b ≠ 0) &&
    decide ((st b).inq = (st k).outa ∨ (st b).inq = (st k).outb))).map (fun b => (k, b)))
  decide (bits h 63 14 = 0 ∧ 1 ≤ nst ∧ nst ≤ 8 ∧ 1 ≤ nsq ∧ nsq ≤ 16 ∧ (bal = 0 ∨ (10 ≤ bal ∧ bal ≤ 20))) &&
  ((t.drop 1).take 7).all (fun x => decide (x = 0)) &&
  ks.all (fun k =>
    let e := entry k
    let u := st k
    let init := bits (nth e 2 0) 47 32
    let role := bits (nth e 1 0) 22 21
    decide (bits (nth e 1 0) 63 45 = 0 ∧ bits (nth e 2 0) 63 48 = 0 ∧ role ≠ 3) &&
    templateOk u.slen u.vlen u.resid u.slots role (bitAt (nth e 1 0) 23) &&
    named u.inq && named u.outa && named u.outb && decide ((k = 0) = (u.inq = 127)) &&
    decide (1 ≤ u.minc ∧ u.minc ≤ init ∧ init ≤ u.maxc)) &&
  (List.range nsq).all (fun q => decide ((ks.filter (fun k => decide ((st k).inq = q))).length = 1)) &&
  (List.range nsq).all (fun q =>
    let x := nth t (40 + 2 * q) 0
    decide (bits x 63 25 = 0 ∧ 1 ≤ bits x 24 12 ∧ bits x 24 12 ≤ 4096 ∧ nth t (41 + 2 * q) 0 = 0)) &&
  (peel edges ks nst).isEmpty &&
  decide (total (stageInits t nst) = cores)

/-- A launch of words 0 to 15, before its stage table is taken in. -/
def bareLaunch (ws : List Word) (addr : Word) (user : Bool) : Launch := { words := ws, addr := addr, user := user }

/-- The lowest reason for which a block is rejected (R38), 0 for none; `table` is empty where it was not read. -/
def State.launchReason (s : State) (ws : List Word) (addr : Word) (table : List Word) : Nat :=
  let l := bareLaunch ws addr true
  let w := fun i => l.w i
  let cpa := w 6
  let stages := w 4
  let role := bits (w 0) 20 19
  let cores := l.cores.length
  let cpaOk := match l.cmpl with
    | 0 => decide (cpa = 0)
    | 1 => decide (cpa.toNat % 8 = 0)
    | 2 => decide (bits cpa 63 15 = 0)
    | _ => true
  if addr.toNat % 64 ≠ 0 ∨ bits (w 1) 1 0 ≠ 0 ∨ (l.pipeline ∧ stages.toNat % 64 ≠ 0) then 1
  else if bits (w 0) 63 53 ≠ 0 ∨ bits (w 2) 63 48 ≠ 0 ∨ bits (w 5) 63 32 ≠ 0 ∨ l.cmpl > 3 ∨ l.steal > 3 ∨ l.kind > 2 ∨
    (l.kind < 2 ∧ role = 3) ∨ (l.kind = 0 ∧ w 3 ≠ 0) ∨ (l.kind ≠ 2 ∧ stages ≠ 0) ∨ ! cpaOk then 2
  else if cores = 0 then 3
  else if (l.kind < 2 ∧ ! templateOk l.slen l.vlen l.resid l.slots role l.mt) ∨ l.bands > 32 then 4
  else if l.kind = 1 ∧ (l.mt = false ∨ l.count = 0) then 5
  else if l.pipeline ∧ ! stageTableOk table cores then 6
  else if s.launches.length ≥ 16384 then 7
  else if l.bar0 + l.barn > 4096 then 8
  else 0

/-- The next launch number (R38): ascending modulo 16,384, numbers still live skipped. -/
def State.launchNumber (s : State) : Nat :=
  (((List.range 16384).map (fun i => (s.nextLnum + i) % 16384)).find? (fun n => (s.launchOf n).isNone)).getD 0

/-- Stages, queues and the first cores of each stage from a stage table (R51, R52). -/
def Launch.withTable (l : Launch) (t : List Word) (dflt : Nat) : Launch :=
  let h := nth t 0 0
  let nst := bits h 3 0
  { l with
    stages := (List.range nst).map (fun k => stageOf ((t.drop (8 + 4 * k)).take 4))
    queues := (List.range (bits h 8 4)).map (fun q =>
      let x := nth t (40 + 2 * q) 0
      { home := bits x 10 0, ordered := bitAt x 11, cap := bits x 24 12 })
    coreStage := initialStages l.cores (stageInits t nst) 0
    bal := if bits h 13 9 = 0 then dflt else bits h 13 9 }

/-- The balance exponent that a stage table's 0 stands for (R40, R51) (DESIGN CHOICE, log 21). -/
def State.balDefault (s : State) : Nat :=
  let b := bits (s.lqt 0) 12 8
  if 10 ≤ b ∧ b ≤ 20 then b else Config.balB

/-- Word 16 as the submission of a block writes it (R38): the number and QUEUED, or REJECTED with the reason, where LNUM, of a
launch that has no number, is 0 (DESIGN CHOICE, log 65). -/
def State.submitted (s : State) (ws : List Word) (addr : Word) (table : List Word) : Word :=
  let reason := s.launchReason ws addr table
  if reason = 0 then word16 s.launchNumber 0 0 else word16 0 3 reason

/-- A block submitted (R36, R38): the launch is accepted under the next number, or rejected with a reason. `loc` is the
place of word 16, written by access after those of thread tid. Accepted launches start in order
(DESIGN CHOICE, log 65). -/
def State.submit (s : State) (tid core : Nat) (ws : List Word) (addr : Word) (user : Bool) (table : List Word)
    (loc : Option Loc) : State :=
  let reason := s.launchReason ws addr table
  let n := s.launchNumber
  let x := s.submitted ws addr table
  let id := s.accN
  let s := match loc with
    | some l => s.issueAcc tid core l (.store (bytesOf 8 x.toNat)) false []
    | none => s
  if reason ≠ 0 then s
  else
    let l := { bareLaunch ws addr user with
      loc := loc, word16 := if loc.isSome then [id] else [], firmware := decide (s.mode = Mode.boot) }
    let l := if l.pipeline then l.withTable table s.balDefault else l
    { s with launches := s.launches ++ [(n, l)], nextLnum := (n + 1) % 16384 }.startLaunches

/-- LAUNCH (R234) (DESIGN CHOICE, log 65). -/
def execLaunch (w : BitVec 1) (a : BitVec 7) (s : State) : Out :=
  issue w { srcs := [a.toNat], role := .address, rel := some 4 } (fun s tid th xs =>
    let a := arg xs 0
    if a.toNat % 8 ≠ 0 then .trap cMISALIGNED a
    else if bits a 63 56 ≠ 0 then .trap cPERMISSION a
    else
      match s.checkWords th.who a 16 with
      | .error e => .trap e.code e.tval
      | .ok ls =>
        match s.locate' th.who .store (a + 128) 8 with
        | .error e => .trap e.code e.tval
        | .ok l16 =>
          let ws := s.wordsAt ls
          let stages := nth ws 4 0
          s.whenLines (ls.map (fun l => l.key)) []
            (let s := s.noteTlb th.core a
             if bits (nth ws 0 0) 3 0 = 2 ∧ stages.toNat % 64 = 0 then
               if bits stages 63 56 ≠ 0 then .trap cPERMISSION stages
               else
                 match s.checkWords th.who stages 72 with
                 | .error e => .trap e.code e.tval
                 | .ok ts =>
                   s.whenLines (ts.map (fun l => l.key)) []
                     (.done ((s.noteTlb th.core stages).submit tid th.core ws a th.user (s.wordsAt ts) (some l16)))
             else .done (s.submit tid th.core ws a th.user [] (some l16)))) s

/-- The value of TINFO by selector (R235). What a thread of no launch reads is free (DESIGN CHOICE, log 19). -/
def State.tinfo (s : State) (t : Thread) (sel : Nat) : Word :=
  match sel with
  | 1 => (t.item.map (fun i => i.seq.zeroExtend 64)).getD allOnes
  | _ =>
    match s.launchOf t.lnum with
    | none => Config.freeWord s.freeN
    | some l =>
      match sel with
      | 0 => if l.pipeline then word t.stage else allOnes
      | 2 => word l.cores.length
      | 3 => if l.hasCore t.core then word (l.indexOf t.core) else allOnes
      | 4 => l.w 3
      | _ => l.addr

/-- TINFO (R235). -/
def execTinfo (w : BitVec 1) (d : BitVec 7) (sel : BitVec 3) (s : State) : Out :=
  issue w { dst := some d.toNat } (fun s _ t _ => .clean (s.tinfo t sel.toNat) s) s

/-- Heads of live threads of core c that are bound to local channel n. -/
def State.chanBound (s : State) (c n : Nat) : Bool :=
  s.live.any (fun e => decide (e.2.core = c ∧ e.2.kind ≠ Kind.mt) &&
    e.2.heads.any (fun h => (headKind h == 1 || headKind h == 2) && headNum h == n))

/-- Is inbox n of core c bound for receiving (R239). -/
def State.inboxBound (s : State) (c n : Nat) : Bool :=
  s.live.any (fun e => decide (e.2.core = c) && e.2.heads.any (fun h => headKind h == 3 && headNum h == n))

/-- A descriptor whose fields R236 allows. -/
def headOk (x : Word) : Bool :=
  let k := headKind x
  decide (bits x 63 32 = 0 ∧ bits x 24 16 = 0 ∧ k ≠ 7) &&
  (k == 1 || k == 2 || ! headWide x) &&
  (if k = 2 ∨ k = 4 then decide (headScope x ≤ 4) else decide (headScope x = 0)) &&
  (k == 6 || ! headSecond x) &&
  (decide (1 ≤ k ∧ k ≤ 4) || decide (headNum x = 0)) &&
  (k == 4 || decide (headLcn x = 0))

/-- The binding rules of R237 to R239, once the head is unbound. -/
def State.mayBind (s : State) (t : Thread) (x : Word) : Bool :=
  let k := headKind x
  let pipe := match s.launchOf t.lnum with
    | some l => l.pipeline
    | none => false
  headOk x &&
  (if k = 1 ∨ k = 2 then
    let c := nth (s.core t.core).chans (headNum x) {}
    (match c.owner with
     | none => true
     | some n => decide (n = t.lnum)) &&
    (c.wide == headWide x || (c.entries.isEmpty && ! s.chanBound t.core (headNum x)))
  else if k = 3 then ! s.inboxBound t.core (headNum x)
  else if k = 5 then pipe
  else if k = 6 then
    match s.launchOf t.lnum with
    | some l => l.pipeline && (l.output t.stage (headSecond x)).isSome
    | none => false
  else true)

/-- QBIND (R236, R237). The head of an MT is absent (R89). -/
def execQbind (w : BitVec 1) (q : BitVec 3) (a : BitVec 7) (s : State) : Out :=
  let absent : Bool := match s.thread s.cur with
    | some t => decide (t.kind = .mt)
    | none => false
  issue w { srcs := [a.toNat], heads := if absent = true then [q.toNat] else [] } (fun s tid t xs =>
    let x := arg xs 0
    let s' := s.unbindHead tid q.toNat
    if t.kind = .mt then .trap cCHANNEL (word (112 + q.toNat))
    else if ¬ s'.mayBind t x then .trap cCHANNEL x
    else
      let k := headKind x
      let s' := if k = 1 ∨ k = 2 then
          s'.modCore t.core (fun c => { c with chans := modify c.chans (headNum x) (fun h =>
            { h with owner := some t.lnum, wide := headWide x }) })
        else if k = 3 then
          s'.modCore t.core (fun c => { c with inboxes := modify c.inboxes (headNum x) (fun b => { b with owner := some t.lnum }) })
        else s'
      .done (s'.modThread tid (fun t => { t with heads := modify t.heads q.toNat (fun _ => if k = 0 then 0 else x) }))) s

/-- Items that reads of a stage queue would find now (R242, R53). -/
def deliverCount (q : StageQueue) (upDone : Bool) (fuel : Nat) : Nat :=
  match fuel with
  | 0 => 0
  | k + 1 =>
    match deliverable q upDone with
    | some it => 1 + deliverCount (delivered q it) upDone k
    | none => 0

/-- What QPOLL counts and the capacity (R242): entries and words that a waiting thread holds in reserve count, items of a
stage queue that one holds do not (DESIGN CHOICE, log 73). -/
def State.pollHead (s : State) (t : Thread) (h : Word) : Nat × Nat :=
  let queue := fun (l : Launch) (q : Option Nat) =>
    match q.bind (fun q => (l.queues[q]?).map (fun u => (q, u))) with
    | some (q, u) => (deliverCount u (s.upstreamDone t.lnum l q) (u.items.length + u.returned.length), u.cap)
    | none => (0, 0)
  match headKind h, s.launchOf t.lnum with
  | 3, _ => ((nth (s.core t.core).inboxes (headNum h) {}).words.length + s.inReserve t.core (headNum h) true, 64)
  | 4, _ => ((nth (s.core (headLcn h)).inboxes (headNum h) {}).words.length + s.inReserve (headLcn h) (headNum h) true, 64)
  | 5, some l =>
    if t.stage = 0 then (min (l.count - l.drawn + l.returned.length) (2 ^ 32 - 1), 0)
    else queue l ((l.stages[t.stage]?).map (fun st => st.inq))
  | 6, some l => queue l (l.output t.stage (headSecond h))
  | 5, none => (0, 0)
  | 6, none => (0, 0)
  | _, _ =>
    let c := nth (s.core t.core).chans (headNum h) {}
    (c.entries.length + s.inReserve t.core (headNum h) false, if c.wide then 16 else 64)

/-- QPOLL (R242). -/
def execQpoll (w : BitVec 1) (d : BitVec 7) (q : BitVec 3) (s : State) : Out :=
  issue w { dst := some d.toNat, heads := [q.toNat] } (fun s tid t _ =>
    let (n, cap) := s.pollHead t (t.headOf q.toNat)
    let s := s.modThread tid (fun t => t.modCsr (fun c => { c with ts := setBits c.ts 2 2 (if n = 0 then 1 else 0) }))
    .clean (word (cap * 2 ^ 32 + n % 2 ^ 32)) s) s

/-- SEND, and SENDE that closes the packet (R243). -/
def sendWord (w : BitVec 1) (q : BitVec 3) (a : BitVec 7) (close : Bool) (s : State) : Out :=
  issue w { srcs := [a.toNat], heads := [q.toNat], packetHead := some q.toNat } (fun s tid t xs =>
    let h := t.headOf q.toNat
    let lcn := headLcn h
    let inbox := headNum h
    if headKind h ≠ 4 then .trap cCHANNEL (word (112 + q.toNat))
    else if t.packet.isNone ∧ ! s.available [⟨lcn, inbox, true, true, 8⟩] then
      .wait (.inboxRoom lcn inbox 8) (s.iword.zeroExtend 64)
    else
      let words := ((t.packet.map (fun p => p.words)).getD []) ++ [arg xs 0]
      let r := if t.packet.isNone then 8 else 0
      let opened := (s.modCore lcn (fun k => { k with inboxes := modify k.inboxes inbox (fun b =>
        { b with reserved := b.reserved + r }) })).modThread tid (fun t => { t with packet := some ⟨q.toNat, words⟩ })
      if words.length > 8 then .trap cPACKET 9
      else if ¬ close then .done opened
      else
        let ids := s.stillPending (s.releaseIds tid (headScope h) ++ s.acquireIds tid)
        if ids.isEmpty then .done (opened.closePacket tid t q.toNat words) else .release (.packet q.toNat) ids opened) s

/-- SEND (R243). -/
def execSend (w : BitVec 1) (q : BitVec 3) (a : BitVec 7) (s : State) : Out := sendWord w q a false s

/-- SENDE (R243). -/
def execSende (w : BitVec 1) (q : BitVec 3) (a : BitVec 7) (s : State) : Out := sendWord w q a true s

/-- VQRD (R241). -/
def execVqrd (w : BitVec 1) (v : BitVec 5) (q : BitVec 3) (s : State) : Out :=
  issue w { vregs := [v.toNat], heads := [q.toNat], acq := true } (fun s tid t _ =>
    let h := t.headOf q.toNat
    let n := headNum h
    if headKind h ≠ 1 ∨ ¬ headWide h then .trap cCHANNEL (word (112 + q.toNat))
    else if ¬ s.available [⟨t.core, n, false, false, 1⟩] then .wait (.wide t.core n true) (s.iword.zeroExtend 64)
    else
      let c := nth (s.core t.core).chans n {}
      let s := s.modCore t.core (fun k => { k with chans := modify k.chans n (fun c => { c with entries := c.entries.drop 1 }) })
      .done (s.modThread tid (fun t => t.setV v.toNat (c.entries.headD 0)))) s

/-- VQWR (R241). -/
def execVqwr (w : BitVec 1) (q : BitVec 3) (v : BitVec 5) (s : State) : Out :=
  issue w { vregs := [v.toNat], heads := [q.toNat] } (fun s tid t _ =>
    let h := t.headOf q.toNat
    let n := headNum h
    let ids := s.stillPending (s.releaseIds tid (headScope h) ++ s.acquireIds tid)
    if headKind h ≠ 2 ∨ ¬ headWide h then .trap cCHANNEL (word (112 + q.toNat))
    else if ¬ s.available [⟨t.core, n, false, true, 1⟩] then .wait (.wide t.core n false) (s.iword.zeroExtend 64)
    else if ¬ ids.isEmpty then
      .release (.wide q.toNat v.toNat) ids (s.modCore t.core (fun k =>
        { k with chans := modify k.chans n (fun c => { c with reserved := c.reserved + 1 }) }))
    else
      .done (s.modCore t.core (fun k =>
        { k with chans := modify k.chans n (fun c => { c with entries := c.entries ++ [t.vr v.toNat] }) }))) s

/-- The launch of a thread that may hold items: it is PIPELINE and the thread is no handler (R245). -/
def State.pipelineOf (s : State) (t : Thread) : Option Launch :=
  match s.launchOf t.lnum with
  | some l => if l.pipeline then some l else none
  | none => none

/-- ITEMGET (R245). -/
def execItemget (w : BitVec 1) (d a : BitVec 7) (s : State) : Out :=
  issue w { dst := some d.toNat, dst2 := some a.toNat, acq := true } (fun s tid t _ =>
    match (if t.kind = .handler then none else s.pipelineOf t) with
    | none => .trap cSTAGE allOnes
    | some l =>
      if t.moved then .left (s.restartThread tid)
      else
        let s := s.setThread tid { t with item := none }
        match s.inputOf t.lnum l t.stage with
        | .nothing => .register .itemGet (s.iword.zeroExtend 64) (fun s => s.modThread tid (fun t => { t with item := none }))
        | .atEnd => .pair 0 0 (s.modThread tid (fun t => t.modCsr (fun c => { c with ts := setBits c.ts 1 1 1 })))
        | .item it l' =>
          .pair it.handle (it.seq.zeroExtend 64) ((s.setLaunch t.lnum l').modThread tid (fun t => { t with item := some it }))) s

/-- ITEMPUT (R246). -/
def execItemput (w : BitVec 1) (d a : BitVec 7) (o : BitVec 1) (s : State) : Out :=
  issue w { srcs := [d.toNat, a.toNat], rel := some 4 } (fun s _ t xs =>
    match s.pipelineOf t with
    | none => .trap cSTAGE allOnes
    | some l =>
      match l.output t.stage (o = 1) with
      | none => .trap cSTAGE allOnes
      | some q =>
        match l.queues[q]? with
        | none => .trap cSTAGE allOnes
        | some u =>
          let seq : BitVec 32 := (arg xs 1).truncate 32
          match offer u ⟨arg xs 0, seq⟩ with
          | .stage => .trap cSTAGE (seq.zeroExtend 64)
          | .wait => .wait (.itemPut q seq.toNat) (s.iword.zeroExtend 64)
          | .accepted u' => .done (s.setLaunch t.lnum { l with queues := modify l.queues q (fun _ => u') })) s

/-- May a thread use the barrier object of an operand (R252). A replay is what State.replaying says (DESIGN CHOICE, log 73). -/
def State.barrierAllowed (s : State) (t : Thread) (x : Word) : Bool :=
  let n := bits x 11 0
  (decide (s.mode = Mode.service) || s.replaying) && decide (t.kind = Kind.anchored) &&
  (match s.launchOf t.lnum with
   | some l => decide (l.bar0 ≤ n ∧ n < l.bar0 + l.barn)
   | none => false)

/-- A barrier instruction on an object the thread may use. -/
def barrierOp (w : BitVec 1) (u : Use) (k : State → Nat → Thread → Word → Act) (s : State) : Out :=
  issue w u (fun s tid t xs =>
    if s.barrierAllowed t (arg xs 0) then k s tid t (arg xs 0) else .trap cUNAVAILABLE (arg xs 0)) s

/-- The thread is a participant (R249); the scope is taken where there was none (R248). -/
def State.joinBarrier (s : State) (tid : Nat) (x : Word) : State :=
  let n := bits x 11 0
  if tid ∈ (s.barrier n).parts then s
  else
    let sc := if bits x 14 12 ≥ 5 then 4 else bits x 14 12
    (s.modBarrier n (fun b => { b with scope := if b.parts.isEmpty then sc else b.scope, parts := b.parts ++ [tid] })).modThread
      tid (fun t => { t with joined := t.joined ++ [n] })

/-- BARJ (R249). -/
def execBarj (w : BitVec 1) (a : BitVec 7) (s : State) : Out :=
  barrierOp w { srcs := [a.toNat] } (fun s tid _ x => .done (s.joinBarrier tid x)) s

/-- BARL (R249). -/
def execBarl (w : BitVec 1) (a : BitVec 7) (s : State) : Out :=
  barrierOp w { srcs := [a.toNat] } (fun s tid _ x => .done (s.leaveBarrier tid (bits x 11 0))) s

/-- BARA (R250): a non-participant joins first, without a release; then the arrival waits for its release. -/
def execBara (w : BitVec 1) (a : BitVec 7) (s : State) : Out :=
  barrierOp w { srcs := [a.toNat] } (fun s tid t x =>
    let n := bits x 11 0
    if look t.arrivals n = some (s.barrier n).phase.toNat then .trap cUNAVAILABLE x
    else
      let s := s.joinBarrier tid x
      let b := s.barrier n
      let ids := s.stillPending (s.releaseIds tid b.scope ++ s.acquireIds tid)
      if ¬ ids.isEmpty then .stallAfter ids (fun s => s.joinBarrier tid x)
      else
        let s := s.modThread tid (fun t => { t with arrivals := put t.arrivals n b.phase.toNat })
        .done (s.modBarrier n (fun b => ({ b with arrived := b.arrived ++ [tid] }).check))) s

/-- BARW (R250). -/
def execBarw (w : BitVec 1) (a : BitVec 7) (s : State) : Out :=
  barrierOp w { srcs := [a.toNat], acq := true } (fun s _ t x =>
    let n := bits x 11 0
    match look t.arrivals n with
    | some p => if p = (s.barrier n).phase.toNat then .wait (.barrier n p) x else .done s
    | none => .done s) s

/-- BARM (R251). -/
def execBarm (w : BitVec 1) (d a : BitVec 7) (s : State) : Out :=
  barrierOp w { srcs := [a.toNat], dst := some d.toNat } (fun s tid _ x =>
    let b := s.barrier (bits x 11 0)
    .clean (word ((if tid ∈ b.arrived then 2 ^ 54 else 0) + (if tid ∈ b.parts then 2 ^ 53 else 0) +
      b.parts.length % 2 ^ 21 * 2 ^ 32 + b.phase.toNat)) s) s

/-- CSIG (R253): the fetch-add is a release at its scope. Of two head sources D is dequeued before S1 (DESIGN CHOICE, log 73). -/
def execCsig (w : BitVec 1) (d a : BitVec 7) (sc : BitVec 3) (s : State) : Out :=
  issue w { srcs := [d.toNat, a.toNat], role := .address } (fun s tid th xs =>
    match s.locate th.who .atomic (arg xs 1) 8 with
    | .error e => .trap e.code e.tval
    | .ok loc =>
      .done ((s.noteTlb th.core (arg xs 1)).issueAcc tid th.core loc (.rmw .add 8 (arg xs 0) 0 none) false
        (s.releaseIds tid sc.toNat))) s

end Sys2Proof.Machine
end

