-- ==== Sys2Proof/Machine/Link.lean ====
section
/-! DEFINITION. The fabric below its operations: the fabric table and routes (R326), flits, their check sequence and their
fields (R327, R383 to R386), links with credits and retry (R329), discarded flits (R328), and what every arrival does first. -/
namespace Sys2Proof
open Machine

/-- The header words of a flit (R327). -/
def Flit.h0 (f : Flit) : Word :=
  word (f.cls * 2 ^ 62 + f.sub * 2 ^ 61 + f.kind * 2 ^ 55 + f.ddev * 2 ^ 43 + f.sdev * 2 ^ 31 + f.dlcn * 2 ^ 20 +
    f.slcn * 2 ^ 9 + f.hops * 2 ^ 4 + f.spare % 16)
def Flit.h1 (f : Flit) : Word := word (f.len * 2 ^ 57 + f.spare / 16 % 2 * 2 ^ 56 + f.addr)
def Flit.h2 (f : Flit) : Word := word (f.tag * 2 ^ 48 + f.eseq * 2 ^ 32 + f.lseq * 2 ^ 16 + f.spare / 32)
def Flit.h3 (f : Flit) : Word := word (f.param * 2 ^ 32 + f.crc)

/-- The check sequence that a flit should carry (R327). -/
def Flit.crcOf (f : Flit) : Nat :=
  crc32 (bytesOf 8 f.h0.toNat ++ bytesOf 8 f.h1.toNat ++ bytesOf 8 f.h2.toNat ++ bytesOf 4 f.param ++ f.payload)

/-- Word i of a flit's payload. -/
def Flit.word (f : Flit) (i : Nat) : Word := BitVec.ofNat 64 (ofBytes ((f.payload.drop (8 * i)).take 8))

/-- A payload of bytes filled with zeros (R383). -/
def payloadOf (bs : List Byte) : List Byte := fit 64 0 bs

/-- A payload of words. -/
def payloadWords (ws : List Word) : List Byte := payloadOf (ws.flatMap (fun w => bytesOf 8 w.toNat))

/-- A flit with every field zero. -/
def blankFlit : Flit := ⟨0, 0, 0, 0, 0, 0, 0, 0, 0, 1, 0, 0, 0, 0, 0, 0, 0, List.replicate 64 0⟩

/-- Kinds that go to the far end of one link (R386). -/
def Flit.linkLevel (f : Flit) : Bool := f.kind == 10 || (f.kind == 11 && decide (1 ≤ f.param ∧ f.param ≤ 3))

/-- The fields that each kind uses, and every other field zero (R383 to R386). A flit that breaks this is discarded as one
of reserved kind. -/
def Flit.ok (f : Flit) : Bool :=
  let base := decide (f.spare = 0 ∧ f.payload.length = 64 ∧ 1 ≤ f.len ∧ f.len ≤ 64) &&
    (f.payload.drop f.len).all (fun b => b == 0)
  let empty := decide (f.len = 1) && (f.payload.headD 0 == 0)
  let plain := decide (f.sub = 0)
  let mute := decide (f.dlcn = 0 ∧ f.slcn = 0 ∧ f.addr = 0 ∧ f.tag = 0)
  base && (match f.kind with
  | 0 => plain && decide (f.cls = 2 ∧ f.dlcn = 0 ∧ f.param < 256 ∧ f.addr % 128 + f.len ≤ 128)
  | 1 => plain && decide (f.cls = 2 ∧ f.dlcn = 0 ∧ f.param ≤ 1 ∧ f.len = 16 ∧ (f.param = 1 ∨ (f.addr = 0 ∧ f.word 0 = 0)))
  | 2 => plain && empty && decide (f.cls = 2 ∧ f.slcn = 0 ∧ f.param < 512)
  | 3 => plain && decide (f.cls = 1 ∧ f.dlcn = 0 ∧ f.param < 2 ^ 16 ∧ f.len = 64)
  | 4 => plain && decide (f.cls = 1 ∧ f.dlcn = 0 ∧ f.param < 2 ^ 16 ∧ f.len = 8)
  | 5 => plain && decide (f.cls = 1 ∧ f.dlcn = 0 ∧ f.param = 0 ∧ f.len = 8)
  | 6 => plain && decide ((f.cls = 3 ∨ f.cls = 2) ∧ f.dlcn % 256 = 0 ∧ f.slcn % 256 = 0 ∧ f.param < 2 ^ 13 ∧ f.addr % 2 ^ 32 = 0)
  | 7 => plain && decide ((f.cls = 3 ∨ f.cls = 2) ∧ f.dlcn % 256 = 0 ∧ f.slcn % 256 = 0 ∧ f.param < 2 ^ 19)
  | 8 => plain && decide ((f.cls = 3 ∨ f.cls = 2) ∧ f.dlcn % 256 = 0 ∧ f.slcn % 256 = 0 ∧ f.param < 2 ^ 13 ∧ f.addr % 2 ^ 32 = 0)
  | 9 => plain && decide ((f.cls = 3 ∨ f.cls = 2) ∧ f.dlcn % 256 = 0 ∧ f.slcn % 256 = 0 ∧ f.param < 2 ^ 13 ∧
      f.addr = 0 ∧ f.len = 8)
  | 10 => plain && mute && decide (f.cls = 0 ∧ f.param = 0 ∧ f.len = 8 ∧ f.hops = 0)
  | 11 => plain && mute && decide (f.cls = 0) &&
    (match f.param with
     | 0 => decide (f.len = 40 ∧ (f.word 4 = 1 ∨ f.word 4 = 2))
     | 1 => decide (f.len = 48 ∧ f.hops = 0)
     | 2 => decide (f.len = 8 ∧ f.hops = 0)
     | 3 => empty && decide (f.hops = 0)
     | 4 => decide (f.len = 16)
     | _ => false)
  | 12 => decide (f.cls = 3 ∧ f.sub = 1 ∧ f.dlcn = 0 ∧ f.slcn = 0 ∧ f.param = 0 ∧ f.len = 64)
  | _ => false)

/-- The credit that a flit needs (R386): management, demand, engine, gossip, bulk. -/
def Flit.credit (f : Flit) : Nat := if f.cls = 3 then 3 + f.sub else f.cls

/-- The key of a stream of flits (R327): device, class and sub. -/
def Flit.stream (f : Flit) (dev : Nat) : Nat := dev * 8 + f.cls * 2 + f.sub

end Sys2Proof

namespace Sys2Proof.Machine

/-- The link on which flits for device d leave (R326, R329): none where d is unreachable. -/
def State.route (s : State) (d : Nat) : Option Nat :=
  let e := (s.rdByte (s.ftKey (64 + d))).toNat
  let l := e % 16
  if e / 128 = 1 ∧ e / 16 % 8 = 0 ∧ (nth s.links l {}).up then some l else none

def State.modLink (s : State) (l : Nat) (f : Link → Link) : State := { s with links := modify s.links l f }

/-- Does the device send flits of a class in the present mode and power state (R367, R368): in TEST into the loopback. -/
def State.carries (s : State) (cls : Nat) : Bool :=
  decide (s.mgmt.power ≠ 3) &&
  (match s.mode with
   | .service => decide (cls = 0 ∨ s.mgmt.power = 0)
   | .test => s.mgmt.replayAt.isNone
   | _ => decide (cls = 0))

/-- The link on which a flit that leaves now goes (R326, R329): the one of its link level, or the one that ROUTE names. -/
def State.linkOf (s : State) (f : Flit) : Option Nat :=
  if f.linkLevel then (if (nth s.links f.link {}).up then some f.link else none) else s.route f.ddev

/-- The flit that link l sends next: of the highest class that has a credit, the oldest (R329). -/
def State.readyOn (s : State) (l : Nat) : Option Flit :=
  let k := nth s.links l {}
  let mine := s.queued.filter (fun f => decide (s.linkOf f = some l) && s.carries f.cls)
  ([0, 1, 2, 3, 4].find? (fun c => decide (nth k.credits c 0 > 0) && mine.any (fun f => decide (f.credit = c)))).bind
    (fun c => mine.find? (fun f => decide (f.credit = c)))

/-- A flit as it leaves on link l: with the next LSEQ and its check sequence (R327, R329); one of kind 10 with the time base
at that moment (R386). -/
def State.onWire (s : State) (l : Nat) (f : Flit) : Flit :=
  let g := { f with lseq := (nth s.links l {}).next, link := l }
  let g := if g.kind = 10 then { g with payload := payloadWords [s.time] } else g
  { g with crc := g.crcOf }

/-- A flit leaves on link l. -/
def State.sendOn (s : State) (l : Nat) (f : Flit) : State :=
  ({ s with queued := s.queued.erase f }).modLink l (fun k => { k with
    sent := k.sent ++ [s.onWire l f], next := (k.next + 1) % 2 ^ 16, credits := modify k.credits f.credit (fun n => n - 1) })

/-- Every link sends while it has flits with credit (R329). -/
def State.pump (s : State) (fuel : Nat) : State :=
  match fuel with
  | 0 => s
  | n + 1 =>
    match (List.range 16).findSome? (fun l => (s.readyOn l).map (fun f => (l, f))) with
    | none => s
    | some (l, f) => (s.sendOn l f).pump n

/-- A flit that is to leave: at once where its link has a credit for it. -/
def State.leaveOn (s : State) (f : Flit) : State := ({ s with queued := s.queued ++ [f] }).pump (s.queued.length + 1)

/-- A fault of a mailbox message at its sender (R333, R336): an execution fault of the thread (R270), whose identifier in
XFAULT is free, or the error log (DESIGN CHOICE, log 35). -/
def State.mailFault (s : State) (m : Mail) (r : TrapRec) : State :=
  match s.thread m.tid with
  | some t =>
    if t.state = .exited then s.logError 0x13 (unitCore m.core) m.desc (word r.code)
    else
      let f := setBits (Config.freeWord s.freeN) 63 16 r.code
      ((s.setThread m.tid { t with shadow0 := modify t.shadow0 13 (fun _ => f) }).slotPut t 0x568 [f]).queueTrap m.tid r
  | none => s.logError 0x13 (unitCore m.core) m.desc (word r.code)

/-- The message of core c with a tag to a device that an address belongs to: a byte of its slot, or its sequence word. -/
def State.mailOf (s : State) (c tag dev a : Nat) : Option Mail :=
  s.mailOut.find? (fun m => decide (m.core = c ∧ m.n % 2 ^ 16 = tag ∧ m.dev = dev ∧
    ((a + 2 ^ 56 - m.slot.toNat % 2 ^ 56) % 2 ^ 56 < m.z ∨ a = m.seq.toNat % 2 ^ 56)))

/-- The valid checkpoint targets (R366): device and its place among the sixteen. -/
def State.targets (s : State) : List (Nat × Nat) :=
  (List.range 16).filterMap (fun i =>
    let w := nth s.mgmt.cktgt (2 * i) 0
    if bitAt w 12 then some (bits w 11 0, i) else none)

/-- A checkpoint target found unreachable, at a segment (R378, R386): logged, and its segments go to the next ones. -/
def State.targetLost (s : State) (dev seg : Nat) : State :=
  let s := s.logError 0x17 unitDevice (word dev) (word seg)
  match s.mgmt.stream with
  | none => s
  | some st =>
    let dead := st.dead ++ (s.targets.filter (fun t => decide (t.1 = dev))).map (fun t => t.2)
    let again := (st.sent.placed.filter (fun e => decide (e.2 ∈ dead))).map (fun e => e.1)
    { s with
      queued := s.queued.filter (fun f => ¬ (f.kind = 12 ∧ f.ddev = dev))
      mgmt := { s.mgmt with stream := some { st with
        dead := dead, left := again ++ st.left, sent := { st.sent with placed := st.sent.placed.filter (fun e => ¬ e.2 ∈ dead) } } } }

/-- A flit of this device that was discarded (R328): the operation it belongs to ends (R330, R333, R378). -/
def State.lost (s : State) (f : Flit) : State :=
  match f.kind with
  | 0 => copy s
  | 1 => copy s
  | 3 => mail s
  | 4 => mail s
  | 12 => s.targetLost f.ddev f.tag
  | _ => s
where
  copy (s : State) : State :=
    match s.engOp f.slcn 0 f.tag with
    | some o => if bitAt (nth o.fields 9 0) 11 then s.execFault f.slcn 0 o ⟨cUNAVAILABLE, word f.ddev⟩ else s
    | none => s
  mail (s : State) : State :=
    match s.mailOf f.slcn f.tag f.ddev f.addr with
    | some m =>
      let s := { s with mailOut := s.mailOut.erase m }
      (s.logError 0x13 (unitCore m.core) m.desc (word cUNAVAILABLE)).mailFault m ⟨cUNAVAILABLE, m.slot⟩
    | none => s

/-- A flit with the next end-to-end sequence number of stream k (R327). -/
def State.numbered (s : State) (k : Nat) (f : Flit) : Flit × State :=
  let n := (look s.eseqOut k).getD 0
  ({ f with eseq := n }, { s with eseqOut := put s.eseqOut k ((n + 1) % 2 ^ 16) })

/-- A flit for the far end of its link sent (R327, R386). -/
def State.sendLinkLevel (s : State) (f : Flit) : State :=
  let (g, s) := s.numbered (f.stream f.ddev) { f with sdev := s.mgmt.devno }
  s.leaveOn g

/-- A flit of this device sent (R326, R327). -/
def State.sendFlit (s : State) (f : Flit) : State :=
  let f := { f with sdev := s.mgmt.devno, hops := 0 }
  match s.route f.ddev with
  | some _ => (s.numbered (f.stream f.ddev) f).2.leaveOn (s.numbered (f.stream f.ddev) f).1
  | none =>
    let l := (s.rdByte (s.ftKey (64 + f.ddev))).toNat % 16
    (s.logError 0x11 (unitLink l) f.h0 2).lost f

/-- A flit discarded at a device that it crosses: 1 for the hop limit, 2 for unreachable; a report goes to its source (R328, R386)
(DESIGN CHOICE, log 44). -/
def State.discard (s : State) (f : Flit) (why : Nat) : State :=
  let s := s.logError 0x11 (unitLink f.link) f.h0 (word why)
  if f.sdev = s.mgmt.devno then s.lost f
  else
    s.sendFlit { blankFlit with
      kind := 11, ddev := f.sdev, len := 40, payload := payloadWords [f.h0, f.h1, f.h2, f.h3, word why] }

/-- A flit for another device goes on (R328). -/
def State.forward (s : State) (f : Flit) : State :=
  if f.hops + 1 ≥ 32 then s.discard f 1
  else
    match s.route f.ddev with
    | some _ => s.leaveOn { f with hops := f.hops + 1 }
    | none => s.discard f 2

/-- Does a link bring flits of a class in the present mode and power state (R367, R368): in TEST its own loopback alone.
Remote copies and mailbox flits wait at their senders while a checkpoint streams (R378). -/
def State.linkCarries (s : State) (f : Flit) : Bool :=
  (nth s.links f.link {}).up && s.carries f.cls && (decide (s.mode ≠ .test) || decide (f ∈ (nth s.links f.link {}).sent)) &&
  ! (s.mgmt.stream.isSome && decide (f.ddev = s.mgmt.devno ∧ f.kind ∈ [0, 1, 3, 4, 5]))

/-- Flits that wait while no link in service leads to their destination are discarded as unreachable (R329). -/
def State.dropStranded (s : State) : State :=
  (s.queued.filter (fun f => (s.linkOf f).isNone)).foldl (fun (s : State) f =>
    let s := { s with queued := s.queued.erase f }
    if f.linkLevel then s else s.discard f 2) s

/-- What may leave by now leaves: a route, a credit or a mode may have changed (R326, R329, R367). -/
def State.settleQueue (s : State) : State :=
  if s.queued.isEmpty then s
  else
    let s := s.dropStranded
    s.pump (s.queued.length + 1)

/-- Kind-10 flits that keep the time bases in step: on which links one leaves at a moment is free (R17, R329, R386)
(DESIGN CHOICE, log 45). -/
def State.syncLinks (s : State) : State :=
  (List.range 16).foldl (fun (s : State) l =>
    if ¬ (nth s.links l {}).up then s
    else
      let (n, s) := s.fresh
      if s.fixed || Config.freeBool n then
        s.sendLinkLevel { blankFlit with kind := 10, ddev := Config.peer l % 4096, link := l, len := 8 }
      else s) s

/-- The record of a link flit's arrival (R374, R382). -/
def State.recordFlit (s : State) (f : Flit) : State :=
  s.record (unitLink f.link) 1 f.h0 f.h1
    ([f.h2, f.h3] ++ (List.range 8).map (fun i => f.word i))

/-- Is an end-to-end sequence number later than the last one delivered (R329) (DESIGN CHOICE, log 43). -/
def State.inOrder (s : State) (f : Flit) : Bool :=
  match look s.eseqIn (f.stream f.sdev) with
  | none => true
  | some n => decide (1 ≤ (f.eseq + 2 ^ 16 - n) % 2 ^ 16 ∧ (f.eseq + 2 ^ 16 - n) % 2 ^ 16 < 2 ^ 15)

/-- A flit received in good order by its link. -/
def State.seenBy (s : State) (f : Flit) : State := s.modLink f.link (fun k => { k with seen := f.lseq })

/-- What every arrival of a well-formed flit does (R328, R329): it is forwarded, or delivered in order by `k`. None where
it cannot arrive now (DESIGN CHOICE, log 43). -/
def State.arrive (s : State) (f : Flit) (kind : Nat) (k : State → Option State) : Option State :=
  if f.kind ≠ kind ∨ ¬ f.ok ∨ f.crc ≠ f.crcOf ∨ ¬ s.linkCarries f then none
  else
    let r := (s.seenBy f).recordFlit f
    if f.linkLevel then k r
    else if f.ddev ≠ s.mgmt.devno then some (r.forward f)
    else if ¬ s.inOrder f then none
    else k { r with eseqIn := put r.eseqIn (f.stream f.sdev) f.eseq }

/-- A step of the part: the state it leaves, or refused where the spec does not let it happen now. Every step takes its
own free values. -/
def partStep (o : Option State) : Out :=
  match o with
  | some s => .next { s with freeN := s.freeN + 1 }
  | none => .refused .notEnabled

end Sys2Proof.Machine
end

