-- ==== Sys2Proof/Machine/Block.lean ====
section
/-! DEFINITION. C8 blocks (R76 to R79) and the accumulation of the MXU (R82). -/
namespace Sys2Proof.Machine

/-- The length of a block by its header (R76, R77); none where the header is at fault. -/
def blockLength (h : Nat) : Option Nat :=
  if h / 512 ≠ 0 then none
  else if h / 256 % 2 = 1 then some 2
  else if h / 16 % 16 = 15 then none
  else some (22 + 2 * (h / 16 % 16))

/-- One token of a block's bitstream: the exponent's distance from E0, and the rest (R76). -/
def token (l : List Bool) : Option (Nat × List Bool) :=
  match l with
  | false :: r => some (0, r)
  | true :: false :: r => some (1, r)
  | true :: true :: false :: r => some (2, r)
  | true :: true :: true :: false :: r => some (3, r)
  | true :: true :: true :: true :: a :: b :: c :: d :: r =>
    let x := (if a then 1 else 0) + (if b then 2 else 0) + (if c then 4 else 0) + (if d then 8 else 0)
    if x > 11 then none else some (4 + x, r)
  | _ => none

/-- The elements of a block from its nibbles and its bitstream (R77). -/
def elements (e0 : Nat) (nibs : List Nat) (l : List Bool) : Option (List Nat) :=
  match nibs with
  | [] => some []
  | nib :: r =>
    match token l with
    | none => none
    | some (d, l') =>
      if e0 + d > 15 then none
      else (elements e0 r l').map (fun es => (nib / 8 * 128 + (e0 + d) * 8 + nib % 8) :: es)

/-- The bits of bytes, bit 0 of the first byte first. -/
def bitsOf (bs : List Byte) : List Bool := bs.flatMap (fun b => (List.range 8).map (fun i => b.getLsbD i))

/-- The 32 E4 bytes of the block that begins a list of bytes, and its length (R77); none for a fault. -/
def decodeBlock (bs : List Byte) : Option (List Nat × Nat) :=
  let h := ofBytes (bs.take 2)
  match blockLength h with
  | none => none
  | some 2 => some (List.replicate 32 0, 2)
  | some len =>
    let nibs := ((bs.drop 2).take 16).flatMap (fun b => [b.toNat % 16, b.toNat / 16])
    (elements (h % 16) nibs (bitsOf ((bs.drop 18).take (len - 18)))).map (fun es => (es, len))

/-- A number's bits, least significant first, as a byte list of a bitstream. -/
def packBits (l : List Bool) (fuel : Nat) : List Byte :=
  match fuel with
  | 0 => []
  | n + 1 =>
    BitVec.ofNat 8 (((l.take 8).zip (List.range 8)).foldl (fun a e => if e.1 then a + 2 ^ e.2 else a) 0) :: packBits (l.drop 8) n

/-- The token of a distance (R76). -/
def tokenOf (d : Nat) : List Bool :=
  if d < 4 then List.replicate d true ++ [false]
  else [true, true, true, true] ++ (List.range 4).map (fun i => decide ((d - 4) / 2 ^ i % 2 = 1))

/-- The canonical block of 32 E4 bytes (R78). -/
def encodeBlock (xs : List Nat) : List Byte :=
  if xs.all (fun x => x == 0) then [0x00, 0x01]
  else
    let exps := xs.map (fun x => x / 8 % 16)
    let e0 := exps.foldl min 15
    let stream := exps.flatMap (fun e => tokenOf (e - e0))
    let l := ((stream.length + 7) / 8 - 4 + 1) / 2
    let nib := fun i => let x := nth xs i 0; x / 128 % 2 * 8 + x % 8
    bytesOf 2 (l * 16 + e0) ++ (List.range 16).map (fun i => BitVec.ofNat 8 (nib (2 * i) + 16 * nib (2 * i + 1))) ++
      packBits stream (4 + 2 * l)

/-- A row of 128 E4 bytes as its four blocks, filled with zeros to a multiple of 16 (R79, R262). -/
def packRow (xs : List Nat) : List Byte :=
  let bs := (List.range 4).flatMap (fun i => encodeBlock ((xs.drop (32 * i)).take 32))
  fit ((bs.length + 15) / 16 * 16) 0 bs

/-- Formats of the MXU's operands: A by window, B by XMB (R278, R280). -/
inductive MxFmt where
  | b16 | f16 | e4 | e5 | c8 | s8
  deriving DecidableEq, Repr

def aFormat (window : Nat) : Option MxFmt :=
  match window with
  | 2 => some .b16
  | 3 => some .f16
  | 4 => some .e4
  | 5 => some .e5
  | 6 => some .c8
  | 7 => some .s8
  | _ => none

def bFormat (code : Nat) : Option MxFmt :=
  match code with
  | 0 => some .b16
  | 1 => some .f16
  | 2 => some .e4
  | 3 => some .e5
  | 4 => some .s8
  | _ => none

/-- Bytes of an element; a C8 element is decoded to one E4 byte. -/
def MxFmt.size (f : MxFmt) : Nat :=
  match f with
  | .b16 => 2
  | .f16 => 2
  | _ => 1

/-- The float format of an operand. -/
def MxFmt.fmt (f : MxFmt) : Fmt :=
  match f with
  | .b16 => B16
  | .f16 => F16
  | .e5 => E5
  | _ => E4

/-- The pairings of R279. -/
def pairing (a b : MxFmt) : Bool :=
  match a, b with
  | .b16, .b16 => true
  | .f16, .f16 => true
  | .s8, .s8 => true
  | .e4, .e4 | .e4, .e5 | .e5, .e4 | .e5, .e5 | .c8, .e4 | .c8, .e5 => true
  | _, _ => false

/-- One accumulation in a 16-bit mode (R82): one rounding for each k. -/
def accumulate1 (fa fb : Fmt) (c : Nat) (ps : List (Nat × Nat)) : Nat :=
  ps.foldl (fun c p => (fmaVals F32 .rne (unpack fa p.1) (unpack fb p.2) (unpack F32 c)).1) c

/-- One accumulation in the FP8 pair mode (R82): one rounding for each pair; an odd last product stands alone. -/
def accumulate2 (fa fb : Fmt) (c : Nat) (ps : List (Nat × Nat)) : Nat :=
  match ps with
  | [] => c
  | [p] => accumulate1 fa fb c [p]
  | p :: q :: r =>
    accumulate2 fa fb (dot2 F32 .rne (unpack F32 c) (unpack fa p.1) (unpack fb p.2) (unpack fa q.1) (unpack fb q.2)).1 r

/-- Accumulate (R82, R282): codes of A and B for k = 0, 1, … added to the accumulator's 32 bits. -/
def accumulate (a b : MxFmt) (c : Nat) (ps : List (Nat × Nat)) : Nat :=
  match a with
  | .s8 => ofSigned 32 (ps.foldl (fun (x : Int) p => x + toSigned 8 p.1 * toSigned 8 p.2) (toSigned 32 c))
  | .b16 => accumulate1 a.fmt b.fmt c ps
  | .f16 => accumulate1 a.fmt b.fmt c ps
  | _ => accumulate2 a.fmt b.fmt c ps

end Sys2Proof.Machine
end

