-- ==== Sys2Proof/Machine/Copy.lean ====
section
/-! DEFINITION. The copy engine: the checks at XLAUNCH (R263, R267, R269, R271), the pieces of a copy and what each does
(R261, R262, R265), remote copies (R330, R383), the ports of the canopy (R344) and the completion actions (R267 to R271). -/
namespace Sys2Proof.Machine

/-- Field i of a shadow set or of a captured operation (R258, R280). -/
def fld (fs : List Word) (i : Nat) : Word := nth fs i 0

/-- XOPT's fields (R259). -/
def optForm (fs : List Word) : Nat := bits (fld fs 9) 3 0
def optAct (fs : List Word) : Nat := bits (fld fs 9) 7 4
def optScope (fs : List Word) : Nat := bits (fld fs 9) 10 8
def optRemote (fs : List Word) : Bool := bitAt (fld fs 9) 11
def optDev (fs : List Word) : Nat := bits (fld fs 9) 23 12
def optInbox (fs : List Word) : Nat := bits (fld fs 9) 27 24

/-- A DVA in the inject or the extract port (R256). -/
def isInject (a : Word) : Bool := regionOf a == some (.window 0)
def isExtract (a : Word) : Bool := regionOf a == some (.window 64)

/-- The loops of R261: the addresses of one side, in loop order. -/
def sideUnits (base s1 s2 : Word) (n1 n2 : Nat) : List Word :=
  (List.range n2).flatMap (fun j => (List.range n1).map (fun i => base + word j * s2 + word i * s1))

/-- Rows of the source side of a copy: address and length; a packed row's length is not known before it is read (0). -/
def srcRows (fs : List Word) : List (Word × Nat) :=
  let len := (fld fs 2).toNat
  let n := if optForm fs = 2 then 0 else len
  (sideUnits (fld fs 0) (fld fs 3) (fld fs 6) (fld fs 5).toNat (fld fs 8).toNat).map (fun a => (a, n))

/-- Rows of the destination side. -/
def dstRows (fs : List Word) : List (Word × Nat) :=
  let len := (fld fs 2).toNat
  let (n1, n) : Nat × Nat := match optForm fs with
    | 1 => ((fld fs 5).toNat, 0)
    | 3 => ((fld fs 5).toNat, len / 2)
    | 4 => (len / 2, 2 * (fld fs 5).toNat)
    | _ => ((fld fs 5).toNat, len)
  (sideUnits (fld fs 1) (fld fs 4) (fld fs 7) n1 (fld fs 8).toNat).map (fun a => (a, n))

/-- The field whose value R258, R259 or R262 does not allow, if any. -/
def badField (fs : List Word) : Option Nat :=
  let f := fun i => fld fs i
  let count := fun (x : Word) => decide (bits x 63 32 = 0 ∧ x ≠ 0)
  let act := optAct fs
  let len := (f 2).toNat
  let port := isInject (f 1) || isExtract (f 0)
  let form := optForm fs
  let checks : List (Nat × Bool) :=
    [(2, count (f 2)), (5, count (f 5)), (8, count (f 8)),
     (9, decide (bits (f 9) 63 28 = 0 ∧ (act = 2 ∨ optInbox fs = 0) ∧ (optRemote fs ∨ optDev fs = 0)) &&
         decide (1 ≤ optScope fs ∧ optScope fs ≤ 5 ∧ act ≤ 5 ∧ form ≤ 4)),
     (2, ! port || decide (len = 64)),
     (2, match form with
         | 1 => decide (len = 128)
         | 2 => decide (len = 128)
         | 3 => decide (len % 4 = 0)
         | 4 => decide (len % 2 = 0 ∧ 2 ≤ len ∧ len ≤ 256)
         | _ => true),
     (5, decide (form ≠ 4 ∨ (1 ≤ (f 5).toNat ∧ (f 5).toNat ≤ 128)))]
  (checks.find? (fun c => ! c.2)).map (fun c => c.1)

/-- Is an address in a scratchpad or the B-store, where R176 asks for multiples of 16. -/
def sixteens (a : Word) : Bool :=
  match regionOf a with
  | some (.scratch ..) => true
  | some (.own ..) => true
  | some (.bstore _) => true
  | _ => false

/-- The region of one side of a copy (R263): none where it is allowed. -/
def sideRegion (a : Word) (port : Word → Bool) : Option Nat :=
  match regionOf a with
  | none => some cNOTPRESENT
  | some (.window _) => if port a then none else some cPERMISSION
  | _ => none

/-- The first byte of a row from a that lies outside the scratchpad, the launch's bands or the B-store (R263). Of a packed
row, whose length is not known, the first 16-byte word is checked here, and the rest as it is performed (R270). -/
def State.rowFault (s : State) (w : Who) (base a : Word) (n : Nat) : Option Word :=
  let n := if n = 0 then 16 else n
  let check := fun (o0 : Nat) (size : Nat) (band : Nat → Nat → Option Nat) =>
    let o : Int := (o0 : Nat) + (a - base).toInt
    if o < 0 ∨ o ≥ (size : Nat) then some a
    else
      let k := min n (size - o.toNat)
      match band o.toNat k with
      | some i => some (a + word (i - o.toNat))
      | none => if k < n then some (a + word k) else none
  match regionOf base with
  | some (.scratch c _ o) => check o scratchSize (fun o k => s.bandFault w c o k)
  | some (.own _ o) => check o scratchSize (fun o k => s.bandFault w w.core o k)
  | some (.bstore o) => check o 2097152 (fun _ _ => none)
  | _ => none

/-- The completion parameters of an action (R267, R269, R271) of engine e. -/
def State.checkAction (s : State) (t : Thread) (c : Nat) (act : Nat) (a b : Word) (remote : Bool) : Option TrapRec :=
  match act with
  | 0 => if a ≠ 0 then some ⟨cFORMAT, 10⟩ else if b ≠ 0 then some ⟨cFORMAT, 11⟩ else none
  | 1 =>
    if a.toNat % 8 ≠ 0 then some ⟨cMISALIGNED, a⟩
    else if remote then none
    else
      match regionOf a with
      | none => some ⟨cNOTPRESENT, a⟩
      | some (.bstore _) => some ⟨cPERMISSION, a⟩
      | some (.window _) => some ⟨cPERMISSION, a⟩
      | _ => none
  | 2 => if a ≠ 0 then some ⟨cFORMAT, 10⟩ else none
  | 3 =>
    if a.toNat % 16 ≠ 0 then some ⟨cMISALIGNED, a⟩
    else if bits a 63 56 ≠ 0 then some ⟨cNOTPRESENT, a⟩
    else if b ≠ 0 then some ⟨cFORMAT, 11⟩ else none
  | 4 =>
    let kind := bits a 63 62
    let num := bits a 3 0
    if kind ≥ 2 ∨ bits a 61 48 ≠ 0 ∨ bits a 15 4 ≠ 0 ∨ (kind = 1 ∧ bits a 47 16 ≠ 0) then some ⟨cFORMAT, 10⟩
    else if kind = 0 then
      match s.pipelineOf t with
      | some l => if l.output t.stage false = some num ∨ l.output t.stage true = some num then none else some ⟨cSTAGE, allOnes⟩
      | none => some ⟨cSTAGE, allOnes⟩
    else
      let ch := nth (s.core c).chans num {}
      if ch.owner = some t.lnum ∧ ¬ ch.wide then none else some ⟨cCHANNEL, a⟩
  | _ =>
    let n := bits a 1 0
    if bits a 63 2 ≠ 0 then some ⟨cFORMAT, 10⟩
    else if b ≠ 0 then some ⟨cFORMAT, 11⟩
    else if t.kind = .mt ∨ (nth t.streams n none).isSome then some ⟨cCHANNEL, word (120 + n)⟩
    else none

/-- The checks of a copy's shadow set, in the order of R263. -/
def State.checkCopy (s : State) (t : Thread) (c : Nat) (fs : List Word) : Option TrapRec :=
  let f := fun i => fld fs i
  let src := f 0
  let dst := f 1
  let n1 := (f 5).toNat
  let n2 := (f 8).toNat
  let form := optForm fs
  let act := optAct fs
  let remote := optRemote fs
  let cols := if form = 4 then (f 2).toNat / 2 else n1
  let odd := fun (a : Word) (n : Nat) (s1 s2 : Word) (k1 : Nat) =>
    sixteens a && decide (a.toNat % 16 ≠ 0 ∨ n % 16 ≠ 0 ∨ (k1 > 1 ∧ s1.toNat % 16 ≠ 0) ∨ (n2 > 1 ∧ s2.toNat % 16 ≠ 0))
  let w : Who := ⟨t.user, t.lnum, c⟩
  let len := fun (l : List (Word × Nat)) => (l.headD (0, 0)).2
  match badField fs with
  | some n => some ⟨cFORMAT, word n⟩
  | none =>
    if remote ∧ (optScope fs ≠ 5 ∨ optDev fs = s.mgmt.devno ∨ (act ≠ 0 ∧ act ≠ 1 ∧ act ≠ 2)) then some ⟨cFORMAT, 9⟩
    else if odd src (len (srcRows fs)) (f 3) (f 6) n1 then some ⟨cMISALIGNED, src⟩
    else if ! remote && odd dst (len (dstRows fs)) (f 4) (f 7) cols then some ⟨cMISALIGNED, dst⟩
    else
      match sideRegion src isExtract with
      | some code => some ⟨code, src⟩
      | none =>
        match (if remote then (match regionOf dst with
            | none => some cNOTPRESENT
            | some .global => none
            | _ => some cPERMISSION) else sideRegion dst isInject) with
        | some code => some ⟨code, dst⟩
        | none =>
          match (if remote ∧ act = 1 then (match regionOf (f 10) with
              | none => some cNOTPRESENT
              | some .global => none
              | _ => some cPERMISSION) else none) with
          | some code => some ⟨code, f 10⟩
          | none =>
            match (srcRows fs).findSome? (fun r => s.rowFault w src r.1 r.2) with
            | some a => some ⟨cSPRANGE, a⟩
            | none =>
              match (if remote then none else (dstRows fs).findSome? (fun r => s.rowFault w dst r.1 r.2)) with
              | some a => some ⟨cSPRANGE, a⟩
              | none =>
                match s.checkAction t c act (f 10) (f 11) remote with
                | some r => some r
                | none =>
                  if act = 5 ∧ (len (dstRows fs) % 8 ≠ 0 ∨ dst.toNat % 8 ≠ 0) then some ⟨cFORMAT, 1⟩ else none

/-- Who an operation's accesses are made for. -/
def State.opWho (c : Nat) (o : EngOp) : Who := ⟨o.user, o.lnum, c⟩

/-- n bytes from a as places, cut at page boundaries; the first fault (R270). -/
def State.locateRange (s : State) (w : Who) (u : For) (a : Word) (n fuel : Nat) : Except TrapRec (List (Loc × Nat)) :=
  match fuel with
  | 0 => .ok []
  | k + 1 =>
    if n = 0 then .ok []
    else
      let m := min n (0x10000 - a.toNat % 0x10000)
      match s.locate' w u a m with
      | .error e => .error e
      | .ok l =>
        match s.locateRange w u (a + word m) (n - m) k with
        | .error e => .error e
        | .ok r => .ok ((l, m) :: r)

/-- n bytes from d cut at multiples of q: offsets and lengths. -/
def cuts (d o n q fuel : Nat) : List (Nat × Nat) :=
  match fuel with
  | 0 => []
  | k + 1 => if n = 0 then [] else let m := min n (q - d % q); (o, m) :: cuts (d + m) (o + m) (n - m) q k

/-- A piece of a copy: destination, length, where its bytes come from, and the conversion. -/
structure Piece where
  dst : Word
  n : Nat
  srcs : List (Word × Nat)
  conv : Nat

/-- The size of a piece: an atom or a scratchpad word of the destination; 64 bytes to another device. -/
def pieceSize (fs : List Word) : Nat :=
  if optRemote fs then 64 else if sixteens (fld fs 1) ∧ regionOf (fld fs 1) ≠ none ∧ bits (fld fs 1) 63 56 ≠ 0xE8 then 16 else 32

/-- Pieces in ascending order of their destinations: one put in its place, and all (R271). -/
def insertPiece (p : Piece) (l : List Piece) : List Piece :=
  match l with
  | [] => [p]
  | q :: r => if q.dst.toNat ≤ p.dst.toNat then q :: insertPiece p r else p :: q :: r

def sortPieces (l : List Piece) : List Piece := l.foldl (fun acc p => insertPiece p acc) []

/-- The pieces of a copy that packs and unpacks nothing, in the order of R261: each within an atom of its destination, but
for elements of two bytes at odd addresses, whose row is one piece. Those of a transposed unit that is streamed stand in
ascending order (R271) (DESIGN CHOICE, log 25). -/
def piecesOf (fs : List Word) : List Piece :=
  let q := pieceSize fs
  let len := (fld fs 2).toNat
  let r := (fld fs 5).toNat
  let cut := fun (d : Word) (n : Nat) => cuts d.toNat 0 n q (n + 1)
  let pairs := fun (d : Word) (n : Nat) => if d.toNat % 2 = 0 then cut d n else [(0, n)]
  match optForm fs with
  | 4 =>
    (List.range (fld fs 8).toNat).flatMap (fun j =>
      let tile := (List.range (len / 2)).flatMap (fun c =>
        let d := fld fs 1 + word j * fld fs 7 + word c * fld fs 4
        (pairs d (2 * r)).map (fun p =>
          (⟨d + word p.1, p.2, (List.range (p.2 / 2)).map (fun i =>
            (fld fs 0 + word j * fld fs 6 + word (p.1 / 2 + i) * fld fs 3 + word (2 * c), 2)), 0⟩ : Piece)))
      if optAct fs = 5 then sortPieces tile else tile)
  | 3 =>
    ((srcRows fs).zip (dstRows fs)).flatMap (fun u =>
      (pairs u.2.1 u.2.2).map (fun p => ⟨u.2.1 + word p.1, p.2, [(u.1.1 + word (2 * p.1), 2 * p.2)], 3⟩))
  | _ =>
    ((srcRows fs).zip (dstRows fs)).flatMap (fun u =>
      (cut u.2.1 u.2.2).map (fun p => ⟨u.2.1 + word p.1, p.2, [(u.1.1 + word p.1, p.2)], 0⟩))

/-- The places of a piece's source (R261); the extract port gives results (R344) (DEDUCED, log 34). -/
def State.pieceSrc (s : State) (w : Who) (fs : List Word) (p : Piece) : Except TrapRec CopySrc :=
  if isExtract (fld fs 0) then .ok .extract
  else
    match p.srcs.foldl (fun acc r =>
      match acc with
      | .error e => .error e
      | .ok l =>
        match s.locateRange w .copyRead r.1 r.2 (r.2 + 1) with
        | .error e => .error e
        | .ok m => .ok (l ++ m)) (Except.ok [] : Except TrapRec (List (Loc × Nat))) with
    | .error e => .error e
    | .ok l => .ok (.mem l p.conv)

/-- The place that stands for a piece with no home of its own. -/
def homeless (c : Nat) : Loc := ⟨2 ^ 47, c, 8, 0, 0⟩

/-- An access of operation xid of engine e, after the accesses named: it delays the operation's end. -/
def State.opAcc (s : State) (c e xid : Nat) (loc : Loc) (op : AccOp) (after : List Nat) : State :=
  (s.partAcc 0 c loc op after).modOp c e xid (fun o => { o with pending := o.pending ++ [s.accN] })

/-- Writes of an operation, not yet performed, that meet n bytes at k: the later unit gives the final value (R261). -/
def State.opMeets (s : State) (o : EngOp) (k n : Nat) : List Nat :=
  (s.accs.filter (fun a => decide (a.id ∈ o.pending) && overlap k n a.loc.key a.op.size &&
    decide (a.loc.key ≠ 2 ^ 47))).map (fun a => a.id)

/-- The bytes of a piece that access acc writes from key k join the elements of the stream register that its copy binds
(R271). -/
def State.streamBytes (s : State) (o : EngOp) (acc k n : Nat) : State :=
  if optAct o.fields ≠ 5 then s
  else
    s.modThread o.tid (fun t => { t with streams := modify t.streams (bits (fld o.fields 10) 1 0) (fun r =>
      r.map (fun r =>
        let elems := r.elems ++ (List.range n).map (fun i => (acc, k + i))
        { r with elems := elems, total := elems.length / 8 })) })

/-- The number that packs the bytes of a list with their offsets. -/
def indexed {α : Type} (l : List α) : Tab α := (List.range l.length).zip l

/-- Do n bytes at dst and m bytes at a of an operation's destination meet, by address or at their homes. The elements of a STREAM
are given out in order (R271). -/
def State.rowsMeet (s : State) (o : EngOp) (dst : Word) (n : Nat) (a : Word) (m : Nat) : Bool :=
  let place := fun (a : Word) (n : Nat) =>
    match s.locateRange (State.opWho 0 o) .copyWrite a n (n + 1) with
    | .ok l => l
    | .error _ => []
  decide (optAct o.fields = 5) || decide ((dst - a).toNat < m) || decide ((a - dst).toNat < n) ||
    (! optRemote o.fields && (place a m).any (fun p => (place dst n).any (fun q => overlap p.1.key p.2 q.1.key q.2)))

/-- Is a piece of n bytes at dst behind split elements that it meets: it is then given out behind them too, so that the later unit
gives the final value (R261, R271). -/
def State.behindSplit (s : State) (o : EngOp) (dst : Word) (n : Nat) : Bool :=
  s.accs.any (fun a => decide (a.id ∈ o.pending) && (match a.op with
    | .split _ d m _ => s.rowsMeet o dst n d m
    | _ => false))

/-- Flits of a remote copy still to be sent that write a byte of n at dst: the later unit's follows them (R261). -/
def State.shipMeets (s : State) (o : EngOp) (dst : Word) (n : Nat) : List Nat :=
  (s.accs.filter (fun a => decide (a.id ∈ o.pending) && (match a.op with
    | .ship d _ m => s.rowsMeet o dst n d m
    | _ => false))).map (fun a => a.id)

/-- One piece of a copy issued. -/
def State.issuePiece (s : State) (c : Nat) (xid : Nat) (fs : List Word) (w : Who) (p : Piece) : State :=
  match s.engOp c 0 xid with
  | none => s
  | some o =>
    match s.pieceSrc w fs p with
    | .error e => (s.noteEntry w e).opAcc c 0 xid (homeless c) (.fail e) []
    | .ok src =>
      let ports := if src = .extract ∨ isInject (fld fs 1) then o.pending else []
      if isInject (fld fs 1) ∧ ¬ optRemote fs then s.opAcc c 0 xid (homeless c) (.inject src) ports
      else if p.dst.toNat % pieceSize fs + p.n > pieceSize fs ∨ s.behindSplit o p.dst p.n then
        s.opAcc c 0 xid (homeless c) (.split src p.dst p.n (cuts p.dst.toNat 0 p.n (pieceSize fs) (p.n + 1))) ports
      else if optRemote fs then s.opAcc c 0 xid (homeless c) (.ship p.dst src p.n) (ports ++ s.shipMeets o p.dst p.n)
      else
        match s.locate' w .copyWrite p.dst p.n with
        | .error e => s.opAcc c 0 xid (homeless c) (.fail e) []
        | .ok l =>
          (s.opAcc c 0 xid l (.unit src p.n none) (ports ++ s.opMeets o l.key p.n)).streamBytes o s.accN l.key p.n

/-- The rows that a copy packs or unpacks, issued in loop order (R261). -/
def State.issueRows (s : State) (c xid : Nat) (fs : List Word) : State :=
  let pitch := fun (s1 s2 : Word) =>
    if (fld fs 5).toNat > 1 then some s1.toInt.natAbs else if (fld fs 8).toNat > 1 then some s2.toInt.natAbs else none
  let pack := decide (optForm fs = 1)
  let room := if pack then pitch (fld fs 4) (fld fs 7) else pitch (fld fs 3) (fld fs 6)
  ((srcRows fs).zip (dstRows fs)).foldl (fun (s : State) u =>
    s.opAcc c 0 xid (homeless c) (.row u.1.1 u.2.1 pack room) []) s

/-- A copy begins: its pieces are issued (R261). Where its loops hold nothing it has no piece (DESIGN CHOICE, log 25). -/
def State.startCopy (s : State) (c : Nat) (o : EngOp) : State :=
  let s := s.modOp c 0 o.xid (fun q => { q with state := 1 })
  if optForm o.fields = 1 ∨ optForm o.fields = 2 then s.issueRows c o.xid o.fields
  else (piecesOf o.fields).foldl (fun s p => s.issuePiece c o.xid o.fields (State.opWho c o) p) s

/-- The bytes found now at the parts of a source, each with whether it is poisoned (R265). -/
def State.rawBytes (s : State) (parts : List (Loc × Nat)) : List (Byte × Bool) :=
  parts.flatMap (fun p =>
    let bad := fun i => if p.1.kind = 3 then (s.readPoison p.1 p.2).isSome else (s.poisoned (p.1.key + i) 1).isSome
    (s.readAt p.1 p.2).1.zip ((List.range p.2).map bad))

/-- The offsets of n bytes from k, in groups that end at multiples of q. -/
def groups (k n q : Nat) : List (List Nat) := (cuts k 0 n q (n + 1)).map (fun p => (List.range p.2).map (fun i => p.1 + i))

/-- Bytes of a source that are read together: a scratchpad word (R215), an aligned word of a value view, else one byte
(DESIGN CHOICE, log 25). -/
def Loc.grain (l : Loc) : Nat := if 2 ^ 44 ≤ l.key ∧ l.key < 2 ^ 45 then 16 else if l.kind = 3 then 8 else 1

/-- The groups of bytes of a source, by offset, that are read together. -/
def readGroups (parts : List (Loc × Nat)) (o : Nat) : List (List Nat) :=
  match parts with
  | [] => []
  | p :: r => (groups p.1.key p.2 p.1.grain).map (fun g => g.map (fun i => o + i)) ++ readGroups r (o + p.2)

/-- Some entries of a list, at least one of them, as free value n chooses: an engine's accesses have no order among
themselves (R222) (DESIGN CHOICE, log 25). -/
def someOf {α : Type} (n : Nat) (l : List α) : List α :=
  let p := (((List.range l.length).zip l).filter (fun e => decide (Config.free n / 2 ^ e.1 % 2 = 1))).map (fun e => e.2)
  if p.isEmpty then l else p

/-- The entries that an engine takes of a list: all of them in deterministic mode and a replay (R374). -/
def State.someOf {α : Type} (s : State) (n : Nat) (l : List α) : List α := if s.fixed then l else Machine.someOf n l

/-- The byte key at offset i of the parts of a source. -/
def partKey (parts : List (Loc × Nat)) (i : Nat) : Option Nat :=
  match parts with
  | [] => none
  | p :: r => if i < p.2 then some (p.1.key + i) else partKey r (i - p.2)

/-- Is a byte of a group on a line that its home holds back (R185). -/
def State.groupHeld (s : State) (parts : List (Loc × Nat)) (g : List Nat) : Bool :=
  g.any (fun i => (partKey parts i).any s.lineHeld)

/-- Some more bytes of a source read by access a (R222), but for those of lines held back (R185). -/
def State.readSome (s : State) (a : Access) (parts : List (Loc × Nat)) : State :=
  let todo := ((readGroups parts 0).filter (fun g => g.any (fun i => (look a.raw i).isNone))).filter (fun g => ! s.groupHeld parts g)
  let now := s.rawBytes parts
  let got := ((s.someOf s.freeN todo).flatMap id).map (fun i => (i, nth now i (0, false)))
  s.modAcc a.id (fun b => { b with raw := b.raw ++ got })

/-- The bytes that a source gives once all of them are read: as they are, or converted in pairs (R262, R265). -/
def sourceBytes (conv : Nat) (raw : Tab (Byte × Bool)) (n : Nat) : List (Byte × Bool) :=
  let bs := (List.range n).map (fun i => (look raw i).getD (0, false))
  if conv ≠ 3 then bs
  else
    (List.range (n / 4)).flatMap (fun i =>
      let g := (bs.drop (4 * i)).take 4
      let bad := g.any (fun b => b.2)
      (bytesOf 2 (fconvert F32 B16 .rne (ofBytes (g.map (fun b => b.1)))).1).map (fun b => (b, bad)))

/-- Bytes of the parts of a source. -/
def partBytes (parts : List (Loc × Nat)) : Nat := total (parts.map (fun p => p.2))

/-- The canopy group of a launch (R342). -/
def State.groupOf (s : State) (n : Nat) : Nat :=
  match s.launchOf n with
  | some l => l.cgroup
  | none => 0

/-- The oldest result of a group at a core (R344). -/
def State.resultFor (s : State) (c g : Nat) : Option CanopyResult := (s.core c).canopyOut.find? (fun r => r.group = g)

def State.takeResult (s : State) (c : Nat) (r : CanopyResult) : State :=
  s.modCore c (fun k => { k with canopyOut := k.canopyOut.erase r })

/-- An operand put in a core's inject queue: it is the core's next of its group (R342). -/
def State.injectOperand (s : State) (c g op ty : Nat) (v : Vec) : State :=
  s.modCore c (fun k =>
    let n := (look k.canopyN g).getD 0
    { k with canopyIn := k.canopyIn ++ [⟨g, n, op, ty, v⟩], canopyN := put k.canopyN g (n + 1) })

/-- The engine and the operation that access id belongs to, also where only its last pieces are left. -/
def State.opOf (s : State) (c id : Nat) : Option (Nat × EngOp) :=
  (((s.core c).eng0 ++ (s.core c).eng1 ++ (s.core c).trailing).find? (fun o => id ∈ o.pending)).map (fun o => (o.engine, o))

/-- The kind-1 flit that closes a remote copy once its last kind-0 flit has been sent (R383). -/
def State.closeRemote (s : State) (c xid : Nat) : State :=
  match s.engOp c 0 xid with
  | none => s
  | some o =>
    if ! optRemote o.fields || o.closed || ! o.pending.isEmpty || decide (o.state ≠ 1) then s
    else
      let add := decide (optAct o.fields = 1)
      let s := s.modOp c 0 xid (fun o => { o with closed := true })
      s.sendFlit { blankFlit with
        cls := 2, kind := 1, ddev := optDev o.fields, slcn := c, len := 16, tag := xid, param := if add then 1 else 0,
        addr := if add then (fld o.fields 10).toNat else 0,
        payload := payloadWords [if add then fld o.fields 11 else 0, word o.sent] }

/-- An access of an operation has been performed; with its last one a copy's action is due, and a command that stopped on
a fault ends. -/
def State.opDone (s : State) (c e xid id : Nat) : State :=
  let s := s.modOp c e xid (fun o =>
    let p := o.pending.filter (fun i => i ≠ id)
    { o with pending := p, state := if e = 0 ∧ p.isEmpty ∧ o.state = 1 ∧ ¬ optRemote o.fields then 2 else o.state })
  if e = 0 then s.closeRemote c xid else s.faultEnd c xid

/-- A kind-0 flit of a remote copy with its poison mask (R383). -/
def State.shipBytes (s : State) (c : Nat) (o : EngOp) (dst : Word) (bs : List (Byte × Bool)) : State :=
  let mask := total ((List.range 8).map (fun i => if ((bs.drop (8 * i)).take 8).any (fun b => b.2) then 2 ^ i else 0))
  (s.modOp c 0 o.xid (fun o => { o with sent := o.sent + 1 })).sendFlit { blankFlit with
    cls := 2, kind := 0, ddev := optDev o.fields, slcn := c, tag := o.xid, len := bs.length, addr := dst.toNat % 2 ^ 56,
    param := mask, payload := payloadOf (bs.map (fun b => b.1)) }

/-- Bytes of a row or of split elements given to a piece of their own at a (R261, R262). -/
def State.spawnPiece (s : State) (c xid : Nat) (a : Word) (bs : List (Byte × Bool)) : State :=
  match s.engOp c 0 xid with
  | none => s
  | some o =>
    if optRemote o.fields then s.shipBytes c o a bs
    else
      match s.locate' (State.opWho c o) .copyWrite a bs.length with
      | .error e => s.opAcc c 0 xid (homeless c) (.fail e) []
      | .ok l =>
        (s.opAcc c 0 xid l (.unit (.mem [] 0) bs.length (some (indexed bs))) (s.opMeets o l.key bs.length)).streamBytes
          o s.accN l.key bs.length

/-- Bytes that a row gives, in pieces. -/
def State.spawnRow (s : State) (c : Nat) (o : EngOp) (dst : Word) (bs : List (Byte × Bool)) : State :=
  (cuts dst.toNat 0 bs.length (pieceSize o.fields) (bs.length + 1)).foldl (fun (s : State) (p : Nat × Nat) =>
    s.spawnPiece c o.xid (dst + word p.1) ((bs.drop p.1).take p.2)) s

/-- What the bytes read so far of a packed row tell (R77, R79, R262): bytes known to be needed, a block at fault, a row
longer than its pitch, or its E4 bytes. -/
structure RowScan where
  need : List Nat := []
  fault : Option Nat := none
  beyond : Bool := false
  out : List (Byte × Bool) := []

/-- n blocks from offset o of a packed row (R77, R79). -/
def scanRow (raw : Tab (Byte × Bool)) (room : Option Nat) (o n : Nat) : RowScan :=
  match n with
  | 0 => {}
  | m + 1 =>
    let miss := fun (k : Nat) => ((List.range k).map (fun i => o + i)).filter (fun i => (look raw i).isNone)
    let get := fun (k : Nat) => (List.range k).map (fun i => (look raw (o + i)).getD (0, false))
    if ¬ (miss 2).isEmpty then { need := miss 2 }
    else
      match blockLength (ofBytes ((get 2).map (fun b => b.1))) with
      | none => { fault := some o }
      | some len =>
        if room.any (fun p => decide (o + len > p)) then { beyond := true }
        else
          let rest := scanRow raw room (o + len) m
          if ¬ (miss len).isEmpty then { rest with need := miss len ++ rest.need }
          else
            match decodeBlock ((get len).map (fun b => b.1)) with
            | none => { fault := some o }
            | some (xs, _) =>
              let bad := (get len).any (fun b => b.2)
              { rest with out := xs.map (fun x => (BitVec.ofNat 8 x, bad)) ++ rest.out }

/-- The byte at a as a copy reads it. -/
def State.byteAt (s : State) (w : Who) (a : Word) : Except TrapRec (Byte × Bool) :=
  match s.locate' w .copyRead a 1 with
  | .error e => .error e
  | .ok l => .ok ((s.rawBytes [(l, 1)]).headD (0, false))

/-- Bytes at offsets from a, read one by one: the first fault. -/
def State.bytesAt (s : State) (w : Who) (a : Word) (is : List Nat) : Except TrapRec (Tab (Byte × Bool)) :=
  is.foldl (fun acc i =>
    match acc with
    | .error e => .error e
    | .ok l =>
      match s.byteAt w (a + word i) with
      | .error e => .error e
      | .ok b => .ok (l ++ [(i, b)])) (.ok [])

/-- Some of the bytes of a row that it needs, read; of a scratchpad whole words (R215, R222). -/
def State.readRowBytes (s : State) (a : Access) (w : Who) (src : Word) (need : List Nat) : Except TrapRec State :=
  let open' := need.filter (fun i =>
    match s.locate' w .copyRead (src + word i) 1 with
    | .ok l => ! s.lineHeld l.key
    | .error _ => true)
  let pick := s.someOf s.freeN open'
  let all := if sixteens src then dedup (pick.flatMap (fun i => (List.range 16).map (fun j => i / 16 * 16 + j))) else pick
  match s.bytesAt w src (all.filter (fun i => (look a.raw i).isNone)) with
  | .error e => .error e
  | .ok got => .ok (s.modAcc a.id (fun b => { b with raw := b.raw ++ got }))

/-- Does an earlier row or unit of an operation, not yet given to pieces or to flits, write a byte of n at dst: the later one gives
the final value (R261). -/
def State.rowBlocked (s : State) (o : EngOp) (id : Nat) (dst : Word) (n : Nat) : Bool :=
  s.accs.any (fun a => decide (a.id ∈ o.pending ∧ a.id < id) &&
    (match a.op with
     | .row _ d pack _ => s.rowsMeet o dst n d (if pack then 208 else 128)
     | .split _ d m _ => s.rowsMeet o dst n d m
     | .ship d _ m => s.rowsMeet o dst n d m
     | _ => false))

/-- A row that a copy packs or unpacks, one step further (R222, R262): some bytes read, or, once all are, its bytes given to
pieces (DESIGN CHOICE, log 27). -/
def State.performRow (s : State) (c : Nat) (o : EngOp) (a : Access) (src dst : Word) (pack : Bool) (room : Option Nat) : State :=
  let w := State.opWho c o
  let fail := fun (s : State) (e : TrapRec) => (s.dropAcc a.id).execFault c 0 o e
  let more := fun (need : List Nat) =>
    match s.readRowBytes a w src need with
    | .error e => fail (s.noteEntry w e) e
    | .ok s => s
  let out := fun (bs : List (Byte × Bool)) => ((s.spawnRow c o dst bs).dropAcc a.id).opDone c 0 o.xid a.id
  if pack then
    let need := (List.range 128).filter (fun i => (look a.raw i).isNone)
    if ¬ need.isEmpty then more need
    else
      let bs := sourceBytes 0 a.raw 128
      let row := packRow (bs.map (fun b => b.1.toNat))
      let bad := bs.any (fun b => b.2)
      if room.any (fun p => decide (row.length > p)) then fail s ⟨cFORMAT, dst⟩ else out (row.map (fun b => (b, bad)))
  else
    let q := scanRow a.raw room 0 4
    match q.fault with
    | some i => fail s ⟨cFORMAT, src + word i⟩
    | none => if q.beyond then fail s ⟨cFORMAT, src⟩ else if ¬ q.need.isEmpty then more q.need else out q.out

/-- Has a row that a copy packs or unpacks been read, so that its bytes are known. -/
def rowRead (raw : Tab (Byte × Bool)) (pack : Bool) (room : Option Nat) : Bool :=
  if pack then (List.range 128).all (fun i => (look raw i).isSome)
  else
    let q := scanRow raw room 0 4
    q.need.isEmpty && q.fault.isNone && ! q.beyond

/-- The ranges of split elements whose source bytes are all read: two of the source for two of the destination, or four
where they are narrowed. -/
def splitReady (src : CopySrc) (raw : Tab (Byte × Bool)) (left : List (Nat × Nat)) : List (Nat × Nat) :=
  match src with
  | .extract => []
  | .mem _ conv =>
    let k := if conv = 3 then 2 else 1
    left.filter (fun p =>
      let lo := p.1 / 2 * 2 * k
      let hi := (p.1 + p.2 + 1) / 2 * 2 * k
      (List.range (hi - lo)).all (fun i => (look raw (lo + i)).isSome))

/-- Elements of two bytes at an odd destination, one step further: some source bytes read, or ranges whose elements are
read given to pieces (R215, R222, R262), those of a STREAM in order (R271) (DESIGN CHOICE, log 25). -/
def State.performSplit (s : State) (c : Nat) (o : EngOp) (a : Access) (src : CopySrc) (dst : Word) (n : Nat)
    (left : List (Nat × Nat)) : State :=
  match src with
  | .extract => s
  | .mem parts conv =>
    let whole := decide (a.raw.length ≥ partBytes parts)
    let read := if s.rowBlocked o a.id dst n then [] else splitReady src a.raw left
    let ready := if optAct o.fields = 5 then left.takeWhile (fun p => decide (p ∈ read)) else read
    if ready.isEmpty ∨ (¬ whole ∧ s.flips s.freeN) then s.readSome a parts
    else
      let bs := sourceBytes conv a.raw (partBytes parts)
      let s := ready.foldl (fun (s : State) p => s.spawnPiece c o.xid (dst + word p.1) ((bs.drop p.1).take p.2)) s
      let rest := left.filter (fun p => ¬ p ∈ ready)
      if rest.isEmpty then (s.dropAcc a.id).opDone c 0 o.xid a.id
      else s.modAcc a.id (fun b => { b with op := .split src dst n rest })

/-- Does the state let a piece of an engine be performed, beside the accesses it follows. -/
def State.pieceReady (s : State) (a : Access) : Bool :=
  match s.opOf a.core a.id with
  | none => true
  | some (_, o) =>
    let g := s.groupOf o.lnum
    let src := fun (x : CopySrc) => decide (x ≠ .extract ∨ g = 0) || (s.resultFor a.core g).isSome
    match a.op with
    | .unit x _ none => src x
    | .ship _ x _ => src x
    | .inject x => src x && decide (g = 0 ∨ (s.core a.core).canopyIn.length < 8)
    | .row _ d pack room => ! rowRead a.raw pack room || ! s.rowBlocked o a.id d (if pack then 208 else 128)
    | .split x d n _ =>
      (match x with
       | .mem parts _ => decide (a.raw.length < partBytes parts) || ! s.rowBlocked o a.id d n
       | .extract => false)
    | _ => true

/-- The source of a piece read a step further: the bytes once all of them are read (R222); a result of the extract port
(R343, R344), which a faulty round or a launch of no group cannot take (DESIGN CHOICE, log 28). -/
def State.takeSrc (s : State) (c : Nat) (o : EngOp) (a : Access) (x : CopySrc) :
    Except TrapRec (State × Option (List (Byte × Bool))) :=
  match x with
  | .mem parts conv =>
    let s := s.readSome a parts
    match s.accs.find? (fun b => b.id = a.id) with
    | none => .ok (s, none)
    | some b =>
      if b.raw.length < partBytes parts then .ok (s, none)
      else .ok (s, some (sourceBytes conv b.raw (partBytes parts)))
  | .extract =>
    match s.resultFor c (s.groupOf o.lnum) with
    | none => .error ⟨cUNAVAILABLE, fld o.fields 0⟩
    | some r =>
      if r.bad then .error ⟨cFORMAT, word r.round⟩
      else .ok (s.takeResult c r, some ((bytesOf 64 r.data.toNat).map (fun b => (b, false))))

/-- The groups of bytes that a piece of n bytes at key k writes together: a scratchpad word, an aligned 8-byte word that it
writes whole, else one byte (R215). -/
def writeGroups (k n : Nat) : List (List Nat) :=
  let q := if 2 ^ 44 ≤ k ∧ k < 2 ^ 45 then 16 else 8
  (groups k n q).flatMap (fun g => if g.length = q then [g] else g.map (fun i => [i]))

/-- Some of the bytes that a piece has left written (R215, R222); a poisoned one poisons its atom or word (R265), and a
whole atom that is poisoned is written at once, which clears it (R186). `w3` as R381 states (DESIGN CHOICE, log 25). -/
def State.writeSome (s : State) (a : Access) (x : CopySrc) (n : Nat) (left : Tab (Byte × Bool)) (w3 : Nat) : State × Bool :=
  let all := writeGroups a.loc.key n
  let todo := all.filter (fun g => g.any (fun i => (look left i).isSome))
  let pick := if (s.poisoned a.loc.key n).isSome then todo else s.someOf s.freeN todo
  let runs := if pick.length = all.length then [List.range n] else pick
  let s := runs.foldl (fun (s : State) g =>
    let bs := g.filterMap (look left)
    let o := g.headD 0
    let l : Loc := { a.loc with key := a.loc.key + o, va := a.loc.va + word o }
    let s := s.writeAt l (bs.map (fun b => b.1)) (l.home % 4096)
    if bs.any (fun b => b.2) then s.setPoison l.key l.home w3 else s) s
  let rest := left.filter (fun e => ! pick.any (fun g => decide (e.1 ∈ g)))
  (s.modAcc a.id (fun b => { b with op := .unit x n (some rest) }), rest.isEmpty)

/-- One access of an engine performed, a step further (R222, R261, R265, R282, R284): its source is read, then its bytes
are written (DESIGN CHOICE, log 25, 28). -/
def State.performPiece (s : State) (a : Access) : State :=
  match s.opOf a.core a.id with
  | none => s.dropAcc a.id
  | some (e, o) =>
    let c := a.core
    let done := fun (s : State) => (s.dropAcc a.id).opDone c e o.xid a.id
    let reading := fun (x : CopySrc) (k : State → List (Byte × Bool) → State) =>
      match s.takeSrc c o a x with
      | .error r => (s.dropAcc a.id).execFault c e o r
      | .ok (s, none) => s
      | .ok (s, some bs) => k s bs
    match a.op with
    | .fail r => (s.dropAcc a.id).execFault c e o r
    | .row src dst pack room => s.performRow c o a src dst pack room
    | .split x dst n left => s.performSplit c o a x dst n left
    | .unit x n none =>
      reading x (fun s bs => s.modAcc a.id (fun b => { b with op := .unit x n (some (indexed bs)) }))
    | .unit x n (some left) =>
      let (s, fin) := s.writeSome a x n left (if e = 0 then 1 else 2)
      if fin then done s else s
    | .ship dst x _ => reading x (fun s bs => done (s.shipBytes c o dst bs))
    | .inject x =>
      let g := s.groupOf o.lnum
      if g = 0 then (s.dropAcc a.id).execFault c e o ⟨cUNAVAILABLE, fld o.fields 1⟩
      else
        reading x (fun s bs =>
          let last := ((s.thread o.tid).bind (fun t => t.lastPut)).getD (0, 0)
          done (s.injectOperand c g last.1 last.2 (BitVec.ofNat 512 (ofBytes (bs.map (fun q => q.1))))))
    | _ => done s

/-- Room for n words, neither held nor reserved, in an inbox (R46, R267). -/
def State.inboxFree (s : State) (c i n : Nat) : Bool := s.available [⟨c, i, true, true, n⟩]

/-- A packet enqueued by the part (R239); the accounting of accesses passes at the dequeue of its first word (R224). -/
def State.putPacket (s : State) (c i : Nat) (ws : List Word) (acct : List Nat) : State :=
  let entries : List InWord := (ws.zip (List.range ws.length)).map (fun e =>
    ⟨e.1, decide (e.2 + 1 = ws.length), if e.2 = 0 then acct else []⟩)
  s.modCore c (fun k => { k with inboxes := modify k.inboxes i (fun b => { b with words := b.words ++ entries }) })

/-- The operation at the head of an engine's queue, but for those that stopped on a fault: its action comes next (R270). -/
def State.headOp (s : State) (c e xid : Nat) : Option EngOp :=
  match ((s.core c).engine e).filter (fun o => o.fault.isNone) with
  | o :: _ => if o.xid = xid then some o else none
  | [] => none

/-- The writes of an operation that a scope covers are performed (R223). -/
def State.covered (s : State) (o : EngOp) (scope : Nat) : Bool :=
  s.accs.all (fun a => ! (decide (a.id ∈ o.pending) && covers scope a.level))

/-- An operation whose action has been performed leaves its queue; its pieces not yet performed go on, and XWAIT waits for
them (R223, R226). -/
def State.retireOp (s : State) (c e : Nat) (o : EngOp) : State :=
  let left := s.stillPending o.pending
  let s := s.endOp c e o.xid
  if left.isEmpty then s else s.modCore c (fun k => { k with trailing := k.trailing ++ [{ o with pending := left }] })

/-- CADD (R267), as R185 lets it. -/
def State.actAdd (s : State) (c e : Nat) (o : EngOp) : Option State :=
  match s.locate (State.opWho c o) .atomic (fld o.fields 10) 8 with
  | .error r => some (s.execFault c e o r)
  | .ok l => s.atLine l.key l.home true (some ((s.addAt l (fld o.fields 11) (l.home % 4096)).retireOp c e o))

/-- UINT (R268, R352): none while eight are queued; UIQ tells that one is (R97). A poisoned word 0 is a fault in reading it
(DESIGN CHOICE, log 42); a word 0 that is not a multiple of 4 gives MISALIGNED (DESIGN CHOICE, log 74). -/
def State.actUint (s : State) (c e : Nat) (o : EngOp) : Option State :=
  let a := fld o.fields 10
  match s.thread o.tid with
  | none => some ((s.logError 0x08 (unitCore c) (word o.xid) a).retireOp c e o)
  | some t =>
    if t.state = .exited then some ((s.logError 0x08 (unitCore c) (word o.xid) a).retireOp c e o)
    else if t.uints.length ≥ 8 then none
    else if (match s.locate (State.opWho c o) .load a 8 with
      | .error _ => false
      | .ok l => s.lineHeld l.key) then none
    else
      let u : Uint := match s.locate (State.opWho c o) .load a 8 with
        | .error r => ⟨o.xid, a, 0, some r.code⟩
        | .ok l =>
          let x := word (ofBytes (s.readAt l 8).1)
          if (s.readPoison l 8).isSome then ⟨o.xid, a, x, some cECC⟩
          else if x.toNat % 4 ≠ 0 then ⟨o.xid, a, x, some cMISALIGNED⟩ else ⟨o.xid, a, x, none⟩
      let ts := setBits t.csr.ts 9 9 1
      let s := s.setThread o.tid { t.modCsr (fun q => { q with ts := ts }) with uints := t.uints ++ [u] }
      let s := (s.slotPut t (0x480 + 16 * t.uints.length) [word u.xid, u.block]).slotPut t 0x3A8 [ts]
      some (s.retireOp c e o)

/-- INBOX (R267): none while the inbox has no room (DEDUCED, log 29). -/
def State.actInbox (s : State) (c e : Nat) (o : EngOp) : Option State :=
  let i := optInbox o.fields
  if ¬ s.inboxFree c i 2 then none
  else some ((s.putPacket c i [word o.xid, fld o.fields 11] (s.stillPending o.pending)).retireOp c e o)

/-- PUSH (R269): none while it waits for room. -/
def State.actPush (s : State) (c e : Nat) (o : EngOp) : Option State :=
  let a := fld o.fields 10
  let n := bits a 3 0
  if bits a 63 62 = 0 then
    match s.launchOf o.lnum with
    | none => some (s.retireOp c e o)
    | some l =>
      match l.queues[n]? with
      | none => some (s.retireOp c e o)
      | some q =>
        match offer q ⟨fld o.fields 11, BitVec.ofNat 32 (bits a 47 16)⟩ with
        | .wait => none
        | .stage => some (s.execFault c e o ⟨cSTAGE, word (bits a 47 16)⟩)
        | .accepted q' => some ((s.setLaunch o.lnum { l with queues := modify l.queues n (fun _ => q') }).retireOp c e o)
  else
    let ch := nth (s.core c).chans n {}
    if ch.owner ≠ some o.lnum ∨ ch.wide then some (s.execFault c e o ⟨cCHANNEL, a⟩)
    else if ¬ s.available [⟨c, n, false, true, 1⟩] then none
    else
      some ((s.modCore c (fun k => { k with chans := modify k.chans n (fun h =>
        { h with entries := h.entries ++ [(fld o.fields 11).zeroExtend 512] }) })).retireOp c e o)

end Sys2Proof.Machine
end

