-- ==== Sys2Proof/Machine/Mxu.lean ====
section
/-! DEFINITION. The matrix unit: the fields of a command (R278 to R280), its checks at XLAUNCH (R281), the accumulation of
a row (R82, R282, R287), its drain (R284, R285), and the arbiter's rounds (R288). -/
namespace Sys2Proof.Machine

/-- Fields of a command (R280). -/
def mxK (fs : List Word) : Nat := bits (fld fs 2) 16 8
def mxAdds (fs : List Word) : Bool := bitAt (fld fs 4) 1
def mxDrain (fs : List Word) : Nat := bits (fld fs 5) 1 0
def mxNarrow (fs : List Word) : Bool := bitAt (fld fs 5) 2
def mxAct (fs : List Word) : Nat := bits (fld fs 9) 7 4
def mxB (fs : List Word) : Option MxFmt := bFormat (bits (fld fs 3) 10 8)

/-- An address in core c's own scratchpad (R278): its window and offset. -/
def ownPad (c : Nat) (a : Word) : Option (Nat × Nat) :=
  match regionOf a with
  | some (.own w o) => some (w, o)
  | some (.scratch d w o) => if d = c then some (w, o) else none
  | _ => none

/-- The A format that XMA names. -/
def mxA (c : Nat) (fs : List Word) : Option MxFmt := (ownPad c (fld fs 0)).bind (fun p => aFormat p.1)

/-- Bytes of a drained row under WRITE (R284). -/
def drainBytes (fs : List Word) : Nat := if mxNarrow fs then 256 else 512

/-- The field of a command whose value R280 does not allow, if any: of several the one with the lowest number (DESIGN CHOICE,
log 74); XMDSTR[63:20] must be zero (DESIGN CHOICE, log 31). -/
def mxBadField (c : Nat) (fs : List Word) : Option Nat :=
  let f := fun i => fld fs i
  let m := bits (f 2) 7 0
  let writes := decide (mxDrain fs = 1)
  let integer := decide (mxB fs = some .s8 ∧ mxA c fs = some .s8)
  let checks : List (Nat × Bool) :=
    [(1, decide (bits (f 1) 63 20 = 0)),
     (2, decide (bits (f 2) 63 17 = 0 ∧ 1 ≤ m ∧ m ≤ 128 ∧ 1 ≤ mxK fs ∧ mxK fs ≤ 256)),
     (3, decide (bits (f 3) 63 11 = 0 ∧ bitAt (f 3) 7 = false) && (mxB fs).isSome),
     (4, decide (bits (f 4) 63 2 = 0)),
     (5, decide (bits (f 5) 63 3 = 0 ∧ mxDrain fs ≠ 3) && ! (writes && mxNarrow fs && integer)),
     (7, ! writes || decide (bits (f 7) 63 20 = 0 ∧ drainBytes fs ≤ (f 7).toNat)),
     (9, decide (bits (f 9) 63 8 = 0 ∧ bits (f 9) 3 0 = 0 ∧ mxAct fs ≤ 4))]
  (checks.find? (fun c => ! c.2)).map (fun c => c.1)

/-- The rows of one side as address and length: those of A (R278), those drained (R284). -/
def mxRows (fs : List Word) (base stride : Word) (n : Nat) : List (Word × Nat) :=
  (List.range (bits (fld fs 2) 7 0)).map (fun m => (base + word m * stride, n))

/-- Bytes of an A row as R281 checks them: a C8 row takes its whole stride. -/
def aRowBytes (a : MxFmt) (fs : List Word) : Nat := if a = .c8 then (fld fs 1).toNat else a.size * mxK fs

/-- The first trap of R281, in its order. XMDA and XMDSTR are addresses of a drain under WRITE alone, and only there is their
alignment checked (DESIGN CHOICE, log 74). -/
def State.checkMxu (s : State) (tid : Nat) (t : Thread) (c : Nat) (fs : List Word) : Option TrapRec :=
  let f := fun i => fld fs i
  let w : Who := ⟨t.user, t.lnum, c⟩
  let writes := decide (mxDrain fs = 1)
  let k := mxK fs
  let bank := bits (f 4) 0 0
  if t.kind ≠ .anchored then some ⟨cUNAVAILABLE, s.iword.zeroExtend 64⟩
  else
    match mxBadField c fs with
    | some n => some ⟨cFORMAT, word n⟩
    | none =>
      match s.checkAction t c (mxAct fs) (f 10) (f 11) false with
      | some r => some r
      | none =>
        match ownPad c (f 0) with
        | none => some ⟨cPERMISSION, f 0⟩
        | some (win, _) =>
          if writes ∧ (ownPad c (f 6)).isNone then some ⟨cPERMISSION, f 6⟩
          else
            match aFormat win, mxB fs with
            | none, _ => some ⟨cFORMAT, 0⟩
            | _, none => some ⟨cFORMAT, 3⟩
            | some a, some b =>
              if ¬ pairing a b then some ⟨cFORMAT, 3⟩
              else if (a.size = 2 ∧ k > 128) ∨ (a = .c8 ∧ k ≠ 128 ∧ k ≠ 256) then some ⟨cFORMAT, 2⟩
              else
                match (([f 0, f 1] ++ (if writes then [f 6, f 7] else [])).find? (fun x => decide (x.toNat % 16 ≠ 0))) with
                | some x => some ⟨cMISALIGNED, x⟩
                | none =>
                  let rows := ((mxRows fs (f 0) (f 1) (aRowBytes a fs)).filter (fun r => r.2 ≠ 0)).findSome?
                     (fun r => s.rowFault w (f 0) r.1 r.2)
                  let drained := if writes then
                      (mxRows fs (f 6) (f 7) (drainBytes fs)).findSome? (fun r => s.rowFault w (f 6) r.1 r.2)
                    else none
                  match rows.orElse (fun _ => drained) with
                  | some x => some ⟨cSPRANGE, x⟩
                  | none =>
                    if 16384 * bits (f 3) 6 0 + 128 * b.size * k > 2097152 then some ⟨cSPRANGE, 0xE800000000200000⟩
                    else
                      match ((s.core c).bank bank).owner with
                      | some o => if o = tid then none else some ⟨cUNAVAILABLE, word bank⟩
                      | none => none

/-- Operand bytes of row m of a command (R222, R283): those read early as they were found, the others as they stand now. -/
def State.operandAt (s : State) (o : EngOp) (m key n : Nat) : List (Byte × Bool) :=
  (List.range n).map (fun i =>
    (look o.early (m * 2 ^ 64 + key + i)).getD (s.rdByte (key + i), (s.poisoned (key + i) 1).isSome))

/-- The number that operand bytes hold, and whether one is poisoned. -/
def State.operandNum (s : State) (o : EngOp) (m key n : Nat) : Nat × Bool :=
  let bs := s.operandAt o m key n
  (ofBytes (bs.map (fun b => b.1)), bs.any (fun b => b.2))

/-- Codes of a row of A with their poison (R287), or the address of a C8 block that cannot be decoded (R77, R79): blocks
from byte `at'` of the row, each within the stride. Of a row that runs past its stride the address is that of the block
that does (DESIGN CHOICE, log 32). -/
def State.blocksAt (s : State) (o : EngOp) (m : Nat) (row : Word) (key at' stride : Nat) (n : Nat) :
    Except Word (List (Nat × Bool)) :=
  match n with
  | 0 => .ok []
  | n + 1 =>
    let a := row + word at'
    if at' + 2 > stride then .error a
    else
      match blockLength (s.operandNum o m (key + at') 2).1 with
      | none => .error a
      | some len =>
        if at' + len > stride then .error a
        else
          let block := s.operandAt o m (key + at') len
          match decodeBlock (block.map (fun b => b.1)) with
          | none => .error a
          | some (xs, _) =>
            let bad := block.any (fun b => b.2)
            match s.blocksAt o m row key (at' + len) stride n with
            | .error e => .error e
            | .ok r => .ok (xs.map (fun x => (x, bad)) ++ r)

/-- Elements of `size` bytes from a key as row m reads them, each with whether it is poisoned. -/
def State.codesAt (s : State) (o : EngOp) (m key size step n : Nat) : List (Nat × Bool) :=
  (List.range n).map (fun i => s.operandNum o m (key + step * i) size)

/-- Row m of A (R278). -/
def State.aRow (s : State) (c : Nat) (o : EngOp) (m : Nat) : Except Word (List (Nat × Bool)) :=
  let fs := o.fields
  match ownPad c (fld fs 0), mxA c fs with
  | some (_, base), some a =>
    let off := base + m * (fld fs 1).toNat
    let key := scratchKey c off
    if a = .c8 then s.blocksAt o m (fld fs 0 + word m * fld fs 1) key 0 (fld fs 1).toNat (mxK fs / 32)
    else .ok (s.codesAt o m key a.size a.size (mxK fs))
  | _, _ => .ok []

/-- The first byte of a command's B (R277). -/
def bBase (c : Nat) (fs : List Word) : Nat := bstoreKey (groveOf c) (16384 * bits (fld fs 3) 6 0)

/-- Column n of B for k = 0, 1, … as row m reads it (R277). -/
def State.bColumn (s : State) (c : Nat) (o : EngOp) (m : Nat) (b : MxFmt) (n : Nat) : List (Nat × Bool) :=
  s.codesAt o m (bBase c o.fields + b.size * n) b.size (128 * b.size) (mxK o.fields)

/-- Row m accumulated (R282): its 128 elements, and whether an element of A or B was poisoned. -/
def State.accumulateRow (s : State) (c : Nat) (o : EngOp) (m : Nat) (a b : MxFmt) (row : List (Nat × Bool)) (old : BitVec 4096) :
    BitVec 4096 × Bool :=
  (List.range 128).foldl (fun (acc : BitVec 4096 × Bool) n =>
    let col := s.bColumn c o m b n
    let c0 := if mxAdds o.fields then old.toNat / 2 ^ (32 * n) % 2 ^ 32 else 0
    let x := accumulate a b c0 ((row.zip col).map (fun p => (p.1.1, p.2.1)))
    (acc.1 ||| BitVec.ofNat 4096 (x % 2 ^ 32 * 2 ^ (32 * n)), acc.2 || (row.zip col).any (fun p => p.1.2 || p.2.2)))
    (0, false)

/-- The bytes of a drained row (R284): 32-bit elements as they are, or each narrowed to B16. -/
def rowBytes (narrow : Bool) (x : BitVec 4096) : List Byte :=
  (List.range 128).flatMap (fun n =>
    let e := x.toNat / 2 ^ (32 * n) % 2 ^ 32
    if narrow then bytesOf 2 (fconvert F32 B16 .rne e).1 else bytesOf 4 e)

/-- Does a drain handler, started or waiting, hold row m of a bank (R285). -/
def State.rowHeld (s : State) (c b m : Nat) : Bool :=
  let holds := fun (h : HandlerFor) =>
    match h with
    | .drain c' _ b' m' .. => decide (c' = c ∧ b' = b ∧ m' = m)
    | _ => false
  s.live.any (fun e => e.2.job.any holds) || (s.core c).slots.any (fun j => j.starts.any holds)

/-- Does an MXRD that issued before command xid still have to read row m of a bank (R295). -/
def State.rowAwaited (s : State) (c xid b m : Nat) : Bool :=
  s.accs.any (fun a =>
    match a.op with
    | .mxrd b' m' _ _ before => decide (a.core = c ∧ b' = b ∧ m' = m ∧ ¬ xid ∈ before)
    | _ => false)

/-- The drain of row m of a command: its 16-byte words written, or a handler requested (R284, R285). -/
def State.drainRow (s : State) (c : Nat) (o : EngOp) (m : Nat) (x : BitVec 4096) (bad : Bool) : State :=
  let fs := o.fields
  match mxDrain fs with
  | 1 =>
    match ownPad c (fld fs 6) with
    | none => s
    | some (_, off) =>
      let base := off + m * (fld fs 7).toNat
      let va := fld fs 6 + word m * fld fs 7
      (cuts 0 0 (drainBytes fs) 16 32).foldl (fun (s : State) p =>
        let k := scratchKey c (base + p.1)
        let bytes := ((rowBytes (mxNarrow fs) x).drop p.1).take p.2
        s.opAcc c 1 o.xid ⟨k, c, 8, 0, va + word p.1⟩
          (.unit (.mem [] 0) p.2 (some (indexed (bytes.map (fun b => (b, bad)))))) (s.opMeets o k p.2)) s
  | 2 => s.queueHandler c (m % 8) (.drain c o.xid o.bankOf m o.lnum x bad o.tid)
  | _ => s

/-- The command of a core whose rows are performed now: commands run one after another, and those of a suspended owner
are passed over (R283, R291). -/
def Core.running (k : Core) : Option EngOp := k.eng1.find? (fun o => ! o.held && o.fault.isNone && decide (o.state < 2))

/-- A command has accumulated its last row: its action is due once its drains have been performed (R286). -/
def State.rowsDone (s : State) (c : Nat) (o : EngOp) (m : Nat) : State :=
  let later := fun (e : Nat × Byte × Bool) => decide ((m + 1) * 2 ^ 64 ≤ e.1)
  (s.modOp c 1 o.xid (fun q => { q with row := m + 1, early := q.early.filter later,
                                        state := if m + 1 ≥ o.rows then 2 else 1 })).modCore c Core.settleBanks

/-- Operand bytes that row m of a command has still to read (R277, R278). -/
def EngOp.unread (o : EngOp) (c m : Nat) : List Nat :=
  let fs := o.fields
  match ownPad c (fld fs 0), mxA c fs, mxB fs with
  | some (_, base), some a, some b =>
    let extent := fun (key n : Nat) => (List.range n).map (fun i => key + i)
    (extent (scratchKey c (base + m * (fld fs 1).toNat)) (aRowBytes a fs) ++ extent (bBase c fs) (128 * b.size * mxK fs)).filter
      (fun k => (look o.early (m * 2 ^ 64 + k)).isNone)
  | _, _, _ => []

/-- Some operand bytes of a row still to come read ahead of it: the reads of a command have no fixed order (R222, R283)
(DESIGN CHOICE, log 32). None where the part makes no free choices (R374), or where this one is not taken. -/
def State.readEarly (s : State) (c xid : Nat) : Option State :=
  match (s.core c).running with
  | none => none
  | some o =>
    let m := o.row + Config.free (s.freeN + 1) % (o.rows - o.row)
    let now := s.someOf (s.freeN + 2) (o.unread c m)
    if o.xid ≠ xid ∨ o.state ≠ 1 ∨ ¬ s.flips s.freeN ∨ now.isEmpty then none
    else
      some ({ s with freeN := s.freeN + 3 }.modOp c 1 xid (fun q =>
        { q with early := q.early ++ now.map (fun k => (m * 2 ^ 64 + k, s.rdByte k, (s.poisoned k 1).isSome)) }))

/-- One row accumulated and drained (R282, R287). None while a handler or an MXRD holds the row (DESIGN CHOICE, log 32). -/
def State.rowStep (s : State) (c xid : Nat) : Option State :=
  match (s.core c).running with
  | none => none
  | some o =>
    let m := o.row
    let b := o.bankOf
    if o.xid ≠ xid ∨ o.state ≠ 1 ∨ s.rowHeld c b m ∨ s.rowAwaited c xid b m then none
    else
      match mxA c o.fields, mxB o.fields, s.aRow c o m with
      | some a, some bf, .ok row =>
        let k := (s.core c).bank b
        let (x, bad) := s.accumulateRow c o m a bf row (nth k.rows m 0)
        let kept := mxAdds o.fields && decide (m ∈ k.poison)
        let fresh := bad && ! kept
        let bad := bad || kept
        let s := s.modCore c (fun q => q.modBank b (fun k =>
          { k with rows := modify k.rows m (fun _ => x),
                   poison := (if bad then [m] else []) ++ k.poison.filter (fun j => j ≠ m) }))
        let s := if fresh then
            s.logError 0x02 (unitCore c) (fld o.fields 0 + word m * fld o.fields 1) 2
          else s
        some ((s.drainRow c o m x bad).rowsDone c o m)
      | _, _, .error e => some ((s.reportFault c 1 o ⟨cFORMAT, e⟩).stopCommand c xid ⟨cFORMAT, e⟩)
      | _, _, _ => none

/-- A command of the array goes on: it reads ahead, or completes its next row (R282, R283). -/
def State.mxuStep (s : State) (c xid : Nat) : Option State := (s.readEarly c xid).orElse (fun _ => s.rowStep c xid)

/-- The command of a core that the arbiter could start: the first not yet started, whatever the array performs (R288)
(DESIGN CHOICE, log 30). -/
def Core.startable (k : Core) : Option EngOp := k.eng1.find? (fun o => ! o.held && o.fault.isNone && decide (o.state = 0))

/-- The arbiter of grove g starts one command (R288): at the core it visits while that core's weight allows and a command
is able to start, else at the next such core in turn (DESIGN CHOICE, log 30). -/
def State.arbitrate (s : State) (g i n fuel : Nat) : Option State :=
  match fuel with
  | 0 => none
  | k + 1 =>
    let c := 8 * g + i
    match (s.core c).startable with
    | some o =>
      if n < max 1 (s.core c).mxwgt then
        some ({ s with mxu := put s.mxu g (i, n + 1) }.modOp c 1 o.xid (fun q => { q with state := 1 }))
      else s.arbitrate g ((i + 1) % 8) 0 k
    | none => s.arbitrate g ((i + 1) % 8) 0 k

/-- A command whose writes and handlers have ended performs its completion action (R286). None while it must wait
(DEDUCED, log 29). -/
def State.mxuEnd (s : State) (c xid : Nat) : Option State :=
  match s.headOp c 1 xid with
  | none => none
  | some o =>
    let queued := (s.core c).slots.any (fun j => j.starts.any (isDrain c xid))
    if o.fault.isSome ∨ o.state < 2 ∨ ¬ o.pending.isEmpty ∨ ¬ (s.drainsOf c xid).isEmpty ∨ queued then none
    else
      match mxAct o.fields with
      | 0 => some (s.retireOp c 1 o)
      | 1 => s.actAdd c 1 o
      | 2 => s.actInbox c 1 o
      | 3 => s.actUint c 1 o
      | _ => s.actPush c 1 o

/-- An MXRD performed (R295): 16 elements of the row; 0 and ECC_UNCORRECTABLE from a poisoned one (R287). The spec gives
such a row no address: that of the trap is free (DESIGN CHOICE, log 32). -/
def State.readRow (s : State) (a : Access) (b m chunk num : Nat) : State :=
  let k := (s.core a.core).bank b
  let x := (nth k.rows m 0).toNat / 2 ^ (512 * chunk)
  if m ∈ k.poison then
    s.giveResult a.tid num a.id (fun d => { d with value := 0, poison := some (Config.freeWord s.freeN) })
  else s.giveResult a.tid num a.id (fun d => { d with value := BitVec.ofNat 512 x })

/-- May an MXRD be performed: every command launched before it on its bank has accumulated (R295). -/
def State.readable (s : State) (c : Nat) (before : List Nat) : Bool :=
  (s.core c).eng1.all (fun o => decide (¬ o.xid ∈ before) || o.accumulated)

end Sys2Proof.Machine
end

