-- ==== Sys2Proof/Machine/Engines.lean ====
section
/-! DEFINITION. The engine instructions: shadow sets, launch and wait (R255 to R271), triggered operations (R272 to R276),
and the matrix unit's own instructions (R293 to R297). -/
namespace Sys2Proof.Machine

/-- XSET (R258, R266, R280). XSTAT ignores it; the fields of XFAULT and MXWGT keep the bits they have
(DESIGN CHOICE, log 33). -/
def execXset (w : BitVec 1) (d : BitVec 7) (f : BitVec 5) (e : BitVec 1) (s : State) : Out :=
  issue w { srcs := [d.toNat], role := .address, system := decide (e = 1 ∧ f = 15) } (fun s tid t xs =>
    let x := if f = 13 then word (bits (arg xs 0) 23 0) else arg xs 0
    if f = 12 then .done s
    else if e = 1 ∧ f = 15 then .done (s.modCore t.core (fun k => { k with mxwgt := bits x 3 0 }))
    else if e = 1 then .done (s.modThread tid (fun t => { t with shadow1 := modify t.shadow1 f.toNat (fun _ => x) }))
    else .done (s.modThread tid (fun t => { t with shadow0 := modify t.shadow0 f.toNat (fun _ => x) }))) s

/-- A field as XGET reads it (R260, R280). -/
def State.shadowField (s : State) (t : Thread) (f e : Nat) : Word :=
  if f = 12 then (s.core t.core).xstatWord e
  else if e = 1 ∧ f = 15 then word (s.core t.core).mxwgt
  else fld (if e = 1 then t.shadow1 else t.shadow0) f

/-- XGET (R266). -/
def execXget (w : BitVec 1) (d : BitVec 7) (f : BitVec 5) (e : BitVec 1) (s : State) : Out :=
  issue w { dst := some d.toNat } (fun s _ t _ => .clean (s.shadowField t f.toNat e.toNat) s) s

/-- Entries of engine e's queue (R255). -/
def engineRoom (e : Nat) : Nat := if e = 0 then 16 else 8

/-- The identifier after one that has been assigned (R257). -/
def nextXid (n : Nat) : Nat := if n ≥ 65535 then 1 else n + 1

/-- The operation that thread tid hands to engine e (R257, R266): queued with the next identifier. A copy that streams
binds its register (R271); a command makes the thread owner of its bank (R289). -/
def State.handOver (s : State) (tid : Nat) (t : Thread) (e : Nat) : State :=
  let c := t.core
  let id := (s.core c).xidNext
  let fs := if e = 1 then t.shadow1 else t.shadow0
  let op : EngOp := { xid := id, engine := e, fields := fs, tid := tid, lnum := t.lnum, user := t.user, stage := t.stage }
  let s := s.modCore c (fun k =>
    { k.setEngine e (k.engine e ++ [op]) with xidNext := nextXid id, xstat := modify k.xstat e (fun d => (d.1, id)) })
  if e = 1 then s.modCore c (fun k => k.modBank op.bankOf (fun b => { b with owner := some tid, ending := false }))
  else if optAct fs = 5 then
    s.modThread tid (fun t => { t with
      streams := modify t.streams (bits (fld fs 10) 1 0) (fun _ => some { xid := id, next := 0, total := 0 }) })
  else s

/-- The first trap of a launch on engine e (R263, R281). -/
def State.validate (s : State) (tid : Nat) (t : Thread) (e : Nat) : Option TrapRec :=
  if e = 1 then s.checkMxu tid t t.core t.shadow1 else s.checkCopy t t.core t.shadow0

/-- XLAUNCH (R266): validated, then room, then a release at FABRIC. -/
def execXlaunch (w : BitVec 1) (d : BitVec 7) (e : BitVec 1) (s : State) : Out :=
  issue w { dst := some d.toNat, role := .address } (fun s tid t _ =>
    match s.validate tid t e.toNat with
    | some r => .trap r.code r.tval
    | none =>
      let ids := s.stillPending (s.releaseIds tid 5 ++ s.acquireIds tid)
      if ((s.core t.core).engine e.toNat).length ≥ engineRoom e.toNat then
        .wait (.engineRoom t.core e.toNat) (s.iword.zeroExtend 64)
      else if ¬ ids.isEmpty then .stall ids
      else .clean (word (s.core t.core).xidNext) (s.handOver tid t e.toNat)) s

/-- Has the operation that an identifier names on engine e of core c ended: its action and its writes are performed (R226, R266). -/
def State.opEnded (s : State) (c e xid : Nat) : Bool :=
  decide (xid = 0) || ((s.engOp c e xid).isNone &&
    (s.core c).trailing.all (fun o => decide (o.xid ≠ xid ∨ o.engine ≠ e) || (s.stillPending o.pending).isEmpty))

/-- A wait for an operation of engine e (R266, R294). -/
def waitEngine (w : BitVec 1) (a : BitVec 7) (e : Nat) (s : State) : Out :=
  issue w { srcs := [a.toNat], acq := true } (fun s _ t xs =>
    let i := bits (arg xs 0) 15 0
    if s.opEnded t.core e i then .done s else .wait (.transfer t.core e i) (word i)) s

/-- XWAIT (R266). -/
def execXwait (w : BitVec 1) (a : BitVec 7) (e : BitVec 1) (s : State) : Out := waitEngine w a e.toNat s

/-- MXWAIT (R294). -/
def execMxwait (w : BitVec 1) (a : BitVec 7) (s : State) : Out := waitEngine w a 1 s

/-- A trigger block that R273 allows, its watched word aligned (R274). -/
def blockOk (b : List Word) : Bool :=
  let f := fun i => fld b i
  let cmp := bits (f 1) 1 0
  decide (bits (f 1) 63 24 = 0 ∧ bits (f 1) 7 4 = 0 ∧ cmp ≠ 3 ∧ f 7 = 0 ∧ (f 0).toNat % 8 = 0) &&
  decide (cmp ≠ 2 ∨ bits (f 1) 23 8 = 0) &&
  (match bits (f 1) 3 2 with
   | 0 => decide ((f 4).toNat % 128 = 0)
   | 1 => decide (f 6 = 0)
   | 2 => decide ((f 4).toNat % 4 = 0 ∧ f 6 = 0)
   | _ => decide ((f 4).toNat % 8 = 0 ∧ f 6 = 0) &&
     (match regionOf (f 4) with
      | some .global => true
      | some (.scratch ..) => true
      | some (.own ..) => true
      | _ => false))

/-- TRIG (R274): the block is checked as a load of 64 bytes, in any region that a load reads (DESIGN CHOICE, log 74); it is
read, and the entry armed, at the home. -/
def execTrig (w : BitVec 1) (d a : BitVec 7) (s : State) : Out :=
  issue w { srcs := [a.toNat], regs := winReg d, role := .address } (fun s tid t xs =>
    let x := arg xs 0
    if x.toNat % 64 ≠ 0 then .trap cMISALIGNED x
    else
      match s.checkWords t.who x 8 with
      | .error e => .trap e.code e.tval
      | .ok ls =>
        if t.tooMany then .stall t.outIds
        else
          let num := s.accN
          let loc := ls.headD (homeless t.core)
          .done (((s.noteTlb t.core x).openResult tid d.toNat 0 false [num]).issueAcc tid t.core loc
            (.arm ls t.user t.lnum num) false (s.releaseIds tid 4))) s

/-- A handle (R274). -/
def handleOf (w : Watch) (entry core : Nat) : Word := word (w.gen.toNat * 2 ^ 32 + entry * 2 ^ 11 + core)

/-- The entry that a handle names in its current generation (R275, R276): slice and number. -/
def State.entryOf (s : State) (h : Word) : Option (Nat × Nat × Watch) :=
  let c := bits h 10 0
  let n := bits h 16 11
  match (s.watchTable c)[n]? with
  | some w =>
    if bits h 63 48 = 0 ∧ bits h 31 17 = 0 ∧ w.gen.toNat = bits h 47 32 ∧ w.state ≠ 0 then some (c, n, w) else none
  | none => none

/-- A RETIRING entry with no action left is FREE, one generation later (R272). -/
def Watch.settle (w : Watch) : Watch :=
  if w.state = 2 ∧ w.pend.isEmpty then { gen := w.gen + 1 } else w

def State.modWatch (s : State) (c n : Nat) (f : Watch → Watch) : State :=
  { s with watch := put s.watch c (modify (s.watchTable c) n (fun w => (f w).settle)) }

/-- A word that an entry may watch (R272). -/
def watchable (l : Loc) : Bool := decide (l.kind = 0 ∨ l.kind = 1 ∨ l.kind = 5 ∨ l.kind = 6 ∨ l.kind = 8)

/-- TRIG performed at the home of the watched word (R274). A watched word in a poisoned atom is evaluated on the bits that it
holds, here and at each write (DESIGN CHOICE, log 74). -/
def State.armNow (s : State) (a : Access) (block : List Loc) (user : Bool) (lnum num : Nat) : State :=
  let b := s.wordsAt block
  let give := fun (s : State) (x : Word) => s.giveResult a.tid num a.id (sinkValue .whole x.toNat)
  match block.findSome? (fun l => (s.readPoison l 8).map l.poisonAt) with
  | some p => s.giveResult a.tid num a.id (poisonValue .whole p)
  | none =>
    if ¬ blockOk b then give s (allOnes - 1)
    else
      match s.locate ⟨user, lnum, a.core⟩ .load (fld b 0) 8 with
      | .error e => give (s.noteWalk a.core e) (allOnes - 2)
      | .ok l =>
        if ¬ watchable l then give s (allOnes - 2)
        else
          let c := l.home
          let t := s.watchTable c
          match (List.range 64).find? (fun i => decide ((nth t i {}).state = 0)) with
          | none => give s allOnes
          | some i =>
            let old := nth t i {}
            let w : Watch :=
              { state := 1, gen := old.gen, loc := l, words := b, t := fld b 2, r := bits (fld b 1) 23 8, k := 0,
                tid := a.tid, lnum := lnum, user := user }
            let w := s.fireWatch c w (s.rdWord l.key)
            give { s with watch := put s.watch c (modify t i (fun _ => w)) } (handleOf old i c)

/-- TRIGC (R275): after the thread's own writes to the watched word. -/
def execTrigc (w : BitVec 1) (a : BitVec 7) (s : State) : Out :=
  issue w { srcs := [a.toNat] } (fun s tid _ xs =>
    match s.entryOf (arg xs 0) with
    | none => .done s
    | some (c, n, e) =>
      let ids := (s.accs.filter (fun q => q.tid = tid && q.op.isWrite && overlap e.loc.key 8 q.loc.key q.op.size)).map (fun q => q.id)
      if e.state ≠ 1 then .done s
      else if ¬ ids.isEmpty then .stall ids
      else .done (s.modWatch c n (fun e => { e with state := 2 }))) s

/-- Is the answer of a home still on its way to a thread that asks it (R127, R353): where `waitlim` sets a limit, in which
the answer may not come, this is open; without one the wait cannot be told from its answer (DESIGN CHOICE, log 70). -/
def State.awaitsReply (s : State) (t : Thread) : Bool :=
  decide (t.csr.waitlim ≠ 0) && t.wait.all (fun w => decide (w.what ≠ .reply)) && s.flips s.freeN

/-- The status that TRIGQ gives (R276). -/
def State.watchStatus (s : State) (h : Word) : Word :=
  match s.entryOf h with
  | some (_, _, e) => word (e.state * 2 ^ 62 + e.r * 2 ^ 32 + e.pend.length % 2 ^ 16 * 2 ^ 16 + e.k % 2 ^ 16)
  | none => 0

/-- TRIGQ (R276): blocking, as `awaitsReply` states. -/
def execTrigq (w : BitVec 1) (d a : BitVec 7) (s : State) : Out :=
  issue w { srcs := [a.toNat], dst := some d.toNat } (fun s _ t xs =>
    if s.awaitsReply t then .wait .reply (s.iword.zeroExtend 64) else .clean (s.watchStatus (arg xs 0)) s) s

/-- MXRD (R295). -/
def execMxrd (w : BitVec 1) (v : BitVec 5) (a : BitVec 7) (s : State) : Out :=
  issue w { srcs := [a.toNat], vregs := [v.toNat] } (fun s tid t xs =>
    let x := arg xs 0
    if bits x 63 11 ≠ 0 then .trap cFORMAT x
    else if t.tooMany then .stall t.outIds
    else
      let b := bits x 10 10
      let num := s.accN
      let before := ((s.core t.core).eng1.filter (fun o => decide (o.bankOf = b) && ! o.accumulated)).map (fun o => o.xid)
      .done ((s.openResult tid (128 + v.toNat) 0 false [num]).issueAfter tid t.core (homeless t.core)
        (.mxrd b (bits x 9 3) (bits x 2 0) num before) false (s.acquireIds tid))) s

/-- HDONE (R296). -/
def execHdone (w : BitVec 1) (s : State) : Out :=
  issue w { rel := some 4 } (fun s tid t _ =>
    match t.job with
    | some (.drain ..) => .left (s.leave tid)
    | some (.directory _) => .left (s.leave tid)
    | _ => .trap cUNAVAILABLE (s.iword.zeroExtend 64)) s

/-- PPT (R297): banks not named are given up; under a pending cooperative pre-emption the thread goes no further until it
has been suspended (R292). -/
def execPpt (w : BitVec 1) (m : BitVec 2) (s : State) : Out :=
  issue w {} (fun s tid t _ =>
    let owned := s.ownedBanks tid
    let s := (owned.filter (fun b => ! bitAt (m.zeroExtend 64) b)).foldl (fun (s : State) b =>
      s.modCore t.core (fun k => Core.settleBanks (k.modBank b (fun q => { q with ending := true })))) s
    let stop := t.preempt && s.cooperative t && ! owned.isEmpty
    .done (s.modThread tid (fun t => { t with live := m.zeroExtend 64, ppt := t.ppt || stop }))) s

end Sys2Proof.Machine
end

