-- ==== Sys2Proof/Machine/Replicas.lean ====
section
/-! DEFINITION. The instructions on replicated objects (R306 to R312, R316, R318, R321, R323). -/
namespace Sys2Proof.Machine

/-- What an instruction of R306 finds at an address: the element and the place, or the trap in the order of R307; a failed
entry is also counted (R299). -/
inductive Found where
  | elem (e : Elem) (l : Loc)
  | trap (r : TrapRec)
  | invalid (sotx : Nat)

/-- Checks 1 and 2 of R307 on an address of an update view, or of either view. -/
def State.findElem (s : State) (w : Who) (u : For) (a : Word) : Found :=
  match s.locate' w u a 1 with
  | .error e => .trap e
  | .ok l =>
    match s.sot l.sotx with
    | none => .invalid l.sotx
    | some o =>
      match resolve o (l.kind = 2) a.toNat with
      | none => .trap ⟨cVIEW, a⟩
      | some e => .elem e l

/-- An instruction on an element: `k` goes on once the address has been resolved. -/
def withElem (s : State) (t : Thread) (u : For) (a : Word) (k : Elem → Loc → State → Act) : Act :=
  match s.findElem t.who u a with
  | .trap r => .trap r.code r.tval
  | .invalid x => .trapAfter cUNAVAILABLE a (fun s => s.noteSot x)
  | .elem e l => k e l ((s.noteTlb t.core a).noteSot l.sotx)

/-- The type that each update instruction is for (R308). -/
def memberType (member : Nat) : OType :=
  match member with
  | 0 => .pcsum
  | 1 => .maxr
  | 2 => .lwwt
  | 6 => .cmean
  | _ => .awset

/-- The size that an update's address is aligned to (R307). -/
def updateSize (o : Sot) (member : Nat) : Nat := if member = 2 then o.tsz else if member = 3 ∨ member = 4 then 4 else o.esize

/-- The source tile of an RLWW (R310): its byte key. -/
def State.tileSource (s : State) (t : Thread) (v : Word) (n : Nat) : Except TrapRec Nat :=
  match ownPad t.core v with
  | none => .error ⟨cPERMISSION, v⟩
  | some (_, o) =>
    if v.toNat % 16 ≠ 0 then .error ⟨cMISALIGNED, v⟩
    else
      match s.rowFault t.who v v n with
      | some a => .error ⟨cSPRANGE, a⟩
      | none => .ok (scratchKey t.core o)

/-- An update instruction (R307, R308): `member` is its MN. -/
def update (w : BitVec 1) (d a : BitVec 7) (member : Nat) (s : State) : Out :=
  issue w { srcs := [a.toNat], regs := winReg d, role := .address } (fun s tid t xs =>
    let a := arg xs 0
    let v := if d.toNat ≤ 111 then t.xr d.toNat else 0
    withElem s t .update a (fun e l s =>
      let go := fun (src : Option (Nat × Nat)) =>
        if t.tooMany then .stall t.outIds
        else
          let num := s.accN
          let same := (s.accs.filter (fun q => q.tid = tid && decide (q.loc.kind = 2 ∧ q.loc.key = l.key))).map (fun q => q.id)
          let reads := match src with
            | some (k, n) => s.meetIds tid k n true
            | none => []
          .done ((s.openResult tid d.toNat 0 false [num]).issueAfter tid t.core { l with home := s.elemHome e }
            (.replica member v src num none) false (same ++ s.acquireIds tid ++ reads))
      if a.toNat % updateSize e.o member ≠ 0 then .trap cMISALIGNED a
      else if (member = 3 ∨ member = 4) ∧ e.o.ty = .awset ∧ e.off ≠ 0 then .trap cVIEW a
      else if e.o.ty ≠ memberType member then .trap cFORMAT a
      else if (member = 3 ∨ member = 4) ∧ bits v 31 0 = 0xFFFFFFFF then .trap cFORMAT v
      else if member = 2 then
        match s.tileSource t v e.o.tsz with
        | .error r => .trap r.code r.tval
        | .ok k => go (some (k, e.o.tsz))
      else go none)) s

/-- RADD (R308). -/
def execRadd (w : BitVec 1) (d a : BitVec 7) (s : State) : Out := update w d a 0 s

/-- RMAX (R308, R309). -/
def execRmax (w : BitVec 1) (d a : BitVec 7) (s : State) : Out := update w d a 1 s

/-- RLWW (R308, R310). -/
def execRlww (w : BitVec 1) (d a : BitVec 7) (s : State) : Out := update w d a 2 s

/-- RSADD (R308). -/
def execRsadd (w : BitVec 1) (d a : BitVec 7) (s : State) : Out := update w d a 3 s

/-- RSREM (R308). -/
def execRsrem (w : BitVec 1) (d a : BitVec 7) (s : State) : Out := update w d a 4 s

/-- RMEAN (R308). -/
def execRmean (w : BitVec 1) (d a : BitVec 7) (s : State) : Out := update w d a 6 s

/-- Updates of a thread to one object and replica that are not yet performed (R312). -/
def State.ownUpdates (s : State) (tid : Nat) (e : Elem) : List Nat :=
  (s.accs.filter (fun q => q.tid = tid && decide (q.loc.kind = 2 ∧ q.loc.sotx = e.o.x) &&
    (match s.elemAt q.loc with
     | some f => decide (f.d = e.d)
     | none => false))).map (fun q => q.id)

/-- RSHAS (R312). -/
def execRshas (w : BitVec 1) (d a : BitVec 7) (k : BitVec 6) (s : State) : Out :=
  issue w { srcs := [d.toNat, a.toNat], role := .address, acq := true } (fun s tid t xs =>
    let p := bits (arg xs 0) 31 0
    let a := arg xs 1
    withElem s t .view a (fun e _ s =>
      let put := fun (s : State) (b : Bool) =>
        s.modThread tid (fun t => { t with pw := setBits t.pw k.toNat k.toNat (if b then 1 else 0) })
      if e.o.ty ≠ .awset then .trap cFORMAT a
      else if ¬ (s.ownUpdates tid e).isEmpty then .wait (.replica a) a
      else
        match s.poisonIn (s.runRanges e p) with
        | some i => .done ((put s false).queueTrap tid ⟨cECC, keyAddress i.1⟩)
        | none => .done (put s (decide (p ≠ 0xFFFFFFFF) && (s.findPage e p).isSome)))) s

/-- The place of a read at the home of a replica's tideline area (R319, R321). -/
def State.tidelineLoc (s : State) (e : Elem) (l : Loc) (va : Nat) : Loc :=
  { l with home := s.homeOfVa e.tl, key := (s.vkey va).getD (2 ^ 47) }

/-- RFRONT (R321): an acquire. -/
def execRfront (w : BitVec 1) (d a : BitVec 7) (c : BitVec 6) (s : State) : Out :=
  issue w { srcs := [a.toNat], regs := winReg d, role := .address } (fun s tid t xs =>
    let a := arg xs 0
    withElem s t .view a (fun e l s =>
      if c.toNat ≥ e.o.n then .trap cFORMAT (word c.toNat)
      else if t.tooMany then .stall t.outIds
      else
        let num := s.accN
        .done ((s.openResult tid d.toNat 0 false [num]).issueAcc tid t.core (s.tidelineLoc e l (e.front c.toNat))
          (.frontier c.toNat num) true []))) s

/-- RWAITF (R321). -/
def execRwaitf (w : BitVec 1) (d a : BitVec 7) (c : BitVec 6) (s : State) : Out :=
  issue w { srcs := [d.toNat, a.toNat], role := .address, acq := true } (fun s _ t xs =>
    let v := arg xs 0
    let a := arg xs 1
    withElem s t .view a (fun e _ s =>
      if c.toNat ≥ e.o.n then .trap cFORMAT (word c.toNat)
      else if (s.vword (e.front c.toNat)).toNat ≥ v.toNat then .done s
      else .wait (.frontier a c.toNat v) a)) s

/-- HLCRD (R316). -/
def execHlcrd (w : BitVec 1) (d : BitVec 7) (s : State) : Out :=
  issue w { dst := some d.toNat } (fun s _ t _ =>
    let (x, s) := s.hlcNow t.core t.tidWord
    .clean x s) s

/-- RSHIP (R318): the replica's shipping is lifted until every unit changed by now is acknowledged, or SILENT ticks pass. -/
def execRship (w : BitVec 1) (a : BitVec 7) (s : State) : Out :=
  issue w { srcs := [a.toNat], role := .address } (fun s _ t xs =>
    withElem s t .view (arg xs 0) (fun e _ s =>
      .done (s.modReplica e.o.x e.d (fun r => { r with lift := some (s.vword e.csn, s.time + word e.o.silence) })))) s

/-- The word that RSTAT gives (R323). -/
def State.replicaStatus (s : State) (e : Elem) (sel : Nat) : Word :=
  let mask := fun (st : Nat) (self : Bool) => word (total ((List.range e.o.n).map (fun m =>
    if m = e.self then (if self then 2 ^ m else 0) else if s.memberState e m = st then 2 ^ m else 0)))
  match sel with
  | 0 => word (bits (s.vword e.view) 31 0 * 2 ^ 32 + e.self * 2 ^ 16 + e.o.n)
  | 1 => mask 0 true
  | 2 => mask 2 false
  | _ => s.vword e.usn

/-- RSTAT (R323): blocking, as `awaitsReply` states. -/
def execRstat (w : BitVec 1) (d a : BitVec 7) (sel : BitVec 3) (s : State) : Out :=
  issue w { srcs := [a.toNat], dst := some d.toNat, role := .address, acq := true } (fun s _ t xs =>
    withElem s t .view (arg xs 0) (fun e _ s =>
      if s.awaitsReply t then .wait .reply (arg xs 0) else .clean (s.replicaStatus e sel.toNat) s)) s

end Sys2Proof.Machine
end

