-- ==== Sys2Proof/Machine/Fabric.lean ====
section
/-! DEFINITION. Mailboxes (R331 to R336, R384), the canopy (R342 to R344), and the arrival of remote copies, mailbox
messages and bulk data (R330, R383, R386). -/
namespace Sys2Proof.Machine

/-- A mailbox descriptor at its home, by its words (R331). -/
structure Box where
  loc : Loc
  a : Word
  w : List Word

def Box.f (b : Box) (i : Nat) : Word := nth b.w i 0
def Box.z (b : Box) : Nat := bits (b.f 4) 44 32
def Box.slots (b : Box) : Nat := bits (b.f 4) 28 16
def Box.dev (b : Box) : Nat := bits (b.f 4) 11 0
def Box.sender (b : Box) : Bool := decide (bits (b.f 4) 63 62 = 1)

/-- A descriptor whose fields R331 allows. -/
def Box.ok (b : Box) : Bool :=
  let kind := bits (b.f 4) 63 62
  decide (b.a.toNat % 64 = 0 ∧ (kind = 1 ∨ kind = 2)) &&
  decide (bits (b.f 4) 61 45 = 0 ∧ bits (b.f 4) 31 29 = 0 ∧ bits (b.f 4) 15 12 = 0) &&
  decide (64 ≤ b.z ∧ b.z ≤ 4096 ∧ b.z % 64 = 0 ∧ 1 ≤ b.slots ∧ b.slots ≤ 4096) &&
  decide ((b.f 2).toNat % b.z = 0 ∧ (b.f 3).toNat % 8 = 0 ∧ (kind = 2 ∨ b.f 5 = 0) ∧ b.f 6 = 0 ∧ b.f 7 = 0)

/-- The descriptor at an address (R332): checked as AMO64 checks its address; `kind` is 1, 2, or 0 for either
(DESIGN CHOICE, log 35). -/
def State.box (s : State) (w : Who) (a : Word) (kind : Nat) : Except TrapRec Box :=
  match s.locate w .atomic a 8 with
  | .error e => .error e
  | .ok l =>
    let b : Box := ⟨l, a, (List.range 8).map (fun i => s.rdWord (l.key + 8 * i))⟩
    if ¬ b.ok ∨ (kind ≠ 0 ∧ bits (b.f 4) 63 62 ≠ kind) then .error ⟨cFORMAT, a⟩ else .ok b

/-- Does a home hold back the line of the descriptor at an address (R185). -/
def State.boxHeld (s : State) (w : Who) (a : Word) : Bool :=
  match s.locate w .atomic a 8 with
  | .ok l => s.lineHeld l.key
  | .error _ => false

/-- Word i of a descriptor written at its home (R331). -/
def State.putBox (s : State) (b : Box) (i : Nat) (x : Word) : State :=
  s.writeAt { b.loc with key := b.loc.key + 8 * i, va := b.loc.va + word (8 * i) } (bytesOf 8 x.toNat) (b.loc.home % 4096)

/-- Is the descriptor poisoned (R186). -/
def State.boxPoison (s : State) (b : Box) : Option Word := (s.poisoned b.loc.key 64).map b.loc.poisonAt

/-- Free slots of a sender (R333, R335). -/
def Box.free (b : Box) : Nat := (word b.slots - (b.f 0 - b.f 1)).toNat

/-- The writes of the part, not yet performed, of the sequence words of one ring by core c: messages arrive in order per
sender core and mailbox (R228). -/
def State.ringIds (s : State) (c : Nat) (b : Box) : List Nat :=
  (s.accs.filter (fun a => a.tid = 0 && decide (a.core = c ∧ (a.loc.va - b.f 3).toNat < 8 * b.slots))).map (fun a => a.id)

/-- A message written on the device itself (R333): its parts, then its sequence word, with FAIL where a part faulted. -/
def State.mailHere (s : State) (c : Nat) (b : Box) (m : Mail) (parts : List (List Byte)) : State :=
  let w : Who := ⟨false, 0, c⟩
  let (s, ids, bad) := (parts.zip (List.range parts.length)).foldl
    (fun (acc : State × List Nat × Option TrapRec) p =>
      let (s, ids, bad) := acc
      match s.locate' w .remoteWrite (m.slot + word (64 * p.2)) 64 with
      | .error e => (s.noteWalk c e, ids, some (bad.getD e))
      | .ok l => (s.partAcc 0 c l (.store p.1) [], ids ++ [s.accN], bad)) (s, [], none)
  let s := match bad with
    | some r => s.mailFault m r
    | none => s
  match s.locate w .remoteWrite m.seq 8 with
  | .ok l => s.partAcc 0 c l (.store (bytesOf 8 (m.n + 1 + (if bad.isSome then 2 ^ 63 else 0)))) (ids ++ s.ringIds c b)
  | .error e => ((s.noteWalk c e).logError 0x13 (unitCore c) m.desc (word e.code)).mailFault m ⟨cUNAVAILABLE, m.slot⟩

/-- A message sent to another device as flits (R384). -/
def State.mailAway (s : State) (c : Nat) (m : Mail) (parts : List (List Byte)) : State :=
  let flit := fun (kind : Nat) (a : Word) (param len : Nat) (bs : List Byte) =>
    { blankFlit with cls := 1, kind := kind, ddev := m.dev, slcn := c, tag := m.n % 2 ^ 16, addr := a.toNat % 2 ^ 56,
                     param := param, len := len, payload := payloadOf bs }
  let s := { s with mailOut := s.mailOut ++ [m] }
  let s := (parts.zip (List.range parts.length)).foldl (fun (s : State) p =>
    s.sendFlit (flit 3 (m.slot + word (64 * p.2)) p.2 64 p.1)) s
  s.sendFlit (flit 4 m.seq parts.length 8 (bytesOf 8 (m.n + 1)))

/-- A message sent through a sender that has a free slot (R333, R336): thread tid takes its faults. -/
def State.sendMail (s : State) (c tid : Nat) (b : Box) (bytes : List Byte) : State :=
  let n := (b.f 0).toNat
  let k := n % b.slots
  let m : Mail := ⟨c, n, b.dev, b.a, b.f 2 + word (k * b.z), b.f 3 + word (8 * k), tid, b.z⟩
  let parts := (List.range (b.z / 64)).map (fun i => payloadOf ((bytes.drop (64 * i)).take 64))
  let s := s.putBox b 0 (b.f 0 + 1)
  if b.dev = s.mgmt.devno then s.mailHere c b m parts else s.mailAway c m parts

/-- The bytes of a message at the places of its bytes, 0 where they are poisoned, and the first poisoned place
(DESIGN CHOICE, log 35). -/
def State.messageBytes (s : State) (ls : List Loc) : List Byte × Option Word :=
  ls.foldl (fun acc l =>
    match s.readPoison l 1 with
    | some p => (acc.1 ++ [0], some (acc.2.getD (l.poisonAt p)))
    | none => (acc.1 ++ (s.readAt l 1).1, acc.2)) ([], none)

/-- MBSEND (R333). -/
def execMbsend (w : BitVec 1) (d a : BitVec 7) (s : State) : Out :=
  issue w { srcs := [d.toNat, a.toNat], role := .address, rel := some 5 } (fun s tid t xs =>
    let m := arg xs 0
    let a := arg xs 1
    if s.boxHeld t.who a then .stall []
    else
    match s.box t.who a 1 with
    | .error e => .trap e.code e.tval
    | .ok b =>
      match s.locateBytes t.who .load m b.z with
      | .error e => .trap e.code e.tval
      | .ok ls =>
        let s := (s.noteTlb t.core a).noteTlb t.core m
        match s.boxPoison b with
        | some p => .done (s.queueTrap tid ⟨cECC, p⟩)
        | none =>
          if b.free = 0 then .wait (.mailboxRoom a) a
          else
            s.whenLines (ls.map (fun l => l.key)) [b.loc]
              (let (bytes, bad) := s.messageBytes ls
               let s := s.sendMail t.core tid b bytes
               .done (match bad with
                 | some p => s.queueTrap tid ⟨cECC, p⟩
                 | none => s))) s

/-- The sequence word of slot k of a receiver (DESIGN CHOICE, log 35). -/
def State.seqWord (s : State) (w : Who) (b : Box) (k : Nat) : Except TrapRec Word :=
  match s.locate w .load (b.f 3 + word (8 * k)) 8 with
  | .error e => .error e
  | .ok l => .ok (s.rdWord l.key)

/-- The byte key of the sequence word of slot k, where it is mapped. -/
def State.seqKey (s : State) (w : Who) (b : Box) (k : Nat) : List Nat :=
  match s.locate w .load (b.f 3 + word (8 * k)) 8 with
  | .ok l => [l.key]
  | .error _ => []

/-- Poison of the sequence word of slot k (R186). -/
def State.seqPoison (s : State) (w : Who) (b : Box) (k : Nat) : Option Word :=
  match s.locate w .load (b.f 3 + word (8 * k)) 8 with
  | .ok l => (s.poisoned l.key 8).map l.poisonAt
  | .error _ => none

/-- The fault of a read of the sequence word of slot k. -/
def State.seqFault (s : State) (w : Who) (b : Box) (k : Nat) : Option TrapRec :=
  match s.seqWord w b k with
  | .error e => some e
  | .ok _ => none

/-- Is message number n (counted from 0) in place in a sequence word (R334). -/
def inPlace (q : Word) (n : Nat) : Bool := decide (bits q 62 0 = (n + 1) % 2 ^ 63)

/-- A slot-release notice (R334, R384): TAIL written at the sender, after the accesses named and earlier notices. -/
def State.releaseSlot (s : State) (c : Nat) (b : Box) (tail : Word) (after : List Nat) : State :=
  let a := b.f 5 + 8
  if b.dev = s.mgmt.devno then
    match s.locate ⟨false, 0, c⟩ .store a 8 with
    | .ok l =>
      let earlier := (s.accs.filter (fun a => a.tid = 0 && decide (a.loc.key = l.key))).map (fun a => a.id)
      s.partAcc 0 c l (.store (bytesOf 8 tail.toNat)) (after ++ earlier)
    | .error e => (s.noteWalk c e).logError 0x13 (unitCore c) (b.f 5) (word e.code)
  else
    s.sendFlit { blankFlit with
      cls := 1, kind := 5, ddev := b.dev, slcn := c, addr := a.toNat % 2 ^ 56, tag := (tail - 1).toNat % 2 ^ 16, len := 8,
      payload := payloadWords [tail] }

/-- A message taken from a receiver whose next one is in place (R334): the slot held before is released. -/
def State.takeMail (s : State) (c : Nat) (b : Box) (after : List Nat) : State :=
  let s := if b.f 1 ≠ 0 then s.releaseSlot c b (b.f 1) after else s
  (s.putBox b 1 (b.f 0 + 1)).putBox b 0 (b.f 0 + 1)

/-- MBRECV (R334). -/
def execMbrecv (w : BitVec 1) (d a : BitVec 7) (s : State) : Out :=
  issue w { srcs := [a.toNat], dst := some d.toNat, role := .address, acq := true } (fun s tid t xs =>
    let a := arg xs 0
    if s.boxHeld t.who a then .stall []
    else
    match s.box t.who a 2 with
    | .error e => .trap e.code e.tval
    | .ok b =>
      let k := (b.f 0).toNat % b.slots
      let s := s.noteTlb t.core a
      if (s.seqKey t.who b k).any s.lineHeld then .stall []
      else
      match (s.boxPoison b).or (s.seqPoison t.who b k), s.seqWord t.who b k with
      | some p, _ => .clean 0 (s.queueTrap tid ⟨cECC, p⟩)
      | none, .error e => .trap e.code e.tval
      | none, .ok q =>
        let ids := s.stillPending (s.meetIds tid b.loc.key 64 true)
        let before := s.stillPending (s.releaseIds tid 5 ++ s.acquireIds tid)
        if ¬ ids.isEmpty then .stall ids
        else if ¬ inPlace q (b.f 0).toNat then .wait (.mailboxMessage a) a
        else if b.f 1 ≠ 0 ∧ b.dev ≠ s.mgmt.devno ∧ ¬ before.isEmpty then .stall before
        else s.whenLines [] [b.loc] (.clean (if bitAt q 63 then 0 else b.f 2 + word (k * b.z)) (s.takeMail t.core b before))) s

/-- Consecutive messages in place from number n (R335). -/
def State.inRow (s : State) (w : Who) (b : Box) (n fuel : Nat) : Nat :=
  match fuel with
  | 0 => 0
  | k + 1 =>
    match s.seqWord w b (n % b.slots) with
    | .ok q => if inPlace q n then 1 + s.inRow w b (n + 1) k else 0
    | .error _ => 0

/-- The slots whose sequence words MBPOLL reads (R335): those in a row, and the one that ends the row. -/
def State.pollSlots (s : State) (w : Who) (b : Box) : List Nat :=
  if b.sender then []
  else (List.range (min b.slots (s.inRow w b (b.f 0).toNat b.slots + 1))).map (fun i => ((b.f 0).toNat + i) % b.slots)

/-- MBPOLL (R335). -/
def execMbpoll (w : BitVec 1) (d a : BitVec 7) (s : State) : Out :=
  issue w { srcs := [a.toNat], dst := some d.toNat, role := .address, acq := true } (fun s tid t xs =>
    let a := arg xs 0
    if s.boxHeld t.who a then .stall []
    else
    match s.box t.who a 0 with
    | .error e => .trap e.code e.tval
    | .ok b =>
      let s := s.noteTlb t.core a
      let ids := s.stillPending (s.meetIds tid b.loc.key 64 true)
      let ks := s.pollSlots t.who b
      if ks.any (fun k => (s.seqKey t.who b k).any s.lineHeld) then .stall []
      else
      match (s.boxPoison b).or (ks.findSome? (s.seqPoison t.who b)), ks.findSome? (s.seqFault t.who b) with
      | some p, _ => .clean 0 (s.queueTrap tid ⟨cECC, p⟩)
      | none, some e => .trap e.code e.tval
      | none, none =>
        if ¬ ids.isEmpty then .stall ids
        else .clean (word (if b.sender then b.free else s.inRow t.who b (b.f 0).toNat b.slots)) s) s

/-- TRPUT (R344): `op` is MOD[2:0]; BARRIER is a release at DEVICE. -/
def trput (w : BitVec 1) (v : BitVec 5) (op ty : Nat) (s : State) : Out :=
  issue w { vregs := [v.toNat], rel := if op = 7 then some 4 else none } (fun s tid t _ =>
    let g := s.groupOf t.lnum
    if g = 0 then .trap cUNAVAILABLE (s.iword.zeroExtend 64)
    else if (s.core t.core).canopyIn.length ≥ 8 then .wait (.canopyRoom t.core) (s.iword.zeroExtend 64)
    else
      .done ((s.injectOperand t.core g op ty (t.vr v.toNat)).modThread tid (fun t => { t with lastPut := some (op, ty) }))) s

/-- TRPUT ADD (R343, R344). -/
def execTrputAdd (w : BitVec 1) (v : BitVec 5) (t : BitVec 2) (s : State) : Out := trput w v 0 t.toNat s

/-- TRPUT MIN (R343, R344). -/
def execTrputMin (w : BitVec 1) (v : BitVec 5) (t : BitVec 2) (s : State) : Out := trput w v 1 t.toNat s

/-- TRPUT MAX (R343, R344). -/
def execTrputMax (w : BitVec 1) (v : BitVec 5) (t : BitVec 2) (s : State) : Out := trput w v 2 t.toNat s

/-- TRPUT AND (R343, R344). -/
def execTrputAnd (w : BitVec 1) (v : BitVec 5) (s : State) : Out := trput w v 3 0 s

/-- TRPUT OR (R343, R344). -/
def execTrputOr (w : BitVec 1) (v : BitVec 5) (s : State) : Out := trput w v 4 0 s

/-- TRPUT XOR (R343, R344). -/
def execTrputXor (w : BitVec 1) (v : BitVec 5) (s : State) : Out := trput w v 5 0 s

/-- TRPUT BCAST (R343, R344). -/
def execTrputBcast (w : BitVec 1) (v : BitVec 5) (t : BitVec 2) (s : State) : Out := trput w v 6 t.toNat s

/-- TRPUT BARRIER (R343, R344). -/
def execTrputBarrier (w : BitVec 1) (v : BitVec 5) (s : State) : Out := trput w v 7 0 s

/-- TRGET (R343, R344): a marked result traps and stays; a barrier's result is an acquire (DESIGN CHOICE, log 36). -/
def execTrget (w : BitVec 1) (v : BitVec 5) (s : State) : Out :=
  issue w { vregs := [v.toNat] } (fun s tid t _ =>
    let g := s.groupOf t.lnum
    if g = 0 then .trap cUNAVAILABLE (s.iword.zeroExtend 64)
    else
      match s.resultFor t.core g with
      | none => .wait (.canopyResult t.core) (s.iword.zeroExtend 64)
      | some r =>
        let ids := s.stillPending (s.acquireIds tid)
        if r.bad then .trap cFORMAT (word r.round)
        else if r.barrier ∧ ¬ ids.isEmpty then .stall ids
        else .done ((s.takeResult t.core r).modThread tid (fun t => t.setV v.toNat r.data))) s

/-- One lane at a node (R343): left has the lower LCNs. -/
def canopyLane (op ty l r : Nat) : Nat :=
  let f := if ty = 1 then F32 else F64
  match op with
  | 0 => if ty = 0 then (l + r) % 2 ^ 64 else (fadd f .rne l r).1
  | 1 => if ty = 0 then (if toSigned 64 r < toSigned 64 l then r else l) else (fmin f l r).1
  | 2 => if ty = 0 then (if toSigned 64 l < toSigned 64 r then r else l) else (fmax f l r).1
  | 3 => l &&& r
  | 4 => l ||| r
  | 5 => l ^^^ r
  | 6 => l
  | _ => 0

/-- A node's result (R343). -/
def nodeOp (op ty : Nat) (l r : Vec) : Vec :=
  let w := if ty = 1 then 32 else 64
  (List.range (512 / w)).foldl (fun v i => setLane w i v (canopyLane op ty (getLane w i l) (getLane w i r))) 0

/-- The fixed tree over cores lo to lo + 2^depth - 1 (R84): a side with no participant contributes nothing. -/
def canopyTree (op ty : Nat) (xs : List (Nat × Vec)) (lo depth : Nat) : Option Vec :=
  match depth with
  | 0 => (xs.find? (fun x => decide (x.1 = lo))).map (fun x => x.2)
  | k + 1 =>
    match canopyTree op ty (xs.filter (fun x => decide (x.1 < lo + 2 ^ k))) lo k,
      canopyTree op ty (xs.filter (fun x => decide (x.1 ≥ lo + 2 ^ k))) (lo + 2 ^ k) k with
    | some l, some r => some (nodeOp op ty l r)
    | some l, none => some l
    | none, r => r

/-- A result delivered to a core of its group (R342): a node holds it above a core whose extract queue is full. -/
def State.deliverResult (s : State) (c : Nat) (r : CanopyResult) : State :=
  s.modCore c (fun k =>
    if k.canopyOut.length ≥ 8 then { k with canopyHeld := some r } else { k with canopyOut := k.canopyOut ++ [r] })

/-- A held result of group g whose core has room by now: its core and the result. -/
def State.heldResult (s : State) (g : Nat) : Option (Nat × CanopyResult) :=
  s.cores.findSome? (fun e =>
    match e.2.canopyHeld with
    | some r => if r.group = g ∧ e.2.canopyOut.length < 8 then some (e.1, r) else none
    | none => none)

/-- One round of a group combined (R84, R342, R343): none until every participant has injected its operand, and while a
node holds a result above one of them. -/
def State.combineRound (s : State) (g : Nat) : Option State :=
  match s.launches.find? (fun e => e.2.started && decide (e.2.cgroup = g ∧ g ≠ 0)) with
  | none => none
  | some (_, l) =>
    let r := (look s.canopy g).getD 0
    let ops : List (Option (Nat × Operand)) := l.cores.map (fun c =>
      ((s.core c).canopyIn.find? (fun o => decide (o.group = g ∧ o.round = r))).map (fun o => (c, o)))
    if ops.any (fun o => o.isNone) ∨ l.cores.any (fun c => (s.core c).canopyHeld.isSome) then none
    else
      let xs := ops.filterMap id
      match xs with
      | [] => none
      | (_, o) :: _ =>
        let bad := xs.any (fun x => decide (x.2.op ≠ o.op ∨ x.2.ty ≠ o.ty))
        let v := if bad then 0 else ((canopyTree o.op o.ty (xs.map (fun x => (x.1, x.2.data))) 0 11).getD 0)
        let res : CanopyResult := ⟨g, r, v, bad, decide (o.op = 7)⟩
        let s := l.cores.foldl (fun (s : State) (c : Nat) => (s.modCore c (fun k =>
          { k with canopyIn := k.canopyIn.filter (fun o => ¬ (o.group = g ∧ o.round = r)) })).deliverResult c res) s
        some { s with canopy := put s.canopy g (r + 1) }

/-- The canopy goes on for a group (R342): a held result goes to its core, or a round is combined. -/
def State.canopyRound (s : State) (g : Nat) : Option State :=
  match s.heldResult g with
  | some (c, r) => some ((s.modCore c (fun k => { k with canopyHeld := none })).deliverResult c r)
  | none => s.combineRound g

/-- The arrival that a flit of a copy or a message belongs to (R383, R384): its class delivers in order, so one whose completion
request or sequence word has come has had all its flits, and what follows under the same tag is another. -/
def State.arrivalOf (s : State) (f : Flit) (mail : Bool) : Arrival :=
  (s.arrivals.find? (fun a => decide (a.dev = f.sdev ∧ a.core = f.slcn ∧ a.tag = f.tag ∧ a.mail = mail) && ! a.closed)).getD
    { no := (s.arrivals.map (fun a => a.no + 1)).foldl max 0, dev := f.sdev, core := f.slcn, tag := f.tag, mail := mail }

/-- Is it the same copy or message. -/
def Arrival.same (a b : Arrival) : Bool := decide (a.no = b.no)

def State.putArrival (s : State) (a : Arrival) : State :=
  { s with arrivals := if s.arrivals.any (fun b => b.same a) then s.arrivals.map (fun b => if b.same a then a else b)
                       else s.arrivals ++ [a] }

def State.dropArrival (s : State) (a : Arrival) : State :=
  { s with arrivals := s.arrivals.filter (fun b => ! b.same a) }

/-- A report to the device that an arrival comes from (R383). -/
def State.report (s : State) (a : Arrival) (code : Nat) (addr : Word) : State :=
  s.sendFlit { blankFlit with
    cls := 2, kind := 2, ddev := a.dev, dlcn := a.core, addr := addr.toNat % 2 ^ 56, tag := a.tag,
    param := code + (if a.mail then 256 else 0) }

/-- The sequence word of a message that has arrived (R333, R384): with FAIL where a part faulted. -/
def State.finishMail (s : State) (a : Arrival) : State :=
  let x := if a.fault.isSome then setBits a.value 63 63 1 else a.value
  match s.locate ⟨false, 0, 0⟩ .remoteWrite a.addr 8 with
  | .ok l =>
    let s := s.writeAt l (bytesOf 8 x.toNat) (l.home % 4096)
    match a.fault with
    | some r => s.report a r.code r.tval
    | none => s
  | .error e => ((s.noteWalk 0 e).logError 0x13 (unitCore a.core) a.addr (word e.code)).report a e.code a.addr

/-- A remote copy that has arrived: its add, and the report (R330, R383). -/
def State.finishCopy (s : State) (a : Arrival) : State :=
  match a.fault with
  | some r => s.report a r.code r.tval
  | none =>
    if ¬ a.add then s.report a 0 0
    else
      match s.locate ⟨false, 0, 0⟩ .remoteWrite a.addr 8 with
      | .ok l =>
        if (s.poisoned l.key 8).isSome then s.report a cECC a.addr
        else (s.addAt l a.value (l.home % 4096)).report a 0 0
      | .error e => (s.noteWalk 0 e).report a e.code a.addr

/-- Are the counted bytes of an arrival performed, or has a copy met a fault (R383, R384). -/
def Arrival.complete (a : Arrival) : Bool :=
  a.closed && ((a.fault.isSome && ! a.mail) || (a.pending.isEmpty && decide (a.count ≥ a.parts)))

/-- Is a message held behind an earlier one of the same sender core and mailbox, whose sequence word has come but not been
written (R228): sequence words of one ring lie within 32 KiB (DESIGN CHOICE, log 35). -/
def State.mailBehind (s : State) (a : Arrival) : Bool :=
  a.mail && (s.arrivals.takeWhile (fun b => ! b.same a)).any (fun b =>
    b.mail && b.closed && decide (b.dev = a.dev ∧ b.core = a.core) &&
    decide ((b.addr - a.addr).toNat < 32768 ∨ (a.addr - b.addr).toNat < 32768))

/-- The place that an arrival writes as it ends: its sequence word, or the counter of a CADD. -/
def State.endsAt (s : State) (a : Arrival) : Option Loc :=
  if ¬ a.mail ∧ (¬ a.add ∨ a.fault.isSome) then none
  else
    match s.locate ⟨false, 0, 0⟩ .remoteWrite a.addr 8 with
    | .ok l => some l
    | .error _ => none

/-- Arrivals that are complete end, in the order in which they began; one whose last write goes to a line that its home holds back
waits, and a write of a line with overflowed sharers first starts the handler that invalidates them (R185). -/
def State.endArrivals (s : State) (fuel : Nat) : State :=
  match fuel with
  | 0 => s
  | n + 1 =>
    match s.arrivals.find? (fun a => a.complete && ! s.mailBehind a && ! (s.endsAt a).any (fun l => s.lineHeld l.key)) with
    | none => s
    | some a =>
      match (s.endsAt a).filter (fun l => s.lineShared l.key) with
      | some l => (s.invalidate l.key l.home).endArrivals n
      | none =>
        let s := s.dropArrival a
        (if a.mail then s.finishMail a else s.finishCopy a).endArrivals n

/-- Every arrival that can end does. -/
def State.settleArrivals (s : State) : State := s.endArrivals (2 * s.arrivals.length)

/-- An arrival in its new state; what is complete by it ends (R228, R383, R384). -/
def State.finishArrival (s : State) (a : Arrival) : State :=
  (s.putArrival a).settleArrivals

/-- An access of an arrival has been performed. -/
def State.arrivalDone (s : State) (id : Nat) : State :=
  match s.arrivals.find? (fun a => decide (id ∈ a.pending)) with
  | none => s
  | some a => s.finishArrival { a with pending := a.pending.filter (fun i => i ≠ id) }

/-- Bytes of a flit written at a virtual address (R330, R383): each piece with whether it is poisoned. After a fault no
further byte of a copy is written. -/
def State.landBytes (s : State) (a : Arrival) (addr : Word) (bs : List (Byte × Bool)) : State :=
  let a := { a with count := a.count + 1 }
  if a.fault.isSome ∧ ¬ a.mail then s.finishArrival a
  else
    match s.locateRange ⟨false, 0, 0⟩ .remoteWrite addr bs.length (bs.length + 1) with
    | .error e =>
      let a := { a with fault := some (a.fault.getD e) }
      let s := s.noteWalk 0 e
      if a.mail then s.finishArrival a
      else ({ s with accs := s.accs.filter (fun q => ¬ q.id ∈ a.pending) }).finishArrival { a with pending := [] }
    | .ok ls =>
      let l := (ls.headD (homeless 0, 0)).1
      let (s, ids) := (cuts (addr.toNat % 32) 0 bs.length 32 (bs.length + 1)).foldl (fun (acc : State × List Nat) p =>
        let piece := (bs.drop p.1).take p.2
        let at' : Loc := { l with key := l.key + p.1, va := l.va + word p.1 }
        let meets := (acc.1.accs.filter (fun q => decide (q.id ∈ a.pending) &&
          overlap at'.key p.2 q.loc.key q.op.size)).map (fun q => q.id)
        (acc.1.partAcc 0 (l.home % 4096) at'
          (.unit (.mem [] 0) p.2 (some (indexed piece))) meets, acc.2 ++ [acc.1.accN]))
        (s, [])
      s.finishArrival { a with pending := a.pending ++ ids }

/-- The bytes of a flit with the poison mask of R383. -/
def flitBytes (f : Flit) (mask : Nat) : List (Byte × Bool) :=
  (f.payload.take f.len).zip ((List.range f.len).map (fun i => decide (mask / 2 ^ (i / 8) % 2 = 1)))

/-- REMOTE_COPY_DATA (R330, R383). -/
def execRemoteCopyData (f : Flit) (s : State) : Out :=
  partStep (s.arrive f 0 (fun s => some (s.landBytes (s.arrivalOf f false) (word f.addr) (flitBytes f f.param))))

/-- REMOTE_COPY_COMPLETION_REQUEST (R330, R383). -/
def execRemoteCopyCompletionRequest (f : Flit) (s : State) : Out :=
  partStep (s.arrive f 1 (fun s =>
    let a := s.arrivalOf f false
    some (s.finishArrival { a with
      closed := true, add := decide (f.param = 1), addr := word f.addr, value := f.word 0, parts := (f.word 1).toNat })))

/-- What a report does at the sender of a message (R333). -/
def State.mailReport (s : State) (f : Flit) : State :=
  match s.mailOf f.dlcn f.tag f.sdev f.addr with
  | none => s
  | some m =>
    let s := { s with mailOut := s.mailOut.erase m }
    if m.seq.toNat % 2 ^ 56 = f.addr then
      (s.logError 0x13 (unitCore m.core) m.desc (word (f.param % 256))).mailFault m ⟨cUNAVAILABLE, m.slot⟩
    else s.mailFault m ⟨f.param % 256, word f.addr⟩

/-- REMOTE_COPY_REPORT (R330, R383). -/
def execRemoteCopyReport (f : Flit) (s : State) : Out :=
  partStep (s.arrive f 2 (fun s =>
    if f.param / 256 = 1 then some (s.mailReport f)
    else
      match s.engOp f.dlcn 0 f.tag with
      | none => some s
      | some o =>
        if f.param = 0 then some (s.modOp f.dlcn 0 f.tag (fun o => { o with acked := true }))
        else some (s.execFault f.dlcn 0 o ⟨f.param, word f.addr⟩)))

/-- MAILBOX_PAYLOAD (R333, R384). -/
def execMailboxPayload (f : Flit) (s : State) : Out :=
  partStep (s.arrive f 3 (fun s => some (s.landBytes (s.arrivalOf f true) (word f.addr) (flitBytes f 0))))

/-- MAILBOX_SEQUENCE_WORD (R333, R384). -/
def execMailboxSequenceWord (f : Flit) (s : State) : Out :=
  partStep (s.arrive f 4 (fun s =>
    let a := s.arrivalOf f true
    some (s.finishArrival { a with closed := true, addr := word f.addr, value := f.word 0, parts := f.param })))

/-- SLOT_RELEASE_NOTICE (R334, R384): TAIL is written at its home, after earlier notices. -/
def execSlotReleaseNotice (f : Flit) (s : State) : Out :=
  partStep (s.arrive f 5 (fun s =>
    let s := { s with mailOut := s.mailOut.filter (fun m =>
      ¬ (m.dev = f.sdev ∧ m.desc + 8 = word f.addr ∧ m.n < (f.word 0).toNat)) }
    match s.locate ⟨false, 0, 0⟩ .store (word f.addr) 8 with
    | .ok l =>
      let earlier := (s.accs.filter (fun a => a.tid = 0 && decide (a.loc.key = l.key))).map (fun a => a.id)
      some (s.partAcc 0 (l.home % 4096) l (.store (bytesOf 8 (f.word 0).toNat)) earlier)
    | .error e => some ((s.noteWalk 0 e).logError 0x13 (unitCore f.slcn) (word f.addr - 8) (word e.code))))

/-- A payload of bulk data written as remote-copy data is (R378, R386); its fault goes back to the sender. -/
def execBulkData (f : Flit) (s : State) : Out :=
  partStep (s.arrive f 12 (fun s =>
    match s.locateRange ⟨false, 0, 0⟩ .remoteWrite (word f.addr) 64 65 with
    | .error e =>
      some ((s.noteWalk 0 e).sendFlit { blankFlit with
        kind := 11, ddev := f.sdev, param := 4, len := 16, payload := payloadWords [word f.addr, word e.code] })
    | .ok ls =>
      some (ls.foldl (fun (acc : State × List Byte) p =>
        (acc.1.partAcc 0 (p.1.home % 4096) p.1 (.store (acc.2.take p.2)) [], acc.2.drop p.2)) (s, f.payload)).1))

/-- CANOPY_ROUND (R342, R343). -/
def execCanopyRound (g : Nat) (s : State) : Out :=
  partStep (if s.mgmt.power = 0 then s.canopyRound g else none)

end Sys2Proof.Machine
end

