-- ==== Sys2Proof/Machine/Cuts.lean ====
section
/-! DEFINITION. Shipping, joins and membership of replicated objects (R300, R302, R313 to R320, R324, R385): cuts made and
received flit by flit. -/
namespace Sys2Proof.Machine

/-- The replica of object x on a die of this device; the failure of its entry is another matter (R299). -/
def State.replicaOn (s : State) (x die : Nat) : Option Elem :=
  match s.sot x with
  | none => none
  | some o =>
    let self := nth o.locals die 127
    if self = 127 ∨ (o.device ∧ die ≠ 0) then none else some ⟨o, die, self, 0⟩

/-- The device and die of member m (R300). -/
def State.memberAt (s : State) (o : Sot) (m : Nat) : Nat × Nat :=
  let i := (s.memberId o m).toNat
  (i / 8, i % 8)

/-- The slot of the member on a device and die. -/
def State.slotOf (s : State) (o : Sot) (dev die : Nat) : Option Nat :=
  (List.range o.n).find? (fun m => decide ((s.memberId o m).toNat = dev * 8 + die))

/-- Slot and tile of shipping unit u of an object (R302): the slot is 0 where a unit has none. -/
def unitParts (o : Sot) (u : Nat) : Nat × Nat :=
  if o.ty = .pcsum ∨ o.ty = .cmean then (u / o.tiles, u % o.tiles) else (0, u)

/-- The shipping unit of a slot and a tile. -/
def unitOf (o : Sot) (slot t : Nat) : Nat := if o.ty = .pcsum ∨ o.ty = .cmean then slot * o.tiles + t else t

/-- Ranges of state, as address and length, that a unit's contents are (R302, R385); an AWSET's are records. -/
def unitRanges (e : Elem) (u : Nat) : List (Nat × Nat) :=
  let o := e.o
  let (c, t) := unitParts o u
  match o.ty with
  | .pcsum => [(e.lbase + o.n * o.image + 8 * u, 8), (e.lbase + c * o.image + t * o.tsz, o.tsz)]
  | .maxr => [(e.lbase + t * o.tsz, o.tsz)]
  | .lwwt => [(e.lbase + o.tiles * o.tsz + 16 * t, 16), (e.lbase + t * o.tsz, o.tsz)]
  | .cmean => [(e.lbase + 16 * (c * o.nelem + t * o.tsz / 8), 2 * o.tsz)]
  | .awset => []

/-- Pages of a unit that a replica holds, in ascending order, with their entries (R302). -/
def State.unitPages (s : State) (e : Elem) (u : Nat) : List (Nat × Nat) :=
  ((s.pages e).filter (fun q => decide (pageUnit e.o q.1 = u))).foldl
    (fun l q => (l.filter (fun r => decide (r.1 < q.1))) ++ [q] ++ l.filter (fun r => decide (r.1 > q.1))) []

/-- The words of VV, which an AWSET's header carries and its joins read (R314). -/
def vvRange (e : Elem) : List (Nat × Nat) := if e.o.ty = .awset then [(e.vv 0, 512)] else []

/-- Is any state that a unit's join or contents reads poisoned (R324): an AWSET's is records, their chains and VV. -/
def State.unitPoison (s : State) (e : Elem) (u : Nat) : Option (Nat × Nat) :=
  if e.o.ty = .awset then
    s.poisonIn ((s.unitPages e u).flatMap (fun q =>
      (e.entry q.2, 64) :: (s.chain (s.vword (e.entry q.2 + 56)).toNat 16).map (fun b => (b, 64))) ++ vvRange e)
  else s.poisonIn (unitRanges e u)

/-- Is any state that a marker carries or is applied to poisoned (R319, R324). -/
def State.markerPoison (s : State) (e : Elem) : Option (Nat × Nat) :=
  s.poisonIn ((List.range e.o.n).map (fun m => (e.hv m 0, 8 * e.o.n)) ++
    [(e.member 0, 8 * e.o.n), (e.front 0, 8 * e.o.n), (e.csn, 8), (e.beat, 8), (e.view, 8)] ++ vvRange e)

/-- Is any state that a cut of the given units reads poisoned, the CSN words that name them among it (R324). -/
def State.cutPoison (s : State) (e : Elem) (units : List Nat) : Option (Nat × Nat) :=
  ((s.markerPoison e).or (s.poisonIn [(e.unitCsn 0, 8 * e.o.units), (e.shipped 0, 64)])).or (units.findSome? (fun u => s.unitPoison e u))

/-- The event counted (R324, R381). -/
def State.countPoison (s : State) (p : Nat × Nat) : State := s.logError 0x02 (unitCore (p.2 % 4096)) (keyAddress p.1) 3

/-- The records of one page (R385): at most seven dots in each. -/
def pageRecords (p : Nat) (ds : List Dot) (fuel : Nat) : List Word :=
  match fuel with
  | 0 => []
  | k + 1 =>
    let now := ds.take 7
    let more := ds.drop 7
    [word (p + now.length * 2 ^ 32 + (if more.isEmpty then 0 else 2 ^ 35))] ++ fit 7 0 (now.map Dot.word) ++
      (if more.isEmpty then [] else pageRecords p more k)

/-- The contents of a unit as a byte stream (R385). -/
def State.unitBytes (s : State) (e : Elem) (u : Nat) : List Byte :=
  if e.o.ty = .awset then
    let ws := (s.unitPages e u).flatMap (fun q => pageRecords q.1 (s.dots e q.2) 10)
    if ws.isEmpty then [0] else ws.flatMap (fun w => bytesOf 8 w.toNat)
  else (unitRanges e u).flatMap (fun r => s.vbytes r.1 r.2)

/-- Bytes cut into parts of 64, the last carrying the remainder. -/
def partsOf (bs : List Byte) (fuel : Nat) : List (List Byte) :=
  match fuel with
  | 0 => []
  | k + 1 => if bs.length ≤ 64 then [bs] else bs.take 64 :: partsOf (bs.drop 64) k

/-- The flits of one header, unit or marker (R385). -/
def cutFlits (base : Flit) (kind number slot : Nat) (bs : List Byte) : List Flit :=
  let ps := partsOf bs (bs.length + 1)
  (ps.zip (List.range ps.length)).map (fun p =>
    { base with
      kind := kind, len := p.1.length, payload := payloadOf p.1, addr := p.2 * 2 ^ 32 + number,
      param := base.param + (if p.2 + 1 = ps.length then 2 ^ 12 else 0) + slot * 2 ^ 13 })

/-- Words of a row of n in multiples of eight (R385). -/
def padRow (n : Nat) (ws : List Word) : List Word := fit ((n + 7) / 8 * 8) 0 ws

/-- A cut's flit as it crosses a die boundary (R14, R327): the dies stand in the place of the devices. -/
def onBoundary (f : Flit) : Flit :=
  let g := { f with ddev := f.dlcn / 256, sdev := f.slcn / 256 }
  { g with crc := g.crcOf }

/-- The key of a stream of flits between two dies of the device (R327). -/
def dieStream (f : Flit) : Nat := 2 ^ 20 + (f.slcn / 256 * 8 + f.dlcn / 256) * 8 + f.cls * 2 + f.sub

/-- A cut's flit on its way: to another device, or to another die of this one (R327). -/
def State.shipFlit (s : State) (f : Flit) : State :=
  if f.ddev = s.mgmt.devno then
    let (g, s) := s.numbered (dieStream f) f
    { s with dieFlits := s.dieFlits ++ [onBoundary g] }
  else s.sendFlit f

/-- The heartbeat of member m as a replica knows it (R319). -/
def State.heartbeat (s : State) (e : Elem) (m : Nat) : Word :=
  if m = e.self then s.vword e.beat else word (bits (s.vword (e.member m)) 63 32)

/-- A marker's words (R385): the have-matrix, then the heartbeats. -/
def State.markerWords (s : State) (e : Elem) : List Word :=
  let n := e.o.n
  (List.range n).flatMap (fun m => padRow n ((List.range n).map (fun c => s.vword (e.hv m c)))) ++
    padRow n ((List.range n).map (fun m => s.heartbeat e m))

/-- Units above SHIPPED[j] and at or below k, in ascending CSN (R317) (DESIGN CHOICE, log 37). -/
def State.dueUnits (s : State) (e : Elem) (shipped k : Nat) : List Nat :=
  (((List.range e.o.units).map (fun u => ((s.vword (e.unitCsn u)).toNat, u))).filter
    (fun q => decide (shipped < q.1 ∧ q.1 ≤ k))).foldl
    (fun l q => (l.filter (fun r => decide (r.1 ≤ q.1))) ++ [q] ++ l.filter (fun r => decide (r.1 > q.1))) [] |>.map (fun q => q.2)

/-- The peer that offset j names: a member slot other than the replica's own (R298). -/
def Elem.peer (e : Elem) (j : Nat) : Option Nat :=
  let p := nth e.o.peers j 0
  let m := (e.self + p) % max 1 e.o.n
  if p = 0 ∨ m = e.self then none else some m

/-- The entry of a replica has become valid (R320): every member starts LIVE, and its silence timer starts; a failure that
follows is one of a new change (R299). -/
def State.openReplica (s : State) (e : Elem) : State :=
  if (s.replica e.o.x e.d).valid then s
  else (((List.range e.o.n).foldl (fun (s : State) m =>
    if s.memberState e m = 0 then s else s.vputWord (e.member m) (setBits (s.vword (e.member m)) 1 0 0)) s).modReplica e.o.x e.d (fun r =>
    { r with valid := true, timers := (List.range e.o.n).map (fun m => (m, s.time)) })).modReplica e.o.x 0 (fun r => { r with seen := [] })

/-- The shared objects whose entries a choice has made valid, or valid no more, which the longshore engine, whose next cut it
stops, counts (R299, R320): only an entry that memory lists
with a TYPE can be valid. -/
def State.watchObjects (s : State) : State :=
  let base := bits (nth s.ctl 2 0) 39 16 * 2 ^ 16
  let named := s.mem.filterMap (fun c =>
    if base ≤ c.1 ∧ c.1 < base + 4096 * 128 ∧ (c.1 - base) % 128 = 0 ∧ c.2.toNat % 8 ≠ 0 then some ((c.1 - base) / 128) else none)
  let known := s.replicas.filterMap (fun q => if q.2.valid then some (q.1 / 8) else none)
  (dedup (named ++ known)).foldl (fun (s : State) x =>
    match s.sot x with
    | none => if x ∈ known then (s.noteSot x).closeObject x else s
    | some _ => (List.range 8).foldl (fun (s : State) d =>
        match s.replicaOn x d with
        | some e => s.openReplica e
        | none => s) s) s

/-- Are shipping and joins at work: in every mode, but in D1 and D2 and while a checkpoint runs (R317, R368, R378). -/
def State.shipping (s : State) : Bool := decide (s.mgmt.power = 0) && ! s.mgmt.ckpt

/-- Every unit at or below a CSN is acknowledged by every LIVE peer (R318). -/
def State.allShipped (s : State) (e : Elem) (csn : Word) : Bool :=
  (List.range 8).all (fun j =>
    match e.peer j with
    | none => true
    | some m => decide (s.memberState e m ≠ 0) || decide ((s.vword (e.shipped j)).toNat ≥ csn.toNat))

/-- Is the shipping of a replica lifted at this moment (R318). -/
def State.lifted (s : State) (e : Elem) : Bool :=
  match (s.replica e.o.x e.d).lift with
  | some (csn, till) => ! s.allShipped e csn && decide (s.time.toNat < till.toNat)
  | none => false

/-- A lift ends when every LIVE peer has acknowledged what it was for (R318). -/
def State.settleLift (s : State) (e : Elem) : State :=
  match (s.replica e.o.x e.d).lift with
  | some (csn, _) => if s.allShipped e csn then s.modReplica e.o.x e.d (fun r => { r with lift := none }) else s
  | none => s

/-- A cut made and sent to peer offset j (R317). None where there is no such peer or it cannot be reached. -/
def State.cutSend (s : State) (x die j : Nat) : Option State :=
  match s.replicaOn x die with
  | none => none
  | some e =>
    match e.peer j with
    | none => none
    | some m =>
      let (dev, pd) := s.memberAt e.o m
      if ¬ s.shipping ∨ (dev ≠ s.mgmt.devno ∧ (s.route dev).isNone) then none
      else
        let s := s.openReplica e
        let s := s.vputWord e.beat (s.vword e.beat + 1)
        let k := s.vword e.csn
        let units := s.dueUnits e (s.vword (e.shipped j)).toNat k.toNat
        match s.cutPoison e units with
        | some p => some (s.countPoison p)
        | none =>
          let base := { blankFlit with
            cls := if s.lifted e then 2 else 3, ddev := dev, dlcn := 256 * pd, slcn := 256 * die,
            tag := k.toNat % 2 ^ 16, param := x }
          let head := [k, word (e.self + s.digest e.o * 2 ^ 32), word units.length, 0, 0, 0, 0, 0] ++
            (if e.o.ty = .awset then (List.range 64).map (fun r => s.vword (e.vv r)) else [])
          let flits := cutFlits base 6 0 0 (head.flatMap (fun w => bytesOf 8 w.toNat)) ++
            units.flatMap (fun u => let (c, t) := unitParts e.o u; cutFlits base 7 t c (s.unitBytes e u)) ++
            cutFlits base 8 0 0 ((s.markerWords e).flatMap (fun w => bytesOf 8 w.toNat))
          some (flits.foldl (fun s f => s.shipFlit f) s)

/-- Peers that a replica has sent to in the present rotation of its die, with 64 where it has evaluated its members: what
deterministic mode goes by (R374). -/
def State.servedIn (s : State) (x die : Nat) : List Nat :=
  let r := (s.replica x die).round
  if r.1 = s.dieRotation die then r.2 else []

/-- Deterministic mode gives every cut and evaluation its place: once in each rotation of the die's scheduler (R374)
(DESIGN CHOICE, log 71). -/
def State.serve (s : State) (x die j : Nat) : State :=
  if ¬ s.fixed then s else s.modReplica x die (fun r => { r with round := (s.dieRotation die, s.servedIn x die ++ [j]) })

/-- CUT_SEND (R317) (DESIGN CHOICE, log 37). -/
def execCutSend (sotx die peer : Nat) (s : State) : Out :=
  partStep ((s.cutSend sotx die peer).map (fun s => s.serve sotx die peer))

/-- Word i of bytes. -/
def wordIn (bs : List Byte) (i : Nat) : Word := word (ofBytes ((bs.drop (8 * i)).take 8))

/-- Elements of E bytes merged by f, with whether any has changed. -/
def mergeElems (E : Nat) (f : Nat → Nat → Nat) (old new : List Byte) : List Byte × Bool :=
  let xs := (List.range (old.length / E)).map (fun i =>
    let a := ofBytes ((old.drop (E * i)).take E)
    (a, f a (ofBytes ((new.drop (E * i)).take E))))
  (xs.flatMap (fun x => bytesOf E x.2), xs.any (fun x => decide (x.1 ≠ x.2)))

/-- The pages and dots that an AWSET unit carries (R385). -/
def carried (bs : List Byte) (fuel : Nat) : List (Nat × List Dot) :=
  match fuel with
  | 0 => []
  | k + 1 =>
    if bs.length < 64 then []
    else
      let w0 := wordIn bs 0
      let p := bits w0 31 0
      let ds := (List.range (bits w0 34 32)).map (fun i => dotOf (wordIn bs (1 + i)))
      match carried (bs.drop 64) k with
      | (q, es) :: r => if bitAt w0 35 ∧ q = p then (p, ds ++ es) :: r else (p, ds) :: (q, es) :: r
      | [] => [(p, ds)]

/-- The dots of a page after a join (R314), in ascending slot order. -/
def joinDots (dl ds : List Dot) (vvl vvs : Nat → Nat) : List Dot :=
  let keep := dl.filter (fun d => decide (d ∈ ds ∨ d.k > vvs d.r)) ++
    ds.filter (fun d => decide (¬ d ∈ dl ∧ d.k > vvl d.r))
  keep.foldl (fun l d => l.filter (fun c => decide (c.r < d.r)) ++ [d] ++ l.filter (fun c => decide (c.r ≥ d.r))) []

/-- One page joined: the state and whether it has changed; none where the table or the overflow area has no room. -/
def State.joinPage (s : State) (e : Elem) (p : Nat) (ds : List Dot) (vvs : Nat → Nat) : Option (State × Bool) :=
  let dl := match s.findPage e p with
    | some j => s.dots e j
    | none => []
  let d := joinDots dl ds (fun r => (s.vword (e.vv r)).toNat) vvs
  if d = dl then some (s, false)
  else if d.isEmpty then some (s.deletePage e p, true)
  else (s.putPage e p d).map (fun s => (s, true))

/-- A received unit joined (R313 to R315): the state, whether it has changed, and the page for which an AWSET has no room;
pages before that one stay joined (DESIGN CHOICE, log 37). -/
def State.joinUnit (s : State) (e : Elem) (u : Nat) (bs : List Byte) (vv : List Word) : State × Bool × Option Nat :=
  let o := e.o
  let old := (unitRanges e u).flatMap (fun r => s.vbytes r.1 r.2)
  let write := fun (s : State) (new : List Byte) =>
    ((unitRanges e u).foldl (fun (acc : State × List Byte) r => (acc.1.vput r.1 (acc.2.take r.2), acc.2.drop r.2)) (s, new)).1
  let key := fun (b : List Byte) (n : Nat) => ofBytes (b.take n)
  match o.ty with
  | .pcsum => if key bs 8 > key old 8 then (write s bs, true, none) else (s, false, none)
  | .maxr =>
    let (new, ch) := mergeElems o.esize (largerElem o.efmt) old bs
    (if ch then write s new else s, ch, none)
  | .lwwt =>
    let m := wordIn bs 0
    let s := if m.toNat > s.hlc.toNat then { s with hlc := m } else s
    let later := decide (m.toNat > (wordIn old 0).toNat ∨
      (m = wordIn old 0 ∧ bits (wordIn bs 1) 14 0 > bits (wordIn old 1) 14 0))
    (if later then write s bs else s, later, none)
  | .cmean =>
    let (new, ch) := mergeElems 16 (fun a b => if b % 2 ^ 64 > a % 2 ^ 64 then b else a) old bs
    (if ch then write s new else s, ch, none)
  | .awset =>
    let got := carried bs (bs.length / 64 + 1)
    let ps := ((s.unitPages e u).map (fun q => q.1) ++ got.map (fun g => g.1)).foldl (fun l p => if p ∈ l then l else insertSorted p l) []
    ps.foldl (fun (acc : State × Bool × Option Nat) p =>
      let (s, ch, full) := acc
      if full.isSome then acc
      else
        let ds := ((got.find? (fun g => decide (g.1 = p))).map (fun g => g.2)).getD []
        match s.joinPage e p ds (fun r => (nth vv r 0).toNat) with
        | some (s, c) => (s, ch || c, none)
        | none => (s, ch, some p)) (s, false, none)

/-- A member evaluated (R320): HOLD, then the return of one whose row has reached F. -/
def State.evaluateMember (s : State) (e : Elem) (m : Nat) : State :=
  let w := s.vword (e.member m)
  let st := s.memberState e m
  if bitAt w 2 ∧ st ≠ 1 then s.setMember e m 1
  else if st = 2 ∧ (List.range e.o.n).all (fun c => decide ((s.vword (e.hv m c)).toNat ≥ (s.vword (e.front c)).toNat)) then
    s.setMember e m 0
  else s

/-- The membership of a replica evaluated (R320). -/
def State.evaluateMembers (s : State) (e : Elem) : State :=
  (((List.range e.o.n).filter (fun m => decide (m ≠ e.self))).foldl (fun s m => s.evaluateMember e m) s).settleLift e

/-- A heartbeat that a marker carries (R319, R320): where it has risen the timer starts again, and an ABSENT member that is
not held is REJOINING; the own heartbeat follows too (DEDUCED, log 39). -/
def State.hearMember (s : State) (e : Elem) (m : Nat) (beat : Word) : State :=
  let w := s.vword (e.member m)
  let b := bits beat 31 0
  if m = e.self then (if beat.toNat > (s.vword e.beat).toNat then s.vputWord e.beat beat else s)
  else if b ≤ bits w 63 32 then s
  else
    let s := (s.vputWord (e.member m) (setBits w 63 32 b)).modReplica e.o.x e.d (fun r => { r with timers := put r.timers m s.time })
    if bits w 1 0 = 1 ∧ ¬ bitAt w 2 then s.setMember e m 2 else s

/-- A marker from member r applied (R319). -/
def State.applyMarker (s : State) (e : Elem) (r : Nat) (ws : List Word) : State :=
  let n := e.o.n
  let row := (n + 7) / 8 * 8
  let at' := fun (m c : Nat) => nth ws (m * row + c) 0
  let s := (List.range n).foldl (fun s c => s.raiseWord (e.hv e.self c) (at' r c)) s
  let s := ((List.range n).filter (fun m => decide (m ≠ e.self))).foldl (fun s m =>
    (List.range n).foldl (fun s c => s.raiseWord (e.hv m c) (at' m c)) s) s
  let s := (List.range n).foldl (fun s m => s.hearMember e m (at' n m)) s
  (s.recomputeF e).evaluateMembers e

/-- What a replica has of a cut, by `h`: 4 * the sender's slot + the class of its flits. -/
def State.cutFrom (s : State) (e : Elem) (h : Nat) : Cut := (look (s.replica e.o.x e.d).cuts h).getD { stopped := true }

def State.putCut (s : State) (e : Elem) (h : Nat) (c : Cut) : State :=
  s.modReplica e.o.x e.d (fun r => { r with cuts := put r.cuts h c })

/-- The cut cannot be applied: what follows of it is discarded (R317). -/
def State.stopCut (s : State) (e : Elem) (h : Nat) : State := s.putCut e h { stopped := true }

/-- A complete header of member h / 4 (R300, R317). Cuts of one sender are applied in the order sent: one that was made before
another whose header has come is discarded, and one in hand gives way to a later one (DESIGN CHOICE, log 37). -/
def State.openCut (s : State) (e : Elem) (h : Nat) (tag : Nat) (bs : List Byte) : State :=
  let m := h / 4
  if bits (wordIn bs 1) 63 32 ≠ s.digest e.o ∨ bits (wordIn bs 1) 5 0 ≠ m then
    (s.logError 0x10 (unitDie e.d) (word e.o.x) (s.memberId e.o m)).stopCut e h
  else
    let k := wordIn bs 0
    let r := s.replica e.o.x e.d
    if k.toNat < ((look r.order m).getD 0).toNat then s.stopCut e h
    else
    let s := s.modReplica e.o.x e.d (fun r => { r with
      order := put r.order m k, cuts := r.cuts.filter (fun c => decide (c.1 / 4 ≠ m ∨ c.1 = h)) })
    s.putCut e h { k := k, units := (wordIn bs 2).toNat, headed := true, tag := tag,
                   vv := if e.o.ty = .awset then (List.range 64).map (fun r => wordIn bs (8 + r)) else [] }

/-- Poison in what the join of a received unit reads (R324): the unit, the counters that it raises and, for AWSET, the entries
that the search for each of its pages probes. -/
def State.joinPoison (s : State) (e : Elem) (u : Nat) (bs : List Byte) : Option (Nat × Nat) :=
  let pages := if e.o.ty = .awset then
      (s.unitPages e u).map (fun q => q.1) ++ (carried bs (bs.length / 64 + 1)).map (fun g => g.1)
    else []
  ((s.unitPoison e u).or (s.poisonIn [(e.csn, 8), (e.unitCsn u, 8)])).or
    (s.poisonIn ((dedup pages).flatMap (fun p => s.runRanges e p ++ s.pageRanges e p true)))

/-- A complete unit (R313, R314, R324). -/
def State.takeUnit (s : State) (e : Elem) (h : Nat) (c : Cut) (u : Nat) (bs : List Byte) : State :=
  if u ≥ e.o.units ∨ c.units = 0 then s.stopCut e h
  else
    match s.joinPoison e u bs with
    | some p => (s.countPoison p).stopCut e h
    | none =>
      let (q, ch, full) := s.joinUnit e u bs c.vv
      let q := if ch then q.bumpCsn e u else q
      match full with
      | some p => (q.logError 0x0F (unitCore (s.elemHome e % 4096)) (word e.o.x) (word p)).stopCut e h
      | none => q.putCut e h { c with units := c.units - 1, bytes := [], part := 0 }

/-- A complete marker (R314, R317, R319): the cut has been applied and is acknowledged. -/
def State.closeCut (s : State) (e : Elem) (h : Nat) (c : Cut) (f : Flit) (bs : List Byte) : State :=
  if c.units ≠ 0 then s.stopCut e h
  else if (s.markerPoison e).isSome then (((s.markerPoison e).map s.countPoison).getD s).stopCut e h
  else
    let s := (c.vv.zip (List.range 64)).foldl (fun (s : State) q => s.raiseWord (e.vv q.2) q.1) s
    let s := (s.applyMarker e (h / 4) ((List.range (bs.length / 8)).map (wordIn bs))).stopCut e h
    s.shipFlit { blankFlit with
      cls := f.cls, kind := 9, ddev := f.sdev, dlcn := f.slcn, slcn := f.dlcn, tag := f.tag, len := 8,
      param := f.param % 2 ^ 12 + 2 ^ 12, payload := payloadWords [c.k] }

/-- One flit of a header, unit or marker of a cut taken by the replica it is for (R317, R385). A cut of a sender that this
device's table does not name is counted (R300). Cuts that one sender makes in two classes are taken apart by class and TAG
(DESIGN CHOICE, log 37). -/
def State.takeCut (s : State) (f : Flit) : State :=
  let x := f.param % 2 ^ 12
  let s := s.noteSot x
  match s.replicaOn x (f.dlcn / 256) with
  | none => s
  | some e =>
    match s.slotOf e.o f.sdev (f.slcn / 256) with
    | none =>
      if f.kind = 6 ∧ f.addr / 2 ^ 32 = 0 then s.logError 0x10 (unitDie e.d) (word x) (word (f.sdev * 8 + f.slcn / 256)) else s
    | some m =>
      let h := 4 * m + f.cls
      let s := s.openReplica e
      let part := f.addr / 2 ^ 32
      let last := decide (f.param / 2 ^ 12 % 2 = 1)
      let c := if f.kind = 6 ∧ part = 0 then ({ tag := f.tag } : Cut) else s.cutFrom e h
      if c.stopped ∨ ¬ s.shipping then s.stopCut e h
      else if part ≠ c.part ∨ c.headed = decide (f.kind = 6) ∨ c.tag ≠ f.tag then s.stopCut e h
      else
        let bs := c.bytes ++ f.payload.take f.len
        if ¬ last then s.putCut e h { c with bytes := bs, part := part + 1 }
        else if f.kind = 6 then s.openCut e h f.tag bs
        else if f.kind = 7 then s.takeUnit e h c (unitOf e.o (f.param / 2 ^ 13 % 64) (f.addr % 2 ^ 32)) bs
        else s.closeCut e h c f bs

/-- An acknowledgement of k (R317, R318). -/
def State.takeAck (s : State) (f : Flit) : State :=
  match s.replicaOn (f.param % 2 ^ 12) (f.dlcn / 256) with
  | none => s
  | some e =>
    let k := f.word 0
    let js := (List.range 8).filter (fun j =>
      match e.peer j with
      | some m => decide (s.memberAt e.o m = (f.sdev, f.slcn / 256))
      | none => false)
    (js.foldl (fun s j => s.raiseWord (e.shipped j) k) s).settleLift e

/-- A flit of a cut that crosses a die boundary of this device: of the highest class between its two dies, and the oldest of
that class (R14, R329) (DESIGN CHOICE, log 37). -/
def State.dieFlit (s : State) (f : Flit) : Bool :=
  let mine := s.dieFlits.filter (fun g => decide (g.sdev = f.sdev ∧ g.ddev = f.ddev))
  mine.all (fun g => decide (f.cls ≤ g.cls)) && mine.find? (fun g => decide (g.cls = f.cls)) == some f

/-- The arrival of a flit of a cut, over a link or between two dies of this device. -/
def State.arriveCut (s : State) (f : Flit) (kind : Nat) (k : State → Flit → State) : Option State :=
  if f.kind = kind ∧ s.dieFlit f then
    (if s.mgmt.power = 0 then
      some (k { s with dieFlits := s.dieFlits.erase f } { f with ddev := s.mgmt.devno, sdev := s.mgmt.devno })
     else none)
  else s.arrive f kind (fun s => some (k s f))

/-- CUT_HEADER (R300, R317, R385). -/
def execCutHeader (f : Flit) (s : State) : Out := partStep (s.arriveCut f 6 State.takeCut)

/-- CUT_UNIT (R313, R314, R385). -/
def execCutUnit (f : Flit) (s : State) : Out := partStep (s.arriveCut f 7 State.takeCut)

/-- CUT_MARKER (R319, R385). -/
def execCutMarker (f : Flit) (s : State) : Out := partStep (s.arriveCut f 8 State.takeCut)

/-- CUT_ACKNOWLEDGEMENT (R317). -/
def execCutAcknowledgement (f : Flit) (s : State) : Out := partStep (s.arriveCut f 9 State.takeAck)

/-- MEMBERSHIP_EVALUATION (R320); an entry that is not valid any more is noticed (R299). -/
def execMembershipEvaluation (sotx die : Nat) (s : State) : Out :=
  partStep (match s.replicaOn sotx die with
    | none => if (s.replica sotx die).valid then some (s.noteSot sotx) else none
    | some e => if s.shipping then some (((s.openReplica e).evaluateMembers e).serve sotx die 64) else none)

/-- SILENCE_EXPIRY (R320): member m's heartbeat has not risen for SILENT ticks. -/
def execSilenceExpiry (sotx die member : Nat) (s : State) : Out :=
  partStep (match s.replicaOn sotx die with
    | none => none
    | some e =>
      let r := s.replica sotx die
      let since := (look r.timers member).getD s.time
      if ¬ r.valid ∨ member ≥ e.o.n ∨ member = e.self ∨ s.memberState e member = 1 ∨
        s.time.toNat < since.toNat + e.o.silence then none
      else some ((s.setMember e member 1).evaluateMembers e))

/-- RSHIP_BOUND_EXPIRY (R318). -/
def execRshipBoundExpiry (sotx die : Nat) (s : State) : Out :=
  partStep (match (s.replica sotx die).lift with
    | some (_, till) =>
      if s.time.toNat ≥ till.toNat then some (s.modReplica sotx die (fun r => { r with lift := none })) else none
    | none => none)

end Sys2Proof.Machine
end

