-- ==== Sys2Proof/Machine/System.lean ====
section
/-! DEFINITION. The system instructions: the CSRs of threads and cores and the access of a handler to its target (R95 to
R102, R364), TRAP, ERET, UIRET and BKPT (R348, R352, R363, R372), and the invalidation of TLBs (R365). -/
namespace Sys2Proof.Machine

/-- Bits of a per-thread CSR that a CSR instruction writes, from system mode or not (R69, R96 to R99). -/
def ownMask (n : Nat) (system : Bool) : Word :=
  let sys := fun (m : Word) => if system then m else 0
  match n with
  | 0 => 0x7F
  | 1 => 0x107
  | 2 => sys 0x800000FF
  | 3 => sys allOnes
  | 4 => sys allOnes
  | 5 => sys 0x7F
  | 6 => allOnes
  | 7 => sys 0xFFFF
  | 8 => sys allOnes
  | 9 => allOnes
  | 10 => sys 0xFFFFFF00
  | _ => 0

/-- CSR n of a thread, 0 to 12 (R96). -/
def State.ownCsr (s : State) (t : Thread) (n : Nat) : Word :=
  let c := t.csr
  match n with
  | 0 => c.fcsr
  | 1 => c.ts
  | 2 => c.tcause
  | 3 => c.tepc
  | 4 => c.tval
  | 5 => c.tprog
  | 6 => c.uepc
  | 7 => c.uxid
  | 8 => c.uiblk
  | 9 => c.waitlim
  | 10 => c.repst
  | 11 => t.wnd
  | _ => s.time

/-- CSR n of a thread replaced. -/
def Csrs.set (c : Csrs) (n : Nat) (x : Word) : Csrs :=
  match n with
  | 0 => { c with fcsr := x }
  | 1 => { c with ts := x }
  | 2 => { c with tcause := x }
  | 3 => { c with tepc := x }
  | 4 => { c with tval := x }
  | 5 => { c with tprog := x }
  | 6 => { c with uepc := x }
  | 7 => { c with uxid := x }
  | 8 => { c with uiblk := x }
  | 9 => { c with waitlim := x }
  | 10 => { c with repst := x }
  | _ => c

/-- The thread in resident position p of the slot of a thread (R95). -/
def State.neighbour (s : State) (t : Thread) (p : Nat) : Option (Nat × Thread) :=
  match t.place with
  | some q => s.resident q.core q.slot p
  | none => none

/-- The target that `hsel` selects: position 7 selects none (R101). -/
def State.target (s : State) (t : Thread) : Option (Nat × Thread) :=
  let p := bits t.csr.hsel 2 0
  if p = 7 then none else s.neighbour t p

/-- 64-bit part c of a vector register. -/
def chunk (v : Vec) (c : Nat) : Word := word (v.toNat / 2 ^ (64 * c))

def setChunk (v : Vec) (c : Nat) (x : Word) : Vec := setLane 64 c v x.toNat

/-- What the handler CSRs 0x7C0 to 0x7C4 read (R95, R96, R101). Where `hsel` selects no thread, position 7 or an empty one,
the other four read 0 (DESIGN CHOICE, log 72). -/
def State.handlerCsr (s : State) (t : Thread) (n : Nat) : Word :=
  let h := t.csr.hsel
  let reg := bits h 12 6
  match n, s.target t with
  | 0, _ => h
  | _, none => 0
  | 1, some (_, u) => if reg = 126 then u.pw else if reg ≤ 111 then u.xr reg else 0
  | 2, some (_, u) => chunk (u.vr reg) (bits h 15 13)
  | 3, some (_, u) => flagWord (u.taint.take 64)
  | _, some (_, u) => flagWord ((u.taint.drop 64).take 48)

/-- A write of 0x7C0 to 0x7C4: a register beyond the target's window ignores it (R96), and so does one for which `hsel`
selects no thread (DESIGN CHOICE, log 72). -/
def State.setHandlerCsr (s : State) (tid : Nat) (t : Thread) (n : Nat) (x : Word) : State :=
  let h := t.csr.hsel
  let reg := bits h 12 6
  match n, s.target t with
  | 0, _ => s.modThread tid (fun t => t.modCsr (fun c => { c with hsel := x }))
  | _, none => s
  | 1, some (g, _) =>
    s.modThread g (fun u =>
      if reg = 126 then { u with pw := x } else if reg ≤ 111 then { u with x := modify u.x reg (fun _ => x) } else u)
  | 2, some (g, _) => s.modThread g (fun u => { u with v := modify u.v reg (fun v => setChunk v (bits h 15 13) x) })
  | 3, some (g, _) =>
    s.modThread g (fun u => { u with taint := (u.taint.zip (List.range 112)).map (fun e =>
      if e.2 < 64 then bitAt x e.2 else e.1) })
  | _, some (g, _) =>
    s.modThread g (fun u => { u with taint := (u.taint.zip (List.range 112)).map (fun e =>
      if e.2 < 64 then e.1 else bitAt x (e.2 - 64)) })

/-- A band table entry as its CSR reads (R102). -/
def Band.word (b : Band) : Word :=
  BitVec.ofNat 64 (b.lnum % 2 ^ 14 + (if b.v then 2 ^ 14 else 0) + (if b.saved then 2 ^ 15 else 0))

/-- Per-core CSR n (R96, R101, R102). -/
def Core.csr (k : Core) (n : Nat) : Word :=
  if n = 0x800 then k.tbase
  else if n ≤ 0x80F then
    let j := k.slot (n - 0x808)
    word (j.owner % 16 * 16 + (if j.polNext then 1 else 0))
  else if n ≤ 0x83F then (nth k.bands (n - 0x820) {}).word
  else if n ≤ 0x84F then nth k.pmc (n - 0x840) 0
  else (nth k.pmsel (n - 0x850) 0).zeroExtend 64

/-- Per-core CSR n written: counters and their selection from the core's next turn (R102), POL from the slot's (R101). -/
def Core.setCsr (k : Core) (n : Nat) (x : Word) : Core :=
  if n = 0x800 then { k with tbase := x }
  else if n ≤ 0x80F then { k with slots := modify k.slots (n - 0x808) (fun j => { j with polNext := bitAt x 0 }) }
  else if n ≤ 0x83F then
    { k with bands := modify k.bands (n - 0x820) (fun b => { b with v := bitAt x 14, lnum := bits x 13 0 }) }
  else if n ≤ 0x84F then { k with pmcLater := put k.pmcLater (n - 0x840) x }
  else { k with pmselLater := put k.pmselLater (n - 0x850) (x.truncate 8) }

/-- Bits of a system CSR that are written (R101, R102). -/
def sysMask (n : Nat) : Word :=
  if n = 0x7C0 then 0xFFC7
  else if n = 0x7C4 then 0xFFFFFFFFFFFF
  else if n < 0x800 then allOnes
  else if n = 0x800 then ~~~(0xFFF : Word)
  else if n ≤ 0x80F then 1
  else if n ≤ 0x83F then 0x7FFF
  else if n ≤ 0x84F then allOnes
  else 0xFF

/-- A CSR as an instruction reads it (R95, R96). -/
def State.readCsr (s : State) (t : Thread) (n : Nat) : Word :=
  if n < 0x40 then s.ownCsr t n
  else if n < 0x5C0 then
    match s.neighbour t ((n - 0x400) / 64) with
    | some (_, u) => s.ownCsr u ((n - 0x400) % 64)
    | none => 0
  else if n < 0x800 then s.handlerCsr t (n - 0x7C0)
  else (s.core t.core).csr n

/-- The bits of a CSR that this thread may write. -/
def csrMask (t : Thread) (n : Nat) : Word :=
  if n < 0x40 then ownMask n (! t.user) else if n < 0x5C0 then ownMask ((n - 0x400) % 64) true else sysMask n

/-- A CSR written with x in its writable bits (R364); fields that are RO keep their value. -/
def State.writeCsr (s : State) (tid : Nat) (t : Thread) (n : Nat) (x : Word) : State :=
  let m := csrMask t n
  let y := (s.readCsr t n &&& ~~~m) ||| (x &&& m)
  if n < 0x40 then s.modThread tid (fun t => t.modCsr (fun c => c.set n y))
  else if n < 0x5C0 then
    match s.neighbour t ((n - 0x400) / 64) with
    | some (g, _) => s.modThread g (fun u => u.modCsr (fun c => c.set ((n - 0x400) % 64) y))
    | none => s
  else if n < 0x800 then s.setHandlerCsr tid t (n - 0x7C0) y
  else s.modCore t.core (fun k => k.setCsr n y)

/-- CSR number of the two fields (R364). -/
def csrNumber (c n : BitVec 6) : Nat := c.toNat * 64 + n.toNat

/-- Is a CSR the time base: its reads are recorded (R374, R382). -/
def isTime (n : Nat) : Bool := decide (n = 12 ∨ (0x400 ≤ n ∧ n < 0x5C0 ∧ n % 64 = 12))

/-- CSRRD (R364). -/
def execCsrrd (w : BitVec 1) (d : BitVec 7) (c n : BitVec 6) (s : State) : Out :=
  let k := csrNumber c n
  issue w { dst := some d.toNat, system := decide (k ≥ 0x400) } (fun s _ t _ =>
    let x := s.readCsr t k
    let (x, s) := if isTime k then s.timeValue t.core 5 t.tidWord x else (x, s)
    .clean x s) s

/-- CSRWR, CSRSET and CSRCLR (R364): the new value is f of the CSR and the operand. -/
def csrWrite (w : BitVec 1) (d : BitVec 7) (c n : BitVec 6) (f : Word → Word → Word) (s : State) : Out :=
  let k := csrNumber c n
  issue w { srcs := [d.toNat], system := decide (k ≥ 0x400) } (fun s tid _ xs =>
    match s.thread tid with
    | some t => .done (s.writeCsr tid t k (f (s.readCsr t k) (arg xs 0)))
    | none => .done s) s

/-- CSRWR (R364). -/
def execCsrwr (w : BitVec 1) (d : BitVec 7) (c n : BitVec 6) (s : State) : Out := csrWrite w d c n (fun _ x => x) s

/-- CSRSET (R364). -/
def execCsrset (w : BitVec 1) (d : BitVec 7) (c n : BitVec 6) (s : State) : Out := csrWrite w d c n (fun o x => o ||| x) s

/-- CSRCLR (R364). -/
def execCsrclr (w : BitVec 1) (d : BitVec 7) (c n : BitVec 6) (s : State) : Out := csrWrite w d c n (fun o x => o &&& ~~~x) s

/-- TRAP (R363): SYSCALL, with `tepc` the next instruction. -/
def execTrap (w : BitVec 1) (c : BitVec 6) (s : State) : Out :=
  issue w {} (fun s tid t _ => .left (s.enterTrap tid false ⟨cSYSCALL, c.zeroExtend 64⟩ (t.pc + 4))) s

/-- ERET (R348, R363). -/
def execEret (w : BitVec 1) (s : State) : Out :=
  issue w { system := true } (fun s tid t _ =>
    match t.job with
    | some (.system target _) => .left ((s.count t.core 2 1).returnFrom tid target)
    | _ => .trap cUNAVAILABLE (s.iword.zeroExtend 64)) s

/-- UIRET (R352). -/
def execUiret (w : BitVec 1) (s : State) : Out :=
  issue w {} (fun s tid t _ =>
    if ¬ bitAt t.csr.ts 8 then .trap cUNAVAILABLE (s.iword.zeroExtend 64)
    else .jump t.csr.uepc (s.modThread tid (fun t => t.modCsr (fun c => { c with ts := setBits c.ts 8 8 0 })))) s

/-- The security state (R366, R372): a session of DEBUG-USER has ended at its expiry tick; in D2 it is suspended (R373). -/
def State.security (s : State) : Nat :=
  match s.mgmt.token with
  | some (_, e) => if s.mgmt.secst = 1 ∧ s.mgmt.power ≤ 1 ∧ s.time.toNat ≥ e then 0 else s.mgmt.secst
  | none => s.mgmt.secst

/-- Does a debug session claim the breakpoints of a thread (R372, R373) (DESIGN CHOICE, log 55). -/
def State.claimed (s : State) (t : Thread) : Bool :=
  match s.security with
  | 1 =>
    (match s.mgmt.token with
     | some (ls, _) => t.user && decide (t.lnum ∈ ls)
     | none => false)
  | 2 => true
  | _ => false

/-- BKPT (R363, R372): claimed, the thread is TRAPPED with no handler; else BREAKPOINT (DESIGN CHOICE, log 55). -/
def execBkpt (w : BitVec 1) (s : State) : Out :=
  issue w {} (fun s tid t _ =>
    if s.claimed t then
      .left ((s.settle tid).modThread tid (fun t =>
        { t with
          csr := { t.csr with tcause := word cBREAKPOINT, tepc := t.pc, tval := 0 }
          state := .trapped, marked := false, hold := [], debugStop := true }))
    else .trap cBREAKPOINT 0) s

/-- The virtual addresses that an access has translated. -/
def Access.vas (a : Access) : List Word :=
  a.loc.va :: (match a.op with
    | .unit (.mem ps _) _ none => ps.map (fun p => p.1.va)
    | .split (.mem ps _) .. => ps.map (fun p => p.1.va)
    | .ship _ (.mem ps _) _ => ps.map (fun p => p.1.va)
    | .inject (.mem ps _) => ps.map (fun p => p.1.va)
    | .arm b .. => b.map (fun l => l.va)
    | _ => [])

/-- Translations dropped within a scope, for a page of either size or all of them, and the accesses that used them and
are not yet performed (R365); ALL at DEVICE brings new bases of the tables into force (R358) (DEDUCED, log 62). -/
def State.dropTlbs (s : State) (c scope : Nat) (page : Option Word) : State × List Nat :=
  let meets := fun (e : TlbEntry) => match page with
    | none => true
    | some a => decide (bits a 63 56 = 0 ∧ (if e.big then e.vpn / 1024 = a.toNat / 2 ^ 26 else e.vpn = a.toNat / 2 ^ 16))
  let gone := s.tlbs.filter (fun e => tlbCovered c scope e.owner && meets e)
  let used := fun (a : Access) (va : Word) => gone.any (fun e =>
    (decide (e.owner = a.core) || decide (e.owner = bstoreHome (groveOf a.core))) && decide (bits va 63 56 = 0) &&
    decide (if e.big then e.vpn / 1024 = va.toNat / 2 ^ 26 else e.vpn = va.toNat / 2 ^ 16))
  let covers := fun (e : Stale) => match page with
    | none => true
    | some a => decide (bits a 63 56 = 0) && mapsPage e.big e.va a.toNat
  ({ s with
      tlbs := s.tlbs.filter (fun e => ! (tlbCovered c scope e.owner && meets e))
      stale := (s.stale.map (fun e => if covers e then { e with gone := e.gone ++ [(c, scope)] } else e)).filter
        (fun e => ! e.gone.any (fun q => decide (q.2 ≥ 4)))
      roots := if page.isNone && decide (scope ≥ 4) then (nth s.ctl 0 0, nth s.ctl 1 0) else s.roots },
   (s.accs.filter (fun a => a.vas.any (used a))).map (fun a => a.id))

/-- TLBINV of a page or of all (R365): FENCE at the scope first; then the thread issues nothing more until the accesses
that used a dropped translation have been performed. -/
def invalidate (w : BitVec 1) (u : Use) (scope : Nat) (page : List Word → Option Word) (s : State) : Out :=
  issue w u (fun s tid t xs =>
    let ws := (s.accs.filter (fun a => a.tid = tid && a.op.isWrite && covers scope a.level)).map (fun a => a.id)
    if ¬ ws.isEmpty then .stall ws
    else
      let s := { s with accs := s.accs.map (fun (a : Access) => if a.tid = tid && a.op.isRead then { a with acq := true } else a) }
      let (s, ids) := s.dropTlbs t.core scope (page xs)
      .left ((s.retire tid (decide (w = 1)) none).modThread tid (fun t => { t with hold := ids }))) s

/-- TLBINV (R365). -/
def execTlbinv (w : BitVec 1) (a : BitVec 7) (sc : BitVec 3) (s : State) : Out :=
  invalidate w { srcs := [a.toNat], system := true, role := .address } sc.toNat (fun xs => some (arg xs 0)) s

/-- TLBINV with ALL (R365). -/
def execTlbinvAll (w : BitVec 1) (sc : BitVec 3) (s : State) : Out :=
  invalidate w { system := true } sc.toNat (fun _ => none) s

end Sys2Proof.Machine
end

