-- ==== Sys2Proof/Machine/Place.lean ====
section
/-! DEFINITION. Handler starts (R25, R185, R285, R346, R347) and the placement of threads: windows (R22), bounds (R39), the
sources of an MT (R47, R48), bands (R175, R357), contexts and banks read back (R291, R292, R356). -/
namespace Sys2Proof.Machine

/-- A handler in position 7 of slot j of core c (R25, R346, R347): 32 scalar and 8 vector registers. The spec gives a
handler no thread number: its is free (DESIGN CHOICE, log 18). Its stage is that of the thread it serves. -/
def State.startHandler (s : State) (c j lnum stage : Nat) (system : Bool) (pc : Word) (regs : List Word) (v : List Vec)
    (hsel : Word) (job : HandlerFor) : State :=
  let t := newThread .handler .general lnum (Config.free s.freeN) 32 8 c pc regs
  (s.addThread { t with
    v := fit 8 0 v, stage := stage, place := some ⟨c, j, 7⟩, state := .ready, sbase := 256 * j + 224, vbase := 64 * j + 56,
    csr := { t.csr with ts := if system then 0x10000 else 0, hsel := hsel }, job := some job, age := (s.core c).turns })

/-- The launch number of a handler that serves no launch (DESIGN CHOICE, log 19). -/
def noLaunch : Nat := 2 ^ 14

/-- The oldest handler start of a slot performed (R25): none while position 7 is occupied, or while the accesses of a
trapped target are not performed (R227) (DESIGN CHOICE, log 18). The handler of a poisoned row finds zeros, then
ECC_UNCORRECTABLE (R287), of a free address (log 32). -/
def State.handlerStart (s : State) (c j : Nat) : Option State :=
  let k := s.core c
  let base := k.tbase
  match (k.slot j).starts with
  | [] => none
  | h :: rest =>
    if (s.resident c j 7).isSome ∨ s.mgmt.power ≠ 0 then none
    else
      let q := s.modSlot c j (fun q => { q with starts := rest })
      match h with
      | .system target code =>
        match s.thread target with
        | none => some q
        | some t =>
          if t.state ≠ .trapped then some q
          else if ¬ t.allReturned ∨ s.accs.any (fun a => decide (a.tid = target)) then none
          else
            let pos := (t.place.getD ⟨c, j, 0⟩).pos
            some (q.startHandler c j t.lnum t.stage true (base + word (64 * code))
              [word pos, t.csr.tcause, t.csr.tepc, t.csr.tval] [] (word pos) h)
      | .directory _ => some (q.startHandler c j noLaunch 0 true (base + 0x800) [] [] 0 h)
      | .drain _ xid _ row lnum data bad _ =>
        match s.engOp c 1 xid with
        | none => some q
        | some o =>
          let vs : List Vec := (List.range 8).map (fun i => if bad then 0 else BitVec.ofNat 512 (data.toNat / 2 ^ (512 * i)))
          let q' := q.startHandler c j lnum o.stage false (base + 0xC00)
            [word row, word xid, fld o.fields 6, fld o.fields 7] vs 0 h
          some (if bad then q'.queueTrap s.nextTid ⟨cECC, Config.freeWord s.freeN⟩ else q')

/-- HANDLER_START (R25). -/
def execHandlerStart (core slot : Nat) (s : State) : Out := partStep (s.handlerStart core slot)

/-- The lowest run of n registers, aligned, that meets none of those used (R22). -/
def freeRun (used : List (Nat × Nat)) (lo size step n : Nat) : Option Nat :=
  ((List.range (size / step)).map (fun i => lo + step * i)).find? (fun a =>
    decide (a + n ≤ lo + size) && used.all (fun u => ! overlap a n u.1 u.2))

/-- The residents of a slot in positions 0 to 6. -/
def State.inSlot (s : State) (c j : Nat) : List (Nat × Thread) :=
  s.live.filter (fun e => match e.2.place with
    | some q => decide (q.core = c ∧ q.slot = j ∧ q.pos < 7)
    | none => false)

/-- The windows that a thread would get in a slot (R22). -/
def State.windows (s : State) (c j : Nat) (t : Thread) : Option (Nat × Nat) :=
  let rs := s.inSlot c j
  match freeRun (rs.map (fun e => (e.2.sbase, e.2.slen))) (256 * j) 224 8 t.slen,
    freeRun (rs.map (fun e => (e.2.vbase, e.2.vlen))) (64 * j) 56 4 t.vlen with
  | some a, some b => some (a, b)
  | _, _ => none

/-- Has a launch residents on core c, handlers apart. -/
def State.hasResident (s : State) (c n : Nat) : Bool :=
  (s.residents c).any (fun e => decide (e.2.lnum = n ∧ e.2.kind ≠ Kind.handler))

/-- SLOTS and RESID of a launch on a core (R39). -/
def Launch.bounds (l : Launch) (c : Nat) : Nat × Nat :=
  if l.pipeline then
    match l.stages[(look l.coreStage c).getD 0]? with
    | some st => (st.slots, st.resid)
    | none => (0, 0)
  else (l.slots, l.resid)

/-- May one more thread of launch n stand in slot j of core c (R39). -/
def State.inBounds (s : State) (c j n : Nat) (l : Launch) : Bool :=
  let (slots, resid) := l.bounds c
  let mine := (s.residents c).filter (fun e => decide (e.2.lnum = n ∧ e.2.kind ≠ Kind.handler))
  let at' := mine.filterMap (fun e => e.2.place.map (fun q => q.slot))
  decide ((at'.filter (fun i => i = j)).length < resid) && (decide (j ∈ at') || decide ((dedup at').length < slots))

/-- Is launch m kept from core c for another that waits for its bands (R357) (DESIGN CHOICE, log 15). -/
def State.keptOff (s : State) (c m : Nat) : Bool :=
  (s.core c).claims.any (fun q => decide (q.2.1 = m) && (! q.2.2 || s.hasResident c q.1))

/-- Claims of a core that have had their effect are dropped (DESIGN CHOICE, log 15). -/
def State.settleClaims (s : State) (c : Nat) : State :=
  if (s.core c).claims.isEmpty then s
  else s.modCore c (fun k => { k with claims := k.claims.filter (fun q => ! q.2.2 || s.hasResident c q.1) })

/-- Does a byte range from a row of an operation meet band b of core c; a packed row may be as long as four blocks and
their filling (R79, R262). -/
def rowReaches (at' c b : Nat) (base a : Word) (n : Nat) : Bool :=
  let hit := fun (c' o : Nat) =>
    let o := ((o : Nat) : Int) + (a - base).toInt
    decide (c' = c ∧ o < ((31744 * (b + 1) : Nat) : Int) ∧ o + ((if n = 0 then 208 else n : Nat) : Int) > ((31744 * b : Nat) : Int))
  match regionOf base with
  | some (.scratch c' _ o) => hit c' o
  | some (.own _ o) => hit at' o
  | _ => false

/-- Does an operation on an engine of core at' reach band b of core c (R264). -/
def EngOp.reaches (o : EngOp) (at' c b : Nat) : Bool :=
  let fs := o.fields
  let rows := if o.engine = 0 then
      (srcRows fs).map (fun r => (fld fs 0, r)) ++ (dstRows fs).map (fun r => (fld fs 1, r)) ++
      (if optAct fs = 1 then [(fld fs 10, (fld fs 10, 8))] else [])
    else
      ((mxRows fs (fld fs 0) (fld fs 1) (((mxA at' fs).map (fun a => aRowBytes a fs)).getD 0)).filter (fun r => r.2 ≠ 0)).map
        (fun r => (fld fs 0, r)) ++
      (if mxAct fs = 1 then [(fld fs 10, (fld fs 10, 8))] else []) ++
      (if mxDrain fs ≠ 1 then [] else (mxRows fs (fld fs 6) (fld fs 7) (drainBytes fs)).map (fun r => (fld fs 6, r)))
  rows.any (fun r => rowReaches at' c b r.1 r.2.1 r.2.2)

/-- Has launch m an operation anywhere, its last pieces included, that reaches band b of core c (R264). -/
def State.bandBusy (s : State) (m c b : Nat) : Bool :=
  s.cores.any (fun e => (e.2.eng0 ++ e.2.eng1 ++ e.2.trailing).any (fun o => decide (o.lnum = m) && o.reaches e.1 c b))

/-- SAVED of a band as its slots stand (R102, R357). -/
def Core.markSaved (k : Core) (b : Nat) : Core :=
  { k with bands := modify k.bands b (fun q => { q with saved := k.bandSlots.any (fun x => decide (x.2.2 = b)) }) }

/-- The contents of a launch's band come back from its band slot, if they are in one. -/
def State.restoreBand (s : State) (c b n : Nat) : State :=
  match (s.core c).bandSlots.find? (fun x => decide (x.2 = (n, b))) with
  | none => s
  | some (i, _) =>
    (s.copyBand c b i false).modCore c (fun k =>
      Core.markSaved { k with bandSlots := k.bandSlots.filter (fun x => decide (x.1 ≠ i)) } b)

/-- Contents of a band held by m saved in a band slot (R357). None where no slot is free. -/
def State.saveBand (s : State) (c b m : Nat) : Option State :=
  match firstFree ((s.core c).bandSlots.map (fun x => x.1)) 0 384 with
  | none => none
  | some i =>
    some ((s.copyBand c b i true).modCore c (fun k => Core.markSaved { k with bandSlots := k.bandSlots ++ [(i, (m, b))] } b))

/-- Why a thread cannot be placed now: nothing is recorded, or a slot of a kind is missing (R355). -/
inductive NoPlace where
  | blocked
  | noSlot (kind : Nat)
  deriving DecidableEq, Repr

/-- Band b of core c acquired for launch n (R357). -/
def State.acquireBand (s : State) (c n b : Nat) : Except NoPlace State :=
  let q := nth (s.core c).bands b {}
  let own := fun (s : State) => (s.modCore c (fun k =>
    { k with bands := modify k.bands b (fun q => { q with v := true, lnum := n }) })).restoreBand c b n
  if ¬ q.v ∨ q.lnum = n then .ok (own s)
  else if s.hasResident c q.lnum ∨ s.bandBusy q.lnum c b then .error .blocked
  else
    match s.saveBand c b q.lnum with
    | some s => .ok (own s)
    | none => .error (.noSlot 1)

/-- Every band that launch n needs on core c. -/
def State.acquireBands (s : State) (c n count : Nat) : Except NoPlace State :=
  (List.range count).foldl (fun acc b =>
    match acc with
    | .error e => .error e
    | .ok s => s.acquireBand c n b) (.ok s)

/-- The banks saved with a thread restored; blocked while another live thread owns one (R291) (DESIGN CHOICE, log 17). -/
def State.restoreBanks (s : State) (c tid : Nat) (t : Thread) : Except NoPlace State :=
  [0, 1].foldl (fun (acc : Except NoPlace State) b =>
    match acc with
    | .error e => .error e
    | .ok s =>
      match nth t.saved b none with
      | none => .ok s
      | some i =>
        if ((s.core c).bank b).owner.isSome then .error .blocked
        else
          .ok ((s.loadBank c b i).modCore c (fun k =>
            { k.modBank b (fun q => { q with owner := some tid, ending := false }) with
              bankSlots := k.bankSlots.filter (fun j => j ≠ i) }))) (.ok s)

/-- Thread tid, t as it waited and u as it is read back from its context, placed in a position, its windows and bands its own
(R22, R29, R39): it is READY at its resume address, inside a frame captured again (R149, R356), or TRAPPED again at a claimed
breakpoint (R372). An MT's shadow sets are reset (R255). -/
def State.settleIn (s : State) (tid : Nat) (t u : Thread) (c j p : Nat) (win : Nat × Nat) : State :=
  let back := t.slotIdx.isSome && (s.vkey (ctxAddr (s.saveBase t.slotCore) (t.slotIdx.getD 0))).isSome && u.inFrame
  let pc := if back then u.pc + word (4 * (bits u.csr.repst 18 15 + 1)) else u.pc
  let s := match t.slotIdx with
    | some i => s.modCore t.slotCore (fun k => { k with ctxSlots := k.ctxSlots.filter (fun n => n ≠ i) })
    | none => s
  let lost := t.accLost
  let u := { u with
    place := some ⟨c, j, p⟩, core := c, sbase := win.1, vbase := win.2, age := (s.core c).turns, waitCount := 0, slotIdx := none,
    saved := [none, none], banks := [false, false], accLost := false, live := 3, preempt := false, ppt := false,
    slotLogged := false, stalled := none, flying := false }
  let u := if u.kind = .mt then { u with shadow0 := freshShadow0, shadow1 := freshShadow1 } else u
  let s := s.setThread tid u
  let s := s.modSlot c j (fun q => if q.current = some p then { q with current := none, greed := 0, yielded := false } else q)
  let s := s.modCore c (fun k => { k with
    eng1 := k.eng1.map (fun (o : EngOp) => if o.tid = tid then { o with held := false } else o),
    claims := k.claims.map (fun (q : Nat × Nat × Bool) => if q.1 = u.lnum then (q.1, q.2.1, true) else q) })
  let s := match s.launchOf u.lnum with
    | some l => if l.running then s else (s.setLaunch u.lnum { l with running := true }).writeWord16 u.lnum 1 []
    | none => s
  if t.debugStop ∧ ¬ lost then s.modThread tid (fun t => { t with pc := pc, state := .trapped })
  else
    let s := s.resumeAt tid pc
    if lost then s.enterTrap tid false ⟨cACCLOST, t.live⟩ pc else s

/-- A thread as it is placed: its context is read back (R356). -/
def State.readBack (s : State) (t : Thread) : Thread :=
  match t.slotIdx with
  | some i => s.readContext t i
  | none => t

/-- Thread tid placed in position p of slot j of core c, or why not; in START-UP only a thread of firmware, in TEST only one of a
launch from the management controller (R367). -/
def State.tryPlace (s : State) (tid c j p : Nat) : Except NoPlace State :=
  match s.thread tid with
  | none => .error .blocked
  | some t =>
    match s.launchOf t.lnum with
    | none => .error .blocked
    | some l =>
      if l.queue ≠ ((s.core c).slot j).owner ∨ ¬ l.started ∨ (s.mode = .boot ∧ ¬ l.firmware) ∨ (s.mode = .test ∧ ¬ l.managed) ∨
          ¬ s.inBounds c j t.lnum l ∨ s.keptOff c t.lnum then .error .blocked
      else
        let u := s.readBack t
        match s.windows c j u with
        | none => .error .blocked
        | some win =>
          match s.acquireBands c t.lnum l.bands with
          | .error e => .error e
          | .ok s =>
            match s.restoreBanks c tid u with
            | .error e => .error e
            | .ok s => .ok (s.settleIn tid t u c j p win)

/-- A free position of a lower slot of the same owner in which the thread could stand: threads take slots in ascending
number (R39). -/
def State.lowerSlot (s : State) (tid c j : Nat) : Bool :=
  (List.range j).any (fun i =>
    decide (((s.core c).slot i).owner = ((s.core c).slot j).owner) &&
    ((List.range 7).find? (fun p => (s.resident c i p).isNone)).any (fun p =>
      match s.tryPlace tid c i p with
      | .ok _ => true
      | .error _ => false))

/-- Is core c within the steal domain of a launch around an origin core (R47). -/
def Launch.domain (l : Launch) (origin c : Nat) : Bool :=
  match l.steal with
  | 0 => decide (c = origin)
  | 1 => decide (groveOf c = groveOf origin)
  | 2 => decide (dieOf c = dieOf origin)
  | _ => true

/-- May core c take an MT out of a shared level or from another core (R47, R48). -/
def State.mayTake (s : State) (c tid : Nat) : Bool :=
  match s.thread tid with
  | none => false
  | some t =>
    match s.launchOf t.lnum with
    | some l => l.domain t.origin c
    | none => false

/-- An MT of the launches of queue q that could stand in slot j of core c. -/
def State.standsIn (s : State) (c j tid : Nat) : Bool :=
  match s.thread tid with
  | none => false
  | some t =>
    match s.launchOf t.lnum with
    | some l => decide (l.queue = ((s.core c).slot j).owner) && l.started && s.inBounds c j t.lnum l
    | none => false

/-- A block brought down into an empty deque (R47): the newest entry of the grove queue that the core may take, and up to
seven older ones like it, newest first (DESIGN CHOICE, log 14). -/
def State.bringDown (s : State) (c : Nat) : State :=
  let g := groveOf c
  let q := (look s.groveQ g).getD []
  if ¬ (s.core c).deque.isEmpty then s
  else
    match q.reverse.find? (s.mayTake c) with
    | none => s
    | some a =>
      let older := q.takeWhile (fun x => decide (x ≠ a))
      let more := (older.reverse.filter (s.sameBlock a)).take 7
      let block := q.filter (fun x => decide (x = a ∨ x ∈ more))
      ({ s with groveQ := put s.groveQ g (q.filter (fun x => ¬ x ∈ block)) }).modCore c (fun k => { k with deque := block })

/-- Victims of a steal by core c, in the order of R48. -/
inductive Victim where
  | core (c : Nat) | grove (g : Nat) | die (d : Nat) | overflow
  deriving DecidableEq

def victims (c : Nat) : List Victim :=
  let g := groveOf c
  let d := dieOf c
  let ring := fun (base n i : Nat) => (List.range (n - 1)).map (fun k => base + (i + 1 + k) % n)
  let cores := fun (g : Nat) => (List.range 8).map (fun i => Victim.core (8 * g + i))
  (ring (8 * g) 8 (c % 8)).map Victim.core ++ [.grove g] ++ (ring (32 * d) 32 (g % 32)).flatMap cores ++ [.die d] ++
  (ring 0 8 d).flatMap (fun e => (List.range 32).flatMap (fun k => cores (32 * e + k)) ++ [.die e]) ++ [.overflow]

/-- The MTs that a victim holds, topmost first. -/
def State.held (s : State) (v : Victim) : List Nat :=
  match v with
  | .core c => (s.core c).deque
  | .grove g => (look s.groveQ g).getD []
  | .die d => (look s.dieQ d).getD []
  | .overflow => s.overflow

/-- An MT taken out of every list that holds it. -/
def State.takeOut (s : State) (v : Victim) (tid : Nat) : State :=
  let out := fun (l : List Nat) => l.filter (fun x => x ≠ tid)
  match v with
  | .core c => s.modCore c (fun k => { k with deque := out k.deque })
  | .grove g => { s with groveQ := put s.groveQ g (out ((look s.groveQ g).getD [])) }
  | .die d => { s with dieQ := put s.dieQ d (out ((look s.dieQ d).getD [])) }
  | .overflow => { s with overflow := out s.overflow }

/-- Core c looks for an MT for slot j: where its run queue holds none and its deque is empty it fills the deque (R47, R48). -/
def State.fillFor (s : State) (c j : Nat) : State :=
  if ((s.core c).runq.find? (s.standsIn c j)).isSome then s else s.bringDown c

/-- The MT that a position of slot j of core c is filled with (R48): the state without it in its queue
(DESIGN CHOICE, log 14). -/
def State.findMt (s : State) (c j : Nat) : Option (Nat × State) :=
  let k := s.core c
  match k.runq.find? (s.standsIn c j) with
  | some m => some (m, s.modCore c (fun k => { k with runq := k.runq.filter (fun x => x ≠ m) }))
  | none =>
    let s := s.fillFor c j
    match (s.core c).deque.reverse.find? (s.standsIn c j) with
    | some m => some (m, s.takeOut (.core c) m)
    | none =>
      let ok := fun (m : Nat) => s.standsIn c j m && s.mayTake c m
      match (victims c).findSome? (fun v => ((s.held v).find? ok).map (fun m => (v, m))) with
      | some (v, m) => some (m, (s.takeOut v m).count c 9 1)
      | none => none

/-- May threads be placed now (R367, R368, R378, R380). -/
def State.placing (s : State) : Bool :=
  decide (s.mgmt.power = 0 ∧ s.mgmt.powerLater ≠ some 2 ∧ s.mgmt.modeLater = none) && ! s.mgmt.ckpt && ! s.mgmt.held &&
  decide (s.mode ≠ .recovery)

/-- A position filled (R39, R48, R355). Of several threads bound to the core, and the MT of R48, which one is taken is
free. Where nothing can be placed there, a block brought down stays in the deque (R47); none where there is none either
(DESIGN CHOICE, log 14). -/
def State.placement (s : State) (c j p : Nat) : Option State :=
  if p ≥ 7 ∨ (s.resident c j p).isSome ∨ ¬ s.placing then none
  else
    let bound := (s.live.filter (fun e =>
      decide (e.2.kind = .anchored ∧ e.2.core = c ∧ e.2.place = none ∧ (e.2.state = .unplaced ∨ e.2.state = .suspended)))).map
        (fun e => (e.1, s))
    let filled := s.fillFor c j
    let brought := (s.core c).deque.isEmpty && ! (filled.core c).deque.isEmpty
    let options := bound ++ (if brought then bound.map (fun e => (e.1, filled)) else []) ++ (s.findMt c j).toList
    let placed := options.filterMap (fun e =>
      match e.2.tryPlace e.1 c j p with
      | .ok q => if e.2.lowerSlot e.1 c j then none else some q
      | .error _ => none)
    match placed[s.pick (List.range placed.length)]? with
    | some q => some q
    | none =>
      let logged := options.findSome? (fun e =>
        match e.2.tryPlace e.1 c j p with
        | .error (.noSlot kind) =>
          match filled.thread e.1 with
          | some t => if t.slotLogged then none else some (filled.logSlotWait e.1 c kind)
          | none => none
        | _ => none)
      if logged.isNone ∧ brought then some filled else logged

/-- THREAD_PLACEMENT (R39). -/
def execThreadPlacement (core slot pos : Nat) (s : State) : Out := partStep (s.placement core slot pos)

end Sys2Proof.Machine
end

