-- ==== Sys2Proof/Machine/Sched.lean ====
section
/-! DEFINITION. The arbiters and what befalls a thread between instructions: share computations (R40 to R45), pre-emption
(R291, R292, R354), wait limits (R353), asynchronous traps and user-level interrupts (R350 to R352), arrivals of MTs
(R49), completions of launches (R46, R336), and the stage balancer (R55 to R57). -/
namespace Sys2Proof.Machine

/-- Control word of queue q (R40). -/
def State.queueWord (s : State) (q : Nat) : Word := s.lqt (1 + q)
def State.weight (s : State) (q : Nat) : Nat := bits (s.queueWord q) 7 0
def State.isUrgent (s : State) (q : Nat) : Bool := bitAt (s.queueWord q) 8
def State.notified (s : State) (q : Nat) : Bool := bitAt (s.queueWord q) 9

/-- The control word of queue q that core c goes by until its next share computation (R40). -/
def State.queueWordAt (s : State) (c q : Nat) : Word :=
  match (s.core c).queueWords with
  | some ws => nth ws q 0
  | none => nth s.lqtStart q 0

/-- The launch of thread tid. -/
def State.launchOfThread (s : State) (tid : Nat) : Option Launch := (s.thread tid).bind (fun t => s.launchOf t.lnum)

/-- The runnable work of queue q on core c (R41). -/
def State.workOf (s : State) (c q : Nat) : List Nat :=
  let mine := fun (tid : Nat) => match s.launchOfThread tid with
    | some l => decide (l.queue = q)
    | none => false
  let task := fun (tid : Nat) => match s.launchOfThread tid with
    | some l => decide (l.queue = q ∧ l.kind = 1) && s.mayTake c tid
    | none => false
  let k := s.core c
  ((s.live.filter (fun e => decide (e.2.core = c ∧ e.2.kind ≠ Kind.handler) && mine e.1 &&
    (e.2.place.isSome || decide (e.2.kind = .anchored)))).map (fun e => e.1)) ++
  (k.runq ++ k.deque).filter mine ++ (victims c).flatMap (fun v => (s.held v).filter task)

/-- Has queue q runnable work on core c (R41). -/
def State.runnable (s : State) (c q : Nat) : Bool := ! (s.workOf c q).isEmpty

/-- Queues active on core c, in ascending order (R41) (DESIGN CHOICE, log 13). -/
def State.activeQueues (s : State) (c : Nat) : List Nat :=
  (List.range 16).filter (fun q => decide (s.weight q ≠ 0) && s.runnable c q)

/-- A list ordered by a relation, stable. -/
def orderBy (before : Nat → Nat → Bool) (l : List Nat) : List Nat :=
  l.foldl (fun acc x => acc.takeWhile (fun y => ! before x y) ++ [x] ++ acc.dropWhile (fun y => ! before x y)) []

/-- The counts of R42 for the active queues given. -/
def State.shareCounts (s : State) (active : List Nat) : Tab Nat :=
  let u := fun (q : Nat) => if s.isUrgent q then 1 else 0
  let first := orderBy (fun a b => decide (u a > u b ∨ (u a = u b ∧ s.weight a > s.weight b))) active
  let a := if active.length > 8 then first.take 8 else active
  let w := max 1 (total (a.map s.weight))
  let m := 8 - a.length
  let rem := fun (q : Nat) => m * s.weight q % w
  let base := a.map (fun q => (q, 1 + m * s.weight q / w))
  let more := 8 - total (base.map (fun e => e.2))
  let extra := (orderBy (fun a b => decide (rem a > rem b ∨ (rem a = rem b ∧ a < b))) a).take more
  base.map (fun e => (e.1, e.2 + (if e.1 ∈ extra then 1 else 0)))

/-- The owners of slots 0 to 7 after the smallest change that meets the counts (R43). -/
def newOwners (owners : List Nat) (counts : Tab Nat) : List Nat :=
  let want := fun (q : Nat) => (look counts q).getD 0
  let at' := owners.zip (List.range owners.length)
  let kept := at'.map (fun e =>
    let before := (at'.filter (fun o => decide (o.1 = e.1 ∧ o.2 < e.2))).length
    if before < want e.1 then some e.1 else none)
  let owned := fun (q : Nat) => min (owners.filter (fun o => o = q)).length (want q)
  let due := (List.range 16).flatMap (fun q => List.replicate (want q - owned q) q)
  ((kept.zip owners).foldl (fun (acc : List Nat × List Nat) e =>
    match e.1 with
    | some q => (acc.1 ++ [q], acc.2)
    | none => (acc.1 ++ [acc.2.headD e.2], acc.2.drop 1)) ([], due)).1

/-- Residents of a slot that are pre-empted with its owner. -/
def State.preemptSlot (s : State) (c j : Nat) : State :=
  ((s.inSlot c j).map (fun e => e.1)).foldl (fun s tid => s.askPreempt tid) s

/-- NP set in the control word of queue q (R45): no core has passed a share boundary since. -/
def State.setNotify (s : State) (q : Nat) : State :=
  { s.wrWord (s.lqtKey (1 + q)) (setBits (s.queueWord q) 9 9 1) with npSeen := put s.npSeen q [] }

/-- The queues that lost their last slot while they had work may have been notified in that cycle (R45)
(DESIGN CHOICE, log 13). -/
def State.noteLost (s : State) (c : Nat) (lost : List Nat) : State :=
  lost.foldl (fun s q =>
    let (n, s) := s.fresh
    if s.flips n ∧ s.runnable c q then s.setNotify q else s) s

/-- Queues that gained runnable work on a core in the cycle in which they lost their last slot there: the notify may meet
the unmapping (R45) (DESIGN CHOICE, log 13). -/
def State.noteGains (s old : State) : State :=
  s.cores.foldl (fun s e => e.2.unmapped.foldl (fun (s : State) q =>
    if (s.workOf e.1 q).any (fun t => ! decide (t ∈ old.workOf e.1 q)) then
      let (n, s) := s.fresh
      if s.flips n then s.setNotify q else s
    else s) s) s

/-- An URGENT queue that becomes active on a core where it owns no slot asks for an extra share computation (R44). -/
def State.noteUrgent (s : State) : State :=
  let urgent := fun (ws : List Word) => ws.any (fun w => bitAt w 8 && decide (bits w 7 0 ≠ 0))
  if ¬ (urgent s.lqtStart || s.cores.any (fun e => e.2.queueWords.any urgent)) then s
  else
    (List.range 2048).foldl (fun (s : State) c =>
      let k := s.core c
      let active := (List.range 16).filter (fun q =>
        bitAt (s.queueWordAt c q) 8 && decide (bits (s.queueWordAt c q) 7 0 ≠ 0) && s.runnable c q)
      if active = k.wasActive then s
      else
        let rises := active.any (fun q => ! decide (q ∈ k.wasActive) && ! decide (q ∈ k.slots.map (fun j => j.owner)))
        s.modCore c (fun k => { k with urgent := k.urgent || rises, wasActive := active })) s

/-- Core c has passed a share boundary: NP is cleared once all have (R45) (DESIGN CHOICE, log 13). -/
def State.passNotify (s : State) (c : Nat) : State :=
  (List.range 16).foldl (fun s q =>
    if ¬ s.notified q then { s with npSeen := drop s.npSeen q }
    else
      let seen := (look s.npSeen q).getD []
      let seen := if c ∈ seen then seen else seen ++ [c]
      if seen.length ≥ 2048 then
        { s.wrWord (s.lqtKey (1 + q)) (setBits (s.queueWord q) 9 9 0) with npSeen := drop s.npSeen q }
      else { s with npSeen := put s.npSeen q seen }) s

/-- Launches with a thread bound to core c that waits for its bands, and who holds them (R357). -/
def State.bandWaits (s : State) (c : Nat) : List (Nat × Nat) :=
  let waiting := dedup ((s.live.filter (fun e =>
    decide (e.2.core = c ∧ e.2.place = none ∧ e.2.kind ≠ Kind.handler) &&
    (decide (e.2.kind = .anchored) || decide (e.1 ∈ (s.core c).runq ++ (s.core c).deque)))).map (fun e => e.2.lnum))
  waiting.flatMap (fun n =>
    match s.launchOf n with
    | none => []
    | some l =>
      if ¬ (s.core c).slots.any (fun j => decide (j.owner = l.queue)) ∨ s.keptOff c n then []
      else
        (dedup (((List.range l.bands).map (fun b => (b, nth (s.core c).bands b {}))).filterMap (fun e =>
          if e.2.v ∧ e.2.lnum ≠ n ∧ (s.hasResident c e.2.lnum ∨ s.bandBusy e.2.lnum c e.1) then some e.2.lnum else none))).map
            (fun m => (n, m)))

/-- Holders of bands that others wait for are pre-empted (R357). -/
def State.claimBands (s : State) (c : Nat) : State :=
  (s.bandWaits c).foldl (fun s q =>
    let s := s.modCore c (fun k =>
      if k.claims.any (fun e => decide (e.1 = q.1 ∧ e.2.1 = q.2)) then k else { k with claims := k.claims ++ [(q.1, q.2, false)] })
    (((s.residents c).filter (fun e => decide (e.2.lnum = q.2 ∧ e.2.kind ≠ Kind.handler))).map (fun e => e.1)).foldl
      (fun s tid => s.askPreempt tid) s) s

/-- OWNER fields of a core's slots (R382). -/
def Core.owners (k : Core) : List Nat := k.slots.map (fun j => j.owner)

/-- The owners that a share computation of core c gives its slots (R42, R43). With no active queue every slot keeps its
owner. -/
def State.sharedOwners (s : State) (c : Nat) : List Nat :=
  let active := s.activeQueues c
  if active.isEmpty then (s.core c).owners else newOwners (s.core c).owners (s.shareCounts active)

/-- The slots of core c given their owners (R43, R45). -/
def State.shareTo (s : State) (c : Nat) (new : List Nat) : State :=
  let old := (s.core c).owners
  let lost := (dedup old).filter (fun q => ! decide (q ∈ new))
  let s := s.modCore c (fun k => { k with
    slots := (k.slots.zip new).map (fun e => { e.1 with owner := e.2 }), urgent := false, unmapped := lost,
    queueWords := some ((List.range 16).map s.queueWord) })
  let s := s.noteLost c lost
  let s := ((List.range 8).filter (fun j => decide (nth old j 0 ≠ nth new j 0))).foldl (fun s j => s.preemptSlot c j) s
  s.record (unitCore c) 9 (word (ofBytes ((List.range 4).map (fun i =>
    BitVec.ofNat 8 (nth new (2 * i) 0 + 16 * nth new (2 * i + 1) 0))))) 0 []

/-- A share computation of core c (R42, R43, R45). -/
def State.shareNow (s : State) (c : Nat) : State := s.shareTo c (s.sharedOwners c)

/-- The end of a regular share computation: the boundary is passed, and bands that threads wait for are claimed (R357). -/
def State.closeShare (s : State) (c : Nat) : State := (s.modCore c (fun k => { k with lastShare := k.rotation })).claimBands c

/-- SHAREK (R40). -/
def State.shareK (s : State) : Nat :=
  let k := bits (s.lqt 0) 4 0
  if 12 ≤ k ∧ k ≤ 20 then k else Config.shareK

/-- Is a share boundary of core c due: its rotation count has reached a multiple of 2^SHAREK (R40)
(DESIGN CHOICE, log 12). -/
def State.shareDue (s : State) (c : Nat) : Bool :=
  let k := s.core c
  decide (k.nextSlot = 0 ∧ k.rotation ≠ 0 ∧ k.lastShare ≠ k.rotation) && decide (k.rotation % 2 ^ s.shareK = 0)

/-- SHARE_COMPUTATION (R42) (DESIGN CHOICE, log 12). -/
def execShareComputation (core : Nat) (s : State) : Out :=
  partStep (if s.mgmt.power = 0 ∧ s.shareDue core then
      some (((s.passNotify core).shareNow core).closeShare core)
    else none)

/-- URGENT_SHARE_COMPUTATION (R44): as at a boundary; the regular ones are not moved. -/
def execUrgentShareComputation (core : Nat) (s : State) : Out :=
  partStep (if s.mgmt.power = 0 ∧ (s.core core).urgent ∧ (s.core core).nextSlot = 0 ∧ ¬ s.shareDue core then
      some (s.shareNow core)
    else none)

/-- An instruction boundary of a thread (R350, R354): nothing of the next instruction has been done. -/
def State.between (s : State) (t : Thread) : Bool :=
  decide (t.state = .ready ∨ t.state = .parked ∨ t.state = .blocked) && t.place.isSome &&
  (s.stillPending t.hold).isEmpty && t.packet.isNone && t.stalled.isNone &&
  t.wait.all (fun w => ! w.ready)

/-- An asynchronous trap is due at the present boundary (R350). -/
def State.trapDue (s : State) (t : Thread) : Bool := ! t.traps.isEmpty && s.between t

/-- A pending pre-emption is due at the present boundary, whether or not results are still outstanding (R354). -/
def State.preemptDue (s : State) (tid : Nat) (t : Thread) : Bool :=
  (t.preempt || t.ppt) && s.between t && decide (t.kind ≠ Kind.handler) &&
  ((s.ownedBanks tid).isEmpty || ! s.cooperative t || t.ppt)

/-- A user-level interrupt is due at the present boundary, outside a repeat frame (R351, R352). -/
def State.uintDue (s : State) (t : Thread) : Bool :=
  ! t.uints.isEmpty && ! bitAt t.csr.ts 8 && s.between t && ! t.inFrame

/-- PREEMPTION (R354): a pending one at a boundary that permits it; asynchronous traps come first (R351)
(DESIGN CHOICE, log 56). -/
def execPreemption (tid : Nat) (s : State) : Out :=
  partStep (match s.thread tid with
    | none => none
    | some t =>
      if s.mgmt.power = 0 ∧ (t.preempt ∨ t.ppt) ∧ ¬ s.trapDue t ∧ s.canPreempt tid then some (s.preemptNow tid (s.keptBanks tid))
      else none)

/-- PREEMPTION_GRACE_EXPIRY (R292): PPT has not come within the grace. -/
def execPreemptionGraceExpiry (tid : Nat) (s : State) : Out :=
  partStep (match s.thread tid with
    | none => none
    | some t =>
      if s.mgmt.power = 0 ∧ t.preempt ∧ ¬ t.ppt ∧ s.cooperative t ∧ ¬ (s.ownedBanks tid).isEmpty ∧
        s.time.toNat ≥ t.graceAt.toNat ∧ ¬ s.trapDue t ∧ s.permitted t then some (s.preemptForced tid)
      else none)

/-- Is step 1 of R90 complete for a thread BLOCKED on heads, or on the room or the entry of SEND, SENDE, VQRD and VQWR: the
state with what it needs in reserve. -/
def State.readyNow (s : State) (tid : Nat) : Option State :=
  match (s.thread tid).bind (fun t => t.wait.map (fun w => (t, w))) with
  | none => none
  | some (t, w) =>
    let keep := fun (s : State) (g : List Taken) =>
      some (s.modThread tid (fun t => { t with wait := t.wait.map (fun w => { w with grip := w.grip ++ g, ready := true }) }))
    if t.state ≠ .blocked ∨ w.ready then none
    else
      match w.what with
      | .heads srcs dsts =>
        if (s.sources tid t { srcs := srcs, dst := dsts.getLast?, dst2 := dsts.dropLast.head? }).isSome then
          some (s.takeGrip tid srcs dsts true)
        else none
      | .inboxRoom c i n =>
        if s.available [⟨c, i, true, true, n⟩] then
          keep (s.modCore c (fun k => { k with inboxes := modify k.inboxes i (fun b => { b with reserved := b.reserved + n }) }))
            [.room c i true n]
        else none
      | .wide c n rd =>
        let ch := nth (s.core c).chans n {}
        if ¬ s.available [⟨c, n, false, ! rd, 1⟩] then none
        else
          keep (s.modCore c (fun k => { k with chans := modify k.chans n (fun h =>
            { h with reserved := h.reserved + 1, entries := if rd then h.entries.drop 1 else h.entries }) }))
            [if rd then .entry c n (ch.entries.headD 0) else .room c n false 1]
      | _ => none

/-- Threads BLOCKED on heads whose sources and room are all there take them into reserve, the longest wait first (R90)
(DESIGN CHOICE, log 24). -/
def State.settleWaits (s : State) : State :=
  let waits := s.live.filterMap (fun e => if e.2.state = .blocked then e.2.wait.map (fun w => (w.start.toNat, e.1)) else none)
  let sorted := waits.foldl (fun (acc : List (Nat × Nat)) e =>
    acc.takeWhile (fun f => decide (f.1 ≤ e.1)) ++ e :: acc.dropWhile (fun f => decide (f.1 ≤ e.1))) []
  sorted.foldl (fun (s : State) e => (s.readyNow e.2).getD s) s

/-- Does the condition that a thread is BLOCKED on hold now (R30). An object that can no longer be resolved lets the
instruction be issued again, to trap. -/
def State.waitHolds (s : State) (tid : Nat) (t : Thread) : Bool :=
  match t.wait with
  | none => true
  | some w =>
    match w.what with
    | .heads .. => w.ready
    | .word => false
    | .inboxRoom .. => w.ready
    | .wide .. => w.ready
    | .reply => ! s.flips s.freeN
    | .engineRoom c e => decide (((s.core c).engine e).length < engineRoom e)
    | .transfer c e x => s.opEnded c e x
    | .itemGet =>
      (match s.launchOf t.lnum with
       | some l => (match (s.setThread tid { t with item := none }).inputOf t.lnum l t.stage with
         | .nothing => t.moved
         | .atEnd => true
         | .item it l' => l'.itemRoom t it w.dsts)
       | none => true)
    | .itemPut q seq =>
      (match (s.launchOf t.lnum).bind (fun l => l.queues[q]?) with
       | some u => offer u ⟨1, BitVec.ofNat 32 seq⟩ != .wait
       | none => true)
    | .barrier n p => decide ((s.barrier n).phase.toNat ≠ p)
    | .replica a =>
      (match s.findElem t.who .view a with
       | .elem e _ => (s.ownUpdates tid e).isEmpty
       | _ => true)
    | .frontier a c v =>
      (match s.findElem t.who .view a with
       | .elem e _ => decide ((s.vword (e.front c)).toNat ≥ v.toNat)
       | _ => true)
    | .mailboxRoom a =>
      (match s.box t.who a 1 with
       | .ok b => decide (b.free ≠ 0)
       | .error _ => true)
    | .mailboxMessage a =>
      (match s.box t.who a 2 with
       | .ok b => (match s.seqWord t.who b ((b.f 0).toNat % b.slots) with
         | .ok q => inPlace q (b.f 0).toNat || (s.seqPoison t.who b ((b.f 0).toNat % b.slots)).isSome
         | .error _ => true)
       | .error _ => true)
    | .canopyRoom c => decide ((s.core c).canopyIn.length < 8)
    | .canopyResult c => (s.resultFor c (s.groupOf t.lnum)).isSome

/-- Is a wait with a limit unsatisfied at a moment: its thread, and the tick that the time base has still to reach (R353). -/
def State.limitLeft (s : State) : List Nat :=
  s.live.filterMap (fun e =>
    match e.2.wait with
    | some w =>
      if e.2.state = .blocked ∧ w.limit ≠ 0 ∧ ¬ s.waitHolds e.1 e.2 then
        some (w.start.toNat + w.limit.toNat - s.time.toNat) else none
    | none => none)

/-- WAIT_LIMIT_EXPIRY (R353): an unsatisfied wait whose limit has passed is withdrawn, and the thread traps. -/
def execWaitLimitExpiry (tid : Nat) (s : State) : Out :=
  partStep (match s.thread tid with
    | none => none
    | some t =>
      match t.wait with
      | none => none
      | some w =>
        if t.state ≠ .blocked ∨ w.limit = 0 ∨ s.mgmt.power ≠ 0 ∨ s.time.toNat < w.start.toNat + w.limit.toNat ∨
          s.waitHolds tid t then none
        else
          let s := s.record (unitCore t.core) 7 t.tidWord s.time []
          some (s.enterTrap tid false ⟨cWAITLIMIT, w.tval⟩ t.pc))

/-- ASYNC_TRAP_DELIVERY (R350): the oldest, with `tepc` the next instruction (DESIGN CHOICE, log 56). -/
def execAsyncTrapDelivery (tid : Nat) (s : State) : Out :=
  partStep (match s.thread tid with
    | none => none
    | some t =>
      match t.traps with
      | [] => none
      | r :: rest =>
        if s.mgmt.power ≠ 0 ∨ ¬ s.trapDue t then none
        else some ((s.setThread tid { t with traps := rest }).enterTrap tid true r t.pc))

/-- UINT_DELIVERY (R352): into the thread itself, once its results have returned; a parameter block that could not be
read brings its trap instead (R268) (DESIGN CHOICE, log 56). -/
def execUintDelivery (tid : Nat) (s : State) : Out :=
  partStep (match s.thread tid with
    | none => none
    | some t =>
      match t.uints with
      | [] => none
      | u :: rest =>
        if s.mgmt.power ≠ 0 ∨ ¬ s.uintDue t ∨ ¬ t.allReturned ∨ s.trapDue t ∨ s.preemptDue tid t then none
        else
          let s := (s.settle tid).withdraw tid
          let s := s.modThread tid (fun t => { t with uints := rest })
          match u.trap with
          | some code => some (s.enterTrap tid false ⟨code, u.block⟩ t.pc)
          | none =>
            some (s.modThread tid (fun t =>
              let c := { t.csr with
                uepc := t.pc, uxid := word u.xid, uiblk := u.block,
                ts := setBits (setBits t.csr.ts 8 8 1) 9 9 (if rest.isEmpty then 0 else 1) }
              { t with csr := c, pc := u.vector, state := .ready, hold := [], marked := false })))

/-- MT_ARRIVAL (R49): the MT joins the run queue of its new core; event 8 is counted (R102). -/
def execMtArrival (tid : Nat) (s : State) : Out :=
  partStep (match s.thread tid with
    | none => none
    | some t =>
      if ¬ t.flying ∨ s.mgmt.power ≠ 0 then none
      else some (((s.setThread tid { t with flying := false }).pushRun t.core tid).count t.core 8 1))

/-- The completion of launch n that waits, of a kind, once what it follows has been performed (R46). -/
def State.completionOf (s : State) (n cmpl : Nat) : Option Completion :=
  match s.completions.find? (fun q => decide (q.lnum = n ∧ bits (nth q.words 0 0) 44 41 = cmpl)) with
  | some q => if (s.stillPending q.after).isEmpty then some q else none
  | none => none

/-- LAUNCH_INBOX_COMPLETION (R46): the packet LNUM, CPB, when the inbox has room. -/
def execLaunchInboxCompletion (lnum : Nat) (s : State) : Out :=
  partStep (match s.completionOf lnum 2 with
    | none => none
    | some q =>
      let a := nth q.words 6 0
      let c := bits a 10 0
      let i := bits a 14 11
      if s.mgmt.power ≠ 0 ∨ ¬ s.inboxFree c i 2 then none
      else some ({ s with completions := s.completions.erase q }.putPacket c i [word lnum, nth q.words 7 0] []))

/-- A message of the part through a sender descriptor (R336): none while no slot is free; its faults go to the log. -/
def State.partMail (s : State) (core : Nat) (w : Who) (a : Word) (bytes : List Byte) (fail : TrapRec → State) : Option State :=
  if s.boxHeld w a then none
  else
  match s.box w a 1 with
  | .error e => some (fail e)
  | .ok b =>
    match s.boxPoison b with
    | some p => some (fail ⟨cECC, p⟩)
    | none => if b.free = 0 then none else some (s.sendMail core 0 b bytes)

/-- LAUNCH_MAILBOX_COMPLETION (R46, R336): word 16, then CPB. -/
def execLaunchMailboxCompletion (lnum : Nat) (s : State) : Out :=
  partStep (match s.completionOf lnum 3 with
    | none => none
    | some q =>
      if s.mgmt.power ≠ 0 then none
      else
        let core := (bareLaunch q.words 0 q.user).cores.headD 0
        let r := { s with completions := s.completions.erase q }
        r.partMail core ⟨q.user, lnum, core⟩ (nth q.words 6 0)
          ((bytesOf 8 (word16 lnum 2 0).toNat) ++ bytesOf 8 (nth q.words 7 0).toNat)
          (fun e => (r.noteWalk core e).logError 0x0A unitDevice (word lnum) (word e.code)))

/-- Cores that serve a stage, ascending. -/
def Launch.coresOf (l : Launch) (k : Nat) : List Nat := l.cores.filter (fun c => decide ((look l.coreStage c).getD 0 = k))

/-- D of stage k (R55); of an input queue with no sample in the interval 0 (DESIGN CHOICE, log 21). -/
def Launch.depth (l : Launch) (k : Nat) : Nat :=
  match l.stages[k]? with
  | none => 0
  | some st =>
    if k = 0 then (if l.drawn < l.count ∨ ¬ l.taken.isEmpty then 65536 else 0)
    else
      let cap := match l.queues[st.inq]? with
        | some q => q.cap
        | none => 1
      if st.samples = 0 then 0 else st.depthSum * 65536 / (st.samples * cap)

/-- B of stage k (R55). -/
def Launch.blockage (l : Launch) (k : Nat) : Nat :=
  match l.stages[k]? with
  | none => 0
  | some st => if st.residentTurns = 0 then 0 else st.blockedTurns * 65536 / st.residentTurns

/-- The best of a list under a relation; the first where none is better. -/
def best (better : Nat → Nat → Bool) (l : List Nat) : Option Nat :=
  l.foldl (fun acc x =>
    match acc with
    | none => some x
    | some b => if better x b then some x else some b) none

/-- A thread of a moved core (R57): one that waits for an item restarts at once, unless step 1 of its instruction is complete
(R90). -/
def State.moveThread (s : State) (tid : Nat) : State :=
  let s := s.modThread tid (fun t => { t with moved := true })
  match s.thread tid with
  | none => s
  | some t =>
    let input := fun (f : Nat) => isHead f && headKind (t.headOf (f - 112)) == 5
    let waits := match t.wait with
      | some w => (match w.what with
        | .itemGet => true
        | .heads srcs _ => ! w.ready && srcs.any input
        | _ => false)
      | none => false
    if decide (t.state = .blocked) && waits then s.restartThread tid else s

/-- Core c of launch n moved to stage k (R56, R57). -/
def State.moveCore (s : State) (n c donor k : Nat) : State :=
  match s.launchOf n with
  | none => s
  | some l =>
    let s := (s.setLaunch n { l with coreStage := put l.coreStage c k, moving := dedup (l.moving ++ [c]) }).count c 10 1
    let s := s.record (unitDie (dieOf (l.cores.headD 0))) 8
      (word (n % 2 ^ 14 + donor * 2 ^ 16 + k * 2 ^ 20)) (word c) []
    let ts := (s.coreThreads n l c).map (fun e => e.1)
    (ts.foldl (fun s tid => s.moveThread tid) s).finishMove n c

/-- The moves of the balancer (R56): at most `fuel`, on the values of D given. -/
def State.balance (s : State) (n fuel : Nat) (d : Tab Nat) : State :=
  match fuel with
  | 0 => s
  | f + 1 =>
    match s.launchOf n with
    | none => s
    | some l =>
      let done := s.finishedStages n l
      let dOf := fun (k : Nat) => (look d k).getD 0
      let live := (List.range l.stages.length).filter (fun k => ! decide (k ∈ done))
      let cores := fun (k : Nat) => (l.coresOf k).length
      let st := fun (k : Nat) => nth l.stages k (stageOf [])
      let rcp := best (fun a b => decide (dOf a > dOf b)) (live.filter (fun k => decide (cores k < (st k).maxc)))
      let dnr := best (fun a b => decide (dOf a < dOf b ∨ (dOf a = dOf b ∧ l.blockage a > l.blockage b)))
        (live.filter (fun k => decide (cores k > (st k).minc)))
      match rcp, dnr with
      | some r, some o =>
        if r = o ∨ dOf r < dOf o + 8192 then s
        else
          let c := (l.coresOf o).getLastD 0
          let d := put (put d r (dOf r * cores r / (cores r + 1))) o (min 65536 (dOf o * cores o / (cores o - 1)))
          (s.moveCore n c o r).balance n f d
      | _, _ => s

/-- Has an interval of a launch's balancer ended (R55). -/
def State.balanceDue (s : State) (l : Launch) : Bool :=
  l.pipeline && l.started && decide (l.lastBal < s.dieRotation (dieOf (l.cores.headD 0)) / 2 ^ l.bal)

/-- STAGE_BALANCER (R55, R56): once per 2^b rotations, counted by the scheduler of the die of its lowest core; a new interval
begins. In a replay the moves come from the record (R375) (DESIGN CHOICE, log 21). -/
def execStageBalancer (lnum : Nat) (s : State) : Out :=
  partStep (match s.launchOf lnum with
    | none => none
    | some l =>
      let now := s.dieRotation (dieOf (l.cores.headD 0)) / 2 ^ l.bal
      if ¬ s.balanceDue l ∨ s.mgmt.power ≠ 0 then none
      else
        let d := (List.range l.stages.length).map (fun k => (k, l.depth k))
        some ((if s.replaying then s else s.balance lnum 4 d).modLaunch lnum (fun l =>
          { l with
            lastBal := now,
            stages := l.stages.map (fun st => { st with depthSum := 0, samples := 0, blockedTurns := 0, residentTurns := 0 }) })))

end Sys2Proof.Machine
end

