-- ==== Sys2Proof/Machine/Units.lean ====
section
/-! DEFINITION. The steps of homes and engines: the return of deferred results (R32, R206), writes at homes (R182), directory
overflow (R185), copies and their completion actions (R261, R267 to R271, R223, R224), the matrix unit's commands (R282,
R286, R288), and the actions of watch entries (R273). -/
namespace Sys2Proof.Machine

/-- Access id, if what it follows has been performed (R207). -/
def State.performable (s : State) (id : Nat) : Option Access :=
  match s.accs.find? (fun a => a.id = id) with
  | none => none
  | some a => if s.mgmt.power = 0 ∧ s.canPerform a then some a else none

/-- Does an access write its home when it is performed: an engine's piece does so once its source is read. -/
def AccOp.merges (o : AccOp) : Bool :=
  match o with
  | .store _ => true
  | .rmw .. => true
  | .stfe _ => true
  | .unit _ _ b => b.isSome
  | _ => false

/-- Does an access reach its own line when it is performed: an engine's piece that still reads its source does not. -/
def AccOp.atHome (o : AccOp) : Bool :=
  match o with
  | .unit _ _ b => b.isSome
  | _ => true

/-- An access performed at its home, as R185 lets it. -/
def State.whenFree (s : State) (a : Access) (go : Option State) : Option State :=
  if a.op.atHome then s.atLine a.loc.key a.loc.home a.op.merges go else go

/-- Does a home hold back the line of the word that a TRIG is to watch (R185). -/
def State.watchedHeld (s : State) (a : Access) : Bool :=
  ! s.heldLines.isEmpty && (match a.op with
    | .arm (b :: _) user lnum _ =>
      (match s.locate ⟨user, lnum, a.core⟩ .load (s.rdWord b.key) 8 with
       | .ok l => s.lineHeld l.key
       | .error _ => false)
    | _ => false)

/-- DEFERRED_RESULT_RETURN (R32): a read is performed at its home and its value comes back. -/
def execDeferredResultReturn (acc : Nat) (s : State) : Out :=
  partStep (match s.performable acc with
    | none => none
    | some a =>
      if ¬ a.op.isRead then none
      else
        s.whenFree a (match a.op with
          | .arm block user lnum num =>
            if block.any (fun l => s.lineHeld l.key) || s.watchedHeld a then none else some ((s.dropAcc acc).armNow a block user lnum num)
          | .mxrd b row chunk num before =>
            if s.readable a.core before then some ((s.dropAcc acc).readRow a b row chunk num) else none
          | _ => some (s.perform a)))

/-- Copies whose last writes have been performed are forgotten (R226). -/
def State.pruneTrailing (s : State) (c : Nat) : State :=
  if (s.core c).trailing.isEmpty then s
  else s.modCore c (fun k => { k with trailing := k.trailing.filter (fun o => ! (s.stillPending o.pending).isEmpty) })

/-- A piece of an engine or of a remote copy performed: one that came from another device is only written. -/
def State.performUnit (s : State) (a : Access) : Option State :=
  match s.opOf a.core a.id, a.op with
  | none, .unit x n (some left) =>
    let (s, fin) := s.writeSome a x n left 1
    some (if fin then (s.dropAcc a.id).arrivalDone a.id else s)
  | _, _ => if s.pieceReady a then some (s.performPiece a) else none

/-- Is an access a piece of an engine's operation. -/
def AccOp.isPiece (o : AccOp) : Bool :=
  match o with
  | .unit .. => true
  | .row .. => true
  | .split .. => true
  | .fail _ => true
  | .ship .. => true
  | .inject _ => true
  | _ => false

/-- HOME_WRITE (R182): a write, or a piece of a copy, is performed at its home (DEDUCED, log 60). -/
def execHomeWrite (acc : Nat) (s : State) : Out :=
  partStep (match s.performable acc with
    | none => none
    | some a =>
      if a.op.isRead then none
      else
        s.whenFree a ((if a.op.isPiece then s.performUnit a else some ((s.perform a).arrivalDone a.id)).map
          (fun s => s.pruneTrailing a.core)))

/-- The home core of a physical line that some TLB's translation reaches (R180, R185) (DESIGN CHOICE, log 20). -/
def State.lineHome (s : State) (line : Nat) : Option Nat :=
  (s.tlbs.find? (fun e =>
    let base := leafPA e.leaf e.big 0
    let size := if e.big then 2 ^ 26 else 2 ^ 16
    decide (base ≤ 128 * line ∧ 128 * line < base + size))).map (fun e => s.homeOf e.leaf (128 * line))

/-- The home core of a byte of global memory or of a scratchpad, as the error log names it; none of any other byte. The
home of an atom that no translation held covers is free (DESIGN CHOICE, log 69). -/
def State.storedAt (s : State) (k : Nat) : Option Nat :=
  if k < hbmEnd then some (((s.lineHome (k / 128)).getD (Config.free s.freeN % 2048)) % 4096)
  else if 2 ^ 44 ≤ k ∧ k < 2 ^ 44 + 2048 * 2 ^ 20 ∧ k % 2 ^ 20 < scratchSize then some ((k - 2 ^ 44) / 2 ^ 20)
  else none

/-- An error of memory at a byte (R186): a correctable one is counted in the error log and has no other effect; an
uncorrectable one marks the atom or word poisoned. The unit of the entry is always the home core, where R381 allows the
HBM stack too (DESIGN CHOICE, log 69). -/
def State.memoryError (s : State) (k : Nat) (symbol : Option Nat) : Out :=
  partStep (if s.mgmt.power ≠ 0 then none
    else
      (s.storedAt k).map (fun c =>
        match symbol with
        | some p => s.logError 0x01 (unitCore c) (keyAddress (atomOf k)) (word p)
        | none => s.setPoison k c 0))

/-- DIRECTORY_OVERFLOW (R185): a fifth L1 requests a line: a handler start at slot PA[9:7] of the line's home, and the line
has overflowed sharers (DESIGN CHOICE, log 20). -/
def execDirectoryOverflow (line : Nat) (s : State) : Out :=
  partStep (if s.mgmt.power ≠ 0 ∨ s.lineHeld (128 * line) then none
    else (s.lineHome line).map (fun c =>
      ({ s with overflowed := put s.overflowed line false }).queueHandler c (line % 8) (.directory line)))

/-- COPY_START (R261): copies start in the order of their queue (DEDUCED, log 26). -/
def execCopyStart (core op : Nat) (s : State) : Out :=
  partStep (match s.engOp core 0 op with
    | none => none
    | some o =>
      let earlier := (s.core core).eng0.takeWhile (fun q => decide (q.xid ≠ op))
      if s.mgmt.power ≠ 0 ∨ o.state ≠ 0 ∨ earlier.any (fun q => q.state = 0) ∨ ¬ (s.stillPending o.after).isEmpty then none
      else some (s.startCopy core o))

/-- A copy at the head of its queue that has started (R270) (DEDUCED, log 26). -/
def State.headCopy (s : State) (c xid : Nat) : Option EngOp :=
  match s.headOp c 0 xid with
  | some o => if s.mgmt.power = 0 ∧ o.state ≠ 0 then some o else none
  | none => none

/-- Has a copy no more to do: every piece is performed, and a remote one is acknowledged (R223, R330). -/
def EngOp.finished (o : EngOp) : Bool := o.pending.isEmpty && (! optRemote o.fields || o.acked)

/-- COPY_COMPLETION: the actions NONE, CADD, UINT and STREAM (R223, R267, R268, R271). -/
def execCopyCompletion (core op : Nat) (s : State) : Out :=
  partStep (match s.headCopy core op with
    | none => none
    | some o =>
      match optAct o.fields with
      | 0 => if o.finished then some (s.retireOp core 0 o) else none
      | 1 =>
        if optRemote o.fields then (if o.finished then some (s.retireOp core 0 o) else none)
        else if s.covered o (optScope o.fields) then s.actAdd core 0 o else none
      | 3 => if o.finished then s.actUint core 0 o else none
      | 5 => if o.finished then some (s.retireOp core 0 o) else none
      | _ => none)

/-- Have all bytes of a copy been read, so that its writes can be merged (R223, R224). -/
def State.merged (s : State) (o : EngOp) : Bool :=
  s.accs.all (fun a => ! decide (a.id ∈ o.pending) || (match a.op with
    | .unit _ _ (some _) => true
    | _ => false))

/-- COPY_INBOX_ACTION (R267). -/
def execCopyInboxAction (core op : Nat) (s : State) : Out :=
  partStep (match s.headCopy core op with
    | none => none
    | some o =>
      if optAct o.fields ≠ 2 then none
      else if optRemote o.fields then (if o.finished then s.actInbox core 0 o else none)
      else if s.merged o then s.actInbox core 0 o else none)

/-- PUSH_ACTION (R269). -/
def execPushAction (core op : Nat) (s : State) : Out :=
  partStep (match s.headCopy core op with
    | none => none
    | some o => if optAct o.fields = 4 ∧ o.finished then s.actPush core 0 o else none)

/-- MXU_COMMAND_START (R288). -/
def execMxuCommandStart (grove : Nat) (s : State) : Out :=
  partStep (if s.mgmt.power ≠ 0 then none
    else
      let (i, n) := (look s.mxu grove).getD (0, 0)
      s.arbitrate grove i n 9)

/-- MXU_ROW (R282, R284). -/
def execMxuRow (core op : Nat) (s : State) : Out := partStep (if s.mgmt.power = 0 then s.mxuStep core op else none)

/-- MXU_COMMAND_COMPLETE (R286). -/
def execMxuCommandComplete (core op : Nat) (s : State) : Out := partStep (if s.mgmt.power = 0 then s.mxuEnd core op else none)

/-- The fields of the copy that firing k starts, from the sixteen words of its block (R273); none where they are not
allowed. -/
def watchCopy (w : Watch) (k : Nat) (b : List Word) : Option (List Word) :=
  let fs := b.take 12 ++ [0, 0]
  let fs := modify (modify fs 0 (fun x => x + word k * fld w.words 5)) 1 (fun x => x + word k * fld w.words 6)
  if ¬ (b.drop 12).all (fun x => x == 0) ∨ optAct fs > 2 then none else some fs

/-- The first pending action of a watch entry started (R273): none while it waits for room (DESIGN CHOICE, log 58). -/
def State.watchAction (s : State) (c n : Nat) : Option State :=
  let w := nth (s.watchTable c) n {}
  match w.pend with
  | [] => none
  | f :: rest =>
    let h := handleOf w n c
    let who : Who := ⟨w.user, w.lnum, c⟩
    let pa := fld w.words 4
    let pb := fld w.words 5
    let started := fun (s : State) => s.modWatch c n (fun w => { w with pend := rest })
    let failed := fun (s : State) (code : Nat) =>
      (s.logError 0x09 (unitCore c) h (word code)).modWatch c n (fun w => { w with pend := rest, state := 2 })
    let fail := failed s
    let fault := fun (e : TrapRec) => failed (s.noteWalk c e) e.code
    match bits (fld w.words 1) 3 2 with
    | 0 =>
      let f := if f.unread then s.readBlock c w f else f
      if f.unread then none
      else
      match f.fault, watchCopy w f.k f.block with
      | some code, _ => some (fault ⟨code, pa⟩)
      | none, none => some (fail 0)
      | none, some fs =>
        let th := newThread .anchored .general w.lnum 0 8 0 c 0 []
        let th := { th with csr := { th.csr with ts := if w.user then 0 else 0x10000 } }
        match s.checkCopy th c fs with
        | some r => some (fault r)
        | none =>
          if (s.core c).eng0.length ≥ engineRoom 0 then none
          else
            let id := (s.core c).xidNext
            let op : EngOp := { xid := id, engine := 0, fields := fs, tid := 0, lnum := w.lnum, user := w.user, watch := some h }
            some (started (s.modCore c (fun q =>
              { q with eng0 := q.eng0 ++ [op], xidNext := nextXid id, xstat := modify q.xstat 0 (fun d => (d.1, id)) })))
    | 1 =>
      let bytes := [h, f.x, f.t, pb].flatMap (fun y => bytesOf 8 y.toNat)
      (started s).partMail c who pa bytes fault
    | 2 =>
      match s.launchOf w.lnum with
      | none => some (fail 0)
      | some l =>
        if l.pipeline then some (fail 0)
        else
          let child := newThread .mt .general w.lnum (l.created + l.forked) 24 0 c pa [pb, f.x]
          let tid := s.nextTid
          let s := (s.addThread child).modLaunch w.lnum (fun l => { l with forked := l.forked + 1 })
          some ((s.pushDeque c tid).modWatch c n (fun w => { w with pend := rest }))
    | _ =>
      match s.locate who .atomic pa 8 with
      | .error e => some (fault e)
      | .ok l =>
        if (s.poisoned l.key 8).isSome then s.atLine l.key l.home false (some (fail cECC))
        else s.atLine l.key l.home true (some ((started s).addAt l pb (l.home % 4096)))

/-- WATCH_ACTION_START (R273). -/
def execWatchActionStart (slice entry : Nat) (s : State) : Out :=
  partStep (if s.mgmt.power = 0 then s.watchAction slice entry else none)

end Sys2Proof.Machine
end

