-- ==== Sys2Proof/Machine/Links.lean ====
section
/-! DEFINITION. The link layer's steps: time-base synchronisation, discard reports, acknowledgements and retries, flits
that fail their check or are of a reserved kind (R328, R329, R386), links that leave service (R329), and die boundaries that
lose modules (R15). -/
namespace Sys2Proof.Machine

/-- TIME_BASE_SYNCHRONISATION (R329, R386): what the receiver makes of it is its own; its time base never runs back
(DESIGN CHOICE, log 45). -/
def execTimeBaseSynchronisation (f : Flit) (s : State) : Out :=
  partStep (s.arrive f 10 (fun s =>
    let x := f.word 0
    some (if Config.freeBool s.freeN ∧ x.toNat > s.time.toNat then { s with time := x } else s)))

/-- The flit whose header words a discard report carries (R327, R386). -/
def reported (f : Flit) : Flit :=
  let h0 := f.word 0
  let h1 := f.word 1
  let h2 := f.word 2
  let h3 := f.word 3
  { blankFlit with
    cls := bits h0 63 62, sub := bits h0 61 61, kind := bits h0 60 55, ddev := bits h0 54 43, sdev := bits h0 42 31,
    dlcn := bits h0 30 20, slcn := bits h0 19 9, len := bits h1 63 57, addr := bits h1 55 0, tag := bits h2 63 48,
    eseq := bits h2 47 32, param := bits h3 63 32 }

/-- An arrival of kind 11 with a subkind (R386). -/
def State.arriveControl (s : State) (f : Flit) (sub : Nat) (k : State → State) : Option State :=
  if f.param ≠ sub then none else s.arrive f 11 (fun s => some (k s))

/-- DISCARD_REPORT (R328, R386): the operation that the flit belonged to ends. -/
def execDiscardReport (f : Flit) (s : State) : Out := partStep (s.arriveControl f 0 (fun s => s.lost (reported f)))

/-- LINK_ACKNOWLEDGEMENT (R329, R386): flits up to an LSEQ leave the link, and credits come back. -/
def execLinkAcknowledgement (f : Flit) (s : State) : Out :=
  partStep (s.arriveControl f 1 (fun s =>
    let n := (f.word 0).toNat % 2 ^ 16
    let s := s.modLink f.link (fun k =>
      let left := if k.sent.any (fun g => g.lseq = n) then (k.sent.dropWhile (fun g => g.lseq ≠ n)).drop 1 else k.sent
      { k with
        sent := left, retries := 0,
        credits := (k.credits.zip (List.range 5)).map (fun e => e.1 + (f.word (1 + e.2)).toNat) })
    s.pump (s.queued.length + 1)))

/-- RETRY_REQUEST (R329, R386): the link sends its unacknowledged flits again; each retry is counted. -/
def execRetryRequest (f : Flit) (s : State) : Out :=
  partStep (s.arriveControl f 2 (fun s => s.modLink f.link (fun k => { k with retries := k.retries + 1 })))

/-- LINK_IDLE (R386): it carries nothing. -/
def execLinkIdle (f : Flit) (s : State) : Out := partStep (s.arriveControl f 3 (fun s => s))

/-- The segment that a checkpoint sent last to a device; where none streams it is free (DESIGN CHOICE, log 44). -/
def State.lastSegment (s : State) (dev : Nat) : Nat :=
  let mine := match s.mgmt.stream with
    | some st => (st.sent.placed.filter (fun (e : Nat × Nat) => s.targets.any (fun t => decide (t = (dev, e.2))))).map (fun (e : Nat × Nat) => e.1)
    | none => []
  mine.getLast?.getD (Config.free s.freeN)

/-- BULK_WRITE_FAULT (R378, R386): the target counts as unreachable. The report names no segment: the log names the last one
sent to it (DESIGN CHOICE, log 44). -/
def execBulkWriteFault (f : Flit) (s : State) : Out :=
  partStep (s.arriveControl f 4 (fun s => s.targetLost f.sdev (s.lastSegment f.sdev)))

/-- UP bits of the fabric table (R326). -/
def State.writeUp (s : State) : State :=
  s.wrWord (s.ftKey 8) (word (total ((List.range 16).map (fun l => if (nth s.links l {}).up then 2 ^ l else 0))))

/-- LINK_OUT_OF_SERVICE (R329): its retries are exhausted; what it has not delivered is sent again on the links that ROUTE
then names, or discarded; the count of its retries stays for SUMMARY (R376). -/
def execLinkOutOfService (link : Nat) (s : State) : Out :=
  partStep (match s.links[link]? with
    | none => none
    | some k =>
      if ¬ k.up then none
      else
        let s := (s.modLink link (fun _ => ({ retries := k.retries, exhausted := true } : Link))).writeUp
        let s := s.logError 0x12 (unitLink link) (word k.retries) (word (Config.peer link % 4096))
        some (({ s with queued := k.sent.filter (fun f => ! f.linkLevel) ++ s.queued } : State).settleQueue))

/-- BOUNDARY_MODULE_FAILURE (R15): the boundary runs on; one that loses its last module is a fatal module error. -/
def execBoundaryModuleFailure (boundary module : Nat) (s : State) : Out :=
  partStep (match s.boundaries[boundary]? with
    | none => none
    | some (n, gone) =>
      if n = 0 ∨ module ≥ 48 ∨ module ∈ gone then none
      else
        let s := { s with boundaries := modify s.boundaries boundary (fun _ => (n - 1, gone ++ [module])) }
        let s := s.logError 0x03 (unitBoundary boundary) (word module) (word (n - 1))
        some (if n = 1 then s.fatalError (unitBoundary boundary) 1 0 else s))

/-- FLIT_CRC_FAILURE (R328, R386): the flit is not taken; the link asks for it again. -/
def execFlitCrcFailure (f : Flit) (s : State) : Out :=
  partStep (match s.links[f.link]? with
    | none => none
    | some k =>
      if ¬ s.linkCarries f ∨ f.crc = f.crcOf then none
      else
        some (s.sendLinkLevel { blankFlit with
          link := f.link, kind := 11, param := 2, ddev := Config.peer f.link % 4096, len := 8,
          payload := payloadWords [word ((k.seen + 1) % 2 ^ 16)] }))

/-- RESERVED_KIND_FLIT (R328): discarded and counted, with a reserved kind or subkind or a field that its kind does not
use. -/
def execReservedKindFlit (f : Flit) (s : State) : Out :=
  partStep (if ¬ s.linkCarries f ∨ f.crc ≠ f.crcOf ∨ f.ok then none
    else some (((s.seenBy f).recordFlit f).logError 0x11 (unitLink f.link) f.h0 0))

end Sys2Proof.Machine
end

