-- ==== Sys2Proof/Machine/HostSide.lean ====
section
/-! DEFINITION. The host's side (R337 to R341, R358, R376): doorbells, the launch mailbox, the migration engine, BAR0 and
BAR2 writes, management registers, the SUMMARY record, and SPDM answers (R339, R371, R373). -/
namespace Sys2Proof.Machine

/-- The management controller's registers changed. -/
def State.modMgmt (s : State) (f : Mgmt → Mgmt) : State := { s with mgmt := f s.mgmt }

/-- PSTATE as the part shows it (R366). -/
def Mgmt.pstate (m : Mgmt) : Word := word (m.power % 4 + m.level % 4 * 4)

/-- The register DET (R366). -/
def Mgmt.detWord (m : Mgmt) : Word := word ((if m.det then 1 else 0) + (if m.reclost then 2 else 0))

/-- The number of the mode in MODE (R366). -/
def State.modeCode (s : State) : Nat :=
  match s.mode with
  | .boot => 0
  | .service => 1
  | .test => 2
  | .recovery => 3

/-- Something that the part writes to host memory (R337, R340, R376). -/
def State.hostWrite (s : State) (a : Word) (bs : List Byte) : State :=
  { s with host := { s.host with writes := s.host.writes ++ [(a, bs)] } }

/-- The record of a host write through BAR0 (R374, R382). -/
def State.recordBar0 (s : State) (off : Nat) (v : Word) : State :=
  s.record unitDevice 2 (word off) v []

/-- Management commands, as the model counts them; their numbers in a record are free (R382) (DESIGN CHOICE, log 44). -/
inductive Command where
  | service | test | d1 | d2 | d3 | wake | level | checkpoint | restore | launch | token | revocation | resume | summary
  | register | debug
  deriving DecidableEq, Repr

/-- The place of a command in the model's own list. -/
def Command.index (c : Command) : Nat :=
  match c with
  | .service => 0
  | .test => 1
  | .d1 => 2
  | .d2 => 3
  | .d3 => 4
  | .wake => 5
  | .level => 6
  | .checkpoint => 7
  | .restore => 8
  | .launch => 9
  | .token => 10
  | .revocation => 11
  | .resume => 12
  | .summary => 13
  | .register => 14
  | .debug => 15

def Command.all : List Command :=
  [.service, .test, .d1, .d2, .d3, .wake, .level, .checkpoint, .restore, .launch, .token, .revocation, .resume, .summary, .register,
   .debug]

/-- The command that a number in a record stands for. -/
def commandOf (n : Word) : Option Command := Command.all.find? (fun c => decide (Config.commandNo c.index = n))

/-- The record of a management command with its parameters (R374, R382). -/
def State.recordCommand (s : State) (c : Command) (ws : List Word) : State :=
  s.record unitDevice 4 (Config.commandNo c.index) (ws.headD 0) (ws.drop 1)

/-- Does the host port take a write: on the bridge, in D0 (R325, R338). -/
def State.hostOpen (s : State) : Bool := s.bridge && decide (s.mgmt.power = 0)

/-- Bytes written at a physical address by the host: waiters and watch entries of its words are evaluated (R203, R274); MTs
that wait in JOINW go to the deque of the word's home core (R233). -/
def State.physWrite (s : State) (k : Nat) (bs : List Byte) : State :=
  let s := s.invalidate k ((s.lineHome (k / 128)).getD (Config.free s.freeN % 2048))
  let s := (s.wrBytes k (s.fieldBytes k bs)).clearPoison k bs.length
  ((List.range (bs.length / 8 + 2)).map (fun i => k - k % 8 + 8 * i)).foldl (fun (s : State) (j : Nat) =>
    if j < k + bs.length then
      let home := ((s.waiters.find? (fun w => w.loc.key = j)).map (fun w => w.loc.home % 4096)).getD 0
      (s.watch.map (fun e => e.1)).foldl (fun s c => s.evalWatch j c) (s.evalWaiters j home)
    else s) s

/-- LDOOR (R337, R338): the host's new HEAD of the launch mailbox. -/
def execLdoor (v : Word) (s : State) : Out :=
  partStep (if ¬ s.hostOpen then none
    else some ({ s with host := { s.host with lhead := v } }.recordBar0 0 v))

/-- MDOOR (R338, R340): the host ring's new head, modulo 32,768. -/
def execMdoor (v : Word) (s : State) : Out :=
  partStep (if ¬ s.hostOpen then none
    else some ({ s with host := { s.host with mhead := word (v.toNat % 32768) } }.recordBar0 0x10 v))

/-- DMHEAD (R340, R358): entries placed in the device ring. -/
def execDmhead (v : Word) (s : State) : Out :=
  partStep (if s.mgmt.power ≠ 0 then none else some (s.wrWord (controlPage + 0x48) v))

/-- The launch mailbox's receiver descriptor (R337): its slots are of 256 bytes. -/
def State.launchBox (s : State) : Except TrapRec Box :=
  match s.box ⟨false, noLaunch, 0⟩ (nth s.ctl 6 0) 2 with
  | .ok b => if b.z = 256 then .ok b else .error ⟨cFORMAT, b.a⟩
  | .error e => .error e

/-- A message taken from the launch mailbox by firmware as MBRECV takes it (R334, R337): on the bridge the slot held before
is released by a write of TAIL to the host. -/
def State.takeLaunchMail (s : State) (b : Box) : State :=
  if s.bridge then
    let s := if b.f 1 ≠ 0 then s.hostWrite s.host.hosttail (bytesOf 8 (b.f 1).toNat) else s
    (s.putBox b 1 (b.f 0 + 1)).putBox b 0 (b.f 0 + 1)
  else s.takeMail 0 b []

/-- The stage table that the words of a block name, read as system code reads it (R234); empty where none is read
(DESIGN CHOICE, log 22). -/
def State.stageTable (s : State) (ws : List Word) : Except TrapRec (List Word) :=
  let a := nth ws 4 0
  if bits (nth ws 0 0) 3 0 = 2 ∧ a.toNat % 64 = 0 then
    if bits a 63 56 ≠ 0 then .error ⟨cPERMISSION, a⟩
    else
      match s.checkWords ⟨false, noLaunch, 0⟩ a 72 with
      | .error e => .error e
      | .ok ls => .ok (s.wordsAt ls)
  else .ok []

/-- The next message of the launch mailbox (R337): the descriptor, its sequence word, the places of the block's words and of
word 16; none where nothing is in place or the slot is not mapped. -/
def State.launchMail (s : State) : Option (Box × Word × List Loc × Loc) :=
  match s.launchBox with
  | .error _ => none
  | .ok b =>
    let w : Who := ⟨false, noLaunch, 0⟩
    let k := (b.f 0).toNat % b.slots
    let a := b.f 2 + word (k * b.z)
    match s.seqWord w b k, s.checkWords w a 16, s.locate' w .store (a + 128) 8 with
    | .ok q, .ok ls, .ok l16 => if inPlace q (b.f 0).toNat then some (b, q, ls, l16) else none
    | _, _, _ => none

/-- The bytes of the stage table that the words of a block name, where it is mapped. -/
def State.tableKeys (s : State) (ws : List Word) : List Nat :=
  if bits (nth ws 0 0) 3 0 ≠ 2 then []
  else
    match s.checkWords ⟨false, noLaunch, 0⟩ (nth ws 4 0) 72 with
    | .ok ls => ls.map (fun l => l.key)
    | .error _ => []

/-- The places of a slot of firmware's own launch area, where it is mapped. -/
def State.areaPlaces (s : State) (k : Nat) : List Loc :=
  match s.checkWords ⟨false, noLaunch, 0⟩ (s.mgmt.launchArea + word (256 * k)) 16 with
  | .ok ls => ls
  | .error _ => []

/-- A block copied into firmware's own launch area, slot by slot as the mailbox has them, and submitted there as LAUNCH does;
then word 16 is copied back into the slot (R234, R337). Where the area is not mapped nothing is submitted
(DESIGN CHOICE, log 22, 50). -/
def State.submitMail (s : State) (k : Nat) (ws : List Word) (l16 : Loc) : State :=
  let w : Who := ⟨false, noLaunch, 0⟩
  let area := s.mgmt.launchArea + word (256 * k)
  match s.checkWords w area 16, s.locate' w .store (area + 128) 8, s.stageTable ws with
  | .ok ls, .ok r16, .ok table =>
    let s := (ls.zip ws).foldl (fun (s : State) e => s.writeAt e.1 (bytesOf 8 e.2.toNat) (e.1.home % 4096)) s
    let x := s.submitted ws area table
    (s.submit 0 0 ws area false table (some r16)).writeAt l16 (bytesOf 8 x.toNat) (l16.home % 4096)
  | _, _, _ => s

/-- LAUNCH_MAILBOX_TAKE (R337): firmware takes the next message and submits its block, or, on a bridge, forwards it to the
launch mailbox of another device of the group. In START-UP messages are held (R367). -/
def execLaunchMailboxTake (s : State) : Out :=
  partStep (if s.mode ≠ .service ∨ s.mgmt.power ≠ 0 then none
    else
      match s.launchMail with
      | none => none
      | some (b, q, ls, l16) =>
        let ws := s.wordsAt ls
        let w : Who := ⟨false, noLaunch, 0⟩
        let k := (b.f 0).toNat % b.slots
        let taken := s.takeLaunchMail b
        let reads := s.seqKey w b k ++ ls.map (fun l => l.key)
        if bitAt q 63 then s.atLines reads [b.loc] (some taken)
        else
          match (if s.bridge then Config.forwardTo ws else none) with
          | none => s.atLines (reads ++ s.tableKeys ws) ([b.loc, l16] ++ s.areaPlaces k) (some (taken.submitMail k ws l16))
          | some a =>
            match s.box w a 1 with
            | .error _ => s.atLines reads [b.loc] (some taken)
            | .ok f =>
              if f.free = 0 then none
              else s.atLines reads [b.loc, f.loc] (some (taken.sendMail 0 0 f (ws.flatMap (fun w => bytesOf 8 w.toNat)))))

/-- MANAGEMENT_LAUNCH_SUBMISSION (R367, R375): the block at an address, submitted as LAUNCH does; in START-UP one of
firmware's own. In deterministic mode in TEST it begins a replay (DESIGN CHOICE, log 22). -/
def execManagementLaunchSubmission (addr : Word) (s : State) : Out :=
  partStep (if s.mode = .recovery ∨ s.mgmt.power ≠ 0 ∨ addr.toNat % 8 ≠ 0 ∨ bits addr 63 56 ≠ 0 then none
    else
      let w : Who := ⟨false, noLaunch, 0⟩
      match s.checkWords w addr 16, s.locate' w .store (addr + 128) 8 with
      | .ok ls, .ok l16 =>
        let ws := s.wordsAt ls
        if (ls.map (fun l => l.key) ++ s.tableKeys ws).any s.lineHeld then none
        else
        match s.stageTable ws with
        | .error _ => some s
        | .ok table =>
          let s := if s.mode = .test ∧ s.mgmt.det then { s with mgmt := { s.mgmt with replayAt := some (s.mgmt.replayAt.getD 0) } } else s
          some (((s.recordCommand .launch [addr]).submit 0 0 ws addr false table (some l16)).modLaunch s.launchNumber
            (fun l => { l with managed := true }))
      | _, _ => some s)

/-- The physical address of the leaf entry that translates a virtual address, from the table at base (R359). -/
def State.leafKey (s : State) (base : Nat) (idx : List Nat) : Option Nat :=
  match idx with
  | [] => none
  | i :: rest =>
    let e := s.rdWord (base + 8 * i)
    if ¬ bitAt e 63 then none
    else if bitAt e 59 then some (base + 8 * i)
    else s.leafKey (bits e 39 13 * 2 ^ 13) rest

/-- An entry of a migration ring: the four words of a request (R340). -/
def State.request (s : State) (k : Nat) : List Word := (List.range 4).map (fun i => s.rdWord (k + 8 * i))

/-- The ring that the engine serves next, true for the host's: each in turn, beginning with the device's (R340). -/
def State.nextRing (s : State) : Option Bool :=
  let dev := decide (nth s.ctl 10 0 ≠ nth s.ctl 9 0)
  let host := decide (s.host.mtail ≠ s.host.mhead)
  if dev && host then some s.host.hostNext else if dev then some false else if host then some true else none

/-- Where the next request of a ring stands. -/
def State.ringKey (s : State) (host : Bool) : Nat :=
  if host then bits (nth s.ctl 7 0) 39 26 * 2 ^ 26 + 0x3F00000 + 32 * (s.host.mtail.toNat % 32768)
  else
    let r := nth s.ctl 8 0
    bits r 39 5 * 32 + 32 * ((nth s.ctl 10 0).toNat % (bits r 63 52 + 1))

/-- A request of a ring has been performed: its tail moves on, and the host ring's is written to MHOST (R340)
(DESIGN CHOICE, log 46). -/
def State.endRequest (s : State) (host notify : Bool) : State :=
  let s := if host then { s with host := { s.host with mtail := word ((s.host.mtail.toNat + 1) % 32768), hostNext := false } }
    else { s with ctl := modify s.ctl 10 (fun x => x + 1), host := { s.host with hostNext := true } }
  if host || notify then s.hostWrite s.host.mhost (bytesOf 8 s.host.mtail.toNat) else s

/-- The 64 KiB of a page as bytes at offsets; an offset that is not listed holds 0. -/
def pageBytes (page : List (Nat × Byte)) : List Byte :=
  (List.range 65536).map (fun o => ((page.find? (fun e => decide (e.1 = o))).map (fun e => e.2)).getD 0)

/-- The page's owner bit in its entry (R340, R341). -/
def State.setOwner (s : State) (key : Nat) (device : Bool) : State :=
  s.wrWord key (setBits (s.rdWord key) 55 55 (if device then 1 else 0))

/-- Is an access, or an instruction that waits at a home, of a page that an entry translates not yet performed (R341): the
page begins at va, in 64 KiB at pa. -/
def State.pageInUse (s : State) (va pa : Nat) (big : Bool) : Bool :=
  let on := fun (a : Word) => decide (bits a 63 56 = 0) && mapsPage big va a.toNat
  s.accs.any (fun a => a.vas.any on || (match a.op with
    | .replica _ _ (some (k, n)) _ _ => overlap pa 65536 k n
    | _ => false)) ||
  s.waiters.any (fun w => on w.loc.va)

/-- One request of the migration engine (R341). A page given to the host is first taken from the device: its entry names
the host, every TLB is invalidated, and the rest follows once every access made under the old entry has been performed
(DESIGN CHOICE, log 46). -/
def State.migrate (s : State) (host : Bool) (page : List (Nat × Byte)) : State :=
  let r := s.request (s.ringKey host)
  let va := nth r 0 0
  let key := s.leafKey (bits s.roots.1 39 13 * 2 ^ 13) (pageIndexes va.toNat)
  match s.walk va.toNat, key with
  | .leaf e big, some key =>
    if leafKind e ≠ 4 ∨ va.toNat % 65536 ≠ 0 ∨ bits va 63 56 ≠ 0 then s.endRequest host false
    else
      let pa := leafPA e big va.toNat
      if (nth r 2 0).toNat = 0 then
        let s := ((s.wrBytes pa (pageBytes page)).clearPoison pa 65536).setOwner key true
        let s := match s.locate ⟨false, noLaunch, 0⟩ .atomic (nth r 3 0) 8 with
          | .ok l => if host then s else s.addAt l 1 (l.home % 4096)
          | .error _ => s
        s.endRequest host false
      else
        let s := { s.setOwner key false with tlbs := [], stale := [], dropped := s.dropped + 1 }
        if s.pageInUse va.toNat pa big then { s with host := { s.host with hostNext := host } }
        else (s.hostWrite (nth r 1 0) (s.rdBytes pa 65536)).endRequest host true
  | _, _ => s.endRequest host false

/-- Has the migration engine something to do now: a request, but one that waits for accesses under the old entry (R341). -/
def State.migrationDue (s : State) : Bool :=
  s.hostOpen && s.nextRing.any (fun host =>
    let r := s.request (s.ringKey host)
    match s.walk (nth r 0 0).toNat with
    | .leaf e big =>
      decide ((nth r 2 0).toNat = 0) || leafOwn e || ! s.pageInUse (nth r 0 0).toNat (leafPA e big (nth r 0 0).toNat) big
    | _ => true)

/-- MIGRATION_REQUEST (R340, R341): the next request of the engine, with what the host's page holds. -/
def execMigrationRequest (page : List (Nat × Byte)) (s : State) : Out :=
  partStep (if ¬ s.hostOpen then none else s.nextRing.map (fun h => s.migrate h page))

/-- The host is interrupted by an MSI-X vector: a write of its message, or a pending bit where it is masked (R338, R376)
(DESIGN CHOICE, log 48). -/
def State.interruptHost (s : State) (v : Nat) : State :=
  let c := nth s.host.msix (2 * v + 1) 0
  if bitAt c 32 then { s with host := { s.host with pba := setBits s.host.pba v v 1 } }
  else s.hostWrite (nth s.host.msix (2 * v) 0) (bytesOf 4 (bits c 31 0))

/-- The threads that a summary counts as pending traps, by code (R376): TRAPPED ones and queued asynchronous traps
(DESIGN CHOICE, log 47). -/
def State.pendingTraps (s : State) (code : Nat) : Nat :=
  total (s.live.map (fun e =>
    (e.2.traps.filter (fun r => r.code = code)).length +
    (if e.2.state = .trapped ∧ bits e.2.csr.tcause 7 0 = code then 1 else 0)))

/-- Words as bytes, the least significant first (R6). -/
def wordsBytes (ws : List Word) : List Byte := ws.flatMap (fun w => bytesOf 8 w.toNat)

/-- Bytes as words, the last filled with zeros. -/
def bytesWords (bs : List Byte) : List Word :=
  (List.range ((bs.length + 7) / 8)).map (fun i => word (ofBytes ((bs.drop (8 * i)).take 8)))

/-- The replicas of valid entries, as a summary lists its objects (R376). -/
def State.summaryObjects (s : State) : List Elem :=
  (s.replicas.filter (fun e => e.2.valid)).filterMap (fun e => s.replicaOn (e.1 / 8) (e.1 % 8))

/-- An object of a summary: SOT index and VIEW, LIVE, REJOINING, and the least F (R376). -/
def State.summaryObject (s : State) (e : Elem) : List Byte :=
  let least := ((List.range e.o.n).map (fun c => (s.vword (e.front c)).toNat)).foldl min (2 ^ 64 - 1)
  wordsBytes [word (e.o.x + bits (s.vword e.view) 31 0 * 2 ^ 32), s.replicaStatus e 1, s.replicaStatus e 2, word least]

/-- A launch of a summary: word 16, then the queue and the count of live threads (R376). -/
def State.summaryLaunch (s : State) (n : Nat) (l : Launch) : List Byte :=
  wordsBytes [word16 n (if l.running then 1 else 0) 0, word (l.queue + (s.threadsOf n).length * 2 ^ 32)]

/-- Section k of a summary as it is read at its home, after the header (R376). -/
def State.summarySection (s : State) (k : Nat) : List Byte :=
  let size := bits s.mgmt.elbase 15 0 + 1
  let entries := (List.range (min 32 (min size s.mgmt.elTotal))).flatMap (fun i =>
    s.rdBytes (s.elEntry ((s.mgmt.elIndex + size - 1 - i) % size)) 32)
  let occ := fun (d : Nat) (e : Nat) => total ((s.cores.filter (fun q => decide (dieOf q.1 = d))).map (fun q =>
    (if e = 0 then q.2.eng0 else q.2.eng1).length))
  match k with
  | 0 => wordsBytes ((List.range 16).map (fun q => s.queueWord q))
  | 1 => fit 1024 0 ((s.launches.take 64).flatMap (fun e => s.summaryLaunch e.1 e.2))
  | 2 => (List.range 24).flatMap (fun c => bytesOf 4 (s.pendingTraps c))
  | 3 => wordsBytes ((List.range 8).map (fun d => word (occ d 0 % 2 ^ 32 + occ d 1 * 2 ^ 32)))
  | 4 => fit 1536 0 ((s.summaryObjects.take 48).flatMap s.summaryObject)
  | 5 => wordsBytes ((List.range 16).map (fun l =>
      let q := nth s.links l {}
      word ((if q.up then 1 else 0) + (if q.exhausted then 2 else 0) + q.retries % 2 ^ 16 * 2 ^ 16 + Config.peer l % 4096 * 2 ^ 32)))
  | 6 => wordsBytes [word s.mgmt.elIndex, word s.mgmt.elTotal, 0, 0]
  | _ => fit 1024 0 entries

/-- The header of a summary that ends now (R376). -/
def State.summaryHeader (s : State) : List Byte :=
  wordsBytes [1, word s.mgmt.devno,
    word (s.modeCode + s.mgmt.pstate.toNat * 2 ^ 8 + s.security * 2 ^ 16 + (if s.mgmt.det then 1 else 0) * 2 ^ 24 +
      (if s.mgmt.reclost then 1 else 0) * 2 ^ 25),
    s.host.sumStart, s.time, word s.host.sumTrunc, 0, 0]

/-- The host is interrupted by the end of a summary, on the bridge, which has the host. -/
def State.announceSummary (s : State) : State := if s.bridge then s.interruptHost 0 else s

/-- A summary in progress goes on (R376): it begins once the residents it pre-empts have left, reads one section at a time,
each at its own home, and is written when it has them all (DESIGN CHOICE, log 47). -/
def State.finishSummary (s : State) : State :=
  let v := s.host.summary
  let k := s.host.sumPart.length
  let quiet := ! bitAt v 1 || decide (k > 0) || s.live.all (fun e => e.2.place.isNone || decide (e.2.kind = Kind.handler))
  if ¬ bitAt v 2 ∨ ¬ quiet then s
  else if k < 8 then
    let cut := if k = 1 ∧ s.launches.length > 64 then 1 else if k = 4 ∧ s.summaryObjects.length > 48 then 2 else 0
    { s with host := { s.host with sumPart := s.host.sumPart ++ [s.summarySection k], sumTrunc := s.host.sumTrunc + cut } }
  else
    let bytes := s.summaryHeader ++ s.host.sumPart.flatten
    let s := if s.host.sumHost then s.hostWrite (word (bits v 63 12 * 4096)) bytes else s.modMgmt (fun m => { m with buffer := bytes })
    ({ s with host := { s.host with summary := setBits v 2 2 0, sumPart := [], sumTrunc := 0 } } : State).announceSummary

/-- A summary started (R376), with QUIET and the address given. -/
def State.startSummary (s : State) (v : Word) (host : Bool) : State :=
  let kept := word (bits v 63 12 * 4096 + bits v 1 1 * 2)
  if ¬ bitAt v 0 then { s with host := { s.host with summary := kept } }
  else
    let s := { s with host := { s.host with
      summary := setBits kept 2 2 1, sumStart := s.time, sumHost := host, sumPart := [], sumTrunc := 0 } }
    if bitAt v 1 then s.preemptAll else s

/-- A write of SUMMARY, or the management command that is equivalent, which any device takes and whose record goes to a
buffer of the controller (R376): GO starts a summary, and a write while BUSY is ignored. -/
def State.takeSummary (s : State) (host : Bool) (v : Word) : Out :=
  partStep (if s.mgmt.power ≠ 0 ∨ (host ∧ ¬ s.bridge) then none
    else
      let s := if host then s.recordBar0 0x20 v else s.recordCommand .summary [v]
      some (if bitAt s.host.summary 2 then s else s.startSummary v host))

/-- SUMMARY (R376). -/
def execSummary (v : Word) (s : State) : Out := s.takeSummary true v

/-- An 8-byte write of BAR0 (R338) (DESIGN CHOICE, log 48). -/
def State.bar0Write (s : State) (r : HostReg) (v : Word) : State :=
  match r with
  | .hosttail => { s with host := { s.host with hosttail := v } }.recordBar0 0x08 v
  | .mhost => { s with host := { s.host with mhost := v } }.recordBar0 0x18 v
  | .ldoor => { s with host := { s.host with lhead := v } }.recordBar0 0x00 v
  | .lmslots => s.recordBar0 0x28 v
  | .msixTable i =>
    let s := { s with host := { s.host with msix := modify s.host.msix i (fun _ => v) } }.recordBar0 (0x100 + 8 * i) v
    if bitAt s.host.pba (i / 2) ∧ ¬ bitAt (nth s.host.msix (2 * (i / 2) + 1) 0) 32 then
      { s with host := { s.host with pba := setBits s.host.pba (i / 2) (i / 2) 0 } }.interruptHost (i / 2)
    else s
  | .msixPba => s.recordBar0 0x500 v
  | .bar0Other off => s.recordBar0 off v
  | _ => s

/-- Bytes written by the host through BAR2 (R338): those of the part reserved for firmware are ignored. -/
def State.bar2Put (s : State) (off : Nat) (bs : List Byte) : State :=
  let base := bits (nth s.ctl 7 0) 39 26 * 2 ^ 26
  let s := if off < 0x2008000 then s.physWrite (base + off) (bs.take (0x2008000 - off)) else s
  let skip := 0x3F00000 - off
  if skip < bs.length then s.physWrite (base + off + skip) (bs.drop skip) else s

/-- Is a line of n bytes from a byte key held by a directory-overflow handler (R185). -/
def State.rangeHeld (s : State) (k n : Nat) : Bool := s.heldLines.any (fun m => decide (k / 128 ≤ m ∧ 128 * m < k + n))

/-- A write of any length through BAR2 (R338), recorded with its bytes (R374, R382). -/
def State.bar2Write (s : State) (off : Nat) (bs : List Byte) : Option State :=
  if ¬ s.hostOpen ∨ bs = [] ∨ off + bs.length > 0x4000000 ∨
      s.rangeHeld (bits (nth s.ctl 7 0) 39 26 * 2 ^ 26 + off) bs.length then none
  else
    some (((List.range ((bs.length + 8167) / 8168)).foldl (fun (s : State) i =>
      let part := (bs.drop (8168 * i)).take 8168
      let ws := bytesWords part
      s.record unitDevice 3 (word (off + 8168 * i + part.length * 2 ^ 32)) (nth ws 0 0) (ws.drop 1)) s).bar2Put off bs)

/-- What a read of the register at a BAR0 offset gives (R338) (DESIGN CHOICE, log 48). -/
def State.bar0Word (s : State) (off : Nat) : Word :=
  if off = 0 then s.host.lhead
  else if off = 8 then s.host.hosttail
  else if off = 0x10 then s.host.mhead
  else if off = 0x18 then s.host.mhost
  else if off = 0x20 then s.host.summary
  else if off = 0x28 then (match s.launchBox with
    | .ok b => word b.slots
    | .error _ => 0)
  else if 0x100 ≤ off ∧ off < 0x500 then nth s.host.msix ((off - 0x100) / 8) 0
  else if off = 0x500 then s.host.pba
  else 0

/-- A read of n bytes by the host, of BAR0 or of BAR2 (R338). -/
def State.hostRead (s : State) (bar2 : Bool) (off n : Nat) : Out :=
  let base := bits (nth s.ctl 7 0) 39 26 * 2 ^ 26
  let bytes := if bar2 then s.rdBytes (base + off) n
    else (List.range n).map (fun i => BitVec.ofNat 8 ((s.bar0Word ((off + i) / 8 * 8)).toNat / 2 ^ (8 * ((off + i) % 8))))
  partStep (if ¬ s.hostOpen ∨ off + n > (if bar2 then 0x4000000 else 0x10000) ∨ (bar2 ∧ s.rangeHeld (base + off) n) then none
    else some { s with host := { s.host with reads := s.host.reads ++ [bytes] } })

/-- A write of bytes by the host through BAR2 (R338). -/
def State.hostWrite2 (s : State) (off : Nat) (bs : List Byte) : Out := partStep (s.bar2Write off bs)

/-- SPDM over DOE on the bridge, while the root of trust has power (R339) (PRESUMED, log 49). -/
def State.spdm (s : State) (a : Answer) : Option State :=
  if ¬ s.bridge ∨ s.mgmt.power = 3 then none else some { s with host := { s.host with answers := s.host.answers ++ [a] } }

/-- A message whose contents SPDM itself defines: free bytes, their number free. -/
def State.spdmMessage (s : State) : Answer := .message (Config.freeBytes s.freeN (Config.free s.freeN))

/-- May the key that signs reports be used (R373). -/
def State.signs (s : State) : Bool :=
  decide (s.mode ≠ .recovery ∧ s.mgmt.secst ≠ 3 ∧ s.mgmt.power ≠ 3)

/-- The key that signs reports (R370): the alias key, in DEBUG-FULL the debug alias key. -/
def State.reportKey (s : State) : List Byte :=
  if s.mgmt.secst = 2 then s.mgmt.debugKey else if s.mgmt.power = 2 then s.mgmt.identityKey else s.mgmt.aliasKey

/-- The signed text of an attestation report (R371): the device's numbers, every measurement, the nonce, the DEBUG flag
(PRESUMED, log 49). -/
def State.reportText (s : State) (nonce : List Byte) : List Byte :=
  wordsBytes [word s.mgmt.devno, word s.security, word s.modeCode, if s.security = 1 ∨ s.security = 2 then 1 else 0] ++
    s.mgmt.measurements.flatten ++ nonce

/-- The signature of the device's report, with the key in force (R370, R373). -/
def State.reportSign (s : State) (nonce : List Byte) : List Byte := Config.sign s.reportKey (s.reportText nonce) s.freeN

/-- The device's own report (R371), refused while its key may not be used (R373). -/
def State.attest (s : State) (nonce : List Byte) : Answer :=
  if ¬ s.signs then .refused
  else .report s.mgmt.devno s.security s.mode s.mgmt.measurements nonce (decide (s.security = 1 ∨ s.security = 2))
    (s.reportSign nonce)

/-- The descriptor over which the report of a device is relayed (R339), with its kind. -/
def State.relayBox (s : State) (dev kind : Nat) : Option Box :=
  let w : Who := ⟨false, noLaunch, 0⟩
  match look s.mgmt.relay dev with
  | none => none
  | some a =>
    match s.box w a kind with
    | .ok b => if s.boxHeld w a then none else some b
    | .error _ => none

/-- The report of a device that is no bridge, sent to its bridge as one mailbox message (R339, R333); a message of zeros where
it refuses. It waits for room, and no report leaves where none fits (PRESUMED, log 49). -/
def State.mailReportOut (s : State) (nonce : List Byte) : Option State :=
  match s.relayBox s.mgmt.devno 1 with
  | none => none
  | some b =>
    let bytes := if s.signs then s.reportText nonce ++ s.reportSign nonce else []
    if b.free = 0 ∨ b.z < bytes.length then none else some (s.sendMail 0 0 b (fit b.z 0 bytes))

/-- The next message of another device's relay mailbox, taken by the bridge as MBRECV takes it and returned over DOE (R339,
R334); a lost message, or one of zeros, is a refusal (PRESUMED, log 49). -/
def State.relayReport (s : State) (dev : Nat) : Option State :=
  let w : Who := ⟨false, noLaunch, 0⟩
  match s.relayBox dev 2 with
  | none => none
  | some b =>
    let k := (b.f 0).toNat % b.slots
    match s.seqWord w b k, s.locateBytes w .load (b.f 2 + word (k * b.z)) b.z with
    | .ok q, .ok ls =>
      if ¬ inPlace q (b.f 0).toNat ∨ (s.seqKey w b k).any s.lineHeld ∨ ls.any (fun l => s.lineHeld l.key) then none
      else
        let (bytes, bad) := s.messageBytes ls
        let a := if bitAt q 63 ∨ bad.isSome ∨ bytes.all (fun x => x == 0) then Answer.refused else .relayed dev bytes
        (s.takeMail 0 b []).spdm a
    | _, _ => none

/-- A request for the report of a device answered (R339, R371, R373): by the bridge over DOE for itself, by another device
through its bridge, which relays the message that carries it. -/
def State.respond (s : State) (dev : Nat) (nonce : List Byte) : Option State :=
  if dev ≠ s.mgmt.devno then s.relayReport dev
  else if s.bridge then s.spdm (s.attest nonce)
  else if s.mgmt.power = 3 then none
  else s.mailReportOut nonce

/-- GET_VERSION (R339). -/
def execGetVersion (s : State) : Out := partStep (s.spdm s.spdmMessage)

/-- GET_CAPABILITIES (R339). -/
def execGetCapabilities (s : State) : Out := partStep (s.spdm s.spdmMessage)

/-- NEGOTIATE_ALGORITHMS (R339): one signing algorithm is offered; the rest of the message is free. -/
def execNegotiateAlgorithms (s : State) : Out :=
  partStep (s.spdm (.algorithms [.ecdsaBrainpoolP384r1Sha384] (Config.freeBytes s.freeN (Config.free s.freeN))))

/-- GET_DIGESTS (R339). -/
def execGetDigests (s : State) : Out := partStep (s.spdm s.spdmMessage)

/-- GET_CERTIFICATE (R339). -/
def execGetCertificate (s : State) : Out := partStep (s.spdm s.spdmMessage)

/-- CHALLENGE (R339, R371): refused while the signing key may not be used. -/
def execChallenge (r : ReportRequest) (s : State) : Out := partStep (s.respond r.device r.nonce)

/-- GET_MEASUREMENTS (R371). -/
def execGetMeasurements (r : ReportRequest) (s : State) : Out := partStep (s.respond r.device r.nonce)

/-- SESSION_ESTABLISHMENT: refused with UnsupportedRequest (R339). -/
def execSessionEstablishment (s : State) : Out := partStep (s.spdm .unsupported)

end Sys2Proof.Machine
end

