-- ==== Sys2Proof/Machine/Crypto.lean ====
section
/-! DEFINITION. The root of trust's checks (R370, R372): SHA-384 and ECDSA over the curve brainpoolP384r1, which FIPS 180-4,
FIPS 186 and RFC 5639 define (PRESUMED, log 49). A public key is its two coordinates and a signature its r and s, each a
number of 48 bytes, most significant first (PRESUMED, log 49). -/
namespace Sys2Proof.Machine

/-- The number that bytes hold, most significant first. -/
def bigNum (bs : List Byte) : Nat := bs.foldl (fun acc b => acc * 256 + b.toNat) 0

/-- n bytes of a number, most significant first. -/
def bigBytes (n x : Nat) : List Byte := (List.range n).map (fun i => BitVec.ofNat 8 (x / 256 ^ (n - 1 - i)))

/-- The eighty round constants of SHA-384. -/
def shaRounds : List Word :=
  [0x428a2f98d728ae22, 0x7137449123ef65cd, 0xb5c0fbcfec4d3b2f, 0xe9b5dba58189dbbc, 0x3956c25bf348b538,
   0x59f111f1b605d019, 0x923f82a4af194f9b, 0xab1c5ed5da6d8118, 0xd807aa98a3030242, 0x12835b0145706fbe,
   0x243185be4ee4b28c, 0x550c7dc3d5ffb4e2, 0x72be5d74f27b896f, 0x80deb1fe3b1696b1, 0x9bdc06a725c71235,
   0xc19bf174cf692694, 0xe49b69c19ef14ad2, 0xefbe4786384f25e3, 0x0fc19dc68b8cd5b5, 0x240ca1cc77ac9c65] ++
  [0x2de92c6f592b0275, 0x4a7484aa6ea6e483, 0x5cb0a9dcbd41fbd4, 0x76f988da831153b5, 0x983e5152ee66dfab,
   0xa831c66d2db43210, 0xb00327c898fb213f, 0xbf597fc7beef0ee4, 0xc6e00bf33da88fc2, 0xd5a79147930aa725,
   0x06ca6351e003826f, 0x142929670a0e6e70, 0x27b70a8546d22ffc, 0x2e1b21385c26c926, 0x4d2c6dfc5ac42aed,
   0x53380d139d95b3df, 0x650a73548baf63de, 0x766a0abb3c77b2a8, 0x81c2c92e47edaee6, 0x92722c851482353b] ++
  [0xa2bfe8a14cf10364, 0xa81a664bbc423001, 0xc24b8b70d0f89791, 0xc76c51a30654be30, 0xd192e819d6ef5218,
   0xd69906245565a910, 0xf40e35855771202a, 0x106aa07032bbd1b8, 0x19a4c116b8d2d0c8, 0x1e376c085141ab53,
   0x2748774cdf8eeb99, 0x34b0bcb5e19b48a8, 0x391c0cb3c5c95a63, 0x4ed8aa4ae3418acb, 0x5b9cca4f7763e373,
   0x682e6ff3d6b2b8a3, 0x748f82ee5defb2fc, 0x78a5636f43172f60, 0x84c87814a1f0ab72, 0x8cc702081a6439ec] ++
  [0x90befffa23631e28, 0xa4506cebde82bde9, 0xbef9a3f7b2c67915, 0xc67178f2e372532b, 0xca273eceea26619c,
   0xd186b8c721c0c207, 0xeada7dd6cde0eb1e, 0xf57d4f7fee6ed178, 0x06f067aa72176fba, 0x0a637dc5a2c898a6,
   0x113f9804bef90dae, 0x1b710b35131c471b, 0x28db77f523047d84, 0x32caab7b40c72493, 0x3c9ebe0a15c9bebc,
   0x431d67c49c100d4c, 0x4cc5d4becb3e42b6, 0x597f299cfc657e2a, 0x5fcb6fab3ad6faec, 0x6c44198c4a475817]

/-- Its initial hash value. -/
def shaStart : List Word :=
  [0xcbbb9d5dc1059ed8, 0x629a292a367cd507, 0x9159015a3070dd17, 0x152fecd8f70e5939, 0x67332667ffc00b31,
   0x8eb44a8768581511, 0xdb0c2e0d64f98fa7, 0x47b5481dbefa4fa4]

/-- The message padded to whole blocks of 128 bytes. -/
def shaPad (m : List Byte) : List Byte :=
  m ++ [0x80#8] ++ List.replicate ((239 - m.length % 128) % 128) 0 ++ bigBytes 16 (8 * m.length)

/-- n more words of a block's schedule before those in hand, the latest first. -/
def shaExpand (n : Nat) (w : List Word) : List Word :=
  match n with
  | 0 => w
  | k + 1 =>
    let at' := fun i => w.getD i 0
    let s0 := fun (x : Word) => x.rotateRight 1 ^^^ x.rotateRight 8 ^^^ (x >>> 7)
    let s1 := fun (x : Word) => x.rotateRight 19 ^^^ x.rotateRight 61 ^^^ (x >>> 6)
    shaExpand k ((s1 (at' 1) + at' 6 + s0 (at' 14) + at' 15) :: w)

/-- One round with its constant and its word of the schedule. -/
def shaRound (v : List Word) (k w : Word) : List Word :=
  match v with
  | [a, b, c, d, e, f, g, h] =>
    let t1 := h + (e.rotateRight 14 ^^^ e.rotateRight 18 ^^^ e.rotateRight 41) + ((e &&& f) ^^^ (~~~e &&& g)) + k + w
    let t2 := (a.rotateRight 28 ^^^ a.rotateRight 34 ^^^ a.rotateRight 39) + ((a &&& b) ^^^ (a &&& c) ^^^ (b &&& c))
    [t1 + t2, a, b, c, d + t1, e, f, g]
  | v => v

/-- One block of 128 bytes. -/
def shaBlock (v : List Word) (b : List Byte) : List Word :=
  let w := (List.range 16).map (fun i => BitVec.ofNat 64 (bigNum ((b.drop (8 * i)).take 8)))
  let x := (shaRounds.zip (shaExpand 64 w.reverse).reverse).foldl (fun v e => shaRound v e.1 e.2) v
  (v.zip x).map (fun e => e.1 + e.2)

/-- SHA-384 of a message. -/
def sha384 (m : List Byte) : List Byte :=
  let p := shaPad m
  let v := (List.range (p.length / 128)).foldl (fun v i => shaBlock v ((p.drop (128 * i)).take 128)) shaStart
  (v.take 6).flatMap (fun w => bigBytes 8 w.toNat)

/-- brainpoolP384r1: the field, the two coefficients, the base point and its order. -/
def curveP : Nat := 0x8CB91E82A3386D280F5D6F7E50E641DF152F7109ED5456B412B1DA197FB71123ACD3A729901D1A71874700133107EC53
def curveA : Nat := 0x7BC382C63D8C150C3C72080ACE05AFA0C2BEA28E4FB22787139165EFBA91F90F8AA5814A503AD4EB04A8C7DD22CE2826
def curveB : Nat := 0x04A8C7DD22CE28268B39B55416F0447C2FB77DE107DCD2A62E880EA53EEB62D57CB4390295DBC9943AB78696FA504C11
def curveX : Nat := 0x1D1C64F068CF45FFA2A63A81B7C13F6B8847A3E77EF14FE3DB7FCAFE0CBD10E8E826E03436D646AAEF87B2E247D4AF1E
def curveY : Nat := 0x8ABE1D7520F9C2A45CB1EB8E95CFD55262B70B29FEEC5864E19C054FF99129280E4646217791811142820341263C5315
def curveN : Nat := 0x8CB91E82A3386D280F5D6F7E50E641DF152F7109ED5456B31F166E6CAC0425A7CF3AB6AF6B7FC3103B883202E9046565

/-- b to the power e modulo m, over the n low bits of e. -/
def powMod (m b e n : Nat) : Nat :=
  match n with
  | 0 => 1
  | k + 1 =>
    let h := powMod m (b * b % m) (e / 2) k
    if e % 2 = 1 then b * h % m else h

/-- The inverse modulo a prime below 2^384. -/
def invMod (m x : Nat) : Nat := powMod m (x % m) (m - 2) 384

/-- x - y in the field. -/
def subMod (x y : Nat) : Nat := (x + (curveP - y % curveP)) % curveP

/-- Is a pair of coordinates a point of the curve. -/
def onCurve (p : Nat × Nat) : Bool :=
  decide (p.1 < curveP ∧ p.2 < curveP ∧ p.2 * p.2 % curveP = (p.1 * p.1 * p.1 + curveA * p.1 + curveB) % curveP)

/-- The sum of two points; none is the point at infinity. -/
def curveAdd (p q : Option (Nat × Nat)) : Option (Nat × Nat) :=
  match p, q with
  | none, q => q
  | p, none => p
  | some (x1, y1), some (x2, y2) =>
    if x1 = x2 ∧ (y1 + y2) % curveP = 0 then none
    else
      let m := if x1 = x2 then (3 * x1 * x1 + curveA) * invMod curveP (2 * y1) % curveP
        else subMod y2 y1 * invMod curveP (subMod x2 x1) % curveP
      let x3 := subMod (m * m) (x1 + x2)
      some (x3, subMod (m * subMod x1 x3) y1)

/-- The multiple of a point by the n low bits of k. -/
def curveMul (k : Nat) (p : Option (Nat × Nat)) (n : Nat) : Option (Nat × Nat) :=
  match n with
  | 0 => none
  | m + 1 =>
    let h := curveMul (k / 2) (curveAdd p p) m
    if k % 2 = 1 then curveAdd p h else h

/-- ECDSA over brainpoolP384r1 with SHA-384: does a signature of a message verify under a public key (R339, R370). -/
def ecdsaVerifies (key msg sig : List Byte) : Bool :=
  let q := (bigNum (key.take 48), bigNum (key.drop 48))
  let r := bigNum (sig.take 48)
  let s := bigNum (sig.drop 48)
  decide (key.length = 96 ∧ sig.length = 96 ∧ 0 < r ∧ r < curveN ∧ 0 < s ∧ s < curveN) && onCurve q &&
  (let w := invMod curveN s
   match curveAdd (curveMul (bigNum (sha384 msg) * w % curveN) (some (curveX, curveY)) 384) (curveMul (r * w % curveN) (some q) 384) with
   | none => false
   | some p => decide (p.1 % curveN = r))

/-- Signed by the key whose hash the fuses hold (R370): the key that comes with the signature has that hash, and the signature
verifies under it. -/
def signedByFuses (hash key msg sig : List Byte) : Bool := ecdsaVerifies key msg sig && decide (sha384 key = hash)

end Sys2Proof.Machine
end

