-- ==== Sys2Proof/Machine/Record.lean ====
section
/-! DEFINITION. The machine record (R380): what it holds of the state that does not live in HBM, as words in the order of its
sections, and the reading of it. R380 gives the contents and their order; the words within a section, with the count of each
list before it, are the model's (DESIGN CHOICE, log 51). -/
namespace Sys2Proof.Machine

/-- How something is written as words, and read back from the front of a list. -/
structure Codec (α : Type) where
  put : α → List Word
  get : List Word → Option (α × List Word)

def Codec.cell : Codec Word :=
  ⟨fun x => [x], fun l => match l with
    | x :: r => some (x, r)
    | [] => none⟩

/-- Something written as what f gives of it, and read back by g. -/
def Codec.via {α β : Type} (c : Codec β) (f : α → β) (g : β → α) : Codec α :=
  ⟨fun a => c.put (f a), fun l => (c.get l).map (fun p => (g p.1, p.2))⟩

def Codec.nat : Codec Nat := Codec.cell.via (fun n => Machine.word n) (fun x => x.toNat)

def Codec.flag : Codec Bool := Codec.nat.via (fun b => if b then 1 else 0) (fun n => decide (n ≠ 0))

def Codec.pair {α β : Type} (a : Codec α) (b : Codec β) : Codec (α × β) :=
  ⟨fun p => a.put p.1 ++ b.put p.2, fun l =>
    match a.get l with
    | none => none
    | some (x, r) => (b.get r).map (fun q => ((x, q.1), q.2))⟩

/-- n things one after another. -/
def Codec.times {α : Type} (c : Codec α) (n : Nat) (l : List Word) : Option (List α × List Word) :=
  match n with
  | 0 => some ([], l)
  | k + 1 =>
    match c.get l with
    | none => none
    | some (x, r) => (c.times k r).map (fun q => (x :: q.1, q.2))

/-- A list: its length, then what it holds. -/
def Codec.list {α : Type} (c : Codec α) : Codec (List α) :=
  ⟨fun xs => Machine.word xs.length :: xs.flatMap c.put, fun l =>
    match l with
    | [] => none
    | n :: r => c.times n.toNat r⟩

def Codec.opt {α : Type} (c : Codec α) : Codec (Option α) := c.list.via (fun o => o.toList) (fun l => l.head?)

/-- A vector register: eight words. -/
def Codec.vec : Codec Vec :=
  ⟨fun v => (List.range 8).map (fun i => Machine.word (v.toNat / 2 ^ (64 * i))),
   fun l => if l.length < 8 then none
     else some (BitVec.ofNat 512 (ofBytes (wordsBytes (l.take 8))), l.drop 8)⟩

open Codec in
/-- A slot: slotcfg, its last issuing position, its current GTO resident and that resident's turns (R28, R101). -/
def slotCodec : Codec Slot :=
  (nat.pair (flag.pair (flag.pair (nat.pair (nat.opt.pair (nat.pair flag)))))).via
    (fun q => (q.owner, q.pol, q.polNext, q.lastPos, q.current, q.greed, q.yielded))
    (fun (o, p, n, l, c, g, y) => { owner := o, pol := p, polNext := n, lastPos := l, current := c, greed := g, yielded := y })

open Codec in
def bandCodec : Codec Band :=
  (flag.pair (flag.pair nat)).via (fun b => (b.saved, b.v, b.lnum)) (fun (s, v, n) => { saved := s, v := v, lnum := n })

open Codec in
/-- A local channel: ownership, width and entries (R238). -/
def chanCodec : Codec Chan :=
  (nat.opt.pair (flag.pair (vec.list.pair nat))).via (fun h => (h.owner, h.wide, h.entries, h.reserved))
    (fun (o, w, e, r) => { owner := o, wide := w, entries := e, reserved := r })

open Codec in
/-- An inbox: its packets and reservations (R239). -/
def inboxCodec : Codec Inbox :=
  ((cell.pair flag).list.pair (nat.pair nat.opt)).via (fun b => (b.words.map (fun w => (w.word, w.last)), b.reserved, b.owner))
    (fun (w, r, o) => { words := w.map (fun e => { word := e.1, last := e.2, acct := [] }), reserved := r, owner := o })

open Codec in
def operandCodec : Codec Operand :=
  (nat.pair (nat.pair (nat.pair (nat.pair vec)))).via (fun o => (o.group, o.round, o.op, o.ty, o.data))
    (fun (g, r, o, t, d) => { group := g, round := r, op := o, ty := t, data := d })

open Codec in
def resultCodec : Codec CanopyResult :=
  (nat.pair (nat.pair (vec.pair (flag.pair flag)))).via (fun o => (o.group, o.round, o.data, o.bad, o.barrier))
    (fun (g, r, d, x, b) => { group := g, round := r, data := d, bad := x, barrier := b })

/-- A core's registers as the record orders them: those that software writes, then what the core counts. -/
abbrev CoreWords := Word × List Slot × List Band × List Word × List Word × List Nat × Nat × Nat × Nat

open Codec in
/-- What the record holds of a core (R380). -/
def coreCodec : Codec Core :=
  let regs : Codec CoreWords :=
    cell.pair (slotCodec.list.pair (bandCodec.list.pair (cell.list.pair (cell.list.pair (nat.list.pair (nat.pair (nat.pair nat)))))))
  (regs.pair (chanCodec.list.pair (inboxCodec.list.pair
    (operandCodec.list.pair (resultCodec.list.pair (resultCodec.opt.pair (nat.pair nat).list)))))).via
    (fun k => ((k.tbase, k.slots, k.bands, k.g, k.pmc, k.pmsel.map (fun b => b.toNat), k.mxwgt, k.rotation, k.xidNext),
      k.chans, k.inboxes, k.canopyIn, k.canopyOut, k.canopyHeld, k.canopyN))
    (fun ((t, s, b, g, p, q, m, r, x), ch, ib, ci, co, hd, cn) =>
      { tbase := t, slots := s, bands := b, g := g, pmc := p, pmsel := q.map (fun n => BitVec.ofNat 8 n), mxwgt := m, rotation := r,
        xidNext := x, chans := ch, inboxes := ib, canopyIn := ci, canopyOut := co, canopyHeld := hd, canopyN := cn })

/-- A core k with what the record holds of it, r, taken from there; its handler starts stay. -/
def Core.taking (k r : Core) : Core :=
  { k with
    tbase := r.tbase, slots := (r.slots.zip (fit 8 [] (k.slots.map (fun q => q.starts)))).map (fun e => { e.1 with starts := e.2 }),
    bands := r.bands, g := r.g, pmc := r.pmc, pmsel := r.pmsel, mxwgt := r.mxwgt, rotation := r.rotation, xidNext := r.xidNext,
    chans := r.chans, inboxes := r.inboxes, canopyIn := r.canopyIn, canopyOut := r.canopyOut, canopyHeld := r.canopyHeld,
    canopyN := r.canopyN, nextSlot := 0 }

open Codec in
def locCodec : Codec Loc :=
  (nat.pair (nat.pair (nat.pair (nat.pair cell)))).via (fun l => (l.key, l.home, l.kind, l.sotx, l.va))
    (fun (k, h, n, x, a) => ⟨k, h, n, x, a⟩)

open Codec in
def firingCodec : Codec Firing :=
  (nat.pair (cell.pair (cell.pair (cell.list.pair (nat.opt.pair flag))))).via
    (fun f => (f.k, f.x, f.t, f.block, f.fault, f.unread))
    (fun (k, x, t, b, f, u) => { k := k, x := x, t := t, block := b, fault := f, unread := u })

open Codec in
/-- A watch entry: state, generation, trigger block, T, r and k, what it watches and what has fired (R272, R273). -/
def watchCodec : Codec Watch :=
  (nat.pair (nat.pair (locCodec.pair (cell.list.pair (cell.pair (nat.pair (nat.pair (firingCodec.list.pair
    (nat.pair (nat.pair flag)))))))))).via
    (fun w => (w.state, w.gen.toNat, w.loc, w.words, w.t, w.r, w.k, w.pend, w.tid, w.lnum, w.user))
    (fun (s, g, l, ws, t, r, k, p, i, n, u) =>
      { state := s, gen := BitVec.ofNat 16 g, loc := l, words := ws, t := t, r := r, k := k, pend := p, tid := i, lnum := n, user := u })

open Codec in
def itemCodec : Codec Item := (cell.pair nat).via (fun i => (i.handle, i.seq.toNat)) (fun (h, n) => ⟨h, BitVec.ofNat 32 n⟩)

open Codec in
/-- A stage queue: its held items and its next undelivered number (R51, R53). -/
def queueCodec : Codec StageQueue :=
  (nat.pair (flag.pair (nat.pair (nat.pair (itemCodec.list.pair ((itemCodec.pair flag).list.pair (nat.pair nat.list))))))).via
    (fun q => (q.home, q.ordered, q.cap, q.next, q.items, q.taken, q.reserved, q.claimed.map (fun n => n.toNat)))
    (fun (h, o, c, n, i, r, v, m) => {
      home := h, ordered := o, cap := c, next := n, items := i, taken := r, reserved := v, claimed := m.map (fun n => BitVec.ofNat 32 n) })

open Codec in
def barrierCodec : Codec Barrier :=
  (nat.pair (nat.pair (nat.list.pair nat.list))).via (fun b => (b.phase.toNat, b.scope, b.parts, b.arrived))
    (fun (p, s, l, a) => { phase := BitVec.ofNat 32 p, scope := s, parts := l, arrived := a })

open Codec in
/-- A stage with its balancer figures (R51, R55). -/
def stageCodec : Codec Stage :=
  (cell.pair (nat.pair (nat.pair (nat.pair (nat.pair (flag.pair (nat.pair (nat.pair (nat.pair (nat.pair (nat.pair (nat.pair
    (cell.pair (nat.pair (nat.pair (nat.pair nat)))))))))))))))).via
    (fun st => (st.entry, st.inq, st.outa, st.outb, roleCode st.role, decide (st.kind = Kind.mt), st.slen, st.vlen, st.resid, st.slots,
      st.minc, st.maxc, st.arg, st.depthSum, st.samples, st.blockedTurns, st.residentTurns))
    (fun (e, i, a, b, r, k, sl, vl, re, ss, mi, ma, ar, ds, sa, bt, rt) =>
      { entry := e, inq := i, outa := a, outb := b, role := roleOf r, kind := kindOf k, slen := sl, vlen := vl, resid := re, slots := ss,
        minc := mi, maxc := ma, arg := ar, depthSum := ds, samples := sa, blockedTurns := bt, residentTurns := rt })

open Codec in
/-- A live launch (R380): its block, the stage of each core, the numbers drawn by S0 and the counts of its threads; its stage
queues stand with their slices, and only their number here. -/
def launchCodec : Codec (Nat × Launch) :=
  ((nat.pair (cell.list.pair (cell.pair (flag.pair (locCodec.opt.pair (flag.pair (flag.pair (flag.pair flag)))))))).pair
    (nat.pair (nat.pair (nat.pair ((nat.pair flag).list.pair (stageCodec.list.pair (nat.pair ((nat.pair nat).list.pair (nat.list.pair
      (nat.pair (nat.pair nat))))))))))).via
    (fun (n, l) => ((n, l.words, l.addr, l.user, l.loc, l.running, l.started, l.firmware, l.managed),
      l.created, l.forked, l.drawn, l.taken, l.stages, l.queues.length, l.coreStage, l.moving, l.bal, l.lastBal, l.canopyLost))
    (fun ((n, w, a, u, lo, ru, st, fw, mg), cr, fo, dr, re, sg, qs, cs, mo, ba, lb, cl) =>
      (n, { words := w, addr := a, user := u, loc := lo, running := ru, started := st, firmware := fw, managed := mg, created := cr, forked := fo,
            drawn := dr, taken := re, stages := sg, queues := List.replicate qs { home := 0, ordered := false, cap := 0 },
            coreStage := cs, moving := mo, bal := ba, lastBal := lb, canopyLost := cl }))

open Codec in
/-- A stage queue with its launch and its number there. -/
def homedCodec : Codec (Nat × Nat × StageQueue) := nat.pair (nat.pair queueCodec)

/-- The stage queues homed at a slice. -/
def State.homedAt (s : State) (c : Nat) : List (Nat × Nat × StageQueue) :=
  s.launches.flatMap (fun e => (e.2.queues.zip (List.range e.2.queues.length)).filterMap (fun q =>
    if q.1.home = c then some (e.1, q.2, q.1) else none))

open Codec in
/-- The three sections after the header (R380): cores with the wait counts of their residents (R28), slices, device. -/
def coresCodec : Codec (List (Core × List Nat)) := (coreCodec.pair nat.list).list

open Codec in
def slicesCodec : Codec (List (List Watch × List (Nat × Nat × StageQueue))) := (watchCodec.list.pair homedCodec.list).list

open Codec in
def deviceCodec : Codec (List Barrier × List (Nat × Launch)) := barrierCodec.list.pair launchCodec.list

/-- Names as numbers, in the order of a list. -/
def Codec.name {α : Type} [DecidableEq α] (l : List α) (d : α) : Codec α :=
  Codec.nat.via (fun a => l.idxOf a) (fun n => nth l n d)

open Codec in
/-- A wide number of n words. -/
def Codec.wide (n w : Nat) : Codec (BitVec w) :=
  ⟨fun v => (List.range n).map (fun i => Machine.word (v.toNat / 2 ^ (64 * i))),
   fun l => if l.length < n then none else some (BitVec.ofNat w (ofBytes (wordsBytes (l.take n))), l.drop n)⟩

/-- What a handler runs for, as a number and its arguments. -/
def handlerParts (h : HandlerFor) : Nat × List Nat × BitVec 4096 :=
  match h with
  | .system t c => (0, [t, c], 0)
  | .directory l => (1, [l], 0)
  | .drain c x b r n d bad o => (2, [c, x, b, r, n, if bad then 1 else 0, o], d)

def handlerOf (p : Nat × List Nat × BitVec 4096) : HandlerFor :=
  let a := fun i => nth p.2.1 i 0
  match p.1 with
  | 0 => .system (a 0) (a 1)
  | 1 => .directory (a 0)
  | _ => .drain (a 0) (a 1) (a 2) (a 3) (a 4) p.2.2 (decide (a 5 ≠ 0)) (a 6)

open Codec in
def handlerCodec : Codec HandlerFor := (nat.pair (nat.list.pair (Codec.wide 64 4096))).via handlerParts handlerOf

/-- What a wait is for, as a number and two lists. -/
def waitParts (w : WaitOn) : Nat × List Nat × List Nat :=
  match w with
  | .heads a b => (0, a, b)
  | .word => (1, [], [])
  | .inboxRoom c i n => (2, [c, i, n], [])
  | .wide c n rd => (3, [c, n, if rd then 1 else 0], [])
  | .engineRoom c e => (4, [c, e], [])
  | .transfer c e x => (5, [c, e, x], [])
  | .itemGet => (6, [], [])
  | .itemPut q n => (7, [q, n], [])
  | .barrier o p => (8, [o, p], [])
  | .replica a => (9, [a.toNat], [])
  | .frontier a n v => (10, [a.toNat, n, v.toNat], [])
  | .mailboxRoom a => (11, [a.toNat], [])
  | .mailboxMessage a => (12, [a.toNat], [])
  | .canopyRoom c => (13, [c], [])
  | .canopyResult c => (14, [c], [])
  | .reply => (15, [], [])

def waitOf (p : Nat × List Nat × List Nat) : WaitOn :=
  let a := fun i => nth p.2.1 i 0
  match p.1 with
  | 0 => .heads p.2.1 p.2.2
  | 1 => .word
  | 2 => .inboxRoom (a 0) (a 1) (a 2)
  | 3 => .wide (a 0) (a 1) (decide (a 2 ≠ 0))
  | 4 => .engineRoom (a 0) (a 1)
  | 5 => .transfer (a 0) (a 1) (a 2)
  | 6 => .itemGet
  | 7 => .itemPut (a 0) (a 1)
  | 8 => .barrier (a 0) (a 1)
  | 9 => .replica (word (a 0))
  | 10 => .frontier (word (a 0)) (a 1) (word (a 2))
  | 11 => .mailboxRoom (word (a 0))
  | 12 => .mailboxMessage (word (a 0))
  | 13 => .canopyRoom (a 0)
  | 14 => .canopyResult (a 0)
  | _ => .reply

open Codec in
/-- A wait that holds nothing in reserve: no other outlasts the boundary of a checkpoint (R354). -/
def waitCodec : Codec Wait :=
  ((nat.pair (nat.list.pair nat.list)).pair (cell.pair (cell.pair (cell.pair (nat.list.pair nat.list))))).via
    (fun w => (waitParts w.what, w.start, w.limit, w.tval, w.srcs, w.dsts))
    (fun (p, a, l, v, x, y) => { what := waitOf p, start := a, limit := l, tval := v, srcs := x, dsts := y })

open Codec in
def deferredCodec : Codec Deferred :=
  (nat.pair (nat.pair (nat.list.pair (vec.pair (flag.pair (nat.pair (cell.opt.pair cell.opt))))))).via
    (fun d => (d.num, d.dest, d.waiting, d.value, d.taint, d.flags.toNat, d.poison, d.full))
    (fun (n, d, w, v, t, f, p, u) =>
      { num := n, dest := d, waiting := w, value := v, taint := t, flags := BitVec.ofNat 5 f, poison := p, full := u })

open Codec in
def csrsCodec : Codec Csrs :=
  (cell.pair (cell.pair (cell.pair (cell.pair (cell.pair (cell.pair (cell.pair (cell.pair (cell.pair (cell.pair (cell.pair cell))))))))))).via
    (fun c => (c.fcsr, c.ts, c.tcause, c.tepc, c.tval, c.tprog, c.uepc, c.uxid, c.uiblk, c.waitlim, c.repst, c.hsel))
    (fun (a, b, c, d, e, f, g, h, i, j, k, l) =>
      { fcsr := a, ts := b, tcause := c, tepc := d, tval := e, tprog := f, uepc := g, uxid := h, uiblk := i, waitlim := j, repst := k,
        hsel := l })

open Codec in
def streamCodec : Codec StreamReg :=
  (nat.pair (nat.pair (nat.pair (nat.pair nat).list))).via (fun r => (r.xid, r.next, r.total, r.elems))
    (fun (x, n, t, e) => { xid := x, next := n, total := t, elems := e })

open Codec in
def uintCodec : Codec Uint :=
  (nat.pair (cell.pair (cell.pair nat.opt))).via (fun u => (u.xid, u.block, u.vector, u.trap)) (fun (x, b, v, t) => ⟨x, b, v, t⟩)

open Codec in
/-- What a thread is, where it stands and what it has to do: the first third of its fields. -/
def threadCodec0 : Codec (Kind × Role × TState × Option Place × Option HandlerFor × List Nat × Option Nat × List Bool) :=
  let place : Codec Place := (nat.pair (nat.pair nat)).via (fun q => (q.core, q.slot, q.pos)) (fun (c, j, p) => ⟨c, j, p⟩)
  (Codec.name [.anchored, .mt, .handler] .anchored).pair ((Codec.name [.general, .access, .execute] .general).pair
    ((Codec.name [.unplaced, .ready, .parked, .blocked, .trapped, .suspended, .exited] .exited).pair
      (place.opt.pair (handlerCodec.opt.pair (nat.list.pair (nat.opt.pair flag.list))))))

open Codec in
/-- Its registers and what it has outstanding. -/
def threadCodec1 : Codec (Word × List Word × List Bool × List Vec × Word × Csrs × List Deferred × Option Wait × List IWord × List Word ×
    List (Option StreamReg) × Option Item × List Word × List Word × List TrapRec × List Uint) :=
  let trap : Codec TrapRec := (nat.pair cell).via (fun r => (r.code, r.tval)) (fun (c, v) => ⟨c, v⟩)
  cell.pair (cell.list.pair (flag.list.pair (vec.list.pair (cell.pair (csrsCodec.pair (deferredCodec.list.pair (waitCodec.opt.pair
    ((Codec.wide 1 32).list.pair (cell.list.pair (streamCodec.opt.list.pair (itemCodec.opt.pair (cell.list.pair (cell.list.pair
      (trap.list.pair uintCodec.list))))))))))))))

open Codec in
/-- Its counts, barriers and banks. -/
def threadCodec2 : Codec (List (Nat × Nat) × List Nat × List Bool × List (Option Nat) × Word × Option (Nat × Nat) × Word) :=
  (nat.pair nat).list.pair (nat.list.pair (flag.list.pair (nat.opt.list.pair (cell.pair ((nat.pair nat).opt.pair cell)))))

open Codec in
/-- A thread between two instructions, with its number: nothing in the middle of an instruction outlasts the boundary at which
a checkpoint finds it (R354). -/
def threadCodec : Codec (Nat × Thread) :=
  (nat.pair (threadCodec0.pair (threadCodec1.pair threadCodec2))).via
    (fun (n, t) => (n,
      (t.kind, t.role, t.state, t.place, t.job,
        [t.lnum, t.tnum, t.slen, t.vlen, t.sbase, t.vbase, t.core, t.origin, t.waitCount, t.age, t.stage, t.index, t.slotCore],
        t.slotIdx, [t.marked, t.preempt, t.ppt, t.accLost, t.debugStop, t.slotLogged, t.flying, t.moved]),
      (t.pc, t.x, t.taint, t.v, t.pw, t.csr, t.outs, t.wait, t.frame, t.heads, t.streams, t.item, t.shadow0, t.shadow1, t.traps, t.uints),
      t.arrivals, t.joined, t.banks, t.saved, t.live, t.lastPut, t.graceAt))
    (fun (n, (kind, role, state, place, job, ns, slotIdx, fs),
        (pc, x, taint, v, pw, csr, outs, wait, frame, heads, streams, item, sh0, sh1, traps, uints),
        arrivals, joined, banks, saved, live, lastPut, grace) =>
      let i := fun k => nth ns k 0
      let f := fun k => nth fs k false
      (n, { kind := kind, role := role, state := state, place := place, job := job, lnum := i 0, tnum := i 1, slen := i 2, vlen := i 3,
            sbase := i 4, vbase := i 5, core := i 6, origin := i 7, waitCount := i 8, age := i 9, stage := i 10, index := i 11,
            slotCore := i 12, slotIdx := slotIdx, marked := f 0, preempt := f 1, ppt := f 2, accLost := f 3, debugStop := f 4,
            slotLogged := f 5, flying := f 6, moved := f 7, pc := pc, x := x, taint := taint, v := v, pw := pw, csr := csr, outs := outs,
            wait := wait, frame := frame, heads := heads, streams := streams, item := item, shadow0 := sh0, shadow1 := sh1,
            traps := traps, uints := uints, arrivals := arrivals, joined := joined, banks := banks, saved := saved, live := live,
            lastPut := lastPut, graceAt := grace }))

open Codec in
/-- What a core keeps of the save regions, of its shares and of its handlers (R25, R40 to R45, R260, R355). -/
def coreMapsCodec : Codec Core :=
  (((nat.pair nat).list.pair (nat.list.pair ((nat.pair (nat.pair nat)).list.pair (nat.list.pair (nat.pair (nat.pair flag)).list)))).pair
    (flag.pair (nat.list.pair (nat.list.pair (nat.pair (cell.list.opt.pair (handlerCodec.list.list.pair
      ((nat.pair cell).list.pair (nat.pair nat).list)))))))).via
    (fun k => ((k.xstat, k.ctxSlots, k.bandSlots, k.bankSlots, k.claims), k.urgent, k.wasActive, k.unmapped, k.lastShare, k.queueWords,
      k.slots.map (fun q => q.starts), k.pmcLater, k.pmselLater.map (fun e => (e.1, e.2.toNat))))
    (fun ((x, c, b, n, l), u, w, m, sh, q, st, p, ps) =>
      { xstat := x, ctxSlots := c, bandSlots := b, bankSlots := n, claims := l, urgent := u, wasActive := w, unmapped := m, lastShare := sh,
        queueWords := q, slots := st.map (fun h => { starts := h }), pmcLater := p,
        pmselLater := ps.map (fun e => (e.1, BitVec.ofNat 8 e.2)) })

open Codec in
def waiterCodec : Codec Waiter :=
  (nat.pair (locCodec.pair (nat.pair (cell.pair (nat.pair (flag.pair flag)))))).via
    (fun w =>
      let k : Nat × Word := match w.kind with
        | .ldfe => (0, 0)
        | .ldfec => (1, 0)
        | .waitge x => (2, x)
        | .joinw => (3, 0)
      (w.tid, w.loc, k.1, k.2, w.dest, w.taint, w.marked))
    (fun (n, l, k, x, d, t, m) =>
      { tid := n, loc := l, kind := (match k with
          | 0 => .ldfe
          | 1 => .ldfec
          | 2 => .waitge x
          | _ => .joinw), dest := d, taint := t, marked := m })

open Codec in
def completionCodec : Codec Completion :=
  (nat.pair (cell.list.pair flag)).via (fun q => (q.lnum, q.words, q.user)) 
    (fun (n, w, u) => { lnum := n, words := w, user := u, after := [] })

open Codec in
def mailCodec : Codec Mail :=
  (nat.pair (nat.pair (nat.pair (cell.pair (cell.pair (cell.pair (nat.pair nat))))))).via
    (fun m => (m.core, m.n, m.dev, m.desc, m.slot, m.seq, m.tid, m.z)) (fun (c, n, d, a, l, q, t, z) => ⟨c, n, d, a, l, q, t, z⟩)

open Codec in
/-- A replica as its owner keeps it; the cuts in progress start again (R317). -/
def replicaCodec : Codec (Nat × Replica) :=
  (nat.pair (flag.pair (cell.list.pair (nat.list.pair (cell.pair cell).opt)))).via
    (fun (k, r) => (k, r.valid, r.seen, r.timers.map (fun e => e.1), r.lift))
    (fun (k, v, s, t, l) => (k, { valid := v, seen := s, timers := t.map (fun m => (m, 0)), lift := l }))

/-- What the part keeps of threads and of the save regions beside the sections that R380 names. -/
structure Kept where
  threads : Tab Thread
  nextTid : Nat
  maps : List Core
  overflow : List Nat
  completions : List Completion
  npSeen : Tab (List Nat)
  waiters : List Waiter
  canopy : Tab Nat
  replicas : Tab Replica
  mailOut : List Mail

open Codec in
/-- It as words, in a section after those of R380 (DESIGN CHOICE, log 51). -/
def keptCodec : Codec Kept :=
  (threadCodec.list.pair (nat.pair (coreMapsCodec.list.pair (nat.list.pair (completionCodec.list.pair ((nat.pair nat.list).list.pair
    (waiterCodec.list.pair ((nat.pair nat).list.pair (replicaCodec.list.pair mailCodec.list))))))))).via
    (fun k => (k.threads, k.nextTid, k.maps, k.overflow, k.completions, k.npSeen, k.waiters, k.canopy, k.replicas, k.mailOut))
    (fun (t, n, m, o, c, p, w, y, r, l) =>
      { threads := t, nextTid := n, maps := m, overflow := o, completions := c, npSeen := p, waiters := w, canopy := y, replicas := r,
        mailOut := l })

/-- What this machine keeps of it. -/
def State.kept (s : State) : Kept :=
  { threads := s.threads, nextTid := s.nextTid, maps := (List.range 2048).map s.core, overflow := s.overflow,
    completions := s.completions, npSeen := s.npSeen, waiters := s.waiters, canopy := s.canopy, replicas := s.replicas,
    mailOut := s.mailOut }

/-- The wait counts of the residents of a core's positions, 0 where none stands (R28). -/
def State.waitCounts (s : State) (c : Nat) : List Nat :=
  (List.range 56).map (fun i => ((s.resident c (i / 7) (i % 7)).map (fun e => e.2.waitCount)).getD 0)

/-- The sections after the header as words (R380), and what is kept beside them (DESIGN CHOICE, log 51). -/
def State.recordBody (s : State) : List (List Word) :=
  [coresCodec.put ((List.range 2048).map (fun c => (s.core c, s.waitCounts c))),
   slicesCodec.put ((List.range 2048).map (fun c => (s.watchTable c, s.homedAt c))),
   deviceCodec.put ((List.range 4096).map s.barrier, s.launches), keptCodec.put s.kept]

/-- 4 KiB pages that n words take. -/
def pagesOf (n : Nat) : Nat := (n + 511) / 512

/-- The header (R380): version, device number, tick, MODE, PSTATE, SECST and DET, the control page, FTBASE, ELBASE, RECBASE,
CKTGT, S, the next launch number and those in use; with the pages that each section takes. -/
def State.recordHeader (s : State) (pages : List Nat) : List Word :=
  [1, word s.mgmt.devno, s.time, word s.modeCode, s.mgmt.pstate, word s.mgmt.secst,
    s.mgmt.detWord] ++ fit 11 0 s.ctl ++ [s.mgmt.ftbase, s.mgmt.elbase, s.mgmt.recbase] ++ fit 32 0 s.mgmt.cktgt ++
  [s.hlc, word s.nextLnum] ++ fit 4 0 (pages.map word) ++ Codec.nat.list.put (s.launches.map (fun e => e.1))

/-- The address of the machine record (R380). -/
def State.recordBase (s : State) : Nat := (nth s.ctl 3 0).toNat + 2 ^ 35

/-- The machine record written, each section from a page of its own (R378, R380); nothing where system software has mapped
no page there. -/
def State.writeRecord (s : State) : State :=
  if (s.vkey s.recordBase).isNone then s
  else
    let body := s.recordBody
    let pages := body.map (fun ws => pagesOf ws.length)
    let head := s.recordHeader pages
    let starts := (List.range 4).map (fun i => pagesOf head.length + total (pages.take i))
    (starts.zip body).foldl (fun (s : State) e => s.vputWords (s.recordBase + 4096 * e.1) e.2) (s.vputWords s.recordBase head)

/-- What RESTORE reads of a machine record. -/
structure Loaded where
  head : List Word
  cores : List (Core × List Nat)
  slices : List (List Watch × List (Nat × Nat × StageQueue))
  barriers : List Barrier
  launches : List (Nat × Launch)
  kept : Kept

/-- Word i of the header of the record in memory; 0 where no page is mapped. -/
def State.headerWord (s : State) (i : Nat) : Word := s.vword (s.recordBase + 8 * i)

/-- n pages of words from page p of the record; zeros where one is not mapped. -/
def State.recordPages (s : State) (p n : Nat) : List Word :=
  (List.range n).flatMap (fun q =>
    match s.vkey (s.recordBase + 4096 * (p + q)) with
    | some k => (List.range 512).map (fun i => s.rdWord (k + 8 * i))
    | none => List.replicate 512 0)

/-- The pages of the header: its fixed words, and one for each launch number in use after their count. -/
def State.headerPages (s : State) : Nat := pagesOf (60 + (s.headerWord 59).toNat)

/-- The machine record read back (R380). -/
def State.readRecord (s : State) : Option Loaded :=
  let n := fun (i : Nat) => (s.headerWord (55 + i)).toNat
  let p := s.headerPages
  match coresCodec.get (s.recordPages p (n 0)), slicesCodec.get (s.recordPages (p + n 0) (n 1)),
    deviceCodec.get (s.recordPages (p + n 0 + n 1) (n 2)), keptCodec.get (s.recordPages (p + n 0 + n 1 + n 2) (n 3)) with
  | some (cs, _), some (sl, _), some ((bs, ls), _), some (k, _) =>
    some { head := (List.range 55).map s.headerWord, cores := cs, slices := sl, barriers := bs, launches := ls, kept := k }
  | _, _, _, _ => none

/-- The launches of a record, each with its stage queues from their slices. -/
def Loaded.allLaunches (r : Loaded) : Tab Launch :=
  let homed := r.slices.flatMap (fun e => e.2)
  r.launches.map (fun e => (e.1, { e.2 with
    queues := (e.2.queues.zip (List.range e.2.queues.length)).map (fun q =>
      ((homed.find? (fun h => decide (h.1 = e.1 ∧ h.2.1 = q.2))).map (fun h => h.2.2)).getD q.1) }))

end Sys2Proof.Machine
end

