-- ==== Sys2Proof/Machine/Manage.lean ====
section
/-! DEFINITION. Modes, power states and clock levels (R367 to R369), debug sessions (R372, R373), CHECKPOINT and RESTORE
(R378, R380), bring-up (R379), replay (R375), register writes of firmware and the controller (R366), and the trap of a
word that is no instruction (R128). -/
namespace Sys2Proof.Machine

/-- Have all residents left their positions, handlers too. -/
def State.emptied (s : State) : Bool := s.live.all (fun e => e.2.place.isNone)

/-- Are every engine queue empty and every access performed (R368, R378). -/
def State.drained (s : State) : Bool :=
  s.accs.isEmpty && s.cores.all (fun e => e.2.eng0.isEmpty && e.2.eng1.isEmpty)

/-- Is every core between two rotations (R18). -/
def State.betweenRotations (s : State) : Bool := s.cores.all (fun e => decide (e.2.nextSlot = 0))

/-- Bands of core c that are allocated and in no band slot, with their launches. -/
def Core.unsavedBands (k : Core) : List (Nat × Nat) :=
  (List.range 32).filterMap (fun b =>
    let q := nth k.bands b {}
    if q.v ∧ ¬ k.bandSlots.any (fun x => decide (x.2 = (q.lnum, b))) then some (b, q.lnum) else none)

/-- A wait for a band slot of core c in the error log, once (R355, R381). -/
def State.logBandWait (s : State) (c : Nat) : State :=
  if c ∈ s.mgmt.slotWaits then s
  else (s.logError 0x0C (unitCore c) 1 0).modMgmt (fun m => { m with slotWaits := m.slotWaits ++ [c] })

/-- Every allocated band saved in a band slot of its core; it stays its launch's (R357, R378). A core without a free slot
waits for one (R355). -/
def State.saveBands (s : State) : State :=
  (s.cores.map (fun e => e.1)).foldl (fun (s : State) (c : Nat) =>
    ((s.core c).unsavedBands).foldl (fun (s : State) q => (s.saveBand c q.1 q.2).getD (s.logBandWait c)) s) s

/-- Is every allocated band saved. -/
def State.bandsSaved (s : State) : Bool := s.cores.all (fun e => e.2.unsavedBands.isEmpty)

/-- A change of power state or level, recorded (R374, R382). -/
def State.setPstate (s : State) (power level : Nat) : State :=
  let before := s.mgmt.pstate
  let s := s.modMgmt (fun m => { m with power := power, level := level })
  s.record unitDevice 10 before s.mgmt.pstate []

/-- What bring-up starts from: the management controller alone keeps its registers (R368, R379) (DESIGN CHOICE, log 53). -/
def State.bare (s : State) : State :=
  { time := s.time, image := s.image, freeN := s.freeN, agenda := s.agenda, nextTid := s.nextTid, mode := .boot,
    mgmt := { s.mgmt with
      power := 3, level := 0, powerLater := none, levelLater := none, token := none, ckpt := false, modeLater := none,
      held := false, replayAt := none, supplied := [], stream := none, slotWaits := [] },
    host := { writes := s.host.writes, answers := s.host.answers, reads := s.host.reads } }

/-- A core after its compute die has powered down (R368): what lies in HBM, or with the threads, is still there, that is the
queues of MTs, the starts of handlers and the maps of the save regions; its turns go on in their order; everything else has its
reset value, and bands come back from their slots (DESIGN CHOICE, log 53). -/
def Core.poweredDown (k : Core) : Core :=
  { runq := k.runq, deque := k.deque, slots := k.slots.map (fun j => { starts := j.starts }), ctxSlots := k.ctxSlots,
    bandSlots := k.bandSlots, bankSlots := k.bankSlots, rotation := k.rotation, nextSlot := k.nextSlot, lastShare := k.lastShare }

/-- What the compute dies held is lost as they power down for D2, and ledge and HBM stay (R368): scratchpads, TLBs, canopy
rounds and all that cores hold but Core.poweredDown says. -/
def State.powerDown (s : State) : State :=
  { s with
    cores := s.cores.map (fun (e : Nat × Core) => (e.1, e.2.poweredDown)), canopy := [], mxu := [],
    mem := s.mem.filter (fun e => decide (e.1 < 2 ^ 44 ∨ 2 ^ 45 ≤ e.1))
    poison := s.poison.filter (fun k => decide (k < 2 ^ 44 ∨ 2 ^ 45 ≤ k))
    tlbs := [], stale := [], dropped := s.dropped + 1 }

/-- A power state asked for (R368) takes effect once it can: D1 between two rotations, D2 once the device is drained and
saved, D3 at once; in a replay the others at their records (R375). -/
def State.settlePower (s : State) : State :=
  match s.mgmt.powerLater with
  | none => s
  | some p =>
    if s.mgmt.ckpt ∨ (s.replaying ∧ p ≠ 3) then s
    else
      let done := s.modMgmt (fun m => { m with powerLater := none })
      match p with
      | 0 => done.setPstate 0 s.mgmt.level
      | 1 => if s.betweenRotations then done.setPstate 1 s.mgmt.level else s
      | 2 =>
        if ¬ (s.emptied && s.drained) then s
        else
          let saved := s.saveBands
          if ¬ saved.bandsSaved then saved
          else (saved.powerDown.modMgmt (fun m => { m with powerLater := none, slotWaits := [] })).setPstate 2 s.mgmt.level
      | _ => s.bare

/-- A power-state request (R368, R373): refused in RECOVERY for D1 and D2, and where the device is not in D0; the most
recent of several pending ones is taken. -/
def State.requestPower (s : State) (p : Nat) : State :=
  if p = 3 then (if s.mgmt.ckpt then s.modMgmt (fun m => { m with powerLater := some 3 }) else s.bare)
  else if s.mode = .recovery ∨ s.mgmt.power ≠ 0 then s
  else
    let s := s.modMgmt (fun m => { m with powerLater := some p })
    (if p = 2 ∧ ¬ s.mgmt.ckpt then s.preemptAll else s).settlePower

/-- ENTER_D1 (R368). -/
def execEnterD1 (s : State) : Out := partStep (if s.mgmt.power = 3 then none else some ((s.recordCommand .d1 []).requestPower 1))

/-- ENTER_D2 (R368) (DESIGN CHOICE, log 53). -/
def execEnterD2 (s : State) : Out := partStep (if s.mgmt.power = 3 then none else some ((s.recordCommand .d2 []).requestPower 2))

/-- ENTER_D3 (R368). -/
def execEnterD3 (s : State) : Out := partStep (if s.mgmt.power = 3 then none else some ((s.recordCommand .d3 []).requestPower 3))

/-- A debug session of DEBUG-USER has ended (R372). -/
def State.endSession (s : State) : State := s.modMgmt (fun m => { m with secst := 0, token := none })

/-- The security state after a wake from D2 (R373): a token that has expired is gone, and in SECURE firmware is measured
again. -/
def State.wakeSecurity (s : State) : State :=
  match s.mgmt.secst, s.mgmt.token with
  | 1, some (_, e) => if s.time.toNat ≥ e then s.endSession else s
  | 0, _ => s.modMgmt (fun m => { m with measurements := m.firmware.map sha384 })
  | _, _ => s

/-- A wake (R368, R369): from D1 at a rotation boundary, from D2 with threads placed again; a held level takes effect. -/
def State.wake (s : State) : Option State :=
  if s.mgmt.power = 0 ∨ s.mgmt.power = 3 then none
  else
    let s := if s.mgmt.power = 2 then s.wakeSecurity else s
    let level := s.mgmt.levelLater.getD s.mgmt.level
    some ((s.modMgmt (fun m => { m with levelLater := none, powerLater := none })).setPstate 0 level)

/-- WAKE_D0 (R368). -/
def execWakeD0 (s : State) : Out := partStep (s.recordCommand .wake []).wake

/-- A write of PSTATE[3:2] (R369), with the PSTATE[1:0] written: in D3 it is lost. -/
def State.writeLevel (s : State) (level power : Nat) : State :=
  if s.mgmt.power = 3 then s
  else if level = 3 then s.logError 0x18 unitManagement (word (12 + power)) 0
  else s.modMgmt (fun m => { m with levelLater := some level })

/-- CLOCK_LEVEL_WRITE (R369). -/
def execClockLevelWrite (level : BitVec 2) (s : State) : Out :=
  partStep (some ((s.recordCommand .level [level.zeroExtend 64]).writeLevel level.toNat s.mgmt.power))

/-- CLOCK_LEVEL_CHANGE (R18, R369): between two rotations of every core, in D0, and not while a checkpoint runs. -/
def execClockLevelChange (s : State) : Out :=
  partStep (match s.mgmt.levelLater with
    | none => none
    | some l =>
      if s.mgmt.power ≠ 0 ∨ s.mgmt.ckpt ∨ ¬ s.betweenRotations then none
      else some ((s.modMgmt (fun m => { m with levelLater := none })).setPstate 0 l))

/-- A core as it enters SERVICE (R92, R96, R272, R289, R379): what threads wait in or hold on it stays. -/
def Core.entered (k : Core) : Core :=
  { runq := k.runq, deque := k.deque, chans := k.chans, inboxes := k.inboxes, xidNext := k.xidNext, xstat := k.xstat,
    ctxSlots := k.ctxSlots, bankSlots := k.bankSlots }

/-- The mode that a number in MODE names (R366). -/
def modeOf (n : Nat) : Mode :=
  match n with
  | 1 => .service
  | 2 => .test
  | 3 => .recovery
  | _ => .boot

/-- A mode asked for is entered once every resident has been pre-empted, its bands saved and the queues of the engines are
empty (R367, R378). SERVICE begins with the zero values of
R379, or with the state that RESTORE brought back (R380). -/
def State.settleMode (s : State) : State :=
  match s.mgmt.modeLater with
  | none => s
  | some m =>
    if ¬ s.emptied ∨ ¬ s.drained then s
    else
      let held := s.mgmt.held
      let s := s.saveBands
      if ¬ s.bandsSaved then s
      else
        let s := { s.modMgmt (fun g => { g with modeLater := none, held := false, slotWaits := [] }) with mode := modeOf m }
        if m ≠ 1 then s
        else
          let s := if held then s
            else { s with
              cores := s.cores.map (fun (e : Nat × Core) => (e.1, e.2.entered)), watch := [], hlc := 0, mxu := [], dieTurns := [],
              nextLnum := 0 }
          s.startLaunches

/-- A change of mode asked for by firmware or the management controller: to SERVICE from START-UP, to TEST from SERVICE or
START-UP (R367); not once a change to RECOVERY waits, which bring-up alone ends. -/
def State.requestMode (s : State) (m : Nat) : Option State :=
  let ok := decide (s.mgmt.power = 0 ∧ s.mgmt.modeLater ≠ some 3) &&
    ((decide (m = 1 ∧ s.mode = Mode.boot)) || (decide (m = 2) && (decide (s.mode = .service) || decide (s.mode = .boot))))
  if ¬ ok then none else some (s.modMgmt (fun g => { g with modeLater := some m })).preemptAll.settleMode

/-- ENTER_SERVICE (R367, R379) (DESIGN CHOICE, log 2). -/
def execEnterService (s : State) : Out := partStep (((s.recordCommand .service []).requestMode 1))

/-- ENTER_TEST (R367). -/
def execEnterTest (s : State) : Out := partStep ((s.recordCommand .test []).requestMode 2)

/-- What the signature of a debug token covers (R372 lays none out) (PRESUMED, log 49). -/
def tokenText (t : Token) : List Byte := t.identity ++ wordsBytes (t.launches.map word) ++ bytesOf 8 t.expiry

/-- Does the root of trust verify a token: it is signed as firmware is, and names this device's identity by its digest (R372)
(PRESUMED, log 49). -/
def State.verifiesToken (s : State) (t : Token) : Bool :=
  signedByFuses s.mgmt.keyHash t.key (tokenText t) t.signature && decide (t.identity = sha384 s.mgmt.identityKey)

/-- A token as the words of a record: expiry, digest, a bit for each launch number, key and signature (DESIGN CHOICE, log 54). -/
def tokenWords (t : Token) : List Word :=
  [word t.expiry] ++ fit 6 0 (bytesWords t.identity) ++
  (List.range 256).map (fun i => flagWord ((List.range 64).map (fun j => decide (64 * i + j ∈ t.launches)))) ++
  fit 12 0 (bytesWords t.key) ++ fit 12 0 (bytesWords t.signature)

def tokenIn (ws : List Word) : Token :=
  { expiry := (nth ws 0 0).toNat, identity := wordsBytes ((ws.drop 1).take 6),
    launches := (List.range 16384).filter (fun n => bitAt (nth ws (7 + n / 64) 0) (n % 64)),
    key := wordsBytes ((ws.drop 263).take 12), signature := wordsBytes ((ws.drop 275).take 12) }

/-- DEBUG_TOKEN (R372): a verified token, in SECURE, in D0 or D1. -/
def execDebugToken (tok : Token) (s : State) : Out :=
  partStep (if s.mgmt.power ≥ 2 then none
    else
      let s := s.recordCommand .token (tokenWords tok)
      some (if s.verifiesToken tok ∧ s.security = 0 then
        s.modMgmt (fun m => { m with secst := 1, token := some (tok.launches, tok.expiry) })
      else s))

/-- DEBUG_TOKEN_EXPIRY (R372): a session ends at its tick; in D2 it is suspended (R373). -/
def execDebugTokenExpiry (s : State) : Out :=
  partStep (match s.mgmt.token with
    | some (_, e) =>
      if s.mgmt.secst = 1 ∧ s.mgmt.power ≤ 1 ∧ s.time.toNat ≥ e then
        some s.endSession
      else none
    | none => none)

/-- DEBUG_TOKEN_REVOCATION (R372). -/
def execDebugTokenRevocation (s : State) : Out :=
  partStep (if s.mgmt.secst = 1 then some (s.recordCommand .revocation []).endSession else none)

/-- DEBUG_RESUME (R372): a thread stopped at a claimed breakpoint goes on as ERET resumes it (R348), after the session too
(DESIGN CHOICE, log 55). -/
def execDebugResume (tid : Nat) (s : State) : Out :=
  partStep (match s.thread tid with
    | none => none
    | some t =>
      if ¬ t.debugStop ∨ t.state ≠ .trapped ∨ s.mgmt.power ≠ 0 then none
      else some (((s.recordCommand .resume [word tid]).setThread tid { t with debugStop := false }).resumeAt tid t.csr.tepc))

/-- Every queue of MTs spilled to the overflow area (R378): run queues, deques, grove queues and die queues, in ascending
order of their units (DESIGN CHOICE, log 51). -/
def State.spillAll (s : State) : State :=
  let q := (List.range 2048).flatMap (fun c => (s.core c).runq ++ (s.core c).deque)
  let g := (List.range 256).flatMap (fun g => (look s.groveQ g).getD [])
  let d := (List.range 8).flatMap (fun d => (look s.dieQ d).getD [])
  { s with
    overflow := s.overflow ++ q ++ g ++ d, groveQ := [], dieQ := [],
    cores := s.cores.map (fun (e : Nat × Core) => (e.1, { e.2 with runq := [], deque := [] })) }

/-- Segments of 64 MiB of HBM (R378). -/
def segments : Nat := hbmEnd / 2 ^ 26

/-- The flits of a segment for a target whose memory begins at base there (R378, R386). -/
def State.segmentFlits (s : State) (dev seg : Nat) (base : Word) : List Flit :=
  (List.range (2 ^ 20)).map (fun i => { blankFlit with
    cls := 3, sub := 1, kind := 12, ddev := dev, addr := (base.toNat + 64 * i) % 2 ^ 56, tag := seg % 2 ^ 16, len := 64,
    payload := s.rdBytes (seg * 2 ^ 26 + 64 * i) 64 })

/-- An image with segment seg taken from HBM as it is now: what the flits of the segment carry (R378). -/
def Image.withSegment (im : Image) (s : State) (seg place : Nat) : Image :=
  let lo := seg * 2 ^ 26
  let hi := lo + 2 ^ 26
  let here := fun (k : Nat) => decide (lo ≤ k ∧ k < hi)
  { mem := im.mem.filter (fun e => decide (e.1 < lo)) ++ s.mem.filter (fun e => here e.1) ++ im.mem.filter (fun e => decide (hi ≤ e.1))
    full := im.full.filter (fun e => ! here (8 * e.1)) ++ s.full.filter (fun e => here (8 * e.1))
    poison := im.poison.filter (fun k => ! here k) ++ s.poison.filter here
    placed := put im.placed seg place }

/-- Flits of a checkpoint that have not reached the far end of a link. -/
def State.bulkPending (s : State) : Bool :=
  s.queued.any (fun f => decide (f.kind = 12)) || s.links.any (fun k => k.sent.any (fun f => decide (f.kind = 12)))

/-- Step 7 of CHECKPOINT (R378): the device goes on, and what waited for the end takes effect (R368). -/
def State.endCheckpoint (s : State) : State :=
  let s := s.modMgmt (fun m => { m with ckpt := false, stream := none, slotWaits := [] })
  let s := if s.mgmt.powerLater = some 2 then s.preemptAll else s
  s.settlePower

/-- Step 6 of CHECKPOINT (R378): the next segment goes to the target whose turn it is, or to the next one where that cannot be
reached; the image is in the safe tier once every segment has arrived. With no target left it is in none
(DESIGN CHOICE, log 51). In a replay links carry nothing, and the checkpoint ends at once (DESIGN CHOICE, log 54). -/
def State.streamStep (s : State) (st : Stream) : State :=
  let live := s.targets.filter (fun t => ¬ t.2 ∈ st.dead)
  let turn := ((live.find? (fun t => decide (t.2 ≥ st.next))).or live.head?)
  if s.replaying then s.endCheckpoint
  else
  match st.left, turn with
  | [], _ => if s.bulkPending then s else ({ s with image := some st.sent } : State).endCheckpoint
  | _ :: _, none => s.endCheckpoint
  | seg :: rest, some (dev, place) =>
    if s.queued.any (fun f => decide (f.kind = 12)) then s
    else if dev = s.mgmt.devno ∨ (s.route dev).isNone then s.targetLost dev seg
    else
      let s := s.modMgmt (fun m => { m with stream := some { st with
        left := rest, sent := st.sent.withSegment s seg place, next := place + 1 } })
      (s.segmentFlits dev seg (nth s.mgmt.cktgt (2 * place + 1) 0)).foldl (fun (s : State) f => s.sendFlit f) s

/-- Steps 3 to 7 of CHECKPOINT (R378), once its device is quiet: bands saved, MT queues spilled, the machine record written,
then HBM streamed. -/
def State.finishCheckpoint (s : State) : State :=
  if ¬ s.mgmt.ckpt then s
  else
    match s.mgmt.stream with
    | some st => s.streamStep st
    | none =>
      if ¬ s.emptied ∨ ¬ s.drained then s
      else
        let s := s.saveBands
        if ¬ s.bandsSaved then s
        else s.spillAll.writeRecord.modMgmt (fun m => { m with stream := some { left := List.range segments } })

/-- CHECKPOINT (R378): steps 1 and 2; the rest follows once every resident has been pre-empted and the queues are empty. -/
def execCheckpoint (s : State) : Out :=
  partStep (if s.mgmt.power ≠ 0 ∨ s.mgmt.ckpt then none
    else some ((s.recordCommand .checkpoint []).modMgmt (fun m => { m with ckpt := true })).preemptAll)

/-- HBM as far as the image has been streamed back (R380). -/
def State.loadMemory (s : State) (im : Image) (limit : Nat) : State :=
  let old := s.mem.filter (fun e => decide (limit ≤ e.1))
  { s with
    mem := im.mem.filter (fun e => decide (e.1 < limit)) ++ old,
    poison := im.poison.filter (fun k => decide (k < limit)) ++ s.poison.filter (fun k => decide (limit ≤ k)),
    full := im.full.filter (fun e => decide (8 * e.1 < limit)) ++ s.full.filter (fun e => decide (limit ≤ 8 * e.1)) }

/-- The machine record loaded into its units (R380): the time base and the device number stay. Queues of MTs, threads and the
maps of the save regions come from the section that the model writes after those of R380 (DESIGN CHOICE, log 51). What RESTORE
brings back comes from the management controller (R367). -/
def State.loadRecord (s : State) (r : Loaded) : State :=
  let h := fun (i : Nat) => nth r.head i 0
  let old := fun (c : Nat) => nth r.kept.maps c {}
  { s with
    ctl := (List.range 11).map (fun i => h (7 + i)), roots := (h 7, h 8), hlc := if (h 53).toNat > s.hlc.toNat then h 53 else s.hlc,
    cores := (r.cores.zip (List.range r.cores.length)).map (fun e => (e.2, (old e.2).taking e.1.1)),
    threads := r.kept.threads, nextTid := max s.nextTid r.kept.nextTid,
    launches := r.allLaunches.map (fun e => (e.1, { e.2 with managed := true })), nextLnum := (h 54).toNat,
    completions := r.kept.completions, groveQ := [], dieQ := [], overflow := r.kept.overflow, npSeen := r.kept.npSeen,
    barriers := (r.barriers.zip (List.range r.barriers.length)).map (fun e => (e.2, e.1)), accs := [], tlbs := [],
    stale := [], dropped := s.dropped + 1, waiters := r.kept.waiters,
    watch := (r.slices.zip (List.range r.slices.length)).map (fun e => (e.2, e.1.1)), canopy := r.kept.canopy,
    replicas := r.kept.replicas.map (fun e => (e.1, { e.2 with timers := e.2.timers.map (fun t => (t.1, s.time)) })),
    mailOut := r.kept.mailOut,
    dieTurns := (List.range 8).map (fun d => (d, (nth r.cores (256 * d) ({}, [])).1.rotation)),
    mgmt := { s.mgmt with ftbase := h 18, elbase := h 19, recbase := h 20, cktgt := (List.range 32).map (fun i => h (21 + i)) } }

/-- The device goes into RECOVERY once its residents have been pre-empted (R367). -/
def State.recover (s : State) : State := ((s.modMgmt (fun m => { m with modeLater := some 3 })).preemptAll).settleMode

/-- The first segment of an image that cannot be read from the targets named (R380). -/
def Image.unreadable (im : Image) (src : RestoreSource) : Option Nat :=
  let missing := (im.placed.filter (fun e => ¬ e.2 ∈ src.targets)).map (fun e => e.1)
  (src.badSegment.toList ++ missing).foldl (fun acc n => some (min n (acc.getD n))) none

/-- An entry of the error log for a RESTORE that is refused or fails (R381). -/
def State.logRestore (s : State) (seg why : Nat) : State := s.logError 0x19 unitDevice (word seg) (word why)

/-- A RESTORE command as the words of a record: a bit for each target, and the segment that cannot be read. -/
def restoreWords (src : RestoreSource) : List Word :=
  [flagWord ((List.range 64).map (fun i => decide (i ∈ src.targets))), word (match src.badSegment with
    | some n => n + 1
    | none => 0)]

def restoreOf (ws : List Word) : RestoreSource :=
  { targets := (List.range 64).filter (fun i => bitAt (nth ws 0 0) i), badSegment := (match (nth ws 1 0).toNat with
    | 0 => none
    | n + 1 => some n) }

/-- RESTORE (R380): refusals and failures are logged, in D1 and D2 too; in START-UP and TEST it needs D0, and a record that
cannot be read is one of no known version (DESIGN CHOICE, log 52). -/
def execRestore (src : RestoreSource) (s : State) : Out :=
  partStep (if s.mgmt.power = 3 then none
    else
      let q := s.recordCommand .restore (restoreWords src)
      if q.mode ≠ .boot ∧ q.mode ≠ .test then some (q.logRestore 0 1)
      else if s.mgmt.power ≠ 0 then none
      else
        let s := q
        match s.image with
        | none => some ((s.logRestore (src.badSegment.getD 0) 4).recover)
        | some im =>
          match im.unreadable src with
          | some n => some (((s.loadMemory im (n * 2 ^ 26)).logRestore n 4).recover)
          | none =>
            let s := s.loadMemory im hbmEnd
            if s.headerWord 0 ≠ 1 then some (s.logRestore 0 2)
            else if (s.headerWord 1).toNat ≠ s.mgmt.devno then some (s.logRestore 0 3)
            else
              match s.readRecord with
              | none => some (s.logRestore 0 2)
              | some r => some ((s.loadRecord r).modMgmt (fun m => { m with held := decide (s.mode = .boot) })))

/-- The fabric table's own words (R326). -/
def State.writeFabricTable (s : State) : State :=
  let d := s.mgmt.devno
  let w0 := word ((if d % 16 = 0 then 2 ^ 20 else 0) + d % 16 * 2 ^ 16 + d % 4096)
  (s.wrWord (s.ftKey 0) w0).writeUp

/-- The root of trust at bring-up (R370): the images in load order up to the first that does not verify, which it gives;
the measurements of those that do, and the keys that DICE layering derives from them (PRESUMED, log 49). -/
def State.verifyFirmware (s : State) (images : List Firmware) : State × Option Nat :=
  let good := images.takeWhile (fun f => signedByFuses s.mgmt.keyHash f.key f.image f.signature)
  let ms := good.map (fun f => sha384 f.image)
  let cdi := Config.derive Config.deviceSecret (ms.headD [])
  let identity := Config.derive cdi []
  let later := (ms.drop 1).flatten
  (s.modMgmt (fun m => { m with
    firmware := good.map (fun f => f.image), measurements := ms, cdi := cdi, identityKey := identity,
    aliasKey := Config.derive identity later,
    debugKey := Config.derive identity (later ++ [1]) }),
   if good.length < images.length then some good.length else none)

/-- The entries of the modules that a boundary has lost at bring-up, in their order (R15, R381). -/
def State.logRemoved (s : State) (e : Nat × List Nat) : State :=
  (e.2.zip (List.range e.2.length)).foldl (fun (s : State) q => s.logError 0x03 (unitBoundary e.1) (word q.1) (word (47 - q.2))) s

/-- The bits of word i of the launch-queue table that firmware's write leaves: SHAREK and BALB, or WEIGHT and URGENT (R7,
R40). -/
def queueBits (i : Nat) : Word := if i = 0 then 0x1F1F else 0x1FF

/-- Bring-up in its order (R379): firmware verified, the device trained, numbers and tables set, START-UP entered. Until
firmware sets ELBASE the log is where the controller has it. A module that fails training is removed from its boundary and
logged (R15, R381). A token that the root of trust verifies, presented to the controller, enters DEBUG-FULL (R372). -/
def State.bringUp (s : State) (b : BringUp) : State :=
  let s := s.bare.modMgmt (fun m => { m with power := 0, secst := 0 })
  let stop := fun (s : State) => { s with mode := Mode.recovery }
  match s.verifyFirmware b.images with
  | (s, some bad) => stop ((s.modMgmt (fun m => { m with secst := 3 })).logError 0x15 unitManagement (word bad) 0)
  | (s, none) =>
    if ¬ b.trainOk then stop (s.logError 0x16 (b.badUnit % 2 ^ 16) (word b.badStep) (word b.cause))
    else
      let lost := (fit 10 [] b.removed).map (fun (l : List Nat) => dedup (l.filter (fun m => decide (m < 48))))
      let s := { s with boundaries := lost.map (fun (l : List Nat) => (48 - l.length, l)) }
      let full := (b.debugToken.map s.verifiesToken).getD false
      let s := s.modMgmt (fun m => { m with
        secst := if full then 2 else 0, devno := b.devno % 4096, ftbase := b.ftbase, elbase := b.elbase, recbase := b.recbase,
        cktgt := fit 32 0 b.cktgt,
        launchArea := b.launchArea, relay := b.relay })
      let s := ((List.range 10).zip lost).foldl State.logRemoved s
      let weak := ((List.range 10).zip s.boundaries).filter (fun e => decide (e.2.1 < 24))
      if ¬ weak.isEmpty then
        stop (weak.foldl (fun (s : State) e => s.logError 0x04 (unitBoundary e.1) (word e.2.1) 0) s)
      else
        let ctl := ((fit 11 0 b.control).zip (List.range 11)).map (fun e => e.1 &&& controlBits e.2)
        let s := { s with
          links := (List.range 16).map (fun l => ({ up := bitAt b.linksUp l } : Link)), ctl := modify ctl 10 (fun _ => 0),
          roots := (nth ctl 0 0, nth ctl 1 0) }
        let queues := ((fit 17 0 b.queues).zip (List.range 17)).map (fun e => e.1 &&& queueBits e.2)
        let s := { s.writeFabricTable with lqtStart := queues.drop 1 }
        (queues.zip (List.range 17)).foldl (fun (s : State) e => s.wrWord (s.lqtKey e.2) e.1) s

/-- BRING_UP (R379): from D3, from RECOVERY, or at any reset of the device (DESIGN CHOICE, log 2, 53). -/
def execBringUp (b : BringUp) (s : State) : Out := partStep (some (s.bringUp b))

/-- The number that a record gives a register of the controller (R382 gives none) (DESIGN CHOICE, log 44). -/
def regCode (r : HostReg) : Option Nat :=
  match r with
  | .ftbase => some 0
  | .elbase => some 1
  | .recbase => some 2
  | .det => some 3
  | .mode => some 4
  | .pstate => some 5
  | .secst => some 6
  | .cktgt i => some (16 + i)
  | _ => none

/-- The register of a number in a record. -/
def codedReg (n : Nat) : HostReg :=
  match n with
  | 0 => .ftbase
  | 1 => .elbase
  | 2 => .recbase
  | 3 => .det
  | 4 => .mode
  | 5 => .pstate
  | 6 => .secst
  | n => .cktgt (n - 16)

/-- A register of the management controller or of BAR0 and BAR2 written (R7, R338, R358, R366); a write of the controller's
registers is a management command (R374) (DESIGN CHOICE, log 50). -/
def State.writeRegister (s : State) (r : HostReg) (v : Word) : Option State :=
  let s := match regCode r with
    | some n => s.recordCommand .register [word n, v]
    | none => s
  match r with
  | .bar2 off => s.bar2Write off (bytesOf 8 v.toNat)
  | .ftbase => some (s.modMgmt (fun m => { m with ftbase := word (bits v 39 6 * 2 ^ 6) }))
  | .elbase =>
    some (s.modMgmt (fun m => { m with elbase := word (bits v 39 16 * 2 ^ 16 + bits v 15 0), elIndex := m.elIndex % (bits v 15 0 + 1) }))
  | .recbase => some (s.modMgmt (fun m => { m with recbase := word (bits v 39 16 * 2 ^ 16 + bits v 15 0), recIndex := 0 }))
  | .det => some (s.modMgmt (fun m => { m with det := bitAt v 0, reclost := m.reclost && ! bitAt v 1 }))
  | .mode => some ((s.requestMode (bits v 1 0)).getD s)
  | .pstate =>
    let s := if bits v 3 2 = s.mgmt.level ∧ s.mgmt.levelLater = none then s else s.writeLevel (bits v 3 2) (bits v 1 0)
    some (if bits v 1 0 ≠ 0 then s.requestPower (bits v 1 0)
      else s.wake.getD (s.modMgmt (fun m => { m with powerLater := none })))
  | .secst => some s
  | .cktgt i => some (s.modMgmt (fun m => { m with cktgt := modify m.cktgt i (fun _ => v) }))
  | .control off => if s.mgmt.power = 0 then some (s.wrWord (controlPage + off) v) else none
  | r => if s.hostOpen then some (s.bar0Write r v) else none

/-- REGISTER_WRITE (R7, R366). -/
def execRegisterWrite (r : HostReg) (v : Word) (s : State) : Out := partStep (s.writeRegister r v)

/-- May a debugger reach something, to read or to write it (R373). What the record holds of a slice lies on the ledge (R11). -/
def State.reaches (s : State) (w : DebugAt) (write : Bool) : Bool :=
  let user := fun (tid : Nat) => match s.thread tid, s.mgmt.token with
    | some t, some (ls, _) => t.user && decide (t.lnum ∈ ls)
    | _, _ => false
  let named := match w with
    | .context tid _ => user tid
    | .memory tid _ _ => user tid
    | _ => false
  let log := s.elEntry 0
  match s.security, s.mgmt.power with
  | 1, 0 => named
  | 1, 1 => named && ! write
  | 2, 0 => true
  | 2, 1 => ! write
  | 2, 2 => (match w with
    | .physical k n => decide (k + n ≤ 2 ^ 44 ∨ 2 ^ 45 ≤ k)
    | .slice _ _ => true
    | .register _ => true
    | _ => false)
  | 3, 0 => (match w with
    | .physical k n => decide (log ≤ k ∧ k + n ≤ log + 32 * (bits s.mgmt.elbase 15 0 + 1))
    | .register _ => true
    | _ => false)
  | _, _ => false

/-- A register of the controller as it reads (R366). -/
def State.registerWord (s : State) (r : HostReg) : Word :=
  match r with
  | .ftbase => s.mgmt.ftbase
  | .elbase => s.mgmt.elbase
  | .recbase => s.mgmt.recbase
  | .det => s.mgmt.detWord
  | .mode => word s.modeCode
  | .pstate => s.mgmt.pstate
  | .secst => word s.security
  | .cktgt i => nth s.mgmt.cktgt i 0
  | _ => 0

/-- What the machine record holds of a core, a slice or the device, as a debugger sees it (R373, R380). -/
def State.debugWords (s : State) (w : DebugAt) : List Word :=
  match w with
  | .core c _ => coreCodec.put (s.core c)
  | .slice c _ => (watchCodec.list.pair homedCodec.list).put (s.watchTable c, s.homedAt c)
  | .device _ => deviceCodec.put ((List.range 4096).map s.barrier, s.launches)
  | _ => []

/-- The state with such words in place of those; none where they lay nothing out. -/
def State.putDebugWords (s : State) (w : DebugAt) (ws : List Word) : Option State :=
  match w with
  | .core c _ => (coreCodec.get ws).map (fun r => s.modCore c (fun k => { k.taking r.1 with nextSlot := k.nextSlot }))
  | .slice c _ => ((watchCodec.list.pair homedCodec.list).get ws).map (fun r =>
      r.1.2.foldl (fun (s : State) q => s.modLaunch q.1 (fun l => { l with queues := modify l.queues q.2.1 (fun _ => q.2.2) }))
        { s with watch := put s.watch c r.1.1 })
  | .device _ => (deviceCodec.get ws).map (fun r => { s with
      barriers := (r.1.1.zip (List.range r.1.1.length)).map (fun e => (e.2, e.1)),
      launches := r.1.2.map (fun e => (e.1, (match s.launchOf e.1 with
        | some l => { e.2 with queues := l.queues, word16 := l.word16 }
        | none => e.2))) })
  | _ => none

/-- What a debugger reads (R373): none where an address is not mapped for the thread. -/
def State.debugBytes (s : State) (w : DebugAt) : Option (List Byte) :=
  let at' := fun (i : Nat) => some (bytesOf 8 (nth (s.debugWords w) i 0).toNat)
  match w with
  | .context tid i => (s.thread tid).map (fun t => bytesOf 8 (nth (s.contextWords t t.csr.tcause) i 0).toNat)
  | .memory tid a n =>
    (match s.thread tid with
     | none => none
     | some t => (match s.locateBytes t.who .load a n with
       | .ok ls => some (ls.map (fun l => (s.readAt l 1).1.headD 0))
       | .error _ => none))
  | .physical k n => some (s.rdBytes k n)
  | .core _ i => at' i
  | .slice _ i => at' i
  | .device i => at' i
  | .register r => some (bytesOf 8 (s.registerWord r).toNat)

/-- What a debugger writes (R373): registers of a thread's window, `pw` and the pc, bytes of memory, a word of what the record
holds of a unit, or a register of the controller; other words of a context stay (DESIGN CHOICE, log 55). -/
def State.debugPut (s : State) (w : DebugAt) (bs : List Byte) : Option State :=
  let x := word (ofBytes (bs.take 8))
  let at' := fun (i : Nat) => s.putDebugWords w (modify (s.debugWords w) i (fun _ => x))
  match w with
  | .context tid i => (s.thread tid).map (fun t => s.setThread tid
      (if i < 112 then { t with x := modify t.x i (fun _ => x) }
       else if i = 114 then { t with pw := x } else if i = 115 then { t with pc := x } else t))
  | .memory tid a n =>
    (match s.thread tid with
     | none => none
     | some t => (match s.locateBytes t.who .store a n with
       | .ok ls => some ((ls.zip bs).foldl (fun (s : State) e => s.writeAt e.1 [e.2] (e.1.home % 4096)) s)
       | .error _ => none))
  | .physical k n => some (s.physWrite k (bs.take n))
  | .core _ i => at' i
  | .slice _ i => at' i
  | .device i => at' i
  | .register r => s.writeRegister r x

/-- What a debugger's write names, as words of a record (DESIGN CHOICE, log 54). -/
def DebugAt.words (w : DebugAt) : List Word :=
  match w with
  | .context tid i => [0, word tid, word i, 0]
  | .memory tid a n => [1, word tid, a, word n]
  | .physical k n => [2, word k, word n, 0]
  | .core c i => [3, word c, word i, 0]
  | .slice c i => [4, word c, word i, 0]
  | .device i => [5, word i, 0, 0]
  | .register _ => [6, 0, 0, 0]

def debugAtOf (ws : List Word) : DebugAt :=
  let n := fun i => (nth ws i 0).toNat
  match n 0 with
  | 0 => .context (n 1) (n 2)
  | 1 => .memory (n 1) (nth ws 2 0) (n 3)
  | 2 => .physical (n 1) (n 2)
  | 3 => .core (n 1) (n 2)
  | 4 => .slice (n 1) (n 2)
  | _ => .device (n 1)

/-- A read by a debugger through the management controller (R373). -/
def State.debugRead (s : State) (w : DebugAt) : Out :=
  partStep (if ¬ s.reaches w false then none
    else (s.debugBytes w).map (fun bs => s.modMgmt (fun m => { m with debugReads := m.debugReads ++ [bs] })))

/-- A write by a debugger through the management controller (R373), of at most 4,096 bytes, recorded as a management command
(R374); a register's write is one already (DESIGN CHOICE, log 54, 55). -/
def State.debugWrite (s : State) (w : DebugAt) (bs : List Byte) : Out :=
  partStep (if ¬ s.reaches w true ∨ bs.length > 4096 then none
    else
      match w with
      | .register _ => s.debugPut w bs
      | w => (s.recordCommand .debug (w.words ++ word bs.length :: bytesWords bs)).debugPut w bs)

/-- A recorded write by a debugger. -/
def State.debugCommand (s : State) (ps : List Word) : Out :=
  s.debugWrite (debugAtOf ps) ((wordsBytes (ps.drop 5)).take (nth ps 4 0).toNat)

/-- What a recorded flit arrival delivers: the meaning of its kind (R327, R382). -/
def deliverFlit (f : Flit) (s : State) : Out :=
  match f.kind with
  | 0 => execRemoteCopyData f s
  | 1 => execRemoteCopyCompletionRequest f s
  | 2 => execRemoteCopyReport f s
  | 3 => execMailboxPayload f s
  | 4 => execMailboxSequenceWord f s
  | 5 => execSlotReleaseNotice f s
  | 6 => execCutHeader f s
  | 7 => execCutUnit f s
  | 8 => execCutMarker f s
  | 9 => execCutAcknowledgement f s
  | 10 => execTimeBaseSynchronisation f s
  | 11 =>
    (match f.param with
     | 0 => execDiscardReport f s
     | 1 => execLinkAcknowledgement f s
     | 2 => execRetryRequest f s
     | 3 => execLinkIdle f s
     | 4 => execBulkWriteFault f s
     | _ => execReservedKindFlit f s)
  | 12 => execBulkData f s
  | _ => execReservedKindFlit f s

/-- The flit that a record of kind 1 holds, from its header words and payload. -/
def recordedFlit (link : Nat) (h : List Word) (payload : List Byte) : Flit :=
  let w := fun i => nth h i 0
  { link := link, cls := bits (w 0) 63 62, sub := bits (w 0) 61 61, kind := bits (w 0) 60 55, ddev := bits (w 0) 54 43,
    sdev := bits (w 0) 42 31, dlcn := bits (w 0) 30 20, slcn := bits (w 0) 19 9, hops := bits (w 0) 8 4,
    len := bits (w 1) 63 57, addr := bits (w 1) 55 0, tag := bits (w 2) 63 48, eseq := bits (w 2) 47 32,
    lseq := bits (w 2) 31 16, param := bits (w 3) 63 32, crc := bits (w 3) 31 0,
    spare := bits (w 0) 3 0 + bits (w 1) 56 56 * 16 + bits (w 2) 15 0 * 32, payload := payload }

/-- The register that a BAR0 offset names (R338). -/
def bar0Reg (off : Nat) : HostReg :=
  if off = 8 then .hosttail else if off = 0x18 then .mhost else if off = 0x28 then .lmslots
  else if 0x100 ≤ off ∧ off < 0x500 then .msixTable ((off - 0x100) / 8) else if off = 0x500 then .msixPba else .bar0Other off

/-- A recorded host write through BAR0 performed again. -/
def State.replayBar0 (s : State) (off : Nat) (v : Word) : State :=
  let run := fun (o : Out) => match o with
    | .next t => t
    | _ => s
  if off = 0 then run (execLdoor v s)
  else if off = 0x10 then run (execMdoor v s)
  else if off = 0x20 then run (execSummary v s)
  else s.bar0Write (bar0Reg off) v

/-- A recorded management command performed again (R375). -/
def State.replayCommand (s : State) (c : Command) (ps : List Word) : State :=
  let run := fun (o : Out) => match o with
    | .next t => t
    | _ => s
  match c with
  | .service => run (execEnterService s)
  | .test => run (execEnterTest s)
  | .restore => run (execRestore (restoreOf ps) s)
  | .token => run (execDebugToken (tokenIn ps) s)
  | .debug => run (s.debugCommand ps)
  | .level => run (execClockLevelWrite ((nth ps 0 0).truncate 2) s)
  | .d1 => run (execEnterD1 s)
  | .d2 => run (execEnterD2 s)
  | .d3 => run (execEnterD3 s)
  | .wake => run (execWakeD0 s)
  | .checkpoint => run (execCheckpoint s)
  | .launch => run (execManagementLaunchSubmission (nth ps 0 0) s)
  | .revocation => run (execDebugTokenRevocation s)
  | .resume => run (execDebugResume (nth ps 0 0).toNat s)
  | .summary => run (s.takeSummary false (nth ps 0 0))
  | .register => (s.writeRegister (codedReg (nth ps 0 0).toNat) (nth ps 1 0)).getD s

/-- A recorded change of power state or level taking effect (R368, R375): between two rotations, and for D2 once the device is
drained and saved; none until then. -/
def State.deliverPower (s : State) (p level : Nat) : Option State :=
  let set := fun (s : State) => s.modMgmt (fun m => { m with power := p, level := level, powerLater := none, slotWaits := [] })
  if ¬ s.betweenRotations then none
  else if p = 2 ∧ s.mgmt.power ≠ 2 then
    let saved := s.saveBands
    if s.emptied ∧ s.drained ∧ saved.bandsSaved then some (set saved.powerDown) else none
  else some (set s)

/-- What a recorded event does when it is delivered (R375, R382): its recorded words, and its continuation; none where it
cannot take effect yet (DESIGN CHOICE, log 54). -/
def State.deliver (s : State) (unit kind : Nat) (w2 w3 : Word) (cont : List Word) : Option State :=
  let live := { s.modMgmt (fun m => { m with det := false }) with mode := .service }
  let back := fun (t : State) => if t.mgmt.power = 3 ∨ t.mode = .recovery then t
    else { t.modMgmt (fun m => { m with det := s.mgmt.det }) with mode := s.mode }
  match kind with
  | 1 =>
    let f := recordedFlit (unit % 4096) [w2, w3, nth cont 0 0, nth cont 1 0] ((cont.drop 2).flatMap (fun w => bytesOf 8 w.toNat))
    match deliverFlit f live with
    | .next t => some (back t)
    | _ => some s
  | 2 => some (back (live.replayBar0 w2.toNat w3))
  | 3 => some (back (live.bar2Put (bits w2 31 0) ((wordsBytes (w3 :: cont)).take (bits w2 63 32))))
  | 4 => (match commandOf w2 with
    | some c =>
      let t := back (live.replayCommand c (w3 :: cont))
      let v := nth cont 0 0
      some (if c ≠ .register then t
        else if codedReg w3.toNat = .det then t.modMgmt (fun m => { m with det := bitAt v 0 })
        else if codedReg w3.toNat = .recbase then t.modMgmt (fun m => { m with replayAt := some 0 })
        else t)
    | none => some s)
  | 7 =>
    (s.live.find? (fun e => decide (e.2.state = .blocked ∧ e.2.tidWord = w2))).map (fun e =>
      s.enterTrap e.1 false ⟨cWAITLIMIT, (e.2.wait.map (fun (q : Wait) => q.tval)).getD 0⟩ e.2.pc)
  | 8 => some (s.moveCore (bits w2 13 0) w3.toNat (bits w2 18 16) (bits w2 22 20))
  | 9 =>
    let c := unit % 4096
    let new := (List.range 8).map (fun j => bits w2 (4 * j + 3) (4 * j))
    some (if s.shareDue c then (((s.passNotify c).shareTo c new).closeShare c) else s.shareTo c new)
  | 10 => s.deliverPower (bits w3 1 0) (bits w3 3 2)
  | _ => some (s.modMgmt (fun m => { m with supplied := m.supplied ++ [(kind, unit, w2, w3)] }))

/-- Word j of the record ring, as RECBASE names it. -/
def State.recordWord (s : State) (j : Nat) : Word := s.rdWord (bits s.mgmt.recbase 39 16 * 2 ^ 16 + 8 * j)

/-- A record of the ring: where it stands, its rotation count, unit, kind, continuations, and word 2. -/
structure Recorded where
  index : Nat
  rot : Nat
  unit : Nat
  kind : Nat
  more : Nat
  who : Word

/-- The core whose turns wait for a record: its own, or the one that its die's scheduler goes round with
(DESIGN CHOICE, log 54). -/
def Recorded.core (r : Recorded) : Nat := if r.unit / 4096 = 0 then r.unit % 4096 else 256 * unitScheduler r.unit

/-- The record at index i of the ring; none beyond the last (R382). -/
def State.recordedAt (s : State) (i : Nat) : Option Recorded :=
  let w1 := s.recordWord (4 * i + 1)
  let kind := bits w1 23 16
  if kind = 0 ∨ kind > 10 ∨ i ≥ (bits s.mgmt.recbase 15 0 + 1) * 2048 then none
  else some ⟨i, (s.recordWord (4 * i)).toNat, bits w1 15 0, kind, bits w1 31 24, s.recordWord (4 * i + 2)⟩

/-- Is a record the end of a wait whose thread has yet to block in the record's rotation (R375). -/
def State.notYetBlocked (s : State) (r : Recorded) : Bool :=
  decide (r.kind = 7 ∧ s.unitRotation r.unit ≤ r.rot) &&
    ! s.live.any (fun e => decide (e.2.state = .blocked ∧ e.2.tidWord = r.who))

/-- Has the ring, from index i, a record for core c at its present rotation: the core waits until it is delivered (R375), but
not for what comes after the end of a wait that has yet to begin (DESIGN CHOICE, log 54). -/
def State.recordWaits (s : State) (c i fuel : Nat) : Bool :=
  match fuel with
  | 0 => false
  | n + 1 =>
    match s.recordedAt i with
    | none => false
    | some r => ! s.notYetBlocked r && (decide (r.core = c ∧ r.rot ≤ s.unitRotation r.unit) || s.recordWaits c (i + 1 + r.more) n)

/-- Does core c of a replay wait for a record (R375). -/
def State.awaitsRecord (s : State) (c : Nat) : Bool :=
  s.replaying && s.recordWaits c (s.mgmt.replayAt.getD 0) ((bits s.mgmt.recbase 15 0 + 1) * 2048)

/-- REPLAY_EVENT_DELIVERY (R375): the next record of the ring at RECBASE, at its rotation count; the end of a wait that has not
come to pass in its rotation is passed over (DESIGN CHOICE, log 54). -/
def execReplayEventDelivery (s : State) : Out :=
  partStep (if s.mode ≠ .test ∨ ¬ s.mgmt.det then none
    else
      match s.recordedAt (s.mgmt.replayAt.getD 0) with
      | none => none
      | some r =>
        let past := s.modMgmt (fun m => { m with replayAt := some (r.index + 1 + r.more) })
        if s.unitRotation r.unit ≠ r.rot then (if r.kind = 7 ∧ s.unitRotation r.unit > r.rot then some past else none)
        else
          let w := fun j => s.recordWord (4 * r.index + j)
          let cont := (List.range (4 * r.more)).map (fun j => w (4 + j))
          past.deliver r.unit r.kind (w 2) (w 3) cont)

/-- ILLEGAL_ENCODING (R107, R128): the word that the issuing thread has fetched is no instruction. -/
def execIllegalEncoding (word : BitVec 32) (s : State) : Out :=
  match s.thread s.cur with
  | none => .fault .noIssuingThread
  | some t =>
    if t.state = .exited then .fault .noIssuingThread
    else .next { s.enterTrap s.cur false ⟨cILLEGAL, word.zeroExtend 64⟩ t.pc with freeN := s.freeN + 1 }

end Sys2Proof.Machine
end

