-- ==== Sys2Proof/Machine/Dispatch.lean ====
section
/-! DEFINITION. What each instruction does: one arm for each constructor, each a direct call of its meaning. -/
namespace Sys2Proof.Machine

def exec (i : Instr) (s : State) : Host.Outcome State Fault Refusal :=
  match i with
  | .handlerStart core slot => Sys2Proof.Machine.execHandlerStart core slot s
  | .threadPlacement core slot pos => Sys2Proof.Machine.execThreadPlacement core slot pos s
  | .shareComputation core => Sys2Proof.Machine.execShareComputation core s
  | .urgentShareComputation core => Sys2Proof.Machine.execUrgentShareComputation core s
  | .preemption tid => Sys2Proof.Machine.execPreemption tid s
  | .preemptionGraceExpiry tid => Sys2Proof.Machine.execPreemptionGraceExpiry tid s
  | .waitLimitExpiry tid => Sys2Proof.Machine.execWaitLimitExpiry tid s
  | .deferredResultReturn acc => Sys2Proof.Machine.execDeferredResultReturn acc s
  | .mtArrival tid => Sys2Proof.Machine.execMtArrival tid s
  | .launchInboxCompletion lnum => Sys2Proof.Machine.execLaunchInboxCompletion lnum s
  | .launchMailboxCompletion lnum => Sys2Proof.Machine.execLaunchMailboxCompletion lnum s
  | .stageBalancer lnum => Sys2Proof.Machine.execStageBalancer lnum s
  | .asyncTrapDelivery tid => Sys2Proof.Machine.execAsyncTrapDelivery tid s
  | .uintDelivery tid => Sys2Proof.Machine.execUintDelivery tid s
  | .homeWrite acc => Sys2Proof.Machine.execHomeWrite acc s
  | .directoryOverflow line => Sys2Proof.Machine.execDirectoryOverflow line s
  | .copyStart core op => Sys2Proof.Machine.execCopyStart core op s
  | .copyCompletion core op => Sys2Proof.Machine.execCopyCompletion core op s
  | .copyInboxAction core op => Sys2Proof.Machine.execCopyInboxAction core op s
  | .pushAction core op => Sys2Proof.Machine.execPushAction core op s
  | .mxuCommandStart grove => Sys2Proof.Machine.execMxuCommandStart grove s
  | .mxuRow core op => Sys2Proof.Machine.execMxuRow core op s
  | .mxuCommandComplete core op => Sys2Proof.Machine.execMxuCommandComplete core op s
  | .watchActionStart slice entry => Sys2Proof.Machine.execWatchActionStart slice entry s
  | .canopyRound group => Sys2Proof.Machine.execCanopyRound group s
  | .remoteCopyData f => Sys2Proof.Machine.execRemoteCopyData f s
  | .remoteCopyCompletionRequest f => Sys2Proof.Machine.execRemoteCopyCompletionRequest f s
  | .remoteCopyReport f => Sys2Proof.Machine.execRemoteCopyReport f s
  | .mailboxPayload f => Sys2Proof.Machine.execMailboxPayload f s
  | .mailboxSequenceWord f => Sys2Proof.Machine.execMailboxSequenceWord f s
  | .slotReleaseNotice f => Sys2Proof.Machine.execSlotReleaseNotice f s
  | .cutHeader f => Sys2Proof.Machine.execCutHeader f s
  | .cutUnit f => Sys2Proof.Machine.execCutUnit f s
  | .cutMarker f => Sys2Proof.Machine.execCutMarker f s
  | .cutAcknowledgement f => Sys2Proof.Machine.execCutAcknowledgement f s
  | .timeBaseSynchronisation f => Sys2Proof.Machine.execTimeBaseSynchronisation f s
  | .discardReport f => Sys2Proof.Machine.execDiscardReport f s
  | .linkAcknowledgement f => Sys2Proof.Machine.execLinkAcknowledgement f s
  | .retryRequest f => Sys2Proof.Machine.execRetryRequest f s
  | .linkIdle f => Sys2Proof.Machine.execLinkIdle f s
  | .bulkWriteFault f => Sys2Proof.Machine.execBulkWriteFault f s
  | .bulkData f => Sys2Proof.Machine.execBulkData f s
  | .linkOutOfService link => Sys2Proof.Machine.execLinkOutOfService link s
  | .boundaryModuleFailure boundary module => Sys2Proof.Machine.execBoundaryModuleFailure boundary module s
  | .cutSend sotx die peer => Sys2Proof.Machine.execCutSend sotx die peer s
  | .membershipEvaluation sotx die => Sys2Proof.Machine.execMembershipEvaluation sotx die s
  | .silenceExpiry sotx die member => Sys2Proof.Machine.execSilenceExpiry sotx die member s
  | .rshipBoundExpiry sotx die => Sys2Proof.Machine.execRshipBoundExpiry sotx die s
  | .migrationRequest page => Sys2Proof.Machine.execMigrationRequest page s
  | .ldoor v => Sys2Proof.Machine.execLdoor v s
  | .launchMailboxTake => Sys2Proof.Machine.execLaunchMailboxTake s
  | .mdoor v => Sys2Proof.Machine.execMdoor v s
  | .dmhead v => Sys2Proof.Machine.execDmhead v s
  | .summary v => Sys2Proof.Machine.execSummary v s
  | .registerWrite r v => Sys2Proof.Machine.execRegisterWrite r v s
  | .checkpoint => Sys2Proof.Machine.execCheckpoint s
  | .restore src => Sys2Proof.Machine.execRestore src s
  | .bringUp b => Sys2Proof.Machine.execBringUp b s
  | .enterService => Sys2Proof.Machine.execEnterService s
  | .enterTest => Sys2Proof.Machine.execEnterTest s
  | .enterD1 => Sys2Proof.Machine.execEnterD1 s
  | .enterD2 => Sys2Proof.Machine.execEnterD2 s
  | .enterD3 => Sys2Proof.Machine.execEnterD3 s
  | .wakeD0 => Sys2Proof.Machine.execWakeD0 s
  | .clockLevelWrite level => Sys2Proof.Machine.execClockLevelWrite level s
  | .clockLevelChange => Sys2Proof.Machine.execClockLevelChange s
  | .debugToken tok => Sys2Proof.Machine.execDebugToken tok s
  | .debugTokenExpiry => Sys2Proof.Machine.execDebugTokenExpiry s
  | .debugTokenRevocation => Sys2Proof.Machine.execDebugTokenRevocation s
  | .debugResume tid => Sys2Proof.Machine.execDebugResume tid s
  | .getVersion => Sys2Proof.Machine.execGetVersion s
  | .getCapabilities => Sys2Proof.Machine.execGetCapabilities s
  | .negotiateAlgorithms => Sys2Proof.Machine.execNegotiateAlgorithms s
  | .getDigests => Sys2Proof.Machine.execGetDigests s
  | .getCertificate => Sys2Proof.Machine.execGetCertificate s
  | .challenge r => Sys2Proof.Machine.execChallenge r s
  | .getMeasurements r => Sys2Proof.Machine.execGetMeasurements r s
  | .sessionEstablishment => Sys2Proof.Machine.execSessionEstablishment s
  | .replayEventDelivery => Sys2Proof.Machine.execReplayEventDelivery s
  | .illegalEncoding word => Sys2Proof.Machine.execIllegalEncoding word s
  | .flitCrcFailure f => Sys2Proof.Machine.execFlitCrcFailure f s
  | .reservedKindFlit f => Sys2Proof.Machine.execReservedKindFlit f s
  | .managementLaunchSubmission addr => Sys2Proof.Machine.execManagementLaunchSubmission addr s
  | .add w d a b => Sys2Proof.Machine.execAdd w d a b s
  | .sub w d a b => Sys2Proof.Machine.execSub w d a b s
  | .and w d a b => Sys2Proof.Machine.execAnd w d a b s
  | .or w d a b => Sys2Proof.Machine.execOr w d a b s
  | .xor w d a b => Sys2Proof.Machine.execXor w d a b s
  | .andn w d a b => Sys2Proof.Machine.execAndn w d a b s
  | .shl w d a b => Sys2Proof.Machine.execShl w d a b s
  | .shr w d a b => Sys2Proof.Machine.execShr w d a b s
  | .sra w d a b => Sys2Proof.Machine.execSra w d a b s
  | .min w d a b => Sys2Proof.Machine.execMin w d a b s
  | .max w d a b => Sys2Proof.Machine.execMax w d a b s
  | .minn w d a b => Sys2Proof.Machine.execMinn w d a b s
  | .maxn w d a b => Sys2Proof.Machine.execMaxn w d a b s
  | .mul w d a b => Sys2Proof.Machine.execMul w d a b s
  | .mulh w d a b => Sys2Proof.Machine.execMulh w d a b s
  | .mulhn w d a b => Sys2Proof.Machine.execMulhn w d a b s
  | .divs w d a b => Sys2Proof.Machine.execDivs w d a b s
  | .divn w d a b => Sys2Proof.Machine.execDivn w d a b s
  | .rems w d a b => Sys2Proof.Machine.execRems w d a b s
  | .remn w d a b => Sys2Proof.Machine.execRemn w d a b s
  | .clz w d a => Sys2Proof.Machine.execClz w d a s
  | .ctz w d a => Sys2Proof.Machine.execCtz w d a s
  | .popc w d a => Sys2Proof.Machine.execPopc w d a s
  | .rotl w d a b => Sys2Proof.Machine.execRotl w d a b s
  | .rotr w d a b => Sys2Proof.Machine.execRotr w d a b s
  | .addsh1 w d a b => Sys2Proof.Machine.execAddsh1 w d a b s
  | .addsh2 w d a b => Sys2Proof.Machine.execAddsh2 w d a b s
  | .addsh3 w d a b => Sys2Proof.Machine.execAddsh3 w d a b s
  | .spbank w d a => Sys2Proof.Machine.execSpbank w d a s
  | .sprow w d a => Sys2Proof.Machine.execSprow w d a s
  | .brev w d a => Sys2Proof.Machine.execBrev w d a s
  | .bswap w d a => Sys2Proof.Machine.execBswap w d a s
  | .ceq w p k a b => Sys2Proof.Machine.execCeq w p k a b s
  | .cne w p k a b => Sys2Proof.Machine.execCne w p k a b s
  | .clt w p k a b => Sys2Proof.Machine.execClt w p k a b s
  | .cle w p k a b => Sys2Proof.Machine.execCle w p k a b s
  | .cltn w p k a b => Sys2Proof.Machine.execCltn w p k a b s
  | .clen w p k a b => Sys2Proof.Machine.execClen w p k a b s
  | .cbit w p k a b => Sys2Proof.Machine.execCbit w p k a b s
  | .addi w d a i_ => Sys2Proof.Machine.execAddi w d a i_ s
  | .andi w d a i_ => Sys2Proof.Machine.execAndi w d a i_ s
  | .ori w d a i_ => Sys2Proof.Machine.execOri w d a i_ s
  | .xori w d a i_ => Sys2Proof.Machine.execXori w d a i_ s
  | .muli w d a i_ => Sys2Proof.Machine.execMuli w d a i_ s
  | .shli w d a n => Sys2Proof.Machine.execShli w d a n s
  | .shri w d a n => Sys2Proof.Machine.execShri w d a n s
  | .srai w d a n => Sys2Proof.Machine.execSrai w d a n s
  | .rotli w d a n => Sys2Proof.Machine.execRotli w d a n s
  | .ceqi w p k a i_ => Sys2Proof.Machine.execCeqi w p k a i_ s
  | .cnei w p k a i_ => Sys2Proof.Machine.execCnei w p k a i_ s
  | .clti w p k a i_ => Sys2Proof.Machine.execClti w p k a i_ s
  | .clei w p k a i_ => Sys2Proof.Machine.execClei w p k a i_ s
  | .cltni w p k a i_ => Sys2Proof.Machine.execCltni w p k a i_ s
  | .cleni w p k a i_ => Sys2Proof.Machine.execCleni w p k a i_ s
  | .cgti w p k a i_ => Sys2Proof.Machine.execCgti w p k a i_ s
  | .cgei w p k a i_ => Sys2Proof.Machine.execCgei w p k a i_ s
  | .exti w d a x l => Sys2Proof.Machine.execExti w d a x l s
  | .lqz w d q i_ => Sys2Proof.Machine.execLqz w d q i_ s
  | .lqk w d q i_ => Sys2Proof.Machine.execLqk w d q i_ s
  | .pcadd w d q i_ => Sys2Proof.Machine.execPcadd w d q i_ s
  | .psel w d a b k => Sys2Proof.Machine.execPsel w d a b k s
  | .pand w k j m => Sys2Proof.Machine.execPand w k j m s
  | .por w k j m => Sys2Proof.Machine.execPor w k j m s
  | .pxor w k j m => Sys2Proof.Machine.execPxor w k j m s
  | .pandn w k j m => Sys2Proof.Machine.execPandn w k j m s
  | .porn w k j m => Sys2Proof.Machine.execPorn w k j m s
  | .pnand w k j m => Sys2Proof.Machine.execPnand w k j m s
  | .pnor w k j m => Sys2Proof.Machine.execPnor w k j m s
  | .pxnor w k j m => Sys2Proof.Machine.execPxnor w k j m s
  | .brPset w x o => Sys2Proof.Machine.execBrPset w x o s
  | .brPclr w x o => Sys2Proof.Machine.execBrPclr w x o s
  | .brZ w x o => Sys2Proof.Machine.execBrZ w x o s
  | .brNz w x o => Sys2Proof.Machine.execBrNz w x o s
  | .brEop w o => Sys2Proof.Machine.execBrEop w o s
  | .brEos w o => Sys2Proof.Machine.execBrEos w o s
  | .brQe w o => Sys2Proof.Machine.execBrQe w o s
  | .br w o => Sys2Proof.Machine.execBr w o s
  | .jmp w o => Sys2Proof.Machine.execJmp w o s
  | .jal w o => Sys2Proof.Machine.execJal w o s
  | .jalr w d a i_ => Sys2Proof.Machine.execJalr w d a i_ s
  | .repf w n m t => Sys2Proof.Machine.execRepf w n m t s
  | .nop w => Sys2Proof.Machine.execNop w s
  | .yield w => Sys2Proof.Machine.execYield w s
  | .texit w a j => Sys2Proof.Machine.execTexit w a j s
  | .halt w => Sys2Proof.Machine.execHalt w s
  | .faddF32 w d a b => Sys2Proof.Machine.execFaddF32 w d a b s
  | .fsubF32 w d a b => Sys2Proof.Machine.execFsubF32 w d a b s
  | .fmulF32 w d a b => Sys2Proof.Machine.execFmulF32 w d a b s
  | .fdivF32 w d a b => Sys2Proof.Machine.execFdivF32 w d a b s
  | .fsqrtF32 w d a => Sys2Proof.Machine.execFsqrtF32 w d a s
  | .fminF32 w d a b => Sys2Proof.Machine.execFminF32 w d a b s
  | .fmaxF32 w d a b => Sys2Proof.Machine.execFmaxF32 w d a b s
  | .fmaF32 w d a b => Sys2Proof.Machine.execFmaF32 w d a b s
  | .fmsF32 w d a b => Sys2Proof.Machine.execFmsF32 w d a b s
  | .fnmaF32 w d a b => Sys2Proof.Machine.execFnmaF32 w d a b s
  | .fabsF32 w d a => Sys2Proof.Machine.execFabsF32 w d a s
  | .fnegF32 w d a => Sys2Proof.Machine.execFnegF32 w d a s
  | .fcpsF32 w d a b => Sys2Proof.Machine.execFcpsF32 w d a b s
  | .fceqF32 w p k a b => Sys2Proof.Machine.execFceqF32 w p k a b s
  | .fcltF32 w p k a b => Sys2Proof.Machine.execFcltF32 w p k a b s
  | .fcleF32 w p k a b => Sys2Proof.Machine.execFcleF32 w p k a b s
  | .faddF64 w d a b => Sys2Proof.Machine.execFaddF64 w d a b s
  | .fsubF64 w d a b => Sys2Proof.Machine.execFsubF64 w d a b s
  | .fmulF64 w d a b => Sys2Proof.Machine.execFmulF64 w d a b s
  | .fdivF64 w d a b => Sys2Proof.Machine.execFdivF64 w d a b s
  | .fsqrtF64 w d a => Sys2Proof.Machine.execFsqrtF64 w d a s
  | .fminF64 w d a b => Sys2Proof.Machine.execFminF64 w d a b s
  | .fmaxF64 w d a b => Sys2Proof.Machine.execFmaxF64 w d a b s
  | .fmaF64 w d a b => Sys2Proof.Machine.execFmaF64 w d a b s
  | .fmsF64 w d a b => Sys2Proof.Machine.execFmsF64 w d a b s
  | .fnmaF64 w d a b => Sys2Proof.Machine.execFnmaF64 w d a b s
  | .fabsF64 w d a => Sys2Proof.Machine.execFabsF64 w d a s
  | .fnegF64 w d a => Sys2Proof.Machine.execFnegF64 w d a s
  | .fcpsF64 w d a b => Sys2Proof.Machine.execFcpsF64 w d a b s
  | .fceqF64 w p k a b => Sys2Proof.Machine.execFceqF64 w p k a b s
  | .fcltF64 w p k a b => Sys2Proof.Machine.execFcltF64 w p k a b s
  | .fcleF64 w p k a b => Sys2Proof.Machine.execFcleF64 w p k a b s
  | .fcvtF64F32 w d a => Sys2Proof.Machine.execFcvtF64F32 w d a s
  | .fcvtF32F64 w d a => Sys2Proof.Machine.execFcvtF32F64 w d a s
  | .fcvtF32S64 w d a => Sys2Proof.Machine.execFcvtF32S64 w d a s
  | .fcvtF32N64 w d a => Sys2Proof.Machine.execFcvtF32N64 w d a s
  | .fcvtF64S64 w d a => Sys2Proof.Machine.execFcvtF64S64 w d a s
  | .fcvtF64N64 w d a => Sys2Proof.Machine.execFcvtF64N64 w d a s
  | .fcvtS64F32 w d a => Sys2Proof.Machine.execFcvtS64F32 w d a s
  | .fcvtN64F32 w d a => Sys2Proof.Machine.execFcvtN64F32 w d a s
  | .fcvtS64F64 w d a => Sys2Proof.Machine.execFcvtS64F64 w d a s
  | .fcvtN64F64 w d a => Sys2Proof.Machine.execFcvtN64F64 w d a s
  | .fcvtF32B16 w d a => Sys2Proof.Machine.execFcvtF32B16 w d a s
  | .fcvtB16F32 w d a => Sys2Proof.Machine.execFcvtB16F32 w d a s
  | .fcvtF32F16 w d a => Sys2Proof.Machine.execFcvtF32F16 w d a s
  | .fcvtF16F32 w d a => Sys2Proof.Machine.execFcvtF16F32 w d a s
  | .fcvtF32E4 w d a => Sys2Proof.Machine.execFcvtF32E4 w d a s
  | .fcvtF32E5 w d a => Sys2Proof.Machine.execFcvtF32E5 w d a s
  | .fcvtE4F32 w d a => Sys2Proof.Machine.execFcvtE4F32 w d a s
  | .fcvtE5F32 w d a => Sys2Proof.Machine.execFcvtE5F32 w d a s
  | .vadd w d a b m t => Sys2Proof.Machine.execVadd w d a b m t s
  | .vsub w d a b m t => Sys2Proof.Machine.execVsub w d a b m t s
  | .vmul w d a b m t => Sys2Proof.Machine.execVmul w d a b m t s
  | .vdiv w d a b m t => Sys2Proof.Machine.execVdiv w d a b m t s
  | .vfma w d a b m t => Sys2Proof.Machine.execVfma w d a b m t s
  | .vfms w d a b m t => Sys2Proof.Machine.execVfms w d a b m t s
  | .vfnma w d a b m t => Sys2Proof.Machine.execVfnma w d a b m t s
  | .vsqrt w d a m t => Sys2Proof.Machine.execVsqrt w d a m t s
  | .vmin w d a b m t => Sys2Proof.Machine.execVmin w d a b m t s
  | .vmax w d a b m t => Sys2Proof.Machine.execVmax w d a b m t s
  | .vabs w d a m t => Sys2Proof.Machine.execVabs w d a m t s
  | .vneg w d a m t => Sys2Proof.Machine.execVneg w d a m t s
  | .vcps w d a b m t => Sys2Proof.Machine.execVcps w d a b m t s
  | .vrcp w d a m t => Sys2Proof.Machine.execVrcp w d a m t s
  | .vrsq w d a m t => Sys2Proof.Machine.execVrsq w d a m t s
  | .vexp2 w d a m t => Sys2Proof.Machine.execVexp2 w d a m t s
  | .vlog2 w d a m t => Sys2Proof.Machine.execVlog2 w d a m t s
  | .vdot w d a b m t => Sys2Proof.Machine.execVdot w d a b m t s
  | .vand w d a b m t => Sys2Proof.Machine.execVand w d a b m t s
  | .vor w d a b m t => Sys2Proof.Machine.execVor w d a b m t s
  | .vxor w d a b m t => Sys2Proof.Machine.execVxor w d a b m t s
  | .vshl w d a b m t => Sys2Proof.Machine.execVshl w d a b m t s
  | .vshr w d a b m t => Sys2Proof.Machine.execVshr w d a b m t s
  | .vsra w d a b m t => Sys2Proof.Machine.execVsra w d a b m t s
  | .vceq w c a b m t => Sys2Proof.Machine.execVceq w c a b m t s
  | .vcne w c a b m t => Sys2Proof.Machine.execVcne w c a b m t s
  | .vclt w c a b m t => Sys2Proof.Machine.execVclt w c a b m t s
  | .vcle w c a b m t => Sys2Proof.Machine.execVcle w c a b m t s
  | .vsel w d a b t => Sys2Proof.Machine.execVsel w d a b t s
  | .vadds w d a b m t => Sys2Proof.Machine.execVadds w d a b m t s
  | .vsubs w d a b m t => Sys2Proof.Machine.execVsubs w d a b m t s
  | .vmulh w d a b m t => Sys2Proof.Machine.execVmulh w d a b m t s
  | .vcvt w d a p m t s_ => Sys2Proof.Machine.execVcvt w d a p m t s_ s
  | .vperm w d a b m t => Sys2Proof.Machine.execVperm w d a b m t s
  | .vbcst w d a l m t => Sys2Proof.Machine.execVbcst w d a l m t s
  | .vins w d a l m t => Sys2Proof.Machine.execVins w d a l m t s
  | .vext w d a l m t => Sys2Proof.Machine.execVext w d a l m t s
  | .vzipl w d a b m t => Sys2Proof.Machine.execVzipl w d a b m t s
  | .vziph w d a b m t => Sys2Proof.Machine.execVziph w d a b m t s
  | .vuzpe w d a b m t => Sys2Proof.Machine.execVuzpe w d a b m t s
  | .vuzpo w d a b m t => Sys2Proof.Machine.execVuzpo w d a b m t s
  | .vrsum w d a m t => Sys2Proof.Machine.execVrsum w d a m t s
  | .vrmax w d a m t => Sys2Proof.Machine.execVrmax w d a m t s
  | .vrmin w d a m t => Sys2Proof.Machine.execVrmin w d a m t s
  | .vrand w d a m t => Sys2Proof.Machine.execVrand w d a m t s
  | .vror w d a m t => Sys2Proof.Machine.execVror w d a m t s
  | .vmovs w d a m t => Sys2Proof.Machine.execVmovs w d a m t s
  | .lds8 w t b r o => Sys2Proof.Machine.execLds8 w t b r o s
  | .ldn8 w t b r o => Sys2Proof.Machine.execLdn8 w t b r o s
  | .lds16 w t b r o => Sys2Proof.Machine.execLds16 w t b r o s
  | .ldn16 w t b r o => Sys2Proof.Machine.execLdn16 w t b r o s
  | .lds32 w t b r o => Sys2Proof.Machine.execLds32 w t b r o s
  | .ldn32 w t b r o => Sys2Proof.Machine.execLdn32 w t b r o s
  | .ld64 w t b r o => Sys2Proof.Machine.execLd64 w t b r o s
  | .st8 w t b r o => Sys2Proof.Machine.execSt8 w t b r o s
  | .st16 w t b r o => Sys2Proof.Machine.execSt16 w t b r o s
  | .st32 w t b r o => Sys2Proof.Machine.execSt32 w t b r o s
  | .st64 w t b r o => Sys2Proof.Machine.execSt64 w t b r o s
  | .vld w t b m r => Sys2Proof.Machine.execVld w t b m r s
  | .vlds w t b x m r => Sys2Proof.Machine.execVlds w t b x m r s
  | .vgth w t b x m r => Sys2Proof.Machine.execVgth w t b x m r s
  | .vst w t b m r => Sys2Proof.Machine.execVst w t b m r s
  | .vsts w t b x m r => Sys2Proof.Machine.execVsts w t b x m r s
  | .vsct w t b x m r => Sys2Proof.Machine.execVsct w t b x m r s
  | .amo64Swap w d a b r => Sys2Proof.Machine.execAmo64Swap w d a b r s
  | .amo64Cas w d a b r => Sys2Proof.Machine.execAmo64Cas w d a b r s
  | .amo64Add w d a b r => Sys2Proof.Machine.execAmo64Add w d a b r s
  | .amo64Fadd w d a b r => Sys2Proof.Machine.execAmo64Fadd w d a b r s
  | .amo32Swap w d a b r => Sys2Proof.Machine.execAmo32Swap w d a b r s
  | .amo32Cas w d a b r => Sys2Proof.Machine.execAmo32Cas w d a b r s
  | .amo32Add w d a b r => Sys2Proof.Machine.execAmo32Add w d a b r s
  | .amo32Fadd w d a b r => Sys2Proof.Machine.execAmo32Fadd w d a b r s
  | .redAdd w z s_ a b => Sys2Proof.Machine.execRedAdd w z s_ a b s
  | .redAnd w z s_ a b => Sys2Proof.Machine.execRedAnd w z s_ a b s
  | .redOr w z s_ a b => Sys2Proof.Machine.execRedOr w z s_ a b s
  | .redXor w z s_ a b => Sys2Proof.Machine.execRedXor w z s_ a b s
  | .redMax w z s_ a b => Sys2Proof.Machine.execRedMax w z s_ a b s
  | .redMin w z s_ a b => Sys2Proof.Machine.execRedMin w z s_ a b s
  | .redMaxn w z s_ a b => Sys2Proof.Machine.execRedMaxn w z s_ a b s
  | .redMinn w z s_ a b => Sys2Proof.Machine.execRedMinn w z s_ a b s
  | .redFadd w z s_ a b => Sys2Proof.Machine.execRedFadd w z s_ a b s
  | .redFmax w z s_ a b => Sys2Proof.Machine.execRedFmax w z s_ a b s
  | .redFmin w z s_ a b => Sys2Proof.Machine.execRedFmin w z s_ a b s
  | .vamoSwap w d a b m t r => Sys2Proof.Machine.execVamoSwap w d a b m t r s
  | .vamoAdd w d a b m t r => Sys2Proof.Machine.execVamoAdd w d a b m t r s
  | .vamoAnd w d a b m t r => Sys2Proof.Machine.execVamoAnd w d a b m t r s
  | .vamoOr w d a b m t r => Sys2Proof.Machine.execVamoOr w d a b m t r s
  | .vamoXor w d a b m t r => Sys2Proof.Machine.execVamoXor w d a b m t r s
  | .vamoMax w d a b m t r => Sys2Proof.Machine.execVamoMax w d a b m t r s
  | .vamoMin w d a b m t r => Sys2Proof.Machine.execVamoMin w d a b m t r s
  | .vamoFadd w d a b m t r => Sys2Proof.Machine.execVamoFadd w d a b m t r s
  | .fence w s_ => Sys2Proof.Machine.execFence w s_ s
  | .ldfe w d a => Sys2Proof.Machine.execLdfe w d a s
  | .ldfec w d a => Sys2Proof.Machine.execLdfec w d a s
  | .stfe w d a => Sys2Proof.Machine.execStfe w d a s
  | .waitge w d a => Sys2Proof.Machine.execWaitge w d a s
  | .migrate w a => Sys2Proof.Machine.execMigrate w a s
  | .prefetch w a l => Sys2Proof.Machine.execPrefetch w a l s
  | .fork w d a n => Sys2Proof.Machine.execFork w d a n s
  | .joinw w a => Sys2Proof.Machine.execJoinw w a s
  | .launch w a => Sys2Proof.Machine.execLaunch w a s
  | .tinfo w d s_ => Sys2Proof.Machine.execTinfo w d s_ s
  | .qbind w q a => Sys2Proof.Machine.execQbind w q a s
  | .qpoll w d q => Sys2Proof.Machine.execQpoll w d q s
  | .send w q a => Sys2Proof.Machine.execSend w q a s
  | .sende w q a => Sys2Proof.Machine.execSende w q a s
  | .vqrd w v q => Sys2Proof.Machine.execVqrd w v q s
  | .vqwr w q v => Sys2Proof.Machine.execVqwr w q v s
  | .itemget w d a => Sys2Proof.Machine.execItemget w d a s
  | .itemput w d a o => Sys2Proof.Machine.execItemput w d a o s
  | .barj w a => Sys2Proof.Machine.execBarj w a s
  | .barl w a => Sys2Proof.Machine.execBarl w a s
  | .bara w a => Sys2Proof.Machine.execBara w a s
  | .barw w a => Sys2Proof.Machine.execBarw w a s
  | .barm w d a => Sys2Proof.Machine.execBarm w d a s
  | .csig w d a s_ => Sys2Proof.Machine.execCsig w d a s_ s
  | .xset w d f e => Sys2Proof.Machine.execXset w d f e s
  | .xget w d f e => Sys2Proof.Machine.execXget w d f e s
  | .xlaunch w d e => Sys2Proof.Machine.execXlaunch w d e s
  | .xwait w a e => Sys2Proof.Machine.execXwait w a e s
  | .trig w d a => Sys2Proof.Machine.execTrig w d a s
  | .trigc w a => Sys2Proof.Machine.execTrigc w a s
  | .trigq w d a => Sys2Proof.Machine.execTrigq w d a s
  | .mxwait w a => Sys2Proof.Machine.execMxwait w a s
  | .mxrd w v a => Sys2Proof.Machine.execMxrd w v a s
  | .hdone w => Sys2Proof.Machine.execHdone w s
  | .ppt w m => Sys2Proof.Machine.execPpt w m s
  | .radd w d a => Sys2Proof.Machine.execRadd w d a s
  | .rmax w d a => Sys2Proof.Machine.execRmax w d a s
  | .rlww w d a => Sys2Proof.Machine.execRlww w d a s
  | .rsadd w d a => Sys2Proof.Machine.execRsadd w d a s
  | .rsrem w d a => Sys2Proof.Machine.execRsrem w d a s
  | .rshas w d a k => Sys2Proof.Machine.execRshas w d a k s
  | .rmean w d a => Sys2Proof.Machine.execRmean w d a s
  | .rfront w d a c => Sys2Proof.Machine.execRfront w d a c s
  | .rwaitf w d a c => Sys2Proof.Machine.execRwaitf w d a c s
  | .hlcrd w d => Sys2Proof.Machine.execHlcrd w d s
  | .rship w a => Sys2Proof.Machine.execRship w a s
  | .rstat w d a s_ => Sys2Proof.Machine.execRstat w d a s_ s
  | .mbsend w d a => Sys2Proof.Machine.execMbsend w d a s
  | .mbrecv w d a => Sys2Proof.Machine.execMbrecv w d a s
  | .mbpoll w d a => Sys2Proof.Machine.execMbpoll w d a s
  | .trputAdd w v t => Sys2Proof.Machine.execTrputAdd w v t s
  | .trputMin w v t => Sys2Proof.Machine.execTrputMin w v t s
  | .trputMax w v t => Sys2Proof.Machine.execTrputMax w v t s
  | .trputAnd w v => Sys2Proof.Machine.execTrputAnd w v s
  | .trputOr w v => Sys2Proof.Machine.execTrputOr w v s
  | .trputXor w v => Sys2Proof.Machine.execTrputXor w v s
  | .trputBcast w v t => Sys2Proof.Machine.execTrputBcast w v t s
  | .trputBarrier w v => Sys2Proof.Machine.execTrputBarrier w v s
  | .trget w v => Sys2Proof.Machine.execTrget w v s
  | .trap w c => Sys2Proof.Machine.execTrap w c s
  | .eret w => Sys2Proof.Machine.execEret w s
  | .uiret w => Sys2Proof.Machine.execUiret w s
  | .csrrd w d c n => Sys2Proof.Machine.execCsrrd w d c n s
  | .csrwr w d c n => Sys2Proof.Machine.execCsrwr w d c n s
  | .csrset w d c n => Sys2Proof.Machine.execCsrset w d c n s
  | .csrclr w d c n => Sys2Proof.Machine.execCsrclr w d c n s
  | .grd w d g => Sys2Proof.Machine.execGrd w d g s
  | .gwr w d g => Sys2Proof.Machine.execGwr w d g s
  | .tlbinv w a s_ => Sys2Proof.Machine.execTlbinv w a s_ s
  | .tlbinvAll w s_ => Sys2Proof.Machine.execTlbinvAll w s_ s
  | .bkpt w => Sys2Proof.Machine.execBkpt w s

end Sys2Proof.Machine
end

