-- ==== Sys2Proof/Machine/Fetch.lean ====
section
/-! DEFINITION. The word a thread issues (R132, R147, R148) and what it does: decoded and checked (R107 step 1), then its
meaning. `execWord` is the definition. `runWord` is the same function in a form that the compiler can run: compiled
code cannot build the later constructors of `Instr`, so the majors from FCV on pair each decoded word with its checks and
its meaning without building the instruction. `execWord_eq` says that the two are equal. -/
namespace Sys2Proof.Machine

/-- A field of a captured word moved by δ (R148): the word, and the number that is out of range. -/
def moveField (w δ lo width off limit : Nat) : Nat × Option Nat :=
  let f := w / 2 ^ lo % 2 ^ width
  if width = 7 ∧ f ≥ 112 then (w, none)
  else if f + δ ≥ limit then (w, some (off + f + δ))
  else (w + δ * 2 ^ lo, none)

/-- Is a captured word a scalar compare, whose D holds a `pw` bit (R172). -/
def frameCompare (x : Nat) : Bool :=
  decide ((x / 2 ^ 25 % 64 = 0x18 ∨ x / 2 ^ 25 % 64 = 0x19) ∧ x % 16 ≥ 13)

/-- Stagger(w, δ, mask) of R148: format A for the scalar majors of a frame, format V for the vector ones; the `pw` bit of
a compare as R172 states (DESIGN CHOICE, log 23). -/
def stagger (choose : List Nat → Nat) (w : IWord) (δ mask : Nat) : Except TrapRec Nat :=
  let x := w.toNat
  let vec := decide (x / 2 ^ 25 % 64 ≥ 0x20)
  let bit := frameCompare x && decide (mask % 2 = 1)
  let k := x / 2 ^ 18 % 64
  let moved := x - k * 2 ^ 18 + (k + δ) % 64 * 2 ^ 18
  if bit ∧ k + δ ≥ 64 then .error ⟨cILLEGAL, word moved⟩
  else
    let fields : List (Nat × Nat) :=
      (if mask % 2 = 1 ∧ ¬ bit then [(18, 20)] else []) ++ (if mask / 2 % 2 = 1 then [(11, 15)] else []) ++
      (if mask / 4 % 2 = 1 then [(4, 10)] else [])
    let out := fields.foldl (fun (acc : Nat × List Nat) f =>
      let r := if vec then moveField acc.1 δ f.2 5 128 32 else moveField acc.1 δ f.1 7 0 112
      (r.1, acc.2 ++ r.2.toList)) (if bit then moved else x, [])
    if out.2.isEmpty then .ok out.1 else .error ⟨cREGISTER, word (choose out.2)⟩

/-- The word that the thread issues next, or the trap of its fetch or of its staggering (R132, R148)
(DESIGN CHOICE, log 23). -/
def State.nextWord (s : State) (t : Thread) : Except TrapRec Nat :=
  if t.inFrame ∧ ¬ t.frame.isEmpty then
    let r := t.csr.repst
    stagger s.pick (nth t.frame (bits r 18 15) 0) (bits r 24 19 * (bits r 11 8 + 1)) (bits r 14 12)
  else s.fetchAt t t.pc

/-- What a word does: its first encoding fault (R107 step 1), and its meaning. -/
abbrev Run := Option EncodingFault × (State → Out)

/-- What a decoded instruction does. -/
def asRun (i : Instr) : Run := (i.encodingFault, fun s => exec i s)

/-- A word issued by the thread whose turn it is (R107, R128). -/
noncomputable def execWord (w : Nat) (s : State) : Out :=
  match parse w with
  | none => execIllegalEncoding (BitVec.ofNat 32 w) s
  | some i => if i.encodingFault = none then exec i s else execIllegalEncoding (BitVec.ofNat 32 w) s

/-- As `decodeFcv`: what an instruction word of this major does (R107 step 1, then its meaning). -/
def runFcv (w : Nat) : Option Run :=
  match w / 2 ^ 0 % 16 with
  | 0 => if w / 2 ^ 4 % 128 = 0 then some (first [dst (Sys2Proof.fld w 18 7), src (Sys2Proof.fld w 11 7)],
      Sys2Proof.Machine.execFcvtF64F32 (Sys2Proof.fld w 31 1) (Sys2Proof.fld w 18 7) (Sys2Proof.fld w 11 7))
    else none
  | 1 => if w / 2 ^ 4 % 128 = 0 then some (first [dst (Sys2Proof.fld w 18 7), src (Sys2Proof.fld w 11 7)],
      Sys2Proof.Machine.execFcvtF32F64 (Sys2Proof.fld w 31 1) (Sys2Proof.fld w 18 7) (Sys2Proof.fld w 11 7))
    else none
  | 2 => if w / 2 ^ 4 % 128 = 0 then some (first [dst (Sys2Proof.fld w 18 7), src (Sys2Proof.fld w 11 7)],
      Sys2Proof.Machine.execFcvtF32S64 (Sys2Proof.fld w 31 1) (Sys2Proof.fld w 18 7) (Sys2Proof.fld w 11 7))
    else none
  | 3 => if w / 2 ^ 4 % 128 = 0 then some (first [dst (Sys2Proof.fld w 18 7), src (Sys2Proof.fld w 11 7)],
      Sys2Proof.Machine.execFcvtF32N64 (Sys2Proof.fld w 31 1) (Sys2Proof.fld w 18 7) (Sys2Proof.fld w 11 7))
    else none
  | 4 => if w / 2 ^ 4 % 128 = 0 then some (first [dst (Sys2Proof.fld w 18 7), src (Sys2Proof.fld w 11 7)],
      Sys2Proof.Machine.execFcvtF64S64 (Sys2Proof.fld w 31 1) (Sys2Proof.fld w 18 7) (Sys2Proof.fld w 11 7))
    else none
  | 5 => if w / 2 ^ 4 % 128 = 0 then some (first [dst (Sys2Proof.fld w 18 7), src (Sys2Proof.fld w 11 7)],
      Sys2Proof.Machine.execFcvtF64N64 (Sys2Proof.fld w 31 1) (Sys2Proof.fld w 18 7) (Sys2Proof.fld w 11 7))
    else none
  | 6 => if w / 2 ^ 4 % 128 = 0 then some (first [dst (Sys2Proof.fld w 18 7), src (Sys2Proof.fld w 11 7)],
      Sys2Proof.Machine.execFcvtS64F32 (Sys2Proof.fld w 31 1) (Sys2Proof.fld w 18 7) (Sys2Proof.fld w 11 7))
    else none
  | 7 => if w / 2 ^ 4 % 128 = 0 then some (first [dst (Sys2Proof.fld w 18 7), src (Sys2Proof.fld w 11 7)],
      Sys2Proof.Machine.execFcvtN64F32 (Sys2Proof.fld w 31 1) (Sys2Proof.fld w 18 7) (Sys2Proof.fld w 11 7))
    else none
  | 8 => if w / 2 ^ 4 % 128 = 0 then some (first [dst (Sys2Proof.fld w 18 7), src (Sys2Proof.fld w 11 7)],
      Sys2Proof.Machine.execFcvtS64F64 (Sys2Proof.fld w 31 1) (Sys2Proof.fld w 18 7) (Sys2Proof.fld w 11 7))
    else none
  | 9 => if w / 2 ^ 4 % 128 = 0 then some (first [dst (Sys2Proof.fld w 18 7), src (Sys2Proof.fld w 11 7)],
      Sys2Proof.Machine.execFcvtN64F64 (Sys2Proof.fld w 31 1) (Sys2Proof.fld w 18 7) (Sys2Proof.fld w 11 7))
    else none
  | 10 => if w / 2 ^ 4 % 128 = 0 then some (first [dst (Sys2Proof.fld w 18 7), src (Sys2Proof.fld w 11 7)],
      Sys2Proof.Machine.execFcvtF32B16 (Sys2Proof.fld w 31 1) (Sys2Proof.fld w 18 7) (Sys2Proof.fld w 11 7))
    else none
  | 11 => if w / 2 ^ 4 % 128 = 0 then some (first [dst (Sys2Proof.fld w 18 7), src (Sys2Proof.fld w 11 7)],
      Sys2Proof.Machine.execFcvtB16F32 (Sys2Proof.fld w 31 1) (Sys2Proof.fld w 18 7) (Sys2Proof.fld w 11 7))
    else none
  | 12 => if w / 2 ^ 4 % 128 = 0 then some (first [dst (Sys2Proof.fld w 18 7), src (Sys2Proof.fld w 11 7)],
      Sys2Proof.Machine.execFcvtF32F16 (Sys2Proof.fld w 31 1) (Sys2Proof.fld w 18 7) (Sys2Proof.fld w 11 7))
    else none
  | 13 => if w / 2 ^ 4 % 128 = 0 then some (first [dst (Sys2Proof.fld w 18 7), src (Sys2Proof.fld w 11 7)],
      Sys2Proof.Machine.execFcvtF16F32 (Sys2Proof.fld w 31 1) (Sys2Proof.fld w 18 7) (Sys2Proof.fld w 11 7))
    else none
  | 14 => if w / 2 ^ 4 % 128 = 0 then some (first [dst (Sys2Proof.fld w 18 7), src (Sys2Proof.fld w 11 7)],
      Sys2Proof.Machine.execFcvtF32E4 (Sys2Proof.fld w 31 1) (Sys2Proof.fld w 18 7) (Sys2Proof.fld w 11 7))
    else if w / 2 ^ 4 % 128 = 1 then some (first [dst (Sys2Proof.fld w 18 7), src (Sys2Proof.fld w 11 7)],
      Sys2Proof.Machine.execFcvtF32E5 (Sys2Proof.fld w 31 1) (Sys2Proof.fld w 18 7) (Sys2Proof.fld w 11 7))
    else none
  | 15 => if w / 2 ^ 4 % 128 = 0 then some (first [dst (Sys2Proof.fld w 18 7), src (Sys2Proof.fld w 11 7)],
      Sys2Proof.Machine.execFcvtE4F32 (Sys2Proof.fld w 31 1) (Sys2Proof.fld w 18 7) (Sys2Proof.fld w 11 7))
    else if w / 2 ^ 4 % 128 = 1 then some (first [dst (Sys2Proof.fld w 18 7), src (Sys2Proof.fld w 11 7)],
      Sys2Proof.Machine.execFcvtE5F32 (Sys2Proof.fld w 31 1) (Sys2Proof.fld w 18 7) (Sys2Proof.fld w 11 7))
    else none
  | _ => none

theorem runFcv_eq (w : Nat) : runFcv w = (decodeFcv w).map asRun := by
  unfold runFcv decodeFcv
  split <;> rename_i h
  all_goals (try simp only [h]); all_goals (repeat' split)
  all_goals rfl

/-- As `decodeVa`: what an instruction word of this major does (R107 step 1, then its meaning). -/
def runVa (w : Nat) : Option Run :=
  match w / 2 ^ 0 % 64 with
  | 0 => some (first [types [0, 1, 2, 5, 6, 7] (Sys2Proof.fld w 6 3), vbank (Sys2Proof.fld w 15 5) (Sys2Proof.fld w 10 5)],
      Sys2Proof.Machine.execVadd (Sys2Proof.fld w 31 1) (Sys2Proof.fld w 20 5) (Sys2Proof.fld w 15 5) (Sys2Proof.fld w 10 5) (Sys2Proof.fld w 9 1) (Sys2Proof.fld w 6 3))
  | 1 => some (first [types [0, 1, 2, 5, 6, 7] (Sys2Proof.fld w 6 3), vbank (Sys2Proof.fld w 15 5) (Sys2Proof.fld w 10 5)],
      Sys2Proof.Machine.execVsub (Sys2Proof.fld w 31 1) (Sys2Proof.fld w 20 5) (Sys2Proof.fld w 15 5) (Sys2Proof.fld w 10 5) (Sys2Proof.fld w 9 1) (Sys2Proof.fld w 6 3))
  | 2 => some (first [types [0, 1, 2, 5, 6, 7] (Sys2Proof.fld w 6 3), vbank (Sys2Proof.fld w 15 5) (Sys2Proof.fld w 10 5)],
      Sys2Proof.Machine.execVmul (Sys2Proof.fld w 31 1) (Sys2Proof.fld w 20 5) (Sys2Proof.fld w 15 5) (Sys2Proof.fld w 10 5) (Sys2Proof.fld w 9 1) (Sys2Proof.fld w 6 3))
  | 3 => some (first [types [0, 1, 2] (Sys2Proof.fld w 6 3), vbank (Sys2Proof.fld w 15 5) (Sys2Proof.fld w 10 5)],
      Sys2Proof.Machine.execVdiv (Sys2Proof.fld w 31 1) (Sys2Proof.fld w 20 5) (Sys2Proof.fld w 15 5) (Sys2Proof.fld w 10 5) (Sys2Proof.fld w 9 1) (Sys2Proof.fld w 6 3))
  | 4 => some (first [types [0, 1, 2] (Sys2Proof.fld w 6 3), vbank (Sys2Proof.fld w 15 5) (Sys2Proof.fld w 10 5)],
      Sys2Proof.Machine.execVfma (Sys2Proof.fld w 31 1) (Sys2Proof.fld w 20 5) (Sys2Proof.fld w 15 5) (Sys2Proof.fld w 10 5) (Sys2Proof.fld w 9 1) (Sys2Proof.fld w 6 3))
  | 5 => some (first [types [0, 1, 2] (Sys2Proof.fld w 6 3), vbank (Sys2Proof.fld w 15 5) (Sys2Proof.fld w 10 5)],
      Sys2Proof.Machine.execVfms (Sys2Proof.fld w 31 1) (Sys2Proof.fld w 20 5) (Sys2Proof.fld w 15 5) (Sys2Proof.fld w 10 5) (Sys2Proof.fld w 9 1) (Sys2Proof.fld w 6 3))
  | 6 => some (first [types [0, 1, 2] (Sys2Proof.fld w 6 3), vbank (Sys2Proof.fld w 15 5) (Sys2Proof.fld w 10 5)],
      Sys2Proof.Machine.execVfnma (Sys2Proof.fld w 31 1) (Sys2Proof.fld w 20 5) (Sys2Proof.fld w 15 5) (Sys2Proof.fld w 10 5) (Sys2Proof.fld w 9 1) (Sys2Proof.fld w 6 3))
  | 7 => if w / 2 ^ 10 % 32 = 0 then some (first [types [0, 1, 2] (Sys2Proof.fld w 6 3)],
      Sys2Proof.Machine.execVsqrt (Sys2Proof.fld w 31 1) (Sys2Proof.fld w 20 5) (Sys2Proof.fld w 15 5) (Sys2Proof.fld w 9 1) (Sys2Proof.fld w 6 3))
    else none
  | 8 => some (first [vbank (Sys2Proof.fld w 15 5) (Sys2Proof.fld w 10 5)],
      Sys2Proof.Machine.execVmin (Sys2Proof.fld w 31 1) (Sys2Proof.fld w 20 5) (Sys2Proof.fld w 15 5) (Sys2Proof.fld w 10 5) (Sys2Proof.fld w 9 1) (Sys2Proof.fld w 6 3))
  | 9 => some (first [vbank (Sys2Proof.fld w 15 5) (Sys2Proof.fld w 10 5)],
      Sys2Proof.Machine.execVmax (Sys2Proof.fld w 31 1) (Sys2Proof.fld w 20 5) (Sys2Proof.fld w 15 5) (Sys2Proof.fld w 10 5) (Sys2Proof.fld w 9 1) (Sys2Proof.fld w 6 3))
  | 10 => if w / 2 ^ 10 % 32 = 0 then some (first [types [0, 1, 2, 3, 4, 5, 7] (Sys2Proof.fld w 6 3)],
      Sys2Proof.Machine.execVabs (Sys2Proof.fld w 31 1) (Sys2Proof.fld w 20 5) (Sys2Proof.fld w 15 5) (Sys2Proof.fld w 9 1) (Sys2Proof.fld w 6 3))
    else none
  | 11 => if w / 2 ^ 10 % 32 = 0 then some (first [types [0, 1, 2, 3, 4, 5, 7] (Sys2Proof.fld w 6 3)],
      Sys2Proof.Machine.execVneg (Sys2Proof.fld w 31 1) (Sys2Proof.fld w 20 5) (Sys2Proof.fld w 15 5) (Sys2Proof.fld w 9 1) (Sys2Proof.fld w 6 3))
    else none
  | 12 => some (first [types [0, 1, 2, 3, 4] (Sys2Proof.fld w 6 3), vbank (Sys2Proof.fld w 15 5) (Sys2Proof.fld w 10 5)],
      Sys2Proof.Machine.execVcps (Sys2Proof.fld w 31 1) (Sys2Proof.fld w 20 5) (Sys2Proof.fld w 15 5) (Sys2Proof.fld w 10 5) (Sys2Proof.fld w 9 1) (Sys2Proof.fld w 6 3))
  | 13 => if w / 2 ^ 10 % 32 = 0 then some (first [types [0] (Sys2Proof.fld w 6 3)],
      Sys2Proof.Machine.execVrcp (Sys2Proof.fld w 31 1) (Sys2Proof.fld w 20 5) (Sys2Proof.fld w 15 5) (Sys2Proof.fld w 9 1) (Sys2Proof.fld w 6 3))
    else none
  | 14 => if w / 2 ^ 10 % 32 = 0 then some (first [types [0] (Sys2Proof.fld w 6 3)],
      Sys2Proof.Machine.execVrsq (Sys2Proof.fld w 31 1) (Sys2Proof.fld w 20 5) (Sys2Proof.fld w 15 5) (Sys2Proof.fld w 9 1) (Sys2Proof.fld w 6 3))
    else none
  | 15 => if w / 2 ^ 10 % 32 = 0 then some (first [types [0] (Sys2Proof.fld w 6 3)],
      Sys2Proof.Machine.execVexp2 (Sys2Proof.fld w 31 1) (Sys2Proof.fld w 20 5) (Sys2Proof.fld w 15 5) (Sys2Proof.fld w 9 1) (Sys2Proof.fld w 6 3))
    else none
  | 16 => if w / 2 ^ 10 % 32 = 0 then some (first [types [0] (Sys2Proof.fld w 6 3)],
      Sys2Proof.Machine.execVlog2 (Sys2Proof.fld w 31 1) (Sys2Proof.fld w 20 5) (Sys2Proof.fld w 15 5) (Sys2Proof.fld w 9 1) (Sys2Proof.fld w 6 3))
    else none
  | 17 => some (first [types [1, 7] (Sys2Proof.fld w 6 3), vbank (Sys2Proof.fld w 15 5) (Sys2Proof.fld w 10 5)],
      Sys2Proof.Machine.execVdot (Sys2Proof.fld w 31 1) (Sys2Proof.fld w 20 5) (Sys2Proof.fld w 15 5) (Sys2Proof.fld w 10 5) (Sys2Proof.fld w 9 1) (Sys2Proof.fld w 6 3))
  | 18 => some (first [vbank (Sys2Proof.fld w 15 5) (Sys2Proof.fld w 10 5)],
      Sys2Proof.Machine.execVand (Sys2Proof.fld w 31 1) (Sys2Proof.fld w 20 5) (Sys2Proof.fld w 15 5) (Sys2Proof.fld w 10 5) (Sys2Proof.fld w 9 1) (Sys2Proof.fld w 6 3))
  | 19 => some (first [vbank (Sys2Proof.fld w 15 5) (Sys2Proof.fld w 10 5)],
      Sys2Proof.Machine.execVor (Sys2Proof.fld w 31 1) (Sys2Proof.fld w 20 5) (Sys2Proof.fld w 15 5) (Sys2Proof.fld w 10 5) (Sys2Proof.fld w 9 1) (Sys2Proof.fld w 6 3))
  | 20 => some (first [vbank (Sys2Proof.fld w 15 5) (Sys2Proof.fld w 10 5)],
      Sys2Proof.Machine.execVxor (Sys2Proof.fld w 31 1) (Sys2Proof.fld w 20 5) (Sys2Proof.fld w 15 5) (Sys2Proof.fld w 10 5) (Sys2Proof.fld w 9 1) (Sys2Proof.fld w 6 3))
  | 21 => some (first [types [5, 6, 7] (Sys2Proof.fld w 6 3), vbank (Sys2Proof.fld w 15 5) (Sys2Proof.fld w 10 5)],
      Sys2Proof.Machine.execVshl (Sys2Proof.fld w 31 1) (Sys2Proof.fld w 20 5) (Sys2Proof.fld w 15 5) (Sys2Proof.fld w 10 5) (Sys2Proof.fld w 9 1) (Sys2Proof.fld w 6 3))
  | 22 => some (first [types [5, 6, 7] (Sys2Proof.fld w 6 3), vbank (Sys2Proof.fld w 15 5) (Sys2Proof.fld w 10 5)],
      Sys2Proof.Machine.execVshr (Sys2Proof.fld w 31 1) (Sys2Proof.fld w 20 5) (Sys2Proof.fld w 15 5) (Sys2Proof.fld w 10 5) (Sys2Proof.fld w 9 1) (Sys2Proof.fld w 6 3))
  | 23 => some (first [types [5, 7] (Sys2Proof.fld w 6 3), vbank (Sys2Proof.fld w 15 5) (Sys2Proof.fld w 10 5)],
      Sys2Proof.Machine.execVsra (Sys2Proof.fld w 31 1) (Sys2Proof.fld w 20 5) (Sys2Proof.fld w 15 5) (Sys2Proof.fld w 10 5) (Sys2Proof.fld w 9 1) (Sys2Proof.fld w 6 3))
  | 24 => if w / 2 ^ 21 % 16 = 0 then some (first [vbank (Sys2Proof.fld w 15 5) (Sys2Proof.fld w 10 5)],
      Sys2Proof.Machine.execVceq (Sys2Proof.fld w 31 1) (Sys2Proof.fld w 20 1) (Sys2Proof.fld w 15 5) (Sys2Proof.fld w 10 5) (Sys2Proof.fld w 9 1) (Sys2Proof.fld w 6 3))
    else none
  | 25 => if w / 2 ^ 21 % 16 = 0 then some (first [vbank (Sys2Proof.fld w 15 5) (Sys2Proof.fld w 10 5)],
      Sys2Proof.Machine.execVcne (Sys2Proof.fld w 31 1) (Sys2Proof.fld w 20 1) (Sys2Proof.fld w 15 5) (Sys2Proof.fld w 10 5) (Sys2Proof.fld w 9 1) (Sys2Proof.fld w 6 3))
    else none
  | 26 => if w / 2 ^ 21 % 16 = 0 then some (first [vbank (Sys2Proof.fld w 15 5) (Sys2Proof.fld w 10 5)],
      Sys2Proof.Machine.execVclt (Sys2Proof.fld w 31 1) (Sys2Proof.fld w 20 1) (Sys2Proof.fld w 15 5) (Sys2Proof.fld w 10 5) (Sys2Proof.fld w 9 1) (Sys2Proof.fld w 6 3))
    else none
  | 27 => if w / 2 ^ 21 % 16 = 0 then some (first [vbank (Sys2Proof.fld w 15 5) (Sys2Proof.fld w 10 5)],
      Sys2Proof.Machine.execVcle (Sys2Proof.fld w 31 1) (Sys2Proof.fld w 20 1) (Sys2Proof.fld w 15 5) (Sys2Proof.fld w 10 5) (Sys2Proof.fld w 9 1) (Sys2Proof.fld w 6 3))
    else none
  | 28 => if w / 2 ^ 9 % 2 = 0 then some (first [vbank (Sys2Proof.fld w 15 5) (Sys2Proof.fld w 10 5)],
      Sys2Proof.Machine.execVsel (Sys2Proof.fld w 31 1) (Sys2Proof.fld w 20 5) (Sys2Proof.fld w 15 5) (Sys2Proof.fld w 10 5) (Sys2Proof.fld w 6 3))
    else none
  | 29 => some (first [types [5, 6, 7] (Sys2Proof.fld w 6 3), vbank (Sys2Proof.fld w 15 5) (Sys2Proof.fld w 10 5)],
      Sys2Proof.Machine.execVadds (Sys2Proof.fld w 31 1) (Sys2Proof.fld w 20 5) (Sys2Proof.fld w 15 5) (Sys2Proof.fld w 10 5) (Sys2Proof.fld w 9 1) (Sys2Proof.fld w 6 3))
  | 30 => some (first [types [5, 6, 7] (Sys2Proof.fld w 6 3), vbank (Sys2Proof.fld w 15 5) (Sys2Proof.fld w 10 5)],
      Sys2Proof.Machine.execVsubs (Sys2Proof.fld w 31 1) (Sys2Proof.fld w 20 5) (Sys2Proof.fld w 15 5) (Sys2Proof.fld w 10 5) (Sys2Proof.fld w 9 1) (Sys2Proof.fld w 6 3))
  | 31 => some (first [types [5, 6] (Sys2Proof.fld w 6 3), vbank (Sys2Proof.fld w 15 5) (Sys2Proof.fld w 10 5)],
      Sys2Proof.Machine.execVmulh (Sys2Proof.fld w 31 1) (Sys2Proof.fld w 20 5) (Sys2Proof.fld w 15 5) (Sys2Proof.fld w 10 5) (Sys2Proof.fld w 9 1) (Sys2Proof.fld w 6 3))
  | _ => none

theorem runVa_eq (w : Nat) : runVa w = (decodeVa w).map asRun := by
  unfold runVa decodeVa
  split <;> rename_i h
  all_goals (try simp only [h]); all_goals (repeat' split)
  all_goals rfl

/-- As `decodeVx`: what an instruction word of this major does (R107 step 1, then its meaning). -/
def runVx (w : Nat) : Option Run :=
  if w / 2 ^ 3 % 8 = 0 then some (first [chk ((Sys2Proof.fld w 0 3) ≠ (Sys2Proof.fld w 6 3)) .badType, chk ((Sys2Proof.fld w 10 5).toNat < vcvtParts (Sys2Proof.fld w 0 3) (Sys2Proof.fld w 6 3)) .badPart],
      Sys2Proof.Machine.execVcvt (Sys2Proof.fld w 31 1) (Sys2Proof.fld w 20 5) (Sys2Proof.fld w 15 5) (Sys2Proof.fld w 10 5) (Sys2Proof.fld w 9 1) (Sys2Proof.fld w 6 3) (Sys2Proof.fld w 0 3)) else
  match w / 2 ^ 0 % 64 with
  | 8 => some (first [vbank (Sys2Proof.fld w 15 5) (Sys2Proof.fld w 10 5)],
      Sys2Proof.Machine.execVperm (Sys2Proof.fld w 31 1) (Sys2Proof.fld w 20 5) (Sys2Proof.fld w 15 5) (Sys2Proof.fld w 10 5) (Sys2Proof.fld w 9 1) (Sys2Proof.fld w 6 3))
  | 9 => some (first [lane (Sys2Proof.fld w 6 3) (Sys2Proof.fld w 9 1) (Sys2Proof.fld w 10 5)],
      Sys2Proof.Machine.execVbcst (Sys2Proof.fld w 31 1) (Sys2Proof.fld w 20 5) (Sys2Proof.fld w 15 5) (Sys2Proof.fld w 10 5) (Sys2Proof.fld w 9 1) (Sys2Proof.fld w 6 3))
  | 10 => some (first [lane (Sys2Proof.fld w 6 3) (Sys2Proof.fld w 9 1) (Sys2Proof.fld w 10 5)],
      Sys2Proof.Machine.execVins (Sys2Proof.fld w 31 1) (Sys2Proof.fld w 20 5) (Sys2Proof.fld w 15 5) (Sys2Proof.fld w 10 5) (Sys2Proof.fld w 9 1) (Sys2Proof.fld w 6 3))
  | 11 => some (first [lane (Sys2Proof.fld w 6 3) (Sys2Proof.fld w 9 1) (Sys2Proof.fld w 10 5)],
      Sys2Proof.Machine.execVext (Sys2Proof.fld w 31 1) (Sys2Proof.fld w 20 5) (Sys2Proof.fld w 15 5) (Sys2Proof.fld w 10 5) (Sys2Proof.fld w 9 1) (Sys2Proof.fld w 6 3))
  | 12 => some (first [vbank (Sys2Proof.fld w 15 5) (Sys2Proof.fld w 10 5)],
      Sys2Proof.Machine.execVzipl (Sys2Proof.fld w 31 1) (Sys2Proof.fld w 20 5) (Sys2Proof.fld w 15 5) (Sys2Proof.fld w 10 5) (Sys2Proof.fld w 9 1) (Sys2Proof.fld w 6 3))
  | 13 => some (first [vbank (Sys2Proof.fld w 15 5) (Sys2Proof.fld w 10 5)],
      Sys2Proof.Machine.execVziph (Sys2Proof.fld w 31 1) (Sys2Proof.fld w 20 5) (Sys2Proof.fld w 15 5) (Sys2Proof.fld w 10 5) (Sys2Proof.fld w 9 1) (Sys2Proof.fld w 6 3))
  | 14 => some (first [vbank (Sys2Proof.fld w 15 5) (Sys2Proof.fld w 10 5)],
      Sys2Proof.Machine.execVuzpe (Sys2Proof.fld w 31 1) (Sys2Proof.fld w 20 5) (Sys2Proof.fld w 15 5) (Sys2Proof.fld w 10 5) (Sys2Proof.fld w 9 1) (Sys2Proof.fld w 6 3))
  | 15 => some (first [vbank (Sys2Proof.fld w 15 5) (Sys2Proof.fld w 10 5)],
      Sys2Proof.Machine.execVuzpo (Sys2Proof.fld w 31 1) (Sys2Proof.fld w 20 5) (Sys2Proof.fld w 15 5) (Sys2Proof.fld w 10 5) (Sys2Proof.fld w 9 1) (Sys2Proof.fld w 6 3))
  | 16 => if w / 2 ^ 10 % 32 = 0 then some (first [types [0, 1, 2, 5, 6, 7] (Sys2Proof.fld w 6 3)],
      Sys2Proof.Machine.execVrsum (Sys2Proof.fld w 31 1) (Sys2Proof.fld w 20 5) (Sys2Proof.fld w 15 5) (Sys2Proof.fld w 9 1) (Sys2Proof.fld w 6 3))
    else none
  | 17 => if w / 2 ^ 10 % 32 = 0 then some (none,
      Sys2Proof.Machine.execVrmax (Sys2Proof.fld w 31 1) (Sys2Proof.fld w 20 5) (Sys2Proof.fld w 15 5) (Sys2Proof.fld w 9 1) (Sys2Proof.fld w 6 3))
    else none
  | 18 => if w / 2 ^ 10 % 32 = 0 then some (none,
      Sys2Proof.Machine.execVrmin (Sys2Proof.fld w 31 1) (Sys2Proof.fld w 20 5) (Sys2Proof.fld w 15 5) (Sys2Proof.fld w 9 1) (Sys2Proof.fld w 6 3))
    else none
  | 19 => if w / 2 ^ 10 % 32 = 0 then some (first [types [5, 6, 7] (Sys2Proof.fld w 6 3)],
      Sys2Proof.Machine.execVrand (Sys2Proof.fld w 31 1) (Sys2Proof.fld w 20 5) (Sys2Proof.fld w 15 5) (Sys2Proof.fld w 9 1) (Sys2Proof.fld w 6 3))
    else none
  | 20 => if w / 2 ^ 10 % 32 = 0 then some (first [types [5, 6, 7] (Sys2Proof.fld w 6 3)],
      Sys2Proof.Machine.execVror (Sys2Proof.fld w 31 1) (Sys2Proof.fld w 20 5) (Sys2Proof.fld w 15 5) (Sys2Proof.fld w 9 1) (Sys2Proof.fld w 6 3))
    else none
  | 21 => if w / 2 ^ 10 % 32 = 0 then some (none,
      Sys2Proof.Machine.execVmovs (Sys2Proof.fld w 31 1) (Sys2Proof.fld w 20 5) (Sys2Proof.fld w 15 5) (Sys2Proof.fld w 9 1) (Sys2Proof.fld w 6 3))
    else none
  | _ => none

theorem runVx_eq (w : Nat) : runVx w = (decodeVx w).map asRun := by
  unfold runVx decodeVx
  by_cases c : w / 2 ^ 3 % 8 = 0
  · simp only [c, if_true]; rfl
  · simp only [c, if_false]
    split <;> rename_i h
    all_goals (try simp only [h]); all_goals (repeat' split)
    all_goals rfl

/-- As `decodeLds8`: what an instruction word of this major does (R107 step 1, then its meaning). -/
def runLds8 (w : Nat) : Option Run :=
  some (first [deferredDst (Sys2Proof.fld w 18 7), src (Sys2Proof.fld w 11 7), chk ((Sys2Proof.fld w 8 3) ≠ 7#3) .badOrder],
      Sys2Proof.Machine.execLds8 (Sys2Proof.fld w 31 1) (Sys2Proof.fld w 18 7) (Sys2Proof.fld w 11 7) (Sys2Proof.fld w 8 3) (Sys2Proof.fld w 0 8))

theorem runLds8_eq (w : Nat) : runLds8 w = (decodeLds8 w).map asRun := by
  unfold runLds8 decodeLds8
  rfl

/-- As `decodeLdn8`: what an instruction word of this major does (R107 step 1, then its meaning). -/
def runLdn8 (w : Nat) : Option Run :=
  some (first [deferredDst (Sys2Proof.fld w 18 7), src (Sys2Proof.fld w 11 7), chk ((Sys2Proof.fld w 8 3) ≠ 7#3) .badOrder],
      Sys2Proof.Machine.execLdn8 (Sys2Proof.fld w 31 1) (Sys2Proof.fld w 18 7) (Sys2Proof.fld w 11 7) (Sys2Proof.fld w 8 3) (Sys2Proof.fld w 0 8))

theorem runLdn8_eq (w : Nat) : runLdn8 w = (decodeLdn8 w).map asRun := by
  unfold runLdn8 decodeLdn8
  rfl

/-- As `decodeLds16`: what an instruction word of this major does (R107 step 1, then its meaning). -/
def runLds16 (w : Nat) : Option Run :=
  some (first [deferredDst (Sys2Proof.fld w 18 7), src (Sys2Proof.fld w 11 7), chk ((Sys2Proof.fld w 8 3) ≠ 7#3) .badOrder],
      Sys2Proof.Machine.execLds16 (Sys2Proof.fld w 31 1) (Sys2Proof.fld w 18 7) (Sys2Proof.fld w 11 7) (Sys2Proof.fld w 8 3) (Sys2Proof.fld w 0 8))

theorem runLds16_eq (w : Nat) : runLds16 w = (decodeLds16 w).map asRun := by
  unfold runLds16 decodeLds16
  rfl

/-- As `decodeLdn16`: what an instruction word of this major does (R107 step 1, then its meaning). -/
def runLdn16 (w : Nat) : Option Run :=
  some (first [deferredDst (Sys2Proof.fld w 18 7), src (Sys2Proof.fld w 11 7), chk ((Sys2Proof.fld w 8 3) ≠ 7#3) .badOrder],
      Sys2Proof.Machine.execLdn16 (Sys2Proof.fld w 31 1) (Sys2Proof.fld w 18 7) (Sys2Proof.fld w 11 7) (Sys2Proof.fld w 8 3) (Sys2Proof.fld w 0 8))

theorem runLdn16_eq (w : Nat) : runLdn16 w = (decodeLdn16 w).map asRun := by
  unfold runLdn16 decodeLdn16
  rfl

/-- As `decodeLds32`: what an instruction word of this major does (R107 step 1, then its meaning). -/
def runLds32 (w : Nat) : Option Run :=
  some (first [deferredDst (Sys2Proof.fld w 18 7), src (Sys2Proof.fld w 11 7), chk ((Sys2Proof.fld w 8 3) ≠ 7#3) .badOrder],
      Sys2Proof.Machine.execLds32 (Sys2Proof.fld w 31 1) (Sys2Proof.fld w 18 7) (Sys2Proof.fld w 11 7) (Sys2Proof.fld w 8 3) (Sys2Proof.fld w 0 8))

theorem runLds32_eq (w : Nat) : runLds32 w = (decodeLds32 w).map asRun := by
  unfold runLds32 decodeLds32
  rfl

/-- As `decodeLdn32`: what an instruction word of this major does (R107 step 1, then its meaning). -/
def runLdn32 (w : Nat) : Option Run :=
  some (first [deferredDst (Sys2Proof.fld w 18 7), src (Sys2Proof.fld w 11 7), chk ((Sys2Proof.fld w 8 3) ≠ 7#3) .badOrder],
      Sys2Proof.Machine.execLdn32 (Sys2Proof.fld w 31 1) (Sys2Proof.fld w 18 7) (Sys2Proof.fld w 11 7) (Sys2Proof.fld w 8 3) (Sys2Proof.fld w 0 8))

theorem runLdn32_eq (w : Nat) : runLdn32 w = (decodeLdn32 w).map asRun := by
  unfold runLdn32 decodeLdn32
  rfl

/-- As `decodeLd64`: what an instruction word of this major does (R107 step 1, then its meaning). -/
def runLd64 (w : Nat) : Option Run :=
  some (first [deferredDst (Sys2Proof.fld w 18 7), src (Sys2Proof.fld w 11 7), chk ((Sys2Proof.fld w 8 3) ≠ 7#3) .badOrder],
      Sys2Proof.Machine.execLd64 (Sys2Proof.fld w 31 1) (Sys2Proof.fld w 18 7) (Sys2Proof.fld w 11 7) (Sys2Proof.fld w 8 3) (Sys2Proof.fld w 0 8))

theorem runLd64_eq (w : Nat) : runLd64 w = (decodeLd64 w).map asRun := by
  unfold runLd64 decodeLd64
  rfl

/-- As `decodeSt8`: what an instruction word of this major does (R107 step 1, then its meaning). -/
def runSt8 (w : Nat) : Option Run :=
  some (first [src (Sys2Proof.fld w 18 7), src (Sys2Proof.fld w 11 7), bank (Sys2Proof.fld w 11 7) (Sys2Proof.fld w 18 7), chk ((Sys2Proof.fld w 8 3) ≠ 2#3 ∧ (Sys2Proof.fld w 8 3) ≠ 6#3 ∧ (Sys2Proof.fld w 8 3) ≠ 7#3) .badOrder],
      Sys2Proof.Machine.execSt8 (Sys2Proof.fld w 31 1) (Sys2Proof.fld w 18 7) (Sys2Proof.fld w 11 7) (Sys2Proof.fld w 8 3) (Sys2Proof.fld w 0 8))

theorem runSt8_eq (w : Nat) : runSt8 w = (decodeSt8 w).map asRun := by
  unfold runSt8 decodeSt8
  rfl

/-- As `decodeSt16`: what an instruction word of this major does (R107 step 1, then its meaning). -/
def runSt16 (w : Nat) : Option Run :=
  some (first [src (Sys2Proof.fld w 18 7), src (Sys2Proof.fld w 11 7), bank (Sys2Proof.fld w 11 7) (Sys2Proof.fld w 18 7), chk ((Sys2Proof.fld w 8 3) ≠ 2#3 ∧ (Sys2Proof.fld w 8 3) ≠ 6#3 ∧ (Sys2Proof.fld w 8 3) ≠ 7#3) .badOrder],
      Sys2Proof.Machine.execSt16 (Sys2Proof.fld w 31 1) (Sys2Proof.fld w 18 7) (Sys2Proof.fld w 11 7) (Sys2Proof.fld w 8 3) (Sys2Proof.fld w 0 8))

theorem runSt16_eq (w : Nat) : runSt16 w = (decodeSt16 w).map asRun := by
  unfold runSt16 decodeSt16
  rfl

/-- As `decodeSt32`: what an instruction word of this major does (R107 step 1, then its meaning). -/
def runSt32 (w : Nat) : Option Run :=
  some (first [src (Sys2Proof.fld w 18 7), src (Sys2Proof.fld w 11 7), bank (Sys2Proof.fld w 11 7) (Sys2Proof.fld w 18 7), chk ((Sys2Proof.fld w 8 3) ≠ 2#3 ∧ (Sys2Proof.fld w 8 3) ≠ 6#3 ∧ (Sys2Proof.fld w 8 3) ≠ 7#3) .badOrder],
      Sys2Proof.Machine.execSt32 (Sys2Proof.fld w 31 1) (Sys2Proof.fld w 18 7) (Sys2Proof.fld w 11 7) (Sys2Proof.fld w 8 3) (Sys2Proof.fld w 0 8))

theorem runSt32_eq (w : Nat) : runSt32 w = (decodeSt32 w).map asRun := by
  unfold runSt32 decodeSt32
  rfl

/-- As `decodeSt64`: what an instruction word of this major does (R107 step 1, then its meaning). -/
def runSt64 (w : Nat) : Option Run :=
  some (first [src (Sys2Proof.fld w 18 7), src (Sys2Proof.fld w 11 7), bank (Sys2Proof.fld w 11 7) (Sys2Proof.fld w 18 7), chk ((Sys2Proof.fld w 8 3) ≠ 2#3 ∧ (Sys2Proof.fld w 8 3) ≠ 6#3 ∧ (Sys2Proof.fld w 8 3) ≠ 7#3) .badOrder],
      Sys2Proof.Machine.execSt64 (Sys2Proof.fld w 31 1) (Sys2Proof.fld w 18 7) (Sys2Proof.fld w 11 7) (Sys2Proof.fld w 8 3) (Sys2Proof.fld w 0 8))

theorem runSt64_eq (w : Nat) : runSt64 w = (decodeSt64 w).map asRun := by
  unfold runSt64 decodeSt64
  rfl

/-- As `decodeVmem`: what an instruction word of this major does (R107 step 1, then its meaning). -/
def runVmem (w : Nat) : Option Run :=
  match w / 2 ^ 3 % 8 with
  | 0 => if w / 2 ^ 6 % 128 = 0 then some (first [src (Sys2Proof.fld w 13 7)],
      Sys2Proof.Machine.execVld (Sys2Proof.fld w 31 1) (Sys2Proof.fld w 20 5) (Sys2Proof.fld w 13 7) (Sys2Proof.fld w 2 1) (Sys2Proof.fld w 0 2))
    else none
  | 1 => some (first [src (Sys2Proof.fld w 13 7), src (Sys2Proof.fld w 6 7), bank (Sys2Proof.fld w 13 7) (Sys2Proof.fld w 6 7)],
      Sys2Proof.Machine.execVlds (Sys2Proof.fld w 31 1) (Sys2Proof.fld w 20 5) (Sys2Proof.fld w 13 7) (Sys2Proof.fld w 6 7) (Sys2Proof.fld w 2 1) (Sys2Proof.fld w 0 2))
  | 2 => if w / 2 ^ 11 % 4 = 0 then some (first [src (Sys2Proof.fld w 13 7)],
      Sys2Proof.Machine.execVgth (Sys2Proof.fld w 31 1) (Sys2Proof.fld w 20 5) (Sys2Proof.fld w 13 7) (Sys2Proof.fld w 6 5) (Sys2Proof.fld w 2 1) (Sys2Proof.fld w 0 2))
    else none
  | 4 => if w / 2 ^ 6 % 128 = 0 then some (first [src (Sys2Proof.fld w 13 7)],
      Sys2Proof.Machine.execVst (Sys2Proof.fld w 31 1) (Sys2Proof.fld w 20 5) (Sys2Proof.fld w 13 7) (Sys2Proof.fld w 2 1) (Sys2Proof.fld w 0 2))
    else none
  | 5 => some (first [src (Sys2Proof.fld w 13 7), src (Sys2Proof.fld w 6 7), bank (Sys2Proof.fld w 13 7) (Sys2Proof.fld w 6 7)],
      Sys2Proof.Machine.execVsts (Sys2Proof.fld w 31 1) (Sys2Proof.fld w 20 5) (Sys2Proof.fld w 13 7) (Sys2Proof.fld w 6 7) (Sys2Proof.fld w 2 1) (Sys2Proof.fld w 0 2))
  | 6 => if w / 2 ^ 11 % 4 = 0 then some (first [src (Sys2Proof.fld w 13 7)],
      Sys2Proof.Machine.execVsct (Sys2Proof.fld w 31 1) (Sys2Proof.fld w 20 5) (Sys2Proof.fld w 13 7) (Sys2Proof.fld w 6 5) (Sys2Proof.fld w 2 1) (Sys2Proof.fld w 0 2))
    else none
  | _ => none

theorem runVmem_eq (w : Nat) : runVmem w = (decodeVmem w).map asRun := by
  unfold runVmem decodeVmem
  split <;> rename_i h
  all_goals (try simp only [h]); all_goals (repeat' split)
  all_goals rfl

/-- As `decodeAmo64`: what an instruction word of this major does (R107 step 1, then its meaning). -/
def runAmo64 (w : Nat) : Option Run :=
  match w / 2 ^ 0 % 4 with
  | 0 => some (first [deferredDst (Sys2Proof.fld w 18 7), src (Sys2Proof.fld w 11 7), src (Sys2Proof.fld w 4 7), bank (Sys2Proof.fld w 11 7) (Sys2Proof.fld w 4 7)],
      Sys2Proof.Machine.execAmo64Swap (Sys2Proof.fld w 31 1) (Sys2Proof.fld w 18 7) (Sys2Proof.fld w 11 7) (Sys2Proof.fld w 4 7) (Sys2Proof.fld w 2 2))
  | 1 => some (first [deferredDst (Sys2Proof.fld w 18 7), src (Sys2Proof.fld w 11 7), src (Sys2Proof.fld w 4 7), bank (Sys2Proof.fld w 11 7) (Sys2Proof.fld w 4 7)],
      Sys2Proof.Machine.execAmo64Cas (Sys2Proof.fld w 31 1) (Sys2Proof.fld w 18 7) (Sys2Proof.fld w 11 7) (Sys2Proof.fld w 4 7) (Sys2Proof.fld w 2 2))
  | 2 => some (first [deferredDst (Sys2Proof.fld w 18 7), src (Sys2Proof.fld w 11 7), src (Sys2Proof.fld w 4 7), bank (Sys2Proof.fld w 11 7) (Sys2Proof.fld w 4 7)],
      Sys2Proof.Machine.execAmo64Add (Sys2Proof.fld w 31 1) (Sys2Proof.fld w 18 7) (Sys2Proof.fld w 11 7) (Sys2Proof.fld w 4 7) (Sys2Proof.fld w 2 2))
  | 3 => some (first [deferredDst (Sys2Proof.fld w 18 7), src (Sys2Proof.fld w 11 7), src (Sys2Proof.fld w 4 7), bank (Sys2Proof.fld w 11 7) (Sys2Proof.fld w 4 7)],
      Sys2Proof.Machine.execAmo64Fadd (Sys2Proof.fld w 31 1) (Sys2Proof.fld w 18 7) (Sys2Proof.fld w 11 7) (Sys2Proof.fld w 4 7) (Sys2Proof.fld w 2 2))
  | _ => none

theorem runAmo64_eq (w : Nat) : runAmo64 w = (decodeAmo64 w).map asRun := by
  unfold runAmo64 decodeAmo64
  split <;> rename_i h
  all_goals (try simp only [h])
  all_goals rfl

/-- As `decodeAmo32`: what an instruction word of this major does (R107 step 1, then its meaning). -/
def runAmo32 (w : Nat) : Option Run :=
  match w / 2 ^ 0 % 4 with
  | 0 => some (first [deferredDst (Sys2Proof.fld w 18 7), src (Sys2Proof.fld w 11 7), src (Sys2Proof.fld w 4 7), bank (Sys2Proof.fld w 11 7) (Sys2Proof.fld w 4 7)],
      Sys2Proof.Machine.execAmo32Swap (Sys2Proof.fld w 31 1) (Sys2Proof.fld w 18 7) (Sys2Proof.fld w 11 7) (Sys2Proof.fld w 4 7) (Sys2Proof.fld w 2 2))
  | 1 => some (first [deferredDst (Sys2Proof.fld w 18 7), src (Sys2Proof.fld w 11 7), src (Sys2Proof.fld w 4 7), bank (Sys2Proof.fld w 11 7) (Sys2Proof.fld w 4 7)],
      Sys2Proof.Machine.execAmo32Cas (Sys2Proof.fld w 31 1) (Sys2Proof.fld w 18 7) (Sys2Proof.fld w 11 7) (Sys2Proof.fld w 4 7) (Sys2Proof.fld w 2 2))
  | 2 => some (first [deferredDst (Sys2Proof.fld w 18 7), src (Sys2Proof.fld w 11 7), src (Sys2Proof.fld w 4 7), bank (Sys2Proof.fld w 11 7) (Sys2Proof.fld w 4 7)],
      Sys2Proof.Machine.execAmo32Add (Sys2Proof.fld w 31 1) (Sys2Proof.fld w 18 7) (Sys2Proof.fld w 11 7) (Sys2Proof.fld w 4 7) (Sys2Proof.fld w 2 2))
  | 3 => some (first [deferredDst (Sys2Proof.fld w 18 7), src (Sys2Proof.fld w 11 7), src (Sys2Proof.fld w 4 7), bank (Sys2Proof.fld w 11 7) (Sys2Proof.fld w 4 7)],
      Sys2Proof.Machine.execAmo32Fadd (Sys2Proof.fld w 31 1) (Sys2Proof.fld w 18 7) (Sys2Proof.fld w 11 7) (Sys2Proof.fld w 4 7) (Sys2Proof.fld w 2 2))
  | _ => none

theorem runAmo32_eq (w : Nat) : runAmo32 w = (decodeAmo32 w).map asRun := by
  unfold runAmo32 decodeAmo32
  split <;> rename_i h
  all_goals (try simp only [h])
  all_goals rfl

/-- As `decodeRed`: what an instruction word of this major does (R107 step 1, then its meaning). -/
def runRed (w : Nat) : Option Run :=
  match w / 2 ^ 0 % 16 with
  | 0 => if w / 2 ^ 22 % 8 = 0 then some (first [src (Sys2Proof.fld w 11 7), src (Sys2Proof.fld w 4 7), bank (Sys2Proof.fld w 11 7) (Sys2Proof.fld w 4 7), chk ((Sys2Proof.fld w 18 3).toNat ≤ 4) .badScope],
      Sys2Proof.Machine.execRedAdd (Sys2Proof.fld w 31 1) (Sys2Proof.fld w 21 1) (Sys2Proof.fld w 18 3) (Sys2Proof.fld w 11 7) (Sys2Proof.fld w 4 7))
    else none
  | 1 => if w / 2 ^ 22 % 8 = 0 then some (first [src (Sys2Proof.fld w 11 7), src (Sys2Proof.fld w 4 7), bank (Sys2Proof.fld w 11 7) (Sys2Proof.fld w 4 7), chk ((Sys2Proof.fld w 18 3).toNat ≤ 4) .badScope],
      Sys2Proof.Machine.execRedAnd (Sys2Proof.fld w 31 1) (Sys2Proof.fld w 21 1) (Sys2Proof.fld w 18 3) (Sys2Proof.fld w 11 7) (Sys2Proof.fld w 4 7))
    else none
  | 2 => if w / 2 ^ 22 % 8 = 0 then some (first [src (Sys2Proof.fld w 11 7), src (Sys2Proof.fld w 4 7), bank (Sys2Proof.fld w 11 7) (Sys2Proof.fld w 4 7), chk ((Sys2Proof.fld w 18 3).toNat ≤ 4) .badScope],
      Sys2Proof.Machine.execRedOr (Sys2Proof.fld w 31 1) (Sys2Proof.fld w 21 1) (Sys2Proof.fld w 18 3) (Sys2Proof.fld w 11 7) (Sys2Proof.fld w 4 7))
    else none
  | 3 => if w / 2 ^ 22 % 8 = 0 then some (first [src (Sys2Proof.fld w 11 7), src (Sys2Proof.fld w 4 7), bank (Sys2Proof.fld w 11 7) (Sys2Proof.fld w 4 7), chk ((Sys2Proof.fld w 18 3).toNat ≤ 4) .badScope],
      Sys2Proof.Machine.execRedXor (Sys2Proof.fld w 31 1) (Sys2Proof.fld w 21 1) (Sys2Proof.fld w 18 3) (Sys2Proof.fld w 11 7) (Sys2Proof.fld w 4 7))
    else none
  | 4 => if w / 2 ^ 22 % 8 = 0 then some (first [src (Sys2Proof.fld w 11 7), src (Sys2Proof.fld w 4 7), bank (Sys2Proof.fld w 11 7) (Sys2Proof.fld w 4 7), chk ((Sys2Proof.fld w 18 3).toNat ≤ 4) .badScope],
      Sys2Proof.Machine.execRedMax (Sys2Proof.fld w 31 1) (Sys2Proof.fld w 21 1) (Sys2Proof.fld w 18 3) (Sys2Proof.fld w 11 7) (Sys2Proof.fld w 4 7))
    else none
  | 5 => if w / 2 ^ 22 % 8 = 0 then some (first [src (Sys2Proof.fld w 11 7), src (Sys2Proof.fld w 4 7), bank (Sys2Proof.fld w 11 7) (Sys2Proof.fld w 4 7), chk ((Sys2Proof.fld w 18 3).toNat ≤ 4) .badScope],
      Sys2Proof.Machine.execRedMin (Sys2Proof.fld w 31 1) (Sys2Proof.fld w 21 1) (Sys2Proof.fld w 18 3) (Sys2Proof.fld w 11 7) (Sys2Proof.fld w 4 7))
    else none
  | 6 => if w / 2 ^ 22 % 8 = 0 then some (first [src (Sys2Proof.fld w 11 7), src (Sys2Proof.fld w 4 7), bank (Sys2Proof.fld w 11 7) (Sys2Proof.fld w 4 7), chk ((Sys2Proof.fld w 18 3).toNat ≤ 4) .badScope],
      Sys2Proof.Machine.execRedMaxn (Sys2Proof.fld w 31 1) (Sys2Proof.fld w 21 1) (Sys2Proof.fld w 18 3) (Sys2Proof.fld w 11 7) (Sys2Proof.fld w 4 7))
    else none
  | 7 => if w / 2 ^ 22 % 8 = 0 then some (first [src (Sys2Proof.fld w 11 7), src (Sys2Proof.fld w 4 7), bank (Sys2Proof.fld w 11 7) (Sys2Proof.fld w 4 7), chk ((Sys2Proof.fld w 18 3).toNat ≤ 4) .badScope],
      Sys2Proof.Machine.execRedMinn (Sys2Proof.fld w 31 1) (Sys2Proof.fld w 21 1) (Sys2Proof.fld w 18 3) (Sys2Proof.fld w 11 7) (Sys2Proof.fld w 4 7))
    else none
  | 8 => if w / 2 ^ 22 % 8 = 0 then some (first [src (Sys2Proof.fld w 11 7), src (Sys2Proof.fld w 4 7), bank (Sys2Proof.fld w 11 7) (Sys2Proof.fld w 4 7), chk ((Sys2Proof.fld w 18 3).toNat ≤ 4) .badScope],
      Sys2Proof.Machine.execRedFadd (Sys2Proof.fld w 31 1) (Sys2Proof.fld w 21 1) (Sys2Proof.fld w 18 3) (Sys2Proof.fld w 11 7) (Sys2Proof.fld w 4 7))
    else none
  | 9 => if w / 2 ^ 22 % 8 = 0 then some (first [src (Sys2Proof.fld w 11 7), src (Sys2Proof.fld w 4 7), bank (Sys2Proof.fld w 11 7) (Sys2Proof.fld w 4 7), chk ((Sys2Proof.fld w 18 3).toNat ≤ 4) .badScope],
      Sys2Proof.Machine.execRedFmax (Sys2Proof.fld w 31 1) (Sys2Proof.fld w 21 1) (Sys2Proof.fld w 18 3) (Sys2Proof.fld w 11 7) (Sys2Proof.fld w 4 7))
    else none
  | 10 => if w / 2 ^ 22 % 8 = 0 then some (first [src (Sys2Proof.fld w 11 7), src (Sys2Proof.fld w 4 7), bank (Sys2Proof.fld w 11 7) (Sys2Proof.fld w 4 7), chk ((Sys2Proof.fld w 18 3).toNat ≤ 4) .badScope],
      Sys2Proof.Machine.execRedFmin (Sys2Proof.fld w 31 1) (Sys2Proof.fld w 21 1) (Sys2Proof.fld w 18 3) (Sys2Proof.fld w 11 7) (Sys2Proof.fld w 4 7))
    else none
  | _ => none

theorem runRed_eq (w : Nat) : runRed w = (decodeRed w).map asRun := by
  unfold runRed decodeRed
  split <;> rename_i h
  all_goals (try simp only [h]); all_goals (repeat' split)
  all_goals rfl

/-- As `decodeVamo`: what an instruction word of this major does (R107 step 1, then its meaning). -/
def runVamo (w : Nat) : Option Run :=
  match w / 2 ^ 2 % 16 with
  | 0 => some (first [vbank (Sys2Proof.fld w 15 5) (Sys2Proof.fld w 10 5), types [0, 5, 6] (Sys2Proof.fld w 6 3)],
      Sys2Proof.Machine.execVamoSwap (Sys2Proof.fld w 31 1) (Sys2Proof.fld w 20 5) (Sys2Proof.fld w 15 5) (Sys2Proof.fld w 10 5) (Sys2Proof.fld w 9 1) (Sys2Proof.fld w 6 3) (Sys2Proof.fld w 0 2))
  | 1 => some (first [vbank (Sys2Proof.fld w 15 5) (Sys2Proof.fld w 10 5), types [0, 5, 6] (Sys2Proof.fld w 6 3)],
      Sys2Proof.Machine.execVamoAdd (Sys2Proof.fld w 31 1) (Sys2Proof.fld w 20 5) (Sys2Proof.fld w 15 5) (Sys2Proof.fld w 10 5) (Sys2Proof.fld w 9 1) (Sys2Proof.fld w 6 3) (Sys2Proof.fld w 0 2))
  | 2 => some (first [vbank (Sys2Proof.fld w 15 5) (Sys2Proof.fld w 10 5), types [5, 6] (Sys2Proof.fld w 6 3)],
      Sys2Proof.Machine.execVamoAnd (Sys2Proof.fld w 31 1) (Sys2Proof.fld w 20 5) (Sys2Proof.fld w 15 5) (Sys2Proof.fld w 10 5) (Sys2Proof.fld w 9 1) (Sys2Proof.fld w 6 3) (Sys2Proof.fld w 0 2))
  | 3 => some (first [vbank (Sys2Proof.fld w 15 5) (Sys2Proof.fld w 10 5), types [5, 6] (Sys2Proof.fld w 6 3)],
      Sys2Proof.Machine.execVamoOr (Sys2Proof.fld w 31 1) (Sys2Proof.fld w 20 5) (Sys2Proof.fld w 15 5) (Sys2Proof.fld w 10 5) (Sys2Proof.fld w 9 1) (Sys2Proof.fld w 6 3) (Sys2Proof.fld w 0 2))
  | 4 => some (first [vbank (Sys2Proof.fld w 15 5) (Sys2Proof.fld w 10 5), types [5, 6] (Sys2Proof.fld w 6 3)],
      Sys2Proof.Machine.execVamoXor (Sys2Proof.fld w 31 1) (Sys2Proof.fld w 20 5) (Sys2Proof.fld w 15 5) (Sys2Proof.fld w 10 5) (Sys2Proof.fld w 9 1) (Sys2Proof.fld w 6 3) (Sys2Proof.fld w 0 2))
  | 5 => some (first [vbank (Sys2Proof.fld w 15 5) (Sys2Proof.fld w 10 5), types [0, 5, 6] (Sys2Proof.fld w 6 3)],
      Sys2Proof.Machine.execVamoMax (Sys2Proof.fld w 31 1) (Sys2Proof.fld w 20 5) (Sys2Proof.fld w 15 5) (Sys2Proof.fld w 10 5) (Sys2Proof.fld w 9 1) (Sys2Proof.fld w 6 3) (Sys2Proof.fld w 0 2))
  | 6 => some (first [vbank (Sys2Proof.fld w 15 5) (Sys2Proof.fld w 10 5), types [0, 5, 6] (Sys2Proof.fld w 6 3)],
      Sys2Proof.Machine.execVamoMin (Sys2Proof.fld w 31 1) (Sys2Proof.fld w 20 5) (Sys2Proof.fld w 15 5) (Sys2Proof.fld w 10 5) (Sys2Proof.fld w 9 1) (Sys2Proof.fld w 6 3) (Sys2Proof.fld w 0 2))
  | 7 => some (first [vbank (Sys2Proof.fld w 15 5) (Sys2Proof.fld w 10 5), types [0] (Sys2Proof.fld w 6 3)],
      Sys2Proof.Machine.execVamoFadd (Sys2Proof.fld w 31 1) (Sys2Proof.fld w 20 5) (Sys2Proof.fld w 15 5) (Sys2Proof.fld w 10 5) (Sys2Proof.fld w 9 1) (Sys2Proof.fld w 6 3) (Sys2Proof.fld w 0 2))
  | _ => none

theorem runVamo_eq (w : Nat) : runVamo w = (decodeVamo w).map asRun := by
  unfold runVamo decodeVamo
  split <;> rename_i h
  all_goals (try simp only [h])
  all_goals rfl

/-- As `decodeSync`: what an instruction word of this major does (R107 step 1, then its meaning). -/
def runSync (w : Nat) : Option Run :=
  match w / 2 ^ 6 % 32 with
  | 0 => if w / 2 ^ 3 % 8 = 0 ∧ w / 2 ^ 11 % 16384 = 0 then some (first [chk ((Sys2Proof.fld w 0 3).toNat ≤ 5) .badScope],
      Sys2Proof.Machine.execFence (Sys2Proof.fld w 31 1) (Sys2Proof.fld w 0 3))
    else none
  | 1 => if w / 2 ^ 0 % 64 = 0 then some (first [dst (Sys2Proof.fld w 18 7), src (Sys2Proof.fld w 11 7)],
      Sys2Proof.Machine.execLdfe (Sys2Proof.fld w 31 1) (Sys2Proof.fld w 18 7) (Sys2Proof.fld w 11 7))
    else none
  | 2 => if w / 2 ^ 0 % 64 = 0 then some (first [dst (Sys2Proof.fld w 18 7), src (Sys2Proof.fld w 11 7)],
      Sys2Proof.Machine.execLdfec (Sys2Proof.fld w 31 1) (Sys2Proof.fld w 18 7) (Sys2Proof.fld w 11 7))
    else none
  | 3 => if w / 2 ^ 0 % 64 = 0 then some (first [src (Sys2Proof.fld w 18 7), src (Sys2Proof.fld w 11 7)],
      Sys2Proof.Machine.execStfe (Sys2Proof.fld w 31 1) (Sys2Proof.fld w 18 7) (Sys2Proof.fld w 11 7))
    else none
  | 4 => if w / 2 ^ 0 % 64 = 0 then some (first [src (Sys2Proof.fld w 18 7), src (Sys2Proof.fld w 11 7)],
      Sys2Proof.Machine.execWaitge (Sys2Proof.fld w 31 1) (Sys2Proof.fld w 18 7) (Sys2Proof.fld w 11 7))
    else none
  | 5 => if w / 2 ^ 0 % 64 = 0 ∧ w / 2 ^ 18 % 128 = 0 then some (first [src (Sys2Proof.fld w 11 7)],
      Sys2Proof.Machine.execMigrate (Sys2Proof.fld w 31 1) (Sys2Proof.fld w 11 7))
    else none
  | 6 => if w / 2 ^ 1 % 32 = 0 ∧ w / 2 ^ 18 % 128 = 0 then some (first [src (Sys2Proof.fld w 11 7)],
      Sys2Proof.Machine.execPrefetch (Sys2Proof.fld w 31 1) (Sys2Proof.fld w 11 7) (Sys2Proof.fld w 0 1))
    else none
  | _ => none

theorem runSync_eq (w : Nat) : runSync w = (decodeSync w).map asRun := by
  unfold runSync decodeSync
  split <;> rename_i h
  all_goals (try simp only [h]); all_goals (repeat' split)
  all_goals rfl

/-- As `decodeThr`: what an instruction word of this major does (R107 step 1, then its meaning). -/
def runThr (w : Nat) : Option Run :=
  match w / 2 ^ 6 % 32 with
  | 0 => if w / 2 ^ 5 % 2 = 0 then some (first [src (Sys2Proof.fld w 18 7), src (Sys2Proof.fld w 11 7), chk ((Sys2Proof.fld w 0 5).toNat ≤ 24) .badField],
      Sys2Proof.Machine.execFork (Sys2Proof.fld w 31 1) (Sys2Proof.fld w 18 7) (Sys2Proof.fld w 11 7) (Sys2Proof.fld w 0 5))
    else none
  | 1 => if w / 2 ^ 0 % 64 = 0 ∧ w / 2 ^ 18 % 128 = 0 then some (first [src (Sys2Proof.fld w 11 7)],
      Sys2Proof.Machine.execJoinw (Sys2Proof.fld w 31 1) (Sys2Proof.fld w 11 7))
    else none
  | 2 => if w / 2 ^ 0 % 64 = 0 ∧ w / 2 ^ 18 % 128 = 0 then some (first [src (Sys2Proof.fld w 11 7)],
      Sys2Proof.Machine.execLaunch (Sys2Proof.fld w 31 1) (Sys2Proof.fld w 11 7))
    else none
  | 3 => if w / 2 ^ 3 % 8 = 0 ∧ w / 2 ^ 11 % 128 = 0 then some (first [dst (Sys2Proof.fld w 18 7), chk ((Sys2Proof.fld w 0 3).toNat ≤ 5) .badSelector],
      Sys2Proof.Machine.execTinfo (Sys2Proof.fld w 31 1) (Sys2Proof.fld w 18 7) (Sys2Proof.fld w 0 3))
    else none
  | _ => none

theorem runThr_eq (w : Nat) : runThr w = (decodeThr w).map asRun := by
  unfold runThr decodeThr
  split <;> rename_i h
  all_goals (try simp only [h]); all_goals (repeat' split)
  all_goals rfl

/-- As `decodeChn`: what an instruction word of this major does (R107 step 1, then its meaning). -/
def runChn (w : Nat) : Option Run :=
  match w / 2 ^ 6 % 32 with
  | 0 => if w / 2 ^ 0 % 64 = 0 ∧ w / 2 ^ 21 % 16 = 14 then some (first [src (Sys2Proof.fld w 11 7)],
      Sys2Proof.Machine.execQbind (Sys2Proof.fld w 31 1) (Sys2Proof.fld w 18 3) (Sys2Proof.fld w 11 7))
    else none
  | 1 => if w / 2 ^ 0 % 64 = 0 ∧ w / 2 ^ 14 % 16 = 14 then some (first [dst (Sys2Proof.fld w 18 7)],
      Sys2Proof.Machine.execQpoll (Sys2Proof.fld w 31 1) (Sys2Proof.fld w 18 7) (Sys2Proof.fld w 11 3))
    else none
  | 2 => if w / 2 ^ 0 % 64 = 0 ∧ w / 2 ^ 21 % 16 = 14 then some (first [src (Sys2Proof.fld w 11 7)],
      Sys2Proof.Machine.execSend (Sys2Proof.fld w 31 1) (Sys2Proof.fld w 18 3) (Sys2Proof.fld w 11 7))
    else none
  | 3 => if w / 2 ^ 0 % 64 = 0 ∧ w / 2 ^ 21 % 16 = 14 then some (first [src (Sys2Proof.fld w 11 7)],
      Sys2Proof.Machine.execSende (Sys2Proof.fld w 31 1) (Sys2Proof.fld w 18 3) (Sys2Proof.fld w 11 7))
    else none
  | 4 => if w / 2 ^ 0 % 64 = 0 ∧ w / 2 ^ 14 % 16 = 14 ∧ w / 2 ^ 23 % 4 = 0 then some (none,
      Sys2Proof.Machine.execVqrd (Sys2Proof.fld w 31 1) (Sys2Proof.fld w 18 5) (Sys2Proof.fld w 11 3))
    else none
  | 5 => if w / 2 ^ 0 % 64 = 0 ∧ w / 2 ^ 16 % 4 = 0 ∧ w / 2 ^ 21 % 16 = 14 then some (none,
      Sys2Proof.Machine.execVqwr (Sys2Proof.fld w 31 1) (Sys2Proof.fld w 18 3) (Sys2Proof.fld w 11 5))
    else none
  | 6 => if w / 2 ^ 0 % 64 = 0 then some (first [dst (Sys2Proof.fld w 18 7), dst (Sys2Proof.fld w 11 7)],
      Sys2Proof.Machine.execItemget (Sys2Proof.fld w 31 1) (Sys2Proof.fld w 18 7) (Sys2Proof.fld w 11 7))
    else none
  | 7 => if w / 2 ^ 1 % 32 = 0 then some (first [src (Sys2Proof.fld w 18 7), src (Sys2Proof.fld w 11 7)],
      Sys2Proof.Machine.execItemput (Sys2Proof.fld w 31 1) (Sys2Proof.fld w 18 7) (Sys2Proof.fld w 11 7) (Sys2Proof.fld w 0 1))
    else none
  | _ => none

theorem runChn_eq (w : Nat) : runChn w = (decodeChn w).map asRun := by
  unfold runChn decodeChn
  split <;> rename_i h
  all_goals (try simp only [h]); all_goals (repeat' split)
  all_goals rfl

/-- As `decodeBar`: what an instruction word of this major does (R107 step 1, then its meaning). -/
def runBar (w : Nat) : Option Run :=
  match w / 2 ^ 6 % 32 with
  | 0 => if w / 2 ^ 0 % 64 = 0 ∧ w / 2 ^ 18 % 128 = 0 then some (first [src (Sys2Proof.fld w 11 7)],
      Sys2Proof.Machine.execBarj (Sys2Proof.fld w 31 1) (Sys2Proof.fld w 11 7))
    else none
  | 1 => if w / 2 ^ 0 % 64 = 0 ∧ w / 2 ^ 18 % 128 = 0 then some (first [src (Sys2Proof.fld w 11 7)],
      Sys2Proof.Machine.execBarl (Sys2Proof.fld w 31 1) (Sys2Proof.fld w 11 7))
    else none
  | 2 => if w / 2 ^ 0 % 64 = 0 ∧ w / 2 ^ 18 % 128 = 0 then some (first [src (Sys2Proof.fld w 11 7)],
      Sys2Proof.Machine.execBara (Sys2Proof.fld w 31 1) (Sys2Proof.fld w 11 7))
    else none
  | 3 => if w / 2 ^ 0 % 64 = 0 ∧ w / 2 ^ 18 % 128 = 0 then some (first [src (Sys2Proof.fld w 11 7)],
      Sys2Proof.Machine.execBarw (Sys2Proof.fld w 31 1) (Sys2Proof.fld w 11 7))
    else none
  | 4 => if w / 2 ^ 0 % 64 = 0 then some (first [dst (Sys2Proof.fld w 18 7), src (Sys2Proof.fld w 11 7)],
      Sys2Proof.Machine.execBarm (Sys2Proof.fld w 31 1) (Sys2Proof.fld w 18 7) (Sys2Proof.fld w 11 7))
    else none
  | 5 => if w / 2 ^ 3 % 8 = 0 then some (first [src (Sys2Proof.fld w 18 7), src (Sys2Proof.fld w 11 7), chk (1 ≤ (Sys2Proof.fld w 0 3).toNat ∧ (Sys2Proof.fld w 0 3).toNat ≤ 4) .badScope],
      Sys2Proof.Machine.execCsig (Sys2Proof.fld w 31 1) (Sys2Proof.fld w 18 7) (Sys2Proof.fld w 11 7) (Sys2Proof.fld w 0 3))
    else none
  | _ => none

theorem runBar_eq (w : Nat) : runBar w = (decodeBar w).map asRun := by
  unfold runBar decodeBar
  split <;> rename_i h
  all_goals (try simp only [h]); all_goals (repeat' split)
  all_goals rfl

/-- As `decodeEng`: what an instruction word of this major does (R107 step 1, then its meaning). -/
def runEng (w : Nat) : Option Run :=
  match w / 2 ^ 6 % 32 with
  | 0 => if w / 2 ^ 11 % 128 = 0 then some (first [src (Sys2Proof.fld w 18 7), chk (fieldAssigned (Sys2Proof.fld w 0 1) (Sys2Proof.fld w 1 5)) .badField],
      Sys2Proof.Machine.execXset (Sys2Proof.fld w 31 1) (Sys2Proof.fld w 18 7) (Sys2Proof.fld w 1 5) (Sys2Proof.fld w 0 1))
    else none
  | 1 => if w / 2 ^ 11 % 128 = 0 then some (first [dst (Sys2Proof.fld w 18 7), chk (fieldAssigned (Sys2Proof.fld w 0 1) (Sys2Proof.fld w 1 5)) .badField],
      Sys2Proof.Machine.execXget (Sys2Proof.fld w 31 1) (Sys2Proof.fld w 18 7) (Sys2Proof.fld w 1 5) (Sys2Proof.fld w 0 1))
    else none
  | 2 => if w / 2 ^ 1 % 32 = 0 ∧ w / 2 ^ 11 % 128 = 0 then some (first [dst (Sys2Proof.fld w 18 7)],
      Sys2Proof.Machine.execXlaunch (Sys2Proof.fld w 31 1) (Sys2Proof.fld w 18 7) (Sys2Proof.fld w 0 1))
    else none
  | 3 => if w / 2 ^ 1 % 32 = 0 ∧ w / 2 ^ 18 % 128 = 0 then some (first [src (Sys2Proof.fld w 11 7)],
      Sys2Proof.Machine.execXwait (Sys2Proof.fld w 31 1) (Sys2Proof.fld w 11 7) (Sys2Proof.fld w 0 1))
    else none
  | 4 => if w / 2 ^ 0 % 64 = 0 then some (first [deferredDst (Sys2Proof.fld w 18 7), src (Sys2Proof.fld w 11 7)],
      Sys2Proof.Machine.execTrig (Sys2Proof.fld w 31 1) (Sys2Proof.fld w 18 7) (Sys2Proof.fld w 11 7))
    else none
  | 5 => if w / 2 ^ 0 % 64 = 0 ∧ w / 2 ^ 18 % 128 = 0 then some (first [src (Sys2Proof.fld w 11 7)],
      Sys2Proof.Machine.execTrigc (Sys2Proof.fld w 31 1) (Sys2Proof.fld w 11 7))
    else none
  | 6 => if w / 2 ^ 0 % 64 = 0 then some (first [dst (Sys2Proof.fld w 18 7), src (Sys2Proof.fld w 11 7)],
      Sys2Proof.Machine.execTrigq (Sys2Proof.fld w 31 1) (Sys2Proof.fld w 18 7) (Sys2Proof.fld w 11 7))
    else none
  | 7 => if w / 2 ^ 0 % 64 = 0 ∧ w / 2 ^ 18 % 128 = 0 then some (first [src (Sys2Proof.fld w 11 7)],
      Sys2Proof.Machine.execMxwait (Sys2Proof.fld w 31 1) (Sys2Proof.fld w 11 7))
    else none
  | 8 => if w / 2 ^ 0 % 64 = 0 ∧ w / 2 ^ 23 % 4 = 0 then some (first [src (Sys2Proof.fld w 11 7)],
      Sys2Proof.Machine.execMxrd (Sys2Proof.fld w 31 1) (Sys2Proof.fld w 18 5) (Sys2Proof.fld w 11 7))
    else none
  | 9 => if w / 2 ^ 0 % 64 = 0 ∧ w / 2 ^ 11 % 16384 = 0 then some (none,
      Sys2Proof.Machine.execHdone (Sys2Proof.fld w 31 1))
    else none
  | 10 => if w / 2 ^ 2 % 16 = 0 ∧ w / 2 ^ 11 % 16384 = 0 then some (none,
      Sys2Proof.Machine.execPpt (Sys2Proof.fld w 31 1) (Sys2Proof.fld w 0 2))
    else none
  | _ => none

theorem runEng_eq (w : Nat) : runEng w = (decodeEng w).map asRun := by
  unfold runEng decodeEng
  split <;> rename_i h
  all_goals (try simp only [h]); all_goals (repeat' split)
  all_goals rfl

/-- As `decodeRep`: what an instruction word of this major does (R107 step 1, then its meaning). -/
def runRep (w : Nat) : Option Run :=
  match w / 2 ^ 6 % 32 with
  | 0 => if w / 2 ^ 0 % 64 = 0 then some (first [deferredDst (Sys2Proof.fld w 18 7), src (Sys2Proof.fld w 11 7)],
      Sys2Proof.Machine.execRadd (Sys2Proof.fld w 31 1) (Sys2Proof.fld w 18 7) (Sys2Proof.fld w 11 7))
    else none
  | 1 => if w / 2 ^ 0 % 64 = 0 then some (first [deferredDst (Sys2Proof.fld w 18 7), src (Sys2Proof.fld w 11 7)],
      Sys2Proof.Machine.execRmax (Sys2Proof.fld w 31 1) (Sys2Proof.fld w 18 7) (Sys2Proof.fld w 11 7))
    else none
  | 2 => if w / 2 ^ 0 % 64 = 0 then some (first [deferredDst (Sys2Proof.fld w 18 7), src (Sys2Proof.fld w 11 7)],
      Sys2Proof.Machine.execRlww (Sys2Proof.fld w 31 1) (Sys2Proof.fld w 18 7) (Sys2Proof.fld w 11 7))
    else none
  | 3 => if w / 2 ^ 0 % 64 = 0 then some (first [deferredDst (Sys2Proof.fld w 18 7), src (Sys2Proof.fld w 11 7)],
      Sys2Proof.Machine.execRsadd (Sys2Proof.fld w 31 1) (Sys2Proof.fld w 18 7) (Sys2Proof.fld w 11 7))
    else none
  | 4 => if w / 2 ^ 0 % 64 = 0 then some (first [deferredDst (Sys2Proof.fld w 18 7), src (Sys2Proof.fld w 11 7)],
      Sys2Proof.Machine.execRsrem (Sys2Proof.fld w 31 1) (Sys2Proof.fld w 18 7) (Sys2Proof.fld w 11 7))
    else none
  | 5 => some (first [src (Sys2Proof.fld w 18 7), src (Sys2Proof.fld w 11 7)],
      Sys2Proof.Machine.execRshas (Sys2Proof.fld w 31 1) (Sys2Proof.fld w 18 7) (Sys2Proof.fld w 11 7) (Sys2Proof.fld w 0 6))
  | 6 => if w / 2 ^ 0 % 64 = 0 then some (first [deferredDst (Sys2Proof.fld w 18 7), src (Sys2Proof.fld w 11 7)],
      Sys2Proof.Machine.execRmean (Sys2Proof.fld w 31 1) (Sys2Proof.fld w 18 7) (Sys2Proof.fld w 11 7))
    else none
  | 7 => some (first [deferredDst (Sys2Proof.fld w 18 7), src (Sys2Proof.fld w 11 7)],
      Sys2Proof.Machine.execRfront (Sys2Proof.fld w 31 1) (Sys2Proof.fld w 18 7) (Sys2Proof.fld w 11 7) (Sys2Proof.fld w 0 6))
  | 8 => some (first [src (Sys2Proof.fld w 18 7), src (Sys2Proof.fld w 11 7)],
      Sys2Proof.Machine.execRwaitf (Sys2Proof.fld w 31 1) (Sys2Proof.fld w 18 7) (Sys2Proof.fld w 11 7) (Sys2Proof.fld w 0 6))
  | 9 => if w / 2 ^ 0 % 64 = 0 ∧ w / 2 ^ 11 % 128 = 0 then some (first [dst (Sys2Proof.fld w 18 7)],
      Sys2Proof.Machine.execHlcrd (Sys2Proof.fld w 31 1) (Sys2Proof.fld w 18 7))
    else none
  | 10 => if w / 2 ^ 0 % 64 = 0 ∧ w / 2 ^ 18 % 128 = 0 then some (first [src (Sys2Proof.fld w 11 7)],
      Sys2Proof.Machine.execRship (Sys2Proof.fld w 31 1) (Sys2Proof.fld w 11 7))
    else none
  | 11 => if w / 2 ^ 3 % 8 = 0 then some (first [dst (Sys2Proof.fld w 18 7), src (Sys2Proof.fld w 11 7), chk ((Sys2Proof.fld w 0 3).toNat ≤ 3) .badSelector],
      Sys2Proof.Machine.execRstat (Sys2Proof.fld w 31 1) (Sys2Proof.fld w 18 7) (Sys2Proof.fld w 11 7) (Sys2Proof.fld w 0 3))
    else none
  | _ => none

theorem runRep_eq (w : Nat) : runRep w = (decodeRep w).map asRun := by
  unfold runRep decodeRep
  split <;> rename_i h
  all_goals (try simp only [h]); all_goals (repeat' split)
  all_goals rfl

/-- As `decodeFab`: what an instruction word of this major does (R107 step 1, then its meaning). -/
def runFab (w : Nat) : Option Run :=
  match w / 2 ^ 6 % 32 with
  | 0 => if w / 2 ^ 0 % 64 = 0 then some (first [src (Sys2Proof.fld w 18 7), src (Sys2Proof.fld w 11 7)],
      Sys2Proof.Machine.execMbsend (Sys2Proof.fld w 31 1) (Sys2Proof.fld w 18 7) (Sys2Proof.fld w 11 7))
    else none
  | 1 => if w / 2 ^ 0 % 64 = 0 then some (first [dst (Sys2Proof.fld w 18 7), src (Sys2Proof.fld w 11 7)],
      Sys2Proof.Machine.execMbrecv (Sys2Proof.fld w 31 1) (Sys2Proof.fld w 18 7) (Sys2Proof.fld w 11 7))
    else none
  | 2 => if w / 2 ^ 0 % 64 = 0 then some (first [dst (Sys2Proof.fld w 18 7), src (Sys2Proof.fld w 11 7)],
      Sys2Proof.Machine.execMbpoll (Sys2Proof.fld w 31 1) (Sys2Proof.fld w 18 7) (Sys2Proof.fld w 11 7))
    else none
  | 3 => if w / 2 ^ 0 % 8 = 0 ∧ w / 2 ^ 5 % 2 = 0 ∧ w / 2 ^ 16 % 512 = 0 then some (first [chk ((Sys2Proof.fld w 3 2) ≠ 3#2) .badType],
      Sys2Proof.Machine.execTrputAdd (Sys2Proof.fld w 31 1) (Sys2Proof.fld w 11 5) (Sys2Proof.fld w 3 2))
    else if w / 2 ^ 0 % 8 = 1 ∧ w / 2 ^ 5 % 2 = 0 ∧ w / 2 ^ 16 % 512 = 0 then some (first [chk ((Sys2Proof.fld w 3 2) ≠ 3#2) .badType],
      Sys2Proof.Machine.execTrputMin (Sys2Proof.fld w 31 1) (Sys2Proof.fld w 11 5) (Sys2Proof.fld w 3 2))
    else if w / 2 ^ 0 % 8 = 2 ∧ w / 2 ^ 5 % 2 = 0 ∧ w / 2 ^ 16 % 512 = 0 then some (first [chk ((Sys2Proof.fld w 3 2) ≠ 3#2) .badType],
      Sys2Proof.Machine.execTrputMax (Sys2Proof.fld w 31 1) (Sys2Proof.fld w 11 5) (Sys2Proof.fld w 3 2))
    else if w / 2 ^ 0 % 64 = 3 ∧ w / 2 ^ 16 % 512 = 0 then some (none,
      Sys2Proof.Machine.execTrputAnd (Sys2Proof.fld w 31 1) (Sys2Proof.fld w 11 5))
    else if w / 2 ^ 0 % 64 = 4 ∧ w / 2 ^ 16 % 512 = 0 then some (none,
      Sys2Proof.Machine.execTrputOr (Sys2Proof.fld w 31 1) (Sys2Proof.fld w 11 5))
    else if w / 2 ^ 0 % 64 = 5 ∧ w / 2 ^ 16 % 512 = 0 then some (none,
      Sys2Proof.Machine.execTrputXor (Sys2Proof.fld w 31 1) (Sys2Proof.fld w 11 5))
    else if w / 2 ^ 0 % 8 = 6 ∧ w / 2 ^ 5 % 2 = 0 ∧ w / 2 ^ 16 % 512 = 0 then some (first [chk ((Sys2Proof.fld w 3 2) ≠ 3#2) .badType],
      Sys2Proof.Machine.execTrputBcast (Sys2Proof.fld w 31 1) (Sys2Proof.fld w 11 5) (Sys2Proof.fld w 3 2))
    else if w / 2 ^ 0 % 64 = 7 ∧ w / 2 ^ 16 % 512 = 0 then some (none,
      Sys2Proof.Machine.execTrputBarrier (Sys2Proof.fld w 31 1) (Sys2Proof.fld w 11 5))
    else none
  | 4 => if w / 2 ^ 0 % 64 = 0 ∧ w / 2 ^ 11 % 128 = 0 ∧ w / 2 ^ 23 % 4 = 0 then some (none,
      Sys2Proof.Machine.execTrget (Sys2Proof.fld w 31 1) (Sys2Proof.fld w 18 5))
    else none
  | _ => none

theorem runFab_eq (w : Nat) : runFab w = (decodeFab w).map asRun := by
  unfold runFab decodeFab
  split <;> rename_i h
  all_goals (try simp only [h]); all_goals (repeat' split)
  all_goals rfl

/-- As `decodeSys`: what an instruction word of this major does (R107 step 1, then its meaning). -/
def runSys (w : Nat) : Option Run :=
  match w / 2 ^ 6 % 32 with
  | 0 => if w / 2 ^ 11 % 16384 = 0 then some (none,
      Sys2Proof.Machine.execTrap (Sys2Proof.fld w 31 1) (Sys2Proof.fld w 0 6))
    else none
  | 1 => if w / 2 ^ 0 % 64 = 0 ∧ w / 2 ^ 11 % 16384 = 0 then some (none,
      Sys2Proof.Machine.execEret (Sys2Proof.fld w 31 1))
    else none
  | 2 => if w / 2 ^ 0 % 64 = 0 ∧ w / 2 ^ 11 % 16384 = 0 then some (none,
      Sys2Proof.Machine.execUiret (Sys2Proof.fld w 31 1))
    else none
  | 3 => if w / 2 ^ 17 % 2 = 0 then some (first [dst (Sys2Proof.fld w 18 7), chk (csrAssigned ((Sys2Proof.fld w 11 6).toNat * 64 + (Sys2Proof.fld w 0 6).toNat)) .badCsr],
      Sys2Proof.Machine.execCsrrd (Sys2Proof.fld w 31 1) (Sys2Proof.fld w 18 7) (Sys2Proof.fld w 11 6) (Sys2Proof.fld w 0 6))
    else none
  | 4 => if w / 2 ^ 17 % 2 = 0 then some (first [src (Sys2Proof.fld w 18 7), chk (csrAssigned ((Sys2Proof.fld w 11 6).toNat * 64 + (Sys2Proof.fld w 0 6).toNat)) .badCsr],
      Sys2Proof.Machine.execCsrwr (Sys2Proof.fld w 31 1) (Sys2Proof.fld w 18 7) (Sys2Proof.fld w 11 6) (Sys2Proof.fld w 0 6))
    else none
  | 5 => if w / 2 ^ 17 % 2 = 0 then some (first [src (Sys2Proof.fld w 18 7), chk (csrAssigned ((Sys2Proof.fld w 11 6).toNat * 64 + (Sys2Proof.fld w 0 6).toNat)) .badCsr],
      Sys2Proof.Machine.execCsrset (Sys2Proof.fld w 31 1) (Sys2Proof.fld w 18 7) (Sys2Proof.fld w 11 6) (Sys2Proof.fld w 0 6))
    else none
  | 6 => if w / 2 ^ 17 % 2 = 0 then some (first [src (Sys2Proof.fld w 18 7), chk (csrAssigned ((Sys2Proof.fld w 11 6).toNat * 64 + (Sys2Proof.fld w 0 6).toNat)) .badCsr],
      Sys2Proof.Machine.execCsrclr (Sys2Proof.fld w 31 1) (Sys2Proof.fld w 18 7) (Sys2Proof.fld w 11 6) (Sys2Proof.fld w 0 6))
    else none
  | 7 => if w / 2 ^ 5 % 2 = 0 ∧ w / 2 ^ 11 % 128 = 0 then some (first [dst (Sys2Proof.fld w 18 7)],
      Sys2Proof.Machine.execGrd (Sys2Proof.fld w 31 1) (Sys2Proof.fld w 18 7) (Sys2Proof.fld w 0 5))
    else none
  | 8 => if w / 2 ^ 5 % 2 = 0 ∧ w / 2 ^ 11 % 128 = 0 then some (first [src (Sys2Proof.fld w 18 7)],
      Sys2Proof.Machine.execGwr (Sys2Proof.fld w 31 1) (Sys2Proof.fld w 18 7) (Sys2Proof.fld w 0 5))
    else none
  | 9 => if w / 2 ^ 3 % 8 = 0 ∧ w / 2 ^ 18 % 128 = 0 then some (first [src (Sys2Proof.fld w 11 7), chk (1 ≤ (Sys2Proof.fld w 0 3).toNat ∧ (Sys2Proof.fld w 0 3).toNat ≤ 4) .badScope],
      Sys2Proof.Machine.execTlbinv (Sys2Proof.fld w 31 1) (Sys2Proof.fld w 11 7) (Sys2Proof.fld w 0 3))
    else if w / 2 ^ 3 % 8 = 1 ∧ w / 2 ^ 11 % 16384 = 0 then some (first [chk (1 ≤ (Sys2Proof.fld w 0 3).toNat ∧ (Sys2Proof.fld w 0 3).toNat ≤ 4) .badScope],
      Sys2Proof.Machine.execTlbinvAll (Sys2Proof.fld w 31 1) (Sys2Proof.fld w 0 3))
    else none
  | 10 => if w / 2 ^ 0 % 64 = 0 ∧ w / 2 ^ 11 % 16384 = 0 then some (none,
      Sys2Proof.Machine.execBkpt (Sys2Proof.fld w 31 1))
    else none
  | _ => none

theorem runSys_eq (w : Nat) : runSys w = (decodeSys w).map asRun := by
  unfold runSys decodeSys
  split <;> rename_i h
  all_goals (try simp only [h]); all_goals (repeat' split)
  all_goals rfl

/-- What a word does, by major (R117). -/
def runOf (w : Nat) : Option Run :=
  match w / 2 ^ 25 % 64 with
  | 0 => (decodeIop w).map asRun
  | 1 => (decodeIop2 w).map asRun
  | 2 => (decodeCmp w).map asRun
  | 4 => (decodeAddi w).map asRun
  | 5 => (decodeAndi w).map asRun
  | 6 => (decodeOri w).map asRun
  | 7 => (decodeXori w).map asRun
  | 8 => (decodeShfi w).map asRun
  | 9 => (decodeCmpi w).map asRun
  | 10 => (decodeExti w).map asRun
  | 11 => (decodeMuli w).map asRun
  | 12 => (decodeLqz w).map asRun
  | 13 => (decodeLqk w).map asRun
  | 14 => (decodePcadd w).map asRun
  | 15 => (decodePsel w).map asRun
  | 16 => (decodePlog w).map asRun
  | 17 => (decodeBr w).map asRun
  | 18 => (decodeJmp w).map asRun
  | 19 => (decodeJal w).map asRun
  | 20 => (decodeJalr w).map asRun
  | 21 => (decodeRepf w).map asRun
  | 22 => (decodeCtl w).map asRun
  | 24 => (decodeFs w).map asRun
  | 25 => (decodeFd w).map asRun
  | 26 => runFcv w
  | 32 => runVa w
  | 33 => runVx w
  | 36 => runLds8 w
  | 37 => runLdn8 w
  | 38 => runLds16 w
  | 39 => runLdn16 w
  | 40 => runLds32 w
  | 41 => runLdn32 w
  | 42 => runLd64 w
  | 43 => runSt8 w
  | 44 => runSt16 w
  | 45 => runSt32 w
  | 46 => runSt64 w
  | 47 => runVmem w
  | 48 => runAmo64 w
  | 49 => runAmo32 w
  | 50 => runRed w
  | 51 => runVamo w
  | 52 => runSync w
  | 53 => runThr w
  | 54 => runChn w
  | 55 => runBar w
  | 56 => runEng w
  | 57 => runRep w
  | 58 => runFab w
  | 60 => runSys w
  | _ => none

theorem runOf_eq (w : Nat) : runOf w = (parse w).map asRun := by
  unfold runOf parse
  have h : w / 2 ^ 25 % 64 < 64 := Nat.mod_lt _ (by decide)
  generalize w / 2 ^ 25 % 64 = m at h
  iterate 64
    rcases m with _ | m
    · first
        | rfl
        | exact runFcv_eq w
        | exact runVa_eq w
        | exact runVx_eq w
        | exact runLds8_eq w
        | exact runLdn8_eq w
        | exact runLds16_eq w
        | exact runLdn16_eq w
        | exact runLds32_eq w
        | exact runLdn32_eq w
        | exact runLd64_eq w
        | exact runSt8_eq w
        | exact runSt16_eq w
        | exact runSt32_eq w
        | exact runSt64_eq w
        | exact runVmem_eq w
        | exact runAmo64_eq w
        | exact runAmo32_eq w
        | exact runRed_eq w
        | exact runVamo_eq w
        | exact runSync_eq w
        | exact runThr_eq w
        | exact runChn_eq w
        | exact runBar_eq w
        | exact runEng_eq w
        | exact runRep_eq w
        | exact runFab_eq w
        | exact runSys_eq w
  exact absurd h (by omega)

/-- `execWord` as the compiler runs it. -/
def runWord (w : Nat) (s : State) : Out :=
  match runOf w with
  | none => execIllegalEncoding (BitVec.ofNat 32 w) s
  | some r => if r.1 = none then r.2 s else execIllegalEncoding (BitVec.ofNat 32 w) s

@[csimp] theorem execWord_eq : @execWord = @runWord := by
  funext w s
  unfold execWord runWord
  rw [runOf_eq]
  cases parse w <;> rfl

end Sys2Proof.Machine
end

