-- ==== Sys2Proof/Machine/Turn.lean ====
section
/-! DEFINITION. Turns: which resident issues (R26 to R29), what may come before its next instruction (R351), the issue of
one instruction, and what the core counts at each turn and each rotation (R44, R55, R102). -/
namespace Sys2Proof.Machine

/-- Is core c's turn next possible: D0, and no share computation due before it (R42, R44, R368) (DESIGN CHOICE, log 66). -/
def State.turnDue (s : State) (c : Nat) : Bool :=
  let k := s.core c
  decide (c < 2048 ∧ s.mgmt.power = 0) && ! (decide (k.nextSlot = 0) && (k.urgent || s.shareDue c))

/-- Writes of counters and selections, and of the slot's POL, that take effect at this turn (R101, R102). -/
def Core.beginTurn (k : Core) : Core :=
  { k with
    pmc := k.pmcLater.foldl (fun l e => modify l e.1 (fun _ => e.2)) k.pmc, pmcLater := [],
    pmsel := k.pmselLater.foldl (fun l e => modify l e.1 (fun _ => e.2)) k.pmsel, pmselLater := [],
    slots := modify k.slots k.nextSlot (fun j => { j with pol := j.polNext }), unmapped := [] }

/-- Is a thread BLOCKED in ITEMPUT, or in a write of a stage-output head, its wait not satisfied (R30, R55): a wait for heads
counts where every source is there and the room alone is missing (DESIGN CHOICE, log 21). -/
def State.blockedOnOutput (s : State) (tid : Nat) (t : Thread) : Bool :=
  decide (t.state = .blocked) && ! s.waitHolds tid t &&
  (match t.wait with
   | some w => (match w.what with
     | .itemPut .. => true
     | .heads srcs dsts =>
       dsts.any (fun f => isHead f && headKind (t.headOf (f - 112)) == 6) &&
         (s.readFields tid srcs).any (fun e => ! e.2.outputsReady tid dsts)
     | .itemGet =>
       (s.launchOf t.lnum).any (fun l => match (s.setThread tid { t with item := none }).inputOf t.lnum l t.stage with
         | .item it l' => ! l'.itemRoom t it w.dsts
         | _ => false)
     | _ => false)
   | none => false)

/-- The resident turns of PIPELINE stages at a turn of slot j (R55). -/
def State.countResidents (s : State) (c j : Nat) : State :=
  (s.inSlot c j).foldl (fun (s : State) (e : Nat × Thread) =>
    match s.launchOf e.2.lnum with
    | some l =>
      if ¬ l.pipeline then s
      else s.setLaunch e.2.lnum { l with stages := modify l.stages e.2.stage (fun st =>
        { st with residentTurns := st.residentTurns + 1,
                  blockedTurns := st.blockedTurns + (if s.blockedOnOutput e.1 e.2 then 1 else 0) }) }
    | none => s) s

/-- The beginning of the turn of core c. -/
def State.beginTurn (s : State) (c : Nat) : State := (s.modCore c Core.beginTurn).countResidents c (s.core c).nextSlot

/-- The next instruction of thread tid issued: the end of an enqueue that waited for its release (R90), the trap of a fetch
(R132) or of staggering (R148), or what the word does (DESIGN CHOICE, log 8). -/
def State.issueNext (s : State) (tid : Nat) : Out :=
  match s.thread tid with
  | none => .fault .noIssuingThread
  | some t =>
    if t.stalled.isSome then .next (s.finishStall tid)
    else
      match s.nextWord t with
      | .error r => .next { s.enterTrap tid false r t.pc with freeN := s.freeN + 1 }
      | .ok w =>
        execWord w { (if t.inFrame then s else s.noteTlb t.core t.pc) with cur := tid, iword := word w }

/-- Is a thread not PARKED, BLOCKED, TRAPPED or SUSPENDED (R27), and does no stall hold it (DESIGN CHOICE, log 8). -/
def State.canIssue (s : State) (tid : Nat) (t : Thread) : Bool :=
  t.place.isSome && (s.stillPending t.hold).isEmpty && ! s.fetchHeld t &&
  (decide (t.state = .ready) || (decide (t.state = .blocked) && s.waitHolds tid t))

/-- Does the next instruction of a thread raise a synchronous trap (R351) (DESIGN CHOICE, log 9). -/
def State.trapsNext (s : State) (tid : Nat) (t : Thread) : Bool :=
  s.canIssue tid t &&
  (match s.issueNext tid with
   | .next u =>
     (match u.thread tid with
      | some v => decide (v.state = .trapped)
      | none => false)
   | _ => false)

/-- Is an event due at the thread's present boundary (R350 to R352, R354). -/
def State.eventDue (s : State) (tid : Nat) (t : Thread) : Bool := s.trapDue t || s.preemptDue tid t || s.uintDue t

/-- Can the first of them in the order of R351 be taken now: a pre-emption that waits for a slot holds its thread alone (R355). -/
def State.eventReady (s : State) (tid : Nat) (t : Thread) : Bool :=
  s.trapDue t || (if s.preemptDue tid t then s.preempts tid else s.uintDue t && t.allReturned)

/-- Is a thread eligible at its slot's turn (R27). With an event due it issues nothing but a trap (R351). -/
def State.eligible (s : State) (tid : Nat) (t : Thread) : Bool :=
  s.canIssue tid t && (! s.eventDue tid t || s.eventReady tid t || s.trapsNext tid t)

/-- The residents of positions 0 to 6 of a slot that are eligible, by position. -/
def State.candidates (s : State) (c j : Nat) : List (Nat × Nat × Thread) :=
  (List.range 7).filterMap (fun p =>
    match s.resident c j p with
    | some (tid, t) => if s.eligible tid t then some (p, tid, t) else none
    | none => none)

/-- The oldest of some residents (R29): of two placed at the same turn the one in the lower position. -/
def oldest (l : List (Nat × Nat × Thread)) : Option Nat :=
  (l.foldl (fun (acc : Option (Nat × Nat × Thread)) e =>
    match acc with
    | none => some e
    | some b => if e.2.2.age < b.2.2.age then some e else some b) none).map (fun e => e.1)

/-- The position that issues under RR (R28). -/
def Slot.byTurn (q : Slot) (ps : List Nat) : Option Nat :=
  ((List.range 7).map (fun i => (q.lastPos + 1 + i) % 7)).find? (fun p => decide (p ∈ ps))

/-- The position that issues under GTO, and the slot with its current resident and greed count (R28)
(DESIGN CHOICE, log 10). -/
def Slot.greedy (q : Slot) (l : List (Nat × Nat × Thread)) : Option (Nat × Slot) :=
  let others := l.filter (fun e => decide (q.current ≠ some e.1))
  let take := fun (p : Nat) => some (p, { q with current := some p, greed := 1, yielded := false })
  match oldest (others.filter (fun e => decide (e.2.2.waitCount ≥ 64))) with
  | some p => take p
  | none =>
    match l.find? (fun e => decide (q.current = some e.1)) with
    | some e =>
      if q.greed < 64 ∧ ¬ q.yielded then some (e.1, { q with greed := q.greed + 1 })
      else take ((oldest others).getD e.1)
    | none => (oldest others).bind take

/-- The resident that issues at the turn of slot j of core c, and the state with the counts of R28; none where no
resident is eligible (DESIGN CHOICE, log 10). -/
def State.choose (s : State) (c j : Nat) : Option (Nat × State) :=
  let handler := (s.resident c j 7).filter (fun e => s.eligible e.1 e.2)
  match handler with
  | some e => some (e.1, s)
  | none =>
    let l := s.candidates c j
    let q := (s.core c).slot j
    let chosen : Option (Nat × Slot) := if q.pol then (q.byTurn (l.map (fun e => e.1))).map (fun p => (p, q)) else q.greedy l
    match chosen with
    | none => none
    | some (p, q) =>
      match l.find? (fun e => decide (e.1 = p)) with
      | none => none
      | some (_, tid, _) =>
        let s := s.modSlot c j (fun _ => { q with lastPos := p })
        some (tid, l.foldl (fun (s : State) e =>
          s.modThread e.2.1 (fun t => { t with waitCount := if e.1 = p then 0 else t.waitCount + 1 })) s)

/-- The event that comes before a thread's next instruction, if one does (R351) (DESIGN CHOICE, log 9). -/
def State.eventFirst (s : State) (tid : Nat) : Option Out :=
  match s.thread tid with
  | none => none
  | some t =>
    if ¬ s.eventDue tid t ∨ s.trapsNext tid t then none
    else if s.trapDue t then some (execAsyncTrapDelivery tid s)
    else if s.preemptDue tid t then some (execPreemption tid s)
    else some (execUintDelivery tid s)

/-- Samples of the input queues, of launches that have started, whose home is core c (R55): an item in reserve, or given
back, is still held. -/
def State.sampleQueues (s : State) (c : Nat) : State :=
  { s with launches := s.launches.map (fun (e : Nat × Launch) =>
      (e.1, if ¬ e.2.started then e.2 else { e.2 with stages := e.2.stages.map (fun (st : Stage) =>
        match e.2.queues[st.inq]? with
        | some q => if q.home = c then { st with depthSum := st.depthSum + q.held, samples := st.samples + 1 } else st
        | none => st) })) }

/-- The start of a rotation of core c: the samples of R55. -/
def State.newRotation (s : State) (c : Nat) : State := s.sampleQueues c

/-- The end of the turn of core c: event 1 counts one cycle for each turn (R19, R102); events 6 and 7 depend on the
implementation and count a free number (DESIGN CHOICE, log 11). -/
def State.endTurn (s : State) (c : Nat) : State :=
  let s := ((s.count c 1 1).count c 6 (Config.free s.freeN)).count c 7 (Config.free (s.freeN + 1))
  let k := s.core c
  let s := s.settleClaims c
  if k.nextSlot < 7 then s.modCore c (fun k => { k with nextSlot := k.nextSlot + 1 })
  else
    let s := s.modCore c (fun k => { k with nextSlot := 0, rotation := k.rotation + 1 })
    let s := if c % 256 = 0 then { s with dieTurns := put s.dieTurns (dieOf c) (s.dieRotation (dieOf c) + 1) } else s
    s.newRotation c

/-- A turn of core c (R26, R27): at most one instruction; an event that comes first leaves the turn to be given
(DESIGN CHOICE, log 8). -/
def State.turn (s : State) (c : Nat) : Out :=
  if ¬ s.turnDue c then .refused .notEnabled
  else
    let b := s.beginTurn c
    match b.choose c (s.core c).nextSlot with
    | none => .next ((b.count c 3 1).endTurn c)
    | some (tid, p) =>
      match s.eventFirst tid with
      | some o => o
      | none =>
        match p.issueNext tid with
        | .next u => .next (u.endTurn c)
        | .fault e => .fault e
        | .refused e => .refused e

/-- Is an instruction one of the part's own steps that the environment lets happen: no word of a program, and not the
trap of a word (R128). -/
def isPartStep (i : Instr) : Bool :=
  match i with
  | .illegalEncoding _ => false
  | i => ! i.hasWord

/-- Does a synchronous trap of the thread's next instruction come before the step (R351) (DESIGN CHOICE, log 9). -/
def State.outranked (s : State) (e : Instr) : Bool :=
  let behind := fun (tid : Nat) => match s.thread tid with
    | some t => s.trapsNext tid t
    | none => false
  match e with
  | .asyncTrapDelivery tid => behind tid
  | .preemption tid => behind tid
  | .preemptionGraceExpiry tid => behind tid
  | .uintDelivery tid => behind tid
  | _ => false

/-- Accesses in the order in which deterministic mode serves them at their homes: demand before engines (R377), in order of issue. -/
def State.servedOrder (s : State) : List Access :=
  s.accs.filter (fun a => ! a.op.isPiece) ++ s.accs.filter (fun a => a.op.isPiece)

/-- Cuts and evaluations of the valid replicas still to come in the present rotation of their die (R317, R320, R374). -/
def State.shippingSteps (s : State) : List Instr :=
  (s.replicas.filter (fun e => e.2.valid)).flatMap (fun e =>
    let x := e.1 / 8
    let d := e.1 % 8
    let done := s.servedIn x d
    ((List.range 64).filter (fun j => ! decide (j ∈ done))).map (fun j => Instr.cutSend x d j) ++
      (if 64 ∈ done then [] else [Instr.membershipEvaluation x d]))

/-- Steps that deterministic mode lets happen in their place alone. -/
def isOwnAlways (i : Instr) : Bool :=
  match i with
  | .cutSend .. => true
  | .membershipEvaluation .. => true
  | .launchMailboxTake => true
  | _ => false

/-- The steps that the part's own arbiters may have to take, in the fixed order of deterministic mode (R374): handler starts,
share computations, pre-emptions, accesses at their homes by class, MTs, launches, engines, watch entries, canopy
rounds, placements, the launch mailbox, cuts (DESIGN CHOICE, log 71). -/
def State.ownSteps (s : State) : List Instr :=
  let cs := s.cores.map (fun e => e.1)
  let waiting := s.live.filter (fun e => e.2.place.isNone && decide (e.2.kind ≠ Kind.handler))
  let open' := if waiting.any (fun e => decide (e.2.kind = Kind.mt)) then List.range 2048 else dedup (waiting.map (fun e => e.2.core))
  cs.flatMap (fun c => ((List.range 8).filter (fun j => ! ((s.core c).slot j).starts.isEmpty)).map (fun j => Instr.handlerStart c j)) ++
  (cs.filter s.shareDue).map Instr.shareComputation ++
  (cs.filter (fun c => (s.core c).urgent)).map Instr.urgentShareComputation ++
  (s.live.filter (fun e => e.2.preempt || e.2.ppt)).map (fun e => Instr.preemption e.1) ++
  s.servedOrder.map (fun a => if a.op.isRead then Instr.deferredResultReturn a.id else Instr.homeWrite a.id) ++
  (s.live.filter (fun e => e.2.flying)).map (fun e => Instr.mtArrival e.1) ++
  s.completions.flatMap (fun q => [Instr.launchInboxCompletion q.lnum, Instr.launchMailboxCompletion q.lnum]) ++
  s.launches.map (fun e => Instr.stageBalancer e.1) ++
  s.cores.flatMap (fun e => e.2.eng0.flatMap (fun o =>
    [Instr.copyStart e.1 o.xid, Instr.copyCompletion e.1 o.xid, Instr.copyInboxAction e.1 o.xid, Instr.pushAction e.1 o.xid])) ++
  (dedup ((s.cores.filter (fun e => ! e.2.eng1.isEmpty)).map (fun e => groveOf e.1))).map Instr.mxuCommandStart ++
  s.cores.flatMap (fun e => e.2.eng1.flatMap (fun o => [Instr.mxuRow e.1 o.xid, Instr.mxuCommandComplete e.1 o.xid])) ++
  s.watch.flatMap (fun e => ((List.range 64).filter (fun n => ! (nth e.2 n {}).pend.isEmpty)).map
    (fun n => Instr.watchActionStart e.1 n)) ++
  (dedup (s.launches.map (fun e => e.2.cgroup))).map Instr.canopyRound ++
  open'.flatMap (fun c => (List.range 56).map (fun i => Instr.threadPlacement c (i / 7) (i % 7))) ++
  [Instr.launchMailboxTake] ++ s.shippingSteps

/-- Does a step of the part change anything now, its free values apart. -/
def State.stirs (s : State) (e : Instr) : Bool :=
  match exec e s with
  | .next u => decide ({ u with freeN := s.freeN } ≠ s)
  | _ => false

/-- The step of the part's own that comes next in deterministic mode; none where none can be taken. -/
def State.nextOwn (s : State) : Option Instr := s.ownSteps.find? s.stirs

/-- Is core c's turn the first: no other core is behind it, or beside it with a lower number. -/
def State.firstTurn (s : State) (c : Nat) : Bool :=
  let key := fun (d : Nat) => ((s.core d).rotation * 8 + (s.core d).nextSlot) * 2048 + d
  (List.range 2048).all (fun d => decide (key c ≤ key d))

/-- What a rotation of core c does not begin before: the placement of a thread that can be placed there (R58), and, where
the core's turns count the rotations of its die, a stage balancer whose interval has ended (R55)
(DESIGN CHOICE, log 1, 21). -/
def State.owedFirst (s : State) (c : Nat) : Bool :=
  (s.placing && s.live.any (fun e => e.2.place.isNone && decide (e.2.kind ≠ Kind.handler)) &&
    (List.range 56).any (fun i => (s.placement c (i / 7) (i % 7)).isSome)) ||
  (decide (c % 256 = 0) && s.launches.any (fun e => s.balanceDue e.2 && decide (dieOf (e.2.cores.headD 0) = dieOf c)))

/-- What deterministic mode and a replay leave to the environment (R374, R375): the part's own steps come in their fixed
order, before the turns, which cores take in step; in a replay a core waits for its record, and limits of waits pass as
recorded (DESIGN CHOICE, log 54, 71). In every mode a wait whose limit has passed is withdrawn before the next turn (R353,
R368), and a rotation begins once what it is owed has been done. -/
def State.lets (s : State) (c : Choice) : Bool :=
  (match c with
   | .turn c => (s.replaying || s.limitLeft.all (fun d => decide (0 < d))) &&
     (decide ((s.core c).nextSlot ≠ 0) || ! s.owedFirst c)
   | _ => true) &&
  (! s.fixed || (match c with
  | .turn c => ! s.awaitsRecord c && s.firstTurn c && s.nextOwn.isNone && ! s.migrationDue
  | .event (.shareComputation c) => ! s.awaitsRecord c && decide (s.nextOwn = some (.shareComputation c))
  | .event (.urgentShareComputation c) => ! s.awaitsRecord c && decide (s.nextOwn = some (.urgentShareComputation c))
  | .event (.waitLimitExpiry _) => ! s.replaying
  | .event .clockLevelChange => ! s.replaying
  | .event (.migrationRequest _) => s.nextOwn.isNone
  | .event e => (! decide (e ∈ s.ownSteps) && ! isOwnAlways e) || decide (s.nextOwn = some e)
  | _ => true))

/-- What the safe-tier targets hold is another device's to write (R380): an image, its memory in canonical form. -/
def State.safeTierHolds (s : State) (im : Option Image) : Out :=
  if im.all (fun i => Memory.wf i.mem) then .next { s with image := im } else .refused .notEnabled

/-- A choice of the environment carried out (DESIGN CHOICE, log 1, 63). Time does not pass the limit of a wait that is still
unsatisfied before it has been withdrawn (R353). -/
def State.carryOut (s : State) (c : Choice) : Out :=
  if ¬ s.lets c then .refused .notEnabled
  else
  match c with
  | .turn c => s.turn c
  | .event e => if isPartStep e ∧ e.encodingFault = none ∧ ¬ s.outranked e then exec e s else .refused .notEnabled
  | .tick n =>
    if s.mgmt.power = 0 ∧ ¬ s.replaying ∧ s.limitLeft.any (fun d => decide (d < n)) then .refused .notEnabled
    else .next (({ s with time := s.time + word n } : State).syncLinks)
  | .memoryError k p => s.memoryError k p
  | .hostRead bar2 off n => s.hostRead bar2 off n
  | .hostWrite off bs => s.hostWrite2 off bs
  | .summaryCommand v => s.takeSummary false v
  | .debugRead w => s.debugRead w
  | .debugWrite w bs => s.debugWrite w bs
  | .safeTier im => s.safeTierHolds im

/-- Pending pre-emptions taken at the boundaries that permit them, behind a synchronous trap of the next instruction and an
asynchronous trap (R351, R354); one that finds no slot is recorded and waits (R355). -/
def State.settlePreempts (s : State) : State :=
  ((s.live.filter (fun e => e.2.preempt || e.2.ppt)).map (fun e => e.1)).foldl (fun (s : State) tid =>
    match s.thread tid with
    | some t =>
      if s.mgmt.power = 0 ∧ ¬ s.trapDue t ∧ ¬ s.trapsNext tid t ∧ s.canPreempt tid then s.preemptNow tid (s.keptBanks tid) else s
    | none => s) s

/-- What the part finishes as soon as it can: pre-emptions (R354), step 1 of R90, a summary, a checkpoint, a change of mode or
of power state (R90, R367, R368, R376, R378), what the arbiters learn of work that the choice, made in state old, has brought
(R44, R45), arrivals whose line is free again (R185), entries of shared objects that have become valid (R320), translations
replaced (R361), and flits that may leave (R329) (DESIGN CHOICE, log 64). -/
def State.after (s old : State) : State :=
  (((((s.settlePreempts.settleArrivals.settleWaits.finishSummary.finishCheckpoint.settleMode.settlePower.noteStale
    old).noteGains old).noteUrgent).watchObjects).settleQueue)

end Sys2Proof.Machine
end

