-- ==== Sys2Proof/Machine/Loader.lean ====
section
/-! DEFINITION. What the environment chooses where the agenda names nothing, and a program loaded from outside the machine:
the thread, its launch and its page, that make one word the next instruction issued (DESIGN CHOICE, log 7). -/
namespace Sys2Proof

/-- What happens next where the agenda names nothing: a free value (DESIGN CHOICE, log 1). -/
opaque Config.choice : Nat → Machine.Choice

namespace Machine

/-- The page of the loaded word: a virtual address, its frame, and its four tables (R359). -/
def loadVa : Nat := 0x10000
def loadFrame : Nat := 0x20000
def loadTables : List (Nat × Nat) :=
  [(0x2000, 2 ^ 63 + 0x4000), (0x4000, 2 ^ 63 + 0x6000), (0x6000, 2 ^ 63 + 0x8000),
   (0x8008, 2 ^ 63 + 2 ^ 59 + 2 ^ 58 + 2 ^ 57 + loadFrame)]

/-- A SPREAD launch of one anchored GENERAL thread on core 0 (R37). -/
def loadLaunch : Launch :=
  { words := [word (32 * 2 ^ 29 + 112 * 2 ^ 22 + 2 ^ 15 + 2 ^ 11), word loadVa, word (2 ^ 16 + 2 ^ 8 + 1)] ++ List.replicate 13 0,
    addr := 0, running := true, started := true, created := 1 }

/-- The thread of that launch, placed in position 0 of slot j of core 0. -/
def loadThread (lnum j : Nat) : Thread :=
  { newThread .anchored .general lnum 0 112 32 0 (word loadVa) [] with
    state := .ready, place := some ⟨0, j, 0⟩, sbase := 256 * j, vbase := 64 * j }

/-- The machine with the thread, the launch and the page loaded, and nothing else that could take core 0's next turn
(DESIGN CHOICE, log 7). -/
def State.loaded (s : State) : State :=
  let s := loadTables.foldl (fun (s : State) e => s.wrWord e.1 (word e.2)) { s with
    ctl := modify s.ctl 0 (fun _ => 0x2000), roots := (0x2000, s.roots.2) }
  let n := s.launchNumber
  { s with
    mgmt := { s.mgmt with power := 0, det := false }
    cores := put s.cores 0 {}
    tlbs := s.tlbs.filter (fun e => decide (e.owner ≠ 0 ∧ e.owner ≠ bstoreHome 0))
    poison := []
    launches := s.launches ++ [(n, loadLaunch)]
    threads := s.threads.filter (fun e => decide (e.2.core ≠ 0)) ++ [(s.nextTid, loadThread n 0)]
    nextTid := s.nextTid + 1 }

/-- The key of the word that core 0 issues at its next turn, where a thread fetches it from memory
(DESIGN CHOICE, log 7). -/
def State.nextKey (s : State) : Option Nat :=
  if ¬ s.turnDue 0 ∨ ¬ s.lets (.turn 0) then none
  else
    match (s.beginTurn 0).choose 0 (s.core 0).nextSlot with
    | none => none
    | some (tid, _) =>
      match s.thread tid with
      | none => none
      | some t =>
        if s.eventDue tid t ∨ t.stalled.isSome ∨ t.inFrame then none
        else
          match s.fetchLoc t t.pc with
          | .ok l => some l.key
          | .error _ => none

end Machine
end Sys2Proof
end

