-- ==== Sys2Proof/Machine/Step.lean ====
section
/-! DEFINITION. One step of the machine: the next choice of the environment, carried out. -/
namespace Sys2Proof.Machine

/-- One step: the first choice of the agenda; where the agenda is empty, a free one, without effect where the machine does
not let it happen (DESIGN CHOICE, log 1). -/
def step (s : State) : Host.Outcome State Fault Refusal :=
  match s.agenda with
  | c :: rest =>
    match { s with agenda := rest }.carryOut c with
    | .next t => .next (t.after s)
    | .fault e => .fault e
    | .refused e => .refused e
  | [] =>
    match { s with freeN := s.freeN + 1 }.carryOut (Config.choice s.freeN) with
    | .next t => .next (t.after s)
    | _ => .next { s with freeN := s.freeN + 1 }

/-- s with a word stored where core 0 fetches at its next turn, and that turn first on the agenda. Where no thread is
there to fetch it, the program is loaded from outside first (DESIGN CHOICE, log 7). -/
def State.withFetchWord (s : State) (_nbits w : Nat) : State :=
  let s := if s.nextKey.isSome then s else s.loaded
  let k := s.nextKey.getD loadFrame
  { s.wrBytes k (bytesOf 4 w) with agenda := .turn 0 :: s.agenda }

end Sys2Proof.Machine
end

