-- ==== Sys2Proof/Laws/State.lean ====
section
/-! SUPPORT. One lemma for each field of State and each of its shared updates, so that no proof unfolds a record update. -/
namespace Sys2Proof.Machine

/-! `State.setThread` -/

@[simp] theorem State.setThread_mem (s : State) (tid : Nat) (t : Thread) : (s.setThread tid t).mem = s.mem := rfl
@[simp] theorem State.setThread_full (s : State) (tid : Nat) (t : Thread) : (s.setThread tid t).full = s.full := rfl
@[simp] theorem State.setThread_poison (s : State) (tid : Nat) (t : Thread) : (s.setThread tid t).poison = s.poison := rfl
@[simp] theorem State.setThread_ctl (s : State) (tid : Nat) (t : Thread) : (s.setThread tid t).ctl = s.ctl := rfl
@[simp] theorem State.setThread_time (s : State) (tid : Nat) (t : Thread) : (s.setThread tid t).time = s.time := rfl
@[simp] theorem State.setThread_cores (s : State) (tid : Nat) (t : Thread) : (s.setThread tid t).cores = s.cores := rfl
@[simp] theorem State.setThread_nextTid (s : State) (tid : Nat) (t : Thread) : (s.setThread tid t).nextTid = s.nextTid := rfl
@[simp] theorem State.setThread_launches (s : State) (tid : Nat) (t : Thread) : (s.setThread tid t).launches = s.launches := rfl
@[simp] theorem State.setThread_nextLnum (s : State) (tid : Nat) (t : Thread) : (s.setThread tid t).nextLnum = s.nextLnum := rfl
@[simp] theorem State.setThread_completions (s : State) (tid : Nat) (t : Thread) : (s.setThread tid t).completions = s.completions := rfl
@[simp] theorem State.setThread_groveQ (s : State) (tid : Nat) (t : Thread) : (s.setThread tid t).groveQ = s.groveQ := rfl
@[simp] theorem State.setThread_dieQ (s : State) (tid : Nat) (t : Thread) : (s.setThread tid t).dieQ = s.dieQ := rfl
@[simp] theorem State.setThread_overflow (s : State) (tid : Nat) (t : Thread) : (s.setThread tid t).overflow = s.overflow := rfl
@[simp] theorem State.setThread_npSeen (s : State) (tid : Nat) (t : Thread) : (s.setThread tid t).npSeen = s.npSeen := rfl
@[simp] theorem State.setThread_lqtStart (s : State) (tid : Nat) (t : Thread) : (s.setThread tid t).lqtStart = s.lqtStart := rfl
@[simp] theorem State.setThread_overflowed (s : State) (tid : Nat) (t : Thread) : (s.setThread tid t).overflowed = s.overflowed := rfl
@[simp] theorem State.setThread_stale (s : State) (tid : Nat) (t : Thread) : (s.setThread tid t).stale = s.stale := rfl
@[simp] theorem State.setThread_dropped (s : State) (tid : Nat) (t : Thread) : (s.setThread tid t).dropped = s.dropped := rfl
@[simp] theorem State.setThread_roots (s : State) (tid : Nat) (t : Thread) : (s.setThread tid t).roots = s.roots := rfl
@[simp] theorem State.setThread_queued (s : State) (tid : Nat) (t : Thread) : (s.setThread tid t).queued = s.queued := rfl
@[simp] theorem State.setThread_barriers (s : State) (tid : Nat) (t : Thread) : (s.setThread tid t).barriers = s.barriers := rfl
@[simp] theorem State.setThread_accs (s : State) (tid : Nat) (t : Thread) : (s.setThread tid t).accs = s.accs := rfl
@[simp] theorem State.setThread_accN (s : State) (tid : Nat) (t : Thread) : (s.setThread tid t).accN = s.accN := rfl
@[simp] theorem State.setThread_waiters (s : State) (tid : Nat) (t : Thread) : (s.setThread tid t).waiters = s.waiters := rfl
@[simp] theorem State.setThread_tlbs (s : State) (tid : Nat) (t : Thread) : (s.setThread tid t).tlbs = s.tlbs := rfl
@[simp] theorem State.setThread_watch (s : State) (tid : Nat) (t : Thread) : (s.setThread tid t).watch = s.watch := rfl
@[simp] theorem State.setThread_hlc (s : State) (tid : Nat) (t : Thread) : (s.setThread tid t).hlc = s.hlc := rfl
@[simp] theorem State.setThread_canopy (s : State) (tid : Nat) (t : Thread) : (s.setThread tid t).canopy = s.canopy := rfl
@[simp] theorem State.setThread_replicas (s : State) (tid : Nat) (t : Thread) : (s.setThread tid t).replicas = s.replicas := rfl
@[simp] theorem State.setThread_mxu (s : State) (tid : Nat) (t : Thread) : (s.setThread tid t).mxu = s.mxu := rfl
@[simp] theorem State.setThread_dieTurns (s : State) (tid : Nat) (t : Thread) : (s.setThread tid t).dieTurns = s.dieTurns := rfl
@[simp] theorem State.setThread_links (s : State) (tid : Nat) (t : Thread) : (s.setThread tid t).links = s.links := rfl
@[simp] theorem State.setThread_boundaries (s : State) (tid : Nat) (t : Thread) : (s.setThread tid t).boundaries = s.boundaries := rfl
@[simp] theorem State.setThread_eseqOut (s : State) (tid : Nat) (t : Thread) : (s.setThread tid t).eseqOut = s.eseqOut := rfl
@[simp] theorem State.setThread_eseqIn (s : State) (tid : Nat) (t : Thread) : (s.setThread tid t).eseqIn = s.eseqIn := rfl
@[simp] theorem State.setThread_dieFlits (s : State) (tid : Nat) (t : Thread) : (s.setThread tid t).dieFlits = s.dieFlits := rfl
@[simp] theorem State.setThread_arrivals (s : State) (tid : Nat) (t : Thread) : (s.setThread tid t).arrivals = s.arrivals := rfl
@[simp] theorem State.setThread_mailOut (s : State) (tid : Nat) (t : Thread) : (s.setThread tid t).mailOut = s.mailOut := rfl
@[simp] theorem State.setThread_host (s : State) (tid : Nat) (t : Thread) : (s.setThread tid t).host = s.host := rfl
@[simp] theorem State.setThread_image (s : State) (tid : Nat) (t : Thread) : (s.setThread tid t).image = s.image := rfl
@[simp] theorem State.setThread_mode (s : State) (tid : Nat) (t : Thread) : (s.setThread tid t).mode = s.mode := rfl
@[simp] theorem State.setThread_mgmt (s : State) (tid : Nat) (t : Thread) : (s.setThread tid t).mgmt = s.mgmt := rfl
@[simp] theorem State.setThread_cur (s : State) (tid : Nat) (t : Thread) : (s.setThread tid t).cur = s.cur := rfl
@[simp] theorem State.setThread_iword (s : State) (tid : Nat) (t : Thread) : (s.setThread tid t).iword = s.iword := rfl
@[simp] theorem State.setThread_freeN (s : State) (tid : Nat) (t : Thread) : (s.setThread tid t).freeN = s.freeN := rfl
@[simp] theorem State.setThread_agenda (s : State) (tid : Nat) (t : Thread) : (s.setThread tid t).agenda = s.agenda := rfl

/-! `State.setCore` -/

@[simp] theorem State.setCore_mem (s : State) (c : Nat) (k : Core) : (s.setCore c k).mem = s.mem := rfl
@[simp] theorem State.setCore_full (s : State) (c : Nat) (k : Core) : (s.setCore c k).full = s.full := rfl
@[simp] theorem State.setCore_poison (s : State) (c : Nat) (k : Core) : (s.setCore c k).poison = s.poison := rfl
@[simp] theorem State.setCore_ctl (s : State) (c : Nat) (k : Core) : (s.setCore c k).ctl = s.ctl := rfl
@[simp] theorem State.setCore_time (s : State) (c : Nat) (k : Core) : (s.setCore c k).time = s.time := rfl
@[simp] theorem State.setCore_threads (s : State) (c : Nat) (k : Core) : (s.setCore c k).threads = s.threads := rfl
@[simp] theorem State.setCore_nextTid (s : State) (c : Nat) (k : Core) : (s.setCore c k).nextTid = s.nextTid := rfl
@[simp] theorem State.setCore_launches (s : State) (c : Nat) (k : Core) : (s.setCore c k).launches = s.launches := rfl
@[simp] theorem State.setCore_nextLnum (s : State) (c : Nat) (k : Core) : (s.setCore c k).nextLnum = s.nextLnum := rfl
@[simp] theorem State.setCore_completions (s : State) (c : Nat) (k : Core) : (s.setCore c k).completions = s.completions := rfl
@[simp] theorem State.setCore_groveQ (s : State) (c : Nat) (k : Core) : (s.setCore c k).groveQ = s.groveQ := rfl
@[simp] theorem State.setCore_dieQ (s : State) (c : Nat) (k : Core) : (s.setCore c k).dieQ = s.dieQ := rfl
@[simp] theorem State.setCore_overflow (s : State) (c : Nat) (k : Core) : (s.setCore c k).overflow = s.overflow := rfl
@[simp] theorem State.setCore_npSeen (s : State) (c : Nat) (k : Core) : (s.setCore c k).npSeen = s.npSeen := rfl
@[simp] theorem State.setCore_lqtStart (s : State) (c : Nat) (k : Core) : (s.setCore c k).lqtStart = s.lqtStart := rfl
@[simp] theorem State.setCore_overflowed (s : State) (c : Nat) (k : Core) : (s.setCore c k).overflowed = s.overflowed := rfl
@[simp] theorem State.setCore_stale (s : State) (c : Nat) (k : Core) : (s.setCore c k).stale = s.stale := rfl
@[simp] theorem State.setCore_dropped (s : State) (c : Nat) (k : Core) : (s.setCore c k).dropped = s.dropped := rfl
@[simp] theorem State.setCore_roots (s : State) (c : Nat) (k : Core) : (s.setCore c k).roots = s.roots := rfl
@[simp] theorem State.setCore_queued (s : State) (c : Nat) (k : Core) : (s.setCore c k).queued = s.queued := rfl
@[simp] theorem State.setCore_barriers (s : State) (c : Nat) (k : Core) : (s.setCore c k).barriers = s.barriers := rfl
@[simp] theorem State.setCore_accs (s : State) (c : Nat) (k : Core) : (s.setCore c k).accs = s.accs := rfl
@[simp] theorem State.setCore_accN (s : State) (c : Nat) (k : Core) : (s.setCore c k).accN = s.accN := rfl
@[simp] theorem State.setCore_waiters (s : State) (c : Nat) (k : Core) : (s.setCore c k).waiters = s.waiters := rfl
@[simp] theorem State.setCore_tlbs (s : State) (c : Nat) (k : Core) : (s.setCore c k).tlbs = s.tlbs := rfl
@[simp] theorem State.setCore_watch (s : State) (c : Nat) (k : Core) : (s.setCore c k).watch = s.watch := rfl
@[simp] theorem State.setCore_hlc (s : State) (c : Nat) (k : Core) : (s.setCore c k).hlc = s.hlc := rfl
@[simp] theorem State.setCore_canopy (s : State) (c : Nat) (k : Core) : (s.setCore c k).canopy = s.canopy := rfl
@[simp] theorem State.setCore_replicas (s : State) (c : Nat) (k : Core) : (s.setCore c k).replicas = s.replicas := rfl
@[simp] theorem State.setCore_mxu (s : State) (c : Nat) (k : Core) : (s.setCore c k).mxu = s.mxu := rfl
@[simp] theorem State.setCore_dieTurns (s : State) (c : Nat) (k : Core) : (s.setCore c k).dieTurns = s.dieTurns := rfl
@[simp] theorem State.setCore_links (s : State) (c : Nat) (k : Core) : (s.setCore c k).links = s.links := rfl
@[simp] theorem State.setCore_boundaries (s : State) (c : Nat) (k : Core) : (s.setCore c k).boundaries = s.boundaries := rfl
@[simp] theorem State.setCore_eseqOut (s : State) (c : Nat) (k : Core) : (s.setCore c k).eseqOut = s.eseqOut := rfl
@[simp] theorem State.setCore_eseqIn (s : State) (c : Nat) (k : Core) : (s.setCore c k).eseqIn = s.eseqIn := rfl
@[simp] theorem State.setCore_dieFlits (s : State) (c : Nat) (k : Core) : (s.setCore c k).dieFlits = s.dieFlits := rfl
@[simp] theorem State.setCore_arrivals (s : State) (c : Nat) (k : Core) : (s.setCore c k).arrivals = s.arrivals := rfl
@[simp] theorem State.setCore_mailOut (s : State) (c : Nat) (k : Core) : (s.setCore c k).mailOut = s.mailOut := rfl
@[simp] theorem State.setCore_host (s : State) (c : Nat) (k : Core) : (s.setCore c k).host = s.host := rfl
@[simp] theorem State.setCore_image (s : State) (c : Nat) (k : Core) : (s.setCore c k).image = s.image := rfl
@[simp] theorem State.setCore_mode (s : State) (c : Nat) (k : Core) : (s.setCore c k).mode = s.mode := rfl
@[simp] theorem State.setCore_mgmt (s : State) (c : Nat) (k : Core) : (s.setCore c k).mgmt = s.mgmt := rfl
@[simp] theorem State.setCore_cur (s : State) (c : Nat) (k : Core) : (s.setCore c k).cur = s.cur := rfl
@[simp] theorem State.setCore_iword (s : State) (c : Nat) (k : Core) : (s.setCore c k).iword = s.iword := rfl
@[simp] theorem State.setCore_freeN (s : State) (c : Nat) (k : Core) : (s.setCore c k).freeN = s.freeN := rfl
@[simp] theorem State.setCore_agenda (s : State) (c : Nat) (k : Core) : (s.setCore c k).agenda = s.agenda := rfl

/-! `State.modCore` -/

@[simp] theorem State.modCore_mem (s : State) (c : Nat) (f : Core → Core) : (s.modCore c f).mem = s.mem := rfl
@[simp] theorem State.modCore_full (s : State) (c : Nat) (f : Core → Core) : (s.modCore c f).full = s.full := rfl
@[simp] theorem State.modCore_poison (s : State) (c : Nat) (f : Core → Core) : (s.modCore c f).poison = s.poison := rfl
@[simp] theorem State.modCore_ctl (s : State) (c : Nat) (f : Core → Core) : (s.modCore c f).ctl = s.ctl := rfl
@[simp] theorem State.modCore_time (s : State) (c : Nat) (f : Core → Core) : (s.modCore c f).time = s.time := rfl
@[simp] theorem State.modCore_threads (s : State) (c : Nat) (f : Core → Core) : (s.modCore c f).threads = s.threads := rfl
@[simp] theorem State.modCore_nextTid (s : State) (c : Nat) (f : Core → Core) : (s.modCore c f).nextTid = s.nextTid := rfl
@[simp] theorem State.modCore_launches (s : State) (c : Nat) (f : Core → Core) : (s.modCore c f).launches = s.launches := rfl
@[simp] theorem State.modCore_nextLnum (s : State) (c : Nat) (f : Core → Core) : (s.modCore c f).nextLnum = s.nextLnum := rfl
@[simp] theorem State.modCore_completions (s : State) (c : Nat) (f : Core → Core) : (s.modCore c f).completions = s.completions := rfl
@[simp] theorem State.modCore_groveQ (s : State) (c : Nat) (f : Core → Core) : (s.modCore c f).groveQ = s.groveQ := rfl
@[simp] theorem State.modCore_dieQ (s : State) (c : Nat) (f : Core → Core) : (s.modCore c f).dieQ = s.dieQ := rfl
@[simp] theorem State.modCore_overflow (s : State) (c : Nat) (f : Core → Core) : (s.modCore c f).overflow = s.overflow := rfl
@[simp] theorem State.modCore_npSeen (s : State) (c : Nat) (f : Core → Core) : (s.modCore c f).npSeen = s.npSeen := rfl
@[simp] theorem State.modCore_lqtStart (s : State) (c : Nat) (f : Core → Core) : (s.modCore c f).lqtStart = s.lqtStart := rfl
@[simp] theorem State.modCore_overflowed (s : State) (c : Nat) (f : Core → Core) : (s.modCore c f).overflowed = s.overflowed := rfl
@[simp] theorem State.modCore_stale (s : State) (c : Nat) (f : Core → Core) : (s.modCore c f).stale = s.stale := rfl
@[simp] theorem State.modCore_dropped (s : State) (c : Nat) (f : Core → Core) : (s.modCore c f).dropped = s.dropped := rfl
@[simp] theorem State.modCore_roots (s : State) (c : Nat) (f : Core → Core) : (s.modCore c f).roots = s.roots := rfl
@[simp] theorem State.modCore_queued (s : State) (c : Nat) (f : Core → Core) : (s.modCore c f).queued = s.queued := rfl
@[simp] theorem State.modCore_barriers (s : State) (c : Nat) (f : Core → Core) : (s.modCore c f).barriers = s.barriers := rfl
@[simp] theorem State.modCore_accs (s : State) (c : Nat) (f : Core → Core) : (s.modCore c f).accs = s.accs := rfl
@[simp] theorem State.modCore_accN (s : State) (c : Nat) (f : Core → Core) : (s.modCore c f).accN = s.accN := rfl
@[simp] theorem State.modCore_waiters (s : State) (c : Nat) (f : Core → Core) : (s.modCore c f).waiters = s.waiters := rfl
@[simp] theorem State.modCore_tlbs (s : State) (c : Nat) (f : Core → Core) : (s.modCore c f).tlbs = s.tlbs := rfl
@[simp] theorem State.modCore_watch (s : State) (c : Nat) (f : Core → Core) : (s.modCore c f).watch = s.watch := rfl
@[simp] theorem State.modCore_hlc (s : State) (c : Nat) (f : Core → Core) : (s.modCore c f).hlc = s.hlc := rfl
@[simp] theorem State.modCore_canopy (s : State) (c : Nat) (f : Core → Core) : (s.modCore c f).canopy = s.canopy := rfl
@[simp] theorem State.modCore_replicas (s : State) (c : Nat) (f : Core → Core) : (s.modCore c f).replicas = s.replicas := rfl
@[simp] theorem State.modCore_mxu (s : State) (c : Nat) (f : Core → Core) : (s.modCore c f).mxu = s.mxu := rfl
@[simp] theorem State.modCore_dieTurns (s : State) (c : Nat) (f : Core → Core) : (s.modCore c f).dieTurns = s.dieTurns := rfl
@[simp] theorem State.modCore_links (s : State) (c : Nat) (f : Core → Core) : (s.modCore c f).links = s.links := rfl
@[simp] theorem State.modCore_boundaries (s : State) (c : Nat) (f : Core → Core) : (s.modCore c f).boundaries = s.boundaries := rfl
@[simp] theorem State.modCore_eseqOut (s : State) (c : Nat) (f : Core → Core) : (s.modCore c f).eseqOut = s.eseqOut := rfl
@[simp] theorem State.modCore_eseqIn (s : State) (c : Nat) (f : Core → Core) : (s.modCore c f).eseqIn = s.eseqIn := rfl
@[simp] theorem State.modCore_dieFlits (s : State) (c : Nat) (f : Core → Core) : (s.modCore c f).dieFlits = s.dieFlits := rfl
@[simp] theorem State.modCore_arrivals (s : State) (c : Nat) (f : Core → Core) : (s.modCore c f).arrivals = s.arrivals := rfl
@[simp] theorem State.modCore_mailOut (s : State) (c : Nat) (f : Core → Core) : (s.modCore c f).mailOut = s.mailOut := rfl
@[simp] theorem State.modCore_host (s : State) (c : Nat) (f : Core → Core) : (s.modCore c f).host = s.host := rfl
@[simp] theorem State.modCore_image (s : State) (c : Nat) (f : Core → Core) : (s.modCore c f).image = s.image := rfl
@[simp] theorem State.modCore_mode (s : State) (c : Nat) (f : Core → Core) : (s.modCore c f).mode = s.mode := rfl
@[simp] theorem State.modCore_mgmt (s : State) (c : Nat) (f : Core → Core) : (s.modCore c f).mgmt = s.mgmt := rfl
@[simp] theorem State.modCore_cur (s : State) (c : Nat) (f : Core → Core) : (s.modCore c f).cur = s.cur := rfl
@[simp] theorem State.modCore_iword (s : State) (c : Nat) (f : Core → Core) : (s.modCore c f).iword = s.iword := rfl
@[simp] theorem State.modCore_freeN (s : State) (c : Nat) (f : Core → Core) : (s.modCore c f).freeN = s.freeN := rfl
@[simp] theorem State.modCore_agenda (s : State) (c : Nat) (f : Core → Core) : (s.modCore c f).agenda = s.agenda := rfl

/-! `State.modSlot` -/

@[simp] theorem State.modSlot_mem (s : State) (c j : Nat) (f : Slot → Slot) : (s.modSlot c j f).mem = s.mem := rfl
@[simp] theorem State.modSlot_full (s : State) (c j : Nat) (f : Slot → Slot) : (s.modSlot c j f).full = s.full := rfl
@[simp] theorem State.modSlot_poison (s : State) (c j : Nat) (f : Slot → Slot) : (s.modSlot c j f).poison = s.poison := rfl
@[simp] theorem State.modSlot_ctl (s : State) (c j : Nat) (f : Slot → Slot) : (s.modSlot c j f).ctl = s.ctl := rfl
@[simp] theorem State.modSlot_time (s : State) (c j : Nat) (f : Slot → Slot) : (s.modSlot c j f).time = s.time := rfl
@[simp] theorem State.modSlot_threads (s : State) (c j : Nat) (f : Slot → Slot) : (s.modSlot c j f).threads = s.threads := rfl
@[simp] theorem State.modSlot_nextTid (s : State) (c j : Nat) (f : Slot → Slot) : (s.modSlot c j f).nextTid = s.nextTid := rfl
@[simp] theorem State.modSlot_launches (s : State) (c j : Nat) (f : Slot → Slot) : (s.modSlot c j f).launches = s.launches := rfl
@[simp] theorem State.modSlot_nextLnum (s : State) (c j : Nat) (f : Slot → Slot) : (s.modSlot c j f).nextLnum = s.nextLnum := rfl
@[simp] theorem State.modSlot_completions (s : State) (c j : Nat) (f : Slot → Slot) : (s.modSlot c j f).completions = s.completions := rfl
@[simp] theorem State.modSlot_groveQ (s : State) (c j : Nat) (f : Slot → Slot) : (s.modSlot c j f).groveQ = s.groveQ := rfl
@[simp] theorem State.modSlot_dieQ (s : State) (c j : Nat) (f : Slot → Slot) : (s.modSlot c j f).dieQ = s.dieQ := rfl
@[simp] theorem State.modSlot_overflow (s : State) (c j : Nat) (f : Slot → Slot) : (s.modSlot c j f).overflow = s.overflow := rfl
@[simp] theorem State.modSlot_npSeen (s : State) (c j : Nat) (f : Slot → Slot) : (s.modSlot c j f).npSeen = s.npSeen := rfl
@[simp] theorem State.modSlot_lqtStart (s : State) (c j : Nat) (f : Slot → Slot) : (s.modSlot c j f).lqtStart = s.lqtStart := rfl
@[simp] theorem State.modSlot_overflowed (s : State) (c j : Nat) (f : Slot → Slot) : (s.modSlot c j f).overflowed = s.overflowed := rfl
@[simp] theorem State.modSlot_stale (s : State) (c j : Nat) (f : Slot → Slot) : (s.modSlot c j f).stale = s.stale := rfl
@[simp] theorem State.modSlot_dropped (s : State) (c j : Nat) (f : Slot → Slot) : (s.modSlot c j f).dropped = s.dropped := rfl
@[simp] theorem State.modSlot_roots (s : State) (c j : Nat) (f : Slot → Slot) : (s.modSlot c j f).roots = s.roots := rfl
@[simp] theorem State.modSlot_queued (s : State) (c j : Nat) (f : Slot → Slot) : (s.modSlot c j f).queued = s.queued := rfl
@[simp] theorem State.modSlot_barriers (s : State) (c j : Nat) (f : Slot → Slot) : (s.modSlot c j f).barriers = s.barriers := rfl
@[simp] theorem State.modSlot_accs (s : State) (c j : Nat) (f : Slot → Slot) : (s.modSlot c j f).accs = s.accs := rfl
@[simp] theorem State.modSlot_accN (s : State) (c j : Nat) (f : Slot → Slot) : (s.modSlot c j f).accN = s.accN := rfl
@[simp] theorem State.modSlot_waiters (s : State) (c j : Nat) (f : Slot → Slot) : (s.modSlot c j f).waiters = s.waiters := rfl
@[simp] theorem State.modSlot_tlbs (s : State) (c j : Nat) (f : Slot → Slot) : (s.modSlot c j f).tlbs = s.tlbs := rfl
@[simp] theorem State.modSlot_watch (s : State) (c j : Nat) (f : Slot → Slot) : (s.modSlot c j f).watch = s.watch := rfl
@[simp] theorem State.modSlot_hlc (s : State) (c j : Nat) (f : Slot → Slot) : (s.modSlot c j f).hlc = s.hlc := rfl
@[simp] theorem State.modSlot_canopy (s : State) (c j : Nat) (f : Slot → Slot) : (s.modSlot c j f).canopy = s.canopy := rfl
@[simp] theorem State.modSlot_replicas (s : State) (c j : Nat) (f : Slot → Slot) : (s.modSlot c j f).replicas = s.replicas := rfl
@[simp] theorem State.modSlot_mxu (s : State) (c j : Nat) (f : Slot → Slot) : (s.modSlot c j f).mxu = s.mxu := rfl
@[simp] theorem State.modSlot_dieTurns (s : State) (c j : Nat) (f : Slot → Slot) : (s.modSlot c j f).dieTurns = s.dieTurns := rfl
@[simp] theorem State.modSlot_links (s : State) (c j : Nat) (f : Slot → Slot) : (s.modSlot c j f).links = s.links := rfl
@[simp] theorem State.modSlot_boundaries (s : State) (c j : Nat) (f : Slot → Slot) : (s.modSlot c j f).boundaries = s.boundaries := rfl
@[simp] theorem State.modSlot_eseqOut (s : State) (c j : Nat) (f : Slot → Slot) : (s.modSlot c j f).eseqOut = s.eseqOut := rfl
@[simp] theorem State.modSlot_eseqIn (s : State) (c j : Nat) (f : Slot → Slot) : (s.modSlot c j f).eseqIn = s.eseqIn := rfl
@[simp] theorem State.modSlot_dieFlits (s : State) (c j : Nat) (f : Slot → Slot) : (s.modSlot c j f).dieFlits = s.dieFlits := rfl
@[simp] theorem State.modSlot_arrivals (s : State) (c j : Nat) (f : Slot → Slot) : (s.modSlot c j f).arrivals = s.arrivals := rfl
@[simp] theorem State.modSlot_mailOut (s : State) (c j : Nat) (f : Slot → Slot) : (s.modSlot c j f).mailOut = s.mailOut := rfl
@[simp] theorem State.modSlot_host (s : State) (c j : Nat) (f : Slot → Slot) : (s.modSlot c j f).host = s.host := rfl
@[simp] theorem State.modSlot_image (s : State) (c j : Nat) (f : Slot → Slot) : (s.modSlot c j f).image = s.image := rfl
@[simp] theorem State.modSlot_mode (s : State) (c j : Nat) (f : Slot → Slot) : (s.modSlot c j f).mode = s.mode := rfl
@[simp] theorem State.modSlot_mgmt (s : State) (c j : Nat) (f : Slot → Slot) : (s.modSlot c j f).mgmt = s.mgmt := rfl
@[simp] theorem State.modSlot_cur (s : State) (c j : Nat) (f : Slot → Slot) : (s.modSlot c j f).cur = s.cur := rfl
@[simp] theorem State.modSlot_iword (s : State) (c j : Nat) (f : Slot → Slot) : (s.modSlot c j f).iword = s.iword := rfl
@[simp] theorem State.modSlot_freeN (s : State) (c j : Nat) (f : Slot → Slot) : (s.modSlot c j f).freeN = s.freeN := rfl
@[simp] theorem State.modSlot_agenda (s : State) (c j : Nat) (f : Slot → Slot) : (s.modSlot c j f).agenda = s.agenda := rfl

/-! `State.setLaunch` -/

@[simp] theorem State.setLaunch_mem (s : State) (n : Nat) (l : Launch) : (s.setLaunch n l).mem = s.mem := rfl
@[simp] theorem State.setLaunch_full (s : State) (n : Nat) (l : Launch) : (s.setLaunch n l).full = s.full := rfl
@[simp] theorem State.setLaunch_poison (s : State) (n : Nat) (l : Launch) : (s.setLaunch n l).poison = s.poison := rfl
@[simp] theorem State.setLaunch_ctl (s : State) (n : Nat) (l : Launch) : (s.setLaunch n l).ctl = s.ctl := rfl
@[simp] theorem State.setLaunch_time (s : State) (n : Nat) (l : Launch) : (s.setLaunch n l).time = s.time := rfl
@[simp] theorem State.setLaunch_cores (s : State) (n : Nat) (l : Launch) : (s.setLaunch n l).cores = s.cores := rfl
@[simp] theorem State.setLaunch_threads (s : State) (n : Nat) (l : Launch) : (s.setLaunch n l).threads = s.threads := rfl
@[simp] theorem State.setLaunch_nextTid (s : State) (n : Nat) (l : Launch) : (s.setLaunch n l).nextTid = s.nextTid := rfl
@[simp] theorem State.setLaunch_nextLnum (s : State) (n : Nat) (l : Launch) : (s.setLaunch n l).nextLnum = s.nextLnum := rfl
@[simp] theorem State.setLaunch_completions (s : State) (n : Nat) (l : Launch) : (s.setLaunch n l).completions = s.completions := rfl
@[simp] theorem State.setLaunch_groveQ (s : State) (n : Nat) (l : Launch) : (s.setLaunch n l).groveQ = s.groveQ := rfl
@[simp] theorem State.setLaunch_dieQ (s : State) (n : Nat) (l : Launch) : (s.setLaunch n l).dieQ = s.dieQ := rfl
@[simp] theorem State.setLaunch_overflow (s : State) (n : Nat) (l : Launch) : (s.setLaunch n l).overflow = s.overflow := rfl
@[simp] theorem State.setLaunch_npSeen (s : State) (n : Nat) (l : Launch) : (s.setLaunch n l).npSeen = s.npSeen := rfl
@[simp] theorem State.setLaunch_lqtStart (s : State) (n : Nat) (l : Launch) : (s.setLaunch n l).lqtStart = s.lqtStart := rfl
@[simp] theorem State.setLaunch_overflowed (s : State) (n : Nat) (l : Launch) : (s.setLaunch n l).overflowed = s.overflowed := rfl
@[simp] theorem State.setLaunch_stale (s : State) (n : Nat) (l : Launch) : (s.setLaunch n l).stale = s.stale := rfl
@[simp] theorem State.setLaunch_dropped (s : State) (n : Nat) (l : Launch) : (s.setLaunch n l).dropped = s.dropped := rfl
@[simp] theorem State.setLaunch_roots (s : State) (n : Nat) (l : Launch) : (s.setLaunch n l).roots = s.roots := rfl
@[simp] theorem State.setLaunch_queued (s : State) (n : Nat) (l : Launch) : (s.setLaunch n l).queued = s.queued := rfl
@[simp] theorem State.setLaunch_barriers (s : State) (n : Nat) (l : Launch) : (s.setLaunch n l).barriers = s.barriers := rfl
@[simp] theorem State.setLaunch_accs (s : State) (n : Nat) (l : Launch) : (s.setLaunch n l).accs = s.accs := rfl
@[simp] theorem State.setLaunch_accN (s : State) (n : Nat) (l : Launch) : (s.setLaunch n l).accN = s.accN := rfl
@[simp] theorem State.setLaunch_waiters (s : State) (n : Nat) (l : Launch) : (s.setLaunch n l).waiters = s.waiters := rfl
@[simp] theorem State.setLaunch_tlbs (s : State) (n : Nat) (l : Launch) : (s.setLaunch n l).tlbs = s.tlbs := rfl
@[simp] theorem State.setLaunch_watch (s : State) (n : Nat) (l : Launch) : (s.setLaunch n l).watch = s.watch := rfl
@[simp] theorem State.setLaunch_hlc (s : State) (n : Nat) (l : Launch) : (s.setLaunch n l).hlc = s.hlc := rfl
@[simp] theorem State.setLaunch_canopy (s : State) (n : Nat) (l : Launch) : (s.setLaunch n l).canopy = s.canopy := rfl
@[simp] theorem State.setLaunch_replicas (s : State) (n : Nat) (l : Launch) : (s.setLaunch n l).replicas = s.replicas := rfl
@[simp] theorem State.setLaunch_mxu (s : State) (n : Nat) (l : Launch) : (s.setLaunch n l).mxu = s.mxu := rfl
@[simp] theorem State.setLaunch_dieTurns (s : State) (n : Nat) (l : Launch) : (s.setLaunch n l).dieTurns = s.dieTurns := rfl
@[simp] theorem State.setLaunch_links (s : State) (n : Nat) (l : Launch) : (s.setLaunch n l).links = s.links := rfl
@[simp] theorem State.setLaunch_boundaries (s : State) (n : Nat) (l : Launch) : (s.setLaunch n l).boundaries = s.boundaries := rfl
@[simp] theorem State.setLaunch_eseqOut (s : State) (n : Nat) (l : Launch) : (s.setLaunch n l).eseqOut = s.eseqOut := rfl
@[simp] theorem State.setLaunch_eseqIn (s : State) (n : Nat) (l : Launch) : (s.setLaunch n l).eseqIn = s.eseqIn := rfl
@[simp] theorem State.setLaunch_dieFlits (s : State) (n : Nat) (l : Launch) : (s.setLaunch n l).dieFlits = s.dieFlits := rfl
@[simp] theorem State.setLaunch_arrivals (s : State) (n : Nat) (l : Launch) : (s.setLaunch n l).arrivals = s.arrivals := rfl
@[simp] theorem State.setLaunch_mailOut (s : State) (n : Nat) (l : Launch) : (s.setLaunch n l).mailOut = s.mailOut := rfl
@[simp] theorem State.setLaunch_host (s : State) (n : Nat) (l : Launch) : (s.setLaunch n l).host = s.host := rfl
@[simp] theorem State.setLaunch_image (s : State) (n : Nat) (l : Launch) : (s.setLaunch n l).image = s.image := rfl
@[simp] theorem State.setLaunch_mode (s : State) (n : Nat) (l : Launch) : (s.setLaunch n l).mode = s.mode := rfl
@[simp] theorem State.setLaunch_mgmt (s : State) (n : Nat) (l : Launch) : (s.setLaunch n l).mgmt = s.mgmt := rfl
@[simp] theorem State.setLaunch_cur (s : State) (n : Nat) (l : Launch) : (s.setLaunch n l).cur = s.cur := rfl
@[simp] theorem State.setLaunch_iword (s : State) (n : Nat) (l : Launch) : (s.setLaunch n l).iword = s.iword := rfl
@[simp] theorem State.setLaunch_freeN (s : State) (n : Nat) (l : Launch) : (s.setLaunch n l).freeN = s.freeN := rfl
@[simp] theorem State.setLaunch_agenda (s : State) (n : Nat) (l : Launch) : (s.setLaunch n l).agenda = s.agenda := rfl

/-! `State.modThread` -/

@[simp] theorem State.modThread_mem (s : State) (tid : Nat) (f : Thread → Thread) : (s.modThread tid f).mem = s.mem := by unfold State.modThread; split <;> rfl
@[simp] theorem State.modThread_full (s : State) (tid : Nat) (f : Thread → Thread) : (s.modThread tid f).full = s.full := by unfold State.modThread; split <;> rfl
@[simp] theorem State.modThread_poison (s : State) (tid : Nat) (f : Thread → Thread) : (s.modThread tid f).poison = s.poison := by unfold State.modThread; split <;> rfl
@[simp] theorem State.modThread_ctl (s : State) (tid : Nat) (f : Thread → Thread) : (s.modThread tid f).ctl = s.ctl := by unfold State.modThread; split <;> rfl
@[simp] theorem State.modThread_time (s : State) (tid : Nat) (f : Thread → Thread) : (s.modThread tid f).time = s.time := by unfold State.modThread; split <;> rfl
@[simp] theorem State.modThread_cores (s : State) (tid : Nat) (f : Thread → Thread) : (s.modThread tid f).cores = s.cores := by unfold State.modThread; split <;> rfl
@[simp] theorem State.modThread_nextTid (s : State) (tid : Nat) (f : Thread → Thread) : (s.modThread tid f).nextTid = s.nextTid := by unfold State.modThread; split <;> rfl
@[simp] theorem State.modThread_launches (s : State) (tid : Nat) (f : Thread → Thread) : (s.modThread tid f).launches = s.launches := by unfold State.modThread; split <;> rfl
@[simp] theorem State.modThread_nextLnum (s : State) (tid : Nat) (f : Thread → Thread) : (s.modThread tid f).nextLnum = s.nextLnum := by unfold State.modThread; split <;> rfl
@[simp] theorem State.modThread_completions (s : State) (tid : Nat) (f : Thread → Thread) : (s.modThread tid f).completions = s.completions := by unfold State.modThread; split <;> rfl
@[simp] theorem State.modThread_groveQ (s : State) (tid : Nat) (f : Thread → Thread) : (s.modThread tid f).groveQ = s.groveQ := by unfold State.modThread; split <;> rfl
@[simp] theorem State.modThread_dieQ (s : State) (tid : Nat) (f : Thread → Thread) : (s.modThread tid f).dieQ = s.dieQ := by unfold State.modThread; split <;> rfl
@[simp] theorem State.modThread_overflow (s : State) (tid : Nat) (f : Thread → Thread) : (s.modThread tid f).overflow = s.overflow := by unfold State.modThread; split <;> rfl
@[simp] theorem State.modThread_npSeen (s : State) (tid : Nat) (f : Thread → Thread) : (s.modThread tid f).npSeen = s.npSeen := by unfold State.modThread; split <;> rfl
@[simp] theorem State.modThread_lqtStart (s : State) (tid : Nat) (f : Thread → Thread) : (s.modThread tid f).lqtStart = s.lqtStart := by unfold State.modThread; split <;> rfl
@[simp] theorem State.modThread_overflowed (s : State) (tid : Nat) (f : Thread → Thread) : (s.modThread tid f).overflowed = s.overflowed := by unfold State.modThread; split <;> rfl
@[simp] theorem State.modThread_stale (s : State) (tid : Nat) (f : Thread → Thread) : (s.modThread tid f).stale = s.stale := by unfold State.modThread; split <;> rfl
@[simp] theorem State.modThread_dropped (s : State) (tid : Nat) (f : Thread → Thread) : (s.modThread tid f).dropped = s.dropped := by unfold State.modThread; split <;> rfl
@[simp] theorem State.modThread_roots (s : State) (tid : Nat) (f : Thread → Thread) : (s.modThread tid f).roots = s.roots := by unfold State.modThread; split <;> rfl
@[simp] theorem State.modThread_queued (s : State) (tid : Nat) (f : Thread → Thread) : (s.modThread tid f).queued = s.queued := by unfold State.modThread; split <;> rfl
@[simp] theorem State.modThread_barriers (s : State) (tid : Nat) (f : Thread → Thread) : (s.modThread tid f).barriers = s.barriers := by unfold State.modThread; split <;> rfl
@[simp] theorem State.modThread_accs (s : State) (tid : Nat) (f : Thread → Thread) : (s.modThread tid f).accs = s.accs := by unfold State.modThread; split <;> rfl
@[simp] theorem State.modThread_accN (s : State) (tid : Nat) (f : Thread → Thread) : (s.modThread tid f).accN = s.accN := by unfold State.modThread; split <;> rfl
@[simp] theorem State.modThread_waiters (s : State) (tid : Nat) (f : Thread → Thread) : (s.modThread tid f).waiters = s.waiters := by unfold State.modThread; split <;> rfl
@[simp] theorem State.modThread_tlbs (s : State) (tid : Nat) (f : Thread → Thread) : (s.modThread tid f).tlbs = s.tlbs := by unfold State.modThread; split <;> rfl
@[simp] theorem State.modThread_watch (s : State) (tid : Nat) (f : Thread → Thread) : (s.modThread tid f).watch = s.watch := by unfold State.modThread; split <;> rfl
@[simp] theorem State.modThread_hlc (s : State) (tid : Nat) (f : Thread → Thread) : (s.modThread tid f).hlc = s.hlc := by unfold State.modThread; split <;> rfl
@[simp] theorem State.modThread_canopy (s : State) (tid : Nat) (f : Thread → Thread) : (s.modThread tid f).canopy = s.canopy := by unfold State.modThread; split <;> rfl
@[simp] theorem State.modThread_replicas (s : State) (tid : Nat) (f : Thread → Thread) : (s.modThread tid f).replicas = s.replicas := by unfold State.modThread; split <;> rfl
@[simp] theorem State.modThread_mxu (s : State) (tid : Nat) (f : Thread → Thread) : (s.modThread tid f).mxu = s.mxu := by unfold State.modThread; split <;> rfl
@[simp] theorem State.modThread_dieTurns (s : State) (tid : Nat) (f : Thread → Thread) : (s.modThread tid f).dieTurns = s.dieTurns := by unfold State.modThread; split <;> rfl
@[simp] theorem State.modThread_links (s : State) (tid : Nat) (f : Thread → Thread) : (s.modThread tid f).links = s.links := by unfold State.modThread; split <;> rfl
@[simp] theorem State.modThread_boundaries (s : State) (tid : Nat) (f : Thread → Thread) : (s.modThread tid f).boundaries = s.boundaries := by unfold State.modThread; split <;> rfl
@[simp] theorem State.modThread_eseqOut (s : State) (tid : Nat) (f : Thread → Thread) : (s.modThread tid f).eseqOut = s.eseqOut := by unfold State.modThread; split <;> rfl
@[simp] theorem State.modThread_eseqIn (s : State) (tid : Nat) (f : Thread → Thread) : (s.modThread tid f).eseqIn = s.eseqIn := by unfold State.modThread; split <;> rfl
@[simp] theorem State.modThread_dieFlits (s : State) (tid : Nat) (f : Thread → Thread) : (s.modThread tid f).dieFlits = s.dieFlits := by unfold State.modThread; split <;> rfl
@[simp] theorem State.modThread_arrivals (s : State) (tid : Nat) (f : Thread → Thread) : (s.modThread tid f).arrivals = s.arrivals := by unfold State.modThread; split <;> rfl
@[simp] theorem State.modThread_mailOut (s : State) (tid : Nat) (f : Thread → Thread) : (s.modThread tid f).mailOut = s.mailOut := by unfold State.modThread; split <;> rfl
@[simp] theorem State.modThread_host (s : State) (tid : Nat) (f : Thread → Thread) : (s.modThread tid f).host = s.host := by unfold State.modThread; split <;> rfl
@[simp] theorem State.modThread_image (s : State) (tid : Nat) (f : Thread → Thread) : (s.modThread tid f).image = s.image := by unfold State.modThread; split <;> rfl
@[simp] theorem State.modThread_mode (s : State) (tid : Nat) (f : Thread → Thread) : (s.modThread tid f).mode = s.mode := by unfold State.modThread; split <;> rfl
@[simp] theorem State.modThread_mgmt (s : State) (tid : Nat) (f : Thread → Thread) : (s.modThread tid f).mgmt = s.mgmt := by unfold State.modThread; split <;> rfl
@[simp] theorem State.modThread_cur (s : State) (tid : Nat) (f : Thread → Thread) : (s.modThread tid f).cur = s.cur := by unfold State.modThread; split <;> rfl
@[simp] theorem State.modThread_iword (s : State) (tid : Nat) (f : Thread → Thread) : (s.modThread tid f).iword = s.iword := by unfold State.modThread; split <;> rfl
@[simp] theorem State.modThread_freeN (s : State) (tid : Nat) (f : Thread → Thread) : (s.modThread tid f).freeN = s.freeN := by unfold State.modThread; split <;> rfl
@[simp] theorem State.modThread_agenda (s : State) (tid : Nat) (f : Thread → Thread) : (s.modThread tid f).agenda = s.agenda := by unfold State.modThread; split <;> rfl

/-! `State.modLaunch` -/

@[simp] theorem State.modLaunch_mem (s : State) (n : Nat) (f : Launch → Launch) : (s.modLaunch n f).mem = s.mem := by unfold State.modLaunch; split <;> rfl
@[simp] theorem State.modLaunch_full (s : State) (n : Nat) (f : Launch → Launch) : (s.modLaunch n f).full = s.full := by unfold State.modLaunch; split <;> rfl
@[simp] theorem State.modLaunch_poison (s : State) (n : Nat) (f : Launch → Launch) : (s.modLaunch n f).poison = s.poison := by unfold State.modLaunch; split <;> rfl
@[simp] theorem State.modLaunch_ctl (s : State) (n : Nat) (f : Launch → Launch) : (s.modLaunch n f).ctl = s.ctl := by unfold State.modLaunch; split <;> rfl
@[simp] theorem State.modLaunch_time (s : State) (n : Nat) (f : Launch → Launch) : (s.modLaunch n f).time = s.time := by unfold State.modLaunch; split <;> rfl
@[simp] theorem State.modLaunch_cores (s : State) (n : Nat) (f : Launch → Launch) : (s.modLaunch n f).cores = s.cores := by unfold State.modLaunch; split <;> rfl
@[simp] theorem State.modLaunch_threads (s : State) (n : Nat) (f : Launch → Launch) : (s.modLaunch n f).threads = s.threads := by unfold State.modLaunch; split <;> rfl
@[simp] theorem State.modLaunch_nextTid (s : State) (n : Nat) (f : Launch → Launch) : (s.modLaunch n f).nextTid = s.nextTid := by unfold State.modLaunch; split <;> rfl
@[simp] theorem State.modLaunch_nextLnum (s : State) (n : Nat) (f : Launch → Launch) : (s.modLaunch n f).nextLnum = s.nextLnum := by unfold State.modLaunch; split <;> rfl
@[simp] theorem State.modLaunch_completions (s : State) (n : Nat) (f : Launch → Launch) : (s.modLaunch n f).completions = s.completions := by unfold State.modLaunch; split <;> rfl
@[simp] theorem State.modLaunch_groveQ (s : State) (n : Nat) (f : Launch → Launch) : (s.modLaunch n f).groveQ = s.groveQ := by unfold State.modLaunch; split <;> rfl
@[simp] theorem State.modLaunch_dieQ (s : State) (n : Nat) (f : Launch → Launch) : (s.modLaunch n f).dieQ = s.dieQ := by unfold State.modLaunch; split <;> rfl
@[simp] theorem State.modLaunch_overflow (s : State) (n : Nat) (f : Launch → Launch) : (s.modLaunch n f).overflow = s.overflow := by unfold State.modLaunch; split <;> rfl
@[simp] theorem State.modLaunch_npSeen (s : State) (n : Nat) (f : Launch → Launch) : (s.modLaunch n f).npSeen = s.npSeen := by unfold State.modLaunch; split <;> rfl
@[simp] theorem State.modLaunch_lqtStart (s : State) (n : Nat) (f : Launch → Launch) : (s.modLaunch n f).lqtStart = s.lqtStart := by unfold State.modLaunch; split <;> rfl
@[simp] theorem State.modLaunch_overflowed (s : State) (n : Nat) (f : Launch → Launch) : (s.modLaunch n f).overflowed = s.overflowed := by unfold State.modLaunch; split <;> rfl
@[simp] theorem State.modLaunch_stale (s : State) (n : Nat) (f : Launch → Launch) : (s.modLaunch n f).stale = s.stale := by unfold State.modLaunch; split <;> rfl
@[simp] theorem State.modLaunch_dropped (s : State) (n : Nat) (f : Launch → Launch) : (s.modLaunch n f).dropped = s.dropped := by unfold State.modLaunch; split <;> rfl
@[simp] theorem State.modLaunch_roots (s : State) (n : Nat) (f : Launch → Launch) : (s.modLaunch n f).roots = s.roots := by unfold State.modLaunch; split <;> rfl
@[simp] theorem State.modLaunch_queued (s : State) (n : Nat) (f : Launch → Launch) : (s.modLaunch n f).queued = s.queued := by unfold State.modLaunch; split <;> rfl
@[simp] theorem State.modLaunch_barriers (s : State) (n : Nat) (f : Launch → Launch) : (s.modLaunch n f).barriers = s.barriers := by unfold State.modLaunch; split <;> rfl
@[simp] theorem State.modLaunch_accs (s : State) (n : Nat) (f : Launch → Launch) : (s.modLaunch n f).accs = s.accs := by unfold State.modLaunch; split <;> rfl
@[simp] theorem State.modLaunch_accN (s : State) (n : Nat) (f : Launch → Launch) : (s.modLaunch n f).accN = s.accN := by unfold State.modLaunch; split <;> rfl
@[simp] theorem State.modLaunch_waiters (s : State) (n : Nat) (f : Launch → Launch) : (s.modLaunch n f).waiters = s.waiters := by unfold State.modLaunch; split <;> rfl
@[simp] theorem State.modLaunch_tlbs (s : State) (n : Nat) (f : Launch → Launch) : (s.modLaunch n f).tlbs = s.tlbs := by unfold State.modLaunch; split <;> rfl
@[simp] theorem State.modLaunch_watch (s : State) (n : Nat) (f : Launch → Launch) : (s.modLaunch n f).watch = s.watch := by unfold State.modLaunch; split <;> rfl
@[simp] theorem State.modLaunch_hlc (s : State) (n : Nat) (f : Launch → Launch) : (s.modLaunch n f).hlc = s.hlc := by unfold State.modLaunch; split <;> rfl
@[simp] theorem State.modLaunch_canopy (s : State) (n : Nat) (f : Launch → Launch) : (s.modLaunch n f).canopy = s.canopy := by unfold State.modLaunch; split <;> rfl
@[simp] theorem State.modLaunch_replicas (s : State) (n : Nat) (f : Launch → Launch) : (s.modLaunch n f).replicas = s.replicas := by unfold State.modLaunch; split <;> rfl
@[simp] theorem State.modLaunch_mxu (s : State) (n : Nat) (f : Launch → Launch) : (s.modLaunch n f).mxu = s.mxu := by unfold State.modLaunch; split <;> rfl
@[simp] theorem State.modLaunch_dieTurns (s : State) (n : Nat) (f : Launch → Launch) : (s.modLaunch n f).dieTurns = s.dieTurns := by unfold State.modLaunch; split <;> rfl
@[simp] theorem State.modLaunch_links (s : State) (n : Nat) (f : Launch → Launch) : (s.modLaunch n f).links = s.links := by unfold State.modLaunch; split <;> rfl
@[simp] theorem State.modLaunch_boundaries (s : State) (n : Nat) (f : Launch → Launch) : (s.modLaunch n f).boundaries = s.boundaries := by unfold State.modLaunch; split <;> rfl
@[simp] theorem State.modLaunch_eseqOut (s : State) (n : Nat) (f : Launch → Launch) : (s.modLaunch n f).eseqOut = s.eseqOut := by unfold State.modLaunch; split <;> rfl
@[simp] theorem State.modLaunch_eseqIn (s : State) (n : Nat) (f : Launch → Launch) : (s.modLaunch n f).eseqIn = s.eseqIn := by unfold State.modLaunch; split <;> rfl
@[simp] theorem State.modLaunch_dieFlits (s : State) (n : Nat) (f : Launch → Launch) : (s.modLaunch n f).dieFlits = s.dieFlits := by unfold State.modLaunch; split <;> rfl
@[simp] theorem State.modLaunch_arrivals (s : State) (n : Nat) (f : Launch → Launch) : (s.modLaunch n f).arrivals = s.arrivals := by unfold State.modLaunch; split <;> rfl
@[simp] theorem State.modLaunch_mailOut (s : State) (n : Nat) (f : Launch → Launch) : (s.modLaunch n f).mailOut = s.mailOut := by unfold State.modLaunch; split <;> rfl
@[simp] theorem State.modLaunch_host (s : State) (n : Nat) (f : Launch → Launch) : (s.modLaunch n f).host = s.host := by unfold State.modLaunch; split <;> rfl
@[simp] theorem State.modLaunch_image (s : State) (n : Nat) (f : Launch → Launch) : (s.modLaunch n f).image = s.image := by unfold State.modLaunch; split <;> rfl
@[simp] theorem State.modLaunch_mode (s : State) (n : Nat) (f : Launch → Launch) : (s.modLaunch n f).mode = s.mode := by unfold State.modLaunch; split <;> rfl
@[simp] theorem State.modLaunch_mgmt (s : State) (n : Nat) (f : Launch → Launch) : (s.modLaunch n f).mgmt = s.mgmt := by unfold State.modLaunch; split <;> rfl
@[simp] theorem State.modLaunch_cur (s : State) (n : Nat) (f : Launch → Launch) : (s.modLaunch n f).cur = s.cur := by unfold State.modLaunch; split <;> rfl
@[simp] theorem State.modLaunch_iword (s : State) (n : Nat) (f : Launch → Launch) : (s.modLaunch n f).iword = s.iword := by unfold State.modLaunch; split <;> rfl
@[simp] theorem State.modLaunch_freeN (s : State) (n : Nat) (f : Launch → Launch) : (s.modLaunch n f).freeN = s.freeN := by unfold State.modLaunch; split <;> rfl
@[simp] theorem State.modLaunch_agenda (s : State) (n : Nat) (f : Launch → Launch) : (s.modLaunch n f).agenda = s.agenda := by unfold State.modLaunch; split <;> rfl

/-! `State.count` -/

@[simp] theorem State.count_mem (s : State) (c event n : Nat) : (s.count c event n).mem = s.mem := by unfold State.count; split <;> rfl
@[simp] theorem State.count_full (s : State) (c event n : Nat) : (s.count c event n).full = s.full := by unfold State.count; split <;> rfl
@[simp] theorem State.count_poison (s : State) (c event n : Nat) : (s.count c event n).poison = s.poison := by unfold State.count; split <;> rfl
@[simp] theorem State.count_ctl (s : State) (c event n : Nat) : (s.count c event n).ctl = s.ctl := by unfold State.count; split <;> rfl
@[simp] theorem State.count_time (s : State) (c event n : Nat) : (s.count c event n).time = s.time := by unfold State.count; split <;> rfl
@[simp] theorem State.count_threads (s : State) (c event n : Nat) : (s.count c event n).threads = s.threads := by unfold State.count; split <;> rfl
@[simp] theorem State.count_nextTid (s : State) (c event n : Nat) : (s.count c event n).nextTid = s.nextTid := by unfold State.count; split <;> rfl
@[simp] theorem State.count_launches (s : State) (c event n : Nat) : (s.count c event n).launches = s.launches := by unfold State.count; split <;> rfl
@[simp] theorem State.count_nextLnum (s : State) (c event n : Nat) : (s.count c event n).nextLnum = s.nextLnum := by unfold State.count; split <;> rfl
@[simp] theorem State.count_completions (s : State) (c event n : Nat) : (s.count c event n).completions = s.completions := by unfold State.count; split <;> rfl
@[simp] theorem State.count_groveQ (s : State) (c event n : Nat) : (s.count c event n).groveQ = s.groveQ := by unfold State.count; split <;> rfl
@[simp] theorem State.count_dieQ (s : State) (c event n : Nat) : (s.count c event n).dieQ = s.dieQ := by unfold State.count; split <;> rfl
@[simp] theorem State.count_overflow (s : State) (c event n : Nat) : (s.count c event n).overflow = s.overflow := by unfold State.count; split <;> rfl
@[simp] theorem State.count_npSeen (s : State) (c event n : Nat) : (s.count c event n).npSeen = s.npSeen := by unfold State.count; split <;> rfl
@[simp] theorem State.count_lqtStart (s : State) (c event n : Nat) : (s.count c event n).lqtStart = s.lqtStart := by unfold State.count; split <;> rfl
@[simp] theorem State.count_overflowed (s : State) (c event n : Nat) : (s.count c event n).overflowed = s.overflowed := by unfold State.count; split <;> rfl
@[simp] theorem State.count_stale (s : State) (c event n : Nat) : (s.count c event n).stale = s.stale := by unfold State.count; split <;> rfl
@[simp] theorem State.count_dropped (s : State) (c event n : Nat) : (s.count c event n).dropped = s.dropped := by unfold State.count; split <;> rfl
@[simp] theorem State.count_roots (s : State) (c event n : Nat) : (s.count c event n).roots = s.roots := by unfold State.count; split <;> rfl
@[simp] theorem State.count_queued (s : State) (c event n : Nat) : (s.count c event n).queued = s.queued := by unfold State.count; split <;> rfl
@[simp] theorem State.count_barriers (s : State) (c event n : Nat) : (s.count c event n).barriers = s.barriers := by unfold State.count; split <;> rfl
@[simp] theorem State.count_accs (s : State) (c event n : Nat) : (s.count c event n).accs = s.accs := by unfold State.count; split <;> rfl
@[simp] theorem State.count_accN (s : State) (c event n : Nat) : (s.count c event n).accN = s.accN := by unfold State.count; split <;> rfl
@[simp] theorem State.count_waiters (s : State) (c event n : Nat) : (s.count c event n).waiters = s.waiters := by unfold State.count; split <;> rfl
@[simp] theorem State.count_tlbs (s : State) (c event n : Nat) : (s.count c event n).tlbs = s.tlbs := by unfold State.count; split <;> rfl
@[simp] theorem State.count_watch (s : State) (c event n : Nat) : (s.count c event n).watch = s.watch := by unfold State.count; split <;> rfl
@[simp] theorem State.count_hlc (s : State) (c event n : Nat) : (s.count c event n).hlc = s.hlc := by unfold State.count; split <;> rfl
@[simp] theorem State.count_canopy (s : State) (c event n : Nat) : (s.count c event n).canopy = s.canopy := by unfold State.count; split <;> rfl
@[simp] theorem State.count_replicas (s : State) (c event n : Nat) : (s.count c event n).replicas = s.replicas := by unfold State.count; split <;> rfl
@[simp] theorem State.count_mxu (s : State) (c event n : Nat) : (s.count c event n).mxu = s.mxu := by unfold State.count; split <;> rfl
@[simp] theorem State.count_dieTurns (s : State) (c event n : Nat) : (s.count c event n).dieTurns = s.dieTurns := by unfold State.count; split <;> rfl
@[simp] theorem State.count_links (s : State) (c event n : Nat) : (s.count c event n).links = s.links := by unfold State.count; split <;> rfl
@[simp] theorem State.count_boundaries (s : State) (c event n : Nat) : (s.count c event n).boundaries = s.boundaries := by unfold State.count; split <;> rfl
@[simp] theorem State.count_eseqOut (s : State) (c event n : Nat) : (s.count c event n).eseqOut = s.eseqOut := by unfold State.count; split <;> rfl
@[simp] theorem State.count_eseqIn (s : State) (c event n : Nat) : (s.count c event n).eseqIn = s.eseqIn := by unfold State.count; split <;> rfl
@[simp] theorem State.count_dieFlits (s : State) (c event n : Nat) : (s.count c event n).dieFlits = s.dieFlits := by unfold State.count; split <;> rfl
@[simp] theorem State.count_arrivals (s : State) (c event n : Nat) : (s.count c event n).arrivals = s.arrivals := by unfold State.count; split <;> rfl
@[simp] theorem State.count_mailOut (s : State) (c event n : Nat) : (s.count c event n).mailOut = s.mailOut := by unfold State.count; split <;> rfl
@[simp] theorem State.count_host (s : State) (c event n : Nat) : (s.count c event n).host = s.host := by unfold State.count; split <;> rfl
@[simp] theorem State.count_image (s : State) (c event n : Nat) : (s.count c event n).image = s.image := by unfold State.count; split <;> rfl
@[simp] theorem State.count_mode (s : State) (c event n : Nat) : (s.count c event n).mode = s.mode := by unfold State.count; split <;> rfl
@[simp] theorem State.count_mgmt (s : State) (c event n : Nat) : (s.count c event n).mgmt = s.mgmt := by unfold State.count; split <;> rfl
@[simp] theorem State.count_cur (s : State) (c event n : Nat) : (s.count c event n).cur = s.cur := by unfold State.count; split <;> rfl
@[simp] theorem State.count_iword (s : State) (c event n : Nat) : (s.count c event n).iword = s.iword := by unfold State.count; split <;> rfl
@[simp] theorem State.count_freeN (s : State) (c event n : Nat) : (s.count c event n).freeN = s.freeN := by unfold State.count; split <;> rfl
@[simp] theorem State.count_agenda (s : State) (c event n : Nat) : (s.count c event n).agenda = s.agenda := by unfold State.count; split <;> rfl

/-! `State.passAccounting` -/

@[simp] theorem State.passAccounting_mem (s : State) (tid : Nat) (ids : List Nat) : (s.passAccounting tid ids).mem = s.mem := rfl
@[simp] theorem State.passAccounting_full (s : State) (tid : Nat) (ids : List Nat) : (s.passAccounting tid ids).full = s.full := rfl
@[simp] theorem State.passAccounting_poison (s : State) (tid : Nat) (ids : List Nat) : (s.passAccounting tid ids).poison = s.poison := rfl
@[simp] theorem State.passAccounting_ctl (s : State) (tid : Nat) (ids : List Nat) : (s.passAccounting tid ids).ctl = s.ctl := rfl
@[simp] theorem State.passAccounting_time (s : State) (tid : Nat) (ids : List Nat) : (s.passAccounting tid ids).time = s.time := rfl
@[simp] theorem State.passAccounting_cores (s : State) (tid : Nat) (ids : List Nat) : (s.passAccounting tid ids).cores = s.cores := rfl
@[simp] theorem State.passAccounting_threads (s : State) (tid : Nat) (ids : List Nat) : (s.passAccounting tid ids).threads = s.threads := rfl
@[simp] theorem State.passAccounting_nextTid (s : State) (tid : Nat) (ids : List Nat) : (s.passAccounting tid ids).nextTid = s.nextTid := rfl
@[simp] theorem State.passAccounting_launches (s : State) (tid : Nat) (ids : List Nat) : (s.passAccounting tid ids).launches = s.launches := rfl
@[simp] theorem State.passAccounting_nextLnum (s : State) (tid : Nat) (ids : List Nat) : (s.passAccounting tid ids).nextLnum = s.nextLnum := rfl
@[simp] theorem State.passAccounting_completions (s : State) (tid : Nat) (ids : List Nat) : (s.passAccounting tid ids).completions = s.completions := rfl
@[simp] theorem State.passAccounting_groveQ (s : State) (tid : Nat) (ids : List Nat) : (s.passAccounting tid ids).groveQ = s.groveQ := rfl
@[simp] theorem State.passAccounting_dieQ (s : State) (tid : Nat) (ids : List Nat) : (s.passAccounting tid ids).dieQ = s.dieQ := rfl
@[simp] theorem State.passAccounting_overflow (s : State) (tid : Nat) (ids : List Nat) : (s.passAccounting tid ids).overflow = s.overflow := rfl
@[simp] theorem State.passAccounting_npSeen (s : State) (tid : Nat) (ids : List Nat) : (s.passAccounting tid ids).npSeen = s.npSeen := rfl
@[simp] theorem State.passAccounting_lqtStart (s : State) (tid : Nat) (ids : List Nat) : (s.passAccounting tid ids).lqtStart = s.lqtStart := rfl
@[simp] theorem State.passAccounting_overflowed (s : State) (tid : Nat) (ids : List Nat) : (s.passAccounting tid ids).overflowed = s.overflowed := rfl
@[simp] theorem State.passAccounting_stale (s : State) (tid : Nat) (ids : List Nat) : (s.passAccounting tid ids).stale = s.stale := rfl
@[simp] theorem State.passAccounting_dropped (s : State) (tid : Nat) (ids : List Nat) : (s.passAccounting tid ids).dropped = s.dropped := rfl
@[simp] theorem State.passAccounting_roots (s : State) (tid : Nat) (ids : List Nat) : (s.passAccounting tid ids).roots = s.roots := rfl
@[simp] theorem State.passAccounting_queued (s : State) (tid : Nat) (ids : List Nat) : (s.passAccounting tid ids).queued = s.queued := rfl
@[simp] theorem State.passAccounting_barriers (s : State) (tid : Nat) (ids : List Nat) : (s.passAccounting tid ids).barriers = s.barriers := rfl
@[simp] theorem State.passAccounting_accN (s : State) (tid : Nat) (ids : List Nat) : (s.passAccounting tid ids).accN = s.accN := rfl
@[simp] theorem State.passAccounting_waiters (s : State) (tid : Nat) (ids : List Nat) : (s.passAccounting tid ids).waiters = s.waiters := rfl
@[simp] theorem State.passAccounting_tlbs (s : State) (tid : Nat) (ids : List Nat) : (s.passAccounting tid ids).tlbs = s.tlbs := rfl
@[simp] theorem State.passAccounting_watch (s : State) (tid : Nat) (ids : List Nat) : (s.passAccounting tid ids).watch = s.watch := rfl
@[simp] theorem State.passAccounting_hlc (s : State) (tid : Nat) (ids : List Nat) : (s.passAccounting tid ids).hlc = s.hlc := rfl
@[simp] theorem State.passAccounting_canopy (s : State) (tid : Nat) (ids : List Nat) : (s.passAccounting tid ids).canopy = s.canopy := rfl
@[simp] theorem State.passAccounting_replicas (s : State) (tid : Nat) (ids : List Nat) : (s.passAccounting tid ids).replicas = s.replicas := rfl
@[simp] theorem State.passAccounting_mxu (s : State) (tid : Nat) (ids : List Nat) : (s.passAccounting tid ids).mxu = s.mxu := rfl
@[simp] theorem State.passAccounting_dieTurns (s : State) (tid : Nat) (ids : List Nat) : (s.passAccounting tid ids).dieTurns = s.dieTurns := rfl
@[simp] theorem State.passAccounting_links (s : State) (tid : Nat) (ids : List Nat) : (s.passAccounting tid ids).links = s.links := rfl
@[simp] theorem State.passAccounting_boundaries (s : State) (tid : Nat) (ids : List Nat) : (s.passAccounting tid ids).boundaries = s.boundaries := rfl
@[simp] theorem State.passAccounting_eseqOut (s : State) (tid : Nat) (ids : List Nat) : (s.passAccounting tid ids).eseqOut = s.eseqOut := rfl
@[simp] theorem State.passAccounting_eseqIn (s : State) (tid : Nat) (ids : List Nat) : (s.passAccounting tid ids).eseqIn = s.eseqIn := rfl
@[simp] theorem State.passAccounting_dieFlits (s : State) (tid : Nat) (ids : List Nat) : (s.passAccounting tid ids).dieFlits = s.dieFlits := rfl
@[simp] theorem State.passAccounting_arrivals (s : State) (tid : Nat) (ids : List Nat) : (s.passAccounting tid ids).arrivals = s.arrivals := rfl
@[simp] theorem State.passAccounting_mailOut (s : State) (tid : Nat) (ids : List Nat) : (s.passAccounting tid ids).mailOut = s.mailOut := rfl
@[simp] theorem State.passAccounting_host (s : State) (tid : Nat) (ids : List Nat) : (s.passAccounting tid ids).host = s.host := rfl
@[simp] theorem State.passAccounting_image (s : State) (tid : Nat) (ids : List Nat) : (s.passAccounting tid ids).image = s.image := rfl
@[simp] theorem State.passAccounting_mode (s : State) (tid : Nat) (ids : List Nat) : (s.passAccounting tid ids).mode = s.mode := rfl
@[simp] theorem State.passAccounting_mgmt (s : State) (tid : Nat) (ids : List Nat) : (s.passAccounting tid ids).mgmt = s.mgmt := rfl
@[simp] theorem State.passAccounting_cur (s : State) (tid : Nat) (ids : List Nat) : (s.passAccounting tid ids).cur = s.cur := rfl
@[simp] theorem State.passAccounting_iword (s : State) (tid : Nat) (ids : List Nat) : (s.passAccounting tid ids).iword = s.iword := rfl
@[simp] theorem State.passAccounting_freeN (s : State) (tid : Nat) (ids : List Nat) : (s.passAccounting tid ids).freeN = s.freeN := rfl
@[simp] theorem State.passAccounting_agenda (s : State) (tid : Nat) (ids : List Nat) : (s.passAccounting tid ids).agenda = s.agenda := rfl

/-! What the shared accessors read after an update. -/

@[simp] theorem State.setThread_threads (s : State) (tid : Nat) (t : Thread) :
    (s.setThread tid t).threads = put s.threads tid t := rfl
@[simp] theorem State.setCore_cores (s : State) (c : Nat) (k : Core) : (s.setCore c k).cores = put s.cores c k := rfl
@[simp] theorem State.setLaunch_launches (s : State) (n : Nat) (l : Launch) :
    (s.setLaunch n l).launches = put s.launches n l := rfl

/-- Reading a table at the number that was written. -/
@[simp] theorem look_put_self {α : Type} (l : Tab α) (k : Nat) (a : α) : look (put l k a) k = some a := by
  induction l with
  | nil => simp [put, look]
  | cons e r ih =>
    obtain ⟨j, b⟩ := e
    by_cases h : j = k <;> simp [put, look, h, ih]

/-- Reading a table at another number. -/
theorem look_put_of_ne {α : Type} (l : Tab α) {j k : Nat} (a : α) (h : j ≠ k) : look (put l k a) j = look l j := by
  induction l with
  | nil => simp [put, look, Ne.symm h]
  | cons e r ih =>
    obtain ⟨i, b⟩ := e
    by_cases hi : i = k
    · subst hi
      simp [put, look, Ne.symm h]
    · by_cases hj : i = j
      · subst hj
        simp [put, look, hi]
      · simp [put, look, hi, hj, ih]

@[simp] theorem State.thread_setThread_self (s : State) (tid : Nat) (t : Thread) : (s.setThread tid t).thread tid = some t :=
  look_put_self ..

theorem State.thread_setThread_of_ne (s : State) {n tid : Nat} (t : Thread) (h : n ≠ tid) :
    (s.setThread tid t).thread n = s.thread n := look_put_of_ne _ _ h

@[simp] theorem State.core_setCore_self (s : State) (c : Nat) (k : Core) : (s.setCore c k).core c = k := by
  simp [State.core]

theorem State.core_setCore_of_ne (s : State) {b c : Nat} (k : Core) (h : b ≠ c) : (s.setCore c k).core b = s.core b := by
  simp [State.core, look_put_of_ne _ _ h]

@[simp] theorem State.core_modCore_self (s : State) (c : Nat) (f : Core → Core) : (s.modCore c f).core c = f (s.core c) :=
  s.core_setCore_self c _

theorem State.core_modCore_of_ne (s : State) {b c : Nat} (f : Core → Core) (h : b ≠ c) : (s.modCore c f).core b = s.core b :=
  s.core_setCore_of_ne _ h

@[simp] theorem State.launchOf_setLaunch_self (s : State) (n : Nat) (l : Launch) : (s.setLaunch n l).launchOf n = some l :=
  look_put_self ..

theorem State.launchOf_setLaunch_of_ne (s : State) {m n : Nat} (l : Launch) (h : m ≠ n) :
    (s.setLaunch n l).launchOf m = s.launchOf m := look_put_of_ne _ _ h

@[simp] theorem State.thread_setCore (s : State) (c : Nat) (k : Core) (n : Nat) : (s.setCore c k).thread n = s.thread n := rfl
@[simp] theorem State.thread_modCore (s : State) (c : Nat) (f : Core → Core) (n : Nat) : (s.modCore c f).thread n = s.thread n := rfl
@[simp] theorem State.thread_setLaunch (s : State) (m : Nat) (l : Launch) (n : Nat) : (s.setLaunch m l).thread n = s.thread n := rfl
@[simp] theorem State.core_setThread (s : State) (tid : Nat) (t : Thread) (c : Nat) : (s.setThread tid t).core c = s.core c := rfl
@[simp] theorem State.core_setLaunch (s : State) (n : Nat) (l : Launch) (c : Nat) : (s.setLaunch n l).core c = s.core c := rfl
@[simp] theorem State.launchOf_setThread (s : State) (tid : Nat) (t : Thread) (n : Nat) :
    (s.setThread tid t).launchOf n = s.launchOf n := rfl
@[simp] theorem State.launchOf_setCore (s : State) (c : Nat) (k : Core) (n : Nat) : (s.setCore c k).launchOf n = s.launchOf n := rfl
@[simp] theorem State.launchOf_modCore (s : State) (c : Nat) (f : Core → Core) (n : Nat) :
    (s.modCore c f).launchOf n = s.launchOf n := rfl
@[simp] theorem State.thread_count (s : State) (c event n m : Nat) : (s.count c event n).thread m = s.thread m := by
  simp [State.thread]
@[simp] theorem State.launchOf_count (s : State) (c event n m : Nat) : (s.count c event n).launchOf m = s.launchOf m := by
  simp [State.launchOf]

/-- Counting changes the performance counters of one core and nothing else of any core (R102). -/
theorem State.core_count (s : State) (c event n b : Nat) :
    (s.count c event n).core b = { s.core b with pmc := ((s.count c event n).core b).pmc } := by
  unfold State.count
  split
  · by_cases h : b = c
    · subst h
      simp [Core.count]
    · simp [s.core_modCore_of_ne _ h]
  · rfl

/-- A thread that is there is changed by f. -/
theorem State.modThread_of_some {s : State} {tid : Nat} {t : Thread} (h : s.thread tid = some t) (f : Thread → Thread) :
    s.modThread tid f = s.setThread tid (f t) := by
  simp [State.modThread, h]

/-- A byte read by a state with the same memory and control page. -/
theorem State.rdByte_congr {s u : State} (hm : u.mem = s.mem) (hc : u.ctl = s.ctl) (k : Nat) : u.rdByte k = s.rdByte k := by
  unfold State.rdByte State.rdControl
  rw [hm, hc]

@[simp] theorem State.rdByte_setThread (s : State) (tid : Nat) (t : Thread) (k : Nat) : (s.setThread tid t).rdByte k = s.rdByte k := rfl
@[simp] theorem State.rdByte_modCore (s : State) (c : Nat) (f : Core → Core) (k : Nat) : (s.modCore c f).rdByte k = s.rdByte k := rfl
@[simp] theorem State.rdByte_setLaunch (s : State) (n : Nat) (l : Launch) (k : Nat) : (s.setLaunch n l).rdByte k = s.rdByte k := rfl
@[simp] theorem State.rdByte_count (s : State) (c event n k : Nat) : (s.count c event n).rdByte k = s.rdByte k :=
  State.rdByte_congr (by simp) (by simp) k
@[simp] theorem State.rdByte_modThread (s : State) (tid : Nat) (f : Thread → Thread) (k : Nat) :
    (s.modThread tid f).rdByte k = s.rdByte k := State.rdByte_congr (by simp) (by simp) k

end Sys2Proof.Machine
end

