-- ==== Sys2Proof/Laws/Memory.lean ====
section
/-! SUPPORT. The memory keeps its canonical form under every write, and reads what was written. -/
namespace Sys2Proof.Machine

theorem Memory.above_mono {lo lo' : Nat} {m : List Host.Cell} (h : lo' ≤ lo) (hm : Memory.above lo m = true) :
    Memory.above lo' m = true := by
  cases m with
  | nil => rfl
  | cons e r =>
    obtain ⟨a, b⟩ := e
    simp only [Memory.above, Bool.and_eq_true, decide_eq_true_eq] at hm ⊢
    exact ⟨⟨by omega, hm.1.2⟩, hm.2⟩

/-- A list above an address does not list it. -/
theorem Memory.read_above {lo k : Nat} {m : List Host.Cell} (hm : Memory.above lo m = true) (h : k ≤ lo) :
    Memory.read m k = 0 := by
  induction m generalizing lo with
  | nil => rfl
  | cons e r ih =>
    obtain ⟨a, b⟩ := e
    simp only [Memory.above, Bool.and_eq_true, decide_eq_true_eq] at hm
    have hk : ¬ a = k := by omega
    simp only [Memory.read, hk, if_false]
    exact ih hm.2 (by omega)

theorem Memory.write_above {lo k : Nat} {m : List Host.Cell} (b : Byte) (hm : Memory.above lo m = true) (h : lo < k) :
    Memory.above lo (Memory.write m k b) = true := by
  induction m generalizing lo with
  | nil =>
    by_cases hb : b = 0#8 <;> simp [Memory.write, Memory.above, hb, h]
  | cons e r ih =>
    obtain ⟨a, c⟩ := e
    simp only [Memory.above, Bool.and_eq_true, decide_eq_true_eq] at hm
    unfold Memory.write
    split
    · rename_i hak
      simp only [Memory.above, Bool.and_eq_true, decide_eq_true_eq]
      exact ⟨hm.1, ih hm.2 hak⟩
    · split
      · rename_i hak
        subst hak
        split
        · exact Memory.above_mono (by omega) hm.2
        · rename_i hb
          simp only [Memory.above, Bool.and_eq_true, decide_eq_true_eq]
          exact ⟨⟨h, hb⟩, hm.2⟩
      · split
        · simp only [Memory.above, Bool.and_eq_true, decide_eq_true_eq]
          exact hm
        · rename_i h1 h2 hb
          simp only [Memory.above, Bool.and_eq_true, decide_eq_true_eq]
          exact ⟨⟨h, hb⟩, ⟨by omega, hm.1.2⟩, hm.2⟩

/-- Writing a byte keeps the canonical form. -/
theorem Memory.write_wf {m : List Host.Cell} (k : Nat) (b : Byte) (hm : Memory.wf m = true) :
    Memory.wf (Memory.write m k b) = true := by
  cases m with
  | nil => by_cases hb : b = 0#8 <;> simp [Memory.write, Memory.wf, Memory.above, hb]
  | cons e r =>
    obtain ⟨a, c⟩ := e
    simp only [Memory.wf, Bool.and_eq_true, decide_eq_true_eq] at hm
    unfold Memory.write
    split
    · rename_i hak
      simp only [Memory.wf, Bool.and_eq_true, decide_eq_true_eq]
      exact ⟨hm.1, Memory.write_above b hm.2 hak⟩
    · split
      · rename_i hak
        subst hak
        split
        · cases r with
          | nil => rfl
          | cons e' r' =>
            obtain ⟨a', c'⟩ := e'
            simp only [Memory.above, Memory.wf, Bool.and_eq_true, decide_eq_true_eq] at hm ⊢
            exact ⟨hm.2.1.2, hm.2.2⟩
        · rename_i hb
          simp only [Memory.wf, Bool.and_eq_true, decide_eq_true_eq]
          exact ⟨hb, hm.2⟩
      · split
        · simp only [Memory.wf, Bool.and_eq_true, decide_eq_true_eq]
          exact hm
        · rename_i h1 h2 hb
          simp only [Memory.wf, Memory.above, Bool.and_eq_true, decide_eq_true_eq]
          exact ⟨hb, ⟨by omega, hm.1⟩, hm.2⟩

theorem Memory.read_write_self_above {lo k : Nat} {m : List Host.Cell} (b : Byte) (hm : Memory.above lo m = true) :
    Memory.read (Memory.write m k b) k = b := by
  induction m generalizing lo with
  | nil => by_cases hb : b = 0#8 <;> simp [Memory.write, Memory.read, hb]
  | cons e r ih =>
    obtain ⟨a, c⟩ := e
    simp only [Memory.above, Bool.and_eq_true, decide_eq_true_eq] at hm
    unfold Memory.write
    split
    · rename_i hak
      have h : ¬ a = k := by omega
      simp only [Memory.read, h, if_false]
      exact ih hm.2
    · split
      · rename_i hak
        subst hak
        split
        · rename_i hb
          rw [Memory.read_above hm.2 (le_refl _), hb]
        · simp [Memory.read]
      · rename_i h1 h2
        split
        · rename_i hb
          simp only [Memory.read, h2, if_false]
          rw [Memory.read_above hm.2 (by omega), hb]
        · simp [Memory.read]

/-- A byte reads as it was written, in a memory in canonical form. -/
theorem Memory.read_write_self {m : List Host.Cell} (k : Nat) (b : Byte) (hm : Memory.wf m = true) :
    Memory.read (Memory.write m k b) k = b := by
  cases m with
  | nil => by_cases hb : b = 0#8 <;> simp [Memory.write, Memory.read, hb]
  | cons e r =>
    obtain ⟨a, c⟩ := e
    simp only [Memory.wf, Bool.and_eq_true, decide_eq_true_eq] at hm
    unfold Memory.write
    split
    · rename_i hak
      have h : ¬ a = k := by omega
      simp only [Memory.read, h, if_false]
      exact Memory.read_write_self_above b hm.2
    · split
      · rename_i hak
        subst hak
        split
        · rename_i hb
          rw [Memory.read_above hm.2 (le_refl _), hb]
        · simp [Memory.read]
      · rename_i h1 h2
        split
        · rename_i hb
          simp only [Memory.read, h2, if_false]
          rw [Memory.read_above hm.2 (by omega), hb]
        · simp [Memory.read]

/-- Every other byte reads as before. -/
theorem Memory.read_write_of_ne (m : List Host.Cell) {j k : Nat} (b : Byte) (h : j ≠ k) :
    Memory.read (Memory.write m k b) j = Memory.read m j := by
  induction m with
  | nil =>
    have h' : ¬ k = j := Ne.symm h
    by_cases hb : b = 0#8 <;> simp [Memory.write, Memory.read, hb, h']
  | cons e r ih =>
    obtain ⟨a, c⟩ := e
    have h' : ¬ k = j := Ne.symm h
    unfold Memory.write
    split
    · simp only [Memory.read, ih]
    · split
      · rename_i hak
        subst hak
        split
        · simp only [Memory.read, h', if_false]
        · simp only [Memory.read, h', if_false]
      · split
        · rfl
        · simp only [Memory.read, h', if_false]

@[simp] theorem State.wrControl_mem (s : State) (o : Nat) (b : Byte) : (s.wrControl o b).mem = s.mem := by
  unfold State.wrControl
  split <;> rfl

/-- The memory of the state after a byte is written keeps its form. -/
theorem State.wrByte_wf {s : State} (k : Nat) (b : Byte) (h : Memory.wf s.mem = true) : Memory.wf (s.wrByte k b).mem = true := by
  unfold State.wrByte
  split
  · rw [State.wrControl_mem]
    exact h
  · exact Memory.write_wf k b h

theorem State.wrBytes_wf {s : State} (k : Nat) (bs : List Byte) (h : Memory.wf s.mem = true) :
    Memory.wf (s.wrBytes k bs).mem = true := by
  induction bs generalizing s k with
  | nil => exact h
  | cons b r ih => exact ih (k + 1) (State.wrByte_wf k b h)

theorem State.wrWord_wf {s : State} (k : Nat) (x : Word) (h : Memory.wf s.mem = true) : Memory.wf (s.wrWord k x).mem = true :=
  State.wrBytes_wf k _ h

/-- The reset memory has the form. -/
theorem State.reset_wf : Memory.wf State.reset.mem = true := rfl

/-- A write outside the control page is one of memory. -/
theorem State.wrByte_mem (s : State) {k : Nat} (b : Byte) (hk : inControl k = false) :
    s.wrByte k b = { s with mem := Memory.write s.mem k b } :=
  if_neg (ne_of_eq_of_ne hk Bool.false_ne_true)

/-- A byte of memory outside the control page reads as it was written. -/
theorem State.rdByte_wrByte_self {s : State} {k : Nat} (b : Byte) (h : Memory.wf s.mem = true) (hk : inControl k = false) :
    (s.wrByte k b).rdByte k = b := by
  rw [s.wrByte_mem b hk]
  exact (if_neg (ne_of_eq_of_ne hk Bool.false_ne_true)).trans (Memory.read_write_self k b h)

/-- Writing a byte of memory leaves every other byte as it was. -/
theorem State.rdByte_wrByte_of_ne (s : State) {j k : Nat} (b : Byte) (h : j ≠ k) (hk : inControl k = false) :
    (s.wrByte k b).rdByte j = s.rdByte j := by
  rw [s.wrByte_mem b hk]
  unfold State.rdByte
  split
  · rfl
  · exact Memory.read_write_of_ne s.mem b h

end Sys2Proof.Machine
end

