-- ==== Sys2Proof/Safety.lean ====
section
/-! DEFINITION. The terms in which claims are stated: a safe run, the form of the memory, an instruction that names
registers only, what its fields read and write, and what an instruction leaves alone. -/
namespace Sys2Proof

/-- The machine makes k steps from s without a fault or a refusal. -/
def Safe (k : Nat) (s : Machine.State) : Prop := ∃ t : Machine.State, Host.Core.run core k s = .next t

namespace Machine

/-- The form of the state that every operation on memory keeps: addresses rise, and no entry reads as an unlisted one. -/
def State.MemWf (s : State) : Prop := Memory.wf s.mem = true

/-- The value that a scalar field naming a register reads (R87): a window register, zr, tid or pw. -/
def Thread.reads (t : Thread) (f : Nat) : Word :=
  if f ≤ 111 then t.xr f else if f = 125 then t.tidWord else if f = 126 then t.pw else 0

/-- The thread after a result is written through a field naming a register (R87, R93, R129): a window register with its
taint, or pw; any other register discards it. -/
def Thread.writes (t : Thread) (f : Nat) (x : Word) (taint : Bool) : Thread :=
  if f ≤ 111 then t.setX f x taint else if f = 126 then { t with pw := x } else t

/-- The registers that an instruction names are in the thread's window and have no result outstanding (R23, R33, R91). -/
structure Use.InWindow (u : Use) (t : Thread) : Prop where
  scalars : ∀ f ∈ u.fields ++ u.regs, (f < t.slen ∧ f ≤ 111) ∨ 124 ≤ f
  upto : u.upto ≤ t.slen
  vectors : ∀ v ∈ u.vregs, v < t.vlen
  returned : ∀ d ∈ t.outs, (d.dest ≤ 111 → ¬ d.dest ∈ u.fields ++ u.regs ∧ u.upto ≤ d.dest) ∧
    ∀ v ∈ u.vregs, d.dest ≠ 128 + v

/-- The issuing thread may execute the instruction (R107): kind, mode and role; no packet is open that it may not come
in (R131, R244). -/
structure Use.Allowed (u : Use) (t : Thread) : Prop where
  kind : u.mtOnly = true → t.kind = .mt
  mode : u.system = true → t.user = false
  float : u.role = .float → t.role ≠ .access
  address : u.role = .address → t.role ≠ .execute
  packet : u.packet = true ∨ t.packet = none

/-- Thread t, not EXITED, issues an instruction that names no channel head and no stream register, and none of R107's
traps applies. -/
structure Plain (s : State) (t : Thread) (u : Use) : Prop where
  here : s.thread s.cur = some t
  alive : t.state ≠ .exited
  window : u.InWindow t
  allowed : u.Allowed t
  heads : u.heads = []

/-- Nothing that the instruction must follow is outstanding (R200, R210, R211). -/
def Unordered (s : State) (t : Thread) (u : Use) : Prop := s.stillPending (s.before s.cur u t) = []

/-- Thread t, not EXITED, issues an instruction, of any operand form: none of R107's traps applies, nothing that it must
follow is outstanding, nothing is held in reserve for it, every source and the room for every result are there (R90), and xs
are the values read; s' is the state once they have been dequeued. -/
structure Ready (s : State) (t : Thread) (u : Use) (xs : List Word) (s' : State) : Prop where
  here : s.thread s.cur = some t
  alive : t.state ≠ .exited
  checks : s.checks t u = none
  settled : u.restarts t = false
  ordered : Unordered s t u
  free : s.unheld s.cur u = s
  values : s.sources s.cur t u = some (xs, s')

/-- Every state component but the threads, the cores and the counter of free values is as it was; every byte reads as it
did, every other thread is as it was, and of each core at most the performance counters differ (R102). -/
structure Still (s u : State) : Prop where
  rest : { u with threads := s.threads, cores := s.cores, freeN := s.freeN } = s
  bytes : ∀ k, u.rdByte k = s.rdByte k
  others : ∀ n, n ≠ s.cur → u.thread n = s.thread n
  cores : ∀ c, u.core c = { s.core c with pmc := (u.core c).pmc }

/-- The issuing thread once an instruction without the marker has taken effect (R30, R148): past the instruction, or at
its target, READY. -/
def Thread.after (t : Thread) (target : Option Word) : Thread :=
  { t.advance target with state := .ready, wait := none, hold := [], marked := false }

end Machine
end Sys2Proof
end

