-- ==== Sys2Proof/Laws/Issue.lean ====
section
/-! SUPPORT. What the issue of an instruction that names registers only does (R90, R107), and its retirement (R32). -/
namespace Sys2Proof.Machine

/-- Writing the entry that stands at a number changes nothing. -/
theorem put_look {α : Type} {l : Tab α} {k : Nat} {a : α} (h : look l k = some a) : put l k a = l := by
  induction l with
  | nil => simp [look] at h
  | cons e r ih =>
    obtain ⟨j, b⟩ := e
    by_cases hj : j = k
    · simp only [look, hj, if_true, Option.some.injEq] at h
      simp [put, hj, h]
    · simp only [look, hj, if_false] at h
      simp [put, hj, ih h]

theorem State.setThread_same {s : State} {tid : Nat} {t : Thread} (h : s.thread tid = some t) : s.setThread tid t = s := by
  have : put s.threads tid t = s.threads := put_look h
  simp [State.setThread, this]

theorem dedup_nil_of {l : List Nat} (h : l = []) : dedup l = [] := by
  subst h
  rfl

variable {s : State} {t : Thread} {u : Use}

theorem isHead_plain {f : Nat} (h : (f < t.slen ∧ f ≤ 111) ∨ 124 ≤ f) : isHead f = false := by
  simp only [isHead, decide_eq_false_iff_not]
  omega

theorem isStream_plain {f : Nat} (h : (f < t.slen ∧ f ≤ 111) ∨ 124 ≤ f) : isStream f = false := by
  simp only [isStream, decide_eq_false_iff_not]
  omega

theorem Use.InWindow.badRegs (h : u.InWindow t) : u.badRegs t = [] := by
  have h1 : u.vregs.filter (fun v => decide (v ≥ t.vlen)) = [] := by
    rw [List.filter_eq_nil_iff]
    intro v hv
    have := h.vectors v hv
    simp
    omega
  have h2 : (u.fields ++ u.regs ++ (if u.upto > t.slen then [t.slen] else [])).filter
      (fun f => decide (f ≤ 111 ∧ f ≥ t.slen)) = [] := by
    rw [List.filter_eq_nil_iff]
    intro f hf
    have hu := h.upto
    rw [if_neg (by omega), List.append_nil] at hf
    have := h.scalars f hf
    simp
    omega
  unfold Use.badRegs
  rw [h1, h2]
  rfl

theorem Use.InWindow.fields (h : u.InWindow t) {f : Nat} (hf : f ∈ u.fields) : (f < t.slen ∧ f ≤ 111) ∨ 124 ≤ f :=
  h.scalars f (List.mem_append_left _ hf)

theorem Use.InWindow.unbound (h : u.InWindow t) (hh : u.heads = []) : u.unbound t = [] := by
  unfold Use.unbound
  rw [hh]
  apply dedup_nil_of
  rw [List.filter_eq_nil_iff]
  intro f hf
  have hf' := h.fields (by simpa using hf)
  simp [isHead_plain hf', isStream_plain hf']

theorem Use.InWindow.pendingRegs (h : u.InWindow t) : u.pendingRegs t = [] := by
  unfold Use.pendingRegs
  apply dedup_nil_of
  rw [List.filter_eq_nil_iff]
  intro f hf
  simp only [List.any_eq_true, not_exists, not_and, decide_eq_true_eq]
  intro d hd he
  have hr := h.returned d hd
  rw [List.mem_append] at hf
  rcases hf with hf | hf
  · rw [List.mem_filter] at hf
    have hle : d.dest ≤ 111 := by
      have := hf.2
      simp at this
      omega
    have hr' := hr.1 hle
    rw [he] at hr'
    rcases List.mem_append.mp hf.1 with hm | hm
    · exact hr'.1 hm
    · have := List.mem_range.mp hm
      omega
  · obtain ⟨v, hv, rfl⟩ := List.mem_map.mp hf
    exact hr.2 v hv he

theorem Use.InWindow.wrongWay (h : u.InWindow t) : u.wrongWay t = [] := by
  unfold Use.wrongWay
  apply dedup_nil_of
  rw [List.append_eq_nil_iff]
  constructor <;>
  · rw [List.filter_eq_nil_iff]
    intro f hf
    have hf' := h.fields (f := f) (by simp [Use.fields, hf])
    simp [isHead_plain hf']

/-- None of the traps of R107 applies to a plain instruction. -/
theorem Plain.checks (h : Plain s t u) : s.checks t u = none := by
  have hany : u.fields.any (fun f => isHead f || isStream f) = false := by
    rw [List.any_eq_false]
    intro f hf
    have hf' := h.window.fields hf
    simp [isHead_plain hf', isStream_plain hf']
  have hstage : u.srcs.any (fun f => isHead f && headKind (t.headOf (f - 112)) == 5) = false := by
    rw [List.any_eq_false]
    intro f hf
    have hf' := h.window.fields (f := f) (by simp [Use.fields, hf])
    simp [isHead_plain hf']
  have h1 : ¬ (u.mtOnly && decide (t.kind ≠ Kind.mt)) = true := by
    have := h.allowed.kind
    cases hm : u.mtOnly <;> simp_all
  have h2 : ¬ (u.system && t.user) = true := by
    have := h.allowed.mode
    cases hm : u.system <;> simp_all
  have h3 : ¬ ((u.role = .float ∧ t.role = .access) ∨ (u.role = .address ∧ t.role = .execute)) := by
    rintro (⟨a, b⟩ | ⟨a, b⟩)
    · exact h.allowed.float a b
    · exact h.allowed.address a b
  have h4 : ¬ (t.packet.isSome && decide (u.packetHead ≠ t.packet.map (fun p => p.head)) &&
      (! u.packet || u.fields.any (fun f => isHead f || isStream f))) = true := by
    rw [hany]
    rcases h.allowed.packet with hp | hp <;> simp [hp]
  unfold State.checks
  simp only [h.window.badRegs, h.window.unbound h.heads, h.window.pendingRegs, h.window.wrongWay]
  rw [if_neg h1, if_neg h2, if_neg h3, if_neg (by simp), if_neg (by simp), if_neg (by simp), if_neg h4, if_neg (by simp),
    if_neg (by simp [hstage])]

theorem Plain.restarts (h : Plain s t u) : u.restarts t = false := by
  have hstage : u.srcs.any (fun f => isHead f && headKind (t.headOf (f - 112)) == 5) = false := by
    rw [List.any_eq_false]
    intro f hf
    have hf' := h.window.fields (f := f) (by simp [Use.fields, hf])
    simp [isHead_plain hf']
  simp [Use.restarts, hstage]

/-- A plain instruction names no channel head among its destinations. -/
theorem Plain.dstPlain (h : Plain s t u) {f : Nat} (hf : f ∈ u.dsts) : isHead f = false :=
  isHead_plain (h.window.fields (f := f) (by simp [Use.fields, hf]))

theorem Plain.headNeeds (h : Plain s t u) : t.headNeeds u.dsts = [] := by
  unfold Thread.headNeeds
  rw [List.filterMap_eq_nil_iff]
  intro f hf
  simp [h.dstPlain hf]

theorem State.available_nil (s : State) : s.available [] = true := rfl

theorem Plain.named (h : Plain s t u) : u.named = false := by
  have hany : u.fields.any isHead = false := by
    rw [List.any_eq_false]
    intro f hf
    simp [isHead_plain (h.window.fields hf)]
  simp [Use.named, hany, h.heads]

/-- Nothing is in reserve for a plain instruction. -/
theorem Plain.unheld (h : Plain s t u) : s.unheld s.cur u = s := by simp [State.unheld, h.named]

theorem Plain.outputsReady (h : Plain s t u) (v : State) (tid : Nat) : v.outputsReady tid u.dsts = true := by
  unfold State.outputsReady
  cases v.thread tid with
  | none => rfl
  | some w =>
    simp only [List.all_eq_true]
    intro f hf
    simp [h.dstPlain hf]

/-- A field that names a register reads it, and nothing is dequeued (R87). -/
theorem State.readField_plain {tid f : Nat} (h : s.thread tid = some t) (hf : (f < t.slen ∧ f ≤ 111) ∨ 124 ≤ f) :
    s.readField tid f = some (t.reads f, s) := by
  unfold State.readField Thread.reads
  simp only [h]
  by_cases h1 : f ≤ 111
  · simp [h1]
  · have h2 : ¬ f ≤ 119 := by omega
    have h3 : ¬ f ≤ 123 := by omega
    simp only [h1, h2, h3, if_false]
    by_cases h4 : f = 125
    · simp [h4]
    · by_cases h5 : f = 126 <;> simp [h4, h5]

theorem State.readFields_plain {tid : Nat} (h : s.thread tid = some t) {l : List Nat}
    (hf : ∀ f ∈ l, (f < t.slen ∧ f ≤ 111) ∨ 124 ≤ f) : s.readFields tid l = some (l.map t.reads, s) := by
  induction l with
  | nil => rfl
  | cons f r ih =>
    simp only [State.readFields, State.readField_plain h (hf f (by simp)), ih (fun g hg => hf g (by simp [hg])), List.map_cons]

/-- The sources of a plain instruction are there (R90): its values, and nothing is dequeued. -/
theorem Plain.sources (h : Plain s t u) : s.sources s.cur t u = some (u.srcs.map t.reads, s) := by
  have hsrc : ∀ f ∈ u.srcs, (f < t.slen ∧ f ≤ 111) ∨ 124 ≤ f := fun f hf =>
    h.window.fields (f := f) (by simp [Use.fields, hf])
  simp [State.sources, h.headNeeds, State.available_nil, State.readFields_plain h.here hsrc, h.outputsReady]

/-- An instruction without an acquire, a release and a head follows nothing. -/
theorem Plain.unordered (h : Plain s t u) (ha : u.acq = false) (hr : u.rel = none) : Unordered s t u := by
  have hsrc : u.srcs.any (fun f => isHead f || isStream f) = false := by
    rw [List.any_eq_false]
    intro f hf
    have hf' := h.window.fields (f := f) (by simp [Use.fields, hf])
    simp [isHead_plain hf', isStream_plain hf']
  have hids : u.srcs.flatMap (s.streamIds s.cur t) = [] := by
    rw [List.flatMap_eq_nil_iff]
    intro f hf
    have hf' := h.window.fields (f := f) (by simp [Use.fields, hf])
    simp [State.streamIds, isStream_plain hf']
  unfold Unordered State.before
  simp [hsrc, ha, hr, hids, State.stillPending]

/-- The issue of an instruction that is ready (R90): its body runs on the values read. -/
theorem issue_ready {m : BitVec 1} {body : State → Nat → Thread → List Word → Act} {xs : List Word} {s' : State}
    (h : Ready s t u xs s') : issue m u body s = .next (s.finish s.cur t u (decide (m = 1)) (body s' s.cur t xs)) := by
  have ho : s.stillPending (s.before s.cur u t) = [] := h.ordered
  unfold issue issueNow
  simp only [h.free, h.here, if_neg h.alive, h.checks, h.settled, h.values]
  simp [ho]

/-- A plain instruction is ready, and nothing is dequeued. -/
theorem Plain.ready (h : Plain s t u) (ho : Unordered s t u) : Ready s t u (u.srcs.map t.reads) s :=
  ⟨h.here, h.alive, h.checks, h.restarts, ho, h.unheld, h.sources⟩

/-- The issue of a plain instruction (R90): its body runs on the values of its fields. -/
theorem issue_plain {m : BitVec 1} {body : State → Nat → Thread → List Word → Act} (h : Plain s t u)
    (ho : Unordered s t u) :
    issue m u body s = .next (s.finish s.cur t u (decide (m = 1)) (body s s.cur t (u.srcs.map t.reads))) :=
  issue_ready (h.ready ho)

/-- A write through a field that names a register (R129). -/
theorem State.writeField_plain {v : State} {tid f : Nat} {t' : Thread} (h : v.thread tid = some t')
    (hf : f ≤ 111 ∨ 124 ≤ f) (x : Word) (taint : Bool) : v.writeField tid f x taint = v.setThread tid (t'.writes f x taint) := by
  unfold State.writeField Thread.writes
  by_cases h1 : f ≤ 111
  · simp [h1, State.modThread_of_some h]
  · have h2 : ¬ f ≤ 119 := by omega
    simp only [h1, h2, if_false]
    by_cases h3 : f = 126
    · simp [h3, State.modThread_of_some h]
    · simp [h3, State.setThread_same h]

/-- A write through a field that names no head meets nothing (R240). -/
theorem State.meetPuts_plain {v : State} {tid f : Nat} {t' : Thread} (hv : v.thread tid = some t') (hh : isHead f = false)
    (x : Word) : v.meetPuts tid [(f, x)] = none := by
  simp [State.meetPuts, State.outputTrap, State.lacksRoom, hv, hh]

/-- The end of an instruction whose destination names a register: the value is written, and it retires. -/
theorem State.finish_value {v : State} {tid f : Nat} {t' : Thread} {mk : Bool} {x : Word} (hd : u.dst = some f)
    (hf : f ≤ 111 ∨ 124 ≤ f) (hv : v.thread tid = some t') :
    s.finish tid t u mk (.value x v) = (v.setThread tid (t'.writes f x (u.taint t))).retire tid mk none := by
  have hh : isHead f = false := by
    simp only [isHead, decide_eq_false_iff_not]
    omega
  have hr : t'.headRelease f = none := by
    unfold Thread.headRelease
    rw [if_pos (by omega)]
  simp [State.finish, hd, State.meetPuts_plain hv hh, State.giveDsts, State.enqueueIds, hv, hr, State.writeField_plain hv hf]

theorem State.finish_clean {v : State} {tid f : Nat} {t' : Thread} {mk : Bool} {x : Word} (hd : u.dst = some f)
    (hf : f ≤ 111 ∨ 124 ≤ f) (hv : v.thread tid = some t') :
    s.finish tid t u mk (.clean x v) = (v.setThread tid (t'.writes f x false)).retire tid mk none := by
  have hh : isHead f = false := by
    simp only [isHead, decide_eq_false_iff_not]
    omega
  have hr : t'.headRelease f = none := by
    unfold Thread.headRelease
    rw [if_pos (by omega)]
  simp [State.finish, hd, State.meetPuts_plain hv hh, State.giveDsts, State.enqueueIds, hv, hr, State.writeField_plain hv hf]

theorem State.finish_link {v : State} {tid f : Nat} {t' : Thread} {mk : Bool} {x a : Word} (hd : u.dst = some f)
    (hf : f ≤ 111 ∨ 124 ≤ f) (hv : v.thread tid = some t') :
    s.finish tid t u mk (.link x a v) = (v.setThread tid (t'.writes f x false)).retire tid mk (some a) := by
  have hh : isHead f = false := by
    simp only [isHead, decide_eq_false_iff_not]
    omega
  have hr : t'.headRelease f = none := by
    unfold Thread.headRelease
    rw [if_pos (by omega)]
  simp [State.finish, hd, State.meetPuts_plain hv hh, State.giveDsts, State.enqueueIds, hv, hr, State.writeField_plain hv hf]

@[simp] theorem State.finish_done (v : State) (tid : Nat) (mk : Bool) :
    s.finish tid t u mk (.done v) = v.retire tid mk none := rfl

@[simp] theorem State.finish_jump (v : State) (a : Word) (tid : Nat) (mk : Bool) :
    s.finish tid t u mk (.jump a v) = v.retire tid mk (some a) := rfl

@[simp] theorem State.finish_left (v : State) (tid : Nat) (mk : Bool) : s.finish tid t u mk (.left v) = v := rfl

/-- The destination of a plain instruction is a register. -/
theorem Plain.dst {f : Nat} (h : Plain s t u) (hd : u.dst = some f) : f ≤ 111 ∨ 124 ≤ f := by
  have := h.window.fields (f := f) (by simp [Use.fields, Use.dsts, hd])
  omega

/-- Retirement without the marker (R30, R102). -/
theorem State.retire_unmarked {tid : Nat} (h : s.thread tid = some t) (target : Option Word) :
    s.retire tid false target = { s.setThread tid (t.after target) with freeN := s.freeN + 1 }.count t.core 2 1 := by
  have hc : (t.advance target).core = t.core := by
    unfold Thread.advance
    split
    · rfl
    · split
      · rfl
      · simp only []
        split
        · rfl
        · split <;> rfl
  simp [State.retire, h, Thread.after, hc]

/-- Retirement without the marker of the issuing thread leaves everything else alone. -/
theorem State.retire_still {t' : Thread} (target : Option Word) :
    Still s ((s.setThread s.cur t').retire s.cur false target) := by
  rw [State.retire_unmarked (State.thread_setThread_self ..)]
  constructor
  · unfold State.count
    split <;> rfl
  · intro k
    exact State.rdByte_congr (by simp) (by simp) k
  · intro n hn
    simp only [State.thread_count]
    show look (put (put s.threads s.cur t') s.cur _) n = look s.threads n
    rw [look_put_of_ne _ _ hn, look_put_of_ne _ _ hn]
  · intro c
    rw [State.core_count]
    rfl

end Sys2Proof.Machine
end

