-- ==== Sys2Proof/Laws/Vector.lean ====
section
/-! SUPPORT. What the lane loop of R161 leaves in each lane, and the flags that it raises. -/
namespace Sys2Proof.Machine

/-- Digits in base 2^w put together, and one of them taken out. -/
theorem digits_get (w : Nat) (l : List Nat) (i : Nat) :
    l.foldr (fun x acc => x % 2 ^ w + 2 ^ w * acc) 0 / 2 ^ (w * i) % 2 ^ w = nth l i 0 % 2 ^ w := by
  induction l generalizing i with
  | nil => simp [nth]
  | cons x r ih =>
    have hp : 0 < 2 ^ w := Nat.two_pow_pos w
    cases i with
    | zero => simp [nth, Nat.add_mul_mod_self_left]
    | succ k =>
      have h1 : 2 ^ (w * (k + 1)) = 2 ^ w * 2 ^ (w * k) := by rw [Nat.mul_succ, Nat.pow_add, Nat.mul_comm]
      rw [List.foldr_cons, h1, ← Nat.div_div_eq_div_mul, Nat.add_mul_div_left _ _ hp, Nat.mod_div_self, Nat.zero_add, ih]
      rfl

theorem getLane_packLanes {w : Nat} {l : List Nat} {i : Nat} (hw : w * (i + 1) ≤ 512) :
    getLane w i (packLanes w l) = nth l i 0 % 2 ^ w := by
  unfold getLane packLanes
  rw [BitVec.toNat_ofNat, ← digits_get w l i]
  obtain ⟨e, he⟩ := Nat.exists_eq_add_of_le hw
  have h2 : 2 ^ 512 = 2 ^ (w * i) * (2 ^ w * 2 ^ e) := by
    rw [show (512 : Nat) = w * (i + 1) + e from he, Nat.mul_succ, Nat.pow_add, Nat.pow_add, Nat.mul_assoc]
  rw [h2, Nat.mod_mul_right_div_self, Nat.mod_mul_right_mod]

theorem getLane_lt (w i : Nat) (v : Vec) : getLane w i v < 2 ^ w := Nat.mod_lt _ (Nat.two_pow_pos w)

/-- Lane i of the loop: what was computed, or what stood there. -/
theorem overLanes_lane {w i : Nat} (c : Vec) (en : Nat → Bool) (f : Nat → Nat × Flags) (hi : i < 512 / w) :
    getLane w i (overLanes w c en f).1 = if en i then (f i).1 % 2 ^ w else getLane w i c := by
  have hb : w * (i + 1) ≤ 512 := by
    have h1 : (i + 1) * w ≤ 512 / w * w := Nat.mul_le_mul_right w hi
    have h2 := Nat.div_mul_le_self 512 w
    rw [Nat.mul_comm]
    omega
  unfold overLanes
  simp only []
  rw [getLane_packLanes hb]
  have h3 : nth (List.map (fun x : Nat × Flags => x.1) (List.map (fun i => if en i = true then f i else (getLane w i c, 0#5))
      (List.range (512 / w)))) i 0 = (if en i = true then f i else (getLane w i c, 0#5)).1 := by
    simp [nth, List.getD, List.getElem?_map, List.getElem?_range hi]
  rw [h3]
  split
  · rfl
  · exact Nat.mod_eq_of_lt (getLane_lt w i c)

/-- The flags of the lanes computed, ORed together. -/
theorem overLanes_flags (w : Nat) (c : Vec) (en : Nat → Bool) (f : Nat → Nat × Flags) :
    (overLanes w c en f).2 = (List.range (512 / w)).foldl (fun fl i => if en i then fl ||| (f i).2 else fl) 0#5 := by
  unfold overLanes
  simp only [List.foldl_map]
  congr
  funext fl i
  split <;> simp

end Sys2Proof.Machine
end

