-- ==== Sys2Proof/Certificates/Slice0/Obligations.lean ====
section
/-! DEFINITION. The statements for the provers. A statement covers the instructions named in it, in every operand form; its
parts are `Sys2Proof.Claim`, with the tables of instructions and the terms they share. -/

open Sys2Proof Sys2Proof.Machine

/-! ### Integer, predicate and control-flow instructions -/

namespace Sys2Proof.Claim

/-- Instruction i, of a thread whose state becomes t', has taken effect: exec answers the state in which t' has retired with
its marker w, at a target or at the next word; without the marker all the rest of the machine is as it was. -/
def Ends (i : Instr) (s : State) (w : BitVec 1) (t' : Thread) (target : Option Word) : Prop :=
  exec i s = .next ((s.setThread s.cur t').retire s.cur (decide (w = 1)) target) ∧
  (w = 0 → ∃ v, exec i s = .next v ∧ v.thread s.cur = some (t'.after target) ∧ Still s v)

/-- The OR of the taint bits of the window registers among some fields (R93). -/
def taints (t : Thread) (fs : List Nat) : Bool := fs.any (fun f => decide (f ≤ 111) && nth t.taint f false)

/-- What an instruction that reads scalar fields and writes one names. -/
def scalarUse (srcs : List (BitVec 7)) (d : BitVec 7) : Use :=
  { srcs := srcs.map BitVec.toNat, dst := some d.toNat, packet := true }

/-- The binary members of majors 0x00 and 0x01, with their results (R133, R134, R60). -/
def binary : List ((BitVec 1 → BitVec 7 → BitVec 7 → BitVec 7 → Instr) × (Word → Word → Word)) :=
  [(.add, fun a b => a + b), (.sub, fun a b => a - b), (.and, fun a b => a &&& b), (.or, fun a b => a ||| b),
   (.xor, fun a b => a ^^^ b), (.andn, fun a b => a &&& ~~~b),
   (.shl, fun a b => a <<< (b.toNat % 64)), (.shr, fun a b => a >>> (b.toNat % 64)),
   (.sra, fun a b => a.sshiftRight (b.toNat % 64)),
   (.min, fun a b => if a.toInt < b.toInt then a else b), (.max, fun a b => if a.toInt < b.toInt then b else a),
   (.minn, fun a b => if a.toNat < b.toNat then a else b), (.maxn, fun a b => if a.toNat < b.toNat then b else a),
   (.mul, fun a b => a * b), (.mulh, fun a b => BitVec.ofInt 64 (a.toInt * b.toInt / 2 ^ 64)),
   (.mulhn, fun a b => BitVec.ofNat 64 (a.toNat * b.toNat / 2 ^ 64)),
   (.divs, fun a b => if b = 0 then allOnes else BitVec.ofInt 64 (a.toInt.tdiv b.toInt)),
   (.divn, fun a b => if b = 0 then allOnes else BitVec.ofNat 64 (a.toNat / b.toNat)),
   (.rems, fun a b => a - b * (if b = 0 then allOnes else BitVec.ofInt 64 (a.toInt.tdiv b.toInt))),
   (.remn, fun a b => a - b * (if b = 0 then allOnes else BitVec.ofNat 64 (a.toNat / b.toNat))),
   (.rotl, fun a b => a.rotateLeft (b.toNat % 64)), (.rotr, fun a b => a.rotateRight (b.toNat % 64)),
   (.addsh1, fun a b => a * 2 + b), (.addsh2, fun a b => a * 4 + b), (.addsh3, fun a b => a * 8 + b)]

/-- The unary members, with their results (R134, R135). -/
def unary : List ((BitVec 1 → BitVec 7 → BitVec 7 → Instr) × (Word → Word)) :=
  [(.clz, leadingZeros), (.ctz, trailingZeros), (.popc, onesCount),
   (.spbank, fun a => BitVec.ofNat 64 (a.toNat % 2 ^ 20 / 16 % 31)), (.sprow, fun a => BitVec.ofNat 64 (a.toNat % 2 ^ 20 / 16 / 31)),
   (.brev, bitReverse), (.bswap, byteReverse)]

/-- The members with an immediate, with their results (R137 to R139). -/
def immediate : List ((BitVec 1 → BitVec 7 → BitVec 7 → BitVec 11 → Instr) × (Word → BitVec 11 → Word)) :=
  [(.addi, fun a i => a + i.signExtend 64), (.andi, fun a i => a &&& i.zeroExtend 64), (.ori, fun a i => a ||| i.zeroExtend 64),
   (.xori, fun a i => a ^^^ i.zeroExtend 64), (.muli, fun a i => a * i.signExtend 64)]

/-- The shifts by an amount (R138). -/
def shifts : List ((BitVec 1 → BitVec 7 → BitVec 7 → BitVec 6 → Instr) × (Word → Nat → Word)) :=
  [(.shli, fun a n => a <<< n), (.shri, fun a n => a >>> n), (.srai, fun a n => a.sshiftRight n),
   (.rotli, fun a n => a.rotateLeft n)]

/-- The compares of two registers into pw (R136). -/
def compares : List ((BitVec 1 → BitVec 1 → BitVec 6 → BitVec 7 → BitVec 7 → Instr) × (Word → Word → Bool)) :=
  [(.ceq, fun a b => a == b), (.cne, fun a b => a != b), (.clt, fun a b => decide (a.toInt < b.toInt)),
   (.cle, fun a b => decide (a.toInt ≤ b.toInt)), (.cltn, fun a b => decide (a.toNat < b.toNat)),
   (.clen, fun a b => decide (a.toNat ≤ b.toNat)), (.cbit, fun a b => a.getLsbD (b.toNat % 64))]

/-- The compares with an immediate (R140). -/
def comparesImm : List ((BitVec 1 → BitVec 1 → BitVec 6 → BitVec 7 → BitVec 8 → Instr) × (Word → BitVec 8 → Bool)) :=
  [(.ceqi, fun a i => a == i.signExtend 64), (.cnei, fun a i => a != i.signExtend 64),
   (.clti, fun a i => decide (a.toInt < i.toInt)), (.clei, fun a i => decide (a.toInt ≤ i.toInt)),
   (.cltni, fun a i => decide (a.toNat < i.toNat)), (.cleni, fun a i => decide (a.toNat ≤ i.toNat)),
   (.cgti, fun a i => decide (i.toInt < a.toInt)), (.cgei, fun a i => decide (i.toInt ≤ a.toInt))]

/-- Predicate logic (R143). -/
def logic : List ((BitVec 1 → BitVec 6 → BitVec 6 → BitVec 6 → Instr) × (Bool → Bool → Bool)) :=
  [(.pand, fun x y => x && y), (.por, fun x y => x || y), (.pxor, fun x y => x != y), (.pandn, fun x y => x && !y),
   (.porn, fun x y => x || !y), (.pnand, fun x y => !(x && y)), (.pnor, fun x y => !(x || y)), (.pxnor, fun x y => x == y)]

/-- pw with bit k replaced by c, or by its AND with c (R136); every other bit stays. -/
def pwWith (pw : Word) (p : BitVec 1) (k : Nat) (c : Bool) : Word :=
  BitVec.ofFnLE (fun i : Fin 64 => if i.val = k then (if p = 1 then pw.getLsbD k && c else c) else pw.getLsbD i.val)

/-- The branches of major 0x11 with their conditions (R144, R121): what is tested names a window register in two of them. -/
def branches (x : BitVec 6) : List ((BitVec 1 → BitVec 15 → Instr) × List Nat × (Thread → Bool)) :=
  [(fun w o => .brPset w x o, [], fun t => t.pw.getLsbD x.toNat), (fun w o => .brPclr w x o, [], fun t => ! t.pw.getLsbD x.toNat),
   (fun w o => .brZ w x o, [x.toNat], fun t => t.xr x.toNat == 0), (fun w o => .brNz w x o, [x.toNat], fun t => t.xr x.toNat != 0),
   (.brEop, [], fun t => t.csr.ts.getLsbD 0), (.brEos, [], fun t => t.csr.ts.getLsbD 1),
   (.brQe, [], fun t => t.csr.ts.getLsbD 2), (.br, [], fun _ => true)]

end Sys2Proof.Claim

/-- R133, R134, R60, R93, R129: every binary integer instruction whose fields name registers writes its result with the OR
of its sources' taint, changes nothing else, and completes; division by zero gives all ones and leaves the dividend. -/
def Obligations.BinaryIntegerResults : Prop :=
  ∀ op ∈ Claim.binary, ∀ (w : BitVec 1) (d a b : BitVec 7) (s : State) (t : Thread), Plain s t (Claim.scalarUse [a, b] d) →
    Claim.Ends (op.1 w d a b) s w
      (t.writes d.toNat (op.2 (t.reads a.toNat) (t.reads b.toNat)) (Claim.taints t [a.toNat, b.toNat])) none

/-- R134, R135, R137, R138, R139: the unary members, the immediate forms, the shifts by an amount and EXTI. -/
def Sys2Proof.Claim.UnaryAndImmediateResults : Prop :=
  ∀ (w : BitVec 1) (d a : BitVec 7) (s : State) (t : Thread), Plain s t (Claim.scalarUse [a] d) →
    (∀ op ∈ Claim.unary, Claim.Ends (op.1 w d a) s w (t.writes d.toNat (op.2 (t.reads a.toNat)) (Claim.taints t [a.toNat])) none) ∧
    (∀ op ∈ Claim.immediate, ∀ i, Claim.Ends (op.1 w d a i) s w
      (t.writes d.toNat (op.2 (t.reads a.toNat) i) (Claim.taints t [a.toNat])) none) ∧
    (∀ op ∈ Claim.shifts, ∀ n, Claim.Ends (op.1 w d a n) s w
      (t.writes d.toNat (op.2 (t.reads a.toNat) n.toNat) (Claim.taints t [a.toNat])) none) ∧
    (∀ (x : BitVec 5) (l : BitVec 6), Claim.Ends (.exti w d a x l) s w
      (t.writes d.toNat (BitVec.ofNat 64 ((t.reads a.toNat).toNat / 2 ^ l.toNat % 2 ^ (x.toNat + 1))) (Claim.taints t [a.toNat])) none)

/-- R141, R142: LQZ and PCADD give untainted constants, LQK replaces sixteen bits of its destination and keeps its taint,
and PSEL takes one of two sources by a bit of pw. -/
def Sys2Proof.Claim.ConstantsAndSelect : Prop :=
  (∀ (w : BitVec 1) (d : BitVec 7) (q : BitVec 2) (i : BitVec 16) (s : State) (t : Thread), Plain s t (Claim.scalarUse [] d) →
    Claim.Ends (.lqz w d q i) s w (t.writes d.toNat (i.zeroExtend 64 <<< (16 * q.toNat)) false) none) ∧
  (∀ (w : BitVec 1) (d : BitVec 7) (q : BitVec 1) (i : BitVec 16) (s : State) (t : Thread), Plain s t (Claim.scalarUse [] d) →
    Claim.Ends (.pcadd w d q i) s w (t.writes d.toNat (t.pc + (i.signExtend 64 <<< (16 * q.toNat))) false) none) ∧
  (∀ (w : BitVec 1) (d : BitVec 7) (q : BitVec 2) (i : BitVec 16) (s : State) (t : Thread), Plain s t (Claim.scalarUse [d] d) →
    Claim.Ends (.lqk w d q i) s w
      (t.writes d.toNat (setBits (t.reads d.toNat) (16 * q.toNat + 15) (16 * q.toNat) i.toNat) (Claim.taints t [d.toNat])) none) ∧
  (∀ (w : BitVec 1) (d a b : BitVec 7) (k : BitVec 4) (s : State) (t : Thread), Plain s t (Claim.scalarUse [a, b] d) →
    Claim.Ends (.psel w d a b k) s w
      (t.writes d.toNat (if t.pw.getLsbD k.toNat then t.reads a.toNat else t.reads b.toNat) (Claim.taints t [a.toNat, b.toNat])) none)

/-- R136, R140, R143: a compare and a predicate operation write the one bit of pw that they name; every other bit of pw,
every register and every taint bit stays. -/
def Obligations.PredicateBits : Prop :=
  (∀ op ∈ Claim.compares, ∀ (w p : BitVec 1) (k : BitVec 6) (a b : BitVec 7) (s : State) (t : Thread),
    Plain s t { srcs := [a.toNat, b.toNat], packet := true } →
    Claim.Ends (op.1 w p k a b) s w
      { t with pw := Claim.pwWith t.pw p k.toNat (op.2 (t.reads a.toNat) (t.reads b.toNat)) } none) ∧
  (∀ op ∈ Claim.comparesImm, ∀ (w p : BitVec 1) (k : BitVec 6) (a : BitVec 7) (i : BitVec 8) (s : State) (t : Thread),
    Plain s t { srcs := [a.toNat], packet := true } →
    Claim.Ends (op.1 w p k a i) s w { t with pw := Claim.pwWith t.pw p k.toNat (op.2 (t.reads a.toNat) i) } none) ∧
  (∀ op ∈ Claim.logic, ∀ (w : BitVec 1) (k j m : BitVec 6) (s : State) (t : Thread), Plain s t { packet := true } →
    Claim.Ends (op.1 w k j m) s w
      { t with pw := Claim.pwWith t.pw 0 k.toNat (op.2 (t.pw.getLsbD j.toNat) (t.pw.getLsbD m.toNat)) } none)

/-- R144, R145, R146: where the branches and jumps go, and what the linking ones write; a misaligned target of JALR traps
with MISALIGNED before anything is written. -/
def Obligations.BranchesAndJumps : Prop :=
  (∀ (x : BitVec 6), ∀ op ∈ Claim.branches x, ∀ (w : BitVec 1) (o : BitVec 15) (s : State) (t : Thread),
    Plain s t { regs := op.2.1 } →
    Claim.Ends (op.1 w o) s w t (some (if op.2.2 t then t.pc + 4 * o.signExtend 64 else t.pc + 4))) ∧
  (∀ (w : BitVec 1) (o : BitVec 25) (s : State) (t : Thread), Plain s t {} →
    Claim.Ends (.jmp w o) s w t (some (t.pc + 4 * o.signExtend 64))) ∧
  (∀ (w : BitVec 1) (o : BitVec 25) (s : State) (t : Thread), Plain s t { regs := [1] } →
    Claim.Ends (.jal w o) s w (t.setX 1 (t.pc + 4) false) (some (t.pc + 4 * o.signExtend 64))) ∧
  (∀ (w : BitVec 1) (d a : BitVec 7) (i : BitVec 11) (s : State) (t : Thread),
    Plain s t { srcs := [a.toNat], dst := some d.toNat } →
    let goal := t.reads a.toNat + 4 * i.signExtend 64
    (goal.toNat % 4 = 0 → Claim.Ends (.jalr w d a i) s w (t.writes d.toNat (t.pc + 4) false) (some goal)) ∧
    (goal.toNat % 4 ≠ 0 → exec (.jalr w d a i) s =
      .next { s.enterTrap s.cur false ⟨cMISALIGNED, goal⟩ t.pc with freeN := s.freeN + 1 }))

/-! ### Floating-point and vector instructions -/

namespace Sys2Proof.Claim

/-- What a scalar floating-point instruction names: it may not come in an open packet (R131), nor in an ACCESS thread
(R24). -/
def floatUse (srcs : List (BitVec 7)) (d : BitVec 7) : Use :=
  { srcs := srcs.map BitVec.toNat, dst := some d.toNat, role := .float }

/-- Thread t after a floating-point result: the flags ORed into fcsr (R70), the result written zero-extended (R154). -/
def floatWrites (t : Thread) (d : BitVec 7) (r : Nat × Flags) (srcs : List (BitVec 7)) : Thread :=
  (t.addFlags r.2).writes d.toNat (BitVec.ofNat 64 r.1) (taints t (srcs.map BitVec.toNat))

/-- The members of majors 0x18 and 0x19 with two sources, with their operations (R157, R158). -/
def floatBinary : List ((BitVec 1 → BitVec 7 → BitVec 7 → BitVec 7 → Instr) × (RM → Nat → Nat → Nat × Flags)) :=
  [(.faddF32, fadd F32), (.fsubF32, fsub F32), (.fmulF32, fmul F32), (.fdivF32, fdiv F32), (.fminF32, fun _ => fmin F32),
   (.fmaxF32, fun _ => fmax F32), (.fcpsF32, fun _ => fcps F32),
   (.faddF64, fadd F64), (.fsubF64, fsub F64), (.fmulF64, fmul F64), (.fdivF64, fdiv F64), (.fminF64, fun _ => fmin F64),
   (.fmaxF64, fun _ => fmax F64), (.fcpsF64, fun _ => fcps F64)]

/-- The fused members: the accumulator is read through D (R157). -/
def floatFused : List ((BitVec 1 → BitVec 7 → BitVec 7 → BitVec 7 → Instr) × (RM → Nat → Nat → Nat → Nat × Flags)) :=
  [(.fmaF32, ffma F32), (.fmsF32, ffms F32), (.fnmaF32, ffnma F32), (.fmaF64, ffma F64), (.fmsF64, ffms F64),
   (.fnmaF64, ffnma F64)]

/-- The unary members and the conversions of major 0x1A (R157, R160, R71). -/
def floatUnary : List ((BitVec 1 → BitVec 7 → BitVec 7 → Instr) × (RM → Nat → Nat × Flags)) :=
  [(.fsqrtF32, fsqrt F32), (.fabsF32, fun _ => fabs F32), (.fnegF32, fun _ => fneg F32),
   (.fsqrtF64, fsqrt F64), (.fabsF64, fun _ => fabs F64), (.fnegF64, fun _ => fneg F64),
   (.fcvtF64F32, fconvert F32 F64), (.fcvtF32F64, fconvert F64 F32),
   (.fcvtF32S64, fun rm a => ofInt F32 rm (toSigned 64 a)), (.fcvtF32N64, fun rm a => ofInt F32 rm a),
   (.fcvtF64S64, fun rm a => ofInt F64 rm (toSigned 64 a)), (.fcvtF64N64, fun rm a => ofInt F64 rm a),
   (.fcvtS64F32, toS64 F32), (.fcvtN64F32, toN64 F32), (.fcvtS64F64, toS64 F64), (.fcvtN64F64, toN64 F64),
   (.fcvtF32B16, fconvert B16 F32), (.fcvtB16F32, fconvert F32 B16), (.fcvtF32F16, fconvert F16 F32),
   (.fcvtF16F32, fconvert F32 F16), (.fcvtF32E4, fconvert E4 F32), (.fcvtF32E5, fconvert E5 F32),
   (.fcvtE4F32, fconvert F32 E4), (.fcvtE5F32, fconvert F32 E5)]

/-- The compares into pw (R159). -/
def floatCompares : List ((BitVec 1 → BitVec 1 → BitVec 6 → BitVec 7 → BitVec 7 → Instr) × FCmp × Fmt) :=
  [(.fceqF32, .eq, F32), (.fcltF32, .lt, F32), (.fcleF32, .le, F32), (.fceqF64, .eq, F64), (.fcltF64, .lt, F64),
   (.fcleF64, .le, F64)]

/-- A vector instruction writes r to VD: lane i of width n is what f gives where en holds, and stays where not; the flags
of the lanes computed are ORed together (R161). -/
structure LanesOf (n : Nat) (old : Vec) (en : Nat → Bool) (f : Nat → Nat × Flags) (r : Vec × Flags) : Prop where
  lane : ∀ i, i < 512 / n → getLane n i r.1 = if en i then (f i).1 % 2 ^ n else getLane n i old
  flags : r.2 = (List.range (512 / n)).foldl (fun fl i => if en i then fl ||| (f i).2 else fl) 0#5

/-- A vector instruction that names vector registers and perhaps a scalar one by number. -/
def vectorUse (vs : List (BitVec 5)) (regs : List Nat) : Use := { vregs := vs.map BitVec.toNat, regs := regs, role := .float }

/-- Instruction i computes lanes of width n of VD: it completes with such lanes and their flags in fcsr. -/
def VectorEnds (i : Instr) (s : State) (w : BitVec 1) (t : Thread) (d : BitVec 5) (n : Nat) (old : Vec) (en : Nat → Bool)
    (f : Nat → Nat × Flags) : Prop :=
  ∃ r, LanesOf n old en f r ∧ Ends i s w ((t.setV d.toNat r.1).addFlags r.2) none

/-- Lane-wise members of two sources, with what a lane takes from VA, VB and VD (R158, R163, R166). -/
noncomputable def laneBinary : List ((BitVec 1 → BitVec 5 → BitVec 5 → BitVec 5 → BitVec 1 → BitVec 3 → Instr) ×
    (BitVec 3 → RM → Nat → Nat → Nat → Nat × Flags)) :=
  [(.vadd, fun ty rm a b _ => byType ty fadd (fun a b => a + b) rm a b),
   (.vsub, fun ty rm a b _ => byType ty fsub (fun a b => a - b) rm a b),
   (.vmul, fun ty rm a b _ => byType ty fmul (fun a b => a * b) rm a b),
   (.vdiv, fun ty rm a b _ => floatLane ty (fun f => fdiv f rm a b) a),
   (.vfma, fun ty rm a b c => floatLane ty (fun f => ffma f rm a b c) a),
   (.vfms, fun ty rm a b c => floatLane ty (fun f => ffms f rm a b c) a),
   (.vfnma, fun ty rm a b c => floatLane ty (fun f => ffnma f rm a b c) a),
   (.vmin, fun ty rm a b _ => byType ty (fun f _ => fmin f) (fun a b => min a b) rm a b),
   (.vmax, fun ty rm a b _ => byType ty (fun f _ => fmax f) (fun a b => max a b) rm a b),
   (.vcps, fun ty _ a b _ => floatLane ty (fun f => fcps f a b) a),
   (.vand, fun _ _ a b _ => (a &&& b, 0#5)), (.vor, fun _ _ a b _ => (a ||| b, 0#5)), (.vxor, fun _ _ a b _ => (a ^^^ b, 0#5)),
   (.vshl, fun ty _ a b _ => (a * 2 ^ (b % tyWidth ty.toNat), 0#5)),
   (.vshr, fun ty _ a b _ => (a / 2 ^ (b % tyWidth ty.toNat), 0#5)),
   (.vsra, fun ty _ a b _ =>
     (ofSigned (tyWidth ty.toNat) (toSigned (tyWidth ty.toNat) a / (2 ^ (b % tyWidth ty.toNat) : Nat)), 0#5)),
   (.vadds, fun ty rm a b _ =>
     byType ty (fun _ _ a _ => (a, 0#5)) (fun a b => clamp (tyMin ty.toNat) (tyMax ty.toNat) (a + b)) rm a b),
   (.vsubs, fun ty rm a b _ =>
     byType ty (fun _ _ a _ => (a, 0#5)) (fun a b => clamp (tyMin ty.toNat) (tyMax ty.toNat) (a - b)) rm a b),
   (.vmulh, fun ty rm a b _ => byType ty (fun _ _ a _ => (a, 0#5)) (fun a b => a * b / (2 ^ 32 : Nat)) rm a b)]

/-- Lane-wise members of one source (R163, R164, R166). -/
noncomputable def laneUnary : List ((BitVec 1 → BitVec 5 → BitVec 5 → BitVec 1 → BitVec 3 → Instr) × (BitVec 3 → RM → Nat → Nat × Flags)) :=
  [(.vsqrt, fun ty rm a => floatLane ty (fun f => fsqrt f rm a) a),
   (.vabs, fun ty rm a => byType ty (fun f _ a _ => fabs f a) (fun a _ => |a|) rm a 0),
   (.vneg, fun ty rm a => byType ty (fun f _ a _ => fneg f a) (fun a _ => -a) rm a 0),
   (.vrcp, fun _ _ a => frcp a), (.vrsq, fun _ _ a => frsq a), (.vexp2, fun _ _ a => fexp2 a), (.vlog2, fun _ _ a => flog2 a)]

/-- The moves of lanes of two sources: whether destination lane i comes from VB, and which lane (R170). L is the lane
count. -/
noncomputable def laneMoves : List ((BitVec 1 → BitVec 5 → BitVec 5 → BitVec 5 → BitVec 1 → BitVec 3 → Instr) × (Nat → Nat → Bool × Nat)) :=
  [(.vzipl, fun _ i => (i % 2 == 1, i / 2)), (.vziph, fun l i => (i % 2 == 1, i / 2 + l / 2)),
   (.vuzpe, fun l i => (decide (l / 2 ≤ i), 2 * (i % (l / 2)))), (.vuzpo, fun l i => (decide (l / 2 ≤ i), 2 * (i % (l / 2)) + 1))]

/-- The vector compares: on floating-point lanes and on integer lanes (R167). -/
noncomputable def vectorCompares : List ((BitVec 1 → BitVec 1 → BitVec 5 → BitVec 5 → BitVec 1 → BitVec 3 → Instr) × FCmp × (Int →
  Int → Bool)) :=
  [(.vceq, .eq, fun a b => a == b), (.vcne, .ne, fun a b => a != b), (.vclt, .lt, fun a b => decide (a < b)),
   (.vcle, .le, fun a b => decide (a ≤ b))]

/-- The reductions: width of the result, the identity that a disabled lane enters as, how a lane enters, and the
operation of the tree (R81, R171). -/
noncomputable def reductions : List ((BitVec 1 → BitVec 5 → BitVec 5 → BitVec 1 → BitVec 3 → Instr) ×
    (BitVec 3 → Nat × Nat × (Nat → Nat × Flags) × (RM → Nat → Nat → Nat × Flags))) :=
  [(.vrsum, fun ty => match tyFmt ty.toNat with
      | some f => (32, 0x80000000, fun x => if f = F32 then (x, 0#5) else fconvert f F32 .rne x, fun rm => fadd F32 rm)
      | none => (32, 0, fun x => (ofSigned 32 (laneInt ty.toNat x), 0#5), fun _ a b => ((a + b) % 2 ^ 32, 0#5))),
   (.vrmax, fun ty => match tyFmt ty.toNat with
      | some f => (tyWidth ty.toNat, signed f true f.infCode, fun x => (x, 0#5), fun _ => fmax f)
      | none => (tyWidth ty.toNat, ofSigned (tyWidth ty.toNat) (tyMin ty.toNat), fun x => (x, 0#5),
          fun _ a b => (if laneInt ty.toNat a < laneInt ty.toNat b then b else a, 0#5))),
   (.vrmin, fun ty => match tyFmt ty.toNat with
      | some f => (tyWidth ty.toNat, signed f false f.infCode, fun x => (x, 0#5), fun _ => fmin f)
      | none => (tyWidth ty.toNat, ofSigned (tyWidth ty.toNat) (tyMax ty.toNat), fun x => (x, 0#5),
          fun _ a b => (if laneInt ty.toNat a < laneInt ty.toNat b then a else b, 0#5))),
   (.vrand, fun ty => (tyWidth ty.toNat, 2 ^ tyWidth ty.toNat - 1, fun x => (x, 0#5), fun _ a b => (a &&& b, 0#5))),
   (.vror, fun ty => (tyWidth ty.toNat, 0, fun x => (x, 0#5), fun _ a b => (a ||| b, 0#5)))]

end Sys2Proof.Claim

/-- R154, R155, R157, R158, R160, R70: every scalar floating-point instruction whose fields name registers rounds as fcsr
stands, writes its result, ORs its flags into fcsr, changes nothing else, and completes. -/
def Sys2Proof.Claim.FloatResults : Prop :=
  (∀ op ∈ Claim.floatBinary, ∀ (w : BitVec 1) (d a b : BitVec 7) (s : State) (t : Thread),
    Plain s t (Claim.floatUse [a, b] d) →
    Claim.Ends (op.1 w d a b) s w
      (Claim.floatWrites t d (op.2 (rmOf t.csr.fcsr) (t.reads a.toNat).toNat (t.reads b.toNat).toNat) [a, b]) none) ∧
  (∀ op ∈ Claim.floatFused, ∀ (w : BitVec 1) (d a b : BitVec 7) (s : State) (t : Thread),
    Plain s t (Claim.floatUse [a, b, d] d) →
    Claim.Ends (op.1 w d a b) s w
      (Claim.floatWrites t d
        (op.2 (rmOf t.csr.fcsr) (t.reads a.toNat).toNat (t.reads b.toNat).toNat (t.reads d.toNat).toNat) [a, b, d]) none) ∧
  (∀ op ∈ Claim.floatUnary, ∀ (w : BitVec 1) (d a : BitVec 7) (s : State) (t : Thread), Plain s t (Claim.floatUse [a] d) →
    Claim.Ends (op.1 w d a) s w (Claim.floatWrites t d (op.2 (rmOf t.csr.fcsr) (t.reads a.toNat).toNat) [a]) none)

/-- R159: a floating-point compare writes the one bit of pw that it names and ORs its flags into fcsr. -/
def Sys2Proof.Claim.FloatCompares : Prop :=
  ∀ op ∈ Claim.floatCompares, ∀ (w p : BitVec 1) (k : BitVec 6) (a b : BitVec 7) (s : State) (t : Thread),
    Plain s t { srcs := [a.toNat, b.toNat], role := .float } →
    let r := fcompare op.2.1 op.2.2 (t.reads a.toNat).toNat (t.reads b.toNat).toNat
    Claim.Ends (op.1 w p k a b) s w { t.addFlags r.2 with pw := Claim.pwWith t.pw p k.toNat r.1 } none

/-- R161, R163, R164, R166, R168: the lane-wise vector instructions. A disabled lane keeps what VD held; VSEL computes every
lane. -/
def Obligations.VectorLaneResults : Prop :=
  (∀ op ∈ Claim.laneBinary, ∀ (w m : BitVec 1) (d a b : BitVec 5) (ty : BitVec 3) (s : State) (t : Thread),
    Plain s t (Claim.vectorUse [d, a, b] []) → let n := tyWidth ty.toNat
    Claim.VectorEnds (op.1 w d a b m ty) s w t d n (t.vr d.toNat) (enabled m t)
      (fun i => op.2 ty (rmOf t.csr.fcsr) (getLane n i (t.vr a.toNat)) (getLane n i (t.vr b.toNat)) (getLane n i (t.vr d.toNat)))) ∧
  (∀ op ∈ Claim.laneUnary, ∀ (w m : BitVec 1) (d a : BitVec 5) (ty : BitVec 3) (s : State) (t : Thread),
    Plain s t (Claim.vectorUse [d, a] []) → let n := tyWidth ty.toNat
    Claim.VectorEnds (op.1 w d a m ty) s w t d n (t.vr d.toNat) (enabled m t)
      (fun i => op.2 ty (rmOf t.csr.fcsr) (getLane n i (t.vr a.toNat)))) ∧
  (∀ (w : BitVec 1) (d a b : BitVec 5) (ty : BitVec 3) (s : State) (t : Thread),
    Plain s t (Claim.vectorUse [d, a, b] []) → let n := tyWidth ty.toNat
    Claim.VectorEnds (.vsel w d a b ty) s w t d n 0 (fun _ => true)
      (fun i => (getLane n i (if t.pw.getLsbD i then t.vr a.toNat else t.vr b.toNat), 0#5)))

/-- R80, R165, R169: VDOT adds two B16 products or four S8 products into each 32-bit lane; VCVT converts part p of the wider
side. -/
def Sys2Proof.Claim.VectorDotAndConvert : Prop :=
  (∀ (w m : BitVec 1) (d a b : BitVec 5) (ty : BitVec 3) (s : State) (t : Thread),
    Plain s t (Claim.vectorUse [d, a, b] []) →
    Claim.VectorEnds (.vdot w d a b m ty) s w t d 32 (t.vr d.toNat) (enabled m t) (fun i =>
      if ty = 1 then
        dot2 F32 (rmOf t.csr.fcsr) (unpack F32 (getLane 32 i (t.vr d.toNat)))
          (unpack B16 (getLane 16 (2 * i) (t.vr a.toNat))) (unpack B16 (getLane 16 (2 * i) (t.vr b.toNat)))
          (unpack B16 (getLane 16 (2 * i + 1) (t.vr a.toNat))) (unpack B16 (getLane 16 (2 * i + 1) (t.vr b.toNat)))
      else
        (ofSigned 32 ((getLane 32 i (t.vr d.toNat) : Nat) +
          ((List.range 4).map (fun j => toSigned 8 (getLane 8 (4 * i + j) (t.vr a.toNat)) *
            toSigned 8 (getLane 8 (4 * i + j) (t.vr b.toNat)))).sum), 0#5))) ∧
  (∀ (w m : BitVec 1) (d a p : BitVec 5) (ty su : BitVec 3) (s : State) (t : Thread),
    Plain s t (Claim.vectorUse [d, a] []) →
    let source := tyLanes su.toNat
    let into := tyLanes ty.toNat
    let k := p.toNat * min source into
    Claim.VectorEnds (.vcvt w d a p m ty su) s w t d (tyWidth ty.toNat) (t.vr d.toNat)
      (fun i => enabled m t i && (decide (into < source) || decide (k ≤ i ∧ i < k + min source into)))
      (fun i => convertLane su.toNat ty.toNat (rmOf t.csr.fcsr)
        (getLane (tyWidth su.toNat) (if into < source then k + i else i - k) (t.vr a.toNat))))

/-- R170: the lane moves. VINS and VMOVS take a scalar register, VEXT writes one, untainted. -/
def Sys2Proof.Claim.VectorMoves : Prop :=
  (∀ op ∈ Claim.laneMoves, ∀ (w m : BitVec 1) (d a b : BitVec 5) (ty : BitVec 3) (s : State) (t : Thread),
    Plain s t (Claim.vectorUse [d, a, b] []) → let n := tyWidth ty.toNat
    Claim.VectorEnds (op.1 w d a b m ty) s w t d n (t.vr d.toNat) (enabled m t)
      (fun i => let x := op.2 (512 / n) i; (getLane n x.2 (if x.1 then t.vr b.toNat else t.vr a.toNat), 0#5))) ∧
  (∀ (w m : BitVec 1) (d a b : BitVec 5) (ty : BitVec 3) (s : State) (t : Thread),
    Plain s t (Claim.vectorUse [d, a, b] []) → let n := tyWidth ty.toNat
    Claim.VectorEnds (.vperm w d a b m ty) s w t d n (t.vr d.toNat) (enabled m t)
      (fun i => (getLane n (getLane n i (t.vr b.toNat) % (512 / n)) (t.vr a.toNat), 0#5))) ∧
  (∀ (w m : BitVec 1) (d a l : BitVec 5) (ty : BitVec 3) (s : State) (t : Thread),
    Plain s t (Claim.vectorUse [d, a] []) → let n := tyWidth ty.toNat
    Claim.VectorEnds (.vbcst w d a l m ty) s w t d n 0 (fun _ => true)
      (fun _ => (getLane n (Machine.laneNumber l m ty) (t.vr a.toNat), 0#5))) ∧
  (∀ (w m : BitVec 1) (d a l : BitVec 5) (ty : BitVec 3) (s : State) (t : Thread),
    Plain s t (Claim.vectorUse [d] [a.toNat]) → Machine.laneNumber l m ty < 512 / tyWidth ty.toNat → let n := tyWidth ty.toNat
    Claim.VectorEnds (.vins w d a l m ty) s w t d n (t.vr d.toNat) (fun i => i == Machine.laneNumber l m ty)
      (fun _ => ((t.xr a.toNat).toNat, 0#5))) ∧
  (∀ (w m : BitVec 1) (d a : BitVec 5) (ty : BitVec 3) (s : State) (t : Thread),
    Plain s t (Claim.vectorUse [d] [a.toNat]) →
    Claim.VectorEnds (.vmovs w d a m ty) s w t d (tyWidth ty.toNat) (t.vr d.toNat) (enabled m t)
      (fun _ => ((t.xr a.toNat).toNat, 0#5))) ∧
  (∀ (w m : BitVec 1) (d a l : BitVec 5) (ty : BitVec 3) (s : State) (t : Thread),
    Plain s t { vregs := [a.toNat], dst := some d.toNat, role := .float } →
    let x := getLane (tyWidth ty.toNat) (Machine.laneNumber l m ty) (t.vr a.toNat)
    Claim.Ends (.vext w d a l m ty) s w
      (t.writes d.toNat (if ty = 5 ∨ ty = 7 then BitVec.ofInt 64 (toSigned (tyWidth ty.toNat) x) else BitVec.ofNat 64 x) false) none)

/-- R167: a vector compare replaces, or ANDs into, the bits of pw of the enabled lanes, and no other bit. -/
def Sys2Proof.Claim.VectorCompares : Prop :=
  ∀ op ∈ Claim.vectorCompares, ∀ (w c m : BitVec 1) (a b : BitVec 5) (ty : BitVec 3) (s : State) (t : Thread),
    Plain s t (Claim.vectorUse [a, b] []) →
    let n := tyWidth ty.toNat
    let lane := fun i => match tyFmt ty.toNat with
      | some f => fcompare op.2.1 f (getLane n i (t.vr a.toNat)) (getLane n i (t.vr b.toNat))
      | none => (op.2.2 (laneInt ty.toNat (getLane n i (t.vr a.toNat))) (laneInt ty.toNat (getLane n i (t.vr b.toNat))), 0#5)
    ∃ pw fl, (∀ i, i < 64 → pw.getLsbD i =
        if i < 512 / n ∧ enabled m t i then (if c = 1 then t.pw.getLsbD i && (lane i).1 else (lane i).1) else t.pw.getLsbD i) ∧
      fl = (List.range (512 / n)).foldl (fun fl i => if enabled m t i then fl ||| (lane i).2 else fl) 0#5 ∧
      Claim.Ends (op.1 w c a b m ty) s w { t.addFlags fl with pw := pw } none

/-- R81, R171: a reduction combines the lanes in the fixed tree, a disabled lane as the identity; its result fills the low
bits of VD and every other bit of VD becomes zero. -/
def Sys2Proof.Claim.VectorReductions : Prop :=
  ∀ op ∈ Claim.reductions, ∀ (w m : BitVec 1) (d a : BitVec 5) (ty : BitVec 3) (s : State) (t : Thread),
    Plain s t (Claim.vectorUse [d, a] []) →
    let n := tyWidth ty.toNat
    let (u, ident, enter, f) := op.2 ty
    let xs := (List.range (512 / n)).map (fun i => if enabled m t i then enter (getLane n i (t.vr a.toNat)) else (ident, 0#5))
    let r := treeOf (f (rmOf t.csr.fcsr)) (512 / n).log2 (xs.map (fun x => x.1))
    Claim.Ends (op.1 w d a m ty) s w
      ((t.setV d.toNat (BitVec.ofNat 512 (r.1 % 2 ^ u))).addFlags (xs.foldl (fun fl x => fl ||| x.2) r.2)) none

/-! ### Operand forms, retirement and thread control -/

namespace Sys2Proof.Claim

/-- An instruction that computes one value from its sources, and perhaps the thread, into its destination field. -/
structure Calc where
  instr : BitVec 1 → Instr
  use : Use
  value : Thread → List Word → Word

/-- Every integer instruction with a destination field, on any operands. -/
def calcs (d a b : BitVec 7) (i : BitVec 11) (n : BitVec 6) (x : BitVec 5) (q : BitVec 2) (r : BitVec 1) (j : BitVec 16)
    (k : BitVec 4) : List Calc :=
  binary.map (fun op => ⟨fun w => op.1 w d a b, scalarUse [a, b] d, fun _ xs => op.2 (arg xs 0) (arg xs 1)⟩) ++
  unary.map (fun op => ⟨fun w => op.1 w d a, scalarUse [a] d, fun _ xs => op.2 (arg xs 0)⟩) ++
  immediate.map (fun op => ⟨fun w => op.1 w d a i, scalarUse [a] d, fun _ xs => op.2 (arg xs 0) i⟩) ++
  shifts.map (fun op => ⟨fun w => op.1 w d a n, scalarUse [a] d, fun _ xs => op.2 (arg xs 0) n.toNat⟩) ++
  [⟨fun w => .exti w d a x n, scalarUse [a] d, fun _ xs => BitVec.ofNat 64 ((arg xs 0).toNat / 2 ^ n.toNat % 2 ^ (x.toNat + 1))⟩,
   ⟨fun w => .lqz w d q j, scalarUse [] d, fun _ _ => j.zeroExtend 64 <<< (16 * q.toNat)⟩,
   ⟨fun w => .lqk w d q j, scalarUse [d] d, fun _ xs => setBits (arg xs 0) (16 * q.toNat + 15) (16 * q.toNat) j.toNat⟩,
   ⟨fun w => .pcadd w d r j, scalarUse [] d, fun t _ => t.pc + (j.signExtend 64 <<< (16 * r.toNat))⟩,
   ⟨fun w => .psel w d a b k, scalarUse [a, b] d, fun t xs => if t.pw.getLsbD k.toNat then arg xs 0 else arg xs 1⟩]

/-- A result x may go through destination field f at once: a stage output accepts it for the item that the thread holds by
now (R240, R246), and what a head releases has been performed (R213). Every field that names a register qualifies. -/
def Opens (v : State) (tid : Nat) (f : Nat) (x : Word) : Prop :=
  v.outputTrap tid f x = none ∧ ∃ u, v.thread tid = some u ∧
    (isHead f ∧ headKind (u.headOf (f - 112)) = 6 → v.headRoom tid (f - 112) x = true) ∧
    ∀ sc, u.headRelease f = some sc → v.releaseIds tid sc = [] ∧ v.acquireIds tid = []

/-- Entries of channel n of core c. -/
def entries (s : State) (c n : Nat) : List Vec := (nth (s.core c).chans n {}).entries

/-- The cores of v are those of s, but for the entries of channel n of core c, which are l. -/
structure OneChannel (s v : State) (c n : Nat) (l : List Vec) : Prop where
  rest : { v with cores := s.cores } = s
  here : entries v c n = l
  there : ∀ d m, (d, m) ≠ (c, n) → nth (v.core d).chans m {} = nth (s.core d).chans m {}

end Sys2Proof.Claim

/-- R87, R88, R90, R129, R240: the same instructions with any operand form. Once they are ready, their value is computed
from what their sources give, a channel head's by dequeuing, and goes to their destination, through a channel head where
it names one; while a source or the room for the result is missing the thread blocks, and nothing is dequeued. What was
held in reserve for the instruction is there for it again when it is issued. The model's choices of log entries 8, 24 are
part of it. -/
def Obligations.EveryOperandForm : Prop :=
  ∀ (d a b : BitVec 7) (i : BitVec 11) (n : BitVec 6) (x : BitVec 5) (q : BitVec 2) (r : BitVec 1) (j : BitVec 16)
    (k : BitVec 4), ∀ c ∈ Claim.calcs d a b i n x q r j k, ∀ (w : BitVec 1) (s : State) (t : Thread),
    (∀ xs s' f, Ready s t c.use xs s' → c.use.dst = some f → Claim.Opens s' s.cur f (c.value t xs) →
      exec (c.instr w) s =
        .next ((s'.writeField s.cur f (c.value t xs) (c.use.taint t)).retire s.cur (decide (w = 1)) none)) ∧
    (s.thread s.cur = some t → c.use.named = true → c.use.restarts t = false →
      exec (c.instr w) s = exec (c.instr w) (s.dropGrip s.cur)) ∧
    (s.thread s.cur = some t → t.state ≠ .exited → s.checks t c.use = none → c.use.restarts t = false → Unordered s t c.use →
      s.unheld s.cur c.use = s → s.sources s.cur t c.use = none →
      ∃ v u wt, exec (c.instr w) s = .next v ∧ v.thread s.cur = some u ∧ u = { t with state := .blocked, wait := some wt } ∧
        wt.what = .heads c.use.srcs c.use.dsts ∧ (t.wait = none → wt.start = s.time ∧ wt.limit = t.csr.waitlim) ∧ Still s v)

/-- R88, R240, R54, R97, R246: reading a head bound to a local channel takes its oldest entry; writing one adds an entry at the
end. One bound to an inbox takes its oldest word and notes in `ts.EOP` whether that ends a packet; writing one bound to an inbox
of any core adds a packet of one word there. Reading a stage input takes the stage's next item, or at the end of the input gives
0 and sets `ts.EOS`; writing a stage output offers the value under the number of the item held. -/
def Obligations.ChannelHeads : Prop :=
  ∀ (s : State) (tid i : Nat) (t : Thread), s.thread tid = some t → i < 8 →
    let h := t.headOf i
    (∀ e l, headKind h = 1 → Claim.entries s t.core (headNum h) = e :: l →
      ∃ v, s.readField tid (112 + i) = some (e.truncate 64, v) ∧ Claim.OneChannel s v t.core (headNum h) l) ∧
    (headKind h = 1 → Claim.entries s t.core (headNum h) = [] → s.readField tid (112 + i) = none) ∧
    (∀ (x : Word) (taint : Bool), headKind h = 2 → headNum h < (s.core t.core).chans.length →
      Claim.OneChannel s (s.writeField tid (112 + i) x taint) t.core (headNum h)
        (Claim.entries s t.core (headNum h) ++ [x.zeroExtend 512])) ∧
    (∀ e l, headKind h = 3 → (nth (s.core t.core).inboxes (headNum h) {}).words = e :: l →
      ∃ v u, s.readField tid (112 + i) = some (e.word, v) ∧ v.thread tid = some u ∧
        u = t.modCsr (fun c => { c with ts := setBits c.ts 0 0 (if e.last then 1 else 0) }) ∧
        (let k := s.core t.core
         v.core t.core = { k with inboxes := modify k.inboxes (headNum h) (fun b => { b with words := l }) }) ∧
        (∀ c, c ≠ t.core → v.core c = s.core c) ∧ (∀ n, n ≠ tid → v.thread n = s.thread n) ∧ v.mem = s.mem) ∧
    (headKind h = 3 → (nth (s.core t.core).inboxes (headNum h) {}).words = [] → s.readField tid (112 + i) = none) ∧
    (∀ (x : Word) (taint : Bool), headKind h = 4 →
      (let more : Inbox → Inbox := fun b => { b with words := b.words ++ [⟨x, true, []⟩] }
       s.writeField tid (112 + i) x taint =
         s.modCore (headLcn h) (fun k => { k with inboxes := modify k.inboxes (headNum h) more }))) ∧
    (∀ l, headKind h = 5 → s.launchOf t.lnum = some l →
      let free := s.setThread tid { t with item := none }
      (∀ it l', free.inputOf t.lnum l t.stage = .item it l' →
        s.readField tid (112 + i) = some (it.handle, (s.setLaunch t.lnum l').setThread tid { t with item := some it })) ∧
      (free.inputOf t.lnum l t.stage = .atEnd → ∃ v u, s.readField tid (112 + i) = some (0, v) ∧ v.thread tid = some u ∧
        u.item = none ∧ u.csr.ts.getLsbD 1 = true ∧ v.launches = s.launches) ∧
      (free.inputOf t.lnum l t.stage = .nothing → s.readField tid (112 + i) = none)) ∧
    (∀ (x : Word) (taint : Bool) (l : Launch) (it : Item) (q : Nat) (u u' : StageQueue), headKind h = 6 →
      s.launchOf t.lnum = some l → t.item = some it → l.output t.stage (headSecond h) = some q → l.queues[q]? = some u →
      offer u ⟨x, it.seq⟩ = .accepted u' →
      s.writeField tid (112 + i) x taint = s.setLaunch t.lnum { l with queues := modify l.queues q (fun _ => u') })

/-- R32: what State.retire does with the marker set: it parks the thread until every outstanding result has returned; with all
of them returned, each is written and the thread goes on. No other thread changes. A NOP with the marker is such an
instruction. -/
def Obligations.MarkerParksOrSettles : Prop :=
  (∀ (s : State) (tid : Nat) (t : Thread) (target : Option Word), s.thread tid = some t → let v := s.retire tid true target
    (t.allReturned = false → v.thread tid = some { t.after target with state := .parked }) ∧
    (t.allReturned = true → ∃ u, v.thread tid = some u ∧
      u = { t.outs.foldl Thread.settleOne (t.after target) with outs := [], traps := u.traps } ∧
      ((∀ d ∈ t.outs, d.poison = none ∧ d.full = none) → u.traps = t.traps)) ∧
    ∀ n, n ≠ tid → v.thread n = s.thread n) ∧
  ∀ (s : State) (t : Thread), Plain s t { packet := true } →
    (t.allReturned = false → ∃ v, exec (.nop 1) s = .next v ∧ v.thread s.cur = some { t.after none with state := .parked }) ∧
    (t.allReturned = true → ∃ v u, exec (.nop 1) s = .next v ∧ v.thread s.cur = some u ∧ u.state = .ready ∧ u.outs = [] ∧
      u.pc = (t.after none).pc ∧ u.x = (t.outs.foldl Thread.settleOne (t.after none)).x ∧
      u.v = (t.outs.foldl Thread.settleOne (t.after none)).v)

/-- R148: in a repeat frame, an instruction is followed by the next of sixteen words; the last one by the first of the
next pass, or, after the last pass, by the word after the frame, with the frame closed. Outside a frame, by the next word. -/
def Sys2Proof.Claim.FrameOrder : Prop :=
  ∀ t : Thread,
    let r := t.csr.repst
    (r.getLsbD 31 = false → t.advance none = { t with pc := t.pc + 4 }) ∧
    (r.getLsbD 31 = true → bits r 18 15 < 15 →
      (t.advance none).pc = t.pc + 4 ∧ (t.advance none).csr.repst = setBits r 18 15 (bits r 18 15 + 1) ∧
      (t.advance none).frame = t.frame) ∧
    (r.getLsbD 31 = true → bits r 18 15 = 15 → bits r 24 19 < bits r 30 25 →
      (t.advance none).pc = t.pc - 60 ∧ (t.advance none).csr.repst = setBits (setBits r 18 15 0) 24 19 (bits r 24 19 + 1) ∧
      (t.advance none).frame = t.frame) ∧
    (r.getLsbD 31 = true → bits r 18 15 = 15 → bits r 30 25 ≤ bits r 24 19 →
      (t.advance none).pc = t.pc + 4 ∧ (t.advance none).csr.repst.getLsbD 31 = false ∧ (t.advance none).frame = [])

namespace Sys2Proof.Claim

/-- The register fields of a captured word that the mask enables (R148): lowest bit, width, and the first number that none may
reach. A field of a vector word has 5 bits; the destination of a compare is a bit of pw, of 6 (DESIGN CHOICE, log 23). -/
def staggered (w : IWord) (mask : Nat) : List (Nat × Nat × Nat) :=
  let field := fun (bit scalar vector : Nat) => show List (Nat × Nat × Nat) from
    if mask / 2 ^ bit % 2 = 0 then [] else if 0x20 ≤ w.toNat / 2 ^ 25 % 64 then [(vector, 5, 32)]
    else if bit = 0 ∧ frameCompare w.toNat = true then [(18, 6, 64)] else [(scalar, 7, 112)]
  field 0 18 20 ++ field 1 11 15 ++ field 2 4 10

/-- The number that a field holds. -/
def fieldOf (x : Nat) (e : Nat × Nat × Nat) : Nat := x / 2 ^ e.1 % 2 ^ e.2.1

/-- Is a field left as it is: a scalar one whose captured value is 112 to 127 (R148). -/
def Keeps (w : IWord) (e : Nat × Nat × Nat) : Prop := e.2.1 = 7 ∧ 112 ≤ fieldOf w.toNat e

/-- Does field e of w stay in its range when d is added. -/
def Fits (w : IWord) (d : Nat) (e : Nat × Nat × Nat) : Prop := Keeps w e ∨ fieldOf w.toNat e + d < e.2.2

end Sys2Proof.Claim

/-- R148: the word that a thread in a frame issues next is the captured one at IDX with each enabled field raised by PASS times
the step, the others and every other bit as captured; a register number that leaves its range traps with ILLEGAL_REGISTER and
the number, for a vector register 128 higher. A compare's bit of pw that leaves its range is an illegal encoding: the model's
choice (log 23). -/
def Sys2Proof.Claim.Staggering : Prop :=
  ∀ (s : State) (t : Thread), t.csr.repst.getLsbD 31 = true → t.frame ≠ [] →
    let r := t.csr.repst
    let w := nth t.frame (bits r 18 15) 0
    let d := bits r 24 19 * (bits r 11 8 + 1)
    let fs := Claim.staggered w (bits r 14 12)
    ((∀ e ∈ fs, Claim.Fits w d e) → ∃ x, s.nextWord t = .ok x ∧
      (∀ e ∈ fs, (Claim.Keeps w e → Claim.fieldOf x e = Claim.fieldOf w.toNat e) ∧
        (¬ Claim.Keeps w e → Claim.fieldOf x e = Claim.fieldOf w.toNat e + d)) ∧
      ∀ i, (∀ e ∈ fs, i < e.1 ∨ e.1 + e.2.1 ≤ i) → x.testBit i = w.getLsbD i) ∧
    ((∀ e ∈ fs, e.2.1 = 6 → Claim.Fits w d e) → (∃ e ∈ fs, ¬ Claim.Fits w d e) → ∃ e ∈ fs, ¬ Claim.Fits w d e ∧
      s.nextWord t = .error ⟨cREGISTER, word ((if e.2.1 = 5 then 128 else 0) + Claim.fieldOf w.toNat e + d)⟩) ∧
    (∀ e ∈ fs, e.2.1 = 6 → ¬ Claim.Fits w d e → ∃ x, s.nextWord t = .error ⟨cILLEGAL, x⟩)

/-- R147, R150, R151, R152: NOP changes nothing but the pc; YIELD ends the greedy run of its slot; HALT and TEXIT end the
thread, which is then EXITED and has no position, TEXIT once its results have returned and, with J, after a decrement of
the join word; REPF captures sixteen words and starts the frame, or traps at one that a frame may not hold. (No handler
holds back the words that REPF and TEXIT reach.) -/
def Obligations.ThreadControl : Prop :=
  (∀ (w : BitVec 1) (s : State) (t : Thread), Plain s t { packet := true } → Claim.Ends (.nop w) s w t none) ∧
  (∀ (w : BitVec 1) (s : State) (t : Thread) (p : Place), Plain s t {} → t.place = some p →
    exec (.yield w) s = .next ((s.modSlot p.core p.slot (fun q =>
      if q.pol = false ∧ q.current = some p.pos then { q with yielded := true } else q)).retire s.cur (decide (w = 1)) none)) ∧
  (∀ (w : BitVec 1) (s : State) (t : Thread), Plain s t {} → exec (.halt w) s = .next (s.leave s.cur)) ∧
  (∀ (w : BitVec 1) (a : BitVec 7) (s : State) (t : Thread), Plain s t {} →
    (t.allReturned = true → exec (.texit w a 0) s = .next ((s.settle s.cur).leave s.cur)) ∧
    (t.allReturned = false → exec (.texit w a 0) s =
      .next (s.setThread s.cur { t with hold := t.outIds, state := .ready, wait := none }))) ∧
  (∀ (w : BitVec 1) (a : BitVec 7) (s s' : State) (t : Thread) (x : Word) (l : Loc),
    Ready s t { srcs := [a.toNat], role := .address, rel := some 4 } [x] s' → t.allReturned = true →
    (s'.settle s.cur).locate t.who .atomic x 8 = .ok l → (s'.settle s.cur).lineHeld l.key = false →
    (s'.settle s.cur).lineShared l.key = false →
    exec (.texit w a 1) s = .next (((s'.settle s.cur).addAt l allOnes t.core).leave s.cur)) ∧
  (∀ (s : State) (tid : Nat) (t : Thread), s.thread tid = some t →
    (∃ u, (s.endThread tid).thread tid = some u ∧ u.state = .exited ∧ u.place = none) ∧
    ∃ u, (s.leave tid).thread tid = some u ∧ u.state = .exited ∧ u.place = none) ∧
  (∀ (w : BitVec 1) (n : BitVec 6) (m : BitVec 3) (k : BitVec 4) (s : State) (t : Thread), Plain s t {} →
    s.frameHeld t t.pc = false →
    (∀ l, s.capture t t.pc = .ok l → Claim.Ends (.repf w n m k) s w
      { t with frame := l,
               csr := { t.csr with repst := BitVec.ofNat 64 (2 ^ 31 + n.toNat * 2 ^ 25 + m.toNat * 2 ^ 12 + k.toNat * 2 ^ 8) } }
      (some (t.pc + 4))) ∧
    (∀ e, s.capture t t.pc = .error e → exec (.repf w n m k) s =
      .next { s.enterTrap s.cur false e t.pc with freeN := s.freeN + 1 }))

/-- R147: the frame is the sixteen words after the REPF, all of majors that a frame may hold. -/
def Sys2Proof.Claim.FrameCapture : Prop :=
  ∀ (s : State) (t : Thread) (pc : Word) (l : List IWord), s.capture t pc = .ok l →
    l.length = 16 ∧ (∀ x ∈ l, x.toNat / 2 ^ 25 % 64 ∈ [0x00, 0x01, 0x18, 0x19, 0x1A, 0x20, 0x21]) ∧
    ∀ i, i < 16 → ∃ n, s.fetchAt t (pc + BitVec.ofNat 64 (4 * i + 4)) = .ok n ∧ nth l i 0 = BitVec.ofNat 32 n

/-! ### Memory instructions and what their homes do -/

namespace Sys2Proof.Claim

/-- v is s with the accesses `new` issued and thread tid as t'. No byte of memory, no other thread, no core, and nothing
else of the machine differs, but what the TLBs and the check of an object's entry note (R299, R361). -/
structure Adds (tid : Nat) (s v : State) (new : List Access) (t' : Thread) : Prop where
  rest : { v with threads := s.threads, accs := s.accs, accN := s.accN, tlbs := s.tlbs, replicas := s.replicas } = s
  accs : v.accs = s.accs ++ new
  number : v.accN = s.accN + new.length
  thread : v.thread tid = some t'
  others : ∀ n, n ≠ tid → v.thread n = s.thread n
  bytes : ∀ k, v.rdByte k = s.rdByte k

/-- The outcome of one of the part's own steps: the machine is v, and the step has taken its free values. -/
def Happens (i : Instr) (s v : State) : Prop := exec i s = .next { v with freeN := v.freeN + 1 }

/-- The outcome of an instruction that retires from v with its marker. -/
def Retires (i : Instr) (s : State) (w : BitVec 1) (v : State) : Prop :=
  exec i s = .next (v.retire s.cur (decide (w = 1)) none)

/-- The outcome of an instruction that traps before anything has happened (R107, R188). -/
def Traps (i : Instr) (s : State) (t : Thread) (e : TrapRec) : Prop :=
  exec i s = .next { s.enterTrap s.cur false e t.pc with freeN := s.freeN + 1 }

/-- The outcome of an instruction with fields u that traps whatever it waited for: what stands in reserve for it has gone
back (R90). -/
def TrapsUnheld (i : Instr) (s : State) (t : Thread) (u : Use) (e : TrapRec) : Prop :=
  exec i s = .next { (s.unheld s.cur u).enterTrap s.cur false e t.pc with freeN := s.freeN + 1 }

/-- The outcome of an instruction with fields u that is held at issue until accesses are performed: where a field names a
head, what its sources give and its results need stays in reserve for it, complete (R90). -/
def Stalls (i : Instr) (s : State) (t : Thread) (u : Use) (ids : List Nat) : Prop :=
  exec i s = .next (s.stallOn s.cur u ids) ∧
  (u.named = false → exec i s = .next (s.setThread s.cur { t with hold := ids, state := .ready, wait := none })) ∧
  (u.named = true → ∃ v wt, exec i s = .next v ∧
    v.thread s.cur = some { t with hold := ids, state := .ready, wait := some wt } ∧ wt.ready = true)

/-- The outcome of an instruction whose enqueue e waits for accesses, in state v (R90). -/
def Releases (i : Instr) (s : State) (w : BitVec 1) (e : Stall) (ids : List Nat) (v : State) : Prop :=
  exec i s = .next (v.modThread s.cur (fun t =>
    { t with stalled := some e, hold := ids, marked := decide (w = 1), state := .ready, wait := none }))

/-- The scalar loads, with their bytes and whether they extend the sign (R190). -/
noncomputable def loads : List ((BitVec 1 → BitVec 7 → BitVec 7 → BitVec 3 → BitVec 8 → Instr) × Nat × Bool) :=
  [(.lds8, 1, true), (.ldn8, 1, false), (.lds16, 2, true), (.ldn16, 2, false), (.lds32, 4, true), (.ldn32, 4, false),
   (.ld64, 8, false)]

/-- The scalar stores, with their bytes (R190). -/
noncomputable def stores : List ((BitVec 1 → BitVec 7 → BitVec 7 → BitVec 3 → BitVec 8 → Instr) × Nat) :=
  [(.st8, 1), (.st16, 2), (.st32, 4), (.st64, 8)]

/-- A window register that a field names by number. -/
def window (d : BitVec 7) : List Nat := if d.toNat ≤ 111 then [d.toNat] else []

/-- The state from which an access goes on in place: with the placement hint an MT settles first (R195, R204). -/
def settledIf (hint : Prop) [Decidable hint] (s : State) (tid : Nat) : State := if hint then s.settle tid else s

/-- With the hint, an MT may access in place: its results have returned, none with a trap, its writes are complete, and it
stands at the home. -/
def AtHome (s : State) (tid : Nat) (t : Thread) (l : Loc) : Prop :=
  t.allReturned = true ∧ (∀ d ∈ t.outs, d.poison = none ∧ d.full = none) ∧ s.writeIds tid = [] ∧ l.home % 4096 = t.core

/-- The one access that an instruction issues from state s (R206), after the accesses named. -/
def access (s : State) (t : Thread) (l : Loc) (after : List Nat) (acq : Bool) (op : AccOp) : Access :=
  { id := s.accN, tid := s.cur, core := t.core, level := levelOf t.core l.home, loc := l, after := dedup after, acq := acq, op := op }

/-- The result that an instruction opens for field d, or for vector register d - 128, over what was there (R31). -/
def opened (s : State) (d n : Nat) (old : Vec) (taint : Bool) : Deferred :=
  { num := s.accN, dest := d, waiting := (List.range n).map (fun i => s.accN + i), value := old, taint := taint, flags :=
    0, poison := none }

/-- The atomics with return: bytes and operation (R196). -/
noncomputable def atomics : List ((BitVec 1 → BitVec 7 → BitVec 7 → BitVec 7 → BitVec 2 → Instr) × Nat × Rmw) :=
  [(.amo64Swap, 8, .swap), (.amo64Cas, 8, .cas), (.amo64Add, 8, .add), (.amo64Fadd, 8, .fadd),
   (.amo32Swap, 4, .swap), (.amo32Cas, 4, .cas), (.amo32Add, 4, .add), (.amo32Fadd, 4, .fadd)]

/-- The reductions without result (R197). -/
noncomputable def reducers : List ((BitVec 1 → BitVec 1 → BitVec 3 → BitVec 7 → BitVec 7 → Instr) × Rmw) :=
  [(.redAdd, .add), (.redAnd, .and), (.redOr, .or), (.redXor, .xor), (.redMax, .max), (.redMin, .min), (.redMaxn, .maxn),
   (.redMinn, .minn), (.redFadd, .fadd), (.redFmax, .fmax), (.redFmin, .fmin)]

/-- The vector atomics, by the lane type: S32, N32 or F32 for the maximum and the minimum (R198). -/
noncomputable def vectorAtomics : List ((BitVec 1 → BitVec 5 → BitVec 5 → BitVec 5 → BitVec 1 → BitVec 3 → BitVec 2 → Instr) ×
  (BitVec 3 → Rmw)) :=
  [(.vamoSwap, fun _ => .swap), (.vamoAdd, fun _ => .add), (.vamoAnd, fun _ => .and), (.vamoOr, fun _ => .or),
   (.vamoXor, fun _ => .xor), (.vamoFadd, fun _ => .fadd),
   (.vamoMax, fun ty => if ty = 0 then .fmax else if ty = 6 then .maxn else .max),
   (.vamoMin, fun ty => if ty = 0 then .fmin else if ty = 6 then .minn else .min)]

/-- A vector memory instruction: what it names, and the address of lane i for elements of e bytes (R191, R193). -/
structure LaneMem where
  instr : Instr
  use : Use
  addr : Thread → List Word → Nat → Nat → Word

/-- VLD, VLDS and VGTH (R193). -/
noncomputable def vectorLoads (w m : BitVec 1) (d x : BitVec 5) (b y : BitVec 7) (r : BitVec 2) : List LaneMem :=
  [⟨.vld w d b m r, { srcs := [b.toNat], vregs := [d.toNat], role := .address }, fun _ xs e i => arg xs 0 + word (i * e)⟩,
   ⟨.vlds w d b y m r, { srcs := [b.toNat, y.toNat], vregs := [d.toNat], role := .address },
    fun _ xs _ i => arg xs 0 + word i * arg xs 1⟩,
   ⟨.vgth w d b x m r, { srcs := [b.toNat], vregs := [d.toNat, x.toNat], role := .address },
    fun t xs _ i => arg xs 0 + (BitVec.ofNat 32 (getLane 32 i (t.vr x.toNat))).signExtend 64⟩]

/-- VST, VSTS and VSCT (R193). -/
noncomputable def vectorStores (w m : BitVec 1) (d x : BitVec 5) (b y : BitVec 7) (r : BitVec 2) : List LaneMem :=
  [⟨.vst w d b m r, { srcs := [b.toNat], vregs := [d.toNat], role := .address }, fun _ xs e i => arg xs 0 + word (i * e)⟩,
   ⟨.vsts w d b y m r, { srcs := [b.toNat, y.toNat], vregs := [d.toNat], role := .address },
    fun _ xs _ i => arg xs 0 + word i * arg xs 1⟩,
   ⟨.vsct w d b x m r, { srcs := [b.toNat], vregs := [d.toNat, x.toNat], role := .address },
    fun t xs _ i => arg xs 0 + (BitVec.ofNat 32 (getLane 32 i (t.vr x.toNat))).signExtend 64⟩]

/-- The enabled lanes from the start lane, each with its address and the place that the checks of R188 and R192 give. -/
structure Located (s : State) (t : Thread) (u : For) (base : Word) (e : Nat) (addr : Nat → Word) (lanes : List Nat)
    (ls : List (Nat × Word × Loc)) : Prop where
  lanes : ls.map (fun q => q.1) = lanes
  placed : ∀ q ∈ ls, q.2.1 = addr q.1 ∧ s.locateLane t.who u base q.2.1 e = .ok q.2.2

/-- Access j of `new` performs op at lane j's place, for thread tid. -/
def LaneAccesses (s : State) (tid : Nat) (t : Thread) (ls : List (Nat × Word × Loc)) (acq : Bool) (op : Nat → AccOp)
    (new : List Access) : Prop :=
  new.length = ls.length ∧ ∀ j q, ls[j]? = some q → ∃ a, new[j]? = some a ∧ a.id = s.accN + j ∧ a.tid = tid ∧
    a.core = t.core ∧ a.level = levelOf t.core q.2.2.home ∧ a.loc = q.2.2 ∧ a.acq = acq ∧ a.op = op q.1

/-- Access j of `new` stores the bytes of pair j at its place, for thread tid. -/
def Stored (s : State) (tid : Nat) (t : Thread) (ms : List (Word × Loc × List Byte)) (new : List Access) : Prop :=
  new.length = ms.length ∧ ∀ j q, ms[j]? = some q → ∃ a, new[j]? = some a ∧ a.id = s.accN + j ∧ a.tid = tid ∧
    a.core = t.core ∧ a.level = levelOf t.core q.2.1.home ∧ a.loc = q.2.1 ∧ a.acq = false ∧ a.op = .store q.2.2

end Sys2Proof.Claim

/-- R188, R190, R31, R93, R206, R208, R211: a scalar load. It opens a result for its destination, tainted when its ORD says
so or its base is tainted, and issues one read, after the accesses that R208 names and every earlier acquire. A failing
check of R188 traps; with 32 results open it is held. -/
def Sys2Proof.Claim.ScalarLoads : Prop :=
  ∀ op ∈ Claim.loads, ∀ (w : BitVec 1) (d b : BitVec 7) (r : BitVec 3) (o : BitVec 8) (s s' : State) (t : Thread) (x : Word),
    Ready s t { srcs := [b.toNat], regs := Claim.window d, role := .address, mtOnly := decide (r = 5) } [x] s' →
    let n := op.2.1
    let a := x + o.signExtend 64 * BitVec.ofNat 64 n
    (∀ e, s'.locate t.who .load a n = .error e →
      exec (op.1 w d b r o) s = .next { (s.noteEntry t.who e).enterTrap s.cur false e t.pc with freeN := s.freeN + 1 }) ∧
    (∀ l, s'.locate t.who .load a n = .ok l →
      (t.tooMany = true → Claim.Stalls (op.1 w d b r o) s t
        { srcs := [b.toNat], regs := Claim.window d, role := .address, mtOnly := decide (r = 5) } t.outIds) ∧
      (t.tooMany = false → (r = 5 → Claim.AtHome s' s.cur t l) → let s0 := Claim.settledIf (r = 5) s' s.cur
        ∃ u v, s0.thread s.cur = some u ∧ Claim.Retires (op.1 w d b r o) s w v ∧
          Claim.Adds s.cur s0 v
            [Claim.access s0 t l (s0.meetIds s.cur l.key n true ++ s0.acquireIds s.cur ++ s0.viewIds s.cur l n)
              (decide (r = 1 ∨ r = 6)) (.load n s0.accN (.scalar n op.2.2) false)]
            { u with outs := u.outs ++ [Claim.opened s0 d.toNat 1 0 (decide (r = 2) || Claim.taints t [b.toNat])] }) ∧
      (t.tooMany = false → r = 5 → t.allReturned = true → s'.writeIds s.cur = [] → l.home % 4096 ≠ t.core →
        exec (op.1 w d b r o) s = .next ((s'.settle s.cur).sendTo s.cur (l.home % 4096))))

/-- R188, R190, R206, R208, R210: a scalar store issues one write of its low bytes; with a release, after every access that
R210 orders before it. The register file and memory stay as they are until the write is performed. -/
def Sys2Proof.Claim.ScalarStores : Prop :=
  ∀ op ∈ Claim.stores, ∀ (w : BitVec 1) (d b : BitVec 7) (r : BitVec 3) (o : BitVec 8) (s s' : State) (t : Thread)
    (x y : Word),
    Ready s t { srcs := [b.toNat, d.toNat], role := .address, mtOnly := decide (r = 5) } [x, y] s' →
    let n := op.2
    let a := x + o.signExtend 64 * BitVec.ofNat 64 n
    (∀ e, s'.locate t.who .store a n = .error e → Claim.Traps (op.1 w d b r o) s t e) ∧
    (∀ l, s'.locate t.who .store a n = .ok l →
      ((r = 5 → Claim.AtHome s' s.cur t l) → let s0 := Claim.settledIf (r = 5) s' s.cur
        ∃ u v, s0.thread s.cur = some u ∧ Claim.Retires (op.1 w d b r o) s w v ∧
          Claim.Adds s.cur s0 v
            [Claim.access s0 t l ((s0.noteTlb t.core a).meetIds s.cur l.key n false ++ s0.acquireIds s.cur ++
              if r = 1 then s0.releaseIds s.cur 4 else []) false (.store (bytesOf n y.toNat))] u) ∧
      (r = 5 → t.allReturned = true → s'.writeIds s.cur = [] → l.home % 4096 ≠ t.core →
        exec (op.1 w d b r o) s = .next ((s'.settle s.cur).sendTo s.cur (l.home % 4096))))

/-- R191 to R194: the vector loads and stores. Every enabled lane from the start lane issues one access, a load into one
result that keeps VD in the other lanes; a lane that fails a check traps with `tprog` naming it. -/
def Sys2Proof.Claim.VectorMemory : Prop :=
  ∀ (w m : BitVec 1) (d x : BitVec 5) (b y : BitVec 7) (r : BitVec 2) (s s' : State) (t : Thread) (xs : List Word),
    let base := arg xs 0
    let win := (laneRegion base).window
    let e := windowSize win
    let lanes := (List.range 16).filter (fun i => decide (t.startLane ≤ i) && (decide (m = 0) || t.pw.getLsbD i))
    (∀ op ∈ Claim.vectorLoads w m d x b y r, Ready s t op.use xs s' →
      (∀ ls, Claim.Located s' t .load base e (op.addr t xs e) lanes ls → t.tooMany = false →
        ∃ u v new, s'.thread s.cur = some u ∧ Claim.Retires op.instr s w v ∧
          Claim.LaneAccesses s' s.cur t ls (decide (r = 1)) (fun i => .load e s'.accN (.lane i win) false) new ∧
          Claim.Adds s.cur s' v new
            (({ u with outs := u.outs ++ [Claim.opened s' (128 + d.toNat) ls.length (t.vr d.toNat) false] } : Thread).stopAt none)) ∧
      (∀ ls i rest f, Claim.Located s' t .load base e (op.addr t xs e) (lanes.take ls.length) ls →
        lanes = lanes.take ls.length ++ i :: rest → s'.locateLane t.who .load base (op.addr t xs e i) e = .error f →
        t.job = none → t.tooMany = false →
        ∃ v u, exec op.instr s = .next v ∧ v.thread s.cur = some u ∧ u.state = .trapped ∧ u.csr.tcause = word f.code ∧
          u.csr.tval = f.tval ∧ u.csr.tepc = t.pc ∧ u.csr.tprog = word (64 + i))) ∧
    (∀ op ∈ Claim.vectorStores w m d x b y r, Ready s t op.use xs s' →
      let lane := fun i => storeLane win (rmOf t.csr.fcsr) (getLane 32 i (t.vr d.toNat))
      (∀ ls, Claim.Located s' t .store base e (op.addr t xs e) lanes ls →
        ∃ u v new, s'.thread s.cur = some u ∧ Claim.Retires op.instr s w v ∧
          Claim.Stored s' s.cur t (mergeLanes ls (fun i => (lane i).1)) new ∧
          Claim.Adds s.cur s' v new ((u.addFlags (ls.foldl (fun fl q => fl ||| (lane q.1).2) 0#5)).stopAt none)) ∧
      (∀ ls i rest f, Claim.Located s' t .store base e (op.addr t xs e) (lanes.take ls.length) ls →
        lanes = lanes.take ls.length ++ i :: rest → s'.locateLane t.who .store base (op.addr t xs e i) e = .error f →
        t.job = none →
        ∃ v u, exec op.instr s = .next v ∧ v.thread s.cur = some u ∧ u.state = .trapped ∧ u.csr.tcause = word f.code ∧
          u.csr.tval = f.tval ∧ u.csr.tepc = t.pc ∧ u.csr.tprog = word (64 + i)))

/-- R215, R192: the stores of a vector store. Lanes outside the scratchpads, and lanes that leave a byte of their scratchpad
word unwritten, are a store each, of the lane's bytes at its place; lanes that together write a whole scratchpad word are one
store of sixteen bytes, each byte from the last lane that reaches it. -/
def Sys2Proof.Claim.MergedStores : Prop :=
  ∀ (ls : List (Nat × Word × Loc)) (bytes : Nat → List Byte),
    let key := fun (q : Nat × Word × Loc) => q.2.2.key
    let reaches := fun (q : Nat × Word × Loc) (k : Nat) => key q ≤ k ∧ k < key q + (bytes q.1).length
    ((∀ q ∈ ls, key q < 2 ^ 44 ∨ 2 ^ 45 ≤ key q ∨
        ∃ i, i < 16 ∧ ∀ p ∈ ls, key p / 16 = key q / 16 → ¬ reaches p (key q / 16 * 16 + i)) →
      mergeLanes ls bytes = ls.map (fun q => (q.2.1, q.2.2, bytes q.1))) ∧
    (∀ b : Nat, b % 16 = 0 → 2 ^ 44 ≤ b → b < 2 ^ 45 → ls ≠ [] → (ls.map (fun q => q.1)).Nodup → (∀ q ∈ ls, key q / 16 * 16 = b) →
      (∀ i, i < 16 → ∃ q ∈ ls, reaches q (b + i)) →
      ∃ e, mergeLanes ls bytes = [e] ∧ e.2.1.key = b ∧ e.2.2.length = 16 ∧
        ∀ i p q r, i < 16 → ls = p ++ q :: r → reaches q (b + i) → (∀ u ∈ r, ¬ reaches u (b + i)) →
          e.2.2[i]? = (bytes q.1)[b + i - key q]?)

/-- R195, R196, R197, R210, R211: the atomics. One with return opens a result and issues a read-modify-write that reads its
comparand through D; a reduction issues one without result, as a release at its scope. -/
def Sys2Proof.Claim.ScalarAtomics : Prop :=
  (∀ op ∈ Claim.atomics, ∀ (w : BitVec 1) (d a b : BitVec 7) (r : BitVec 2) (s s' : State) (t : Thread) (x y : Word),
    Ready s t { srcs := [a.toNat, b.toNat], regs := Claim.window d, role := .address } [x, y] s' →
    let n := op.2.1
    (∀ e, s'.locate t.who .atomic x n = .error e → Claim.Traps (op.1 w d a b r) s t e) ∧
    (∀ l, s'.locate t.who .atomic x n = .ok l →
      (t.tooMany = true → Claim.Stalls (op.1 w d a b r) s t
        { srcs := [a.toNat, b.toNat], regs := Claim.window d, role := .address } t.outIds) ∧
      (t.tooMany = false → (t.kind = .mt → Claim.AtHome s' s.cur t l) →
        let s0 := Claim.settledIf (t.kind = .mt) s' s.cur
        ∃ u v, s0.thread s.cur = some u ∧ Claim.Retires (op.1 w d a b r) s w v ∧
          Claim.Adds s.cur s0 v
            [Claim.access s0 t l (s0.meetIds s.cur l.key n true ++ s0.acquireIds s.cur ++
                if r.getLsbD 1 then s0.releaseIds s.cur 4 else []) (r.getLsbD 0)
              (.rmw op.2.2 n y (if d.toNat ≤ 111 then t.xr d.toNat else 0) (some (s0.accN, .whole)))]
            { u with outs := u.outs ++ [Claim.opened s0 d.toNat 1 0 (Claim.taints t [a.toNat, b.toNat])] }) ∧
      (t.tooMany = false → t.kind = .mt → t.allReturned = true → s'.writeIds s.cur = [] → l.home % 4096 ≠ t.core →
        exec (op.1 w d a b r) s = .next ((s'.settle s.cur).sendTo s.cur (l.home % 4096))))) ∧
  (∀ op ∈ Claim.reducers, ∀ (w z : BitVec 1) (c : BitVec 3) (a b : BitVec 7) (s s' : State) (t : Thread) (x y : Word),
    Ready s t { srcs := [a.toNat, b.toNat], role := .address } [x, y] s' →
    let n := if z = 1 then 4 else 8
    (∀ e, s'.locate t.who .atomic x n = .error e → Claim.Traps (op.1 w z c a b) s t e) ∧
    (∀ l, s'.locate t.who .atomic x n = .ok l →
      ∃ u v, s'.thread s.cur = some u ∧ Claim.Retires (op.1 w z c a b) s w v ∧
        Claim.Adds s.cur s' v
          [Claim.access s' t l ((s'.noteTlb t.core x).meetIds s.cur l.key n false ++ s'.acquireIds s.cur ++
            if c = 0 then [] else s'.releaseIds s.cur c.toNat) false (.rmw op.2 n y 0 none)] u))

/-- R198: a vector atomic issues one read-modify-write for each enabled lane of eight, at the addresses in VA with the
operands in VB, and the old values come back into VD. -/
def Sys2Proof.Claim.VectorAtomics : Prop :=
  ∀ op ∈ Claim.vectorAtomics, ∀ (w m : BitVec 1) (d a b : BitVec 5) (ty : BitVec 3) (r : BitVec 2) (s s' : State)
    (t : Thread) (ls : List (Nat × Word × Loc)),
    Ready s t { vregs := [d.toNat, a.toNat, b.toNat], role := .address } [] s' → t.tooMany = false →
    ls.map (fun q => q.1) =
      (List.range 8).filter (fun i => decide (t.startLane ≤ i) && (decide (m = 0) || t.pw.getLsbD i)) →
    (∀ q ∈ ls, q.2.1 = word (getLane 64 q.1 (t.vr a.toNat)) ∧ s'.locate t.who .atomic q.2.1 4 = .ok q.2.2) →
    ∃ u v new, s'.thread s.cur = some u ∧ Claim.Retires (op.1 w d a b m ty r) s w v ∧
      Claim.LaneAccesses s' s.cur t ls (r.getLsbD 0)
        (fun i => .rmw (op.2 ty) 4 (word (getLane 32 i (t.vr b.toNat))) 0 (some (s'.accN, .old i))) new ∧
      Claim.Adds s.cur s' v new
        (({ u with outs := u.outs ++ [Claim.opened s' (128 + d.toNat) ls.length (t.vr d.toNat) false] } : Thread).stopAt none)

/-- R201, R202, R203: LDFE takes a full word and empties it, LDFEC takes it and leaves it full, either registers a waiter at an
empty one, unless its destination is a stage output that would not accept its item, which traps first; STFE issues a releasing
store that fills; WAITGE passes once the word is at least its operand, or registers a waiter. While a directory-overflow handler
serves the line (R185), each registers its waiter. -/
def Sys2Proof.Claim.FullEmptyAndWaits : Prop :=
  (∀ (w : BitVec 1) (d a : BitVec 7) (s s' : State) (t u : Thread) (x : Word) (l : Loc) (empties : Bool),
    Ready s t { srcs := [a.toNat], dst := some d.toNat, role := .address, acq := true } [x] s' → s'.thread s.cur = some u →
    s'.locate t.who .fullEmpty x 8 = .ok l → s'.meetIds s.cur l.key 8 true = [] →
    let i : Instr := if empties then .ldfe w d a else .ldfec w d a
    (d.toNat ≤ 111 ∨ 124 ≤ d.toNat → s'.isFull l.key = true → s'.lineHeld l.key = false → s'.poisoned l.key 8 = none →
      Claim.Retires i s w (((if empties then (s'.noteTlb t.core x).setFull l.key false else s'.noteTlb t.core x)).setThread s.cur
        (u.writes d.toNat (s'.rdWord l.key) (Claim.taints t [a.toNat])))) ∧
    (∀ r, s'.isFull l.key = false ∨ s'.lineHeld l.key = true →
      (s'.noteTlb t.core x).outputTrap s.cur d.toNat 1 = some r → Claim.Traps i s t r) ∧
    (s'.isFull l.key = false ∨ s'.lineHeld l.key = true → (s'.noteTlb t.core x).outputTrap s.cur d.toNat 1 = none →
      ∃ v q wt, exec i s = .next v ∧ v.thread s.cur = some q ∧ q.state = .blocked ∧ q.wait = some wt ∧ wt.what = .word ∧
        v.waiters = s'.waiters ++ [⟨s.cur, l, if empties then .ldfe else .ldfec, d.toNat, Claim.taints t [a.toNat], decide (w = 1)⟩] ∧
        ∀ k, v.rdByte k = s'.rdByte k)) ∧
  (∀ (w : BitVec 1) (d a : BitVec 7) (s s' : State) (t : Thread) (x y : Word) (l : Loc),
    Ready s t { srcs := [d.toNat, a.toNat], role := .address } [x, y] s' → s'.locate t.who .stfe y 8 = .ok l →
    ∃ u v, s'.thread s.cur = some u ∧ Claim.Retires (.stfe w d a) s w v ∧
      Claim.Adds s.cur s' v
        [Claim.access s' t l ((s'.noteTlb t.core y).meetIds s.cur l.key 8 false ++ s'.acquireIds s.cur ++
          s'.releaseIds s.cur 4) false (.stfe x)] u) ∧
  (∀ (w : BitVec 1) (d a : BitVec 7) (s s' : State) (t : Thread) (x y : Word) (l : Loc),
    Ready s t { srcs := [d.toNat, a.toNat], role := .address, acq := true } [x, y] s' →
    s'.locate t.who .waitge y 8 = .ok l → s'.meetIds s.cur l.key 8 true = [] → s'.poisoned l.key 8 = none →
    (x.toNat ≤ (s'.rdWord l.key).toNat → s'.lineHeld l.key = false → Claim.Retires (.waitge w d a) s w (s'.noteTlb t.core y)) ∧
    ((s'.rdWord l.key).toNat < x.toNat ∨ s'.lineHeld l.key = true →
      ∃ v q wt, exec (.waitge w d a) s = .next v ∧ v.thread s.cur = some q ∧ q.state = .blocked ∧ q.wait = some wt ∧
        wt.what = .word ∧ v.waiters = s'.waiters ++ [⟨s.cur, l, .waitge x, 124, false, decide (w = 1)⟩] ∧
        ∀ k, v.rdByte k = s'.rdByte k))

/-- R200, R204, R205: FENCE waits for the writes in its scope and makes the earlier reads ones that every later access
follows; MIGRATE moves an MT to the home of an address, once its results have returned and its writes are complete;
PREFETCH changes no value, and does nothing at an address that would fault. -/
def Sys2Proof.Claim.FenceMigratePrefetch : Prop :=
  (∀ (w : BitVec 1) (c : BitVec 3) (s : State) (t : Thread), Plain s t {} →
    let held := (s.accs.filter (fun a => a.tid = s.cur && a.op.isWrite && decide (a.level ≤ c.toNat))).map (fun a => a.id)
    (held ≠ [] → Claim.Stalls (.fence w c) s t {} held) ∧
    (held = [] → Claim.Retires (.fence w c) s w
      { s with accs := s.accs.map (fun a => if a.tid = s.cur && a.op.isRead then { a with acq := true } else a) })) ∧
  (∀ (w : BitVec 1) (a : BitVec 7) (s s' : State) (t : Thread) (x : Word),
    Ready s t { srcs := [a.toNat], role := .address } [x] s' →
    (t.kind ≠ .mt → Claim.Traps (.migrate w a) s t ⟨cMIGRATE, x⟩) ∧
    (∀ l, t.kind = .mt → s'.locate t.who .migrate x 1 = .ok l → t.allReturned = true → s'.writeIds s.cur = [] →
      let v := (s'.settle s.cur).noteTlb t.core x
      (l.home % 4096 = t.core → Claim.Retires (.migrate w a) s w v) ∧
      (l.home % 4096 ≠ t.core →
        exec (.migrate w a) s = .next ((v.retire s.cur false none).sendTo s.cur (l.home % 4096))))) ∧
  (∀ (w p : BitVec 1) (a : BitVec 7) (s s' : State) (t : Thread) (x : Word),
    Ready s t { srcs := [a.toNat], role := .address } [x] s' →
    Claim.Retires (.prefetch w a p) s w (match s'.locate' t.who .load x 1 with
      | .ok l => if l.kind ≤ 1 ∨ l.kind = 4 ∨ l.kind = 5 then s'.noteTlb t.core x else s'
      | .error _ => s'))

/-- R153: GRD reads a g register of the core, untainted, behind the thread's own writes of it; GWR issues a write of one
at the core's own slice, and that write changes the one register. The model's choices of log entry 61 are part of it. -/
def Obligations.GlobalRegisters : Prop :=
  (∀ (w : BitVec 1) (d : BitVec 7) (g : BitVec 5) (s : State) (t : Thread), Plain s t { dst := some d.toNat, acq := true } →
    Unordered s t { dst := some d.toNat, acq := true } → s.meetIds s.cur (gLoc t.core g.toNat).key 1 true = [] →
    Claim.Ends (.grd w d g) s w (t.writes d.toNat (nth (s.core t.core).g g.toNat 0) false) none) ∧
  (∀ (w : BitVec 1) (d : BitVec 7) (g : BitVec 5) (s s' : State) (t : Thread) (x : Word), Ready s t { srcs := [d.toNat] } [x] s' →
    ∃ u v, s'.thread s.cur = some u ∧ Claim.Retires (.gwr w d g) s w v ∧
      Claim.Adds s.cur s' v
        [Claim.access s' t (gLoc t.core g.toNat) (s'.meetIds s.cur (gLoc t.core g.toNat).key 1 false ++ s'.acquireIds s.cur)
          false (.gwr g.toNat x)] u) ∧
  (∀ (s : State) (id g : Nat) (a : Access) (x : Word), s.performable id = some a → a.op = .gwr g x → s.arrivals = [] →
    s.lineHeld a.loc.key = false →
    ∃ v, exec (.homeWrite id) s = .next v ∧ (v.core a.core).g = modify (s.core a.core).g g (fun _ => x) ∧
      (∀ c, c ≠ a.core → (v.core c).g = (s.core c).g) ∧ ∀ k, v.rdByte k = s.rdByte k)

/-- R182, R186, R187, R206: a store is performed at its home. Its bytes are written and no other byte changes; the access is
no longer outstanding. (Nothing waits for the words it writes here: Claim.WokenAtAWrite and Claim.WatchFirings say what
happens then.) A write of a line with overflowed sharers first starts the handler that invalidates them (R185). In a control
word of the launch-queue table a 1 clears NP and the reserved bits stay 0 (R7, R40); words 0 to 7 of the fabric table ignore
stores (R326); bytes stored elsewhere are as they are. -/
def Sys2Proof.Claim.StoresAtTheirHome : Prop :=
  (∀ (s : State) (k : Nat) (bs : List Byte), (∀ i, k ≤ i → i < k + bs.length →
      ¬ (s.lqtKey 1 ≤ i ∧ i < s.lqtKey 17) ∧ ¬ (s.ftKey 0 ≤ i ∧ i < s.ftKey 64)) →
    s.fieldBytes k bs = bs) ∧
  (∀ (s : State) (k : Nat) (b : Byte), s.ftKey 0 ≤ k → k < s.ftKey 64 → s.fieldBytes k [b] = [s.rdByte k]) ∧
  (∀ (s : State) (q i : Nat) (b : Byte), q < 16 → i < 8 →
    ¬ (s.ftKey 0 ≤ s.lqtKey (1 + q) + i ∧ s.lqtKey (1 + q) + i < s.ftKey 64) →
    s.fieldBytes (s.lqtKey (1 + q) + i) [b] =
      [if i = 0 then b
       else if i = 1 then (b &&& 1#8) ||| (s.rdByte (s.lqtKey (1 + q) + 1) &&& ~~~b &&& 2#8)
       else 0]) ∧
  (∀ (s : State) (id : Nat) (a : Access) (bs : List Byte), s.performable id = some a → a.op = .store bs →
    s.lineHeld a.loc.key = false → s.lineShared a.loc.key = true → (s.core (a.loc.home % 4096)).slots.length = 8 →
    ∃ v : State, exec (.homeWrite id) s = .next v ∧ v.lineHeld a.loc.key = true ∧ v.lineShared a.loc.key = false ∧
      v.accs = s.accs ∧ v.threads = s.threads ∧ (∀ k, v.rdByte k = s.rdByte k)) ∧
  ∀ (s : State) (id : Nat) (a : Access) (bs : List Byte), s.performable id = some a → a.op = .store bs → s.MemWf →
    s.lineHeld a.loc.key = false → s.lineShared a.loc.key = false →
    s.waiters = [] → s.arrivals = [] → (∀ k, a.loc.key ≤ k → k < a.loc.key + bs.length → inControl k = false) →
    ∃ v, exec (.homeWrite id) s = .next v ∧ v.accs = s.accs.filter (fun b => b.id ≠ a.id) ∧ v.MemWf ∧
      v.threads = s.threads ∧ ∀ k, v.rdByte k =
        if a.loc.key ≤ k ∧ k < a.loc.key + bs.length then nth (s.fieldBytes a.loc.key bs) (k - a.loc.key) 0 else s.rdByte k

/-- R186: an uncorrectable error of memory marks the atom or scratchpad word poisoned; a correctable one marks nothing. No
thread and no access sees either before it reads there. -/
def Sys2Proof.Claim.MemoryErrors : Prop :=
  ∀ (s : State) (k : Nat) (p : Option Nat) (rest : List Choice), s.agenda = .memoryError k p :: rest → s.mgmt.power = 0 →
    k < hbmEnd ∨ (∃ c o, c < 2048 ∧ o < scratchSize ∧ k = scratchKey c o) →
    ∃ v : State, step s = .next (v.after s) ∧ v.threads = s.threads ∧ v.accs = s.accs ∧ v.cores = s.cores ∧
      v.poison = if p = none ∧ ¬ atomOf k ∈ s.poison then s.poison ++ [atomOf k] else s.poison

/-- R32, R190, R206: a load of memory returns. Its bytes go to the result it was issued for, extended as the instruction
says, and to nothing else; a thread whose results have all returned while it is PARKED goes on. -/
def Sys2Proof.Claim.LoadsReturn : Prop :=
  ∀ (s : State) (id n num : Nat) (sgn q : Bool) (a : Access) (t : Thread), s.performable id = some a →
    a.op = .load n num (.scalar n sgn) q → a.id = id → a.loc.kind ≠ 3 → s.lineHeld a.loc.key = false →
      s.poisoned a.loc.key n = none → s.thread a.tid = some t →
    let value := if sgn then ofSigned 64 (toSigned (8 * n) (s.rdNum a.loc.key n)) else s.rdNum a.loc.key n
    let outs := t.outs.map (fun d => if d.num = num then
      { d with value := BitVec.ofNat 512 value, waiting := d.waiting.filter (fun i => i ≠ id) } else d)
    ∃ v u, exec (.deferredResultReturn id) s = .next v ∧ v.thread a.tid = some u ∧ v.accs = s.accs.filter (fun b => b.id ≠ id) ∧
      (t.state = .ready ∨ t.state = .blocked → u = { t with outs := outs } ∧ v.mem = s.mem) ∧
      (t.state = .parked → outs.all (fun d => d.waiting.isEmpty) = true → u.state = .ready ∧ u.outs = []) ∧
      (t.state = .parked → outs.all (fun d => d.waiting.isEmpty) = false → u = { t with outs := outs })

/-- R195 to R198: the values of the read-modify-writes, on operands of w bytes, 4 or 8; the floating-point members compute on
F32 or F64, FADD rounded to nearest even. -/
def Sys2Proof.Claim.ReadModifyWriteValues : Prop :=
  ∀ (w old b cmp : Nat), w = 4 ∨ w = 8 → old < 2 ^ (8 * w) → b < 2 ^ (8 * w) → cmp < 2 ^ (8 * w) →
    rmwValue .swap w old b cmp = b ∧ rmwValue .cas w old b cmp = (if old = cmp then b else old) ∧
    rmwValue .add w old b cmp = (old + b) % 2 ^ (8 * w) ∧ rmwValue .and w old b cmp = old &&& b ∧
    rmwValue .or w old b cmp = old ||| b ∧ rmwValue .xor w old b cmp = old ^^^ b ∧
    toSigned (8 * w) (rmwValue .max w old b cmp) = max (toSigned (8 * w) old) (toSigned (8 * w) b) ∧
    toSigned (8 * w) (rmwValue .min w old b cmp) = min (toSigned (8 * w) old) (toSigned (8 * w) b) ∧
    rmwValue .maxn w old b cmp = max old b ∧ rmwValue .minn w old b cmp = min old b ∧
    let f := if w = 4 then F32 else F64
    rmwValue .fadd w old b cmp = (fadd f .rne old b).1 ∧ rmwValue .fmax w old b cmp = (fmax f old b).1 ∧
    rmwValue .fmin w old b cmp = (fmin f old b).1

/-- R195, R196, R206: an atomic is performed at its home in one step: the old value comes back, the new one stands in memory,
and no other byte changes. -/
def Sys2Proof.Claim.AtomicsAtTheirHome : Prop :=
  ∀ (s : State) (id n num : Nat) (op : Rmw) (x c : Word) (a : Access) (t : Thread), s.performable id = some a → a.id = id →
    a.op = .rmw op n x c (some (num, .whole)) → s.MemWf → s.lineHeld a.loc.key = false → s.lineShared a.loc.key = false →
      s.poisoned a.loc.key n = none → s.waiters = [] →
    s.thread a.tid = some t → t.state = .ready →
    (∀ k, a.loc.key ≤ k → k < a.loc.key + n → inControl k = false) →
    let old := s.rdNum a.loc.key n
    let new := rmwValue op n old x.toNat c.toNat
    ∃ v, exec (.deferredResultReturn id) s = .next v ∧ v.MemWf ∧
      v.thread a.tid = some { t with outs := t.outs.map (fun d => if d.num = num then
        { d with value := BitVec.ofNat 512 old, waiting := d.waiting.filter (fun i => i ≠ id) } else d) } ∧
      ∀ k, v.rdByte k = if a.loc.key ≤ k ∧ k < a.loc.key + n ∧ (op = .cas → old = c.toNat % 2 ^ (8 * n))
        then nth (s.fieldBytes a.loc.key (bytesOf n new)) (k - a.loc.key) 0 else s.rdByte k

namespace Sys2Proof.Claim

/-- Does the word at k let a waiter of this kind pass (R201, R202, R233). -/
def passes (s : State) (k : Nat) (w : WaiterKind) : Bool :=
  match w with
  | .ldfe => s.isFull k
  | .ldfec => s.isFull k
  | .waitge x => decide (x.toNat ≤ (s.rdWord k).toNat)
  | .joinw => decide (s.rdWord k = 0)

/-- Thread t waits with sources and a destination that name no head: w is its registration. -/
structure Registered (s : State) (w : Waiter) (t : Thread) : Prop where
  here : s.thread w.tid = some t
  wait : ∀ q, t.wait = some q → q.grip = [] ∧ q.ready = false ∧ ∀ f ∈ q.srcs, f ≤ 111 ∨ 124 ≤ f
  dest : w.dest ≤ 111 ∨ 124 ≤ w.dest
  unmarked : w.marked = false

/-- What has become of thread t, whose registration w at the word at k has passed, in v (R50, R201 to R203, R233): LDFE and
LDFEC give the word, WAITGE and JOINW go on; an MT that JOINW saved goes to the bottom of the deque of core c. -/
def Passed (s v : State) (w : Waiter) (t : Thread) (k c : Nat) : Prop :=
  match w.kind with
  | .ldfe => v.thread w.tid = some ((t.writes w.dest (s.rdWord k) w.taint).after none) ∧ v.isFull k = false
  | .ldfec => v.thread w.tid = some ((t.writes w.dest (s.rdWord k) w.taint).after none) ∧ v.isFull k = true
  | .waitge _ => v.thread w.tid = some (t.after none)
  | .joinw =>
    if t.kind = .mt then
      v.thread w.tid = some { t with state := .unplaced, core := c, origin := c } ∧ (v.core c).deque.getLast? = some w.tid
    else v.thread w.tid = some (t.after none)

/-- The state in which an access has written the word at its place (R182, R187): what a store leaves in the full/empty bit
is as its mapping says, and STFE fills it. -/
def wordWritten (s : State) (a : Access) : State :=
  let q := (s.dropAcc a.id).wrBytes a.loc.key (s.fieldBytes a.loc.key (match a.op with
    | .store bs => bs
    | .stfe x => bytesOf 8 x.toNat
    | _ => []))
  match a.op with
  | .stfe _ => q.setFull a.loc.key true
  | _ => (q.clearPoison a.loc.key 8).emptyWords a.loc 8

end Sys2Proof.Claim

/-- R203, R201, R202, R233, R50: a store or an STFE of a whole word evaluates the waiters of the word once it is written,
then its watch entries. A waiter whose condition does not hold stays; one whose condition holds leaves the list and its
instruction completes. Of several LDFE and LDFEC, an LDFE that takes the word leaves those registered after it waiting. -/
def Sys2Proof.Claim.WokenAtAWrite : Prop :=
  (∀ (s : State) (id : Nat) (a : Access), s.performable id = some a → a.loc.key % 8 = 0 →
    (∃ bs, a.op = .store bs ∧ bs.length = 8) ∨ (∃ x, a.op = .stfe x) →
    s.lineHeld a.loc.key = false → s.lineShared a.loc.key = false →
    Claim.Happens (.homeWrite id) s (((((Claim.wordWritten s a).evalWaiters a.loc.key a.loc.home).evalWatch a.loc.key
      a.loc.home).arrivalDone a.id).pruneTrailing a.core)) ∧
  (∀ (s : State) (k c : Nat) (w : Waiter) (t : Thread), s.waiters.filter (fun q => decide (q.loc.key = k)) = [w] →
    Claim.Registered s w t → s.poisoned k 8 = none →
    (Claim.passes s k w.kind = false → s.evalWaiters k c = s) ∧
    (Claim.passes s k w.kind = true → let v := s.evalWaiters k c
      v.waiters = s.waiters.filter (fun q => q.tid ≠ w.tid) ∧ Claim.Passed s v w t k c ∧ ∀ j, v.rdByte j = s.rdByte j)) ∧
  (∀ (s : State) (k c : Nat) (w : Waiter) (r : List Waiter) (t : Thread),
    s.waiters.filter (fun q => decide (q.loc.key = k)) = w :: r → w.kind = .ldfe →
    (∀ q ∈ r, q.tid ≠ w.tid ∧ (q.kind = .ldfe ∨ q.kind = .ldfec)) → Claim.Registered s w t → s.poisoned k 8 = none →
    s.isFull k = true → let v := s.evalWaiters k c
    v.waiters = s.waiters.filter (fun q => q.tid ≠ w.tid) ∧ Claim.Passed s v w t k c ∧
      ∀ q ∈ r, v.thread q.tid = s.thread q.tid)

namespace Sys2Proof.Claim

/-- The condition of a watch entry on a word, with threshold T (R273): at least T, equal to T, or every bit of T. -/
def Meets (w : Watch) (x T : Word) : Prop :=
  match bits (nth w.words 1 0) 1 0 with
  | 0 => T.toNat ≤ x.toNat
  | 1 => x = T
  | _ => x &&& T = T

/-- The threshold of a watch entry after i more firings (R274). -/
def threshold (w : Watch) (i : Nat) : Word := w.t + BitVec.ofNat 64 i * nth w.words 3 0

end Sys2Proof.Claim

/-- R274, R273: an ARMED entry on the word at k, evaluated on the value x that a write has left there, fires as long as its
condition holds and repeats are left, each firing with its number, x and its threshold; then it is ARMED with the next
threshold, or, its last firing made, RETIRING. A COPY reads its parameter block at the firing. Other entries are as they
were. -/
def Sys2Proof.Claim.WatchFirings : Prop :=
  ∀ (s : State) (k c n : Nat) (w : Watch), (s.watchTable c)[n]? = some w →
    let x := s.rdWord k
    let u := nth ((s.evalWatch k c).watchTable c) n {}
    (w.state ≠ 1 ∨ w.loc.key ≠ k → u = w) ∧
    (w.state = 1 → w.loc.key = k → ∃ m, m ≤ w.r + 1 ∧ (∀ i, i < m → Claim.Meets w x (Claim.threshold w i)) ∧
      u.k = w.k + m ∧ u.pend.length = w.pend.length + m ∧ u.pend.take w.pend.length = w.pend ∧
      (∀ i, i < m → ∃ f, u.pend[w.pend.length + i]? = some f ∧ f.k = w.k + i ∧ f.x = x ∧ f.t = Claim.threshold w i ∧
        (bits (nth w.words 1 0) 3 2 = 0 → ∀ ls, s.checkWords ⟨w.user, w.lnum, c⟩ (nth w.words 4 0) 16 = .ok ls →
          (∀ l ∈ ls, s.readPoison l 8 = none) → f.block = s.wordsAt ls ∧ f.fault = none)) ∧
      ((m = w.r + 1 ∧ u.state = 2) ∨
       (m ≤ w.r ∧ u.state = 1 ∧ u.r = w.r - m ∧ u.t = Claim.threshold w m ∧ ¬ Claim.Meets w x (Claim.threshold w m))))

/-! ### Threads, launches, channels, items and barriers -/

namespace Sys2Proof.Claim

/-- The outcome of an instruction that blocks with nothing dequeued, and is issued again: what its sources give and what
its destinations need stands in reserve (R30, R90). -/
def Waits (i : Instr) (s : State) (srcs dsts : List Nat) (what : WaitOn) (tval : Word) : Prop :=
  exec i s = .next { (s.blockOn s.cur what tval srcs dsts).takeGrip s.cur srcs dsts false with freeN := s.freeN + 1 }

/-- The outcome of an instruction that gives x through destination field d, untainted, in state v. -/
def Gives (i : Instr) (s : State) (w : BitVec 1) (d : BitVec 7) (x : Word) (v : State) : Prop :=
  Opens v s.cur d.toNat x → Retires i s w (v.writeField s.cur d.toNat x false)

/-- The MT that a FORK or a SPAWN adds: its registers, then zeros (R39, R232, R273). -/
def mtOf (lnum num core : Nat) (pc : Word) (x : List Word) (taint : List Bool) : Thread :=
  { newThread .mt .general lnum num 24 0 core pc x with taint := fit 24 false taint }

/-- Core c's channel n with its entries replaced. -/
def withEntries (s : State) (c n : Nat) (l : List Vec) : State :=
  s.modCore c (fun k => { k with chans := modify k.chans n (fun h => { h with entries := l }) })

/-- Does the launch of thread t run a pipeline. -/
def inPipeline (s : State) (t : Thread) : Bool :=
  match s.launchOf t.lnum with
  | some l => l.pipeline
  | none => false

/-- The number of the next MT of launch n: its threads at the start, then its FORKs and SPAWNs (R39). -/
def nextNumber (s : State) (n : Nat) : Nat :=
  match s.launchOf n with
  | some l => l.created + l.forked
  | none => 0

/-- Thread t may use barrier object n: it is anchored, of a launch that owns the object, and objects work in this mode
(R252). -/
def MayUse (s : State) (t : Thread) (n : Nat) : Prop :=
  t.kind = .anchored ∧ (s.mode = .service ∨ s.replaying = true) ∧
  ∃ l, s.launchOf t.lnum = some l ∧ l.bar0 ≤ n ∧ n < l.bar0 + l.barn

/-- The participants of an object once thread tid has joined it. -/
def joined (b : Barrier) (tid : Nat) (sc : Nat) : Barrier :=
  if tid ∈ b.parts then b
  else { b with scope := if b.parts.isEmpty then (if sc ≥ 5 then 4 else sc) else b.scope, parts := b.parts ++ [tid] }

/-- The words of the packet once x is added, with the mark on the last (R243). -/
def packetWords (t : Thread) (x : Word) : List Word := ((t.packet.map (fun p => p.words)).getD []) ++ [x]

end Sys2Proof.Claim

/-- R232, R39: FORK creates an MT of the issuing thread's launch: copies of its first N registers with their taint, zeros
beyond, the next number of the launch, and a place at the bottom of its core's deque. With a join word, that is incremented
first; the child waits until what the FORK releases has been performed. A misaligned entry or a PIPELINE launch traps. -/
def Sys2Proof.Claim.ForkCreatesMicrothread : Prop :=
  (∀ (w : BitVec 1) (d a : BitVec 7) (n : BitVec 5) (s s' : State) (t : Thread) (j e : Word),
    Ready s t { srcs := [d.toNat, a.toNat], upto := n.toNat, role := if d.toNat ≠ 124 then .address else .any,
                acq := decide (d.toNat ≠ 124) } [j, e] s' →
    let goes := fun (v : State) =>
      let ids := v.stillPending (v.releaseIds s.cur 4 ++ v.acquireIds s.cur)
      (ids = [] → Claim.Retires (.fork w d a n) s w (v.spawnChild t e n.toNat)) ∧
      (ids ≠ [] → Claim.Releases (.fork w d a n) s w (.fork e n.toNat) ids v)
    (e.toNat % 4 ≠ 0 → Claim.Traps (.fork w d a n) s t ⟨cMISALIGNED, e⟩) ∧
    (e.toNat % 4 = 0 → Claim.inPipeline s' t = true → Claim.Traps (.fork w d a n) s t ⟨cSTAGE, allOnes⟩) ∧
    (e.toNat % 4 = 0 → Claim.inPipeline s' t = false →
      (d.toNat = 124 → goes s') ∧
      (d.toNat ≠ 124 →
        (∀ r, s'.locate t.who .atomic j 8 = .error r → Claim.Traps (.fork w d a n) s t r) ∧
        (∀ l, s'.locate t.who .atomic j 8 = .ok l → s'.meetIds s.cur l.key 8 true = [] → s'.lineHeld l.key = false →
          s'.lineShared l.key = false → s'.poisoned l.key 8 = none → goes ((s'.noteTlb t.core j).addAt l 1 l.home))))) ∧
  (∀ (s : State) (t : Thread) (e : Word) (n : Nat), s.thread s.nextTid = none →
    let v := s.spawnChild t e n
    v.thread s.nextTid =
      some (Claim.mtOf t.lnum (Claim.nextNumber s t.lnum) t.core e (t.x.take n) (t.taint.take n)) ∧
    (∀ m, m ≠ s.nextTid → v.thread m = s.thread m) ∧ v.nextTid = s.nextTid + 1 ∧
    (v.core t.core).deque.getLast? = some s.nextTid ∧ v.mem = s.mem ∧
    v.launchOf t.lnum = (s.launchOf t.lnum).map (fun l => { l with forked := l.forked + 1 }))

/-- R233, R50: JOINW passes a word that is 0; at any other word an anchored thread or a handler waits in its position, and
an MT gives its position up, its context in a context slot, once its results have returned. -/
def Sys2Proof.Claim.JoinWaits : Prop :=
  ∀ (w : BitVec 1) (a : BitVec 7) (s s' : State) (t : Thread) (x : Word) (l : Loc),
    Ready s t { srcs := [a.toNat], role := .address, acq := true } [x] s' → s'.locate t.who .atomic x 8 = .ok l →
    s'.meetIds s.cur l.key 8 true = [] → s'.lineHeld l.key = false → s'.poisoned l.key 8 = none →
    let me : Waiter := ⟨s.cur, l, .joinw, 124, false, decide (w = 1)⟩
    (s'.rdWord l.key = 0 → Claim.Retires (.joinw w a) s w (s'.noteTlb t.core x)) ∧
    (s'.rdWord l.key ≠ 0 → t.kind ≠ .mt →
      ∃ v u wt, exec (.joinw w a) s = .next v ∧ v.thread s.cur = some u ∧ u.state = .blocked ∧ u.place = t.place ∧
        u.wait = some wt ∧ wt.what = .word ∧ v.waiters = s'.waiters ++ [me] ∧ ∀ k, v.rdByte k = s'.rdByte k) ∧
    (s'.rdWord l.key ≠ 0 → t.kind = .mt → t.allReturned = false → Claim.Stalls (.joinw w a) s t
      { srcs := [a.toNat], role := .address, acq := true } t.outIds) ∧
    (∀ i, s'.rdWord l.key ≠ 0 → t.kind = .mt → t.allReturned = true → firstFree (s'.core t.core).ctxSlots 0 511 = some i →
      ∃ v u, exec (.joinw w a) s = .next v ∧ v.thread s.cur = some u ∧ u.state = .unplaced ∧ u.place = none ∧
        u.slotIdx = some i ∧ u.slotCore = t.core ∧ i ∈ (v.core t.core).ctxSlots ∧ v.waiters = s'.waiters ++ [me])

/-- R234: LAUNCH checks its block as loads and word 16 as a store, and submits what it has read; a block of kind PIPELINE
with its stage table. (No handler holds back the words that it reads, R185.) -/
def Sys2Proof.Claim.LaunchSubmits : Prop :=
  ∀ (w : BitVec 1) (a : BitVec 7) (s s' : State) (t : Thread) (x : Word),
    Ready s t { srcs := [a.toNat], role := .address, rel := some 4 } [x] s' →
    (x.toNat % 8 ≠ 0 → Claim.Traps (.launch w a) s t ⟨cMISALIGNED, x⟩) ∧
    (x.toNat % 8 = 0 → bits x 63 56 ≠ 0 → Claim.Traps (.launch w a) s t ⟨cPERMISSION, x⟩) ∧
    (x.toNat % 8 = 0 → bits x 63 56 = 0 →
      (∀ e, s'.checkWords t.who x 16 = .error e → Claim.Traps (.launch w a) s t e) ∧
      (∀ ls, s'.checkWords t.who x 16 = .ok ls → (∀ l ∈ ls, s'.lineHeld l.key = false) →
        (∀ e, s'.locate' t.who .store (x + 128) 8 = .error e → Claim.Traps (.launch w a) s t e) ∧
        (∀ p, s'.locate' t.who .store (x + 128) 8 = .ok p →
          let ws := s'.wordsAt ls
          let stages := nth ws 4 0
          let v := s'.noteTlb t.core x
          (bits (nth ws 0 0) 3 0 ≠ 2 ∨ stages.toNat % 64 ≠ 0 →
            Claim.Retires (.launch w a) s w (v.submit s.cur t.core ws x t.user [] (some p))) ∧
          (bits (nth ws 0 0) 3 0 = 2 → stages.toNat % 64 = 0 → bits stages 63 56 ≠ 0 →
            Claim.Traps (.launch w a) s t ⟨cPERMISSION, stages⟩) ∧
          (∀ ts, bits (nth ws 0 0) 3 0 = 2 → stages.toNat % 64 = 0 → bits stages 63 56 = 0 →
            v.checkWords t.who stages 72 = .ok ts → (∀ l ∈ ts, v.lineHeld l.key = false) →
            Claim.Retires (.launch w a) s w
              ((v.noteTlb t.core stages).submit s.cur t.core ws x t.user (v.wordsAt ts) (some p))))))

namespace Sys2Proof.Claim

/-- The template rules of reason 4 (R38). -/
def Template (slen vlen resid slots role : Nat) (mt : Bool) : Prop :=
  8 ≤ slen ∧ slen ≤ 112 ∧ slen % 8 = 0 ∧ vlen ≤ 32 ∧ vlen % 4 = 0 ∧ 1 ≤ resid ∧ resid ≤ 7 ∧ 1 ≤ slots ∧ slots ≤ 8 ∧
  resid * slen ≤ 224 ∧ resid * vlen ≤ 56 ∧ (mt = true → slen = 24 ∧ vlen = 0 ∧ role = 0)

/-- Field [hi:lo] of word j of entry k of a stage table, and of word j of queue entry q (R51). -/
def stageField (t : List Word) (k j hi lo : Nat) : Nat := bits (nth t (8 + 4 * k + j) 0) hi lo
def queueField (t : List Word) (q j hi lo : Nat) : Nat := bits (nth t (40 + 2 * q + j) 0) hi lo

/-- A stage table, of 72 words, is valid for a set of n cores (R51, R52). -/
structure TableValid (t : List Word) (n : Nat) : Prop where
  stages : 1 ≤ bits (nth t 0 0) 3 0 ∧ bits (nth t 0 0) 3 0 ≤ 8
  queues : 1 ≤ bits (nth t 0 0) 8 4 ∧ bits (nth t 0 0) 8 4 ≤ 16
  balance : bits (nth t 0 0) 13 9 = 0 ∨ (10 ≤ bits (nth t 0 0) 13 9 ∧ bits (nth t 0 0) 13 9 ≤ 20)
  header : bits (nth t 0 0) 63 14 = 0 ∧ ∀ x ∈ (t.drop 1).take 7, x = 0
  entries : ∀ k, k < bits (nth t 0 0) 3 0 →
    stageField t k 1 63 45 = 0 ∧ stageField t k 2 63 48 = 0 ∧ stageField t k 1 22 21 ≠ 3 ∧
    Template (stageField t k 1 30 24) (stageField t k 1 36 31) (stageField t k 1 40 37) (stageField t k 1 44 41)
      (stageField t k 1 22 21) ((nth t (8 + 4 * k + 1) 0).getLsbD 23) ∧
    (∀ q ∈ [stageField t k 1 6 0, stageField t k 1 13 7, stageField t k 1 20 14], q = 127 ∨ q < bits (nth t 0 0) 8 4) ∧
    (k = 0 ↔ stageField t k 1 6 0 = 127) ∧
    1 ≤ stageField t k 2 15 0 ∧ stageField t k 2 15 0 ≤ stageField t k 2 47 32 ∧ stageField t k 2 47 32 ≤ stageField t k 2 31 16
  inputs : ∀ q, q < bits (nth t 0 0) 8 4 →
    (∃ k, k < bits (nth t 0 0) 3 0 ∧ stageField t k 1 6 0 = q ∧
      ∀ j, j < bits (nth t 0 0) 3 0 → stageField t j 1 6 0 = q → j = k) ∧
    queueField t q 0 63 25 = 0 ∧ 1 ≤ queueField t q 0 24 12 ∧ queueField t q 0 24 12 ≤ 4096 ∧ nth t (41 + 2 * q) 0 = 0
  acyclic : ∃ rank : Nat → Nat, ∀ k b, k < bits (nth t 0 0) 3 0 → b < bits (nth t 0 0) 3 0 → b ≠ 0 →
    stageField t b 1 6 0 = stageField t k 1 13 7 ∨ stageField t b 1 6 0 = stageField t k 1 20 14 → rank k < rank b
  cores : ((List.range (bits (nth t 0 0) 3 0)).map (fun k => stageField t k 2 47 32)).sum = n

/-- Is core c in the core set of a block (R37): its die, its grove and its place in the grove are named. -/
def inSet (w2 : Word) (c : Nat) : Bool :=
  w2.getLsbD (c / 256) && w2.getLsbD (16 + c / 8 % 32) && w2.getLsbD (8 + c % 8)

/-- The causes of rejection of a block of words ws at address a, in the order of their reasons (R37, R38). -/
def causes (s : State) (ws : List Word) (a : Word) (table : List Word) : List Prop :=
  let f := fun (i hi lo : Nat) => bits (nth ws i 0) hi lo
  let kind := f 0 3 0
  let cpa := nth ws 6 0
  let set := (List.range 2048).filter (inSet (nth ws 2 0))
  [a.toNat % 64 ≠ 0 ∨ f 1 1 0 ≠ 0 ∨ (kind = 2 ∧ (nth ws 4 0).toNat % 64 ≠ 0),
   f 0 63 53 ≠ 0 ∨ f 2 63 48 ≠ 0 ∨ f 5 63 32 ≠ 0 ∨ 3 < f 0 44 41 ∨ 3 < f 0 10 8 ∨ 2 < kind ∨ (kind < 2 ∧ f 0 20 19 = 3) ∨
     (kind = 0 ∧ nth ws 3 0 ≠ 0) ∨ (kind ≠ 2 ∧ nth ws 4 0 ≠ 0) ∨ (f 0 44 41 = 0 ∧ cpa ≠ 0) ∨
     (f 0 44 41 = 1 ∧ cpa.toNat % 8 ≠ 0) ∨ (f 0 44 41 = 2 ∧ bits cpa 63 15 ≠ 0),
   set = [],
   (kind < 2 ∧ ¬ Template (f 0 28 22) (f 0 34 29) (f 0 18 15) (f 0 14 11) (f 0 20 19) ((nth ws 0 0).getLsbD 21)) ∨
     32 < f 0 40 35,
   kind = 1 ∧ ((nth ws 0 0).getLsbD 21 = false ∨ nth ws 3 0 = 0),
   kind = 2 ∧ ¬ TableValid table set.length,
   16384 ≤ s.launches.length,
   4096 < f 5 15 0 + f 5 31 16]

end Sys2Proof.Claim

/-- R38: a block submitted. Its word 16 takes STATE 0 and the number of the launch, or STATE 3 and the reason for which it
was rejected; a rejected block leaves nothing else behind. The reason is the lowest whose cause holds, 0 where none does. -/
def Sys2Proof.Claim.SubmissionResult : Prop :=
  ∀ (s : State) (tid core : Nat) (ws : List Word) (a : Word) (user : Bool) (table : List Word) (p : Loc),
    let reason := s.launchReason ws a table
    let v := s.submit tid core ws a user table (some p)
    (reason ≠ 0 → v.launches = s.launches ∧ v.threads = s.threads ∧ v.cores = s.cores ∧ v.nextLnum = s.nextLnum ∧
      ∃ q, v.accs = s.accs ++ [q] ∧ q.loc = p ∧ q.tid = tid ∧ q.op = .store (bytesOf 8 (word16 0 3 reason).toNat)) ∧
    (reason = 0 → ∃ n l q r, v.launchOf n = some l ∧ s.launchOf n = none ∧ n < 16384 ∧ v.nextLnum = (n + 1) % 16384 ∧
      l.words = ws ∧ l.addr = a ∧ l.user = user ∧ v.accs = s.accs ++ q :: r ∧ q.loc = p ∧
      q.op = .store (bytesOf 8 (word16 n 0 0).toNat)) ∧
    (reason = 0 ↔ ∀ c ∈ Claim.causes s ws a table, ¬ c) ∧
    (∀ i, reason = i + 1 ↔ ∃ c, (Claim.causes s ws a table)[i]? = some c ∧ c ∧
      ∀ b ∈ (Claim.causes s ws a table).take i, ¬ b)

/-- R235: TINFO gives the stage, the held item's sequence number, the launch's cores, the core's position among them, COUNT,
or the address of the launch block; all ones where there is none. -/
def Sys2Proof.Claim.ThreadInformation : Prop :=
  ∀ (w : BitVec 1) (d : BitVec 7) (sel : BitVec 3) (s : State) (t : Thread) (l : Launch),
    Ready s t { dst := some d.toNat } [] s → s.launchOf t.lnum = some l → sel.toNat ≤ 5 →
    Claim.Gives (.tinfo w d sel) s w d (match sel.toNat with
      | 0 => if bits (l.w 0) 3 0 = 2 then word t.stage else allOnes
      | 1 => match t.item with
        | some it => it.seq.zeroExtend 64
        | none => allOnes
      | 2 => word l.cores.length
      | 3 => if t.core ∈ l.cores then word (l.cores.filter (fun c => decide (c < t.core))).length else allOnes
      | 4 => l.w 3
      | _ => l.addr) s

/-- R236, R237, R238, R239, R242: QBIND unbinds its head and binds it as its operand says, or traps with CHANNEL; a binding
to a channel or an inbox for receiving makes the launch its owner. QPOLL counts what a head holds, also what stands in
reserve for a thread that waits (R90), and sets `ts.QE`. -/
def Sys2Proof.Claim.BindAndPoll : Prop :=
  (∀ (w : BitVec 1) (q : BitVec 3) (a : BitVec 7) (s s' : State) (t : Thread) (x : Word),
    Ready s t { srcs := [a.toNat] } [x] s' →
    let v := s'.unbindHead s.cur q.toNat
    (t.kind = .mt →
      Claim.TrapsUnheld (.qbind w q a) s t { srcs := [a.toNat], heads := [q.toNat] } ⟨cCHANNEL, word (112 + q.toNat)⟩) ∧
    (t.kind ≠ .mt → v.mayBind t x = false → Claim.Traps (.qbind w q a) s t ⟨cCHANNEL, x⟩) ∧
    (t.kind ≠ .mt → v.mayBind t x = true → ∃ y u, exec (.qbind w q a) s = .next (y.retire s.cur (decide (w = 1)) none) ∧
      y.thread s.cur = some u ∧ u.headOf q.toNat = (if headKind x = 0 then 0 else x) ∧
      (∀ i, i ≠ q.toNat → u.headOf i = ((v.thread s.cur).getD t).headOf i) ∧ (∀ k, y.rdByte k = v.rdByte k) ∧
      ((headKind x = 1 ∨ headKind x = 2) → headNum x < (v.core t.core).chans.length →
        (nth (y.core t.core).chans (headNum x) {}).owner = some t.lnum ∧
        (nth (y.core t.core).chans (headNum x) {}).wide = headWide x ∧
        Claim.entries y t.core (headNum x) = Claim.entries v t.core (headNum x)) ∧
      (headKind x = 3 → headNum x < (v.core t.core).inboxes.length →
        (nth (y.core t.core).inboxes (headNum x) {}).owner = some t.lnum))) ∧
  (∀ (w : BitVec 1) (d : BitVec 7) (q : BitVec 3) (s : State) (t : Thread),
    Ready s t { dst := some d.toNat, heads := [q.toNat] } [] s → headKind (t.headOf q.toNat) ∈ [1, 2, 3, 4] →
    let h := t.headOf q.toNat
    let n := if headKind h = 3 then (nth (s.core t.core).inboxes (headNum h) {}).words.length + s.inReserve t.core (headNum h) true
      else if headKind h = 4 then
        (nth (s.core (headLcn h)).inboxes (headNum h) {}).words.length + s.inReserve (headLcn h) (headNum h) true
      else (Claim.entries s t.core (headNum h)).length + s.inReserve t.core (headNum h) false
    let cap := if headKind h ≤ 2 ∧ (nth (s.core t.core).chans (headNum h) {}).wide then 16 else 64
    Claim.Gives (.qpoll w d q) s w d (word (cap * 2 ^ 32 + n % 2 ^ 32))
      (s.modThread s.cur (fun t => t.modCsr (fun c => { c with ts := setBits c.ts 2 2 (if n = 0 then 1 else 0) })))) ∧
  (∀ (w : BitVec 1) (d : BitVec 7) (q : BitVec 3) (s : State) (t : Thread) (l : Launch),
    Ready s t { dst := some d.toNat, heads := [q.toNat] } [] s → s.launchOf t.lnum = some l →
    let h := t.headOf q.toNat
    let gives := fun (n cap : Nat) => Claim.Gives (.qpoll w d q) s w d (word (cap * 2 ^ 32 + n % 2 ^ 32))
      (s.modThread s.cur (fun t => t.modCsr (fun c => { c with ts := setBits c.ts 2 2 (if n = 0 then 1 else 0) })))
    (headKind h = 5 → t.stage = 0 → gives (min (l.count - l.drawn + l.returned.length) (2 ^ 32 - 1)) 0) ∧
    (∀ st u, headKind h = 5 → t.stage ≠ 0 → l.stages[t.stage]? = some st → l.queues[st.inq]? = some u →
      gives (deliverCount u (s.upstreamDone t.lnum l st.inq) (u.items.length + u.returned.length)) u.cap) ∧
    (∀ n u, headKind h = 6 → l.output t.stage (headSecond h) = some n → l.queues[n]? = some u →
      gives (deliverCount u (s.upstreamDone t.lnum l n) (u.items.length + u.returned.length)) u.cap)) ∧
  (∀ (u : StageQueue) (b : Bool), u.ordered = false →
    deliverCount u b (u.items.length + u.returned.length) = u.items.length + u.returned.length)

/-- R241: VQRD takes the oldest entry of a wide channel into VD, VQWR adds the whole register; an empty or a full one is
waited for, and a head that is not so bound traps with CHANNEL. -/
def Sys2Proof.Claim.WideChannels : Prop :=
  (∀ (w : BitVec 1) (v : BitVec 5) (q : BitVec 3) (s : State) (t : Thread),
    Ready s t { vregs := [v.toNat], heads := [q.toNat], acq := true } [] s →
    let h := t.headOf q.toNat
    (¬ (headKind h = 1 ∧ headWide h) → Claim.Traps (.vqrd w v q) s t ⟨cCHANNEL, word (112 + q.toNat)⟩) ∧
    (headKind h = 1 → headWide h = true → Claim.entries s t.core (headNum h) = [] →
      Claim.Waits (.vqrd w v q) s [] [] (.wide t.core (headNum h) true) (s.iword.zeroExtend 64)) ∧
    (∀ e l, headKind h = 1 → headWide h = true → Claim.entries s t.core (headNum h) = e :: l →
      Claim.Retires (.vqrd w v q) s w
        ((Claim.withEntries s t.core (headNum h) l).setThread s.cur (t.setV v.toNat e)))) ∧
  (∀ (w : BitVec 1) (v : BitVec 5) (q : BitVec 3) (s : State) (t : Thread),
    Ready s t { vregs := [v.toNat], heads := [q.toNat] } [] s →
    let h := t.headOf q.toNat
    let room := s.available [⟨t.core, headNum h, false, true, 1⟩]
    let ids := s.stillPending (s.releaseIds s.cur (headScope h) ++ s.acquireIds s.cur)
    (¬ (headKind h = 2 ∧ headWide h) → Claim.Traps (.vqwr w q v) s t ⟨cCHANNEL, word (112 + q.toNat)⟩) ∧
    (headKind h = 2 → headWide h = true →
      (room = false → Claim.Waits (.vqwr w q v) s [] [] (.wide t.core (headNum h) false) (s.iword.zeroExtend 64)) ∧
      (room = true → ids ≠ [] → Claim.Releases (.vqwr w q v) s w (.wide q.toNat v.toNat) ids
        (s.modCore t.core (fun k => { k with chans := modify k.chans (headNum h) (fun c =>
          { c with reserved := c.reserved + 1 }) }))) ∧
      (room = true → ids = [] → Claim.Retires (.vqwr w q v) s w
        (Claim.withEntries s t.core (headNum h) (Claim.entries s t.core (headNum h) ++ [t.vr v.toNat])))))

/-- R243: SEND opens a packet, reserving eight words of the inbox, or adds a word to the open one; SENDE also closes it: its
words join the inbox together, the last one marked, and the reservation ends. A ninth word traps with PACKET. A wide entry
or a packet whose release may not be performed yet stalls with its room held, and is enqueued at the thread's next turn
(R90); the same turn ends a FORK whose child waits for its release (R232). -/
def Sys2Proof.Claim.Packets : Prop :=
  (∀ (s : State) (t : Thread) (e : Stall), s.thread s.cur = some t → t.stalled = some e →
    let go := s.modThread s.cur (fun t => { t with stalled := none })
    s.issueNext s.cur = match e with
      | .heads .. => .next (s.finishStall s.cur)
      | .fork e n => .next ((go.spawnChild t e n).retire s.cur t.marked none)
      | .wide q v => .next ((go.modCore t.core (fun k => { k with chans := modify k.chans (headNum (t.headOf q)) (fun c =>
          { c with entries := c.entries ++ [t.vr v], reserved := c.reserved - 1 }) })).retire s.cur t.marked none)
      | .packet q => .next ((go.closePacket s.cur t q ((t.packet.map (fun p => p.words)).getD [])).retire s.cur t.marked none)) ∧
  ∀ (w : BitVec 1) (q : BitVec 3) (a : BitVec 7) (s s' : State) (t : Thread) (x : Word),
    Ready s t { srcs := [a.toNat], heads := [q.toNat], packetHead := some q.toNat } [x] s' →
    let h := t.headOf q.toNat
    let box := nth (s'.core (headLcn h)).inboxes (headNum h) {}
    let held := if t.packet = none then box.reserved + 8 else box.reserved
    let words := Claim.packetWords t x
    let room := t.packet ≠ none ∨ s'.available [⟨headLcn h, headNum h, true, true, 8⟩] = true
    let withBox := fun (b : Inbox) => s'.modCore (headLcn h) (fun k => { k with inboxes := modify k.inboxes (headNum h) (fun _ => b) })
    (headKind h ≠ 4 → Claim.Traps (.send w q a) s t ⟨cCHANNEL, word (112 + q.toNat)⟩ ∧
      Claim.Traps (.sende w q a) s t ⟨cCHANNEL, word (112 + q.toNat)⟩) ∧
    (headKind h = 4 → ¬ room →
      Claim.Waits (.send w q a) s [a.toNat] [] (.inboxRoom (headLcn h) (headNum h) 8) (s.iword.zeroExtend 64) ∧
      Claim.Waits (.sende w q a) s [a.toNat] [] (.inboxRoom (headLcn h) (headNum h) 8) (s.iword.zeroExtend 64)) ∧
    (headKind h = 4 → room → words.length > 8 →
      Claim.Traps (.send w q a) s t ⟨cPACKET, 9⟩ ∧ Claim.Traps (.sende w q a) s t ⟨cPACKET, 9⟩) ∧
    (headKind h = 4 → room → words.length ≤ 8 →
      Claim.Retires (.send w q a) s w ((withBox { box with reserved := held }).modThread s.cur
        (fun t => { t with packet := some ⟨q.toNat, words⟩ })) ∧
      (let ids := s'.stillPending (s'.releaseIds s.cur (headScope h) ++ s'.acquireIds s.cur)
       ids ≠ [] → Claim.Releases (.sende w q a) s w (.packet q.toNat) ids
        ((withBox { box with reserved := held }).modThread s.cur (fun t => { t with packet := some ⟨q.toNat, words⟩ }))) ∧
      (s'.stillPending (s'.releaseIds s.cur (headScope h) ++ s'.acquireIds s.cur) = [] →
        Claim.Retires (.sende w q a) s w
          ((withBox { box with reserved := held - 8, words := box.words ++
            (words.dropLast.map (fun y => ⟨y, false, []⟩)) ++ [⟨x, true, []⟩] }).modThread s.cur
            (fun t => { t with packet := none }))))

/-- R245, R53: ITEMGET gives up the item held and takes the next of its stage: its handle and its sequence number. At the end
of the input it gives 0 and sets `ts.EOS`; with nothing there yet it waits. In no PIPELINE launch it traps with STAGE. -/
def Sys2Proof.Claim.ItemsTaken : Prop :=
  ∀ (w : BitVec 1) (d a : BitVec 7) (s : State) (t : Thread),
    Ready s t { dst := some d.toNat, dst2 := some a.toNat, acq := true } [] s →
    let free := s.setThread s.cur { t with item := none }
    (t.kind = .handler ∨ Claim.inPipeline s t = false → Claim.Traps (.itemget w d a) s t ⟨cSTAGE, allOnes⟩) ∧
    (∀ l, t.kind ≠ .handler → s.launchOf t.lnum = some l → l.pipeline = true → t.moved = false →
      (∀ it l', free.inputOf t.lnum l t.stage = .item it l' →
        let v := (free.setLaunch t.lnum l').modThread s.cur (fun t => { t with item := some it })
        let y : Word := it.seq.zeroExtend 64
        v.meetPuts s.cur [(a.toNat, y), (d.toNat, it.handle)] = none →
        (∀ u, v.thread s.cur = some u → v.enqueueIds s.cur u [a.toNat, d.toNat] = []) →
        Claim.Retires (.itemget w d a) s w ((v.writeField s.cur a.toNat y false).writeField s.cur d.toNat it.handle false)) ∧
      (free.inputOf t.lnum l t.stage = .atEnd →
        let v := free.modThread s.cur (fun t => t.modCsr (fun c => { c with ts := setBits c.ts 1 1 1 }))
        v.meetPuts s.cur [(a.toNat, 0), (d.toNat, 0)] = none →
        (∀ u, v.thread s.cur = some u → v.enqueueIds s.cur u [a.toNat, d.toNat] = []) →
        Claim.Retires (.itemget w d a) s w ((v.writeField s.cur a.toNat 0 false).writeField s.cur d.toNat 0 false)) ∧
      (free.inputOf t.lnum l t.stage = .nothing →
        ∃ v u wt, exec (.itemget w d a) s = .next v ∧ v.thread s.cur = some u ∧ u.state = .blocked ∧ u.item = none ∧
          u.wait = some wt ∧ wt.what = .itemGet) ∧
      (∀ i r, t.stage = 0 → l.returned = i :: r → ∃ l', free.inputOf t.lnum l t.stage =
        .item ⟨BitVec.ofNat 64 i, BitVec.ofNat 32 i⟩ l' ∧ l'.returned = r ∧ l'.drawn = l.drawn ∧
        l'.taken.filter (fun e => e.2) = l.taken.filter (fun e => e.2)) ∧
      (t.stage = 0 → l.returned = [] → l.drawn < l.count → free.inputOf t.lnum l t.stage =
        .item ⟨BitVec.ofNat 64 l.drawn, BitVec.ofNat 32 l.drawn⟩ { l with drawn := l.drawn + 1 }) ∧
      (t.stage = 0 → l.returned = [] → l.count ≤ l.drawn → free.inputOf t.lnum l t.stage = .atEnd)) ∧
    (∀ (v : State) (ws : List (Nat × Word)), (∀ p ∈ ws, isHead p.1 = false) → v.meetPuts s.cur ws = none)

/-- R246, R53, R51: ITEMPUT offers an item to an output queue of its stage, which accepts it, makes the thread wait, or traps
with STAGE. An unordered queue drops handle 0, and holds items up to its capacity in order of acceptance, places in reserve
counted (R90); an ordered one takes a number less than its capacity beyond the oldest that it holds in reserve or, with
none, the next undelivered one, once. -/
def Sys2Proof.Claim.ItemsOffered : Prop :=
  (∀ (w : BitVec 1) (d a : BitVec 7) (o : BitVec 1) (s s' : State) (t : Thread) (x y : Word),
    Ready s t { srcs := [d.toNat, a.toNat], rel := some 4 } [x, y] s' →
    (Claim.inPipeline s' t = false → Claim.Traps (.itemput w d a o) s t ⟨cSTAGE, allOnes⟩) ∧
    (∀ l, s'.launchOf t.lnum = some l → l.pipeline = true →
      (l.output t.stage (o = 1) = none → Claim.Traps (.itemput w d a o) s t ⟨cSTAGE, allOnes⟩) ∧
      (∀ q u, l.output t.stage (o = 1) = some q → l.queues[q]? = some u →
        let it : Item := ⟨x, y.truncate 32⟩
        (offer u it = .stage → Claim.Traps (.itemput w d a o) s t ⟨cSTAGE, it.seq.zeroExtend 64⟩) ∧
        (offer u it = .wait → Claim.Waits (.itemput w d a o) s [d.toNat, a.toNat] [] (.itemPut q it.seq.toNat) (s'.iword.zeroExtend 64)) ∧
        (∀ u', offer u it = .accepted u' → Claim.Retires (.itemput w d a o) s w
          (s'.setLaunch t.lnum { l with queues := modify l.queues q (fun _ => u') }))))) ∧
  (∀ (u : StageQueue) (it : Item), u.ordered = false →
    let taken := u.items.length + u.taken.length + u.reserved
    (it.handle = 0 → taken < u.cap → offer u it = .accepted u) ∧
    (it.handle ≠ 0 → taken < u.cap → offer u it = .accepted { u with items := u.items ++ [it] }) ∧
    (u.cap ≤ taken → offer u it = .wait)) ∧
  (∀ (u : StageQueue) (it : Item), u.ordered = true → u.next < 2 ^ 32 → u.cap ≤ 4096 →
    let δ := (it.seq - BitVec.ofNat 32 u.next).toNat
    let σ := (it.seq - BitVec.ofNat 32 u.start).toNat
    let free := δ < 2 ^ 31 ∧ (∀ x ∈ u.items, x.seq ≠ it.seq) ∧ it.seq ∉ u.claimed
    (u.taken = [] → u.start = u.next) ∧
    (∀ e ∈ u.taken, (BitVec.ofNat 32 u.next - e.1.seq).toNat ≤ (BitVec.ofNat 32 u.next - BitVec.ofNat 32 u.start).toNat) ∧
    (2 ^ 31 ≤ δ ∨ (∃ x ∈ u.items, x.seq = it.seq) ∨ it.seq ∈ u.claimed → offer u it = .stage) ∧
    (free → u.cap ≤ σ → offer u it = .wait) ∧
    (free → σ < u.cap → it.handle ≠ 0 → (∀ x ∈ u.items, x.handle ≠ 0) →
      offer u it = .accepted { u with items := u.items ++ [it] }))

/-- R248 to R252: the barrier instructions on an object that the thread may use; any other traps with UNAVAILABLE. BARJ makes
the thread a participant, BARL ends that; BARA joins, waits for what it releases, arrives, once in a phase; BARW waits while the
phase of the last arrival stands; BARM tells phase, participants, and whether the thread takes part and has arrived. -/
def Sys2Proof.Claim.BarrierInstructions : Prop :=
  (∀ (w : BitVec 1) (d a : BitVec 7) (s s' : State) (t : Thread) (x : Word),
    let n := bits x 11 0
    (Ready s t { srcs := [a.toNat] } [x] s' →
      (¬ Claim.MayUse s' t n → Claim.Traps (.barj w a) s t ⟨cUNAVAILABLE, x⟩ ∧ Claim.Traps (.barl w a) s t ⟨cUNAVAILABLE, x⟩ ∧
        Claim.Traps (.bara w a) s t ⟨cUNAVAILABLE, x⟩) ∧
      (Claim.MayUse s' t n →
        Claim.Retires (.barj w a) s w (s'.joinBarrier s.cur x) ∧ Claim.Retires (.barl w a) s w (s'.leaveBarrier s.cur n) ∧
        (look t.arrivals n = some (s'.barrier n).phase.toNat → Claim.Traps (.bara w a) s t ⟨cUNAVAILABLE, x⟩) ∧
        (look t.arrivals n ≠ some (s'.barrier n).phase.toNat →
          let v := s'.joinBarrier s.cur x
          v.stillPending (v.releaseIds s.cur (v.barrier n).scope ++ v.acquireIds s.cur) = [] →
          Claim.Retires (.bara w a) s w
            ((v.modThread s.cur (fun t => { t with arrivals := Machine.put t.arrivals n (v.barrier n).phase.toNat })).modBarrier n
              (fun b => ({ b with arrived := b.arrived ++ [s.cur] } : Barrier).check))) ∧
        (look t.arrivals n ≠ some (s'.barrier n).phase.toNat →
          let v := s'.joinBarrier s.cur x
          let ids := v.stillPending (v.releaseIds s.cur (v.barrier n).scope ++ v.acquireIds s.cur)
          ids ≠ [] → exec (.bara w a) s = .next ((s.joinBarrier s.cur x).stallOn s.cur { srcs := [a.toNat] } ids)))) ∧
    (Ready s t { srcs := [a.toNat], acq := true } [x] s' → Claim.MayUse s' t n →
      (look t.arrivals n = some (s'.barrier n).phase.toNat →
        Claim.Waits (.barw w a) s [a.toNat] [] (.barrier n (s'.barrier n).phase.toNat) x) ∧
      (look t.arrivals n ≠ some (s'.barrier n).phase.toNat → Claim.Retires (.barw w a) s w s')) ∧
    (Ready s t { srcs := [a.toNat], dst := some d.toNat } [x] s' → Claim.MayUse s' t n →
      let b := s'.barrier n
      Claim.Gives (.barm w d a) s w d (word ((if s.cur ∈ b.arrived then 2 ^ 54 else 0) +
        (if s.cur ∈ b.parts then 2 ^ 53 else 0) + b.parts.length % 2 ^ 21 * 2 ^ 32 + b.phase.toNat)) s')) ∧
  (∀ (s : State) (tid : Nat) (x : Word) (t : Thread), s.thread tid = some t →
    let n := bits x 11 0
    (s.joinBarrier tid x).barrier n = Claim.joined (s.barrier n) tid (bits x 14 12) ∧
    (s.leaveBarrier tid n).barrier n = (if tid ∈ (s.barrier n).parts then
      ({ s.barrier n with parts := (s.barrier n).parts.filter (fun p => p ≠ tid) } : Barrier).check else s.barrier n))

/-- R248: the phase of an object advances by one, modulo 2^32, when there is an arrival and every participant has arrived;
its arrivals are then forgotten. -/
def Sys2Proof.Claim.BarrierPhase : Prop :=
  ∀ b : Barrier,
    (b.arrived ≠ [] → (∀ p ∈ b.parts, p ∈ b.arrived) →
      b.check.phase = b.phase + 1 ∧ b.check.arrived = [] ∧ b.check.parts = b.parts) ∧
    (b.arrived = [] ∨ (∃ p ∈ b.parts, p ∉ b.arrived) → b.check = b)

/-- R253: CSIG issues a fetch-and-add without result, as a release at its scope. -/
def Sys2Proof.Claim.CounterSignal : Prop :=
  ∀ (w : BitVec 1) (d a : BitVec 7) (sc : BitVec 3) (s s' : State) (t : Thread) (x y : Word),
    Ready s t { srcs := [d.toNat, a.toNat], role := .address } [x, y] s' →
    (∀ e, s'.locate t.who .atomic y 8 = .error e → Claim.Traps (.csig w d a sc) s t e) ∧
    (∀ l, s'.locate t.who .atomic y 8 = .ok l →
      ∃ u v, s'.thread s.cur = some u ∧ Claim.Retires (.csig w d a sc) s w v ∧
        Claim.Adds s.cur s' v
          [Claim.access s' t l ((s'.noteTlb t.core y).meetIds s.cur l.key 8 false ++ s'.acquireIds s.cur ++
            s'.releaseIds s.cur sc.toNat) false (.rmw .add 8 x 0 none)] u)

/-! ### Engines, replicas, mailboxes, the canopy, traps and CSRs -/

namespace Sys2Proof.Claim

/-- The trap of instruction i, issued by thread t: of its own element, that leaves no element (R307). -/
def FoundTraps (i : Instr) (s : State) (t : Thread) (f : Found) : Prop :=
  (∀ r, f = .trap r → Traps i s t r)

/-- The updates of R308 with their member numbers. -/
noncomputable def updates : List ((BitVec 1 → BitVec 7 → BitVec 7 → Instr) × Nat) :=
  [(.radd, 0), (.rmax, 1), (.rlww, 2), (.rsadd, 3), (.rsrem, 4), (.rmean, 6)]

/-- The contributions to the canopy: operation, and the type field where there is one (R343, R344). -/
noncomputable def trputs (ty : BitVec 2) : List ((BitVec 1 → BitVec 5 → Instr) × Nat × Nat) :=
  [(fun w v => .trputAdd w v ty, 0, ty.toNat), (fun w v => .trputMin w v ty, 1, ty.toNat),
   (fun w v => .trputMax w v ty, 2, ty.toNat), (.trputAnd, 3, 0), (.trputOr, 4, 0), (.trputXor, 5, 0),
   (fun w v => .trputBcast w v ty, 6, ty.toNat), (.trputBarrier, 7, 0)]

/-- An update that R307 lets through: the element is of the instruction's type, its address aligned to the update's size,
and for a set that of element 0, the page number not the reserved one. -/
def Updatable (e : Elem) (member : Nat) (a v : Word) : Prop :=
  a.toNat % updateSize e.o member = 0 ∧ e.o.ty = memberType member ∧
  ((member = 3 ∨ member = 4) → e.off = 0 ∧ bits v 31 0 ≠ 0xFFFFFFFF)

/-- The CSR instructions that write, with the value they offer (R364). -/
noncomputable def csrWrites : List ((BitVec 1 → BitVec 7 → BitVec 6 → BitVec 6 → Instr) × (Word → Word → Word)) :=
  [(.csrwr, fun _ x => x), (.csrset, fun o x => o ||| x), (.csrclr, fun o x => o &&& ~~~x)]

end Sys2Proof.Claim

/-- R255 to R260, R266, R280, R289: XSET writes a shadow field of the thread, XGET reads one, and XSTAT, MXWGT of the
core; XLAUNCH validates the shadow set, hands it to the engine under the next identifier, and gives that; XWAIT and
MXWAIT pass once the operation has ended. The model's choices of log entry 33 are part of it. -/
def Obligations.EngineInstructions : Prop :=
  (∀ (w e : BitVec 1) (d : BitVec 7) (f : BitVec 5) (s s' : State) (t u : Thread) (x : Word),
    Ready s t { srcs := [d.toNat], role := .address, system := decide (e = 1 ∧ f = 15) } [x] s' → s'.thread s.cur = some u →
    let y := if f = 13 then word (x.toNat % 2 ^ 24) else x
    (f = 12 → Claim.Retires (.xset w d f e) s w s') ∧
    (e = 1 → f = 15 → Claim.Retires (.xset w d f e) s w (s'.modCore t.core (fun k => { k with mxwgt := x.toNat % 16 }))) ∧
    (f.toNat < 14 → f ≠ 12 → ∃ v u', Claim.Retires (.xset w d f e) s w v ∧ v.thread s.cur = some u' ∧
      (e = 0 → u'.shadow0 = modify t.shadow0 f.toNat (fun _ => y) ∧ u'.shadow1 = t.shadow1) ∧
      (e = 1 → u'.shadow1 = modify t.shadow1 f.toNat (fun _ => y) ∧ u'.shadow0 = t.shadow0))) ∧
  (∀ (w e : BitVec 1) (d : BitVec 7) (f : BitVec 5) (s : State) (t : Thread), Ready s t { dst := some d.toNat } [] s →
    Claim.Gives (.xget w d f e) s w d
      (if f = 12 then
        word ((nth (s.core t.core).xstat e.toNat (0, 0)).1 * 2 ^ 32 + (nth (s.core t.core).xstat e.toNat (0, 0)).2 * 2 ^ 16 +
          ((s.core t.core).engine e.toNat).length)
      else if e = 1 ∧ f = 15 then word (s.core t.core).mxwgt
      else nth (if e = 1 then t.shadow1 else t.shadow0) f.toNat 0) s) ∧
  (∀ (w e : BitVec 1) (d : BitVec 7) (s : State) (t : Thread), Ready s t { dst := some d.toNat, role := .address } [] s →
    let q := (s.core t.core).engine e.toNat
    let cap := if e = 0 then 16 else 8
    (∀ r, s.validate s.cur t e.toNat = some r → Claim.Traps (.xlaunch w d e) s t r) ∧
    (s.validate s.cur t e.toNat = none → cap ≤ q.length →
      Claim.Waits (.xlaunch w d e) s [] [d.toNat] (.engineRoom t.core e.toNat) (s.iword.zeroExtend 64)) ∧
    (s.validate s.cur t e.toNat = none → q.length < cap →
      s.stillPending (s.releaseIds s.cur 5 ++ s.acquireIds s.cur) = [] →
      Claim.Gives (.xlaunch w d e) s w d (word (s.core t.core).xidNext) (s.handOver s.cur t e.toNat))) ∧
  (∀ (w e : BitVec 1) (a : BitVec 7) (s s' : State) (t : Thread) (x : Word), Ready s t { srcs := [a.toNat], acq := true } [x] s' →
    let id := x.toNat % 2 ^ 16
    (s'.opEnded t.core e.toNat id = true → Claim.Retires (.xwait w a e) s w s') ∧
    (s'.opEnded t.core e.toNat id = false → Claim.Waits (.xwait w a e) s [a.toNat] [] (.transfer t.core e.toNat id) (word id)) ∧
    (s'.opEnded t.core 1 id = true → Claim.Retires (.mxwait w a) s w s') ∧
    (s'.opEnded t.core 1 id = false → Claim.Waits (.mxwait w a) s [a.toNat] [] (.transfer t.core 1 id) (word id)))

/-- R257, R259, R260, R289: an operation handed over stands last in its engine's queue with the thread's fields; the next
identifier follows it, after 65,535 comes 1; LAST names it; a command makes the thread owner of its bank. -/
def Obligations.OperationHandedOver : Prop :=
  ∀ (s : State) (t : Thread) (e : Nat), s.thread s.cur = some t → e ≤ 1 → (s.core t.core).xstat.length = 2 →
    let id := (s.core t.core).xidNext
    let fs := if e = 1 then t.shadow1 else t.shadow0
    let v := s.handOver s.cur t e
    (v.core t.core).engine e = (s.core t.core).engine e ++
      [{ xid := id, engine := e, fields := fs, tid := s.cur, lnum := t.lnum, user := t.user, stage := t.stage }] ∧
    (v.core t.core).engine (1 - e) = (s.core t.core).engine (1 - e) ∧
    (v.core t.core).xidNext = (if 65535 ≤ id then 1 else id + 1) ∧
    (nth (v.core t.core).xstat e (0, 0)).2 = id ∧ (nth (v.core t.core).xstat e (0, 0)).1 = (nth (s.core t.core).xstat e (0, 0)).1 ∧
    (e = 1 → ((v.core t.core).bank ((nth fs 4 0).toNat % 2)).owner = some s.cur) ∧
    (∀ k, v.rdByte k = s.rdByte k)

/-- R272 to R276: TRIG checks its block and issues its arming as a release at DEVICE; TRIGC retires an ARMED entry that its
handle names, and any other handle does nothing; TRIGQ tells the entry's state and counts, 0 for any other handle. Where
`waitlim` sets a limit, TRIGQ may wait for its answer first: the model's choice (log 70). -/
def Sys2Proof.Claim.WatchInstructions : Prop :=
  (∀ (w : BitVec 1) (d a : BitVec 7) (s s' : State) (t : Thread) (x : Word),
    Ready s t { srcs := [a.toNat], regs := Claim.window d, role := .address } [x] s' →
    (x.toNat % 64 ≠ 0 → Claim.Traps (.trig w d a) s t ⟨cMISALIGNED, x⟩) ∧
    (x.toNat % 64 = 0 → (∀ e, s'.checkWords t.who x 8 = .error e → Claim.Traps (.trig w d a) s t e) ∧
      (∀ ls, s'.checkWords t.who x 8 = .ok ls →
        (t.tooMany = true → Claim.Stalls (.trig w d a) s t
          { srcs := [a.toNat], regs := Claim.window d, role := .address } t.outIds) ∧
        (t.tooMany = false → ∃ u v q, s'.thread s.cur = some u ∧ Claim.Retires (.trig w d a) s w v ∧
          Claim.Adds s.cur s' v [q] { u with outs := u.outs ++ [Claim.opened s' d.toNat 1 0 false] } ∧
          q.id = s'.accN ∧ q.tid = s.cur ∧ q.core = t.core ∧ q.op = .arm ls t.user t.lnum s'.accN ∧
          (∀ n ∈ s'.releaseIds s.cur 4, n ∈ q.after))))) ∧
  (∀ (w : BitVec 1) (a : BitVec 7) (s s' : State) (t : Thread) (x : Word), Ready s t { srcs := [a.toNat] } [x] s' →
    (s'.entryOf x = none → Claim.Retires (.trigc w a) s w s') ∧
    (∀ c n e, s'.entryOf x = some (c, n, e) →
      (e.state ≠ 1 → Claim.Retires (.trigc w a) s w s') ∧
      (e.state = 1 → (∀ q ∈ s'.accs, q.tid = s.cur → q.op.isWrite = true →
          overlap e.loc.key 8 q.loc.key q.op.size = false) →
        Claim.Retires (.trigc w a) s w (s'.modWatch c n (fun e => { e with state := 2 }))))) ∧
  (∀ (w : BitVec 1) (d a : BitVec 7) (s s' : State) (t : Thread) (x : Word),
    Ready s t { srcs := [a.toNat], dst := some d.toNat } [x] s' →
    (t.csr.waitlim = 0 ∨ s'.awaitsReply t = false →
      Claim.Gives (.trigq w d a) s w d (match s'.entryOf x with
        | some (_, _, e) => word (e.state * 2 ^ 62 + e.r * 2 ^ 32 + e.pend.length % 2 ^ 16 * 2 ^ 16 + e.k % 2 ^ 16)
        | none => 0) s') ∧
    (s'.awaitsReply t = true →
      Claim.Waits (.trigq w d a) s [a.toNat] [d.toNat] .reply (s.iword.zeroExtend 64))) ∧
  (∀ e : Watch, e.state = 2 → (e.pend = [] → e.settle = { gen := e.gen + 1 }) ∧ (e.pend ≠ [] → e.settle = e))

/-- R293 to R297: MXRD issues a read of sixteen elements of an accumulator row into a vector register, and follows the
commands launched before it on that bank; HDONE ends a handler of a drain or of a directory line and traps in any other
thread; PPT records its mask, and a bank it does not name is given up: at once where no command of the bank accumulates,
else as soon as none does. -/
def Sys2Proof.Claim.MatrixInstructions : Prop :=
  (∀ (w : BitVec 1) (d : BitVec 5) (a : BitVec 7) (s s' : State) (t : Thread) (x : Word),
    Ready s t { srcs := [a.toNat], vregs := [d.toNat] } [x] s' →
    (2 ^ 11 ≤ x.toNat → Claim.Traps (.mxrd w d a) s t ⟨cFORMAT, x⟩) ∧
    (x.toNat < 2 ^ 11 → t.tooMany = true → Claim.Stalls (.mxrd w d a) s t { srcs := [a.toNat], vregs := [d.toNat] } t.outIds) ∧
    (x.toNat < 2 ^ 11 → t.tooMany = false → ∃ u v q before, s'.thread s.cur = some u ∧ Claim.Retires (.mxrd w d a) s w v ∧
      Claim.Adds s.cur s' v [q] { u with outs := u.outs ++ [Claim.opened s' (128 + d.toNat) 1 0 false] } ∧
      q.op = .mxrd (x.toNat / 2 ^ 10) (x.toNat / 2 ^ 3 % 2 ^ 7) (x.toNat % 2 ^ 3) s'.accN before ∧
      ∀ o ∈ (s'.core t.core).eng1, o.bankOf = x.toNat / 2 ^ 10 → o.accumulated = false → o.xid ∈ before)) ∧
  (∀ (w : BitVec 1) (s : State) (t : Thread), Plain s t { rel := some 4 } → Unordered s t { rel := some 4 } →
    ((∃ c x b r l p bad o, t.job = some (.drain c x b r l p bad o)) ∨ (∃ l, t.job = some (.directory l)) →
      exec (.hdone w) s = .next (s.leave s.cur) ∧
      ∃ u, (s.leave s.cur).thread s.cur = some u ∧ u.state = .exited ∧ u.place = none) ∧
    (t.job = none ∨ (∃ g c, t.job = some (.system g c)) → Claim.Traps (.hdone w) s t ⟨cUNAVAILABLE, s.iword.zeroExtend 64⟩)) ∧
  (∀ (w : BitVec 1) (m : BitVec 2) (s : State) (t : Thread), Plain s t {} →
    ∃ v u, Claim.Retires (.ppt w m) s w v ∧ v.thread s.cur = some u ∧ u.live = m.zeroExtend 64 ∧
      (t.preempt = false → u = { t with live := m.zeroExtend 64 }) ∧ (s.ownedBanks s.cur = [] → v = s.setThread s.cur u) ∧
      (∀ b, b < 2 → let k := (s.core t.core).bank b; let k' := (v.core t.core).bank b
        (k.owner = some s.cur → m.getLsbD b = false → k'.rows = k.rows ∧ k'.poison = k.poison ∧
          ((s.core t.core).bankQuiet b = true → k'.owner = none) ∧
          ((s.core t.core).bankQuiet b = false → k'.owner = some s.cur ∧ k'.ending = true)) ∧
        (k.owner ≠ some s.cur ∨ m.getLsbD b = true → k.ending = false → k' = k)) ∧
      (∀ k, v.rdByte k = s.rdByte k) ∧ (∀ n, n ≠ s.cur → v.thread n = s.thread n))

/-- R306 to R310: an update of a replicated object issues one update at the home of its element, with a result. An address
that no element has, or whose element the instruction is not for, traps. -/
def Sys2Proof.Claim.ReplicaUpdates : Prop :=
  ∀ op ∈ Claim.updates, ∀ (w : BitVec 1) (d a : BitVec 7) (s s' : State) (t : Thread) (x : Word),
    Ready s t { srcs := [a.toNat], regs := Claim.window d, role := .address } [x] s' →
    let i := op.1 w d a
    let v := if d.toNat ≤ 111 then t.xr d.toNat else 0
    Claim.FoundTraps i s t (s'.findElem t.who .update x) ∧
    (∀ e l, s'.findElem t.who .update x = .elem e l →
      (x.toNat % updateSize e.o op.2 ≠ 0 → Claim.Traps i s t ⟨cMISALIGNED, x⟩) ∧
      (x.toNat % updateSize e.o op.2 = 0 → (op.2 = 3 ∨ op.2 = 4) → e.o.ty = .awset → e.off ≠ 0 →
        Claim.Traps i s t ⟨cVIEW, x⟩) ∧
      (x.toNat % updateSize e.o op.2 = 0 → ¬ ((op.2 = 3 ∨ op.2 = 4) ∧ e.o.ty = .awset ∧ e.off ≠ 0) →
        e.o.ty ≠ memberType op.2 → Claim.Traps i s t ⟨cFORMAT, x⟩) ∧
      (Claim.Updatable e op.2 x v → t.tooMany = false →
        ∀ src, (op.2 ≠ 2 → src = none) →
          (op.2 = 2 → ∃ k, ((s'.noteTlb t.core x).noteSot l.sotx).tileSource t v e.o.tsz = .ok k ∧ src = some (k, e.o.tsz)) →
        ∃ u y q, s'.thread s.cur = some u ∧ Claim.Retires i s w y ∧
          Claim.Adds s.cur s' y [q] { u with outs := u.outs ++ [Claim.opened s' d.toNat 1 0 false] } ∧
          q.id = s'.accN ∧ q.tid = s.cur ∧ q.loc = { l with home := s'.elemHome e } ∧
          q.op = .replica op.2 v src s'.accN none))

/-- R312, R318, R321, R323: RSHAS tests membership into a bit of pw; RFRONT issues an acquiring read of a frontier word,
RWAITF waits for one; RSHIP lifts the shipping bound; RSTAT tells the replica's state. Where `waitlim` sets a limit, RSTAT may
wait for its answer first: the model's choice (log 70). -/
def Sys2Proof.Claim.ReplicaReads : Prop :=
  (∀ (w : BitVec 1) (d a : BitVec 7) (k : BitVec 6) (s s' : State) (t : Thread) (p x : Word) (e : Elem) (l : Loc),
    Ready s t { srcs := [d.toNat, a.toNat], role := .address, acq := true } [p, x] s' → s'.findElem t.who .view x = .elem e l →
    let v := (s'.noteTlb t.core x).noteSot l.sotx
    (e.o.ty ≠ .awset → Claim.Traps (.rshas w d a k) s t ⟨cFORMAT, x⟩) ∧
    (e.o.ty = .awset → v.ownUpdates s.cur e ≠ [] → Claim.Waits (.rshas w d a k) s [d.toNat, a.toNat] [] (.replica x) x) ∧
    (e.o.ty = .awset → v.ownUpdates s.cur e = [] → v.poisonIn (v.runRanges e (p.toNat % 2 ^ 32)) = none →
      let n := p.toNat % 2 ^ 32
      let has := decide (n ≠ 0xFFFFFFFF) && (v.findPage e n).isSome
      Claim.Retires (.rshas w d a k) s w
        (v.modThread s.cur (fun t => { t with pw := Claim.pwWith t.pw 0 k.toNat has })))) ∧
  (∀ (w : BitVec 1) (d a : BitVec 7) (c : BitVec 6) (s s' : State) (t : Thread) (x : Word) (e : Elem) (l : Loc),
    Ready s t { srcs := [a.toNat], regs := Claim.window d, role := .address } [x] s' → s'.findElem t.who .view x = .elem e l →
    (e.o.n ≤ c.toNat → Claim.Traps (.rfront w d a c) s t ⟨cFORMAT, word c.toNat⟩) ∧
    (c.toNat < e.o.n → t.tooMany = false → ∃ u v q, s'.thread s.cur = some u ∧ Claim.Retires (.rfront w d a c) s w v ∧
      Claim.Adds s.cur s' v [q] { u with outs := u.outs ++ [Claim.opened s' d.toNat 1 0 false] } ∧
      q.acq = true ∧ q.op = .frontier c.toNat s'.accN)) ∧
  (∀ (w : BitVec 1) (d a : BitVec 7) (c : BitVec 6) (s s' : State) (t : Thread) (y x : Word) (e : Elem) (l : Loc),
    Ready s t { srcs := [d.toNat, a.toNat], role := .address, acq := true } [y, x] s' →
    s'.findElem t.who .view x = .elem e l → c.toNat < e.o.n →
    let v := (s'.noteTlb t.core x).noteSot l.sotx
    (y.toNat ≤ (v.vword (e.front c.toNat)).toNat → Claim.Retires (.rwaitf w d a c) s w v) ∧
    ((v.vword (e.front c.toNat)).toNat < y.toNat → Claim.Waits (.rwaitf w d a c) s [d.toNat, a.toNat] [] (.frontier x c.toNat y) x)) ∧
  (∀ (w : BitVec 1) (a : BitVec 7) (s s' : State) (t : Thread) (x : Word) (e : Elem) (l : Loc),
    Ready s t { srcs := [a.toNat], role := .address } [x] s' → s'.findElem t.who .view x = .elem e l →
    let v := (s'.noteTlb t.core x).noteSot l.sotx
    Claim.Retires (.rship w a) s w (v.modReplica e.o.x e.d (fun r =>
      { r with lift := some (v.vword e.csn, v.time + word e.o.silence) }))) ∧
  (∀ (w : BitVec 1) (d a : BitVec 7) (sel : BitVec 3) (s s' : State) (t : Thread) (x : Word) (e : Elem) (l : Loc),
    Ready s t { srcs := [a.toNat], dst := some d.toNat, role := .address, acq := true } [x] s' →
    s'.findElem t.who .view x = .elem e l →
    let v := (s'.noteTlb t.core x).noteSot l.sotx
    (t.csr.waitlim = 0 ∨ v.awaitsReply t = false → Claim.Gives (.rstat w d a sel) s w d (v.replicaStatus e sel.toNat) v) ∧
    (v.awaitsReply t = true → Claim.Waits (.rstat w d a sel) s [a.toNat] [d.toNat] .reply x))

/-- R315, R316, R375: HLCRD writes HLCNOW to D, which names no stream register, tid or 127: the stamp becomes the larger of the
device's time base and one more than it was, and that is the value; the stamp never falls. In a replay the value is the recorded
one, whose record goes to its reader: that matching is the model's choice (log 54). Reading it issues no access and changes no
thread. -/
def Obligations.HybridClockRead : Prop :=
  (∀ (w : BitVec 1) (d : BitVec 7) (s : State) (t : Thread), Ready s t { dst := some d.toNat } [] s →
    let x := (s.hlcNow t.core t.tidWord).1
    let v := (s.hlcNow t.core t.tidWord).2
    let p := BitVec.ofNat 64 (bits s.time 57 10 * 2 ^ 16)
    Claim.Gives (.hlcrd w d) s w d x v ∧ s.hlc.toNat ≤ v.hlc.toNat ∧
      v.accs = s.accs ∧ v.threads = s.threads ∧ v.cores = s.cores ∧
      (s.replaying = false → x = (if p.toNat ≤ (s.hlc + 1).toNat then s.hlc + 1 else p) ∧
        (s.hlc ≠ allOnes → v.hlc = x ∧ (s.mgmt.det = false → v = { s with hlc := x }))) ∧
      (∀ y, s.replaying = true →
        s.mgmt.supplied.find? (fun e => decide (e.1 = 6 ∧ e.2.1 = unitCore t.core ∧ e.2.2.1 = t.tidWord)) =
          some (6, unitCore t.core, t.tidWord, y) → x = y)) ∧
  (∀ (w : BitVec 1) (d : BitVec 7), (Instr.hlcrd w d).WellFormed ↔ d.toNat ≤ 119 ∨ d = 124 ∨ d = 126)

/-- R333, R334, R335: MBSEND, MBRECV and MBPOLL on a descriptor that R332 lets through. With a free slot the message is
sent, with none the thread waits; a message in place gives the address of its slot, 0 where it failed; MBPOLL counts. (No
handler holds back a word that they reach, and none that they write has overflowed sharers, R185.) -/
def Sys2Proof.Claim.MailboxInstructions : Prop :=
  (∀ (w : BitVec 1) (d a : BitVec 7) (s s' : State) (t : Thread) (m x : Word),
    Ready s t { srcs := [d.toNat, a.toNat], role := .address, rel := some 5 } [m, x] s' → s'.boxHeld t.who x = false →
    (∀ e, s'.box t.who x 1 = .error e → Claim.Traps (.mbsend w d a) s t e) ∧
    (∀ b, s'.box t.who x 1 = .ok b →
      (∀ e, s'.locateBytes t.who .load m b.z = .error e → Claim.Traps (.mbsend w d a) s t e) ∧
      (∀ ls, s'.locateBytes t.who .load m b.z = .ok ls →
        let v := (s'.noteTlb t.core x).noteTlb t.core m
        v.boxPoison b = none →
        (b.free = 0 → Claim.Waits (.mbsend w d a) s [d.toNat, a.toNat] [] (.mailboxRoom x) x) ∧
        (b.free ≠ 0 → (v.messageBytes ls).2 = none → v.lineShared b.loc.key = false → (∀ l ∈ ls, v.lineHeld l.key = false) →
          Claim.Retires (.mbsend w d a) s w (v.sendMail t.core s.cur b (v.messageBytes ls).1))))) ∧
  (∀ (w : BitVec 1) (d a : BitVec 7) (s s' : State) (t : Thread) (x : Word),
    Ready s t { srcs := [a.toNat], dst := some d.toNat, role := .address, acq := true } [x] s' → s'.boxHeld t.who x = false →
    (∀ e, s'.box t.who x 2 = .error e → Claim.Traps (.mbrecv w d a) s t e) ∧
    (∀ b q, s'.box t.who x 2 = .ok b →
      let v := s'.noteTlb t.core x
      let k := (b.f 0).toNat % b.slots
      let before := v.stillPending (v.releaseIds s.cur 5 ++ v.acquireIds s.cur)
      (∀ j ∈ v.seqKey t.who b k, v.lineHeld j = false) → v.boxPoison b = none → v.seqPoison t.who b k = none →
      v.seqWord t.who b k = .ok q → v.stillPending (v.meetIds s.cur b.loc.key 64 true) = [] →
      (inPlace q (b.f 0).toNat = false → Claim.Waits (.mbrecv w d a) s [a.toNat] [d.toNat] (.mailboxMessage x) x) ∧
      (inPlace q (b.f 0).toNat = true → v.lineShared b.loc.key = false → (b.f 1 = 0 ∨ b.dev = v.mgmt.devno ∨ before = []) →
        Claim.Gives (.mbrecv w d a) s w d (if q.getLsbD 63 then 0 else b.f 2 + word (k * b.z))
          (v.takeMail t.core b before)))) ∧
  (∀ (w : BitVec 1) (d a : BitVec 7) (s s' : State) (t : Thread) (x : Word),
    Ready s t { srcs := [a.toNat], dst := some d.toNat, role := .address, acq := true } [x] s' → s'.boxHeld t.who x = false →
    (∀ e, s'.box t.who x 0 = .error e → Claim.Traps (.mbpoll w d a) s t e) ∧
    (∀ b, s'.box t.who x 0 = .ok b →
      let v := s'.noteTlb t.core x
      v.boxPoison b = none → v.stillPending (v.meetIds s.cur b.loc.key 64 true) = [] →
      (∀ k ∈ v.pollSlots t.who b, (∀ j ∈ v.seqKey t.who b k, v.lineHeld j = false) ∧ v.seqPoison t.who b k = none ∧
        v.seqFault t.who b k = none) →
      Claim.Gives (.mbpoll w d a) s w d
        (word (if b.sender then b.free else v.inRow t.who b (b.f 0).toNat b.slots)) v))

/-- R333, R334, R228, R384: what MBSEND and MBRECV do to a mailbox. A message sent on its own device is a store of each of
its parts of 64 bytes, then, after them all, a store of its number plus one in the slot's sequence word; one for another device
is kept and goes as flits. The next message is numbered one higher. A message taken counts in HELD and HEAD, and releases the
slot held before: on its own device by a store of TAIL after the accesses named. A word of the descriptor is written alone. -/
def Sys2Proof.Claim.MailboxSlots : Prop :=
  (∀ (s : State) (c tid : Nat) (b : Box) (bytes : List Byte),
    let q := s.putBox b 0 (b.f 0 + 1)
    let slot := b.f 2 + word ((b.f 0).toNat % b.slots * b.z)
    let num := b.f 3 + word (8 * ((b.f 0).toNat % b.slots))
    let v := s.sendMail c tid b bytes
    (∀ l8, b.dev = q.mgmt.devno →
      (∀ i, i < b.z / 64 → ∃ l, q.locate' ⟨false, 0, c⟩ .remoteWrite (slot + word (64 * i)) 64 = .ok l) →
      q.locate ⟨false, 0, c⟩ .remoteWrite num 8 = .ok l8 →
      ∃ parts seq, v.accs = q.accs ++ parts ++ [seq] ∧ parts.length = b.z / 64 ∧
        (∀ i, i < b.z / 64 → ∃ a l, parts[i]? = some a ∧
          q.locate' ⟨false, 0, c⟩ .remoteWrite (slot + word (64 * i)) 64 = .ok l ∧ a.loc = l ∧ a.tid = 0 ∧
          a.op = .store (payloadOf ((bytes.drop (64 * i)).take 64)) ∧ a.id ∈ seq.after) ∧
        seq.loc = l8 ∧ seq.tid = 0 ∧ seq.op = .store (bytesOf 8 ((b.f 0).toNat + 1))) ∧
    (b.dev ≠ q.mgmt.devno → v = q.mailAway c ⟨c, (b.f 0).toNat, b.dev, b.a, slot, num, tid, b.z⟩
      ((List.range (b.z / 64)).map (fun i => payloadOf ((bytes.drop (64 * i)).take 64))))) ∧
  (∀ (s : State) (c : Nat) (b : Box) (after : List Nat),
    let r := if b.f 1 = 0 then s else s.releaseSlot c b (b.f 1) after
    s.takeMail c b after = (r.putBox b 1 (b.f 0 + 1)).putBox b 0 (b.f 0 + 1) ∧
    ∀ l, b.dev = s.mgmt.devno → s.locate ⟨false, 0, c⟩ .store (b.f 5 + 8) 8 = .ok l →
      ∃ a, (s.releaseSlot c b (b.f 1) after).accs = s.accs ++ [a] ∧ a.loc = l ∧ a.op = .store (bytesOf 8 (b.f 1).toNat) ∧
        ∀ i ∈ after, i ∈ a.after) ∧
  (∀ (s : State) (b : Box) (i : Nat) (x : Word), s.MemWf → s.waiters = [] → s.watch = [] → b.loc.key + 8 * i + 8 ≤ controlPage →
    s.lineShared (b.loc.key + 8 * i) = false →
    s.fieldBytes (b.loc.key + 8 * i) (bytesOf 8 x.toNat) = bytesOf 8 x.toNat →
    (s.putBox b i x).rdWord (b.loc.key + 8 * i) = x ∧
    ∀ k, k < b.loc.key + 8 * i ∨ b.loc.key + 8 * i + 8 ≤ k → (s.putBox b i x).rdByte k = s.rdByte k)

/-- R342, R343, R344: TRPUT adds an operand of the core's group at the end of the inject queue, of eight entries; TRGET takes
the group's oldest result. A launch of no group traps, a full queue and a missing result are waited for; a result marked
for disagreement traps with FORMAT. -/
def Sys2Proof.Claim.CanopyInstructions : Prop :=
  (∀ (ty : BitVec 2), ∀ op ∈ Claim.trputs ty, ∀ (w : BitVec 1) (r : BitVec 5) (s : State) (t : Thread),
    Ready s t { vregs := [r.toNat], rel := if op.2.1 = 7 then some 4 else none } [] s →
    let g := s.groupOf t.lnum
    let round := (look (s.core t.core).canopyN g).getD 0
    (g = 0 → Claim.Traps (op.1 w r) s t ⟨cUNAVAILABLE, s.iword.zeroExtend 64⟩) ∧
    (g ≠ 0 → 8 ≤ (s.core t.core).canopyIn.length →
      Claim.Waits (op.1 w r) s [] [] (.canopyRoom t.core) (s.iword.zeroExtend 64)) ∧
    (g ≠ 0 → (s.core t.core).canopyIn.length < 8 → ∃ v, Claim.Retires (op.1 w r) s w v ∧
      (v.core t.core).canopyIn = (s.core t.core).canopyIn ++ [⟨g, round, op.2.1, op.2.2, t.vr r.toNat⟩] ∧
      look (v.core t.core).canopyN g = some (round + 1) ∧
      v.thread s.cur = some { t with lastPut := some (op.2.1, op.2.2) } ∧ (∀ k, v.rdByte k = s.rdByte k) ∧
      ∀ c, c ≠ t.core → v.core c = s.core c)) ∧
  (∀ (w : BitVec 1) (r : BitVec 5) (s : State) (t : Thread), Ready s t { vregs := [r.toNat] } [] s →
    let g := s.groupOf t.lnum
    (g = 0 → Claim.Traps (.trget w r) s t ⟨cUNAVAILABLE, s.iword.zeroExtend 64⟩) ∧
    (g ≠ 0 → s.resultFor t.core g = none → Claim.Waits (.trget w r) s [] [] (.canopyResult t.core) (s.iword.zeroExtend 64)) ∧
    (∀ q, g ≠ 0 → s.resultFor t.core g = some q →
      (q.bad = true → Claim.Traps (.trget w r) s t ⟨cFORMAT, word q.round⟩) ∧
      (q.bad = false → (q.barrier = true → s.stillPending (s.acquireIds s.cur) = []) →
        ∃ v, Claim.Retires (.trget w r) s w v ∧ v.thread s.cur = some (t.setV r.toNat q.data) ∧
          v.core t.core = { s.core t.core with canopyOut := (s.core t.core).canopyOut.erase q } ∧
          (∀ c, c ≠ t.core → v.core c = s.core c) ∧ (∀ k, v.rdByte k = s.rdByte k))))

/-- R346, R349, R350: taking a trap. The thread is TRAPPED, with the code in `tcause`, the address to resume at in `tepc` and
the value of the code in `tval`; its registers, its pc and its place stay, its open packet and its wait are given up, and
its slot's handler start is requested. An asynchronous trap sets bit 31 of `tcause`. -/
def Sys2Proof.Claim.EnteringATrap : Prop :=
  ∀ (s : State) (tid : Nat) (t : Thread) (async : Bool) (r : TrapRec) (tepc : Word) (p : Place), s.thread tid = some t →
    t.job = none → t.place = some p → r.code < 2 ^ 31 → (∀ d ∈ t.outs, d.waiting ≠ []) → p.slot < (s.core p.core).slots.length →
    ∃ u, (s.enterTrap tid async r tepc).thread tid = some u ∧ u.state = .trapped ∧
      u.csr = { t.csr with tcause := word (r.code + (if async then 2 ^ 31 else 0)), tepc := tepc, tval := r.tval } ∧
      u.x = t.x ∧ u.v = t.v ∧ u.pw = t.pw ∧ u.pc = t.pc ∧ u.place = t.place ∧ u.outs = t.outs ∧ u.packet = none ∧
      u.wait = none ∧
      (((s.enterTrap tid async r tepc).core p.core).slot p.slot).starts =
        ((s.core p.core).slot p.slot).starts ++ [.system tid r.code] ∧
      ∀ n, n ≠ tid → (s.enterTrap tid async r tepc).thread n = s.thread n

/-- R349, R381, R360: a trap in a handler. In a system handler both codes are logged with the core (0x06), the handler ends,
and so does its target: both are EXITED. In a directory-overflow handler the code is logged as a fatal error, the handler ends,
and the device is to enter RECOVERY. A malformed translation entry that the trap's own walk met is logged first (R360). -/
def Sys2Proof.Claim.HandlerTraps : Prop :=
  (∀ (s : State) (tid target first : Nat) (t u : Thread) (async : Bool) (r : TrapRec) (tepc : Word), s.thread tid = some t →
    t.job = some (.system target first) → s.thread target = some u → tid ≠ target →
    let v := s.enterTrap tid async r tepc
    v = ((((s.noteWalk t.core r).logError 0x06 (unitCore t.core) (word first) (word r.code)).finishThread tid).settle
      target).finishThread target ∧
    ∃ q p, v.thread tid = some q ∧ q.state = .exited ∧ q.place = none ∧ v.thread target = some p ∧ p.state = .exited ∧
      p.place = none) ∧
  (∀ (s : State) (tid line : Nat) (t : Thread) (async : Bool) (r : TrapRec) (tepc : Word), s.thread tid = some t →
    t.job = some (.directory line) →
    let v := s.enterTrap tid async r tepc
    v = ((s.noteWalk t.core r).endThread tid).fatalError (unitCore t.core) 2 (word r.code) ∧ v.mgmt.modeLater = some 3 ∧
    ∃ q, v.thread tid = some q ∧ q.state = .exited ∧ q.place = none)

/-- R363, R348, R352, R372, R128: TRAP takes SYSCALL with its operand, to resume at the next word; BKPT takes BREAKPOINT, or,
claimed by a debug session, stops its thread; a word that is no instruction takes ILLEGAL. ERET ends a system handler and
its target resumes at `tepc`; UIRET goes to `uepc` and clears `ts.UIM`. Elsewhere these two trap. -/
def Sys2Proof.Claim.TrapInstructions : Prop :=
  (∀ (w : BitVec 1) (c : BitVec 6) (s : State) (t : Thread), Plain s t {} →
    exec (.trap w c) s = .next (s.enterTrap s.cur false ⟨cSYSCALL, c.zeroExtend 64⟩ (t.pc + 4))) ∧
  (∀ (w : BitVec 1) (s : State) (t : Thread), Plain s t {} →
    (s.claimed t = false → Claim.Traps (.bkpt w) s t ⟨cBREAKPOINT, 0⟩) ∧
    (s.claimed t = true → ∃ v u, exec (.bkpt w) s = .next v ∧ v.thread s.cur = some u ∧ u.state = .trapped ∧
      u.debugStop = true ∧ u.pc = t.pc ∧ u.csr.tcause = word cBREAKPOINT ∧ u.csr.tepc = t.pc)) ∧
  (∀ (x : BitVec 32) (s : State) (t : Thread), s.thread s.cur = some t → t.state ≠ .exited →
    ∃ v, exec (.illegalEncoding x) s = .next v ∧ (t.job = none → ∃ u, v.thread s.cur = some u ∧ u.state = .trapped ∧
      u.csr.tcause = word cILLEGAL ∧ u.csr.tval = x.zeroExtend 64 ∧ u.csr.tepc = t.pc)) ∧
  (∀ (w : BitVec 1) (s : State) (t : Thread), Plain s t { system := true } →
    (∀ g n, t.job = some (.system g n) → exec (.eret w) s = .next ((s.count t.core 2 1).returnFrom s.cur g)) ∧
    ((¬ ∃ g n, t.job = some (.system g n)) → Claim.Traps (.eret w) s t ⟨cUNAVAILABLE, s.iword.zeroExtend 64⟩)) ∧
  (∀ (w : BitVec 1) (s : State) (t : Thread), Plain s t {} →
    (t.csr.ts.getLsbD 8 = true →
      Claim.Ends (.uiret w) s w (t.modCsr (fun c => { c with ts := setBits c.ts 8 8 0 })) (some t.csr.uepc)) ∧
    (t.csr.ts.getLsbD 8 = false → Claim.Traps (.uiret w) s t ⟨cUNAVAILABLE, s.iword.zeroExtend 64⟩))

/-- R348, R349: the handler of a trapped thread that is not in a repeat frame returns: the handler's thread has ended, and
the target is READY at its `tepc`; nothing else of the target's registers differs. -/
def Sys2Proof.Claim.ReturnFromTrap : Prop :=
  ∀ (s : State) (tid target : Nat) (t h : Thread), tid ≠ target → s.thread tid = some h → s.thread target = some t →
    h.kind = .handler → (∃ n, h.job = some (.system target n)) → t.state = .trapped → t.inFrame = false →
    ∃ u, (s.returnFrom tid target).thread target = some u ∧ u.state = .ready ∧ u.pc = t.csr.tepc ∧ u.x = t.x ∧ u.v = t.v ∧
      u.pw = t.pw ∧ u.csr = t.csr ∧ u.taint = t.taint ∧
      ∃ q, (s.returnFrom tid target).thread tid = some q ∧ q.state = .exited

/-- R95, R96, R101, R102, R364: the CSR instructions. CSRRD gives the CSR, untainted; CSRWR, CSRSET and CSRCLR change the bits
of it that may be written, and no other; a CSR from 0x400 on traps with PRIVILEGE in user mode. -/
def Sys2Proof.Claim.CsrInstructions : Prop :=
  (∀ (w : BitVec 1) (d : BitVec 7) (c n : BitVec 6) (s : State) (t : Thread),
    let k := 64 * c.toNat + n.toNat
    Ready s t { dst := some d.toNat, system := decide (0x400 ≤ k) } [] s →
    let r := if k = 12 ∨ (0x400 ≤ k ∧ k < 0x5C0 ∧ k % 64 = 12) then s.timeValue t.core 5 t.tidWord (s.readCsr t k)
      else (s.readCsr t k, s)
    Claim.Gives (.csrrd w d c n) s w d r.1 r.2 ∧
      (s.replaying = false → r.1 = s.readCsr t k ∧ (s.mgmt.det = false → r.2 = s))) ∧
  (∀ op ∈ Claim.csrWrites, ∀ (w : BitVec 1) (d : BitVec 7) (c n : BitVec 6) (s s' : State) (t u : Thread) (x : Word),
    let k := 64 * c.toNat + n.toNat
    Ready s t { srcs := [d.toNat], system := decide (0x400 ≤ k) } [x] s' → s'.thread s.cur = some u →
    Claim.Retires (op.1 w d c n) s w (s'.writeCsr s.cur u k (op.2 (s'.readCsr u k) x))) ∧
  (∀ op ∈ Claim.csrWrites, ∀ (w : BitVec 1) (d : BitVec 7) (c n : BitVec 6) (s : State) (t : Thread),
    s.thread s.cur = some t → t.state ≠ .exited → t.user = true → 0x10 ≤ c.toNat →
    Claim.TrapsUnheld (op.1 w d c n) s t { srcs := [d.toNat] } ⟨cPRIVILEGE, s.iword⟩ ∧
    Claim.TrapsUnheld (.csrrd w d c n) s t { dst := some d.toNat } ⟨cPRIVILEGE, s.iword⟩)

/-- R96 to R99, R364: a thread's own CSRs 0 to 12. What a write leaves: the new value in the bits that the thread's mode may
write, the old value in the others; no other CSR, and no register, differs. `wnd` and `time` stay. -/
def Sys2Proof.Claim.OwnCsrWrites : Prop :=
  ∀ (s : State) (t : Thread) (n : Nat) (x : Word), s.thread s.cur = some t → n ≤ 12 →
    let user : Nat → Word := fun n => nth [0x7F, 0x107, 0, 0, 0, 0, allOnes, 0, 0, allOnes, 0, 0, 0] n 0
    let system : Nat → Word := fun n =>
      nth [0x7F, 0x107, 0x800000FF, allOnes, allOnes, 0x7F, allOnes, 0xFFFF, allOnes, allOnes, 0xFFFFFF00, 0, 0] n 0
    let m := if t.user then user n else system n
    ∃ u, (s.writeCsr s.cur t n x).thread s.cur = some u ∧
      (s.writeCsr s.cur t n x).ownCsr u n = (s.ownCsr t n &&& ~~~m) ||| (x &&& m) ∧
      (∀ j, j ≤ 12 → j ≠ n → (s.writeCsr s.cur t n x).ownCsr u j = s.ownCsr t j) ∧
      u.x = t.x ∧ u.v = t.v ∧ u.pw = t.pw ∧ u.pc = t.pc ∧ (s.writeCsr s.cur t n x).mem = s.mem

/-- R95, R96: the CSRs of a resident of the same slot, 0x400 + 64p + n. A read gives CSR n of the thread at position p; a write
leaves there the new value in the bits that system mode may write, and no other CSR, register or thread differs. A position
without a thread reads zero and ignores writes. -/
def Sys2Proof.Claim.NeighbourCsrs : Prop :=
  ∀ (s : State) (t : Thread) (x : Word) (q : Place) (p n : Nat), s.thread s.cur = some t → t.place = some q → p < 7 → n ≤ 12 →
    let k := 0x400 + 64 * p + n
    let m := nth [0x7F, 0x107, 0x800000FF, allOnes, allOnes, 0x7F, allOnes, 0xFFFF, allOnes, allOnes, 0xFFFFFF00, 0, 0] n 0
    let v := s.writeCsr s.cur t k x
    (s.resident q.core q.slot p = none → s.readCsr t k = 0 ∧ v = s) ∧
    (∀ g u, s.resident q.core q.slot p = some (g, u) → s.thread g = some u → s.readCsr t k = s.ownCsr u n ∧
      ∃ u', v.thread g = some u' ∧ s.ownCsr u' n = (s.ownCsr u n &&& ~~~m) ||| (x &&& m) ∧
        (∀ j, j ≤ 12 → j ≠ n → s.ownCsr u' j = s.ownCsr u j) ∧ u'.x = u.x ∧ u'.v = u.v ∧ u'.pw = u.pw ∧ u'.pc = u.pc ∧
        (∀ i, i ≠ g → v.thread i = s.thread i) ∧ v.cores = s.cores ∧ v.mem = s.mem)

/-- R95, R96, R101: what `hsel` reaches. A write of `hsel` changes POS, REG and CHUNK alone. While POS selects no thread, the
other four read zero and ignore writes: for POS 7 the model's choice (log 72). With a target, `hsreg` is its scalar register
REG, or `pw` for REG 126; `hvreg` is 64 bits of its vector register; `htaint0` and `htaint1` are its taint bits; a register
beyond its window reads zero and ignores writes, and nothing else of the target, and no other thread, differs. -/
def Sys2Proof.Claim.TargetCsrs : Prop :=
  ∀ (s : State) (t : Thread) (x : Word) (q : Place), s.thread s.cur = some t → t.place = some q →
    let h := t.csr.hsel
    let r := bits h 12 6
    let c := bits h 15 13
    let w := fun k => s.writeCsr s.cur t k x
    (s.readCsr t 0x7C0 = h ∧ w 0x7C0 =
      s.setThread s.cur { t with csr := { t.csr with hsel := (h &&& ~~~0xFFC7) ||| (x &&& 0xFFC7) } }) ∧
    (bits h 2 0 = 7 ∨ s.resident q.core q.slot (bits h 2 0) = none →
      ∀ k, 0x7C0 < k → k ≤ 0x7C4 → s.readCsr t k = 0 ∧ w k = s) ∧
    (∀ g u, bits h 2 0 ≠ 7 → s.resident q.core q.slot (bits h 2 0) = some (g, u) → s.thread g = some u → u.taint.length = 112 →
      (s.readCsr t 0x7C1 = if r = 126 then u.pw else if r < 112 then nth u.x r 0 else 0) ∧
      (w 0x7C1).thread g = some (if r = 126 then { u with pw := x }
        else if r < 112 then { u with x := modify u.x r (fun _ => x) } else u) ∧
      (∀ i, i < 64 → (s.readCsr t 0x7C2).getLsbD i = (nth u.v r 0).getLsbD (64 * c + i)) ∧
      (∃ u', (w 0x7C2).thread g = some u' ∧ u' = { u with v := u'.v } ∧ u'.v.length = u.v.length ∧
        ∀ a i, a < u.v.length → i < 512 → (nth u'.v a 0).getLsbD i =
          if a = r ∧ i / 64 = c then x.getLsbD (i % 64) else (nth u.v a 0).getLsbD i) ∧
      (∀ i, i < 64 → (s.readCsr t 0x7C3).getLsbD i = nth u.taint i false ∧
        (s.readCsr t 0x7C4).getLsbD i = decide (i < 48 ∧ nth u.taint (64 + i) false = true)) ∧
      (∃ u', (w 0x7C3).thread g = some u' ∧ u' = { u with taint := u'.taint } ∧ u'.taint.length = 112 ∧
        ∀ i, i < 112 → nth u'.taint i false = if i < 64 then x.getLsbD i else nth u.taint i false) ∧
      (∃ u', (w 0x7C4).thread g = some u' ∧ u' = { u with taint := u'.taint } ∧ u'.taint.length = 112 ∧
        ∀ i, i < 112 → nth u'.taint i false = if i < 64 then nth u.taint i false else x.getLsbD (i - 64)) ∧
      ∀ k, 0x7C0 < k → k ≤ 0x7C4 → (w k).cores = s.cores ∧ (w k).mem = s.mem ∧ ∀ i, i ≠ g → (w k).thread i = s.thread i)

/-- R96, R101, R102: the per-core CSRs. `tbase` takes a base of 4 KiB alignment; a write of `slotcfg` sets POL for the slot's
next turn and keeps OWNER; one of `band` sets V and LNUM and keeps SAVED; one of `pmc` or `pmsel` waits for the core's next
turn, at whose start it is in force. No thread, no other core and no byte of memory differs. -/
def Sys2Proof.Claim.CoreCsrs : Prop :=
  ∀ (s : State) (t : Thread) (x : Word), s.thread s.cur = some t →
    let k := s.core t.core
    let w := fun n => (s.writeCsr s.cur t n x).core t.core
    (s.readCsr t 0x800 = k.tbase ∧ w 0x800 = { k with tbase := (k.tbase &&& 0xFFF) ||| (x &&& ~~~0xFFF) }) ∧
    (∀ j, j < 8 → s.readCsr t (0x808 + j) = word ((k.slot j).owner % 16 * 16 + if (k.slot j).polNext then 1 else 0) ∧
      w (0x808 + j) = { k with slots := modify k.slots j (fun q => { q with polNext := x.getLsbD 0 }) }) ∧
    (∀ j, j < 32 →
      (let b := nth k.bands j {}
       s.readCsr t (0x820 + j) = word (b.lnum % 2 ^ 14 + (if b.v then 2 ^ 14 else 0) + if b.saved then 2 ^ 15 else 0)) ∧
      w (0x820 + j) = { k with bands := modify k.bands j (fun b => { b with v := x.getLsbD 14, lnum := bits x 13 0 }) }) ∧
    (∀ j, j < 16 → s.readCsr t (0x840 + j) = nth k.pmc j 0 ∧
      (w (0x840 + j)).pmc = k.pmc ∧ w (0x840 + j) = { k with pmcLater := Machine.put k.pmcLater j x } ∧
      (k.pmcLater = [] → (w (0x840 + j)).beginTurn.pmc = modify k.pmc j (fun _ => x))) ∧
    (∀ j, j < 16 → s.readCsr t (0x850 + j) = (nth k.pmsel j 0).zeroExtend 64 ∧
      (w (0x850 + j)).pmsel = k.pmsel ∧ w (0x850 + j) = { k with pmselLater := Machine.put k.pmselLater j (x.truncate 8) } ∧
      (k.pmselLater = [] → (w (0x850 + j)).beginTurn.pmsel = modify k.pmsel j (fun _ => x.truncate 8))) ∧
    ∀ n, 0x800 ≤ n → (∀ c, c ≠ t.core → (s.writeCsr s.cur t n x).core c = s.core c) ∧
      (s.writeCsr s.cur t n x).threads = s.threads ∧ (s.writeCsr s.cur t n x).mem = s.mem

namespace Sys2Proof.Claim

/-- Does a translation of a page at x, of either size, or of any page, stand in a TLB entry (R365). -/
def OfPage (e : TlbEntry) (all : Bool) (x : Word) : Prop :=
  all = true ∨ (bits x 63 56 = 0 ∧ (if e.big then e.vpn / 1024 = x.toNat / 2 ^ 26 else e.vpn = x.toNat / 2 ^ 16))

/-- Access a was translated by TLB entry e: by its own core's, or its grove's. -/
def Translated (a : Access) (e : TlbEntry) : Prop :=
  (e.owner = a.core ∨ e.owner = bstoreHome (groveOf a.core)) ∧ ∃ x ∈ a.vas, OfPage e false x

end Sys2Proof.Claim

/-- R365, R358, R361: TLBINV waits for the thread's writes within its scope and makes its earlier reads ones that later accesses
follow; it drops the translations of the page, or of all pages, from the TLBs within that scope, and no others, and the thread
issues nothing more until every access that one of them translated is performed. Translations that page-table stores have
replaced are dropped with them; ALL at DEVICE brings new bases of the tables into force. The model's choices of log entry 62
are part of it. -/
def Obligations.TranslationsInvalidated : Prop :=
  ∀ (w : BitVec 1) (a : BitVec 7) (sc : BitVec 3) (s s' : State) (t : Thread) (xs : List Word) (all : Bool),
    (if all then Plain s t { system := true } ∧ s' = s
      else Ready s t { srcs := [a.toNat], system := true, role := .address } xs s') →
    let i : Instr := if all then .tlbinvAll w sc else .tlbinv w a sc
    let held := (s'.accs.filter (fun q => q.tid = s.cur && q.op.isWrite && decide (q.level ≤ sc.toNat))).map (fun q => q.id)
    let Dropped := fun (e : TlbEntry) => tlbCovered t.core sc.toNat e.owner = true ∧ Claim.OfPage e all (arg xs 0)
    (held ≠ [] → Claim.Stalls i s t
      (if all then { system := true } else { srcs := [a.toNat], system := true, role := .address }) held) ∧
    (held = [] → ∃ v u, exec i s = .next v ∧ v.thread s.cur = some u ∧ (w = 0 → v.mem = s'.mem) ∧
      (∀ e, e ∈ v.tlbs ↔ e ∈ s'.tlbs ∧ ¬ Dropped e) ∧
      (∀ n, n ∈ u.hold ↔ ∃ q ∈ s'.accs, q.id = n ∧ ∃ e ∈ s'.tlbs, Dropped e ∧ Claim.Translated q e) ∧
      (∀ e ∈ s'.stale, (all = true ∨ (bits (arg xs 0) 63 56 = 0 ∧ mapsPage e.big e.va (arg xs 0).toNat = true)) →
        (4 ≤ sc.toNat → e ∉ v.stale) ∧ (sc.toNat < 4 → (∀ q ∈ e.gone, q.2 < 4) →
          { e with gone := e.gone ++ [(t.core, sc.toNat)] } ∈ v.stale)) ∧
      v.roots = (if all = true ∧ 4 ≤ sc.toNat then (nth s'.ctl 0 0, nth s'.ctl 1 0) else s'.roots) ∧
      (∀ q ∈ v.accs, q.tid = s.cur → q.op.isRead = true → q.acq = true))

/-- R107, R23, R33, R89, R91, R104, R105: what an instruction meets before anything happens, in this order: a form that only a
microthread has, a system instruction in user mode, what its thread's role forbids, a register beyond the window, an
unbound head, a register whose result is outstanding. -/
def Sys2Proof.Claim.FirstTrap : Prop :=
  ∀ (s : State) (t : Thread) (u : Use),
    (u.mtOnly = true → t.kind ≠ .mt → s.checks t u = some ⟨cILLEGAL, s.iword⟩) ∧
    ((u.mtOnly = true → t.kind = .mt) → u.system = true → t.user = true → s.checks t u = some ⟨cPRIVILEGE, s.iword⟩) ∧
    ((u.mtOnly = true → t.kind = .mt) → (u.system = true → t.user = false) →
      ((u.role = .float ∧ t.role = .access) ∨ (u.role = .address ∧ t.role = .execute) →
        s.checks t u = some ⟨cROLE, s.iword⟩) ∧
      (¬ ((u.role = .float ∧ t.role = .access) ∨ (u.role = .address ∧ t.role = .execute)) →
        ((∃ f ∈ u.fields ++ u.regs, t.slen ≤ f ∧ f ≤ 111) ∨ t.slen < u.upto ∧ t.slen ≤ 111 ∨ (∃ v ∈ u.vregs, t.vlen ≤ v) →
          ∃ n, s.checks t u = some ⟨cREGISTER, word n⟩) ∧
        (u.badRegs t = [] →
          ((∃ f ∈ u.fields, 112 ≤ f ∧ f ≤ 119 ∧ (t.kind = .mt ∨ headKind (t.headOf (f - 112)) = 0)) →
            ∃ n, s.checks t u = some ⟨cCHANNEL, word n⟩) ∧
          (u.unbound t = [] → (∃ f ∈ u.fields ++ u.regs, f ≤ 111 ∧ ∃ d ∈ t.outs, d.dest = f) →
            ∃ n, s.checks t u = some ⟨cHAZARD, word n⟩))))

/-! ### What happens between instructions: arbiters, handlers, engines -/

namespace Sys2Proof.Claim

/-- A copy at the head of engine 0's queue of core c, started, in D0. -/
def AtHead (s : State) (c xid : Nat) (o : EngOp) : Prop :=
  (∃ r, (s.core c).eng0 = o :: r) ∧ o.xid = xid ∧ s.mgmt.power = 0 ∧ o.state ≠ 0 ∧ o.fault = none

/-- The state in which operation xid has left engine e of core c with its identifier in DONE, nothing of it being still
to be performed (R260). -/
def Retired (s v : State) (c e xid : Nat) : Prop :=
  (v.core c).engine e = ((s.core c).engine e).filter (fun o => o.xid ≠ xid) ∧
  ((s.core c).xstat.length = 2 → (nth (v.core c).xstat e (0, 0)).1 = xid) ∧ ∀ d, d ≠ c → v.core d = s.core d

/-- A thread between two of its instructions, in its position, that nothing keeps from an event (R350, R354). -/
structure Between (s : State) (t : Thread) : Prop where
  state : t.state = .ready ∨ t.state = .parked ∨ t.state = .blocked
  place : t.place.isSome = true
  hold : s.stillPending t.hold = []
  packet : t.packet = none
  stalled : t.stalled = none
  wait : ∀ w, t.wait = some w → w.ready = false

end Sys2Proof.Claim

namespace Sys2Proof.Claim

/-- The counts of R42 for the active queues qs, in ascending order: of more than eight the first eight by urgency, weight and
number; one slot each and a part of the rest by weight, the slots left over by the largest remainders. -/
def Counted (s : State) (qs : List Nat) (counts : Tab Nat) : Prop :=
  let first := fun (a b : Nat) => (s.isUrgent a = true ∧ s.isUrgent b = false) ∨ (s.isUrgent a = s.isUrgent b ∧
    (s.weight b < s.weight a ∨ (s.weight a = s.weight b ∧ a < b)))
  let A := counts.map (fun e => e.1)
  let W := (A.map s.weight).sum
  let part := fun (q : Nat) => (8 - A.length) * s.weight q
  A.length = min 8 qs.length ∧ A.Nodup ∧ (∀ a ∈ A, a ∈ qs ∧ ∀ b ∈ qs, b ∉ A → first a b) ∧
  (counts.map (fun e => e.2)).sum = 8 ∧
  ∃ more : List Nat, (∀ a ∈ more, a ∈ A ∧ ∀ b ∈ A, b ∉ more → part b % W < part a % W ∨ (part a % W = part b % W ∧ a < b)) ∧
    ∀ e ∈ counts, e.2 = 1 + part e.1 / W + (if e.1 ∈ more then 1 else 0)

/-- The smallest change of R43 from owners old to new: each queue owns as many slots as its count; one that owns more than
that keeps its lowest; the freed slots, ascending, go to queues in ascending order. -/
def SmallestChange (old new : List Nat) (counts : Tab Nat) : Prop :=
  let want := fun (q : Nat) => (look counts q).getD 0
  let kept := fun (i : Nat) => ((old.take i).filter (fun q => q = nth old i 0)).length < want (nth old i 0)
  new.length = 8 ∧ (∀ q, (new.filter (fun o => o = q)).length = want q) ∧ (∀ i, i < 8 → kept i → nth new i 0 = nth old i 0) ∧
  ∀ i j, i < j → j < 8 → ¬ kept i → ¬ kept j → nth new i 0 ≤ nth new j 0

end Sys2Proof.Claim

namespace Sys2Proof.Claim

/-- At its turn slot j of core c chooses the resident e, and is left as q but for its last position: e's wait count is 0, that of
every other eligible resident one higher, and no other thread differs (R28). -/
def Chosen (s : State) (c j : Nat) (q : Slot) (e : Nat × Nat × Thread) : Prop :=
  ∃ v, s.choose c j = some (e.2.1, v) ∧ (v.core c).slot j = { q with lastPos := e.1 } ∧
    (∀ f ∈ s.candidates c j,
      v.thread f.2.1 = some { f.2.2 with waitCount := if f.1 = e.1 then 0 else f.2.2.waitCount + 1 }) ∧
    (∀ n, (∀ f ∈ s.candidates c j, f.2.1 ≠ n) → v.thread n = s.thread n) ∧ v.mem = s.mem

/-- e is the oldest of the residents in l that p admits; of two of one age the lower position is the older (R29). -/
def Oldest (l : List (Nat × Nat × Thread)) (p : Nat × Nat × Thread → Prop) (e : Nat × Nat × Thread) : Prop :=
  e ∈ l ∧ p e ∧ ∀ f ∈ l, p f → f.1 ≠ e.1 → e.2.2.age < f.2.2.age ∨ (e.2.2.age = f.2.2.age ∧ e.1 < f.1)

end Sys2Proof.Claim

/-- R28, R29: which resident issues at a slot's turn. An eligible handler does, and changes no count. Under GTO the oldest overdue
resident but the current one does; else the current one, while it may; else the oldest other, or the current one again. Under
RR the next after the last position does. -/
def Sys2Proof.Claim.ResidentChosen : Prop :=
  ∀ (s : State) (c j : Nat), j < (s.core c).slots.length →
    let l := s.candidates c j
    let q := (s.core c).slot j
    (∀ p tid t, (p, tid, t) ∈ l ↔ p < 7 ∧ s.resident c j p = some (tid, t) ∧ s.eligible tid t = true) ∧
    (∀ tid t, s.resident c j 7 = some (tid, t) → s.eligible tid t = true → s.choose c j = some (tid, s)) ∧
    ((∀ tid t, s.resident c j 7 = some (tid, t) → s.eligible tid t = false) → (∀ e ∈ l, s.thread e.2.1 = some e.2.2) →
      q.lastPos < 7 →
      let other := fun (e : Nat × Nat × Thread) => q.current ≠ some e.1
      let overdue := fun (e : Nat × Nat × Thread) => other e ∧ 64 ≤ e.2.2.waitCount
      let runs := fun (e : Nat × Nat × Thread) => q.current = some e.1 ∧ q.greed < 64 ∧ q.yielded = false
      let fresh := fun (e : Nat × Nat × Thread) => ({ q with current := some e.1, greed := 1, yielded := false } : Slot)
      (l = [] → s.choose c j = none) ∧
      (∀ e ∈ l, q.pol = true → (∀ f ∈ l, (e.1 + 6 - q.lastPos) % 7 ≤ (f.1 + 6 - q.lastPos) % 7) → Claim.Chosen s c j q e) ∧
      (q.pol = false →
        (∀ e, Claim.Oldest l overdue e → Claim.Chosen s c j (fresh e) e) ∧
        ((∀ f ∈ l, ¬ overdue f) →
          (∀ e ∈ l, runs e → Claim.Chosen s c j { q with greed := q.greed + 1 } e) ∧
          ((∀ f ∈ l, ¬ runs f) →
            (∀ e, Claim.Oldest l other e → Claim.Chosen s c j (fresh e) e) ∧
            ((∀ f ∈ l, ¬ other f) → ∀ e ∈ l, Claim.Chosen s c j (fresh e) e)))))

/-- R28, R40 to R45: a slot's turn is taken by the resident that its policy chooses, with the wait counts, the greed and the last
position that this leaves. At a share boundary core c's slots take the owners of R43 for the counts of R42, and the boundary has
been passed; an urgent computation does the same at the start of a rotation between boundaries, and no turn comes before it;
with no active queue each slot keeps its owner. A core goes by the control words of its last computation until the next, and an
URGENT queue that becomes active where it owns no slot makes an urgent one due. A resident of a slot that changes owner has left
or is to be pre-empted. The model's choices of log entries 12, 13 are part of it. -/
def Obligations.SlotSharing : Prop :=
  Claim.ResidentChosen ∧
  (∀ (s : State) (c : Nat), s.mgmt.power = 0 → s.shareDue c = true → (s.core c).slots.length = 8 → let b := s.passNotify c
    ∃ v, Claim.Happens (.shareComputation c) s v ∧ (v.core c).lastShare = (s.core c).rotation ∧ (v.core c).urgent = false ∧
      (v.core c).owners = (if b.activeQueues c = [] then (s.core c).owners
        else newOwners (s.core c).owners (b.shareCounts (b.activeQueues c)))) ∧
  (∀ (s : State) (c : Nat), s.mgmt.power = 0 → (s.core c).urgent = true → (s.core c).nextSlot = 0 → s.turnDue c = false ∧
    (s.shareDue c = false → Claim.Happens (.urgentShareComputation c) s (s.shareNow c))) ∧
  (∀ (s : State) (c : Nat), (s.core c).slots.length = 8 → let v := s.shareNow c
    (v.core c).owners =
      (if s.activeQueues c = [] then (s.core c).owners else newOwners (s.core c).owners (s.shareCounts (s.activeQueues c))) ∧
    (∀ q, q < 16 → v.queueWordAt c q = s.queueWord q) ∧
    ∀ j tid t, j < 8 → (tid, t) ∈ s.inSlot c j → s.thread tid = some t → nth (v.core c).owners j 0 ≠ nth (s.core c).owners j 0 →
      ∃ u, v.thread tid = some u ∧ (u.place = none ∨ u.preempt = true)) ∧
  (∀ (s : State) (c : Nat), c < 2048 → (((s.noteUrgent).core c).urgent = true ↔ (s.core c).urgent = true ∨
    ∃ q, q < 16 ∧ bits (s.queueWordAt c q) 7 0 ≠ 0 ∧ bitAt (s.queueWordAt c q) 8 = true ∧ s.runnable c q = true ∧
      q ∉ (s.core c).wasActive ∧ q ∉ (s.core c).owners)) ∧
  (∀ (s : State) (qs : List Nat), qs ≠ [] → List.Pairwise (fun a b => a < b) qs → (∀ q ∈ qs, q < 16 ∧ s.weight q ≠ 0) →
    Claim.Counted s qs (s.shareCounts qs)) ∧
  (∀ (owners : List Nat) (counts : Tab Nat), owners.length = 8 → (∀ q ∈ owners, q < 16) →
    (counts.map (fun e => e.1)).Nodup → (∀ e ∈ counts, e.1 < 16) → (counts.map (fun e => e.2)).sum = 8 →
    Claim.SmallestChange owners (newOwners owners counts) counts)

/-- R25, R346, R347, R185, R285: HANDLER_START puts a handler of 32 scalar and 8 vector registers in position 7 of its
slot: at the vector of the trap's code in system mode with the target's position and cause in its first registers, at
0x800 for a directory line, or at 0xC00 in user mode with the row for a drain, or zeros and a pending ECC_UNCORRECTABLE for
a poisoned row (R287). DIRECTORY_OVERFLOW requests one at slot PA[9:7] of the line's home, and the line has overflowed sharers,
which its next write invalidates. The model's choices of log entries 18, 20, 32 are part of it. -/
def Obligations.HandlersStart : Prop :=
  (∀ (s : State) (c j : Nat) (h : HandlerFor) (rest : List HandlerFor), ((s.core c).slot j).starts = h :: rest →
    s.resident c j 7 = none → s.mgmt.power = 0 → s.thread s.nextTid = none → j < (s.core c).slots.length →
    let new := fun (v : State) (u : Thread) (pc : Word) (regs : List Word) => Claim.Happens (.handlerStart c j) s v ∧
      v.thread s.nextTid = some u ∧ u.kind = .handler ∧ u.state = .ready ∧ u.place = some ⟨c, j, 7⟩ ∧ u.core = c ∧ u.pc = pc ∧
      u.slen = 32 ∧ u.vlen = 8 ∧ u.sbase = 256 * j + 224 ∧ u.vbase = 64 * j + 56 ∧ u.x = fit 32 0 regs ∧ u.job = some h ∧
      ((v.core c).slot j).starts = rest ∧ ∀ n, n ≠ s.nextTid → v.thread n = s.thread n
    let base := (s.core c).tbase
    (∀ target code t, h = .system target code → s.thread target = some t → t.state = .trapped → t.allReturned = true →
      s.accs.all (fun a => decide (a.tid ≠ target)) = true →
      ∃ v u, new v u (base + word (64 * code))
          [word (t.place.getD ⟨c, j, 0⟩).pos, t.csr.tcause, t.csr.tepc, t.csr.tval] ∧
        u.user = false ∧ u.lnum = t.lnum ∧ u.csr.hsel = word (t.place.getD ⟨c, j, 0⟩).pos) ∧
    (∀ line, h = .directory line → ∃ v u, new v u (base + 0x800) [] ∧ u.user = false) ∧
    (∀ d x b row n data bad own o, h = .drain d x b row n data bad own → s.engOp c 1 x = some o →
      ∃ v u, new v u (base + 0xC00) [word row, word x, nth o.fields 6 0, nth o.fields 7 0] ∧ u.user = true ∧ u.lnum = n ∧
        (bad = false → u.traps = [] ∧ ∀ i, i < 8 → nth u.v i 0 = BitVec.ofNat 512 (data.toNat / 2 ^ (512 * i))) ∧
        (bad = true → (∃ a, u.traps = [⟨cECC, a⟩]) ∧ ∀ i, i < 8 → nth u.v i 0 = 0))) ∧
  (∀ (s : State) (line c : Nat), s.mgmt.power = 0 → s.lineHeld (128 * line) = false → s.lineHome line = some c →
    Claim.Happens (.directoryOverflow line) s (({ s with overflowed := Sys2Proof.Machine.put s.overflowed line false } : State).modCore c
      (fun k => { k with slots := modify k.slots (line % 8) (fun q => { q with starts := q.starts ++ [.directory line] }) })))

/-- R22, R29, R37, R39, R48: a thread bound to a core, or the MT that R48 names, the oldest of the run queue or else the bottom
of the deque that may stand there, is placed in a free position of a slot of its launch's queue, within its launch's bounds,
where windows are free; the thread is READY there, and its launch runs, as its word 16 comes to say. The model's choices of log
entry 14 are part of it. -/
def Obligations.ThreadsArePlaced : Prop :=
  (∀ (s : State) (c j p : Nat), p < 7 → s.resident c j p = none → s.placing = true →
    let bound := (s.live.filter (fun e => decide (e.2.kind = .anchored ∧ e.2.core = c ∧ e.2.place = none ∧
      (e.2.state = .unplaced ∨ e.2.state = .suspended)))).map (fun e => e.1)
    (∀ tid q, bound = [tid] → s.findMt c j = none → s.fillFor c j = s → s.tryPlace tid c j p = .ok q →
      s.lowerSlot tid c j = false → Claim.Happens (.threadPlacement c j p) s q) ∧
    (∀ tid r q, bound = [] → s.findMt c j = some (tid, r) → r.tryPlace tid c j p = .ok q → r.lowerSlot tid c j = false →
      Claim.Happens (.threadPlacement c j p) s q)) ∧
  (∀ (s : State) (tid c j p : Nat) (t : Thread) (l : Launch) (win : Nat × Nat), s.thread tid = some t →
    s.launchOf t.lnum = some l → l.queue = ((s.core c).slot j).owner → l.started = true → s.mode ≠ .boot →
    s.inBounds c j t.lnum l = true → s.keptOff c t.lnum = false → t.slotIdx = none → t.saved = [none, none] →
    (∀ b, b < l.bands → (nth (s.core c).bands b {}).v = false ∨ (nth (s.core c).bands b {}).lnum = t.lnum) →
    (s.mode = .test → l.managed = true) → s.windows c j t = some win → ∃ q, s.tryPlace tid c j p = .ok q) ∧
  (∀ (s q : State) (tid c j p : Nat) (t : Thread) (l : Launch), s.thread tid = some t → s.launchOf t.lnum = some l →
    s.tryPlace tid c j p = .ok q → t.slotIdx = none → t.accLost = false → t.debugStop = false → t.inFrame = false →
    t.saved = [none, none] →
    ∃ win u, s.windows c j t = some win ∧ q.thread tid = some u ∧ u.state = .ready ∧ u.place = some ⟨c, j, p⟩ ∧ u.core = c ∧
      u.kind = t.kind ∧ u.sbase = win.1 ∧ u.vbase = win.2 ∧ u.pc = t.pc ∧ u.x = t.x ∧ u.v = t.v ∧ u.pw = t.pw ∧
      u.taint = t.taint ∧ u.waitCount = 0 ∧ (t.kind = .mt → u.shadow0 = freshShadow0 ∧ u.shadow1 = freshShadow1) ∧
      (q.launchOf t.lnum).map (fun m => m.running) = some true ∧
      (∀ k, l.running = false → l.loc = some k →
        ∃ a ∈ q.accs, a.loc = k ∧ a.op = .store (bytesOf 8 (word16 t.lnum 1 0).toNat))) ∧
  (∀ (s : State) (c j m : Nat),
    ((s.core c).runq.find? (s.standsIn c j) = some m → ∃ r, s.findMt c j = some (m, r) ∧
      (r.core c).runq = (s.core c).runq.filter (fun x => x ≠ m) ∧ (r.core c).deque = (s.core c).deque) ∧
    ((s.core c).runq.find? (s.standsIn c j) = none → (s.core c).deque.reverse.find? (s.standsIn c j) = some m →
      ∃ r, s.findMt c j = some (m, r) ∧ (r.core c).deque = (s.core c).deque.filter (fun x => x ≠ m))) ∧
  (∀ (s : State) (c j : Nat) (t : Thread) (win : Nat × Nat), s.windows c j t = some win →
    win.1 % 8 = 0 ∧ 256 * j ≤ win.1 ∧ win.1 + t.slen ≤ 256 * j + 224 ∧ win.2 % 4 = 0 ∧ 64 * j ≤ win.2 ∧
    win.2 + t.vlen ≤ 64 * j + 56 ∧ ∀ e ∈ s.inSlot c j, overlap win.1 t.slen e.2.sbase e.2.slen = false ∧
      overlap win.2 t.vlen e.2.vbase e.2.vlen = false)

/-- R49: an MT that arrives by migration joins the run queue of its new core, which holds 64; with that full, the bottom of
the deque, and with the deque full too, once a block of the deque's oldest has gone to the grove queue. It always arrives. -/
def Obligations.ArrivalsByMigration : Prop :=
  ∀ (s : State) (tid : Nat) (t : Thread), s.thread tid = some t → t.flying = true → s.mgmt.power = 0 →
    let q := s.core t.core
    ∃ v, Claim.Happens (.mtArrival tid) s v ∧ v.thread tid = some { t with flying := false } ∧
      (∀ n, n ≠ tid → v.thread n = s.thread n) ∧
      (q.runq.length < 64 → (v.core t.core).runq = q.runq ++ [tid] ∧ (v.core t.core).deque = q.deque) ∧
      (64 ≤ q.runq.length → (v.core t.core).runq = q.runq ∧
        (q.deque.length < 64 → (v.core t.core).deque = q.deque ++ [tid]) ∧
        (64 ≤ q.deque.length → ∃ up rest l, (v.core t.core).deque = rest ++ [tid] ∧ rest.length < q.deque.length ∧
          up.head? = q.deque.head? ∧ up.length ≤ 8 ∧ (∀ x, x ∈ q.deque ↔ x ∈ up ∨ x ∈ rest) ∧
          (look v.groveQ (t.core / 8)).getD [] = l ++ up))

/-- R350, R352, R351: the oldest asynchronous trap of a thread is taken at a boundary, to resume at its next instruction; a
user-level interrupt goes to its vector with `uepc`, `uxid`, `uiblk` and `ts.UIM` written, once every result has
returned and nothing comes before it. -/
def Sys2Proof.Claim.EventsAtBoundaries : Prop :=
  (∀ (s : State) (tid : Nat) (t : Thread) (r : TrapRec) (rest : List TrapRec), s.thread tid = some t → t.traps = r :: rest →
    s.mgmt.power = 0 → Claim.Between s t →
    Claim.Happens (.asyncTrapDelivery tid) s ((s.setThread tid { t with traps := rest }).enterTrap tid true r t.pc)) ∧
  (∀ (s : State) (tid : Nat) (t : Thread) (q : Uint) (rest : List Uint), s.thread tid = some t → t.uints = q :: rest →
    s.mgmt.power = 0 → Claim.Between s t → t.traps = [] → t.preempt = false → t.ppt = false →
    t.csr.ts.getLsbD 8 = false → t.inFrame = false → t.outs = [] → q.trap = none →
    ∃ v u, Claim.Happens (.uintDelivery tid) s v ∧ v.thread tid = some u ∧ u.state = .ready ∧ u.pc = q.vector ∧
      u.csr.uepc = t.pc ∧ u.csr.uxid = word q.xid ∧ u.csr.uiblk = q.block ∧ u.csr.ts.getLsbD 8 = true ∧
      u.csr.ts.getLsbD 9 = ! rest.isEmpty ∧ u.uints = rest ∧ u.x = t.x ∧ u.v = t.v ∧ u.pw = t.pw ∧ u.wait = none) ∧
  (∀ (s : State) (tid : Nat) (t : Thread) (w : Wait), s.thread tid = some t → t.wait = some w → t.state = .blocked →
    w.limit ≠ 0 → s.mgmt.power = 0 → w.start.toNat + w.limit.toNat ≤ s.time.toNat →
    s.waitHolds tid t = false → s.mgmt.det = false →
    Claim.Happens (.waitLimitExpiry tid) s (s.enterTrap tid false ⟨cWAITLIMIT, w.tval⟩ t.pc))

/-- R354, R291, R292, R355: a pending pre-emption is taken at a boundary that permits it. A thread that owns no bank leaves
its position: an anchored one SUSPENDED in the lowest free context slot, an MT for its core's run queue. A cooperative
owner whose grace has run is pre-empted: its banks have no owner and its commands are discarded, it keeps its registers, and is
to take ACC_LOST with the banks lost and whether commands were discarded. -/
def Sys2Proof.Claim.Preemptions : Prop :=
  (∀ (s : State) (tid : Nat) (t : Thread), s.thread tid = some t → s.mgmt.power = 0 → t.preempt = true → t.traps = [] →
    Claim.Between s t → t.kind ≠ .handler → t.outs = [] → s.ownedBanks tid = [] →
    ∃ v u, Claim.Happens (.preemption tid) s v ∧ v.thread tid = some u ∧
      (∀ i, t.kind = .anchored → firstFree (s.core t.core).ctxSlots 0 511 = some i →
        u.state = .suspended ∧ u.place = none ∧ u.slotIdx = some i ∧ u.slotCore = t.core ∧ u.preempt = false ∧
        (v.core t.core).ctxSlots = (s.core t.core).ctxSlots ++ [i]) ∧
      (t.kind = .mt → (s.core t.core).runq.length < 64 → u.state = .unplaced ∧ u.place = none ∧
        (v.core t.core).runq = (s.core t.core).runq ++ [tid])) ∧
  (∀ (s : State) (tid : Nat) (t : Thread), s.thread tid = some t → s.mgmt.power = 0 → t.preempt = true → t.ppt = false →
    s.cooperative t = true → s.ownedBanks tid ≠ [] → t.graceAt.toNat ≤ s.time.toNat → t.traps = [] → Claim.Between s t →
    t.kind ≠ .handler → t.outs = [] →
    Claim.Happens (.preemptionGraceExpiry tid) s (s.preemptForced tid)) ∧
  (∀ (s : State) (tid i : Nat) (t : Thread), s.thread tid = some t → t.kind = .anchored → t.outs = [] → t.wait = none →
    firstFree (s.core t.core).ctxSlots 0 511 = some i → let v := s.preemptForced tid
    ∃ u, v.thread tid = some u ∧ u.state = .suspended ∧ u.place = none ∧ u.slotIdx = some i ∧ u.preempt = false ∧
      u.x = t.x ∧ u.v = t.v ∧ u.pw = t.pw ∧ u.pc = t.pc ∧ u.taint = t.taint ∧ u.saved = t.saved ∧ u.accLost = true ∧
      u.live = word ((if ((s.core t.core).bank 0).owner = some tid then 1 else 0) +
        (if ((s.core t.core).bank 1).owner = some tid then 2 else 0) +
        (if (s.core t.core).eng1.any (fun o => decide (o.tid = tid)) then 4 else 0)) ∧
      (v.core t.core).bankSlots = (s.core t.core).bankSlots ∧
      (∀ b, b < 2 → ((s.core t.core).bank b).owner = some tid → ((v.core t.core).bank b).owner = none) ∧
      (∀ b, b < 2 → ((s.core t.core).bank b).owner ≠ some tid → ((s.core t.core).bank b).ending = false →
        (v.core t.core).bank b = (s.core t.core).bank b) ∧
      (v.core t.core).eng1.map (fun o => o.xid) =
        ((s.core t.core).eng1.filter (fun o => o.tid ≠ tid)).map (fun o => o.xid) ∧
      ∀ n, n ≠ tid → v.thread n = s.thread n)

namespace Sys2Proof.Claim

/-- The fraction x / y in the 17-bit form of R55, cut off; 0 of nothing. -/
def fraction (x y : Nat) : Nat := if y = 0 then 0 else x * 65536 / y

/-- Stage r stands before every other stage that p admits: `less` decides, then the lower number (R56). -/
def First (p : Nat → Prop) (less : Nat → Nat → Prop) (r : Nat) : Prop :=
  p r ∧ ∀ k, p k → k ≠ r → less r k ∨ (¬ less k r ∧ r < k)

end Sys2Proof.Claim

/-- R55, R56, R57: the balancer of a pipeline. It acts once in an interval of the die's rotations, with the D of each stage, and
a new interval begins. D is the mean of held items by the capacity of the stage's queue, for the first stage 1 while numbers
remain; B is the fraction of the resident turns spent blocked on output. A step takes the recipient of the highest D below its
most cores and the donor of the lowest D above its fewest, moves the donor's highest core, and goes on with both D's adjusted;
it stops where one is missing, both are one, or their D's lie less than 8,192 apart. A moved core belongs to its new stage at
once, and its threads are marked to change over at their next ITEMGET. In a replay the records move the cores (R375). -/
def Sys2Proof.Claim.Balancer : Prop :=
  (∀ (s : State) (n : Nat) (l : Launch), s.launchOf n = some l → l.pipeline = true → l.started = true → s.mgmt.power = 0 →
    let now := s.dieRotation (dieOf (l.cores.headD 0)) / 2 ^ l.bal
    let moved := if s.replaying then s else s.balance n 4 ((List.range l.stages.length).map (fun k => (k, l.depth k)))
    (now ≤ l.lastBal → exec (.stageBalancer n) s = .refused .notEnabled) ∧
    (l.lastBal < now → Claim.Happens (.stageBalancer n) s (moved.modLaunch n (fun m => { m with
      lastBal := now, stages := m.stages.map (fun st =>
        { st with depthSum := 0, samples := 0, blockedTurns := 0, residentTurns := 0 }) })))) ∧
  (∀ (l : Launch) (k : Nat) (st : Stage), l.stages[k]? = some st →
    l.blockage k = Claim.fraction st.blockedTurns st.residentTurns ∧
    (k = 0 → l.depth k = if l.drawn < l.count ∨ l.taken ≠ [] then 65536 else 0) ∧
    (∀ q, k ≠ 0 → l.queues[st.inq]? = some q → l.depth k = Claim.fraction st.depthSum (st.samples * q.cap))) ∧
  (∀ (s : State) (n f : Nat) (d : Tab Nat) (l : Launch), s.launchOf n = some l → List.Pairwise (fun a b => a < b) l.cores →
    let dOf := fun k => (look d k).getD 0
    let cores := fun k => (l.coresOf k).length
    let takes := fun k => k < l.stages.length ∧ k ∉ s.finishedStages n l ∧ cores k < (nth l.stages k (stageOf [])).maxc
    let gives := fun k => k < l.stages.length ∧ k ∉ s.finishedStages n l ∧ (nth l.stages k (stageOf [])).minc < cores k
    let higher := fun a b => dOf b < dOf a
    let lower := fun a b => dOf a < dOf b ∨ (dOf a = dOf b ∧ l.blockage b < l.blockage a)
    (((∀ k, ¬ takes k) ∨ ∀ k, ¬ gives k) → s.balance n (f + 1) d = s) ∧
    ∀ r o, Claim.First takes higher r → Claim.First gives lower o →
      (r = o ∨ dOf r < dOf o + 8192 → s.balance n (f + 1) d = s) ∧
      (∀ c, r ≠ o → dOf o + 8192 ≤ dOf r → c ∈ l.coresOf o → (∀ e ∈ l.coresOf o, e ≤ c) →
        s.balance n (f + 1) d = (s.moveCore n c o r).balance n f (Machine.put (Machine.put d r (dOf r * cores r / (cores r + 1))) o
          (min 65536 (dOf o * cores o / (cores o - 1)))))) ∧
  (∀ (s : State) (n : Nat) (d : Tab Nat), s.balance n 0 d = s) ∧
  (∀ (s : State) (n c o r : Nat) (l : Launch), s.launchOf n = some l → (s.threads.map (fun e => e.1)).Nodup →
    s.coreThreads n l c ≠ [] → (∀ e ∈ s.coreThreads n l c, e.2.state ≠ .blocked) →
    let v := s.moveCore n c o r
    v.launchOf n = some { l with coreStage := Machine.put l.coreStage c r, moving := dedup (l.moving ++ [c]) } ∧
    (∀ e ∈ s.coreThreads n l c, v.thread e.1 = some { e.2 with moved := true }) ∧
    ∀ i, (∀ e ∈ s.coreThreads n l c, e.1 ≠ i) → v.thread i = s.thread i)

/-- R46, R336, R55 to R57: the completion of a launch that asks for an inbox is a packet of two words, put there once there is
room; one that asks for a mailbox is a message. The balancer of a pipeline acts once in an interval of its die's rotations: by D
and B of each stage it moves up to four cores, each from the stage of the lowest D to the one of the highest. The model's
choices of log entries 21, 54 are part of it. -/
def Obligations.LaunchCompletions : Prop :=
  (∀ (s : State) (n : Nat) (q : Completion), s.completionOf n 2 = some q → s.mgmt.power = 0 →
    let c := (nth q.words 6 0).toNat % 2 ^ 11
    let i := (nth q.words 6 0).toNat / 2 ^ 11 % 16
    s.inboxFree c i 2 = true → i < (s.core c).inboxes.length →
    ∃ v, Claim.Happens (.launchInboxCompletion n) s v ∧ v.completions = s.completions.erase q ∧
      (nth (v.core c).inboxes i {}).words =
        (nth (s.core c).inboxes i {}).words ++ [⟨word n, false, []⟩, ⟨nth q.words 7 0, true, []⟩] ∧ v.mem = s.mem) ∧
  (∀ (s : State) (n : Nat) (q : Completion) (b : Box), s.completionOf n 3 = some q → s.mgmt.power = 0 →
    let core := (bareLaunch q.words 0 q.user).cores.headD 0
    let r := { s with completions := s.completions.erase q }
    r.boxHeld ⟨q.user, n, core⟩ (nth q.words 6 0) = false → r.box ⟨q.user, n, core⟩ (nth q.words 6 0) 1 = .ok b →
      r.boxPoison b = none → b.free ≠ 0 →
    Claim.Happens (.launchMailboxCompletion n) s
      (r.sendMail core 0 b (bytesOf 8 (word16 n 2 0).toNat ++ bytesOf 8 (nth q.words 7 0).toNat))) ∧
  Claim.Balancer

namespace Sys2Proof.Claim

/-- Row k of one side of a copy in loop order, from base with the strides of its two loops, the inner one of n rows (R261). -/
def row (base s1 s2 : Word) (n k : Nat) : Word := base + word (k / n) * s2 + word (k % n) * s1

/-- The state in which the pieces or rows `ops` of copy o have been issued: each in order, at its place, delaying its end. -/
def Issued (s v : State) (c : Nat) (o : EngOp) (ops : List (Access → Prop)) : Prop :=
  ∃ new, v.accs = s.accs ++ new ∧ new.length = ops.length ∧
    (∀ i, i < ops.length → ∃ a p, new[i]? = some a ∧ ops[i]? = some p ∧ p a ∧ a.tid = 0) ∧
    ∃ q, v.engOp c 0 o.xid = some q ∧ q.state = 1 ∧ q.fields = o.fields ∧ q.pending = o.pending ++ new.map (fun a => a.id)

end Sys2Proof.Claim

/-- R261, R262, R215: the rows of a copy, their pieces, and what the start of a copy issues. A copy that converts nothing is a
piece for each part of a row within an atom of its destination, or within a scratchpad word: together they are the row's bytes,
each from the same offset of its source row. Each piece becomes an access that still has its source to read; a copy that packs
or unpacks issues its rows in loop order, one access of its own for each row (the model's choice, log 27). -/
def Sys2Proof.Claim.CopyPieces : Prop :=
  (∀ fs : List Word, optForm fs = 0 →
    let n := (nth fs 5 0).toNat
    let len := (nth fs 2 0).toNat
    let from' := Claim.row (nth fs 0 0) (nth fs 3 0) (nth fs 6 0) n
    let into' := Claim.row (nth fs 1 0) (nth fs 4 0) (nth fs 7 0) n
    (∀ p ∈ piecesOf fs, ∃ k o, k < n * (nth fs 8 0).toNat ∧ p.dst = into' k + word o ∧ p.srcs = [(from' k + word o, p.n)] ∧
      p.conv = 0 ∧ 1 ≤ p.n ∧ o + p.n ≤ len ∧ p.dst.toNat % pieceSize fs + p.n ≤ pieceSize fs) ∧
    (∀ k b, k < n * (nth fs 8 0).toNat → b < len → ∃ p ∈ piecesOf fs, ∃ o, p.dst = into' k + word o ∧
      p.srcs = [(from' k + word o, p.n)] ∧ o ≤ b ∧ b < o + p.n)) ∧
  (∀ (s : State) (c : Nat) (o : EngOp) (at' : Piece → List (Loc × Nat) × Loc), s.engOp c 0 o.xid = some o →
    optForm o.fields = 0 ∨ optForm o.fields = 3 ∨ optForm o.fields = 4 → bitAt (nth o.fields 9 0) 11 = false →
    isInject (nth o.fields 1 0) = false → isExtract (nth o.fields 0 0) = false →
    let w : Who := ⟨o.user, o.lnum, c⟩
    (∀ a ∈ s.accs, ∀ src d m l, a.op ≠ .split src d m l) →
    (∀ p ∈ piecesOf o.fields, s.pieceSrc w o.fields p = .ok (.mem (at' p).1 p.conv) ∧ s.locate' w .copyWrite p.dst p.n = .ok (at' p).2 ∧
      p.dst.toNat % pieceSize o.fields + p.n ≤ pieceSize o.fields) →
    Claim.Issued s (s.startCopy c o) c o ((piecesOf o.fields).map (fun p => fun a =>
      a.loc = (at' p).2 ∧ a.op = .unit (.mem (at' p).1 p.conv) p.n none))) ∧
  (∀ (s : State) (c : Nat) (o : EngOp), s.engOp c 0 o.xid = some o → optForm o.fields = 1 ∨ optForm o.fields = 2 →
    let fs := o.fields
    let n := (nth fs 5 0).toNat
    Claim.Issued s (s.startCopy c o) c o ((List.range (n * (nth fs 8 0).toNat)).map (fun k => fun a => ∃ room,
      a.op = .row (Claim.row (nth fs 0 0) (nth fs 3 0) (nth fs 6 0) n k) (Claim.row (nth fs 1 0) (nth fs 4 0) (nth fs 7 0) n k)
        (decide (optForm fs = 1)) room)))

/-- R261, R270, R223, R224, R226, R267 to R271: copies start in the order of their queue, none before an earlier one. The action
of the one at the head is performed once it may be: nothing for NONE and STREAM, and for CADD to another device, which adds it;
an add for CADD once the writes its scope covers are performed, a queued interrupt for UINT, a packet for INBOX, an item or an
entry for PUSH; the copy then leaves its queue. A copy that packs or unpacks issues one access of its own for each row, in loop
order (log 27). The model's choices of log entries 25, 26, 27 are part of it. -/
def Obligations.CopySteps : Prop :=
  Claim.CopyPieces ∧
  (∀ (s : State) (c x : Nat) (o q : EngOp), s.engOp c 0 x = some o →
    q ∈ (s.core c).eng0.takeWhile (fun q => decide (q.xid ≠ x)) → q.state = 0 →
    exec (.copyStart c x) s = .refused .notEnabled) ∧
  (∀ (s : State) (c x : Nat) (o : EngOp), s.engOp c 0 x = some o → s.mgmt.power = 0 → o.state = 0 →
    (∀ q ∈ (s.core c).eng0.takeWhile (fun q => decide (q.xid ≠ x)), q.state ≠ 0) → s.stillPending o.after = [] →
    Claim.Happens (.copyStart c x) s (s.startCopy c o)) ∧
  (∀ (s : State) (c x : Nat) (o : EngOp), Claim.AtHead s c x o → o.finished = true → s.stillPending o.pending = [] →
    (bits (nth o.fields 9 0) 7 4 = 0 ∨ bits (nth o.fields 9 0) 7 4 = 5 ∨
        (bits (nth o.fields 9 0) 7 4 = 1 ∧ (nth o.fields 9 0).getLsbD 11 = true) →
      ∃ v, Claim.Happens (.copyCompletion c x) s v ∧ Claim.Retired s v c 0 x ∧ v.mem = s.mem ∧ v.threads = s.threads) ∧
    (∀ t l, bits (nth o.fields 9 0) 7 4 = 3 → s.thread o.tid = some t → t.state ≠ .exited → t.uints.length < 8 →
      s.locate ⟨o.user, o.lnum, c⟩ .load (nth o.fields 10 0) 8 = .ok l → l.kind ≠ 3 → s.lineHeld l.key = false →
      s.readPoison l 8 = none → (s.rdNum l.key 8) % 4 = 0 →
      ∃ v u, Claim.Happens (.copyCompletion c x) s v ∧ Claim.Retired s v c 0 x ∧ v.thread o.tid = some u ∧
        u = { t with uints := t.uints ++ [⟨x, nth o.fields 10 0, word (s.rdNum l.key 8), none⟩], csr := u.csr } ∧
        u.csr = { t.csr with ts := setBits t.csr.ts 9 9 1 })) ∧
  (∀ (s : State) (c x : Nat) (o : EngOp) (l : Loc), Claim.AtHead s c x o → bits (nth o.fields 9 0) 7 4 = 1 →
    (nth o.fields 9 0).getLsbD 11 = false → s.covered o (bits (nth o.fields 9 0) 10 8) = true →
    s.locate ⟨o.user, o.lnum, c⟩ .atomic (nth o.fields 10 0) 8 = .ok l → s.lineHeld l.key = false → s.lineShared l.key = false →
    Claim.Happens (.copyCompletion c x) s ((s.addAt l (nth o.fields 11 0) (l.home % 4096)).retireOp c 0 o)) ∧
  (∀ (s : State) (c x : Nat) (o : EngOp), Claim.AtHead s c x o → bits (nth o.fields 9 0) 7 4 = 2 →
    (nth o.fields 9 0).getLsbD 11 = false → s.merged o = true → s.inboxFree c (bits (nth o.fields 9 0) 27 24) 2 = true →
    Claim.Happens (.copyInboxAction c x) s
      ((s.putPacket c (bits (nth o.fields 9 0) 27 24) [word x, nth o.fields 11 0] (s.stillPending o.pending)).retireOp c 0 o)) ∧
  (∀ (s : State) (c x : Nat) (o : EngOp), Claim.AtHead s c x o → bits (nth o.fields 9 0) 7 4 = 4 → o.finished = true →
    bits (nth o.fields 10 0) 63 62 = 1 →
    let n := bits (nth o.fields 10 0) 3 0
    let ch := nth (s.core c).chans n {}
    ch.owner = some o.lnum → ch.wide = false → s.available [⟨c, n, false, true, 1⟩] = true →
    Claim.Happens (.pushAction c x) s
      ((Claim.withEntries s c n (ch.entries ++ [(nth o.fields 11 0).zeroExtend 512])).retireOp c 0 o)) ∧
  (∀ (s : State) (c x : Nat) (o : EngOp) (l : Launch) (u : StageQueue), Claim.AtHead s c x o →
    bits (nth o.fields 9 0) 7 4 = 4 → o.finished = true → bits (nth o.fields 10 0) 63 62 = 0 → s.launchOf o.lnum = some l →
    let n := bits (nth o.fields 10 0) 3 0
    let seq := bits (nth o.fields 10 0) 47 16
    l.queues[n]? = some u →
    match offer u ⟨nth o.fields 11 0, BitVec.ofNat 32 seq⟩ with
    | .accepted u' => Claim.Happens (.pushAction c x) s
        ((s.setLaunch o.lnum { l with queues := modify l.queues n (fun _ => u') }).retireOp c 0 o)
    | .wait => exec (.pushAction c x) s = .refused .notEnabled
    | .stage => Claim.Happens (.pushAction c x) s (s.execFault c 0 o ⟨cSTAGE, word seq⟩)) ∧
  (∀ (s : State) (c e : Nat) (o : EngOp), e ≤ 1 → s.stillPending o.pending = [] →
    Claim.Retired s (s.retireOp c e o) c e o.xid)

/-- R282 to R288: the arbiter of a grove starts the command that the core it visits has first, while that core's weight
allows; a row of a running command is accumulated into its bank's row, each of its 128 elements with its column of B, and
drained: written in 16-byte words, or given to a handler at slot m mod 8, poisoned where an element or the row added to was; a
command all of whose rows, drains and handlers are done performs its action and leaves its queue. Before a row is performed,
operand bytes of it or of a later one may be read, in any order, and the row then takes them as read; with DET set none are.
The model's choices of log entries 29, 30, 32 are part of it. -/
def Obligations.MatrixSteps : Prop :=
  (∀ (s : State) (g i n : Nat) (o : EngOp), s.mgmt.power = 0 → (look s.mxu g).getD (0, 0) = (i, n) →
    (s.core (8 * g + i)).startable = some o → n < max 1 (s.core (8 * g + i)).mxwgt →
    ∃ v, Claim.Happens (.mxuCommandStart g) s v ∧ look v.mxu g = some (i, n + 1) ∧
      (v.core (8 * g + i)).eng1 = ((s.core (8 * g + i)).eng1).map (fun q => if q.xid = o.xid then { q with state := 1 } else q)) ∧
  (∀ (s : State) (c x : Nat) (o : EngOp) (a b : MxFmt) (row : List (Nat × Bool)), s.mgmt.power = 0 →
    (s.core c).running = some o → o.xid = x → o.state = 1 → s.rowHeld c o.bankOf o.row = false →
    s.rowAwaited c x o.bankOf o.row = false → mxA c o.fields = some a → mxB o.fields = some b → s.readEarly c x = none →
    s.aRow c o o.row = .ok row → o.row < ((s.core c).bank o.bankOf).rows.length →
    ((s.core c).eng1.filter (fun q => q.xid = x)) = [o] →
    let old := (s.core c).bank o.bankOf
    let got := s.accumulateRow c o o.row a b row (nth old.rows o.row 0)
    let adds := (nth o.fields 4 0).getLsbD 1
    let bad := got.2 || (adds && decide (o.row ∈ old.poison))
    let drain := bits (nth o.fields 5 0) 1 0
    ∃ v q, Claim.Happens (.mxuRow c x) s v ∧ nth ((v.core c).bank o.bankOf).rows o.row 0 = got.1 ∧
      (∀ m, m ≠ o.row → nth ((v.core c).bank o.bankOf).rows m 0 = nth old.rows m 0) ∧
      (o.row ∈ ((v.core c).bank o.bankOf).poison ↔ bad = true) ∧
      v.engOp c 1 x = some q ∧ q.row = o.row + 1 ∧ q.state = (if o.rows ≤ o.row + 1 then 2 else 1) ∧
      (drain = 0 → v.accs = s.accs) ∧
      (drain = 1 → ∀ win off, ownPad c (nth o.fields 6 0) = some (win, off) →
        ∃ new, v.accs = s.accs ++ new ∧ new.length = drainBytes o.fields / 16 ∧ q.pending = o.pending ++ new.map (fun a => a.id) ∧
          ∀ i, i < new.length → ∃ n, new[i]? = some n ∧
            n.loc.key = scratchKey c (off + o.row * (nth o.fields 7 0).toNat + 16 * i) ∧
            n.op = .unit (.mem [] 0) 16 (some (indexed
              ((((rowBytes (mxNarrow o.fields) got.1).drop (16 * i)).take 16).map (fun y => (y, bad)))))) ∧
      (drain = 2 → v.accs = s.accs ∧ (o.row % 8 < (s.core c).slots.length →
        ((v.core c).slot (o.row % 8)).starts =
          ((s.core c).slot (o.row % 8)).starts ++ [.drain c x o.bankOf o.row o.lnum got.1 bad o.tid]))) ∧
  (∀ (s : State) (c x : Nat) (o : EngOp), s.mgmt.power = 0 → (s.core c).running = some o → o.row < o.rows →
    ((s.core c).eng1.filter (fun q => q.xid = x)) = [o] →
    (s.fixed = true → s.readEarly c x = none) ∧
    (s.readEarly c x = none ∨ ∃ v m l, s.readEarly c x = some v ∧ Claim.Happens (.mxuRow c x) s v ∧ v.mem = s.mem ∧
      v.threads = s.threads ∧ v.accs = s.accs ∧ o.row ≤ m ∧ m < o.rows ∧ l ≠ [] ∧
      v.engOp c 1 x = some { o with early := o.early ++ l } ∧
      ∀ e ∈ l, ∃ k ∈ o.unread c m, e = (m * 2 ^ 64 + k, s.rdByte k, (s.poisoned k 1).isSome))) ∧
  (∀ (s : State) (o : EngOp) (m key n i : Nat), i < n → (s.operandAt o m key n)[i]? =
    some ((look o.early (m * 2 ^ 64 + key + i)).getD (s.rdByte (key + i), (s.poisoned (key + i) 1).isSome))) ∧
  (∀ (s : State) (c : Nat) (o : EngOp) (m : Nat) (a b : MxFmt) (row : List (Nat × Bool)) (old : BitVec 4096) (n : Nat), n < 128 →
    let col := s.bColumn c o m b n
    let first := if (nth o.fields 4 0).getLsbD 1 then old.toNat / 2 ^ (32 * n) % 2 ^ 32 else 0
    (s.accumulateRow c o m a b row old).1.toNat / 2 ^ (32 * n) % 2 ^ 32 =
      accumulate a b first ((row.zip col).map (fun p => (p.1.1, p.2.1))) % 2 ^ 32) ∧
  (∀ (c : Nat) (ps : List (Nat × Nat)), accumulate .s8 .s8 c ps =
    ofSigned 32 (toSigned 32 c + (ps.map (fun p => toSigned 8 p.1 * toSigned 8 p.2)).sum)) ∧
  (∀ (x : BitVec 4096) (n : Nat), n < 128 → let e := x.toNat / 2 ^ (32 * n) % 2 ^ 32
    ((rowBytes false x).drop (4 * n)).take 4 = bytesOf 4 e ∧
    ((rowBytes true x).drop (2 * n)).take 2 = bytesOf 2 (fconvert F32 B16 .rne e).1) ∧
  (∀ (s : State) (c x : Nat) (o : EngOp) (r : List EngOp), s.mgmt.power = 0 → (s.core c).eng1 = o :: r → o.xid = x →
    o.fault = none → o.state = 2 → o.pending = [] → s.drainsOf c x = [] →
    (s.core c).slots.all (fun j => j.starts.all (fun h => ! isDrain c x h)) = true → bits (nth o.fields 9 0) 7 4 = 0 →
    ∃ v, Claim.Happens (.mxuCommandComplete c x) s v ∧ Claim.Retired s v c 1 x ∧ v.mem = s.mem ∧ v.threads = s.threads)

/-- R273: the first action that waits at a watch entry is started. A COPY is queued on engine 0 with the fields that its firing
read, its addresses moved on by the firing's number, or fails a check and retires the entry; a MAIL sends handle, value,
threshold and operand; a SPAWN creates an MT with the operand and the value in its first registers; an ADD adds its operand to
its word, or, where that is poisoned, is not performed and retires the entry (log 73). -/
def Sys2Proof.Claim.WatchActions : Prop :=
  (∀ (s : State) (c n : Nat) (f : Firing) (rest : List Firing), s.mgmt.power = 0 →
    let w := nth (s.watchTable c) n {}
    let act := bits (nth w.words 1 0) 3 2
    let go := s.modWatch c n (fun w => { w with pend := rest })
    w.pend = f :: rest →
    (∀ fs, act = 0 → f.unread = false → f.fault = none → watchCopy w f.k f.block = some fs →
      let base := newThread .anchored .general w.lnum 0 8 0 c 0 []
      let th : Thread := { base with csr := { base.csr with ts := if w.user then 0 else 0x10000 } }
      (∀ r, s.checkCopy th c fs = some r → Claim.Happens (.watchActionStart c n) s
        (((s.noteWalk c r).logError 0x09 (unitCore c) (handleOf w n c) (word r.code)).modWatch c n
          (fun w => { w with pend := rest, state := 2 }))) ∧
      (s.checkCopy th c fs = none → (s.core c).eng0.length < 16 →
        ∃ v, Claim.Happens (.watchActionStart c n) s v ∧ v.watch = go.watch ∧ v.mem = s.mem ∧
          (v.core c).eng0 = (s.core c).eng0 ++ [{
            xid := (s.core c).xidNext, engine := 0, fields := fs, tid := 0, lnum := w.lnum,
            user := w.user, watch := some (handleOf w n c) }])) ∧
    (∀ b, act = 1 → go.boxHeld ⟨w.user, w.lnum, c⟩ (nth w.words 4 0) = false →
      go.box ⟨w.user, w.lnum, c⟩ (nth w.words 4 0) 1 = .ok b → go.boxPoison b = none →
      (b.free = 0 → exec (.watchActionStart c n) s = .refused .notEnabled) ∧
      (b.free ≠ 0 → Claim.Happens (.watchActionStart c n) s (go.sendMail c 0 b
        ([handleOf w n c, f.x, f.t, nth w.words 5 0].flatMap (fun y => bytesOf 8 y.toNat))))) ∧
    (∀ l, act = 3 → s.locate ⟨w.user, w.lnum, c⟩ .atomic (nth w.words 4 0) 8 = .ok l → s.lineHeld l.key = false →
      (s.poisoned l.key 8 = none → s.lineShared l.key = false →
        Claim.Happens (.watchActionStart c n) s (go.addAt l (nth w.words 5 0) (l.home % 4096))) ∧
      (s.poisoned l.key 8 ≠ none → Claim.Happens (.watchActionStart c n) s
        ((s.logError 0x09 (unitCore c) (handleOf w n c) (word cECC)).modWatch c n
          (fun w => { w with pend := rest, state := 2 })))) ∧
    (∀ l, act = 2 → s.launchOf w.lnum = some l → l.pipeline = false → s.thread s.nextTid = none →
      ∃ v, Claim.Happens (.watchActionStart c n) s v ∧ v.thread s.nextTid =
          some (Claim.mtOf w.lnum (l.created + l.forked) c (nth w.words 4 0) [nth w.words 5 0, f.x] []) ∧
        (v.core c).deque.getLast? = some s.nextTid ∧ v.launchOf w.lnum = some { l with forked := l.forked + 1 })) ∧
  (∀ (w : Watch) (k : Nat) (b : List Word), b.length = 16 →
    watchCopy w k b = (if (∀ x ∈ b.drop 12, x = 0) ∧ bits (nth b 9 0) 7 4 ≤ 2 then
      some ([nth b 0 0 + word k * nth w.words 5 0, nth b 1 0 + word k * nth w.words 6 0] ++ (b.take 12).drop 2 ++ [0, 0])
    else none))

/-- R342, R343, R84: a round of a canopy group is combined once every core of the set has injected its operand and no node holds
an earlier result above one of them. The result is marked where the operands' operations or types differ, and else it is
combined in the fixed tree over the cores. It goes to every core of the set; a node holds it above one whose extract queue is
full, until that has room. -/
def Sys2Proof.Claim.CanopyRounds : Prop :=
  (∀ (s : State) (g n : Nat) (l : Launch) (op : Nat → Operand), s.mgmt.power = 0 → g ≠ 0 → s.heldResult g = none →
    s.launches.find? (fun e => e.2.started && decide (e.2.cgroup = g ∧ g ≠ 0)) = some (n, l) → l.cores ≠ [] →
    let r := (look s.canopy g).getD 0
    (∀ c ∈ l.cores, (s.core c).canopyIn.find? (fun o => decide (o.group = g ∧ o.round = r)) = some (op c)) →
    (∀ c ∈ l.cores, (s.core c).canopyHeld = none) →
    let first := op (l.cores.headD 0)
    let bad := l.cores.any (fun c => decide ((op c).op ≠ first.op ∨ (op c).ty ≠ first.ty))
    let data := if bad = true then 0
      else (canopyTree first.op first.ty (l.cores.map (fun c => (c, (op c).data))) 0 11).getD 0
    ∃ v, Claim.Happens (.canopyRound g) s v ∧ look v.canopy g = some (r + 1) ∧
      (∀ c ∈ l.cores,
        (v.core c).canopyIn = (s.core c).canopyIn.filter (fun o => ¬ (o.group = g ∧ o.round = r)) ∧
        ((s.core c).canopyOut.length < 8 → (v.core c).canopyHeld = none ∧
          (v.core c).canopyOut = (s.core c).canopyOut ++ [⟨g, r, data, bad, decide (first.op = 7)⟩]) ∧
        (8 ≤ (s.core c).canopyOut.length → (v.core c).canopyOut = (s.core c).canopyOut ∧
          (v.core c).canopyHeld = some ⟨g, r, data, bad, decide (first.op = 7)⟩)) ∧
      (∀ c, c ∉ l.cores → v.core c = s.core c)) ∧
  (∀ (s : State) (g c : Nat) (q : CanopyResult), s.mgmt.power = 0 → s.heldResult g = some (c, q) →
    Claim.Happens (.canopyRound g) s (s.modCore c (fun k =>
      if 8 ≤ k.canopyOut.length then { k with canopyHeld := some q }
      else { k with canopyHeld := none, canopyOut := k.canopyOut ++ [q] }))) ∧
  (∀ (op ty c : Nat) (x : Vec), c < 2048 → canopyTree op ty [(c, x)] 0 11 = some x) ∧
  (∀ (op ty c d : Nat) (x y : Vec), c < d → d < 2048 → canopyTree op ty [(c, x), (d, y)] 0 11 = some (nodeOp op ty x y)) ∧
  (∀ (op ty lo k : Nat) (xs : List (Nat × Vec)) (x y : Vec),
    canopyTree op ty (xs.filter (fun e => decide (e.1 < lo + 2 ^ k))) lo k = some x →
    canopyTree op ty (xs.filter (fun e => decide (lo + 2 ^ k ≤ e.1))) (lo + 2 ^ k) k = some y →
    canopyTree op ty xs lo (k + 1) = some (nodeOp op ty x y))

/-- R273, R342, R343, R84: the first action that waits at a watch entry is started: a copy, a message, an MT or an add, with what
its firing has found; an add to a poisoned word is not performed and retires the entry. A round of a canopy group is combined
once every core of the set has injected its operand, in the fixed tree, and its result goes to each of them, or is held above a
core that has no room. The model's choices of log entries 28, 36,
58, 60, 73 are part of it. -/
def Obligations.WatchActionsAndCanopy : Prop :=
  Claim.WatchActions ∧ Claim.CanopyRounds

/-! ### The fabric, replicas, the host, power, modes and debug -/

namespace Sys2Proof.Claim

/-- A flit that its link takes: well formed, its check sequence good, in a mode and power state that carry it. -/
structure Good (s : State) (f : Flit) (kind : Nat) : Prop where
  kind : f.kind = kind
  form : f.ok = true
  crc : f.crc = f.crcOf
  carried : s.linkCarries f = true

/-- One that is for this device and next in its stream (R328, R329). -/
structure Comes (s : State) (f : Flit) (kind : Nat) : Prop where
  good : Good s f kind
  fabric : f.linkLevel = false
  here : f.ddev = s.mgmt.devno
  order : s.inOrder f = true

/-- The state in which its link has taken a flit. -/
def taken (s : State) (f : Flit) : State := (s.seenBy f).recordFlit f

/-- The state in which the device has accepted it. -/
def accepted (s : State) (f : Flit) : State :=
  { taken s f with eseqIn := Sys2Proof.Machine.put (taken s f).eseqIn (f.stream f.sdev) f.eseq }

/-- The step that a flit brings at its destination. -/
def stepOf (f : Flit) : Option Instr :=
  match f.kind with
  | 0 => some (.remoteCopyData f)
  | 1 => some (.remoteCopyCompletionRequest f)
  | 2 => some (.remoteCopyReport f)
  | 3 => some (.mailboxPayload f)
  | 4 => some (.mailboxSequenceWord f)
  | 5 => some (.slotReleaseNotice f)
  | 6 => some (.cutHeader f)
  | 7 => some (.cutUnit f)
  | 8 => some (.cutMarker f)
  | 9 => some (.cutAcknowledgement f)
  | 11 => if f.param = 0 then some (.discardReport f) else if f.param = 4 then some (.bulkWriteFault f) else none
  | 12 => some (.bulkData f)
  | _ => none

/-- A flit of a cut, over a link or from another die of the device; u is the state that has it in hand, and g the flit as the
replica takes it: on a die boundary the dies stood in the places of the devices (R14, R327). -/
def CutComes (s : State) (f : Flit) (kind : Nat) (u : State) (g : Flit) : Prop :=
  (f.kind = kind ∧ s.dieFlit f = true ∧ s.mgmt.power = 0 ∧ u = { s with dieFlits := s.dieFlits.erase f } ∧
    g = { f with ddev := s.mgmt.devno, sdev := s.mgmt.devno }) ∨
  (s.dieFlit f = false ∧ Comes s f kind ∧ u = accepted s f ∧ g = f)

end Sys2Proof.Claim

/-- R328, R329, R386: a flit for another device goes on with HOPS one higher, or is discarded at 32 or where its device is
unreachable; a link sends, of the flits that it has credit for, the oldest of the highest class, under the next LSEQ and with a
good check sequence; with no credit the flit waits, and where no link leads to its device any more it is discarded; a failed
check sequence asks for the flit again; a reserved kind is discarded and counted. A flit that the device makes bears its number
and, under ESEQ, the next number of its stream. -/
def Sys2Proof.Claim.FlitsOnTheirWay : Prop :=
  (∀ (s : State) (f : Flit) (i : Instr), Claim.Good s f f.kind → f.linkLevel = false → f.ddev ≠ s.mgmt.devno →
    Claim.stepOf f = some i → (f.kind ∈ [6, 7, 8, 9] → s.dieFlit f = false) → Claim.Happens i s ((Claim.taken s f).forward f)) ∧
  (∀ (s : State) (f : Flit),
    (32 ≤ f.hops + 1 → s.forward f = s.discard f 1) ∧
    (f.hops + 1 < 32 → s.route f.ddev = none → s.forward f = s.discard f 2) ∧
    (∀ l, f.hops + 1 < 32 → s.route f.ddev = some l → s.forward f = s.leaveOn { f with hops := f.hops + 1 })) ∧
  (∀ (s : State) (l : Nat) (f : Flit) (k : Link), s.links[l]? = some k → l < 16 → s.queued = [] → s.linkOf f = some l →
    s.carries f.cls = true → f.credit < 5 →
    let g := { f with lseq := k.next, link := l, payload := if f.kind = 10 then payloadWords [s.time] else f.payload }
    (0 < nth k.credits f.credit 0 → s.leaveOn f = s.modLink l (fun k => { k with
      sent := k.sent ++ [{ g with crc := g.crcOf }], next := (k.next + 1) % 2 ^ 16,
      credits := modify k.credits f.credit (fun n => n - 1) })) ∧
    (nth k.credits f.credit 0 = 0 → s.leaveOn f = { s with queued := [f] })) ∧
  (∀ (s : State) (l : Nat) (f : Flit), s.readyOn l = some f →
    f ∈ s.queued ∧ s.linkOf f = some l ∧ s.carries f.cls = true ∧ 0 < nth (nth s.links l {}).credits f.credit 0 ∧
    ∀ g ∈ s.queued, s.linkOf g = some l → s.carries g.cls = true → 0 < nth (nth s.links l {}).credits g.credit 0 →
      f.credit ≤ g.credit) ∧
  (∀ (s : State) (f : Flit), s.queued = [f] → s.linkOf f = none → f.linkLevel = false →
    let u := ({ s with queued := [] } : State).discard f 2
    s.settleQueue = u.pump (u.queued.length + 1)) ∧
  (∀ (s : State) (f : Flit) (k : Link), s.links[f.link]? = some k → s.linkCarries f = true → f.crc ≠ f.crcOf →
    Claim.Happens (.flitCrcFailure f) s (s.sendLinkLevel { blankFlit with
      link := f.link, kind := 11, param := 2, ddev := Config.peer f.link % 4096, len := 8,
      payload := payloadWords [word ((k.seen + 1) % 2 ^ 16)] })) ∧
  (∀ (s : State) (f : Flit), let n := (look s.eseqOut (f.stream f.ddev)).getD 0
    let r := { s with eseqOut := Machine.put s.eseqOut (f.stream f.ddev) ((n + 1) % 2 ^ 16) }
    s.sendLinkLevel f = r.leaveOn { f with sdev := s.mgmt.devno, eseq := n } ∧
    (s.route f.ddev ≠ none → s.sendFlit f = r.leaveOn { f with sdev := s.mgmt.devno, hops := 0, eseq := n })) ∧
  (∀ (s : State) (f : Flit), s.linkCarries f = true → f.crc = f.crcOf → f.ok = false →
    Claim.Happens (.reservedKindFlit f) s ((Claim.taken s f).logError 0x11 (unitLink f.link) f.h0 0))

/-- R386, R329, R15, R330, R378: the time base never runs back at a synchronisation; an acknowledgement frees the flits up to
its LSEQ and gives credits back; a discard report ends the copy that the flit belonged to; a bulk write fault makes its target
unreachable: it is logged, and the segments it holds are to be sent again; a link whose retries are exhausted is down and shows
their number, and what it has not delivered waits again; a boundary runs on with the modules left. -/
def Sys2Proof.Claim.LinkControl : Prop :=
  (∀ (s : State) (f : Flit), Claim.Good s f 10 →
    ∃ v, Claim.Happens (.timeBaseSynchronisation f) s v ∧ s.time.toNat ≤ v.time.toNat ∧ (v.time = s.time ∨ v.time = f.word 0)) ∧
  (∀ (s : State) (f : Flit), Claim.Good s f 11 →
    (f.param = 3 → Claim.Happens (.linkIdle f) s (Claim.taken s f)) ∧
    (f.param = 2 → ∃ v, Claim.Happens (.retryRequest f) s v ∧ v.mem = (Claim.taken s f).mem ∧
      nth v.links f.link {} = { nth s.links f.link {} with seen := f.lseq, retries := (nth s.links f.link {}).retries + 1 }) ∧
    (∀ pre g post, f.param = 1 → (nth s.links f.link {}).sent = pre ++ g :: post → g.lseq = (f.word 0).toNat % 2 ^ 16 →
      (∀ h ∈ pre, h.lseq ≠ g.lseq) → s.queued = [] → (nth s.links f.link {}).credits.length = 5 →
      ∃ v, Claim.Happens (.linkAcknowledgement f) s v ∧ (nth v.links f.link {}).sent = post ∧
        (nth v.links f.link {}).retries = 0 ∧
        ∀ i, i < 5 → nth (nth v.links f.link {}).credits i 0 =
          nth (nth s.links f.link {}).credits i 0 + (f.word (1 + i)).toNat)) ∧
  (∀ (s : State) (f : Flit), Claim.Comes s f 11 →
    (f.param = 0 → Claim.Happens (.discardReport f) s ((Claim.accepted s f).lost (reported f))) ∧
    (f.param = 4 → Claim.Happens (.bulkWriteFault f) s
      ((Claim.accepted s f).targetLost f.sdev ((Claim.accepted s f).lastSegment f.sdev)))) ∧
  (∀ (s : State) (dev seg : Nat),
    (s.mgmt.stream = none → s.targetLost dev seg = s.logError 0x17 unitDevice (word dev) (word seg)) ∧
    (∀ st, s.mgmt.stream = some st → ∃ u, (s.targetLost dev seg).mgmt.stream = some u ∧
      (∀ i, i ∈ u.dead ↔ i ∈ st.dead ∨ (dev, i) ∈ s.targets) ∧
      (∀ n i, (n, i) ∈ st.sent.placed → if i ∈ u.dead then n ∈ u.left else (n, i) ∈ u.sent.placed) ∧ (∀ n ∈ st.left, n ∈ u.left))) ∧
  (∀ (s : State) (f : Flit) (o : EngOp), f.kind = 0 ∨ f.kind = 1 → s.engOp f.slcn 0 f.tag = some o →
    (nth o.fields 9 0).getLsbD 11 = true → s.lost f = s.execFault f.slcn 0 o ⟨cUNAVAILABLE, word f.ddev⟩) ∧
  (∀ (s : State) (l : Nat) (k : Link), s.links[l]? = some k → k.up = true →
    ∃ u : State, Claim.Happens (.linkOutOfService l) s
        ({ u with queued := k.sent.filter (fun f => ! f.linkLevel) ++ u.queued } : State).settleQueue ∧ u.queued = s.queued ∧
      (nth u.links l {}).up = false ∧ (nth u.links l {}).sent = [] ∧ (nth u.links l {}).exhausted = true ∧
      (nth u.links l {}).retries = k.retries ∧ (∀ m, m ≠ l → nth u.links m {} = nth s.links m {})) ∧
  (∀ (s : State) (b m n : Nat) (gone : List Nat), s.boundaries[b]? = some (n, gone) → 1 < n → m < 48 → m ∉ gone →
    ∃ v, Claim.Happens (.boundaryModuleFailure b m) s v ∧ v.boundaries[b]? = some (n - 1, gone ++ [m]) ∧ v.threads = s.threads ∧
      v.mgmt.modeLater = s.mgmt.modeLater)

/-- R330, R383, R384: data of a remote copy and a part of a message are written where they are addressed, after a fault of a
copy no more, and what was still to be written of it is dropped; once every counted flit has been performed the add or the
sequence word follows, and the report of a copy; a report acknowledges or faults the sender's copy; the store of a released
slot's TAIL is issued, behind earlier ones to it; bulk data is written as such data is, and its fault goes back. The model's
choices of log entries 25, 43 are part of it. -/
def Obligations.DataFlits : Prop :=
  (∀ (s : State) (f : Flit) (mail : Bool), Claim.Comes s f (if mail then 3 else 0) →
    let r := Claim.accepted s f
    let a := r.arrivalOf f mail
    let i : Instr := if mail then .mailboxPayload f else .remoteCopyData f
    a.closed = false → (∀ b ∈ r.arrivals, b.complete = false) →
    (∀ e, mail = false → a.fault = some e → ∃ v, Claim.Happens i s v ∧ v.mem = r.mem ∧ v.accs = r.accs) ∧
    (∀ e, mail = false → a.fault = none →
      r.locateRange ⟨false, 0, 0⟩ .remoteWrite (word f.addr) f.len (f.len + 1) = .error e →
      ∃ v, Claim.Happens i s v ∧ v.mem = (r.noteWalk 0 e).mem ∧ v.accs = r.accs.filter (fun q => ¬ q.id ∈ a.pending) ∧
        (v.arrivalOf f false).fault = some e) ∧
    (∀ l n rest, mail = true ∨ a.fault = none → f.len ≤ 32 - f.addr % 32 → f.addr < 2 ^ 56 →
      r.locateRange ⟨false, 0, 0⟩ .remoteWrite (word f.addr) f.len (f.len + 1) = .ok ((l, n) :: rest) →
      ∃ v q, Claim.Happens i s v ∧ v.mem = r.mem ∧ v.accs = r.accs ++ [q] ∧ q.id = r.accN ∧ q.loc.key = l.key ∧ q.loc.home = l.home ∧
        q.op = .unit (.mem [] 0) f.len (some (indexed (flitBytes f (if mail then 0 else f.param)))))) ∧
  (∀ (f : Flit) (mask i : Nat), i < f.len → f.len ≤ f.payload.length →
    (flitBytes f mask)[i]? = some (nth f.payload i 0, decide (mask / 2 ^ (i / 8) % 2 = 1))) ∧
  (∀ (s : State) (f : Flit), Claim.Comes s f 1 →
    let r := Claim.accepted s f
    let a := r.arrivalOf f false
    let b := { a with closed := true, add := decide (f.param = 1), addr := word f.addr, value := f.word 0, parts := (f.word 1).toNat }
    let u := r.putArrival b
    u.arrivals.find? (fun q => q.complete && ! u.mailBehind q) = some b → a.fault = none →
      (f.param = 0 → ∃ n, Claim.Happens (.remoteCopyCompletionRequest f) s (((u.dropArrival b).report b 0 0).endArrivals n)) ∧
      (∀ l, f.param = 1 → (u.dropArrival b).locate ⟨false, 0, 0⟩ .remoteWrite (word f.addr) 8 = .ok l →
        u.endsAt b = some l → u.lineHeld l.key = false → u.lineShared l.key = false →
        (u.dropArrival b).poisoned l.key 8 = none →
        ∃ n, Claim.Happens (.remoteCopyCompletionRequest f) s
          ((((u.dropArrival b).addAt l (f.word 0) (l.home % 4096)).report b 0 0).endArrivals n))) ∧
  (∀ (s : State) (n : Nat), (∀ b ∈ s.arrivals, b.complete = false) → s.endArrivals n = s) ∧
  (∀ (s : State) (f : Flit), Claim.Comes s f 2 →
    (∀ o, f.param < 256 → (Claim.accepted s f).engOp f.dlcn 0 f.tag = some o →
      Claim.Happens (.remoteCopyReport f) s (if f.param = 0
        then (Claim.accepted s f).modOp f.dlcn 0 f.tag (fun o => { o with acked := true })
        else (Claim.accepted s f).execFault f.dlcn 0 o ⟨f.param, word f.addr⟩)) ∧
    (256 ≤ f.param → f.param < 512 → Claim.Happens (.remoteCopyReport f) s ((Claim.accepted s f).mailReport f))) ∧
  (∀ (s : State) (f : Flit) (l : Loc), Claim.Comes s f 4 →
    let r := Claim.accepted s f
    let a := r.arrivalOf f true
    let b := { a with closed := true, addr := word f.addr, value := f.word 0, parts := f.param }
    let u := r.putArrival b
    u.arrivals.find? (fun q => q.complete && ! u.mailBehind q) = some b → a.fault = none →
    (u.dropArrival b).locate ⟨false, 0, 0⟩ .remoteWrite (word f.addr) 8 = .ok l →
    u.endsAt b = some l → u.lineHeld l.key = false → u.lineShared l.key = false →
    ∃ n, Claim.Happens (.mailboxSequenceWord f) s
      (((u.dropArrival b).writeAt l (bytesOf 8 (f.word 0).toNat) (l.home % 4096)).endArrivals n)) ∧
  (∀ (s : State) (f : Flit) (l : Loc), Claim.Comes s f 5 →
    let r := Claim.accepted s f
    let q := { r with mailOut := r.mailOut.filter (fun m => ¬ (m.dev = f.sdev ∧ m.desc + 8 = word f.addr ∧ m.n < (f.word 0).toNat)) }
    q.locate ⟨false, 0, 0⟩ .store (word f.addr) 8 = .ok l →
    Claim.Happens (.slotReleaseNotice f) s (q.partAcc 0 (l.home % 4096) l (.store (bytesOf 8 (f.word 0).toNat))
      ((q.accs.filter (fun x => x.tid = 0 && decide (x.loc.key = l.key))).map (fun x => x.id)))) ∧
  (∀ (s : State) (f : Flit), Claim.Comes s f 12 →
    let r := Claim.accepted s f
    (∀ l, r.locateRange ⟨false, 0, 0⟩ .remoteWrite (word f.addr) 64 65 = .ok [(l, 64)] →
      Claim.Happens (.bulkData f) s (r.partAcc 0 (l.home % 4096) l (.store (f.payload.take 64)) [])) ∧
    (∀ e, r.locateRange ⟨false, 0, 0⟩ .remoteWrite (word f.addr) 64 65 = .error e →
      Claim.Happens (.bulkData f) s ((r.noteWalk 0 e).sendFlit { blankFlit with
        kind := 11, ddev := f.sdev, param := 4, len := 16, payload := payloadWords [word f.addr, word e.code] })))

/-- R317, R385, R14, R327: a cut goes to a peer as a header, the due units and a marker, in class 3, or in class 2 while an
RSHIP lifts it; between two dies of the device its flits carry the dies in the places of the devices, and each the next ESEQ of its
stream. A unit's flits carry its bytes. -/
def Sys2Proof.Claim.CutsAreMade : Prop :=
  (∀ (s : State) (x die j m : Nat) (e : Elem), s.replicaOn x die = some e → e.peer j = some m → s.shipping = true →
    x < 2 ^ 12 → (s.memberAt e.o m).1 = s.mgmt.devno →
    let r := s.openReplica e
    let q := r.vputWord e.beat (r.vword e.beat + 1)
    let units := q.dueUnits e (q.vword (e.shipped j)).toNat (q.vword e.csn).toNat
    q.cutPoison e units = none →
    ∃ v hs us ms base, Claim.Happens (.cutSend x die j) s v ∧ v.mem = q.mem ∧ v.dieFlits = s.dieFlits ++ (hs ++ us ++ ms) ∧
      hs ≠ [] ∧ ms ≠ [] ∧ (∀ f ∈ hs, f.kind = 6) ∧ (∀ f ∈ ms, f.kind = 8) ∧
      (let bare := fun (f : Flit) => { f with eseq := 0, crc := 0 }
       us.map bare = (units.flatMap (fun u =>
         cutFlits base 7 (unitParts e.o u).2 (unitParts e.o u).1 (q.unitBytes e u))).map (fun f => bare (onBoundary f))) ∧
      (let n := (look s.eseqOut (2 ^ 20 + (die * 8 + (s.memberAt e.o m).2) * 8 + (if q.lifted e then 2 else 3) * 2)).getD 0
       ∀ i f, (hs ++ us ++ ms)[i]? = some f → f.eseq % 2 ^ 16 = (n + i) % 2 ^ 16) ∧
      ∀ f ∈ hs ++ us ++ ms, f.ddev = (s.memberAt e.o m).2 ∧ f.sdev = die ∧ f.dlcn = 256 * (s.memberAt e.o m).2 ∧
        f.slcn = 256 * die ∧ f.cls = (if q.lifted e then 2 else 3) ∧ f.param % 2 ^ 12 = x ∧
        f.tag = (q.vword e.csn).toNat % 2 ^ 16 ∧ f.crc = f.crcOf) ∧
  (∀ (base : Flit) (kind number slot : Nat) (bs : List Byte),
    (cutFlits base kind number slot bs).flatMap (fun f => f.payload.take f.len) = bs ∧
    ∀ f ∈ cutFlits base kind number slot bs, f.kind = kind ∧ f.len ≤ 64)

/-- R317, R300, R385: a header, a unit or a marker of a cut is taken flit by flit, by the sender's slot and class. A complete
header opens the cut, which ends one of its sender in another class, or is counted where its digest or its sender differs, or is
left where a later cut of its sender has come; a complete unit is joined, and the CSN of its unit
rises where that has changed something; a complete marker after the last unit is applied, and k is acknowledged in the cut's
class; an acknowledgement raises what the sender counts as shipped to that peer. -/
def Sys2Proof.Claim.CutsAreTaken : Prop :=
  (∀ (s u : State) (f g : Flit),
    (Claim.CutComes s f 6 u g → Claim.Happens (.cutHeader f) s (u.takeCut g)) ∧
    (Claim.CutComes s f 7 u g → Claim.Happens (.cutUnit f) s (u.takeCut g)) ∧
    (Claim.CutComes s f 8 u g → Claim.Happens (.cutMarker f) s (u.takeCut g)) ∧
    (Claim.CutComes s f 9 u g → Claim.Happens (.cutAcknowledgement f) s (u.takeAck g))) ∧
  (∀ (s : State) (f : Flit) (e : Elem) (m : Nat),
    let q := s.noteSot (f.param % 2 ^ 12)
    let r := q.openReplica e
    let bytes := f.payload.take f.len
    let h := 4 * m + f.cls
    q.replicaOn (f.param % 2 ^ 12) (f.dlcn / 256) = some e → q.slotOf e.o f.sdev (f.slcn / 256) = some m → r.shipping = true →
    (f.kind = 6 → f.addr / 2 ^ 32 = 0 → f.param / 2 ^ 12 % 2 = 1 → s.takeCut f = r.openCut e h f.tag bytes) ∧
    (let c := r.cutFrom e h
     c.stopped = false → c.headed = true → c.tag = f.tag → f.addr / 2 ^ 32 = c.part → f.kind = 7 ∨ f.kind = 8 →
      (f.param / 2 ^ 12 % 2 = 0 → s.takeCut f = r.putCut e h { c with bytes := c.bytes ++ bytes, part := c.part + 1 }) ∧
      (f.param / 2 ^ 12 % 2 = 1 → f.kind = 7 → s.takeCut f =
        r.takeUnit e h c (unitOf e.o (f.param / 2 ^ 13 % 64) (f.addr % 2 ^ 32)) (c.bytes ++ bytes)) ∧
      (f.param / 2 ^ 12 % 2 = 1 → f.kind = 8 → s.takeCut f = r.closeCut e h c f (c.bytes ++ bytes)))) ∧
  (∀ (s : State) (e : Elem) (h : Nat) (c : Cut), (s.putCut e h c).cutFrom e h = c ∧ (s.stopCut e h).cutFrom e h = { stopped := true }) ∧
  (∀ (s : State) (e : Elem) (h tag : Nat) (bs : List Byte),
    let good := bits (wordIn bs 1) 63 32 = s.digest e.o ∧ bits (wordIn bs 1) 5 0 = h / 4
    (¬ good → s.openCut e h tag bs = (s.logError 0x10 (unitDie e.d) (word e.o.x) (s.memberId e.o (h / 4))).stopCut e h) ∧
    let k := wordIn bs 0
    let last := (look (s.replica e.o.x e.d).order (h / 4)).getD 0
    (good → k.toNat < last.toNat → s.openCut e h tag bs = s.stopCut e h) ∧
    (good → last.toNat ≤ k.toNat → s.openCut e h tag bs = (s.modReplica e.o.x e.d (fun r => { r with
        order := Machine.put r.order (h / 4) k, cuts := r.cuts.filter (fun c => decide (c.1 / 4 ≠ h / 4 ∨ c.1 = h)) })).putCut e h {
      k := k, units := (wordIn bs 2).toNat, headed := true, tag := tag,
      vv := if e.o.ty = .awset then (List.range 64).map (fun i => wordIn bs (8 + i)) else [] })) ∧
  (∀ (s : State) (e : Elem) (h u : Nat) (c : Cut) (bs : List Byte),
    (e.o.units ≤ u ∨ c.units = 0 → s.takeUnit e h c u bs = s.stopCut e h) ∧
    (u < e.o.units → c.units ≠ 0 →
      (∀ p, s.joinPoison e u bs = some p → s.takeUnit e h c u bs = (s.countPoison p).stopCut e h) ∧
      (∀ v ch full, s.joinPoison e u bs = none → s.joinUnit e u bs c.vv = (v, ch, full) →
        let q := if ch then v.bumpCsn e u else v
        (full = none → s.takeUnit e h c u bs = q.putCut e h { c with units := c.units - 1, bytes := [], part := 0 }) ∧
        (∀ p, full = some p → s.takeUnit e h c u bs =
          (q.logError 0x0F (unitCore (s.elemHome e % 4096)) (word e.o.x) (word p)).stopCut e h)))) ∧
  (∀ (s : State) (e : Elem) (h : Nat) (c : Cut) (f : Flit) (bs : List Byte),
    (c.units ≠ 0 → s.closeCut e h c f bs = s.stopCut e h) ∧
    (c.units = 0 → s.markerPoison e = none →
      let r := (c.vv.zip (List.range 64)).foldl (fun (s : State) q => s.raiseWord (e.vv q.2) q.1) s
      let t := (r.applyMarker e (h / 4) ((List.range (bs.length / 8)).map (wordIn bs))).stopCut e h
      s.closeCut e h c f bs = t.shipFlit { blankFlit with
        cls := f.cls, kind := 9, ddev := f.sdev, dlcn := f.slcn, slcn := f.dlcn, tag := f.tag, len := 8,
        param := f.param % 2 ^ 12 + 2 ^ 12, payload := payloadWords [c.k] })) ∧
  (∀ (s : State) (f : Flit) (e : Elem) (j m : Nat), s.replicaOn (f.param % 2 ^ 12) (f.dlcn / 256) = some e → j < 8 →
    e.peer j = some m → s.memberAt e.o m = (f.sdev, f.slcn / 256) →
    (∀ i p, i < 8 → i ≠ j → e.peer i = some p → s.memberAt e.o p ≠ (f.sdev, f.slcn / 256)) →
    s.takeAck f = (s.raiseWord (e.shipped j) (f.word 0)).settleLift e) ∧
  (∀ (s : State) (a : Nat) (x : Word), s.raiseWord a x = if x.toNat > (s.vword a).toNat then s.vputWord a x else s)

/-- A unit's contents written over the replica's own. -/
def Sys2Proof.Claim.unitWritten (s : State) (e : Elem) (u : Nat) (bs : List Byte) : State :=
  ((unitRanges e u).foldl (fun (acc : State × List Byte) r => (acc.1.vput r.1 (acc.2.take r.2), acc.2.drop r.2)) (s, bs)).1

/-- R313 to R315: the joins. A PCSUM unit replaces one with a smaller count of updates, an LWWT tile one with an older stamp,
and raises S; MAXR and CMEAN take element by element the larger, and the one with more samples. A page of an AWSET keeps exactly
the dots of R314; it is deleted where none is left, and a page for which there is no room ends the cut. -/
def Sys2Proof.Claim.UnitsAreJoined : Prop :=
  (∀ (s : State) (e : Elem) (u : Nat) (bs : List Byte) (vv : List Word),
    let old := (unitRanges e u).flatMap (fun r => s.vbytes r.1 r.2)
    (e.o.ty = .pcsum → s.joinUnit e u bs vv =
      if ofBytes (bs.take 8) > ofBytes (old.take 8) then (Claim.unitWritten s e u bs, true, none) else (s, false, none)) ∧
    (e.o.ty = .maxr →
      let m := mergeElems e.o.esize (largerElem e.o.efmt) old bs
      s.joinUnit e u bs vv = (if m.2 then Claim.unitWritten s e u m.1 else s, m.2, none)) ∧
    (e.o.ty = .cmean →
      let m := mergeElems 16 (fun a b => if b % 2 ^ 64 > a % 2 ^ 64 then b else a) old bs
      s.joinUnit e u bs vv = (if m.2 then Claim.unitWritten s e u m.1 else s, m.2, none)) ∧
    (e.o.ty = .lwwt →
      let stamp := wordIn bs 0
      let later := stamp.toNat > (wordIn old 0).toNat ∨
        (stamp = wordIn old 0 ∧ bits (wordIn bs 1) 14 0 > bits (wordIn old 1) 14 0)
      let r : State := if stamp.toNat > s.hlc.toNat then { s with hlc := stamp } else s
      (later → s.joinUnit e u bs vv = (Claim.unitWritten r e u bs, true, none)) ∧
      (¬ later → s.joinUnit e u bs vv = (r, false, none))) ∧
    (∀ p ds, e.o.ty = .awset → carried bs (bs.length / 64 + 1) = [(p, ds)] → (∀ q ∈ s.unitPages e u, q.1 = p) →
      s.joinUnit e u bs vv = match s.joinPage e p ds (fun r => (nth vv r 0).toNat) with
        | some (v, ch) => (v, ch, none)
        | none => (s, false, some p))) ∧
  (∀ (E : Nat) (f : Nat → Nat → Nat) (old new : List Byte) (i : Nat), 0 < E → i < old.length / E →
    ofBytes ((((mergeElems E f old new).1).drop (E * i)).take E) =
      f (ofBytes ((old.drop (E * i)).take E)) (ofBytes ((new.drop (E * i)).take E)) % 2 ^ (8 * E)) ∧
  (∀ (s : State) (e : Elem) (p : Nat) (ds : List Dot) (vvs : Nat → Nat),
    let dl := match s.findPage e p with
      | some j => s.dots e j
      | none => []
    let d := joinDots dl ds (fun r => (s.vword (e.vv r)).toNat) vvs
    (d = dl → s.joinPage e p ds vvs = some (s, false)) ∧
    (d ≠ dl → d = [] → s.joinPage e p ds vvs = some (s.deletePage e p, true)) ∧
    (d ≠ dl → d ≠ [] → s.joinPage e p ds vvs = (s.putPage e p d).map (fun v => (v, true)))) ∧
  (∀ (dl ds : List Dot) (vvl vvs : Nat → Nat) (d : Dot), d ∈ joinDots dl ds vvl vvs ↔
    (d ∈ dl ∧ (d ∈ ds ∨ d.k > vvs d.r)) ∨ (d ∈ ds ∧ d ∉ dl ∧ d.k > vvl d.r))

/-- R320, R318: a replica's membership is evaluated at any time; a member whose heartbeat has not risen for SILENT ticks is
ABSENT, VIEW one higher; a member that HOLD names is ABSENT; the bound of an RSHIP ends its lift. -/
def Sys2Proof.Claim.MembersOfReplicas : Prop :=
  (∀ (s : State) (x die : Nat) (e : Elem), s.replicaOn x die = some e → s.shipping = true →
    Claim.Happens (.membershipEvaluation x die) s
      (((s.openReplica e).evaluateMembers e).serve x die 64)) ∧
  (∀ (s : State) (x die j : Nat), s.fixed = false → s.serve x die j = s) ∧
  (∀ (s : State) (x die m : Nat) (e : Elem) (since : Word), s.replicaOn x die = some e → (s.replica x die).valid = true →
    m < e.o.n → m ≠ e.self → s.memberState e m ≠ 1 → look (s.replica x die).timers m = some since →
    since.toNat + e.o.silence ≤ s.time.toNat →
    Claim.Happens (.silenceExpiry x die m) s ((s.setMember e m 1).evaluateMembers e)) ∧
  (∀ (s : State) (e : Elem) (m : Nat), (s.vword (e.member m)).getLsbD 2 = true → s.memberState e m ≠ 1 →
    s.evaluateMember e m = s.setMember e m 1) ∧
  (∀ (s : State) (e : Elem) (m : Nat), (s.vword (e.member m)).getLsbD 2 = false → s.memberState e m = 2 →
    (∀ c, c < e.o.n → (s.vword (e.front c)).toNat ≤ (s.vword (e.hv m c)).toNat) →
    s.evaluateMember e m = s.setMember e m 0) ∧
  (∀ (s : State) (e : Elem) (m st : Nat),
    let q := ((s.vputWord (e.member m) (setBits (s.vword (e.member m)) 1 0 st)).vputWord e.view (s.vword e.view + 1)).recomputeF e
    s.setMember e m st = if st = 1
      then q.modReplica e.o.x e.d (fun r => { r with order := r.order.filter (fun p => decide (p.1 ≠ m)) }) else q) ∧
  (∀ (s : State) (x die : Nat) (csn till : Word), (s.replica x die).lift = some (csn, till) → till.toNat ≤ s.time.toNat →
    ∃ v, Claim.Happens (.rshipBoundExpiry x die) s v ∧ v.replica x die = { s.replica x die with lift := none })

/-- R338, R340, R358, R366, R376: the registers that the host and the management controller write. -/
def Sys2Proof.Claim.HostAndManagementWrites : Prop :=
  (∀ (s : State) (x : Word), s.hostOpen = true →
    (∃ v, Claim.Happens (.ldoor x) s v ∧ v.host = { s.host with lhead := x } ∧ v.threads = s.threads) ∧
    (∃ v, Claim.Happens (.mdoor x) s v ∧ v.host = { s.host with mhead := word (x.toNat % 32768) } ∧ v.threads = s.threads) ∧
    (∃ v, Claim.Happens (.registerWrite .hosttail x) s v ∧ v.host = { s.host with hosttail := x }) ∧
    (∃ v, Claim.Happens (.registerWrite .mhost x) s v ∧ v.host = { s.host with mhost := x })) ∧
  (∀ (s : State) (x : Word), s.mgmt.power = 0 → s.ctl.length = 11 →
    ∃ v, Claim.Happens (.dmhead x) s v ∧ nth v.ctl 9 0 = (if s.bridge then x else nth s.ctl 9 0) ∧ v.mem = s.mem ∧
      ∀ i, i ≠ 9 → nth v.ctl i 0 = nth s.ctl i 0) ∧
  (∀ (s : State) (x : Word),
    let writes := fun (r : HostReg) (n : Nat) (f : Mgmt → Mgmt) =>
      Claim.Happens (.registerWrite r x) s ((s.recordCommand .register [word n, x]).modMgmt f)
    writes .secst 6 (fun m => m) ∧
    writes .ftbase 0 (fun m => { m with ftbase := word (bits x 39 6 * 2 ^ 6) }) ∧
    writes .recbase 2 (fun m => { m with recbase := word (bits x 39 16 * 2 ^ 16 + bits x 15 0), recIndex := 0 }) ∧
    writes .det 3 (fun m => { m with det := x.getLsbD 0, reclost := m.reclost && ! x.getLsbD 1 }) ∧
    ∀ i, writes (.cktgt i) (16 + i) (fun m => { m with cktgt := modify m.cktgt i (fun _ => x) }))

/-- R376: GO starts a summary, through BAR0 on the bridge or as a management command on any device; a write while BUSY does
nothing. Once the residents that QUIET asks for have left, it reads one section after another and, with all of them, writes the
4 KiB record and clears BUSY. The model's choices of log entry 47 are part of it. -/
def Sys2Proof.Claim.Summaries : Prop :=
  (∀ (s : State) (host : Bool) (x : Word), s.mgmt.power = 0 → host = false ∨ s.bridge = true →
    let r := if host then s.recordBar0 0x20 x else s.recordCommand .summary [x]
    let kept := word (bits x 63 12 * 4096 + bits x 1 1 * 2)
    let happens := fun (t : State) =>
      (host = true → Claim.Happens (.summary x) s t) ∧ (host = false → s.carryOut (.summaryCommand x) = .next { t with freeN :=
        t.freeN + 1 })
    (r.host.summary.getLsbD 2 = true → happens r) ∧
    (r.host.summary.getLsbD 2 = false → x.getLsbD 0 = false → happens { r with host := { r.host with summary := kept } }) ∧
    (r.host.summary.getLsbD 2 = false → x.getLsbD 0 = true →
      let u := { r with host := { r.host with
        summary := setBits kept 2 2 1, sumStart := r.time, sumHost := host, sumPart := [], sumTrunc := 0 } }
      happens (if x.getLsbD 1 then u.preemptAll else u))) ∧
  (∀ (s : State), s.host.summary.getLsbD 2 = true →
    let k := s.host.sumPart.length
    (s.host.summary.getLsbD 1 = true → k = 0 → (∃ e ∈ s.live, e.2.place.isSome = true ∧ e.2.kind ≠ .handler) → s.finishSummary = s) ∧
    ((s.host.summary.getLsbD 1 = false ∨ 0 < k ∨ ∀ e ∈ s.live, e.2.place = none ∨ e.2.kind = .handler) →
      (k < 8 → ∃ cut, s.finishSummary = { s with host := { s.host with
        sumPart := s.host.sumPart ++ [s.summarySection k], sumTrunc := s.host.sumTrunc + cut } }) ∧
      (8 ≤ k → s.host.sumHost = true →
        let a := word (bits s.host.summary 63 12 * 4096)
        let r := s.hostWrite a (s.summaryHeader ++ s.host.sumPart.flatten)
        s.finishSummary = ({ r with host := { r.host with
          summary := setBits s.host.summary 2 2 0, sumPart := [], sumTrunc := 0 } } : State).announceSummary))) ∧
  (∀ (s : State), s.summaryHeader.length = 64 ∧ s.summaryHeader.take 16 = wordsBytes [1, word s.mgmt.devno] ∧
    (List.range 8).map (fun k => (s.summarySection k).length) = [128, 1024, 96, 64, 1536, 128, 32, 1024] ∧
    (∀ q, q < 16 → ((s.summarySection 0).drop (8 * q)).take 8 = bytesOf 8 (s.queueWord q).toNat) ∧
    (∀ c, c < 24 → ((s.summarySection 2).drop (4 * c)).take 4 = bytesOf 4 (s.pendingTraps c)))

/-- R337, R367: in SERVICE a message in place in the launch mailbox is taken: one whose sender failed is only taken; its block
is copied to firmware's launch area, submitted there, and word 16 copied back; or the bridge forwards it to another device of
the group. A block that the management controller submits is submitted as LAUNCH does. None of it happens while a line it
reads or writes is held by a handler (R185). -/
def Sys2Proof.Claim.LaunchesFromHost : Prop :=
  (∀ (s : State) (b : Box) (q : Word) (ls : List Loc) (l16 : Loc), s.mode = .service → s.mgmt.power = 0 →
    s.launchMail = some (b, q, ls, l16) →
    let ws := s.wordsAt ls
    let taken := s.takeLaunchMail b
    let k := (b.f 0).toNat % b.slots
    let reads := s.seqKey ⟨false, noLaunch, 0⟩ b k ++ ls.map (fun l => l.key)
    let free := fun (keys : List Nat) (places : List Loc) => (∀ k ∈ keys, s.lineHeld k = false) ∧
      ∀ l ∈ places, s.lineHeld l.key = false ∧ s.lineShared l.key = false
    (q.getLsbD 63 = true → free reads [b.loc] → Claim.Happens .launchMailboxTake s taken) ∧
    (q.getLsbD 63 = false → s.bridge = false ∨ Config.forwardTo ws = none →
      free (reads ++ s.tableKeys ws) ([b.loc, l16] ++ s.areaPlaces k) →
      Claim.Happens .launchMailboxTake s (taken.submitMail ((b.f 0).toNat % b.slots) ws l16)) ∧
    (∀ a f, q.getLsbD 63 = false → s.bridge = true → Config.forwardTo ws = some a → s.box ⟨false, noLaunch, 0⟩ a 1 = .ok f →
      f.free ≠ 0 → free reads [b.loc, f.loc] → Claim.Happens .launchMailboxTake s (taken.sendMail 0 0 f (ws.flatMap (fun w =>
        bytesOf 8 w.toNat))))) ∧
  (∀ (s : State) (b : Box) (q : Word) (ls : List Loc) (l16 : Loc), s.launchBox = .ok b →
    let a := b.f 2 + word ((b.f 0).toNat % b.slots * b.z)
    s.seqWord ⟨false, noLaunch, 0⟩ b ((b.f 0).toNat % b.slots) = .ok q → s.checkWords ⟨false, noLaunch, 0⟩ a 16 = .ok ls →
    s.locate' ⟨false, noLaunch, 0⟩ .store (a + 128) 8 = .ok l16 →
    (q.toNat % 2 ^ 63 = ((b.f 0).toNat + 1) % 2 ^ 63 → s.launchMail = some (b, q, ls, l16)) ∧
    (q.toNat % 2 ^ 63 ≠ ((b.f 0).toNat + 1) % 2 ^ 63 → s.launchMail = none)) ∧
  (∀ (s : State) (b : Box), s.launchBox = .ok b → b.z = 256) ∧
  (∀ (s : State) (b : Box), s.bridge = true →
    let r := if b.f 1 ≠ 0 then s.hostWrite s.host.hosttail (bytesOf 8 (b.f 1).toNat) else s
    s.takeLaunchMail b = (r.putBox b 1 (b.f 0 + 1)).putBox b 0 (b.f 0 + 1)) ∧
  (∀ (s : State) (k : Nat) (ws : List Word) (l16 r16 : Loc) (ls : List Loc) (table : List Word),
    let area := s.mgmt.launchArea + word (256 * k)
    s.checkWords ⟨false, noLaunch, 0⟩ area 16 = .ok ls → s.locate' ⟨false, noLaunch, 0⟩ .store (area + 128) 8 = .ok r16 →
    s.stageTable ws = .ok table →
    let r := (ls.zip ws).foldl (fun (s : State) e => s.writeAt e.1 (bytesOf 8 e.2.toNat) (e.1.home % 4096)) s
    s.submitMail k ws l16 = (r.submit 0 0 ws area false table (some r16)).writeAt l16
      (bytesOf 8 (r.submitted ws area table).toNat) (l16.home % 4096)) ∧
  (∀ (s : State) (a : Word) (ls : List Loc) (l16 : Loc) (table : List Word), s.mode ≠ .recovery → s.mgmt.power = 0 →
    s.mode ≠ .test ∨ s.mgmt.det = false →
    a.toNat % 8 = 0 → a.toNat < 2 ^ 56 → s.checkWords ⟨false, noLaunch, 0⟩ a 16 = .ok ls →
    s.locate' ⟨false, noLaunch, 0⟩ .store (a + 128) 8 = .ok l16 → s.stageTable (s.wordsAt ls) = .ok table →
    (∀ k ∈ ls.map (fun l => l.key) ++ s.tableKeys (s.wordsAt ls), s.lineHeld k = false) →
    Claim.Happens (.managementLaunchSubmission a) s
      (((s.recordCommand .launch [a]).submit 0 0 (s.wordsAt ls) a false table (some l16)).modLaunch s.launchNumber
        (fun l => { l with managed := true })))

/-- R340, R341: the migration engine serves the next request. A page that comes to the device is written, its owner bit set, the
request's counter raised for a request of the device ring, and the ring's tail moves on. A page that goes to the host is first
taken from the device: its owner bit is cleared and every TLB is invalidated; once every access made under the old entry has
been performed its bytes are written to the host and the request ends. The model's choices of log entry 46 are part of it. -/
def Sys2Proof.Claim.Migrations : Prop :=
  (∀ (s : State) (page : List (Nat × Byte)) (h : Bool), s.hostOpen = true → s.nextRing = some h →
    Claim.Happens (.migrationRequest page) s (s.migrate h page)) ∧
  (∀ (s : State) (h : Bool) (page : List (Nat × Byte)) (e : Word) (big : Bool) (key : Nat),
    let r := s.request (s.ringKey h)
    let va := nth r 0 0
    s.walk va.toNat = .leaf e big → s.leafKey (bits s.roots.1 39 13 * 2 ^ 13) (pageIndexes va.toNat) = some key →
    let pa := leafPA e big va.toNat
    (leafKind e ≠ 4 ∨ va.toNat % 65536 ≠ 0 ∨ bits va 63 56 ≠ 0 → s.migrate h page = s.endRequest h false) ∧
    (leafKind e = 4 → va.toNat % 65536 = 0 → bits va 63 56 = 0 →
      (nth r 2 0 = 0 →
        let u := ((s.wrBytes pa (pageBytes page)).clearPoison pa 65536).setOwner key true
        (h = true → s.migrate h page = u.endRequest h false) ∧
        (∀ l, h = false → u.locate ⟨false, noLaunch, 0⟩ .atomic (nth r 3 0) 8 = .ok l →
          s.migrate h page = (u.addAt l 1 (l.home % 4096)).endRequest h false)) ∧
      (nth r 2 0 ≠ 0 →
        let u := { s.setOwner key false with tlbs := [], stale := [], dropped := s.dropped + 1 }
        (u.pageInUse va.toNat pa big = true → s.migrate h page = { u with host := { u.host with hostNext := h } }) ∧
        (u.pageInUse va.toNat pa big = false →
          s.migrate h page = (u.hostWrite (nth r 1 0) (u.rdBytes pa 65536)).endRequest h true)))) ∧
  (∀ (page : List (Nat × Byte)), (pageBytes page).length = 65536 ∧
    ∀ o b, o < 65536 → page.find? (fun e => decide (e.1 = o)) = some (o, b) → nth (pageBytes page) o 0 = b) ∧
  (∀ (s : State) (key : Nat) (d : Bool), s.MemWf → key + 8 ≤ controlPage →
    (s.setOwner key d).rdWord key = setBits (s.rdWord key) 55 55 (if d then 1 else 0)) ∧
  (∀ (s : State) (h notify : Bool), s.ctl.length = 11 →
    let v := s.endRequest h notify
    (h = true → v.host.mtail = word ((s.host.mtail.toNat + 1) % 32768) ∧ v.host.hostNext = false ∧ v.ctl = s.ctl) ∧
    (h = false → nth v.ctl 10 0 = nth s.ctl 10 0 + 1 ∧ v.host.hostNext = true ∧ v.host.mtail = s.host.mtail) ∧
    v.host.writes = s.host.writes ++ (if h = true ∨ notify = true then [(s.host.mhost, bytesOf 8 v.host.mtail.toNat)] else []))

/-- R368, R369, R92: D1 is entered between two rotations, D2 once the device is empty and drained and its bands are saved, its g
registers zero, its channels, inboxes and scratchpads lost and its TLBs empty; in D3 only the management controller keeps its
contents; a wake goes back to D0 at the level last asked for; a level is changed between two rotations, and level 3 is none. -/
def Sys2Proof.Claim.PowerAndClock : Prop :=
  (∀ (s : State), s.mgmt.power = 0 → s.mode ≠ .recovery → s.mgmt.ckpt = false → s.replaying = false →
    s.betweenRotations = true → ∃ v, Claim.Happens .enterD1 s v ∧ v.mgmt.power = 1 ∧ v.mgmt.level = s.mgmt.level ∧
      v.threads = s.threads ∧ v.cores = s.cores) ∧
  (∀ (s : State), s.mgmt.power = 0 → s.mode ≠ .recovery → s.mgmt.ckpt = false → s.replaying = false →
    s.emptied = true → s.drained = true →
    let q := ((s.recordCommand .d2 []).modMgmt (fun m => { m with powerLater := some 2 })).saveBands
    (q.bandsSaved = false → Claim.Happens .enterD2 s q) ∧
    (q.bandsSaved = true → ∃ v, Claim.Happens .enterD2 s v ∧ v.mgmt.power = 2 ∧ v.mgmt.level = s.mgmt.level ∧
      v.threads = s.threads ∧ v.tlbs = [] ∧
      (s.mgmt.det = false → ∀ k, v.rdByte k = if 2 ^ 44 ≤ k ∧ k < 2 ^ 45 then ({} : State).rdByte k else q.rdByte k) ∧
      ∀ c, (v.core c).g = List.replicate 32 0 ∧ (v.core c).chans = ({} : Core).chans ∧ (v.core c).inboxes = ({} : Core).inboxes ∧
        (v.core c).runq = (q.core c).runq ∧ (v.core c).deque = (q.core c).deque)) ∧
  (∀ (s : State), s.mgmt.power ≠ 3 → s.mgmt.ckpt = false →
    ∃ v, Claim.Happens .enterD3 s v ∧ v.mgmt.power = 3 ∧ v.mgmt.devno = s.mgmt.devno ∧ v.mgmt.ftbase = s.mgmt.ftbase ∧
      v.mgmt.elbase = s.mgmt.elbase ∧ v.mode = .boot ∧ v.threads = [] ∧ v.launches = [] ∧ v.mem = [] ∧ v.time = s.time) ∧
  (∀ (s : State), s.mgmt.power = 1 ∨ s.mgmt.power = 2 →
    ∃ v, Claim.Happens .wakeD0 s v ∧ v.mgmt.power = 0 ∧ v.mgmt.level = s.mgmt.levelLater.getD s.mgmt.level ∧
      v.mgmt.levelLater = none ∧ v.threads = s.threads) ∧
  (∀ (s : State) (l : BitVec 2), s.mgmt.power ≠ 3 →
    (l ≠ 3 → ∃ v, Claim.Happens (.clockLevelWrite l) s v ∧ v.mgmt.levelLater = some l.toNat ∧ v.mgmt.level = s.mgmt.level) ∧
    (l = 3 → ∃ v, Claim.Happens (.clockLevelWrite l) s v ∧ v.mgmt.levelLater = s.mgmt.levelLater ∧ v.mgmt.level = s.mgmt.level)) ∧
  (∀ (s : State) (l : Nat), s.mgmt.levelLater = some l → s.mgmt.power = 0 → s.mgmt.ckpt = false → s.betweenRotations = true →
    ∃ v, Claim.Happens .clockLevelChange s v ∧ v.mgmt.level = l ∧ v.mgmt.levelLater = none ∧ v.mgmt.power = 0)

/-- R367, R379, R370, R372: SERVICE is entered from START-UP with the zero values of R379, TEST from START-UP or SERVICE, each
once the bands are saved; bring-up verifies the images, trains, sets the numbers and registers and ends in START-UP, or in
RECOVERY. -/
def Sys2Proof.Claim.DeviceModes : Prop :=
  (∀ (s : State), s.mode = .boot → s.mgmt.power = 0 → s.mgmt.modeLater ≠ some 3 → s.emptied = true → s.drained = true →
    s.mgmt.held = false → s.launches = [] →
    let q := ((s.recordCommand .service []).modMgmt (fun m => { m with modeLater := some 1 })).saveBands
    q.bandsSaved = true →
    ∃ v, Claim.Happens .enterService s v ∧ v.mode = .service ∧ v.watch = [] ∧ v.hlc = 0 ∧ v.nextLnum = 0 ∧
      v.mxu = [] ∧ v.dieTurns = [] ∧ ∀ c, v.core c = (q.core c).entered) ∧
  (∀ (k : Core), k.entered.rotation = 0 ∧ k.entered.nextSlot = 0 ∧ k.entered.g = List.replicate 32 0 ∧
    (∀ b i, nth (k.entered.bank b).rows i 0 = 0 ∧ (k.entered.bank b).poison = [] ∧ (k.entered.bank b).owner = none) ∧
    (∀ b, (nth k.entered.bands b {}).v = false) ∧ k.entered.eng0 = [] ∧ k.entered.eng1 = [] ∧
    k.entered.runq = k.runq ∧ k.entered.deque = k.deque ∧ k.entered.chans = k.chans ∧ k.entered.inboxes = k.inboxes) ∧
  (∀ (s : State), s.mode = .boot ∨ s.mode = .service → s.mgmt.power = 0 → s.mgmt.modeLater ≠ some 3 → s.emptied = true → s.drained = true →
    let q := ((s.recordCommand .test []).modMgmt (fun m => { m with modeLater := some 2 })).saveBands
    q.bandsSaved = true → ∃ v, Claim.Happens .enterTest s v ∧ v.mode = .test ∧ v.threads = s.threads) ∧
  (∀ (s : State) (m : Nat), s.mgmt.modeLater = some 3 → s.requestMode m = none) ∧
  (∀ (s : State) (b : BringUp), ∃ v, Claim.Happens (.bringUp b) s v ∧ v.threads = [] ∧ v.launches = [] ∧ v.time = s.time ∧
    let good := fun (f : Firmware) => signedByFuses s.mgmt.keyHash f.key f.image f.signature = true
    let lost := fun (n : Nat) => (dedup ((nth b.removed n []).filter (fun m => decide (m < 48)))).length
    ((∃ f ∈ b.images, ¬ good f) → v.mode = .recovery ∧ v.mgmt.secst = 3) ∧
    ((∀ f ∈ b.images, good f) → b.trainOk = false → v.mode = .recovery) ∧
    ((∀ f ∈ b.images, good f) → b.trainOk = true → (∃ n, n < 10 ∧ 24 < lost n) → v.mode = .recovery) ∧
    ((∀ f ∈ b.images, good f) → b.trainOk = true → (∀ n, n < 10 → lost n ≤ 24) →
      v.mode = .boot ∧ v.mgmt.power = 0 ∧ v.mgmt.devno = b.devno % 4096 ∧
      v.mgmt.secst = (if (b.debugToken.map v.verifiesToken).getD false then 2 else 0) ∧
      v.mgmt.measurements = b.images.map (fun f => sha384 f.image) ∧
      (∀ n, n < 10 → (v.boundaries[n]?).map (fun e => e.1) = some (48 - lost n)) ∧
      v.mgmt.ftbase = b.ftbase ∧ v.links.length = 16 ∧ ∀ l, l < 16 → (nth v.links l {}).up = b.linksUp.getLsbD l))

/-- R378, R386: a checkpoint asks every resident to leave; once the device is empty and drained and its bands are saved the
queues of MTs are spilled, the machine record is written and every segment of HBM is to be sent. The segments go one by one to
the targets in turn, each in flits that carry its bytes; one for a target that cannot be reached goes to the next. With all of
them arrived the image, which is what the flits carried, stands in the safe tier, and with no target left in none, and the
device goes on. In a replay nothing is streamed. The model's choices of log entry 51 are part of it. -/
def Sys2Proof.Claim.Checkpoints : Prop :=
  (∀ (s : State), s.mgmt.power = 0 → s.mgmt.ckpt = false →
    Claim.Happens .checkpoint s ((s.recordCommand .checkpoint []).modMgmt (fun m => { m with ckpt := true })).preemptAll) ∧
  (∀ (s : State), s.mgmt.ckpt = true → s.mgmt.stream = none → s.emptied = true → s.drained = true → s.saveBands.bandsSaved = true →
    s.finishCheckpoint = s.saveBands.spillAll.writeRecord.modMgmt (fun m => { m with stream := some { left := List.range 12288 } })) ∧
  (∀ (s : State) (st : Stream), s.mgmt.ckpt = true → s.mgmt.stream = some st → s.replaying = true →
    s.finishCheckpoint = s.endCheckpoint) ∧
  (∀ (s : State) (st : Stream), s.mgmt.ckpt = true → s.mgmt.stream = some st → s.replaying = false →
    let live := s.targets.filter (fun t => ¬ t.2 ∈ st.dead)
    let turn := (live.find? (fun t => decide (t.2 ≥ st.next))).or live.head?
    (st.left = [] → s.bulkPending = false →
      s.finishCheckpoint = ({ s with image := some st.sent } : State).endCheckpoint) ∧
    (st.left ≠ [] → live = [] → s.finishCheckpoint = s.endCheckpoint) ∧
    (∀ seg rest dev place, st.left = seg :: rest → turn = some (dev, place) → (∀ f ∈ s.queued, f.kind ≠ 12) →
      (dev = s.mgmt.devno ∨ s.route dev = none → s.finishCheckpoint = s.targetLost dev seg) ∧
      (dev ≠ s.mgmt.devno → s.route dev ≠ none →
        let r := s.modMgmt (fun m => { m with
          stream := some { st with left := rest, sent := st.sent.withSegment s seg place, next := place + 1 } })
        s.finishCheckpoint = (r.segmentFlits dev seg (nth r.mgmt.cktgt (2 * place + 1) 0)).foldl (fun (s : State) f => s.sendFlit f) r))) ∧
  (∀ (im : Image) (s : State) (seg place : Nat), let v := im.withSegment s seg place
    let here := fun (k : Nat) => seg * 2 ^ 26 ≤ k ∧ k < (seg + 1) * 2 ^ 26
    v.placed = Machine.put im.placed seg place ∧ (∀ k x, (k, x) ∈ v.mem ↔ if here k then (k, x) ∈ s.mem else (k, x) ∈ im.mem) ∧
    (∀ k x, (k, x) ∈ v.full ↔ if here (8 * k) then (k, x) ∈ s.full else (k, x) ∈ im.full) ∧
    ∀ k, k ∈ v.poison ↔ if here k then k ∈ s.poison else k ∈ im.poison) ∧
  (∀ (s : State) (dev seg i : Nat) (base : Word), i < 2 ^ 20 → ∃ f, (s.segmentFlits dev seg base)[i]? = some f ∧ f.kind = 12 ∧
    f.ddev = dev ∧ f.tag = seg % 2 ^ 16 ∧ f.addr = (base.toNat + 64 * i) % 2 ^ 56 ∧ f.len = 64 ∧
    f.payload = s.rdBytes (seg * 2 ^ 26 + 64 * i) 64) ∧
  (∀ (s : State), s.mgmt.powerLater = none →
    s.endCheckpoint = s.modMgmt (fun m => { m with ckpt := false, stream := none, slotWaits := [] }))

/-- R380, R367: RESTORE in START-UP or TEST streams the image back and loads the machine record that stands in it, the time base
and the device number as they were, S never lower; in another mode, and with a record of another version or device, it is
refused and logged; where a segment cannot be read the device goes into RECOVERY. The model's choices of log entries 51, 52 are
part of it. -/
def Sys2Proof.Claim.Restores : Prop :=
  (∀ (s : State) (src : RestoreSource), s.mgmt.power ≠ 3 →
    let q := s.recordCommand .restore (restoreWords src)
    (q.mode = .service ∨ q.mode = .recovery → Claim.Happens (.restore src) s (q.logRestore 0 1)) ∧
    (∀ im, s.mgmt.power = 0 → q.mode = .boot ∨ q.mode = .test → q.image = some im →
      (∀ n, im.unreadable src = some n →
        Claim.Happens (.restore src) s (((q.loadMemory im (n * 2 ^ 26)).logRestore n 4).recover)) ∧
      (im.unreadable src = none →
        let u := q.loadMemory im hbmEnd
        (u.headerWord 0 ≠ 1 → Claim.Happens (.restore src) s (u.logRestore 0 2)) ∧
        (u.headerWord 0 = 1 → (u.headerWord 1).toNat ≠ u.mgmt.devno → Claim.Happens (.restore src) s (u.logRestore 0 3)) ∧
        (∀ r, u.headerWord 0 = 1 → (u.headerWord 1).toNat = u.mgmt.devno → u.readRecord = some r →
          Claim.Happens (.restore src) s
            ((u.loadRecord r).modMgmt (fun m => { m with held := decide (u.mode = .boot) })))))) ∧
  (∀ (im : Image) (src : RestoreSource), im.unreadable src = none ↔
    src.badSegment = none ∧ ∀ n i, (n, i) ∈ im.placed → i ∈ src.targets) ∧
  (∀ (s : State) (im : Image) (limit : Nat),
    (s.loadMemory im limit).mem.filter (fun e => decide (e.1 < limit)) = im.mem.filter (fun e => decide (e.1 < limit)) ∧
    (s.loadMemory im limit).mem.filter (fun e => decide (limit ≤ e.1)) = s.mem.filter (fun e => decide (limit ≤ e.1))) ∧
  (∀ (s : State) (r : Loaded),
    let v := s.loadRecord r
    v.time = s.time ∧ v.mgmt.devno = s.mgmt.devno ∧ v.mode = s.mode ∧ v.mem = s.mem ∧ v.threads = r.kept.threads ∧
    v.launches = r.allLaunches.map (fun e => (e.1, { e.2 with managed := true })) ∧ v.nextLnum = (nth r.head 54 0).toNat ∧
      s.hlc.toNat ≤ v.hlc.toNat ∧
    ∀ c k waits, r.cores[c]? = some (k, waits) →
      (v.core c).rotation = k.rotation ∧ (v.core c).g = k.g ∧ (v.core c).chans = k.chans ∧ (v.core c).nextSlot = 0) ∧
  (∀ (s : State), s.emptied = true → s.drained = true →
    (s.modMgmt (fun m => { m with modeLater := some 3 })).saveBands.bandsSaved = true → s.recover.mode = .recovery)

/-- R375, R374, R382: in a replay the next record of the ring is delivered at the rotation of its core, or of its die's
scheduler, and that core takes no turn before; a recorded value of the time base goes to its reader; a recorded expiry is made
once its thread is BLOCKED in that rotation, and skipped after it; a recorded share of slots, move of a core or power state is
made. The model's choices of log entry 54 are part of it. -/
def Sys2Proof.Claim.Replays : Prop :=
  (∀ (s : State) (r : Recorded), s.mode = .test → s.mgmt.det = true → s.recordedAt (s.mgmt.replayAt.getD 0) = some r →
    s.unitRotation r.unit = r.rot →
    let q := s.modMgmt (fun m => { m with replayAt := some (r.index + 1 + r.more) })
    let cont := (List.range (4 * r.more)).map (fun j => s.recordWord (4 * r.index + (4 + j)))
    ∀ v, q.deliver r.unit r.kind (s.recordWord (4 * r.index + 2)) (s.recordWord (4 * r.index + 3)) cont = some v →
      Claim.Happens .replayEventDelivery s v) ∧
  (∀ (s : State) (r : Recorded), s.mode = .test → s.mgmt.det = true → s.recordedAt (s.mgmt.replayAt.getD 0) = some r →
    r.kind = 7 → r.rot < s.unitRotation r.unit →
    Claim.Happens .replayEventDelivery s (s.modMgmt (fun m => { m with replayAt := some (r.index + 1 + r.more) }))) ∧
  (∀ (s : State) (c : Nat), (c < 4096 → s.unitRotation (unitCore c) = (s.core c).rotation) ∧
    (c < 8 → s.unitRotation (unitDie c) = s.dieRotation c)) ∧
  (∀ (s : State) (unit kind : Nat) (w2 w3 : Word) (cont : List Word),
    (kind = 5 ∨ kind = 6 → s.deliver unit kind w2 w3 cont =
      some (s.modMgmt (fun m => { m with supplied := m.supplied ++ [(kind, unit, w2, w3)] }))) ∧
    (∀ tid t w, kind = 7 → s.live.find? (fun e => decide (e.2.state = .blocked ∧ e.2.tidWord = w2)) = some (tid, t) →
      t.wait = some w → s.deliver unit kind w2 w3 cont = some (s.enterTrap tid false ⟨cWAITLIMIT, w.tval⟩ t.pc)) ∧
    (kind = 7 → (∀ e ∈ s.live, e.2.state ≠ .blocked ∨ e.2.tidWord ≠ w2) → s.deliver unit kind w2 w3 cont = none) ∧
    (let c := unit % 4096
     kind = 9 → (s.core c).slots.length = 8 → ∃ v, s.deliver unit kind w2 w3 cont = some v ∧
       (v.core c).owners = (List.range 8).map (fun j => bits w2 (4 * j + 3) (4 * j)) ∧
       (s.shareDue c = true → (v.core c).lastShare = (s.core c).rotation)) ∧
    (kind = 8 → s.deliver unit kind w2 w3 cont = some (s.moveCore (bits w2 13 0) w3.toNat (bits w2 18 16) (bits w2 22 20))) ∧
    (kind = 10 → s.betweenRotations = false → s.deliver unit kind w2 w3 cont = none) ∧
    (let set := fun (s : State) => s.modMgmt (fun m =>
       { m with power := bits w3 1 0, level := bits w3 3 2, powerLater := none, slotWaits := [] })
     kind = 10 → s.betweenRotations = true →
       (bits w3 1 0 ≠ 2 ∨ s.mgmt.power = 2 → s.deliver unit kind w2 w3 cont = some (set s)) ∧
       (bits w3 1 0 = 2 → s.mgmt.power ≠ 2 → s.emptied = true → s.drained = true → s.saveBands.bandsSaved = true →
         s.deliver unit kind w2 w3 cont = some (set s.saveBands.powerDown)))) ∧
  (∀ (s : State) (c kind : Nat) (who x y : Word) (rest : List (Nat × Nat × Word × Word)), s.replaying = true →
    s.mgmt.supplied = (kind, unitCore c, who, y) :: rest →
    s.timeValue c kind who x = (y, s.modMgmt (fun m => { m with supplied := rest }))) ∧
  (∀ (s : State) (c : Nat), s.awaitsRecord c = true → s.lets (.turn c) = false)

/-- R378, R380, R375, R386: a checkpoint empties the device, saves its bands, spills its queues of MTs, writes the machine
record and sends HBM segment by segment to the targets in turn; with all of them arrived the image stands in the safe tier.
RESTORE streams it back and loads the record, or refuses or fails. A replay delivers the next recorded event at the rotation of
its core, which takes no turn before; a recorded value goes to its reader, and a recorded share, move or power state is made.
The model's choices of log entries 51, 52, 54 are part of it. -/
def Obligations.CheckpointAndReplay : Prop :=
  Claim.Checkpoints ∧ Claim.Restores ∧ Claim.Replays

/-- R372, R373, R370: a token that is signed as firmware is and names the device opens DEBUG-USER from SECURE alone; a session
ends at its expiry's tick, or when it is revoked; a thread that a claimed breakpoint has stopped goes on at its `tepc`; in
SECURE a debugger reaches nothing. -/
def Sys2Proof.Claim.DebugSessions : Prop :=
  (∀ (s : State) (tok : Token), s.mgmt.power < 2 →
    let q := s.recordCommand .token (tokenWords tok)
    (q.verifiesToken tok = true → q.security = 0 → Claim.Happens (.debugToken tok) s
      (q.modMgmt (fun m => { m with secst := 1, token := some (tok.launches, tok.expiry) }))) ∧
    (q.verifiesToken tok = false ∨ q.security ≠ 0 → Claim.Happens (.debugToken tok) s q)) ∧
  (∀ (s : State) (ls : List Nat) (e : Nat), s.mgmt.token = some (ls, e) → s.mgmt.secst = 1 →
    (s.mgmt.power < 2 → e ≤ s.time.toNat → s.security = 0 ∧ Claim.Happens .debugTokenExpiry s s.endSession) ∧
    (s.time.toNat < e → s.security = 1) ∧
    Claim.Happens .debugTokenRevocation s (s.recordCommand .revocation []).endSession) ∧
  (∀ (s : State) (tok : Token), s.verifiesToken tok = true ↔ ecdsaVerifies tok.key (tokenText tok) tok.signature = true ∧
    sha384 tok.key = s.mgmt.keyHash ∧ tok.identity = sha384 s.mgmt.identityKey) ∧
  (∀ (s : State), s.endSession = s.modMgmt (fun m => { m with secst := 0, token := none })) ∧
  (∀ (s : State) (tid : Nat) (t : Thread), s.thread tid = some t → t.debugStop = true → t.state = .trapped → s.mgmt.power = 0 →
    t.inFrame = false →
    ∃ v u, Claim.Happens (.debugResume tid) s v ∧ v.thread tid = some u ∧ u.state = .ready ∧ u.pc = t.csr.tepc ∧
      u.debugStop = false ∧ u.x = t.x ∧ u.v = t.v ∧ u.csr = t.csr) ∧
  (∀ (s : State) (w : DebugAt) (bs : List Byte), s.security = 0 →
    s.debugRead w = .refused .notEnabled ∧ s.debugWrite w bs = .refused .notEnabled)

/-- R339, R370, R371, R373: the bridge answers SPDM while the root of trust has power, offers one signing algorithm, and supports
no session. A challenge and a request for measurements get a report of the device's state with the nonce, while the signing key
may be used, and are refused otherwise. Another device sends its report as a message of a mailbox, and the bridge answers with
what that message holds: the mailboxes and the message's form are the model's choices of log entry 49. -/
def Sys2Proof.Claim.SpdmAnswers : Prop :=
  ∀ (s : State),
    let gives := fun (i : Instr) (a : Answer) =>
      Claim.Happens i s { s with host := { s.host with answers := s.host.answers ++ [a] } }
    (s.bridge = true → s.mgmt.power ≠ 3 →
      (∀ i ∈ [Instr.getVersion, Instr.getCapabilities, Instr.getDigests, Instr.getCertificate], ∃ bytes, gives i (.message bytes)) ∧
      (∃ bytes, gives .negotiateAlgorithms (.algorithms [.ecdsaBrainpoolP384r1Sha384] bytes)) ∧
      gives .sessionEstablishment .unsupported) ∧
    let me := s.mgmt.devno
    (∀ nonce, s.bridge = true → s.mgmt.power ≠ 3 → s.signs = false →
      gives (.challenge ⟨me, nonce⟩) .refused ∧ gives (.getMeasurements ⟨me, nonce⟩) .refused) ∧
    (∀ nonce, s.bridge = true → s.signs = true → ∃ sig,
      let r : Answer := .report me s.security s.mode s.mgmt.measurements nonce (decide (s.security = 1 ∨ s.security = 2)) sig
      gives (.challenge ⟨me, nonce⟩) r ∧ gives (.getMeasurements ⟨me, nonce⟩) r) ∧
    (∀ nonce b, s.bridge = false → s.mgmt.power ≠ 3 → s.relayBox me 1 = some b → b.free ≠ 0 →
      let bytes := if s.signs then s.reportText nonce ++ s.reportSign nonce else []
      bytes.length ≤ b.z → Claim.Happens (.challenge ⟨me, nonce⟩) s (s.sendMail 0 0 b (fit b.z 0 bytes)) ∧
        Claim.Happens (.getMeasurements ⟨me, nonce⟩) s (s.sendMail 0 0 b (fit b.z 0 bytes))) ∧
    (∀ dev nonce b q ls, s.bridge = true → s.mgmt.power ≠ 3 → dev ≠ me → s.relayBox dev 2 = some b →
      let w : Who := ⟨false, noLaunch, 0⟩
      let k := (b.f 0).toNat % b.slots
      s.seqWord w b k = .ok q → s.locateBytes w .load (b.f 2 + word (k * b.z)) b.z = .ok ls → inPlace q (b.f 0).toNat = true →
      (∀ x ∈ s.seqKey w b k, s.lineHeld x = false) → (∀ l ∈ ls, s.lineHeld l.key = false) →
      let m := s.messageBytes ls
      let a := if q.getLsbD 63 = true ∨ m.2 ≠ none ∨ ∀ x ∈ m.1, x = 0 then Answer.refused else .relayed dev m.1
      ∀ v, (s.takeMail 0 b []).spdm a = some v →
        Claim.Happens (.challenge ⟨dev, nonce⟩) s v ∧ Claim.Happens (.getMeasurements ⟨dev, nonce⟩) s v) ∧
    (s.signs = true ↔ s.mode ≠ .recovery ∧ s.mgmt.secst ≠ 3 ∧ s.mgmt.power ≠ 3)

/-! ### Encodings, the step, reset and memory -/

namespace Sys2Proof.Claim

/-- Some words, bit by bit from R103 and the chapters' tables, beside what they stand for. -/
noncomputable def samples : List (Nat × Instr) :=
  [-- ADD (R118)
   (0b0_000000_0000011_0000010_0000001_0000, .add 0 3 2 1),
   -- ADDI by -1 (R120)
   (0b0_000100_0000101_0000100_11111111111, .addi 0 5 4 2047),
   -- BR on a zero register, back by 3 (R121)
   (0b0_010001_0010_100001_111111111111101, .brZ 0 33 32765),
   -- JMP back by 2 (R145)
   (0b0_010010_1111111111111111111111110, .jmp 0 0x1FFFFFE),
   -- VADD of B16 under a mask (R124)
   (0b0_100000_00011_00010_00001_1_001_000000, .vadd 0 3 2 1 1 1),
   -- LD64 with acquire, back by 1 (R105)
   (0b0_101010_0000111_0000110_001_11111111, .ld64 0 7 6 1 255),
   -- VGTH through index v9 (R106)
   (0b0_101111_00100_0000110_0001001_010_0_00, .vgth 0 4 6 9 0 0),
   -- FENCE at DEVICE (R126)
   (0b0_110100_0000000_0000000_00000_000100, .fence 0 4),
   -- XSET of field 9 of engine 1 (R126)
   (0b0_111000_0001001_0000000_00000_010011, .xset 0 9 9 1),
   -- CSRRD of CSR 2 of position 1 (R95, R126)
   (0b0_111100_0001001_0010001_00011_000010, .csrrd 0 9 0x11 2)]

/-- The memory's form, here and in an image that a checkpoint has sent or is sending (R360, R378). -/
def FormKept (s : State) : Prop := s.MemWf ∧ (∀ im, s.image = some im → Memory.wf im.mem = true) ∧
  ∀ st, s.mgmt.stream = some st → Memory.wf st.sent.mem = true

end Sys2Proof.Claim

/-- R103 to R126: the bytes that the encoder gives a well-formed instruction decode to it, with every field at every value
that the encoding admits, whatever bytes follow. -/
def Obligations.DecodeAfterEncode : Prop :=
  ∀ (i : Instr) (w : IWord) (rest : List Byte), i.WellFormed → encode i = some w →
    decodeBytes (bytesOfWord w.toNat ++ rest) = some (.ok i, rest)

/-- R103, R128: a word that the decoder reads as an instruction is that instruction's own word: no bit of it is ignored. -/
def Obligations.NoBitIgnored : Prop :=
  ∀ (n : Nat) (i : Instr), n < 2 ^ 32 → parse n = some i → i.hasWord = true ∧ wordOf i = n

/-- R103: some words decode to the instructions that the spec's tables give them. -/
def Obligations.SampleWords : Prop :=
  ∀ e ∈ Claim.samples, decodeBytes (bytesOfWord e.1) = some (.ok e.2, [])

/-- R26, R27, R107, R128, R132, R351: at the turn of a core the chosen thread issues the instruction that its word
decodes to, or takes the trap of its fetch, or of a word that is no instruction; with no eligible resident the turn
passes. The model's choices of log entries 1, 8, 9 are part of it. -/
def Obligations.StepRunsDecodedInstruction : Prop :=
  ∀ (s : State) (c : Nat) (rest : List Choice), s.agenda = .turn c :: rest →
    let q := { s with agenda := rest }
    q.turnDue c = true → q.lets (.turn c) = true →
    let chosen := (q.beginTurn c).choose c (q.core c).nextSlot
    (chosen = none → step s = .next ((((q.beginTurn c).count c 3 1).endTurn c).after s)) ∧
    (∀ tid p t, chosen = some (tid, p) → q.eventFirst tid = none → p.thread tid = some t → t.stalled = none →
      (∀ r, p.nextWord t = .error r →
        step s = .next ((({ p.enterTrap tid false r t.pc with freeN := p.freeN + 1 } : State).endTurn c).after s)) ∧
      (∀ w, p.nextWord t = .ok w →
        let u := { (if t.inFrame then p else p.noteTlb t.core t.pc) with cur := tid, iword := word w }
        let ends := fun (o : Out) => match o with
          | .next v => Host.Outcome.next ((v.endTurn c).after s)
          | .fault e => .fault e
          | .refused e => .refused e
        (∀ i, parse w = some i → i.WellFormed → step s = ends (exec i u)) ∧
        (parse w = none ∨ (∃ i, parse w = some i ∧ ¬ i.WellFormed) →
          step s = ends (exec (.illegalEncoding (BitVec.ofNat 32 w)) u))))

/-- R379: the machine at entry to SERVICE: rotation counts, g registers, accumulator banks, watch tables and the HLC
stamp are zero, every band is unallocated; it runs nothing, in D0, and its memory has the canonical form. The model's
choices of log entries 2, 3 are part of it. -/
def Obligations.EntryToService : Prop :=
  let s := State.reset
  s.mode = .service ∧ s.mgmt.power = 0 ∧ s.threads = [] ∧ s.launches = [] ∧ s.accs = [] ∧ s.hlc = 0 ∧ Claim.FormKept s ∧
  ∀ c, (s.core c).rotation = 0 ∧ (s.core c).g = List.replicate 32 0 ∧
    (∀ b i, nth ((s.core c).bank b).rows i 0 = 0 ∧ ((s.core c).bank b).poison = [] ∧ ((s.core c).bank b).owner = none) ∧
    (∀ b, (nth (s.core c).bands b {}).v = false) ∧ (∀ n, nth (s.watchTable c) n {} = {}) ∧
    (s.core c).eng0 = [] ∧ (s.core c).eng1 = []

/-- R6, R182: bytes and words read back as they were written, every other byte as before, and the memory keeps its
canonical form; two memories in that form that read alike are equal. The model's choices of log entry 3 are part of it. -/
def Obligations.MemoryReadsAndWrites : Prop :=
  (∀ (s : State) (k : Nat) (bs : List Byte), s.MemWf → (s.wrBytes k bs).MemWf ∧
    (k + bs.length ≤ controlPage →
      (s.wrBytes k bs).rdBytes k bs.length = bs ∧
      ∀ j, j < k ∨ k + bs.length ≤ j → (s.wrBytes k bs).rdByte j = s.rdByte j)) ∧
  (∀ (s : State) (k : Nat) (x : Word), s.MemWf → k + 8 ≤ controlPage → (s.wrWord k x).rdWord k = x) ∧
  (∀ (a b : List Host.Cell), Memory.wf a = true → Memory.wf b = true → (∀ k, Memory.read a k = Memory.read b k) → a = b)

/-- R6, R360: the canonical form of the memory, and of the memory in a checkpoint's image, is kept by every step. The
model's choices of log entry 3 are part of it. -/
def Obligations.EveryStepKeepsMemoryForm : Prop :=
  ∀ (s t : State), Claim.FormKept s → step s = .next t → Claim.FormKept t

/-- R128, R107: no step of the machine stops: each goes on to a next state, but for an event named on the agenda that the
spec does not let happen now. The model's choices of log entry 1 are part of it. -/
def Obligations.EveryStepGoesOn : Prop :=
  ∀ (s : State), (∃ t, step s = .next t) ∨ (step s = .refused .notEnabled ∧ ∃ c rest, s.agenda = c :: rest)

/-! ### Statements of several parts -/

/-- R134, R135, R137, R138, R139, R141, R142: the unary members, the immediate forms, the shifts by an amount and EXTI.
LQZ and PCADD give untainted constants, LQK replaces sixteen bits of its destination and keeps its taint, and PSEL takes
one of two sources by a bit of pw. -/
def Obligations.UnaryImmediateAndConstants : Prop :=
  Claim.UnaryAndImmediateResults ∧ Claim.ConstantsAndSelect

/-- R154, R155, R157, R158, R160, R70, R159: every scalar floating-point instruction whose fields name registers rounds
as fcsr stands, writes its result, ORs its flags into fcsr, changes nothing else, and completes. A floating-point compare
writes the one bit of pw that it names and ORs its flags into fcsr. -/
def Obligations.FloatingPoint : Prop :=
  Claim.FloatResults ∧ Claim.FloatCompares

/-- R80, R165, R169, R170: VDOT adds two B16 products or four S8 products into each 32-bit lane; VCVT converts part p of
the wider side. The lane moves. VINS and VMOVS take a scalar register, VEXT writes one, untainted. -/
def Obligations.VectorDotConvertAndMoves : Prop :=
  Claim.VectorDotAndConvert ∧ Claim.VectorMoves

/-- R167, R81, R171: a vector compare replaces, or ANDs into, the bits of pw of the enabled lanes, and no other bit. A
reduction combines the lanes in the fixed tree, a disabled lane as the identity; its result fills the low bits of VD and
every other bit of VD becomes zero. -/
def Obligations.VectorComparesAndReductions : Prop :=
  Claim.VectorCompares ∧ Claim.VectorReductions

/-- R148, R147: in a repeat frame, an instruction is followed by the next of sixteen words; the last one by the first of the
next pass, or, after the last pass, by the word after the frame, with the frame closed. Outside a frame, by the next word. The
frame is the sixteen words after the REPF, all of majors that a frame may hold. The word issued next is the captured one with
each enabled field raised by PASS times its step; a register number that leaves its range traps with ILLEGAL_REGISTER. That a
compare's bit of pw out of range is an illegal encoding is the model's choice (log 23). -/
def Obligations.RepeatFrames : Prop :=
  Claim.FrameOrder ∧ Claim.FrameCapture ∧ Claim.Staggering

/-- R188, R190, R31, R93, R206, R208, R210, R211: a scalar load. It opens a result for its destination, tainted when its ORD
says so or its base is tainted, and issues one read, after the accesses that R208 names and every earlier acquire. A failing
check of R188 traps; with 32 results open it is held. A scalar store issues one write of its low bytes; with a release, after
every access that R210 orders before it. The register file and memory stay as they are until the write is performed. The model's
choices of log entry 60 are part of it. -/
def Obligations.ScalarLoadsAndStores : Prop :=
  Claim.ScalarLoads ∧ Claim.ScalarStores

/-- R191 to R194, R198, R215: the vector loads and stores. Every enabled lane from the start lane issues one access, a load
into one result that keeps VD in the other lanes; lanes of a store that together write a whole scratchpad word are one store of
sixteen bytes; a lane that fails a check traps with `tprog` naming it. A vector atomic issues one read-modify-write for each
enabled lane of eight, at the addresses in VA with the operands in VB, and the old values come back into VD. The model's choices
of log entries 41, 60 are part of it. -/
def Obligations.VectorMemoryAndAtomics : Prop :=
  Claim.VectorMemory ∧ Claim.MergedStores ∧ Claim.VectorAtomics

/-- R195, R196, R197, R210, R211, R253: the atomics. One with return opens a result and issues a read-modify-write that
reads its comparand through D; a reduction issues one without result, as a release at its scope. CSIG issues a
fetch-and-add without result, as a release at its scope. The model's choices of log entry 60 are part of it. -/
def Obligations.ScalarAtomicsAndSignals : Prop :=
  Claim.ScalarAtomics ∧ Claim.CounterSignal

/-- R185, R200 to R205: LDFE takes a full word and empties it, LDFEC takes it and leaves it full, either registers a waiter at
an empty one, or traps first where its output queue refuses; STFE issues a releasing store that fills; WAITGE passes once the
word is at least its operand, or registers a waiter; while a directory-overflow handler serves the line, each registers its
waiter. FENCE waits for the writes in its scope and makes the earlier reads ones that every later access follows; MIGRATE moves
an MT to the home of an address, once its results have returned and its writes are complete; PREFETCH changes no value. The
model's choices of log entry 60 are part of it. -/
def Obligations.WaitsAndFences : Prop :=
  Claim.FullEmptyAndWaits ∧ Claim.FenceMigratePrefetch

/-- R7, R40, R182, R186, R187, R206, R32, R190, R203, R50, R274, R273: a store is performed at its home. Its bytes are written
and no other byte changes; the access is no longer outstanding. In a control word of the launch-queue table a 1 clears NP and the
reserved bits stay 0. The waiters of the word are evaluated: one whose condition does not hold stays, one whose condition holds
completes, and of several that take the word the first. Then its watch entries fire as often as their condition and repeats
allow. A load of memory returns. Its bytes go to the result it was issued for, extended as the instruction says, and to nothing
else; a thread whose results have all returned while it is PARKED goes on. An uncorrectable error of memory marks the atom or
scratchpad word poisoned; a correctable one marks nothing. The model's choices of log entries 60, 69 are part of it. -/
def Obligations.AccessesAtTheirHome : Prop :=
  Claim.StoresAtTheirHome ∧ Claim.LoadsReturn ∧ Claim.MemoryErrors ∧ Claim.WokenAtAWrite ∧ Claim.WatchFirings

/-- R195 to R198, R206: the values of the read-modify-writes, on operands of w bytes, 4 or 8; the floating-point members compute
on F32 or F64, FADD rounded to nearest even. An atomic is performed at its home in one step: the old value comes back, the new
one stands in memory, and no other byte changes. The model's choices of log entry 60 are part of it. -/
def Obligations.ReadModifyWrites : Prop :=
  Claim.ReadModifyWriteValues ∧ Claim.AtomicsAtTheirHome

/-- R232, R39, R233, R50: FORK creates an MT of the issuing thread's launch: copies of its first N registers with their taint,
zeros beyond, the next number of the launch, and a place at the bottom of its core's deque; with a join word, that has one more,
and the child waits until what the FORK releases has been performed. A misaligned entry or a PIPELINE launch traps. JOINW passes
a word that is 0; at any other word an anchored thread or a handler waits in its position, and an MT gives its position up, its
context in a context slot, once its results have returned. -/
def Obligations.ForkAndJoin : Prop :=
  Claim.ForkCreatesMicrothread ∧ Claim.JoinWaits

/-- R234, R38: LAUNCH checks its block as loads and word 16 as a store, and submits what it has read; a block of kind PIPELINE
with its stage table. A submitted block's word 16 takes STATE 0 and the number of the launch, or STATE 3 and the reason for
which it was rejected; a rejected block leaves nothing else behind. The reason is the lowest whose cause holds. The model's
choices of log entry 65 are part of it. -/
def Obligations.LaunchesSubmitted : Prop :=
  Claim.LaunchSubmits ∧ Claim.SubmissionResult

/-- R235, R236, R237, R238, R239, R242: TINFO gives the stage, the held item's sequence number, the launch's cores, the core's
position among them, COUNT, or the address of the launch block; all ones where there is none. QBIND unbinds its head and binds
it as its operand says, or traps with CHANNEL; a binding to a channel or an inbox for receiving makes the launch its owner.
QPOLL counts what a head holds, also what stands in reserve for a thread that waits, and sets `ts.QE`. The model's choices of
log entry 19 are part of it. -/
def Obligations.ThreadAndHeadInformation : Prop :=
  Claim.ThreadInformation ∧ Claim.BindAndPoll

/-- R241, R243: VQRD takes the oldest entry of a wide channel into VD, VQWR adds the whole register; an empty or a full one is
waited for, and a head that is not so bound traps with CHANNEL. SEND opens a packet, reserving eight words of the inbox, or adds
a word to the open one; SENDE also closes it: its words join the inbox together, the last one marked, and the reservation ends.
A ninth word traps with PACKET. One whose release may not be performed yet stalls with its room held, and is enqueued at the
thread's next turn. -/
def Obligations.WideChannelsAndPackets : Prop :=
  Claim.WideChannels ∧ Claim.Packets

/-- R245, R246, R51, R53: ITEMGET gives up the item held and takes the next of its stage: its handle and its sequence number. At
the end of the input it gives 0 and sets `ts.EOS`; with nothing there yet it waits. In no PIPELINE launch it traps with STAGE.
ITEMPUT offers an item to an output queue of its stage, which accepts it, makes the thread wait, or traps with STAGE. An
unordered queue drops handle 0, and holds items up to its capacity in order of acceptance, places in reserve counted (R90); an
ordered one takes a number less than its capacity beyond the oldest that it holds in reserve or, with none, the next undelivered
one, once. The model's choices of log entries 8, 24 are part of it. -/
def Obligations.StageItems : Prop :=
  Claim.ItemsTaken ∧ Claim.ItemsOffered

/-- R248 to R252: the barrier instructions on an object that the thread may use; any other traps with UNAVAILABLE. BARJ makes
the thread a participant, BARL ends that; BARA joins, waits for what it releases, arrives, once in a phase; BARW waits while the
phase of the last arrival stands; BARM tells phase, participants, and whether the thread takes part and has arrived. The phase
of an object advances by one, modulo 2^32, when there is an arrival and every participant has arrived; its arrivals are then
forgotten. -/
def Obligations.Barriers : Prop :=
  Claim.BarrierInstructions ∧ Claim.BarrierPhase

/-- R272 to R276, R293 to R297: TRIG checks its block and issues its arming as a release at DEVICE; TRIGC retires an
ARMED entry that its handle names, and any other handle does nothing; TRIGQ tells the entry's state and counts, 0 for any
other handle. MXRD issues a read of sixteen elements of an accumulator row into a vector register, and follows the
commands launched before it on that bank; HDONE ends a handler of a drain or of a directory line and traps in any other
thread; PPT records its mask, and a bank it does not name is given up. The model's choices of log entry 60 are part of
it. -/
def Obligations.WatchAndMatrixInstructions : Prop :=
  Claim.WatchInstructions ∧ Claim.MatrixInstructions

/-- R306 to R310, R312, R318, R321, R323: an update of a replicated object issues one update at the home of its element,
with a result. An address that no element has, or whose element the instruction is not for, traps. RSHAS tests membership
into a bit of pw; RFRONT issues an acquiring read of a frontier word, RWAITF waits for one; RSHIP lifts the shipping
bound; RSTAT tells the replica's state. The model's choices of log entry 38 are part of it. -/
def Obligations.ReplicaInstructions : Prop :=
  Claim.ReplicaUpdates ∧ Claim.ReplicaReads

/-- R333, R334, R335, R228, R384, R342, R343, R344: MBSEND, MBRECV and MBPOLL on a descriptor that R332 lets through. With a
free slot the message is sent, with none the thread waits; a message in place gives the address of its slot, 0 where it failed;
MBPOLL counts. A message on its own device is a store of each part, then of its sequence word; one for another device goes as
flits; a message taken releases the slot held before. TRPUT adds an operand of the core's group at the end of the inject queue, of
eight entries; TRGET takes the group's oldest result out of the extract queue. A launch of no group traps, a full queue and a
missing result are waited for; a result marked for disagreement traps with FORMAT. The model's choices of log entries 35, 36 are
part of it. -/
def Obligations.MailboxAndCanopyInstructions : Prop :=
  Claim.MailboxInstructions ∧ Claim.MailboxSlots ∧ Claim.CanopyInstructions

/-- R23, R33, R89, R91, R104, R105, R107, R346, R349, R350, R360, R381: taking a trap. The thread is TRAPPED, with the code in
`tcause`, the address to resume at in `tepc` and the value of the code in `tval`; its registers, its pc and its place stay, its
open packet and its wait are given up, and its slot's handler start is requested. An asynchronous trap sets bit 31 of `tcause`.
A trap in a system handler logs both codes and ends the handler and its target; one in a directory-overflow handler ends it as a
fatal error; a malformed translation entry that the trap's own walk met is logged first. What an instruction meets before
anything happens, in this order: a form that only a microthread has, a system instruction in user mode, what its thread's role
forbids, a register beyond the window, an unbound head, a register whose result is outstanding. -/
def Obligations.TakingATrap : Prop :=
  Claim.EnteringATrap ∧ Claim.HandlerTraps ∧ Claim.FirstTrap

/-- R363, R348, R352, R372, R128, R349: TRAP takes SYSCALL with its operand, to resume at the next word; BKPT takes BREAKPOINT,
or, claimed by a debug session, stops its thread; a word that is no instruction takes ILLEGAL. ERET ends a system handler and
its target resumes at `tepc`; UIRET goes to `uepc` and clears `ts.UIM`. Elsewhere these two trap. The handler of a trapped
thread that is not in a repeat frame returns: the handler's thread has ended, and the target is READY at its `tepc`; nothing
else of the target's registers differs. The model's choices of log entry 55 are part of it. -/
def Obligations.TrapsAndReturns : Prop :=
  Claim.TrapInstructions ∧ Claim.ReturnFromTrap

/-- R95 to R99, R101, R102, R364: the CSR instructions. CSRRD gives the CSR, untainted; CSRWR, CSRSET and CSRCLR change the bits
of it that may be written, and no other; a CSR from 0x400 on traps with PRIVILEGE in user mode. A thread's own CSRs 0 to 12.
What a write leaves: the new value in the bits that the thread's mode may write, the old value in the others; no other CSR, and
no register, differs. `wnd` and `time` stay. The same of the CSRs of a resident of the slot, of the target's registers and taint
that `hsel` selects, and of the core's `tbase`, `slotcfg`, `band`, `pmc` and `pmsel`: what a read gives and what a write
changes. What an `hsel` that selects no thread reads is log entry 72. -/
def Obligations.ControlRegisters : Prop :=
  Claim.CsrInstructions ∧ Claim.OwnCsrWrites ∧ Claim.NeighbourCsrs ∧ Claim.TargetCsrs ∧ Claim.CoreCsrs

/-- R350, R352, R351, R353, R354, R291, R292, R355: the oldest asynchronous trap of a thread is taken at a boundary, to resume
at its next instruction; a user-level interrupt goes to its vector with `uepc`, `uxid`, `uiblk` and `ts.UIM` written, once every
result has returned and nothing comes before it; a wait whose limit has passed traps. A pending pre-emption is taken at a boundary
that permits it. A thread that owns no bank leaves its position: an anchored one SUSPENDED in the lowest free context slot, an MT
for its core's run queue. A cooperative owner whose grace has run is pre-empted: its banks lose their owner, its commands are
discarded, and it is to take ACC_LOST. The model's choices of log entries 9, 56 are part of it. -/
def Obligations.EventsBetweenInstructions : Prop :=
  Claim.EventsAtBoundaries ∧ Claim.Preemptions

/-- R328, R329, R326, R386, R15, R330, R378: a flit for another device goes on with HOPS one higher, or is discarded at 32 or
where its device is unreachable; a link sends, of the flits that it has credit for, the oldest of the highest class, under the
next LSEQ and with a good check sequence; with no credit the flit waits, and where no link leads to its device any more it is
discarded; a failed check sequence asks for the flit again; a reserved kind is discarded and counted. The time base never runs
back at a synchronisation; an acknowledgement frees the flits up to its LSEQ and gives credits back; a discard report ends the
copy that the flit belonged to; a bulk write fault makes its target unreachable; a link whose retries are exhausted is down and
what it has not delivered waits again; a boundary runs on with the modules left. The model's choices of log entries 43, 44, 45
are part of it. -/
def Obligations.FlitsAndLinks : Prop :=
  Claim.FlitsOnTheirWay ∧ Claim.LinkControl

/-- R317, R385, R300, R313 to R315, R319, R320, R318, R14, R327: a cut goes to a peer as a header, the due units and a marker,
between two dies with the dies in the places of the devices. A receiver opens it by its header, or counts one whose digest or
sender differs; it joins unit after unit, and closes the cut with an acknowledgement, which raises what the sender counts as
shipped. Each type joins as its rule says; a page of an AWSET keeps exactly the dots of R314. A replica's membership is evaluated
at any time; a member whose heartbeat has not risen for SILENT ticks is ABSENT, VIEW one higher; a member that HOLD names is
ABSENT; the bound of an RSHIP ends its lift. The model's choices of log entries 37, 39 are part of it. -/
def Obligations.CutsAndMembers : Prop :=
  Claim.CutsAreMade ∧ Claim.CutsAreTaken ∧ Claim.UnitsAreJoined ∧ Claim.MembersOfReplicas

/-- R337, R338, R340, R341, R358, R366, R367, R376: the registers that the host and the management controller write. A summary
is started, reads its eight sections and is written with BUSY cleared. In SERVICE a message in place in the launch mailbox is
taken and its block submitted from firmware's launch area, or forwarded by the bridge; so is a block that the management
controller submits. None of it happens while a handler holds a line it reads or writes (R185). The migration engine serves the
next request: the page's bytes, its owner bit, the request's counter, and the ring's tail. The model's choices of log entries
22, 46, 47, 50 are part of it. -/
def Obligations.HostSide : Prop :=
  Claim.HostAndManagementWrites ∧ Claim.Summaries ∧ Claim.LaunchesFromHost ∧ Claim.Migrations

/-- R368, R369, R92, R367, R379, R370: D1 is entered between two rotations, D2 once the device is empty and drained and its bands
are saved, its g registers zero and its TLBs empty; in D3 only the management controller keeps its contents; a wake goes back to
D0 at the level last asked for; a level is changed between two rotations, and level 3 is none. SERVICE is entered from START-UP
with rotation counts, g registers, accumulator banks and bands zero, TEST from START-UP or SERVICE; bring-up verifies the images,
trains, sets the numbers and registers and ends in START-UP, or in RECOVERY. The model's choices of log entry 53 are part of it. -/
def Obligations.PowerAndModes : Prop :=
  Claim.PowerAndClock ∧ Claim.DeviceModes

/-- R372, R373, R339, R370, R371: a verified token opens DEBUG-USER from SECURE alone; a session ends at its expiry's tick, or
when it is revoked; a thread that a claimed breakpoint has stopped goes on at its `tepc`; in SECURE a debugger reaches nothing. The
bridge answers SPDM while the root of trust has power, offers one signing algorithm, and supports no session. A challenge and a
request for measurements get a report of the device's state with the nonce, from another device through its bridge, while the
signing key may be used, and are refused otherwise. The model's choices of log entries 49, 55 are part of it. -/
def Obligations.DebugAndAttestation : Prop :=
  Claim.DebugSessions ∧ Claim.SpdmAnswers
end

