-- ==== Sys2Proof/Laws/PerInstr.lean ====
section
/-! SUPPORT. For every instruction, one lemma: the word that the encoder gives it has 32 bits, and its fixed bits and fields
lead the decoder back to it (R103, R117 to R126). Before them: what a range of bits of a word sees of a field, the forms
(where the fields of each format stand), and the major opcodes. -/
namespace Sys2Proof.Laws.RoundTrip

/-- The word of i has 32 bits, and the decoder finds i in it, where i has a word. -/
def Statement (i : Instr) : Prop := wordOf i < 2 ^ 32 ∧ (i.hasWord = true → parse (wordOf i) = some i)

theorem unworded {i : Instr} (h : i.hasWord = false) (hw : wordOf i = 0) : Statement i :=
  ⟨by rw [hw]; decide, fun e => by rw [h] at e; cases e⟩

theorem worded {i : Instr} {N : Nat} (hw : wordOf i = N) (hb : N < 2 ^ 32) (hp : parse N = some i) : Statement i :=
  ⟨by rw [hw]; exact hb, fun _ => by rw [hw]; exact hp⟩

theorem fld_of {n : Nat} {x : BitVec n} {w lo : Nat} (h : w / 2 ^ lo % 2 ^ n = x.toNat) : fld w lo n = x :=
  BitVec.eq_of_toNat_eq (by rw [← h]; simp [fld])


/-- A range of bits below a field does not see it. -/
theorem put_below {n : Nat} {v : BitVec n} {lo acc a m : Nat} (k : Nat) (h : a + k ≤ lo) (hm : 2 ^ k = m) :
    put v lo acc / 2 ^ a % m = acc / 2 ^ a % m := by
  subst hm
  obtain ⟨e, rfl⟩ := Nat.exists_eq_add_of_le h
  have h1 : put v (a + k + e) acc = acc + 2 ^ a * (2 ^ k * (v.toNat * 2 ^ e)) := by
    simp [put, Nat.pow_add, Nat.mul_comm, Nat.mul_left_comm, Nat.mul_assoc, Nat.add_comm]
  rw [h1, Nat.add_mul_div_left _ _ (Nat.two_pow_pos a), Nat.add_mul_mod_self_left]

theorem put_parts {n : Nat} (v : BitVec n) {lo acc : Nat} (h : acc / 2 ^ lo % 2 ^ n = 0) :
    put v lo acc / 2 ^ lo = v.toNat + 2 ^ n * (acc / 2 ^ lo / 2 ^ n) := by
  have h1 : acc / 2 ^ lo = 2 ^ n * (acc / 2 ^ lo / 2 ^ n) := by
    have := Nat.div_add_mod (acc / 2 ^ lo) (2 ^ n)
    omega
  unfold put
  rw [Nat.mul_comm, Nat.mul_add_div (Nat.two_pow_pos lo)]
  exact congrArg _ h1

/-- A range of bits above a field whose place was empty does not see it. -/
theorem put_above {n : Nat} {v : BitVec n} {lo acc a m : Nat} (h : acc / 2 ^ lo % 2 ^ n = 0) (ha : lo + n ≤ a) :
    put v lo acc / 2 ^ a % m = acc / 2 ^ a % m := by
  obtain ⟨e, rfl⟩ := Nat.exists_eq_add_of_le ha
  have h1 : ∀ x : Nat, x / 2 ^ (lo + n + e) = x / 2 ^ lo / 2 ^ n / 2 ^ e := by
    intro x
    rw [Nat.pow_add, Nat.pow_add, Nat.div_div_eq_div_mul, Nat.div_div_eq_div_mul, Nat.mul_assoc]
  rw [h1, h1, put_parts v h, Nat.add_mul_div_left _ _ (Nat.two_pow_pos n), Nat.div_eq_of_lt v.isLt, Nat.zero_add]

/-- A field reads itself where its place was empty. -/
theorem put_self {n : Nat} {v : BitVec n} {lo acc : Nat} (h : acc / 2 ^ lo % 2 ^ n = 0) :
    put v lo acc / 2 ^ lo % 2 ^ n = v.toNat := by
  rw [put_parts v h, Nat.add_mul_mod_self_left, Nat.mod_eq_of_lt v.isLt]

theorem put_lt {n : Nat} {v : BitVec n} {lo acc m : Nat} (h : acc / 2 ^ lo % 2 ^ n = 0) (hm : lo + n ≤ m) (ha : acc < 2 ^ m) :
    put v lo acc < 2 ^ m := by
  have h0 : put v lo acc / 2 ^ m = 0 := by
    obtain ⟨e, rfl⟩ := Nat.exists_eq_add_of_le hm
    have h1 : ∀ x : Nat, x / 2 ^ (lo + n + e) = x / 2 ^ lo / 2 ^ n / 2 ^ e := by
      intro x
      rw [Nat.pow_add, Nat.pow_add, Nat.div_div_eq_div_mul, Nat.div_div_eq_div_mul, Nat.mul_assoc]
    have h2 : acc / 2 ^ (lo + n + e) = 0 := Nat.div_eq_of_lt ha
    rw [h1] at h2
    rw [h1, put_parts v h, Nat.add_mul_div_left _ _ (Nat.two_pow_pos n), Nat.div_eq_of_lt v.isLt, Nat.zero_add, h2]
  exact (Nat.div_eq_zero_iff_lt (Nat.two_pow_pos m)).mp h0

theorem form0 (K : Nat) (x0 : BitVec 1) (x1 : BitVec 7) (x2 : BitVec 7) (x3 : BitVec 7) (k0 : K / 2 ^ 31 % 2 ^ 1 = 0) (k1 : K / 2 ^ 18 % 2 ^ 7 = 0) (k2 : K / 2 ^ 11 % 2 ^ 7 = 0) (k3 : K / 2 ^ 4 % 2 ^ 7 = 0) (hK : K < 2 ^ 32) :
    put x0 31 (put x1 18 (put x2 11 (put x3 4 (K)))) < 2 ^ 32 ∧
    (put x0 31 (put x1 18 (put x2 11 (put x3 4 (K))))) / 2 ^ 25 % 64 = K / 2 ^ 25 % 64 ∧
    (put x0 31 (put x1 18 (put x2 11 (put x3 4 (K))))) / 2 ^ 0 % 16 = K / 2 ^ 0 % 16 ∧
    fld (put x0 31 (put x1 18 (put x2 11 (put x3 4 (K))))) 31 1 = x0 ∧
    fld (put x0 31 (put x1 18 (put x2 11 (put x3 4 (K))))) 18 7 = x1 ∧
    fld (put x0 31 (put x1 18 (put x2 11 (put x3 4 (K))))) 11 7 = x2 ∧
    fld (put x0 31 (put x1 18 (put x2 11 (put x3 4 (K))))) 4 7 = x3 := by
  have z3 : (K) / 2 ^ 4 % 2 ^ 7 = 0 := k3
  have z2 : (put x3 4 (K)) / 2 ^ 11 % 2 ^ 7 = 0 := by rw [put_above z3 (by decide), k2]
  have z1 : (put x2 11 (put x3 4 (K))) / 2 ^ 18 % 2 ^ 7 = 0 := by rw [put_above z2 (by decide), put_above z3 (by decide), k1]
  have z0 : (put x1 18 (put x2 11 (put x3 4 (K)))) / 2 ^ 31 % 2 ^ 1 = 0 := by rw [put_above z1 (by decide), put_above z2 (by decide), put_above z3 (by decide), k0]
  exact ⟨put_lt z0 (by decide) (put_lt z1 (by decide) (put_lt z2 (by decide) (put_lt z3 (by decide) hK))),
    by rw [put_below 6 (by decide) (by decide), put_above z1 (by decide), put_above z2 (by decide), put_above z3 (by decide)],
    by rw [put_below 4 (by decide) (by decide), put_below 4 (by decide) (by decide), put_below 4 (by decide) (by decide), put_below 4 (by decide) (by decide)],
    fld_of (by rw [put_self z0]),
    fld_of (by rw [put_below 7 (by decide) (by decide), put_self z1]),
    fld_of (by rw [put_below 7 (by decide) (by decide), put_below 7 (by decide) (by decide), put_self z2]),
    fld_of (by rw [put_below 7 (by decide) (by decide), put_below 7 (by decide) (by decide), put_below 7 (by decide) (by decide), put_self z3])⟩

theorem form1 (K : Nat) (x0 : BitVec 1) (x1 : BitVec 7) (x2 : BitVec 7) (k0 : K / 2 ^ 31 % 2 ^ 1 = 0) (k1 : K / 2 ^ 18 % 2 ^ 7 = 0) (k2 : K / 2 ^ 11 % 2 ^ 7 = 0) (hK : K < 2 ^ 32) :
    put x0 31 (put x1 18 (put x2 11 (K))) < 2 ^ 32 ∧
    (put x0 31 (put x1 18 (put x2 11 (K)))) / 2 ^ 25 % 64 = K / 2 ^ 25 % 64 ∧
    (put x0 31 (put x1 18 (put x2 11 (K)))) / 2 ^ 0 % 16 = K / 2 ^ 0 % 16 ∧
    (put x0 31 (put x1 18 (put x2 11 (K)))) / 2 ^ 4 % 128 = K / 2 ^ 4 % 128 ∧
    fld (put x0 31 (put x1 18 (put x2 11 (K)))) 31 1 = x0 ∧
    fld (put x0 31 (put x1 18 (put x2 11 (K)))) 18 7 = x1 ∧
    fld (put x0 31 (put x1 18 (put x2 11 (K)))) 11 7 = x2 := by
  have z2 : (K) / 2 ^ 11 % 2 ^ 7 = 0 := k2
  have z1 : (put x2 11 (K)) / 2 ^ 18 % 2 ^ 7 = 0 := by rw [put_above z2 (by decide), k1]
  have z0 : (put x1 18 (put x2 11 (K))) / 2 ^ 31 % 2 ^ 1 = 0 := by rw [put_above z1 (by decide), put_above z2 (by decide), k0]
  exact ⟨put_lt z0 (by decide) (put_lt z1 (by decide) (put_lt z2 (by decide) hK)),
    by rw [put_below 6 (by decide) (by decide), put_above z1 (by decide), put_above z2 (by decide)],
    by rw [put_below 4 (by decide) (by decide), put_below 4 (by decide) (by decide), put_below 4 (by decide) (by decide)],
    by rw [put_below 7 (by decide) (by decide), put_below 7 (by decide) (by decide), put_below 7 (by decide) (by decide)],
    fld_of (by rw [put_self z0]),
    fld_of (by rw [put_below 7 (by decide) (by decide), put_self z1]),
    fld_of (by rw [put_below 7 (by decide) (by decide), put_below 7 (by decide) (by decide), put_self z2])⟩

theorem form2 (K : Nat) (x0 : BitVec 1) (x1 : BitVec 1) (x2 : BitVec 6) (x3 : BitVec 7) (x4 : BitVec 7) (k0 : K / 2 ^ 31 % 2 ^ 1 = 0) (k1 : K / 2 ^ 24 % 2 ^ 1 = 0) (k2 : K / 2 ^ 18 % 2 ^ 6 = 0) (k3 : K / 2 ^ 11 % 2 ^ 7 = 0) (k4 : K / 2 ^ 4 % 2 ^ 7 = 0) (hK : K < 2 ^ 32) :
    put x0 31 (put x1 24 (put x2 18 (put x3 11 (put x4 4 (K))))) < 2 ^ 32 ∧
    (put x0 31 (put x1 24 (put x2 18 (put x3 11 (put x4 4 (K)))))) / 2 ^ 25 % 64 = K / 2 ^ 25 % 64 ∧
    (put x0 31 (put x1 24 (put x2 18 (put x3 11 (put x4 4 (K)))))) / 2 ^ 0 % 16 = K / 2 ^ 0 % 16 ∧
    fld (put x0 31 (put x1 24 (put x2 18 (put x3 11 (put x4 4 (K)))))) 31 1 = x0 ∧
    fld (put x0 31 (put x1 24 (put x2 18 (put x3 11 (put x4 4 (K)))))) 24 1 = x1 ∧
    fld (put x0 31 (put x1 24 (put x2 18 (put x3 11 (put x4 4 (K)))))) 18 6 = x2 ∧
    fld (put x0 31 (put x1 24 (put x2 18 (put x3 11 (put x4 4 (K)))))) 11 7 = x3 ∧
    fld (put x0 31 (put x1 24 (put x2 18 (put x3 11 (put x4 4 (K)))))) 4 7 = x4 := by
  have z4 : (K) / 2 ^ 4 % 2 ^ 7 = 0 := k4
  have z3 : (put x4 4 (K)) / 2 ^ 11 % 2 ^ 7 = 0 := by rw [put_above z4 (by decide), k3]
  have z2 : (put x3 11 (put x4 4 (K))) / 2 ^ 18 % 2 ^ 6 = 0 := by rw [put_above z3 (by decide), put_above z4 (by decide), k2]
  have z1 : (put x2 18 (put x3 11 (put x4 4 (K)))) / 2 ^ 24 % 2 ^ 1 = 0 := by rw [put_above z2 (by decide), put_above z3 (by decide), put_above z4 (by decide), k1]
  have z0 : (put x1 24 (put x2 18 (put x3 11 (put x4 4 (K))))) / 2 ^ 31 % 2 ^ 1 = 0 := by rw [put_above z1 (by decide), put_above z2 (by decide), put_above z3 (by decide), put_above z4 (by decide), k0]
  exact ⟨put_lt z0 (by decide) (put_lt z1 (by decide) (put_lt z2 (by decide) (put_lt z3 (by decide) (put_lt z4 (by decide) hK)))),
    by rw [put_below 6 (by decide) (by decide), put_above z1 (by decide), put_above z2 (by decide), put_above z3 (by decide), put_above z4 (by decide)],
    by rw [put_below 4 (by decide) (by decide), put_below 4 (by decide) (by decide), put_below 4 (by decide) (by decide), put_below 4 (by decide) (by decide), put_below 4 (by decide) (by decide)],
    fld_of (by rw [put_self z0]),
    fld_of (by rw [put_below 1 (by decide) (by decide), put_self z1]),
    fld_of (by rw [put_below 6 (by decide) (by decide), put_below 6 (by decide) (by decide), put_self z2]),
    fld_of (by rw [put_below 7 (by decide) (by decide), put_below 7 (by decide) (by decide), put_below 7 (by decide) (by decide), put_self z3]),
    fld_of (by rw [put_below 7 (by decide) (by decide), put_below 7 (by decide) (by decide), put_below 7 (by decide) (by decide), put_below 7 (by decide) (by decide), put_self z4])⟩

theorem form3 (K : Nat) (x0 : BitVec 1) (x1 : BitVec 7) (x2 : BitVec 7) (x3 : BitVec 11) (k0 : K / 2 ^ 31 % 2 ^ 1 = 0) (k1 : K / 2 ^ 18 % 2 ^ 7 = 0) (k2 : K / 2 ^ 11 % 2 ^ 7 = 0) (k3 : K / 2 ^ 0 % 2 ^ 11 = 0) (hK : K < 2 ^ 32) :
    put x0 31 (put x1 18 (put x2 11 (put x3 0 (K)))) < 2 ^ 32 ∧
    (put x0 31 (put x1 18 (put x2 11 (put x3 0 (K))))) / 2 ^ 25 % 64 = K / 2 ^ 25 % 64 ∧
    fld (put x0 31 (put x1 18 (put x2 11 (put x3 0 (K))))) 31 1 = x0 ∧
    fld (put x0 31 (put x1 18 (put x2 11 (put x3 0 (K))))) 18 7 = x1 ∧
    fld (put x0 31 (put x1 18 (put x2 11 (put x3 0 (K))))) 11 7 = x2 ∧
    fld (put x0 31 (put x1 18 (put x2 11 (put x3 0 (K))))) 0 11 = x3 := by
  have z3 : (K) / 2 ^ 0 % 2 ^ 11 = 0 := k3
  have z2 : (put x3 0 (K)) / 2 ^ 11 % 2 ^ 7 = 0 := by rw [put_above z3 (by decide), k2]
  have z1 : (put x2 11 (put x3 0 (K))) / 2 ^ 18 % 2 ^ 7 = 0 := by rw [put_above z2 (by decide), put_above z3 (by decide), k1]
  have z0 : (put x1 18 (put x2 11 (put x3 0 (K)))) / 2 ^ 31 % 2 ^ 1 = 0 := by rw [put_above z1 (by decide), put_above z2 (by decide), put_above z3 (by decide), k0]
  exact ⟨put_lt z0 (by decide) (put_lt z1 (by decide) (put_lt z2 (by decide) (put_lt z3 (by decide) hK))),
    by rw [put_below 6 (by decide) (by decide), put_above z1 (by decide), put_above z2 (by decide), put_above z3 (by decide)],
    fld_of (by rw [put_self z0]),
    fld_of (by rw [put_below 7 (by decide) (by decide), put_self z1]),
    fld_of (by rw [put_below 7 (by decide) (by decide), put_below 7 (by decide) (by decide), put_self z2]),
    fld_of (by rw [put_below 11 (by decide) (by decide), put_below 11 (by decide) (by decide), put_below 11 (by decide) (by decide), put_self z3])⟩

theorem form4 (K : Nat) (x0 : BitVec 1) (x1 : BitVec 7) (x2 : BitVec 7) (x3 : BitVec 6) (k0 : K / 2 ^ 31 % 2 ^ 1 = 0) (k1 : K / 2 ^ 18 % 2 ^ 7 = 0) (k2 : K / 2 ^ 11 % 2 ^ 7 = 0) (k3 : K / 2 ^ 0 % 2 ^ 6 = 0) (hK : K < 2 ^ 32) :
    put x0 31 (put x1 18 (put x2 11 (put x3 0 (K)))) < 2 ^ 32 ∧
    (put x0 31 (put x1 18 (put x2 11 (put x3 0 (K))))) / 2 ^ 25 % 64 = K / 2 ^ 25 % 64 ∧
    (put x0 31 (put x1 18 (put x2 11 (put x3 0 (K))))) / 2 ^ 6 % 32 = K / 2 ^ 6 % 32 ∧
    fld (put x0 31 (put x1 18 (put x2 11 (put x3 0 (K))))) 31 1 = x0 ∧
    fld (put x0 31 (put x1 18 (put x2 11 (put x3 0 (K))))) 18 7 = x1 ∧
    fld (put x0 31 (put x1 18 (put x2 11 (put x3 0 (K))))) 11 7 = x2 ∧
    fld (put x0 31 (put x1 18 (put x2 11 (put x3 0 (K))))) 0 6 = x3 := by
  have z3 : (K) / 2 ^ 0 % 2 ^ 6 = 0 := k3
  have z2 : (put x3 0 (K)) / 2 ^ 11 % 2 ^ 7 = 0 := by rw [put_above z3 (by decide), k2]
  have z1 : (put x2 11 (put x3 0 (K))) / 2 ^ 18 % 2 ^ 7 = 0 := by rw [put_above z2 (by decide), put_above z3 (by decide), k1]
  have z0 : (put x1 18 (put x2 11 (put x3 0 (K)))) / 2 ^ 31 % 2 ^ 1 = 0 := by rw [put_above z1 (by decide), put_above z2 (by decide), put_above z3 (by decide), k0]
  exact ⟨put_lt z0 (by decide) (put_lt z1 (by decide) (put_lt z2 (by decide) (put_lt z3 (by decide) hK))),
    by rw [put_below 6 (by decide) (by decide), put_above z1 (by decide), put_above z2 (by decide), put_above z3 (by decide)],
    by rw [put_below 5 (by decide) (by decide), put_below 5 (by decide) (by decide), put_below 5 (by decide) (by decide), put_above z3 (by decide)],
    fld_of (by rw [put_self z0]),
    fld_of (by rw [put_below 7 (by decide) (by decide), put_self z1]),
    fld_of (by rw [put_below 7 (by decide) (by decide), put_below 7 (by decide) (by decide), put_self z2]),
    fld_of (by rw [put_below 6 (by decide) (by decide), put_below 6 (by decide) (by decide), put_below 6 (by decide) (by decide), put_self z3])⟩

theorem form5 (K : Nat) (x0 : BitVec 1) (x1 : BitVec 1) (x2 : BitVec 6) (x3 : BitVec 7) (x4 : BitVec 8) (k0 : K / 2 ^ 31 % 2 ^ 1 = 0) (k1 : K / 2 ^ 24 % 2 ^ 1 = 0) (k2 : K / 2 ^ 18 % 2 ^ 6 = 0) (k3 : K / 2 ^ 11 % 2 ^ 7 = 0) (k4 : K / 2 ^ 0 % 2 ^ 8 = 0) (hK : K < 2 ^ 32) :
    put x0 31 (put x1 24 (put x2 18 (put x3 11 (put x4 0 (K))))) < 2 ^ 32 ∧
    (put x0 31 (put x1 24 (put x2 18 (put x3 11 (put x4 0 (K)))))) / 2 ^ 25 % 64 = K / 2 ^ 25 % 64 ∧
    (put x0 31 (put x1 24 (put x2 18 (put x3 11 (put x4 0 (K)))))) / 2 ^ 8 % 8 = K / 2 ^ 8 % 8 ∧
    fld (put x0 31 (put x1 24 (put x2 18 (put x3 11 (put x4 0 (K)))))) 31 1 = x0 ∧
    fld (put x0 31 (put x1 24 (put x2 18 (put x3 11 (put x4 0 (K)))))) 24 1 = x1 ∧
    fld (put x0 31 (put x1 24 (put x2 18 (put x3 11 (put x4 0 (K)))))) 18 6 = x2 ∧
    fld (put x0 31 (put x1 24 (put x2 18 (put x3 11 (put x4 0 (K)))))) 11 7 = x3 ∧
    fld (put x0 31 (put x1 24 (put x2 18 (put x3 11 (put x4 0 (K)))))) 0 8 = x4 := by
  have z4 : (K) / 2 ^ 0 % 2 ^ 8 = 0 := k4
  have z3 : (put x4 0 (K)) / 2 ^ 11 % 2 ^ 7 = 0 := by rw [put_above z4 (by decide), k3]
  have z2 : (put x3 11 (put x4 0 (K))) / 2 ^ 18 % 2 ^ 6 = 0 := by rw [put_above z3 (by decide), put_above z4 (by decide), k2]
  have z1 : (put x2 18 (put x3 11 (put x4 0 (K)))) / 2 ^ 24 % 2 ^ 1 = 0 := by rw [put_above z2 (by decide), put_above z3 (by decide), put_above z4 (by decide), k1]
  have z0 : (put x1 24 (put x2 18 (put x3 11 (put x4 0 (K))))) / 2 ^ 31 % 2 ^ 1 = 0 := by rw [put_above z1 (by decide), put_above z2 (by decide), put_above z3 (by decide), put_above z4 (by decide), k0]
  exact ⟨put_lt z0 (by decide) (put_lt z1 (by decide) (put_lt z2 (by decide) (put_lt z3 (by decide) (put_lt z4 (by decide) hK)))),
    by rw [put_below 6 (by decide) (by decide), put_above z1 (by decide), put_above z2 (by decide), put_above z3 (by decide), put_above z4 (by decide)],
    by rw [put_below 3 (by decide) (by decide), put_below 3 (by decide) (by decide), put_below 3 (by decide) (by decide), put_below 3 (by decide) (by decide), put_above z4 (by decide)],
    fld_of (by rw [put_self z0]),
    fld_of (by rw [put_below 1 (by decide) (by decide), put_self z1]),
    fld_of (by rw [put_below 6 (by decide) (by decide), put_below 6 (by decide) (by decide), put_self z2]),
    fld_of (by rw [put_below 7 (by decide) (by decide), put_below 7 (by decide) (by decide), put_below 7 (by decide) (by decide), put_self z3]),
    fld_of (by rw [put_below 8 (by decide) (by decide), put_below 8 (by decide) (by decide), put_below 8 (by decide) (by decide), put_below 8 (by decide) (by decide), put_self z4])⟩

theorem form6 (K : Nat) (x0 : BitVec 1) (x1 : BitVec 7) (x2 : BitVec 7) (x3 : BitVec 5) (x4 : BitVec 6) (k0 : K / 2 ^ 31 % 2 ^ 1 = 0) (k1 : K / 2 ^ 18 % 2 ^ 7 = 0) (k2 : K / 2 ^ 11 % 2 ^ 7 = 0) (k3 : K / 2 ^ 6 % 2 ^ 5 = 0) (k4 : K / 2 ^ 0 % 2 ^ 6 = 0) (hK : K < 2 ^ 32) :
    put x0 31 (put x1 18 (put x2 11 (put x3 6 (put x4 0 (K))))) < 2 ^ 32 ∧
    (put x0 31 (put x1 18 (put x2 11 (put x3 6 (put x4 0 (K)))))) / 2 ^ 25 % 64 = K / 2 ^ 25 % 64 ∧
    fld (put x0 31 (put x1 18 (put x2 11 (put x3 6 (put x4 0 (K)))))) 31 1 = x0 ∧
    fld (put x0 31 (put x1 18 (put x2 11 (put x3 6 (put x4 0 (K)))))) 18 7 = x1 ∧
    fld (put x0 31 (put x1 18 (put x2 11 (put x3 6 (put x4 0 (K)))))) 11 7 = x2 ∧
    fld (put x0 31 (put x1 18 (put x2 11 (put x3 6 (put x4 0 (K)))))) 6 5 = x3 ∧
    fld (put x0 31 (put x1 18 (put x2 11 (put x3 6 (put x4 0 (K)))))) 0 6 = x4 := by
  have z4 : (K) / 2 ^ 0 % 2 ^ 6 = 0 := k4
  have z3 : (put x4 0 (K)) / 2 ^ 6 % 2 ^ 5 = 0 := by rw [put_above z4 (by decide), k3]
  have z2 : (put x3 6 (put x4 0 (K))) / 2 ^ 11 % 2 ^ 7 = 0 := by rw [put_above z3 (by decide), put_above z4 (by decide), k2]
  have z1 : (put x2 11 (put x3 6 (put x4 0 (K)))) / 2 ^ 18 % 2 ^ 7 = 0 := by rw [put_above z2 (by decide), put_above z3 (by decide), put_above z4 (by decide), k1]
  have z0 : (put x1 18 (put x2 11 (put x3 6 (put x4 0 (K))))) / 2 ^ 31 % 2 ^ 1 = 0 := by rw [put_above z1 (by decide), put_above z2 (by decide), put_above z3 (by decide), put_above z4 (by decide), k0]
  exact ⟨put_lt z0 (by decide) (put_lt z1 (by decide) (put_lt z2 (by decide) (put_lt z3 (by decide) (put_lt z4 (by decide) hK)))),
    by rw [put_below 6 (by decide) (by decide), put_above z1 (by decide), put_above z2 (by decide), put_above z3 (by decide), put_above z4 (by decide)],
    fld_of (by rw [put_self z0]),
    fld_of (by rw [put_below 7 (by decide) (by decide), put_self z1]),
    fld_of (by rw [put_below 7 (by decide) (by decide), put_below 7 (by decide) (by decide), put_self z2]),
    fld_of (by rw [put_below 5 (by decide) (by decide), put_below 5 (by decide) (by decide), put_below 5 (by decide) (by decide), put_self z3]),
    fld_of (by rw [put_below 6 (by decide) (by decide), put_below 6 (by decide) (by decide), put_below 6 (by decide) (by decide), put_below 6 (by decide) (by decide), put_self z4])⟩

theorem form7 (K : Nat) (x0 : BitVec 1) (x1 : BitVec 7) (x2 : BitVec 2) (x3 : BitVec 16) (k0 : K / 2 ^ 31 % 2 ^ 1 = 0) (k1 : K / 2 ^ 18 % 2 ^ 7 = 0) (k2 : K / 2 ^ 16 % 2 ^ 2 = 0) (k3 : K / 2 ^ 0 % 2 ^ 16 = 0) (hK : K < 2 ^ 32) :
    put x0 31 (put x1 18 (put x2 16 (put x3 0 (K)))) < 2 ^ 32 ∧
    (put x0 31 (put x1 18 (put x2 16 (put x3 0 (K))))) / 2 ^ 25 % 64 = K / 2 ^ 25 % 64 ∧
    fld (put x0 31 (put x1 18 (put x2 16 (put x3 0 (K))))) 31 1 = x0 ∧
    fld (put x0 31 (put x1 18 (put x2 16 (put x3 0 (K))))) 18 7 = x1 ∧
    fld (put x0 31 (put x1 18 (put x2 16 (put x3 0 (K))))) 16 2 = x2 ∧
    fld (put x0 31 (put x1 18 (put x2 16 (put x3 0 (K))))) 0 16 = x3 := by
  have z3 : (K) / 2 ^ 0 % 2 ^ 16 = 0 := k3
  have z2 : (put x3 0 (K)) / 2 ^ 16 % 2 ^ 2 = 0 := by rw [put_above z3 (by decide), k2]
  have z1 : (put x2 16 (put x3 0 (K))) / 2 ^ 18 % 2 ^ 7 = 0 := by rw [put_above z2 (by decide), put_above z3 (by decide), k1]
  have z0 : (put x1 18 (put x2 16 (put x3 0 (K)))) / 2 ^ 31 % 2 ^ 1 = 0 := by rw [put_above z1 (by decide), put_above z2 (by decide), put_above z3 (by decide), k0]
  exact ⟨put_lt z0 (by decide) (put_lt z1 (by decide) (put_lt z2 (by decide) (put_lt z3 (by decide) hK))),
    by rw [put_below 6 (by decide) (by decide), put_above z1 (by decide), put_above z2 (by decide), put_above z3 (by decide)],
    fld_of (by rw [put_self z0]),
    fld_of (by rw [put_below 7 (by decide) (by decide), put_self z1]),
    fld_of (by rw [put_below 2 (by decide) (by decide), put_below 2 (by decide) (by decide), put_self z2]),
    fld_of (by rw [put_below 16 (by decide) (by decide), put_below 16 (by decide) (by decide), put_below 16 (by decide) (by decide), put_self z3])⟩

theorem form8 (K : Nat) (x0 : BitVec 1) (x1 : BitVec 7) (x2 : BitVec 1) (x3 : BitVec 16) (k0 : K / 2 ^ 31 % 2 ^ 1 = 0) (k1 : K / 2 ^ 18 % 2 ^ 7 = 0) (k2 : K / 2 ^ 16 % 2 ^ 1 = 0) (k3 : K / 2 ^ 0 % 2 ^ 16 = 0) (hK : K < 2 ^ 32) :
    put x0 31 (put x1 18 (put x2 16 (put x3 0 (K)))) < 2 ^ 32 ∧
    (put x0 31 (put x1 18 (put x2 16 (put x3 0 (K))))) / 2 ^ 25 % 64 = K / 2 ^ 25 % 64 ∧
    (put x0 31 (put x1 18 (put x2 16 (put x3 0 (K))))) / 2 ^ 17 % 2 = K / 2 ^ 17 % 2 ∧
    fld (put x0 31 (put x1 18 (put x2 16 (put x3 0 (K))))) 31 1 = x0 ∧
    fld (put x0 31 (put x1 18 (put x2 16 (put x3 0 (K))))) 18 7 = x1 ∧
    fld (put x0 31 (put x1 18 (put x2 16 (put x3 0 (K))))) 16 1 = x2 ∧
    fld (put x0 31 (put x1 18 (put x2 16 (put x3 0 (K))))) 0 16 = x3 := by
  have z3 : (K) / 2 ^ 0 % 2 ^ 16 = 0 := k3
  have z2 : (put x3 0 (K)) / 2 ^ 16 % 2 ^ 1 = 0 := by rw [put_above z3 (by decide), k2]
  have z1 : (put x2 16 (put x3 0 (K))) / 2 ^ 18 % 2 ^ 7 = 0 := by rw [put_above z2 (by decide), put_above z3 (by decide), k1]
  have z0 : (put x1 18 (put x2 16 (put x3 0 (K)))) / 2 ^ 31 % 2 ^ 1 = 0 := by rw [put_above z1 (by decide), put_above z2 (by decide), put_above z3 (by decide), k0]
  exact ⟨put_lt z0 (by decide) (put_lt z1 (by decide) (put_lt z2 (by decide) (put_lt z3 (by decide) hK))),
    by rw [put_below 6 (by decide) (by decide), put_above z1 (by decide), put_above z2 (by decide), put_above z3 (by decide)],
    by rw [put_below 1 (by decide) (by decide), put_below 1 (by decide) (by decide), put_above z2 (by decide), put_above z3 (by decide)],
    fld_of (by rw [put_self z0]),
    fld_of (by rw [put_below 7 (by decide) (by decide), put_self z1]),
    fld_of (by rw [put_below 1 (by decide) (by decide), put_below 1 (by decide) (by decide), put_self z2]),
    fld_of (by rw [put_below 16 (by decide) (by decide), put_below 16 (by decide) (by decide), put_below 16 (by decide) (by decide), put_self z3])⟩

theorem form9 (K : Nat) (x0 : BitVec 1) (x1 : BitVec 7) (x2 : BitVec 7) (x3 : BitVec 7) (x4 : BitVec 4) (k0 : K / 2 ^ 31 % 2 ^ 1 = 0) (k1 : K / 2 ^ 18 % 2 ^ 7 = 0) (k2 : K / 2 ^ 11 % 2 ^ 7 = 0) (k3 : K / 2 ^ 4 % 2 ^ 7 = 0) (k4 : K / 2 ^ 0 % 2 ^ 4 = 0) (hK : K < 2 ^ 32) :
    put x0 31 (put x1 18 (put x2 11 (put x3 4 (put x4 0 (K))))) < 2 ^ 32 ∧
    (put x0 31 (put x1 18 (put x2 11 (put x3 4 (put x4 0 (K)))))) / 2 ^ 25 % 64 = K / 2 ^ 25 % 64 ∧
    fld (put x0 31 (put x1 18 (put x2 11 (put x3 4 (put x4 0 (K)))))) 31 1 = x0 ∧
    fld (put x0 31 (put x1 18 (put x2 11 (put x3 4 (put x4 0 (K)))))) 18 7 = x1 ∧
    fld (put x0 31 (put x1 18 (put x2 11 (put x3 4 (put x4 0 (K)))))) 11 7 = x2 ∧
    fld (put x0 31 (put x1 18 (put x2 11 (put x3 4 (put x4 0 (K)))))) 4 7 = x3 ∧
    fld (put x0 31 (put x1 18 (put x2 11 (put x3 4 (put x4 0 (K)))))) 0 4 = x4 := by
  have z4 : (K) / 2 ^ 0 % 2 ^ 4 = 0 := k4
  have z3 : (put x4 0 (K)) / 2 ^ 4 % 2 ^ 7 = 0 := by rw [put_above z4 (by decide), k3]
  have z2 : (put x3 4 (put x4 0 (K))) / 2 ^ 11 % 2 ^ 7 = 0 := by rw [put_above z3 (by decide), put_above z4 (by decide), k2]
  have z1 : (put x2 11 (put x3 4 (put x4 0 (K)))) / 2 ^ 18 % 2 ^ 7 = 0 := by rw [put_above z2 (by decide), put_above z3 (by decide), put_above z4 (by decide), k1]
  have z0 : (put x1 18 (put x2 11 (put x3 4 (put x4 0 (K))))) / 2 ^ 31 % 2 ^ 1 = 0 := by rw [put_above z1 (by decide), put_above z2 (by decide), put_above z3 (by decide), put_above z4 (by decide), k0]
  exact ⟨put_lt z0 (by decide) (put_lt z1 (by decide) (put_lt z2 (by decide) (put_lt z3 (by decide) (put_lt z4 (by decide) hK)))),
    by rw [put_below 6 (by decide) (by decide), put_above z1 (by decide), put_above z2 (by decide), put_above z3 (by decide), put_above z4 (by decide)],
    fld_of (by rw [put_self z0]),
    fld_of (by rw [put_below 7 (by decide) (by decide), put_self z1]),
    fld_of (by rw [put_below 7 (by decide) (by decide), put_below 7 (by decide) (by decide), put_self z2]),
    fld_of (by rw [put_below 7 (by decide) (by decide), put_below 7 (by decide) (by decide), put_below 7 (by decide) (by decide), put_self z3]),
    fld_of (by rw [put_below 4 (by decide) (by decide), put_below 4 (by decide) (by decide), put_below 4 (by decide) (by decide), put_below 4 (by decide) (by decide), put_self z4])⟩

theorem form10 (K : Nat) (x0 : BitVec 1) (x1 : BitVec 6) (x2 : BitVec 6) (x3 : BitVec 6) (k0 : K / 2 ^ 31 % 2 ^ 1 = 0) (k1 : K / 2 ^ 18 % 2 ^ 6 = 0) (k2 : K / 2 ^ 11 % 2 ^ 6 = 0) (k3 : K / 2 ^ 0 % 2 ^ 6 = 0) (hK : K < 2 ^ 32) :
    put x0 31 (put x1 18 (put x2 11 (put x3 0 (K)))) < 2 ^ 32 ∧
    (put x0 31 (put x1 18 (put x2 11 (put x3 0 (K))))) / 2 ^ 25 % 64 = K / 2 ^ 25 % 64 ∧
    (put x0 31 (put x1 18 (put x2 11 (put x3 0 (K))))) / 2 ^ 8 % 8 = K / 2 ^ 8 % 8 ∧
    (put x0 31 (put x1 18 (put x2 11 (put x3 0 (K))))) / 2 ^ 6 % 4 = K / 2 ^ 6 % 4 ∧
    (put x0 31 (put x1 18 (put x2 11 (put x3 0 (K))))) / 2 ^ 17 % 2 = K / 2 ^ 17 % 2 ∧
    (put x0 31 (put x1 18 (put x2 11 (put x3 0 (K))))) / 2 ^ 24 % 2 = K / 2 ^ 24 % 2 ∧
    fld (put x0 31 (put x1 18 (put x2 11 (put x3 0 (K))))) 31 1 = x0 ∧
    fld (put x0 31 (put x1 18 (put x2 11 (put x3 0 (K))))) 18 6 = x1 ∧
    fld (put x0 31 (put x1 18 (put x2 11 (put x3 0 (K))))) 11 6 = x2 ∧
    fld (put x0 31 (put x1 18 (put x2 11 (put x3 0 (K))))) 0 6 = x3 := by
  have z3 : (K) / 2 ^ 0 % 2 ^ 6 = 0 := k3
  have z2 : (put x3 0 (K)) / 2 ^ 11 % 2 ^ 6 = 0 := by rw [put_above z3 (by decide), k2]
  have z1 : (put x2 11 (put x3 0 (K))) / 2 ^ 18 % 2 ^ 6 = 0 := by rw [put_above z2 (by decide), put_above z3 (by decide), k1]
  have z0 : (put x1 18 (put x2 11 (put x3 0 (K)))) / 2 ^ 31 % 2 ^ 1 = 0 := by rw [put_above z1 (by decide), put_above z2 (by decide), put_above z3 (by decide), k0]
  exact ⟨put_lt z0 (by decide) (put_lt z1 (by decide) (put_lt z2 (by decide) (put_lt z3 (by decide) hK))),
    by rw [put_below 6 (by decide) (by decide), put_above z1 (by decide), put_above z2 (by decide), put_above z3 (by decide)],
    by rw [put_below 3 (by decide) (by decide), put_below 3 (by decide) (by decide), put_below 3 (by decide) (by decide), put_above z3 (by decide)],
    by rw [put_below 2 (by decide) (by decide), put_below 2 (by decide) (by decide), put_below 2 (by decide) (by decide), put_above z3 (by decide)],
    by rw [put_below 1 (by decide) (by decide), put_below 1 (by decide) (by decide), put_above z2 (by decide), put_above z3 (by decide)],
    by rw [put_below 1 (by decide) (by decide), put_above z1 (by decide), put_above z2 (by decide), put_above z3 (by decide)],
    fld_of (by rw [put_self z0]),
    fld_of (by rw [put_below 6 (by decide) (by decide), put_self z1]),
    fld_of (by rw [put_below 6 (by decide) (by decide), put_below 6 (by decide) (by decide), put_self z2]),
    fld_of (by rw [put_below 6 (by decide) (by decide), put_below 6 (by decide) (by decide), put_below 6 (by decide) (by decide), put_self z3])⟩

theorem form11 (K : Nat) (x0 : BitVec 1) (x1 : BitVec 6) (x2 : BitVec 15) (k0 : K / 2 ^ 31 % 2 ^ 1 = 0) (k1 : K / 2 ^ 15 % 2 ^ 6 = 0) (k2 : K / 2 ^ 0 % 2 ^ 15 = 0) (hK : K < 2 ^ 32) :
    put x0 31 (put x1 15 (put x2 0 (K))) < 2 ^ 32 ∧
    (put x0 31 (put x1 15 (put x2 0 (K)))) / 2 ^ 25 % 64 = K / 2 ^ 25 % 64 ∧
    (put x0 31 (put x1 15 (put x2 0 (K)))) / 2 ^ 21 % 16 = K / 2 ^ 21 % 16 ∧
    fld (put x0 31 (put x1 15 (put x2 0 (K)))) 31 1 = x0 ∧
    fld (put x0 31 (put x1 15 (put x2 0 (K)))) 15 6 = x1 ∧
    fld (put x0 31 (put x1 15 (put x2 0 (K)))) 0 15 = x2 := by
  have z2 : (K) / 2 ^ 0 % 2 ^ 15 = 0 := k2
  have z1 : (put x2 0 (K)) / 2 ^ 15 % 2 ^ 6 = 0 := by rw [put_above z2 (by decide), k1]
  have z0 : (put x1 15 (put x2 0 (K))) / 2 ^ 31 % 2 ^ 1 = 0 := by rw [put_above z1 (by decide), put_above z2 (by decide), k0]
  exact ⟨put_lt z0 (by decide) (put_lt z1 (by decide) (put_lt z2 (by decide) hK)),
    by rw [put_below 6 (by decide) (by decide), put_above z1 (by decide), put_above z2 (by decide)],
    by rw [put_below 4 (by decide) (by decide), put_above z1 (by decide), put_above z2 (by decide)],
    fld_of (by rw [put_self z0]),
    fld_of (by rw [put_below 6 (by decide) (by decide), put_self z1]),
    fld_of (by rw [put_below 15 (by decide) (by decide), put_below 15 (by decide) (by decide), put_self z2])⟩

theorem form12 (K : Nat) (x0 : BitVec 1) (x1 : BitVec 15) (k0 : K / 2 ^ 31 % 2 ^ 1 = 0) (k1 : K / 2 ^ 0 % 2 ^ 15 = 0) (hK : K < 2 ^ 32) :
    put x0 31 (put x1 0 (K)) < 2 ^ 32 ∧
    (put x0 31 (put x1 0 (K))) / 2 ^ 25 % 64 = K / 2 ^ 25 % 64 ∧
    (put x0 31 (put x1 0 (K))) / 2 ^ 21 % 16 = K / 2 ^ 21 % 16 ∧
    (put x0 31 (put x1 0 (K))) / 2 ^ 15 % 64 = K / 2 ^ 15 % 64 ∧
    fld (put x0 31 (put x1 0 (K))) 31 1 = x0 ∧
    fld (put x0 31 (put x1 0 (K))) 0 15 = x1 := by
  have z1 : (K) / 2 ^ 0 % 2 ^ 15 = 0 := k1
  have z0 : (put x1 0 (K)) / 2 ^ 31 % 2 ^ 1 = 0 := by rw [put_above z1 (by decide), k0]
  exact ⟨put_lt z0 (by decide) (put_lt z1 (by decide) hK),
    by rw [put_below 6 (by decide) (by decide), put_above z1 (by decide)],
    by rw [put_below 4 (by decide) (by decide), put_above z1 (by decide)],
    by rw [put_below 6 (by decide) (by decide), put_above z1 (by decide)],
    fld_of (by rw [put_self z0]),
    fld_of (by rw [put_below 15 (by decide) (by decide), put_self z1])⟩

theorem form13 (K : Nat) (x0 : BitVec 1) (x1 : BitVec 25) (k0 : K / 2 ^ 31 % 2 ^ 1 = 0) (k1 : K / 2 ^ 0 % 2 ^ 25 = 0) (hK : K < 2 ^ 32) :
    put x0 31 (put x1 0 (K)) < 2 ^ 32 ∧
    (put x0 31 (put x1 0 (K))) / 2 ^ 25 % 64 = K / 2 ^ 25 % 64 ∧
    fld (put x0 31 (put x1 0 (K))) 31 1 = x0 ∧
    fld (put x0 31 (put x1 0 (K))) 0 25 = x1 := by
  have z1 : (K) / 2 ^ 0 % 2 ^ 25 = 0 := k1
  have z0 : (put x1 0 (K)) / 2 ^ 31 % 2 ^ 1 = 0 := by rw [put_above z1 (by decide), k0]
  exact ⟨put_lt z0 (by decide) (put_lt z1 (by decide) hK),
    by rw [put_below 6 (by decide) (by decide), put_above z1 (by decide)],
    fld_of (by rw [put_self z0]),
    fld_of (by rw [put_below 25 (by decide) (by decide), put_self z1])⟩

theorem form14 (K : Nat) (x0 : BitVec 1) (x1 : BitVec 6) (x2 : BitVec 3) (x3 : BitVec 4) (k0 : K / 2 ^ 31 % 2 ^ 1 = 0) (k1 : K / 2 ^ 18 % 2 ^ 6 = 0) (k2 : K / 2 ^ 11 % 2 ^ 3 = 0) (k3 : K / 2 ^ 0 % 2 ^ 4 = 0) (hK : K < 2 ^ 32) :
    put x0 31 (put x1 18 (put x2 11 (put x3 0 (K)))) < 2 ^ 32 ∧
    (put x0 31 (put x1 18 (put x2 11 (put x3 0 (K))))) / 2 ^ 25 % 64 = K / 2 ^ 25 % 64 ∧
    (put x0 31 (put x1 18 (put x2 11 (put x3 0 (K))))) / 2 ^ 4 % 128 = K / 2 ^ 4 % 128 ∧
    (put x0 31 (put x1 18 (put x2 11 (put x3 0 (K))))) / 2 ^ 14 % 16 = K / 2 ^ 14 % 16 ∧
    (put x0 31 (put x1 18 (put x2 11 (put x3 0 (K))))) / 2 ^ 24 % 2 = K / 2 ^ 24 % 2 ∧
    fld (put x0 31 (put x1 18 (put x2 11 (put x3 0 (K))))) 31 1 = x0 ∧
    fld (put x0 31 (put x1 18 (put x2 11 (put x3 0 (K))))) 18 6 = x1 ∧
    fld (put x0 31 (put x1 18 (put x2 11 (put x3 0 (K))))) 11 3 = x2 ∧
    fld (put x0 31 (put x1 18 (put x2 11 (put x3 0 (K))))) 0 4 = x3 := by
  have z3 : (K) / 2 ^ 0 % 2 ^ 4 = 0 := k3
  have z2 : (put x3 0 (K)) / 2 ^ 11 % 2 ^ 3 = 0 := by rw [put_above z3 (by decide), k2]
  have z1 : (put x2 11 (put x3 0 (K))) / 2 ^ 18 % 2 ^ 6 = 0 := by rw [put_above z2 (by decide), put_above z3 (by decide), k1]
  have z0 : (put x1 18 (put x2 11 (put x3 0 (K)))) / 2 ^ 31 % 2 ^ 1 = 0 := by rw [put_above z1 (by decide), put_above z2 (by decide), put_above z3 (by decide), k0]
  exact ⟨put_lt z0 (by decide) (put_lt z1 (by decide) (put_lt z2 (by decide) (put_lt z3 (by decide) hK))),
    by rw [put_below 6 (by decide) (by decide), put_above z1 (by decide), put_above z2 (by decide), put_above z3 (by decide)],
    by rw [put_below 7 (by decide) (by decide), put_below 7 (by decide) (by decide), put_below 7 (by decide) (by decide), put_above z3 (by decide)],
    by rw [put_below 4 (by decide) (by decide), put_below 4 (by decide) (by decide), put_above z2 (by decide), put_above z3 (by decide)],
    by rw [put_below 1 (by decide) (by decide), put_above z1 (by decide), put_above z2 (by decide), put_above z3 (by decide)],
    fld_of (by rw [put_self z0]),
    fld_of (by rw [put_below 6 (by decide) (by decide), put_self z1]),
    fld_of (by rw [put_below 3 (by decide) (by decide), put_below 3 (by decide) (by decide), put_self z2]),
    fld_of (by rw [put_below 4 (by decide) (by decide), put_below 4 (by decide) (by decide), put_below 4 (by decide) (by decide), put_self z3])⟩

theorem form15 (K : Nat) (x0 : BitVec 1) (k0 : K / 2 ^ 31 % 2 ^ 1 = 0) (hK : K < 2 ^ 32) :
    put x0 31 (K) < 2 ^ 32 ∧
    (put x0 31 (K)) / 2 ^ 25 % 64 = K / 2 ^ 25 % 64 ∧
    (put x0 31 (K)) / 2 ^ 6 % 32 = K / 2 ^ 6 % 32 ∧
    (put x0 31 (K)) / 2 ^ 0 % 64 = K / 2 ^ 0 % 64 ∧
    (put x0 31 (K)) / 2 ^ 11 % 16384 = K / 2 ^ 11 % 16384 ∧
    fld (put x0 31 (K)) 31 1 = x0 := by
  have z0 : (K) / 2 ^ 31 % 2 ^ 1 = 0 := k0
  exact ⟨put_lt z0 (by decide) hK,
    by rw [put_below 6 (by decide) (by decide)],
    by rw [put_below 5 (by decide) (by decide)],
    by rw [put_below 6 (by decide) (by decide)],
    by rw [put_below 14 (by decide) (by decide)],
    fld_of (by rw [put_self z0])⟩

theorem form16 (K : Nat) (x0 : BitVec 1) (x1 : BitVec 7) (x2 : BitVec 1) (k0 : K / 2 ^ 31 % 2 ^ 1 = 0) (k1 : K / 2 ^ 11 % 2 ^ 7 = 0) (k2 : K / 2 ^ 0 % 2 ^ 1 = 0) (hK : K < 2 ^ 32) :
    put x0 31 (put x1 11 (put x2 0 (K))) < 2 ^ 32 ∧
    (put x0 31 (put x1 11 (put x2 0 (K)))) / 2 ^ 25 % 64 = K / 2 ^ 25 % 64 ∧
    (put x0 31 (put x1 11 (put x2 0 (K)))) / 2 ^ 6 % 32 = K / 2 ^ 6 % 32 ∧
    (put x0 31 (put x1 11 (put x2 0 (K)))) / 2 ^ 1 % 32 = K / 2 ^ 1 % 32 ∧
    (put x0 31 (put x1 11 (put x2 0 (K)))) / 2 ^ 18 % 128 = K / 2 ^ 18 % 128 ∧
    fld (put x0 31 (put x1 11 (put x2 0 (K)))) 31 1 = x0 ∧
    fld (put x0 31 (put x1 11 (put x2 0 (K)))) 11 7 = x1 ∧
    fld (put x0 31 (put x1 11 (put x2 0 (K)))) 0 1 = x2 := by
  have z2 : (K) / 2 ^ 0 % 2 ^ 1 = 0 := k2
  have z1 : (put x2 0 (K)) / 2 ^ 11 % 2 ^ 7 = 0 := by rw [put_above z2 (by decide), k1]
  have z0 : (put x1 11 (put x2 0 (K))) / 2 ^ 31 % 2 ^ 1 = 0 := by rw [put_above z1 (by decide), put_above z2 (by decide), k0]
  exact ⟨put_lt z0 (by decide) (put_lt z1 (by decide) (put_lt z2 (by decide) hK)),
    by rw [put_below 6 (by decide) (by decide), put_above z1 (by decide), put_above z2 (by decide)],
    by rw [put_below 5 (by decide) (by decide), put_below 5 (by decide) (by decide), put_above z2 (by decide)],
    by rw [put_below 5 (by decide) (by decide), put_below 5 (by decide) (by decide), put_above z2 (by decide)],
    by rw [put_below 7 (by decide) (by decide), put_above z1 (by decide), put_above z2 (by decide)],
    fld_of (by rw [put_self z0]),
    fld_of (by rw [put_below 7 (by decide) (by decide), put_self z1]),
    fld_of (by rw [put_below 1 (by decide) (by decide), put_below 1 (by decide) (by decide), put_self z2])⟩

theorem form17 (K : Nat) (x0 : BitVec 1) (x1 : BitVec 5) (x2 : BitVec 5) (x3 : BitVec 5) (x4 : BitVec 1) (x5 : BitVec 3) (k0 : K / 2 ^ 31 % 2 ^ 1 = 0) (k1 : K / 2 ^ 20 % 2 ^ 5 = 0) (k2 : K / 2 ^ 15 % 2 ^ 5 = 0) (k3 : K / 2 ^ 10 % 2 ^ 5 = 0) (k4 : K / 2 ^ 9 % 2 ^ 1 = 0) (k5 : K / 2 ^ 6 % 2 ^ 3 = 0) (hK : K < 2 ^ 32) :
    put x0 31 (put x1 20 (put x2 15 (put x3 10 (put x4 9 (put x5 6 (K)))))) < 2 ^ 32 ∧
    (put x0 31 (put x1 20 (put x2 15 (put x3 10 (put x4 9 (put x5 6 (K))))))) / 2 ^ 25 % 64 = K / 2 ^ 25 % 64 ∧
    (put x0 31 (put x1 20 (put x2 15 (put x3 10 (put x4 9 (put x5 6 (K))))))) / 2 ^ 0 % 64 = K / 2 ^ 0 % 64 ∧
    fld (put x0 31 (put x1 20 (put x2 15 (put x3 10 (put x4 9 (put x5 6 (K))))))) 31 1 = x0 ∧
    fld (put x0 31 (put x1 20 (put x2 15 (put x3 10 (put x4 9 (put x5 6 (K))))))) 20 5 = x1 ∧
    fld (put x0 31 (put x1 20 (put x2 15 (put x3 10 (put x4 9 (put x5 6 (K))))))) 15 5 = x2 ∧
    fld (put x0 31 (put x1 20 (put x2 15 (put x3 10 (put x4 9 (put x5 6 (K))))))) 10 5 = x3 ∧
    fld (put x0 31 (put x1 20 (put x2 15 (put x3 10 (put x4 9 (put x5 6 (K))))))) 9 1 = x4 ∧
    fld (put x0 31 (put x1 20 (put x2 15 (put x3 10 (put x4 9 (put x5 6 (K))))))) 6 3 = x5 := by
  have z5 : (K) / 2 ^ 6 % 2 ^ 3 = 0 := k5
  have z4 : (put x5 6 (K)) / 2 ^ 9 % 2 ^ 1 = 0 := by rw [put_above z5 (by decide), k4]
  have z3 : (put x4 9 (put x5 6 (K))) / 2 ^ 10 % 2 ^ 5 = 0 := by rw [put_above z4 (by decide), put_above z5 (by decide), k3]
  have z2 : (put x3 10 (put x4 9 (put x5 6 (K)))) / 2 ^ 15 % 2 ^ 5 = 0 := by rw [put_above z3 (by decide), put_above z4 (by decide), put_above z5 (by decide), k2]
  have z1 : (put x2 15 (put x3 10 (put x4 9 (put x5 6 (K))))) / 2 ^ 20 % 2 ^ 5 = 0 := by rw [put_above z2 (by decide), put_above z3 (by decide), put_above z4 (by decide), put_above z5 (by decide), k1]
  have z0 : (put x1 20 (put x2 15 (put x3 10 (put x4 9 (put x5 6 (K)))))) / 2 ^ 31 % 2 ^ 1 = 0 := by rw [put_above z1 (by decide), put_above z2 (by decide), put_above z3 (by decide), put_above z4 (by decide), put_above z5 (by decide), k0]
  exact ⟨put_lt z0 (by decide) (put_lt z1 (by decide) (put_lt z2 (by decide) (put_lt z3 (by decide) (put_lt z4 (by decide) (put_lt z5 (by decide) hK))))),
    by rw [put_below 6 (by decide) (by decide), put_above z1 (by decide), put_above z2 (by decide), put_above z3 (by decide), put_above z4 (by decide), put_above z5 (by decide)],
    by rw [put_below 6 (by decide) (by decide), put_below 6 (by decide) (by decide), put_below 6 (by decide) (by decide), put_below 6 (by decide) (by decide), put_below 6 (by decide) (by decide), put_below 6 (by decide) (by decide)],
    fld_of (by rw [put_self z0]),
    fld_of (by rw [put_below 5 (by decide) (by decide), put_self z1]),
    fld_of (by rw [put_below 5 (by decide) (by decide), put_below 5 (by decide) (by decide), put_self z2]),
    fld_of (by rw [put_below 5 (by decide) (by decide), put_below 5 (by decide) (by decide), put_below 5 (by decide) (by decide), put_self z3]),
    fld_of (by rw [put_below 1 (by decide) (by decide), put_below 1 (by decide) (by decide), put_below 1 (by decide) (by decide), put_below 1 (by decide) (by decide), put_self z4]),
    fld_of (by rw [put_below 3 (by decide) (by decide), put_below 3 (by decide) (by decide), put_below 3 (by decide) (by decide), put_below 3 (by decide) (by decide), put_below 3 (by decide) (by decide), put_self z5])⟩

theorem form18 (K : Nat) (x0 : BitVec 1) (x1 : BitVec 5) (x2 : BitVec 5) (x3 : BitVec 1) (x4 : BitVec 3) (k0 : K / 2 ^ 31 % 2 ^ 1 = 0) (k1 : K / 2 ^ 20 % 2 ^ 5 = 0) (k2 : K / 2 ^ 15 % 2 ^ 5 = 0) (k3 : K / 2 ^ 9 % 2 ^ 1 = 0) (k4 : K / 2 ^ 6 % 2 ^ 3 = 0) (hK : K < 2 ^ 32) :
    put x0 31 (put x1 20 (put x2 15 (put x3 9 (put x4 6 (K))))) < 2 ^ 32 ∧
    (put x0 31 (put x1 20 (put x2 15 (put x3 9 (put x4 6 (K)))))) / 2 ^ 25 % 64 = K / 2 ^ 25 % 64 ∧
    (put x0 31 (put x1 20 (put x2 15 (put x3 9 (put x4 6 (K)))))) / 2 ^ 0 % 64 = K / 2 ^ 0 % 64 ∧
    (put x0 31 (put x1 20 (put x2 15 (put x3 9 (put x4 6 (K)))))) / 2 ^ 10 % 32 = K / 2 ^ 10 % 32 ∧
    fld (put x0 31 (put x1 20 (put x2 15 (put x3 9 (put x4 6 (K)))))) 31 1 = x0 ∧
    fld (put x0 31 (put x1 20 (put x2 15 (put x3 9 (put x4 6 (K)))))) 20 5 = x1 ∧
    fld (put x0 31 (put x1 20 (put x2 15 (put x3 9 (put x4 6 (K)))))) 15 5 = x2 ∧
    fld (put x0 31 (put x1 20 (put x2 15 (put x3 9 (put x4 6 (K)))))) 9 1 = x3 ∧
    fld (put x0 31 (put x1 20 (put x2 15 (put x3 9 (put x4 6 (K)))))) 6 3 = x4 := by
  have z4 : (K) / 2 ^ 6 % 2 ^ 3 = 0 := k4
  have z3 : (put x4 6 (K)) / 2 ^ 9 % 2 ^ 1 = 0 := by rw [put_above z4 (by decide), k3]
  have z2 : (put x3 9 (put x4 6 (K))) / 2 ^ 15 % 2 ^ 5 = 0 := by rw [put_above z3 (by decide), put_above z4 (by decide), k2]
  have z1 : (put x2 15 (put x3 9 (put x4 6 (K)))) / 2 ^ 20 % 2 ^ 5 = 0 := by rw [put_above z2 (by decide), put_above z3 (by decide), put_above z4 (by decide), k1]
  have z0 : (put x1 20 (put x2 15 (put x3 9 (put x4 6 (K))))) / 2 ^ 31 % 2 ^ 1 = 0 := by rw [put_above z1 (by decide), put_above z2 (by decide), put_above z3 (by decide), put_above z4 (by decide), k0]
  exact ⟨put_lt z0 (by decide) (put_lt z1 (by decide) (put_lt z2 (by decide) (put_lt z3 (by decide) (put_lt z4 (by decide) hK)))),
    by rw [put_below 6 (by decide) (by decide), put_above z1 (by decide), put_above z2 (by decide), put_above z3 (by decide), put_above z4 (by decide)],
    by rw [put_below 6 (by decide) (by decide), put_below 6 (by decide) (by decide), put_below 6 (by decide) (by decide), put_below 6 (by decide) (by decide), put_below 6 (by decide) (by decide)],
    by rw [put_below 5 (by decide) (by decide), put_below 5 (by decide) (by decide), put_below 5 (by decide) (by decide), put_above z3 (by decide), put_above z4 (by decide)],
    fld_of (by rw [put_self z0]),
    fld_of (by rw [put_below 5 (by decide) (by decide), put_self z1]),
    fld_of (by rw [put_below 5 (by decide) (by decide), put_below 5 (by decide) (by decide), put_self z2]),
    fld_of (by rw [put_below 1 (by decide) (by decide), put_below 1 (by decide) (by decide), put_below 1 (by decide) (by decide), put_self z3]),
    fld_of (by rw [put_below 3 (by decide) (by decide), put_below 3 (by decide) (by decide), put_below 3 (by decide) (by decide), put_below 3 (by decide) (by decide), put_self z4])⟩

theorem form19 (K : Nat) (x0 : BitVec 1) (x1 : BitVec 1) (x2 : BitVec 5) (x3 : BitVec 5) (x4 : BitVec 1) (x5 : BitVec 3) (k0 : K / 2 ^ 31 % 2 ^ 1 = 0) (k1 : K / 2 ^ 20 % 2 ^ 1 = 0) (k2 : K / 2 ^ 15 % 2 ^ 5 = 0) (k3 : K / 2 ^ 10 % 2 ^ 5 = 0) (k4 : K / 2 ^ 9 % 2 ^ 1 = 0) (k5 : K / 2 ^ 6 % 2 ^ 3 = 0) (hK : K < 2 ^ 32) :
    put x0 31 (put x1 20 (put x2 15 (put x3 10 (put x4 9 (put x5 6 (K)))))) < 2 ^ 32 ∧
    (put x0 31 (put x1 20 (put x2 15 (put x3 10 (put x4 9 (put x5 6 (K))))))) / 2 ^ 25 % 64 = K / 2 ^ 25 % 64 ∧
    (put x0 31 (put x1 20 (put x2 15 (put x3 10 (put x4 9 (put x5 6 (K))))))) / 2 ^ 0 % 64 = K / 2 ^ 0 % 64 ∧
    (put x0 31 (put x1 20 (put x2 15 (put x3 10 (put x4 9 (put x5 6 (K))))))) / 2 ^ 21 % 16 = K / 2 ^ 21 % 16 ∧
    fld (put x0 31 (put x1 20 (put x2 15 (put x3 10 (put x4 9 (put x5 6 (K))))))) 31 1 = x0 ∧
    fld (put x0 31 (put x1 20 (put x2 15 (put x3 10 (put x4 9 (put x5 6 (K))))))) 20 1 = x1 ∧
    fld (put x0 31 (put x1 20 (put x2 15 (put x3 10 (put x4 9 (put x5 6 (K))))))) 15 5 = x2 ∧
    fld (put x0 31 (put x1 20 (put x2 15 (put x3 10 (put x4 9 (put x5 6 (K))))))) 10 5 = x3 ∧
    fld (put x0 31 (put x1 20 (put x2 15 (put x3 10 (put x4 9 (put x5 6 (K))))))) 9 1 = x4 ∧
    fld (put x0 31 (put x1 20 (put x2 15 (put x3 10 (put x4 9 (put x5 6 (K))))))) 6 3 = x5 := by
  have z5 : (K) / 2 ^ 6 % 2 ^ 3 = 0 := k5
  have z4 : (put x5 6 (K)) / 2 ^ 9 % 2 ^ 1 = 0 := by rw [put_above z5 (by decide), k4]
  have z3 : (put x4 9 (put x5 6 (K))) / 2 ^ 10 % 2 ^ 5 = 0 := by rw [put_above z4 (by decide), put_above z5 (by decide), k3]
  have z2 : (put x3 10 (put x4 9 (put x5 6 (K)))) / 2 ^ 15 % 2 ^ 5 = 0 := by rw [put_above z3 (by decide), put_above z4 (by decide), put_above z5 (by decide), k2]
  have z1 : (put x2 15 (put x3 10 (put x4 9 (put x5 6 (K))))) / 2 ^ 20 % 2 ^ 1 = 0 := by rw [put_above z2 (by decide), put_above z3 (by decide), put_above z4 (by decide), put_above z5 (by decide), k1]
  have z0 : (put x1 20 (put x2 15 (put x3 10 (put x4 9 (put x5 6 (K)))))) / 2 ^ 31 % 2 ^ 1 = 0 := by rw [put_above z1 (by decide), put_above z2 (by decide), put_above z3 (by decide), put_above z4 (by decide), put_above z5 (by decide), k0]
  exact ⟨put_lt z0 (by decide) (put_lt z1 (by decide) (put_lt z2 (by decide) (put_lt z3 (by decide) (put_lt z4 (by decide) (put_lt z5 (by decide) hK))))),
    by rw [put_below 6 (by decide) (by decide), put_above z1 (by decide), put_above z2 (by decide), put_above z3 (by decide), put_above z4 (by decide), put_above z5 (by decide)],
    by rw [put_below 6 (by decide) (by decide), put_below 6 (by decide) (by decide), put_below 6 (by decide) (by decide), put_below 6 (by decide) (by decide), put_below 6 (by decide) (by decide), put_below 6 (by decide) (by decide)],
    by rw [put_below 4 (by decide) (by decide), put_above z1 (by decide), put_above z2 (by decide), put_above z3 (by decide), put_above z4 (by decide), put_above z5 (by decide)],
    fld_of (by rw [put_self z0]),
    fld_of (by rw [put_below 1 (by decide) (by decide), put_self z1]),
    fld_of (by rw [put_below 5 (by decide) (by decide), put_below 5 (by decide) (by decide), put_self z2]),
    fld_of (by rw [put_below 5 (by decide) (by decide), put_below 5 (by decide) (by decide), put_below 5 (by decide) (by decide), put_self z3]),
    fld_of (by rw [put_below 1 (by decide) (by decide), put_below 1 (by decide) (by decide), put_below 1 (by decide) (by decide), put_below 1 (by decide) (by decide), put_self z4]),
    fld_of (by rw [put_below 3 (by decide) (by decide), put_below 3 (by decide) (by decide), put_below 3 (by decide) (by decide), put_below 3 (by decide) (by decide), put_below 3 (by decide) (by decide), put_self z5])⟩

theorem form20 (K : Nat) (x0 : BitVec 1) (x1 : BitVec 5) (x2 : BitVec 5) (x3 : BitVec 5) (x4 : BitVec 3) (k0 : K / 2 ^ 31 % 2 ^ 1 = 0) (k1 : K / 2 ^ 20 % 2 ^ 5 = 0) (k2 : K / 2 ^ 15 % 2 ^ 5 = 0) (k3 : K / 2 ^ 10 % 2 ^ 5 = 0) (k4 : K / 2 ^ 6 % 2 ^ 3 = 0) (hK : K < 2 ^ 32) :
    put x0 31 (put x1 20 (put x2 15 (put x3 10 (put x4 6 (K))))) < 2 ^ 32 ∧
    (put x0 31 (put x1 20 (put x2 15 (put x3 10 (put x4 6 (K)))))) / 2 ^ 25 % 64 = K / 2 ^ 25 % 64 ∧
    (put x0 31 (put x1 20 (put x2 15 (put x3 10 (put x4 6 (K)))))) / 2 ^ 0 % 64 = K / 2 ^ 0 % 64 ∧
    (put x0 31 (put x1 20 (put x2 15 (put x3 10 (put x4 6 (K)))))) / 2 ^ 9 % 2 = K / 2 ^ 9 % 2 ∧
    fld (put x0 31 (put x1 20 (put x2 15 (put x3 10 (put x4 6 (K)))))) 31 1 = x0 ∧
    fld (put x0 31 (put x1 20 (put x2 15 (put x3 10 (put x4 6 (K)))))) 20 5 = x1 ∧
    fld (put x0 31 (put x1 20 (put x2 15 (put x3 10 (put x4 6 (K)))))) 15 5 = x2 ∧
    fld (put x0 31 (put x1 20 (put x2 15 (put x3 10 (put x4 6 (K)))))) 10 5 = x3 ∧
    fld (put x0 31 (put x1 20 (put x2 15 (put x3 10 (put x4 6 (K)))))) 6 3 = x4 := by
  have z4 : (K) / 2 ^ 6 % 2 ^ 3 = 0 := k4
  have z3 : (put x4 6 (K)) / 2 ^ 10 % 2 ^ 5 = 0 := by rw [put_above z4 (by decide), k3]
  have z2 : (put x3 10 (put x4 6 (K))) / 2 ^ 15 % 2 ^ 5 = 0 := by rw [put_above z3 (by decide), put_above z4 (by decide), k2]
  have z1 : (put x2 15 (put x3 10 (put x4 6 (K)))) / 2 ^ 20 % 2 ^ 5 = 0 := by rw [put_above z2 (by decide), put_above z3 (by decide), put_above z4 (by decide), k1]
  have z0 : (put x1 20 (put x2 15 (put x3 10 (put x4 6 (K))))) / 2 ^ 31 % 2 ^ 1 = 0 := by rw [put_above z1 (by decide), put_above z2 (by decide), put_above z3 (by decide), put_above z4 (by decide), k0]
  exact ⟨put_lt z0 (by decide) (put_lt z1 (by decide) (put_lt z2 (by decide) (put_lt z3 (by decide) (put_lt z4 (by decide) hK)))),
    by rw [put_below 6 (by decide) (by decide), put_above z1 (by decide), put_above z2 (by decide), put_above z3 (by decide), put_above z4 (by decide)],
    by rw [put_below 6 (by decide) (by decide), put_below 6 (by decide) (by decide), put_below 6 (by decide) (by decide), put_below 6 (by decide) (by decide), put_below 6 (by decide) (by decide)],
    by rw [put_below 1 (by decide) (by decide), put_below 1 (by decide) (by decide), put_below 1 (by decide) (by decide), put_below 1 (by decide) (by decide), put_above z4 (by decide)],
    fld_of (by rw [put_self z0]),
    fld_of (by rw [put_below 5 (by decide) (by decide), put_self z1]),
    fld_of (by rw [put_below 5 (by decide) (by decide), put_below 5 (by decide) (by decide), put_self z2]),
    fld_of (by rw [put_below 5 (by decide) (by decide), put_below 5 (by decide) (by decide), put_below 5 (by decide) (by decide), put_self z3]),
    fld_of (by rw [put_below 3 (by decide) (by decide), put_below 3 (by decide) (by decide), put_below 3 (by decide) (by decide), put_below 3 (by decide) (by decide), put_self z4])⟩

theorem form21 (K : Nat) (x0 : BitVec 1) (x1 : BitVec 5) (x2 : BitVec 5) (x3 : BitVec 5) (x4 : BitVec 1) (x5 : BitVec 3) (x6 : BitVec 3) (k0 : K / 2 ^ 31 % 2 ^ 1 = 0) (k1 : K / 2 ^ 20 % 2 ^ 5 = 0) (k2 : K / 2 ^ 15 % 2 ^ 5 = 0) (k3 : K / 2 ^ 10 % 2 ^ 5 = 0) (k4 : K / 2 ^ 9 % 2 ^ 1 = 0) (k5 : K / 2 ^ 6 % 2 ^ 3 = 0) (k6 : K / 2 ^ 0 % 2 ^ 3 = 0) (hK : K < 2 ^ 32) :
    put x0 31 (put x1 20 (put x2 15 (put x3 10 (put x4 9 (put x5 6 (put x6 0 (K))))))) < 2 ^ 32 ∧
    (put x0 31 (put x1 20 (put x2 15 (put x3 10 (put x4 9 (put x5 6 (put x6 0 (K)))))))) / 2 ^ 25 % 64 = K / 2 ^ 25 % 64 ∧
    (put x0 31 (put x1 20 (put x2 15 (put x3 10 (put x4 9 (put x5 6 (put x6 0 (K)))))))) / 2 ^ 3 % 8 = K / 2 ^ 3 % 8 ∧
    fld (put x0 31 (put x1 20 (put x2 15 (put x3 10 (put x4 9 (put x5 6 (put x6 0 (K)))))))) 31 1 = x0 ∧
    fld (put x0 31 (put x1 20 (put x2 15 (put x3 10 (put x4 9 (put x5 6 (put x6 0 (K)))))))) 20 5 = x1 ∧
    fld (put x0 31 (put x1 20 (put x2 15 (put x3 10 (put x4 9 (put x5 6 (put x6 0 (K)))))))) 15 5 = x2 ∧
    fld (put x0 31 (put x1 20 (put x2 15 (put x3 10 (put x4 9 (put x5 6 (put x6 0 (K)))))))) 10 5 = x3 ∧
    fld (put x0 31 (put x1 20 (put x2 15 (put x3 10 (put x4 9 (put x5 6 (put x6 0 (K)))))))) 9 1 = x4 ∧
    fld (put x0 31 (put x1 20 (put x2 15 (put x3 10 (put x4 9 (put x5 6 (put x6 0 (K)))))))) 6 3 = x5 ∧
    fld (put x0 31 (put x1 20 (put x2 15 (put x3 10 (put x4 9 (put x5 6 (put x6 0 (K)))))))) 0 3 = x6 := by
  have z6 : (K) / 2 ^ 0 % 2 ^ 3 = 0 := k6
  have z5 : (put x6 0 (K)) / 2 ^ 6 % 2 ^ 3 = 0 := by rw [put_above z6 (by decide), k5]
  have z4 : (put x5 6 (put x6 0 (K))) / 2 ^ 9 % 2 ^ 1 = 0 := by rw [put_above z5 (by decide), put_above z6 (by decide), k4]
  have z3 : (put x4 9 (put x5 6 (put x6 0 (K)))) / 2 ^ 10 % 2 ^ 5 = 0 := by rw [put_above z4 (by decide), put_above z5 (by decide), put_above z6 (by decide), k3]
  have z2 : (put x3 10 (put x4 9 (put x5 6 (put x6 0 (K))))) / 2 ^ 15 % 2 ^ 5 = 0 := by rw [put_above z3 (by decide), put_above z4 (by decide), put_above z5 (by decide), put_above z6 (by decide), k2]
  have z1 : (put x2 15 (put x3 10 (put x4 9 (put x5 6 (put x6 0 (K)))))) / 2 ^ 20 % 2 ^ 5 = 0 := by rw [put_above z2 (by decide), put_above z3 (by decide), put_above z4 (by decide), put_above z5 (by decide), put_above z6 (by decide), k1]
  have z0 : (put x1 20 (put x2 15 (put x3 10 (put x4 9 (put x5 6 (put x6 0 (K))))))) / 2 ^ 31 % 2 ^ 1 = 0 := by rw [put_above z1 (by decide), put_above z2 (by decide), put_above z3 (by decide), put_above z4 (by decide), put_above z5 (by decide), put_above z6 (by decide), k0]
  exact ⟨put_lt z0 (by decide) (put_lt z1 (by decide) (put_lt z2 (by decide) (put_lt z3 (by decide) (put_lt z4 (by decide) (put_lt z5 (by decide) (put_lt z6 (by decide) hK)))))),
    by rw [put_below 6 (by decide) (by decide), put_above z1 (by decide), put_above z2 (by decide), put_above z3 (by decide), put_above z4 (by decide), put_above z5 (by decide), put_above z6 (by decide)],
    by rw [put_below 3 (by decide) (by decide), put_below 3 (by decide) (by decide), put_below 3 (by decide) (by decide), put_below 3 (by decide) (by decide), put_below 3 (by decide) (by decide), put_below 3 (by decide) (by decide), put_above z6 (by decide)],
    fld_of (by rw [put_self z0]),
    fld_of (by rw [put_below 5 (by decide) (by decide), put_self z1]),
    fld_of (by rw [put_below 5 (by decide) (by decide), put_below 5 (by decide) (by decide), put_self z2]),
    fld_of (by rw [put_below 5 (by decide) (by decide), put_below 5 (by decide) (by decide), put_below 5 (by decide) (by decide), put_self z3]),
    fld_of (by rw [put_below 1 (by decide) (by decide), put_below 1 (by decide) (by decide), put_below 1 (by decide) (by decide), put_below 1 (by decide) (by decide), put_self z4]),
    fld_of (by rw [put_below 3 (by decide) (by decide), put_below 3 (by decide) (by decide), put_below 3 (by decide) (by decide), put_below 3 (by decide) (by decide), put_below 3 (by decide) (by decide), put_self z5]),
    fld_of (by rw [put_below 3 (by decide) (by decide), put_below 3 (by decide) (by decide), put_below 3 (by decide) (by decide), put_below 3 (by decide) (by decide), put_below 3 (by decide) (by decide), put_below 3 (by decide) (by decide), put_self z6])⟩

theorem form22 (K : Nat) (x0 : BitVec 1) (x1 : BitVec 5) (x2 : BitVec 5) (x3 : BitVec 5) (x4 : BitVec 1) (x5 : BitVec 3) (k0 : K / 2 ^ 31 % 2 ^ 1 = 0) (k1 : K / 2 ^ 20 % 2 ^ 5 = 0) (k2 : K / 2 ^ 15 % 2 ^ 5 = 0) (k3 : K / 2 ^ 10 % 2 ^ 5 = 0) (k4 : K / 2 ^ 9 % 2 ^ 1 = 0) (k5 : K / 2 ^ 6 % 2 ^ 3 = 0) (hK : K < 2 ^ 32) :
    put x0 31 (put x1 20 (put x2 15 (put x3 10 (put x4 9 (put x5 6 (K)))))) < 2 ^ 32 ∧
    (put x0 31 (put x1 20 (put x2 15 (put x3 10 (put x4 9 (put x5 6 (K))))))) / 2 ^ 25 % 64 = K / 2 ^ 25 % 64 ∧
    (put x0 31 (put x1 20 (put x2 15 (put x3 10 (put x4 9 (put x5 6 (K))))))) / 2 ^ 3 % 8 = K / 2 ^ 3 % 8 ∧
    (put x0 31 (put x1 20 (put x2 15 (put x3 10 (put x4 9 (put x5 6 (K))))))) / 2 ^ 0 % 64 = K / 2 ^ 0 % 64 ∧
    fld (put x0 31 (put x1 20 (put x2 15 (put x3 10 (put x4 9 (put x5 6 (K))))))) 31 1 = x0 ∧
    fld (put x0 31 (put x1 20 (put x2 15 (put x3 10 (put x4 9 (put x5 6 (K))))))) 20 5 = x1 ∧
    fld (put x0 31 (put x1 20 (put x2 15 (put x3 10 (put x4 9 (put x5 6 (K))))))) 15 5 = x2 ∧
    fld (put x0 31 (put x1 20 (put x2 15 (put x3 10 (put x4 9 (put x5 6 (K))))))) 10 5 = x3 ∧
    fld (put x0 31 (put x1 20 (put x2 15 (put x3 10 (put x4 9 (put x5 6 (K))))))) 9 1 = x4 ∧
    fld (put x0 31 (put x1 20 (put x2 15 (put x3 10 (put x4 9 (put x5 6 (K))))))) 6 3 = x5 := by
  have z5 : (K) / 2 ^ 6 % 2 ^ 3 = 0 := k5
  have z4 : (put x5 6 (K)) / 2 ^ 9 % 2 ^ 1 = 0 := by rw [put_above z5 (by decide), k4]
  have z3 : (put x4 9 (put x5 6 (K))) / 2 ^ 10 % 2 ^ 5 = 0 := by rw [put_above z4 (by decide), put_above z5 (by decide), k3]
  have z2 : (put x3 10 (put x4 9 (put x5 6 (K)))) / 2 ^ 15 % 2 ^ 5 = 0 := by rw [put_above z3 (by decide), put_above z4 (by decide), put_above z5 (by decide), k2]
  have z1 : (put x2 15 (put x3 10 (put x4 9 (put x5 6 (K))))) / 2 ^ 20 % 2 ^ 5 = 0 := by rw [put_above z2 (by decide), put_above z3 (by decide), put_above z4 (by decide), put_above z5 (by decide), k1]
  have z0 : (put x1 20 (put x2 15 (put x3 10 (put x4 9 (put x5 6 (K)))))) / 2 ^ 31 % 2 ^ 1 = 0 := by rw [put_above z1 (by decide), put_above z2 (by decide), put_above z3 (by decide), put_above z4 (by decide), put_above z5 (by decide), k0]
  exact ⟨put_lt z0 (by decide) (put_lt z1 (by decide) (put_lt z2 (by decide) (put_lt z3 (by decide) (put_lt z4 (by decide) (put_lt z5 (by decide) hK))))),
    by rw [put_below 6 (by decide) (by decide), put_above z1 (by decide), put_above z2 (by decide), put_above z3 (by decide), put_above z4 (by decide), put_above z5 (by decide)],
    by rw [put_below 3 (by decide) (by decide), put_below 3 (by decide) (by decide), put_below 3 (by decide) (by decide), put_below 3 (by decide) (by decide), put_below 3 (by decide) (by decide), put_below 3 (by decide) (by decide)],
    by rw [put_below 6 (by decide) (by decide), put_below 6 (by decide) (by decide), put_below 6 (by decide) (by decide), put_below 6 (by decide) (by decide), put_below 6 (by decide) (by decide), put_below 6 (by decide) (by decide)],
    fld_of (by rw [put_self z0]),
    fld_of (by rw [put_below 5 (by decide) (by decide), put_self z1]),
    fld_of (by rw [put_below 5 (by decide) (by decide), put_below 5 (by decide) (by decide), put_self z2]),
    fld_of (by rw [put_below 5 (by decide) (by decide), put_below 5 (by decide) (by decide), put_below 5 (by decide) (by decide), put_self z3]),
    fld_of (by rw [put_below 1 (by decide) (by decide), put_below 1 (by decide) (by decide), put_below 1 (by decide) (by decide), put_below 1 (by decide) (by decide), put_self z4]),
    fld_of (by rw [put_below 3 (by decide) (by decide), put_below 3 (by decide) (by decide), put_below 3 (by decide) (by decide), put_below 3 (by decide) (by decide), put_below 3 (by decide) (by decide), put_self z5])⟩

theorem form23 (K : Nat) (x0 : BitVec 1) (x1 : BitVec 5) (x2 : BitVec 5) (x3 : BitVec 1) (x4 : BitVec 3) (k0 : K / 2 ^ 31 % 2 ^ 1 = 0) (k1 : K / 2 ^ 20 % 2 ^ 5 = 0) (k2 : K / 2 ^ 15 % 2 ^ 5 = 0) (k3 : K / 2 ^ 9 % 2 ^ 1 = 0) (k4 : K / 2 ^ 6 % 2 ^ 3 = 0) (hK : K < 2 ^ 32) :
    put x0 31 (put x1 20 (put x2 15 (put x3 9 (put x4 6 (K))))) < 2 ^ 32 ∧
    (put x0 31 (put x1 20 (put x2 15 (put x3 9 (put x4 6 (K)))))) / 2 ^ 25 % 64 = K / 2 ^ 25 % 64 ∧
    (put x0 31 (put x1 20 (put x2 15 (put x3 9 (put x4 6 (K)))))) / 2 ^ 3 % 8 = K / 2 ^ 3 % 8 ∧
    (put x0 31 (put x1 20 (put x2 15 (put x3 9 (put x4 6 (K)))))) / 2 ^ 0 % 64 = K / 2 ^ 0 % 64 ∧
    (put x0 31 (put x1 20 (put x2 15 (put x3 9 (put x4 6 (K)))))) / 2 ^ 10 % 32 = K / 2 ^ 10 % 32 ∧
    fld (put x0 31 (put x1 20 (put x2 15 (put x3 9 (put x4 6 (K)))))) 31 1 = x0 ∧
    fld (put x0 31 (put x1 20 (put x2 15 (put x3 9 (put x4 6 (K)))))) 20 5 = x1 ∧
    fld (put x0 31 (put x1 20 (put x2 15 (put x3 9 (put x4 6 (K)))))) 15 5 = x2 ∧
    fld (put x0 31 (put x1 20 (put x2 15 (put x3 9 (put x4 6 (K)))))) 9 1 = x3 ∧
    fld (put x0 31 (put x1 20 (put x2 15 (put x3 9 (put x4 6 (K)))))) 6 3 = x4 := by
  have z4 : (K) / 2 ^ 6 % 2 ^ 3 = 0 := k4
  have z3 : (put x4 6 (K)) / 2 ^ 9 % 2 ^ 1 = 0 := by rw [put_above z4 (by decide), k3]
  have z2 : (put x3 9 (put x4 6 (K))) / 2 ^ 15 % 2 ^ 5 = 0 := by rw [put_above z3 (by decide), put_above z4 (by decide), k2]
  have z1 : (put x2 15 (put x3 9 (put x4 6 (K)))) / 2 ^ 20 % 2 ^ 5 = 0 := by rw [put_above z2 (by decide), put_above z3 (by decide), put_above z4 (by decide), k1]
  have z0 : (put x1 20 (put x2 15 (put x3 9 (put x4 6 (K))))) / 2 ^ 31 % 2 ^ 1 = 0 := by rw [put_above z1 (by decide), put_above z2 (by decide), put_above z3 (by decide), put_above z4 (by decide), k0]
  exact ⟨put_lt z0 (by decide) (put_lt z1 (by decide) (put_lt z2 (by decide) (put_lt z3 (by decide) (put_lt z4 (by decide) hK)))),
    by rw [put_below 6 (by decide) (by decide), put_above z1 (by decide), put_above z2 (by decide), put_above z3 (by decide), put_above z4 (by decide)],
    by rw [put_below 3 (by decide) (by decide), put_below 3 (by decide) (by decide), put_below 3 (by decide) (by decide), put_below 3 (by decide) (by decide), put_below 3 (by decide) (by decide)],
    by rw [put_below 6 (by decide) (by decide), put_below 6 (by decide) (by decide), put_below 6 (by decide) (by decide), put_below 6 (by decide) (by decide), put_below 6 (by decide) (by decide)],
    by rw [put_below 5 (by decide) (by decide), put_below 5 (by decide) (by decide), put_below 5 (by decide) (by decide), put_above z3 (by decide), put_above z4 (by decide)],
    fld_of (by rw [put_self z0]),
    fld_of (by rw [put_below 5 (by decide) (by decide), put_self z1]),
    fld_of (by rw [put_below 5 (by decide) (by decide), put_below 5 (by decide) (by decide), put_self z2]),
    fld_of (by rw [put_below 1 (by decide) (by decide), put_below 1 (by decide) (by decide), put_below 1 (by decide) (by decide), put_self z3]),
    fld_of (by rw [put_below 3 (by decide) (by decide), put_below 3 (by decide) (by decide), put_below 3 (by decide) (by decide), put_below 3 (by decide) (by decide), put_self z4])⟩

theorem form24 (K : Nat) (x0 : BitVec 1) (x1 : BitVec 7) (x2 : BitVec 7) (x3 : BitVec 3) (x4 : BitVec 8) (k0 : K / 2 ^ 31 % 2 ^ 1 = 0) (k1 : K / 2 ^ 18 % 2 ^ 7 = 0) (k2 : K / 2 ^ 11 % 2 ^ 7 = 0) (k3 : K / 2 ^ 8 % 2 ^ 3 = 0) (k4 : K / 2 ^ 0 % 2 ^ 8 = 0) (hK : K < 2 ^ 32) :
    put x0 31 (put x1 18 (put x2 11 (put x3 8 (put x4 0 (K))))) < 2 ^ 32 ∧
    (put x0 31 (put x1 18 (put x2 11 (put x3 8 (put x4 0 (K)))))) / 2 ^ 25 % 64 = K / 2 ^ 25 % 64 ∧
    fld (put x0 31 (put x1 18 (put x2 11 (put x3 8 (put x4 0 (K)))))) 31 1 = x0 ∧
    fld (put x0 31 (put x1 18 (put x2 11 (put x3 8 (put x4 0 (K)))))) 18 7 = x1 ∧
    fld (put x0 31 (put x1 18 (put x2 11 (put x3 8 (put x4 0 (K)))))) 11 7 = x2 ∧
    fld (put x0 31 (put x1 18 (put x2 11 (put x3 8 (put x4 0 (K)))))) 8 3 = x3 ∧
    fld (put x0 31 (put x1 18 (put x2 11 (put x3 8 (put x4 0 (K)))))) 0 8 = x4 := by
  have z4 : (K) / 2 ^ 0 % 2 ^ 8 = 0 := k4
  have z3 : (put x4 0 (K)) / 2 ^ 8 % 2 ^ 3 = 0 := by rw [put_above z4 (by decide), k3]
  have z2 : (put x3 8 (put x4 0 (K))) / 2 ^ 11 % 2 ^ 7 = 0 := by rw [put_above z3 (by decide), put_above z4 (by decide), k2]
  have z1 : (put x2 11 (put x3 8 (put x4 0 (K)))) / 2 ^ 18 % 2 ^ 7 = 0 := by rw [put_above z2 (by decide), put_above z3 (by decide), put_above z4 (by decide), k1]
  have z0 : (put x1 18 (put x2 11 (put x3 8 (put x4 0 (K))))) / 2 ^ 31 % 2 ^ 1 = 0 := by rw [put_above z1 (by decide), put_above z2 (by decide), put_above z3 (by decide), put_above z4 (by decide), k0]
  exact ⟨put_lt z0 (by decide) (put_lt z1 (by decide) (put_lt z2 (by decide) (put_lt z3 (by decide) (put_lt z4 (by decide) hK)))),
    by rw [put_below 6 (by decide) (by decide), put_above z1 (by decide), put_above z2 (by decide), put_above z3 (by decide), put_above z4 (by decide)],
    fld_of (by rw [put_self z0]),
    fld_of (by rw [put_below 7 (by decide) (by decide), put_self z1]),
    fld_of (by rw [put_below 7 (by decide) (by decide), put_below 7 (by decide) (by decide), put_self z2]),
    fld_of (by rw [put_below 3 (by decide) (by decide), put_below 3 (by decide) (by decide), put_below 3 (by decide) (by decide), put_self z3]),
    fld_of (by rw [put_below 8 (by decide) (by decide), put_below 8 (by decide) (by decide), put_below 8 (by decide) (by decide), put_below 8 (by decide) (by decide), put_self z4])⟩

theorem form25 (K : Nat) (x0 : BitVec 1) (x1 : BitVec 5) (x2 : BitVec 7) (x3 : BitVec 1) (x4 : BitVec 2) (k0 : K / 2 ^ 31 % 2 ^ 1 = 0) (k1 : K / 2 ^ 20 % 2 ^ 5 = 0) (k2 : K / 2 ^ 13 % 2 ^ 7 = 0) (k3 : K / 2 ^ 2 % 2 ^ 1 = 0) (k4 : K / 2 ^ 0 % 2 ^ 2 = 0) (hK : K < 2 ^ 32) :
    put x0 31 (put x1 20 (put x2 13 (put x3 2 (put x4 0 (K))))) < 2 ^ 32 ∧
    (put x0 31 (put x1 20 (put x2 13 (put x3 2 (put x4 0 (K)))))) / 2 ^ 25 % 64 = K / 2 ^ 25 % 64 ∧
    (put x0 31 (put x1 20 (put x2 13 (put x3 2 (put x4 0 (K)))))) / 2 ^ 3 % 8 = K / 2 ^ 3 % 8 ∧
    (put x0 31 (put x1 20 (put x2 13 (put x3 2 (put x4 0 (K)))))) / 2 ^ 6 % 128 = K / 2 ^ 6 % 128 ∧
    fld (put x0 31 (put x1 20 (put x2 13 (put x3 2 (put x4 0 (K)))))) 31 1 = x0 ∧
    fld (put x0 31 (put x1 20 (put x2 13 (put x3 2 (put x4 0 (K)))))) 20 5 = x1 ∧
    fld (put x0 31 (put x1 20 (put x2 13 (put x3 2 (put x4 0 (K)))))) 13 7 = x2 ∧
    fld (put x0 31 (put x1 20 (put x2 13 (put x3 2 (put x4 0 (K)))))) 2 1 = x3 ∧
    fld (put x0 31 (put x1 20 (put x2 13 (put x3 2 (put x4 0 (K)))))) 0 2 = x4 := by
  have z4 : (K) / 2 ^ 0 % 2 ^ 2 = 0 := k4
  have z3 : (put x4 0 (K)) / 2 ^ 2 % 2 ^ 1 = 0 := by rw [put_above z4 (by decide), k3]
  have z2 : (put x3 2 (put x4 0 (K))) / 2 ^ 13 % 2 ^ 7 = 0 := by rw [put_above z3 (by decide), put_above z4 (by decide), k2]
  have z1 : (put x2 13 (put x3 2 (put x4 0 (K)))) / 2 ^ 20 % 2 ^ 5 = 0 := by rw [put_above z2 (by decide), put_above z3 (by decide), put_above z4 (by decide), k1]
  have z0 : (put x1 20 (put x2 13 (put x3 2 (put x4 0 (K))))) / 2 ^ 31 % 2 ^ 1 = 0 := by rw [put_above z1 (by decide), put_above z2 (by decide), put_above z3 (by decide), put_above z4 (by decide), k0]
  exact ⟨put_lt z0 (by decide) (put_lt z1 (by decide) (put_lt z2 (by decide) (put_lt z3 (by decide) (put_lt z4 (by decide) hK)))),
    by rw [put_below 6 (by decide) (by decide), put_above z1 (by decide), put_above z2 (by decide), put_above z3 (by decide), put_above z4 (by decide)],
    by rw [put_below 3 (by decide) (by decide), put_below 3 (by decide) (by decide), put_below 3 (by decide) (by decide), put_above z3 (by decide), put_above z4 (by decide)],
    by rw [put_below 7 (by decide) (by decide), put_below 7 (by decide) (by decide), put_below 7 (by decide) (by decide), put_above z3 (by decide), put_above z4 (by decide)],
    fld_of (by rw [put_self z0]),
    fld_of (by rw [put_below 5 (by decide) (by decide), put_self z1]),
    fld_of (by rw [put_below 7 (by decide) (by decide), put_below 7 (by decide) (by decide), put_self z2]),
    fld_of (by rw [put_below 1 (by decide) (by decide), put_below 1 (by decide) (by decide), put_below 1 (by decide) (by decide), put_self z3]),
    fld_of (by rw [put_below 2 (by decide) (by decide), put_below 2 (by decide) (by decide), put_below 2 (by decide) (by decide), put_below 2 (by decide) (by decide), put_self z4])⟩

theorem form26 (K : Nat) (x0 : BitVec 1) (x1 : BitVec 5) (x2 : BitVec 7) (x3 : BitVec 7) (x4 : BitVec 1) (x5 : BitVec 2) (k0 : K / 2 ^ 31 % 2 ^ 1 = 0) (k1 : K / 2 ^ 20 % 2 ^ 5 = 0) (k2 : K / 2 ^ 13 % 2 ^ 7 = 0) (k3 : K / 2 ^ 6 % 2 ^ 7 = 0) (k4 : K / 2 ^ 2 % 2 ^ 1 = 0) (k5 : K / 2 ^ 0 % 2 ^ 2 = 0) (hK : K < 2 ^ 32) :
    put x0 31 (put x1 20 (put x2 13 (put x3 6 (put x4 2 (put x5 0 (K)))))) < 2 ^ 32 ∧
    (put x0 31 (put x1 20 (put x2 13 (put x3 6 (put x4 2 (put x5 0 (K))))))) / 2 ^ 25 % 64 = K / 2 ^ 25 % 64 ∧
    (put x0 31 (put x1 20 (put x2 13 (put x3 6 (put x4 2 (put x5 0 (K))))))) / 2 ^ 3 % 8 = K / 2 ^ 3 % 8 ∧
    fld (put x0 31 (put x1 20 (put x2 13 (put x3 6 (put x4 2 (put x5 0 (K))))))) 31 1 = x0 ∧
    fld (put x0 31 (put x1 20 (put x2 13 (put x3 6 (put x4 2 (put x5 0 (K))))))) 20 5 = x1 ∧
    fld (put x0 31 (put x1 20 (put x2 13 (put x3 6 (put x4 2 (put x5 0 (K))))))) 13 7 = x2 ∧
    fld (put x0 31 (put x1 20 (put x2 13 (put x3 6 (put x4 2 (put x5 0 (K))))))) 6 7 = x3 ∧
    fld (put x0 31 (put x1 20 (put x2 13 (put x3 6 (put x4 2 (put x5 0 (K))))))) 2 1 = x4 ∧
    fld (put x0 31 (put x1 20 (put x2 13 (put x3 6 (put x4 2 (put x5 0 (K))))))) 0 2 = x5 := by
  have z5 : (K) / 2 ^ 0 % 2 ^ 2 = 0 := k5
  have z4 : (put x5 0 (K)) / 2 ^ 2 % 2 ^ 1 = 0 := by rw [put_above z5 (by decide), k4]
  have z3 : (put x4 2 (put x5 0 (K))) / 2 ^ 6 % 2 ^ 7 = 0 := by rw [put_above z4 (by decide), put_above z5 (by decide), k3]
  have z2 : (put x3 6 (put x4 2 (put x5 0 (K)))) / 2 ^ 13 % 2 ^ 7 = 0 := by rw [put_above z3 (by decide), put_above z4 (by decide), put_above z5 (by decide), k2]
  have z1 : (put x2 13 (put x3 6 (put x4 2 (put x5 0 (K))))) / 2 ^ 20 % 2 ^ 5 = 0 := by rw [put_above z2 (by decide), put_above z3 (by decide), put_above z4 (by decide), put_above z5 (by decide), k1]
  have z0 : (put x1 20 (put x2 13 (put x3 6 (put x4 2 (put x5 0 (K)))))) / 2 ^ 31 % 2 ^ 1 = 0 := by rw [put_above z1 (by decide), put_above z2 (by decide), put_above z3 (by decide), put_above z4 (by decide), put_above z5 (by decide), k0]
  exact ⟨put_lt z0 (by decide) (put_lt z1 (by decide) (put_lt z2 (by decide) (put_lt z3 (by decide) (put_lt z4 (by decide) (put_lt z5 (by decide) hK))))),
    by rw [put_below 6 (by decide) (by decide), put_above z1 (by decide), put_above z2 (by decide), put_above z3 (by decide), put_above z4 (by decide), put_above z5 (by decide)],
    by rw [put_below 3 (by decide) (by decide), put_below 3 (by decide) (by decide), put_below 3 (by decide) (by decide), put_below 3 (by decide) (by decide), put_above z4 (by decide), put_above z5 (by decide)],
    fld_of (by rw [put_self z0]),
    fld_of (by rw [put_below 5 (by decide) (by decide), put_self z1]),
    fld_of (by rw [put_below 7 (by decide) (by decide), put_below 7 (by decide) (by decide), put_self z2]),
    fld_of (by rw [put_below 7 (by decide) (by decide), put_below 7 (by decide) (by decide), put_below 7 (by decide) (by decide), put_self z3]),
    fld_of (by rw [put_below 1 (by decide) (by decide), put_below 1 (by decide) (by decide), put_below 1 (by decide) (by decide), put_below 1 (by decide) (by decide), put_self z4]),
    fld_of (by rw [put_below 2 (by decide) (by decide), put_below 2 (by decide) (by decide), put_below 2 (by decide) (by decide), put_below 2 (by decide) (by decide), put_below 2 (by decide) (by decide), put_self z5])⟩

theorem form27 (K : Nat) (x0 : BitVec 1) (x1 : BitVec 5) (x2 : BitVec 7) (x3 : BitVec 5) (x4 : BitVec 1) (x5 : BitVec 2) (k0 : K / 2 ^ 31 % 2 ^ 1 = 0) (k1 : K / 2 ^ 20 % 2 ^ 5 = 0) (k2 : K / 2 ^ 13 % 2 ^ 7 = 0) (k3 : K / 2 ^ 6 % 2 ^ 5 = 0) (k4 : K / 2 ^ 2 % 2 ^ 1 = 0) (k5 : K / 2 ^ 0 % 2 ^ 2 = 0) (hK : K < 2 ^ 32) :
    put x0 31 (put x1 20 (put x2 13 (put x3 6 (put x4 2 (put x5 0 (K)))))) < 2 ^ 32 ∧
    (put x0 31 (put x1 20 (put x2 13 (put x3 6 (put x4 2 (put x5 0 (K))))))) / 2 ^ 25 % 64 = K / 2 ^ 25 % 64 ∧
    (put x0 31 (put x1 20 (put x2 13 (put x3 6 (put x4 2 (put x5 0 (K))))))) / 2 ^ 3 % 8 = K / 2 ^ 3 % 8 ∧
    (put x0 31 (put x1 20 (put x2 13 (put x3 6 (put x4 2 (put x5 0 (K))))))) / 2 ^ 11 % 4 = K / 2 ^ 11 % 4 ∧
    fld (put x0 31 (put x1 20 (put x2 13 (put x3 6 (put x4 2 (put x5 0 (K))))))) 31 1 = x0 ∧
    fld (put x0 31 (put x1 20 (put x2 13 (put x3 6 (put x4 2 (put x5 0 (K))))))) 20 5 = x1 ∧
    fld (put x0 31 (put x1 20 (put x2 13 (put x3 6 (put x4 2 (put x5 0 (K))))))) 13 7 = x2 ∧
    fld (put x0 31 (put x1 20 (put x2 13 (put x3 6 (put x4 2 (put x5 0 (K))))))) 6 5 = x3 ∧
    fld (put x0 31 (put x1 20 (put x2 13 (put x3 6 (put x4 2 (put x5 0 (K))))))) 2 1 = x4 ∧
    fld (put x0 31 (put x1 20 (put x2 13 (put x3 6 (put x4 2 (put x5 0 (K))))))) 0 2 = x5 := by
  have z5 : (K) / 2 ^ 0 % 2 ^ 2 = 0 := k5
  have z4 : (put x5 0 (K)) / 2 ^ 2 % 2 ^ 1 = 0 := by rw [put_above z5 (by decide), k4]
  have z3 : (put x4 2 (put x5 0 (K))) / 2 ^ 6 % 2 ^ 5 = 0 := by rw [put_above z4 (by decide), put_above z5 (by decide), k3]
  have z2 : (put x3 6 (put x4 2 (put x5 0 (K)))) / 2 ^ 13 % 2 ^ 7 = 0 := by rw [put_above z3 (by decide), put_above z4 (by decide), put_above z5 (by decide), k2]
  have z1 : (put x2 13 (put x3 6 (put x4 2 (put x5 0 (K))))) / 2 ^ 20 % 2 ^ 5 = 0 := by rw [put_above z2 (by decide), put_above z3 (by decide), put_above z4 (by decide), put_above z5 (by decide), k1]
  have z0 : (put x1 20 (put x2 13 (put x3 6 (put x4 2 (put x5 0 (K)))))) / 2 ^ 31 % 2 ^ 1 = 0 := by rw [put_above z1 (by decide), put_above z2 (by decide), put_above z3 (by decide), put_above z4 (by decide), put_above z5 (by decide), k0]
  exact ⟨put_lt z0 (by decide) (put_lt z1 (by decide) (put_lt z2 (by decide) (put_lt z3 (by decide) (put_lt z4 (by decide) (put_lt z5 (by decide) hK))))),
    by rw [put_below 6 (by decide) (by decide), put_above z1 (by decide), put_above z2 (by decide), put_above z3 (by decide), put_above z4 (by decide), put_above z5 (by decide)],
    by rw [put_below 3 (by decide) (by decide), put_below 3 (by decide) (by decide), put_below 3 (by decide) (by decide), put_below 3 (by decide) (by decide), put_above z4 (by decide), put_above z5 (by decide)],
    by rw [put_below 2 (by decide) (by decide), put_below 2 (by decide) (by decide), put_below 2 (by decide) (by decide), put_above z3 (by decide), put_above z4 (by decide), put_above z5 (by decide)],
    fld_of (by rw [put_self z0]),
    fld_of (by rw [put_below 5 (by decide) (by decide), put_self z1]),
    fld_of (by rw [put_below 7 (by decide) (by decide), put_below 7 (by decide) (by decide), put_self z2]),
    fld_of (by rw [put_below 5 (by decide) (by decide), put_below 5 (by decide) (by decide), put_below 5 (by decide) (by decide), put_self z3]),
    fld_of (by rw [put_below 1 (by decide) (by decide), put_below 1 (by decide) (by decide), put_below 1 (by decide) (by decide), put_below 1 (by decide) (by decide), put_self z4]),
    fld_of (by rw [put_below 2 (by decide) (by decide), put_below 2 (by decide) (by decide), put_below 2 (by decide) (by decide), put_below 2 (by decide) (by decide), put_below 2 (by decide) (by decide), put_self z5])⟩

theorem form28 (K : Nat) (x0 : BitVec 1) (x1 : BitVec 7) (x2 : BitVec 7) (x3 : BitVec 7) (x4 : BitVec 2) (k0 : K / 2 ^ 31 % 2 ^ 1 = 0) (k1 : K / 2 ^ 18 % 2 ^ 7 = 0) (k2 : K / 2 ^ 11 % 2 ^ 7 = 0) (k3 : K / 2 ^ 4 % 2 ^ 7 = 0) (k4 : K / 2 ^ 2 % 2 ^ 2 = 0) (hK : K < 2 ^ 32) :
    put x0 31 (put x1 18 (put x2 11 (put x3 4 (put x4 2 (K))))) < 2 ^ 32 ∧
    (put x0 31 (put x1 18 (put x2 11 (put x3 4 (put x4 2 (K)))))) / 2 ^ 25 % 64 = K / 2 ^ 25 % 64 ∧
    (put x0 31 (put x1 18 (put x2 11 (put x3 4 (put x4 2 (K)))))) / 2 ^ 0 % 4 = K / 2 ^ 0 % 4 ∧
    fld (put x0 31 (put x1 18 (put x2 11 (put x3 4 (put x4 2 (K)))))) 31 1 = x0 ∧
    fld (put x0 31 (put x1 18 (put x2 11 (put x3 4 (put x4 2 (K)))))) 18 7 = x1 ∧
    fld (put x0 31 (put x1 18 (put x2 11 (put x3 4 (put x4 2 (K)))))) 11 7 = x2 ∧
    fld (put x0 31 (put x1 18 (put x2 11 (put x3 4 (put x4 2 (K)))))) 4 7 = x3 ∧
    fld (put x0 31 (put x1 18 (put x2 11 (put x3 4 (put x4 2 (K)))))) 2 2 = x4 := by
  have z4 : (K) / 2 ^ 2 % 2 ^ 2 = 0 := k4
  have z3 : (put x4 2 (K)) / 2 ^ 4 % 2 ^ 7 = 0 := by rw [put_above z4 (by decide), k3]
  have z2 : (put x3 4 (put x4 2 (K))) / 2 ^ 11 % 2 ^ 7 = 0 := by rw [put_above z3 (by decide), put_above z4 (by decide), k2]
  have z1 : (put x2 11 (put x3 4 (put x4 2 (K)))) / 2 ^ 18 % 2 ^ 7 = 0 := by rw [put_above z2 (by decide), put_above z3 (by decide), put_above z4 (by decide), k1]
  have z0 : (put x1 18 (put x2 11 (put x3 4 (put x4 2 (K))))) / 2 ^ 31 % 2 ^ 1 = 0 := by rw [put_above z1 (by decide), put_above z2 (by decide), put_above z3 (by decide), put_above z4 (by decide), k0]
  exact ⟨put_lt z0 (by decide) (put_lt z1 (by decide) (put_lt z2 (by decide) (put_lt z3 (by decide) (put_lt z4 (by decide) hK)))),
    by rw [put_below 6 (by decide) (by decide), put_above z1 (by decide), put_above z2 (by decide), put_above z3 (by decide), put_above z4 (by decide)],
    by rw [put_below 2 (by decide) (by decide), put_below 2 (by decide) (by decide), put_below 2 (by decide) (by decide), put_below 2 (by decide) (by decide), put_below 2 (by decide) (by decide)],
    fld_of (by rw [put_self z0]),
    fld_of (by rw [put_below 7 (by decide) (by decide), put_self z1]),
    fld_of (by rw [put_below 7 (by decide) (by decide), put_below 7 (by decide) (by decide), put_self z2]),
    fld_of (by rw [put_below 7 (by decide) (by decide), put_below 7 (by decide) (by decide), put_below 7 (by decide) (by decide), put_self z3]),
    fld_of (by rw [put_below 2 (by decide) (by decide), put_below 2 (by decide) (by decide), put_below 2 (by decide) (by decide), put_below 2 (by decide) (by decide), put_self z4])⟩

theorem form29 (K : Nat) (x0 : BitVec 1) (x1 : BitVec 1) (x2 : BitVec 3) (x3 : BitVec 7) (x4 : BitVec 7) (k0 : K / 2 ^ 31 % 2 ^ 1 = 0) (k1 : K / 2 ^ 21 % 2 ^ 1 = 0) (k2 : K / 2 ^ 18 % 2 ^ 3 = 0) (k3 : K / 2 ^ 11 % 2 ^ 7 = 0) (k4 : K / 2 ^ 4 % 2 ^ 7 = 0) (hK : K < 2 ^ 32) :
    put x0 31 (put x1 21 (put x2 18 (put x3 11 (put x4 4 (K))))) < 2 ^ 32 ∧
    (put x0 31 (put x1 21 (put x2 18 (put x3 11 (put x4 4 (K)))))) / 2 ^ 25 % 64 = K / 2 ^ 25 % 64 ∧
    (put x0 31 (put x1 21 (put x2 18 (put x3 11 (put x4 4 (K)))))) / 2 ^ 0 % 16 = K / 2 ^ 0 % 16 ∧
    (put x0 31 (put x1 21 (put x2 18 (put x3 11 (put x4 4 (K)))))) / 2 ^ 22 % 8 = K / 2 ^ 22 % 8 ∧
    fld (put x0 31 (put x1 21 (put x2 18 (put x3 11 (put x4 4 (K)))))) 31 1 = x0 ∧
    fld (put x0 31 (put x1 21 (put x2 18 (put x3 11 (put x4 4 (K)))))) 21 1 = x1 ∧
    fld (put x0 31 (put x1 21 (put x2 18 (put x3 11 (put x4 4 (K)))))) 18 3 = x2 ∧
    fld (put x0 31 (put x1 21 (put x2 18 (put x3 11 (put x4 4 (K)))))) 11 7 = x3 ∧
    fld (put x0 31 (put x1 21 (put x2 18 (put x3 11 (put x4 4 (K)))))) 4 7 = x4 := by
  have z4 : (K) / 2 ^ 4 % 2 ^ 7 = 0 := k4
  have z3 : (put x4 4 (K)) / 2 ^ 11 % 2 ^ 7 = 0 := by rw [put_above z4 (by decide), k3]
  have z2 : (put x3 11 (put x4 4 (K))) / 2 ^ 18 % 2 ^ 3 = 0 := by rw [put_above z3 (by decide), put_above z4 (by decide), k2]
  have z1 : (put x2 18 (put x3 11 (put x4 4 (K)))) / 2 ^ 21 % 2 ^ 1 = 0 := by rw [put_above z2 (by decide), put_above z3 (by decide), put_above z4 (by decide), k1]
  have z0 : (put x1 21 (put x2 18 (put x3 11 (put x4 4 (K))))) / 2 ^ 31 % 2 ^ 1 = 0 := by rw [put_above z1 (by decide), put_above z2 (by decide), put_above z3 (by decide), put_above z4 (by decide), k0]
  exact ⟨put_lt z0 (by decide) (put_lt z1 (by decide) (put_lt z2 (by decide) (put_lt z3 (by decide) (put_lt z4 (by decide) hK)))),
    by rw [put_below 6 (by decide) (by decide), put_above z1 (by decide), put_above z2 (by decide), put_above z3 (by decide), put_above z4 (by decide)],
    by rw [put_below 4 (by decide) (by decide), put_below 4 (by decide) (by decide), put_below 4 (by decide) (by decide), put_below 4 (by decide) (by decide), put_below 4 (by decide) (by decide)],
    by rw [put_below 3 (by decide) (by decide), put_above z1 (by decide), put_above z2 (by decide), put_above z3 (by decide), put_above z4 (by decide)],
    fld_of (by rw [put_self z0]),
    fld_of (by rw [put_below 1 (by decide) (by decide), put_self z1]),
    fld_of (by rw [put_below 3 (by decide) (by decide), put_below 3 (by decide) (by decide), put_self z2]),
    fld_of (by rw [put_below 7 (by decide) (by decide), put_below 7 (by decide) (by decide), put_below 7 (by decide) (by decide), put_self z3]),
    fld_of (by rw [put_below 7 (by decide) (by decide), put_below 7 (by decide) (by decide), put_below 7 (by decide) (by decide), put_below 7 (by decide) (by decide), put_self z4])⟩

theorem form30 (K : Nat) (x0 : BitVec 1) (x1 : BitVec 5) (x2 : BitVec 5) (x3 : BitVec 5) (x4 : BitVec 1) (x5 : BitVec 3) (x6 : BitVec 2) (k0 : K / 2 ^ 31 % 2 ^ 1 = 0) (k1 : K / 2 ^ 20 % 2 ^ 5 = 0) (k2 : K / 2 ^ 15 % 2 ^ 5 = 0) (k3 : K / 2 ^ 10 % 2 ^ 5 = 0) (k4 : K / 2 ^ 9 % 2 ^ 1 = 0) (k5 : K / 2 ^ 6 % 2 ^ 3 = 0) (k6 : K / 2 ^ 0 % 2 ^ 2 = 0) (hK : K < 2 ^ 32) :
    put x0 31 (put x1 20 (put x2 15 (put x3 10 (put x4 9 (put x5 6 (put x6 0 (K))))))) < 2 ^ 32 ∧
    (put x0 31 (put x1 20 (put x2 15 (put x3 10 (put x4 9 (put x5 6 (put x6 0 (K)))))))) / 2 ^ 25 % 64 = K / 2 ^ 25 % 64 ∧
    (put x0 31 (put x1 20 (put x2 15 (put x3 10 (put x4 9 (put x5 6 (put x6 0 (K)))))))) / 2 ^ 2 % 16 = K / 2 ^ 2 % 16 ∧
    fld (put x0 31 (put x1 20 (put x2 15 (put x3 10 (put x4 9 (put x5 6 (put x6 0 (K)))))))) 31 1 = x0 ∧
    fld (put x0 31 (put x1 20 (put x2 15 (put x3 10 (put x4 9 (put x5 6 (put x6 0 (K)))))))) 20 5 = x1 ∧
    fld (put x0 31 (put x1 20 (put x2 15 (put x3 10 (put x4 9 (put x5 6 (put x6 0 (K)))))))) 15 5 = x2 ∧
    fld (put x0 31 (put x1 20 (put x2 15 (put x3 10 (put x4 9 (put x5 6 (put x6 0 (K)))))))) 10 5 = x3 ∧
    fld (put x0 31 (put x1 20 (put x2 15 (put x3 10 (put x4 9 (put x5 6 (put x6 0 (K)))))))) 9 1 = x4 ∧
    fld (put x0 31 (put x1 20 (put x2 15 (put x3 10 (put x4 9 (put x5 6 (put x6 0 (K)))))))) 6 3 = x5 ∧
    fld (put x0 31 (put x1 20 (put x2 15 (put x3 10 (put x4 9 (put x5 6 (put x6 0 (K)))))))) 0 2 = x6 := by
  have z6 : (K) / 2 ^ 0 % 2 ^ 2 = 0 := k6
  have z5 : (put x6 0 (K)) / 2 ^ 6 % 2 ^ 3 = 0 := by rw [put_above z6 (by decide), k5]
  have z4 : (put x5 6 (put x6 0 (K))) / 2 ^ 9 % 2 ^ 1 = 0 := by rw [put_above z5 (by decide), put_above z6 (by decide), k4]
  have z3 : (put x4 9 (put x5 6 (put x6 0 (K)))) / 2 ^ 10 % 2 ^ 5 = 0 := by rw [put_above z4 (by decide), put_above z5 (by decide), put_above z6 (by decide), k3]
  have z2 : (put x3 10 (put x4 9 (put x5 6 (put x6 0 (K))))) / 2 ^ 15 % 2 ^ 5 = 0 := by rw [put_above z3 (by decide), put_above z4 (by decide), put_above z5 (by decide), put_above z6 (by decide), k2]
  have z1 : (put x2 15 (put x3 10 (put x4 9 (put x5 6 (put x6 0 (K)))))) / 2 ^ 20 % 2 ^ 5 = 0 := by rw [put_above z2 (by decide), put_above z3 (by decide), put_above z4 (by decide), put_above z5 (by decide), put_above z6 (by decide), k1]
  have z0 : (put x1 20 (put x2 15 (put x3 10 (put x4 9 (put x5 6 (put x6 0 (K))))))) / 2 ^ 31 % 2 ^ 1 = 0 := by rw [put_above z1 (by decide), put_above z2 (by decide), put_above z3 (by decide), put_above z4 (by decide), put_above z5 (by decide), put_above z6 (by decide), k0]
  exact ⟨put_lt z0 (by decide) (put_lt z1 (by decide) (put_lt z2 (by decide) (put_lt z3 (by decide) (put_lt z4 (by decide) (put_lt z5 (by decide) (put_lt z6 (by decide) hK)))))),
    by rw [put_below 6 (by decide) (by decide), put_above z1 (by decide), put_above z2 (by decide), put_above z3 (by decide), put_above z4 (by decide), put_above z5 (by decide), put_above z6 (by decide)],
    by rw [put_below 4 (by decide) (by decide), put_below 4 (by decide) (by decide), put_below 4 (by decide) (by decide), put_below 4 (by decide) (by decide), put_below 4 (by decide) (by decide), put_below 4 (by decide) (by decide), put_above z6 (by decide)],
    fld_of (by rw [put_self z0]),
    fld_of (by rw [put_below 5 (by decide) (by decide), put_self z1]),
    fld_of (by rw [put_below 5 (by decide) (by decide), put_below 5 (by decide) (by decide), put_self z2]),
    fld_of (by rw [put_below 5 (by decide) (by decide), put_below 5 (by decide) (by decide), put_below 5 (by decide) (by decide), put_self z3]),
    fld_of (by rw [put_below 1 (by decide) (by decide), put_below 1 (by decide) (by decide), put_below 1 (by decide) (by decide), put_below 1 (by decide) (by decide), put_self z4]),
    fld_of (by rw [put_below 3 (by decide) (by decide), put_below 3 (by decide) (by decide), put_below 3 (by decide) (by decide), put_below 3 (by decide) (by decide), put_below 3 (by decide) (by decide), put_self z5]),
    fld_of (by rw [put_below 2 (by decide) (by decide), put_below 2 (by decide) (by decide), put_below 2 (by decide) (by decide), put_below 2 (by decide) (by decide), put_below 2 (by decide) (by decide), put_below 2 (by decide) (by decide), put_self z6])⟩

theorem form31 (K : Nat) (x0 : BitVec 1) (x1 : BitVec 3) (k0 : K / 2 ^ 31 % 2 ^ 1 = 0) (k1 : K / 2 ^ 0 % 2 ^ 3 = 0) (hK : K < 2 ^ 32) :
    put x0 31 (put x1 0 (K)) < 2 ^ 32 ∧
    (put x0 31 (put x1 0 (K))) / 2 ^ 25 % 64 = K / 2 ^ 25 % 64 ∧
    (put x0 31 (put x1 0 (K))) / 2 ^ 6 % 32 = K / 2 ^ 6 % 32 ∧
    (put x0 31 (put x1 0 (K))) / 2 ^ 3 % 8 = K / 2 ^ 3 % 8 ∧
    (put x0 31 (put x1 0 (K))) / 2 ^ 11 % 16384 = K / 2 ^ 11 % 16384 ∧
    fld (put x0 31 (put x1 0 (K))) 31 1 = x0 ∧
    fld (put x0 31 (put x1 0 (K))) 0 3 = x1 := by
  have z1 : (K) / 2 ^ 0 % 2 ^ 3 = 0 := k1
  have z0 : (put x1 0 (K)) / 2 ^ 31 % 2 ^ 1 = 0 := by rw [put_above z1 (by decide), k0]
  exact ⟨put_lt z0 (by decide) (put_lt z1 (by decide) hK),
    by rw [put_below 6 (by decide) (by decide), put_above z1 (by decide)],
    by rw [put_below 5 (by decide) (by decide), put_above z1 (by decide)],
    by rw [put_below 3 (by decide) (by decide), put_above z1 (by decide)],
    by rw [put_below 14 (by decide) (by decide), put_above z1 (by decide)],
    fld_of (by rw [put_self z0]),
    fld_of (by rw [put_below 3 (by decide) (by decide), put_self z1])⟩

theorem form32 (K : Nat) (x0 : BitVec 1) (x1 : BitVec 7) (x2 : BitVec 7) (k0 : K / 2 ^ 31 % 2 ^ 1 = 0) (k1 : K / 2 ^ 18 % 2 ^ 7 = 0) (k2 : K / 2 ^ 11 % 2 ^ 7 = 0) (hK : K < 2 ^ 32) :
    put x0 31 (put x1 18 (put x2 11 (K))) < 2 ^ 32 ∧
    (put x0 31 (put x1 18 (put x2 11 (K)))) / 2 ^ 25 % 64 = K / 2 ^ 25 % 64 ∧
    (put x0 31 (put x1 18 (put x2 11 (K)))) / 2 ^ 6 % 32 = K / 2 ^ 6 % 32 ∧
    (put x0 31 (put x1 18 (put x2 11 (K)))) / 2 ^ 0 % 64 = K / 2 ^ 0 % 64 ∧
    fld (put x0 31 (put x1 18 (put x2 11 (K)))) 31 1 = x0 ∧
    fld (put x0 31 (put x1 18 (put x2 11 (K)))) 18 7 = x1 ∧
    fld (put x0 31 (put x1 18 (put x2 11 (K)))) 11 7 = x2 := by
  have z2 : (K) / 2 ^ 11 % 2 ^ 7 = 0 := k2
  have z1 : (put x2 11 (K)) / 2 ^ 18 % 2 ^ 7 = 0 := by rw [put_above z2 (by decide), k1]
  have z0 : (put x1 18 (put x2 11 (K))) / 2 ^ 31 % 2 ^ 1 = 0 := by rw [put_above z1 (by decide), put_above z2 (by decide), k0]
  exact ⟨put_lt z0 (by decide) (put_lt z1 (by decide) (put_lt z2 (by decide) hK)),
    by rw [put_below 6 (by decide) (by decide), put_above z1 (by decide), put_above z2 (by decide)],
    by rw [put_below 5 (by decide) (by decide), put_below 5 (by decide) (by decide), put_below 5 (by decide) (by decide)],
    by rw [put_below 6 (by decide) (by decide), put_below 6 (by decide) (by decide), put_below 6 (by decide) (by decide)],
    fld_of (by rw [put_self z0]),
    fld_of (by rw [put_below 7 (by decide) (by decide), put_self z1]),
    fld_of (by rw [put_below 7 (by decide) (by decide), put_below 7 (by decide) (by decide), put_self z2])⟩

theorem form33 (K : Nat) (x0 : BitVec 1) (x1 : BitVec 7) (k0 : K / 2 ^ 31 % 2 ^ 1 = 0) (k1 : K / 2 ^ 11 % 2 ^ 7 = 0) (hK : K < 2 ^ 32) :
    put x0 31 (put x1 11 (K)) < 2 ^ 32 ∧
    (put x0 31 (put x1 11 (K))) / 2 ^ 25 % 64 = K / 2 ^ 25 % 64 ∧
    (put x0 31 (put x1 11 (K))) / 2 ^ 6 % 32 = K / 2 ^ 6 % 32 ∧
    (put x0 31 (put x1 11 (K))) / 2 ^ 0 % 64 = K / 2 ^ 0 % 64 ∧
    (put x0 31 (put x1 11 (K))) / 2 ^ 18 % 128 = K / 2 ^ 18 % 128 ∧
    fld (put x0 31 (put x1 11 (K))) 31 1 = x0 ∧
    fld (put x0 31 (put x1 11 (K))) 11 7 = x1 := by
  have z1 : (K) / 2 ^ 11 % 2 ^ 7 = 0 := k1
  have z0 : (put x1 11 (K)) / 2 ^ 31 % 2 ^ 1 = 0 := by rw [put_above z1 (by decide), k0]
  exact ⟨put_lt z0 (by decide) (put_lt z1 (by decide) hK),
    by rw [put_below 6 (by decide) (by decide), put_above z1 (by decide)],
    by rw [put_below 5 (by decide) (by decide), put_below 5 (by decide) (by decide)],
    by rw [put_below 6 (by decide) (by decide), put_below 6 (by decide) (by decide)],
    by rw [put_below 7 (by decide) (by decide), put_above z1 (by decide)],
    fld_of (by rw [put_self z0]),
    fld_of (by rw [put_below 7 (by decide) (by decide), put_self z1])⟩

theorem form34 (K : Nat) (x0 : BitVec 1) (x1 : BitVec 7) (x2 : BitVec 7) (x3 : BitVec 5) (k0 : K / 2 ^ 31 % 2 ^ 1 = 0) (k1 : K / 2 ^ 18 % 2 ^ 7 = 0) (k2 : K / 2 ^ 11 % 2 ^ 7 = 0) (k3 : K / 2 ^ 0 % 2 ^ 5 = 0) (hK : K < 2 ^ 32) :
    put x0 31 (put x1 18 (put x2 11 (put x3 0 (K)))) < 2 ^ 32 ∧
    (put x0 31 (put x1 18 (put x2 11 (put x3 0 (K))))) / 2 ^ 25 % 64 = K / 2 ^ 25 % 64 ∧
    (put x0 31 (put x1 18 (put x2 11 (put x3 0 (K))))) / 2 ^ 6 % 32 = K / 2 ^ 6 % 32 ∧
    (put x0 31 (put x1 18 (put x2 11 (put x3 0 (K))))) / 2 ^ 5 % 2 = K / 2 ^ 5 % 2 ∧
    fld (put x0 31 (put x1 18 (put x2 11 (put x3 0 (K))))) 31 1 = x0 ∧
    fld (put x0 31 (put x1 18 (put x2 11 (put x3 0 (K))))) 18 7 = x1 ∧
    fld (put x0 31 (put x1 18 (put x2 11 (put x3 0 (K))))) 11 7 = x2 ∧
    fld (put x0 31 (put x1 18 (put x2 11 (put x3 0 (K))))) 0 5 = x3 := by
  have z3 : (K) / 2 ^ 0 % 2 ^ 5 = 0 := k3
  have z2 : (put x3 0 (K)) / 2 ^ 11 % 2 ^ 7 = 0 := by rw [put_above z3 (by decide), k2]
  have z1 : (put x2 11 (put x3 0 (K))) / 2 ^ 18 % 2 ^ 7 = 0 := by rw [put_above z2 (by decide), put_above z3 (by decide), k1]
  have z0 : (put x1 18 (put x2 11 (put x3 0 (K)))) / 2 ^ 31 % 2 ^ 1 = 0 := by rw [put_above z1 (by decide), put_above z2 (by decide), put_above z3 (by decide), k0]
  exact ⟨put_lt z0 (by decide) (put_lt z1 (by decide) (put_lt z2 (by decide) (put_lt z3 (by decide) hK))),
    by rw [put_below 6 (by decide) (by decide), put_above z1 (by decide), put_above z2 (by decide), put_above z3 (by decide)],
    by rw [put_below 5 (by decide) (by decide), put_below 5 (by decide) (by decide), put_below 5 (by decide) (by decide), put_above z3 (by decide)],
    by rw [put_below 1 (by decide) (by decide), put_below 1 (by decide) (by decide), put_below 1 (by decide) (by decide), put_above z3 (by decide)],
    fld_of (by rw [put_self z0]),
    fld_of (by rw [put_below 7 (by decide) (by decide), put_self z1]),
    fld_of (by rw [put_below 7 (by decide) (by decide), put_below 7 (by decide) (by decide), put_self z2]),
    fld_of (by rw [put_below 5 (by decide) (by decide), put_below 5 (by decide) (by decide), put_below 5 (by decide) (by decide), put_self z3])⟩

theorem form35 (K : Nat) (x0 : BitVec 1) (x1 : BitVec 7) (x2 : BitVec 3) (k0 : K / 2 ^ 31 % 2 ^ 1 = 0) (k1 : K / 2 ^ 18 % 2 ^ 7 = 0) (k2 : K / 2 ^ 0 % 2 ^ 3 = 0) (hK : K < 2 ^ 32) :
    put x0 31 (put x1 18 (put x2 0 (K))) < 2 ^ 32 ∧
    (put x0 31 (put x1 18 (put x2 0 (K)))) / 2 ^ 25 % 64 = K / 2 ^ 25 % 64 ∧
    (put x0 31 (put x1 18 (put x2 0 (K)))) / 2 ^ 6 % 32 = K / 2 ^ 6 % 32 ∧
    (put x0 31 (put x1 18 (put x2 0 (K)))) / 2 ^ 3 % 8 = K / 2 ^ 3 % 8 ∧
    (put x0 31 (put x1 18 (put x2 0 (K)))) / 2 ^ 11 % 128 = K / 2 ^ 11 % 128 ∧
    fld (put x0 31 (put x1 18 (put x2 0 (K)))) 31 1 = x0 ∧
    fld (put x0 31 (put x1 18 (put x2 0 (K)))) 18 7 = x1 ∧
    fld (put x0 31 (put x1 18 (put x2 0 (K)))) 0 3 = x2 := by
  have z2 : (K) / 2 ^ 0 % 2 ^ 3 = 0 := k2
  have z1 : (put x2 0 (K)) / 2 ^ 18 % 2 ^ 7 = 0 := by rw [put_above z2 (by decide), k1]
  have z0 : (put x1 18 (put x2 0 (K))) / 2 ^ 31 % 2 ^ 1 = 0 := by rw [put_above z1 (by decide), put_above z2 (by decide), k0]
  exact ⟨put_lt z0 (by decide) (put_lt z1 (by decide) (put_lt z2 (by decide) hK)),
    by rw [put_below 6 (by decide) (by decide), put_above z1 (by decide), put_above z2 (by decide)],
    by rw [put_below 5 (by decide) (by decide), put_below 5 (by decide) (by decide), put_above z2 (by decide)],
    by rw [put_below 3 (by decide) (by decide), put_below 3 (by decide) (by decide), put_above z2 (by decide)],
    by rw [put_below 7 (by decide) (by decide), put_below 7 (by decide) (by decide), put_above z2 (by decide)],
    fld_of (by rw [put_self z0]),
    fld_of (by rw [put_below 7 (by decide) (by decide), put_self z1]),
    fld_of (by rw [put_below 3 (by decide) (by decide), put_below 3 (by decide) (by decide), put_self z2])⟩

theorem form36 (K : Nat) (x0 : BitVec 1) (x1 : BitVec 3) (x2 : BitVec 7) (k0 : K / 2 ^ 31 % 2 ^ 1 = 0) (k1 : K / 2 ^ 18 % 2 ^ 3 = 0) (k2 : K / 2 ^ 11 % 2 ^ 7 = 0) (hK : K < 2 ^ 32) :
    put x0 31 (put x1 18 (put x2 11 (K))) < 2 ^ 32 ∧
    (put x0 31 (put x1 18 (put x2 11 (K)))) / 2 ^ 25 % 64 = K / 2 ^ 25 % 64 ∧
    (put x0 31 (put x1 18 (put x2 11 (K)))) / 2 ^ 6 % 32 = K / 2 ^ 6 % 32 ∧
    (put x0 31 (put x1 18 (put x2 11 (K)))) / 2 ^ 0 % 64 = K / 2 ^ 0 % 64 ∧
    (put x0 31 (put x1 18 (put x2 11 (K)))) / 2 ^ 21 % 16 = K / 2 ^ 21 % 16 ∧
    fld (put x0 31 (put x1 18 (put x2 11 (K)))) 31 1 = x0 ∧
    fld (put x0 31 (put x1 18 (put x2 11 (K)))) 18 3 = x1 ∧
    fld (put x0 31 (put x1 18 (put x2 11 (K)))) 11 7 = x2 := by
  have z2 : (K) / 2 ^ 11 % 2 ^ 7 = 0 := k2
  have z1 : (put x2 11 (K)) / 2 ^ 18 % 2 ^ 3 = 0 := by rw [put_above z2 (by decide), k1]
  have z0 : (put x1 18 (put x2 11 (K))) / 2 ^ 31 % 2 ^ 1 = 0 := by rw [put_above z1 (by decide), put_above z2 (by decide), k0]
  exact ⟨put_lt z0 (by decide) (put_lt z1 (by decide) (put_lt z2 (by decide) hK)),
    by rw [put_below 6 (by decide) (by decide), put_above z1 (by decide), put_above z2 (by decide)],
    by rw [put_below 5 (by decide) (by decide), put_below 5 (by decide) (by decide), put_below 5 (by decide) (by decide)],
    by rw [put_below 6 (by decide) (by decide), put_below 6 (by decide) (by decide), put_below 6 (by decide) (by decide)],
    by rw [put_below 4 (by decide) (by decide), put_above z1 (by decide), put_above z2 (by decide)],
    fld_of (by rw [put_self z0]),
    fld_of (by rw [put_below 3 (by decide) (by decide), put_self z1]),
    fld_of (by rw [put_below 7 (by decide) (by decide), put_below 7 (by decide) (by decide), put_self z2])⟩

theorem form37 (K : Nat) (x0 : BitVec 1) (x1 : BitVec 7) (x2 : BitVec 3) (k0 : K / 2 ^ 31 % 2 ^ 1 = 0) (k1 : K / 2 ^ 18 % 2 ^ 7 = 0) (k2 : K / 2 ^ 11 % 2 ^ 3 = 0) (hK : K < 2 ^ 32) :
    put x0 31 (put x1 18 (put x2 11 (K))) < 2 ^ 32 ∧
    (put x0 31 (put x1 18 (put x2 11 (K)))) / 2 ^ 25 % 64 = K / 2 ^ 25 % 64 ∧
    (put x0 31 (put x1 18 (put x2 11 (K)))) / 2 ^ 6 % 32 = K / 2 ^ 6 % 32 ∧
    (put x0 31 (put x1 18 (put x2 11 (K)))) / 2 ^ 0 % 64 = K / 2 ^ 0 % 64 ∧
    (put x0 31 (put x1 18 (put x2 11 (K)))) / 2 ^ 14 % 16 = K / 2 ^ 14 % 16 ∧
    fld (put x0 31 (put x1 18 (put x2 11 (K)))) 31 1 = x0 ∧
    fld (put x0 31 (put x1 18 (put x2 11 (K)))) 18 7 = x1 ∧
    fld (put x0 31 (put x1 18 (put x2 11 (K)))) 11 3 = x2 := by
  have z2 : (K) / 2 ^ 11 % 2 ^ 3 = 0 := k2
  have z1 : (put x2 11 (K)) / 2 ^ 18 % 2 ^ 7 = 0 := by rw [put_above z2 (by decide), k1]
  have z0 : (put x1 18 (put x2 11 (K))) / 2 ^ 31 % 2 ^ 1 = 0 := by rw [put_above z1 (by decide), put_above z2 (by decide), k0]
  exact ⟨put_lt z0 (by decide) (put_lt z1 (by decide) (put_lt z2 (by decide) hK)),
    by rw [put_below 6 (by decide) (by decide), put_above z1 (by decide), put_above z2 (by decide)],
    by rw [put_below 5 (by decide) (by decide), put_below 5 (by decide) (by decide), put_below 5 (by decide) (by decide)],
    by rw [put_below 6 (by decide) (by decide), put_below 6 (by decide) (by decide), put_below 6 (by decide) (by decide)],
    by rw [put_below 4 (by decide) (by decide), put_below 4 (by decide) (by decide), put_above z2 (by decide)],
    fld_of (by rw [put_self z0]),
    fld_of (by rw [put_below 7 (by decide) (by decide), put_self z1]),
    fld_of (by rw [put_below 3 (by decide) (by decide), put_below 3 (by decide) (by decide), put_self z2])⟩

theorem form38 (K : Nat) (x0 : BitVec 1) (x1 : BitVec 5) (x2 : BitVec 3) (k0 : K / 2 ^ 31 % 2 ^ 1 = 0) (k1 : K / 2 ^ 18 % 2 ^ 5 = 0) (k2 : K / 2 ^ 11 % 2 ^ 3 = 0) (hK : K < 2 ^ 32) :
    put x0 31 (put x1 18 (put x2 11 (K))) < 2 ^ 32 ∧
    (put x0 31 (put x1 18 (put x2 11 (K)))) / 2 ^ 25 % 64 = K / 2 ^ 25 % 64 ∧
    (put x0 31 (put x1 18 (put x2 11 (K)))) / 2 ^ 6 % 32 = K / 2 ^ 6 % 32 ∧
    (put x0 31 (put x1 18 (put x2 11 (K)))) / 2 ^ 0 % 64 = K / 2 ^ 0 % 64 ∧
    (put x0 31 (put x1 18 (put x2 11 (K)))) / 2 ^ 14 % 16 = K / 2 ^ 14 % 16 ∧
    (put x0 31 (put x1 18 (put x2 11 (K)))) / 2 ^ 23 % 4 = K / 2 ^ 23 % 4 ∧
    fld (put x0 31 (put x1 18 (put x2 11 (K)))) 31 1 = x0 ∧
    fld (put x0 31 (put x1 18 (put x2 11 (K)))) 18 5 = x1 ∧
    fld (put x0 31 (put x1 18 (put x2 11 (K)))) 11 3 = x2 := by
  have z2 : (K) / 2 ^ 11 % 2 ^ 3 = 0 := k2
  have z1 : (put x2 11 (K)) / 2 ^ 18 % 2 ^ 5 = 0 := by rw [put_above z2 (by decide), k1]
  have z0 : (put x1 18 (put x2 11 (K))) / 2 ^ 31 % 2 ^ 1 = 0 := by rw [put_above z1 (by decide), put_above z2 (by decide), k0]
  exact ⟨put_lt z0 (by decide) (put_lt z1 (by decide) (put_lt z2 (by decide) hK)),
    by rw [put_below 6 (by decide) (by decide), put_above z1 (by decide), put_above z2 (by decide)],
    by rw [put_below 5 (by decide) (by decide), put_below 5 (by decide) (by decide), put_below 5 (by decide) (by decide)],
    by rw [put_below 6 (by decide) (by decide), put_below 6 (by decide) (by decide), put_below 6 (by decide) (by decide)],
    by rw [put_below 4 (by decide) (by decide), put_below 4 (by decide) (by decide), put_above z2 (by decide)],
    by rw [put_below 2 (by decide) (by decide), put_above z1 (by decide), put_above z2 (by decide)],
    fld_of (by rw [put_self z0]),
    fld_of (by rw [put_below 5 (by decide) (by decide), put_self z1]),
    fld_of (by rw [put_below 3 (by decide) (by decide), put_below 3 (by decide) (by decide), put_self z2])⟩

theorem form39 (K : Nat) (x0 : BitVec 1) (x1 : BitVec 3) (x2 : BitVec 5) (k0 : K / 2 ^ 31 % 2 ^ 1 = 0) (k1 : K / 2 ^ 18 % 2 ^ 3 = 0) (k2 : K / 2 ^ 11 % 2 ^ 5 = 0) (hK : K < 2 ^ 32) :
    put x0 31 (put x1 18 (put x2 11 (K))) < 2 ^ 32 ∧
    (put x0 31 (put x1 18 (put x2 11 (K)))) / 2 ^ 25 % 64 = K / 2 ^ 25 % 64 ∧
    (put x0 31 (put x1 18 (put x2 11 (K)))) / 2 ^ 6 % 32 = K / 2 ^ 6 % 32 ∧
    (put x0 31 (put x1 18 (put x2 11 (K)))) / 2 ^ 0 % 64 = K / 2 ^ 0 % 64 ∧
    (put x0 31 (put x1 18 (put x2 11 (K)))) / 2 ^ 16 % 4 = K / 2 ^ 16 % 4 ∧
    (put x0 31 (put x1 18 (put x2 11 (K)))) / 2 ^ 21 % 16 = K / 2 ^ 21 % 16 ∧
    fld (put x0 31 (put x1 18 (put x2 11 (K)))) 31 1 = x0 ∧
    fld (put x0 31 (put x1 18 (put x2 11 (K)))) 18 3 = x1 ∧
    fld (put x0 31 (put x1 18 (put x2 11 (K)))) 11 5 = x2 := by
  have z2 : (K) / 2 ^ 11 % 2 ^ 5 = 0 := k2
  have z1 : (put x2 11 (K)) / 2 ^ 18 % 2 ^ 3 = 0 := by rw [put_above z2 (by decide), k1]
  have z0 : (put x1 18 (put x2 11 (K))) / 2 ^ 31 % 2 ^ 1 = 0 := by rw [put_above z1 (by decide), put_above z2 (by decide), k0]
  exact ⟨put_lt z0 (by decide) (put_lt z1 (by decide) (put_lt z2 (by decide) hK)),
    by rw [put_below 6 (by decide) (by decide), put_above z1 (by decide), put_above z2 (by decide)],
    by rw [put_below 5 (by decide) (by decide), put_below 5 (by decide) (by decide), put_below 5 (by decide) (by decide)],
    by rw [put_below 6 (by decide) (by decide), put_below 6 (by decide) (by decide), put_below 6 (by decide) (by decide)],
    by rw [put_below 2 (by decide) (by decide), put_below 2 (by decide) (by decide), put_above z2 (by decide)],
    by rw [put_below 4 (by decide) (by decide), put_above z1 (by decide), put_above z2 (by decide)],
    fld_of (by rw [put_self z0]),
    fld_of (by rw [put_below 3 (by decide) (by decide), put_self z1]),
    fld_of (by rw [put_below 5 (by decide) (by decide), put_below 5 (by decide) (by decide), put_self z2])⟩

theorem form40 (K : Nat) (x0 : BitVec 1) (x1 : BitVec 7) (x2 : BitVec 7) (x3 : BitVec 1) (k0 : K / 2 ^ 31 % 2 ^ 1 = 0) (k1 : K / 2 ^ 18 % 2 ^ 7 = 0) (k2 : K / 2 ^ 11 % 2 ^ 7 = 0) (k3 : K / 2 ^ 0 % 2 ^ 1 = 0) (hK : K < 2 ^ 32) :
    put x0 31 (put x1 18 (put x2 11 (put x3 0 (K)))) < 2 ^ 32 ∧
    (put x0 31 (put x1 18 (put x2 11 (put x3 0 (K))))) / 2 ^ 25 % 64 = K / 2 ^ 25 % 64 ∧
    (put x0 31 (put x1 18 (put x2 11 (put x3 0 (K))))) / 2 ^ 6 % 32 = K / 2 ^ 6 % 32 ∧
    (put x0 31 (put x1 18 (put x2 11 (put x3 0 (K))))) / 2 ^ 1 % 32 = K / 2 ^ 1 % 32 ∧
    fld (put x0 31 (put x1 18 (put x2 11 (put x3 0 (K))))) 31 1 = x0 ∧
    fld (put x0 31 (put x1 18 (put x2 11 (put x3 0 (K))))) 18 7 = x1 ∧
    fld (put x0 31 (put x1 18 (put x2 11 (put x3 0 (K))))) 11 7 = x2 ∧
    fld (put x0 31 (put x1 18 (put x2 11 (put x3 0 (K))))) 0 1 = x3 := by
  have z3 : (K) / 2 ^ 0 % 2 ^ 1 = 0 := k3
  have z2 : (put x3 0 (K)) / 2 ^ 11 % 2 ^ 7 = 0 := by rw [put_above z3 (by decide), k2]
  have z1 : (put x2 11 (put x3 0 (K))) / 2 ^ 18 % 2 ^ 7 = 0 := by rw [put_above z2 (by decide), put_above z3 (by decide), k1]
  have z0 : (put x1 18 (put x2 11 (put x3 0 (K)))) / 2 ^ 31 % 2 ^ 1 = 0 := by rw [put_above z1 (by decide), put_above z2 (by decide), put_above z3 (by decide), k0]
  exact ⟨put_lt z0 (by decide) (put_lt z1 (by decide) (put_lt z2 (by decide) (put_lt z3 (by decide) hK))),
    by rw [put_below 6 (by decide) (by decide), put_above z1 (by decide), put_above z2 (by decide), put_above z3 (by decide)],
    by rw [put_below 5 (by decide) (by decide), put_below 5 (by decide) (by decide), put_below 5 (by decide) (by decide), put_above z3 (by decide)],
    by rw [put_below 5 (by decide) (by decide), put_below 5 (by decide) (by decide), put_below 5 (by decide) (by decide), put_above z3 (by decide)],
    fld_of (by rw [put_self z0]),
    fld_of (by rw [put_below 7 (by decide) (by decide), put_self z1]),
    fld_of (by rw [put_below 7 (by decide) (by decide), put_below 7 (by decide) (by decide), put_self z2]),
    fld_of (by rw [put_below 1 (by decide) (by decide), put_below 1 (by decide) (by decide), put_below 1 (by decide) (by decide), put_self z3])⟩

theorem form41 (K : Nat) (x0 : BitVec 1) (x1 : BitVec 7) (x2 : BitVec 7) (x3 : BitVec 3) (k0 : K / 2 ^ 31 % 2 ^ 1 = 0) (k1 : K / 2 ^ 18 % 2 ^ 7 = 0) (k2 : K / 2 ^ 11 % 2 ^ 7 = 0) (k3 : K / 2 ^ 0 % 2 ^ 3 = 0) (hK : K < 2 ^ 32) :
    put x0 31 (put x1 18 (put x2 11 (put x3 0 (K)))) < 2 ^ 32 ∧
    (put x0 31 (put x1 18 (put x2 11 (put x3 0 (K))))) / 2 ^ 25 % 64 = K / 2 ^ 25 % 64 ∧
    (put x0 31 (put x1 18 (put x2 11 (put x3 0 (K))))) / 2 ^ 6 % 32 = K / 2 ^ 6 % 32 ∧
    (put x0 31 (put x1 18 (put x2 11 (put x3 0 (K))))) / 2 ^ 3 % 8 = K / 2 ^ 3 % 8 ∧
    fld (put x0 31 (put x1 18 (put x2 11 (put x3 0 (K))))) 31 1 = x0 ∧
    fld (put x0 31 (put x1 18 (put x2 11 (put x3 0 (K))))) 18 7 = x1 ∧
    fld (put x0 31 (put x1 18 (put x2 11 (put x3 0 (K))))) 11 7 = x2 ∧
    fld (put x0 31 (put x1 18 (put x2 11 (put x3 0 (K))))) 0 3 = x3 := by
  have z3 : (K) / 2 ^ 0 % 2 ^ 3 = 0 := k3
  have z2 : (put x3 0 (K)) / 2 ^ 11 % 2 ^ 7 = 0 := by rw [put_above z3 (by decide), k2]
  have z1 : (put x2 11 (put x3 0 (K))) / 2 ^ 18 % 2 ^ 7 = 0 := by rw [put_above z2 (by decide), put_above z3 (by decide), k1]
  have z0 : (put x1 18 (put x2 11 (put x3 0 (K)))) / 2 ^ 31 % 2 ^ 1 = 0 := by rw [put_above z1 (by decide), put_above z2 (by decide), put_above z3 (by decide), k0]
  exact ⟨put_lt z0 (by decide) (put_lt z1 (by decide) (put_lt z2 (by decide) (put_lt z3 (by decide) hK))),
    by rw [put_below 6 (by decide) (by decide), put_above z1 (by decide), put_above z2 (by decide), put_above z3 (by decide)],
    by rw [put_below 5 (by decide) (by decide), put_below 5 (by decide) (by decide), put_below 5 (by decide) (by decide), put_above z3 (by decide)],
    by rw [put_below 3 (by decide) (by decide), put_below 3 (by decide) (by decide), put_below 3 (by decide) (by decide), put_above z3 (by decide)],
    fld_of (by rw [put_self z0]),
    fld_of (by rw [put_below 7 (by decide) (by decide), put_self z1]),
    fld_of (by rw [put_below 7 (by decide) (by decide), put_below 7 (by decide) (by decide), put_self z2]),
    fld_of (by rw [put_below 3 (by decide) (by decide), put_below 3 (by decide) (by decide), put_below 3 (by decide) (by decide), put_self z3])⟩

theorem form42 (K : Nat) (x0 : BitVec 1) (x1 : BitVec 7) (x2 : BitVec 5) (x3 : BitVec 1) (k0 : K / 2 ^ 31 % 2 ^ 1 = 0) (k1 : K / 2 ^ 18 % 2 ^ 7 = 0) (k2 : K / 2 ^ 1 % 2 ^ 5 = 0) (k3 : K / 2 ^ 0 % 2 ^ 1 = 0) (hK : K < 2 ^ 32) :
    put x0 31 (put x1 18 (put x2 1 (put x3 0 (K)))) < 2 ^ 32 ∧
    (put x0 31 (put x1 18 (put x2 1 (put x3 0 (K))))) / 2 ^ 25 % 64 = K / 2 ^ 25 % 64 ∧
    (put x0 31 (put x1 18 (put x2 1 (put x3 0 (K))))) / 2 ^ 6 % 32 = K / 2 ^ 6 % 32 ∧
    (put x0 31 (put x1 18 (put x2 1 (put x3 0 (K))))) / 2 ^ 11 % 128 = K / 2 ^ 11 % 128 ∧
    fld (put x0 31 (put x1 18 (put x2 1 (put x3 0 (K))))) 31 1 = x0 ∧
    fld (put x0 31 (put x1 18 (put x2 1 (put x3 0 (K))))) 18 7 = x1 ∧
    fld (put x0 31 (put x1 18 (put x2 1 (put x3 0 (K))))) 1 5 = x2 ∧
    fld (put x0 31 (put x1 18 (put x2 1 (put x3 0 (K))))) 0 1 = x3 := by
  have z3 : (K) / 2 ^ 0 % 2 ^ 1 = 0 := k3
  have z2 : (put x3 0 (K)) / 2 ^ 1 % 2 ^ 5 = 0 := by rw [put_above z3 (by decide), k2]
  have z1 : (put x2 1 (put x3 0 (K))) / 2 ^ 18 % 2 ^ 7 = 0 := by rw [put_above z2 (by decide), put_above z3 (by decide), k1]
  have z0 : (put x1 18 (put x2 1 (put x3 0 (K)))) / 2 ^ 31 % 2 ^ 1 = 0 := by rw [put_above z1 (by decide), put_above z2 (by decide), put_above z3 (by decide), k0]
  exact ⟨put_lt z0 (by decide) (put_lt z1 (by decide) (put_lt z2 (by decide) (put_lt z3 (by decide) hK))),
    by rw [put_below 6 (by decide) (by decide), put_above z1 (by decide), put_above z2 (by decide), put_above z3 (by decide)],
    by rw [put_below 5 (by decide) (by decide), put_below 5 (by decide) (by decide), put_above z2 (by decide), put_above z3 (by decide)],
    by rw [put_below 7 (by decide) (by decide), put_below 7 (by decide) (by decide), put_above z2 (by decide), put_above z3 (by decide)],
    fld_of (by rw [put_self z0]),
    fld_of (by rw [put_below 7 (by decide) (by decide), put_self z1]),
    fld_of (by rw [put_below 5 (by decide) (by decide), put_below 5 (by decide) (by decide), put_self z2]),
    fld_of (by rw [put_below 1 (by decide) (by decide), put_below 1 (by decide) (by decide), put_below 1 (by decide) (by decide), put_self z3])⟩

theorem form43 (K : Nat) (x0 : BitVec 1) (x1 : BitVec 7) (x2 : BitVec 1) (k0 : K / 2 ^ 31 % 2 ^ 1 = 0) (k1 : K / 2 ^ 18 % 2 ^ 7 = 0) (k2 : K / 2 ^ 0 % 2 ^ 1 = 0) (hK : K < 2 ^ 32) :
    put x0 31 (put x1 18 (put x2 0 (K))) < 2 ^ 32 ∧
    (put x0 31 (put x1 18 (put x2 0 (K)))) / 2 ^ 25 % 64 = K / 2 ^ 25 % 64 ∧
    (put x0 31 (put x1 18 (put x2 0 (K)))) / 2 ^ 6 % 32 = K / 2 ^ 6 % 32 ∧
    (put x0 31 (put x1 18 (put x2 0 (K)))) / 2 ^ 1 % 32 = K / 2 ^ 1 % 32 ∧
    (put x0 31 (put x1 18 (put x2 0 (K)))) / 2 ^ 11 % 128 = K / 2 ^ 11 % 128 ∧
    fld (put x0 31 (put x1 18 (put x2 0 (K)))) 31 1 = x0 ∧
    fld (put x0 31 (put x1 18 (put x2 0 (K)))) 18 7 = x1 ∧
    fld (put x0 31 (put x1 18 (put x2 0 (K)))) 0 1 = x2 := by
  have z2 : (K) / 2 ^ 0 % 2 ^ 1 = 0 := k2
  have z1 : (put x2 0 (K)) / 2 ^ 18 % 2 ^ 7 = 0 := by rw [put_above z2 (by decide), k1]
  have z0 : (put x1 18 (put x2 0 (K))) / 2 ^ 31 % 2 ^ 1 = 0 := by rw [put_above z1 (by decide), put_above z2 (by decide), k0]
  exact ⟨put_lt z0 (by decide) (put_lt z1 (by decide) (put_lt z2 (by decide) hK)),
    by rw [put_below 6 (by decide) (by decide), put_above z1 (by decide), put_above z2 (by decide)],
    by rw [put_below 5 (by decide) (by decide), put_below 5 (by decide) (by decide), put_above z2 (by decide)],
    by rw [put_below 5 (by decide) (by decide), put_below 5 (by decide) (by decide), put_above z2 (by decide)],
    by rw [put_below 7 (by decide) (by decide), put_below 7 (by decide) (by decide), put_above z2 (by decide)],
    fld_of (by rw [put_self z0]),
    fld_of (by rw [put_below 7 (by decide) (by decide), put_self z1]),
    fld_of (by rw [put_below 1 (by decide) (by decide), put_below 1 (by decide) (by decide), put_self z2])⟩

theorem form44 (K : Nat) (x0 : BitVec 1) (x1 : BitVec 5) (x2 : BitVec 7) (k0 : K / 2 ^ 31 % 2 ^ 1 = 0) (k1 : K / 2 ^ 18 % 2 ^ 5 = 0) (k2 : K / 2 ^ 11 % 2 ^ 7 = 0) (hK : K < 2 ^ 32) :
    put x0 31 (put x1 18 (put x2 11 (K))) < 2 ^ 32 ∧
    (put x0 31 (put x1 18 (put x2 11 (K)))) / 2 ^ 25 % 64 = K / 2 ^ 25 % 64 ∧
    (put x0 31 (put x1 18 (put x2 11 (K)))) / 2 ^ 6 % 32 = K / 2 ^ 6 % 32 ∧
    (put x0 31 (put x1 18 (put x2 11 (K)))) / 2 ^ 0 % 64 = K / 2 ^ 0 % 64 ∧
    (put x0 31 (put x1 18 (put x2 11 (K)))) / 2 ^ 23 % 4 = K / 2 ^ 23 % 4 ∧
    fld (put x0 31 (put x1 18 (put x2 11 (K)))) 31 1 = x0 ∧
    fld (put x0 31 (put x1 18 (put x2 11 (K)))) 18 5 = x1 ∧
    fld (put x0 31 (put x1 18 (put x2 11 (K)))) 11 7 = x2 := by
  have z2 : (K) / 2 ^ 11 % 2 ^ 7 = 0 := k2
  have z1 : (put x2 11 (K)) / 2 ^ 18 % 2 ^ 5 = 0 := by rw [put_above z2 (by decide), k1]
  have z0 : (put x1 18 (put x2 11 (K))) / 2 ^ 31 % 2 ^ 1 = 0 := by rw [put_above z1 (by decide), put_above z2 (by decide), k0]
  exact ⟨put_lt z0 (by decide) (put_lt z1 (by decide) (put_lt z2 (by decide) hK)),
    by rw [put_below 6 (by decide) (by decide), put_above z1 (by decide), put_above z2 (by decide)],
    by rw [put_below 5 (by decide) (by decide), put_below 5 (by decide) (by decide), put_below 5 (by decide) (by decide)],
    by rw [put_below 6 (by decide) (by decide), put_below 6 (by decide) (by decide), put_below 6 (by decide) (by decide)],
    by rw [put_below 2 (by decide) (by decide), put_above z1 (by decide), put_above z2 (by decide)],
    fld_of (by rw [put_self z0]),
    fld_of (by rw [put_below 5 (by decide) (by decide), put_self z1]),
    fld_of (by rw [put_below 7 (by decide) (by decide), put_below 7 (by decide) (by decide), put_self z2])⟩

theorem form45 (K : Nat) (x0 : BitVec 1) (x1 : BitVec 2) (k0 : K / 2 ^ 31 % 2 ^ 1 = 0) (k1 : K / 2 ^ 0 % 2 ^ 2 = 0) (hK : K < 2 ^ 32) :
    put x0 31 (put x1 0 (K)) < 2 ^ 32 ∧
    (put x0 31 (put x1 0 (K))) / 2 ^ 25 % 64 = K / 2 ^ 25 % 64 ∧
    (put x0 31 (put x1 0 (K))) / 2 ^ 6 % 32 = K / 2 ^ 6 % 32 ∧
    (put x0 31 (put x1 0 (K))) / 2 ^ 2 % 16 = K / 2 ^ 2 % 16 ∧
    (put x0 31 (put x1 0 (K))) / 2 ^ 11 % 16384 = K / 2 ^ 11 % 16384 ∧
    fld (put x0 31 (put x1 0 (K))) 31 1 = x0 ∧
    fld (put x0 31 (put x1 0 (K))) 0 2 = x1 := by
  have z1 : (K) / 2 ^ 0 % 2 ^ 2 = 0 := k1
  have z0 : (put x1 0 (K)) / 2 ^ 31 % 2 ^ 1 = 0 := by rw [put_above z1 (by decide), k0]
  exact ⟨put_lt z0 (by decide) (put_lt z1 (by decide) hK),
    by rw [put_below 6 (by decide) (by decide), put_above z1 (by decide)],
    by rw [put_below 5 (by decide) (by decide), put_above z1 (by decide)],
    by rw [put_below 4 (by decide) (by decide), put_above z1 (by decide)],
    by rw [put_below 14 (by decide) (by decide), put_above z1 (by decide)],
    fld_of (by rw [put_self z0]),
    fld_of (by rw [put_below 2 (by decide) (by decide), put_self z1])⟩

theorem form46 (K : Nat) (x0 : BitVec 1) (x1 : BitVec 7) (k0 : K / 2 ^ 31 % 2 ^ 1 = 0) (k1 : K / 2 ^ 18 % 2 ^ 7 = 0) (hK : K < 2 ^ 32) :
    put x0 31 (put x1 18 (K)) < 2 ^ 32 ∧
    (put x0 31 (put x1 18 (K))) / 2 ^ 25 % 64 = K / 2 ^ 25 % 64 ∧
    (put x0 31 (put x1 18 (K))) / 2 ^ 6 % 32 = K / 2 ^ 6 % 32 ∧
    (put x0 31 (put x1 18 (K))) / 2 ^ 0 % 64 = K / 2 ^ 0 % 64 ∧
    (put x0 31 (put x1 18 (K))) / 2 ^ 11 % 128 = K / 2 ^ 11 % 128 ∧
    fld (put x0 31 (put x1 18 (K))) 31 1 = x0 ∧
    fld (put x0 31 (put x1 18 (K))) 18 7 = x1 := by
  have z1 : (K) / 2 ^ 18 % 2 ^ 7 = 0 := k1
  have z0 : (put x1 18 (K)) / 2 ^ 31 % 2 ^ 1 = 0 := by rw [put_above z1 (by decide), k0]
  exact ⟨put_lt z0 (by decide) (put_lt z1 (by decide) hK),
    by rw [put_below 6 (by decide) (by decide), put_above z1 (by decide)],
    by rw [put_below 5 (by decide) (by decide), put_below 5 (by decide) (by decide)],
    by rw [put_below 6 (by decide) (by decide), put_below 6 (by decide) (by decide)],
    by rw [put_below 7 (by decide) (by decide), put_below 7 (by decide) (by decide)],
    fld_of (by rw [put_self z0]),
    fld_of (by rw [put_below 7 (by decide) (by decide), put_self z1])⟩

theorem form47 (K : Nat) (x0 : BitVec 1) (x1 : BitVec 5) (x2 : BitVec 2) (k0 : K / 2 ^ 31 % 2 ^ 1 = 0) (k1 : K / 2 ^ 11 % 2 ^ 5 = 0) (k2 : K / 2 ^ 3 % 2 ^ 2 = 0) (hK : K < 2 ^ 32) :
    put x0 31 (put x1 11 (put x2 3 (K))) < 2 ^ 32 ∧
    (put x0 31 (put x1 11 (put x2 3 (K)))) / 2 ^ 25 % 64 = K / 2 ^ 25 % 64 ∧
    (put x0 31 (put x1 11 (put x2 3 (K)))) / 2 ^ 6 % 32 = K / 2 ^ 6 % 32 ∧
    (put x0 31 (put x1 11 (put x2 3 (K)))) / 2 ^ 0 % 8 = K / 2 ^ 0 % 8 ∧
    (put x0 31 (put x1 11 (put x2 3 (K)))) / 2 ^ 5 % 2 = K / 2 ^ 5 % 2 ∧
    (put x0 31 (put x1 11 (put x2 3 (K)))) / 2 ^ 16 % 512 = K / 2 ^ 16 % 512 ∧
    fld (put x0 31 (put x1 11 (put x2 3 (K)))) 31 1 = x0 ∧
    fld (put x0 31 (put x1 11 (put x2 3 (K)))) 11 5 = x1 ∧
    fld (put x0 31 (put x1 11 (put x2 3 (K)))) 3 2 = x2 := by
  have z2 : (K) / 2 ^ 3 % 2 ^ 2 = 0 := k2
  have z1 : (put x2 3 (K)) / 2 ^ 11 % 2 ^ 5 = 0 := by rw [put_above z2 (by decide), k1]
  have z0 : (put x1 11 (put x2 3 (K))) / 2 ^ 31 % 2 ^ 1 = 0 := by rw [put_above z1 (by decide), put_above z2 (by decide), k0]
  exact ⟨put_lt z0 (by decide) (put_lt z1 (by decide) (put_lt z2 (by decide) hK)),
    by rw [put_below 6 (by decide) (by decide), put_above z1 (by decide), put_above z2 (by decide)],
    by rw [put_below 5 (by decide) (by decide), put_below 5 (by decide) (by decide), put_above z2 (by decide)],
    by rw [put_below 3 (by decide) (by decide), put_below 3 (by decide) (by decide), put_below 3 (by decide) (by decide)],
    by rw [put_below 1 (by decide) (by decide), put_below 1 (by decide) (by decide), put_above z2 (by decide)],
    by rw [put_below 9 (by decide) (by decide), put_above z1 (by decide), put_above z2 (by decide)],
    fld_of (by rw [put_self z0]),
    fld_of (by rw [put_below 5 (by decide) (by decide), put_self z1]),
    fld_of (by rw [put_below 2 (by decide) (by decide), put_below 2 (by decide) (by decide), put_self z2])⟩

theorem form48 (K : Nat) (x0 : BitVec 1) (x1 : BitVec 5) (k0 : K / 2 ^ 31 % 2 ^ 1 = 0) (k1 : K / 2 ^ 11 % 2 ^ 5 = 0) (hK : K < 2 ^ 32) :
    put x0 31 (put x1 11 (K)) < 2 ^ 32 ∧
    (put x0 31 (put x1 11 (K))) / 2 ^ 25 % 64 = K / 2 ^ 25 % 64 ∧
    (put x0 31 (put x1 11 (K))) / 2 ^ 6 % 32 = K / 2 ^ 6 % 32 ∧
    (put x0 31 (put x1 11 (K))) / 2 ^ 0 % 8 = K / 2 ^ 0 % 8 ∧
    (put x0 31 (put x1 11 (K))) / 2 ^ 5 % 2 = K / 2 ^ 5 % 2 ∧
    (put x0 31 (put x1 11 (K))) / 2 ^ 16 % 512 = K / 2 ^ 16 % 512 ∧
    (put x0 31 (put x1 11 (K))) / 2 ^ 0 % 64 = K / 2 ^ 0 % 64 ∧
    fld (put x0 31 (put x1 11 (K))) 31 1 = x0 ∧
    fld (put x0 31 (put x1 11 (K))) 11 5 = x1 := by
  have z1 : (K) / 2 ^ 11 % 2 ^ 5 = 0 := k1
  have z0 : (put x1 11 (K)) / 2 ^ 31 % 2 ^ 1 = 0 := by rw [put_above z1 (by decide), k0]
  exact ⟨put_lt z0 (by decide) (put_lt z1 (by decide) hK),
    by rw [put_below 6 (by decide) (by decide), put_above z1 (by decide)],
    by rw [put_below 5 (by decide) (by decide), put_below 5 (by decide) (by decide)],
    by rw [put_below 3 (by decide) (by decide), put_below 3 (by decide) (by decide)],
    by rw [put_below 1 (by decide) (by decide), put_below 1 (by decide) (by decide)],
    by rw [put_below 9 (by decide) (by decide), put_above z1 (by decide)],
    by rw [put_below 6 (by decide) (by decide), put_below 6 (by decide) (by decide)],
    fld_of (by rw [put_self z0]),
    fld_of (by rw [put_below 5 (by decide) (by decide), put_self z1])⟩

theorem form49 (K : Nat) (x0 : BitVec 1) (x1 : BitVec 5) (k0 : K / 2 ^ 31 % 2 ^ 1 = 0) (k1 : K / 2 ^ 18 % 2 ^ 5 = 0) (hK : K < 2 ^ 32) :
    put x0 31 (put x1 18 (K)) < 2 ^ 32 ∧
    (put x0 31 (put x1 18 (K))) / 2 ^ 25 % 64 = K / 2 ^ 25 % 64 ∧
    (put x0 31 (put x1 18 (K))) / 2 ^ 6 % 32 = K / 2 ^ 6 % 32 ∧
    (put x0 31 (put x1 18 (K))) / 2 ^ 0 % 64 = K / 2 ^ 0 % 64 ∧
    (put x0 31 (put x1 18 (K))) / 2 ^ 11 % 128 = K / 2 ^ 11 % 128 ∧
    (put x0 31 (put x1 18 (K))) / 2 ^ 23 % 4 = K / 2 ^ 23 % 4 ∧
    fld (put x0 31 (put x1 18 (K))) 31 1 = x0 ∧
    fld (put x0 31 (put x1 18 (K))) 18 5 = x1 := by
  have z1 : (K) / 2 ^ 18 % 2 ^ 5 = 0 := k1
  have z0 : (put x1 18 (K)) / 2 ^ 31 % 2 ^ 1 = 0 := by rw [put_above z1 (by decide), k0]
  exact ⟨put_lt z0 (by decide) (put_lt z1 (by decide) hK),
    by rw [put_below 6 (by decide) (by decide), put_above z1 (by decide)],
    by rw [put_below 5 (by decide) (by decide), put_below 5 (by decide) (by decide)],
    by rw [put_below 6 (by decide) (by decide), put_below 6 (by decide) (by decide)],
    by rw [put_below 7 (by decide) (by decide), put_below 7 (by decide) (by decide)],
    by rw [put_below 2 (by decide) (by decide), put_above z1 (by decide)],
    fld_of (by rw [put_self z0]),
    fld_of (by rw [put_below 5 (by decide) (by decide), put_self z1])⟩

theorem form50 (K : Nat) (x0 : BitVec 1) (x1 : BitVec 6) (k0 : K / 2 ^ 31 % 2 ^ 1 = 0) (k1 : K / 2 ^ 0 % 2 ^ 6 = 0) (hK : K < 2 ^ 32) :
    put x0 31 (put x1 0 (K)) < 2 ^ 32 ∧
    (put x0 31 (put x1 0 (K))) / 2 ^ 25 % 64 = K / 2 ^ 25 % 64 ∧
    (put x0 31 (put x1 0 (K))) / 2 ^ 6 % 32 = K / 2 ^ 6 % 32 ∧
    (put x0 31 (put x1 0 (K))) / 2 ^ 11 % 16384 = K / 2 ^ 11 % 16384 ∧
    fld (put x0 31 (put x1 0 (K))) 31 1 = x0 ∧
    fld (put x0 31 (put x1 0 (K))) 0 6 = x1 := by
  have z1 : (K) / 2 ^ 0 % 2 ^ 6 = 0 := k1
  have z0 : (put x1 0 (K)) / 2 ^ 31 % 2 ^ 1 = 0 := by rw [put_above z1 (by decide), k0]
  exact ⟨put_lt z0 (by decide) (put_lt z1 (by decide) hK),
    by rw [put_below 6 (by decide) (by decide), put_above z1 (by decide)],
    by rw [put_below 5 (by decide) (by decide), put_above z1 (by decide)],
    by rw [put_below 14 (by decide) (by decide), put_above z1 (by decide)],
    fld_of (by rw [put_self z0]),
    fld_of (by rw [put_below 6 (by decide) (by decide), put_self z1])⟩

theorem form51 (K : Nat) (x0 : BitVec 1) (x1 : BitVec 7) (x2 : BitVec 6) (x3 : BitVec 6) (k0 : K / 2 ^ 31 % 2 ^ 1 = 0) (k1 : K / 2 ^ 18 % 2 ^ 7 = 0) (k2 : K / 2 ^ 11 % 2 ^ 6 = 0) (k3 : K / 2 ^ 0 % 2 ^ 6 = 0) (hK : K < 2 ^ 32) :
    put x0 31 (put x1 18 (put x2 11 (put x3 0 (K)))) < 2 ^ 32 ∧
    (put x0 31 (put x1 18 (put x2 11 (put x3 0 (K))))) / 2 ^ 25 % 64 = K / 2 ^ 25 % 64 ∧
    (put x0 31 (put x1 18 (put x2 11 (put x3 0 (K))))) / 2 ^ 6 % 32 = K / 2 ^ 6 % 32 ∧
    (put x0 31 (put x1 18 (put x2 11 (put x3 0 (K))))) / 2 ^ 17 % 2 = K / 2 ^ 17 % 2 ∧
    fld (put x0 31 (put x1 18 (put x2 11 (put x3 0 (K))))) 31 1 = x0 ∧
    fld (put x0 31 (put x1 18 (put x2 11 (put x3 0 (K))))) 18 7 = x1 ∧
    fld (put x0 31 (put x1 18 (put x2 11 (put x3 0 (K))))) 11 6 = x2 ∧
    fld (put x0 31 (put x1 18 (put x2 11 (put x3 0 (K))))) 0 6 = x3 := by
  have z3 : (K) / 2 ^ 0 % 2 ^ 6 = 0 := k3
  have z2 : (put x3 0 (K)) / 2 ^ 11 % 2 ^ 6 = 0 := by rw [put_above z3 (by decide), k2]
  have z1 : (put x2 11 (put x3 0 (K))) / 2 ^ 18 % 2 ^ 7 = 0 := by rw [put_above z2 (by decide), put_above z3 (by decide), k1]
  have z0 : (put x1 18 (put x2 11 (put x3 0 (K)))) / 2 ^ 31 % 2 ^ 1 = 0 := by rw [put_above z1 (by decide), put_above z2 (by decide), put_above z3 (by decide), k0]
  exact ⟨put_lt z0 (by decide) (put_lt z1 (by decide) (put_lt z2 (by decide) (put_lt z3 (by decide) hK))),
    by rw [put_below 6 (by decide) (by decide), put_above z1 (by decide), put_above z2 (by decide), put_above z3 (by decide)],
    by rw [put_below 5 (by decide) (by decide), put_below 5 (by decide) (by decide), put_below 5 (by decide) (by decide), put_above z3 (by decide)],
    by rw [put_below 1 (by decide) (by decide), put_below 1 (by decide) (by decide), put_above z2 (by decide), put_above z3 (by decide)],
    fld_of (by rw [put_self z0]),
    fld_of (by rw [put_below 7 (by decide) (by decide), put_self z1]),
    fld_of (by rw [put_below 6 (by decide) (by decide), put_below 6 (by decide) (by decide), put_self z2]),
    fld_of (by rw [put_below 6 (by decide) (by decide), put_below 6 (by decide) (by decide), put_below 6 (by decide) (by decide), put_self z3])⟩

theorem form52 (K : Nat) (x0 : BitVec 1) (x1 : BitVec 7) (x2 : BitVec 5) (k0 : K / 2 ^ 31 % 2 ^ 1 = 0) (k1 : K / 2 ^ 18 % 2 ^ 7 = 0) (k2 : K / 2 ^ 0 % 2 ^ 5 = 0) (hK : K < 2 ^ 32) :
    put x0 31 (put x1 18 (put x2 0 (K))) < 2 ^ 32 ∧
    (put x0 31 (put x1 18 (put x2 0 (K)))) / 2 ^ 25 % 64 = K / 2 ^ 25 % 64 ∧
    (put x0 31 (put x1 18 (put x2 0 (K)))) / 2 ^ 6 % 32 = K / 2 ^ 6 % 32 ∧
    (put x0 31 (put x1 18 (put x2 0 (K)))) / 2 ^ 5 % 2 = K / 2 ^ 5 % 2 ∧
    (put x0 31 (put x1 18 (put x2 0 (K)))) / 2 ^ 11 % 128 = K / 2 ^ 11 % 128 ∧
    fld (put x0 31 (put x1 18 (put x2 0 (K)))) 31 1 = x0 ∧
    fld (put x0 31 (put x1 18 (put x2 0 (K)))) 18 7 = x1 ∧
    fld (put x0 31 (put x1 18 (put x2 0 (K)))) 0 5 = x2 := by
  have z2 : (K) / 2 ^ 0 % 2 ^ 5 = 0 := k2
  have z1 : (put x2 0 (K)) / 2 ^ 18 % 2 ^ 7 = 0 := by rw [put_above z2 (by decide), k1]
  have z0 : (put x1 18 (put x2 0 (K))) / 2 ^ 31 % 2 ^ 1 = 0 := by rw [put_above z1 (by decide), put_above z2 (by decide), k0]
  exact ⟨put_lt z0 (by decide) (put_lt z1 (by decide) (put_lt z2 (by decide) hK)),
    by rw [put_below 6 (by decide) (by decide), put_above z1 (by decide), put_above z2 (by decide)],
    by rw [put_below 5 (by decide) (by decide), put_below 5 (by decide) (by decide), put_above z2 (by decide)],
    by rw [put_below 1 (by decide) (by decide), put_below 1 (by decide) (by decide), put_above z2 (by decide)],
    by rw [put_below 7 (by decide) (by decide), put_below 7 (by decide) (by decide), put_above z2 (by decide)],
    fld_of (by rw [put_self z0]),
    fld_of (by rw [put_below 7 (by decide) (by decide), put_self z1]),
    fld_of (by rw [put_below 5 (by decide) (by decide), put_below 5 (by decide) (by decide), put_self z2])⟩

theorem form53 (K : Nat) (x0 : BitVec 1) (x1 : BitVec 7) (x2 : BitVec 3) (k0 : K / 2 ^ 31 % 2 ^ 1 = 0) (k1 : K / 2 ^ 11 % 2 ^ 7 = 0) (k2 : K / 2 ^ 0 % 2 ^ 3 = 0) (hK : K < 2 ^ 32) :
    put x0 31 (put x1 11 (put x2 0 (K))) < 2 ^ 32 ∧
    (put x0 31 (put x1 11 (put x2 0 (K)))) / 2 ^ 25 % 64 = K / 2 ^ 25 % 64 ∧
    (put x0 31 (put x1 11 (put x2 0 (K)))) / 2 ^ 6 % 32 = K / 2 ^ 6 % 32 ∧
    (put x0 31 (put x1 11 (put x2 0 (K)))) / 2 ^ 3 % 8 = K / 2 ^ 3 % 8 ∧
    (put x0 31 (put x1 11 (put x2 0 (K)))) / 2 ^ 18 % 128 = K / 2 ^ 18 % 128 ∧
    fld (put x0 31 (put x1 11 (put x2 0 (K)))) 31 1 = x0 ∧
    fld (put x0 31 (put x1 11 (put x2 0 (K)))) 11 7 = x1 ∧
    fld (put x0 31 (put x1 11 (put x2 0 (K)))) 0 3 = x2 := by
  have z2 : (K) / 2 ^ 0 % 2 ^ 3 = 0 := k2
  have z1 : (put x2 0 (K)) / 2 ^ 11 % 2 ^ 7 = 0 := by rw [put_above z2 (by decide), k1]
  have z0 : (put x1 11 (put x2 0 (K))) / 2 ^ 31 % 2 ^ 1 = 0 := by rw [put_above z1 (by decide), put_above z2 (by decide), k0]
  exact ⟨put_lt z0 (by decide) (put_lt z1 (by decide) (put_lt z2 (by decide) hK)),
    by rw [put_below 6 (by decide) (by decide), put_above z1 (by decide), put_above z2 (by decide)],
    by rw [put_below 5 (by decide) (by decide), put_below 5 (by decide) (by decide), put_above z2 (by decide)],
    by rw [put_below 3 (by decide) (by decide), put_below 3 (by decide) (by decide), put_above z2 (by decide)],
    by rw [put_below 7 (by decide) (by decide), put_above z1 (by decide), put_above z2 (by decide)],
    fld_of (by rw [put_self z0]),
    fld_of (by rw [put_below 7 (by decide) (by decide), put_self z1]),
    fld_of (by rw [put_below 3 (by decide) (by decide), put_below 3 (by decide) (by decide), put_self z2])⟩

theorem form54 (K : Nat) (x0 : BitVec 1) (x1 : BitVec 3) (k0 : K / 2 ^ 31 % 2 ^ 1 = 0) (k1 : K / 2 ^ 0 % 2 ^ 3 = 0) (hK : K < 2 ^ 32) :
    put x0 31 (put x1 0 (K)) < 2 ^ 32 ∧
    (put x0 31 (put x1 0 (K))) / 2 ^ 25 % 64 = K / 2 ^ 25 % 64 ∧
    (put x0 31 (put x1 0 (K))) / 2 ^ 6 % 32 = K / 2 ^ 6 % 32 ∧
    (put x0 31 (put x1 0 (K))) / 2 ^ 3 % 8 = K / 2 ^ 3 % 8 ∧
    (put x0 31 (put x1 0 (K))) / 2 ^ 18 % 128 = K / 2 ^ 18 % 128 ∧
    (put x0 31 (put x1 0 (K))) / 2 ^ 11 % 16384 = K / 2 ^ 11 % 16384 ∧
    fld (put x0 31 (put x1 0 (K))) 31 1 = x0 ∧
    fld (put x0 31 (put x1 0 (K))) 0 3 = x1 := by
  have z1 : (K) / 2 ^ 0 % 2 ^ 3 = 0 := k1
  have z0 : (put x1 0 (K)) / 2 ^ 31 % 2 ^ 1 = 0 := by rw [put_above z1 (by decide), k0]
  exact ⟨put_lt z0 (by decide) (put_lt z1 (by decide) hK),
    by rw [put_below 6 (by decide) (by decide), put_above z1 (by decide)],
    by rw [put_below 5 (by decide) (by decide), put_above z1 (by decide)],
    by rw [put_below 3 (by decide) (by decide), put_above z1 (by decide)],
    by rw [put_below 7 (by decide) (by decide), put_above z1 (by decide)],
    by rw [put_below 14 (by decide) (by decide), put_above z1 (by decide)],
    fld_of (by rw [put_self z0]),
    fld_of (by rw [put_below 3 (by decide) (by decide), put_self z1])⟩

theorem major0 {N : Nat} (h : N / 2 ^ 25 % 64 = 0) : parse N = decodeIop N := by
  unfold parse
  rw [h] <;> rfl

theorem major1 {N : Nat} (h : N / 2 ^ 25 % 64 = 1) : parse N = decodeIop2 N := by
  unfold parse
  rw [h] <;> rfl

theorem major2 {N : Nat} (h : N / 2 ^ 25 % 64 = 2) : parse N = decodeCmp N := by
  unfold parse
  rw [h] <;> rfl

theorem major4 {N : Nat} (h : N / 2 ^ 25 % 64 = 4) : parse N = decodeAddi N := by
  unfold parse
  rw [h] <;> rfl

theorem major5 {N : Nat} (h : N / 2 ^ 25 % 64 = 5) : parse N = decodeAndi N := by
  unfold parse
  rw [h] <;> rfl

theorem major6 {N : Nat} (h : N / 2 ^ 25 % 64 = 6) : parse N = decodeOri N := by
  unfold parse
  rw [h] <;> rfl

theorem major7 {N : Nat} (h : N / 2 ^ 25 % 64 = 7) : parse N = decodeXori N := by
  unfold parse
  rw [h] <;> rfl

theorem major8 {N : Nat} (h : N / 2 ^ 25 % 64 = 8) : parse N = decodeShfi N := by
  unfold parse
  rw [h] <;> rfl

theorem major9 {N : Nat} (h : N / 2 ^ 25 % 64 = 9) : parse N = decodeCmpi N := by
  unfold parse
  rw [h] <;> rfl

theorem major10 {N : Nat} (h : N / 2 ^ 25 % 64 = 10) : parse N = decodeExti N := by
  unfold parse
  rw [h] <;> rfl

theorem major11 {N : Nat} (h : N / 2 ^ 25 % 64 = 11) : parse N = decodeMuli N := by
  unfold parse
  rw [h] <;> rfl

theorem major12 {N : Nat} (h : N / 2 ^ 25 % 64 = 12) : parse N = decodeLqz N := by
  unfold parse
  rw [h] <;> rfl

theorem major13 {N : Nat} (h : N / 2 ^ 25 % 64 = 13) : parse N = decodeLqk N := by
  unfold parse
  rw [h] <;> rfl

theorem major14 {N : Nat} (h : N / 2 ^ 25 % 64 = 14) : parse N = decodePcadd N := by
  unfold parse
  rw [h] <;> rfl

theorem major15 {N : Nat} (h : N / 2 ^ 25 % 64 = 15) : parse N = decodePsel N := by
  unfold parse
  rw [h] <;> rfl

theorem major16 {N : Nat} (h : N / 2 ^ 25 % 64 = 16) : parse N = decodePlog N := by
  unfold parse
  rw [h] <;> rfl

theorem major17 {N : Nat} (h : N / 2 ^ 25 % 64 = 17) : parse N = decodeBr N := by
  unfold parse
  rw [h] <;> rfl

theorem major18 {N : Nat} (h : N / 2 ^ 25 % 64 = 18) : parse N = decodeJmp N := by
  unfold parse
  rw [h] <;> rfl

theorem major19 {N : Nat} (h : N / 2 ^ 25 % 64 = 19) : parse N = decodeJal N := by
  unfold parse
  rw [h] <;> rfl

theorem major20 {N : Nat} (h : N / 2 ^ 25 % 64 = 20) : parse N = decodeJalr N := by
  unfold parse
  rw [h] <;> rfl

theorem major21 {N : Nat} (h : N / 2 ^ 25 % 64 = 21) : parse N = decodeRepf N := by
  unfold parse
  rw [h] <;> rfl

theorem major22 {N : Nat} (h : N / 2 ^ 25 % 64 = 22) : parse N = decodeCtl N := by
  unfold parse
  rw [h] <;> rfl

theorem major24 {N : Nat} (h : N / 2 ^ 25 % 64 = 24) : parse N = decodeFs N := by
  unfold parse
  rw [h] <;> rfl

theorem major25 {N : Nat} (h : N / 2 ^ 25 % 64 = 25) : parse N = decodeFd N := by
  unfold parse
  rw [h] <;> rfl

theorem major26 {N : Nat} (h : N / 2 ^ 25 % 64 = 26) : parse N = decodeFcv N := by
  unfold parse
  rw [h] <;> rfl

theorem major32 {N : Nat} (h : N / 2 ^ 25 % 64 = 32) : parse N = decodeVa N := by
  unfold parse
  rw [h] <;> rfl

theorem major33 {N : Nat} (h : N / 2 ^ 25 % 64 = 33) : parse N = decodeVx N := by
  unfold parse
  rw [h] <;> rfl

theorem major36 {N : Nat} (h : N / 2 ^ 25 % 64 = 36) : parse N = decodeLds8 N := by
  unfold parse
  rw [h] <;> rfl

theorem major37 {N : Nat} (h : N / 2 ^ 25 % 64 = 37) : parse N = decodeLdn8 N := by
  unfold parse
  rw [h] <;> rfl

theorem major38 {N : Nat} (h : N / 2 ^ 25 % 64 = 38) : parse N = decodeLds16 N := by
  unfold parse
  rw [h] <;> rfl

theorem major39 {N : Nat} (h : N / 2 ^ 25 % 64 = 39) : parse N = decodeLdn16 N := by
  unfold parse
  rw [h] <;> rfl

theorem major40 {N : Nat} (h : N / 2 ^ 25 % 64 = 40) : parse N = decodeLds32 N := by
  unfold parse
  rw [h] <;> rfl

theorem major41 {N : Nat} (h : N / 2 ^ 25 % 64 = 41) : parse N = decodeLdn32 N := by
  unfold parse
  rw [h] <;> rfl

theorem major42 {N : Nat} (h : N / 2 ^ 25 % 64 = 42) : parse N = decodeLd64 N := by
  unfold parse
  rw [h] <;> rfl

theorem major43 {N : Nat} (h : N / 2 ^ 25 % 64 = 43) : parse N = decodeSt8 N := by
  unfold parse
  rw [h] <;> rfl

theorem major44 {N : Nat} (h : N / 2 ^ 25 % 64 = 44) : parse N = decodeSt16 N := by
  unfold parse
  rw [h] <;> rfl

theorem major45 {N : Nat} (h : N / 2 ^ 25 % 64 = 45) : parse N = decodeSt32 N := by
  unfold parse
  rw [h] <;> rfl

theorem major46 {N : Nat} (h : N / 2 ^ 25 % 64 = 46) : parse N = decodeSt64 N := by
  unfold parse
  rw [h] <;> rfl

theorem major47 {N : Nat} (h : N / 2 ^ 25 % 64 = 47) : parse N = decodeVmem N := by
  unfold parse
  rw [h] <;> rfl

theorem major48 {N : Nat} (h : N / 2 ^ 25 % 64 = 48) : parse N = decodeAmo64 N := by
  unfold parse
  rw [h] <;> rfl

theorem major49 {N : Nat} (h : N / 2 ^ 25 % 64 = 49) : parse N = decodeAmo32 N := by
  unfold parse
  rw [h] <;> rfl

theorem major50 {N : Nat} (h : N / 2 ^ 25 % 64 = 50) : parse N = decodeRed N := by
  unfold parse
  rw [h] <;> rfl

theorem major51 {N : Nat} (h : N / 2 ^ 25 % 64 = 51) : parse N = decodeVamo N := by
  unfold parse
  rw [h] <;> rfl

theorem major52 {N : Nat} (h : N / 2 ^ 25 % 64 = 52) : parse N = decodeSync N := by
  unfold parse
  rw [h] <;> rfl

theorem major53 {N : Nat} (h : N / 2 ^ 25 % 64 = 53) : parse N = decodeThr N := by
  unfold parse
  rw [h] <;> rfl

theorem major54 {N : Nat} (h : N / 2 ^ 25 % 64 = 54) : parse N = decodeChn N := by
  unfold parse
  rw [h] <;> rfl

theorem major55 {N : Nat} (h : N / 2 ^ 25 % 64 = 55) : parse N = decodeBar N := by
  unfold parse
  rw [h] <;> rfl

theorem major56 {N : Nat} (h : N / 2 ^ 25 % 64 = 56) : parse N = decodeEng N := by
  unfold parse
  rw [h] <;> rfl

theorem major57 {N : Nat} (h : N / 2 ^ 25 % 64 = 57) : parse N = decodeRep N := by
  unfold parse
  rw [h] <;> rfl

theorem major58 {N : Nat} (h : N / 2 ^ 25 % 64 = 58) : parse N = decodeFab N := by
  unfold parse
  rw [h] <;> rfl

theorem major60 {N : Nat} (h : N / 2 ^ 25 % 64 = 60) : parse N = decodeSys N := by
  unfold parse
  rw [h] <;> rfl

theorem handlerStart (core : Nat) (slot : Nat) : Statement (.handlerStart core slot) := unworded rfl rfl

theorem threadPlacement (core : Nat) (slot : Nat) (pos : Nat) : Statement (.threadPlacement core slot pos) := unworded rfl rfl

theorem shareComputation (core : Nat) : Statement (.shareComputation core) := unworded rfl rfl

theorem urgentShareComputation (core : Nat) : Statement (.urgentShareComputation core) := unworded rfl rfl

theorem preemption (tid : Nat) : Statement (.preemption tid) := unworded rfl rfl

theorem preemptionGraceExpiry (tid : Nat) : Statement (.preemptionGraceExpiry tid) := unworded rfl rfl

theorem waitLimitExpiry (tid : Nat) : Statement (.waitLimitExpiry tid) := unworded rfl rfl

theorem deferredResultReturn (acc : Nat) : Statement (.deferredResultReturn acc) := unworded rfl rfl

theorem mtArrival (tid : Nat) : Statement (.mtArrival tid) := unworded rfl rfl

theorem launchInboxCompletion (lnum : Nat) : Statement (.launchInboxCompletion lnum) := unworded rfl rfl

theorem launchMailboxCompletion (lnum : Nat) : Statement (.launchMailboxCompletion lnum) := unworded rfl rfl

theorem stageBalancer (lnum : Nat) : Statement (.stageBalancer lnum) := unworded rfl rfl

theorem asyncTrapDelivery (tid : Nat) : Statement (.asyncTrapDelivery tid) := unworded rfl rfl

theorem uintDelivery (tid : Nat) : Statement (.uintDelivery tid) := unworded rfl rfl

theorem homeWrite (acc : Nat) : Statement (.homeWrite acc) := unworded rfl rfl

theorem directoryOverflow (line : Nat) : Statement (.directoryOverflow line) := unworded rfl rfl

theorem copyStart (core : Nat) (op : Nat) : Statement (.copyStart core op) := unworded rfl rfl

theorem copyCompletion (core : Nat) (op : Nat) : Statement (.copyCompletion core op) := unworded rfl rfl

theorem copyInboxAction (core : Nat) (op : Nat) : Statement (.copyInboxAction core op) := unworded rfl rfl

theorem pushAction (core : Nat) (op : Nat) : Statement (.pushAction core op) := unworded rfl rfl

theorem mxuCommandStart (grove : Nat) : Statement (.mxuCommandStart grove) := unworded rfl rfl

theorem mxuRow (core : Nat) (op : Nat) : Statement (.mxuRow core op) := unworded rfl rfl

theorem mxuCommandComplete (core : Nat) (op : Nat) : Statement (.mxuCommandComplete core op) := unworded rfl rfl

theorem watchActionStart (slice : Nat) (entry : Nat) : Statement (.watchActionStart slice entry) := unworded rfl rfl

theorem canopyRound (group : Nat) : Statement (.canopyRound group) := unworded rfl rfl

theorem remoteCopyData (f : Flit) : Statement (.remoteCopyData f) := unworded rfl rfl

theorem remoteCopyCompletionRequest (f : Flit) : Statement (.remoteCopyCompletionRequest f) := unworded rfl rfl

theorem remoteCopyReport (f : Flit) : Statement (.remoteCopyReport f) := unworded rfl rfl

theorem mailboxPayload (f : Flit) : Statement (.mailboxPayload f) := unworded rfl rfl

theorem mailboxSequenceWord (f : Flit) : Statement (.mailboxSequenceWord f) := unworded rfl rfl

theorem slotReleaseNotice (f : Flit) : Statement (.slotReleaseNotice f) := unworded rfl rfl

theorem cutHeader (f : Flit) : Statement (.cutHeader f) := unworded rfl rfl

theorem cutUnit (f : Flit) : Statement (.cutUnit f) := unworded rfl rfl

theorem cutMarker (f : Flit) : Statement (.cutMarker f) := unworded rfl rfl

theorem cutAcknowledgement (f : Flit) : Statement (.cutAcknowledgement f) := unworded rfl rfl

theorem timeBaseSynchronisation (f : Flit) : Statement (.timeBaseSynchronisation f) := unworded rfl rfl

theorem discardReport (f : Flit) : Statement (.discardReport f) := unworded rfl rfl

theorem linkAcknowledgement (f : Flit) : Statement (.linkAcknowledgement f) := unworded rfl rfl

theorem retryRequest (f : Flit) : Statement (.retryRequest f) := unworded rfl rfl

theorem linkIdle (f : Flit) : Statement (.linkIdle f) := unworded rfl rfl

theorem bulkWriteFault (f : Flit) : Statement (.bulkWriteFault f) := unworded rfl rfl

theorem bulkData (f : Flit) : Statement (.bulkData f) := unworded rfl rfl

theorem linkOutOfService (link : Nat) : Statement (.linkOutOfService link) := unworded rfl rfl

theorem boundaryModuleFailure (boundary : Nat) (module : Nat) : Statement (.boundaryModuleFailure boundary module) := unworded rfl rfl

theorem cutSend (sotx : Nat) (die : Nat) (peer : Nat) : Statement (.cutSend sotx die peer) := unworded rfl rfl

theorem membershipEvaluation (sotx : Nat) (die : Nat) : Statement (.membershipEvaluation sotx die) := unworded rfl rfl

theorem silenceExpiry (sotx : Nat) (die : Nat) (member : Nat) : Statement (.silenceExpiry sotx die member) := unworded rfl rfl

theorem rshipBoundExpiry (sotx : Nat) (die : Nat) : Statement (.rshipBoundExpiry sotx die) := unworded rfl rfl

theorem migrationRequest (page : List (Nat × Byte)) : Statement (.migrationRequest page) := unworded rfl rfl

theorem ldoor (v : Word) : Statement (.ldoor v) := unworded rfl rfl

theorem launchMailboxTake : Statement (.launchMailboxTake) := unworded rfl rfl

theorem mdoor (v : Word) : Statement (.mdoor v) := unworded rfl rfl

theorem dmhead (v : Word) : Statement (.dmhead v) := unworded rfl rfl

theorem summary (v : Word) : Statement (.summary v) := unworded rfl rfl

theorem registerWrite (r : HostReg) (v : Word) : Statement (.registerWrite r v) := unworded rfl rfl

theorem checkpoint : Statement (.checkpoint) := unworded rfl rfl

theorem restore (src : RestoreSource) : Statement (.restore src) := unworded rfl rfl

theorem bringUp (b : BringUp) : Statement (.bringUp b) := unworded rfl rfl

theorem enterService : Statement (.enterService) := unworded rfl rfl

theorem enterTest : Statement (.enterTest) := unworded rfl rfl

theorem enterD1 : Statement (.enterD1) := unworded rfl rfl

theorem enterD2 : Statement (.enterD2) := unworded rfl rfl

theorem enterD3 : Statement (.enterD3) := unworded rfl rfl

theorem wakeD0 : Statement (.wakeD0) := unworded rfl rfl

theorem clockLevelWrite (level : BitVec 2) : Statement (.clockLevelWrite level) := unworded rfl rfl

theorem clockLevelChange : Statement (.clockLevelChange) := unworded rfl rfl

theorem debugToken (tok : Token) : Statement (.debugToken tok) := unworded rfl rfl

theorem debugTokenExpiry : Statement (.debugTokenExpiry) := unworded rfl rfl

theorem debugTokenRevocation : Statement (.debugTokenRevocation) := unworded rfl rfl

theorem debugResume (tid : Nat) : Statement (.debugResume tid) := unworded rfl rfl

theorem getVersion : Statement (.getVersion) := unworded rfl rfl

theorem getCapabilities : Statement (.getCapabilities) := unworded rfl rfl

theorem negotiateAlgorithms : Statement (.negotiateAlgorithms) := unworded rfl rfl

theorem getDigests : Statement (.getDigests) := unworded rfl rfl

theorem getCertificate : Statement (.getCertificate) := unworded rfl rfl

theorem challenge (r : ReportRequest) : Statement (.challenge r) := unworded rfl rfl

theorem getMeasurements (r : ReportRequest) : Statement (.getMeasurements r) := unworded rfl rfl

theorem sessionEstablishment : Statement (.sessionEstablishment) := unworded rfl rfl

theorem replayEventDelivery : Statement (.replayEventDelivery) := unworded rfl rfl

theorem illegalEncoding (word : BitVec 32) : Statement (.illegalEncoding word) := unworded rfl rfl

theorem flitCrcFailure (f : Flit) : Statement (.flitCrcFailure f) := unworded rfl rfl

theorem reservedKindFlit (f : Flit) : Statement (.reservedKindFlit f) := unworded rfl rfl

theorem managementLaunchSubmission (addr : Word) : Statement (.managementLaunchSubmission addr) := unworded rfl rfl

theorem read_add {N : Nat} (h : N / 2 ^ 25 % 64 = 0) (q0 : N / 2 ^ 0 % 16 = 0) :
    parse N = some (Instr.add (fld N 31 1) (fld N 18 7) (fld N 11 7) (fld N 4 7)) := by
  rw [major0 h]
  refine Eq.trans (b := (some (.add (fld N 31 1) (fld N 18 7) (fld N 11 7) (fld N 4 7)) : Option Instr)) ?_ ?_
  · unfold decodeIop
    rw [q0] <;> rfl
  rfl

theorem add (w : BitVec 1) (d : BitVec 7) (a : BitVec 7) (b : BitVec 7) : Statement (.add w d a b) := by
  obtain ⟨bound, h, q0, f0, f1, f2, f3⟩ := form0 0 w d a b (by decide) (by decide) (by decide) (by decide) (by decide)
  exact worded (N := put w 31 (put d 18 (put a 11 (put b 4 (0))))) rfl bound (by rw [read_add (h.trans (by decide)) (q0.trans (by decide)), f0, f1, f2, f3])

theorem read_sub {N : Nat} (h : N / 2 ^ 25 % 64 = 0) (q0 : N / 2 ^ 0 % 16 = 1) :
    parse N = some (Instr.sub (fld N 31 1) (fld N 18 7) (fld N 11 7) (fld N 4 7)) := by
  rw [major0 h]
  refine Eq.trans (b := (some (.sub (fld N 31 1) (fld N 18 7) (fld N 11 7) (fld N 4 7)) : Option Instr)) ?_ ?_
  · unfold decodeIop
    rw [q0] <;> rfl
  rfl

theorem sub (w : BitVec 1) (d : BitVec 7) (a : BitVec 7) (b : BitVec 7) : Statement (.sub w d a b) := by
  obtain ⟨bound, h, q0, f0, f1, f2, f3⟩ := form0 1 w d a b (by decide) (by decide) (by decide) (by decide) (by decide)
  exact worded (N := put w 31 (put d 18 (put a 11 (put b 4 (1))))) rfl bound (by rw [read_sub (h.trans (by decide)) (q0.trans (by decide)), f0, f1, f2, f3])

theorem read_and {N : Nat} (h : N / 2 ^ 25 % 64 = 0) (q0 : N / 2 ^ 0 % 16 = 2) :
    parse N = some (Instr.and (fld N 31 1) (fld N 18 7) (fld N 11 7) (fld N 4 7)) := by
  rw [major0 h]
  refine Eq.trans (b := (some (.and (fld N 31 1) (fld N 18 7) (fld N 11 7) (fld N 4 7)) : Option Instr)) ?_ ?_
  · unfold decodeIop
    rw [q0] <;> rfl
  rfl

theorem and (w : BitVec 1) (d : BitVec 7) (a : BitVec 7) (b : BitVec 7) : Statement (.and w d a b) := by
  obtain ⟨bound, h, q0, f0, f1, f2, f3⟩ := form0 2 w d a b (by decide) (by decide) (by decide) (by decide) (by decide)
  exact worded (N := put w 31 (put d 18 (put a 11 (put b 4 (2))))) rfl bound (by rw [read_and (h.trans (by decide)) (q0.trans (by decide)), f0, f1, f2, f3])

theorem read_or {N : Nat} (h : N / 2 ^ 25 % 64 = 0) (q0 : N / 2 ^ 0 % 16 = 3) :
    parse N = some (Instr.or (fld N 31 1) (fld N 18 7) (fld N 11 7) (fld N 4 7)) := by
  rw [major0 h]
  refine Eq.trans (b := (some (.or (fld N 31 1) (fld N 18 7) (fld N 11 7) (fld N 4 7)) : Option Instr)) ?_ ?_
  · unfold decodeIop
    rw [q0] <;> rfl
  rfl

theorem or (w : BitVec 1) (d : BitVec 7) (a : BitVec 7) (b : BitVec 7) : Statement (.or w d a b) := by
  obtain ⟨bound, h, q0, f0, f1, f2, f3⟩ := form0 3 w d a b (by decide) (by decide) (by decide) (by decide) (by decide)
  exact worded (N := put w 31 (put d 18 (put a 11 (put b 4 (3))))) rfl bound (by rw [read_or (h.trans (by decide)) (q0.trans (by decide)), f0, f1, f2, f3])

theorem read_xor {N : Nat} (h : N / 2 ^ 25 % 64 = 0) (q0 : N / 2 ^ 0 % 16 = 4) :
    parse N = some (Instr.xor (fld N 31 1) (fld N 18 7) (fld N 11 7) (fld N 4 7)) := by
  rw [major0 h]
  refine Eq.trans (b := (some (.xor (fld N 31 1) (fld N 18 7) (fld N 11 7) (fld N 4 7)) : Option Instr)) ?_ ?_
  · unfold decodeIop
    rw [q0] <;> rfl
  rfl

theorem xor (w : BitVec 1) (d : BitVec 7) (a : BitVec 7) (b : BitVec 7) : Statement (.xor w d a b) := by
  obtain ⟨bound, h, q0, f0, f1, f2, f3⟩ := form0 4 w d a b (by decide) (by decide) (by decide) (by decide) (by decide)
  exact worded (N := put w 31 (put d 18 (put a 11 (put b 4 (4))))) rfl bound (by rw [read_xor (h.trans (by decide)) (q0.trans (by decide)), f0, f1, f2, f3])

theorem read_andn {N : Nat} (h : N / 2 ^ 25 % 64 = 0) (q0 : N / 2 ^ 0 % 16 = 5) :
    parse N = some (Instr.andn (fld N 31 1) (fld N 18 7) (fld N 11 7) (fld N 4 7)) := by
  rw [major0 h]
  refine Eq.trans (b := (some (.andn (fld N 31 1) (fld N 18 7) (fld N 11 7) (fld N 4 7)) : Option Instr)) ?_ ?_
  · unfold decodeIop
    rw [q0] <;> rfl
  rfl

theorem andn (w : BitVec 1) (d : BitVec 7) (a : BitVec 7) (b : BitVec 7) : Statement (.andn w d a b) := by
  obtain ⟨bound, h, q0, f0, f1, f2, f3⟩ := form0 5 w d a b (by decide) (by decide) (by decide) (by decide) (by decide)
  exact worded (N := put w 31 (put d 18 (put a 11 (put b 4 (5))))) rfl bound (by rw [read_andn (h.trans (by decide)) (q0.trans (by decide)), f0, f1, f2, f3])

theorem read_shl {N : Nat} (h : N / 2 ^ 25 % 64 = 0) (q0 : N / 2 ^ 0 % 16 = 6) :
    parse N = some (Instr.shl (fld N 31 1) (fld N 18 7) (fld N 11 7) (fld N 4 7)) := by
  rw [major0 h]
  refine Eq.trans (b := (some (.shl (fld N 31 1) (fld N 18 7) (fld N 11 7) (fld N 4 7)) : Option Instr)) ?_ ?_
  · unfold decodeIop
    rw [q0] <;> rfl
  rfl

theorem shl (w : BitVec 1) (d : BitVec 7) (a : BitVec 7) (b : BitVec 7) : Statement (.shl w d a b) := by
  obtain ⟨bound, h, q0, f0, f1, f2, f3⟩ := form0 6 w d a b (by decide) (by decide) (by decide) (by decide) (by decide)
  exact worded (N := put w 31 (put d 18 (put a 11 (put b 4 (6))))) rfl bound (by rw [read_shl (h.trans (by decide)) (q0.trans (by decide)), f0, f1, f2, f3])

theorem read_shr {N : Nat} (h : N / 2 ^ 25 % 64 = 0) (q0 : N / 2 ^ 0 % 16 = 7) :
    parse N = some (Instr.shr (fld N 31 1) (fld N 18 7) (fld N 11 7) (fld N 4 7)) := by
  rw [major0 h]
  refine Eq.trans (b := (some (.shr (fld N 31 1) (fld N 18 7) (fld N 11 7) (fld N 4 7)) : Option Instr)) ?_ ?_
  · unfold decodeIop
    rw [q0] <;> rfl
  rfl

theorem shr (w : BitVec 1) (d : BitVec 7) (a : BitVec 7) (b : BitVec 7) : Statement (.shr w d a b) := by
  obtain ⟨bound, h, q0, f0, f1, f2, f3⟩ := form0 7 w d a b (by decide) (by decide) (by decide) (by decide) (by decide)
  exact worded (N := put w 31 (put d 18 (put a 11 (put b 4 (7))))) rfl bound (by rw [read_shr (h.trans (by decide)) (q0.trans (by decide)), f0, f1, f2, f3])

theorem read_sra {N : Nat} (h : N / 2 ^ 25 % 64 = 0) (q0 : N / 2 ^ 0 % 16 = 8) :
    parse N = some (Instr.sra (fld N 31 1) (fld N 18 7) (fld N 11 7) (fld N 4 7)) := by
  rw [major0 h]
  refine Eq.trans (b := (some (.sra (fld N 31 1) (fld N 18 7) (fld N 11 7) (fld N 4 7)) : Option Instr)) ?_ ?_
  · unfold decodeIop
    rw [q0] <;> rfl
  rfl

theorem sra (w : BitVec 1) (d : BitVec 7) (a : BitVec 7) (b : BitVec 7) : Statement (.sra w d a b) := by
  obtain ⟨bound, h, q0, f0, f1, f2, f3⟩ := form0 8 w d a b (by decide) (by decide) (by decide) (by decide) (by decide)
  exact worded (N := put w 31 (put d 18 (put a 11 (put b 4 (8))))) rfl bound (by rw [read_sra (h.trans (by decide)) (q0.trans (by decide)), f0, f1, f2, f3])

theorem read_min {N : Nat} (h : N / 2 ^ 25 % 64 = 0) (q0 : N / 2 ^ 0 % 16 = 9) :
    parse N = some (Instr.min (fld N 31 1) (fld N 18 7) (fld N 11 7) (fld N 4 7)) := by
  rw [major0 h]
  refine Eq.trans (b := (some (.min (fld N 31 1) (fld N 18 7) (fld N 11 7) (fld N 4 7)) : Option Instr)) ?_ ?_
  · unfold decodeIop
    rw [q0] <;> rfl
  rfl

theorem min (w : BitVec 1) (d : BitVec 7) (a : BitVec 7) (b : BitVec 7) : Statement (.min w d a b) := by
  obtain ⟨bound, h, q0, f0, f1, f2, f3⟩ := form0 9 w d a b (by decide) (by decide) (by decide) (by decide) (by decide)
  exact worded (N := put w 31 (put d 18 (put a 11 (put b 4 (9))))) rfl bound (by rw [read_min (h.trans (by decide)) (q0.trans (by decide)), f0, f1, f2, f3])

theorem read_max {N : Nat} (h : N / 2 ^ 25 % 64 = 0) (q0 : N / 2 ^ 0 % 16 = 10) :
    parse N = some (Instr.max (fld N 31 1) (fld N 18 7) (fld N 11 7) (fld N 4 7)) := by
  rw [major0 h]
  refine Eq.trans (b := (some (.max (fld N 31 1) (fld N 18 7) (fld N 11 7) (fld N 4 7)) : Option Instr)) ?_ ?_
  · unfold decodeIop
    rw [q0] <;> rfl
  rfl

theorem max (w : BitVec 1) (d : BitVec 7) (a : BitVec 7) (b : BitVec 7) : Statement (.max w d a b) := by
  obtain ⟨bound, h, q0, f0, f1, f2, f3⟩ := form0 10 w d a b (by decide) (by decide) (by decide) (by decide) (by decide)
  exact worded (N := put w 31 (put d 18 (put a 11 (put b 4 (10))))) rfl bound (by rw [read_max (h.trans (by decide)) (q0.trans (by decide)), f0, f1, f2, f3])

theorem read_minn {N : Nat} (h : N / 2 ^ 25 % 64 = 0) (q0 : N / 2 ^ 0 % 16 = 11) :
    parse N = some (Instr.minn (fld N 31 1) (fld N 18 7) (fld N 11 7) (fld N 4 7)) := by
  rw [major0 h]
  refine Eq.trans (b := (some (.minn (fld N 31 1) (fld N 18 7) (fld N 11 7) (fld N 4 7)) : Option Instr)) ?_ ?_
  · unfold decodeIop
    rw [q0] <;> rfl
  rfl

theorem minn (w : BitVec 1) (d : BitVec 7) (a : BitVec 7) (b : BitVec 7) : Statement (.minn w d a b) := by
  obtain ⟨bound, h, q0, f0, f1, f2, f3⟩ := form0 11 w d a b (by decide) (by decide) (by decide) (by decide) (by decide)
  exact worded (N := put w 31 (put d 18 (put a 11 (put b 4 (11))))) rfl bound (by rw [read_minn (h.trans (by decide)) (q0.trans (by decide)), f0, f1, f2, f3])

theorem read_maxn {N : Nat} (h : N / 2 ^ 25 % 64 = 0) (q0 : N / 2 ^ 0 % 16 = 12) :
    parse N = some (Instr.maxn (fld N 31 1) (fld N 18 7) (fld N 11 7) (fld N 4 7)) := by
  rw [major0 h]
  refine Eq.trans (b := (some (.maxn (fld N 31 1) (fld N 18 7) (fld N 11 7) (fld N 4 7)) : Option Instr)) ?_ ?_
  · unfold decodeIop
    rw [q0] <;> rfl
  rfl

theorem maxn (w : BitVec 1) (d : BitVec 7) (a : BitVec 7) (b : BitVec 7) : Statement (.maxn w d a b) := by
  obtain ⟨bound, h, q0, f0, f1, f2, f3⟩ := form0 12 w d a b (by decide) (by decide) (by decide) (by decide) (by decide)
  exact worded (N := put w 31 (put d 18 (put a 11 (put b 4 (12))))) rfl bound (by rw [read_maxn (h.trans (by decide)) (q0.trans (by decide)), f0, f1, f2, f3])

theorem read_mul {N : Nat} (h : N / 2 ^ 25 % 64 = 0) (q0 : N / 2 ^ 0 % 16 = 13) :
    parse N = some (Instr.mul (fld N 31 1) (fld N 18 7) (fld N 11 7) (fld N 4 7)) := by
  rw [major0 h]
  refine Eq.trans (b := (some (.mul (fld N 31 1) (fld N 18 7) (fld N 11 7) (fld N 4 7)) : Option Instr)) ?_ ?_
  · unfold decodeIop
    rw [q0] <;> rfl
  rfl

theorem mul (w : BitVec 1) (d : BitVec 7) (a : BitVec 7) (b : BitVec 7) : Statement (.mul w d a b) := by
  obtain ⟨bound, h, q0, f0, f1, f2, f3⟩ := form0 13 w d a b (by decide) (by decide) (by decide) (by decide) (by decide)
  exact worded (N := put w 31 (put d 18 (put a 11 (put b 4 (13))))) rfl bound (by rw [read_mul (h.trans (by decide)) (q0.trans (by decide)), f0, f1, f2, f3])

theorem read_mulh {N : Nat} (h : N / 2 ^ 25 % 64 = 0) (q0 : N / 2 ^ 0 % 16 = 14) :
    parse N = some (Instr.mulh (fld N 31 1) (fld N 18 7) (fld N 11 7) (fld N 4 7)) := by
  rw [major0 h]
  refine Eq.trans (b := (some (.mulh (fld N 31 1) (fld N 18 7) (fld N 11 7) (fld N 4 7)) : Option Instr)) ?_ ?_
  · unfold decodeIop
    rw [q0] <;> rfl
  rfl

theorem mulh (w : BitVec 1) (d : BitVec 7) (a : BitVec 7) (b : BitVec 7) : Statement (.mulh w d a b) := by
  obtain ⟨bound, h, q0, f0, f1, f2, f3⟩ := form0 14 w d a b (by decide) (by decide) (by decide) (by decide) (by decide)
  exact worded (N := put w 31 (put d 18 (put a 11 (put b 4 (14))))) rfl bound (by rw [read_mulh (h.trans (by decide)) (q0.trans (by decide)), f0, f1, f2, f3])

theorem read_mulhn {N : Nat} (h : N / 2 ^ 25 % 64 = 0) (q0 : N / 2 ^ 0 % 16 = 15) :
    parse N = some (Instr.mulhn (fld N 31 1) (fld N 18 7) (fld N 11 7) (fld N 4 7)) := by
  rw [major0 h]
  refine Eq.trans (b := (some (.mulhn (fld N 31 1) (fld N 18 7) (fld N 11 7) (fld N 4 7)) : Option Instr)) ?_ ?_
  · unfold decodeIop
    rw [q0] <;> rfl
  rfl

theorem mulhn (w : BitVec 1) (d : BitVec 7) (a : BitVec 7) (b : BitVec 7) : Statement (.mulhn w d a b) := by
  obtain ⟨bound, h, q0, f0, f1, f2, f3⟩ := form0 15 w d a b (by decide) (by decide) (by decide) (by decide) (by decide)
  exact worded (N := put w 31 (put d 18 (put a 11 (put b 4 (15))))) rfl bound (by rw [read_mulhn (h.trans (by decide)) (q0.trans (by decide)), f0, f1, f2, f3])

theorem read_divs {N : Nat} (h : N / 2 ^ 25 % 64 = 1) (q0 : N / 2 ^ 0 % 16 = 0) :
    parse N = some (Instr.divs (fld N 31 1) (fld N 18 7) (fld N 11 7) (fld N 4 7)) := by
  rw [major1 h]
  refine Eq.trans (b := (some (.divs (fld N 31 1) (fld N 18 7) (fld N 11 7) (fld N 4 7)) : Option Instr)) ?_ ?_
  · unfold decodeIop2
    rw [q0] <;> rfl
  rfl

theorem divs (w : BitVec 1) (d : BitVec 7) (a : BitVec 7) (b : BitVec 7) : Statement (.divs w d a b) := by
  obtain ⟨bound, h, q0, f0, f1, f2, f3⟩ := form0 33554432 w d a b (by decide) (by decide) (by decide) (by decide) (by decide)
  exact worded (N := put w 31 (put d 18 (put a 11 (put b 4 (33554432))))) rfl bound (by rw [read_divs (h.trans (by decide)) (q0.trans (by decide)), f0, f1, f2, f3])

theorem read_divn {N : Nat} (h : N / 2 ^ 25 % 64 = 1) (q0 : N / 2 ^ 0 % 16 = 1) :
    parse N = some (Instr.divn (fld N 31 1) (fld N 18 7) (fld N 11 7) (fld N 4 7)) := by
  rw [major1 h]
  refine Eq.trans (b := (some (.divn (fld N 31 1) (fld N 18 7) (fld N 11 7) (fld N 4 7)) : Option Instr)) ?_ ?_
  · unfold decodeIop2
    rw [q0] <;> rfl
  rfl

theorem divn (w : BitVec 1) (d : BitVec 7) (a : BitVec 7) (b : BitVec 7) : Statement (.divn w d a b) := by
  obtain ⟨bound, h, q0, f0, f1, f2, f3⟩ := form0 33554433 w d a b (by decide) (by decide) (by decide) (by decide) (by decide)
  exact worded (N := put w 31 (put d 18 (put a 11 (put b 4 (33554433))))) rfl bound (by rw [read_divn (h.trans (by decide)) (q0.trans (by decide)), f0, f1, f2, f3])

theorem read_rems {N : Nat} (h : N / 2 ^ 25 % 64 = 1) (q0 : N / 2 ^ 0 % 16 = 2) :
    parse N = some (Instr.rems (fld N 31 1) (fld N 18 7) (fld N 11 7) (fld N 4 7)) := by
  rw [major1 h]
  refine Eq.trans (b := (some (.rems (fld N 31 1) (fld N 18 7) (fld N 11 7) (fld N 4 7)) : Option Instr)) ?_ ?_
  · unfold decodeIop2
    rw [q0] <;> rfl
  rfl

theorem rems (w : BitVec 1) (d : BitVec 7) (a : BitVec 7) (b : BitVec 7) : Statement (.rems w d a b) := by
  obtain ⟨bound, h, q0, f0, f1, f2, f3⟩ := form0 33554434 w d a b (by decide) (by decide) (by decide) (by decide) (by decide)
  exact worded (N := put w 31 (put d 18 (put a 11 (put b 4 (33554434))))) rfl bound (by rw [read_rems (h.trans (by decide)) (q0.trans (by decide)), f0, f1, f2, f3])

theorem read_remn {N : Nat} (h : N / 2 ^ 25 % 64 = 1) (q0 : N / 2 ^ 0 % 16 = 3) :
    parse N = some (Instr.remn (fld N 31 1) (fld N 18 7) (fld N 11 7) (fld N 4 7)) := by
  rw [major1 h]
  refine Eq.trans (b := (some (.remn (fld N 31 1) (fld N 18 7) (fld N 11 7) (fld N 4 7)) : Option Instr)) ?_ ?_
  · unfold decodeIop2
    rw [q0] <;> rfl
  rfl

theorem remn (w : BitVec 1) (d : BitVec 7) (a : BitVec 7) (b : BitVec 7) : Statement (.remn w d a b) := by
  obtain ⟨bound, h, q0, f0, f1, f2, f3⟩ := form0 33554435 w d a b (by decide) (by decide) (by decide) (by decide) (by decide)
  exact worded (N := put w 31 (put d 18 (put a 11 (put b 4 (33554435))))) rfl bound (by rw [read_remn (h.trans (by decide)) (q0.trans (by decide)), f0, f1, f2, f3])

theorem read_clz {N : Nat} (h : N / 2 ^ 25 % 64 = 1) (q0 : N / 2 ^ 0 % 16 = 4) (q1 : N / 2 ^ 4 % 128 = 0) :
    parse N = some (Instr.clz (fld N 31 1) (fld N 18 7) (fld N 11 7)) := by
  rw [major1 h]
  refine Eq.trans (b := (if N / 2 ^ 4 % 128 = 0 then some (.clz (fld N 31 1) (fld N 18 7) (fld N 11 7)) else none : Option Instr)) ?_ ?_
  · unfold decodeIop2
    rw [q0] <;> rfl
  rw [if_pos q1]

theorem clz (w : BitVec 1) (d : BitVec 7) (a : BitVec 7) : Statement (.clz w d a) := by
  obtain ⟨bound, h, q0, q1, f0, f1, f2⟩ := form1 33554436 w d a (by decide) (by decide) (by decide) (by decide)
  exact worded (N := put w 31 (put d 18 (put a 11 (33554436)))) rfl bound (by rw [read_clz (h.trans (by decide)) (q0.trans (by decide)) (q1.trans (by decide)), f0, f1, f2])

theorem read_ctz {N : Nat} (h : N / 2 ^ 25 % 64 = 1) (q0 : N / 2 ^ 0 % 16 = 5) (q1 : N / 2 ^ 4 % 128 = 0) :
    parse N = some (Instr.ctz (fld N 31 1) (fld N 18 7) (fld N 11 7)) := by
  rw [major1 h]
  refine Eq.trans (b := (if N / 2 ^ 4 % 128 = 0 then some (.ctz (fld N 31 1) (fld N 18 7) (fld N 11 7)) else none : Option Instr)) ?_ ?_
  · unfold decodeIop2
    rw [q0] <;> rfl
  rw [if_pos q1]

theorem ctz (w : BitVec 1) (d : BitVec 7) (a : BitVec 7) : Statement (.ctz w d a) := by
  obtain ⟨bound, h, q0, q1, f0, f1, f2⟩ := form1 33554437 w d a (by decide) (by decide) (by decide) (by decide)
  exact worded (N := put w 31 (put d 18 (put a 11 (33554437)))) rfl bound (by rw [read_ctz (h.trans (by decide)) (q0.trans (by decide)) (q1.trans (by decide)), f0, f1, f2])

theorem read_popc {N : Nat} (h : N / 2 ^ 25 % 64 = 1) (q0 : N / 2 ^ 0 % 16 = 6) (q1 : N / 2 ^ 4 % 128 = 0) :
    parse N = some (Instr.popc (fld N 31 1) (fld N 18 7) (fld N 11 7)) := by
  rw [major1 h]
  refine Eq.trans (b := (if N / 2 ^ 4 % 128 = 0 then some (.popc (fld N 31 1) (fld N 18 7) (fld N 11 7)) else none : Option Instr)) ?_ ?_
  · unfold decodeIop2
    rw [q0] <;> rfl
  rw [if_pos q1]

theorem popc (w : BitVec 1) (d : BitVec 7) (a : BitVec 7) : Statement (.popc w d a) := by
  obtain ⟨bound, h, q0, q1, f0, f1, f2⟩ := form1 33554438 w d a (by decide) (by decide) (by decide) (by decide)
  exact worded (N := put w 31 (put d 18 (put a 11 (33554438)))) rfl bound (by rw [read_popc (h.trans (by decide)) (q0.trans (by decide)) (q1.trans (by decide)), f0, f1, f2])

theorem read_rotl {N : Nat} (h : N / 2 ^ 25 % 64 = 1) (q0 : N / 2 ^ 0 % 16 = 7) :
    parse N = some (Instr.rotl (fld N 31 1) (fld N 18 7) (fld N 11 7) (fld N 4 7)) := by
  rw [major1 h]
  refine Eq.trans (b := (some (.rotl (fld N 31 1) (fld N 18 7) (fld N 11 7) (fld N 4 7)) : Option Instr)) ?_ ?_
  · unfold decodeIop2
    rw [q0] <;> rfl
  rfl

theorem rotl (w : BitVec 1) (d : BitVec 7) (a : BitVec 7) (b : BitVec 7) : Statement (.rotl w d a b) := by
  obtain ⟨bound, h, q0, f0, f1, f2, f3⟩ := form0 33554439 w d a b (by decide) (by decide) (by decide) (by decide) (by decide)
  exact worded (N := put w 31 (put d 18 (put a 11 (put b 4 (33554439))))) rfl bound (by rw [read_rotl (h.trans (by decide)) (q0.trans (by decide)), f0, f1, f2, f3])

theorem read_rotr {N : Nat} (h : N / 2 ^ 25 % 64 = 1) (q0 : N / 2 ^ 0 % 16 = 8) :
    parse N = some (Instr.rotr (fld N 31 1) (fld N 18 7) (fld N 11 7) (fld N 4 7)) := by
  rw [major1 h]
  refine Eq.trans (b := (some (.rotr (fld N 31 1) (fld N 18 7) (fld N 11 7) (fld N 4 7)) : Option Instr)) ?_ ?_
  · unfold decodeIop2
    rw [q0] <;> rfl
  rfl

theorem rotr (w : BitVec 1) (d : BitVec 7) (a : BitVec 7) (b : BitVec 7) : Statement (.rotr w d a b) := by
  obtain ⟨bound, h, q0, f0, f1, f2, f3⟩ := form0 33554440 w d a b (by decide) (by decide) (by decide) (by decide) (by decide)
  exact worded (N := put w 31 (put d 18 (put a 11 (put b 4 (33554440))))) rfl bound (by rw [read_rotr (h.trans (by decide)) (q0.trans (by decide)), f0, f1, f2, f3])

theorem read_addsh1 {N : Nat} (h : N / 2 ^ 25 % 64 = 1) (q0 : N / 2 ^ 0 % 16 = 9) :
    parse N = some (Instr.addsh1 (fld N 31 1) (fld N 18 7) (fld N 11 7) (fld N 4 7)) := by
  rw [major1 h]
  refine Eq.trans (b := (some (.addsh1 (fld N 31 1) (fld N 18 7) (fld N 11 7) (fld N 4 7)) : Option Instr)) ?_ ?_
  · unfold decodeIop2
    rw [q0] <;> rfl
  rfl

theorem addsh1 (w : BitVec 1) (d : BitVec 7) (a : BitVec 7) (b : BitVec 7) : Statement (.addsh1 w d a b) := by
  obtain ⟨bound, h, q0, f0, f1, f2, f3⟩ := form0 33554441 w d a b (by decide) (by decide) (by decide) (by decide) (by decide)
  exact worded (N := put w 31 (put d 18 (put a 11 (put b 4 (33554441))))) rfl bound (by rw [read_addsh1 (h.trans (by decide)) (q0.trans (by decide)), f0, f1, f2, f3])

theorem read_addsh2 {N : Nat} (h : N / 2 ^ 25 % 64 = 1) (q0 : N / 2 ^ 0 % 16 = 10) :
    parse N = some (Instr.addsh2 (fld N 31 1) (fld N 18 7) (fld N 11 7) (fld N 4 7)) := by
  rw [major1 h]
  refine Eq.trans (b := (some (.addsh2 (fld N 31 1) (fld N 18 7) (fld N 11 7) (fld N 4 7)) : Option Instr)) ?_ ?_
  · unfold decodeIop2
    rw [q0] <;> rfl
  rfl

theorem addsh2 (w : BitVec 1) (d : BitVec 7) (a : BitVec 7) (b : BitVec 7) : Statement (.addsh2 w d a b) := by
  obtain ⟨bound, h, q0, f0, f1, f2, f3⟩ := form0 33554442 w d a b (by decide) (by decide) (by decide) (by decide) (by decide)
  exact worded (N := put w 31 (put d 18 (put a 11 (put b 4 (33554442))))) rfl bound (by rw [read_addsh2 (h.trans (by decide)) (q0.trans (by decide)), f0, f1, f2, f3])

theorem read_addsh3 {N : Nat} (h : N / 2 ^ 25 % 64 = 1) (q0 : N / 2 ^ 0 % 16 = 11) :
    parse N = some (Instr.addsh3 (fld N 31 1) (fld N 18 7) (fld N 11 7) (fld N 4 7)) := by
  rw [major1 h]
  refine Eq.trans (b := (some (.addsh3 (fld N 31 1) (fld N 18 7) (fld N 11 7) (fld N 4 7)) : Option Instr)) ?_ ?_
  · unfold decodeIop2
    rw [q0] <;> rfl
  rfl

theorem addsh3 (w : BitVec 1) (d : BitVec 7) (a : BitVec 7) (b : BitVec 7) : Statement (.addsh3 w d a b) := by
  obtain ⟨bound, h, q0, f0, f1, f2, f3⟩ := form0 33554443 w d a b (by decide) (by decide) (by decide) (by decide) (by decide)
  exact worded (N := put w 31 (put d 18 (put a 11 (put b 4 (33554443))))) rfl bound (by rw [read_addsh3 (h.trans (by decide)) (q0.trans (by decide)), f0, f1, f2, f3])

theorem read_spbank {N : Nat} (h : N / 2 ^ 25 % 64 = 1) (q0 : N / 2 ^ 0 % 16 = 12) (q1 : N / 2 ^ 4 % 128 = 0) :
    parse N = some (Instr.spbank (fld N 31 1) (fld N 18 7) (fld N 11 7)) := by
  rw [major1 h]
  refine Eq.trans (b := (if N / 2 ^ 4 % 128 = 0 then some (.spbank (fld N 31 1) (fld N 18 7) (fld N 11 7)) else none : Option Instr)) ?_ ?_
  · unfold decodeIop2
    rw [q0] <;> rfl
  rw [if_pos q1]

theorem spbank (w : BitVec 1) (d : BitVec 7) (a : BitVec 7) : Statement (.spbank w d a) := by
  obtain ⟨bound, h, q0, q1, f0, f1, f2⟩ := form1 33554444 w d a (by decide) (by decide) (by decide) (by decide)
  exact worded (N := put w 31 (put d 18 (put a 11 (33554444)))) rfl bound (by rw [read_spbank (h.trans (by decide)) (q0.trans (by decide)) (q1.trans (by decide)), f0, f1, f2])

theorem read_sprow {N : Nat} (h : N / 2 ^ 25 % 64 = 1) (q0 : N / 2 ^ 0 % 16 = 13) (q1 : N / 2 ^ 4 % 128 = 0) :
    parse N = some (Instr.sprow (fld N 31 1) (fld N 18 7) (fld N 11 7)) := by
  rw [major1 h]
  refine Eq.trans (b := (if N / 2 ^ 4 % 128 = 0 then some (.sprow (fld N 31 1) (fld N 18 7) (fld N 11 7)) else none : Option Instr)) ?_ ?_
  · unfold decodeIop2
    rw [q0] <;> rfl
  rw [if_pos q1]

theorem sprow (w : BitVec 1) (d : BitVec 7) (a : BitVec 7) : Statement (.sprow w d a) := by
  obtain ⟨bound, h, q0, q1, f0, f1, f2⟩ := form1 33554445 w d a (by decide) (by decide) (by decide) (by decide)
  exact worded (N := put w 31 (put d 18 (put a 11 (33554445)))) rfl bound (by rw [read_sprow (h.trans (by decide)) (q0.trans (by decide)) (q1.trans (by decide)), f0, f1, f2])

theorem read_brev {N : Nat} (h : N / 2 ^ 25 % 64 = 1) (q0 : N / 2 ^ 0 % 16 = 14) (q1 : N / 2 ^ 4 % 128 = 0) :
    parse N = some (Instr.brev (fld N 31 1) (fld N 18 7) (fld N 11 7)) := by
  rw [major1 h]
  refine Eq.trans (b := (if N / 2 ^ 4 % 128 = 0 then some (.brev (fld N 31 1) (fld N 18 7) (fld N 11 7)) else none : Option Instr)) ?_ ?_
  · unfold decodeIop2
    rw [q0] <;> rfl
  rw [if_pos q1]

theorem brev (w : BitVec 1) (d : BitVec 7) (a : BitVec 7) : Statement (.brev w d a) := by
  obtain ⟨bound, h, q0, q1, f0, f1, f2⟩ := form1 33554446 w d a (by decide) (by decide) (by decide) (by decide)
  exact worded (N := put w 31 (put d 18 (put a 11 (33554446)))) rfl bound (by rw [read_brev (h.trans (by decide)) (q0.trans (by decide)) (q1.trans (by decide)), f0, f1, f2])

theorem read_bswap {N : Nat} (h : N / 2 ^ 25 % 64 = 1) (q0 : N / 2 ^ 0 % 16 = 15) (q1 : N / 2 ^ 4 % 128 = 0) :
    parse N = some (Instr.bswap (fld N 31 1) (fld N 18 7) (fld N 11 7)) := by
  rw [major1 h]
  refine Eq.trans (b := (if N / 2 ^ 4 % 128 = 0 then some (.bswap (fld N 31 1) (fld N 18 7) (fld N 11 7)) else none : Option Instr)) ?_ ?_
  · unfold decodeIop2
    rw [q0] <;> rfl
  rw [if_pos q1]

theorem bswap (w : BitVec 1) (d : BitVec 7) (a : BitVec 7) : Statement (.bswap w d a) := by
  obtain ⟨bound, h, q0, q1, f0, f1, f2⟩ := form1 33554447 w d a (by decide) (by decide) (by decide) (by decide)
  exact worded (N := put w 31 (put d 18 (put a 11 (33554447)))) rfl bound (by rw [read_bswap (h.trans (by decide)) (q0.trans (by decide)) (q1.trans (by decide)), f0, f1, f2])

theorem read_ceq {N : Nat} (h : N / 2 ^ 25 % 64 = 2) (q0 : N / 2 ^ 0 % 16 = 0) :
    parse N = some (Instr.ceq (fld N 31 1) (fld N 24 1) (fld N 18 6) (fld N 11 7) (fld N 4 7)) := by
  rw [major2 h]
  refine Eq.trans (b := (some (.ceq (fld N 31 1) (fld N 24 1) (fld N 18 6) (fld N 11 7) (fld N 4 7)) : Option Instr)) ?_ ?_
  · unfold decodeCmp
    rw [q0] <;> rfl
  rfl

theorem ceq (w : BitVec 1) (p : BitVec 1) (k : BitVec 6) (a : BitVec 7) (b : BitVec 7) : Statement (.ceq w p k a b) := by
  obtain ⟨bound, h, q0, f0, f1, f2, f3, f4⟩ := form2 67108864 w p k a b (by decide) (by decide) (by decide) (by decide) (by decide) (by decide)
  exact worded (N := put w 31 (put p 24 (put k 18 (put a 11 (put b 4 (67108864)))))) rfl bound (by rw [read_ceq (h.trans (by decide)) (q0.trans (by decide)), f0, f1, f2, f3, f4])

theorem read_cne {N : Nat} (h : N / 2 ^ 25 % 64 = 2) (q0 : N / 2 ^ 0 % 16 = 1) :
    parse N = some (Instr.cne (fld N 31 1) (fld N 24 1) (fld N 18 6) (fld N 11 7) (fld N 4 7)) := by
  rw [major2 h]
  refine Eq.trans (b := (some (.cne (fld N 31 1) (fld N 24 1) (fld N 18 6) (fld N 11 7) (fld N 4 7)) : Option Instr)) ?_ ?_
  · unfold decodeCmp
    rw [q0] <;> rfl
  rfl

theorem cne (w : BitVec 1) (p : BitVec 1) (k : BitVec 6) (a : BitVec 7) (b : BitVec 7) : Statement (.cne w p k a b) := by
  obtain ⟨bound, h, q0, f0, f1, f2, f3, f4⟩ := form2 67108865 w p k a b (by decide) (by decide) (by decide) (by decide) (by decide) (by decide)
  exact worded (N := put w 31 (put p 24 (put k 18 (put a 11 (put b 4 (67108865)))))) rfl bound (by rw [read_cne (h.trans (by decide)) (q0.trans (by decide)), f0, f1, f2, f3, f4])

theorem read_clt {N : Nat} (h : N / 2 ^ 25 % 64 = 2) (q0 : N / 2 ^ 0 % 16 = 2) :
    parse N = some (Instr.clt (fld N 31 1) (fld N 24 1) (fld N 18 6) (fld N 11 7) (fld N 4 7)) := by
  rw [major2 h]
  refine Eq.trans (b := (some (.clt (fld N 31 1) (fld N 24 1) (fld N 18 6) (fld N 11 7) (fld N 4 7)) : Option Instr)) ?_ ?_
  · unfold decodeCmp
    rw [q0] <;> rfl
  rfl

theorem clt (w : BitVec 1) (p : BitVec 1) (k : BitVec 6) (a : BitVec 7) (b : BitVec 7) : Statement (.clt w p k a b) := by
  obtain ⟨bound, h, q0, f0, f1, f2, f3, f4⟩ := form2 67108866 w p k a b (by decide) (by decide) (by decide) (by decide) (by decide) (by decide)
  exact worded (N := put w 31 (put p 24 (put k 18 (put a 11 (put b 4 (67108866)))))) rfl bound (by rw [read_clt (h.trans (by decide)) (q0.trans (by decide)), f0, f1, f2, f3, f4])

theorem read_cle {N : Nat} (h : N / 2 ^ 25 % 64 = 2) (q0 : N / 2 ^ 0 % 16 = 3) :
    parse N = some (Instr.cle (fld N 31 1) (fld N 24 1) (fld N 18 6) (fld N 11 7) (fld N 4 7)) := by
  rw [major2 h]
  refine Eq.trans (b := (some (.cle (fld N 31 1) (fld N 24 1) (fld N 18 6) (fld N 11 7) (fld N 4 7)) : Option Instr)) ?_ ?_
  · unfold decodeCmp
    rw [q0] <;> rfl
  rfl

theorem cle (w : BitVec 1) (p : BitVec 1) (k : BitVec 6) (a : BitVec 7) (b : BitVec 7) : Statement (.cle w p k a b) := by
  obtain ⟨bound, h, q0, f0, f1, f2, f3, f4⟩ := form2 67108867 w p k a b (by decide) (by decide) (by decide) (by decide) (by decide) (by decide)
  exact worded (N := put w 31 (put p 24 (put k 18 (put a 11 (put b 4 (67108867)))))) rfl bound (by rw [read_cle (h.trans (by decide)) (q0.trans (by decide)), f0, f1, f2, f3, f4])

theorem read_cltn {N : Nat} (h : N / 2 ^ 25 % 64 = 2) (q0 : N / 2 ^ 0 % 16 = 4) :
    parse N = some (Instr.cltn (fld N 31 1) (fld N 24 1) (fld N 18 6) (fld N 11 7) (fld N 4 7)) := by
  rw [major2 h]
  refine Eq.trans (b := (some (.cltn (fld N 31 1) (fld N 24 1) (fld N 18 6) (fld N 11 7) (fld N 4 7)) : Option Instr)) ?_ ?_
  · unfold decodeCmp
    rw [q0] <;> rfl
  rfl

theorem cltn (w : BitVec 1) (p : BitVec 1) (k : BitVec 6) (a : BitVec 7) (b : BitVec 7) : Statement (.cltn w p k a b) := by
  obtain ⟨bound, h, q0, f0, f1, f2, f3, f4⟩ := form2 67108868 w p k a b (by decide) (by decide) (by decide) (by decide) (by decide) (by decide)
  exact worded (N := put w 31 (put p 24 (put k 18 (put a 11 (put b 4 (67108868)))))) rfl bound (by rw [read_cltn (h.trans (by decide)) (q0.trans (by decide)), f0, f1, f2, f3, f4])

theorem read_clen {N : Nat} (h : N / 2 ^ 25 % 64 = 2) (q0 : N / 2 ^ 0 % 16 = 5) :
    parse N = some (Instr.clen (fld N 31 1) (fld N 24 1) (fld N 18 6) (fld N 11 7) (fld N 4 7)) := by
  rw [major2 h]
  refine Eq.trans (b := (some (.clen (fld N 31 1) (fld N 24 1) (fld N 18 6) (fld N 11 7) (fld N 4 7)) : Option Instr)) ?_ ?_
  · unfold decodeCmp
    rw [q0] <;> rfl
  rfl

theorem clen (w : BitVec 1) (p : BitVec 1) (k : BitVec 6) (a : BitVec 7) (b : BitVec 7) : Statement (.clen w p k a b) := by
  obtain ⟨bound, h, q0, f0, f1, f2, f3, f4⟩ := form2 67108869 w p k a b (by decide) (by decide) (by decide) (by decide) (by decide) (by decide)
  exact worded (N := put w 31 (put p 24 (put k 18 (put a 11 (put b 4 (67108869)))))) rfl bound (by rw [read_clen (h.trans (by decide)) (q0.trans (by decide)), f0, f1, f2, f3, f4])

theorem read_cbit {N : Nat} (h : N / 2 ^ 25 % 64 = 2) (q0 : N / 2 ^ 0 % 16 = 6) :
    parse N = some (Instr.cbit (fld N 31 1) (fld N 24 1) (fld N 18 6) (fld N 11 7) (fld N 4 7)) := by
  rw [major2 h]
  refine Eq.trans (b := (some (.cbit (fld N 31 1) (fld N 24 1) (fld N 18 6) (fld N 11 7) (fld N 4 7)) : Option Instr)) ?_ ?_
  · unfold decodeCmp
    rw [q0] <;> rfl
  rfl

theorem cbit (w : BitVec 1) (p : BitVec 1) (k : BitVec 6) (a : BitVec 7) (b : BitVec 7) : Statement (.cbit w p k a b) := by
  obtain ⟨bound, h, q0, f0, f1, f2, f3, f4⟩ := form2 67108870 w p k a b (by decide) (by decide) (by decide) (by decide) (by decide) (by decide)
  exact worded (N := put w 31 (put p 24 (put k 18 (put a 11 (put b 4 (67108870)))))) rfl bound (by rw [read_cbit (h.trans (by decide)) (q0.trans (by decide)), f0, f1, f2, f3, f4])

theorem read_addi {N : Nat} (h : N / 2 ^ 25 % 64 = 4) :
    parse N = some (Instr.addi (fld N 31 1) (fld N 18 7) (fld N 11 7) (fld N 0 11)) := by
  rw [major4 h]
  rfl

theorem addi (w : BitVec 1) (d : BitVec 7) (a : BitVec 7) (i : BitVec 11) : Statement (.addi w d a i) := by
  obtain ⟨bound, h, f0, f1, f2, f3⟩ := form3 134217728 w d a i (by decide) (by decide) (by decide) (by decide) (by decide)
  exact worded (N := put w 31 (put d 18 (put a 11 (put i 0 (134217728))))) rfl bound (by rw [read_addi (h.trans (by decide)), f0, f1, f2, f3])

theorem read_andi {N : Nat} (h : N / 2 ^ 25 % 64 = 5) :
    parse N = some (Instr.andi (fld N 31 1) (fld N 18 7) (fld N 11 7) (fld N 0 11)) := by
  rw [major5 h]
  rfl

theorem andi (w : BitVec 1) (d : BitVec 7) (a : BitVec 7) (i : BitVec 11) : Statement (.andi w d a i) := by
  obtain ⟨bound, h, f0, f1, f2, f3⟩ := form3 167772160 w d a i (by decide) (by decide) (by decide) (by decide) (by decide)
  exact worded (N := put w 31 (put d 18 (put a 11 (put i 0 (167772160))))) rfl bound (by rw [read_andi (h.trans (by decide)), f0, f1, f2, f3])

theorem read_ori {N : Nat} (h : N / 2 ^ 25 % 64 = 6) :
    parse N = some (Instr.ori (fld N 31 1) (fld N 18 7) (fld N 11 7) (fld N 0 11)) := by
  rw [major6 h]
  rfl

theorem ori (w : BitVec 1) (d : BitVec 7) (a : BitVec 7) (i : BitVec 11) : Statement (.ori w d a i) := by
  obtain ⟨bound, h, f0, f1, f2, f3⟩ := form3 201326592 w d a i (by decide) (by decide) (by decide) (by decide) (by decide)
  exact worded (N := put w 31 (put d 18 (put a 11 (put i 0 (201326592))))) rfl bound (by rw [read_ori (h.trans (by decide)), f0, f1, f2, f3])

theorem read_xori {N : Nat} (h : N / 2 ^ 25 % 64 = 7) :
    parse N = some (Instr.xori (fld N 31 1) (fld N 18 7) (fld N 11 7) (fld N 0 11)) := by
  rw [major7 h]
  rfl

theorem xori (w : BitVec 1) (d : BitVec 7) (a : BitVec 7) (i : BitVec 11) : Statement (.xori w d a i) := by
  obtain ⟨bound, h, f0, f1, f2, f3⟩ := form3 234881024 w d a i (by decide) (by decide) (by decide) (by decide) (by decide)
  exact worded (N := put w 31 (put d 18 (put a 11 (put i 0 (234881024))))) rfl bound (by rw [read_xori (h.trans (by decide)), f0, f1, f2, f3])

theorem read_muli {N : Nat} (h : N / 2 ^ 25 % 64 = 11) :
    parse N = some (Instr.muli (fld N 31 1) (fld N 18 7) (fld N 11 7) (fld N 0 11)) := by
  rw [major11 h]
  rfl

theorem muli (w : BitVec 1) (d : BitVec 7) (a : BitVec 7) (i : BitVec 11) : Statement (.muli w d a i) := by
  obtain ⟨bound, h, f0, f1, f2, f3⟩ := form3 369098752 w d a i (by decide) (by decide) (by decide) (by decide) (by decide)
  exact worded (N := put w 31 (put d 18 (put a 11 (put i 0 (369098752))))) rfl bound (by rw [read_muli (h.trans (by decide)), f0, f1, f2, f3])

theorem read_shli {N : Nat} (h : N / 2 ^ 25 % 64 = 8) (q0 : N / 2 ^ 6 % 32 = 0) :
    parse N = some (Instr.shli (fld N 31 1) (fld N 18 7) (fld N 11 7) (fld N 0 6)) := by
  rw [major8 h]
  refine Eq.trans (b := (some (.shli (fld N 31 1) (fld N 18 7) (fld N 11 7) (fld N 0 6)) : Option Instr)) ?_ ?_
  · unfold decodeShfi
    rw [q0] <;> rfl
  rfl

theorem shli (w : BitVec 1) (d : BitVec 7) (a : BitVec 7) (n : BitVec 6) : Statement (.shli w d a n) := by
  obtain ⟨bound, h, q0, f0, f1, f2, f3⟩ := form4 268435456 w d a n (by decide) (by decide) (by decide) (by decide) (by decide)
  exact worded (N := put w 31 (put d 18 (put a 11 (put n 0 (268435456))))) rfl bound (by rw [read_shli (h.trans (by decide)) (q0.trans (by decide)), f0, f1, f2, f3])

theorem read_shri {N : Nat} (h : N / 2 ^ 25 % 64 = 8) (q0 : N / 2 ^ 6 % 32 = 8) :
    parse N = some (Instr.shri (fld N 31 1) (fld N 18 7) (fld N 11 7) (fld N 0 6)) := by
  rw [major8 h]
  refine Eq.trans (b := (some (.shri (fld N 31 1) (fld N 18 7) (fld N 11 7) (fld N 0 6)) : Option Instr)) ?_ ?_
  · unfold decodeShfi
    rw [q0] <;> rfl
  rfl

theorem shri (w : BitVec 1) (d : BitVec 7) (a : BitVec 7) (n : BitVec 6) : Statement (.shri w d a n) := by
  obtain ⟨bound, h, q0, f0, f1, f2, f3⟩ := form4 268435968 w d a n (by decide) (by decide) (by decide) (by decide) (by decide)
  exact worded (N := put w 31 (put d 18 (put a 11 (put n 0 (268435968))))) rfl bound (by rw [read_shri (h.trans (by decide)) (q0.trans (by decide)), f0, f1, f2, f3])

theorem read_srai {N : Nat} (h : N / 2 ^ 25 % 64 = 8) (q0 : N / 2 ^ 6 % 32 = 16) :
    parse N = some (Instr.srai (fld N 31 1) (fld N 18 7) (fld N 11 7) (fld N 0 6)) := by
  rw [major8 h]
  refine Eq.trans (b := (some (.srai (fld N 31 1) (fld N 18 7) (fld N 11 7) (fld N 0 6)) : Option Instr)) ?_ ?_
  · unfold decodeShfi
    rw [q0] <;> rfl
  rfl

theorem srai (w : BitVec 1) (d : BitVec 7) (a : BitVec 7) (n : BitVec 6) : Statement (.srai w d a n) := by
  obtain ⟨bound, h, q0, f0, f1, f2, f3⟩ := form4 268436480 w d a n (by decide) (by decide) (by decide) (by decide) (by decide)
  exact worded (N := put w 31 (put d 18 (put a 11 (put n 0 (268436480))))) rfl bound (by rw [read_srai (h.trans (by decide)) (q0.trans (by decide)), f0, f1, f2, f3])

theorem read_rotli {N : Nat} (h : N / 2 ^ 25 % 64 = 8) (q0 : N / 2 ^ 6 % 32 = 24) :
    parse N = some (Instr.rotli (fld N 31 1) (fld N 18 7) (fld N 11 7) (fld N 0 6)) := by
  rw [major8 h]
  refine Eq.trans (b := (some (.rotli (fld N 31 1) (fld N 18 7) (fld N 11 7) (fld N 0 6)) : Option Instr)) ?_ ?_
  · unfold decodeShfi
    rw [q0] <;> rfl
  rfl

theorem rotli (w : BitVec 1) (d : BitVec 7) (a : BitVec 7) (n : BitVec 6) : Statement (.rotli w d a n) := by
  obtain ⟨bound, h, q0, f0, f1, f2, f3⟩ := form4 268436992 w d a n (by decide) (by decide) (by decide) (by decide) (by decide)
  exact worded (N := put w 31 (put d 18 (put a 11 (put n 0 (268436992))))) rfl bound (by rw [read_rotli (h.trans (by decide)) (q0.trans (by decide)), f0, f1, f2, f3])

theorem read_ceqi {N : Nat} (h : N / 2 ^ 25 % 64 = 9) (q0 : N / 2 ^ 8 % 8 = 0) :
    parse N = some (Instr.ceqi (fld N 31 1) (fld N 24 1) (fld N 18 6) (fld N 11 7) (fld N 0 8)) := by
  rw [major9 h]
  refine Eq.trans (b := (some (.ceqi (fld N 31 1) (fld N 24 1) (fld N 18 6) (fld N 11 7) (fld N 0 8)) : Option Instr)) ?_ ?_
  · unfold decodeCmpi
    rw [q0] <;> rfl
  rfl

theorem ceqi (w : BitVec 1) (p : BitVec 1) (k : BitVec 6) (a : BitVec 7) (i : BitVec 8) : Statement (.ceqi w p k a i) := by
  obtain ⟨bound, h, q0, f0, f1, f2, f3, f4⟩ := form5 301989888 w p k a i (by decide) (by decide) (by decide) (by decide) (by decide) (by decide)
  exact worded (N := put w 31 (put p 24 (put k 18 (put a 11 (put i 0 (301989888)))))) rfl bound (by rw [read_ceqi (h.trans (by decide)) (q0.trans (by decide)), f0, f1, f2, f3, f4])

theorem read_cnei {N : Nat} (h : N / 2 ^ 25 % 64 = 9) (q0 : N / 2 ^ 8 % 8 = 1) :
    parse N = some (Instr.cnei (fld N 31 1) (fld N 24 1) (fld N 18 6) (fld N 11 7) (fld N 0 8)) := by
  rw [major9 h]
  refine Eq.trans (b := (some (.cnei (fld N 31 1) (fld N 24 1) (fld N 18 6) (fld N 11 7) (fld N 0 8)) : Option Instr)) ?_ ?_
  · unfold decodeCmpi
    rw [q0] <;> rfl
  rfl

theorem cnei (w : BitVec 1) (p : BitVec 1) (k : BitVec 6) (a : BitVec 7) (i : BitVec 8) : Statement (.cnei w p k a i) := by
  obtain ⟨bound, h, q0, f0, f1, f2, f3, f4⟩ := form5 301990144 w p k a i (by decide) (by decide) (by decide) (by decide) (by decide) (by decide)
  exact worded (N := put w 31 (put p 24 (put k 18 (put a 11 (put i 0 (301990144)))))) rfl bound (by rw [read_cnei (h.trans (by decide)) (q0.trans (by decide)), f0, f1, f2, f3, f4])

theorem read_clti {N : Nat} (h : N / 2 ^ 25 % 64 = 9) (q0 : N / 2 ^ 8 % 8 = 2) :
    parse N = some (Instr.clti (fld N 31 1) (fld N 24 1) (fld N 18 6) (fld N 11 7) (fld N 0 8)) := by
  rw [major9 h]
  refine Eq.trans (b := (some (.clti (fld N 31 1) (fld N 24 1) (fld N 18 6) (fld N 11 7) (fld N 0 8)) : Option Instr)) ?_ ?_
  · unfold decodeCmpi
    rw [q0] <;> rfl
  rfl

theorem clti (w : BitVec 1) (p : BitVec 1) (k : BitVec 6) (a : BitVec 7) (i : BitVec 8) : Statement (.clti w p k a i) := by
  obtain ⟨bound, h, q0, f0, f1, f2, f3, f4⟩ := form5 301990400 w p k a i (by decide) (by decide) (by decide) (by decide) (by decide) (by decide)
  exact worded (N := put w 31 (put p 24 (put k 18 (put a 11 (put i 0 (301990400)))))) rfl bound (by rw [read_clti (h.trans (by decide)) (q0.trans (by decide)), f0, f1, f2, f3, f4])

theorem read_clei {N : Nat} (h : N / 2 ^ 25 % 64 = 9) (q0 : N / 2 ^ 8 % 8 = 3) :
    parse N = some (Instr.clei (fld N 31 1) (fld N 24 1) (fld N 18 6) (fld N 11 7) (fld N 0 8)) := by
  rw [major9 h]
  refine Eq.trans (b := (some (.clei (fld N 31 1) (fld N 24 1) (fld N 18 6) (fld N 11 7) (fld N 0 8)) : Option Instr)) ?_ ?_
  · unfold decodeCmpi
    rw [q0] <;> rfl
  rfl

theorem clei (w : BitVec 1) (p : BitVec 1) (k : BitVec 6) (a : BitVec 7) (i : BitVec 8) : Statement (.clei w p k a i) := by
  obtain ⟨bound, h, q0, f0, f1, f2, f3, f4⟩ := form5 301990656 w p k a i (by decide) (by decide) (by decide) (by decide) (by decide) (by decide)
  exact worded (N := put w 31 (put p 24 (put k 18 (put a 11 (put i 0 (301990656)))))) rfl bound (by rw [read_clei (h.trans (by decide)) (q0.trans (by decide)), f0, f1, f2, f3, f4])

theorem read_cltni {N : Nat} (h : N / 2 ^ 25 % 64 = 9) (q0 : N / 2 ^ 8 % 8 = 4) :
    parse N = some (Instr.cltni (fld N 31 1) (fld N 24 1) (fld N 18 6) (fld N 11 7) (fld N 0 8)) := by
  rw [major9 h]
  refine Eq.trans (b := (some (.cltni (fld N 31 1) (fld N 24 1) (fld N 18 6) (fld N 11 7) (fld N 0 8)) : Option Instr)) ?_ ?_
  · unfold decodeCmpi
    rw [q0] <;> rfl
  rfl

theorem cltni (w : BitVec 1) (p : BitVec 1) (k : BitVec 6) (a : BitVec 7) (i : BitVec 8) : Statement (.cltni w p k a i) := by
  obtain ⟨bound, h, q0, f0, f1, f2, f3, f4⟩ := form5 301990912 w p k a i (by decide) (by decide) (by decide) (by decide) (by decide) (by decide)
  exact worded (N := put w 31 (put p 24 (put k 18 (put a 11 (put i 0 (301990912)))))) rfl bound (by rw [read_cltni (h.trans (by decide)) (q0.trans (by decide)), f0, f1, f2, f3, f4])

theorem read_cleni {N : Nat} (h : N / 2 ^ 25 % 64 = 9) (q0 : N / 2 ^ 8 % 8 = 5) :
    parse N = some (Instr.cleni (fld N 31 1) (fld N 24 1) (fld N 18 6) (fld N 11 7) (fld N 0 8)) := by
  rw [major9 h]
  refine Eq.trans (b := (some (.cleni (fld N 31 1) (fld N 24 1) (fld N 18 6) (fld N 11 7) (fld N 0 8)) : Option Instr)) ?_ ?_
  · unfold decodeCmpi
    rw [q0] <;> rfl
  rfl

theorem cleni (w : BitVec 1) (p : BitVec 1) (k : BitVec 6) (a : BitVec 7) (i : BitVec 8) : Statement (.cleni w p k a i) := by
  obtain ⟨bound, h, q0, f0, f1, f2, f3, f4⟩ := form5 301991168 w p k a i (by decide) (by decide) (by decide) (by decide) (by decide) (by decide)
  exact worded (N := put w 31 (put p 24 (put k 18 (put a 11 (put i 0 (301991168)))))) rfl bound (by rw [read_cleni (h.trans (by decide)) (q0.trans (by decide)), f0, f1, f2, f3, f4])

theorem read_cgti {N : Nat} (h : N / 2 ^ 25 % 64 = 9) (q0 : N / 2 ^ 8 % 8 = 6) :
    parse N = some (Instr.cgti (fld N 31 1) (fld N 24 1) (fld N 18 6) (fld N 11 7) (fld N 0 8)) := by
  rw [major9 h]
  refine Eq.trans (b := (some (.cgti (fld N 31 1) (fld N 24 1) (fld N 18 6) (fld N 11 7) (fld N 0 8)) : Option Instr)) ?_ ?_
  · unfold decodeCmpi
    rw [q0] <;> rfl
  rfl

theorem cgti (w : BitVec 1) (p : BitVec 1) (k : BitVec 6) (a : BitVec 7) (i : BitVec 8) : Statement (.cgti w p k a i) := by
  obtain ⟨bound, h, q0, f0, f1, f2, f3, f4⟩ := form5 301991424 w p k a i (by decide) (by decide) (by decide) (by decide) (by decide) (by decide)
  exact worded (N := put w 31 (put p 24 (put k 18 (put a 11 (put i 0 (301991424)))))) rfl bound (by rw [read_cgti (h.trans (by decide)) (q0.trans (by decide)), f0, f1, f2, f3, f4])

theorem read_cgei {N : Nat} (h : N / 2 ^ 25 % 64 = 9) (q0 : N / 2 ^ 8 % 8 = 7) :
    parse N = some (Instr.cgei (fld N 31 1) (fld N 24 1) (fld N 18 6) (fld N 11 7) (fld N 0 8)) := by
  rw [major9 h]
  refine Eq.trans (b := (some (.cgei (fld N 31 1) (fld N 24 1) (fld N 18 6) (fld N 11 7) (fld N 0 8)) : Option Instr)) ?_ ?_
  · unfold decodeCmpi
    rw [q0] <;> rfl
  rfl

theorem cgei (w : BitVec 1) (p : BitVec 1) (k : BitVec 6) (a : BitVec 7) (i : BitVec 8) : Statement (.cgei w p k a i) := by
  obtain ⟨bound, h, q0, f0, f1, f2, f3, f4⟩ := form5 301991680 w p k a i (by decide) (by decide) (by decide) (by decide) (by decide) (by decide)
  exact worded (N := put w 31 (put p 24 (put k 18 (put a 11 (put i 0 (301991680)))))) rfl bound (by rw [read_cgei (h.trans (by decide)) (q0.trans (by decide)), f0, f1, f2, f3, f4])

theorem read_exti {N : Nat} (h : N / 2 ^ 25 % 64 = 10) :
    parse N = some (Instr.exti (fld N 31 1) (fld N 18 7) (fld N 11 7) (fld N 6 5) (fld N 0 6)) := by
  rw [major10 h]
  rfl

theorem exti (w : BitVec 1) (d : BitVec 7) (a : BitVec 7) (x : BitVec 5) (l : BitVec 6) : Statement (.exti w d a x l) := by
  obtain ⟨bound, h, f0, f1, f2, f3, f4⟩ := form6 335544320 w d a x l (by decide) (by decide) (by decide) (by decide) (by decide) (by decide)
  exact worded (N := put w 31 (put d 18 (put a 11 (put x 6 (put l 0 (335544320)))))) rfl bound (by rw [read_exti (h.trans (by decide)), f0, f1, f2, f3, f4])

theorem read_lqz {N : Nat} (h : N / 2 ^ 25 % 64 = 12) :
    parse N = some (Instr.lqz (fld N 31 1) (fld N 18 7) (fld N 16 2) (fld N 0 16)) := by
  rw [major12 h]
  rfl

theorem lqz (w : BitVec 1) (d : BitVec 7) (q : BitVec 2) (i : BitVec 16) : Statement (.lqz w d q i) := by
  obtain ⟨bound, h, f0, f1, f2, f3⟩ := form7 402653184 w d q i (by decide) (by decide) (by decide) (by decide) (by decide)
  exact worded (N := put w 31 (put d 18 (put q 16 (put i 0 (402653184))))) rfl bound (by rw [read_lqz (h.trans (by decide)), f0, f1, f2, f3])

theorem read_lqk {N : Nat} (h : N / 2 ^ 25 % 64 = 13) :
    parse N = some (Instr.lqk (fld N 31 1) (fld N 18 7) (fld N 16 2) (fld N 0 16)) := by
  rw [major13 h]
  rfl

theorem lqk (w : BitVec 1) (d : BitVec 7) (q : BitVec 2) (i : BitVec 16) : Statement (.lqk w d q i) := by
  obtain ⟨bound, h, f0, f1, f2, f3⟩ := form7 436207616 w d q i (by decide) (by decide) (by decide) (by decide) (by decide)
  exact worded (N := put w 31 (put d 18 (put q 16 (put i 0 (436207616))))) rfl bound (by rw [read_lqk (h.trans (by decide)), f0, f1, f2, f3])

theorem read_pcadd {N : Nat} (h : N / 2 ^ 25 % 64 = 14) (q0 : N / 2 ^ 17 % 2 = 0) :
    parse N = some (Instr.pcadd (fld N 31 1) (fld N 18 7) (fld N 16 1) (fld N 0 16)) := by
  rw [major14 h]
  unfold decodePcadd
  rw [if_pos q0]

theorem pcadd (w : BitVec 1) (d : BitVec 7) (q : BitVec 1) (i : BitVec 16) : Statement (.pcadd w d q i) := by
  obtain ⟨bound, h, q0, f0, f1, f2, f3⟩ := form8 469762048 w d q i (by decide) (by decide) (by decide) (by decide) (by decide)
  exact worded (N := put w 31 (put d 18 (put q 16 (put i 0 (469762048))))) rfl bound (by rw [read_pcadd (h.trans (by decide)) (q0.trans (by decide)), f0, f1, f2, f3])

theorem read_psel {N : Nat} (h : N / 2 ^ 25 % 64 = 15) :
    parse N = some (Instr.psel (fld N 31 1) (fld N 18 7) (fld N 11 7) (fld N 4 7) (fld N 0 4)) := by
  rw [major15 h]
  rfl

theorem psel (w : BitVec 1) (d : BitVec 7) (a : BitVec 7) (b : BitVec 7) (k : BitVec 4) : Statement (.psel w d a b k) := by
  obtain ⟨bound, h, f0, f1, f2, f3, f4⟩ := form9 503316480 w d a b k (by decide) (by decide) (by decide) (by decide) (by decide) (by decide)
  exact worded (N := put w 31 (put d 18 (put a 11 (put b 4 (put k 0 (503316480)))))) rfl bound (by rw [read_psel (h.trans (by decide)), f0, f1, f2, f3, f4])

theorem read_pand {N : Nat} (h : N / 2 ^ 25 % 64 = 16) (q0 : N / 2 ^ 8 % 8 = 0) (q1 : N / 2 ^ 6 % 4 = 0) (q2 : N / 2 ^ 17 % 2 = 0) (q3 : N / 2 ^ 24 % 2 = 0) :
    parse N = some (Instr.pand (fld N 31 1) (fld N 18 6) (fld N 11 6) (fld N 0 6)) := by
  rw [major16 h]
  refine Eq.trans (b := (if N / 2 ^ 6 % 4 = 0 ∧ N / 2 ^ 17 % 2 = 0 ∧ N / 2 ^ 24 % 2 = 0 then some (.pand (fld N 31 1) (fld N 18 6) (fld N 11 6) (fld N 0 6)) else none : Option Instr)) ?_ ?_
  · unfold decodePlog
    rw [q0] <;> rfl
  rw [if_pos ⟨q1, q2, q3⟩]

theorem pand (w : BitVec 1) (k : BitVec 6) (j : BitVec 6) (m : BitVec 6) : Statement (.pand w k j m) := by
  obtain ⟨bound, h, q0, q1, q2, q3, f0, f1, f2, f3⟩ := form10 536870912 w k j m (by decide) (by decide) (by decide) (by decide) (by decide)
  exact worded (N := put w 31 (put k 18 (put j 11 (put m 0 (536870912))))) rfl bound (by rw [read_pand (h.trans (by decide)) (q0.trans (by decide)) (q1.trans (by decide)) (q2.trans (by decide)) (q3.trans (by decide)), f0, f1, f2, f3])

theorem read_por {N : Nat} (h : N / 2 ^ 25 % 64 = 16) (q0 : N / 2 ^ 8 % 8 = 1) (q1 : N / 2 ^ 6 % 4 = 0) (q2 : N / 2 ^ 17 % 2 = 0) (q3 : N / 2 ^ 24 % 2 = 0) :
    parse N = some (Instr.por (fld N 31 1) (fld N 18 6) (fld N 11 6) (fld N 0 6)) := by
  rw [major16 h]
  refine Eq.trans (b := (if N / 2 ^ 6 % 4 = 0 ∧ N / 2 ^ 17 % 2 = 0 ∧ N / 2 ^ 24 % 2 = 0 then some (.por (fld N 31 1) (fld N 18 6) (fld N 11 6) (fld N 0 6)) else none : Option Instr)) ?_ ?_
  · unfold decodePlog
    rw [q0] <;> rfl
  rw [if_pos ⟨q1, q2, q3⟩]

theorem por (w : BitVec 1) (k : BitVec 6) (j : BitVec 6) (m : BitVec 6) : Statement (.por w k j m) := by
  obtain ⟨bound, h, q0, q1, q2, q3, f0, f1, f2, f3⟩ := form10 536871168 w k j m (by decide) (by decide) (by decide) (by decide) (by decide)
  exact worded (N := put w 31 (put k 18 (put j 11 (put m 0 (536871168))))) rfl bound (by rw [read_por (h.trans (by decide)) (q0.trans (by decide)) (q1.trans (by decide)) (q2.trans (by decide)) (q3.trans (by decide)), f0, f1, f2, f3])

theorem read_pxor {N : Nat} (h : N / 2 ^ 25 % 64 = 16) (q0 : N / 2 ^ 8 % 8 = 2) (q1 : N / 2 ^ 6 % 4 = 0) (q2 : N / 2 ^ 17 % 2 = 0) (q3 : N / 2 ^ 24 % 2 = 0) :
    parse N = some (Instr.pxor (fld N 31 1) (fld N 18 6) (fld N 11 6) (fld N 0 6)) := by
  rw [major16 h]
  refine Eq.trans (b := (if N / 2 ^ 6 % 4 = 0 ∧ N / 2 ^ 17 % 2 = 0 ∧ N / 2 ^ 24 % 2 = 0 then some (.pxor (fld N 31 1) (fld N 18 6) (fld N 11 6) (fld N 0 6)) else none : Option Instr)) ?_ ?_
  · unfold decodePlog
    rw [q0] <;> rfl
  rw [if_pos ⟨q1, q2, q3⟩]

theorem pxor (w : BitVec 1) (k : BitVec 6) (j : BitVec 6) (m : BitVec 6) : Statement (.pxor w k j m) := by
  obtain ⟨bound, h, q0, q1, q2, q3, f0, f1, f2, f3⟩ := form10 536871424 w k j m (by decide) (by decide) (by decide) (by decide) (by decide)
  exact worded (N := put w 31 (put k 18 (put j 11 (put m 0 (536871424))))) rfl bound (by rw [read_pxor (h.trans (by decide)) (q0.trans (by decide)) (q1.trans (by decide)) (q2.trans (by decide)) (q3.trans (by decide)), f0, f1, f2, f3])

theorem read_pandn {N : Nat} (h : N / 2 ^ 25 % 64 = 16) (q0 : N / 2 ^ 8 % 8 = 3) (q1 : N / 2 ^ 6 % 4 = 0) (q2 : N / 2 ^ 17 % 2 = 0) (q3 : N / 2 ^ 24 % 2 = 0) :
    parse N = some (Instr.pandn (fld N 31 1) (fld N 18 6) (fld N 11 6) (fld N 0 6)) := by
  rw [major16 h]
  refine Eq.trans (b := (if N / 2 ^ 6 % 4 = 0 ∧ N / 2 ^ 17 % 2 = 0 ∧ N / 2 ^ 24 % 2 = 0 then some (.pandn (fld N 31 1) (fld N 18 6) (fld N 11 6) (fld N 0 6)) else none : Option Instr)) ?_ ?_
  · unfold decodePlog
    rw [q0] <;> rfl
  rw [if_pos ⟨q1, q2, q3⟩]

theorem pandn (w : BitVec 1) (k : BitVec 6) (j : BitVec 6) (m : BitVec 6) : Statement (.pandn w k j m) := by
  obtain ⟨bound, h, q0, q1, q2, q3, f0, f1, f2, f3⟩ := form10 536871680 w k j m (by decide) (by decide) (by decide) (by decide) (by decide)
  exact worded (N := put w 31 (put k 18 (put j 11 (put m 0 (536871680))))) rfl bound (by rw [read_pandn (h.trans (by decide)) (q0.trans (by decide)) (q1.trans (by decide)) (q2.trans (by decide)) (q3.trans (by decide)), f0, f1, f2, f3])

theorem read_porn {N : Nat} (h : N / 2 ^ 25 % 64 = 16) (q0 : N / 2 ^ 8 % 8 = 4) (q1 : N / 2 ^ 6 % 4 = 0) (q2 : N / 2 ^ 17 % 2 = 0) (q3 : N / 2 ^ 24 % 2 = 0) :
    parse N = some (Instr.porn (fld N 31 1) (fld N 18 6) (fld N 11 6) (fld N 0 6)) := by
  rw [major16 h]
  refine Eq.trans (b := (if N / 2 ^ 6 % 4 = 0 ∧ N / 2 ^ 17 % 2 = 0 ∧ N / 2 ^ 24 % 2 = 0 then some (.porn (fld N 31 1) (fld N 18 6) (fld N 11 6) (fld N 0 6)) else none : Option Instr)) ?_ ?_
  · unfold decodePlog
    rw [q0] <;> rfl
  rw [if_pos ⟨q1, q2, q3⟩]

theorem porn (w : BitVec 1) (k : BitVec 6) (j : BitVec 6) (m : BitVec 6) : Statement (.porn w k j m) := by
  obtain ⟨bound, h, q0, q1, q2, q3, f0, f1, f2, f3⟩ := form10 536871936 w k j m (by decide) (by decide) (by decide) (by decide) (by decide)
  exact worded (N := put w 31 (put k 18 (put j 11 (put m 0 (536871936))))) rfl bound (by rw [read_porn (h.trans (by decide)) (q0.trans (by decide)) (q1.trans (by decide)) (q2.trans (by decide)) (q3.trans (by decide)), f0, f1, f2, f3])

theorem read_pnand {N : Nat} (h : N / 2 ^ 25 % 64 = 16) (q0 : N / 2 ^ 8 % 8 = 5) (q1 : N / 2 ^ 6 % 4 = 0) (q2 : N / 2 ^ 17 % 2 = 0) (q3 : N / 2 ^ 24 % 2 = 0) :
    parse N = some (Instr.pnand (fld N 31 1) (fld N 18 6) (fld N 11 6) (fld N 0 6)) := by
  rw [major16 h]
  refine Eq.trans (b := (if N / 2 ^ 6 % 4 = 0 ∧ N / 2 ^ 17 % 2 = 0 ∧ N / 2 ^ 24 % 2 = 0 then some (.pnand (fld N 31 1) (fld N 18 6) (fld N 11 6) (fld N 0 6)) else none : Option Instr)) ?_ ?_
  · unfold decodePlog
    rw [q0] <;> rfl
  rw [if_pos ⟨q1, q2, q3⟩]

theorem pnand (w : BitVec 1) (k : BitVec 6) (j : BitVec 6) (m : BitVec 6) : Statement (.pnand w k j m) := by
  obtain ⟨bound, h, q0, q1, q2, q3, f0, f1, f2, f3⟩ := form10 536872192 w k j m (by decide) (by decide) (by decide) (by decide) (by decide)
  exact worded (N := put w 31 (put k 18 (put j 11 (put m 0 (536872192))))) rfl bound (by rw [read_pnand (h.trans (by decide)) (q0.trans (by decide)) (q1.trans (by decide)) (q2.trans (by decide)) (q3.trans (by decide)), f0, f1, f2, f3])

theorem read_pnor {N : Nat} (h : N / 2 ^ 25 % 64 = 16) (q0 : N / 2 ^ 8 % 8 = 6) (q1 : N / 2 ^ 6 % 4 = 0) (q2 : N / 2 ^ 17 % 2 = 0) (q3 : N / 2 ^ 24 % 2 = 0) :
    parse N = some (Instr.pnor (fld N 31 1) (fld N 18 6) (fld N 11 6) (fld N 0 6)) := by
  rw [major16 h]
  refine Eq.trans (b := (if N / 2 ^ 6 % 4 = 0 ∧ N / 2 ^ 17 % 2 = 0 ∧ N / 2 ^ 24 % 2 = 0 then some (.pnor (fld N 31 1) (fld N 18 6) (fld N 11 6) (fld N 0 6)) else none : Option Instr)) ?_ ?_
  · unfold decodePlog
    rw [q0] <;> rfl
  rw [if_pos ⟨q1, q2, q3⟩]

theorem pnor (w : BitVec 1) (k : BitVec 6) (j : BitVec 6) (m : BitVec 6) : Statement (.pnor w k j m) := by
  obtain ⟨bound, h, q0, q1, q2, q3, f0, f1, f2, f3⟩ := form10 536872448 w k j m (by decide) (by decide) (by decide) (by decide) (by decide)
  exact worded (N := put w 31 (put k 18 (put j 11 (put m 0 (536872448))))) rfl bound (by rw [read_pnor (h.trans (by decide)) (q0.trans (by decide)) (q1.trans (by decide)) (q2.trans (by decide)) (q3.trans (by decide)), f0, f1, f2, f3])

theorem read_pxnor {N : Nat} (h : N / 2 ^ 25 % 64 = 16) (q0 : N / 2 ^ 8 % 8 = 7) (q1 : N / 2 ^ 6 % 4 = 0) (q2 : N / 2 ^ 17 % 2 = 0) (q3 : N / 2 ^ 24 % 2 = 0) :
    parse N = some (Instr.pxnor (fld N 31 1) (fld N 18 6) (fld N 11 6) (fld N 0 6)) := by
  rw [major16 h]
  refine Eq.trans (b := (if N / 2 ^ 6 % 4 = 0 ∧ N / 2 ^ 17 % 2 = 0 ∧ N / 2 ^ 24 % 2 = 0 then some (.pxnor (fld N 31 1) (fld N 18 6) (fld N 11 6) (fld N 0 6)) else none : Option Instr)) ?_ ?_
  · unfold decodePlog
    rw [q0] <;> rfl
  rw [if_pos ⟨q1, q2, q3⟩]

theorem pxnor (w : BitVec 1) (k : BitVec 6) (j : BitVec 6) (m : BitVec 6) : Statement (.pxnor w k j m) := by
  obtain ⟨bound, h, q0, q1, q2, q3, f0, f1, f2, f3⟩ := form10 536872704 w k j m (by decide) (by decide) (by decide) (by decide) (by decide)
  exact worded (N := put w 31 (put k 18 (put j 11 (put m 0 (536872704))))) rfl bound (by rw [read_pxnor (h.trans (by decide)) (q0.trans (by decide)) (q1.trans (by decide)) (q2.trans (by decide)) (q3.trans (by decide)), f0, f1, f2, f3])

theorem read_brPset {N : Nat} (h : N / 2 ^ 25 % 64 = 17) (q0 : N / 2 ^ 21 % 16 = 0) :
    parse N = some (Instr.brPset (fld N 31 1) (fld N 15 6) (fld N 0 15)) := by
  rw [major17 h]
  refine Eq.trans (b := (some (.brPset (fld N 31 1) (fld N 15 6) (fld N 0 15)) : Option Instr)) ?_ ?_
  · unfold decodeBr
    rw [q0] <;> rfl
  rfl

theorem brPset (w : BitVec 1) (x : BitVec 6) (o : BitVec 15) : Statement (.brPset w x o) := by
  obtain ⟨bound, h, q0, f0, f1, f2⟩ := form11 570425344 w x o (by decide) (by decide) (by decide) (by decide)
  exact worded (N := put w 31 (put x 15 (put o 0 (570425344)))) rfl bound (by rw [read_brPset (h.trans (by decide)) (q0.trans (by decide)), f0, f1, f2])

theorem read_brPclr {N : Nat} (h : N / 2 ^ 25 % 64 = 17) (q0 : N / 2 ^ 21 % 16 = 1) :
    parse N = some (Instr.brPclr (fld N 31 1) (fld N 15 6) (fld N 0 15)) := by
  rw [major17 h]
  refine Eq.trans (b := (some (.brPclr (fld N 31 1) (fld N 15 6) (fld N 0 15)) : Option Instr)) ?_ ?_
  · unfold decodeBr
    rw [q0] <;> rfl
  rfl

theorem brPclr (w : BitVec 1) (x : BitVec 6) (o : BitVec 15) : Statement (.brPclr w x o) := by
  obtain ⟨bound, h, q0, f0, f1, f2⟩ := form11 572522496 w x o (by decide) (by decide) (by decide) (by decide)
  exact worded (N := put w 31 (put x 15 (put o 0 (572522496)))) rfl bound (by rw [read_brPclr (h.trans (by decide)) (q0.trans (by decide)), f0, f1, f2])

theorem read_brZ {N : Nat} (h : N / 2 ^ 25 % 64 = 17) (q0 : N / 2 ^ 21 % 16 = 2) :
    parse N = some (Instr.brZ (fld N 31 1) (fld N 15 6) (fld N 0 15)) := by
  rw [major17 h]
  refine Eq.trans (b := (some (.brZ (fld N 31 1) (fld N 15 6) (fld N 0 15)) : Option Instr)) ?_ ?_
  · unfold decodeBr
    rw [q0] <;> rfl
  rfl

theorem brZ (w : BitVec 1) (x : BitVec 6) (o : BitVec 15) : Statement (.brZ w x o) := by
  obtain ⟨bound, h, q0, f0, f1, f2⟩ := form11 574619648 w x o (by decide) (by decide) (by decide) (by decide)
  exact worded (N := put w 31 (put x 15 (put o 0 (574619648)))) rfl bound (by rw [read_brZ (h.trans (by decide)) (q0.trans (by decide)), f0, f1, f2])

theorem read_brNz {N : Nat} (h : N / 2 ^ 25 % 64 = 17) (q0 : N / 2 ^ 21 % 16 = 3) :
    parse N = some (Instr.brNz (fld N 31 1) (fld N 15 6) (fld N 0 15)) := by
  rw [major17 h]
  refine Eq.trans (b := (some (.brNz (fld N 31 1) (fld N 15 6) (fld N 0 15)) : Option Instr)) ?_ ?_
  · unfold decodeBr
    rw [q0] <;> rfl
  rfl

theorem brNz (w : BitVec 1) (x : BitVec 6) (o : BitVec 15) : Statement (.brNz w x o) := by
  obtain ⟨bound, h, q0, f0, f1, f2⟩ := form11 576716800 w x o (by decide) (by decide) (by decide) (by decide)
  exact worded (N := put w 31 (put x 15 (put o 0 (576716800)))) rfl bound (by rw [read_brNz (h.trans (by decide)) (q0.trans (by decide)), f0, f1, f2])

theorem read_brEop {N : Nat} (h : N / 2 ^ 25 % 64 = 17) (q0 : N / 2 ^ 21 % 16 = 4) (q1 : N / 2 ^ 15 % 64 = 0) :
    parse N = some (Instr.brEop (fld N 31 1) (fld N 0 15)) := by
  rw [major17 h]
  refine Eq.trans (b := (if N / 2 ^ 15 % 64 = 0 then some (.brEop (fld N 31 1) (fld N 0 15)) else none : Option Instr)) ?_ ?_
  · unfold decodeBr
    rw [q0] <;> rfl
  rw [if_pos q1]

theorem brEop (w : BitVec 1) (o : BitVec 15) : Statement (.brEop w o) := by
  obtain ⟨bound, h, q0, q1, f0, f1⟩ := form12 578813952 w o (by decide) (by decide) (by decide)
  exact worded (N := put w 31 (put o 0 (578813952))) rfl bound (by rw [read_brEop (h.trans (by decide)) (q0.trans (by decide)) (q1.trans (by decide)), f0, f1])

theorem read_brEos {N : Nat} (h : N / 2 ^ 25 % 64 = 17) (q0 : N / 2 ^ 21 % 16 = 5) (q1 : N / 2 ^ 15 % 64 = 0) :
    parse N = some (Instr.brEos (fld N 31 1) (fld N 0 15)) := by
  rw [major17 h]
  refine Eq.trans (b := (if N / 2 ^ 15 % 64 = 0 then some (.brEos (fld N 31 1) (fld N 0 15)) else none : Option Instr)) ?_ ?_
  · unfold decodeBr
    rw [q0] <;> rfl
  rw [if_pos q1]

theorem brEos (w : BitVec 1) (o : BitVec 15) : Statement (.brEos w o) := by
  obtain ⟨bound, h, q0, q1, f0, f1⟩ := form12 580911104 w o (by decide) (by decide) (by decide)
  exact worded (N := put w 31 (put o 0 (580911104))) rfl bound (by rw [read_brEos (h.trans (by decide)) (q0.trans (by decide)) (q1.trans (by decide)), f0, f1])

theorem read_brQe {N : Nat} (h : N / 2 ^ 25 % 64 = 17) (q0 : N / 2 ^ 21 % 16 = 6) (q1 : N / 2 ^ 15 % 64 = 0) :
    parse N = some (Instr.brQe (fld N 31 1) (fld N 0 15)) := by
  rw [major17 h]
  refine Eq.trans (b := (if N / 2 ^ 15 % 64 = 0 then some (.brQe (fld N 31 1) (fld N 0 15)) else none : Option Instr)) ?_ ?_
  · unfold decodeBr
    rw [q0] <;> rfl
  rw [if_pos q1]

theorem brQe (w : BitVec 1) (o : BitVec 15) : Statement (.brQe w o) := by
  obtain ⟨bound, h, q0, q1, f0, f1⟩ := form12 583008256 w o (by decide) (by decide) (by decide)
  exact worded (N := put w 31 (put o 0 (583008256))) rfl bound (by rw [read_brQe (h.trans (by decide)) (q0.trans (by decide)) (q1.trans (by decide)), f0, f1])

theorem read_br {N : Nat} (h : N / 2 ^ 25 % 64 = 17) (q0 : N / 2 ^ 21 % 16 = 7) (q1 : N / 2 ^ 15 % 64 = 0) :
    parse N = some (Instr.br (fld N 31 1) (fld N 0 15)) := by
  rw [major17 h]
  refine Eq.trans (b := (if N / 2 ^ 15 % 64 = 0 then some (.br (fld N 31 1) (fld N 0 15)) else none : Option Instr)) ?_ ?_
  · unfold decodeBr
    rw [q0] <;> rfl
  rw [if_pos q1]

theorem br (w : BitVec 1) (o : BitVec 15) : Statement (.br w o) := by
  obtain ⟨bound, h, q0, q1, f0, f1⟩ := form12 585105408 w o (by decide) (by decide) (by decide)
  exact worded (N := put w 31 (put o 0 (585105408))) rfl bound (by rw [read_br (h.trans (by decide)) (q0.trans (by decide)) (q1.trans (by decide)), f0, f1])

theorem read_jmp {N : Nat} (h : N / 2 ^ 25 % 64 = 18) :
    parse N = some (Instr.jmp (fld N 31 1) (fld N 0 25)) := by
  rw [major18 h]
  rfl

theorem jmp (w : BitVec 1) (o : BitVec 25) : Statement (.jmp w o) := by
  obtain ⟨bound, h, f0, f1⟩ := form13 603979776 w o (by decide) (by decide) (by decide)
  exact worded (N := put w 31 (put o 0 (603979776))) rfl bound (by rw [read_jmp (h.trans (by decide)), f0, f1])

theorem read_jal {N : Nat} (h : N / 2 ^ 25 % 64 = 19) :
    parse N = some (Instr.jal (fld N 31 1) (fld N 0 25)) := by
  rw [major19 h]
  rfl

theorem jal (w : BitVec 1) (o : BitVec 25) : Statement (.jal w o) := by
  obtain ⟨bound, h, f0, f1⟩ := form13 637534208 w o (by decide) (by decide) (by decide)
  exact worded (N := put w 31 (put o 0 (637534208))) rfl bound (by rw [read_jal (h.trans (by decide)), f0, f1])

theorem read_jalr {N : Nat} (h : N / 2 ^ 25 % 64 = 20) :
    parse N = some (Instr.jalr (fld N 31 1) (fld N 18 7) (fld N 11 7) (fld N 0 11)) := by
  rw [major20 h]
  rfl

theorem jalr (w : BitVec 1) (d : BitVec 7) (a : BitVec 7) (i : BitVec 11) : Statement (.jalr w d a i) := by
  obtain ⟨bound, h, f0, f1, f2, f3⟩ := form3 671088640 w d a i (by decide) (by decide) (by decide) (by decide) (by decide)
  exact worded (N := put w 31 (put d 18 (put a 11 (put i 0 (671088640))))) rfl bound (by rw [read_jalr (h.trans (by decide)), f0, f1, f2, f3])

theorem read_repf {N : Nat} (h : N / 2 ^ 25 % 64 = 21) (q0 : N / 2 ^ 4 % 128 = 0) (q1 : N / 2 ^ 14 % 16 = 0) (q2 : N / 2 ^ 24 % 2 = 0) :
    parse N = some (Instr.repf (fld N 31 1) (fld N 18 6) (fld N 11 3) (fld N 0 4)) := by
  rw [major21 h]
  unfold decodeRepf
  rw [if_pos ⟨q0, q1, q2⟩]

theorem repf (w : BitVec 1) (n : BitVec 6) (m : BitVec 3) (t : BitVec 4) : Statement (.repf w n m t) := by
  obtain ⟨bound, h, q0, q1, q2, f0, f1, f2, f3⟩ := form14 704643072 w n m t (by decide) (by decide) (by decide) (by decide) (by decide)
  exact worded (N := put w 31 (put n 18 (put m 11 (put t 0 (704643072))))) rfl bound (by rw [read_repf (h.trans (by decide)) (q0.trans (by decide)) (q1.trans (by decide)) (q2.trans (by decide)), f0, f1, f2, f3])

theorem read_nop {N : Nat} (h : N / 2 ^ 25 % 64 = 22) (q0 : N / 2 ^ 6 % 32 = 0) (q1 : N / 2 ^ 0 % 64 = 0) (q2 : N / 2 ^ 11 % 16384 = 0) :
    parse N = some (Instr.nop (fld N 31 1)) := by
  rw [major22 h]
  refine Eq.trans (b := (if N / 2 ^ 0 % 64 = 0 ∧ N / 2 ^ 11 % 16384 = 0 then some (.nop (fld N 31 1)) else none : Option Instr)) ?_ ?_
  · unfold decodeCtl
    rw [q0] <;> rfl
  rw [if_pos ⟨q1, q2⟩]

theorem nop (w : BitVec 1) : Statement (.nop w) := by
  obtain ⟨bound, h, q0, q1, q2, f0⟩ := form15 738197504 w (by decide) (by decide)
  exact worded (N := put w 31 (738197504)) rfl bound (by rw [read_nop (h.trans (by decide)) (q0.trans (by decide)) (q1.trans (by decide)) (q2.trans (by decide)), f0])

theorem read_yield {N : Nat} (h : N / 2 ^ 25 % 64 = 22) (q0 : N / 2 ^ 6 % 32 = 1) (q1 : N / 2 ^ 0 % 64 = 0) (q2 : N / 2 ^ 11 % 16384 = 0) :
    parse N = some (Instr.yield (fld N 31 1)) := by
  rw [major22 h]
  refine Eq.trans (b := (if N / 2 ^ 0 % 64 = 0 ∧ N / 2 ^ 11 % 16384 = 0 then some (.yield (fld N 31 1)) else none : Option Instr)) ?_ ?_
  · unfold decodeCtl
    rw [q0] <;> rfl
  rw [if_pos ⟨q1, q2⟩]

theorem yield (w : BitVec 1) : Statement (.yield w) := by
  obtain ⟨bound, h, q0, q1, q2, f0⟩ := form15 738197568 w (by decide) (by decide)
  exact worded (N := put w 31 (738197568)) rfl bound (by rw [read_yield (h.trans (by decide)) (q0.trans (by decide)) (q1.trans (by decide)) (q2.trans (by decide)), f0])

theorem read_texit {N : Nat} (h : N / 2 ^ 25 % 64 = 22) (q0 : N / 2 ^ 6 % 32 = 2) (q1 : N / 2 ^ 1 % 32 = 0) (q2 : N / 2 ^ 18 % 128 = 0) :
    parse N = some (Instr.texit (fld N 31 1) (fld N 11 7) (fld N 0 1)) := by
  rw [major22 h]
  refine Eq.trans (b := (if N / 2 ^ 1 % 32 = 0 ∧ N / 2 ^ 18 % 128 = 0 then some (.texit (fld N 31 1) (fld N 11 7) (fld N 0 1)) else none : Option Instr)) ?_ ?_
  · unfold decodeCtl
    rw [q0] <;> rfl
  rw [if_pos ⟨q1, q2⟩]

theorem texit (w : BitVec 1) (a : BitVec 7) (j : BitVec 1) : Statement (.texit w a j) := by
  obtain ⟨bound, h, q0, q1, q2, f0, f1, f2⟩ := form16 738197632 w a j (by decide) (by decide) (by decide) (by decide)
  exact worded (N := put w 31 (put a 11 (put j 0 (738197632)))) rfl bound (by rw [read_texit (h.trans (by decide)) (q0.trans (by decide)) (q1.trans (by decide)) (q2.trans (by decide)), f0, f1, f2])

theorem read_halt {N : Nat} (h : N / 2 ^ 25 % 64 = 22) (q0 : N / 2 ^ 6 % 32 = 3) (q1 : N / 2 ^ 0 % 64 = 0) (q2 : N / 2 ^ 11 % 16384 = 0) :
    parse N = some (Instr.halt (fld N 31 1)) := by
  rw [major22 h]
  refine Eq.trans (b := (if N / 2 ^ 0 % 64 = 0 ∧ N / 2 ^ 11 % 16384 = 0 then some (.halt (fld N 31 1)) else none : Option Instr)) ?_ ?_
  · unfold decodeCtl
    rw [q0] <;> rfl
  rw [if_pos ⟨q1, q2⟩]

theorem halt (w : BitVec 1) : Statement (.halt w) := by
  obtain ⟨bound, h, q0, q1, q2, f0⟩ := form15 738197696 w (by decide) (by decide)
  exact worded (N := put w 31 (738197696)) rfl bound (by rw [read_halt (h.trans (by decide)) (q0.trans (by decide)) (q1.trans (by decide)) (q2.trans (by decide)), f0])

theorem read_faddF32 {N : Nat} (h : N / 2 ^ 25 % 64 = 24) (q0 : N / 2 ^ 0 % 16 = 0) :
    parse N = some (Instr.faddF32 (fld N 31 1) (fld N 18 7) (fld N 11 7) (fld N 4 7)) := by
  rw [major24 h]
  refine Eq.trans (b := (some (.faddF32 (fld N 31 1) (fld N 18 7) (fld N 11 7) (fld N 4 7)) : Option Instr)) ?_ ?_
  · unfold decodeFs
    rw [q0] <;> rfl
  rfl

theorem faddF32 (w : BitVec 1) (d : BitVec 7) (a : BitVec 7) (b : BitVec 7) : Statement (.faddF32 w d a b) := by
  obtain ⟨bound, h, q0, f0, f1, f2, f3⟩ := form0 805306368 w d a b (by decide) (by decide) (by decide) (by decide) (by decide)
  exact worded (N := put w 31 (put d 18 (put a 11 (put b 4 (805306368))))) rfl bound (by rw [read_faddF32 (h.trans (by decide)) (q0.trans (by decide)), f0, f1, f2, f3])

theorem read_fsubF32 {N : Nat} (h : N / 2 ^ 25 % 64 = 24) (q0 : N / 2 ^ 0 % 16 = 1) :
    parse N = some (Instr.fsubF32 (fld N 31 1) (fld N 18 7) (fld N 11 7) (fld N 4 7)) := by
  rw [major24 h]
  refine Eq.trans (b := (some (.fsubF32 (fld N 31 1) (fld N 18 7) (fld N 11 7) (fld N 4 7)) : Option Instr)) ?_ ?_
  · unfold decodeFs
    rw [q0] <;> rfl
  rfl

theorem fsubF32 (w : BitVec 1) (d : BitVec 7) (a : BitVec 7) (b : BitVec 7) : Statement (.fsubF32 w d a b) := by
  obtain ⟨bound, h, q0, f0, f1, f2, f3⟩ := form0 805306369 w d a b (by decide) (by decide) (by decide) (by decide) (by decide)
  exact worded (N := put w 31 (put d 18 (put a 11 (put b 4 (805306369))))) rfl bound (by rw [read_fsubF32 (h.trans (by decide)) (q0.trans (by decide)), f0, f1, f2, f3])

theorem read_fmulF32 {N : Nat} (h : N / 2 ^ 25 % 64 = 24) (q0 : N / 2 ^ 0 % 16 = 2) :
    parse N = some (Instr.fmulF32 (fld N 31 1) (fld N 18 7) (fld N 11 7) (fld N 4 7)) := by
  rw [major24 h]
  refine Eq.trans (b := (some (.fmulF32 (fld N 31 1) (fld N 18 7) (fld N 11 7) (fld N 4 7)) : Option Instr)) ?_ ?_
  · unfold decodeFs
    rw [q0] <;> rfl
  rfl

theorem fmulF32 (w : BitVec 1) (d : BitVec 7) (a : BitVec 7) (b : BitVec 7) : Statement (.fmulF32 w d a b) := by
  obtain ⟨bound, h, q0, f0, f1, f2, f3⟩ := form0 805306370 w d a b (by decide) (by decide) (by decide) (by decide) (by decide)
  exact worded (N := put w 31 (put d 18 (put a 11 (put b 4 (805306370))))) rfl bound (by rw [read_fmulF32 (h.trans (by decide)) (q0.trans (by decide)), f0, f1, f2, f3])

theorem read_fdivF32 {N : Nat} (h : N / 2 ^ 25 % 64 = 24) (q0 : N / 2 ^ 0 % 16 = 3) :
    parse N = some (Instr.fdivF32 (fld N 31 1) (fld N 18 7) (fld N 11 7) (fld N 4 7)) := by
  rw [major24 h]
  refine Eq.trans (b := (some (.fdivF32 (fld N 31 1) (fld N 18 7) (fld N 11 7) (fld N 4 7)) : Option Instr)) ?_ ?_
  · unfold decodeFs
    rw [q0] <;> rfl
  rfl

theorem fdivF32 (w : BitVec 1) (d : BitVec 7) (a : BitVec 7) (b : BitVec 7) : Statement (.fdivF32 w d a b) := by
  obtain ⟨bound, h, q0, f0, f1, f2, f3⟩ := form0 805306371 w d a b (by decide) (by decide) (by decide) (by decide) (by decide)
  exact worded (N := put w 31 (put d 18 (put a 11 (put b 4 (805306371))))) rfl bound (by rw [read_fdivF32 (h.trans (by decide)) (q0.trans (by decide)), f0, f1, f2, f3])

theorem read_fsqrtF32 {N : Nat} (h : N / 2 ^ 25 % 64 = 24) (q0 : N / 2 ^ 0 % 16 = 4) (q1 : N / 2 ^ 4 % 128 = 0) :
    parse N = some (Instr.fsqrtF32 (fld N 31 1) (fld N 18 7) (fld N 11 7)) := by
  rw [major24 h]
  refine Eq.trans (b := (if N / 2 ^ 4 % 128 = 0 then some (.fsqrtF32 (fld N 31 1) (fld N 18 7) (fld N 11 7)) else none : Option Instr)) ?_ ?_
  · unfold decodeFs
    rw [q0] <;> rfl
  rw [if_pos q1]

theorem fsqrtF32 (w : BitVec 1) (d : BitVec 7) (a : BitVec 7) : Statement (.fsqrtF32 w d a) := by
  obtain ⟨bound, h, q0, q1, f0, f1, f2⟩ := form1 805306372 w d a (by decide) (by decide) (by decide) (by decide)
  exact worded (N := put w 31 (put d 18 (put a 11 (805306372)))) rfl bound (by rw [read_fsqrtF32 (h.trans (by decide)) (q0.trans (by decide)) (q1.trans (by decide)), f0, f1, f2])

theorem read_fminF32 {N : Nat} (h : N / 2 ^ 25 % 64 = 24) (q0 : N / 2 ^ 0 % 16 = 5) :
    parse N = some (Instr.fminF32 (fld N 31 1) (fld N 18 7) (fld N 11 7) (fld N 4 7)) := by
  rw [major24 h]
  refine Eq.trans (b := (some (.fminF32 (fld N 31 1) (fld N 18 7) (fld N 11 7) (fld N 4 7)) : Option Instr)) ?_ ?_
  · unfold decodeFs
    rw [q0] <;> rfl
  rfl

theorem fminF32 (w : BitVec 1) (d : BitVec 7) (a : BitVec 7) (b : BitVec 7) : Statement (.fminF32 w d a b) := by
  obtain ⟨bound, h, q0, f0, f1, f2, f3⟩ := form0 805306373 w d a b (by decide) (by decide) (by decide) (by decide) (by decide)
  exact worded (N := put w 31 (put d 18 (put a 11 (put b 4 (805306373))))) rfl bound (by rw [read_fminF32 (h.trans (by decide)) (q0.trans (by decide)), f0, f1, f2, f3])

theorem read_fmaxF32 {N : Nat} (h : N / 2 ^ 25 % 64 = 24) (q0 : N / 2 ^ 0 % 16 = 6) :
    parse N = some (Instr.fmaxF32 (fld N 31 1) (fld N 18 7) (fld N 11 7) (fld N 4 7)) := by
  rw [major24 h]
  refine Eq.trans (b := (some (.fmaxF32 (fld N 31 1) (fld N 18 7) (fld N 11 7) (fld N 4 7)) : Option Instr)) ?_ ?_
  · unfold decodeFs
    rw [q0] <;> rfl
  rfl

theorem fmaxF32 (w : BitVec 1) (d : BitVec 7) (a : BitVec 7) (b : BitVec 7) : Statement (.fmaxF32 w d a b) := by
  obtain ⟨bound, h, q0, f0, f1, f2, f3⟩ := form0 805306374 w d a b (by decide) (by decide) (by decide) (by decide) (by decide)
  exact worded (N := put w 31 (put d 18 (put a 11 (put b 4 (805306374))))) rfl bound (by rw [read_fmaxF32 (h.trans (by decide)) (q0.trans (by decide)), f0, f1, f2, f3])

theorem read_fmaF32 {N : Nat} (h : N / 2 ^ 25 % 64 = 24) (q0 : N / 2 ^ 0 % 16 = 7) :
    parse N = some (Instr.fmaF32 (fld N 31 1) (fld N 18 7) (fld N 11 7) (fld N 4 7)) := by
  rw [major24 h]
  refine Eq.trans (b := (some (.fmaF32 (fld N 31 1) (fld N 18 7) (fld N 11 7) (fld N 4 7)) : Option Instr)) ?_ ?_
  · unfold decodeFs
    rw [q0] <;> rfl
  rfl

theorem fmaF32 (w : BitVec 1) (d : BitVec 7) (a : BitVec 7) (b : BitVec 7) : Statement (.fmaF32 w d a b) := by
  obtain ⟨bound, h, q0, f0, f1, f2, f3⟩ := form0 805306375 w d a b (by decide) (by decide) (by decide) (by decide) (by decide)
  exact worded (N := put w 31 (put d 18 (put a 11 (put b 4 (805306375))))) rfl bound (by rw [read_fmaF32 (h.trans (by decide)) (q0.trans (by decide)), f0, f1, f2, f3])

theorem read_fmsF32 {N : Nat} (h : N / 2 ^ 25 % 64 = 24) (q0 : N / 2 ^ 0 % 16 = 8) :
    parse N = some (Instr.fmsF32 (fld N 31 1) (fld N 18 7) (fld N 11 7) (fld N 4 7)) := by
  rw [major24 h]
  refine Eq.trans (b := (some (.fmsF32 (fld N 31 1) (fld N 18 7) (fld N 11 7) (fld N 4 7)) : Option Instr)) ?_ ?_
  · unfold decodeFs
    rw [q0] <;> rfl
  rfl

theorem fmsF32 (w : BitVec 1) (d : BitVec 7) (a : BitVec 7) (b : BitVec 7) : Statement (.fmsF32 w d a b) := by
  obtain ⟨bound, h, q0, f0, f1, f2, f3⟩ := form0 805306376 w d a b (by decide) (by decide) (by decide) (by decide) (by decide)
  exact worded (N := put w 31 (put d 18 (put a 11 (put b 4 (805306376))))) rfl bound (by rw [read_fmsF32 (h.trans (by decide)) (q0.trans (by decide)), f0, f1, f2, f3])

theorem read_fnmaF32 {N : Nat} (h : N / 2 ^ 25 % 64 = 24) (q0 : N / 2 ^ 0 % 16 = 9) :
    parse N = some (Instr.fnmaF32 (fld N 31 1) (fld N 18 7) (fld N 11 7) (fld N 4 7)) := by
  rw [major24 h]
  refine Eq.trans (b := (some (.fnmaF32 (fld N 31 1) (fld N 18 7) (fld N 11 7) (fld N 4 7)) : Option Instr)) ?_ ?_
  · unfold decodeFs
    rw [q0] <;> rfl
  rfl

theorem fnmaF32 (w : BitVec 1) (d : BitVec 7) (a : BitVec 7) (b : BitVec 7) : Statement (.fnmaF32 w d a b) := by
  obtain ⟨bound, h, q0, f0, f1, f2, f3⟩ := form0 805306377 w d a b (by decide) (by decide) (by decide) (by decide) (by decide)
  exact worded (N := put w 31 (put d 18 (put a 11 (put b 4 (805306377))))) rfl bound (by rw [read_fnmaF32 (h.trans (by decide)) (q0.trans (by decide)), f0, f1, f2, f3])

theorem read_fabsF32 {N : Nat} (h : N / 2 ^ 25 % 64 = 24) (q0 : N / 2 ^ 0 % 16 = 10) (q1 : N / 2 ^ 4 % 128 = 0) :
    parse N = some (Instr.fabsF32 (fld N 31 1) (fld N 18 7) (fld N 11 7)) := by
  rw [major24 h]
  refine Eq.trans (b := (if N / 2 ^ 4 % 128 = 0 then some (.fabsF32 (fld N 31 1) (fld N 18 7) (fld N 11 7)) else none : Option Instr)) ?_ ?_
  · unfold decodeFs
    rw [q0] <;> rfl
  rw [if_pos q1]

theorem fabsF32 (w : BitVec 1) (d : BitVec 7) (a : BitVec 7) : Statement (.fabsF32 w d a) := by
  obtain ⟨bound, h, q0, q1, f0, f1, f2⟩ := form1 805306378 w d a (by decide) (by decide) (by decide) (by decide)
  exact worded (N := put w 31 (put d 18 (put a 11 (805306378)))) rfl bound (by rw [read_fabsF32 (h.trans (by decide)) (q0.trans (by decide)) (q1.trans (by decide)), f0, f1, f2])

theorem read_fnegF32 {N : Nat} (h : N / 2 ^ 25 % 64 = 24) (q0 : N / 2 ^ 0 % 16 = 11) (q1 : N / 2 ^ 4 % 128 = 0) :
    parse N = some (Instr.fnegF32 (fld N 31 1) (fld N 18 7) (fld N 11 7)) := by
  rw [major24 h]
  refine Eq.trans (b := (if N / 2 ^ 4 % 128 = 0 then some (.fnegF32 (fld N 31 1) (fld N 18 7) (fld N 11 7)) else none : Option Instr)) ?_ ?_
  · unfold decodeFs
    rw [q0] <;> rfl
  rw [if_pos q1]

theorem fnegF32 (w : BitVec 1) (d : BitVec 7) (a : BitVec 7) : Statement (.fnegF32 w d a) := by
  obtain ⟨bound, h, q0, q1, f0, f1, f2⟩ := form1 805306379 w d a (by decide) (by decide) (by decide) (by decide)
  exact worded (N := put w 31 (put d 18 (put a 11 (805306379)))) rfl bound (by rw [read_fnegF32 (h.trans (by decide)) (q0.trans (by decide)) (q1.trans (by decide)), f0, f1, f2])

theorem read_fcpsF32 {N : Nat} (h : N / 2 ^ 25 % 64 = 24) (q0 : N / 2 ^ 0 % 16 = 12) :
    parse N = some (Instr.fcpsF32 (fld N 31 1) (fld N 18 7) (fld N 11 7) (fld N 4 7)) := by
  rw [major24 h]
  refine Eq.trans (b := (some (.fcpsF32 (fld N 31 1) (fld N 18 7) (fld N 11 7) (fld N 4 7)) : Option Instr)) ?_ ?_
  · unfold decodeFs
    rw [q0] <;> rfl
  rfl

theorem fcpsF32 (w : BitVec 1) (d : BitVec 7) (a : BitVec 7) (b : BitVec 7) : Statement (.fcpsF32 w d a b) := by
  obtain ⟨bound, h, q0, f0, f1, f2, f3⟩ := form0 805306380 w d a b (by decide) (by decide) (by decide) (by decide) (by decide)
  exact worded (N := put w 31 (put d 18 (put a 11 (put b 4 (805306380))))) rfl bound (by rw [read_fcpsF32 (h.trans (by decide)) (q0.trans (by decide)), f0, f1, f2, f3])

theorem read_fceqF32 {N : Nat} (h : N / 2 ^ 25 % 64 = 24) (q0 : N / 2 ^ 0 % 16 = 13) :
    parse N = some (Instr.fceqF32 (fld N 31 1) (fld N 24 1) (fld N 18 6) (fld N 11 7) (fld N 4 7)) := by
  rw [major24 h]
  refine Eq.trans (b := (some (.fceqF32 (fld N 31 1) (fld N 24 1) (fld N 18 6) (fld N 11 7) (fld N 4 7)) : Option Instr)) ?_ ?_
  · unfold decodeFs
    rw [q0] <;> rfl
  rfl

theorem fceqF32 (w : BitVec 1) (p : BitVec 1) (k : BitVec 6) (a : BitVec 7) (b : BitVec 7) : Statement (.fceqF32 w p k a b) := by
  obtain ⟨bound, h, q0, f0, f1, f2, f3, f4⟩ := form2 805306381 w p k a b (by decide) (by decide) (by decide) (by decide) (by decide) (by decide)
  exact worded (N := put w 31 (put p 24 (put k 18 (put a 11 (put b 4 (805306381)))))) rfl bound (by rw [read_fceqF32 (h.trans (by decide)) (q0.trans (by decide)), f0, f1, f2, f3, f4])

theorem read_fcltF32 {N : Nat} (h : N / 2 ^ 25 % 64 = 24) (q0 : N / 2 ^ 0 % 16 = 14) :
    parse N = some (Instr.fcltF32 (fld N 31 1) (fld N 24 1) (fld N 18 6) (fld N 11 7) (fld N 4 7)) := by
  rw [major24 h]
  refine Eq.trans (b := (some (.fcltF32 (fld N 31 1) (fld N 24 1) (fld N 18 6) (fld N 11 7) (fld N 4 7)) : Option Instr)) ?_ ?_
  · unfold decodeFs
    rw [q0] <;> rfl
  rfl

theorem fcltF32 (w : BitVec 1) (p : BitVec 1) (k : BitVec 6) (a : BitVec 7) (b : BitVec 7) : Statement (.fcltF32 w p k a b) := by
  obtain ⟨bound, h, q0, f0, f1, f2, f3, f4⟩ := form2 805306382 w p k a b (by decide) (by decide) (by decide) (by decide) (by decide) (by decide)
  exact worded (N := put w 31 (put p 24 (put k 18 (put a 11 (put b 4 (805306382)))))) rfl bound (by rw [read_fcltF32 (h.trans (by decide)) (q0.trans (by decide)), f0, f1, f2, f3, f4])

theorem read_fcleF32 {N : Nat} (h : N / 2 ^ 25 % 64 = 24) (q0 : N / 2 ^ 0 % 16 = 15) :
    parse N = some (Instr.fcleF32 (fld N 31 1) (fld N 24 1) (fld N 18 6) (fld N 11 7) (fld N 4 7)) := by
  rw [major24 h]
  refine Eq.trans (b := (some (.fcleF32 (fld N 31 1) (fld N 24 1) (fld N 18 6) (fld N 11 7) (fld N 4 7)) : Option Instr)) ?_ ?_
  · unfold decodeFs
    rw [q0] <;> rfl
  rfl

theorem fcleF32 (w : BitVec 1) (p : BitVec 1) (k : BitVec 6) (a : BitVec 7) (b : BitVec 7) : Statement (.fcleF32 w p k a b) := by
  obtain ⟨bound, h, q0, f0, f1, f2, f3, f4⟩ := form2 805306383 w p k a b (by decide) (by decide) (by decide) (by decide) (by decide) (by decide)
  exact worded (N := put w 31 (put p 24 (put k 18 (put a 11 (put b 4 (805306383)))))) rfl bound (by rw [read_fcleF32 (h.trans (by decide)) (q0.trans (by decide)), f0, f1, f2, f3, f4])

theorem read_faddF64 {N : Nat} (h : N / 2 ^ 25 % 64 = 25) (q0 : N / 2 ^ 0 % 16 = 0) :
    parse N = some (Instr.faddF64 (fld N 31 1) (fld N 18 7) (fld N 11 7) (fld N 4 7)) := by
  rw [major25 h]
  refine Eq.trans (b := (some (.faddF64 (fld N 31 1) (fld N 18 7) (fld N 11 7) (fld N 4 7)) : Option Instr)) ?_ ?_
  · unfold decodeFd
    rw [q0] <;> rfl
  rfl

theorem faddF64 (w : BitVec 1) (d : BitVec 7) (a : BitVec 7) (b : BitVec 7) : Statement (.faddF64 w d a b) := by
  obtain ⟨bound, h, q0, f0, f1, f2, f3⟩ := form0 838860800 w d a b (by decide) (by decide) (by decide) (by decide) (by decide)
  exact worded (N := put w 31 (put d 18 (put a 11 (put b 4 (838860800))))) rfl bound (by rw [read_faddF64 (h.trans (by decide)) (q0.trans (by decide)), f0, f1, f2, f3])

theorem read_fsubF64 {N : Nat} (h : N / 2 ^ 25 % 64 = 25) (q0 : N / 2 ^ 0 % 16 = 1) :
    parse N = some (Instr.fsubF64 (fld N 31 1) (fld N 18 7) (fld N 11 7) (fld N 4 7)) := by
  rw [major25 h]
  refine Eq.trans (b := (some (.fsubF64 (fld N 31 1) (fld N 18 7) (fld N 11 7) (fld N 4 7)) : Option Instr)) ?_ ?_
  · unfold decodeFd
    rw [q0] <;> rfl
  rfl

theorem fsubF64 (w : BitVec 1) (d : BitVec 7) (a : BitVec 7) (b : BitVec 7) : Statement (.fsubF64 w d a b) := by
  obtain ⟨bound, h, q0, f0, f1, f2, f3⟩ := form0 838860801 w d a b (by decide) (by decide) (by decide) (by decide) (by decide)
  exact worded (N := put w 31 (put d 18 (put a 11 (put b 4 (838860801))))) rfl bound (by rw [read_fsubF64 (h.trans (by decide)) (q0.trans (by decide)), f0, f1, f2, f3])

theorem read_fmulF64 {N : Nat} (h : N / 2 ^ 25 % 64 = 25) (q0 : N / 2 ^ 0 % 16 = 2) :
    parse N = some (Instr.fmulF64 (fld N 31 1) (fld N 18 7) (fld N 11 7) (fld N 4 7)) := by
  rw [major25 h]
  refine Eq.trans (b := (some (.fmulF64 (fld N 31 1) (fld N 18 7) (fld N 11 7) (fld N 4 7)) : Option Instr)) ?_ ?_
  · unfold decodeFd
    rw [q0] <;> rfl
  rfl

theorem fmulF64 (w : BitVec 1) (d : BitVec 7) (a : BitVec 7) (b : BitVec 7) : Statement (.fmulF64 w d a b) := by
  obtain ⟨bound, h, q0, f0, f1, f2, f3⟩ := form0 838860802 w d a b (by decide) (by decide) (by decide) (by decide) (by decide)
  exact worded (N := put w 31 (put d 18 (put a 11 (put b 4 (838860802))))) rfl bound (by rw [read_fmulF64 (h.trans (by decide)) (q0.trans (by decide)), f0, f1, f2, f3])

theorem read_fdivF64 {N : Nat} (h : N / 2 ^ 25 % 64 = 25) (q0 : N / 2 ^ 0 % 16 = 3) :
    parse N = some (Instr.fdivF64 (fld N 31 1) (fld N 18 7) (fld N 11 7) (fld N 4 7)) := by
  rw [major25 h]
  refine Eq.trans (b := (some (.fdivF64 (fld N 31 1) (fld N 18 7) (fld N 11 7) (fld N 4 7)) : Option Instr)) ?_ ?_
  · unfold decodeFd
    rw [q0] <;> rfl
  rfl

theorem fdivF64 (w : BitVec 1) (d : BitVec 7) (a : BitVec 7) (b : BitVec 7) : Statement (.fdivF64 w d a b) := by
  obtain ⟨bound, h, q0, f0, f1, f2, f3⟩ := form0 838860803 w d a b (by decide) (by decide) (by decide) (by decide) (by decide)
  exact worded (N := put w 31 (put d 18 (put a 11 (put b 4 (838860803))))) rfl bound (by rw [read_fdivF64 (h.trans (by decide)) (q0.trans (by decide)), f0, f1, f2, f3])

theorem read_fsqrtF64 {N : Nat} (h : N / 2 ^ 25 % 64 = 25) (q0 : N / 2 ^ 0 % 16 = 4) (q1 : N / 2 ^ 4 % 128 = 0) :
    parse N = some (Instr.fsqrtF64 (fld N 31 1) (fld N 18 7) (fld N 11 7)) := by
  rw [major25 h]
  refine Eq.trans (b := (if N / 2 ^ 4 % 128 = 0 then some (.fsqrtF64 (fld N 31 1) (fld N 18 7) (fld N 11 7)) else none : Option Instr)) ?_ ?_
  · unfold decodeFd
    rw [q0] <;> rfl
  rw [if_pos q1]

theorem fsqrtF64 (w : BitVec 1) (d : BitVec 7) (a : BitVec 7) : Statement (.fsqrtF64 w d a) := by
  obtain ⟨bound, h, q0, q1, f0, f1, f2⟩ := form1 838860804 w d a (by decide) (by decide) (by decide) (by decide)
  exact worded (N := put w 31 (put d 18 (put a 11 (838860804)))) rfl bound (by rw [read_fsqrtF64 (h.trans (by decide)) (q0.trans (by decide)) (q1.trans (by decide)), f0, f1, f2])

theorem read_fminF64 {N : Nat} (h : N / 2 ^ 25 % 64 = 25) (q0 : N / 2 ^ 0 % 16 = 5) :
    parse N = some (Instr.fminF64 (fld N 31 1) (fld N 18 7) (fld N 11 7) (fld N 4 7)) := by
  rw [major25 h]
  refine Eq.trans (b := (some (.fminF64 (fld N 31 1) (fld N 18 7) (fld N 11 7) (fld N 4 7)) : Option Instr)) ?_ ?_
  · unfold decodeFd
    rw [q0] <;> rfl
  rfl

theorem fminF64 (w : BitVec 1) (d : BitVec 7) (a : BitVec 7) (b : BitVec 7) : Statement (.fminF64 w d a b) := by
  obtain ⟨bound, h, q0, f0, f1, f2, f3⟩ := form0 838860805 w d a b (by decide) (by decide) (by decide) (by decide) (by decide)
  exact worded (N := put w 31 (put d 18 (put a 11 (put b 4 (838860805))))) rfl bound (by rw [read_fminF64 (h.trans (by decide)) (q0.trans (by decide)), f0, f1, f2, f3])

theorem read_fmaxF64 {N : Nat} (h : N / 2 ^ 25 % 64 = 25) (q0 : N / 2 ^ 0 % 16 = 6) :
    parse N = some (Instr.fmaxF64 (fld N 31 1) (fld N 18 7) (fld N 11 7) (fld N 4 7)) := by
  rw [major25 h]
  refine Eq.trans (b := (some (.fmaxF64 (fld N 31 1) (fld N 18 7) (fld N 11 7) (fld N 4 7)) : Option Instr)) ?_ ?_
  · unfold decodeFd
    rw [q0] <;> rfl
  rfl

theorem fmaxF64 (w : BitVec 1) (d : BitVec 7) (a : BitVec 7) (b : BitVec 7) : Statement (.fmaxF64 w d a b) := by
  obtain ⟨bound, h, q0, f0, f1, f2, f3⟩ := form0 838860806 w d a b (by decide) (by decide) (by decide) (by decide) (by decide)
  exact worded (N := put w 31 (put d 18 (put a 11 (put b 4 (838860806))))) rfl bound (by rw [read_fmaxF64 (h.trans (by decide)) (q0.trans (by decide)), f0, f1, f2, f3])

theorem read_fmaF64 {N : Nat} (h : N / 2 ^ 25 % 64 = 25) (q0 : N / 2 ^ 0 % 16 = 7) :
    parse N = some (Instr.fmaF64 (fld N 31 1) (fld N 18 7) (fld N 11 7) (fld N 4 7)) := by
  rw [major25 h]
  refine Eq.trans (b := (some (.fmaF64 (fld N 31 1) (fld N 18 7) (fld N 11 7) (fld N 4 7)) : Option Instr)) ?_ ?_
  · unfold decodeFd
    rw [q0] <;> rfl
  rfl

theorem fmaF64 (w : BitVec 1) (d : BitVec 7) (a : BitVec 7) (b : BitVec 7) : Statement (.fmaF64 w d a b) := by
  obtain ⟨bound, h, q0, f0, f1, f2, f3⟩ := form0 838860807 w d a b (by decide) (by decide) (by decide) (by decide) (by decide)
  exact worded (N := put w 31 (put d 18 (put a 11 (put b 4 (838860807))))) rfl bound (by rw [read_fmaF64 (h.trans (by decide)) (q0.trans (by decide)), f0, f1, f2, f3])

theorem read_fmsF64 {N : Nat} (h : N / 2 ^ 25 % 64 = 25) (q0 : N / 2 ^ 0 % 16 = 8) :
    parse N = some (Instr.fmsF64 (fld N 31 1) (fld N 18 7) (fld N 11 7) (fld N 4 7)) := by
  rw [major25 h]
  refine Eq.trans (b := (some (.fmsF64 (fld N 31 1) (fld N 18 7) (fld N 11 7) (fld N 4 7)) : Option Instr)) ?_ ?_
  · unfold decodeFd
    rw [q0] <;> rfl
  rfl

theorem fmsF64 (w : BitVec 1) (d : BitVec 7) (a : BitVec 7) (b : BitVec 7) : Statement (.fmsF64 w d a b) := by
  obtain ⟨bound, h, q0, f0, f1, f2, f3⟩ := form0 838860808 w d a b (by decide) (by decide) (by decide) (by decide) (by decide)
  exact worded (N := put w 31 (put d 18 (put a 11 (put b 4 (838860808))))) rfl bound (by rw [read_fmsF64 (h.trans (by decide)) (q0.trans (by decide)), f0, f1, f2, f3])

theorem read_fnmaF64 {N : Nat} (h : N / 2 ^ 25 % 64 = 25) (q0 : N / 2 ^ 0 % 16 = 9) :
    parse N = some (Instr.fnmaF64 (fld N 31 1) (fld N 18 7) (fld N 11 7) (fld N 4 7)) := by
  rw [major25 h]
  refine Eq.trans (b := (some (.fnmaF64 (fld N 31 1) (fld N 18 7) (fld N 11 7) (fld N 4 7)) : Option Instr)) ?_ ?_
  · unfold decodeFd
    rw [q0] <;> rfl
  rfl

theorem fnmaF64 (w : BitVec 1) (d : BitVec 7) (a : BitVec 7) (b : BitVec 7) : Statement (.fnmaF64 w d a b) := by
  obtain ⟨bound, h, q0, f0, f1, f2, f3⟩ := form0 838860809 w d a b (by decide) (by decide) (by decide) (by decide) (by decide)
  exact worded (N := put w 31 (put d 18 (put a 11 (put b 4 (838860809))))) rfl bound (by rw [read_fnmaF64 (h.trans (by decide)) (q0.trans (by decide)), f0, f1, f2, f3])

theorem read_fabsF64 {N : Nat} (h : N / 2 ^ 25 % 64 = 25) (q0 : N / 2 ^ 0 % 16 = 10) (q1 : N / 2 ^ 4 % 128 = 0) :
    parse N = some (Instr.fabsF64 (fld N 31 1) (fld N 18 7) (fld N 11 7)) := by
  rw [major25 h]
  refine Eq.trans (b := (if N / 2 ^ 4 % 128 = 0 then some (.fabsF64 (fld N 31 1) (fld N 18 7) (fld N 11 7)) else none : Option Instr)) ?_ ?_
  · unfold decodeFd
    rw [q0] <;> rfl
  rw [if_pos q1]

theorem fabsF64 (w : BitVec 1) (d : BitVec 7) (a : BitVec 7) : Statement (.fabsF64 w d a) := by
  obtain ⟨bound, h, q0, q1, f0, f1, f2⟩ := form1 838860810 w d a (by decide) (by decide) (by decide) (by decide)
  exact worded (N := put w 31 (put d 18 (put a 11 (838860810)))) rfl bound (by rw [read_fabsF64 (h.trans (by decide)) (q0.trans (by decide)) (q1.trans (by decide)), f0, f1, f2])

theorem read_fnegF64 {N : Nat} (h : N / 2 ^ 25 % 64 = 25) (q0 : N / 2 ^ 0 % 16 = 11) (q1 : N / 2 ^ 4 % 128 = 0) :
    parse N = some (Instr.fnegF64 (fld N 31 1) (fld N 18 7) (fld N 11 7)) := by
  rw [major25 h]
  refine Eq.trans (b := (if N / 2 ^ 4 % 128 = 0 then some (.fnegF64 (fld N 31 1) (fld N 18 7) (fld N 11 7)) else none : Option Instr)) ?_ ?_
  · unfold decodeFd
    rw [q0] <;> rfl
  rw [if_pos q1]

theorem fnegF64 (w : BitVec 1) (d : BitVec 7) (a : BitVec 7) : Statement (.fnegF64 w d a) := by
  obtain ⟨bound, h, q0, q1, f0, f1, f2⟩ := form1 838860811 w d a (by decide) (by decide) (by decide) (by decide)
  exact worded (N := put w 31 (put d 18 (put a 11 (838860811)))) rfl bound (by rw [read_fnegF64 (h.trans (by decide)) (q0.trans (by decide)) (q1.trans (by decide)), f0, f1, f2])

theorem read_fcpsF64 {N : Nat} (h : N / 2 ^ 25 % 64 = 25) (q0 : N / 2 ^ 0 % 16 = 12) :
    parse N = some (Instr.fcpsF64 (fld N 31 1) (fld N 18 7) (fld N 11 7) (fld N 4 7)) := by
  rw [major25 h]
  refine Eq.trans (b := (some (.fcpsF64 (fld N 31 1) (fld N 18 7) (fld N 11 7) (fld N 4 7)) : Option Instr)) ?_ ?_
  · unfold decodeFd
    rw [q0] <;> rfl
  rfl

theorem fcpsF64 (w : BitVec 1) (d : BitVec 7) (a : BitVec 7) (b : BitVec 7) : Statement (.fcpsF64 w d a b) := by
  obtain ⟨bound, h, q0, f0, f1, f2, f3⟩ := form0 838860812 w d a b (by decide) (by decide) (by decide) (by decide) (by decide)
  exact worded (N := put w 31 (put d 18 (put a 11 (put b 4 (838860812))))) rfl bound (by rw [read_fcpsF64 (h.trans (by decide)) (q0.trans (by decide)), f0, f1, f2, f3])

theorem read_fceqF64 {N : Nat} (h : N / 2 ^ 25 % 64 = 25) (q0 : N / 2 ^ 0 % 16 = 13) :
    parse N = some (Instr.fceqF64 (fld N 31 1) (fld N 24 1) (fld N 18 6) (fld N 11 7) (fld N 4 7)) := by
  rw [major25 h]
  refine Eq.trans (b := (some (.fceqF64 (fld N 31 1) (fld N 24 1) (fld N 18 6) (fld N 11 7) (fld N 4 7)) : Option Instr)) ?_ ?_
  · unfold decodeFd
    rw [q0] <;> rfl
  rfl

theorem fceqF64 (w : BitVec 1) (p : BitVec 1) (k : BitVec 6) (a : BitVec 7) (b : BitVec 7) : Statement (.fceqF64 w p k a b) := by
  obtain ⟨bound, h, q0, f0, f1, f2, f3, f4⟩ := form2 838860813 w p k a b (by decide) (by decide) (by decide) (by decide) (by decide) (by decide)
  exact worded (N := put w 31 (put p 24 (put k 18 (put a 11 (put b 4 (838860813)))))) rfl bound (by rw [read_fceqF64 (h.trans (by decide)) (q0.trans (by decide)), f0, f1, f2, f3, f4])

theorem read_fcltF64 {N : Nat} (h : N / 2 ^ 25 % 64 = 25) (q0 : N / 2 ^ 0 % 16 = 14) :
    parse N = some (Instr.fcltF64 (fld N 31 1) (fld N 24 1) (fld N 18 6) (fld N 11 7) (fld N 4 7)) := by
  rw [major25 h]
  refine Eq.trans (b := (some (.fcltF64 (fld N 31 1) (fld N 24 1) (fld N 18 6) (fld N 11 7) (fld N 4 7)) : Option Instr)) ?_ ?_
  · unfold decodeFd
    rw [q0] <;> rfl
  rfl

theorem fcltF64 (w : BitVec 1) (p : BitVec 1) (k : BitVec 6) (a : BitVec 7) (b : BitVec 7) : Statement (.fcltF64 w p k a b) := by
  obtain ⟨bound, h, q0, f0, f1, f2, f3, f4⟩ := form2 838860814 w p k a b (by decide) (by decide) (by decide) (by decide) (by decide) (by decide)
  exact worded (N := put w 31 (put p 24 (put k 18 (put a 11 (put b 4 (838860814)))))) rfl bound (by rw [read_fcltF64 (h.trans (by decide)) (q0.trans (by decide)), f0, f1, f2, f3, f4])

theorem read_fcleF64 {N : Nat} (h : N / 2 ^ 25 % 64 = 25) (q0 : N / 2 ^ 0 % 16 = 15) :
    parse N = some (Instr.fcleF64 (fld N 31 1) (fld N 24 1) (fld N 18 6) (fld N 11 7) (fld N 4 7)) := by
  rw [major25 h]
  refine Eq.trans (b := (some (.fcleF64 (fld N 31 1) (fld N 24 1) (fld N 18 6) (fld N 11 7) (fld N 4 7)) : Option Instr)) ?_ ?_
  · unfold decodeFd
    rw [q0] <;> rfl
  rfl

theorem fcleF64 (w : BitVec 1) (p : BitVec 1) (k : BitVec 6) (a : BitVec 7) (b : BitVec 7) : Statement (.fcleF64 w p k a b) := by
  obtain ⟨bound, h, q0, f0, f1, f2, f3, f4⟩ := form2 838860815 w p k a b (by decide) (by decide) (by decide) (by decide) (by decide) (by decide)
  exact worded (N := put w 31 (put p 24 (put k 18 (put a 11 (put b 4 (838860815)))))) rfl bound (by rw [read_fcleF64 (h.trans (by decide)) (q0.trans (by decide)), f0, f1, f2, f3, f4])

theorem read_fcvtF64F32 {N : Nat} (h : N / 2 ^ 25 % 64 = 26) (q0 : N / 2 ^ 0 % 16 = 0) (q1 : N / 2 ^ 4 % 128 = 0) :
    parse N = some (Instr.fcvtF64F32 (fld N 31 1) (fld N 18 7) (fld N 11 7)) := by
  rw [major26 h]
  refine Eq.trans (b := (if N / 2 ^ 4 % 128 = 0 then some (.fcvtF64F32 (fld N 31 1) (fld N 18 7) (fld N 11 7)) else none : Option Instr)) ?_ ?_
  · unfold decodeFcv
    rw [q0] <;> rfl
  rw [if_pos q1]

theorem fcvtF64F32 (w : BitVec 1) (d : BitVec 7) (a : BitVec 7) : Statement (.fcvtF64F32 w d a) := by
  obtain ⟨bound, h, q0, q1, f0, f1, f2⟩ := form1 872415232 w d a (by decide) (by decide) (by decide) (by decide)
  exact worded (N := put w 31 (put d 18 (put a 11 (872415232)))) rfl bound (by rw [read_fcvtF64F32 (h.trans (by decide)) (q0.trans (by decide)) (q1.trans (by decide)), f0, f1, f2])

theorem read_fcvtF32F64 {N : Nat} (h : N / 2 ^ 25 % 64 = 26) (q0 : N / 2 ^ 0 % 16 = 1) (q1 : N / 2 ^ 4 % 128 = 0) :
    parse N = some (Instr.fcvtF32F64 (fld N 31 1) (fld N 18 7) (fld N 11 7)) := by
  rw [major26 h]
  refine Eq.trans (b := (if N / 2 ^ 4 % 128 = 0 then some (.fcvtF32F64 (fld N 31 1) (fld N 18 7) (fld N 11 7)) else none : Option Instr)) ?_ ?_
  · unfold decodeFcv
    rw [q0] <;> rfl
  rw [if_pos q1]

theorem fcvtF32F64 (w : BitVec 1) (d : BitVec 7) (a : BitVec 7) : Statement (.fcvtF32F64 w d a) := by
  obtain ⟨bound, h, q0, q1, f0, f1, f2⟩ := form1 872415233 w d a (by decide) (by decide) (by decide) (by decide)
  exact worded (N := put w 31 (put d 18 (put a 11 (872415233)))) rfl bound (by rw [read_fcvtF32F64 (h.trans (by decide)) (q0.trans (by decide)) (q1.trans (by decide)), f0, f1, f2])

theorem read_fcvtF32S64 {N : Nat} (h : N / 2 ^ 25 % 64 = 26) (q0 : N / 2 ^ 0 % 16 = 2) (q1 : N / 2 ^ 4 % 128 = 0) :
    parse N = some (Instr.fcvtF32S64 (fld N 31 1) (fld N 18 7) (fld N 11 7)) := by
  rw [major26 h]
  refine Eq.trans (b := (if N / 2 ^ 4 % 128 = 0 then some (.fcvtF32S64 (fld N 31 1) (fld N 18 7) (fld N 11 7)) else none : Option Instr)) ?_ ?_
  · unfold decodeFcv
    rw [q0] <;> rfl
  rw [if_pos q1]

theorem fcvtF32S64 (w : BitVec 1) (d : BitVec 7) (a : BitVec 7) : Statement (.fcvtF32S64 w d a) := by
  obtain ⟨bound, h, q0, q1, f0, f1, f2⟩ := form1 872415234 w d a (by decide) (by decide) (by decide) (by decide)
  exact worded (N := put w 31 (put d 18 (put a 11 (872415234)))) rfl bound (by rw [read_fcvtF32S64 (h.trans (by decide)) (q0.trans (by decide)) (q1.trans (by decide)), f0, f1, f2])

theorem read_fcvtF32N64 {N : Nat} (h : N / 2 ^ 25 % 64 = 26) (q0 : N / 2 ^ 0 % 16 = 3) (q1 : N / 2 ^ 4 % 128 = 0) :
    parse N = some (Instr.fcvtF32N64 (fld N 31 1) (fld N 18 7) (fld N 11 7)) := by
  rw [major26 h]
  refine Eq.trans (b := (if N / 2 ^ 4 % 128 = 0 then some (.fcvtF32N64 (fld N 31 1) (fld N 18 7) (fld N 11 7)) else none : Option Instr)) ?_ ?_
  · unfold decodeFcv
    rw [q0] <;> rfl
  rw [if_pos q1]

theorem fcvtF32N64 (w : BitVec 1) (d : BitVec 7) (a : BitVec 7) : Statement (.fcvtF32N64 w d a) := by
  obtain ⟨bound, h, q0, q1, f0, f1, f2⟩ := form1 872415235 w d a (by decide) (by decide) (by decide) (by decide)
  exact worded (N := put w 31 (put d 18 (put a 11 (872415235)))) rfl bound (by rw [read_fcvtF32N64 (h.trans (by decide)) (q0.trans (by decide)) (q1.trans (by decide)), f0, f1, f2])

theorem read_fcvtF64S64 {N : Nat} (h : N / 2 ^ 25 % 64 = 26) (q0 : N / 2 ^ 0 % 16 = 4) (q1 : N / 2 ^ 4 % 128 = 0) :
    parse N = some (Instr.fcvtF64S64 (fld N 31 1) (fld N 18 7) (fld N 11 7)) := by
  rw [major26 h]
  refine Eq.trans (b := (if N / 2 ^ 4 % 128 = 0 then some (.fcvtF64S64 (fld N 31 1) (fld N 18 7) (fld N 11 7)) else none : Option Instr)) ?_ ?_
  · unfold decodeFcv
    rw [q0] <;> rfl
  rw [if_pos q1]

theorem fcvtF64S64 (w : BitVec 1) (d : BitVec 7) (a : BitVec 7) : Statement (.fcvtF64S64 w d a) := by
  obtain ⟨bound, h, q0, q1, f0, f1, f2⟩ := form1 872415236 w d a (by decide) (by decide) (by decide) (by decide)
  exact worded (N := put w 31 (put d 18 (put a 11 (872415236)))) rfl bound (by rw [read_fcvtF64S64 (h.trans (by decide)) (q0.trans (by decide)) (q1.trans (by decide)), f0, f1, f2])

theorem read_fcvtF64N64 {N : Nat} (h : N / 2 ^ 25 % 64 = 26) (q0 : N / 2 ^ 0 % 16 = 5) (q1 : N / 2 ^ 4 % 128 = 0) :
    parse N = some (Instr.fcvtF64N64 (fld N 31 1) (fld N 18 7) (fld N 11 7)) := by
  rw [major26 h]
  refine Eq.trans (b := (if N / 2 ^ 4 % 128 = 0 then some (.fcvtF64N64 (fld N 31 1) (fld N 18 7) (fld N 11 7)) else none : Option Instr)) ?_ ?_
  · unfold decodeFcv
    rw [q0] <;> rfl
  rw [if_pos q1]

theorem fcvtF64N64 (w : BitVec 1) (d : BitVec 7) (a : BitVec 7) : Statement (.fcvtF64N64 w d a) := by
  obtain ⟨bound, h, q0, q1, f0, f1, f2⟩ := form1 872415237 w d a (by decide) (by decide) (by decide) (by decide)
  exact worded (N := put w 31 (put d 18 (put a 11 (872415237)))) rfl bound (by rw [read_fcvtF64N64 (h.trans (by decide)) (q0.trans (by decide)) (q1.trans (by decide)), f0, f1, f2])

theorem read_fcvtS64F32 {N : Nat} (h : N / 2 ^ 25 % 64 = 26) (q0 : N / 2 ^ 0 % 16 = 6) (q1 : N / 2 ^ 4 % 128 = 0) :
    parse N = some (Instr.fcvtS64F32 (fld N 31 1) (fld N 18 7) (fld N 11 7)) := by
  rw [major26 h]
  refine Eq.trans (b := (if N / 2 ^ 4 % 128 = 0 then some (.fcvtS64F32 (fld N 31 1) (fld N 18 7) (fld N 11 7)) else none : Option Instr)) ?_ ?_
  · unfold decodeFcv
    rw [q0] <;> rfl
  rw [if_pos q1]

theorem fcvtS64F32 (w : BitVec 1) (d : BitVec 7) (a : BitVec 7) : Statement (.fcvtS64F32 w d a) := by
  obtain ⟨bound, h, q0, q1, f0, f1, f2⟩ := form1 872415238 w d a (by decide) (by decide) (by decide) (by decide)
  exact worded (N := put w 31 (put d 18 (put a 11 (872415238)))) rfl bound (by rw [read_fcvtS64F32 (h.trans (by decide)) (q0.trans (by decide)) (q1.trans (by decide)), f0, f1, f2])

theorem read_fcvtN64F32 {N : Nat} (h : N / 2 ^ 25 % 64 = 26) (q0 : N / 2 ^ 0 % 16 = 7) (q1 : N / 2 ^ 4 % 128 = 0) :
    parse N = some (Instr.fcvtN64F32 (fld N 31 1) (fld N 18 7) (fld N 11 7)) := by
  rw [major26 h]
  refine Eq.trans (b := (if N / 2 ^ 4 % 128 = 0 then some (.fcvtN64F32 (fld N 31 1) (fld N 18 7) (fld N 11 7)) else none : Option Instr)) ?_ ?_
  · unfold decodeFcv
    rw [q0] <;> rfl
  rw [if_pos q1]

theorem fcvtN64F32 (w : BitVec 1) (d : BitVec 7) (a : BitVec 7) : Statement (.fcvtN64F32 w d a) := by
  obtain ⟨bound, h, q0, q1, f0, f1, f2⟩ := form1 872415239 w d a (by decide) (by decide) (by decide) (by decide)
  exact worded (N := put w 31 (put d 18 (put a 11 (872415239)))) rfl bound (by rw [read_fcvtN64F32 (h.trans (by decide)) (q0.trans (by decide)) (q1.trans (by decide)), f0, f1, f2])

theorem read_fcvtS64F64 {N : Nat} (h : N / 2 ^ 25 % 64 = 26) (q0 : N / 2 ^ 0 % 16 = 8) (q1 : N / 2 ^ 4 % 128 = 0) :
    parse N = some (Instr.fcvtS64F64 (fld N 31 1) (fld N 18 7) (fld N 11 7)) := by
  rw [major26 h]
  refine Eq.trans (b := (if N / 2 ^ 4 % 128 = 0 then some (.fcvtS64F64 (fld N 31 1) (fld N 18 7) (fld N 11 7)) else none : Option Instr)) ?_ ?_
  · unfold decodeFcv
    rw [q0] <;> rfl
  rw [if_pos q1]

theorem fcvtS64F64 (w : BitVec 1) (d : BitVec 7) (a : BitVec 7) : Statement (.fcvtS64F64 w d a) := by
  obtain ⟨bound, h, q0, q1, f0, f1, f2⟩ := form1 872415240 w d a (by decide) (by decide) (by decide) (by decide)
  exact worded (N := put w 31 (put d 18 (put a 11 (872415240)))) rfl bound (by rw [read_fcvtS64F64 (h.trans (by decide)) (q0.trans (by decide)) (q1.trans (by decide)), f0, f1, f2])

theorem read_fcvtN64F64 {N : Nat} (h : N / 2 ^ 25 % 64 = 26) (q0 : N / 2 ^ 0 % 16 = 9) (q1 : N / 2 ^ 4 % 128 = 0) :
    parse N = some (Instr.fcvtN64F64 (fld N 31 1) (fld N 18 7) (fld N 11 7)) := by
  rw [major26 h]
  refine Eq.trans (b := (if N / 2 ^ 4 % 128 = 0 then some (.fcvtN64F64 (fld N 31 1) (fld N 18 7) (fld N 11 7)) else none : Option Instr)) ?_ ?_
  · unfold decodeFcv
    rw [q0] <;> rfl
  rw [if_pos q1]

theorem fcvtN64F64 (w : BitVec 1) (d : BitVec 7) (a : BitVec 7) : Statement (.fcvtN64F64 w d a) := by
  obtain ⟨bound, h, q0, q1, f0, f1, f2⟩ := form1 872415241 w d a (by decide) (by decide) (by decide) (by decide)
  exact worded (N := put w 31 (put d 18 (put a 11 (872415241)))) rfl bound (by rw [read_fcvtN64F64 (h.trans (by decide)) (q0.trans (by decide)) (q1.trans (by decide)), f0, f1, f2])

theorem read_fcvtF32B16 {N : Nat} (h : N / 2 ^ 25 % 64 = 26) (q0 : N / 2 ^ 0 % 16 = 10) (q1 : N / 2 ^ 4 % 128 = 0) :
    parse N = some (Instr.fcvtF32B16 (fld N 31 1) (fld N 18 7) (fld N 11 7)) := by
  rw [major26 h]
  refine Eq.trans (b := (if N / 2 ^ 4 % 128 = 0 then some (.fcvtF32B16 (fld N 31 1) (fld N 18 7) (fld N 11 7)) else none : Option Instr)) ?_ ?_
  · unfold decodeFcv
    rw [q0] <;> rfl
  rw [if_pos q1]

theorem fcvtF32B16 (w : BitVec 1) (d : BitVec 7) (a : BitVec 7) : Statement (.fcvtF32B16 w d a) := by
  obtain ⟨bound, h, q0, q1, f0, f1, f2⟩ := form1 872415242 w d a (by decide) (by decide) (by decide) (by decide)
  exact worded (N := put w 31 (put d 18 (put a 11 (872415242)))) rfl bound (by rw [read_fcvtF32B16 (h.trans (by decide)) (q0.trans (by decide)) (q1.trans (by decide)), f0, f1, f2])

theorem read_fcvtB16F32 {N : Nat} (h : N / 2 ^ 25 % 64 = 26) (q0 : N / 2 ^ 0 % 16 = 11) (q1 : N / 2 ^ 4 % 128 = 0) :
    parse N = some (Instr.fcvtB16F32 (fld N 31 1) (fld N 18 7) (fld N 11 7)) := by
  rw [major26 h]
  refine Eq.trans (b := (if N / 2 ^ 4 % 128 = 0 then some (.fcvtB16F32 (fld N 31 1) (fld N 18 7) (fld N 11 7)) else none : Option Instr)) ?_ ?_
  · unfold decodeFcv
    rw [q0] <;> rfl
  rw [if_pos q1]

theorem fcvtB16F32 (w : BitVec 1) (d : BitVec 7) (a : BitVec 7) : Statement (.fcvtB16F32 w d a) := by
  obtain ⟨bound, h, q0, q1, f0, f1, f2⟩ := form1 872415243 w d a (by decide) (by decide) (by decide) (by decide)
  exact worded (N := put w 31 (put d 18 (put a 11 (872415243)))) rfl bound (by rw [read_fcvtB16F32 (h.trans (by decide)) (q0.trans (by decide)) (q1.trans (by decide)), f0, f1, f2])

theorem read_fcvtF32F16 {N : Nat} (h : N / 2 ^ 25 % 64 = 26) (q0 : N / 2 ^ 0 % 16 = 12) (q1 : N / 2 ^ 4 % 128 = 0) :
    parse N = some (Instr.fcvtF32F16 (fld N 31 1) (fld N 18 7) (fld N 11 7)) := by
  rw [major26 h]
  refine Eq.trans (b := (if N / 2 ^ 4 % 128 = 0 then some (.fcvtF32F16 (fld N 31 1) (fld N 18 7) (fld N 11 7)) else none : Option Instr)) ?_ ?_
  · unfold decodeFcv
    rw [q0] <;> rfl
  rw [if_pos q1]

theorem fcvtF32F16 (w : BitVec 1) (d : BitVec 7) (a : BitVec 7) : Statement (.fcvtF32F16 w d a) := by
  obtain ⟨bound, h, q0, q1, f0, f1, f2⟩ := form1 872415244 w d a (by decide) (by decide) (by decide) (by decide)
  exact worded (N := put w 31 (put d 18 (put a 11 (872415244)))) rfl bound (by rw [read_fcvtF32F16 (h.trans (by decide)) (q0.trans (by decide)) (q1.trans (by decide)), f0, f1, f2])

theorem read_fcvtF16F32 {N : Nat} (h : N / 2 ^ 25 % 64 = 26) (q0 : N / 2 ^ 0 % 16 = 13) (q1 : N / 2 ^ 4 % 128 = 0) :
    parse N = some (Instr.fcvtF16F32 (fld N 31 1) (fld N 18 7) (fld N 11 7)) := by
  rw [major26 h]
  refine Eq.trans (b := (if N / 2 ^ 4 % 128 = 0 then some (.fcvtF16F32 (fld N 31 1) (fld N 18 7) (fld N 11 7)) else none : Option Instr)) ?_ ?_
  · unfold decodeFcv
    rw [q0] <;> rfl
  rw [if_pos q1]

theorem fcvtF16F32 (w : BitVec 1) (d : BitVec 7) (a : BitVec 7) : Statement (.fcvtF16F32 w d a) := by
  obtain ⟨bound, h, q0, q1, f0, f1, f2⟩ := form1 872415245 w d a (by decide) (by decide) (by decide) (by decide)
  exact worded (N := put w 31 (put d 18 (put a 11 (872415245)))) rfl bound (by rw [read_fcvtF16F32 (h.trans (by decide)) (q0.trans (by decide)) (q1.trans (by decide)), f0, f1, f2])

theorem read_fcvtF32E4 {N : Nat} (h : N / 2 ^ 25 % 64 = 26) (q0 : N / 2 ^ 0 % 16 = 14) (q1 : N / 2 ^ 4 % 128 = 0) :
    parse N = some (Instr.fcvtF32E4 (fld N 31 1) (fld N 18 7) (fld N 11 7)) := by
  rw [major26 h]
  refine Eq.trans (b := (if N / 2 ^ 4 % 128 = 0 then some (.fcvtF32E4 (fld N 31 1) (fld N 18 7) (fld N 11 7)) else if N / 2 ^ 4 % 128 = 1 then some (.fcvtF32E5 (fld N 31 1) (fld N 18 7) (fld N 11 7)) else none : Option Instr)) ?_ ?_
  · unfold decodeFcv
    rw [q0] <;> rfl
  rw [if_pos q1]

theorem fcvtF32E4 (w : BitVec 1) (d : BitVec 7) (a : BitVec 7) : Statement (.fcvtF32E4 w d a) := by
  obtain ⟨bound, h, q0, q1, f0, f1, f2⟩ := form1 872415246 w d a (by decide) (by decide) (by decide) (by decide)
  exact worded (N := put w 31 (put d 18 (put a 11 (872415246)))) rfl bound (by rw [read_fcvtF32E4 (h.trans (by decide)) (q0.trans (by decide)) (q1.trans (by decide)), f0, f1, f2])

theorem read_fcvtF32E5 {N : Nat} (h : N / 2 ^ 25 % 64 = 26) (q0 : N / 2 ^ 0 % 16 = 14) (q1 : N / 2 ^ 4 % 128 = 1) :
    parse N = some (Instr.fcvtF32E5 (fld N 31 1) (fld N 18 7) (fld N 11 7)) := by
  rw [major26 h]
  refine Eq.trans (b := (if N / 2 ^ 4 % 128 = 0 then some (.fcvtF32E4 (fld N 31 1) (fld N 18 7) (fld N 11 7)) else if N / 2 ^ 4 % 128 = 1 then some (.fcvtF32E5 (fld N 31 1) (fld N 18 7) (fld N 11 7)) else none : Option Instr)) ?_ ?_
  · unfold decodeFcv
    rw [q0] <;> rfl
  rw [if_neg (by rw [q1]; decide)]
  rw [if_pos q1]

theorem fcvtF32E5 (w : BitVec 1) (d : BitVec 7) (a : BitVec 7) : Statement (.fcvtF32E5 w d a) := by
  obtain ⟨bound, h, q0, q1, f0, f1, f2⟩ := form1 872415262 w d a (by decide) (by decide) (by decide) (by decide)
  exact worded (N := put w 31 (put d 18 (put a 11 (872415262)))) rfl bound (by rw [read_fcvtF32E5 (h.trans (by decide)) (q0.trans (by decide)) (q1.trans (by decide)), f0, f1, f2])

theorem read_fcvtE4F32 {N : Nat} (h : N / 2 ^ 25 % 64 = 26) (q0 : N / 2 ^ 0 % 16 = 15) (q1 : N / 2 ^ 4 % 128 = 0) :
    parse N = some (Instr.fcvtE4F32 (fld N 31 1) (fld N 18 7) (fld N 11 7)) := by
  rw [major26 h]
  refine Eq.trans (b := (if N / 2 ^ 4 % 128 = 0 then some (.fcvtE4F32 (fld N 31 1) (fld N 18 7) (fld N 11 7)) else if N / 2 ^ 4 % 128 = 1 then some (.fcvtE5F32 (fld N 31 1) (fld N 18 7) (fld N 11 7)) else none : Option Instr)) ?_ ?_
  · unfold decodeFcv
    rw [q0] <;> rfl
  rw [if_pos q1]

theorem fcvtE4F32 (w : BitVec 1) (d : BitVec 7) (a : BitVec 7) : Statement (.fcvtE4F32 w d a) := by
  obtain ⟨bound, h, q0, q1, f0, f1, f2⟩ := form1 872415247 w d a (by decide) (by decide) (by decide) (by decide)
  exact worded (N := put w 31 (put d 18 (put a 11 (872415247)))) rfl bound (by rw [read_fcvtE4F32 (h.trans (by decide)) (q0.trans (by decide)) (q1.trans (by decide)), f0, f1, f2])

theorem read_fcvtE5F32 {N : Nat} (h : N / 2 ^ 25 % 64 = 26) (q0 : N / 2 ^ 0 % 16 = 15) (q1 : N / 2 ^ 4 % 128 = 1) :
    parse N = some (Instr.fcvtE5F32 (fld N 31 1) (fld N 18 7) (fld N 11 7)) := by
  rw [major26 h]
  refine Eq.trans (b := (if N / 2 ^ 4 % 128 = 0 then some (.fcvtE4F32 (fld N 31 1) (fld N 18 7) (fld N 11 7)) else if N / 2 ^ 4 % 128 = 1 then some (.fcvtE5F32 (fld N 31 1) (fld N 18 7) (fld N 11 7)) else none : Option Instr)) ?_ ?_
  · unfold decodeFcv
    rw [q0] <;> rfl
  rw [if_neg (by rw [q1]; decide)]
  rw [if_pos q1]

theorem fcvtE5F32 (w : BitVec 1) (d : BitVec 7) (a : BitVec 7) : Statement (.fcvtE5F32 w d a) := by
  obtain ⟨bound, h, q0, q1, f0, f1, f2⟩ := form1 872415263 w d a (by decide) (by decide) (by decide) (by decide)
  exact worded (N := put w 31 (put d 18 (put a 11 (872415263)))) rfl bound (by rw [read_fcvtE5F32 (h.trans (by decide)) (q0.trans (by decide)) (q1.trans (by decide)), f0, f1, f2])

theorem read_vadd {N : Nat} (h : N / 2 ^ 25 % 64 = 32) (q0 : N / 2 ^ 0 % 64 = 0) :
    parse N = some (Instr.vadd (fld N 31 1) (fld N 20 5) (fld N 15 5) (fld N 10 5) (fld N 9 1) (fld N 6 3)) := by
  rw [major32 h]
  refine Eq.trans (b := (some (.vadd (fld N 31 1) (fld N 20 5) (fld N 15 5) (fld N 10 5) (fld N 9 1) (fld N 6 3)) : Option Instr)) ?_ ?_
  · unfold decodeVa
    rw [q0] <;> rfl
  rfl

theorem vadd (w : BitVec 1) (d : BitVec 5) (a : BitVec 5) (b : BitVec 5) (m : BitVec 1) (t : BitVec 3) : Statement (.vadd w d a b m t) := by
  obtain ⟨bound, h, q0, f0, f1, f2, f3, f4, f5⟩ := form17 1073741824 w d a b m t (by decide) (by decide) (by decide) (by decide) (by decide) (by decide) (by decide)
  exact worded (N := put w 31 (put d 20 (put a 15 (put b 10 (put m 9 (put t 6 (1073741824))))))) rfl bound (by rw [read_vadd (h.trans (by decide)) (q0.trans (by decide)), f0, f1, f2, f3, f4, f5])

theorem read_vsub {N : Nat} (h : N / 2 ^ 25 % 64 = 32) (q0 : N / 2 ^ 0 % 64 = 1) :
    parse N = some (Instr.vsub (fld N 31 1) (fld N 20 5) (fld N 15 5) (fld N 10 5) (fld N 9 1) (fld N 6 3)) := by
  rw [major32 h]
  refine Eq.trans (b := (some (.vsub (fld N 31 1) (fld N 20 5) (fld N 15 5) (fld N 10 5) (fld N 9 1) (fld N 6 3)) : Option Instr)) ?_ ?_
  · unfold decodeVa
    rw [q0] <;> rfl
  rfl

theorem vsub (w : BitVec 1) (d : BitVec 5) (a : BitVec 5) (b : BitVec 5) (m : BitVec 1) (t : BitVec 3) : Statement (.vsub w d a b m t) := by
  obtain ⟨bound, h, q0, f0, f1, f2, f3, f4, f5⟩ := form17 1073741825 w d a b m t (by decide) (by decide) (by decide) (by decide) (by decide) (by decide) (by decide)
  exact worded (N := put w 31 (put d 20 (put a 15 (put b 10 (put m 9 (put t 6 (1073741825))))))) rfl bound (by rw [read_vsub (h.trans (by decide)) (q0.trans (by decide)), f0, f1, f2, f3, f4, f5])

theorem read_vmul {N : Nat} (h : N / 2 ^ 25 % 64 = 32) (q0 : N / 2 ^ 0 % 64 = 2) :
    parse N = some (Instr.vmul (fld N 31 1) (fld N 20 5) (fld N 15 5) (fld N 10 5) (fld N 9 1) (fld N 6 3)) := by
  rw [major32 h]
  refine Eq.trans (b := (some (.vmul (fld N 31 1) (fld N 20 5) (fld N 15 5) (fld N 10 5) (fld N 9 1) (fld N 6 3)) : Option Instr)) ?_ ?_
  · unfold decodeVa
    rw [q0] <;> rfl
  rfl

theorem vmul (w : BitVec 1) (d : BitVec 5) (a : BitVec 5) (b : BitVec 5) (m : BitVec 1) (t : BitVec 3) : Statement (.vmul w d a b m t) := by
  obtain ⟨bound, h, q0, f0, f1, f2, f3, f4, f5⟩ := form17 1073741826 w d a b m t (by decide) (by decide) (by decide) (by decide) (by decide) (by decide) (by decide)
  exact worded (N := put w 31 (put d 20 (put a 15 (put b 10 (put m 9 (put t 6 (1073741826))))))) rfl bound (by rw [read_vmul (h.trans (by decide)) (q0.trans (by decide)), f0, f1, f2, f3, f4, f5])

theorem read_vdiv {N : Nat} (h : N / 2 ^ 25 % 64 = 32) (q0 : N / 2 ^ 0 % 64 = 3) :
    parse N = some (Instr.vdiv (fld N 31 1) (fld N 20 5) (fld N 15 5) (fld N 10 5) (fld N 9 1) (fld N 6 3)) := by
  rw [major32 h]
  refine Eq.trans (b := (some (.vdiv (fld N 31 1) (fld N 20 5) (fld N 15 5) (fld N 10 5) (fld N 9 1) (fld N 6 3)) : Option Instr)) ?_ ?_
  · unfold decodeVa
    rw [q0] <;> rfl
  rfl

theorem vdiv (w : BitVec 1) (d : BitVec 5) (a : BitVec 5) (b : BitVec 5) (m : BitVec 1) (t : BitVec 3) : Statement (.vdiv w d a b m t) := by
  obtain ⟨bound, h, q0, f0, f1, f2, f3, f4, f5⟩ := form17 1073741827 w d a b m t (by decide) (by decide) (by decide) (by decide) (by decide) (by decide) (by decide)
  exact worded (N := put w 31 (put d 20 (put a 15 (put b 10 (put m 9 (put t 6 (1073741827))))))) rfl bound (by rw [read_vdiv (h.trans (by decide)) (q0.trans (by decide)), f0, f1, f2, f3, f4, f5])

theorem read_vfma {N : Nat} (h : N / 2 ^ 25 % 64 = 32) (q0 : N / 2 ^ 0 % 64 = 4) :
    parse N = some (Instr.vfma (fld N 31 1) (fld N 20 5) (fld N 15 5) (fld N 10 5) (fld N 9 1) (fld N 6 3)) := by
  rw [major32 h]
  refine Eq.trans (b := (some (.vfma (fld N 31 1) (fld N 20 5) (fld N 15 5) (fld N 10 5) (fld N 9 1) (fld N 6 3)) : Option Instr)) ?_ ?_
  · unfold decodeVa
    rw [q0] <;> rfl
  rfl

theorem vfma (w : BitVec 1) (d : BitVec 5) (a : BitVec 5) (b : BitVec 5) (m : BitVec 1) (t : BitVec 3) : Statement (.vfma w d a b m t) := by
  obtain ⟨bound, h, q0, f0, f1, f2, f3, f4, f5⟩ := form17 1073741828 w d a b m t (by decide) (by decide) (by decide) (by decide) (by decide) (by decide) (by decide)
  exact worded (N := put w 31 (put d 20 (put a 15 (put b 10 (put m 9 (put t 6 (1073741828))))))) rfl bound (by rw [read_vfma (h.trans (by decide)) (q0.trans (by decide)), f0, f1, f2, f3, f4, f5])

theorem read_vfms {N : Nat} (h : N / 2 ^ 25 % 64 = 32) (q0 : N / 2 ^ 0 % 64 = 5) :
    parse N = some (Instr.vfms (fld N 31 1) (fld N 20 5) (fld N 15 5) (fld N 10 5) (fld N 9 1) (fld N 6 3)) := by
  rw [major32 h]
  refine Eq.trans (b := (some (.vfms (fld N 31 1) (fld N 20 5) (fld N 15 5) (fld N 10 5) (fld N 9 1) (fld N 6 3)) : Option Instr)) ?_ ?_
  · unfold decodeVa
    rw [q0] <;> rfl
  rfl

theorem vfms (w : BitVec 1) (d : BitVec 5) (a : BitVec 5) (b : BitVec 5) (m : BitVec 1) (t : BitVec 3) : Statement (.vfms w d a b m t) := by
  obtain ⟨bound, h, q0, f0, f1, f2, f3, f4, f5⟩ := form17 1073741829 w d a b m t (by decide) (by decide) (by decide) (by decide) (by decide) (by decide) (by decide)
  exact worded (N := put w 31 (put d 20 (put a 15 (put b 10 (put m 9 (put t 6 (1073741829))))))) rfl bound (by rw [read_vfms (h.trans (by decide)) (q0.trans (by decide)), f0, f1, f2, f3, f4, f5])

theorem read_vfnma {N : Nat} (h : N / 2 ^ 25 % 64 = 32) (q0 : N / 2 ^ 0 % 64 = 6) :
    parse N = some (Instr.vfnma (fld N 31 1) (fld N 20 5) (fld N 15 5) (fld N 10 5) (fld N 9 1) (fld N 6 3)) := by
  rw [major32 h]
  refine Eq.trans (b := (some (.vfnma (fld N 31 1) (fld N 20 5) (fld N 15 5) (fld N 10 5) (fld N 9 1) (fld N 6 3)) : Option Instr)) ?_ ?_
  · unfold decodeVa
    rw [q0] <;> rfl
  rfl

theorem vfnma (w : BitVec 1) (d : BitVec 5) (a : BitVec 5) (b : BitVec 5) (m : BitVec 1) (t : BitVec 3) : Statement (.vfnma w d a b m t) := by
  obtain ⟨bound, h, q0, f0, f1, f2, f3, f4, f5⟩ := form17 1073741830 w d a b m t (by decide) (by decide) (by decide) (by decide) (by decide) (by decide) (by decide)
  exact worded (N := put w 31 (put d 20 (put a 15 (put b 10 (put m 9 (put t 6 (1073741830))))))) rfl bound (by rw [read_vfnma (h.trans (by decide)) (q0.trans (by decide)), f0, f1, f2, f3, f4, f5])

theorem read_vsqrt {N : Nat} (h : N / 2 ^ 25 % 64 = 32) (q0 : N / 2 ^ 0 % 64 = 7) (q1 : N / 2 ^ 10 % 32 = 0) :
    parse N = some (Instr.vsqrt (fld N 31 1) (fld N 20 5) (fld N 15 5) (fld N 9 1) (fld N 6 3)) := by
  rw [major32 h]
  refine Eq.trans (b := (if N / 2 ^ 10 % 32 = 0 then some (.vsqrt (fld N 31 1) (fld N 20 5) (fld N 15 5) (fld N 9 1) (fld N 6 3)) else none : Option Instr)) ?_ ?_
  · unfold decodeVa
    rw [q0] <;> rfl
  rw [if_pos q1]

theorem vsqrt (w : BitVec 1) (d : BitVec 5) (a : BitVec 5) (m : BitVec 1) (t : BitVec 3) : Statement (.vsqrt w d a m t) := by
  obtain ⟨bound, h, q0, q1, f0, f1, f2, f3, f4⟩ := form18 1073741831 w d a m t (by decide) (by decide) (by decide) (by decide) (by decide) (by decide)
  exact worded (N := put w 31 (put d 20 (put a 15 (put m 9 (put t 6 (1073741831)))))) rfl bound (by rw [read_vsqrt (h.trans (by decide)) (q0.trans (by decide)) (q1.trans (by decide)), f0, f1, f2, f3, f4])

theorem read_vmin {N : Nat} (h : N / 2 ^ 25 % 64 = 32) (q0 : N / 2 ^ 0 % 64 = 8) :
    parse N = some (Instr.vmin (fld N 31 1) (fld N 20 5) (fld N 15 5) (fld N 10 5) (fld N 9 1) (fld N 6 3)) := by
  rw [major32 h]
  refine Eq.trans (b := (some (.vmin (fld N 31 1) (fld N 20 5) (fld N 15 5) (fld N 10 5) (fld N 9 1) (fld N 6 3)) : Option Instr)) ?_ ?_
  · unfold decodeVa
    rw [q0] <;> rfl
  rfl

theorem vmin (w : BitVec 1) (d : BitVec 5) (a : BitVec 5) (b : BitVec 5) (m : BitVec 1) (t : BitVec 3) : Statement (.vmin w d a b m t) := by
  obtain ⟨bound, h, q0, f0, f1, f2, f3, f4, f5⟩ := form17 1073741832 w d a b m t (by decide) (by decide) (by decide) (by decide) (by decide) (by decide) (by decide)
  exact worded (N := put w 31 (put d 20 (put a 15 (put b 10 (put m 9 (put t 6 (1073741832))))))) rfl bound (by rw [read_vmin (h.trans (by decide)) (q0.trans (by decide)), f0, f1, f2, f3, f4, f5])

theorem read_vmax {N : Nat} (h : N / 2 ^ 25 % 64 = 32) (q0 : N / 2 ^ 0 % 64 = 9) :
    parse N = some (Instr.vmax (fld N 31 1) (fld N 20 5) (fld N 15 5) (fld N 10 5) (fld N 9 1) (fld N 6 3)) := by
  rw [major32 h]
  refine Eq.trans (b := (some (.vmax (fld N 31 1) (fld N 20 5) (fld N 15 5) (fld N 10 5) (fld N 9 1) (fld N 6 3)) : Option Instr)) ?_ ?_
  · unfold decodeVa
    rw [q0] <;> rfl
  rfl

theorem vmax (w : BitVec 1) (d : BitVec 5) (a : BitVec 5) (b : BitVec 5) (m : BitVec 1) (t : BitVec 3) : Statement (.vmax w d a b m t) := by
  obtain ⟨bound, h, q0, f0, f1, f2, f3, f4, f5⟩ := form17 1073741833 w d a b m t (by decide) (by decide) (by decide) (by decide) (by decide) (by decide) (by decide)
  exact worded (N := put w 31 (put d 20 (put a 15 (put b 10 (put m 9 (put t 6 (1073741833))))))) rfl bound (by rw [read_vmax (h.trans (by decide)) (q0.trans (by decide)), f0, f1, f2, f3, f4, f5])

theorem read_vabs {N : Nat} (h : N / 2 ^ 25 % 64 = 32) (q0 : N / 2 ^ 0 % 64 = 10) (q1 : N / 2 ^ 10 % 32 = 0) :
    parse N = some (Instr.vabs (fld N 31 1) (fld N 20 5) (fld N 15 5) (fld N 9 1) (fld N 6 3)) := by
  rw [major32 h]
  refine Eq.trans (b := (if N / 2 ^ 10 % 32 = 0 then some (.vabs (fld N 31 1) (fld N 20 5) (fld N 15 5) (fld N 9 1) (fld N 6 3)) else none : Option Instr)) ?_ ?_
  · unfold decodeVa
    rw [q0] <;> rfl
  rw [if_pos q1]

theorem vabs (w : BitVec 1) (d : BitVec 5) (a : BitVec 5) (m : BitVec 1) (t : BitVec 3) : Statement (.vabs w d a m t) := by
  obtain ⟨bound, h, q0, q1, f0, f1, f2, f3, f4⟩ := form18 1073741834 w d a m t (by decide) (by decide) (by decide) (by decide) (by decide) (by decide)
  exact worded (N := put w 31 (put d 20 (put a 15 (put m 9 (put t 6 (1073741834)))))) rfl bound (by rw [read_vabs (h.trans (by decide)) (q0.trans (by decide)) (q1.trans (by decide)), f0, f1, f2, f3, f4])

theorem read_vneg {N : Nat} (h : N / 2 ^ 25 % 64 = 32) (q0 : N / 2 ^ 0 % 64 = 11) (q1 : N / 2 ^ 10 % 32 = 0) :
    parse N = some (Instr.vneg (fld N 31 1) (fld N 20 5) (fld N 15 5) (fld N 9 1) (fld N 6 3)) := by
  rw [major32 h]
  refine Eq.trans (b := (if N / 2 ^ 10 % 32 = 0 then some (.vneg (fld N 31 1) (fld N 20 5) (fld N 15 5) (fld N 9 1) (fld N 6 3)) else none : Option Instr)) ?_ ?_
  · unfold decodeVa
    rw [q0] <;> rfl
  rw [if_pos q1]

theorem vneg (w : BitVec 1) (d : BitVec 5) (a : BitVec 5) (m : BitVec 1) (t : BitVec 3) : Statement (.vneg w d a m t) := by
  obtain ⟨bound, h, q0, q1, f0, f1, f2, f3, f4⟩ := form18 1073741835 w d a m t (by decide) (by decide) (by decide) (by decide) (by decide) (by decide)
  exact worded (N := put w 31 (put d 20 (put a 15 (put m 9 (put t 6 (1073741835)))))) rfl bound (by rw [read_vneg (h.trans (by decide)) (q0.trans (by decide)) (q1.trans (by decide)), f0, f1, f2, f3, f4])

theorem read_vcps {N : Nat} (h : N / 2 ^ 25 % 64 = 32) (q0 : N / 2 ^ 0 % 64 = 12) :
    parse N = some (Instr.vcps (fld N 31 1) (fld N 20 5) (fld N 15 5) (fld N 10 5) (fld N 9 1) (fld N 6 3)) := by
  rw [major32 h]
  refine Eq.trans (b := (some (.vcps (fld N 31 1) (fld N 20 5) (fld N 15 5) (fld N 10 5) (fld N 9 1) (fld N 6 3)) : Option Instr)) ?_ ?_
  · unfold decodeVa
    rw [q0] <;> rfl
  rfl

theorem vcps (w : BitVec 1) (d : BitVec 5) (a : BitVec 5) (b : BitVec 5) (m : BitVec 1) (t : BitVec 3) : Statement (.vcps w d a b m t) := by
  obtain ⟨bound, h, q0, f0, f1, f2, f3, f4, f5⟩ := form17 1073741836 w d a b m t (by decide) (by decide) (by decide) (by decide) (by decide) (by decide) (by decide)
  exact worded (N := put w 31 (put d 20 (put a 15 (put b 10 (put m 9 (put t 6 (1073741836))))))) rfl bound (by rw [read_vcps (h.trans (by decide)) (q0.trans (by decide)), f0, f1, f2, f3, f4, f5])

theorem read_vrcp {N : Nat} (h : N / 2 ^ 25 % 64 = 32) (q0 : N / 2 ^ 0 % 64 = 13) (q1 : N / 2 ^ 10 % 32 = 0) :
    parse N = some (Instr.vrcp (fld N 31 1) (fld N 20 5) (fld N 15 5) (fld N 9 1) (fld N 6 3)) := by
  rw [major32 h]
  refine Eq.trans (b := (if N / 2 ^ 10 % 32 = 0 then some (.vrcp (fld N 31 1) (fld N 20 5) (fld N 15 5) (fld N 9 1) (fld N 6 3)) else none : Option Instr)) ?_ ?_
  · unfold decodeVa
    rw [q0] <;> rfl
  rw [if_pos q1]

theorem vrcp (w : BitVec 1) (d : BitVec 5) (a : BitVec 5) (m : BitVec 1) (t : BitVec 3) : Statement (.vrcp w d a m t) := by
  obtain ⟨bound, h, q0, q1, f0, f1, f2, f3, f4⟩ := form18 1073741837 w d a m t (by decide) (by decide) (by decide) (by decide) (by decide) (by decide)
  exact worded (N := put w 31 (put d 20 (put a 15 (put m 9 (put t 6 (1073741837)))))) rfl bound (by rw [read_vrcp (h.trans (by decide)) (q0.trans (by decide)) (q1.trans (by decide)), f0, f1, f2, f3, f4])

theorem read_vrsq {N : Nat} (h : N / 2 ^ 25 % 64 = 32) (q0 : N / 2 ^ 0 % 64 = 14) (q1 : N / 2 ^ 10 % 32 = 0) :
    parse N = some (Instr.vrsq (fld N 31 1) (fld N 20 5) (fld N 15 5) (fld N 9 1) (fld N 6 3)) := by
  rw [major32 h]
  refine Eq.trans (b := (if N / 2 ^ 10 % 32 = 0 then some (.vrsq (fld N 31 1) (fld N 20 5) (fld N 15 5) (fld N 9 1) (fld N 6 3)) else none : Option Instr)) ?_ ?_
  · unfold decodeVa
    rw [q0] <;> rfl
  rw [if_pos q1]

theorem vrsq (w : BitVec 1) (d : BitVec 5) (a : BitVec 5) (m : BitVec 1) (t : BitVec 3) : Statement (.vrsq w d a m t) := by
  obtain ⟨bound, h, q0, q1, f0, f1, f2, f3, f4⟩ := form18 1073741838 w d a m t (by decide) (by decide) (by decide) (by decide) (by decide) (by decide)
  exact worded (N := put w 31 (put d 20 (put a 15 (put m 9 (put t 6 (1073741838)))))) rfl bound (by rw [read_vrsq (h.trans (by decide)) (q0.trans (by decide)) (q1.trans (by decide)), f0, f1, f2, f3, f4])

theorem read_vexp2 {N : Nat} (h : N / 2 ^ 25 % 64 = 32) (q0 : N / 2 ^ 0 % 64 = 15) (q1 : N / 2 ^ 10 % 32 = 0) :
    parse N = some (Instr.vexp2 (fld N 31 1) (fld N 20 5) (fld N 15 5) (fld N 9 1) (fld N 6 3)) := by
  rw [major32 h]
  refine Eq.trans (b := (if N / 2 ^ 10 % 32 = 0 then some (.vexp2 (fld N 31 1) (fld N 20 5) (fld N 15 5) (fld N 9 1) (fld N 6 3)) else none : Option Instr)) ?_ ?_
  · unfold decodeVa
    rw [q0] <;> rfl
  rw [if_pos q1]

theorem vexp2 (w : BitVec 1) (d : BitVec 5) (a : BitVec 5) (m : BitVec 1) (t : BitVec 3) : Statement (.vexp2 w d a m t) := by
  obtain ⟨bound, h, q0, q1, f0, f1, f2, f3, f4⟩ := form18 1073741839 w d a m t (by decide) (by decide) (by decide) (by decide) (by decide) (by decide)
  exact worded (N := put w 31 (put d 20 (put a 15 (put m 9 (put t 6 (1073741839)))))) rfl bound (by rw [read_vexp2 (h.trans (by decide)) (q0.trans (by decide)) (q1.trans (by decide)), f0, f1, f2, f3, f4])

theorem read_vlog2 {N : Nat} (h : N / 2 ^ 25 % 64 = 32) (q0 : N / 2 ^ 0 % 64 = 16) (q1 : N / 2 ^ 10 % 32 = 0) :
    parse N = some (Instr.vlog2 (fld N 31 1) (fld N 20 5) (fld N 15 5) (fld N 9 1) (fld N 6 3)) := by
  rw [major32 h]
  refine Eq.trans (b := (if N / 2 ^ 10 % 32 = 0 then some (.vlog2 (fld N 31 1) (fld N 20 5) (fld N 15 5) (fld N 9 1) (fld N 6 3)) else none : Option Instr)) ?_ ?_
  · unfold decodeVa
    rw [q0] <;> rfl
  rw [if_pos q1]

theorem vlog2 (w : BitVec 1) (d : BitVec 5) (a : BitVec 5) (m : BitVec 1) (t : BitVec 3) : Statement (.vlog2 w d a m t) := by
  obtain ⟨bound, h, q0, q1, f0, f1, f2, f3, f4⟩ := form18 1073741840 w d a m t (by decide) (by decide) (by decide) (by decide) (by decide) (by decide)
  exact worded (N := put w 31 (put d 20 (put a 15 (put m 9 (put t 6 (1073741840)))))) rfl bound (by rw [read_vlog2 (h.trans (by decide)) (q0.trans (by decide)) (q1.trans (by decide)), f0, f1, f2, f3, f4])

theorem read_vdot {N : Nat} (h : N / 2 ^ 25 % 64 = 32) (q0 : N / 2 ^ 0 % 64 = 17) :
    parse N = some (Instr.vdot (fld N 31 1) (fld N 20 5) (fld N 15 5) (fld N 10 5) (fld N 9 1) (fld N 6 3)) := by
  rw [major32 h]
  refine Eq.trans (b := (some (.vdot (fld N 31 1) (fld N 20 5) (fld N 15 5) (fld N 10 5) (fld N 9 1) (fld N 6 3)) : Option Instr)) ?_ ?_
  · unfold decodeVa
    rw [q0] <;> rfl
  rfl

theorem vdot (w : BitVec 1) (d : BitVec 5) (a : BitVec 5) (b : BitVec 5) (m : BitVec 1) (t : BitVec 3) : Statement (.vdot w d a b m t) := by
  obtain ⟨bound, h, q0, f0, f1, f2, f3, f4, f5⟩ := form17 1073741841 w d a b m t (by decide) (by decide) (by decide) (by decide) (by decide) (by decide) (by decide)
  exact worded (N := put w 31 (put d 20 (put a 15 (put b 10 (put m 9 (put t 6 (1073741841))))))) rfl bound (by rw [read_vdot (h.trans (by decide)) (q0.trans (by decide)), f0, f1, f2, f3, f4, f5])

theorem read_vand {N : Nat} (h : N / 2 ^ 25 % 64 = 32) (q0 : N / 2 ^ 0 % 64 = 18) :
    parse N = some (Instr.vand (fld N 31 1) (fld N 20 5) (fld N 15 5) (fld N 10 5) (fld N 9 1) (fld N 6 3)) := by
  rw [major32 h]
  refine Eq.trans (b := (some (.vand (fld N 31 1) (fld N 20 5) (fld N 15 5) (fld N 10 5) (fld N 9 1) (fld N 6 3)) : Option Instr)) ?_ ?_
  · unfold decodeVa
    rw [q0] <;> rfl
  rfl

theorem vand (w : BitVec 1) (d : BitVec 5) (a : BitVec 5) (b : BitVec 5) (m : BitVec 1) (t : BitVec 3) : Statement (.vand w d a b m t) := by
  obtain ⟨bound, h, q0, f0, f1, f2, f3, f4, f5⟩ := form17 1073741842 w d a b m t (by decide) (by decide) (by decide) (by decide) (by decide) (by decide) (by decide)
  exact worded (N := put w 31 (put d 20 (put a 15 (put b 10 (put m 9 (put t 6 (1073741842))))))) rfl bound (by rw [read_vand (h.trans (by decide)) (q0.trans (by decide)), f0, f1, f2, f3, f4, f5])

theorem read_vor {N : Nat} (h : N / 2 ^ 25 % 64 = 32) (q0 : N / 2 ^ 0 % 64 = 19) :
    parse N = some (Instr.vor (fld N 31 1) (fld N 20 5) (fld N 15 5) (fld N 10 5) (fld N 9 1) (fld N 6 3)) := by
  rw [major32 h]
  refine Eq.trans (b := (some (.vor (fld N 31 1) (fld N 20 5) (fld N 15 5) (fld N 10 5) (fld N 9 1) (fld N 6 3)) : Option Instr)) ?_ ?_
  · unfold decodeVa
    rw [q0] <;> rfl
  rfl

theorem vor (w : BitVec 1) (d : BitVec 5) (a : BitVec 5) (b : BitVec 5) (m : BitVec 1) (t : BitVec 3) : Statement (.vor w d a b m t) := by
  obtain ⟨bound, h, q0, f0, f1, f2, f3, f4, f5⟩ := form17 1073741843 w d a b m t (by decide) (by decide) (by decide) (by decide) (by decide) (by decide) (by decide)
  exact worded (N := put w 31 (put d 20 (put a 15 (put b 10 (put m 9 (put t 6 (1073741843))))))) rfl bound (by rw [read_vor (h.trans (by decide)) (q0.trans (by decide)), f0, f1, f2, f3, f4, f5])

theorem read_vxor {N : Nat} (h : N / 2 ^ 25 % 64 = 32) (q0 : N / 2 ^ 0 % 64 = 20) :
    parse N = some (Instr.vxor (fld N 31 1) (fld N 20 5) (fld N 15 5) (fld N 10 5) (fld N 9 1) (fld N 6 3)) := by
  rw [major32 h]
  refine Eq.trans (b := (some (.vxor (fld N 31 1) (fld N 20 5) (fld N 15 5) (fld N 10 5) (fld N 9 1) (fld N 6 3)) : Option Instr)) ?_ ?_
  · unfold decodeVa
    rw [q0] <;> rfl
  rfl

theorem vxor (w : BitVec 1) (d : BitVec 5) (a : BitVec 5) (b : BitVec 5) (m : BitVec 1) (t : BitVec 3) : Statement (.vxor w d a b m t) := by
  obtain ⟨bound, h, q0, f0, f1, f2, f3, f4, f5⟩ := form17 1073741844 w d a b m t (by decide) (by decide) (by decide) (by decide) (by decide) (by decide) (by decide)
  exact worded (N := put w 31 (put d 20 (put a 15 (put b 10 (put m 9 (put t 6 (1073741844))))))) rfl bound (by rw [read_vxor (h.trans (by decide)) (q0.trans (by decide)), f0, f1, f2, f3, f4, f5])

theorem read_vshl {N : Nat} (h : N / 2 ^ 25 % 64 = 32) (q0 : N / 2 ^ 0 % 64 = 21) :
    parse N = some (Instr.vshl (fld N 31 1) (fld N 20 5) (fld N 15 5) (fld N 10 5) (fld N 9 1) (fld N 6 3)) := by
  rw [major32 h]
  refine Eq.trans (b := (some (.vshl (fld N 31 1) (fld N 20 5) (fld N 15 5) (fld N 10 5) (fld N 9 1) (fld N 6 3)) : Option Instr)) ?_ ?_
  · unfold decodeVa
    rw [q0] <;> rfl
  rfl

theorem vshl (w : BitVec 1) (d : BitVec 5) (a : BitVec 5) (b : BitVec 5) (m : BitVec 1) (t : BitVec 3) : Statement (.vshl w d a b m t) := by
  obtain ⟨bound, h, q0, f0, f1, f2, f3, f4, f5⟩ := form17 1073741845 w d a b m t (by decide) (by decide) (by decide) (by decide) (by decide) (by decide) (by decide)
  exact worded (N := put w 31 (put d 20 (put a 15 (put b 10 (put m 9 (put t 6 (1073741845))))))) rfl bound (by rw [read_vshl (h.trans (by decide)) (q0.trans (by decide)), f0, f1, f2, f3, f4, f5])

theorem read_vshr {N : Nat} (h : N / 2 ^ 25 % 64 = 32) (q0 : N / 2 ^ 0 % 64 = 22) :
    parse N = some (Instr.vshr (fld N 31 1) (fld N 20 5) (fld N 15 5) (fld N 10 5) (fld N 9 1) (fld N 6 3)) := by
  rw [major32 h]
  refine Eq.trans (b := (some (.vshr (fld N 31 1) (fld N 20 5) (fld N 15 5) (fld N 10 5) (fld N 9 1) (fld N 6 3)) : Option Instr)) ?_ ?_
  · unfold decodeVa
    rw [q0] <;> rfl
  rfl

theorem vshr (w : BitVec 1) (d : BitVec 5) (a : BitVec 5) (b : BitVec 5) (m : BitVec 1) (t : BitVec 3) : Statement (.vshr w d a b m t) := by
  obtain ⟨bound, h, q0, f0, f1, f2, f3, f4, f5⟩ := form17 1073741846 w d a b m t (by decide) (by decide) (by decide) (by decide) (by decide) (by decide) (by decide)
  exact worded (N := put w 31 (put d 20 (put a 15 (put b 10 (put m 9 (put t 6 (1073741846))))))) rfl bound (by rw [read_vshr (h.trans (by decide)) (q0.trans (by decide)), f0, f1, f2, f3, f4, f5])

theorem read_vsra {N : Nat} (h : N / 2 ^ 25 % 64 = 32) (q0 : N / 2 ^ 0 % 64 = 23) :
    parse N = some (Instr.vsra (fld N 31 1) (fld N 20 5) (fld N 15 5) (fld N 10 5) (fld N 9 1) (fld N 6 3)) := by
  rw [major32 h]
  refine Eq.trans (b := (some (.vsra (fld N 31 1) (fld N 20 5) (fld N 15 5) (fld N 10 5) (fld N 9 1) (fld N 6 3)) : Option Instr)) ?_ ?_
  · unfold decodeVa
    rw [q0] <;> rfl
  rfl

theorem vsra (w : BitVec 1) (d : BitVec 5) (a : BitVec 5) (b : BitVec 5) (m : BitVec 1) (t : BitVec 3) : Statement (.vsra w d a b m t) := by
  obtain ⟨bound, h, q0, f0, f1, f2, f3, f4, f5⟩ := form17 1073741847 w d a b m t (by decide) (by decide) (by decide) (by decide) (by decide) (by decide) (by decide)
  exact worded (N := put w 31 (put d 20 (put a 15 (put b 10 (put m 9 (put t 6 (1073741847))))))) rfl bound (by rw [read_vsra (h.trans (by decide)) (q0.trans (by decide)), f0, f1, f2, f3, f4, f5])

theorem read_vceq {N : Nat} (h : N / 2 ^ 25 % 64 = 32) (q0 : N / 2 ^ 0 % 64 = 24) (q1 : N / 2 ^ 21 % 16 = 0) :
    parse N = some (Instr.vceq (fld N 31 1) (fld N 20 1) (fld N 15 5) (fld N 10 5) (fld N 9 1) (fld N 6 3)) := by
  rw [major32 h]
  refine Eq.trans (b := (if N / 2 ^ 21 % 16 = 0 then some (.vceq (fld N 31 1) (fld N 20 1) (fld N 15 5) (fld N 10 5) (fld N 9 1) (fld N 6 3)) else none : Option Instr)) ?_ ?_
  · unfold decodeVa
    rw [q0] <;> rfl
  rw [if_pos q1]

theorem vceq (w : BitVec 1) (c : BitVec 1) (a : BitVec 5) (b : BitVec 5) (m : BitVec 1) (t : BitVec 3) : Statement (.vceq w c a b m t) := by
  obtain ⟨bound, h, q0, q1, f0, f1, f2, f3, f4, f5⟩ := form19 1073741848 w c a b m t (by decide) (by decide) (by decide) (by decide) (by decide) (by decide) (by decide)
  exact worded (N := put w 31 (put c 20 (put a 15 (put b 10 (put m 9 (put t 6 (1073741848))))))) rfl bound (by rw [read_vceq (h.trans (by decide)) (q0.trans (by decide)) (q1.trans (by decide)), f0, f1, f2, f3, f4, f5])

theorem read_vcne {N : Nat} (h : N / 2 ^ 25 % 64 = 32) (q0 : N / 2 ^ 0 % 64 = 25) (q1 : N / 2 ^ 21 % 16 = 0) :
    parse N = some (Instr.vcne (fld N 31 1) (fld N 20 1) (fld N 15 5) (fld N 10 5) (fld N 9 1) (fld N 6 3)) := by
  rw [major32 h]
  refine Eq.trans (b := (if N / 2 ^ 21 % 16 = 0 then some (.vcne (fld N 31 1) (fld N 20 1) (fld N 15 5) (fld N 10 5) (fld N 9 1) (fld N 6 3)) else none : Option Instr)) ?_ ?_
  · unfold decodeVa
    rw [q0] <;> rfl
  rw [if_pos q1]

theorem vcne (w : BitVec 1) (c : BitVec 1) (a : BitVec 5) (b : BitVec 5) (m : BitVec 1) (t : BitVec 3) : Statement (.vcne w c a b m t) := by
  obtain ⟨bound, h, q0, q1, f0, f1, f2, f3, f4, f5⟩ := form19 1073741849 w c a b m t (by decide) (by decide) (by decide) (by decide) (by decide) (by decide) (by decide)
  exact worded (N := put w 31 (put c 20 (put a 15 (put b 10 (put m 9 (put t 6 (1073741849))))))) rfl bound (by rw [read_vcne (h.trans (by decide)) (q0.trans (by decide)) (q1.trans (by decide)), f0, f1, f2, f3, f4, f5])

theorem read_vclt {N : Nat} (h : N / 2 ^ 25 % 64 = 32) (q0 : N / 2 ^ 0 % 64 = 26) (q1 : N / 2 ^ 21 % 16 = 0) :
    parse N = some (Instr.vclt (fld N 31 1) (fld N 20 1) (fld N 15 5) (fld N 10 5) (fld N 9 1) (fld N 6 3)) := by
  rw [major32 h]
  refine Eq.trans (b := (if N / 2 ^ 21 % 16 = 0 then some (.vclt (fld N 31 1) (fld N 20 1) (fld N 15 5) (fld N 10 5) (fld N 9 1) (fld N 6 3)) else none : Option Instr)) ?_ ?_
  · unfold decodeVa
    rw [q0] <;> rfl
  rw [if_pos q1]

theorem vclt (w : BitVec 1) (c : BitVec 1) (a : BitVec 5) (b : BitVec 5) (m : BitVec 1) (t : BitVec 3) : Statement (.vclt w c a b m t) := by
  obtain ⟨bound, h, q0, q1, f0, f1, f2, f3, f4, f5⟩ := form19 1073741850 w c a b m t (by decide) (by decide) (by decide) (by decide) (by decide) (by decide) (by decide)
  exact worded (N := put w 31 (put c 20 (put a 15 (put b 10 (put m 9 (put t 6 (1073741850))))))) rfl bound (by rw [read_vclt (h.trans (by decide)) (q0.trans (by decide)) (q1.trans (by decide)), f0, f1, f2, f3, f4, f5])

theorem read_vcle {N : Nat} (h : N / 2 ^ 25 % 64 = 32) (q0 : N / 2 ^ 0 % 64 = 27) (q1 : N / 2 ^ 21 % 16 = 0) :
    parse N = some (Instr.vcle (fld N 31 1) (fld N 20 1) (fld N 15 5) (fld N 10 5) (fld N 9 1) (fld N 6 3)) := by
  rw [major32 h]
  refine Eq.trans (b := (if N / 2 ^ 21 % 16 = 0 then some (.vcle (fld N 31 1) (fld N 20 1) (fld N 15 5) (fld N 10 5) (fld N 9 1) (fld N 6 3)) else none : Option Instr)) ?_ ?_
  · unfold decodeVa
    rw [q0] <;> rfl
  rw [if_pos q1]

theorem vcle (w : BitVec 1) (c : BitVec 1) (a : BitVec 5) (b : BitVec 5) (m : BitVec 1) (t : BitVec 3) : Statement (.vcle w c a b m t) := by
  obtain ⟨bound, h, q0, q1, f0, f1, f2, f3, f4, f5⟩ := form19 1073741851 w c a b m t (by decide) (by decide) (by decide) (by decide) (by decide) (by decide) (by decide)
  exact worded (N := put w 31 (put c 20 (put a 15 (put b 10 (put m 9 (put t 6 (1073741851))))))) rfl bound (by rw [read_vcle (h.trans (by decide)) (q0.trans (by decide)) (q1.trans (by decide)), f0, f1, f2, f3, f4, f5])

theorem read_vsel {N : Nat} (h : N / 2 ^ 25 % 64 = 32) (q0 : N / 2 ^ 0 % 64 = 28) (q1 : N / 2 ^ 9 % 2 = 0) :
    parse N = some (Instr.vsel (fld N 31 1) (fld N 20 5) (fld N 15 5) (fld N 10 5) (fld N 6 3)) := by
  rw [major32 h]
  refine Eq.trans (b := (if N / 2 ^ 9 % 2 = 0 then some (.vsel (fld N 31 1) (fld N 20 5) (fld N 15 5) (fld N 10 5) (fld N 6 3)) else none : Option Instr)) ?_ ?_
  · unfold decodeVa
    rw [q0] <;> rfl
  rw [if_pos q1]

theorem vsel (w : BitVec 1) (d : BitVec 5) (a : BitVec 5) (b : BitVec 5) (t : BitVec 3) : Statement (.vsel w d a b t) := by
  obtain ⟨bound, h, q0, q1, f0, f1, f2, f3, f4⟩ := form20 1073741852 w d a b t (by decide) (by decide) (by decide) (by decide) (by decide) (by decide)
  exact worded (N := put w 31 (put d 20 (put a 15 (put b 10 (put t 6 (1073741852)))))) rfl bound (by rw [read_vsel (h.trans (by decide)) (q0.trans (by decide)) (q1.trans (by decide)), f0, f1, f2, f3, f4])

theorem read_vadds {N : Nat} (h : N / 2 ^ 25 % 64 = 32) (q0 : N / 2 ^ 0 % 64 = 29) :
    parse N = some (Instr.vadds (fld N 31 1) (fld N 20 5) (fld N 15 5) (fld N 10 5) (fld N 9 1) (fld N 6 3)) := by
  rw [major32 h]
  refine Eq.trans (b := (some (.vadds (fld N 31 1) (fld N 20 5) (fld N 15 5) (fld N 10 5) (fld N 9 1) (fld N 6 3)) : Option Instr)) ?_ ?_
  · unfold decodeVa
    rw [q0] <;> rfl
  rfl

theorem vadds (w : BitVec 1) (d : BitVec 5) (a : BitVec 5) (b : BitVec 5) (m : BitVec 1) (t : BitVec 3) : Statement (.vadds w d a b m t) := by
  obtain ⟨bound, h, q0, f0, f1, f2, f3, f4, f5⟩ := form17 1073741853 w d a b m t (by decide) (by decide) (by decide) (by decide) (by decide) (by decide) (by decide)
  exact worded (N := put w 31 (put d 20 (put a 15 (put b 10 (put m 9 (put t 6 (1073741853))))))) rfl bound (by rw [read_vadds (h.trans (by decide)) (q0.trans (by decide)), f0, f1, f2, f3, f4, f5])

theorem read_vsubs {N : Nat} (h : N / 2 ^ 25 % 64 = 32) (q0 : N / 2 ^ 0 % 64 = 30) :
    parse N = some (Instr.vsubs (fld N 31 1) (fld N 20 5) (fld N 15 5) (fld N 10 5) (fld N 9 1) (fld N 6 3)) := by
  rw [major32 h]
  refine Eq.trans (b := (some (.vsubs (fld N 31 1) (fld N 20 5) (fld N 15 5) (fld N 10 5) (fld N 9 1) (fld N 6 3)) : Option Instr)) ?_ ?_
  · unfold decodeVa
    rw [q0] <;> rfl
  rfl

theorem vsubs (w : BitVec 1) (d : BitVec 5) (a : BitVec 5) (b : BitVec 5) (m : BitVec 1) (t : BitVec 3) : Statement (.vsubs w d a b m t) := by
  obtain ⟨bound, h, q0, f0, f1, f2, f3, f4, f5⟩ := form17 1073741854 w d a b m t (by decide) (by decide) (by decide) (by decide) (by decide) (by decide) (by decide)
  exact worded (N := put w 31 (put d 20 (put a 15 (put b 10 (put m 9 (put t 6 (1073741854))))))) rfl bound (by rw [read_vsubs (h.trans (by decide)) (q0.trans (by decide)), f0, f1, f2, f3, f4, f5])

theorem read_vmulh {N : Nat} (h : N / 2 ^ 25 % 64 = 32) (q0 : N / 2 ^ 0 % 64 = 31) :
    parse N = some (Instr.vmulh (fld N 31 1) (fld N 20 5) (fld N 15 5) (fld N 10 5) (fld N 9 1) (fld N 6 3)) := by
  rw [major32 h]
  refine Eq.trans (b := (some (.vmulh (fld N 31 1) (fld N 20 5) (fld N 15 5) (fld N 10 5) (fld N 9 1) (fld N 6 3)) : Option Instr)) ?_ ?_
  · unfold decodeVa
    rw [q0] <;> rfl
  rfl

theorem vmulh (w : BitVec 1) (d : BitVec 5) (a : BitVec 5) (b : BitVec 5) (m : BitVec 1) (t : BitVec 3) : Statement (.vmulh w d a b m t) := by
  obtain ⟨bound, h, q0, f0, f1, f2, f3, f4, f5⟩ := form17 1073741855 w d a b m t (by decide) (by decide) (by decide) (by decide) (by decide) (by decide) (by decide)
  exact worded (N := put w 31 (put d 20 (put a 15 (put b 10 (put m 9 (put t 6 (1073741855))))))) rfl bound (by rw [read_vmulh (h.trans (by decide)) (q0.trans (by decide)), f0, f1, f2, f3, f4, f5])

theorem read_vcvt {N : Nat} (h : N / 2 ^ 25 % 64 = 33) (q0 : N / 2 ^ 3 % 8 = 0) :
    parse N = some (Instr.vcvt (fld N 31 1) (fld N 20 5) (fld N 15 5) (fld N 10 5) (fld N 9 1) (fld N 6 3) (fld N 0 3)) := by
  rw [major33 h]
  unfold decodeVx
  rw [if_pos q0]

theorem vcvt (w : BitVec 1) (d : BitVec 5) (a : BitVec 5) (p : BitVec 5) (m : BitVec 1) (t : BitVec 3) (s : BitVec 3) : Statement (.vcvt w d a p m t s) := by
  obtain ⟨bound, h, q0, f0, f1, f2, f3, f4, f5, f6⟩ := form21 1107296256 w d a p m t s (by decide) (by decide) (by decide) (by decide) (by decide) (by decide) (by decide) (by decide)
  exact worded (N := put w 31 (put d 20 (put a 15 (put p 10 (put m 9 (put t 6 (put s 0 (1107296256)))))))) rfl bound (by rw [read_vcvt (h.trans (by decide)) (q0.trans (by decide)), f0, f1, f2, f3, f4, f5, f6])

theorem read_vperm {N : Nat} (h : N / 2 ^ 25 % 64 = 33) (q0 : N / 2 ^ 3 % 8 = 1) (q1 : N / 2 ^ 0 % 64 = 8) :
    parse N = some (Instr.vperm (fld N 31 1) (fld N 20 5) (fld N 15 5) (fld N 10 5) (fld N 9 1) (fld N 6 3)) := by
  rw [major33 h]
  refine Eq.trans (b := (some (.vperm (fld N 31 1) (fld N 20 5) (fld N 15 5) (fld N 10 5) (fld N 9 1) (fld N 6 3)) : Option Instr)) ?_ ?_
  · unfold decodeVx
    rw [if_neg (by rw [q0]; decide)]
    rw [q1] <;> rfl
  rfl

theorem vperm (w : BitVec 1) (d : BitVec 5) (a : BitVec 5) (b : BitVec 5) (m : BitVec 1) (t : BitVec 3) : Statement (.vperm w d a b m t) := by
  obtain ⟨bound, h, q0, q1, f0, f1, f2, f3, f4, f5⟩ := form22 1107296264 w d a b m t (by decide) (by decide) (by decide) (by decide) (by decide) (by decide) (by decide)
  exact worded (N := put w 31 (put d 20 (put a 15 (put b 10 (put m 9 (put t 6 (1107296264))))))) rfl bound (by rw [read_vperm (h.trans (by decide)) (q0.trans (by decide)) (q1.trans (by decide)), f0, f1, f2, f3, f4, f5])

theorem read_vbcst {N : Nat} (h : N / 2 ^ 25 % 64 = 33) (q0 : N / 2 ^ 3 % 8 = 1) (q1 : N / 2 ^ 0 % 64 = 9) :
    parse N = some (Instr.vbcst (fld N 31 1) (fld N 20 5) (fld N 15 5) (fld N 10 5) (fld N 9 1) (fld N 6 3)) := by
  rw [major33 h]
  refine Eq.trans (b := (some (.vbcst (fld N 31 1) (fld N 20 5) (fld N 15 5) (fld N 10 5) (fld N 9 1) (fld N 6 3)) : Option Instr)) ?_ ?_
  · unfold decodeVx
    rw [if_neg (by rw [q0]; decide)]
    rw [q1] <;> rfl
  rfl

theorem vbcst (w : BitVec 1) (d : BitVec 5) (a : BitVec 5) (l : BitVec 5) (m : BitVec 1) (t : BitVec 3) : Statement (.vbcst w d a l m t) := by
  obtain ⟨bound, h, q0, q1, f0, f1, f2, f3, f4, f5⟩ := form22 1107296265 w d a l m t (by decide) (by decide) (by decide) (by decide) (by decide) (by decide) (by decide)
  exact worded (N := put w 31 (put d 20 (put a 15 (put l 10 (put m 9 (put t 6 (1107296265))))))) rfl bound (by rw [read_vbcst (h.trans (by decide)) (q0.trans (by decide)) (q1.trans (by decide)), f0, f1, f2, f3, f4, f5])

theorem read_vins {N : Nat} (h : N / 2 ^ 25 % 64 = 33) (q0 : N / 2 ^ 3 % 8 = 1) (q1 : N / 2 ^ 0 % 64 = 10) :
    parse N = some (Instr.vins (fld N 31 1) (fld N 20 5) (fld N 15 5) (fld N 10 5) (fld N 9 1) (fld N 6 3)) := by
  rw [major33 h]
  refine Eq.trans (b := (some (.vins (fld N 31 1) (fld N 20 5) (fld N 15 5) (fld N 10 5) (fld N 9 1) (fld N 6 3)) : Option Instr)) ?_ ?_
  · unfold decodeVx
    rw [if_neg (by rw [q0]; decide)]
    rw [q1] <;> rfl
  rfl

theorem vins (w : BitVec 1) (d : BitVec 5) (a : BitVec 5) (l : BitVec 5) (m : BitVec 1) (t : BitVec 3) : Statement (.vins w d a l m t) := by
  obtain ⟨bound, h, q0, q1, f0, f1, f2, f3, f4, f5⟩ := form22 1107296266 w d a l m t (by decide) (by decide) (by decide) (by decide) (by decide) (by decide) (by decide)
  exact worded (N := put w 31 (put d 20 (put a 15 (put l 10 (put m 9 (put t 6 (1107296266))))))) rfl bound (by rw [read_vins (h.trans (by decide)) (q0.trans (by decide)) (q1.trans (by decide)), f0, f1, f2, f3, f4, f5])

theorem read_vext {N : Nat} (h : N / 2 ^ 25 % 64 = 33) (q0 : N / 2 ^ 3 % 8 = 1) (q1 : N / 2 ^ 0 % 64 = 11) :
    parse N = some (Instr.vext (fld N 31 1) (fld N 20 5) (fld N 15 5) (fld N 10 5) (fld N 9 1) (fld N 6 3)) := by
  rw [major33 h]
  refine Eq.trans (b := (some (.vext (fld N 31 1) (fld N 20 5) (fld N 15 5) (fld N 10 5) (fld N 9 1) (fld N 6 3)) : Option Instr)) ?_ ?_
  · unfold decodeVx
    rw [if_neg (by rw [q0]; decide)]
    rw [q1] <;> rfl
  rfl

theorem vext (w : BitVec 1) (d : BitVec 5) (a : BitVec 5) (l : BitVec 5) (m : BitVec 1) (t : BitVec 3) : Statement (.vext w d a l m t) := by
  obtain ⟨bound, h, q0, q1, f0, f1, f2, f3, f4, f5⟩ := form22 1107296267 w d a l m t (by decide) (by decide) (by decide) (by decide) (by decide) (by decide) (by decide)
  exact worded (N := put w 31 (put d 20 (put a 15 (put l 10 (put m 9 (put t 6 (1107296267))))))) rfl bound (by rw [read_vext (h.trans (by decide)) (q0.trans (by decide)) (q1.trans (by decide)), f0, f1, f2, f3, f4, f5])

theorem read_vzipl {N : Nat} (h : N / 2 ^ 25 % 64 = 33) (q0 : N / 2 ^ 3 % 8 = 1) (q1 : N / 2 ^ 0 % 64 = 12) :
    parse N = some (Instr.vzipl (fld N 31 1) (fld N 20 5) (fld N 15 5) (fld N 10 5) (fld N 9 1) (fld N 6 3)) := by
  rw [major33 h]
  refine Eq.trans (b := (some (.vzipl (fld N 31 1) (fld N 20 5) (fld N 15 5) (fld N 10 5) (fld N 9 1) (fld N 6 3)) : Option Instr)) ?_ ?_
  · unfold decodeVx
    rw [if_neg (by rw [q0]; decide)]
    rw [q1] <;> rfl
  rfl

theorem vzipl (w : BitVec 1) (d : BitVec 5) (a : BitVec 5) (b : BitVec 5) (m : BitVec 1) (t : BitVec 3) : Statement (.vzipl w d a b m t) := by
  obtain ⟨bound, h, q0, q1, f0, f1, f2, f3, f4, f5⟩ := form22 1107296268 w d a b m t (by decide) (by decide) (by decide) (by decide) (by decide) (by decide) (by decide)
  exact worded (N := put w 31 (put d 20 (put a 15 (put b 10 (put m 9 (put t 6 (1107296268))))))) rfl bound (by rw [read_vzipl (h.trans (by decide)) (q0.trans (by decide)) (q1.trans (by decide)), f0, f1, f2, f3, f4, f5])

theorem read_vziph {N : Nat} (h : N / 2 ^ 25 % 64 = 33) (q0 : N / 2 ^ 3 % 8 = 1) (q1 : N / 2 ^ 0 % 64 = 13) :
    parse N = some (Instr.vziph (fld N 31 1) (fld N 20 5) (fld N 15 5) (fld N 10 5) (fld N 9 1) (fld N 6 3)) := by
  rw [major33 h]
  refine Eq.trans (b := (some (.vziph (fld N 31 1) (fld N 20 5) (fld N 15 5) (fld N 10 5) (fld N 9 1) (fld N 6 3)) : Option Instr)) ?_ ?_
  · unfold decodeVx
    rw [if_neg (by rw [q0]; decide)]
    rw [q1] <;> rfl
  rfl

theorem vziph (w : BitVec 1) (d : BitVec 5) (a : BitVec 5) (b : BitVec 5) (m : BitVec 1) (t : BitVec 3) : Statement (.vziph w d a b m t) := by
  obtain ⟨bound, h, q0, q1, f0, f1, f2, f3, f4, f5⟩ := form22 1107296269 w d a b m t (by decide) (by decide) (by decide) (by decide) (by decide) (by decide) (by decide)
  exact worded (N := put w 31 (put d 20 (put a 15 (put b 10 (put m 9 (put t 6 (1107296269))))))) rfl bound (by rw [read_vziph (h.trans (by decide)) (q0.trans (by decide)) (q1.trans (by decide)), f0, f1, f2, f3, f4, f5])

theorem read_vuzpe {N : Nat} (h : N / 2 ^ 25 % 64 = 33) (q0 : N / 2 ^ 3 % 8 = 1) (q1 : N / 2 ^ 0 % 64 = 14) :
    parse N = some (Instr.vuzpe (fld N 31 1) (fld N 20 5) (fld N 15 5) (fld N 10 5) (fld N 9 1) (fld N 6 3)) := by
  rw [major33 h]
  refine Eq.trans (b := (some (.vuzpe (fld N 31 1) (fld N 20 5) (fld N 15 5) (fld N 10 5) (fld N 9 1) (fld N 6 3)) : Option Instr)) ?_ ?_
  · unfold decodeVx
    rw [if_neg (by rw [q0]; decide)]
    rw [q1] <;> rfl
  rfl

theorem vuzpe (w : BitVec 1) (d : BitVec 5) (a : BitVec 5) (b : BitVec 5) (m : BitVec 1) (t : BitVec 3) : Statement (.vuzpe w d a b m t) := by
  obtain ⟨bound, h, q0, q1, f0, f1, f2, f3, f4, f5⟩ := form22 1107296270 w d a b m t (by decide) (by decide) (by decide) (by decide) (by decide) (by decide) (by decide)
  exact worded (N := put w 31 (put d 20 (put a 15 (put b 10 (put m 9 (put t 6 (1107296270))))))) rfl bound (by rw [read_vuzpe (h.trans (by decide)) (q0.trans (by decide)) (q1.trans (by decide)), f0, f1, f2, f3, f4, f5])

theorem read_vuzpo {N : Nat} (h : N / 2 ^ 25 % 64 = 33) (q0 : N / 2 ^ 3 % 8 = 1) (q1 : N / 2 ^ 0 % 64 = 15) :
    parse N = some (Instr.vuzpo (fld N 31 1) (fld N 20 5) (fld N 15 5) (fld N 10 5) (fld N 9 1) (fld N 6 3)) := by
  rw [major33 h]
  refine Eq.trans (b := (some (.vuzpo (fld N 31 1) (fld N 20 5) (fld N 15 5) (fld N 10 5) (fld N 9 1) (fld N 6 3)) : Option Instr)) ?_ ?_
  · unfold decodeVx
    rw [if_neg (by rw [q0]; decide)]
    rw [q1] <;> rfl
  rfl

theorem vuzpo (w : BitVec 1) (d : BitVec 5) (a : BitVec 5) (b : BitVec 5) (m : BitVec 1) (t : BitVec 3) : Statement (.vuzpo w d a b m t) := by
  obtain ⟨bound, h, q0, q1, f0, f1, f2, f3, f4, f5⟩ := form22 1107296271 w d a b m t (by decide) (by decide) (by decide) (by decide) (by decide) (by decide) (by decide)
  exact worded (N := put w 31 (put d 20 (put a 15 (put b 10 (put m 9 (put t 6 (1107296271))))))) rfl bound (by rw [read_vuzpo (h.trans (by decide)) (q0.trans (by decide)) (q1.trans (by decide)), f0, f1, f2, f3, f4, f5])

theorem read_vrsum {N : Nat} (h : N / 2 ^ 25 % 64 = 33) (q0 : N / 2 ^ 3 % 8 = 2) (q1 : N / 2 ^ 0 % 64 = 16) (q2 : N / 2 ^ 10 % 32 = 0) :
    parse N = some (Instr.vrsum (fld N 31 1) (fld N 20 5) (fld N 15 5) (fld N 9 1) (fld N 6 3)) := by
  rw [major33 h]
  refine Eq.trans (b := (if N / 2 ^ 10 % 32 = 0 then some (.vrsum (fld N 31 1) (fld N 20 5) (fld N 15 5) (fld N 9 1) (fld N 6 3)) else none : Option Instr)) ?_ ?_
  · unfold decodeVx
    rw [if_neg (by rw [q0]; decide)]
    rw [q1] <;> rfl
  rw [if_pos q2]

theorem vrsum (w : BitVec 1) (d : BitVec 5) (a : BitVec 5) (m : BitVec 1) (t : BitVec 3) : Statement (.vrsum w d a m t) := by
  obtain ⟨bound, h, q0, q1, q2, f0, f1, f2, f3, f4⟩ := form23 1107296272 w d a m t (by decide) (by decide) (by decide) (by decide) (by decide) (by decide)
  exact worded (N := put w 31 (put d 20 (put a 15 (put m 9 (put t 6 (1107296272)))))) rfl bound (by rw [read_vrsum (h.trans (by decide)) (q0.trans (by decide)) (q1.trans (by decide)) (q2.trans (by decide)), f0, f1, f2, f3, f4])

theorem read_vrmax {N : Nat} (h : N / 2 ^ 25 % 64 = 33) (q0 : N / 2 ^ 3 % 8 = 2) (q1 : N / 2 ^ 0 % 64 = 17) (q2 : N / 2 ^ 10 % 32 = 0) :
    parse N = some (Instr.vrmax (fld N 31 1) (fld N 20 5) (fld N 15 5) (fld N 9 1) (fld N 6 3)) := by
  rw [major33 h]
  refine Eq.trans (b := (if N / 2 ^ 10 % 32 = 0 then some (.vrmax (fld N 31 1) (fld N 20 5) (fld N 15 5) (fld N 9 1) (fld N 6 3)) else none : Option Instr)) ?_ ?_
  · unfold decodeVx
    rw [if_neg (by rw [q0]; decide)]
    rw [q1] <;> rfl
  rw [if_pos q2]

theorem vrmax (w : BitVec 1) (d : BitVec 5) (a : BitVec 5) (m : BitVec 1) (t : BitVec 3) : Statement (.vrmax w d a m t) := by
  obtain ⟨bound, h, q0, q1, q2, f0, f1, f2, f3, f4⟩ := form23 1107296273 w d a m t (by decide) (by decide) (by decide) (by decide) (by decide) (by decide)
  exact worded (N := put w 31 (put d 20 (put a 15 (put m 9 (put t 6 (1107296273)))))) rfl bound (by rw [read_vrmax (h.trans (by decide)) (q0.trans (by decide)) (q1.trans (by decide)) (q2.trans (by decide)), f0, f1, f2, f3, f4])

theorem read_vrmin {N : Nat} (h : N / 2 ^ 25 % 64 = 33) (q0 : N / 2 ^ 3 % 8 = 2) (q1 : N / 2 ^ 0 % 64 = 18) (q2 : N / 2 ^ 10 % 32 = 0) :
    parse N = some (Instr.vrmin (fld N 31 1) (fld N 20 5) (fld N 15 5) (fld N 9 1) (fld N 6 3)) := by
  rw [major33 h]
  refine Eq.trans (b := (if N / 2 ^ 10 % 32 = 0 then some (.vrmin (fld N 31 1) (fld N 20 5) (fld N 15 5) (fld N 9 1) (fld N 6 3)) else none : Option Instr)) ?_ ?_
  · unfold decodeVx
    rw [if_neg (by rw [q0]; decide)]
    rw [q1] <;> rfl
  rw [if_pos q2]

theorem vrmin (w : BitVec 1) (d : BitVec 5) (a : BitVec 5) (m : BitVec 1) (t : BitVec 3) : Statement (.vrmin w d a m t) := by
  obtain ⟨bound, h, q0, q1, q2, f0, f1, f2, f3, f4⟩ := form23 1107296274 w d a m t (by decide) (by decide) (by decide) (by decide) (by decide) (by decide)
  exact worded (N := put w 31 (put d 20 (put a 15 (put m 9 (put t 6 (1107296274)))))) rfl bound (by rw [read_vrmin (h.trans (by decide)) (q0.trans (by decide)) (q1.trans (by decide)) (q2.trans (by decide)), f0, f1, f2, f3, f4])

theorem read_vrand {N : Nat} (h : N / 2 ^ 25 % 64 = 33) (q0 : N / 2 ^ 3 % 8 = 2) (q1 : N / 2 ^ 0 % 64 = 19) (q2 : N / 2 ^ 10 % 32 = 0) :
    parse N = some (Instr.vrand (fld N 31 1) (fld N 20 5) (fld N 15 5) (fld N 9 1) (fld N 6 3)) := by
  rw [major33 h]
  refine Eq.trans (b := (if N / 2 ^ 10 % 32 = 0 then some (.vrand (fld N 31 1) (fld N 20 5) (fld N 15 5) (fld N 9 1) (fld N 6 3)) else none : Option Instr)) ?_ ?_
  · unfold decodeVx
    rw [if_neg (by rw [q0]; decide)]
    rw [q1] <;> rfl
  rw [if_pos q2]

theorem vrand (w : BitVec 1) (d : BitVec 5) (a : BitVec 5) (m : BitVec 1) (t : BitVec 3) : Statement (.vrand w d a m t) := by
  obtain ⟨bound, h, q0, q1, q2, f0, f1, f2, f3, f4⟩ := form23 1107296275 w d a m t (by decide) (by decide) (by decide) (by decide) (by decide) (by decide)
  exact worded (N := put w 31 (put d 20 (put a 15 (put m 9 (put t 6 (1107296275)))))) rfl bound (by rw [read_vrand (h.trans (by decide)) (q0.trans (by decide)) (q1.trans (by decide)) (q2.trans (by decide)), f0, f1, f2, f3, f4])

theorem read_vror {N : Nat} (h : N / 2 ^ 25 % 64 = 33) (q0 : N / 2 ^ 3 % 8 = 2) (q1 : N / 2 ^ 0 % 64 = 20) (q2 : N / 2 ^ 10 % 32 = 0) :
    parse N = some (Instr.vror (fld N 31 1) (fld N 20 5) (fld N 15 5) (fld N 9 1) (fld N 6 3)) := by
  rw [major33 h]
  refine Eq.trans (b := (if N / 2 ^ 10 % 32 = 0 then some (.vror (fld N 31 1) (fld N 20 5) (fld N 15 5) (fld N 9 1) (fld N 6 3)) else none : Option Instr)) ?_ ?_
  · unfold decodeVx
    rw [if_neg (by rw [q0]; decide)]
    rw [q1] <;> rfl
  rw [if_pos q2]

theorem vror (w : BitVec 1) (d : BitVec 5) (a : BitVec 5) (m : BitVec 1) (t : BitVec 3) : Statement (.vror w d a m t) := by
  obtain ⟨bound, h, q0, q1, q2, f0, f1, f2, f3, f4⟩ := form23 1107296276 w d a m t (by decide) (by decide) (by decide) (by decide) (by decide) (by decide)
  exact worded (N := put w 31 (put d 20 (put a 15 (put m 9 (put t 6 (1107296276)))))) rfl bound (by rw [read_vror (h.trans (by decide)) (q0.trans (by decide)) (q1.trans (by decide)) (q2.trans (by decide)), f0, f1, f2, f3, f4])

theorem read_vmovs {N : Nat} (h : N / 2 ^ 25 % 64 = 33) (q0 : N / 2 ^ 3 % 8 = 2) (q1 : N / 2 ^ 0 % 64 = 21) (q2 : N / 2 ^ 10 % 32 = 0) :
    parse N = some (Instr.vmovs (fld N 31 1) (fld N 20 5) (fld N 15 5) (fld N 9 1) (fld N 6 3)) := by
  rw [major33 h]
  refine Eq.trans (b := (if N / 2 ^ 10 % 32 = 0 then some (.vmovs (fld N 31 1) (fld N 20 5) (fld N 15 5) (fld N 9 1) (fld N 6 3)) else none : Option Instr)) ?_ ?_
  · unfold decodeVx
    rw [if_neg (by rw [q0]; decide)]
    rw [q1] <;> rfl
  rw [if_pos q2]

theorem vmovs (w : BitVec 1) (d : BitVec 5) (a : BitVec 5) (m : BitVec 1) (t : BitVec 3) : Statement (.vmovs w d a m t) := by
  obtain ⟨bound, h, q0, q1, q2, f0, f1, f2, f3, f4⟩ := form23 1107296277 w d a m t (by decide) (by decide) (by decide) (by decide) (by decide) (by decide)
  exact worded (N := put w 31 (put d 20 (put a 15 (put m 9 (put t 6 (1107296277)))))) rfl bound (by rw [read_vmovs (h.trans (by decide)) (q0.trans (by decide)) (q1.trans (by decide)) (q2.trans (by decide)), f0, f1, f2, f3, f4])

theorem read_lds8 {N : Nat} (h : N / 2 ^ 25 % 64 = 36) :
    parse N = some (Instr.lds8 (fld N 31 1) (fld N 18 7) (fld N 11 7) (fld N 8 3) (fld N 0 8)) := by
  rw [major36 h]
  rfl

theorem lds8 (w : BitVec 1) (t : BitVec 7) (b : BitVec 7) (r : BitVec 3) (o : BitVec 8) : Statement (.lds8 w t b r o) := by
  obtain ⟨bound, h, f0, f1, f2, f3, f4⟩ := form24 1207959552 w t b r o (by decide) (by decide) (by decide) (by decide) (by decide) (by decide)
  exact worded (N := put w 31 (put t 18 (put b 11 (put r 8 (put o 0 (1207959552)))))) rfl bound (by rw [read_lds8 (h.trans (by decide)), f0, f1, f2, f3, f4])

theorem read_ldn8 {N : Nat} (h : N / 2 ^ 25 % 64 = 37) :
    parse N = some (Instr.ldn8 (fld N 31 1) (fld N 18 7) (fld N 11 7) (fld N 8 3) (fld N 0 8)) := by
  rw [major37 h]
  rfl

theorem ldn8 (w : BitVec 1) (t : BitVec 7) (b : BitVec 7) (r : BitVec 3) (o : BitVec 8) : Statement (.ldn8 w t b r o) := by
  obtain ⟨bound, h, f0, f1, f2, f3, f4⟩ := form24 1241513984 w t b r o (by decide) (by decide) (by decide) (by decide) (by decide) (by decide)
  exact worded (N := put w 31 (put t 18 (put b 11 (put r 8 (put o 0 (1241513984)))))) rfl bound (by rw [read_ldn8 (h.trans (by decide)), f0, f1, f2, f3, f4])

theorem read_lds16 {N : Nat} (h : N / 2 ^ 25 % 64 = 38) :
    parse N = some (Instr.lds16 (fld N 31 1) (fld N 18 7) (fld N 11 7) (fld N 8 3) (fld N 0 8)) := by
  rw [major38 h]
  rfl

theorem lds16 (w : BitVec 1) (t : BitVec 7) (b : BitVec 7) (r : BitVec 3) (o : BitVec 8) : Statement (.lds16 w t b r o) := by
  obtain ⟨bound, h, f0, f1, f2, f3, f4⟩ := form24 1275068416 w t b r o (by decide) (by decide) (by decide) (by decide) (by decide) (by decide)
  exact worded (N := put w 31 (put t 18 (put b 11 (put r 8 (put o 0 (1275068416)))))) rfl bound (by rw [read_lds16 (h.trans (by decide)), f0, f1, f2, f3, f4])

theorem read_ldn16 {N : Nat} (h : N / 2 ^ 25 % 64 = 39) :
    parse N = some (Instr.ldn16 (fld N 31 1) (fld N 18 7) (fld N 11 7) (fld N 8 3) (fld N 0 8)) := by
  rw [major39 h]
  rfl

theorem ldn16 (w : BitVec 1) (t : BitVec 7) (b : BitVec 7) (r : BitVec 3) (o : BitVec 8) : Statement (.ldn16 w t b r o) := by
  obtain ⟨bound, h, f0, f1, f2, f3, f4⟩ := form24 1308622848 w t b r o (by decide) (by decide) (by decide) (by decide) (by decide) (by decide)
  exact worded (N := put w 31 (put t 18 (put b 11 (put r 8 (put o 0 (1308622848)))))) rfl bound (by rw [read_ldn16 (h.trans (by decide)), f0, f1, f2, f3, f4])

theorem read_lds32 {N : Nat} (h : N / 2 ^ 25 % 64 = 40) :
    parse N = some (Instr.lds32 (fld N 31 1) (fld N 18 7) (fld N 11 7) (fld N 8 3) (fld N 0 8)) := by
  rw [major40 h]
  rfl

theorem lds32 (w : BitVec 1) (t : BitVec 7) (b : BitVec 7) (r : BitVec 3) (o : BitVec 8) : Statement (.lds32 w t b r o) := by
  obtain ⟨bound, h, f0, f1, f2, f3, f4⟩ := form24 1342177280 w t b r o (by decide) (by decide) (by decide) (by decide) (by decide) (by decide)
  exact worded (N := put w 31 (put t 18 (put b 11 (put r 8 (put o 0 (1342177280)))))) rfl bound (by rw [read_lds32 (h.trans (by decide)), f0, f1, f2, f3, f4])

theorem read_ldn32 {N : Nat} (h : N / 2 ^ 25 % 64 = 41) :
    parse N = some (Instr.ldn32 (fld N 31 1) (fld N 18 7) (fld N 11 7) (fld N 8 3) (fld N 0 8)) := by
  rw [major41 h]
  rfl

theorem ldn32 (w : BitVec 1) (t : BitVec 7) (b : BitVec 7) (r : BitVec 3) (o : BitVec 8) : Statement (.ldn32 w t b r o) := by
  obtain ⟨bound, h, f0, f1, f2, f3, f4⟩ := form24 1375731712 w t b r o (by decide) (by decide) (by decide) (by decide) (by decide) (by decide)
  exact worded (N := put w 31 (put t 18 (put b 11 (put r 8 (put o 0 (1375731712)))))) rfl bound (by rw [read_ldn32 (h.trans (by decide)), f0, f1, f2, f3, f4])

theorem read_ld64 {N : Nat} (h : N / 2 ^ 25 % 64 = 42) :
    parse N = some (Instr.ld64 (fld N 31 1) (fld N 18 7) (fld N 11 7) (fld N 8 3) (fld N 0 8)) := by
  rw [major42 h]
  rfl

theorem ld64 (w : BitVec 1) (t : BitVec 7) (b : BitVec 7) (r : BitVec 3) (o : BitVec 8) : Statement (.ld64 w t b r o) := by
  obtain ⟨bound, h, f0, f1, f2, f3, f4⟩ := form24 1409286144 w t b r o (by decide) (by decide) (by decide) (by decide) (by decide) (by decide)
  exact worded (N := put w 31 (put t 18 (put b 11 (put r 8 (put o 0 (1409286144)))))) rfl bound (by rw [read_ld64 (h.trans (by decide)), f0, f1, f2, f3, f4])

theorem read_st8 {N : Nat} (h : N / 2 ^ 25 % 64 = 43) :
    parse N = some (Instr.st8 (fld N 31 1) (fld N 18 7) (fld N 11 7) (fld N 8 3) (fld N 0 8)) := by
  rw [major43 h]
  rfl

theorem st8 (w : BitVec 1) (t : BitVec 7) (b : BitVec 7) (r : BitVec 3) (o : BitVec 8) : Statement (.st8 w t b r o) := by
  obtain ⟨bound, h, f0, f1, f2, f3, f4⟩ := form24 1442840576 w t b r o (by decide) (by decide) (by decide) (by decide) (by decide) (by decide)
  exact worded (N := put w 31 (put t 18 (put b 11 (put r 8 (put o 0 (1442840576)))))) rfl bound (by rw [read_st8 (h.trans (by decide)), f0, f1, f2, f3, f4])

theorem read_st16 {N : Nat} (h : N / 2 ^ 25 % 64 = 44) :
    parse N = some (Instr.st16 (fld N 31 1) (fld N 18 7) (fld N 11 7) (fld N 8 3) (fld N 0 8)) := by
  rw [major44 h]
  rfl

theorem st16 (w : BitVec 1) (t : BitVec 7) (b : BitVec 7) (r : BitVec 3) (o : BitVec 8) : Statement (.st16 w t b r o) := by
  obtain ⟨bound, h, f0, f1, f2, f3, f4⟩ := form24 1476395008 w t b r o (by decide) (by decide) (by decide) (by decide) (by decide) (by decide)
  exact worded (N := put w 31 (put t 18 (put b 11 (put r 8 (put o 0 (1476395008)))))) rfl bound (by rw [read_st16 (h.trans (by decide)), f0, f1, f2, f3, f4])

theorem read_st32 {N : Nat} (h : N / 2 ^ 25 % 64 = 45) :
    parse N = some (Instr.st32 (fld N 31 1) (fld N 18 7) (fld N 11 7) (fld N 8 3) (fld N 0 8)) := by
  rw [major45 h]
  rfl

theorem st32 (w : BitVec 1) (t : BitVec 7) (b : BitVec 7) (r : BitVec 3) (o : BitVec 8) : Statement (.st32 w t b r o) := by
  obtain ⟨bound, h, f0, f1, f2, f3, f4⟩ := form24 1509949440 w t b r o (by decide) (by decide) (by decide) (by decide) (by decide) (by decide)
  exact worded (N := put w 31 (put t 18 (put b 11 (put r 8 (put o 0 (1509949440)))))) rfl bound (by rw [read_st32 (h.trans (by decide)), f0, f1, f2, f3, f4])

theorem read_st64 {N : Nat} (h : N / 2 ^ 25 % 64 = 46) :
    parse N = some (Instr.st64 (fld N 31 1) (fld N 18 7) (fld N 11 7) (fld N 8 3) (fld N 0 8)) := by
  rw [major46 h]
  rfl

theorem st64 (w : BitVec 1) (t : BitVec 7) (b : BitVec 7) (r : BitVec 3) (o : BitVec 8) : Statement (.st64 w t b r o) := by
  obtain ⟨bound, h, f0, f1, f2, f3, f4⟩ := form24 1543503872 w t b r o (by decide) (by decide) (by decide) (by decide) (by decide) (by decide)
  exact worded (N := put w 31 (put t 18 (put b 11 (put r 8 (put o 0 (1543503872)))))) rfl bound (by rw [read_st64 (h.trans (by decide)), f0, f1, f2, f3, f4])

theorem read_vld {N : Nat} (h : N / 2 ^ 25 % 64 = 47) (q0 : N / 2 ^ 3 % 8 = 0) (q1 : N / 2 ^ 6 % 128 = 0) :
    parse N = some (Instr.vld (fld N 31 1) (fld N 20 5) (fld N 13 7) (fld N 2 1) (fld N 0 2)) := by
  rw [major47 h]
  refine Eq.trans (b := (if N / 2 ^ 6 % 128 = 0 then some (.vld (fld N 31 1) (fld N 20 5) (fld N 13 7) (fld N 2 1) (fld N 0 2)) else none : Option Instr)) ?_ ?_
  · unfold decodeVmem
    rw [q0] <;> rfl
  rw [if_pos q1]

theorem vld (w : BitVec 1) (t : BitVec 5) (b : BitVec 7) (m : BitVec 1) (r : BitVec 2) : Statement (.vld w t b m r) := by
  obtain ⟨bound, h, q0, q1, f0, f1, f2, f3, f4⟩ := form25 1577058304 w t b m r (by decide) (by decide) (by decide) (by decide) (by decide) (by decide)
  exact worded (N := put w 31 (put t 20 (put b 13 (put m 2 (put r 0 (1577058304)))))) rfl bound (by rw [read_vld (h.trans (by decide)) (q0.trans (by decide)) (q1.trans (by decide)), f0, f1, f2, f3, f4])

theorem read_vlds {N : Nat} (h : N / 2 ^ 25 % 64 = 47) (q0 : N / 2 ^ 3 % 8 = 1) :
    parse N = some (Instr.vlds (fld N 31 1) (fld N 20 5) (fld N 13 7) (fld N 6 7) (fld N 2 1) (fld N 0 2)) := by
  rw [major47 h]
  refine Eq.trans (b := (some (.vlds (fld N 31 1) (fld N 20 5) (fld N 13 7) (fld N 6 7) (fld N 2 1) (fld N 0 2)) : Option Instr)) ?_ ?_
  · unfold decodeVmem
    rw [q0] <;> rfl
  rfl

theorem vlds (w : BitVec 1) (t : BitVec 5) (b : BitVec 7) (x : BitVec 7) (m : BitVec 1) (r : BitVec 2) : Statement (.vlds w t b x m r) := by
  obtain ⟨bound, h, q0, f0, f1, f2, f3, f4, f5⟩ := form26 1577058312 w t b x m r (by decide) (by decide) (by decide) (by decide) (by decide) (by decide) (by decide)
  exact worded (N := put w 31 (put t 20 (put b 13 (put x 6 (put m 2 (put r 0 (1577058312))))))) rfl bound (by rw [read_vlds (h.trans (by decide)) (q0.trans (by decide)), f0, f1, f2, f3, f4, f5])

theorem read_vgth {N : Nat} (h : N / 2 ^ 25 % 64 = 47) (q0 : N / 2 ^ 3 % 8 = 2) (q1 : N / 2 ^ 11 % 4 = 0) :
    parse N = some (Instr.vgth (fld N 31 1) (fld N 20 5) (fld N 13 7) (fld N 6 5) (fld N 2 1) (fld N 0 2)) := by
  rw [major47 h]
  refine Eq.trans (b := (if N / 2 ^ 11 % 4 = 0 then some (.vgth (fld N 31 1) (fld N 20 5) (fld N 13 7) (fld N 6 5) (fld N 2 1) (fld N 0 2)) else none : Option Instr)) ?_ ?_
  · unfold decodeVmem
    rw [q0] <;> rfl
  rw [if_pos q1]

theorem vgth (w : BitVec 1) (t : BitVec 5) (b : BitVec 7) (x : BitVec 5) (m : BitVec 1) (r : BitVec 2) : Statement (.vgth w t b x m r) := by
  obtain ⟨bound, h, q0, q1, f0, f1, f2, f3, f4, f5⟩ := form27 1577058320 w t b x m r (by decide) (by decide) (by decide) (by decide) (by decide) (by decide) (by decide)
  exact worded (N := put w 31 (put t 20 (put b 13 (put x 6 (put m 2 (put r 0 (1577058320))))))) rfl bound (by rw [read_vgth (h.trans (by decide)) (q0.trans (by decide)) (q1.trans (by decide)), f0, f1, f2, f3, f4, f5])

theorem read_vst {N : Nat} (h : N / 2 ^ 25 % 64 = 47) (q0 : N / 2 ^ 3 % 8 = 4) (q1 : N / 2 ^ 6 % 128 = 0) :
    parse N = some (Instr.vst (fld N 31 1) (fld N 20 5) (fld N 13 7) (fld N 2 1) (fld N 0 2)) := by
  rw [major47 h]
  refine Eq.trans (b := (if N / 2 ^ 6 % 128 = 0 then some (.vst (fld N 31 1) (fld N 20 5) (fld N 13 7) (fld N 2 1) (fld N 0 2)) else none : Option Instr)) ?_ ?_
  · unfold decodeVmem
    rw [q0] <;> rfl
  rw [if_pos q1]

theorem vst (w : BitVec 1) (t : BitVec 5) (b : BitVec 7) (m : BitVec 1) (r : BitVec 2) : Statement (.vst w t b m r) := by
  obtain ⟨bound, h, q0, q1, f0, f1, f2, f3, f4⟩ := form25 1577058336 w t b m r (by decide) (by decide) (by decide) (by decide) (by decide) (by decide)
  exact worded (N := put w 31 (put t 20 (put b 13 (put m 2 (put r 0 (1577058336)))))) rfl bound (by rw [read_vst (h.trans (by decide)) (q0.trans (by decide)) (q1.trans (by decide)), f0, f1, f2, f3, f4])

theorem read_vsts {N : Nat} (h : N / 2 ^ 25 % 64 = 47) (q0 : N / 2 ^ 3 % 8 = 5) :
    parse N = some (Instr.vsts (fld N 31 1) (fld N 20 5) (fld N 13 7) (fld N 6 7) (fld N 2 1) (fld N 0 2)) := by
  rw [major47 h]
  refine Eq.trans (b := (some (.vsts (fld N 31 1) (fld N 20 5) (fld N 13 7) (fld N 6 7) (fld N 2 1) (fld N 0 2)) : Option Instr)) ?_ ?_
  · unfold decodeVmem
    rw [q0] <;> rfl
  rfl

theorem vsts (w : BitVec 1) (t : BitVec 5) (b : BitVec 7) (x : BitVec 7) (m : BitVec 1) (r : BitVec 2) : Statement (.vsts w t b x m r) := by
  obtain ⟨bound, h, q0, f0, f1, f2, f3, f4, f5⟩ := form26 1577058344 w t b x m r (by decide) (by decide) (by decide) (by decide) (by decide) (by decide) (by decide)
  exact worded (N := put w 31 (put t 20 (put b 13 (put x 6 (put m 2 (put r 0 (1577058344))))))) rfl bound (by rw [read_vsts (h.trans (by decide)) (q0.trans (by decide)), f0, f1, f2, f3, f4, f5])

theorem read_vsct {N : Nat} (h : N / 2 ^ 25 % 64 = 47) (q0 : N / 2 ^ 3 % 8 = 6) (q1 : N / 2 ^ 11 % 4 = 0) :
    parse N = some (Instr.vsct (fld N 31 1) (fld N 20 5) (fld N 13 7) (fld N 6 5) (fld N 2 1) (fld N 0 2)) := by
  rw [major47 h]
  refine Eq.trans (b := (if N / 2 ^ 11 % 4 = 0 then some (.vsct (fld N 31 1) (fld N 20 5) (fld N 13 7) (fld N 6 5) (fld N 2 1) (fld N 0 2)) else none : Option Instr)) ?_ ?_
  · unfold decodeVmem
    rw [q0] <;> rfl
  rw [if_pos q1]

theorem vsct (w : BitVec 1) (t : BitVec 5) (b : BitVec 7) (x : BitVec 5) (m : BitVec 1) (r : BitVec 2) : Statement (.vsct w t b x m r) := by
  obtain ⟨bound, h, q0, q1, f0, f1, f2, f3, f4, f5⟩ := form27 1577058352 w t b x m r (by decide) (by decide) (by decide) (by decide) (by decide) (by decide) (by decide)
  exact worded (N := put w 31 (put t 20 (put b 13 (put x 6 (put m 2 (put r 0 (1577058352))))))) rfl bound (by rw [read_vsct (h.trans (by decide)) (q0.trans (by decide)) (q1.trans (by decide)), f0, f1, f2, f3, f4, f5])

theorem read_amo64Swap {N : Nat} (h : N / 2 ^ 25 % 64 = 48) (q0 : N / 2 ^ 0 % 4 = 0) :
    parse N = some (Instr.amo64Swap (fld N 31 1) (fld N 18 7) (fld N 11 7) (fld N 4 7) (fld N 2 2)) := by
  rw [major48 h]
  refine Eq.trans (b := (some (.amo64Swap (fld N 31 1) (fld N 18 7) (fld N 11 7) (fld N 4 7) (fld N 2 2)) : Option Instr)) ?_ ?_
  · unfold decodeAmo64
    rw [q0] <;> rfl
  rfl

theorem amo64Swap (w : BitVec 1) (d : BitVec 7) (a : BitVec 7) (b : BitVec 7) (r : BitVec 2) : Statement (.amo64Swap w d a b r) := by
  obtain ⟨bound, h, q0, f0, f1, f2, f3, f4⟩ := form28 1610612736 w d a b r (by decide) (by decide) (by decide) (by decide) (by decide) (by decide)
  exact worded (N := put w 31 (put d 18 (put a 11 (put b 4 (put r 2 (1610612736)))))) rfl bound (by rw [read_amo64Swap (h.trans (by decide)) (q0.trans (by decide)), f0, f1, f2, f3, f4])

theorem read_amo64Cas {N : Nat} (h : N / 2 ^ 25 % 64 = 48) (q0 : N / 2 ^ 0 % 4 = 1) :
    parse N = some (Instr.amo64Cas (fld N 31 1) (fld N 18 7) (fld N 11 7) (fld N 4 7) (fld N 2 2)) := by
  rw [major48 h]
  refine Eq.trans (b := (some (.amo64Cas (fld N 31 1) (fld N 18 7) (fld N 11 7) (fld N 4 7) (fld N 2 2)) : Option Instr)) ?_ ?_
  · unfold decodeAmo64
    rw [q0] <;> rfl
  rfl

theorem amo64Cas (w : BitVec 1) (d : BitVec 7) (a : BitVec 7) (b : BitVec 7) (r : BitVec 2) : Statement (.amo64Cas w d a b r) := by
  obtain ⟨bound, h, q0, f0, f1, f2, f3, f4⟩ := form28 1610612737 w d a b r (by decide) (by decide) (by decide) (by decide) (by decide) (by decide)
  exact worded (N := put w 31 (put d 18 (put a 11 (put b 4 (put r 2 (1610612737)))))) rfl bound (by rw [read_amo64Cas (h.trans (by decide)) (q0.trans (by decide)), f0, f1, f2, f3, f4])

theorem read_amo64Add {N : Nat} (h : N / 2 ^ 25 % 64 = 48) (q0 : N / 2 ^ 0 % 4 = 2) :
    parse N = some (Instr.amo64Add (fld N 31 1) (fld N 18 7) (fld N 11 7) (fld N 4 7) (fld N 2 2)) := by
  rw [major48 h]
  refine Eq.trans (b := (some (.amo64Add (fld N 31 1) (fld N 18 7) (fld N 11 7) (fld N 4 7) (fld N 2 2)) : Option Instr)) ?_ ?_
  · unfold decodeAmo64
    rw [q0] <;> rfl
  rfl

theorem amo64Add (w : BitVec 1) (d : BitVec 7) (a : BitVec 7) (b : BitVec 7) (r : BitVec 2) : Statement (.amo64Add w d a b r) := by
  obtain ⟨bound, h, q0, f0, f1, f2, f3, f4⟩ := form28 1610612738 w d a b r (by decide) (by decide) (by decide) (by decide) (by decide) (by decide)
  exact worded (N := put w 31 (put d 18 (put a 11 (put b 4 (put r 2 (1610612738)))))) rfl bound (by rw [read_amo64Add (h.trans (by decide)) (q0.trans (by decide)), f0, f1, f2, f3, f4])

theorem read_amo64Fadd {N : Nat} (h : N / 2 ^ 25 % 64 = 48) (q0 : N / 2 ^ 0 % 4 = 3) :
    parse N = some (Instr.amo64Fadd (fld N 31 1) (fld N 18 7) (fld N 11 7) (fld N 4 7) (fld N 2 2)) := by
  rw [major48 h]
  refine Eq.trans (b := (some (.amo64Fadd (fld N 31 1) (fld N 18 7) (fld N 11 7) (fld N 4 7) (fld N 2 2)) : Option Instr)) ?_ ?_
  · unfold decodeAmo64
    rw [q0] <;> rfl
  rfl

theorem amo64Fadd (w : BitVec 1) (d : BitVec 7) (a : BitVec 7) (b : BitVec 7) (r : BitVec 2) : Statement (.amo64Fadd w d a b r) := by
  obtain ⟨bound, h, q0, f0, f1, f2, f3, f4⟩ := form28 1610612739 w d a b r (by decide) (by decide) (by decide) (by decide) (by decide) (by decide)
  exact worded (N := put w 31 (put d 18 (put a 11 (put b 4 (put r 2 (1610612739)))))) rfl bound (by rw [read_amo64Fadd (h.trans (by decide)) (q0.trans (by decide)), f0, f1, f2, f3, f4])

theorem read_amo32Swap {N : Nat} (h : N / 2 ^ 25 % 64 = 49) (q0 : N / 2 ^ 0 % 4 = 0) :
    parse N = some (Instr.amo32Swap (fld N 31 1) (fld N 18 7) (fld N 11 7) (fld N 4 7) (fld N 2 2)) := by
  rw [major49 h]
  refine Eq.trans (b := (some (.amo32Swap (fld N 31 1) (fld N 18 7) (fld N 11 7) (fld N 4 7) (fld N 2 2)) : Option Instr)) ?_ ?_
  · unfold decodeAmo32
    rw [q0] <;> rfl
  rfl

theorem amo32Swap (w : BitVec 1) (d : BitVec 7) (a : BitVec 7) (b : BitVec 7) (r : BitVec 2) : Statement (.amo32Swap w d a b r) := by
  obtain ⟨bound, h, q0, f0, f1, f2, f3, f4⟩ := form28 1644167168 w d a b r (by decide) (by decide) (by decide) (by decide) (by decide) (by decide)
  exact worded (N := put w 31 (put d 18 (put a 11 (put b 4 (put r 2 (1644167168)))))) rfl bound (by rw [read_amo32Swap (h.trans (by decide)) (q0.trans (by decide)), f0, f1, f2, f3, f4])

theorem read_amo32Cas {N : Nat} (h : N / 2 ^ 25 % 64 = 49) (q0 : N / 2 ^ 0 % 4 = 1) :
    parse N = some (Instr.amo32Cas (fld N 31 1) (fld N 18 7) (fld N 11 7) (fld N 4 7) (fld N 2 2)) := by
  rw [major49 h]
  refine Eq.trans (b := (some (.amo32Cas (fld N 31 1) (fld N 18 7) (fld N 11 7) (fld N 4 7) (fld N 2 2)) : Option Instr)) ?_ ?_
  · unfold decodeAmo32
    rw [q0] <;> rfl
  rfl

theorem amo32Cas (w : BitVec 1) (d : BitVec 7) (a : BitVec 7) (b : BitVec 7) (r : BitVec 2) : Statement (.amo32Cas w d a b r) := by
  obtain ⟨bound, h, q0, f0, f1, f2, f3, f4⟩ := form28 1644167169 w d a b r (by decide) (by decide) (by decide) (by decide) (by decide) (by decide)
  exact worded (N := put w 31 (put d 18 (put a 11 (put b 4 (put r 2 (1644167169)))))) rfl bound (by rw [read_amo32Cas (h.trans (by decide)) (q0.trans (by decide)), f0, f1, f2, f3, f4])

theorem read_amo32Add {N : Nat} (h : N / 2 ^ 25 % 64 = 49) (q0 : N / 2 ^ 0 % 4 = 2) :
    parse N = some (Instr.amo32Add (fld N 31 1) (fld N 18 7) (fld N 11 7) (fld N 4 7) (fld N 2 2)) := by
  rw [major49 h]
  refine Eq.trans (b := (some (.amo32Add (fld N 31 1) (fld N 18 7) (fld N 11 7) (fld N 4 7) (fld N 2 2)) : Option Instr)) ?_ ?_
  · unfold decodeAmo32
    rw [q0] <;> rfl
  rfl

theorem amo32Add (w : BitVec 1) (d : BitVec 7) (a : BitVec 7) (b : BitVec 7) (r : BitVec 2) : Statement (.amo32Add w d a b r) := by
  obtain ⟨bound, h, q0, f0, f1, f2, f3, f4⟩ := form28 1644167170 w d a b r (by decide) (by decide) (by decide) (by decide) (by decide) (by decide)
  exact worded (N := put w 31 (put d 18 (put a 11 (put b 4 (put r 2 (1644167170)))))) rfl bound (by rw [read_amo32Add (h.trans (by decide)) (q0.trans (by decide)), f0, f1, f2, f3, f4])

theorem read_amo32Fadd {N : Nat} (h : N / 2 ^ 25 % 64 = 49) (q0 : N / 2 ^ 0 % 4 = 3) :
    parse N = some (Instr.amo32Fadd (fld N 31 1) (fld N 18 7) (fld N 11 7) (fld N 4 7) (fld N 2 2)) := by
  rw [major49 h]
  refine Eq.trans (b := (some (.amo32Fadd (fld N 31 1) (fld N 18 7) (fld N 11 7) (fld N 4 7) (fld N 2 2)) : Option Instr)) ?_ ?_
  · unfold decodeAmo32
    rw [q0] <;> rfl
  rfl

theorem amo32Fadd (w : BitVec 1) (d : BitVec 7) (a : BitVec 7) (b : BitVec 7) (r : BitVec 2) : Statement (.amo32Fadd w d a b r) := by
  obtain ⟨bound, h, q0, f0, f1, f2, f3, f4⟩ := form28 1644167171 w d a b r (by decide) (by decide) (by decide) (by decide) (by decide) (by decide)
  exact worded (N := put w 31 (put d 18 (put a 11 (put b 4 (put r 2 (1644167171)))))) rfl bound (by rw [read_amo32Fadd (h.trans (by decide)) (q0.trans (by decide)), f0, f1, f2, f3, f4])

theorem read_redAdd {N : Nat} (h : N / 2 ^ 25 % 64 = 50) (q0 : N / 2 ^ 0 % 16 = 0) (q1 : N / 2 ^ 22 % 8 = 0) :
    parse N = some (Instr.redAdd (fld N 31 1) (fld N 21 1) (fld N 18 3) (fld N 11 7) (fld N 4 7)) := by
  rw [major50 h]
  refine Eq.trans (b := (if N / 2 ^ 22 % 8 = 0 then some (.redAdd (fld N 31 1) (fld N 21 1) (fld N 18 3) (fld N 11 7) (fld N 4 7)) else none : Option Instr)) ?_ ?_
  · unfold decodeRed
    rw [q0] <;> rfl
  rw [if_pos q1]

theorem redAdd (w : BitVec 1) (z : BitVec 1) (s : BitVec 3) (a : BitVec 7) (b : BitVec 7) : Statement (.redAdd w z s a b) := by
  obtain ⟨bound, h, q0, q1, f0, f1, f2, f3, f4⟩ := form29 1677721600 w z s a b (by decide) (by decide) (by decide) (by decide) (by decide) (by decide)
  exact worded (N := put w 31 (put z 21 (put s 18 (put a 11 (put b 4 (1677721600)))))) rfl bound (by rw [read_redAdd (h.trans (by decide)) (q0.trans (by decide)) (q1.trans (by decide)), f0, f1, f2, f3, f4])

theorem read_redAnd {N : Nat} (h : N / 2 ^ 25 % 64 = 50) (q0 : N / 2 ^ 0 % 16 = 1) (q1 : N / 2 ^ 22 % 8 = 0) :
    parse N = some (Instr.redAnd (fld N 31 1) (fld N 21 1) (fld N 18 3) (fld N 11 7) (fld N 4 7)) := by
  rw [major50 h]
  refine Eq.trans (b := (if N / 2 ^ 22 % 8 = 0 then some (.redAnd (fld N 31 1) (fld N 21 1) (fld N 18 3) (fld N 11 7) (fld N 4 7)) else none : Option Instr)) ?_ ?_
  · unfold decodeRed
    rw [q0] <;> rfl
  rw [if_pos q1]

theorem redAnd (w : BitVec 1) (z : BitVec 1) (s : BitVec 3) (a : BitVec 7) (b : BitVec 7) : Statement (.redAnd w z s a b) := by
  obtain ⟨bound, h, q0, q1, f0, f1, f2, f3, f4⟩ := form29 1677721601 w z s a b (by decide) (by decide) (by decide) (by decide) (by decide) (by decide)
  exact worded (N := put w 31 (put z 21 (put s 18 (put a 11 (put b 4 (1677721601)))))) rfl bound (by rw [read_redAnd (h.trans (by decide)) (q0.trans (by decide)) (q1.trans (by decide)), f0, f1, f2, f3, f4])

theorem read_redOr {N : Nat} (h : N / 2 ^ 25 % 64 = 50) (q0 : N / 2 ^ 0 % 16 = 2) (q1 : N / 2 ^ 22 % 8 = 0) :
    parse N = some (Instr.redOr (fld N 31 1) (fld N 21 1) (fld N 18 3) (fld N 11 7) (fld N 4 7)) := by
  rw [major50 h]
  refine Eq.trans (b := (if N / 2 ^ 22 % 8 = 0 then some (.redOr (fld N 31 1) (fld N 21 1) (fld N 18 3) (fld N 11 7) (fld N 4 7)) else none : Option Instr)) ?_ ?_
  · unfold decodeRed
    rw [q0] <;> rfl
  rw [if_pos q1]

theorem redOr (w : BitVec 1) (z : BitVec 1) (s : BitVec 3) (a : BitVec 7) (b : BitVec 7) : Statement (.redOr w z s a b) := by
  obtain ⟨bound, h, q0, q1, f0, f1, f2, f3, f4⟩ := form29 1677721602 w z s a b (by decide) (by decide) (by decide) (by decide) (by decide) (by decide)
  exact worded (N := put w 31 (put z 21 (put s 18 (put a 11 (put b 4 (1677721602)))))) rfl bound (by rw [read_redOr (h.trans (by decide)) (q0.trans (by decide)) (q1.trans (by decide)), f0, f1, f2, f3, f4])

theorem read_redXor {N : Nat} (h : N / 2 ^ 25 % 64 = 50) (q0 : N / 2 ^ 0 % 16 = 3) (q1 : N / 2 ^ 22 % 8 = 0) :
    parse N = some (Instr.redXor (fld N 31 1) (fld N 21 1) (fld N 18 3) (fld N 11 7) (fld N 4 7)) := by
  rw [major50 h]
  refine Eq.trans (b := (if N / 2 ^ 22 % 8 = 0 then some (.redXor (fld N 31 1) (fld N 21 1) (fld N 18 3) (fld N 11 7) (fld N 4 7)) else none : Option Instr)) ?_ ?_
  · unfold decodeRed
    rw [q0] <;> rfl
  rw [if_pos q1]

theorem redXor (w : BitVec 1) (z : BitVec 1) (s : BitVec 3) (a : BitVec 7) (b : BitVec 7) : Statement (.redXor w z s a b) := by
  obtain ⟨bound, h, q0, q1, f0, f1, f2, f3, f4⟩ := form29 1677721603 w z s a b (by decide) (by decide) (by decide) (by decide) (by decide) (by decide)
  exact worded (N := put w 31 (put z 21 (put s 18 (put a 11 (put b 4 (1677721603)))))) rfl bound (by rw [read_redXor (h.trans (by decide)) (q0.trans (by decide)) (q1.trans (by decide)), f0, f1, f2, f3, f4])

theorem read_redMax {N : Nat} (h : N / 2 ^ 25 % 64 = 50) (q0 : N / 2 ^ 0 % 16 = 4) (q1 : N / 2 ^ 22 % 8 = 0) :
    parse N = some (Instr.redMax (fld N 31 1) (fld N 21 1) (fld N 18 3) (fld N 11 7) (fld N 4 7)) := by
  rw [major50 h]
  refine Eq.trans (b := (if N / 2 ^ 22 % 8 = 0 then some (.redMax (fld N 31 1) (fld N 21 1) (fld N 18 3) (fld N 11 7) (fld N 4 7)) else none : Option Instr)) ?_ ?_
  · unfold decodeRed
    rw [q0] <;> rfl
  rw [if_pos q1]

theorem redMax (w : BitVec 1) (z : BitVec 1) (s : BitVec 3) (a : BitVec 7) (b : BitVec 7) : Statement (.redMax w z s a b) := by
  obtain ⟨bound, h, q0, q1, f0, f1, f2, f3, f4⟩ := form29 1677721604 w z s a b (by decide) (by decide) (by decide) (by decide) (by decide) (by decide)
  exact worded (N := put w 31 (put z 21 (put s 18 (put a 11 (put b 4 (1677721604)))))) rfl bound (by rw [read_redMax (h.trans (by decide)) (q0.trans (by decide)) (q1.trans (by decide)), f0, f1, f2, f3, f4])

theorem read_redMin {N : Nat} (h : N / 2 ^ 25 % 64 = 50) (q0 : N / 2 ^ 0 % 16 = 5) (q1 : N / 2 ^ 22 % 8 = 0) :
    parse N = some (Instr.redMin (fld N 31 1) (fld N 21 1) (fld N 18 3) (fld N 11 7) (fld N 4 7)) := by
  rw [major50 h]
  refine Eq.trans (b := (if N / 2 ^ 22 % 8 = 0 then some (.redMin (fld N 31 1) (fld N 21 1) (fld N 18 3) (fld N 11 7) (fld N 4 7)) else none : Option Instr)) ?_ ?_
  · unfold decodeRed
    rw [q0] <;> rfl
  rw [if_pos q1]

theorem redMin (w : BitVec 1) (z : BitVec 1) (s : BitVec 3) (a : BitVec 7) (b : BitVec 7) : Statement (.redMin w z s a b) := by
  obtain ⟨bound, h, q0, q1, f0, f1, f2, f3, f4⟩ := form29 1677721605 w z s a b (by decide) (by decide) (by decide) (by decide) (by decide) (by decide)
  exact worded (N := put w 31 (put z 21 (put s 18 (put a 11 (put b 4 (1677721605)))))) rfl bound (by rw [read_redMin (h.trans (by decide)) (q0.trans (by decide)) (q1.trans (by decide)), f0, f1, f2, f3, f4])

theorem read_redMaxn {N : Nat} (h : N / 2 ^ 25 % 64 = 50) (q0 : N / 2 ^ 0 % 16 = 6) (q1 : N / 2 ^ 22 % 8 = 0) :
    parse N = some (Instr.redMaxn (fld N 31 1) (fld N 21 1) (fld N 18 3) (fld N 11 7) (fld N 4 7)) := by
  rw [major50 h]
  refine Eq.trans (b := (if N / 2 ^ 22 % 8 = 0 then some (.redMaxn (fld N 31 1) (fld N 21 1) (fld N 18 3) (fld N 11 7) (fld N 4 7)) else none : Option Instr)) ?_ ?_
  · unfold decodeRed
    rw [q0] <;> rfl
  rw [if_pos q1]

theorem redMaxn (w : BitVec 1) (z : BitVec 1) (s : BitVec 3) (a : BitVec 7) (b : BitVec 7) : Statement (.redMaxn w z s a b) := by
  obtain ⟨bound, h, q0, q1, f0, f1, f2, f3, f4⟩ := form29 1677721606 w z s a b (by decide) (by decide) (by decide) (by decide) (by decide) (by decide)
  exact worded (N := put w 31 (put z 21 (put s 18 (put a 11 (put b 4 (1677721606)))))) rfl bound (by rw [read_redMaxn (h.trans (by decide)) (q0.trans (by decide)) (q1.trans (by decide)), f0, f1, f2, f3, f4])

theorem read_redMinn {N : Nat} (h : N / 2 ^ 25 % 64 = 50) (q0 : N / 2 ^ 0 % 16 = 7) (q1 : N / 2 ^ 22 % 8 = 0) :
    parse N = some (Instr.redMinn (fld N 31 1) (fld N 21 1) (fld N 18 3) (fld N 11 7) (fld N 4 7)) := by
  rw [major50 h]
  refine Eq.trans (b := (if N / 2 ^ 22 % 8 = 0 then some (.redMinn (fld N 31 1) (fld N 21 1) (fld N 18 3) (fld N 11 7) (fld N 4 7)) else none : Option Instr)) ?_ ?_
  · unfold decodeRed
    rw [q0] <;> rfl
  rw [if_pos q1]

theorem redMinn (w : BitVec 1) (z : BitVec 1) (s : BitVec 3) (a : BitVec 7) (b : BitVec 7) : Statement (.redMinn w z s a b) := by
  obtain ⟨bound, h, q0, q1, f0, f1, f2, f3, f4⟩ := form29 1677721607 w z s a b (by decide) (by decide) (by decide) (by decide) (by decide) (by decide)
  exact worded (N := put w 31 (put z 21 (put s 18 (put a 11 (put b 4 (1677721607)))))) rfl bound (by rw [read_redMinn (h.trans (by decide)) (q0.trans (by decide)) (q1.trans (by decide)), f0, f1, f2, f3, f4])

theorem read_redFadd {N : Nat} (h : N / 2 ^ 25 % 64 = 50) (q0 : N / 2 ^ 0 % 16 = 8) (q1 : N / 2 ^ 22 % 8 = 0) :
    parse N = some (Instr.redFadd (fld N 31 1) (fld N 21 1) (fld N 18 3) (fld N 11 7) (fld N 4 7)) := by
  rw [major50 h]
  refine Eq.trans (b := (if N / 2 ^ 22 % 8 = 0 then some (.redFadd (fld N 31 1) (fld N 21 1) (fld N 18 3) (fld N 11 7) (fld N 4 7)) else none : Option Instr)) ?_ ?_
  · unfold decodeRed
    rw [q0] <;> rfl
  rw [if_pos q1]

theorem redFadd (w : BitVec 1) (z : BitVec 1) (s : BitVec 3) (a : BitVec 7) (b : BitVec 7) : Statement (.redFadd w z s a b) := by
  obtain ⟨bound, h, q0, q1, f0, f1, f2, f3, f4⟩ := form29 1677721608 w z s a b (by decide) (by decide) (by decide) (by decide) (by decide) (by decide)
  exact worded (N := put w 31 (put z 21 (put s 18 (put a 11 (put b 4 (1677721608)))))) rfl bound (by rw [read_redFadd (h.trans (by decide)) (q0.trans (by decide)) (q1.trans (by decide)), f0, f1, f2, f3, f4])

theorem read_redFmax {N : Nat} (h : N / 2 ^ 25 % 64 = 50) (q0 : N / 2 ^ 0 % 16 = 9) (q1 : N / 2 ^ 22 % 8 = 0) :
    parse N = some (Instr.redFmax (fld N 31 1) (fld N 21 1) (fld N 18 3) (fld N 11 7) (fld N 4 7)) := by
  rw [major50 h]
  refine Eq.trans (b := (if N / 2 ^ 22 % 8 = 0 then some (.redFmax (fld N 31 1) (fld N 21 1) (fld N 18 3) (fld N 11 7) (fld N 4 7)) else none : Option Instr)) ?_ ?_
  · unfold decodeRed
    rw [q0] <;> rfl
  rw [if_pos q1]

theorem redFmax (w : BitVec 1) (z : BitVec 1) (s : BitVec 3) (a : BitVec 7) (b : BitVec 7) : Statement (.redFmax w z s a b) := by
  obtain ⟨bound, h, q0, q1, f0, f1, f2, f3, f4⟩ := form29 1677721609 w z s a b (by decide) (by decide) (by decide) (by decide) (by decide) (by decide)
  exact worded (N := put w 31 (put z 21 (put s 18 (put a 11 (put b 4 (1677721609)))))) rfl bound (by rw [read_redFmax (h.trans (by decide)) (q0.trans (by decide)) (q1.trans (by decide)), f0, f1, f2, f3, f4])

theorem read_redFmin {N : Nat} (h : N / 2 ^ 25 % 64 = 50) (q0 : N / 2 ^ 0 % 16 = 10) (q1 : N / 2 ^ 22 % 8 = 0) :
    parse N = some (Instr.redFmin (fld N 31 1) (fld N 21 1) (fld N 18 3) (fld N 11 7) (fld N 4 7)) := by
  rw [major50 h]
  refine Eq.trans (b := (if N / 2 ^ 22 % 8 = 0 then some (.redFmin (fld N 31 1) (fld N 21 1) (fld N 18 3) (fld N 11 7) (fld N 4 7)) else none : Option Instr)) ?_ ?_
  · unfold decodeRed
    rw [q0] <;> rfl
  rw [if_pos q1]

theorem redFmin (w : BitVec 1) (z : BitVec 1) (s : BitVec 3) (a : BitVec 7) (b : BitVec 7) : Statement (.redFmin w z s a b) := by
  obtain ⟨bound, h, q0, q1, f0, f1, f2, f3, f4⟩ := form29 1677721610 w z s a b (by decide) (by decide) (by decide) (by decide) (by decide) (by decide)
  exact worded (N := put w 31 (put z 21 (put s 18 (put a 11 (put b 4 (1677721610)))))) rfl bound (by rw [read_redFmin (h.trans (by decide)) (q0.trans (by decide)) (q1.trans (by decide)), f0, f1, f2, f3, f4])

theorem read_vamoSwap {N : Nat} (h : N / 2 ^ 25 % 64 = 51) (q0 : N / 2 ^ 2 % 16 = 0) :
    parse N = some (Instr.vamoSwap (fld N 31 1) (fld N 20 5) (fld N 15 5) (fld N 10 5) (fld N 9 1) (fld N 6 3) (fld N 0 2)) := by
  rw [major51 h]
  refine Eq.trans (b := (some (.vamoSwap (fld N 31 1) (fld N 20 5) (fld N 15 5) (fld N 10 5) (fld N 9 1) (fld N 6 3) (fld N 0 2)) : Option Instr)) ?_ ?_
  · unfold decodeVamo
    rw [q0] <;> rfl
  rfl

theorem vamoSwap (w : BitVec 1) (d : BitVec 5) (a : BitVec 5) (b : BitVec 5) (m : BitVec 1) (t : BitVec 3) (r : BitVec 2) : Statement (.vamoSwap w d a b m t r) := by
  obtain ⟨bound, h, q0, f0, f1, f2, f3, f4, f5, f6⟩ := form30 1711276032 w d a b m t r (by decide) (by decide) (by decide) (by decide) (by decide) (by decide) (by decide) (by decide)
  exact worded (N := put w 31 (put d 20 (put a 15 (put b 10 (put m 9 (put t 6 (put r 0 (1711276032)))))))) rfl bound (by rw [read_vamoSwap (h.trans (by decide)) (q0.trans (by decide)), f0, f1, f2, f3, f4, f5, f6])

theorem read_vamoAdd {N : Nat} (h : N / 2 ^ 25 % 64 = 51) (q0 : N / 2 ^ 2 % 16 = 1) :
    parse N = some (Instr.vamoAdd (fld N 31 1) (fld N 20 5) (fld N 15 5) (fld N 10 5) (fld N 9 1) (fld N 6 3) (fld N 0 2)) := by
  rw [major51 h]
  refine Eq.trans (b := (some (.vamoAdd (fld N 31 1) (fld N 20 5) (fld N 15 5) (fld N 10 5) (fld N 9 1) (fld N 6 3) (fld N 0 2)) : Option Instr)) ?_ ?_
  · unfold decodeVamo
    rw [q0] <;> rfl
  rfl

theorem vamoAdd (w : BitVec 1) (d : BitVec 5) (a : BitVec 5) (b : BitVec 5) (m : BitVec 1) (t : BitVec 3) (r : BitVec 2) : Statement (.vamoAdd w d a b m t r) := by
  obtain ⟨bound, h, q0, f0, f1, f2, f3, f4, f5, f6⟩ := form30 1711276036 w d a b m t r (by decide) (by decide) (by decide) (by decide) (by decide) (by decide) (by decide) (by decide)
  exact worded (N := put w 31 (put d 20 (put a 15 (put b 10 (put m 9 (put t 6 (put r 0 (1711276036)))))))) rfl bound (by rw [read_vamoAdd (h.trans (by decide)) (q0.trans (by decide)), f0, f1, f2, f3, f4, f5, f6])

theorem read_vamoAnd {N : Nat} (h : N / 2 ^ 25 % 64 = 51) (q0 : N / 2 ^ 2 % 16 = 2) :
    parse N = some (Instr.vamoAnd (fld N 31 1) (fld N 20 5) (fld N 15 5) (fld N 10 5) (fld N 9 1) (fld N 6 3) (fld N 0 2)) := by
  rw [major51 h]
  refine Eq.trans (b := (some (.vamoAnd (fld N 31 1) (fld N 20 5) (fld N 15 5) (fld N 10 5) (fld N 9 1) (fld N 6 3) (fld N 0 2)) : Option Instr)) ?_ ?_
  · unfold decodeVamo
    rw [q0] <;> rfl
  rfl

theorem vamoAnd (w : BitVec 1) (d : BitVec 5) (a : BitVec 5) (b : BitVec 5) (m : BitVec 1) (t : BitVec 3) (r : BitVec 2) : Statement (.vamoAnd w d a b m t r) := by
  obtain ⟨bound, h, q0, f0, f1, f2, f3, f4, f5, f6⟩ := form30 1711276040 w d a b m t r (by decide) (by decide) (by decide) (by decide) (by decide) (by decide) (by decide) (by decide)
  exact worded (N := put w 31 (put d 20 (put a 15 (put b 10 (put m 9 (put t 6 (put r 0 (1711276040)))))))) rfl bound (by rw [read_vamoAnd (h.trans (by decide)) (q0.trans (by decide)), f0, f1, f2, f3, f4, f5, f6])

theorem read_vamoOr {N : Nat} (h : N / 2 ^ 25 % 64 = 51) (q0 : N / 2 ^ 2 % 16 = 3) :
    parse N = some (Instr.vamoOr (fld N 31 1) (fld N 20 5) (fld N 15 5) (fld N 10 5) (fld N 9 1) (fld N 6 3) (fld N 0 2)) := by
  rw [major51 h]
  refine Eq.trans (b := (some (.vamoOr (fld N 31 1) (fld N 20 5) (fld N 15 5) (fld N 10 5) (fld N 9 1) (fld N 6 3) (fld N 0 2)) : Option Instr)) ?_ ?_
  · unfold decodeVamo
    rw [q0] <;> rfl
  rfl

theorem vamoOr (w : BitVec 1) (d : BitVec 5) (a : BitVec 5) (b : BitVec 5) (m : BitVec 1) (t : BitVec 3) (r : BitVec 2) : Statement (.vamoOr w d a b m t r) := by
  obtain ⟨bound, h, q0, f0, f1, f2, f3, f4, f5, f6⟩ := form30 1711276044 w d a b m t r (by decide) (by decide) (by decide) (by decide) (by decide) (by decide) (by decide) (by decide)
  exact worded (N := put w 31 (put d 20 (put a 15 (put b 10 (put m 9 (put t 6 (put r 0 (1711276044)))))))) rfl bound (by rw [read_vamoOr (h.trans (by decide)) (q0.trans (by decide)), f0, f1, f2, f3, f4, f5, f6])

theorem read_vamoXor {N : Nat} (h : N / 2 ^ 25 % 64 = 51) (q0 : N / 2 ^ 2 % 16 = 4) :
    parse N = some (Instr.vamoXor (fld N 31 1) (fld N 20 5) (fld N 15 5) (fld N 10 5) (fld N 9 1) (fld N 6 3) (fld N 0 2)) := by
  rw [major51 h]
  refine Eq.trans (b := (some (.vamoXor (fld N 31 1) (fld N 20 5) (fld N 15 5) (fld N 10 5) (fld N 9 1) (fld N 6 3) (fld N 0 2)) : Option Instr)) ?_ ?_
  · unfold decodeVamo
    rw [q0] <;> rfl
  rfl

theorem vamoXor (w : BitVec 1) (d : BitVec 5) (a : BitVec 5) (b : BitVec 5) (m : BitVec 1) (t : BitVec 3) (r : BitVec 2) : Statement (.vamoXor w d a b m t r) := by
  obtain ⟨bound, h, q0, f0, f1, f2, f3, f4, f5, f6⟩ := form30 1711276048 w d a b m t r (by decide) (by decide) (by decide) (by decide) (by decide) (by decide) (by decide) (by decide)
  exact worded (N := put w 31 (put d 20 (put a 15 (put b 10 (put m 9 (put t 6 (put r 0 (1711276048)))))))) rfl bound (by rw [read_vamoXor (h.trans (by decide)) (q0.trans (by decide)), f0, f1, f2, f3, f4, f5, f6])

theorem read_vamoMax {N : Nat} (h : N / 2 ^ 25 % 64 = 51) (q0 : N / 2 ^ 2 % 16 = 5) :
    parse N = some (Instr.vamoMax (fld N 31 1) (fld N 20 5) (fld N 15 5) (fld N 10 5) (fld N 9 1) (fld N 6 3) (fld N 0 2)) := by
  rw [major51 h]
  refine Eq.trans (b := (some (.vamoMax (fld N 31 1) (fld N 20 5) (fld N 15 5) (fld N 10 5) (fld N 9 1) (fld N 6 3) (fld N 0 2)) : Option Instr)) ?_ ?_
  · unfold decodeVamo
    rw [q0] <;> rfl
  rfl

theorem vamoMax (w : BitVec 1) (d : BitVec 5) (a : BitVec 5) (b : BitVec 5) (m : BitVec 1) (t : BitVec 3) (r : BitVec 2) : Statement (.vamoMax w d a b m t r) := by
  obtain ⟨bound, h, q0, f0, f1, f2, f3, f4, f5, f6⟩ := form30 1711276052 w d a b m t r (by decide) (by decide) (by decide) (by decide) (by decide) (by decide) (by decide) (by decide)
  exact worded (N := put w 31 (put d 20 (put a 15 (put b 10 (put m 9 (put t 6 (put r 0 (1711276052)))))))) rfl bound (by rw [read_vamoMax (h.trans (by decide)) (q0.trans (by decide)), f0, f1, f2, f3, f4, f5, f6])

theorem read_vamoMin {N : Nat} (h : N / 2 ^ 25 % 64 = 51) (q0 : N / 2 ^ 2 % 16 = 6) :
    parse N = some (Instr.vamoMin (fld N 31 1) (fld N 20 5) (fld N 15 5) (fld N 10 5) (fld N 9 1) (fld N 6 3) (fld N 0 2)) := by
  rw [major51 h]
  refine Eq.trans (b := (some (.vamoMin (fld N 31 1) (fld N 20 5) (fld N 15 5) (fld N 10 5) (fld N 9 1) (fld N 6 3) (fld N 0 2)) : Option Instr)) ?_ ?_
  · unfold decodeVamo
    rw [q0] <;> rfl
  rfl

theorem vamoMin (w : BitVec 1) (d : BitVec 5) (a : BitVec 5) (b : BitVec 5) (m : BitVec 1) (t : BitVec 3) (r : BitVec 2) : Statement (.vamoMin w d a b m t r) := by
  obtain ⟨bound, h, q0, f0, f1, f2, f3, f4, f5, f6⟩ := form30 1711276056 w d a b m t r (by decide) (by decide) (by decide) (by decide) (by decide) (by decide) (by decide) (by decide)
  exact worded (N := put w 31 (put d 20 (put a 15 (put b 10 (put m 9 (put t 6 (put r 0 (1711276056)))))))) rfl bound (by rw [read_vamoMin (h.trans (by decide)) (q0.trans (by decide)), f0, f1, f2, f3, f4, f5, f6])

theorem read_vamoFadd {N : Nat} (h : N / 2 ^ 25 % 64 = 51) (q0 : N / 2 ^ 2 % 16 = 7) :
    parse N = some (Instr.vamoFadd (fld N 31 1) (fld N 20 5) (fld N 15 5) (fld N 10 5) (fld N 9 1) (fld N 6 3) (fld N 0 2)) := by
  rw [major51 h]
  refine Eq.trans (b := (some (.vamoFadd (fld N 31 1) (fld N 20 5) (fld N 15 5) (fld N 10 5) (fld N 9 1) (fld N 6 3) (fld N 0 2)) : Option Instr)) ?_ ?_
  · unfold decodeVamo
    rw [q0] <;> rfl
  rfl

theorem vamoFadd (w : BitVec 1) (d : BitVec 5) (a : BitVec 5) (b : BitVec 5) (m : BitVec 1) (t : BitVec 3) (r : BitVec 2) : Statement (.vamoFadd w d a b m t r) := by
  obtain ⟨bound, h, q0, f0, f1, f2, f3, f4, f5, f6⟩ := form30 1711276060 w d a b m t r (by decide) (by decide) (by decide) (by decide) (by decide) (by decide) (by decide) (by decide)
  exact worded (N := put w 31 (put d 20 (put a 15 (put b 10 (put m 9 (put t 6 (put r 0 (1711276060)))))))) rfl bound (by rw [read_vamoFadd (h.trans (by decide)) (q0.trans (by decide)), f0, f1, f2, f3, f4, f5, f6])

theorem read_fence {N : Nat} (h : N / 2 ^ 25 % 64 = 52) (q0 : N / 2 ^ 6 % 32 = 0) (q1 : N / 2 ^ 3 % 8 = 0) (q2 : N / 2 ^ 11 % 16384 = 0) :
    parse N = some (Instr.fence (fld N 31 1) (fld N 0 3)) := by
  rw [major52 h]
  refine Eq.trans (b := (if N / 2 ^ 3 % 8 = 0 ∧ N / 2 ^ 11 % 16384 = 0 then some (.fence (fld N 31 1) (fld N 0 3)) else none : Option Instr)) ?_ ?_
  · unfold decodeSync
    rw [q0] <;> rfl
  rw [if_pos ⟨q1, q2⟩]

theorem fence (w : BitVec 1) (s : BitVec 3) : Statement (.fence w s) := by
  obtain ⟨bound, h, q0, q1, q2, f0, f1⟩ := form31 1744830464 w s (by decide) (by decide) (by decide)
  exact worded (N := put w 31 (put s 0 (1744830464))) rfl bound (by rw [read_fence (h.trans (by decide)) (q0.trans (by decide)) (q1.trans (by decide)) (q2.trans (by decide)), f0, f1])

theorem read_ldfe {N : Nat} (h : N / 2 ^ 25 % 64 = 52) (q0 : N / 2 ^ 6 % 32 = 1) (q1 : N / 2 ^ 0 % 64 = 0) :
    parse N = some (Instr.ldfe (fld N 31 1) (fld N 18 7) (fld N 11 7)) := by
  rw [major52 h]
  refine Eq.trans (b := (if N / 2 ^ 0 % 64 = 0 then some (.ldfe (fld N 31 1) (fld N 18 7) (fld N 11 7)) else none : Option Instr)) ?_ ?_
  · unfold decodeSync
    rw [q0] <;> rfl
  rw [if_pos q1]

theorem ldfe (w : BitVec 1) (d : BitVec 7) (a : BitVec 7) : Statement (.ldfe w d a) := by
  obtain ⟨bound, h, q0, q1, f0, f1, f2⟩ := form32 1744830528 w d a (by decide) (by decide) (by decide) (by decide)
  exact worded (N := put w 31 (put d 18 (put a 11 (1744830528)))) rfl bound (by rw [read_ldfe (h.trans (by decide)) (q0.trans (by decide)) (q1.trans (by decide)), f0, f1, f2])

theorem read_ldfec {N : Nat} (h : N / 2 ^ 25 % 64 = 52) (q0 : N / 2 ^ 6 % 32 = 2) (q1 : N / 2 ^ 0 % 64 = 0) :
    parse N = some (Instr.ldfec (fld N 31 1) (fld N 18 7) (fld N 11 7)) := by
  rw [major52 h]
  refine Eq.trans (b := (if N / 2 ^ 0 % 64 = 0 then some (.ldfec (fld N 31 1) (fld N 18 7) (fld N 11 7)) else none : Option Instr)) ?_ ?_
  · unfold decodeSync
    rw [q0] <;> rfl
  rw [if_pos q1]

theorem ldfec (w : BitVec 1) (d : BitVec 7) (a : BitVec 7) : Statement (.ldfec w d a) := by
  obtain ⟨bound, h, q0, q1, f0, f1, f2⟩ := form32 1744830592 w d a (by decide) (by decide) (by decide) (by decide)
  exact worded (N := put w 31 (put d 18 (put a 11 (1744830592)))) rfl bound (by rw [read_ldfec (h.trans (by decide)) (q0.trans (by decide)) (q1.trans (by decide)), f0, f1, f2])

theorem read_stfe {N : Nat} (h : N / 2 ^ 25 % 64 = 52) (q0 : N / 2 ^ 6 % 32 = 3) (q1 : N / 2 ^ 0 % 64 = 0) :
    parse N = some (Instr.stfe (fld N 31 1) (fld N 18 7) (fld N 11 7)) := by
  rw [major52 h]
  refine Eq.trans (b := (if N / 2 ^ 0 % 64 = 0 then some (.stfe (fld N 31 1) (fld N 18 7) (fld N 11 7)) else none : Option Instr)) ?_ ?_
  · unfold decodeSync
    rw [q0] <;> rfl
  rw [if_pos q1]

theorem stfe (w : BitVec 1) (d : BitVec 7) (a : BitVec 7) : Statement (.stfe w d a) := by
  obtain ⟨bound, h, q0, q1, f0, f1, f2⟩ := form32 1744830656 w d a (by decide) (by decide) (by decide) (by decide)
  exact worded (N := put w 31 (put d 18 (put a 11 (1744830656)))) rfl bound (by rw [read_stfe (h.trans (by decide)) (q0.trans (by decide)) (q1.trans (by decide)), f0, f1, f2])

theorem read_waitge {N : Nat} (h : N / 2 ^ 25 % 64 = 52) (q0 : N / 2 ^ 6 % 32 = 4) (q1 : N / 2 ^ 0 % 64 = 0) :
    parse N = some (Instr.waitge (fld N 31 1) (fld N 18 7) (fld N 11 7)) := by
  rw [major52 h]
  refine Eq.trans (b := (if N / 2 ^ 0 % 64 = 0 then some (.waitge (fld N 31 1) (fld N 18 7) (fld N 11 7)) else none : Option Instr)) ?_ ?_
  · unfold decodeSync
    rw [q0] <;> rfl
  rw [if_pos q1]

theorem waitge (w : BitVec 1) (d : BitVec 7) (a : BitVec 7) : Statement (.waitge w d a) := by
  obtain ⟨bound, h, q0, q1, f0, f1, f2⟩ := form32 1744830720 w d a (by decide) (by decide) (by decide) (by decide)
  exact worded (N := put w 31 (put d 18 (put a 11 (1744830720)))) rfl bound (by rw [read_waitge (h.trans (by decide)) (q0.trans (by decide)) (q1.trans (by decide)), f0, f1, f2])

theorem read_migrate {N : Nat} (h : N / 2 ^ 25 % 64 = 52) (q0 : N / 2 ^ 6 % 32 = 5) (q1 : N / 2 ^ 0 % 64 = 0) (q2 : N / 2 ^ 18 % 128 = 0) :
    parse N = some (Instr.migrate (fld N 31 1) (fld N 11 7)) := by
  rw [major52 h]
  refine Eq.trans (b := (if N / 2 ^ 0 % 64 = 0 ∧ N / 2 ^ 18 % 128 = 0 then some (.migrate (fld N 31 1) (fld N 11 7)) else none : Option Instr)) ?_ ?_
  · unfold decodeSync
    rw [q0] <;> rfl
  rw [if_pos ⟨q1, q2⟩]

theorem migrate (w : BitVec 1) (a : BitVec 7) : Statement (.migrate w a) := by
  obtain ⟨bound, h, q0, q1, q2, f0, f1⟩ := form33 1744830784 w a (by decide) (by decide) (by decide)
  exact worded (N := put w 31 (put a 11 (1744830784))) rfl bound (by rw [read_migrate (h.trans (by decide)) (q0.trans (by decide)) (q1.trans (by decide)) (q2.trans (by decide)), f0, f1])

theorem read_prefetch {N : Nat} (h : N / 2 ^ 25 % 64 = 52) (q0 : N / 2 ^ 6 % 32 = 6) (q1 : N / 2 ^ 1 % 32 = 0) (q2 : N / 2 ^ 18 % 128 = 0) :
    parse N = some (Instr.prefetch (fld N 31 1) (fld N 11 7) (fld N 0 1)) := by
  rw [major52 h]
  refine Eq.trans (b := (if N / 2 ^ 1 % 32 = 0 ∧ N / 2 ^ 18 % 128 = 0 then some (.prefetch (fld N 31 1) (fld N 11 7) (fld N 0 1)) else none : Option Instr)) ?_ ?_
  · unfold decodeSync
    rw [q0] <;> rfl
  rw [if_pos ⟨q1, q2⟩]

theorem prefetch (w : BitVec 1) (a : BitVec 7) (l : BitVec 1) : Statement (.prefetch w a l) := by
  obtain ⟨bound, h, q0, q1, q2, f0, f1, f2⟩ := form16 1744830848 w a l (by decide) (by decide) (by decide) (by decide)
  exact worded (N := put w 31 (put a 11 (put l 0 (1744830848)))) rfl bound (by rw [read_prefetch (h.trans (by decide)) (q0.trans (by decide)) (q1.trans (by decide)) (q2.trans (by decide)), f0, f1, f2])

theorem read_fork {N : Nat} (h : N / 2 ^ 25 % 64 = 53) (q0 : N / 2 ^ 6 % 32 = 0) (q1 : N / 2 ^ 5 % 2 = 0) :
    parse N = some (Instr.fork (fld N 31 1) (fld N 18 7) (fld N 11 7) (fld N 0 5)) := by
  rw [major53 h]
  refine Eq.trans (b := (if N / 2 ^ 5 % 2 = 0 then some (.fork (fld N 31 1) (fld N 18 7) (fld N 11 7) (fld N 0 5)) else none : Option Instr)) ?_ ?_
  · unfold decodeThr
    rw [q0] <;> rfl
  rw [if_pos q1]

theorem fork (w : BitVec 1) (d : BitVec 7) (a : BitVec 7) (n : BitVec 5) : Statement (.fork w d a n) := by
  obtain ⟨bound, h, q0, q1, f0, f1, f2, f3⟩ := form34 1778384896 w d a n (by decide) (by decide) (by decide) (by decide) (by decide)
  exact worded (N := put w 31 (put d 18 (put a 11 (put n 0 (1778384896))))) rfl bound (by rw [read_fork (h.trans (by decide)) (q0.trans (by decide)) (q1.trans (by decide)), f0, f1, f2, f3])

theorem read_joinw {N : Nat} (h : N / 2 ^ 25 % 64 = 53) (q0 : N / 2 ^ 6 % 32 = 1) (q1 : N / 2 ^ 0 % 64 = 0) (q2 : N / 2 ^ 18 % 128 = 0) :
    parse N = some (Instr.joinw (fld N 31 1) (fld N 11 7)) := by
  rw [major53 h]
  refine Eq.trans (b := (if N / 2 ^ 0 % 64 = 0 ∧ N / 2 ^ 18 % 128 = 0 then some (.joinw (fld N 31 1) (fld N 11 7)) else none : Option Instr)) ?_ ?_
  · unfold decodeThr
    rw [q0] <;> rfl
  rw [if_pos ⟨q1, q2⟩]

theorem joinw (w : BitVec 1) (a : BitVec 7) : Statement (.joinw w a) := by
  obtain ⟨bound, h, q0, q1, q2, f0, f1⟩ := form33 1778384960 w a (by decide) (by decide) (by decide)
  exact worded (N := put w 31 (put a 11 (1778384960))) rfl bound (by rw [read_joinw (h.trans (by decide)) (q0.trans (by decide)) (q1.trans (by decide)) (q2.trans (by decide)), f0, f1])

theorem read_launch {N : Nat} (h : N / 2 ^ 25 % 64 = 53) (q0 : N / 2 ^ 6 % 32 = 2) (q1 : N / 2 ^ 0 % 64 = 0) (q2 : N / 2 ^ 18 % 128 = 0) :
    parse N = some (Instr.launch (fld N 31 1) (fld N 11 7)) := by
  rw [major53 h]
  refine Eq.trans (b := (if N / 2 ^ 0 % 64 = 0 ∧ N / 2 ^ 18 % 128 = 0 then some (.launch (fld N 31 1) (fld N 11 7)) else none : Option Instr)) ?_ ?_
  · unfold decodeThr
    rw [q0] <;> rfl
  rw [if_pos ⟨q1, q2⟩]

theorem launch (w : BitVec 1) (a : BitVec 7) : Statement (.launch w a) := by
  obtain ⟨bound, h, q0, q1, q2, f0, f1⟩ := form33 1778385024 w a (by decide) (by decide) (by decide)
  exact worded (N := put w 31 (put a 11 (1778385024))) rfl bound (by rw [read_launch (h.trans (by decide)) (q0.trans (by decide)) (q1.trans (by decide)) (q2.trans (by decide)), f0, f1])

theorem read_tinfo {N : Nat} (h : N / 2 ^ 25 % 64 = 53) (q0 : N / 2 ^ 6 % 32 = 3) (q1 : N / 2 ^ 3 % 8 = 0) (q2 : N / 2 ^ 11 % 128 = 0) :
    parse N = some (Instr.tinfo (fld N 31 1) (fld N 18 7) (fld N 0 3)) := by
  rw [major53 h]
  refine Eq.trans (b := (if N / 2 ^ 3 % 8 = 0 ∧ N / 2 ^ 11 % 128 = 0 then some (.tinfo (fld N 31 1) (fld N 18 7) (fld N 0 3)) else none : Option Instr)) ?_ ?_
  · unfold decodeThr
    rw [q0] <;> rfl
  rw [if_pos ⟨q1, q2⟩]

theorem tinfo (w : BitVec 1) (d : BitVec 7) (s : BitVec 3) : Statement (.tinfo w d s) := by
  obtain ⟨bound, h, q0, q1, q2, f0, f1, f2⟩ := form35 1778385088 w d s (by decide) (by decide) (by decide) (by decide)
  exact worded (N := put w 31 (put d 18 (put s 0 (1778385088)))) rfl bound (by rw [read_tinfo (h.trans (by decide)) (q0.trans (by decide)) (q1.trans (by decide)) (q2.trans (by decide)), f0, f1, f2])

theorem read_qbind {N : Nat} (h : N / 2 ^ 25 % 64 = 54) (q0 : N / 2 ^ 6 % 32 = 0) (q1 : N / 2 ^ 0 % 64 = 0) (q2 : N / 2 ^ 21 % 16 = 14) :
    parse N = some (Instr.qbind (fld N 31 1) (fld N 18 3) (fld N 11 7)) := by
  rw [major54 h]
  refine Eq.trans (b := (if N / 2 ^ 0 % 64 = 0 ∧ N / 2 ^ 21 % 16 = 14 then some (.qbind (fld N 31 1) (fld N 18 3) (fld N 11 7)) else none : Option Instr)) ?_ ?_
  · unfold decodeChn
    rw [q0] <;> rfl
  rw [if_pos ⟨q1, q2⟩]

theorem qbind (w : BitVec 1) (q : BitVec 3) (a : BitVec 7) : Statement (.qbind w q a) := by
  obtain ⟨bound, h, q0, q1, q2, f0, f1, f2⟩ := form36 1841299456 w q a (by decide) (by decide) (by decide) (by decide)
  exact worded (N := put w 31 (put q 18 (put a 11 (1841299456)))) rfl bound (by rw [read_qbind (h.trans (by decide)) (q0.trans (by decide)) (q1.trans (by decide)) (q2.trans (by decide)), f0, f1, f2])

theorem read_qpoll {N : Nat} (h : N / 2 ^ 25 % 64 = 54) (q0 : N / 2 ^ 6 % 32 = 1) (q1 : N / 2 ^ 0 % 64 = 0) (q2 : N / 2 ^ 14 % 16 = 14) :
    parse N = some (Instr.qpoll (fld N 31 1) (fld N 18 7) (fld N 11 3)) := by
  rw [major54 h]
  refine Eq.trans (b := (if N / 2 ^ 0 % 64 = 0 ∧ N / 2 ^ 14 % 16 = 14 then some (.qpoll (fld N 31 1) (fld N 18 7) (fld N 11 3)) else none : Option Instr)) ?_ ?_
  · unfold decodeChn
    rw [q0] <;> rfl
  rw [if_pos ⟨q1, q2⟩]

theorem qpoll (w : BitVec 1) (d : BitVec 7) (q : BitVec 3) : Statement (.qpoll w d q) := by
  obtain ⟨bound, h, q0, q1, q2, f0, f1, f2⟩ := form37 1812168768 w d q (by decide) (by decide) (by decide) (by decide)
  exact worded (N := put w 31 (put d 18 (put q 11 (1812168768)))) rfl bound (by rw [read_qpoll (h.trans (by decide)) (q0.trans (by decide)) (q1.trans (by decide)) (q2.trans (by decide)), f0, f1, f2])

theorem read_send {N : Nat} (h : N / 2 ^ 25 % 64 = 54) (q0 : N / 2 ^ 6 % 32 = 2) (q1 : N / 2 ^ 0 % 64 = 0) (q2 : N / 2 ^ 21 % 16 = 14) :
    parse N = some (Instr.send (fld N 31 1) (fld N 18 3) (fld N 11 7)) := by
  rw [major54 h]
  refine Eq.trans (b := (if N / 2 ^ 0 % 64 = 0 ∧ N / 2 ^ 21 % 16 = 14 then some (.send (fld N 31 1) (fld N 18 3) (fld N 11 7)) else none : Option Instr)) ?_ ?_
  · unfold decodeChn
    rw [q0] <;> rfl
  rw [if_pos ⟨q1, q2⟩]

theorem send (w : BitVec 1) (q : BitVec 3) (a : BitVec 7) : Statement (.send w q a) := by
  obtain ⟨bound, h, q0, q1, q2, f0, f1, f2⟩ := form36 1841299584 w q a (by decide) (by decide) (by decide) (by decide)
  exact worded (N := put w 31 (put q 18 (put a 11 (1841299584)))) rfl bound (by rw [read_send (h.trans (by decide)) (q0.trans (by decide)) (q1.trans (by decide)) (q2.trans (by decide)), f0, f1, f2])

theorem read_sende {N : Nat} (h : N / 2 ^ 25 % 64 = 54) (q0 : N / 2 ^ 6 % 32 = 3) (q1 : N / 2 ^ 0 % 64 = 0) (q2 : N / 2 ^ 21 % 16 = 14) :
    parse N = some (Instr.sende (fld N 31 1) (fld N 18 3) (fld N 11 7)) := by
  rw [major54 h]
  refine Eq.trans (b := (if N / 2 ^ 0 % 64 = 0 ∧ N / 2 ^ 21 % 16 = 14 then some (.sende (fld N 31 1) (fld N 18 3) (fld N 11 7)) else none : Option Instr)) ?_ ?_
  · unfold decodeChn
    rw [q0] <;> rfl
  rw [if_pos ⟨q1, q2⟩]

theorem sende (w : BitVec 1) (q : BitVec 3) (a : BitVec 7) : Statement (.sende w q a) := by
  obtain ⟨bound, h, q0, q1, q2, f0, f1, f2⟩ := form36 1841299648 w q a (by decide) (by decide) (by decide) (by decide)
  exact worded (N := put w 31 (put q 18 (put a 11 (1841299648)))) rfl bound (by rw [read_sende (h.trans (by decide)) (q0.trans (by decide)) (q1.trans (by decide)) (q2.trans (by decide)), f0, f1, f2])

theorem read_vqrd {N : Nat} (h : N / 2 ^ 25 % 64 = 54) (q0 : N / 2 ^ 6 % 32 = 4) (q1 : N / 2 ^ 0 % 64 = 0) (q2 : N / 2 ^ 14 % 16 = 14) (q3 : N / 2 ^ 23 % 4 = 0) :
    parse N = some (Instr.vqrd (fld N 31 1) (fld N 18 5) (fld N 11 3)) := by
  rw [major54 h]
  refine Eq.trans (b := (if N / 2 ^ 0 % 64 = 0 ∧ N / 2 ^ 14 % 16 = 14 ∧ N / 2 ^ 23 % 4 = 0 then some (.vqrd (fld N 31 1) (fld N 18 5) (fld N 11 3)) else none : Option Instr)) ?_ ?_
  · unfold decodeChn
    rw [q0] <;> rfl
  rw [if_pos ⟨q1, q2, q3⟩]

theorem vqrd (w : BitVec 1) (v : BitVec 5) (q : BitVec 3) : Statement (.vqrd w v q) := by
  obtain ⟨bound, h, q0, q1, q2, q3, f0, f1, f2⟩ := form38 1812168960 w v q (by decide) (by decide) (by decide) (by decide)
  exact worded (N := put w 31 (put v 18 (put q 11 (1812168960)))) rfl bound (by rw [read_vqrd (h.trans (by decide)) (q0.trans (by decide)) (q1.trans (by decide)) (q2.trans (by decide)) (q3.trans (by decide)), f0, f1, f2])

theorem read_vqwr {N : Nat} (h : N / 2 ^ 25 % 64 = 54) (q0 : N / 2 ^ 6 % 32 = 5) (q1 : N / 2 ^ 0 % 64 = 0) (q2 : N / 2 ^ 16 % 4 = 0) (q3 : N / 2 ^ 21 % 16 = 14) :
    parse N = some (Instr.vqwr (fld N 31 1) (fld N 18 3) (fld N 11 5)) := by
  rw [major54 h]
  refine Eq.trans (b := (if N / 2 ^ 0 % 64 = 0 ∧ N / 2 ^ 16 % 4 = 0 ∧ N / 2 ^ 21 % 16 = 14 then some (.vqwr (fld N 31 1) (fld N 18 3) (fld N 11 5)) else none : Option Instr)) ?_ ?_
  · unfold decodeChn
    rw [q0] <;> rfl
  rw [if_pos ⟨q1, q2, q3⟩]

theorem vqwr (w : BitVec 1) (q : BitVec 3) (v : BitVec 5) : Statement (.vqwr w q v) := by
  obtain ⟨bound, h, q0, q1, q2, q3, f0, f1, f2⟩ := form39 1841299776 w q v (by decide) (by decide) (by decide) (by decide)
  exact worded (N := put w 31 (put q 18 (put v 11 (1841299776)))) rfl bound (by rw [read_vqwr (h.trans (by decide)) (q0.trans (by decide)) (q1.trans (by decide)) (q2.trans (by decide)) (q3.trans (by decide)), f0, f1, f2])

theorem read_itemget {N : Nat} (h : N / 2 ^ 25 % 64 = 54) (q0 : N / 2 ^ 6 % 32 = 6) (q1 : N / 2 ^ 0 % 64 = 0) :
    parse N = some (Instr.itemget (fld N 31 1) (fld N 18 7) (fld N 11 7)) := by
  rw [major54 h]
  refine Eq.trans (b := (if N / 2 ^ 0 % 64 = 0 then some (.itemget (fld N 31 1) (fld N 18 7) (fld N 11 7)) else none : Option Instr)) ?_ ?_
  · unfold decodeChn
    rw [q0] <;> rfl
  rw [if_pos q1]

theorem itemget (w : BitVec 1) (d : BitVec 7) (a : BitVec 7) : Statement (.itemget w d a) := by
  obtain ⟨bound, h, q0, q1, f0, f1, f2⟩ := form32 1811939712 w d a (by decide) (by decide) (by decide) (by decide)
  exact worded (N := put w 31 (put d 18 (put a 11 (1811939712)))) rfl bound (by rw [read_itemget (h.trans (by decide)) (q0.trans (by decide)) (q1.trans (by decide)), f0, f1, f2])

theorem read_itemput {N : Nat} (h : N / 2 ^ 25 % 64 = 54) (q0 : N / 2 ^ 6 % 32 = 7) (q1 : N / 2 ^ 1 % 32 = 0) :
    parse N = some (Instr.itemput (fld N 31 1) (fld N 18 7) (fld N 11 7) (fld N 0 1)) := by
  rw [major54 h]
  refine Eq.trans (b := (if N / 2 ^ 1 % 32 = 0 then some (.itemput (fld N 31 1) (fld N 18 7) (fld N 11 7) (fld N 0 1)) else none : Option Instr)) ?_ ?_
  · unfold decodeChn
    rw [q0] <;> rfl
  rw [if_pos q1]

theorem itemput (w : BitVec 1) (d : BitVec 7) (a : BitVec 7) (o : BitVec 1) : Statement (.itemput w d a o) := by
  obtain ⟨bound, h, q0, q1, f0, f1, f2, f3⟩ := form40 1811939776 w d a o (by decide) (by decide) (by decide) (by decide) (by decide)
  exact worded (N := put w 31 (put d 18 (put a 11 (put o 0 (1811939776))))) rfl bound (by rw [read_itemput (h.trans (by decide)) (q0.trans (by decide)) (q1.trans (by decide)), f0, f1, f2, f3])

theorem read_barj {N : Nat} (h : N / 2 ^ 25 % 64 = 55) (q0 : N / 2 ^ 6 % 32 = 0) (q1 : N / 2 ^ 0 % 64 = 0) (q2 : N / 2 ^ 18 % 128 = 0) :
    parse N = some (Instr.barj (fld N 31 1) (fld N 11 7)) := by
  rw [major55 h]
  refine Eq.trans (b := (if N / 2 ^ 0 % 64 = 0 ∧ N / 2 ^ 18 % 128 = 0 then some (.barj (fld N 31 1) (fld N 11 7)) else none : Option Instr)) ?_ ?_
  · unfold decodeBar
    rw [q0] <;> rfl
  rw [if_pos ⟨q1, q2⟩]

theorem barj (w : BitVec 1) (a : BitVec 7) : Statement (.barj w a) := by
  obtain ⟨bound, h, q0, q1, q2, f0, f1⟩ := form33 1845493760 w a (by decide) (by decide) (by decide)
  exact worded (N := put w 31 (put a 11 (1845493760))) rfl bound (by rw [read_barj (h.trans (by decide)) (q0.trans (by decide)) (q1.trans (by decide)) (q2.trans (by decide)), f0, f1])

theorem read_barl {N : Nat} (h : N / 2 ^ 25 % 64 = 55) (q0 : N / 2 ^ 6 % 32 = 1) (q1 : N / 2 ^ 0 % 64 = 0) (q2 : N / 2 ^ 18 % 128 = 0) :
    parse N = some (Instr.barl (fld N 31 1) (fld N 11 7)) := by
  rw [major55 h]
  refine Eq.trans (b := (if N / 2 ^ 0 % 64 = 0 ∧ N / 2 ^ 18 % 128 = 0 then some (.barl (fld N 31 1) (fld N 11 7)) else none : Option Instr)) ?_ ?_
  · unfold decodeBar
    rw [q0] <;> rfl
  rw [if_pos ⟨q1, q2⟩]

theorem barl (w : BitVec 1) (a : BitVec 7) : Statement (.barl w a) := by
  obtain ⟨bound, h, q0, q1, q2, f0, f1⟩ := form33 1845493824 w a (by decide) (by decide) (by decide)
  exact worded (N := put w 31 (put a 11 (1845493824))) rfl bound (by rw [read_barl (h.trans (by decide)) (q0.trans (by decide)) (q1.trans (by decide)) (q2.trans (by decide)), f0, f1])

theorem read_bara {N : Nat} (h : N / 2 ^ 25 % 64 = 55) (q0 : N / 2 ^ 6 % 32 = 2) (q1 : N / 2 ^ 0 % 64 = 0) (q2 : N / 2 ^ 18 % 128 = 0) :
    parse N = some (Instr.bara (fld N 31 1) (fld N 11 7)) := by
  rw [major55 h]
  refine Eq.trans (b := (if N / 2 ^ 0 % 64 = 0 ∧ N / 2 ^ 18 % 128 = 0 then some (.bara (fld N 31 1) (fld N 11 7)) else none : Option Instr)) ?_ ?_
  · unfold decodeBar
    rw [q0] <;> rfl
  rw [if_pos ⟨q1, q2⟩]

theorem bara (w : BitVec 1) (a : BitVec 7) : Statement (.bara w a) := by
  obtain ⟨bound, h, q0, q1, q2, f0, f1⟩ := form33 1845493888 w a (by decide) (by decide) (by decide)
  exact worded (N := put w 31 (put a 11 (1845493888))) rfl bound (by rw [read_bara (h.trans (by decide)) (q0.trans (by decide)) (q1.trans (by decide)) (q2.trans (by decide)), f0, f1])

theorem read_barw {N : Nat} (h : N / 2 ^ 25 % 64 = 55) (q0 : N / 2 ^ 6 % 32 = 3) (q1 : N / 2 ^ 0 % 64 = 0) (q2 : N / 2 ^ 18 % 128 = 0) :
    parse N = some (Instr.barw (fld N 31 1) (fld N 11 7)) := by
  rw [major55 h]
  refine Eq.trans (b := (if N / 2 ^ 0 % 64 = 0 ∧ N / 2 ^ 18 % 128 = 0 then some (.barw (fld N 31 1) (fld N 11 7)) else none : Option Instr)) ?_ ?_
  · unfold decodeBar
    rw [q0] <;> rfl
  rw [if_pos ⟨q1, q2⟩]

theorem barw (w : BitVec 1) (a : BitVec 7) : Statement (.barw w a) := by
  obtain ⟨bound, h, q0, q1, q2, f0, f1⟩ := form33 1845493952 w a (by decide) (by decide) (by decide)
  exact worded (N := put w 31 (put a 11 (1845493952))) rfl bound (by rw [read_barw (h.trans (by decide)) (q0.trans (by decide)) (q1.trans (by decide)) (q2.trans (by decide)), f0, f1])

theorem read_barm {N : Nat} (h : N / 2 ^ 25 % 64 = 55) (q0 : N / 2 ^ 6 % 32 = 4) (q1 : N / 2 ^ 0 % 64 = 0) :
    parse N = some (Instr.barm (fld N 31 1) (fld N 18 7) (fld N 11 7)) := by
  rw [major55 h]
  refine Eq.trans (b := (if N / 2 ^ 0 % 64 = 0 then some (.barm (fld N 31 1) (fld N 18 7) (fld N 11 7)) else none : Option Instr)) ?_ ?_
  · unfold decodeBar
    rw [q0] <;> rfl
  rw [if_pos q1]

theorem barm (w : BitVec 1) (d : BitVec 7) (a : BitVec 7) : Statement (.barm w d a) := by
  obtain ⟨bound, h, q0, q1, f0, f1, f2⟩ := form32 1845494016 w d a (by decide) (by decide) (by decide) (by decide)
  exact worded (N := put w 31 (put d 18 (put a 11 (1845494016)))) rfl bound (by rw [read_barm (h.trans (by decide)) (q0.trans (by decide)) (q1.trans (by decide)), f0, f1, f2])

theorem read_csig {N : Nat} (h : N / 2 ^ 25 % 64 = 55) (q0 : N / 2 ^ 6 % 32 = 5) (q1 : N / 2 ^ 3 % 8 = 0) :
    parse N = some (Instr.csig (fld N 31 1) (fld N 18 7) (fld N 11 7) (fld N 0 3)) := by
  rw [major55 h]
  refine Eq.trans (b := (if N / 2 ^ 3 % 8 = 0 then some (.csig (fld N 31 1) (fld N 18 7) (fld N 11 7) (fld N 0 3)) else none : Option Instr)) ?_ ?_
  · unfold decodeBar
    rw [q0] <;> rfl
  rw [if_pos q1]

theorem csig (w : BitVec 1) (d : BitVec 7) (a : BitVec 7) (s : BitVec 3) : Statement (.csig w d a s) := by
  obtain ⟨bound, h, q0, q1, f0, f1, f2, f3⟩ := form41 1845494080 w d a s (by decide) (by decide) (by decide) (by decide) (by decide)
  exact worded (N := put w 31 (put d 18 (put a 11 (put s 0 (1845494080))))) rfl bound (by rw [read_csig (h.trans (by decide)) (q0.trans (by decide)) (q1.trans (by decide)), f0, f1, f2, f3])

theorem read_xset {N : Nat} (h : N / 2 ^ 25 % 64 = 56) (q0 : N / 2 ^ 6 % 32 = 0) (q1 : N / 2 ^ 11 % 128 = 0) :
    parse N = some (Instr.xset (fld N 31 1) (fld N 18 7) (fld N 1 5) (fld N 0 1)) := by
  rw [major56 h]
  refine Eq.trans (b := (if N / 2 ^ 11 % 128 = 0 then some (.xset (fld N 31 1) (fld N 18 7) (fld N 1 5) (fld N 0 1)) else none : Option Instr)) ?_ ?_
  · unfold decodeEng
    rw [q0] <;> rfl
  rw [if_pos q1]

theorem xset (w : BitVec 1) (d : BitVec 7) (f : BitVec 5) (e : BitVec 1) : Statement (.xset w d f e) := by
  obtain ⟨bound, h, q0, q1, f0, f1, f2, f3⟩ := form42 1879048192 w d f e (by decide) (by decide) (by decide) (by decide) (by decide)
  exact worded (N := put w 31 (put d 18 (put f 1 (put e 0 (1879048192))))) rfl bound (by rw [read_xset (h.trans (by decide)) (q0.trans (by decide)) (q1.trans (by decide)), f0, f1, f2, f3])

theorem read_xget {N : Nat} (h : N / 2 ^ 25 % 64 = 56) (q0 : N / 2 ^ 6 % 32 = 1) (q1 : N / 2 ^ 11 % 128 = 0) :
    parse N = some (Instr.xget (fld N 31 1) (fld N 18 7) (fld N 1 5) (fld N 0 1)) := by
  rw [major56 h]
  refine Eq.trans (b := (if N / 2 ^ 11 % 128 = 0 then some (.xget (fld N 31 1) (fld N 18 7) (fld N 1 5) (fld N 0 1)) else none : Option Instr)) ?_ ?_
  · unfold decodeEng
    rw [q0] <;> rfl
  rw [if_pos q1]

theorem xget (w : BitVec 1) (d : BitVec 7) (f : BitVec 5) (e : BitVec 1) : Statement (.xget w d f e) := by
  obtain ⟨bound, h, q0, q1, f0, f1, f2, f3⟩ := form42 1879048256 w d f e (by decide) (by decide) (by decide) (by decide) (by decide)
  exact worded (N := put w 31 (put d 18 (put f 1 (put e 0 (1879048256))))) rfl bound (by rw [read_xget (h.trans (by decide)) (q0.trans (by decide)) (q1.trans (by decide)), f0, f1, f2, f3])

theorem read_xlaunch {N : Nat} (h : N / 2 ^ 25 % 64 = 56) (q0 : N / 2 ^ 6 % 32 = 2) (q1 : N / 2 ^ 1 % 32 = 0) (q2 : N / 2 ^ 11 % 128 = 0) :
    parse N = some (Instr.xlaunch (fld N 31 1) (fld N 18 7) (fld N 0 1)) := by
  rw [major56 h]
  refine Eq.trans (b := (if N / 2 ^ 1 % 32 = 0 ∧ N / 2 ^ 11 % 128 = 0 then some (.xlaunch (fld N 31 1) (fld N 18 7) (fld N 0 1)) else none : Option Instr)) ?_ ?_
  · unfold decodeEng
    rw [q0] <;> rfl
  rw [if_pos ⟨q1, q2⟩]

theorem xlaunch (w : BitVec 1) (d : BitVec 7) (e : BitVec 1) : Statement (.xlaunch w d e) := by
  obtain ⟨bound, h, q0, q1, q2, f0, f1, f2⟩ := form43 1879048320 w d e (by decide) (by decide) (by decide) (by decide)
  exact worded (N := put w 31 (put d 18 (put e 0 (1879048320)))) rfl bound (by rw [read_xlaunch (h.trans (by decide)) (q0.trans (by decide)) (q1.trans (by decide)) (q2.trans (by decide)), f0, f1, f2])

theorem read_xwait {N : Nat} (h : N / 2 ^ 25 % 64 = 56) (q0 : N / 2 ^ 6 % 32 = 3) (q1 : N / 2 ^ 1 % 32 = 0) (q2 : N / 2 ^ 18 % 128 = 0) :
    parse N = some (Instr.xwait (fld N 31 1) (fld N 11 7) (fld N 0 1)) := by
  rw [major56 h]
  refine Eq.trans (b := (if N / 2 ^ 1 % 32 = 0 ∧ N / 2 ^ 18 % 128 = 0 then some (.xwait (fld N 31 1) (fld N 11 7) (fld N 0 1)) else none : Option Instr)) ?_ ?_
  · unfold decodeEng
    rw [q0] <;> rfl
  rw [if_pos ⟨q1, q2⟩]

theorem xwait (w : BitVec 1) (a : BitVec 7) (e : BitVec 1) : Statement (.xwait w a e) := by
  obtain ⟨bound, h, q0, q1, q2, f0, f1, f2⟩ := form16 1879048384 w a e (by decide) (by decide) (by decide) (by decide)
  exact worded (N := put w 31 (put a 11 (put e 0 (1879048384)))) rfl bound (by rw [read_xwait (h.trans (by decide)) (q0.trans (by decide)) (q1.trans (by decide)) (q2.trans (by decide)), f0, f1, f2])

theorem read_trig {N : Nat} (h : N / 2 ^ 25 % 64 = 56) (q0 : N / 2 ^ 6 % 32 = 4) (q1 : N / 2 ^ 0 % 64 = 0) :
    parse N = some (Instr.trig (fld N 31 1) (fld N 18 7) (fld N 11 7)) := by
  rw [major56 h]
  refine Eq.trans (b := (if N / 2 ^ 0 % 64 = 0 then some (.trig (fld N 31 1) (fld N 18 7) (fld N 11 7)) else none : Option Instr)) ?_ ?_
  · unfold decodeEng
    rw [q0] <;> rfl
  rw [if_pos q1]

theorem trig (w : BitVec 1) (d : BitVec 7) (a : BitVec 7) : Statement (.trig w d a) := by
  obtain ⟨bound, h, q0, q1, f0, f1, f2⟩ := form32 1879048448 w d a (by decide) (by decide) (by decide) (by decide)
  exact worded (N := put w 31 (put d 18 (put a 11 (1879048448)))) rfl bound (by rw [read_trig (h.trans (by decide)) (q0.trans (by decide)) (q1.trans (by decide)), f0, f1, f2])

theorem read_trigc {N : Nat} (h : N / 2 ^ 25 % 64 = 56) (q0 : N / 2 ^ 6 % 32 = 5) (q1 : N / 2 ^ 0 % 64 = 0) (q2 : N / 2 ^ 18 % 128 = 0) :
    parse N = some (Instr.trigc (fld N 31 1) (fld N 11 7)) := by
  rw [major56 h]
  refine Eq.trans (b := (if N / 2 ^ 0 % 64 = 0 ∧ N / 2 ^ 18 % 128 = 0 then some (.trigc (fld N 31 1) (fld N 11 7)) else none : Option Instr)) ?_ ?_
  · unfold decodeEng
    rw [q0] <;> rfl
  rw [if_pos ⟨q1, q2⟩]

theorem trigc (w : BitVec 1) (a : BitVec 7) : Statement (.trigc w a) := by
  obtain ⟨bound, h, q0, q1, q2, f0, f1⟩ := form33 1879048512 w a (by decide) (by decide) (by decide)
  exact worded (N := put w 31 (put a 11 (1879048512))) rfl bound (by rw [read_trigc (h.trans (by decide)) (q0.trans (by decide)) (q1.trans (by decide)) (q2.trans (by decide)), f0, f1])

theorem read_trigq {N : Nat} (h : N / 2 ^ 25 % 64 = 56) (q0 : N / 2 ^ 6 % 32 = 6) (q1 : N / 2 ^ 0 % 64 = 0) :
    parse N = some (Instr.trigq (fld N 31 1) (fld N 18 7) (fld N 11 7)) := by
  rw [major56 h]
  refine Eq.trans (b := (if N / 2 ^ 0 % 64 = 0 then some (.trigq (fld N 31 1) (fld N 18 7) (fld N 11 7)) else none : Option Instr)) ?_ ?_
  · unfold decodeEng
    rw [q0] <;> rfl
  rw [if_pos q1]

theorem trigq (w : BitVec 1) (d : BitVec 7) (a : BitVec 7) : Statement (.trigq w d a) := by
  obtain ⟨bound, h, q0, q1, f0, f1, f2⟩ := form32 1879048576 w d a (by decide) (by decide) (by decide) (by decide)
  exact worded (N := put w 31 (put d 18 (put a 11 (1879048576)))) rfl bound (by rw [read_trigq (h.trans (by decide)) (q0.trans (by decide)) (q1.trans (by decide)), f0, f1, f2])

theorem read_mxwait {N : Nat} (h : N / 2 ^ 25 % 64 = 56) (q0 : N / 2 ^ 6 % 32 = 7) (q1 : N / 2 ^ 0 % 64 = 0) (q2 : N / 2 ^ 18 % 128 = 0) :
    parse N = some (Instr.mxwait (fld N 31 1) (fld N 11 7)) := by
  rw [major56 h]
  refine Eq.trans (b := (if N / 2 ^ 0 % 64 = 0 ∧ N / 2 ^ 18 % 128 = 0 then some (.mxwait (fld N 31 1) (fld N 11 7)) else none : Option Instr)) ?_ ?_
  · unfold decodeEng
    rw [q0] <;> rfl
  rw [if_pos ⟨q1, q2⟩]

theorem mxwait (w : BitVec 1) (a : BitVec 7) : Statement (.mxwait w a) := by
  obtain ⟨bound, h, q0, q1, q2, f0, f1⟩ := form33 1879048640 w a (by decide) (by decide) (by decide)
  exact worded (N := put w 31 (put a 11 (1879048640))) rfl bound (by rw [read_mxwait (h.trans (by decide)) (q0.trans (by decide)) (q1.trans (by decide)) (q2.trans (by decide)), f0, f1])

theorem read_mxrd {N : Nat} (h : N / 2 ^ 25 % 64 = 56) (q0 : N / 2 ^ 6 % 32 = 8) (q1 : N / 2 ^ 0 % 64 = 0) (q2 : N / 2 ^ 23 % 4 = 0) :
    parse N = some (Instr.mxrd (fld N 31 1) (fld N 18 5) (fld N 11 7)) := by
  rw [major56 h]
  refine Eq.trans (b := (if N / 2 ^ 0 % 64 = 0 ∧ N / 2 ^ 23 % 4 = 0 then some (.mxrd (fld N 31 1) (fld N 18 5) (fld N 11 7)) else none : Option Instr)) ?_ ?_
  · unfold decodeEng
    rw [q0] <;> rfl
  rw [if_pos ⟨q1, q2⟩]

theorem mxrd (w : BitVec 1) (v : BitVec 5) (a : BitVec 7) : Statement (.mxrd w v a) := by
  obtain ⟨bound, h, q0, q1, q2, f0, f1, f2⟩ := form44 1879048704 w v a (by decide) (by decide) (by decide) (by decide)
  exact worded (N := put w 31 (put v 18 (put a 11 (1879048704)))) rfl bound (by rw [read_mxrd (h.trans (by decide)) (q0.trans (by decide)) (q1.trans (by decide)) (q2.trans (by decide)), f0, f1, f2])

theorem read_hdone {N : Nat} (h : N / 2 ^ 25 % 64 = 56) (q0 : N / 2 ^ 6 % 32 = 9) (q1 : N / 2 ^ 0 % 64 = 0) (q2 : N / 2 ^ 11 % 16384 = 0) :
    parse N = some (Instr.hdone (fld N 31 1)) := by
  rw [major56 h]
  refine Eq.trans (b := (if N / 2 ^ 0 % 64 = 0 ∧ N / 2 ^ 11 % 16384 = 0 then some (.hdone (fld N 31 1)) else none : Option Instr)) ?_ ?_
  · unfold decodeEng
    rw [q0] <;> rfl
  rw [if_pos ⟨q1, q2⟩]

theorem hdone (w : BitVec 1) : Statement (.hdone w) := by
  obtain ⟨bound, h, q0, q1, q2, f0⟩ := form15 1879048768 w (by decide) (by decide)
  exact worded (N := put w 31 (1879048768)) rfl bound (by rw [read_hdone (h.trans (by decide)) (q0.trans (by decide)) (q1.trans (by decide)) (q2.trans (by decide)), f0])

theorem read_ppt {N : Nat} (h : N / 2 ^ 25 % 64 = 56) (q0 : N / 2 ^ 6 % 32 = 10) (q1 : N / 2 ^ 2 % 16 = 0) (q2 : N / 2 ^ 11 % 16384 = 0) :
    parse N = some (Instr.ppt (fld N 31 1) (fld N 0 2)) := by
  rw [major56 h]
  refine Eq.trans (b := (if N / 2 ^ 2 % 16 = 0 ∧ N / 2 ^ 11 % 16384 = 0 then some (.ppt (fld N 31 1) (fld N 0 2)) else none : Option Instr)) ?_ ?_
  · unfold decodeEng
    rw [q0] <;> rfl
  rw [if_pos ⟨q1, q2⟩]

theorem ppt (w : BitVec 1) (m : BitVec 2) : Statement (.ppt w m) := by
  obtain ⟨bound, h, q0, q1, q2, f0, f1⟩ := form45 1879048832 w m (by decide) (by decide) (by decide)
  exact worded (N := put w 31 (put m 0 (1879048832))) rfl bound (by rw [read_ppt (h.trans (by decide)) (q0.trans (by decide)) (q1.trans (by decide)) (q2.trans (by decide)), f0, f1])

theorem read_radd {N : Nat} (h : N / 2 ^ 25 % 64 = 57) (q0 : N / 2 ^ 6 % 32 = 0) (q1 : N / 2 ^ 0 % 64 = 0) :
    parse N = some (Instr.radd (fld N 31 1) (fld N 18 7) (fld N 11 7)) := by
  rw [major57 h]
  refine Eq.trans (b := (if N / 2 ^ 0 % 64 = 0 then some (.radd (fld N 31 1) (fld N 18 7) (fld N 11 7)) else none : Option Instr)) ?_ ?_
  · unfold decodeRep
    rw [q0] <;> rfl
  rw [if_pos q1]

theorem radd (w : BitVec 1) (d : BitVec 7) (a : BitVec 7) : Statement (.radd w d a) := by
  obtain ⟨bound, h, q0, q1, f0, f1, f2⟩ := form32 1912602624 w d a (by decide) (by decide) (by decide) (by decide)
  exact worded (N := put w 31 (put d 18 (put a 11 (1912602624)))) rfl bound (by rw [read_radd (h.trans (by decide)) (q0.trans (by decide)) (q1.trans (by decide)), f0, f1, f2])

theorem read_rmax {N : Nat} (h : N / 2 ^ 25 % 64 = 57) (q0 : N / 2 ^ 6 % 32 = 1) (q1 : N / 2 ^ 0 % 64 = 0) :
    parse N = some (Instr.rmax (fld N 31 1) (fld N 18 7) (fld N 11 7)) := by
  rw [major57 h]
  refine Eq.trans (b := (if N / 2 ^ 0 % 64 = 0 then some (.rmax (fld N 31 1) (fld N 18 7) (fld N 11 7)) else none : Option Instr)) ?_ ?_
  · unfold decodeRep
    rw [q0] <;> rfl
  rw [if_pos q1]

theorem rmax (w : BitVec 1) (d : BitVec 7) (a : BitVec 7) : Statement (.rmax w d a) := by
  obtain ⟨bound, h, q0, q1, f0, f1, f2⟩ := form32 1912602688 w d a (by decide) (by decide) (by decide) (by decide)
  exact worded (N := put w 31 (put d 18 (put a 11 (1912602688)))) rfl bound (by rw [read_rmax (h.trans (by decide)) (q0.trans (by decide)) (q1.trans (by decide)), f0, f1, f2])

theorem read_rlww {N : Nat} (h : N / 2 ^ 25 % 64 = 57) (q0 : N / 2 ^ 6 % 32 = 2) (q1 : N / 2 ^ 0 % 64 = 0) :
    parse N = some (Instr.rlww (fld N 31 1) (fld N 18 7) (fld N 11 7)) := by
  rw [major57 h]
  refine Eq.trans (b := (if N / 2 ^ 0 % 64 = 0 then some (.rlww (fld N 31 1) (fld N 18 7) (fld N 11 7)) else none : Option Instr)) ?_ ?_
  · unfold decodeRep
    rw [q0] <;> rfl
  rw [if_pos q1]

theorem rlww (w : BitVec 1) (d : BitVec 7) (a : BitVec 7) : Statement (.rlww w d a) := by
  obtain ⟨bound, h, q0, q1, f0, f1, f2⟩ := form32 1912602752 w d a (by decide) (by decide) (by decide) (by decide)
  exact worded (N := put w 31 (put d 18 (put a 11 (1912602752)))) rfl bound (by rw [read_rlww (h.trans (by decide)) (q0.trans (by decide)) (q1.trans (by decide)), f0, f1, f2])

theorem read_rsadd {N : Nat} (h : N / 2 ^ 25 % 64 = 57) (q0 : N / 2 ^ 6 % 32 = 3) (q1 : N / 2 ^ 0 % 64 = 0) :
    parse N = some (Instr.rsadd (fld N 31 1) (fld N 18 7) (fld N 11 7)) := by
  rw [major57 h]
  refine Eq.trans (b := (if N / 2 ^ 0 % 64 = 0 then some (.rsadd (fld N 31 1) (fld N 18 7) (fld N 11 7)) else none : Option Instr)) ?_ ?_
  · unfold decodeRep
    rw [q0] <;> rfl
  rw [if_pos q1]

theorem rsadd (w : BitVec 1) (d : BitVec 7) (a : BitVec 7) : Statement (.rsadd w d a) := by
  obtain ⟨bound, h, q0, q1, f0, f1, f2⟩ := form32 1912602816 w d a (by decide) (by decide) (by decide) (by decide)
  exact worded (N := put w 31 (put d 18 (put a 11 (1912602816)))) rfl bound (by rw [read_rsadd (h.trans (by decide)) (q0.trans (by decide)) (q1.trans (by decide)), f0, f1, f2])

theorem read_rsrem {N : Nat} (h : N / 2 ^ 25 % 64 = 57) (q0 : N / 2 ^ 6 % 32 = 4) (q1 : N / 2 ^ 0 % 64 = 0) :
    parse N = some (Instr.rsrem (fld N 31 1) (fld N 18 7) (fld N 11 7)) := by
  rw [major57 h]
  refine Eq.trans (b := (if N / 2 ^ 0 % 64 = 0 then some (.rsrem (fld N 31 1) (fld N 18 7) (fld N 11 7)) else none : Option Instr)) ?_ ?_
  · unfold decodeRep
    rw [q0] <;> rfl
  rw [if_pos q1]

theorem rsrem (w : BitVec 1) (d : BitVec 7) (a : BitVec 7) : Statement (.rsrem w d a) := by
  obtain ⟨bound, h, q0, q1, f0, f1, f2⟩ := form32 1912602880 w d a (by decide) (by decide) (by decide) (by decide)
  exact worded (N := put w 31 (put d 18 (put a 11 (1912602880)))) rfl bound (by rw [read_rsrem (h.trans (by decide)) (q0.trans (by decide)) (q1.trans (by decide)), f0, f1, f2])

theorem read_rshas {N : Nat} (h : N / 2 ^ 25 % 64 = 57) (q0 : N / 2 ^ 6 % 32 = 5) :
    parse N = some (Instr.rshas (fld N 31 1) (fld N 18 7) (fld N 11 7) (fld N 0 6)) := by
  rw [major57 h]
  refine Eq.trans (b := (some (.rshas (fld N 31 1) (fld N 18 7) (fld N 11 7) (fld N 0 6)) : Option Instr)) ?_ ?_
  · unfold decodeRep
    rw [q0] <;> rfl
  rfl

theorem rshas (w : BitVec 1) (d : BitVec 7) (a : BitVec 7) (k : BitVec 6) : Statement (.rshas w d a k) := by
  obtain ⟨bound, h, q0, f0, f1, f2, f3⟩ := form4 1912602944 w d a k (by decide) (by decide) (by decide) (by decide) (by decide)
  exact worded (N := put w 31 (put d 18 (put a 11 (put k 0 (1912602944))))) rfl bound (by rw [read_rshas (h.trans (by decide)) (q0.trans (by decide)), f0, f1, f2, f3])

theorem read_rmean {N : Nat} (h : N / 2 ^ 25 % 64 = 57) (q0 : N / 2 ^ 6 % 32 = 6) (q1 : N / 2 ^ 0 % 64 = 0) :
    parse N = some (Instr.rmean (fld N 31 1) (fld N 18 7) (fld N 11 7)) := by
  rw [major57 h]
  refine Eq.trans (b := (if N / 2 ^ 0 % 64 = 0 then some (.rmean (fld N 31 1) (fld N 18 7) (fld N 11 7)) else none : Option Instr)) ?_ ?_
  · unfold decodeRep
    rw [q0] <;> rfl
  rw [if_pos q1]

theorem rmean (w : BitVec 1) (d : BitVec 7) (a : BitVec 7) : Statement (.rmean w d a) := by
  obtain ⟨bound, h, q0, q1, f0, f1, f2⟩ := form32 1912603008 w d a (by decide) (by decide) (by decide) (by decide)
  exact worded (N := put w 31 (put d 18 (put a 11 (1912603008)))) rfl bound (by rw [read_rmean (h.trans (by decide)) (q0.trans (by decide)) (q1.trans (by decide)), f0, f1, f2])

theorem read_rfront {N : Nat} (h : N / 2 ^ 25 % 64 = 57) (q0 : N / 2 ^ 6 % 32 = 7) :
    parse N = some (Instr.rfront (fld N 31 1) (fld N 18 7) (fld N 11 7) (fld N 0 6)) := by
  rw [major57 h]
  refine Eq.trans (b := (some (.rfront (fld N 31 1) (fld N 18 7) (fld N 11 7) (fld N 0 6)) : Option Instr)) ?_ ?_
  · unfold decodeRep
    rw [q0] <;> rfl
  rfl

theorem rfront (w : BitVec 1) (d : BitVec 7) (a : BitVec 7) (c : BitVec 6) : Statement (.rfront w d a c) := by
  obtain ⟨bound, h, q0, f0, f1, f2, f3⟩ := form4 1912603072 w d a c (by decide) (by decide) (by decide) (by decide) (by decide)
  exact worded (N := put w 31 (put d 18 (put a 11 (put c 0 (1912603072))))) rfl bound (by rw [read_rfront (h.trans (by decide)) (q0.trans (by decide)), f0, f1, f2, f3])

theorem read_rwaitf {N : Nat} (h : N / 2 ^ 25 % 64 = 57) (q0 : N / 2 ^ 6 % 32 = 8) :
    parse N = some (Instr.rwaitf (fld N 31 1) (fld N 18 7) (fld N 11 7) (fld N 0 6)) := by
  rw [major57 h]
  refine Eq.trans (b := (some (.rwaitf (fld N 31 1) (fld N 18 7) (fld N 11 7) (fld N 0 6)) : Option Instr)) ?_ ?_
  · unfold decodeRep
    rw [q0] <;> rfl
  rfl

theorem rwaitf (w : BitVec 1) (d : BitVec 7) (a : BitVec 7) (c : BitVec 6) : Statement (.rwaitf w d a c) := by
  obtain ⟨bound, h, q0, f0, f1, f2, f3⟩ := form4 1912603136 w d a c (by decide) (by decide) (by decide) (by decide) (by decide)
  exact worded (N := put w 31 (put d 18 (put a 11 (put c 0 (1912603136))))) rfl bound (by rw [read_rwaitf (h.trans (by decide)) (q0.trans (by decide)), f0, f1, f2, f3])

theorem read_hlcrd {N : Nat} (h : N / 2 ^ 25 % 64 = 57) (q0 : N / 2 ^ 6 % 32 = 9) (q1 : N / 2 ^ 0 % 64 = 0) (q2 : N / 2 ^ 11 % 128 = 0) :
    parse N = some (Instr.hlcrd (fld N 31 1) (fld N 18 7)) := by
  rw [major57 h]
  refine Eq.trans (b := (if N / 2 ^ 0 % 64 = 0 ∧ N / 2 ^ 11 % 128 = 0 then some (.hlcrd (fld N 31 1) (fld N 18 7)) else none : Option Instr)) ?_ ?_
  · unfold decodeRep
    rw [q0] <;> rfl
  rw [if_pos ⟨q1, q2⟩]

theorem hlcrd (w : BitVec 1) (d : BitVec 7) : Statement (.hlcrd w d) := by
  obtain ⟨bound, h, q0, q1, q2, f0, f1⟩ := form46 1912603200 w d (by decide) (by decide) (by decide)
  exact worded (N := put w 31 (put d 18 (1912603200))) rfl bound (by rw [read_hlcrd (h.trans (by decide)) (q0.trans (by decide)) (q1.trans (by decide)) (q2.trans (by decide)), f0, f1])

theorem read_rship {N : Nat} (h : N / 2 ^ 25 % 64 = 57) (q0 : N / 2 ^ 6 % 32 = 10) (q1 : N / 2 ^ 0 % 64 = 0) (q2 : N / 2 ^ 18 % 128 = 0) :
    parse N = some (Instr.rship (fld N 31 1) (fld N 11 7)) := by
  rw [major57 h]
  refine Eq.trans (b := (if N / 2 ^ 0 % 64 = 0 ∧ N / 2 ^ 18 % 128 = 0 then some (.rship (fld N 31 1) (fld N 11 7)) else none : Option Instr)) ?_ ?_
  · unfold decodeRep
    rw [q0] <;> rfl
  rw [if_pos ⟨q1, q2⟩]

theorem rship (w : BitVec 1) (a : BitVec 7) : Statement (.rship w a) := by
  obtain ⟨bound, h, q0, q1, q2, f0, f1⟩ := form33 1912603264 w a (by decide) (by decide) (by decide)
  exact worded (N := put w 31 (put a 11 (1912603264))) rfl bound (by rw [read_rship (h.trans (by decide)) (q0.trans (by decide)) (q1.trans (by decide)) (q2.trans (by decide)), f0, f1])

theorem read_rstat {N : Nat} (h : N / 2 ^ 25 % 64 = 57) (q0 : N / 2 ^ 6 % 32 = 11) (q1 : N / 2 ^ 3 % 8 = 0) :
    parse N = some (Instr.rstat (fld N 31 1) (fld N 18 7) (fld N 11 7) (fld N 0 3)) := by
  rw [major57 h]
  refine Eq.trans (b := (if N / 2 ^ 3 % 8 = 0 then some (.rstat (fld N 31 1) (fld N 18 7) (fld N 11 7) (fld N 0 3)) else none : Option Instr)) ?_ ?_
  · unfold decodeRep
    rw [q0] <;> rfl
  rw [if_pos q1]

theorem rstat (w : BitVec 1) (d : BitVec 7) (a : BitVec 7) (s : BitVec 3) : Statement (.rstat w d a s) := by
  obtain ⟨bound, h, q0, q1, f0, f1, f2, f3⟩ := form41 1912603328 w d a s (by decide) (by decide) (by decide) (by decide) (by decide)
  exact worded (N := put w 31 (put d 18 (put a 11 (put s 0 (1912603328))))) rfl bound (by rw [read_rstat (h.trans (by decide)) (q0.trans (by decide)) (q1.trans (by decide)), f0, f1, f2, f3])

theorem read_mbsend {N : Nat} (h : N / 2 ^ 25 % 64 = 58) (q0 : N / 2 ^ 6 % 32 = 0) (q1 : N / 2 ^ 0 % 64 = 0) :
    parse N = some (Instr.mbsend (fld N 31 1) (fld N 18 7) (fld N 11 7)) := by
  rw [major58 h]
  refine Eq.trans (b := (if N / 2 ^ 0 % 64 = 0 then some (.mbsend (fld N 31 1) (fld N 18 7) (fld N 11 7)) else none : Option Instr)) ?_ ?_
  · unfold decodeFab
    rw [q0] <;> rfl
  rw [if_pos q1]

theorem mbsend (w : BitVec 1) (d : BitVec 7) (a : BitVec 7) : Statement (.mbsend w d a) := by
  obtain ⟨bound, h, q0, q1, f0, f1, f2⟩ := form32 1946157056 w d a (by decide) (by decide) (by decide) (by decide)
  exact worded (N := put w 31 (put d 18 (put a 11 (1946157056)))) rfl bound (by rw [read_mbsend (h.trans (by decide)) (q0.trans (by decide)) (q1.trans (by decide)), f0, f1, f2])

theorem read_mbrecv {N : Nat} (h : N / 2 ^ 25 % 64 = 58) (q0 : N / 2 ^ 6 % 32 = 1) (q1 : N / 2 ^ 0 % 64 = 0) :
    parse N = some (Instr.mbrecv (fld N 31 1) (fld N 18 7) (fld N 11 7)) := by
  rw [major58 h]
  refine Eq.trans (b := (if N / 2 ^ 0 % 64 = 0 then some (.mbrecv (fld N 31 1) (fld N 18 7) (fld N 11 7)) else none : Option Instr)) ?_ ?_
  · unfold decodeFab
    rw [q0] <;> rfl
  rw [if_pos q1]

theorem mbrecv (w : BitVec 1) (d : BitVec 7) (a : BitVec 7) : Statement (.mbrecv w d a) := by
  obtain ⟨bound, h, q0, q1, f0, f1, f2⟩ := form32 1946157120 w d a (by decide) (by decide) (by decide) (by decide)
  exact worded (N := put w 31 (put d 18 (put a 11 (1946157120)))) rfl bound (by rw [read_mbrecv (h.trans (by decide)) (q0.trans (by decide)) (q1.trans (by decide)), f0, f1, f2])

theorem read_mbpoll {N : Nat} (h : N / 2 ^ 25 % 64 = 58) (q0 : N / 2 ^ 6 % 32 = 2) (q1 : N / 2 ^ 0 % 64 = 0) :
    parse N = some (Instr.mbpoll (fld N 31 1) (fld N 18 7) (fld N 11 7)) := by
  rw [major58 h]
  refine Eq.trans (b := (if N / 2 ^ 0 % 64 = 0 then some (.mbpoll (fld N 31 1) (fld N 18 7) (fld N 11 7)) else none : Option Instr)) ?_ ?_
  · unfold decodeFab
    rw [q0] <;> rfl
  rw [if_pos q1]

theorem mbpoll (w : BitVec 1) (d : BitVec 7) (a : BitVec 7) : Statement (.mbpoll w d a) := by
  obtain ⟨bound, h, q0, q1, f0, f1, f2⟩ := form32 1946157184 w d a (by decide) (by decide) (by decide) (by decide)
  exact worded (N := put w 31 (put d 18 (put a 11 (1946157184)))) rfl bound (by rw [read_mbpoll (h.trans (by decide)) (q0.trans (by decide)) (q1.trans (by decide)), f0, f1, f2])

theorem read_trputAdd {N : Nat} (h : N / 2 ^ 25 % 64 = 58) (q0 : N / 2 ^ 6 % 32 = 3) (q1 : N / 2 ^ 0 % 8 = 0) (q2 : N / 2 ^ 5 % 2 = 0) (q3 : N / 2 ^ 16 % 512 = 0) :
    parse N = some (Instr.trputAdd (fld N 31 1) (fld N 11 5) (fld N 3 2)) := by
  rw [major58 h]
  refine Eq.trans (b := (if N / 2 ^ 0 % 8 = 0 ∧ N / 2 ^ 5 % 2 = 0 ∧ N / 2 ^ 16 % 512 = 0 then some (.trputAdd (fld N 31 1) (fld N 11 5) (fld N 3 2)) else if N / 2 ^ 0 % 8 = 1 ∧ N / 2 ^ 5 % 2 = 0 ∧ N / 2 ^ 16 % 512 = 0 then some (.trputMin (fld N 31 1) (fld N 11 5) (fld N 3 2)) else if N / 2 ^ 0 % 8 = 2 ∧ N / 2 ^ 5 % 2 = 0 ∧ N / 2 ^ 16 % 512 = 0 then some (.trputMax (fld N 31 1) (fld N 11 5) (fld N 3 2)) else if N / 2 ^ 0 % 64 = 3 ∧ N / 2 ^ 16 % 512 = 0 then some (.trputAnd (fld N 31 1) (fld N 11 5)) else if N / 2 ^ 0 % 64 = 4 ∧ N / 2 ^ 16 % 512 = 0 then some (.trputOr (fld N 31 1) (fld N 11 5)) else if N / 2 ^ 0 % 64 = 5 ∧ N / 2 ^ 16 % 512 = 0 then some (.trputXor (fld N 31 1) (fld N 11 5)) else if N / 2 ^ 0 % 8 = 6 ∧ N / 2 ^ 5 % 2 = 0 ∧ N / 2 ^ 16 % 512 = 0 then some (.trputBcast (fld N 31 1) (fld N 11 5) (fld N 3 2)) else if N / 2 ^ 0 % 64 = 7 ∧ N / 2 ^ 16 % 512 = 0 then some (.trputBarrier (fld N 31 1) (fld N 11 5)) else none : Option Instr)) ?_ ?_
  · unfold decodeFab
    rw [q0] <;> rfl
  rw [if_pos ⟨q1, q2, q3⟩]

theorem trputAdd (w : BitVec 1) (v : BitVec 5) (t : BitVec 2) : Statement (.trputAdd w v t) := by
  obtain ⟨bound, h, q0, q1, q2, q3, f0, f1, f2⟩ := form47 1946157248 w v t (by decide) (by decide) (by decide) (by decide)
  exact worded (N := put w 31 (put v 11 (put t 3 (1946157248)))) rfl bound (by rw [read_trputAdd (h.trans (by decide)) (q0.trans (by decide)) (q1.trans (by decide)) (q2.trans (by decide)) (q3.trans (by decide)), f0, f1, f2])

theorem read_trputMin {N : Nat} (h : N / 2 ^ 25 % 64 = 58) (q0 : N / 2 ^ 6 % 32 = 3) (q1 : N / 2 ^ 0 % 8 = 1) (q2 : N / 2 ^ 5 % 2 = 0) (q3 : N / 2 ^ 16 % 512 = 0) :
    parse N = some (Instr.trputMin (fld N 31 1) (fld N 11 5) (fld N 3 2)) := by
  rw [major58 h]
  refine Eq.trans (b := (if N / 2 ^ 0 % 8 = 0 ∧ N / 2 ^ 5 % 2 = 0 ∧ N / 2 ^ 16 % 512 = 0 then some (.trputAdd (fld N 31 1) (fld N 11 5) (fld N 3 2)) else if N / 2 ^ 0 % 8 = 1 ∧ N / 2 ^ 5 % 2 = 0 ∧ N / 2 ^ 16 % 512 = 0 then some (.trputMin (fld N 31 1) (fld N 11 5) (fld N 3 2)) else if N / 2 ^ 0 % 8 = 2 ∧ N / 2 ^ 5 % 2 = 0 ∧ N / 2 ^ 16 % 512 = 0 then some (.trputMax (fld N 31 1) (fld N 11 5) (fld N 3 2)) else if N / 2 ^ 0 % 64 = 3 ∧ N / 2 ^ 16 % 512 = 0 then some (.trputAnd (fld N 31 1) (fld N 11 5)) else if N / 2 ^ 0 % 64 = 4 ∧ N / 2 ^ 16 % 512 = 0 then some (.trputOr (fld N 31 1) (fld N 11 5)) else if N / 2 ^ 0 % 64 = 5 ∧ N / 2 ^ 16 % 512 = 0 then some (.trputXor (fld N 31 1) (fld N 11 5)) else if N / 2 ^ 0 % 8 = 6 ∧ N / 2 ^ 5 % 2 = 0 ∧ N / 2 ^ 16 % 512 = 0 then some (.trputBcast (fld N 31 1) (fld N 11 5) (fld N 3 2)) else if N / 2 ^ 0 % 64 = 7 ∧ N / 2 ^ 16 % 512 = 0 then some (.trputBarrier (fld N 31 1) (fld N 11 5)) else none : Option Instr)) ?_ ?_
  · unfold decodeFab
    rw [q0] <;> rfl
  rw [if_neg (by rw [q1]; exact fun e => absurd e.1 (by decide))]
  rw [if_pos ⟨q1, q2, q3⟩]

theorem trputMin (w : BitVec 1) (v : BitVec 5) (t : BitVec 2) : Statement (.trputMin w v t) := by
  obtain ⟨bound, h, q0, q1, q2, q3, f0, f1, f2⟩ := form47 1946157249 w v t (by decide) (by decide) (by decide) (by decide)
  exact worded (N := put w 31 (put v 11 (put t 3 (1946157249)))) rfl bound (by rw [read_trputMin (h.trans (by decide)) (q0.trans (by decide)) (q1.trans (by decide)) (q2.trans (by decide)) (q3.trans (by decide)), f0, f1, f2])

theorem read_trputMax {N : Nat} (h : N / 2 ^ 25 % 64 = 58) (q0 : N / 2 ^ 6 % 32 = 3) (q1 : N / 2 ^ 0 % 8 = 2) (q2 : N / 2 ^ 5 % 2 = 0) (q3 : N / 2 ^ 16 % 512 = 0) :
    parse N = some (Instr.trputMax (fld N 31 1) (fld N 11 5) (fld N 3 2)) := by
  rw [major58 h]
  refine Eq.trans (b := (if N / 2 ^ 0 % 8 = 0 ∧ N / 2 ^ 5 % 2 = 0 ∧ N / 2 ^ 16 % 512 = 0 then some (.trputAdd (fld N 31 1) (fld N 11 5) (fld N 3 2)) else if N / 2 ^ 0 % 8 = 1 ∧ N / 2 ^ 5 % 2 = 0 ∧ N / 2 ^ 16 % 512 = 0 then some (.trputMin (fld N 31 1) (fld N 11 5) (fld N 3 2)) else if N / 2 ^ 0 % 8 = 2 ∧ N / 2 ^ 5 % 2 = 0 ∧ N / 2 ^ 16 % 512 = 0 then some (.trputMax (fld N 31 1) (fld N 11 5) (fld N 3 2)) else if N / 2 ^ 0 % 64 = 3 ∧ N / 2 ^ 16 % 512 = 0 then some (.trputAnd (fld N 31 1) (fld N 11 5)) else if N / 2 ^ 0 % 64 = 4 ∧ N / 2 ^ 16 % 512 = 0 then some (.trputOr (fld N 31 1) (fld N 11 5)) else if N / 2 ^ 0 % 64 = 5 ∧ N / 2 ^ 16 % 512 = 0 then some (.trputXor (fld N 31 1) (fld N 11 5)) else if N / 2 ^ 0 % 8 = 6 ∧ N / 2 ^ 5 % 2 = 0 ∧ N / 2 ^ 16 % 512 = 0 then some (.trputBcast (fld N 31 1) (fld N 11 5) (fld N 3 2)) else if N / 2 ^ 0 % 64 = 7 ∧ N / 2 ^ 16 % 512 = 0 then some (.trputBarrier (fld N 31 1) (fld N 11 5)) else none : Option Instr)) ?_ ?_
  · unfold decodeFab
    rw [q0] <;> rfl
  rw [if_neg (by rw [q1]; exact fun e => absurd e.1 (by decide))]
  rw [if_neg (by rw [q1]; exact fun e => absurd e.1 (by decide))]
  rw [if_pos ⟨q1, q2, q3⟩]

theorem trputMax (w : BitVec 1) (v : BitVec 5) (t : BitVec 2) : Statement (.trputMax w v t) := by
  obtain ⟨bound, h, q0, q1, q2, q3, f0, f1, f2⟩ := form47 1946157250 w v t (by decide) (by decide) (by decide) (by decide)
  exact worded (N := put w 31 (put v 11 (put t 3 (1946157250)))) rfl bound (by rw [read_trputMax (h.trans (by decide)) (q0.trans (by decide)) (q1.trans (by decide)) (q2.trans (by decide)) (q3.trans (by decide)), f0, f1, f2])

theorem read_trputAnd {N : Nat} (h : N / 2 ^ 25 % 64 = 58) (q0 : N / 2 ^ 6 % 32 = 3) (q1 : N / 2 ^ 0 % 8 = 3) (_q2 : N / 2 ^ 5 % 2 = 0) (q3 : N / 2 ^ 16 % 512 = 0) (q4 : N / 2 ^ 0 % 64 = 3) :
    parse N = some (Instr.trputAnd (fld N 31 1) (fld N 11 5)) := by
  rw [major58 h]
  refine Eq.trans (b := (if N / 2 ^ 0 % 8 = 0 ∧ N / 2 ^ 5 % 2 = 0 ∧ N / 2 ^ 16 % 512 = 0 then some (.trputAdd (fld N 31 1) (fld N 11 5) (fld N 3 2)) else if N / 2 ^ 0 % 8 = 1 ∧ N / 2 ^ 5 % 2 = 0 ∧ N / 2 ^ 16 % 512 = 0 then some (.trputMin (fld N 31 1) (fld N 11 5) (fld N 3 2)) else if N / 2 ^ 0 % 8 = 2 ∧ N / 2 ^ 5 % 2 = 0 ∧ N / 2 ^ 16 % 512 = 0 then some (.trputMax (fld N 31 1) (fld N 11 5) (fld N 3 2)) else if N / 2 ^ 0 % 64 = 3 ∧ N / 2 ^ 16 % 512 = 0 then some (.trputAnd (fld N 31 1) (fld N 11 5)) else if N / 2 ^ 0 % 64 = 4 ∧ N / 2 ^ 16 % 512 = 0 then some (.trputOr (fld N 31 1) (fld N 11 5)) else if N / 2 ^ 0 % 64 = 5 ∧ N / 2 ^ 16 % 512 = 0 then some (.trputXor (fld N 31 1) (fld N 11 5)) else if N / 2 ^ 0 % 8 = 6 ∧ N / 2 ^ 5 % 2 = 0 ∧ N / 2 ^ 16 % 512 = 0 then some (.trputBcast (fld N 31 1) (fld N 11 5) (fld N 3 2)) else if N / 2 ^ 0 % 64 = 7 ∧ N / 2 ^ 16 % 512 = 0 then some (.trputBarrier (fld N 31 1) (fld N 11 5)) else none : Option Instr)) ?_ ?_
  · unfold decodeFab
    rw [q0] <;> rfl
  rw [if_neg (by rw [q1]; exact fun e => absurd e.1 (by decide))]
  rw [if_neg (by rw [q1]; exact fun e => absurd e.1 (by decide))]
  rw [if_neg (by rw [q1]; exact fun e => absurd e.1 (by decide))]
  rw [if_pos ⟨q4, q3⟩]

theorem trputAnd (w : BitVec 1) (v : BitVec 5) : Statement (.trputAnd w v) := by
  obtain ⟨bound, h, q0, q1, q2, q3, q4, f0, f1⟩ := form48 1946157251 w v (by decide) (by decide) (by decide)
  exact worded (N := put w 31 (put v 11 (1946157251))) rfl bound (by rw [read_trputAnd (h.trans (by decide)) (q0.trans (by decide)) (q1.trans (by decide)) (q2.trans (by decide)) (q3.trans (by decide)) (q4.trans (by decide)), f0, f1])

theorem read_trputOr {N : Nat} (h : N / 2 ^ 25 % 64 = 58) (q0 : N / 2 ^ 6 % 32 = 3) (q1 : N / 2 ^ 0 % 8 = 4) (_q2 : N / 2 ^ 5 % 2 = 0) (q3 : N / 2 ^ 16 % 512 = 0) (q4 : N / 2 ^ 0 % 64 = 4) :
    parse N = some (Instr.trputOr (fld N 31 1) (fld N 11 5)) := by
  rw [major58 h]
  refine Eq.trans (b := (if N / 2 ^ 0 % 8 = 0 ∧ N / 2 ^ 5 % 2 = 0 ∧ N / 2 ^ 16 % 512 = 0 then some (.trputAdd (fld N 31 1) (fld N 11 5) (fld N 3 2)) else if N / 2 ^ 0 % 8 = 1 ∧ N / 2 ^ 5 % 2 = 0 ∧ N / 2 ^ 16 % 512 = 0 then some (.trputMin (fld N 31 1) (fld N 11 5) (fld N 3 2)) else if N / 2 ^ 0 % 8 = 2 ∧ N / 2 ^ 5 % 2 = 0 ∧ N / 2 ^ 16 % 512 = 0 then some (.trputMax (fld N 31 1) (fld N 11 5) (fld N 3 2)) else if N / 2 ^ 0 % 64 = 3 ∧ N / 2 ^ 16 % 512 = 0 then some (.trputAnd (fld N 31 1) (fld N 11 5)) else if N / 2 ^ 0 % 64 = 4 ∧ N / 2 ^ 16 % 512 = 0 then some (.trputOr (fld N 31 1) (fld N 11 5)) else if N / 2 ^ 0 % 64 = 5 ∧ N / 2 ^ 16 % 512 = 0 then some (.trputXor (fld N 31 1) (fld N 11 5)) else if N / 2 ^ 0 % 8 = 6 ∧ N / 2 ^ 5 % 2 = 0 ∧ N / 2 ^ 16 % 512 = 0 then some (.trputBcast (fld N 31 1) (fld N 11 5) (fld N 3 2)) else if N / 2 ^ 0 % 64 = 7 ∧ N / 2 ^ 16 % 512 = 0 then some (.trputBarrier (fld N 31 1) (fld N 11 5)) else none : Option Instr)) ?_ ?_
  · unfold decodeFab
    rw [q0] <;> rfl
  rw [if_neg (by rw [q1]; exact fun e => absurd e.1 (by decide))]
  rw [if_neg (by rw [q1]; exact fun e => absurd e.1 (by decide))]
  rw [if_neg (by rw [q1]; exact fun e => absurd e.1 (by decide))]
  rw [if_neg (by rw [q4]; exact fun e => absurd e.1 (by decide))]
  rw [if_pos ⟨q4, q3⟩]

theorem trputOr (w : BitVec 1) (v : BitVec 5) : Statement (.trputOr w v) := by
  obtain ⟨bound, h, q0, q1, q2, q3, q4, f0, f1⟩ := form48 1946157252 w v (by decide) (by decide) (by decide)
  exact worded (N := put w 31 (put v 11 (1946157252))) rfl bound (by rw [read_trputOr (h.trans (by decide)) (q0.trans (by decide)) (q1.trans (by decide)) (q2.trans (by decide)) (q3.trans (by decide)) (q4.trans (by decide)), f0, f1])

theorem read_trputXor {N : Nat} (h : N / 2 ^ 25 % 64 = 58) (q0 : N / 2 ^ 6 % 32 = 3) (q1 : N / 2 ^ 0 % 8 = 5) (_q2 : N / 2 ^ 5 % 2 = 0) (q3 : N / 2 ^ 16 % 512 = 0) (q4 : N / 2 ^ 0 % 64 = 5) :
    parse N = some (Instr.trputXor (fld N 31 1) (fld N 11 5)) := by
  rw [major58 h]
  refine Eq.trans (b := (if N / 2 ^ 0 % 8 = 0 ∧ N / 2 ^ 5 % 2 = 0 ∧ N / 2 ^ 16 % 512 = 0 then some (.trputAdd (fld N 31 1) (fld N 11 5) (fld N 3 2)) else if N / 2 ^ 0 % 8 = 1 ∧ N / 2 ^ 5 % 2 = 0 ∧ N / 2 ^ 16 % 512 = 0 then some (.trputMin (fld N 31 1) (fld N 11 5) (fld N 3 2)) else if N / 2 ^ 0 % 8 = 2 ∧ N / 2 ^ 5 % 2 = 0 ∧ N / 2 ^ 16 % 512 = 0 then some (.trputMax (fld N 31 1) (fld N 11 5) (fld N 3 2)) else if N / 2 ^ 0 % 64 = 3 ∧ N / 2 ^ 16 % 512 = 0 then some (.trputAnd (fld N 31 1) (fld N 11 5)) else if N / 2 ^ 0 % 64 = 4 ∧ N / 2 ^ 16 % 512 = 0 then some (.trputOr (fld N 31 1) (fld N 11 5)) else if N / 2 ^ 0 % 64 = 5 ∧ N / 2 ^ 16 % 512 = 0 then some (.trputXor (fld N 31 1) (fld N 11 5)) else if N / 2 ^ 0 % 8 = 6 ∧ N / 2 ^ 5 % 2 = 0 ∧ N / 2 ^ 16 % 512 = 0 then some (.trputBcast (fld N 31 1) (fld N 11 5) (fld N 3 2)) else if N / 2 ^ 0 % 64 = 7 ∧ N / 2 ^ 16 % 512 = 0 then some (.trputBarrier (fld N 31 1) (fld N 11 5)) else none : Option Instr)) ?_ ?_
  · unfold decodeFab
    rw [q0] <;> rfl
  rw [if_neg (by rw [q1]; exact fun e => absurd e.1 (by decide))]
  rw [if_neg (by rw [q1]; exact fun e => absurd e.1 (by decide))]
  rw [if_neg (by rw [q1]; exact fun e => absurd e.1 (by decide))]
  rw [if_neg (by rw [q4]; exact fun e => absurd e.1 (by decide))]
  rw [if_neg (by rw [q4]; exact fun e => absurd e.1 (by decide))]
  rw [if_pos ⟨q4, q3⟩]

theorem trputXor (w : BitVec 1) (v : BitVec 5) : Statement (.trputXor w v) := by
  obtain ⟨bound, h, q0, q1, q2, q3, q4, f0, f1⟩ := form48 1946157253 w v (by decide) (by decide) (by decide)
  exact worded (N := put w 31 (put v 11 (1946157253))) rfl bound (by rw [read_trputXor (h.trans (by decide)) (q0.trans (by decide)) (q1.trans (by decide)) (q2.trans (by decide)) (q3.trans (by decide)) (q4.trans (by decide)), f0, f1])

theorem read_trputBcast {N : Nat} (h : N / 2 ^ 25 % 64 = 58) (q0 : N / 2 ^ 6 % 32 = 3) (q1 : N / 2 ^ 0 % 8 = 6) (q2 : N / 2 ^ 5 % 2 = 0) (q3 : N / 2 ^ 16 % 512 = 0) :
    parse N = some (Instr.trputBcast (fld N 31 1) (fld N 11 5) (fld N 3 2)) := by
  rw [major58 h]
  refine Eq.trans (b := (if N / 2 ^ 0 % 8 = 0 ∧ N / 2 ^ 5 % 2 = 0 ∧ N / 2 ^ 16 % 512 = 0 then some (.trputAdd (fld N 31 1) (fld N 11 5) (fld N 3 2)) else if N / 2 ^ 0 % 8 = 1 ∧ N / 2 ^ 5 % 2 = 0 ∧ N / 2 ^ 16 % 512 = 0 then some (.trputMin (fld N 31 1) (fld N 11 5) (fld N 3 2)) else if N / 2 ^ 0 % 8 = 2 ∧ N / 2 ^ 5 % 2 = 0 ∧ N / 2 ^ 16 % 512 = 0 then some (.trputMax (fld N 31 1) (fld N 11 5) (fld N 3 2)) else if N / 2 ^ 0 % 64 = 3 ∧ N / 2 ^ 16 % 512 = 0 then some (.trputAnd (fld N 31 1) (fld N 11 5)) else if N / 2 ^ 0 % 64 = 4 ∧ N / 2 ^ 16 % 512 = 0 then some (.trputOr (fld N 31 1) (fld N 11 5)) else if N / 2 ^ 0 % 64 = 5 ∧ N / 2 ^ 16 % 512 = 0 then some (.trputXor (fld N 31 1) (fld N 11 5)) else if N / 2 ^ 0 % 8 = 6 ∧ N / 2 ^ 5 % 2 = 0 ∧ N / 2 ^ 16 % 512 = 0 then some (.trputBcast (fld N 31 1) (fld N 11 5) (fld N 3 2)) else if N / 2 ^ 0 % 64 = 7 ∧ N / 2 ^ 16 % 512 = 0 then some (.trputBarrier (fld N 31 1) (fld N 11 5)) else none : Option Instr)) ?_ ?_
  · unfold decodeFab
    rw [q0] <;> rfl
  rw [if_neg (by rw [q1]; exact fun e => absurd e.1 (by decide))]
  rw [if_neg (by rw [q1]; exact fun e => absurd e.1 (by decide))]
  rw [if_neg (by rw [q1]; exact fun e => absurd e.1 (by decide))]
  rw [if_neg (fun e => by have e1 := e.1; have e2 := q1; omega)]
  rw [if_neg (fun e => by have e1 := e.1; have e2 := q1; omega)]
  rw [if_neg (fun e => by have e1 := e.1; have e2 := q1; omega)]
  rw [if_pos ⟨q1, q2, q3⟩]

theorem trputBcast (w : BitVec 1) (v : BitVec 5) (t : BitVec 2) : Statement (.trputBcast w v t) := by
  obtain ⟨bound, h, q0, q1, q2, q3, f0, f1, f2⟩ := form47 1946157254 w v t (by decide) (by decide) (by decide) (by decide)
  exact worded (N := put w 31 (put v 11 (put t 3 (1946157254)))) rfl bound (by rw [read_trputBcast (h.trans (by decide)) (q0.trans (by decide)) (q1.trans (by decide)) (q2.trans (by decide)) (q3.trans (by decide)), f0, f1, f2])

theorem read_trputBarrier {N : Nat} (h : N / 2 ^ 25 % 64 = 58) (q0 : N / 2 ^ 6 % 32 = 3) (q1 : N / 2 ^ 0 % 8 = 7) (_q2 : N / 2 ^ 5 % 2 = 0) (q3 : N / 2 ^ 16 % 512 = 0) (q4 : N / 2 ^ 0 % 64 = 7) :
    parse N = some (Instr.trputBarrier (fld N 31 1) (fld N 11 5)) := by
  rw [major58 h]
  refine Eq.trans (b := (if N / 2 ^ 0 % 8 = 0 ∧ N / 2 ^ 5 % 2 = 0 ∧ N / 2 ^ 16 % 512 = 0 then some (.trputAdd (fld N 31 1) (fld N 11 5) (fld N 3 2)) else if N / 2 ^ 0 % 8 = 1 ∧ N / 2 ^ 5 % 2 = 0 ∧ N / 2 ^ 16 % 512 = 0 then some (.trputMin (fld N 31 1) (fld N 11 5) (fld N 3 2)) else if N / 2 ^ 0 % 8 = 2 ∧ N / 2 ^ 5 % 2 = 0 ∧ N / 2 ^ 16 % 512 = 0 then some (.trputMax (fld N 31 1) (fld N 11 5) (fld N 3 2)) else if N / 2 ^ 0 % 64 = 3 ∧ N / 2 ^ 16 % 512 = 0 then some (.trputAnd (fld N 31 1) (fld N 11 5)) else if N / 2 ^ 0 % 64 = 4 ∧ N / 2 ^ 16 % 512 = 0 then some (.trputOr (fld N 31 1) (fld N 11 5)) else if N / 2 ^ 0 % 64 = 5 ∧ N / 2 ^ 16 % 512 = 0 then some (.trputXor (fld N 31 1) (fld N 11 5)) else if N / 2 ^ 0 % 8 = 6 ∧ N / 2 ^ 5 % 2 = 0 ∧ N / 2 ^ 16 % 512 = 0 then some (.trputBcast (fld N 31 1) (fld N 11 5) (fld N 3 2)) else if N / 2 ^ 0 % 64 = 7 ∧ N / 2 ^ 16 % 512 = 0 then some (.trputBarrier (fld N 31 1) (fld N 11 5)) else none : Option Instr)) ?_ ?_
  · unfold decodeFab
    rw [q0] <;> rfl
  rw [if_neg (by rw [q1]; exact fun e => absurd e.1 (by decide))]
  rw [if_neg (by rw [q1]; exact fun e => absurd e.1 (by decide))]
  rw [if_neg (by rw [q1]; exact fun e => absurd e.1 (by decide))]
  rw [if_neg (by rw [q4]; exact fun e => absurd e.1 (by decide))]
  rw [if_neg (by rw [q4]; exact fun e => absurd e.1 (by decide))]
  rw [if_neg (by rw [q4]; exact fun e => absurd e.1 (by decide))]
  rw [if_neg (by rw [q1]; exact fun e => absurd e.1 (by decide))]
  rw [if_pos ⟨q4, q3⟩]

theorem trputBarrier (w : BitVec 1) (v : BitVec 5) : Statement (.trputBarrier w v) := by
  obtain ⟨bound, h, q0, q1, q2, q3, q4, f0, f1⟩ := form48 1946157255 w v (by decide) (by decide) (by decide)
  exact worded (N := put w 31 (put v 11 (1946157255))) rfl bound (by rw [read_trputBarrier (h.trans (by decide)) (q0.trans (by decide)) (q1.trans (by decide)) (q2.trans (by decide)) (q3.trans (by decide)) (q4.trans (by decide)), f0, f1])

theorem read_trget {N : Nat} (h : N / 2 ^ 25 % 64 = 58) (q0 : N / 2 ^ 6 % 32 = 4) (q1 : N / 2 ^ 0 % 64 = 0) (q2 : N / 2 ^ 11 % 128 = 0) (q3 : N / 2 ^ 23 % 4 = 0) :
    parse N = some (Instr.trget (fld N 31 1) (fld N 18 5)) := by
  rw [major58 h]
  refine Eq.trans (b := (if N / 2 ^ 0 % 64 = 0 ∧ N / 2 ^ 11 % 128 = 0 ∧ N / 2 ^ 23 % 4 = 0 then some (.trget (fld N 31 1) (fld N 18 5)) else none : Option Instr)) ?_ ?_
  · unfold decodeFab
    rw [q0] <;> rfl
  rw [if_pos ⟨q1, q2, q3⟩]

theorem trget (w : BitVec 1) (v : BitVec 5) : Statement (.trget w v) := by
  obtain ⟨bound, h, q0, q1, q2, q3, f0, f1⟩ := form49 1946157312 w v (by decide) (by decide) (by decide)
  exact worded (N := put w 31 (put v 18 (1946157312))) rfl bound (by rw [read_trget (h.trans (by decide)) (q0.trans (by decide)) (q1.trans (by decide)) (q2.trans (by decide)) (q3.trans (by decide)), f0, f1])

theorem read_trap {N : Nat} (h : N / 2 ^ 25 % 64 = 60) (q0 : N / 2 ^ 6 % 32 = 0) (q1 : N / 2 ^ 11 % 16384 = 0) :
    parse N = some (Instr.trap (fld N 31 1) (fld N 0 6)) := by
  rw [major60 h]
  refine Eq.trans (b := (if N / 2 ^ 11 % 16384 = 0 then some (.trap (fld N 31 1) (fld N 0 6)) else none : Option Instr)) ?_ ?_
  · unfold decodeSys
    rw [q0] <;> rfl
  rw [if_pos q1]

theorem trap (w : BitVec 1) (c : BitVec 6) : Statement (.trap w c) := by
  obtain ⟨bound, h, q0, q1, f0, f1⟩ := form50 2013265920 w c (by decide) (by decide) (by decide)
  exact worded (N := put w 31 (put c 0 (2013265920))) rfl bound (by rw [read_trap (h.trans (by decide)) (q0.trans (by decide)) (q1.trans (by decide)), f0, f1])

theorem read_eret {N : Nat} (h : N / 2 ^ 25 % 64 = 60) (q0 : N / 2 ^ 6 % 32 = 1) (q1 : N / 2 ^ 0 % 64 = 0) (q2 : N / 2 ^ 11 % 16384 = 0) :
    parse N = some (Instr.eret (fld N 31 1)) := by
  rw [major60 h]
  refine Eq.trans (b := (if N / 2 ^ 0 % 64 = 0 ∧ N / 2 ^ 11 % 16384 = 0 then some (.eret (fld N 31 1)) else none : Option Instr)) ?_ ?_
  · unfold decodeSys
    rw [q0] <;> rfl
  rw [if_pos ⟨q1, q2⟩]

theorem eret (w : BitVec 1) : Statement (.eret w) := by
  obtain ⟨bound, h, q0, q1, q2, f0⟩ := form15 2013265984 w (by decide) (by decide)
  exact worded (N := put w 31 (2013265984)) rfl bound (by rw [read_eret (h.trans (by decide)) (q0.trans (by decide)) (q1.trans (by decide)) (q2.trans (by decide)), f0])

theorem read_uiret {N : Nat} (h : N / 2 ^ 25 % 64 = 60) (q0 : N / 2 ^ 6 % 32 = 2) (q1 : N / 2 ^ 0 % 64 = 0) (q2 : N / 2 ^ 11 % 16384 = 0) :
    parse N = some (Instr.uiret (fld N 31 1)) := by
  rw [major60 h]
  refine Eq.trans (b := (if N / 2 ^ 0 % 64 = 0 ∧ N / 2 ^ 11 % 16384 = 0 then some (.uiret (fld N 31 1)) else none : Option Instr)) ?_ ?_
  · unfold decodeSys
    rw [q0] <;> rfl
  rw [if_pos ⟨q1, q2⟩]

theorem uiret (w : BitVec 1) : Statement (.uiret w) := by
  obtain ⟨bound, h, q0, q1, q2, f0⟩ := form15 2013266048 w (by decide) (by decide)
  exact worded (N := put w 31 (2013266048)) rfl bound (by rw [read_uiret (h.trans (by decide)) (q0.trans (by decide)) (q1.trans (by decide)) (q2.trans (by decide)), f0])

theorem read_csrrd {N : Nat} (h : N / 2 ^ 25 % 64 = 60) (q0 : N / 2 ^ 6 % 32 = 3) (q1 : N / 2 ^ 17 % 2 = 0) :
    parse N = some (Instr.csrrd (fld N 31 1) (fld N 18 7) (fld N 11 6) (fld N 0 6)) := by
  rw [major60 h]
  refine Eq.trans (b := (if N / 2 ^ 17 % 2 = 0 then some (.csrrd (fld N 31 1) (fld N 18 7) (fld N 11 6) (fld N 0 6)) else none : Option Instr)) ?_ ?_
  · unfold decodeSys
    rw [q0] <;> rfl
  rw [if_pos q1]

theorem csrrd (w : BitVec 1) (d : BitVec 7) (c : BitVec 6) (n : BitVec 6) : Statement (.csrrd w d c n) := by
  obtain ⟨bound, h, q0, q1, f0, f1, f2, f3⟩ := form51 2013266112 w d c n (by decide) (by decide) (by decide) (by decide) (by decide)
  exact worded (N := put w 31 (put d 18 (put c 11 (put n 0 (2013266112))))) rfl bound (by rw [read_csrrd (h.trans (by decide)) (q0.trans (by decide)) (q1.trans (by decide)), f0, f1, f2, f3])

theorem read_csrwr {N : Nat} (h : N / 2 ^ 25 % 64 = 60) (q0 : N / 2 ^ 6 % 32 = 4) (q1 : N / 2 ^ 17 % 2 = 0) :
    parse N = some (Instr.csrwr (fld N 31 1) (fld N 18 7) (fld N 11 6) (fld N 0 6)) := by
  rw [major60 h]
  refine Eq.trans (b := (if N / 2 ^ 17 % 2 = 0 then some (.csrwr (fld N 31 1) (fld N 18 7) (fld N 11 6) (fld N 0 6)) else none : Option Instr)) ?_ ?_
  · unfold decodeSys
    rw [q0] <;> rfl
  rw [if_pos q1]

theorem csrwr (w : BitVec 1) (d : BitVec 7) (c : BitVec 6) (n : BitVec 6) : Statement (.csrwr w d c n) := by
  obtain ⟨bound, h, q0, q1, f0, f1, f2, f3⟩ := form51 2013266176 w d c n (by decide) (by decide) (by decide) (by decide) (by decide)
  exact worded (N := put w 31 (put d 18 (put c 11 (put n 0 (2013266176))))) rfl bound (by rw [read_csrwr (h.trans (by decide)) (q0.trans (by decide)) (q1.trans (by decide)), f0, f1, f2, f3])

theorem read_csrset {N : Nat} (h : N / 2 ^ 25 % 64 = 60) (q0 : N / 2 ^ 6 % 32 = 5) (q1 : N / 2 ^ 17 % 2 = 0) :
    parse N = some (Instr.csrset (fld N 31 1) (fld N 18 7) (fld N 11 6) (fld N 0 6)) := by
  rw [major60 h]
  refine Eq.trans (b := (if N / 2 ^ 17 % 2 = 0 then some (.csrset (fld N 31 1) (fld N 18 7) (fld N 11 6) (fld N 0 6)) else none : Option Instr)) ?_ ?_
  · unfold decodeSys
    rw [q0] <;> rfl
  rw [if_pos q1]

theorem csrset (w : BitVec 1) (d : BitVec 7) (c : BitVec 6) (n : BitVec 6) : Statement (.csrset w d c n) := by
  obtain ⟨bound, h, q0, q1, f0, f1, f2, f3⟩ := form51 2013266240 w d c n (by decide) (by decide) (by decide) (by decide) (by decide)
  exact worded (N := put w 31 (put d 18 (put c 11 (put n 0 (2013266240))))) rfl bound (by rw [read_csrset (h.trans (by decide)) (q0.trans (by decide)) (q1.trans (by decide)), f0, f1, f2, f3])

theorem read_csrclr {N : Nat} (h : N / 2 ^ 25 % 64 = 60) (q0 : N / 2 ^ 6 % 32 = 6) (q1 : N / 2 ^ 17 % 2 = 0) :
    parse N = some (Instr.csrclr (fld N 31 1) (fld N 18 7) (fld N 11 6) (fld N 0 6)) := by
  rw [major60 h]
  refine Eq.trans (b := (if N / 2 ^ 17 % 2 = 0 then some (.csrclr (fld N 31 1) (fld N 18 7) (fld N 11 6) (fld N 0 6)) else none : Option Instr)) ?_ ?_
  · unfold decodeSys
    rw [q0] <;> rfl
  rw [if_pos q1]

theorem csrclr (w : BitVec 1) (d : BitVec 7) (c : BitVec 6) (n : BitVec 6) : Statement (.csrclr w d c n) := by
  obtain ⟨bound, h, q0, q1, f0, f1, f2, f3⟩ := form51 2013266304 w d c n (by decide) (by decide) (by decide) (by decide) (by decide)
  exact worded (N := put w 31 (put d 18 (put c 11 (put n 0 (2013266304))))) rfl bound (by rw [read_csrclr (h.trans (by decide)) (q0.trans (by decide)) (q1.trans (by decide)), f0, f1, f2, f3])

theorem read_grd {N : Nat} (h : N / 2 ^ 25 % 64 = 60) (q0 : N / 2 ^ 6 % 32 = 7) (q1 : N / 2 ^ 5 % 2 = 0) (q2 : N / 2 ^ 11 % 128 = 0) :
    parse N = some (Instr.grd (fld N 31 1) (fld N 18 7) (fld N 0 5)) := by
  rw [major60 h]
  refine Eq.trans (b := (if N / 2 ^ 5 % 2 = 0 ∧ N / 2 ^ 11 % 128 = 0 then some (.grd (fld N 31 1) (fld N 18 7) (fld N 0 5)) else none : Option Instr)) ?_ ?_
  · unfold decodeSys
    rw [q0] <;> rfl
  rw [if_pos ⟨q1, q2⟩]

theorem grd (w : BitVec 1) (d : BitVec 7) (g : BitVec 5) : Statement (.grd w d g) := by
  obtain ⟨bound, h, q0, q1, q2, f0, f1, f2⟩ := form52 2013266368 w d g (by decide) (by decide) (by decide) (by decide)
  exact worded (N := put w 31 (put d 18 (put g 0 (2013266368)))) rfl bound (by rw [read_grd (h.trans (by decide)) (q0.trans (by decide)) (q1.trans (by decide)) (q2.trans (by decide)), f0, f1, f2])

theorem read_gwr {N : Nat} (h : N / 2 ^ 25 % 64 = 60) (q0 : N / 2 ^ 6 % 32 = 8) (q1 : N / 2 ^ 5 % 2 = 0) (q2 : N / 2 ^ 11 % 128 = 0) :
    parse N = some (Instr.gwr (fld N 31 1) (fld N 18 7) (fld N 0 5)) := by
  rw [major60 h]
  refine Eq.trans (b := (if N / 2 ^ 5 % 2 = 0 ∧ N / 2 ^ 11 % 128 = 0 then some (.gwr (fld N 31 1) (fld N 18 7) (fld N 0 5)) else none : Option Instr)) ?_ ?_
  · unfold decodeSys
    rw [q0] <;> rfl
  rw [if_pos ⟨q1, q2⟩]

theorem gwr (w : BitVec 1) (d : BitVec 7) (g : BitVec 5) : Statement (.gwr w d g) := by
  obtain ⟨bound, h, q0, q1, q2, f0, f1, f2⟩ := form52 2013266432 w d g (by decide) (by decide) (by decide) (by decide)
  exact worded (N := put w 31 (put d 18 (put g 0 (2013266432)))) rfl bound (by rw [read_gwr (h.trans (by decide)) (q0.trans (by decide)) (q1.trans (by decide)) (q2.trans (by decide)), f0, f1, f2])

theorem read_tlbinv {N : Nat} (h : N / 2 ^ 25 % 64 = 60) (q0 : N / 2 ^ 6 % 32 = 9) (q1 : N / 2 ^ 3 % 8 = 0) (q2 : N / 2 ^ 18 % 128 = 0) :
    parse N = some (Instr.tlbinv (fld N 31 1) (fld N 11 7) (fld N 0 3)) := by
  rw [major60 h]
  refine Eq.trans (b := (if N / 2 ^ 3 % 8 = 0 ∧ N / 2 ^ 18 % 128 = 0 then some (.tlbinv (fld N 31 1) (fld N 11 7) (fld N 0 3)) else if N / 2 ^ 3 % 8 = 1 ∧ N / 2 ^ 11 % 16384 = 0 then some (.tlbinvAll (fld N 31 1) (fld N 0 3)) else none : Option Instr)) ?_ ?_
  · unfold decodeSys
    rw [q0] <;> rfl
  rw [if_pos ⟨q1, q2⟩]

theorem tlbinv (w : BitVec 1) (a : BitVec 7) (s : BitVec 3) : Statement (.tlbinv w a s) := by
  obtain ⟨bound, h, q0, q1, q2, f0, f1, f2⟩ := form53 2013266496 w a s (by decide) (by decide) (by decide) (by decide)
  exact worded (N := put w 31 (put a 11 (put s 0 (2013266496)))) rfl bound (by rw [read_tlbinv (h.trans (by decide)) (q0.trans (by decide)) (q1.trans (by decide)) (q2.trans (by decide)), f0, f1, f2])

theorem read_tlbinvAll {N : Nat} (h : N / 2 ^ 25 % 64 = 60) (q0 : N / 2 ^ 6 % 32 = 9) (q1 : N / 2 ^ 3 % 8 = 1) (_q2 : N / 2 ^ 18 % 128 = 0) (q3 : N / 2 ^ 11 % 16384 = 0) :
    parse N = some (Instr.tlbinvAll (fld N 31 1) (fld N 0 3)) := by
  rw [major60 h]
  refine Eq.trans (b := (if N / 2 ^ 3 % 8 = 0 ∧ N / 2 ^ 18 % 128 = 0 then some (.tlbinv (fld N 31 1) (fld N 11 7) (fld N 0 3)) else if N / 2 ^ 3 % 8 = 1 ∧ N / 2 ^ 11 % 16384 = 0 then some (.tlbinvAll (fld N 31 1) (fld N 0 3)) else none : Option Instr)) ?_ ?_
  · unfold decodeSys
    rw [q0] <;> rfl
  rw [if_neg (by rw [q1]; exact fun e => absurd e.1 (by decide))]
  rw [if_pos ⟨q1, q3⟩]

theorem tlbinvAll (w : BitVec 1) (s : BitVec 3) : Statement (.tlbinvAll w s) := by
  obtain ⟨bound, h, q0, q1, q2, q3, f0, f1⟩ := form54 2013266504 w s (by decide) (by decide) (by decide)
  exact worded (N := put w 31 (put s 0 (2013266504))) rfl bound (by rw [read_tlbinvAll (h.trans (by decide)) (q0.trans (by decide)) (q1.trans (by decide)) (q2.trans (by decide)) (q3.trans (by decide)), f0, f1])

theorem read_bkpt {N : Nat} (h : N / 2 ^ 25 % 64 = 60) (q0 : N / 2 ^ 6 % 32 = 10) (q1 : N / 2 ^ 0 % 64 = 0) (q2 : N / 2 ^ 11 % 16384 = 0) :
    parse N = some (Instr.bkpt (fld N 31 1)) := by
  rw [major60 h]
  refine Eq.trans (b := (if N / 2 ^ 0 % 64 = 0 ∧ N / 2 ^ 11 % 16384 = 0 then some (.bkpt (fld N 31 1)) else none : Option Instr)) ?_ ?_
  · unfold decodeSys
    rw [q0] <;> rfl
  rw [if_pos ⟨q1, q2⟩]

theorem bkpt (w : BitVec 1) : Statement (.bkpt w) := by
  obtain ⟨bound, h, q0, q1, q2, f0⟩ := form15 2013266560 w (by decide) (by decide)
  exact worded (N := put w 31 (2013266560)) rfl bound (by rw [read_bkpt (h.trans (by decide)) (q0.trans (by decide)) (q1.trans (by decide)) (q2.trans (by decide)), f0])

end Sys2Proof.Laws.RoundTrip
end

