-- ==== Sys2Proof/Laws/Shared.lean ====
section
/-! SUPPORT. What the operations shared by many meanings can do: lines that handlers serve (R185), choices of the part (R374),
numbers of flits (R327), and what stage queues hold in reserve (R53, R90). -/
namespace Sys2Proof.Machine

theorem length_modify {α : Type} (l : List α) (i : Nat) (f : α → α) : (modify l i f).length = l.length := by
  induction l generalizing i with
  | nil => rfl
  | cons a r ih => cases i <;> simp [modify, ih]

/-- With no handler of a directory line, no line is held back. -/
theorem State.lineHeld_none {s : State} (h : s.heldLines = []) (k : Nat) : s.lineHeld k = false := by
  simp [State.lineHeld, h]

/-- Where no handler serves a line that it reaches and none that it writes has overflowed sharers, an access goes on. -/
theorem State.whenLines_free {s : State} {reads : List Nat} {writes : List Loc} {go : Act}
    (hr : ∀ k ∈ reads, s.lineHeld k = false) (hw : ∀ l ∈ writes, s.lineHeld l.key = false ∧ s.lineShared l.key = false) :
    s.whenLines reads writes go = go := by
  have h1 : reads.any s.lineHeld = false := by
    rw [List.any_eq_false]
    exact fun k hk => by simp [hr k hk]
  have h2 : writes.any (fun l => s.lineHeld l.key) = false := by
    rw [List.any_eq_false]
    exact fun l hl => by simp [(hw l hl).1]
  have h3 : writes.find? (fun l => s.lineShared l.key) = none := by
    rw [List.find?_eq_none]
    exact fun l hl => by simp [(hw l hl).2]
  simp [State.whenLines, h1, h2, h3]

/-- An access through lines goes on, stalls, or stalls having started the handler of one it writes. -/
theorem State.whenLines_cases (s : State) (reads : List Nat) (writes : List Loc) (go : Act) :
    s.whenLines reads writes go = go ∨ s.whenLines reads writes go = .stall [] ∨
    ∃ l ∈ writes, s.lineShared l.key = true ∧ s.whenLines reads writes go = .stallAfter [] (fun s => s.invalidate l.key l.home) := by
  unfold State.whenLines
  split
  · exact .inr (.inl rfl)
  · split
    · rename_i l h
      exact .inr (.inr ⟨l, List.mem_of_find?_eq_some h, by simpa using List.find?_some h, rfl⟩)
    · exact .inl rfl

theorem State.atLines_free {s : State} {reads : List Nat} {writes : List Loc} {go : Option State}
    (hr : ∀ k ∈ reads, s.lineHeld k = false) (hw : ∀ l ∈ writes, s.lineHeld l.key = false ∧ s.lineShared l.key = false) :
    s.atLines reads writes go = go := by
  have h1 : reads.any s.lineHeld = false := by
    rw [List.any_eq_false]
    exact fun k hk => by simp [hr k hk]
  have h2 : writes.any (fun l => s.lineHeld l.key) = false := by
    rw [List.any_eq_false]
    exact fun l hl => by simp [(hw l hl).1]
  have h3 : writes.find? (fun l => s.lineShared l.key) = none := by
    rw [List.find?_eq_none]
    exact fun l hl => by simp [(hw l hl).2]
  simp [State.atLines, h1, h2, h3]

theorem State.atLine_free {s : State} {k home : Nat} {w : Bool} {go : Option State} (h : s.lineHeld k = false)
    (hw : s.lineShared k = false) : s.atLine k home w go = go := by
  simp [State.atLine, h, hw]

/-- A choice of the part is one of the outcomes that it has. -/
theorem State.pick_mem (s : State) {l : List Nat} (h : l ≠ []) : s.pick l ∈ l := by
  match l, h with
  | [a], _ =>
    unfold State.pick
    split <;> simp [Machine.pick]
  | a :: b :: r, _ =>
    unfold State.pick
    split
    · simp
    · have hlt : Config.free s.freeN % (a :: b :: r).length < (a :: b :: r).length := Nat.mod_lt _ (by simp)
      simp only [Machine.pick, nth]
      rw [List.getD_eq_getElem _ _ hlt]
      exact List.getElem_mem hlt

/-- In deterministic mode and in a replay the part takes the first, says no, and leaves nothing for later (R374). -/
theorem State.pick_fixed {s : State} (h : s.fixed = true) (l : List Nat) : s.pick l = l.headD 0 := by simp [State.pick, h]
theorem State.flips_fixed {s : State} (h : s.fixed = true) (n : Nat) : s.flips n = false := by simp [State.flips, h]
theorem State.someOf_fixed {α : Type} {s : State} (h : s.fixed = true) (n : Nat) (l : List α) : s.someOf n l = l := by
  simp [State.someOf, h]

/-- Out of deterministic mode a replica keeps no count of what it has sent. -/
theorem State.serve_free {s : State} (h : s.fixed = false) (x die j : Nat) : s.serve x die j = s := by simp [State.serve, h]

/-- A numbered flit differs in its ESEQ alone, and the machine in the next number of the stream. -/
theorem State.numbered_fst (s : State) (k : Nat) (f : Flit) : (s.numbered k f).1 = { f with eseq := (look s.eseqOut k).getD 0 } := rfl
theorem State.numbered_snd (s : State) (k : Nat) (f : Flit) : (s.numbered k f).2 =
    { s with eseqOut := put s.eseqOut k (((look s.eseqOut k).getD 0 + 1) % 2 ^ 16) } := rfl

/-- An item given back is still held, and so is one taken into reserve from those given back. -/
theorem restoreItem_held (q : StageQueue) (it : Item) : (restoreItem q it).held = q.held := by
  simp [restoreItem, StageQueue.held, length_modify]
theorem reserveItem_held {q : StageQueue} (h : q.returned ≠ []) (it : Item) : (reserveItem q it).held = q.held := by
  unfold reserveItem
  split
  · simp [StageQueue.held, length_modify]
  · rename_i hr
    exact absurd hr h

/-- Giving an item back leaves the capacity and the items that are not in reserve. -/
theorem restoreItem_cap (q : StageQueue) (it : Item) : (restoreItem q it).cap = q.cap ∧ (restoreItem q it).items = q.items := ⟨rfl, rfl⟩

/-- In deterministic mode a command reads nothing ahead (R283, R374), and its step is the completion of its next row. -/
theorem State.readEarly_fixed {s : State} (h : s.fixed = true) (c xid : Nat) : s.readEarly c xid = none := by
  unfold State.readEarly
  split
  · rfl
  · simp [State.flips, h]

theorem State.mxuStep_fixed {s : State} (h : s.fixed = true) (c xid : Nat) : s.mxuStep c xid = s.rowStep c xid := by
  simp [State.mxuStep, State.readEarly_fixed h]

end Sys2Proof.Machine
end

