-- ==== Sys2Proof/Tests/Slice0.lean ====
section
/-! SUPPORT. Tests: ill-formed fields that the checks refuse, words of the spec's encodings, worked examples, and for every
statement a state and operands that meet its hypotheses. -/
namespace Sys2Proof.Tests
open Sys2Proof Sys2Proof.Machine
set_option Elab.async false

/-! ### Fields that raise ILLEGAL_ENCODING, one for each check -/

/-- R87. -/
theorem test_refuses_reservedRegister : (Instr.encodingFault (.add 0 1 127 2)) = some .reservedRegister := by decide +kernel
/-- R87. -/
theorem test_refuses_forbiddenDestination : (Instr.encodingFault (.add 0 125 1 2)) = some .forbiddenDestination := by decide +kernel
/-- R31. -/
theorem test_refuses_deferredDestination : (Instr.encodingFault (.ld64 0 112 1 0 0)) = some .deferredDestination := by decide +kernel
/-- R94. -/
theorem test_refuses_bankRule : (Instr.encodingFault (.add 0 1 2 4)) = some .bankRule := by decide +kernel
/-- R124. -/
theorem test_refuses_badType : (Instr.encodingFault (.vdiv 0 1 2 3 0 5)) = some .badType := by decide +kernel
/-- R105. -/
theorem test_refuses_badOrder : (Instr.encodingFault (.st64 0 1 2 2 0)) = some .badOrder := by decide +kernel
/-- R122. -/
theorem test_refuses_badScope : (Instr.encodingFault (.redAdd 0 0 5 1 2)) = some .badScope := by decide +kernel
/-- R126, R235. -/
theorem test_refuses_badSelector : (Instr.encodingFault (.tinfo 0 1 6)) = some .badSelector := by decide +kernel
/-- R126, R258. -/
theorem test_refuses_badField : (Instr.encodingFault (.xget 0 1 14 0)) = some .badField := by decide +kernel
/-- R170. -/
theorem test_refuses_badLane : (Instr.encodingFault (.vext 0 1 2 16 0 0)) = some .badLane := by decide +kernel
/-- R169. -/
theorem test_refuses_badPart : (Instr.encodingFault (.vcvt 0 1 2 1 0 0 5)) = some .badPart := by decide +kernel
/-- R95. -/
theorem test_refuses_badCsr : (Instr.encodingFault (.csrrd 0 1 0 13)) = some .badCsr := by decide +kernel
/-- R104, R150. -/
theorem test_refuses_unusedField : (Instr.encodingFault (.texit 0 1 0)) = some .unusedField := by decide +kernel
/-- R170. -/
theorem test_refuses_maskForbidden : (Instr.encodingFault (.vext 0 1 2 0 1 0)) = some .maskForbidden := by decide +kernel
/-- R139. -/
theorem test_refuses_extractRange : (Instr.encodingFault (.exti 0 1 2 31 33)) = some .extractRange := by decide +kernel
/-- R11. -/
theorem test_refuses_badUnit : (Instr.encodingFault (.shareComputation 2048)) = some .badUnit := by decide +kernel

/-! ### Words bit by bit from the encodings of R103 and the chapters -/

/-- ADD (R118), format A. -/
theorem test_decode_add :
    parse 0b0_000000_0000011_0000010_0000001_0000 = some (.add 0 3 2 1) ∧ Instr.encodingFault (.add 0 3 2 1) = none := by decide +kernel
/-- DIVS with the marker (R118), format A. -/
theorem test_decode_divs :
    parse 0b1_000001_0000011_0000010_0000001_0000 = some (.divs 1 3 2 1) ∧ Instr.encodingFault (.divs 1 3 2 1) = none := by decide +kernel
/-- CLTN into bit 9, ANDing (R118), format A. -/
theorem test_decode_cltn :
    parse 0b0_000010_1001001_0000010_0000001_0100 = some (.cltn 0 1 9 2 1) ∧ Instr.encodingFault (.cltn 0 1 9 2 1) = none := by decide +kernel
/-- ADDI by -1 (R120), format I. -/
theorem test_decode_addi :
    parse 0b0_000100_0000101_0000100_11111111111 = some (.addi 0 5 4 2047) ∧ Instr.encodingFault (.addi 0 5 4 2047) = none := by decide +kernel
/-- ROTLI by 7 (R120), format I. -/
theorem test_decode_rotli :
    parse 0b0_001000_0000101_0000100_11000000111 = some (.rotli 0 5 4 7) ∧ Instr.encodingFault (.rotli 0 5 4 7) = none := by decide +kernel
/-- EXTI of 8 bits from bit 3 (R120), format I. -/
theorem test_decode_exti :
    parse 0b0_001010_0000101_0000100_00111000011 = some (.exti 0 5 4 7 3) ∧ Instr.encodingFault (.exti 0 5 4 7 3) = none := by decide +kernel
/-- LQZ of quarter 2 (R120), format L. -/
theorem test_decode_lqz :
    parse 0b0_001100_0000101_10_1011111011101111 = some (.lqz 0 5 2 0xBEEF) ∧ Instr.encodingFault (.lqz 0 5 2 0xBEEF) = none := by decide +kernel
/-- BR on a zero register, back by 3 (R121), format B. -/
theorem test_decode_brZ :
    parse 0b0_010001_0010_100001_111111111111101 = some (.brZ 0 33 32765) ∧ Instr.encodingFault (.brZ 0 33 32765) = none := by decide +kernel
/-- JMP back by 2 (R145), format J. -/
theorem test_decode_jmp :
    parse 0b0_010010_1111111111111111111111110 = some (.jmp 0 0x1FFFFFE) ∧ Instr.encodingFault (.jmp 0 0x1FFFFFE) = none := by decide +kernel
/-- YIELD (R126), format X. -/
theorem test_decode_yield :
    parse 0b0_010110_0000000_0000000_00001_000000 = some (.yield 0) ∧ Instr.encodingFault (.yield 0) = none := by decide +kernel
/-- FMA on F32 (R118), format A. -/
theorem test_decode_fmaF32 :
    parse 0b0_011000_0000011_0000010_0000001_0111 = some (.fmaF32 0 3 2 1) ∧ Instr.encodingFault (.fmaF32 0 3 2 1) = none := by decide +kernel
/-- F32 from E5 (R118), format A. -/
theorem test_decode_fcvtF32E5 :
    parse 0b0_011010_0000011_0000010_0000001_1110 = some (.fcvtF32E5 0 3 2) ∧ Instr.encodingFault (.fcvtF32E5 0 3 2) = none := by decide +kernel
/-- VADD of B16 under a mask (R124), format V. -/
theorem test_decode_vadd :
    parse 0b0_100000_00011_00010_00001_1_001_000000 = some (.vadd 0 3 2 1 1 1) ∧ Instr.encodingFault (.vadd 0 3 2 1 1 1) = none := by decide +kernel
/-- VCVT to F32 from E4, part 2 (R124), format V. -/
theorem test_decode_vcvt :
    parse 0b0_100001_00011_00010_00010_0_000_000011 = some (.vcvt 0 3 2 2 0 0 3) ∧ Instr.encodingFault (.vcvt 0 3 2 2 0 0 3) = none := by decide +kernel
/-- LD64 with acquire, back by 1 (R105), format M. -/
theorem test_decode_ld64 :
    parse 0b0_101010_0000111_0000110_001_11111111 = some (.ld64 0 7 6 1 255) ∧ Instr.encodingFault (.ld64 0 7 6 1 255) = none := by decide +kernel
/-- ST32 (R105), format M. -/
theorem test_decode_st32 :
    parse 0b0_101101_0000111_0000110_000_00000100 = some (.st32 0 7 6 0 4) ∧ Instr.encodingFault (.st32 0 7 6 0 4) = none := by decide +kernel
/-- VGTH through index v9 (R106), format VM. -/
theorem test_decode_vgth :
    parse 0b0_101111_00100_0000110_0001001_010_0_00 = some (.vgth 0 4 6 9 0 0) ∧ Instr.encodingFault (.vgth 0 4 6 9 0 0) = none := by decide +kernel
/-- AMO64 CAS with acquire and release (R119), format A. -/
theorem test_decode_amo64Cas :
    parse 0b0_110000_0000011_0000010_0000001_1101 = some (.amo64Cas 0 3 2 1 3) ∧ Instr.encodingFault (.amo64Cas 0 3 2 1 3) = none := by decide +kernel
/-- RED MAX of 32 bits, release at DIE (R118, R119), format A. -/
theorem test_decode_redMax :
    parse 0b0_110010_0001011_0000010_0000001_0100 = some (.redMax 0 1 3 2 1) ∧ Instr.encodingFault (.redMax 0 1 3 2 1) = none := by decide +kernel
/-- VAMO ADD of S32 with acquire (R125), format V. -/
theorem test_decode_vamoAdd :
    parse 0b0_110011_00011_00010_00001_0_101_000101 = some (.vamoAdd 0 3 2 1 0 5 1) ∧ Instr.encodingFault (.vamoAdd 0 3 2 1 0 5 1) = none := by decide +kernel
/-- FENCE at DEVICE (R126), format X. -/
theorem test_decode_fence :
    parse 0b0_110100_0000000_0000000_00000_000100 = some (.fence 0 4) ∧ Instr.encodingFault (.fence 0 4) = none := by decide +kernel
/-- FORK with 5 registers (R126), format X. -/
theorem test_decode_fork :
    parse 0b0_110101_0001001_0001000_00000_000101 = some (.fork 0 9 8 5) ∧ Instr.encodingFault (.fork 0 9 8 5) = none := by decide +kernel
/-- QBIND of q2 (R126), format X. -/
theorem test_decode_qbind :
    parse 0b0_110110_1110010_0001000_00000_000000 = some (.qbind 0 2 8) ∧ Instr.encodingFault (.qbind 0 2 8) = none := by decide +kernel
/-- CSIG at GROVE (R126), format X. -/
theorem test_decode_csig :
    parse 0b0_110111_0001001_0001000_00101_000010 = some (.csig 0 9 8 2) ∧ Instr.encodingFault (.csig 0 9 8 2) = none := by decide +kernel
/-- XSET of field 9 of engine 1 (R126), format X. -/
theorem test_decode_xset :
    parse 0b0_111000_0001001_0000000_00000_010011 = some (.xset 0 9 9 1) ∧ Instr.encodingFault (.xset 0 9 9 1) = none := by decide +kernel
/-- RSTAT with selector 3 (R126), format X. -/
theorem test_decode_rstat :
    parse 0b0_111001_0001001_0001000_01011_000011 = some (.rstat 0 9 8 3) ∧ Instr.encodingFault (.rstat 0 9 8 3) = none := by decide +kernel
/-- TRPUT MAX of F64 from v6 (R126), format X. -/
theorem test_decode_trputMax :
    parse 0b0_111010_0000000_0000110_00011_010010 = some (.trputMax 0 6 2) ∧ Instr.encodingFault (.trputMax 0 6 2) = none := by decide +kernel
/-- CSRRD of CSR 2 of position 1 (R95, R126), format X. -/
theorem test_decode_csrrd :
    parse 0b0_111100_0001001_0010001_00011_000010 = some (.csrrd 0 9 0x11 2) ∧ Instr.encodingFault (.csrrd 0 9 0x11 2) = none := by decide +kernel

/-! ### One instruction on a small state: the spec's worked examples -/

/-- A user-mode GENERAL thread, resident on core 0, with 112 scalar and 32 vector registers. -/
def th : Thread :=
  { newThread .anchored .general 0 0 112 32 0 0x10000 [] with state := .ready, place := some ⟨0, 0, 0⟩ }

/-- A machine in which that thread issues. -/
def issuing (t : Thread) : State := { threads := [(1, t)], cur := 1, launches := [(0, loadLaunch)] }

/-- The issuing thread after an instruction. -/
def ran (i : Instr) (t : Thread) : Option Thread :=
  match exec i (issuing t) with
  | .next s => s.thread 1
  | _ => none

/-- R135: offset 1,000,000 lies in bank 4, row 2,016. -/
theorem test_spbank_and_sprow :
    (ran (.spbank 0 5 8) (th.setX 8 0xF1000000000F4240 false)).map (fun t => t.xr 5) = some 4 ∧
    (ran (.sprow 0 5 8) (th.setX 8 0xF1000000000F4240 false)).map (fun t => t.xr 5) = some 2016 := by decide +kernel

/-- R134: the division corners. -/
theorem test_division_corners :
    (ran (.divs 0 1 2 3) ((th.setX 2 0x8000000000000000 false).setX 3 (0 - 1) false)).map (fun t => t.xr 1) =
      some 0x8000000000000000 ∧
    (ran (.rems 0 1 2 3) (th.setX 2 (0 - 7) false)).map (fun t => t.xr 1) = some (0 - 7) ∧
    (ran (.divn 0 1 2 3) (th.setX 2 7 false)).map (fun t => t.xr 1) = some 0xFFFFFFFFFFFFFFFF := by decide +kernel

/-- R139: bits 15 to 8. -/
theorem test_exti : (ran (.exti 0 4 5 7 8) (th.setX 5 0x1234 false)).map (fun t => t.xr 4) = some 0x12 := by decide +kernel

/-- R160: 470.0 to E4 gives 448 with OF and NX. -/
theorem test_fcvt_e4_saturates :
    (ran (.fcvtE4F32 0 4 7) (th.setX 7 0x43EB0000 false)).map (fun t => (t.xr 4, t.csr.fcsr)) = some (0x7E, 0x14) := by decide +kernel

/-- R164: VRCP of 3.0 is 0x3EAA_B000 with NX. -/
theorem test_vrcp_of_three : frcp 0x40400000 = (0x3EAAB000, 1#5) := by decide +kernel

/-- R81, R171: 2^24 + 1 + 1 + 1 in the tree is 16,777,218 with NX; with lane 0 masked off it is 3. -/
theorem test_vrsum_tree :
    (ran (.vrsum 0 5 4 0 0) (th.setV 4 0x3F8000003F8000003F8000004B800000)).map (fun t => (t.vr 5, t.csr.fcsr)) =
      some (0x4B800001, 4) ∧
    (ran (.vrsum 0 5 4 1 0) { th.setV 4 0x3F8000003F8000003F8000004B800000 with pw := 0xFFFE }).map (fun t => (t.vr 5, t.csr.fcsr)) =
      some (0x40400000, 0) := by decide +kernel

/-- R158, R161: VMAX of E4 under a mask: a quiet NaN loses, a disabled lane stays, −0 lies below +0. -/
theorem test_vmax_masked :
    (ran (.vmax 0 4 3 4 1 3) { (th.setV 3 0x807E7F40).setV 4 0x00B83838 with pw := 0xB }).map (fun t => (t.vr 4, t.csr.fcsr)) =
      some (0x00B83840, 0) := by decide +kernel

/-- R76 to R78: a C8 block bit by bit, and back. -/
theorem test_block_of_codes :
    encodeBlock ([0x28, 0x31, 0xBB, 0x7E] ++ List.replicate 28 0x28) =
      ([0x15, 0x00, 0x10, 0x6B] ++ List.replicate 14 0 ++ [0xDA, 0x1B, 0, 0, 0, 0] : List Byte) ∧
    decodeBlock ([0x15, 0x00, 0x10, 0x6B] ++ List.replicate 14 0 ++ [0xDA, 0x1B, 0, 0, 0, 0]) =
      some ([0x28, 0x31, 0xBB, 0x7E] ++ List.replicate 28 0x28, 24) ∧
    decodeBlock ([0x15, 0x00, 0x10, 0x6B] ++ List.replicate 14 0 ++ [0xDA, 0x33, 0, 0, 0, 0]) = none ∧
    decodeBlock ([0x16, 0x00, 0x10, 0x6B] ++ List.replicate 14 0 ++ [0xDA, 0x1B, 0, 0, 0, 0]) = none := by decide +kernel

/-- R173: byte 95,232 of the scratchpad of LCN 1,234 through window 2. -/
theorem test_region_of_scratchpad : regionOf 0xE013490000017400 = some (.scratch 1234 2 95232) := by decide +kernel

/-- R136, R146: a compare ANDs into its bit; a jump to a misaligned target traps with nothing written. -/
theorem test_compare_and_jump :
    (ran (.cltn 0 1 9 2 1) { (th.setX 1 5 false).setX 2 7 false with pw := 0x300 }).map (fun t => t.pw) = some 0x100 ∧
    (ran (.jalr 0 1 2 0) (th.setX 2 0x10002 false)).map (fun t => (t.xr 1, t.pc, t.csr.tcause, t.csr.tval)) =
      some (0, 0x10000, 6, 0x10002) := by decide +kernel

/-- R148: an instruction past the last word of the last pass goes on after the frame. -/
theorem test_frame_end :
    (({ th with pc := 0x10040, csr := { th.csr with repst := 0x80078000 } } : Thread).advance none).pc = 0x10044 := by
  decide +kernel

/-- R97, R350, R363: TRAP 5 takes SYSCALL with tval 5, to resume at the next word. -/
theorem test_trap_saves :
    (ran (.trap 0 5) th).map (fun t => (t.state, t.csr.tcause, t.csr.tepc, t.csr.tval)) =
      some (.trapped, word cSYSCALL, 0x10004, 5) := by decide +kernel

/-- A loaded word runs: `add s3, s2, s1` at the first turn of core 0 goes on to the next word. -/
theorem test_step_runs_add :
    (match step (State.reset.withFetchWord 32 0b0_000000_0000011_0000010_0000001_0000) with
     | .next s => (s.thread 1).map (fun t => (t.pc, t.state))
     | _ => none) = some (0x10004, .ready) := by decide +kernel

/-! ### States that meet the statements' hypotheses -/

/-- `Plain`, decided. -/
def plainB (s : State) (t : Thread) (u : Use) : Bool :=
  decide (s.thread s.cur = some t ∧ t.state ≠ .exited) &&
  (u.fields ++ u.regs).all (fun f => decide ((f < t.slen ∧ f ≤ 111) ∨ 124 ≤ f)) && decide (u.upto ≤ t.slen) &&
  u.vregs.all (fun v => decide (v < t.vlen)) &&
  t.outs.all (fun d => decide (d.dest ≤ 111 → ¬ d.dest ∈ u.fields ++ u.regs ∧ u.upto ≤ d.dest) &&
    u.vregs.all (fun v => decide (d.dest ≠ 128 + v))) &&
  decide ((u.mtOnly = true → t.kind = .mt) ∧ (u.system = true → t.user = false) ∧ (u.role = .float → t.role ≠ .access) ∧
    (u.role = .address → t.role ≠ .execute) ∧ (u.packet = true ∨ t.packet = none) ∧ u.heads = [])

theorem plain_of {s : State} {t : Thread} {u : Use} (h : plainB s t u = true) : Plain s t u := by
  simp only [plainB, Bool.and_eq_true, decide_eq_true_eq, List.all_eq_true] at h
  obtain ⟨⟨⟨⟨⟨⟨h1, h2⟩, h3⟩, h4⟩, h5⟩, h6⟩, k1, k2, k3, k4, k5, k6⟩ := h
  exact ⟨h1, h2, ⟨h3, h4, h5, fun d hd => ⟨(h6 d hd).1, (h6 d hd).2⟩⟩, ⟨k1, k2, k3, k4, k5⟩, k6⟩

/-- `Ready`, decided. -/
def readyB (s : State) (t : Thread) (u : Use) (xs : List Word) (s' : State) : Bool :=
  decide (s.thread s.cur = some t ∧ t.state ≠ .exited ∧ s.checks t u = none ∧ u.restarts t = false ∧
    s.stillPending (s.before s.cur u t) = [] ∧ s.unheld s.cur u = s ∧ s.sources s.cur t u = some (xs, s'))

theorem ready_of {s : State} {t : Thread} {u : Use} {xs : List Word} {s' : State} (h : readyB s t u xs s' = true) :
    Ready s t u xs s' := by
  obtain ⟨h1, h2, h3, h4, h5, h6, h7⟩ := of_decide_eq_true h
  exact ⟨h1, h2, h3, h4, h5, h6, h7⟩

/-- Fields that name window registers at both ends, zr, tid and pw. -/
theorem witness_binaryIntegerResults :
    Plain (issuing th) th (Claim.scalarUse [0, 111] 111) ∧ Plain (issuing th) th (Claim.scalarUse [125, 124] 126) :=
  ⟨plain_of (by decide +kernel), plain_of (by decide +kernel)⟩

theorem witness_unaryImmediateAndConstants :
    Plain (issuing th) th (Claim.scalarUse [111] 0) ∧ Plain (issuing th) th (Claim.scalarUse [] 111) ∧
    Plain (issuing th) th (Claim.scalarUse [111] 111) ∧ Plain (issuing th) th (Claim.scalarUse [1, 2] 126) :=
  ⟨plain_of (by decide +kernel), plain_of (by decide +kernel), plain_of (by decide +kernel), plain_of (by decide +kernel)⟩

theorem witness_predicateBits :
    Plain (issuing th) th { srcs := [111, 126], packet := true } ∧ Plain (issuing th) th { srcs := [0], packet := true } ∧
    Plain (issuing th) th { packet := true } :=
  ⟨plain_of (by decide +kernel), plain_of (by decide +kernel), plain_of (by decide +kernel)⟩

/-- An aligned target of JALR, and the least misaligned one. -/
theorem witness_branchesAndJumps :
    Plain (issuing th) th { regs := [63] } ∧ Plain (issuing th) th {} ∧ Plain (issuing th) th { regs := [1] } ∧
    Plain (issuing th) th { srcs := [2], dst := some 1 } ∧
    (th.reads 2 + 4 * (0 : BitVec 11).signExtend 64).toNat % 4 = 0 ∧
    ((th.setX 2 1 false).reads 2 + 4 * (0 : BitVec 11).signExtend 64).toNat % 4 ≠ 0 ∧
    Plain (issuing (th.setX 2 1 false)) (th.setX 2 1 false) { srcs := [2], dst := some 1 } :=
  ⟨plain_of (by decide +kernel), plain_of (by decide +kernel), plain_of (by decide +kernel), plain_of (by decide +kernel),
    by decide +kernel, by decide +kernel, plain_of (by decide +kernel)⟩

theorem witness_floatingPoint :
    Plain (issuing th) th (Claim.floatUse [0, 111] 111) ∧ Plain (issuing th) th (Claim.floatUse [0, 1, 2] 2) ∧
    Plain (issuing th) th (Claim.floatUse [124] 126) ∧ Plain (issuing th) th { srcs := [1, 2], role := .float } :=
  ⟨plain_of (by decide +kernel), plain_of (by decide +kernel), plain_of (by decide +kernel), plain_of (by decide +kernel)⟩

theorem witness_vectorLaneResults :
    Plain (issuing th) th (Claim.vectorUse [31, 0, 31] []) ∧ Plain (issuing th) th (Claim.vectorUse [0, 31] []) :=
  ⟨plain_of (by decide +kernel), plain_of (by decide +kernel)⟩

/-- The last lane of the widest and of the narrowest type. -/
theorem witness_vectorDotConvertAndMoves :
    Plain (issuing th) th (Claim.vectorUse [31, 0, 1] []) ∧ Plain (issuing th) th (Claim.vectorUse [31, 0] []) ∧
    Plain (issuing th) th (Claim.vectorUse [31] [31]) ∧ Plain (issuing th) th { vregs := [31], dst := some 31, role := .float } ∧
    Machine.laneNumber 15 0 0 < 512 / tyWidth (0 : BitVec 3).toNat ∧ Machine.laneNumber 31 1 3 < 512 / tyWidth (3 : BitVec 3).toNat :=
  ⟨plain_of (by decide +kernel), plain_of (by decide +kernel), plain_of (by decide +kernel), plain_of (by decide +kernel),
    by decide +kernel, by decide +kernel⟩

theorem witness_vectorComparesAndReductions :
    Plain (issuing th) th (Claim.vectorUse [31, 0] []) := plain_of (by decide +kernel)

/-- A thread whose heads q0 and q1 take from and add to local channel 3, and the machine in which it issues. -/
def bound : Thread := { th with heads := [word (2 ^ 29 + 3 * 2 ^ 11), word (2 * 2 ^ 29 + 3 * 2 ^ 11), 0, 0, 0, 0, 0, 0] }
def withChannel (l : List Vec) : State :=
  (issuing bound).modCore 0 (fun k => { k with chans := modify k.chans 3 (fun c => { c with owner := some 0, entries := l }) })

/-- ADD from and to a channel head, ready, and with its source empty. -/
theorem witness_everyOperandForm :
    Ready (withChannel [7]) bound (Claim.scalarUse [112, 1] 113) [7, 0] (withChannel []) ∧
    Claim.Opens (withChannel []) 1 113 7 ∧ Claim.Opens (withChannel []) 1 111 7 ∧
    (withChannel []).checks bound (Claim.scalarUse [112, 1] 111) = none ∧ (Claim.scalarUse [112, 1] 111).restarts bound = false ∧
    Unordered (withChannel []) bound (Claim.scalarUse [112, 1] 111) ∧
    (withChannel []).unheld 1 (Claim.scalarUse [112, 1] 111) = withChannel [] ∧
    (withChannel []).sources 1 bound (Claim.scalarUse [112, 1] 111) = none ∧
    (Claim.scalarUse [112, 1] 111).named = true ∧ (withChannel []).thread 1 = some bound :=
  ⟨ready_of (by decide +kernel), ⟨by decide +kernel, bound, by decide +kernel, by decide +kernel, fun _ _ => ⟨rfl, rfl⟩⟩,
    ⟨by decide +kernel, bound, by decide +kernel, by decide +kernel, fun _ _ => ⟨rfl, rfl⟩⟩, by decide +kernel, by decide +kernel,
    by unfold Unordered; decide +kernel, by decide +kernel, by decide +kernel, by decide +kernel, by decide +kernel⟩

theorem witness_channelHeads :
    (withChannel [7]).thread 1 = some bound ∧ headKind (bound.headOf 0) = 1 ∧
    Claim.entries (withChannel [7]) 0 (headNum (bound.headOf 0)) = [7] ∧ Claim.entries (withChannel []) 0 3 = [] ∧
    headKind (bound.headOf 1) = 2 ∧ headNum (bound.headOf 1) < ((withChannel []).core 0).chans.length := by decide +kernel

/-- A thread with a load into s5 outstanding, and with that load returned. -/
def loading (w : List Nat) : Thread := { th with outs := [⟨1, 5, w, 9, false, 0, none, none⟩] }

theorem witness_markerParksOrSettles :
    Plain (issuing (loading [1])) (loading [1]) { packet := true } ∧ (loading [1]).allReturned = false ∧
    Plain (issuing (loading [])) (loading []) { packet := true } ∧ (loading []).allReturned = true ∧
    (issuing (loading [])).thread 1 = some (loading []) ∧ (∀ d ∈ (loading []).outs, d.poison = none ∧ d.full = none) :=
  ⟨plain_of (by decide +kernel), by decide +kernel, plain_of (by decide +kernel), by decide +kernel, by decide +kernel, by decide +kernel⟩

/-- A frame at word i of pass k of two. -/
def inFrame (i k : Nat) : Thread :=
  { th with csr := { th.csr with repst := word (2 ^ 31 + 2 ^ 25 + k * 2 ^ 19 + i * 2 ^ 15) }, frame := List.replicate 16 0 }

/-- Outside a frame; word 14 of a pass; word 15 of the first pass and of the last; a frame of sixteen ADDs in memory. -/
theorem witness_repeatFrames :
    th.csr.repst.getLsbD 31 = false ∧
    ((inFrame 14 1).csr.repst.getLsbD 31 = true ∧ bits (inFrame 14 1).csr.repst 18 15 < 15) ∧
    ((inFrame 15 0).csr.repst.getLsbD 31 = true ∧ bits (inFrame 15 0).csr.repst 18 15 = 15 ∧
      bits (inFrame 15 0).csr.repst 24 19 < bits (inFrame 15 0).csr.repst 30 25) ∧
    ((inFrame 15 1).csr.repst.getLsbD 31 = true ∧ bits (inFrame 15 1).csr.repst 18 15 = 15 ∧
      bits (inFrame 15 1).csr.repst 30 25 ≤ bits (inFrame 15 1).csr.repst 24 19) ∧
    (State.reset.loaded.capture (loadThread 0 0) (word loadVa)).toOption = some (List.replicate 16 0) := by decide +kernel

/-- The second pass of a frame of sixteen times the word w, with the mask and a step of 1. -/
def staggering (w : IWord) (mask : Nat) : Thread :=
  { th with csr := { th.csr with repst := word (2 ^ 31 + 2 ^ 25 + 2 ^ 19 + mask * 2 ^ 12) }, frame := List.replicate 16 w }

/-- ADD with s110 and s112 in its fields, raised; ADD with s111, VADD with v31, and a compare into bit 63, each out of range. -/
theorem witness_staggering :
    (let t := staggering 0b0_000000_1101110_1110000_0000001_0000 7
     t.csr.repst.getLsbD 31 = true ∧ t.frame ≠ [] ∧
      ∀ e ∈ Claim.staggered 0b0_000000_1101110_1110000_0000001_0000 7, Claim.Fits 0b0_000000_1101110_1110000_0000001_0000 1 e) ∧
    Claim.staggered 0b0_000000_1101111_0000010_0000001_0000 1 = [(18, 7, 112)] ∧
    ¬ Claim.Fits 0b0_000000_1101111_0000010_0000001_0000 1 (18, 7, 112) ∧
    Claim.staggered 0b0_100000_11111_00010_00001_0_000_000000 1 = [(20, 5, 32)] ∧
    ¬ Claim.Fits 0b0_100000_11111_00010_00001_0_000_000000 1 (20, 5, 32) ∧
    Claim.staggered 0b0_011000_0111111_0000010_0000001_1101 1 = [(18, 6, 64)] ∧
    ¬ Claim.Fits 0b0_011000_0111111_0000010_0000001_1101 1 (18, 6, 64) := by
  simp only [Claim.Fits, Claim.Keeps]
  decide +kernel

/-- The machine with a page of HBM mapped at loadVa, on which the thread of that launch issues. -/
def mapped (t : Thread) : State := { State.reset.loaded with threads := [(1, t)], cur := 1 }
/-- A thread that holds the DVA a in s2. -/
def at2 (a : Word) : Thread := { loadThread 0 0 with x := modify (loadThread 0 0).x 2 (fun _ => a), pc := word loadVa }

/-- TEXIT with a join word, on a mapped page; REPF where sixteen words are there, and where the page ends. -/
theorem witness_threadControl :
    Plain (issuing th) th { packet := true } ∧ (Plain (issuing th) th {} ∧ th.place = some ⟨0, 0, 0⟩) ∧
    (th.allReturned = true ∧ (loading [1]).allReturned = false ∧ Plain (issuing (loading [1])) (loading [1]) {}) ∧
    (Ready (mapped (at2 (word loadVa))) (at2 (word loadVa)) { srcs := [2], role := .address, rel := some 4 } [word loadVa]
        (mapped (at2 (word loadVa))) ∧ (at2 (word loadVa)).allReturned = true ∧
      (((mapped (at2 (word loadVa))).settle 1).locate (at2 (word loadVa)).who .atomic (word loadVa) 8).isOk = true ∧
      ((mapped (at2 (word loadVa))).settle 1).lineHeld loadFrame = false ∧
      ((mapped (at2 (word loadVa))).settle 1).lineShared loadFrame = false) ∧
    (Plain (mapped (at2 0)) (at2 0) {} ∧ (mapped (at2 0)).frameHeld (at2 0) (at2 0).pc = false ∧ ((mapped (at2 0)).capture (at2 0) (at2 0).pc).isOk = true) ∧
    (Plain (issuing th) th {} ∧ ((issuing th).capture th th.pc).isOk = false) :=
  ⟨plain_of (by decide +kernel), ⟨plain_of (by decide +kernel), rfl⟩, by
      refine ⟨by decide +kernel, by decide +kernel, plain_of (by decide +kernel)⟩,
    ⟨ready_of (by decide +kernel), by decide +kernel, by decide +kernel, by decide +kernel, by decide +kernel⟩,
    ⟨plain_of (by decide +kernel), by decide +kernel, by decide +kernel⟩, ⟨plain_of (by decide +kernel), by decide +kernel⟩⟩

/-! ### Memory -/

def okIs {α : Type} [DecidableEq α] (x : Except TrapRec α) (a : α) : Bool :=
  match x with
  | .ok b => decide (b = a)
  | .error _ => false

def errorIs {α : Type} (x : Except TrapRec α) (e : TrapRec) : Bool :=
  match x with
  | .ok _ => false
  | .error f => decide (f = e)

theorem ok_of {α : Type} [DecidableEq α] {x : Except TrapRec α} {a : α} (h : okIs x a = true) : x = .ok a := by
  unfold okIs at h
  split at h
  · exact congrArg _ (of_decide_eq_true h)
  · exact absurd h (by decide)

theorem error_of {α : Type} {x : Except TrapRec α} {e : TrapRec} (h : errorIs x e = true) : x = .error e := by
  unfold errorIs at h
  split at h
  · exact absurd h (by decide)
  · exact congrArg _ (of_decide_eq_true h)

/-- The mapped page with the KIND of its leaf given. -/
def paged (kind : Nat) (t : Thread) : State := (mapped t).wrWord 0x8008 (word (2 ^ 63 + kind * 2 ^ 60 + 7 * 2 ^ 57 + loadFrame))
/-- The place of the byte at offset o of that page. -/
def placeAt (kind o : Nat) : Loc := ⟨loadFrame + o, 0, kind, 0, word (loadVa + o)⟩
/-- A thread that holds the address of offset o of that page in s2 and x in s3. -/
def holding (o : Nat) (x : Word) : Thread := (at2 (word (loadVa + o))).setX 3 x false
/-- The same as a microthread standing on core c. -/
def asMt (c : Nat) (t : Thread) : Thread := { t with kind := .mt, core := c }
/-- A thread with 32 results outstanding. -/
def full (t : Thread) : Thread := { t with outs := (List.range 32).map (fun i => ⟨i, 20 + i, [i + 1], 0, false, 0, none, none⟩) }

/-- The machine in which t issues, its core's channel 3 holding the entries. -/
def withEntry (t : Thread) (l : List Vec := [7]) : State :=
  (issuing t).modCore 0 (fun k => { k with chans := modify k.chans 3 (fun c => { c with owner := some 0, entries := l }) })

/-- The places of n words at offset o. -/
def blockPlaces (o : Nat) (n : Nat) : List Loc := (List.range n).map (fun i => placeAt 0 (o + 8 * i))

/-- A load in place and at the end of the page, unaligned, held, by an MT at its home, and by one that is sent there. -/
theorem witness_loads (o : Nat) (h : o = 0 ∨ o = 65528) :
    Ready (paged 0 (holding o 0)) (holding o 0) { srcs := [2], regs := [4], role := .address } [word (loadVa + o)] (paged 0 (holding o 0)) ∧
    (paged 0 (holding o 0)).locate (holding o 0).who .load (word (loadVa + o)) 8 = .ok (placeAt 0 o) ∧ (holding o 0).tooMany = false := by
  rcases h with h | h <;> subst h <;> exact ⟨ready_of (by decide +kernel), ok_of (by decide +kernel), by decide +kernel⟩

theorem witness_loadsThatDoNotIssue :
    (Ready (paged 0 (holding 1 0)) (holding 1 0) { srcs := [2], regs := [4], role := .address } [word (loadVa + 1)] (paged 0 (holding 1 0)) ∧
      (paged 0 (holding 1 0)).locate (holding 1 0).who .load (word (loadVa + 1)) 8 = .error ⟨cMISALIGNED, word (loadVa + 1)⟩) ∧
    (Ready (paged 0 (full (holding 0 0))) (full (holding 0 0)) { srcs := [2], regs := [4], role := .address } [word loadVa]
        (paged 0 (full (holding 0 0))) ∧ (full (holding 0 0)).tooMany = true) ∧
    (Ready (withEntry (full bound)) (full bound) { srcs := [112], regs := [4], role := .address } [7] (withEntry (full bound) []) ∧
      ({ srcs := [112], regs := [4], role := .address } : Use).named = true ∧ (full bound).tooMany = true) :=
  ⟨⟨ready_of (by decide +kernel), error_of (by decide +kernel)⟩, ⟨ready_of (by decide +kernel), by decide +kernel⟩,
    ⟨ready_of (by decide +kernel), by decide +kernel, by decide +kernel⟩⟩

/-- With the placement hint: an MT on the home's core, and one on another core. -/
theorem witness_loadsOfMts :
    (Ready (paged 0 (asMt 0 (holding 0 0))) (asMt 0 (holding 0 0)) { srcs := [2], regs := [4], role := .address, mtOnly := true }
      [word loadVa] (paged 0 (asMt 0 (holding 0 0))) ∧
      Claim.AtHome (paged 0 (asMt 0 (holding 0 0))) 1 (asMt 0 (holding 0 0)) (placeAt 0 0)) ∧
    (Ready (paged 0 (asMt 9 (holding 0 0))) (asMt 9 (holding 0 0)) { srcs := [2], regs := [4], role := .address, mtOnly := true }
      [word loadVa] (paged 0 (asMt 9 (holding 0 0))) ∧ (asMt 9 (holding 0 0)).allReturned = true ∧
      (paged 0 (asMt 9 (holding 0 0))).writeIds 1 = [] ∧ (placeAt 0 0).home % 4096 ≠ (asMt 9 (holding 0 0)).core ∧
      (paged 0 (asMt 9 (holding 0 0))).locate (asMt 9 (holding 0 0)).who .load (word loadVa) 8 = .ok (placeAt 0 0)) :=
  ⟨⟨ready_of (by decide +kernel), by decide +kernel, by decide +kernel, by decide +kernel⟩,
    ⟨ready_of (by decide +kernel), by decide +kernel, by decide +kernel, by decide +kernel, ok_of (by decide +kernel)⟩⟩

theorem witness_stores :
    Ready (paged 0 (holding 65528 5)) (holding 65528 5) { srcs := [2, 3], role := .address } [word (loadVa + 65528), 5]
      (paged 0 (holding 65528 5)) ∧
    (paged 0 (holding 65528 5)).locate (holding 65528 5).who .store (word (loadVa + 65528)) 8 = .ok (placeAt 0 65528) ∧
    (paged 0 (holding 65528 5)).locate (holding 65528 5).who .store (word (loadVa + 65536)) 8 =
      .error ⟨cNOTPRESENT, word (loadVa + 65536)⟩ ∧
    Ready (paged 0 (asMt 9 (holding 0 5))) (asMt 9 (holding 0 5)) { srcs := [2, 3], role := .address, mtOnly := true } [word loadVa, 5]
      (paged 0 (asMt 9 (holding 0 5))) :=
  ⟨ready_of (by decide +kernel), ok_of (by decide +kernel), error_of (by decide +kernel), ready_of (by decide +kernel)⟩

/-- Sixteen lanes in place; and lanes whose last is beyond the page. -/
def lanesAt (o n : Nat) : List (Nat × Word × Loc) :=
  (List.range n).map (fun i => (i, word (loadVa + o + 4 * i), placeAt 0 (o + 4 * i)))

theorem located_of {s : State} {t : Thread} {u : For} {base : Word} {e : Nat} {addr : Nat → Word} {lanes : List Nat}
    {ls : List (Nat × Word × Loc)} (h : (decide (ls.map (fun q => q.1) = lanes) &&
      ls.all (fun q => decide (q.2.1 = addr q.1) && okIs (s.locateLane t.who u base q.2.1 e) q.2.2)) = true) :
    Claim.Located s t u base e addr lanes ls := by
  simp only [Bool.and_eq_true, decide_eq_true_eq, List.all_eq_true] at h
  exact ⟨h.1, fun q hq => ⟨(h.2 q hq).1, ok_of (h.2 q hq).2⟩⟩

theorem witness_vectorLoads :
    Ready (paged 0 (holding 0 4)) (holding 0 4) { srcs := [2], vregs := [31], role := .address } [word loadVa] (paged 0 (holding 0 4)) ∧
    Ready (paged 0 (holding 0 4)) (holding 0 4) { srcs := [2, 3], vregs := [31], role := .address } [word loadVa, 4]
      (paged 0 (holding 0 4)) ∧
    Ready (paged 0 (holding 0 4)) (holding 0 4) { srcs := [2], vregs := [31, 31], role := .address } [word loadVa] (paged 0 (holding 0 4)) ∧
    Claim.Located (paged 0 (holding 0 4)) (holding 0 4) .load (word loadVa) 4 (fun i => word loadVa + word (i * 4)) (List.range 16)
      (lanesAt 0 16) ∧ (holding 0 4).tooMany = false ∧
    Claim.Located (paged 0 (holding 0 4)) (holding 0 4) .store (word loadVa) 4 (fun i => word loadVa + word i * 4) (List.range 16)
      (lanesAt 0 16) :=
  ⟨ready_of (by decide +kernel), ready_of (by decide +kernel), ready_of (by decide +kernel), located_of (by decide +kernel),
    by decide +kernel, located_of (by decide +kernel)⟩

theorem witness_vectorLaneFails :
    Claim.Located (paged 0 (holding 65476 4)) (holding 65476 4) .store (word (loadVa + 65476)) 4
      (fun i => word (loadVa + 65476) + word (i * 4)) ((List.range 16).take 15) (lanesAt 65476 15) ∧
    List.range 16 = (List.range 16).take (lanesAt 65476 15).length ++ 15 :: [] ∧
    (paged 0 (holding 65476 4)).locateLane (holding 65476 4).who .store (word (loadVa + 65476))
      (word (loadVa + 65476) + word (15 * 4)) 4 = .error ⟨cNOTPRESENT, word (loadVa + 65536)⟩ ∧
    (paged 0 (holding 65476 4)).locateLane (holding 65476 4).who .load (word (loadVa + 65476))
      (word (loadVa + 65476) + word (15 * 4)) 4 = .error ⟨cNOTPRESENT, word (loadVa + 65536)⟩ ∧ (holding 65476 4).job = none :=
  ⟨located_of (by decide +kernel), by decide +kernel, error_of (by decide +kernel), error_of (by decide +kernel), rfl⟩

/-- The eight addresses of a vector atomic, in v1. -/
def scattered : Thread :=
  (at2 0).setV 1 (BitVec.ofNat 512 (((List.range 8).map (fun i => (loadVa + 4 * i) * 2 ^ (64 * i))).sum))

theorem witness_vectorAtomics :
    Ready (paged 0 scattered) scattered { vregs := [3, 1, 2], role := .address } [] (paged 0 scattered) ∧ scattered.tooMany = false ∧
    (lanesAt 0 8).map (fun q => q.1) = List.range 8 ∧
    (∀ q ∈ lanesAt 0 8, q.2.1 = word (getLane 64 q.1 (scattered.vr 1)) ∧
      (paged 0 scattered).locate scattered.who .atomic q.2.1 4 = .ok q.2.2) := by
  refine ⟨ready_of (by decide +kernel), by decide +kernel, by decide +kernel, fun q hq => ?_⟩
  have h : (lanesAt 0 8).all (fun q => decide (q.2.1 = word (getLane 64 q.1 (scattered.vr 1))) &&
      okIs ((paged 0 scattered).locate scattered.who .atomic q.2.1 4) q.2.2) = true := by decide +kernel
  simp only [List.all_eq_true, Bool.and_eq_true, decide_eq_true_eq] at h
  exact ⟨(h q hq).1, ok_of (h q hq).2⟩

/-- Atomics, reductions and CSIG; one that is misaligned, one held, and an MT's away from home. -/
theorem witness_scalarAtomicsAndSignals :
    (Ready (paged 0 (holding 8 5)) (holding 8 5) { srcs := [2, 3], regs := [111], role := .address } [word (loadVa + 8), 5]
        (paged 0 (holding 8 5)) ∧
      (paged 0 (holding 8 5)).locate (holding 8 5).who .atomic (word (loadVa + 8)) 8 = .ok (placeAt 0 8)) ∧
    (paged 0 (holding 4 5)).locate (holding 4 5).who .atomic (word (loadVa + 4)) 8 = .error ⟨cMISALIGNED, word (loadVa + 4)⟩ ∧
    (paged 0 (holding 4 5)).locate (holding 4 5).who .atomic (word (loadVa + 4)) 4 = .ok (placeAt 0 4) ∧
    Ready (paged 0 (full (holding 0 5))) (full (holding 0 5)) { srcs := [2, 3], role := .address } [word loadVa, 5]
      (paged 0 (full (holding 0 5))) ∧
    (Ready (paged 0 (asMt 9 (holding 0 5))) (asMt 9 (holding 0 5)) { srcs := [2, 3], regs := [4], role := .address } [word loadVa, 5]
      (paged 0 (asMt 9 (holding 0 5))) ∧
      (paged 0 (asMt 9 (holding 0 5))).locate (asMt 9 (holding 0 5)).who .atomic (word loadVa) 8 = .ok (placeAt 0 0)) ∧
    Ready (paged 0 (holding 8 5)) (holding 8 5) { srcs := [3, 2], role := .address } [5, word (loadVa + 8)] (paged 0 (holding 8 5)) :=
  ⟨⟨ready_of (by decide +kernel), ok_of (by decide +kernel)⟩, error_of (by decide +kernel), ok_of (by decide +kernel),
    ready_of (by decide +kernel), ⟨ready_of (by decide +kernel), ok_of (by decide +kernel)⟩, ready_of (by decide +kernel)⟩

/-- A tagged page with its first word full, or empty. -/
def tagged (b : Bool) (t : Thread) : State := { paged 1 t with full := [(loadFrame / 8, b)] }

theorem witness_fullEmptyAndWaits :
    (Ready (tagged true (holding 0 5)) (holding 0 5) { srcs := [2], dst := some 4, role := .address, acq := true } [word loadVa]
        (tagged true (holding 0 5)) ∧ (tagged true (holding 0 5)).thread 1 = some (holding 0 5) ∧
      (tagged true (holding 0 5)).locate (holding 0 5).who .fullEmpty (word loadVa) 8 = .ok (placeAt 1 0) ∧
      (tagged true (holding 0 5)).meetIds 1 (placeAt 1 0).key 8 true = [] ∧ (tagged true (holding 0 5)).isFull loadFrame = true ∧
      (tagged true (holding 0 5)).poisoned loadFrame 8 = none) ∧
    (Ready (tagged false (holding 0 5)) (holding 0 5) { srcs := [2], dst := some 4, role := .address, acq := true } [word loadVa]
        (tagged false (holding 0 5)) ∧ (tagged false (holding 0 5)).isFull loadFrame = false ∧
      ((tagged false (holding 0 5)).noteTlb 0 (word loadVa)).outputTrap 1 4 1 = none) ∧
    (let t := { holding 0 5 with heads := [word (6 * 2 ^ 29), 0, 0, 0, 0, 0, 0, 0] }
     Ready (tagged false t) t { srcs := [2], dst := some 112, role := .address, acq := true } [word loadVa] (tagged false t) ∧
      (tagged false t).locate t.who .fullEmpty (word loadVa) 8 = .ok (placeAt 1 0) ∧
      (tagged false t).meetIds 1 (placeAt 1 0).key 8 true = [] ∧ (tagged false t).isFull loadFrame = false ∧
      ((tagged false t).noteTlb 0 (word loadVa)).outputTrap 1 112 1 = some ⟨cSTAGE, allOnes⟩) ∧
    (Ready (tagged false (holding 0 5)) (holding 0 5) { srcs := [3, 2], role := .address } [5, word loadVa] (tagged false (holding 0 5)) ∧
      (tagged false (holding 0 5)).locate (holding 0 5).who .stfe (word loadVa) 8 = .ok (placeAt 1 0)) ∧
    (Ready (paged 0 (holding 8 0)) (holding 8 0) { srcs := [3, 2], role := .address, acq := true } [0, word (loadVa + 8)]
        (paged 0 (holding 8 0)) ∧
      (paged 0 (holding 8 0)).locate (holding 8 0).who .waitge (word (loadVa + 8)) 8 = .ok (placeAt 0 8) ∧
      (paged 0 (holding 8 0)).meetIds 1 (placeAt 0 8).key 8 true = [] ∧ (paged 0 (holding 8 0)).poisoned (placeAt 0 8).key 8 = none ∧
      ((paged 0 (holding 8 0)).rdWord (placeAt 0 8).key).toNat < (1 : Word).toNat) :=
  ⟨⟨ready_of (by decide +kernel), by decide +kernel, ok_of (by decide +kernel), by decide +kernel, by decide +kernel, by decide +kernel⟩,
    ⟨ready_of (by decide +kernel), by decide +kernel, by decide +kernel⟩,
    ⟨ready_of (by decide +kernel), ok_of (by decide +kernel), by decide +kernel, by decide +kernel, by decide +kernel⟩,
    ⟨ready_of (by decide +kernel), ok_of (by decide +kernel)⟩,
    ⟨ready_of (by decide +kernel), ok_of (by decide +kernel), by decide +kernel, by decide +kernel, by decide +kernel⟩⟩

/-- An access of that thread to the first word of the page, issued and not performed. -/
def issued (op : AccOp) : Access := ⟨1, 1, 0, 0, placeAt 0 0, [], false, op, []⟩
/-- The machine with that access outstanding. -/
def pending (op : AccOp) (t : Thread) : State := { paged 0 t with accs := [issued op], accN := 2 }

theorem witness_fences :
    (Plain (pending (.store [5]) (holding 0 0)) (holding 0 0) {} ∧
      ((pending (.store [5]) (holding 0 0)).accs.filter (fun a => a.tid = 1 && a.op.isWrite && decide (a.level ≤ 0))) ≠ []) ∧
    (Plain (paged 0 (holding 0 0)) (holding 0 0) {} ∧ (paged 0 (holding 0 0)).accs = []) ∧
    (Ready (paged 0 (holding 0 0)) (holding 0 0) { srcs := [2], role := .address } [word loadVa] (paged 0 (holding 0 0)) ∧
      (holding 0 0).kind ≠ .mt) ∧
    (Ready (paged 0 (asMt 0 (holding 0 0))) (asMt 0 (holding 0 0)) { srcs := [2], role := .address } [word loadVa]
        (paged 0 (asMt 0 (holding 0 0))) ∧
      (paged 0 (asMt 0 (holding 0 0))).locate (asMt 0 (holding 0 0)).who .migrate (word loadVa) 1 = .ok (placeAt 0 0) ∧
      (placeAt 0 0).home % 4096 = (asMt 0 (holding 0 0)).core) ∧
    (Ready (paged 0 (asMt 9 (holding 0 0))) (asMt 9 (holding 0 0)) { srcs := [2], role := .address } [word loadVa]
        (paged 0 (asMt 9 (holding 0 0))) ∧
      (paged 0 (asMt 9 (holding 0 0))).locate (asMt 9 (holding 0 0)).who .migrate (word loadVa) 1 = .ok (placeAt 0 0) ∧
      (placeAt 0 0).home % 4096 ≠ (asMt 9 (holding 0 0)).core) :=
  ⟨⟨plain_of (by decide +kernel), by decide +kernel⟩, ⟨plain_of (by decide +kernel), by decide +kernel⟩,
    ⟨ready_of (by decide +kernel), by decide +kernel⟩,
    ⟨ready_of (by decide +kernel), ok_of (by decide +kernel), by decide +kernel⟩,
    ⟨ready_of (by decide +kernel), ok_of (by decide +kernel), by decide +kernel⟩⟩

theorem witness_globalRegisters :
    (Plain (issuing th) th { dst := some 111, acq := true } ∧ Unordered (issuing th) th { dst := some 111, acq := true } ∧
      (issuing th).meetIds 1 (gLoc 0 31).key 1 true = []) ∧
    Ready (issuing th) th { srcs := [2] } [0] (issuing th) ∧
    (let a : Access := { issued (.gwr 31 7) with loc := gLoc 0 31 }
     ({ issuing th with accs := [a] } : State).performable 1 = some a ∧ (issuing th).arrivals = []) :=
  ⟨⟨plain_of (by decide +kernel), by unfold Unordered; decide +kernel, by decide +kernel⟩, ready_of (by decide +kernel),
    by decide +kernel, by decide +kernel⟩

/-- A store, a load, and an atomic that may be performed; the last for a thread that waits for its result. -/
theorem witness_accessesAtTheirHome :
    ((pending (.store [5]) (holding 0 0)).performable 1 = some (issued (.store [5])) ∧ (pending (.store [5]) (holding 0 0)).MemWf ∧
      (pending (.store [5]) (holding 0 0)).waiters = [] ∧ (pending (.store [5]) (holding 0 0)).arrivals = [] ∧
      inControl (placeAt 0 0).key = false ∧
      State.reset.fieldBytes (State.reset.lqtKey 16) [9, 7, 1] = [9, 1, 0] ∧
      State.reset.fieldBytes (State.reset.lqtKey 17) [7] = [7] ∧ State.reset.fieldBytes (State.reset.lqtKey 0) [9, 7] = [9, 7]) ∧
    (let op : AccOp := .load 8 1 (.scalar 8 false) false
     (pending op (loading [1])).performable 1 = some (issued op) ∧ (issued op).id = 1 ∧ (issued op).loc.kind ≠ 3 ∧
      (pending op (loading [1])).poisoned (issued op).loc.key 8 = none ∧
      (pending op (loading [1])).thread 1 = some (loading [1]) ∧ (loading [1]).state = .ready) ∧
    (let op : AccOp := .load 8 1 (.scalar 8 false) false
     let t : Thread := { loading [1] with state := .parked }
     (pending op t).performable 1 = some (issued op) ∧ t.state = .parked ∧
      (t.outs.map (fun d => if d.num = 1 then { d with waiting := d.waiting.filter (fun i => i ≠ 1) } else d)).all
        (fun d => d.waiting.isEmpty) = true) ∧
    (({ State.reset with agenda := [.memoryError 40 none] } : State).mgmt.power = 0 ∧ 40 < hbmEnd ∧ atomOf 40 = 32 ∧
      atomOf (scratchKey 2047 (scratchSize - 1)) = scratchKey 2047 (scratchSize - 16)) :=
  ⟨⟨by decide +kernel, by unfold State.MemWf; decide +kernel, by decide +kernel, by decide +kernel, by decide +kernel,
    by decide +kernel⟩, by decide +kernel, by decide +kernel, by decide +kernel⟩

/-- The line of the page's first byte: held by a handler; and with overflowed sharers that no write has invalidated. -/
theorem witness_sharedLines :
    let s : State := { pending (.store [5]) (holding 0 0) with overflowed := [(loadFrame / 128, false)] }
    s.performable 1 = some (issued (.store [5])) ∧ s.lineHeld (placeAt 0 0).key = false ∧ s.lineShared (placeAt 0 0).key = true ∧
    (s.core ((placeAt 0 0).home % 4096)).slots.length = 8 ∧
    (s.queueHandler 0 0 (.directory (loadFrame / 128))).lineHeld (placeAt 0 0).key = true ∧
    (pending (.store [5]) (holding 0 0)).lineShared (placeAt 0 0).key = false := by decide +kernel

/-- A thread that waits for the page's first word, w its registration, beside the thread that stores there. -/
def waitsThere (k : WaiterKind) : Waiter := ⟨2, placeAt 1 0, k, 5, false, false⟩
def waitingThere (ws : List Waiter) (full : Bool) (t : Thread) : State :=
  { tagged full (holding 0 0) with threads := [(1, holding 0 0), (2, t)], waiters := ws, accs := [{ issued (.store (bytesOf 8 7)) with loc := placeAt 1 0 }] }
def sleeper (kind : Kind) : Thread :=
  { th with kind := kind, state := if kind = .mt then .unplaced else .blocked, wait := some ⟨.word, 0, 0, 0, [2], [], [], false⟩ }

/-- Waiters of each kind whose word lets them pass, and one of each that it does not; a store of the whole word; two LDFEs. -/
theorem witness_wokenAtAWrite :
    (∀ k ∈ [WaiterKind.ldfe, .ldfec, .waitge 0, .joinw], ∀ kind ∈ [Kind.anchored, .mt],
      let s := waitingThere [waitsThere k] true (sleeper kind)
      s.waiters.filter (fun q => decide (q.loc.key = loadFrame)) = [waitsThere k] ∧ s.thread 2 = some (sleeper kind) ∧
      s.poisoned loadFrame 8 = none ∧ Claim.passes s loadFrame k = true) ∧
    (∀ k ∈ [WaiterKind.ldfe, .ldfec, .waitge 1], Claim.passes (waitingThere [] false th) loadFrame k = false) ∧
    (∀ q, (sleeper .anchored).wait = some q → q.grip = [] ∧ q.ready = false ∧ ∀ f ∈ q.srcs, f ≤ 111 ∨ 124 ≤ f) ∧
    (let s := waitingThere [waitsThere .joinw] true (sleeper .anchored)
     ∃ a bs, s.performable 1 = some a ∧ a.loc.key % 8 = 0 ∧ a.op = .store bs ∧ bs.length = 8 ∧ s.lineHeld a.loc.key = false ∧
      s.lineShared a.loc.key = false) ∧
    (let r := { waitsThere .ldfec with tid := 3 }
     (waitingThere [waitsThere .ldfe, r] true (sleeper .anchored)).waiters.filter (fun q => decide (q.loc.key = loadFrame)) =
      waitsThere .ldfe :: [r] ∧ r.tid ≠ 2) := by
  refine ⟨by decide +kernel, by decide +kernel, fun q h => ?_, ⟨{ issued (.store (bytesOf 8 7)) with loc := placeAt 1 0 }, bytesOf 8 7,
    by decide +kernel⟩, by decide +kernel⟩
  cases h
  decide

/-- An ARMED entry on the page's first word, which holds 9: at least 3 with steps of 4 fires twice and stays ARMED, or retires
where its repeats end. -/
def armed (r : Nat) : Watch := { state := 1, loc := placeAt 0 0, words := [0, 0xC, 0, 4, 0, 0, 0, 0], t := 3, r := r }
theorem armed_meets (r : Nat) (T : Word) : Claim.Meets (armed r) 9 T ↔ T.toNat ≤ (9 : Word).toNat := by
  have e : bits (nth (armed r).words 1 0) 1 0 = 0 := by
    simp only [armed]
    decide +kernel
  simp only [Claim.Meets, e]
theorem witness_watchFirings :
    (∀ r ∈ [5, 1], let s := ({ paged 0 (holding 0 0) with watch := [(0, [{}, armed r])] } : State).wrWord loadFrame 9
     (s.watchTable 0)[1]? = some (armed r) ∧ s.rdWord loadFrame = 9 ∧ Claim.Meets (armed r) 9 (Claim.threshold (armed r) 1) ∧
      ¬ Claim.Meets (armed r) 9 (Claim.threshold (armed r) 2) ∧
      (nth ((s.evalWatch loadFrame 0).watchTable 0) 1 {}).pend.length = 2 ∧
      (nth ((s.evalWatch loadFrame 0).watchTable 0) 1 {}).state = (if r = 1 then 2 else 1)) ∧
    (paged 0 (holding 0 0)).checkWords ⟨(armed 5).user, (armed 5).lnum, 0⟩ (word loadVa) 16 = .ok (blockPlaces 0 16) := by
  refine ⟨fun r h => ?_, ok_of (by decide +kernel)⟩
  rcases List.mem_pair.mp h with h | h <;> subst h <;>
    exact ⟨by decide +kernel, by decide +kernel, (armed_meets _ _).mpr (by decide +kernel), fun k => absurd ((armed_meets _ _).mp k) (by decide +kernel),
      by decide +kernel, by decide +kernel⟩

/-- Lanes of the scratchpad that fill a word, the last two of them at the same bytes; and one that leaves twelve bytes of it. -/
theorem witness_mergedStores :
    (let lane := fun (i o : Nat) => ((i, 0, ⟨scratchKey 0 o, 0, 0, 0, 0⟩) : Nat × Word × Loc)
     let ls := [lane 0 0, lane 1 4, lane 2 8, lane 3 12, lane 4 12]
     let bytes := fun (_ : Nat) => List.replicate 4 (7 : Byte)
     let reaches := fun (q : Nat × Word × Loc) (k : Nat) => q.2.2.key ≤ k ∧ k < q.2.2.key + (bytes q.1).length
     scratchKey 0 0 % 16 = 0 ∧ 2 ^ 44 ≤ scratchKey 0 0 ∧ scratchKey 0 0 < 2 ^ 45 ∧ (ls.map (fun q => q.1)).Nodup ∧
      (∀ q ∈ ls, q.2.2.key / 16 * 16 = scratchKey 0 0) ∧ (∀ i, i < 16 → ∃ q ∈ ls, reaches q (scratchKey 0 0 + i)) ∧
      (∃ i, i < 16 ∧ ∀ p ∈ [lane 0 0], ¬ reaches p (scratchKey 0 0 / 16 * 16 + i))) := by decide +kernel

theorem witness_readModifyWrites :
    let op : AccOp := .rmw .cas 8 5 0 (some (1, .whole))
    (pending op (loading [1])).performable 1 = some (issued op) ∧ (pending op (loading [1])).MemWf ∧
    (pending op (loading [1])).poisoned (issued op).loc.key 8 = none ∧ (pending op (loading [1])).waiters = [] ∧
    (pending op (loading [1])).thread 1 = some (loading [1]) ∧ (loading [1]).state = .ready ∧
    inControl ((issued op).loc.key + 7) = false :=
  ⟨by decide +kernel, by unfold State.MemWf; decide +kernel, by decide +kernel, by decide +kernel, by decide +kernel,
    by decide +kernel, by decide +kernel⟩

/-! ### Threads, launches, channels, items and barriers -/

/-- A PIPELINE launch on core 0: stage 0 draws COUNT items for queue 0, stage 1 takes them. -/
def pipeline (count : Nat) : Launch :=
  { loadLaunch with
    words := modify (modify loadLaunch.words 0 (fun x => x + 2)) 3 (fun _ => word count)
    stages := [⟨0, 127, 0, 127, .general, .anchored, 8, 0, 1, 1, 1, 1, 0, 0, 0, 0, 0⟩, ⟨0, 0, 127, 127, .general, .anchored, 8, 0, 1, 1, 1, 1, 0, 0, 0, 0, 0⟩]
    queues := [{ home := 0, ordered := false, cap := 1 }] }

/-- The machine in which t issues and its launch is l. -/
def launched (l : Launch) (t : Thread) : State := { paged 0 t with launches := [(0, l)] }

/-- FORK without a join word, with one, to a misaligned entry, in a PIPELINE launch, and with a misaligned join word. -/
theorem witness_fork :
    Ready (paged 0 (holding 0 0x20000)) (holding 0 0x20000) { srcs := [124, 3], upto := 24, role := .any }
      [0, 0x20000] (paged 0 (holding 0 0x20000)) ∧
    (Ready (paged 0 (holding 0 0x20000)) (holding 0 0x20000) { srcs := [2, 3], upto := 0, role := .address, acq := true }
        [word loadVa, 0x20000] (paged 0 (holding 0 0x20000)) ∧
      (paged 0 (holding 0 0x20000)).locate (holding 0 0x20000).who .atomic (word loadVa) 8 = .ok (placeAt 0 0) ∧
      (paged 0 (holding 0 0x20000)).meetIds 1 (placeAt 0 0).key 8 true = [] ∧
      (paged 0 (holding 0 0x20000)).poisoned (placeAt 0 0).key 8 = none ∧ (paged 0 (holding 0 0x20000)).lineHeld (placeAt 0 0).key = false ∧
      (paged 0 (holding 0 0x20000)).lineShared (placeAt 0 0).key = false ∧ Claim.inPipeline (paged 0 (holding 0 0x20000)) (holding 0 0x20000) = false) ∧
    (0x20002 : Word).toNat % 4 ≠ 0 ∧
    (Ready (launched (pipeline 1) (holding 0 0x20000)) (holding 0 0x20000) { srcs := [124, 3], role := .any } [0, 0x20000]
        (launched (pipeline 1) (holding 0 0x20000)) ∧
      Claim.inPipeline (launched (pipeline 1) (holding 0 0x20000)) (holding 0 0x20000) = true) ∧
    (paged 0 (holding 1 0x20000)).locate (holding 1 0x20000).who .atomic (word (loadVa + 1)) 8 =
      .error ⟨cMISALIGNED, word (loadVa + 1)⟩ ∧
    (paged 0 (holding 0 0)).thread (paged 0 (holding 0 0)).nextTid = none :=
  ⟨ready_of (by decide +kernel), ⟨ready_of (by decide +kernel), ok_of (by decide +kernel), by decide +kernel, by decide +kernel,
    by decide +kernel, by decide +kernel, by decide +kernel⟩, by decide +kernel, ⟨ready_of (by decide +kernel), by decide +kernel⟩,
    error_of (by decide +kernel), by decide +kernel⟩

/-- JOINW at a word that is 0, and at one that is 1: for an anchored thread, an MT, and an MT with results outstanding. -/
theorem witness_joinw :
    (Ready (paged 0 (holding 0 0)) (holding 0 0) { srcs := [2], role := .address, acq := true } [word loadVa] (paged 0 (holding 0 0)) ∧
      (paged 0 (holding 0 0)).locate (holding 0 0).who .atomic (word loadVa) 8 = .ok (placeAt 0 0) ∧
      (paged 0 (holding 0 0)).meetIds 1 (placeAt 0 0).key 8 true = [] ∧ (paged 0 (holding 0 0)).poisoned (placeAt 0 0).key 8 = none ∧
      (paged 0 (holding 0 0)).rdWord (placeAt 0 0).key = 0 ∧ (holding 0 0).kind ≠ .mt) ∧
    (let t := asMt 0 (holding 0 0)
     let s := (paged 0 t).wrWord loadFrame 1
     Ready s t { srcs := [2], role := .address, acq := true } [word loadVa] s ∧
      s.locate t.who .atomic (word loadVa) 8 = .ok (placeAt 0 0) ∧ s.rdWord (placeAt 0 0).key ≠ 0 ∧ t.allReturned = true ∧
      firstFree (s.core t.core).ctxSlots 0 511 = some 0) ∧
    (let t := { asMt 0 (holding 0 0) with outs := [⟨1, 5, [1], 9, false, 0, none, none⟩] }
     let s := (paged 0 t).wrWord loadFrame 1
     Ready s t { srcs := [2], role := .address, acq := true } [word loadVa] s ∧ s.rdWord (placeAt 0 0).key ≠ 0 ∧
      t.allReturned = false) :=
  ⟨⟨ready_of (by decide +kernel), ok_of (by decide +kernel), by decide +kernel, by decide +kernel, by decide +kernel, by decide +kernel⟩,
    ⟨ready_of (by decide +kernel), ok_of (by decide +kernel), by decide +kernel, by decide +kernel, by decide +kernel⟩,
    ⟨ready_of (by decide +kernel), by decide +kernel, by decide +kernel⟩⟩

/-- A block at offset o of the page, with words 0 and 4 as given. -/
def withBlock (w0 w4 : Word) (t : Thread) : State := ((paged 0 t).wrWord loadFrame w0).wrWord (loadFrame + 32) w4

theorem witness_launch :
    (let t := holding 0 0
     let s := withBlock 0 0 t
     Ready s t { srcs := [2], role := .address, rel := some 4 } [word loadVa] s ∧
      s.checkWords t.who (word loadVa) 16 = .ok (blockPlaces 0 16) ∧
      s.locate' t.who .store (word loadVa + 128) 8 = .ok (placeAt 0 128) ∧ (∀ l ∈ blockPlaces 0 16, s.lineHeld l.key = false) ∧
      bits (nth (s.wordsAt (blockPlaces 0 16)) 0 0) 3 0 ≠ 2) ∧
    ((word (loadVa + 1)).toNat % 8 ≠ 0 ∧ bits (2 ^ 56 : Word) 63 56 ≠ 0) ∧
    ((withBlock 0 0 (holding 0 0)).checkWords (holding 0 0).who (word (loadVa + 65528)) 16 =
        .error ⟨cNOTPRESENT, word (loadVa + 65536)⟩ ∧
      (withBlock 0 0 (holding 0 0)).checkWords (holding 0 0).who (word (loadVa + 65408)) 16 = .ok (blockPlaces 65408 16) ∧
      (withBlock 0 0 (holding 0 0)).locate' (holding 0 0).who .store (word (loadVa + 65408) + 128) 8 =
        .error ⟨cNOTPRESENT, word (loadVa + 65536)⟩) ∧
    (let s := withBlock 2 (word (loadVa + 0x400)) (holding 0 0)
     bits (nth (s.wordsAt (blockPlaces 0 16)) 0 0) 3 0 = 2 ∧ (nth (s.wordsAt (blockPlaces 0 16)) 4 0).toNat % 64 = 0 ∧
      bits (nth (s.wordsAt (blockPlaces 0 16)) 4 0) 63 56 = 0 ∧
      (s.noteTlb 0 (word loadVa)).checkWords (holding 0 0).who (word (loadVa + 0x400)) 72 = .ok (blockPlaces 0x400 72) ∧
      (∀ l ∈ blockPlaces 0x400 72, (s.noteTlb 0 (word loadVa)).lineHeld l.key = false)) ∧
    (let s := withBlock 2 (2 ^ 56) (holding 0 0)
     (nth (s.wordsAt (blockPlaces 0 16)) 4 0).toNat % 64 = 0 ∧ bits (nth (s.wordsAt (blockPlaces 0 16)) 4 0) 63 56 ≠ 0) :=
  ⟨⟨ready_of (by decide +kernel), ok_of (by decide +kernel), ok_of (by decide +kernel), by decide +kernel, by decide +kernel⟩,
    by decide +kernel, ⟨error_of (by decide +kernel), ok_of (by decide +kernel), error_of (by decide +kernel)⟩,
    ⟨by decide +kernel, by decide +kernel, by decide +kernel, ok_of (by decide +kernel), by decide +kernel⟩, by decide +kernel⟩

/-- A block that is accepted, one at an address that is not aligned, and one of a reserved kind. -/
theorem witness_submission :
    (paged 0 (holding 0 0)).launchReason loadLaunch.words 0 [] = 0 ∧ (paged 0 (holding 0 0)).launchReason loadLaunch.words 8 [] = 1 ∧
    (paged 0 (holding 0 0)).launchReason (3 :: List.replicate 15 0) 64 [] = 2 := by decide +kernel

theorem witness_threadInformation :
    Ready (issuing th) th { dst := some 111 } [] (issuing th) ∧ (issuing th).launchOf th.lnum = some loadLaunch ∧
    (5 : BitVec 3).toNat ≤ 5 ∧ Claim.Opens (issuing th) 1 111 0 :=
  ⟨ready_of (by decide +kernel), by decide +kernel, by decide,
    ⟨by decide +kernel, th, by decide +kernel, by decide +kernel, fun _ _ => ⟨rfl, rfl⟩⟩⟩

/-- A thread with the head q0 bound as the descriptor says. -/
def headed (h : Word) : Thread := { th with heads := [h, 0, 0, 0, 0, 0, 0, 0] }
/-- Descriptors: channel n taken from, narrow or wide, and added to; an inbox of the core received from, and one sent to. -/
def takes (n : Nat) (wide : Bool) : Word := word (2 ^ 29 + (if wide then 2 ^ 28 else 0) + n * 2 ^ 11)
def adds (n : Nat) (wide : Bool) : Word := word (2 * 2 ^ 29 + (if wide then 2 ^ 28 else 0) + n * 2 ^ 11)
def receives (n : Nat) : Word := word (3 * 2 ^ 29 + n * 2 ^ 11)
def sends (n core : Nat) : Word := word (4 * 2 ^ 29 + n * 2 ^ 11 + core)

/-- QBIND of a channel, an inbox, nothing, a kind that is reserved, and by an MT. -/
theorem witness_bind :
    (let t := th.setX 2 (takes 15 true) false
     Ready (issuing t) t { srcs := [2] } [takes 15 true] (issuing t) ∧ t.kind ≠ .mt ∧
      ((issuing t).unbindHead 1 7).mayBind t (takes 15 true) = true ∧
      headNum (takes 15 true) < (((issuing t).unbindHead 1 7).core 0).chans.length ∧
      ((issuing t).unbindHead 1 7).mayBind t (receives 15) = true ∧ headKind (receives 15) = 3 ∧
      headNum (receives 15) < (((issuing t).unbindHead 1 7).core 0).inboxes.length ∧
      ((issuing t).unbindHead 1 7).mayBind t 0 = true ∧ ((issuing t).unbindHead 1 7).mayBind t (word (7 * 2 ^ 29)) = false) ∧
    (let t := { th with kind := .mt }
     Ready (issuing t) t { srcs := [2] } [0] (issuing t) ∧ t.kind = .mt) :=
  ⟨⟨ready_of (by decide +kernel), by decide +kernel, by decide +kernel, by decide +kernel, by decide +kernel, by decide +kernel,
    by decide +kernel, by decide +kernel, by decide +kernel⟩, ⟨ready_of (by decide +kernel), by decide +kernel⟩⟩

/-- QPOLL of heads of every kind: 1 to 4, a stage's input in stages 0 and 1, and its output. -/
theorem witness_poll :
    (∀ h ∈ [takes 15 false, adds 0 true, receives 15, sends 15 2047],
      Ready (issuing (headed h)) (headed h) { dst := some 4, heads := [0] } [] (issuing (headed h)) ∧
      headKind ((headed h).headOf 0) ∈ [1, 2, 3, 4]) ∧
    (let t := headed (word (5 * 2 ^ 29))
     Ready (launched (pipeline 3) t) t { dst := some 4, heads := [0] } [] (launched (pipeline 3) t) ∧
      (launched (pipeline 3) t).launchOf t.lnum = some (pipeline 3) ∧ headKind (t.headOf 0) = 5 ∧ t.stage = 0) ∧
    (let t := { headed (word (5 * 2 ^ 29)) with stage := 1 }
     Ready (launched (pipeline 3) t) t { dst := some 4, heads := [0] } [] (launched (pipeline 3) t) ∧ t.stage ≠ 0 ∧
      ((pipeline 3).stages[t.stage]?).map (fun st => st.inq) = some 0 ∧ ((pipeline 3).queues[0]?).isSome = true) ∧
    (let t := headed (word (6 * 2 ^ 29))
     Ready (launched (pipeline 3) t) t { dst := some 4, heads := [0] } [] (launched (pipeline 3) t) ∧ headKind (t.headOf 0) = 6 ∧
      (pipeline 3).output t.stage (headSecond (t.headOf 0)) = some 0) := by
  refine ⟨fun h hh => ⟨ready_of ?_, ?_⟩, ⟨ready_of (by decide +kernel), by decide +kernel, by decide +kernel, rfl⟩,
    ⟨ready_of (by decide +kernel), by decide +kernel, by decide +kernel, by decide +kernel⟩,
    ⟨ready_of (by decide +kernel), by decide +kernel, by decide +kernel⟩⟩
  · have : ([takes 15 false, adds 0 true, receives 15, sends 15 2047].all (fun h => readyB (issuing (headed h)) (headed h)
        { dst := some 4, heads := [0] } [] (issuing (headed h)))) = true := by decide +kernel
    exact List.all_eq_true.mp this h hh
  · have : ([takes 15 false, adds 0 true, receives 15, sends 15 2047].all (fun h => decide (headKind ((headed h).headOf 0) ∈ [1, 2, 3, 4]))) =
        true := by decide +kernel
    exact of_decide_eq_true (List.all_eq_true.mp this h hh)

/-- A machine whose core 0 has wide channel 3 with the entries given. -/
def withWide (l : List Vec) (t : Thread) : State :=
  (issuing t).modCore 0 (fun k => { k with chans := modify k.chans 3 (fun _ => { owner := some 0, wide := true, entries := l }) })

/-- VQRD of a wide channel with an entry and of an empty one, and of a head that is narrow. -/
theorem witness_wideReads :
    (let t := headed (takes 3 true)
     Ready (withWide [7] t) t { vregs := [31], heads := [0], acq := true } [] (withWide [7] t) ∧ headKind (t.headOf 0) = 1 ∧
      headWide (t.headOf 0) = true ∧ Claim.entries (withWide [7] t) 0 3 = [7] ∧
      (withWide [7] t).available [⟨0, 3, false, false, 1⟩] = true ∧
      Ready (withWide [] t) t { vregs := [31], heads := [0], acq := true } [] (withWide [] t) ∧ Claim.entries (withWide [] t) 0 3 = []) ∧
    (let t := headed (takes 3 false)
     Ready (issuing t) t { vregs := [31], heads := [0], acq := true } [] (issuing t) ∧ headWide (t.headOf 0) = false) :=
  ⟨⟨ready_of (by decide +kernel), by decide +kernel, by decide +kernel, by decide +kernel, by decide +kernel, ready_of (by decide +kernel),
    by decide +kernel⟩, ⟨ready_of (by decide +kernel), by decide +kernel⟩⟩

/-- VQWR to a wide channel with room, to a full one, behind a store that its release follows, and to a head that is narrow. -/
theorem witness_wideWrites :
    (let t := headed (adds 3 true)
     Ready (withWide [] t) t { vregs := [31], heads := [0] } [] (withWide [] t) ∧ headKind (t.headOf 0) = 2 ∧ headWide (t.headOf 0) = true ∧
      (withWide [] t).available [⟨0, 3, false, true, 1⟩] = true ∧
      Ready (withWide (List.replicate 16 0) t) t { vregs := [31], heads := [0] } [] (withWide (List.replicate 16 0) t) ∧
      (withWide (List.replicate 16 0) t).available [⟨0, 3, false, true, 1⟩] = false ∧
      (let s := { withWide [] t with accs := [issued (.store [5])] }
       Ready s t { vregs := [31], heads := [0] } [] s ∧
        s.stillPending (s.releaseIds 1 (headScope (t.headOf 0)) ++ s.acquireIds 1) ≠ [])) ∧
    (let t := headed (adds 3 false)
     Ready (issuing t) t { vregs := [31], heads := [0] } [] (issuing t) ∧ headWide (t.headOf 0) = false) :=
  ⟨⟨ready_of (by decide +kernel), by decide +kernel, by decide +kernel, by decide +kernel, ready_of (by decide +kernel), by decide +kernel,
    ready_of (by decide +kernel), by decide +kernel⟩, ⟨ready_of (by decide +kernel), by decide +kernel⟩⟩

/-- SEND: a new packet with room and without, the eighth and the ninth word, and a head that sends nothing. -/
def sending (n : Nat) : Thread := { headed (sends 15 2047) with packet := if n = 0 then none else some ⟨0, List.replicate n 0⟩ }
theorem witness_packets :
    (let t : Thread := { sending 7 with stalled := some (.packet 0) }
     (issuing t).thread 1 = some t ∧ (issuing t).cur = 1 ∧ t.stalled = some (.packet 0)) ∧
    (∀ e ∈ [Stall.fork 0x10000 3, .wide 0 31, .packet 7], ({ th with stalled := some e } : Thread).stalled = some e) ∧
    (Ready (issuing (sending 0)) (sending 0) { srcs := [2], heads := [0], packetHead := some 0 } [0] (issuing (sending 0)) ∧
      headKind ((sending 0).headOf 0) = 4 ∧ (issuing (sending 0)).available [⟨2047, 15, true, true, 8⟩] = true) ∧
    (let s := (issuing (sending 0)).modCore 2047 (fun k => { k with inboxes := modify k.inboxes 15 (fun b => { b with reserved := 64 }) })
     Ready s (sending 0) { srcs := [2], heads := [0], packetHead := some 0 } [0] s ∧ s.available [⟨2047, 15, true, true, 8⟩] = false) ∧
    (Ready (issuing (sending 7)) (sending 7) { srcs := [2], heads := [0], packetHead := some 0 } [0] (issuing (sending 7)) ∧
      (Claim.packetWords (sending 7) 0).length ≤ 8 ∧
      (issuing (sending 7)).stillPending ((issuing (sending 7)).releaseIds 1 (headScope ((sending 7).headOf 0)) ++
        (issuing (sending 7)).acquireIds 1) = []) ∧
    (Ready (issuing (sending 8)) (sending 8) { srcs := [2], heads := [0], packetHead := some 0 } [0] (issuing (sending 8)) ∧
      (Claim.packetWords (sending 8) 0).length > 8) ∧
    (Ready (issuing (headed (takes 3 false))) (headed (takes 3 false)) { srcs := [2], heads := [0], packetHead := some 0 } [0]
        (issuing (headed (takes 3 false))) ∧ headKind ((headed (takes 3 false)).headOf 0) ≠ 4) :=
  ⟨by decide +kernel, fun _ _ => rfl, ⟨ready_of (by decide +kernel), by decide +kernel, by decide +kernel⟩,
    ⟨ready_of (by decide +kernel), by decide +kernel⟩,
    ⟨ready_of (by decide +kernel), by decide +kernel, by decide +kernel⟩, ⟨ready_of (by decide +kernel), by decide +kernel⟩,
    ⟨ready_of (by decide +kernel), by decide +kernel⟩⟩

/-- What an input gives, named. -/
def inputKind (x : Input) : Nat :=
  match x with
  | .item .. => 1
  | .atEnd => 2
  | .nothing => 3

/-- Does thread 1 find an item at its input, with room for it in s4 and s5. -/
def findsItem (s : State) (t : Thread) (l : Launch) : Bool :=
  let free := s.setThread 1 { t with item := none }
  match free.inputOf t.lnum l t.stage with
  | .item it l' =>
    let v := (free.setLaunch t.lnum l').modThread 1 (fun t => { t with item := some it })
    (v.meetPuts 1 [(5, it.seq.zeroExtend 64), (4, it.handle)]).isNone && decide ((v.thread 1).map (fun u => v.enqueueIds 1 u [5, 4]) = some [])
  | _ => false

/-- ITEMGET in stage 0 with an item and at the end, in stage 1 with nothing yet, and in no PIPELINE. -/
theorem witness_itemsTaken :
    (∀ n ∈ [0, 1], Ready (launched (pipeline n) th) th { dst := some 4, dst2 := some 5, acq := true } [] (launched (pipeline n) th) ∧
      th.kind ≠ .handler ∧ (launched (pipeline n) th).launchOf th.lnum = some (pipeline n) ∧ (pipeline n).pipeline = true ∧
      th.moved = false ∧
      inputKind (((launched (pipeline n) th).setThread 1 { th with item := none }).inputOf th.lnum (pipeline n) th.stage) = 2 - n) ∧
    (let t := { th with stage := 1 }
     let s := { launched (pipeline 1) t with threads := [(1, t), (2, th)] }
     Ready s t { dst := some 4, dst2 := some 5, acq := true } [] s ∧
      inputKind ((s.setThread 1 { t with item := none }).inputOf t.lnum (pipeline 1) t.stage) = 3) ∧
    (Ready (issuing th) th { dst := some 4, dst2 := some 5, acq := true } [] (issuing th) ∧ Claim.inPipeline (issuing th) th = false) ∧
    findsItem (launched (pipeline 1) th) th (pipeline 1) = true ∧
    (let v := ((launched (pipeline 0) th).setThread 1 { th with item := none }).modThread 1
      (fun t => t.modCsr (fun c => { c with ts := setBits c.ts 1 1 1 }))
     (v.meetPuts 1 [(5, 0), (4, 0)]).isNone = true ∧ (v.thread 1).map (fun u => v.enqueueIds 1 u [5, 4]) = some []) ∧
    (let l := { pipeline 1 with taken := [(3, false)] }
     findsItem (launched l th) th l = true ∧ th.stage = 0 ∧ l.returned = 3 :: []) := by
  refine ⟨fun n hn => ?_, ⟨ready_of (by decide +kernel), by decide +kernel⟩, ⟨ready_of (by decide +kernel), by decide +kernel⟩,
    by decide +kernel, by decide +kernel, by decide +kernel⟩
  have : ([0, 1].all (fun n => readyB (launched (pipeline n) th) th { dst := some 4, dst2 := some 5, acq := true } []
      (launched (pipeline n) th) && decide (th.kind ≠ .handler ∧ (launched (pipeline n) th).launchOf th.lnum = some (pipeline n) ∧
      (pipeline n).pipeline = true ∧ th.moved = false ∧
      inputKind (((launched (pipeline n) th).setThread 1 { th with item := none }).inputOf th.lnum (pipeline n) th.stage) = 2 - n))) = true := by
    decide +kernel
  have := List.all_eq_true.mp this n hn
  simp only [Bool.and_eq_true, decide_eq_true_eq] at this
  exact ⟨ready_of this.1, this.2⟩

/-- ITEMPUT: an output that there is, one that there is not, and no PIPELINE; offers that each queue meets, at their bounds. -/
theorem witness_itemsOffered :
    (Ready (launched (pipeline 1) th) th { srcs := [2, 3], rel := some 4 } [0, 0] (launched (pipeline 1) th) ∧
      (pipeline 1).output 0 false = some 0 ∧ (pipeline 1).output 0 true = none) ∧
    (Ready (issuing th) th { srcs := [2, 3], rel := some 4 } [0, 0] (issuing th) ∧ Claim.inPipeline (issuing th) th = false) ∧
    (let u : StageQueue := { home := 0, ordered := false, cap := 1 }
     offer u ⟨0, 5⟩ = .accepted u ∧ offer u ⟨9, 5⟩ = .accepted { u with items := [⟨9, 5⟩] } ∧
      offer { u with items := [⟨9, 5⟩] } ⟨9, 6⟩ = .wait ∧ offer { u with items := [⟨9, 5⟩] } ⟨0, 6⟩ = .wait) ∧
    (let u : StageQueue := { home := 0, ordered := true, cap := 2, next := 2 ^ 32 - 1 }
     ((0 : BitVec 32) - BitVec.ofNat 32 u.next).toNat = 1 ∧ offer u ⟨9, 0⟩ = .accepted { u with items := [⟨9, 0⟩] } ∧
      offer u ⟨9, 1⟩ = .wait ∧ offer u ⟨9, 0xFFFFFFFE⟩ = .stage ∧ offer { u with items := [⟨9, 0⟩] } ⟨8, 0⟩ = .stage ∧
      offer { u with claimed := [0] } ⟨9, 0⟩ = .stage ∧ ({ u with taken := [(⟨9, 0xFFFFFFFE⟩, true)] } : StageQueue).start = 2 ^ 32 - 2 ∧
      offer { u with taken := [(⟨9, 0xFFFFFFFE⟩, true)] } ⟨9, 0⟩ = .wait) :=
  ⟨⟨ready_of (by decide +kernel), by decide +kernel, by decide +kernel⟩, ⟨ready_of (by decide +kernel), by decide +kernel⟩,
    by decide +kernel, by decide +kernel⟩

/-- Heads bound to an inbox with a word and without, to one of another core, and to the input and output of a stage. -/
theorem witness_otherHeads :
    (let t := headed (receives 15)
     let s := fun (l : List InWord) => (issuing t).modCore 0 (fun k => { k with inboxes := modify k.inboxes 15 (fun b => { b with words := l }) })
     (s []).thread 1 = some t ∧ headKind (t.headOf 0) = 3 ∧ (nth ((s [⟨7, true, []⟩]).core 0).inboxes (headNum (t.headOf 0)) {}).words = [⟨7, true, []⟩] ∧
      (nth ((s []).core 0).inboxes (headNum (t.headOf 0)) {}).words = []) ∧
    headKind ((headed (sends 15 2047)).headOf 0) = 4 ∧
    (let t := headed (word (5 * 2 ^ 29))
     headKind (t.headOf 0) = 5 ∧ (launched (pipeline 1) t).launchOf t.lnum = some (pipeline 1) ∧
      inputKind (((launched (pipeline 1) t).setThread 1 { t with item := none }).inputOf t.lnum (pipeline 1) 0) = 1 ∧
      inputKind (((launched (pipeline 0) t).setThread 1 { t with item := none }).inputOf t.lnum (pipeline 0) 0) = 2 ∧
      (let s := { launched (pipeline 1) { t with stage := 1 } with threads := [(1, { t with stage := 1 }), (2, th)] }
       inputKind ((s.setThread 1 { t with stage := 1, item := none }).inputOf t.lnum (pipeline 1) 1) = 3)) ∧
    (let t := { headed (word (6 * 2 ^ 29)) with item := some ⟨9, 5⟩ }
     let u : StageQueue := { home := 0, ordered := false, cap := 1 }
     headKind (t.headOf 0) = 6 ∧ (launched (pipeline 1) t).launchOf t.lnum = some (pipeline 1) ∧
      (pipeline 1).output t.stage (headSecond (t.headOf 0)) = some 0 ∧ (pipeline 1).queues[0]? = some u ∧
      offer u ⟨7, 5⟩ = .accepted { u with items := [⟨7, 5⟩] }) := by decide +kernel

/-- A launch with the barrier objects 4,094 and 4,095. -/
def barred : Launch := { loadLaunch with words := modify loadLaunch.words 5 (fun _ => word (4094 + 2 * 2 ^ 16)) }

/-- Objects at both ends of a launch's range and beyond it; a first arrival, and a second one in the same phase. -/
theorem witness_barriers :
    (let t := th.setX 2 4095 false
     Ready (launched barred t) t { srcs := [2] } [4095] (launched barred t) ∧ Claim.MayUse (launched barred t) t 4095 ∧
      Claim.MayUse (launched barred t) t 4094 ∧ ¬ Claim.MayUse (launched barred t) t 4093 ∧
      look t.arrivals 4095 ≠ some ((launched barred t).barrier 4095).phase.toNat ∧
      Ready (launched barred t) t { srcs := [2], acq := true } [4095] (launched barred t) ∧
      Ready (launched barred t) t { srcs := [2], dst := some 4 } [4095] (launched barred t)) ∧
    (let t := th.setX 2 4095 false
     let s := { launched barred t with accs := [issued (.store [5])], accN := 2 }
     let v := s.joinBarrier 1 4095
     Ready s t { srcs := [2] } [4095] s ∧ s.mode = .service ∧ look t.arrivals 4095 ≠ some (s.barrier 4095).phase.toNat ∧
      v.stillPending (v.releaseIds 1 (v.barrier 4095).scope ++ v.acquireIds 1) ≠ []) ∧
    (let t := { th.setX 2 4095 false with arrivals := [(4095, 0)] }
     Ready (launched barred t) t { srcs := [2], acq := true } [4095] (launched barred t) ∧ Claim.MayUse (launched barred t) t 4095 ∧
      look t.arrivals 4095 = some ((launched barred t).barrier 4095).phase.toNat) ∧
    (let b : Barrier := { phase := 0xFFFFFFFF, parts := [1], arrived := [1] }
     b.arrived ≠ [] ∧ (∀ p ∈ b.parts, p ∈ b.arrived) ∧ (∃ p ∈ ({ b with parts := [1, 2] } : Barrier).parts, p ∉ b.arrived)) := by
  refine ⟨⟨ready_of (by decide +kernel), ⟨by decide +kernel, by decide +kernel, barred, by decide +kernel, by decide +kernel, by decide +kernel⟩,
    ⟨by decide +kernel, by decide +kernel, barred, by decide +kernel, by decide +kernel, by decide +kernel⟩, ?_, by decide +kernel,
    ready_of (by decide +kernel), ready_of (by decide +kernel)⟩,
    ⟨ready_of (by decide +kernel), by decide +kernel, by decide +kernel, by decide +kernel⟩, ⟨ready_of (by decide +kernel),
    ⟨by decide +kernel, by decide +kernel, barred, by decide +kernel, by decide +kernel, by decide +kernel⟩, by decide +kernel⟩, by decide +kernel⟩
  rintro ⟨-, -, l, hl, h, -⟩
  have : (launched barred (th.setX 2 4095 false)).launchOf (th.setX 2 4095 false).lnum = some barred := by decide +kernel
  rw [this] at hl
  cases hl
  exact absurd h (by decide +kernel)

/-! ### Engines, replicas, mailboxes, the canopy, traps and CSRs -/

def okAnd {ε α : Type} (x : Except ε α) (p : α → Bool) : Bool :=
  match x with
  | .ok a => p a
  | .error _ => false

theorem ok_and {ε α : Type} {x : Except ε α} {p : α → Bool} (h : okAnd x p = true) : ∃ a, x = .ok a ∧ p a = true := by
  unfold okAnd at h
  split at h
  · exact ⟨_, rfl, h⟩
  · exact absurd h (by decide)

def someAnd {α : Type} (x : Option α) (p : α → Bool) : Bool :=
  match x with
  | some a => p a
  | none => false

theorem some_and {α : Type} {x : Option α} {p : α → Bool} (h : someAnd x p = true) : ∃ a, x = some a ∧ p a = true := by
  unfold someAnd at h
  split at h
  · exact ⟨_, rfl, h⟩
  · exact absurd h (by decide)

/-- The thread in system mode. -/
def sys (t : Thread) : Thread := { t with csr := { t.csr with ts := 0x10000 } }
/-- Shadow fields of a copy of 64 bytes, and of a command of one row of B16. -/
def copyFields : List Word := [word loadVa, word (loadVa + 256), 64, 0, 0, 1, 0, 0, 1, 0x100, 0, 0, 0, 0]
def commandFields : List Word := [0xF200000000000000, 256, word (1 + 128 * 2 ^ 8), 0, 1, 0, 0, 0, 0, 0, 0, 0, 0, 0]
def shadowed (t : Thread) : Thread := { sys t with shadow0 := copyFields, shadow1 := commandFields }
/-- An operation x of thread 1 with the fields given, on engine e. -/
def operation (e x : Nat) (fs : List Word) : EngOp := { xid := x, engine := e, fields := fs, tid := 1, lnum := 0, user := true }
def engaged (l0 l1 : List EngOp) (t : Thread) : State := (paged 0 t).modCore 0 (fun k => { k with eng0 := l0, eng1 := l1 })

/-- XSET of each kind of field, XGET, XLAUNCH on both engines with room, without, and refused, XWAIT and MXWAIT. -/
theorem witness_engineInstructions :
    Ready (paged 0 (holding 0 5)) (holding 0 5) { srcs := [3], role := .address } [5] (paged 0 (holding 0 5)) ∧
    Ready (paged 0 (sys (holding 0 5))) (sys (holding 0 5)) { srcs := [3], role := .address, system := true } [5]
      (paged 0 (sys (holding 0 5))) ∧
    Ready (paged 0 (holding 0 5)) (holding 0 5) { dst := some 111 } [] (paged 0 (holding 0 5)) ∧
    (let t := shadowed (holding 0 5)
     Ready (paged 0 t) t { dst := some 111, role := .address } [] (paged 0 t) ∧ (paged 0 t).validate 1 t 0 = none ∧
      (paged 0 t).validate 1 t 1 = none ∧ (paged 0 t).stillPending ((paged 0 t).releaseIds 1 5 ++ (paged 0 t).acquireIds 1) = [] ∧
      Claim.Opens (paged 0 t) 1 111 1 ∧
      (let s := engaged (List.replicate 16 (operation 0 1 copyFields)) (List.replicate 8 (operation 1 1 commandFields)) t
       Ready s t { dst := some 111, role := .address } [] s ∧ s.validate 1 t 0 = none ∧ 16 ≤ ((s.core 0).engine 0).length ∧
        s.validate 1 t 1 = none ∧ 8 ≤ ((s.core 0).engine 1).length)) ∧
    (paged 0 (holding 0 5)).validate 1 (holding 0 5) 0 = some ⟨cFORMAT, 2⟩ ∧
    (let s := engaged [operation 0 5 copyFields] [operation 1 5 commandFields] (holding 0 5)
     Ready s (holding 0 5) { srcs := [3], acq := true } [5] s ∧ s.opEnded 0 0 5 = false ∧ s.opEnded 0 1 5 = false ∧
      Ready (paged 0 (holding 0 5)) (holding 0 5) { srcs := [3], acq := true } [5] (paged 0 (holding 0 5)) ∧
      (paged 0 (holding 0 5)).opEnded 0 0 5 = true ∧ (paged 0 (holding 0 5)).opEnded 0 1 5 = true) :=
  ⟨ready_of (by decide +kernel), ready_of (by decide +kernel), ready_of (by decide +kernel),
    ⟨ready_of (by decide +kernel), by decide +kernel, by decide +kernel, by decide +kernel,
      ⟨by decide +kernel, shadowed (holding 0 5), by decide +kernel, by decide +kernel, fun _ _ => ⟨rfl, rfl⟩⟩,
      ⟨ready_of (by decide +kernel), by decide +kernel, by decide +kernel, by decide +kernel, by decide +kernel⟩⟩,
    by decide +kernel, ⟨ready_of (by decide +kernel), by decide +kernel, by decide +kernel, ready_of (by decide +kernel),
      by decide +kernel, by decide +kernel⟩⟩

theorem witness_operationHandedOver :
    let t := shadowed (holding 0 5)
    (paged 0 t).thread (paged 0 t).cur = some t ∧ ((paged 0 t).core t.core).xstat.length = 2 := by decide +kernel

/-- The machine with a block for TRIG at the page, and watch entry 0 of core 0 as given. -/
def watching (e : Watch) (t : Thread) : State := { paged 0 t with watch := [(0, [e])] }
/-- The handle of that entry in generation g. -/
def handle (g : Nat) : Word := word (g * 2 ^ 32)

theorem witness_watchInstructions :
    (∀ o ∈ [0, 1], Ready (paged 0 (holding o 5)) (holding o 5) { srcs := [2], regs := Claim.window 111, role := .address } [word (loadVa + o)]
      (paged 0 (holding o 5))) ∧
    (paged 0 (holding 0 5)).checkWords (holding 0 5).who (word loadVa) 8 = .ok (blockPlaces 0 8) ∧ (holding 0 5).tooMany = false ∧
    Ready (paged 0 (full (holding 0 5))) (full (holding 0 5)) { srcs := [2], regs := Claim.window 111, role := .address } [word loadVa]
      (paged 0 (full (holding 0 5))) ∧
    (paged 0 (holding 65536 5)).checkWords (holding 65536 5).who (word (loadVa + 65536)) 8 = .error ⟨cNOTPRESENT, word (loadVa + 65536)⟩ :=
  ⟨fun o ho => ready_of (by
      have h : ([0, 1].all (fun o => readyB (paged 0 (holding o 5)) (holding o 5) { srcs := [2], regs := Claim.window 111, role := .address }
        [word (loadVa + o)] (paged 0 (holding o 5)))) = true := by decide +kernel
      exact List.all_eq_true.mp h o ho), ok_of (by decide +kernel), by decide +kernel, ready_of (by decide +kernel), error_of (by decide +kernel)⟩

/-- TRIGC and TRIGQ of an ARMED entry, of a RETIRING one, and of a handle whose generation has passed. -/
theorem witness_watchHandles :
    (let e : Watch := { state := 1, gen := 0xFFFF }
     let t := (holding 0 5).setX 3 (handle 0xFFFF) false
     Ready (watching e t) t { srcs := [3] } [handle 0xFFFF] (watching e t) ∧
      Ready (watching e t) t { srcs := [3], dst := some 111 } [handle 0xFFFF] (watching e t) ∧
      (watching e t).entryOf (handle 0xFFFF) = some (0, 0, e) ∧ (watching e t).entryOf (handle 0xFFFE) = none ∧
      (∀ q ∈ (watching e t).accs, q.tid = 1 → q.op.isWrite = true → overlap e.loc.key 8 q.loc.key q.op.size = false)) ∧
    (let e : Watch := { state := 2, pend := [⟨1, 2, 3, [], none, false⟩] }
     let t := (holding 0 5).setX 3 (handle 0) false
     Ready (watching e t) t { srcs := [3] } [handle 0] (watching e t) ∧ (watching e t).entryOf (handle 0) = some (0, 0, e)) :=
  ⟨⟨ready_of (by decide +kernel), ready_of (by decide +kernel), by decide +kernel, by decide +kernel, by decide +kernel⟩,
    ⟨ready_of (by decide +kernel), by decide +kernel⟩⟩

/-- A thread that is a handler for h. -/
def handling (h : Option HandlerFor) : Thread := { th with job := h }

/-- MXRD of the last chunk of the last row and of the number beyond it, HDONE in handlers of each kind, PPT with and without
a bank. -/
theorem witness_matrixInstructions :
    (Ready (paged 0 (holding 0 2047)) (holding 0 2047) { srcs := [3], vregs := [31] } [2047] (paged 0 (holding 0 2047)) ∧
      (holding 0 2047).tooMany = false ∧
      Ready (paged 0 (full (holding 0 2047))) (full (holding 0 2047)) { srcs := [3], vregs := [31] } [2047] (paged 0 (full (holding 0 2047))) ∧
      Ready (paged 0 (holding 0 2048)) (holding 0 2048) { srcs := [3], vregs := [31] } [2048] (paged 0 (holding 0 2048)) ∧
      (∃ o ∈ ((engaged [] [operation 1 5 commandFields] (holding 0 2047)).core 0).eng1, o.bankOf = 2047 / 2 ^ 10 ∧ o.accumulated = false)) ∧
    (∀ j ∈ [some (HandlerFor.drain 0 1 0 127 0 0 false 0), some (.directory 5), some (.system 2 1), none],
      Plain (issuing (handling j)) (handling j) { rel := some 4 } ∧ Unordered (issuing (handling j)) (handling j) { rel := some 4 }) ∧
    (Plain (issuing th) th {} ∧ (issuing th).ownedBanks 1 = [] ∧ th.preempt = false ∧
      ((issuing th).modCore 0 (fun k => { k with bankB := { owner := some 1 } })).ownedBanks 1 ≠ []) := by
  refine ⟨⟨ready_of (by decide +kernel), by decide +kernel, ready_of (by decide +kernel), ready_of (by decide +kernel),
    operation 1 5 commandFields, by decide +kernel, by decide +kernel⟩, fun j hj => ⟨plain_of ?_, ?_⟩,
    ⟨plain_of (by decide +kernel), by decide +kernel, by decide +kernel, by decide +kernel⟩⟩
  · have h : ([some (HandlerFor.drain 0 1 0 127 0 0 false 0), some (.directory 5), some (.system 2 1), none].all (fun j =>
      plainB (issuing (handling j)) (handling j) { rel := some 4 })) = true := by decide +kernel
    exact List.all_eq_true.mp h j hj
  · have h : ([some (HandlerFor.drain 0 1 0 127 0 0 false 0), some (.directory 5), some (.system 2 1), none].all (fun j => decide
      ((issuing (handling j)).stillPending ((issuing (handling j)).before 1 { rel := some 4 } (handling j)) = []))) = true := by decide +kernel
    exact (of_decide_eq_true (List.all_eq_true.mp h j hj) :
      (issuing (handling j)).stillPending ((issuing (handling j)).before 1 { rel := some 4 } (handling j)) = [])

/-- A machine with entry 1 of the object table as given: one member, a local replica on die 0, an update view at the page, a value
view at the next, then its state and its tideline area. -/
def objectCells (tail : List Host.Cell) : List Host.Cell :=
  [(8193, 64), (8199, 128), (16385, 96), (16391, 128), (24577, 128), (24583, 128), (32776, 16), (32778, 2), (32783, 174), (32784, 16),
   (32786, 3), (32791, 190), (32794, 4), (32799, 142), (32802, 5), (32807, 142)] ++ tail ++
  [(393353, 127), (393354, 127), (393355, 127), (393356, 127), (393357, 127), (393358, 127), (393359, 127), (393378, 1), (393386, 2),
   (393394, 3), (393413, 64), (393418, 4), (393440, 100)]
def withObject (tail : List Host.Cell) (t : Thread) : State :=
  { threads := [(1, t)], cur := 1, mem := objectCells tail, launches := [(0, loadLaunch)], ctl := [0x2000, 0, 0x60000, 0, 0, 0, 0, 0, 0, 0, 0],
    roots := (0x2000, 0) }
def objectWords (w0 nelem : Word) : List Word :=
  [w0, 0x7F7F7F7F7F7F7F00, 0, nelem, 0x10000, 0x20000, 0x30000, 0, 0x400000000000, 0x40000, 0, 0, 100, 0, 0, 0]
/-- A thread in system mode with the address in s2 and the value in s3. -/
def updating (a v : Word) : Thread := sys ((at2 a).setX 3 v false)

/-- A member table in a page that is not mapped holds the member 0 of a table of one. -/
theorem members_of_absent {s : State} {o : Sot} (hn : o.n = 1) (hm : o.mlist = 2 ^ 46) (hr : bits s.roots.1 39 13 * 2 ^ 13 = 0x2000)
    (h : bitAt (s.rdWord 0x2008) 63 = false) : s.membersOk o = true := by
  have hv : ∀ m, m < 64 → s.memberId o m = 0 := by
    intro m h64
    have hk : ∀ i, i < 8 → s.vbyte (2 ^ 46 + 8 * m + i) = 0 := by
      intro i hi
      have hi : (2 ^ 46 + 8 * m + i) / 2 ^ 46 % 1024 = 1 := by omega
      have : s.walk (2 ^ 46 + 8 * m + i) = .absent := by
        unfold State.walk pageIndexes
        rw [hr, hi]
        unfold State.walkFrom
        rw [if_pos (by rw [h]; decide)]
      unfold State.vbyte State.vkey
      rw [this]
    have hb : s.vbytes (2 ^ 46 + 8 * m) 8 = List.replicate 8 0 := by
      unfold State.vbytes
      rw [List.map_congr_left (g := fun _ => (0 : Byte)) (fun i hi => hk i (List.mem_range.mp hi))]
      rfl
    unfold State.memberId State.vword State.vnum
    rw [hm, hb]
    rfl
  have h0 := hv 0 (by omega)
  have h1 : ((List.range 63).all (fun i => decide (s.memberId o (1 + i) = 0))) = true :=
    List.all_eq_true.mpr (fun i hi => decide_eq_true (hv _ (by have := List.mem_range.mp hi; omega)))
  unfold State.membersOk
  rw [hn]
  simp only [List.range_one, List.map_cons, List.map_nil, h0, h1]
  cases o.device <;> rfl

/-- An entry whose words R298 allows and whose members are in order is valid. -/
theorem sot_of {s : State} {ws : List Word} {ty : OType} (hw : s.sotWords 1 = ws) (ht : otypeOf (bits (nth ws 0 0) 2 0) = some ty)
    (hf : ∀ q : State, q.membersOk (sotOf 0 ws ty) = true → q.sotFault ws = none) (hn : (sotOf 0 ws ty).n = 1)
    (hm : (sotOf 0 ws ty).mlist = 2 ^ 46) (hr : bits s.roots.1 39 13 * 2 ^ 13 = 0x2000)
    (h : bitAt (s.rdWord 0x2008) 63 = false) : s.sot 1 = some (sotOf 1 ws ty) := by
  simp only [State.sot]
  rw [hw, hf s (members_of_absent hn hm hr h), ht]

theorem pcsum_allowed (q : State) (h : q.membersOk (sotOf 0 (objectWords 0x80119 32) .pcsum) = true) :
    q.sotFault (objectWords 0x80119 32) = none := by
  simp only [State.sotFault, show otypeOf (bits (nth (objectWords 0x80119 32) 0 0) 2 0) = some .pcsum from by decide +kernel, h]
  decide +kernel

theorem awset_allowed (q : State) (h : q.membersOk (sotOf 0 (objectWords 0x48015C 0) .awset) = true) :
    q.sotFault (objectWords 0x48015C 0) = none := by
  simp only [State.sotFault, show otypeOf (bits (nth (objectWords 0x48015C 0) 0 0) 2 0) = some .awset from by decide +kernel, h]
  decide +kernel

theorem lwwt_allowed (q : State) (h : q.membersOk (sotOf 0 (objectWords 0x8014B 256) .lwwt) = true) :
    q.sotFault (objectWords 0x8014B 256) = none := by
  simp only [State.sotFault, show otypeOf (bits (nth (objectWords 0x8014B 256) 0 0) 2 0) = some .lwwt from by decide +kernel, h]
  decide +kernel

theorem element_of {s : State} {w : Who} {u : For} {a : Word} {l : Loc} {o : Sot} {e : Elem} (h1 : s.locate' w u a 1 = .ok l)
    (h2 : s.sot l.sotx = some o) (h3 : resolve o (l.kind = 2) a.toNat = some e) : s.findElem w u a = .elem e l := by
  unfold State.findElem
  rw [h1]
  simp only [h2]
  rw [h3]

theorem note_of {s : State} {ws : List Word} {ty : OType} (hw : s.sotWords 1 = ws)
    (hf : ∀ q : State, q.membersOk (sotOf 0 ws ty) = true → q.sotFault ws = none) (hn : (sotOf 0 ws ty).n = 1)
    (hm : (sotOf 0 ws ty).mlist = 2 ^ 46) (hr : bits s.roots.1 39 13 * 2 ^ 13 = 0x2000)
    (h : bitAt (s.rdWord 0x2008) 63 = false) (hs : (s.replica 1 0).seen = []) : s.noteSot 1 = s := by
  simp only [State.noteSot]
  rw [hw, hf s (members_of_absent hn hm hr h)]
  simp [hs]

/-- Objects of three types: a sum, a tile and a set, and threads that name the last element of each image, and the value views. -/
def sums (t : Thread) : State := withObject [(393344, 25), (393345, 1), (393346, 8), (393368, 32)] t
def tiles (t : Thread) : State := withObject [(393344, 75), (393345, 1), (393346, 8), (393369, 1)] t
def pages (t : Thread) : State := withObject [(393344, 92), (393345, 1), (393346, 72)] t
def sumSot : Sot := sotOf 1 (objectWords 0x80119 32) .pcsum
def tileSot : Sot := sotOf 1 (objectWords 0x8014B 256) .lwwt
def pageSot : Sot := sotOf 1 (objectWords 0x48015C 0) .awset
def viewed (a : Word) (kind frame : Nat) : Loc := ⟨frame + a.toNat % 65536, 0, kind, 1, a⟩

theorem witness_replicaUpdates :
    (let t := updating 0x100F8 5
     Ready (sums t) t { srcs := [2], regs := Claim.window 3, role := .address } [0x100F8] (sums t) ∧ t.tooMany = false ∧
      (sums t).findElem t.who .update 0x100F8 = .elem ⟨sumSot, 0, 0, 0xF8⟩ (viewed 0x100F8 2 0x20000) ∧
      Claim.Updatable ⟨sumSot, 0, 0, 0xF8⟩ 0 0x100F8 5 ∧ sumSot.ty ≠ memberType 1) ∧
    (let t := updating 0x100FC 5
     Ready (sums t) t { srcs := [2], regs := Claim.window 3, role := .address } [0x100FC] (sums t) ∧
      (sums t).findElem t.who .update 0x100FC = .elem ⟨sumSot, 0, 0, 0xFC⟩ (viewed 0x100FC 2 0x20000) ∧
      (0x100FC : Word).toNat % updateSize sumSot 0 ≠ 0) ∧
    (let t := updating 0x20000 5
     Ready (sums t) t { srcs := [2], regs := Claim.window 3, role := .address } [0x20000] (sums t) ∧
      ∃ r, (sums t).findElem t.who .update 0x20000 = .trap r) := by
  refine ⟨⟨ready_of (by decide +kernel), by decide +kernel, element_of (o := sumSot) (ok_of (by decide +kernel))
      (sot_of (by decide +kernel) (by decide +kernel) pcsum_allowed (by decide +kernel) (by decide +kernel) (by decide +kernel) (by decide +kernel))
      (by decide +kernel), ⟨by decide +kernel, by decide +kernel, by decide +kernel⟩, by decide +kernel⟩,
    ⟨ready_of (by decide +kernel), element_of (o := sumSot) (ok_of (by decide +kernel))
      (sot_of (by decide +kernel) (by decide +kernel) pcsum_allowed (by decide +kernel) (by decide +kernel) (by decide +kernel) (by decide +kernel))
      (by decide +kernel), by decide +kernel⟩, ⟨ready_of (by decide +kernel), ⟨cVIEW, 0x20000⟩, ?_⟩⟩
  unfold State.findElem
  rw [show (sums (updating 0x20000 5)).locate' (updating 0x20000 5).who .update 0x20000 1 = .error ⟨cVIEW, 0x20000⟩ from
    error_of (by decide +kernel)]

/-- A tile written from the last tile of the own scratchpad, and the page before the reserved one added to a set. -/
theorem witness_replicaTilesAndSets :
    (let t := updating 0x10000 0xF1000000000F7F00
     Ready (tiles t) t { srcs := [2], regs := Claim.window 3, role := .address } [0x10000] (tiles t) ∧ t.tooMany = false ∧
      (tiles t).findElem t.who .update 0x10000 = .elem ⟨tileSot, 0, 0, 0⟩ (viewed 0x10000 2 0x20000) ∧
      Claim.Updatable ⟨tileSot, 0, 0, 0⟩ 2 0x10000 0xF1000000000F7F00 ∧
      (((tiles t).noteTlb 0 0x10000).noteSot 1).tileSource t 0xF1000000000F7F00 256 = .ok (scratchKey 0 0xF7F00)) ∧
    (let t := updating 0x10000 0xFFFFFFFE
     Ready (pages t) t { srcs := [2], regs := Claim.window 3, role := .address } [0x10000] (pages t) ∧ t.tooMany = false ∧
      (pages t).findElem t.who .update 0x10000 = .elem ⟨pageSot, 0, 0, 0⟩ (viewed 0x10000 2 0x20000) ∧
      Claim.Updatable ⟨pageSot, 0, 0, 0⟩ 3 0x10000 0xFFFFFFFE ∧ Claim.Updatable ⟨pageSot, 0, 0, 0⟩ 4 0x10000 0xFFFFFFFE) ∧
    (let t := updating 0x10004 5
     Ready (pages t) t { srcs := [2], regs := Claim.window 3, role := .address } [0x10004] (pages t) ∧
      (pages t).findElem t.who .update 0x10004 = .elem ⟨pageSot, 0, 0, 4⟩ (viewed 0x10004 2 0x20000) ∧
      (0x10004 : Word).toNat % updateSize pageSot 3 = 0) := by
  refine ⟨⟨ready_of (by decide +kernel), by decide +kernel, element_of (o := tileSot) (ok_of (by decide +kernel))
      (sot_of (by decide +kernel) (by decide +kernel) lwwt_allowed (by decide +kernel) (by decide +kernel) (by decide +kernel) (by decide +kernel))
      (by decide +kernel), ⟨by decide +kernel, by decide +kernel, by decide +kernel⟩, ?_⟩,
    ⟨ready_of (by decide +kernel), by decide +kernel, element_of (o := pageSot) (ok_of (by decide +kernel))
      (sot_of (by decide +kernel) (by decide +kernel) awset_allowed (by decide +kernel) (by decide +kernel) (by decide +kernel) (by decide +kernel))
      (by decide +kernel), ⟨by decide +kernel, by decide +kernel, by decide +kernel⟩, ⟨by decide +kernel, by decide +kernel, by decide +kernel⟩⟩,
    ⟨ready_of (by decide +kernel), element_of (o := pageSot) (ok_of (by decide +kernel))
      (sot_of (by decide +kernel) (by decide +kernel) awset_allowed (by decide +kernel) (by decide +kernel) (by decide +kernel) (by decide +kernel))
      (by decide +kernel), by decide +kernel⟩⟩
  rw [note_of (by decide +kernel) lwwt_allowed (by decide +kernel) (by decide +kernel) (by decide +kernel) (by decide +kernel)
    (show ((((tiles (updating 0x10000 0xF1000000000F7F00)).noteTlb 0 0x10000).replica 1 0).seen = []) by decide +kernel)]
  exact ok_of (by decide +kernel)

/-- RSHAS, RFRONT, RWAITF, RSHIP and RSTAT on a value view: the frontier word of the only member, and the number beyond it. -/
theorem witness_replicaReads :
    let t := updating 0x20000 1
    let s := pages t
    let e : Elem := ⟨pageSot, 0, 0, 0⟩
    let v := (s.noteTlb 0 0x20000).noteSot 1
    Ready s t { srcs := [3, 2], role := .address, acq := true } [1, 0x20000] s ∧
    Ready s t { srcs := [2], regs := Claim.window 111, role := .address } [0x20000] s ∧ t.tooMany = false ∧
    Ready s t { srcs := [3, 2], role := .address, acq := true } [1, 0x20000] s ∧ Ready s t { srcs := [2], role := .address } [0x20000] s ∧
    Ready s t { srcs := [2], dst := some 111, role := .address, acq := true } [0x20000] s ∧
    s.findElem t.who .view 0x20000 = .elem e (viewed 0x20000 3 0x30000) ∧ e.o.ty = .awset ∧ (0 : BitVec 6).toNat < e.o.n ∧
    e.o.n ≤ (1 : BitVec 6).toNat ∧ v.ownUpdates 1 e = [] ∧ v.poisonIn (v.runRanges e ((1 : Word).toNat % 2 ^ 32)) = none ∧
    (v.vword (e.front 0)).toNat < 1 ∧
    (sums (updating 0x20000 1)).findElem t.who .view 0x20000 = .elem ⟨sumSot, 0, 0, 0⟩ (viewed 0x20000 3 0x30000) := by
  refine ⟨ready_of (by decide +kernel), ready_of (by decide +kernel), by decide +kernel, ready_of (by decide +kernel),
    ready_of (by decide +kernel), ready_of (by decide +kernel), element_of (o := pageSot) (ok_of (by decide +kernel))
      (sot_of (by decide +kernel) (by decide +kernel) awset_allowed (by decide +kernel) (by decide +kernel) (by decide +kernel) (by decide +kernel))
      (by decide +kernel), by decide +kernel, by decide +kernel, by decide +kernel, ?_, ?_, ?_, element_of (o := sumSot) (ok_of (by decide +kernel))
      (sot_of (by decide +kernel) (by decide +kernel) pcsum_allowed (by decide +kernel) (by decide +kernel) (by decide +kernel) (by decide +kernel))
      (by decide +kernel)⟩ <;>
    rw [note_of (by decide +kernel) awset_allowed (by decide +kernel) (by decide +kernel) (by decide +kernel) (by decide +kernel)
      (show ((((pages (updating 0x20000 1)).noteTlb 0 0x20000).replica 1 0).seen = []) by decide +kernel)] <;>
    decide +kernel

theorem witness_hybridClockRead :
    Ready (issuing th) th { dst := some 111 } [] (issuing th) ∧ Claim.Opens (issuing th) 1 111 1 ∧
    (issuing th).replaying = false ∧ (issuing th).hlc ≠ allOnes ∧
    (let s : State := { issuing th with mode := .test, mgmt := { (issuing th).mgmt with det := true, replayAt := some 0, supplied := [(6, unitCore 0, th.tidWord, 9)] } }
     Ready s th { dst := some 111 } [] s ∧ s.replaying = true ∧
      s.mgmt.supplied.find? (fun e => decide (e.1 = 6 ∧ e.2.1 = unitCore th.core ∧ e.2.2.1 = th.tidWord)) =
        some (6, unitCore th.core, th.tidWord, 9)) :=
  ⟨ready_of (by decide +kernel), ⟨by decide +kernel, th, by decide +kernel, by decide +kernel, fun _ _ => ⟨rfl, rfl⟩⟩, by decide +kernel,
    by decide +kernel, ready_of (by decide +kernel), by decide +kernel⟩

/-- The page with a mailbox's descriptor at its start and a sequence word at offset 256; the thread holds the descriptor's address in
s2 and that of a message in s3. -/
def boxed (ws : List Word) (q : Word) (t : Thread) : State :=
  (((List.range 5).zip ws).foldl (fun (s : State) (e : Nat × Word) => s.wrWord (loadFrame + 8 * e.1) e.2) (paged 0 t)).wrWord
    (loadFrame + 256) q
def post : Thread := holding 0 (word (loadVa + 65472))
/-- A sender and a receiver of one slot of 64 bytes, having sent n, and with message n the next to be taken. -/
def senderWords (n : Word) : List Word := [n, 0, word (loadVa + 128), word (loadVa + 256), word (2 ^ 62 + 64 * 2 ^ 32 + 2 ^ 16)]
def receiverWords (n : Word) : List Word := [n, 0, word (loadVa + 128), word (loadVa + 256), word (2 ^ 63 + 64 * 2 ^ 32 + 2 ^ 16)]

/-- MBSEND with a free slot and without, of a message at the end of the page, at an address that is misaligned, and of a message that
is beyond the page; MBRECV and MBPOLL with a message in place and without. -/
theorem witness_mailboxInstructions :
    (let s := boxed (senderWords 0) 0 post
     Ready s post { srcs := [3, 2], role := .address, rel := some 5 } [word (loadVa + 65472), word loadVa] s ∧
      (∃ b, s.box post.who (word loadVa) 1 = .ok b ∧ b.z = 64 ∧ ((s.noteTlb 0 (word loadVa)).noteTlb 0 (word (loadVa + 65472))).boxPoison b = none ∧
        b.free ≠ 0 ∧ ((s.noteTlb 0 (word loadVa)).noteTlb 0 (word (loadVa + 65472))).lineShared b.loc.key = false) ∧
      s.boxHeld post.who (word loadVa) = false ∧
      (∃ b, (boxed (senderWords 1) 0 post).box post.who (word loadVa) 1 = .ok b ∧ b.free = 0) ∧
      (∃ ls, s.locateBytes post.who .load (word (loadVa + 65472)) 64 = .ok ls ∧
        (((s.noteTlb 0 (word loadVa)).noteTlb 0 (word (loadVa + 65472))).messageBytes ls).2 = none ∧
        ∀ l ∈ ls, ((s.noteTlb 0 (word loadVa)).noteTlb 0 (word (loadVa + 65472))).lineHeld l.key = false) ∧
      s.box post.who (word (loadVa + 1)) 1 = .error ⟨cMISALIGNED, word (loadVa + 1)⟩ ∧
      s.box post.who (word loadVa) 2 = .error ⟨cFORMAT, word loadVa⟩ ∧
      s.locateBytes post.who .load (word (loadVa + 65536)) 64 = .error ⟨cNOTPRESENT, word (loadVa + 65536)⟩) ∧
    (let s := boxed (receiverWords 0) 1 post
     Ready s post { srcs := [2], dst := some 111, role := .address, acq := true } [word loadVa] s ∧
      s.boxHeld post.who (word loadVa) = false ∧ ∃ b, s.box post.who (word loadVa) 2 = .ok b ∧ s.box post.who (word loadVa) 0 = .ok b ∧
        (let v := s.noteTlb 0 (word loadVa)
         v.seqWord post.who b ((b.f 0).toNat % b.slots) = .ok 1 ∧
          (∀ k ∈ v.pollSlots post.who b, v.seqPoison post.who b k = none ∧ v.seqFault post.who b k = none) ∧
          (∀ k ∈ v.pollSlots post.who b, ∀ j ∈ v.seqKey post.who b k, v.lineHeld j = false) ∧ v.lineShared b.loc.key = false ∧
          v.boxPoison b = none ∧ v.seqPoison post.who b ((b.f 0).toNat % b.slots) = none ∧ inPlace 1 (b.f 0).toNat = true ∧
          inPlace 0 (b.f 0).toNat = false ∧ v.stillPending (v.meetIds 1 b.loc.key 64 true) = [] ∧ b.f 1 = 0)) := by
  refine ⟨⟨ready_of (by decide +kernel), ?_, by decide +kernel, ?_, ?_, ?_, ?_, error_of (by decide +kernel)⟩,
    ⟨ready_of (by decide +kernel), by decide +kernel, ?_⟩⟩
  · have h : okAnd ((boxed (senderWords 0) 0 post).box post.who (word loadVa) 1) (fun b => decide (b.z = 64 ∧
      (((boxed (senderWords 0) 0 post).noteTlb 0 (word loadVa)).noteTlb 0 (word (loadVa + 65472))).boxPoison b = none ∧ b.free ≠ 0 ∧
      (((boxed (senderWords 0) 0 post).noteTlb 0 (word loadVa)).noteTlb 0 (word (loadVa + 65472))).lineShared b.loc.key = false)) = true := by
      decide +kernel
    obtain ⟨b, h1, h2⟩ := ok_and h
    exact ⟨b, h1, of_decide_eq_true h2⟩
  · have h : okAnd ((boxed (senderWords 1) 0 post).box post.who (word loadVa) 1) (fun b => decide (b.free = 0)) = true := by decide +kernel
    obtain ⟨b, h1, h2⟩ := ok_and h
    exact ⟨b, h1, of_decide_eq_true h2⟩
  · have h : okAnd ((boxed (senderWords 0) 0 post).locateBytes post.who .load (word (loadVa + 65472)) 64) (fun ls => decide
      (((((boxed (senderWords 0) 0 post).noteTlb 0 (word loadVa)).noteTlb 0 (word (loadVa + 65472))).messageBytes ls).2.isNone = true ∧
      ∀ l ∈ ls, (((boxed (senderWords 0) 0 post).noteTlb 0 (word loadVa)).noteTlb 0 (word (loadVa + 65472))).lineHeld l.key = false)) = true := by
      decide +kernel
    obtain ⟨b, h1, h2⟩ := ok_and h
    have h2 := of_decide_eq_true h2
    exact ⟨b, h1, Option.isNone_iff_eq_none.mp h2.1, h2.2⟩
  · exact error_of (by decide +kernel)
  · exact error_of (by decide +kernel)
  · have h : okAnd ((boxed (receiverWords 0) 1 post).box post.who (word loadVa) 2) (fun b =>
      okAnd ((boxed (receiverWords 0) 1 post).box post.who (word loadVa) 0) (fun c => decide (b.loc = c.loc ∧ b.a = c.a ∧ b.w = c.w)) &&
      (let v := (boxed (receiverWords 0) 1 post).noteTlb 0 (word loadVa)
       okIs (v.seqWord post.who b ((b.f 0).toNat % b.slots)) 1 &&
        decide (∀ k ∈ v.pollSlots post.who b, v.seqPoison post.who b k = none ∧ (v.seqFault post.who b k).isNone) &&
        decide ((∀ k ∈ v.pollSlots post.who b, ∀ j ∈ v.seqKey post.who b k, v.lineHeld j = false) ∧ v.lineShared b.loc.key = false ∧
        v.boxPoison b = none ∧ v.seqPoison post.who b ((b.f 0).toNat % b.slots) = none ∧ inPlace 1 (b.f 0).toNat = true ∧
        inPlace 0 (b.f 0).toNat = false ∧ v.stillPending (v.meetIds 1 b.loc.key 64 true) = [] ∧ b.f 1 = 0))) = true := by decide +kernel
    obtain ⟨b, h1, h2⟩ := ok_and h
    rw [Bool.and_eq_true] at h2
    obtain ⟨c, h3, h4⟩ := ok_and h2.1
    have h4 := of_decide_eq_true h4
    have h5 : b = c := by
      cases b
      cases c
      simp only [Box.mk.injEq]
      exact h4
    have h6 := Bool.and_eq_true_iff.mp h2.2
    have h7 := of_decide_eq_true h6.2
    have h8 := Bool.and_eq_true_iff.mp h6.1
    have h9 := of_decide_eq_true h8.2
    exact ⟨b, h1, h5 ▸ h3, ok_of h8.1, fun k hk => ⟨(h9 k hk).1, Option.isNone_iff_eq_none.mp (h9 k hk).2⟩, h7⟩

/-- A mailbox whose slot and sequence word stand in a page for remote writes of this device, one of device 9, and a receiver's that
releases a slot. -/
def slotBox (kind dev : Nat) : Box :=
  ⟨placeAt kind 0, word loadVa,
    [0, 0, word (loadVa + 128), word (loadVa + 256), word (2 ^ 62 + 64 * 2 ^ 32 + 2 ^ 16 + dev), word (loadVa + 512), 0, 0]⟩
theorem witness_mailboxSlots :
    (let b := slotBox 5 0
     let q := (paged 5 post).putBox b 0 (b.f 0 + 1)
     b.dev = q.mgmt.devno ∧ b.z / 64 = 1 ∧ q.locate' ⟨false, 0, 3⟩ .remoteWrite (word (loadVa + 128) + word (64 * 0)) 64 = .ok (placeAt 5 128) ∧
      q.locate ⟨false, 0, 3⟩ .remoteWrite (b.f 3 + word (8 * 0)) 8 = .ok (placeAt 5 256) ∧ (slotBox 5 9).dev ≠ q.mgmt.devno) ∧
    (let b := slotBox 0 0
     let s := paged 0 post
     b.dev = s.mgmt.devno ∧ s.locate ⟨false, 0, 3⟩ .store (b.f 5 + 8) 8 = .ok (placeAt 0 520) ∧ s.MemWf ∧ s.waiters = [] ∧ s.watch = [] ∧
      b.loc.key + 8 * 7 + 8 ≤ controlPage ∧ s.lineShared (b.loc.key + 8 * 7) = false ∧
      s.fieldBytes (b.loc.key + 8 * 7) (bytesOf 8 (9 : Word).toNat) = bytesOf 8 (9 : Word).toNat) :=
  ⟨⟨by decide +kernel, by decide +kernel, ok_of (by decide +kernel), ok_of (by decide +kernel), by decide +kernel⟩,
    by decide +kernel, ok_of (by decide +kernel), by unfold State.MemWf; decide +kernel, by decide +kernel, by decide +kernel, by decide +kernel,
    by decide +kernel, by decide +kernel⟩

/-- The machine in which t issues, its launch of canopy group 5, with the queues of core 0 as given. -/
def grouped (i : List Operand) (o : List CanopyResult) (t : Thread) : State :=
  { launched { loadLaunch with words := modify loadLaunch.words 0 (fun x => x + word (5 * 2 ^ 45)) } t with
    cores := [(0, { canopyIn := i, canopyOut := o })] }

/-- TRPUT with seven operands queued and with eight, and in no group; TRGET with no result, with a good one and a bad one. -/
theorem witness_canopyInstructions :
    (∀ rel ∈ [some 4, none], Ready (grouped (List.replicate 7 ⟨4, 0, 0, 0, 0⟩) [] th) th { vregs := [31], rel := rel } []
      (grouped (List.replicate 7 ⟨4, 0, 0, 0, 0⟩) [] th)) ∧
    (let s := grouped (List.replicate 8 ⟨5, 0, 0, 0, 0⟩) [] th
     Ready s th { vregs := [31] } [] s ∧ s.groupOf th.lnum = 5 ∧ 8 ≤ (s.core 0).canopyIn.length) ∧
    (grouped (List.replicate 7 ⟨4, 0, 0, 0, 0⟩) [] th).groupOf th.lnum = 5 ∧
    (Ready (issuing th) th { vregs := [31] } [] (issuing th) ∧ (issuing th).groupOf th.lnum = 0) ∧
    (grouped [] [⟨4, 0, 1, false, false⟩] th).resultFor 0 5 = none ∧
    (∀ bad ∈ [true, false], let q : CanopyResult := ⟨5, 0, 1, bad, true⟩
     Ready (grouped [] [q] th) th { vregs := [31] } [] (grouped [] [q] th) ∧ (grouped [] [q] th).resultFor 0 5 = some q ∧
      (grouped [] [q] th).stillPending ((grouped [] [q] th).acquireIds 1) = []) := by
  refine ⟨fun rel h => ready_of ?_, ⟨ready_of (by decide +kernel), by decide +kernel, by decide +kernel⟩, by decide +kernel,
    ⟨ready_of (by decide +kernel), by decide +kernel⟩, by decide +kernel, fun bad h => ⟨ready_of ?_, ?_, ?_⟩⟩
  · rcases List.mem_pair.mp h with h | h <;> subst h <;> decide +kernel
  all_goals rcases List.mem_pair.mp h with h | h <;> subst h <;> decide +kernel

theorem witness_takingATrap :
    (issuing (loading [1])).thread 1 = some (loading [1]) ∧ (loading [1]).job = none ∧ (loading [1]).place = some ⟨0, 0, 0⟩ ∧
    cECC < 2 ^ 31 ∧ (∀ d ∈ (loading [1]).outs, d.waiting ≠ []) ∧ 0 < ((issuing (loading [1])).core 0).slots.length := by decide +kernel

/-- The machine with a session in DEBUG-FULL. -/
def debugged (t : Thread) : State := { issuing t with mgmt := { (issuing t).mgmt with secst := 2 } }

/-- TRAP and BKPT of an unclaimed and a claimed thread; a word that is no instruction; ERET in a system handler and elsewhere; UIRET
in a user-level interrupt and elsewhere. -/
theorem witness_trapsAndReturns :
    (Plain (issuing th) th {} ∧ (issuing th).claimed th = false ∧ Plain (debugged th) th {} ∧ (debugged th).claimed th = true) ∧
    ((issuing th).thread (issuing th).cur = some th ∧ th.state ≠ .exited ∧ th.job = none) ∧
    (Plain (issuing (sys (handling (some (.system 2 1))))) (sys (handling (some (.system 2 1)))) { system := true } ∧
      (sys (handling (some (.system 2 1)))).job = some (.system 2 1)) ∧
    (Plain (issuing (sys th)) (sys th) { system := true } ∧ ¬ ∃ g n, (sys th).job = some (.system g n)) ∧
    (let t : Thread := { th with csr := { th.csr with ts := 0x100 } }
     Plain (issuing t) t {} ∧ t.csr.ts.getLsbD 8 = true ∧ th.csr.ts.getLsbD 8 = false) :=
  ⟨⟨plain_of (by decide +kernel), by decide +kernel, plain_of (by decide +kernel), by decide +kernel⟩, by decide +kernel,
    ⟨plain_of (by decide +kernel), by decide +kernel⟩,
    ⟨plain_of (by decide +kernel), fun ⟨_, _, h⟩ => absurd (h.symm.trans (show (sys th).job = none by decide +kernel)) (by simp)⟩,
    ⟨plain_of (by decide +kernel), by decide +kernel, by decide +kernel⟩⟩

/-- A trapped thread, and the handler that runs for it. -/
def trapped : Thread := { th with state := .trapped }
def handler : Thread := { handling (some (.system 1 5)) with kind := .handler, place := some ⟨0, 0, 7⟩ }
def handled : State := { threads := [(1, trapped), (2, handler)], cur := 2, launches := [(0, loadLaunch)] }

theorem witness_returnFromTrap :
    2 ≠ 1 ∧ handled.thread 2 = some handler ∧ handled.thread 1 = some trapped ∧ handler.kind = .handler ∧ trapped.state = .trapped ∧
    trapped.inFrame = false := by decide +kernel

/-- A trap in that handler, and in one that serves a directory line. -/
theorem witness_handlerTraps :
    (handled.thread 2 = some handler ∧ handler.job = some (.system 1 5) ∧ handled.thread 1 = some trapped ∧ 2 ≠ 1) ∧
    (let h : Thread := { handler with job := some (.directory 7) }
     ({ handled with threads := [(2, h)] } : State).thread 2 = some h ∧ h.job = some (.directory 7)) := by decide +kernel

/-- The CSRs of position 6 of the slot, with a thread and without; `hsel` of 7, of an empty position, and of one with a thread. -/
theorem witness_otherCsrs :
    (let h (x : Word) : Thread := sys { th with place := some ⟨0, 0, 7⟩, csr := { th.csr with hsel := x } }
     let u : Thread := { th with place := some ⟨0, 0, 6⟩ }
     let s (x : Word) : State := { issuing (h x) with threads := [(1, h x), (2, u)] }
     (s 7).thread (s 7).cur = some { h 7 with csr := { (h 7).csr with hsel := 7 } } ∧ (h 7).place = some ⟨0, 0, 7⟩ ∧
      (s 7).resident 0 0 6 = some (2, u) ∧ (s 7).thread 2 = some u ∧ (s 7).resident 0 0 5 = none ∧ (6 : Nat) < 7 ∧ (12 : Nat) ≤ 12 ∧
      bits (7 : Word) 2 0 = 7 ∧ bits (h 5).csr.hsel 2 0 = 5 ∧ bits (h 6).csr.hsel 2 0 ≠ 7 ∧ bits (h 6).csr.hsel 2 0 = 6 ∧
      u.taint.length = 112) ∧
    ((issuing (sys th)).core 0).pmcLater = [] ∧ ((issuing (sys th)).core 0).pmselLater = [] := by decide +kernel

/-- CSRs 0, 0x3FF and 0x400, read and written, in the mode that may. -/
theorem witness_csrInstructions :
    (∀ c ∈ [(0, 0, th), (15, 63, th), (16, 0, sys th)],
      Ready (issuing c.2.2) c.2.2 { dst := some 111, system := decide (0x400 ≤ 64 * c.1 + c.2.1) } [] (issuing c.2.2) ∧
      Ready (issuing c.2.2) c.2.2 { srcs := [2], system := decide (0x400 ≤ 64 * c.1 + c.2.1) } [0] (issuing c.2.2)) ∧
    (th.user = true ∧ 0x10 ≤ (16 : BitVec 6).toNat ∧ (issuing th).thread (issuing th).cur = some th ∧ th.state ≠ .exited) ∧
    Claim.Opens (issuing th) 1 111 0 := by
  refine ⟨fun c hc => ⟨ready_of ?_, ready_of ?_⟩, by decide +kernel, ⟨by decide +kernel, th, by decide +kernel, by decide +kernel, fun _ _ => ⟨rfl, rfl⟩⟩⟩
  · have h : ([(0, 0, th), (15, 63, th), (16, 0, sys th)].all (fun c => readyB (issuing c.2.2) c.2.2
      { dst := some 111, system := decide (0x400 ≤ 64 * c.1 + c.2.1) } [] (issuing c.2.2))) = true := by decide +kernel
    exact List.all_eq_true.mp h c hc
  · have h : ([(0, 0, th), (15, 63, th), (16, 0, sys th)].all (fun c => readyB (issuing c.2.2) c.2.2
      { srcs := [2], system := decide (0x400 ≤ 64 * c.1 + c.2.1) } [0] (issuing c.2.2))) = true := by decide +kernel
    exact List.all_eq_true.mp h c hc

theorem witness_ownCsrWrites :
    (issuing th).thread (issuing th).cur = some th ∧ th.user = true ∧ (12 : Nat) ≤ 12 ∧
    (issuing (sys th)).thread (issuing (sys th)).cur = some (sys th) ∧ (sys th).user = false := by decide +kernel

/-- TLBINV of every page and of one page, with no write outstanding and with one. -/
theorem witness_translationsInvalidated :
    (Plain (paged 0 (sys (holding 0 5))) (sys (holding 0 5)) { system := true } ∧
      (paged 0 (sys (holding 0 5))).accs.filter (fun q => q.tid = 1 && q.op.isWrite && decide (q.level ≤ 5)) = []) ∧
    Ready (paged 0 (sys (holding 0 5))) (sys (holding 0 5)) { srcs := [2], system := true, role := .address } [word loadVa]
      (paged 0 (sys (holding 0 5))) ∧
    (Plain (pending (.store [5]) (sys (holding 0 5))) (sys (holding 0 5)) { system := true } ∧
      (pending (.store [5]) (sys (holding 0 5))).accs.filter (fun q => q.tid = 1 && q.op.isWrite && decide (q.level ≤ 0)) ≠ []) :=
  ⟨⟨plain_of (by decide +kernel), by decide +kernel⟩, ready_of (by decide +kernel), ⟨plain_of (by decide +kernel), by decide +kernel⟩⟩

/-- What the checks meet first, one after the other. -/
theorem witness_firstTrap :
    ((true = true → th.kind ≠ .mt) ∧ (false = true → th.kind = .mt) ∧ th.user = true ∧ (sys th).user = false) ∧
    (let t : Thread := { th with role := .access }
     let u : Thread := { th with role := .execute }
     (RoleClass.float = .float ∧ t.role = .access) ∧ (RoleClass.address = .address ∧ u.role = .execute) ∧
      ¬ ((RoleClass.float = .float ∧ th.role = .access) ∨ (RoleClass.address = .address ∧ th.role = .execute))) ∧
    (let t := newThread .anchored .general 0 0 111 31 0 0 []
     t.slen ≤ 111 ∧ t.vlen ≤ 31 ∧ ({ srcs := [111] } : Use).badRegs t ≠ [] ∧ ({ srcs := [110], vregs := [30] } : Use).badRegs t = []) ∧
    (({ srcs := [119] } : Use).badRegs th = [] ∧ headKind (th.headOf (119 - 112)) = 0 ∧ ({ srcs := [5] } : Use).unbound th = [] ∧
      ∃ d ∈ (loading [1]).outs, d.dest = 5) := by decide +kernel

/-! ### The part's own steps -/

/-- The machine whose launch-queue table gives SHAREK 12 and weight 255 to every queue, core 0 at the boundary after 4,096 rotations. -/
def sharing (u : Bool) : State :=
  { mem := (0x100, 12) :: (List.range 16).map (fun q => (0x108 + 8 * q, 255)),
    ctl := [0, 0, 0, 0, 0, 0x100, 0, 0, 0, 0, 0], cores := [(0, { rotation := if u then 4097 else 4096, urgent := u })] }

/-- Slot 0 with the residents given, at positions 0, 3 and 6, all of which can issue, and the slot's own state. -/
def resident (p : Nat) (age waits : Nat) : Thread := { th with place := some ⟨0, 0, p⟩, age := age, waitCount := waits }
def slotOf (ts : Tab Thread) (q : Slot) : State :=
  { issuing th with threads := ts, cores := [(0, { slots := q :: List.replicate 7 {} })] }

/-- A handler's turn, a slot with none eligible; RR past the last position; GTO with an overdue resident, with one that runs on,
with one whose greed is used up beside another and alone, and with none current. -/
theorem witness_residentChosen :
    (let h : Thread := { resident 7 0 0 with kind := .handler, job := some (.directory 7) }
     let s := slotOf [(1, resident 0 0 0), (4, h)] {}
     s.resident 0 0 7 = some (4, h) ∧ s.eligible 4 h = true ∧ 0 < (s.core 0).slots.length) ∧
    (slotOf [] {}).candidates 0 0 = [] ∧
    (let a := resident 0 5 0
     let b := resident 3 4 64
     let c := resident 6 4 64
     let s (q : Slot) := slotOf [(1, a), (2, b), (3, c)] q
     let l := [(0, 1, a), (3, 2, b), (6, 3, c)]
     (∀ q ∈ [({ pol := true, lastPos := 3 } : Slot), { current := some 0 }, { current := some 3, greed := 64 }, {}],
       (s q).candidates 0 0 = l ∧ (s q).resident 0 0 7 = none ∧ (∀ e ∈ l, (s q).thread e.2.1 = some e.2.2) ∧ q.lastPos < 7) ∧
     (∀ f ∈ l, (6 + 6 - 3) % 7 ≤ (f.1 + 6 - 3) % 7) ∧
     (∀ f ∈ l, (some 0 ≠ some f.1 ∧ 64 ≤ f.2.2.waitCount) → f.1 ≠ 3 → b.age < f.2.2.age ∨ (b.age = f.2.2.age ∧ 3 < f.1))) ∧
    (let a := resident 0 5 63
     let b := resident 3 4 0
     let s (q : Slot) := slotOf [(1, a), (2, b)] q
     (∀ q ∈ [({ current := some 0, greed := 63 } : Slot), { current := some 0, greed := 64 }, { current := some 0, yielded := true }, {}],
       (s q).candidates 0 0 = [(0, 1, a), (3, 2, b)] ∧ ∀ f ∈ [(0, 1, a), (3, 2, b)], ¬ 64 ≤ f.2.2.waitCount) ∧
     (slotOf [(1, a)] { current := some 0, greed := 64 }).candidates 0 0 = [(0, 1, a)]) := by decide +kernel

theorem witness_slotSharing :
    ((sharing false).mgmt.power = 0 ∧ (sharing false).shareDue 0 = true) ∧
    ((sharing true).mgmt.power = 0 ∧ ((sharing true).core 0).urgent = true ∧ ((sharing true).core 0).nextSlot = 0 ∧
      (sharing true).shareDue 0 = false) ∧
    ((sharing false).core 0).slots.length = 8 ∧
    (let s := (issuing th).modCore 0 (fun k => { k with slots := modify k.slots 0 (fun q => { q with owner := 3 }) })
     (1, th) ∈ s.inSlot 0 0 ∧ s.thread 1 = some th) ∧
    (∀ qs ∈ [List.range 8, List.range 9, List.range 16, [15]], qs ≠ [] ∧ List.Pairwise (fun a b => a < b) qs ∧
      ∀ q ∈ qs, q < 16 ∧ (sharing false).weight q ≠ 0) ∧
    (∀ counts ∈ [([(0, 4), (15, 4)] : Tab Nat), [(0, 8)], [(3, 7), (15, 1)]], [0, 0, 0, 0, 15, 15, 15, 15].length = 8 ∧
      (∀ q ∈ [0, 0, 0, 0, 15, 15, 15, 15], q < 16) ∧ (counts.map (fun e => e.1)).Nodup ∧ (∀ e ∈ counts, e.1 < 16) ∧
      (counts.map (fun e => e.2)).sum = 8) := by
  exact ⟨by decide +kernel, by decide +kernel, by decide +kernel, by decide +kernel, by decide +kernel, by decide +kernel⟩

/-- Core 0 with handler starts in slot j. -/
def starting (j : Nat) (h : HandlerFor) (t : Thread) : State :=
  { issuing t with nextTid := 5, cores := [(0, { slots := modify (List.replicate 8 {}) j (fun q => { q with starts := [h] }) })],
                   tlbs := [⟨0, 0, 0, false⟩] }

/-- Starts for a trapped thread, a directory line and a drained row, and a line that overflows. -/
theorem witness_handlersStart :
    (∀ h ∈ [HandlerFor.system 1 5, .directory 7, .drain 0 3 1 127 0 5 true 1, .drain 0 3 1 127 0 5 false 1],
      ((starting 7 h trapped).core 0).slot 7 = { starts := [h] } ∧ (starting 7 h trapped).resident 0 7 7 = none ∧
      (starting 7 h trapped).mgmt.power = 0 ∧ (starting 7 h trapped).thread (starting 7 h trapped).nextTid = none ∧
      7 < ((starting 7 h trapped).core 0).slots.length) ∧
    (let s := starting 7 (.system 1 5) trapped
     s.thread 1 = some trapped ∧ trapped.state = .trapped ∧ trapped.allReturned = true ∧
      s.accs.all (fun a => decide (a.tid ≠ 1)) = true) ∧
    (((starting 7 (.drain 0 3 1 127 0 5 true 1) trapped).modCore 0 (fun k => { k with eng1 := [operation 1 3 commandFields] })).engOp 0 1 3 =
      some (operation 1 3 commandFields)) ∧
    (let s := starting 7 (.directory 6) trapped
     s.mgmt.power = 0 ∧ s.lineHeld (128 * 7) = false ∧ s.lineHome 7 = some 0) := by decide +kernel

/-- A machine with one thread that waits for a position on core 0, beside the threads given. -/
def waiting (t : Thread) (rest : Tab Thread) : State :=
  { threads := (1, t) :: rest, nextTid := 9, launches := [(0, loadLaunch)], cores := [(0, {})] }

/-- A thread with the largest windows that a slot holds, placed in its last position. -/
theorem witness_threadsArePlaced :
    let t : Thread := { newThread .anchored .general 0 0 112 32 0 0x10000 [] with state := .unplaced }
    (let s := waiting t []
     s.resident 0 0 6 = none ∧ s.placing = true ∧ s.thread 1 = some t ∧ s.launchOf t.lnum = some loadLaunch ∧
      s.lowerSlot 1 0 0 = false ∧ s.windows 0 0 t = some (0, 0) ∧
      (s.live.filter (fun e => decide (e.2.kind = .anchored ∧ e.2.core = 0 ∧ e.2.place = none ∧
        (e.2.state = .unplaced ∨ e.2.state = .suspended)))).map (fun e => e.1) = [1] ∧ s.findMt 0 0 = none ∧
      (∃ q, s.tryPlace 1 0 0 6 = .ok q ∧ q.mgmt.power = 0) ∧ (s.fillFor 0 0).mgmt.power = 0 ∧ (s.core 0).runq = [] ∧ (s.core 0).deque = [] ∧
      (t.kind = .anchored ∧ t.slotIdx = none ∧ t.accLost = false ∧ t.debugStop = false ∧ t.inFrame = false ∧ t.saved = [none, none]) ∧
      loadLaunch.queue = ((s.core 0).slot 0).owner ∧ loadLaunch.started = true ∧ s.mode = .service ∧ s.inBounds 0 0 t.lnum loadLaunch = true ∧
      s.keptOff 0 t.lnum = false ∧ loadLaunch.bands = 0) ∧
    (let s := { waiting { asMt 0 t with state := .unplaced } [] with cores := [(0, { runq := [1], deque := [7] })] }
     (s.core 0).runq.find? (s.standsIn 0 0) = some 1 ∧ (s.findMt 0 0).map (fun e => e.1) = some 1) ∧
    (let s := { waiting { asMt 0 t with state := .unplaced } [] with cores := [(0, { deque := [7, 1] })] }
     (s.core 0).runq.find? (s.standsIn 0 0) = none ∧ (s.core 0).deque.reverse.find? (s.standsIn 0 0) = some 1) ∧
    (waiting t [(2, { th with slen := 104, vlen := 20 })]).windows 0 0 t = some (104, 20) := by
  refine ⟨⟨by decide +kernel, by decide +kernel, by decide +kernel, by decide +kernel, by decide +kernel, by decide +kernel,
    by decide +kernel, ?_, ?_, by decide +kernel, by decide +kernel, by decide +kernel, by decide +kernel⟩, by decide +kernel, by decide +kernel,
    by decide +kernel⟩
  · exact Option.isNone_iff_eq_none.mp (by decide +kernel)
  · have h : okAnd ((waiting { newThread .anchored .general 0 0 112 32 0 0x10000 [] with state := .unplaced } []).tryPlace 1 0 0 6)
      (fun q => decide (q.mgmt.power = 0)) = true := by decide +kernel
    obtain ⟨q, h1, h2⟩ := ok_and h
    exact ⟨q, h1, of_decide_eq_true h2⟩

/-- MTs on their way to core 0: one whose run queue has room, one whose deque has, and one with both full. -/
def flying : Thread := { newThread .mt .general 0 0 24 0 0 0x10000 [] with flying := true }
theorem witness_arrivalsByMigration :
    ∀ e ∈ [(63, 64), (64, 63), (64, 64)],
      let s := { waiting flying [] with cores := [(0, { runq := List.replicate e.1 5, deque := List.replicate e.2 6 })] }
      s.thread 1 = some flying ∧ flying.flying = true ∧ s.mgmt.power = 0 ∧ (s.core 0).runq.length = e.1 ∧
      (s.core 0).deque.length = e.2 := by decide +kernel

/-- Threads at a boundary: with a trap to take, with two interrupts queued, and blocked until now. -/
def blocked (limit : Word) : Thread := { th with state := .blocked, wait := some ⟨.barrier 0 0, 0, limit, 5, [], [], [], false⟩ }
theorem between_of {s : State} {t : Thread} (h : decide ((t.state = .ready ∨ t.state = .parked ∨ t.state = .blocked) ∧ t.place.isSome = true ∧
    s.stillPending t.hold = [] ∧ t.packet = none ∧ t.stalled = none ∧ (t.wait.all (fun w => ! w.ready)) = true) = true) : Claim.Between s t := by
  obtain ⟨h1, h2, h3, h4, h5, h6⟩ := of_decide_eq_true h
  refine ⟨h1, h2, h3, h4, h5, fun w hw => ?_⟩
  rw [hw] at h6
  simpa using h6

theorem witness_eventsAtBoundaries :
    (let t : Thread := { blocked 0 with traps := [⟨cECC, 5⟩, ⟨cACCLOST, 0⟩] }
     (issuing t).thread 1 = some t ∧ t.traps = ⟨cECC, 5⟩ :: [⟨cACCLOST, 0⟩] ∧ (issuing t).mgmt.power = 0 ∧ Claim.Between (issuing t) t) ∧
    (let u : Uint := ⟨5, 0x10000, 0x20000, none⟩
     let t : Thread := { blocked 0 with uints := [u, u] }
     (issuing t).thread 1 = some t ∧ t.uints = u :: [u] ∧ Claim.Between (issuing t) t ∧ t.traps = [] ∧ t.preempt = false ∧ t.ppt = false ∧
      t.csr.ts.getLsbD 8 = false ∧ t.inFrame = false ∧ t.outs = [] ∧ u.trap = none) ∧
    (let t := blocked 7
     let w : Wait := ⟨.barrier 0 0, 0, 7, 5, [], [], [], false⟩
     let s := { issuing t with time := 7 }
     s.thread 1 = some t ∧ t.wait = some w ∧ t.state = .blocked ∧ w.limit ≠ 0 ∧ s.mgmt.power = 0 ∧
      w.start.toNat + w.limit.toNat ≤ s.time.toNat ∧ s.waitHolds 1 t = false ∧ s.mgmt.det = false) :=
  ⟨⟨by decide +kernel, by decide +kernel, by decide +kernel, between_of (by decide +kernel)⟩,
    ⟨by decide +kernel, by decide +kernel, between_of (by decide +kernel), by decide +kernel, by decide +kernel, by decide +kernel,
      by decide +kernel, by decide +kernel, by decide +kernel, by decide +kernel⟩, by decide +kernel⟩

/-- Pre-emption of an anchored thread with one context slot left, of an MT, and of a cooperative owner whose grace has run. -/
def leaving (t : Thread) : Thread := { t with preempt := true }
theorem witness_preemptions :
    (let s := (issuing (leaving th)).modCore 0 (fun k => { k with ctxSlots := List.range 510 })
     s.thread 1 = some (leaving th) ∧ s.mgmt.power = 0 ∧ (leaving th).preempt = true ∧ (leaving th).traps = [] ∧
      Claim.Between s (leaving th) ∧ (leaving th).kind ≠ .handler ∧ (leaving th).outs = [] ∧ s.ownedBanks 1 = [] ∧ (leaving th).kind = .anchored ∧
      firstFree (s.core 0).ctxSlots 0 511 = some 510) ∧
    (let t := asMt 0 (leaving th)
     let s := (issuing t).modCore 0 (fun k => { k with runq := List.replicate 63 5 })
     s.thread 1 = some t ∧ Claim.Between s t ∧ s.ownedBanks 1 = [] ∧ t.kind = .mt ∧ (s.core 0).runq.length < 64) ∧
    (let t : Thread := { leaving th with graceAt := 7 }
     let s := { (launched { loadLaunch with words := modify loadLaunch.words 2 (fun x => x + 2) } t).modCore 0 (fun k =>
       { k with bankA := { owner := some 1 } }) with time := 7 }
     s.thread 1 = some t ∧ s.mgmt.power = 0 ∧ t.ppt = false ∧ s.cooperative t = true ∧ s.ownedBanks 1 ≠ [] ∧
      t.graceAt.toNat ≤ s.time.toNat ∧ Claim.Between s t ∧ (t.preempt = true ∧ t.traps = [] ∧ t.kind = .anchored ∧ t.outs = [] ∧ t.wait = none) ∧
      firstFree (s.core t.core).ctxSlots 0 511 = some 0 ∧ ((s.core t.core).bank 0).owner = some 1 ∧ ((s.core t.core).bank 1).ending = false) :=
  ⟨⟨by decide +kernel, by decide +kernel, by decide +kernel, by decide +kernel, between_of (by decide +kernel), by decide +kernel,
      by decide +kernel, by decide +kernel, by decide +kernel, by decide +kernel⟩,
    ⟨by decide +kernel, between_of (by decide +kernel), by decide +kernel, by decide +kernel, by decide +kernel⟩,
    ⟨by decide +kernel, by decide +kernel, by decide +kernel, by decide +kernel, by decide +kernel, by decide +kernel,
      between_of (by decide +kernel), by decide +kernel, by decide +kernel, by decide +kernel, by decide +kernel⟩⟩

/-- Completions that wait: for inbox 15 of core 2,047 with six words in it, and for a mailbox with one free slot; the balancer at
the end of its first interval. -/
def completion (w0 w6 : Word) : Completion := ⟨3, [w0, 0, 0, 0, 0, 0, w6, 9], true, []⟩
/-- A pipeline on cores 0 to 2: stage 0 on core 0, stage 1, whose queue has been found empty twice, on the others. -/
def balanced : Launch :=
  { loadLaunch with
    words := modify (modify (modify loadLaunch.words 0 (fun x => x + 2)) 3 (fun _ => 3)) 2 (fun _ => word (2 ^ 16 + 7 * 2 ^ 8 + 1))
    stages := [⟨0, 127, 0, 127, .general, .anchored, 8, 0, 1, 1, 1, 3, 0, 0, 0, 1, 2⟩, ⟨0, 0, 127, 127, .general, .anchored, 8, 0, 1, 1, 1, 3, 0, 0, 2, 0, 0⟩]
    queues := [{ home := 0, ordered := false, cap := 1 }], coreStage := [(1, 1), (2, 1)] }

/-- An interval that has ended; a step that moves core 2, one with no donor, and one whose D's are too close; a thread of that core. -/
theorem witness_balancer :
    (let s := { launched balanced th with dieTurns := [(0, 16384)] }
     s.launchOf 0 = some balanced ∧ balanced.pipeline = true ∧ balanced.started = true ∧ s.mgmt.power = 0 ∧ s.replaying = false ∧
      balanced.lastBal < s.dieRotation (dieOf (balanced.cores.headD 0)) / 2 ^ balanced.bal ∧
      (launched balanced th).dieRotation (dieOf (balanced.cores.headD 0)) / 2 ^ balanced.bal ≤ balanced.lastBal) ∧
    (balanced.stages[0]?.isSome = true ∧ balanced.stages[1]?.isSome = true ∧ balanced.queues[0]?.isSome = true) ∧
    List.Pairwise (fun a b => a < b) balanced.cores ∧
    (let d : Tab Nat := [(0, 65536), (1, 0)]
     let s := launched balanced th
     let takes := fun k => k < 2 ∧ k ∉ s.finishedStages 0 balanced ∧ (balanced.coresOf k).length < (nth balanced.stages k (stageOf [])).maxc
     let gives := fun k => k < 2 ∧ k ∉ s.finishedStages 0 balanced ∧ (nth balanced.stages k (stageOf [])).minc < (balanced.coresOf k).length
     Claim.First takes (fun a b => (look d b).getD 0 < (look d a).getD 0) 0 ∧
      Claim.First gives (fun a b => (look d a).getD 0 < (look d b).getD 0 ∨
        ((look d a).getD 0 = (look d b).getD 0 ∧ balanced.blockage b < balanced.blockage a)) 1 ∧
      (look d 1).getD 0 + 8192 ≤ (look d 0).getD 0 ∧ 2 ∈ balanced.coresOf 1 ∧ ∀ e ∈ balanced.coresOf 1, e ≤ 2) ∧
    (∀ k, k < (pipeline 3).stages.length → ¬ (nth (pipeline 3).stages k (stageOf [])).minc < ((pipeline 3).coresOf k).length) ∧
    (let t := { th with tnum := 128 }
     let s := { launched balanced th with threads := [(1, th), (5, t)] }
     s.launchOf 0 = some balanced ∧ (s.threads.map (fun e => e.1)).Nodup ∧ s.coreThreads 0 balanced 2 = [(5, t)] ∧ t.state ≠ .blocked) := by
  refine ⟨by decide +kernel, by decide +kernel, by decide +kernel, ⟨⟨by decide +kernel, fun k hk h0 => ?_⟩, ⟨by decide +kernel, fun k hk h1 => ?_⟩,
    by decide +kernel, by decide +kernel, by decide +kernel⟩, by decide +kernel, by decide +kernel⟩
  · obtain rfl : k = 1 := by have := hk.1; omega
    exact .inl (by decide +kernel)
  · obtain rfl : k = 0 := by have := hk.1; omega
    exact absurd hk (by decide +kernel)

theorem witness_launchCompletions :
    (let q := completion (word (2 * 2 ^ 41)) (word (15 * 2 ^ 11 + 2047))
     let s := { paged 0 post with completions := [q], cores := [(2047, { inboxes := List.replicate 16 { reserved := 62 } })] }
     s.completionOf 3 2 = some q ∧ s.mgmt.power = 0 ∧ s.inboxFree 2047 15 2 = true ∧ 15 < (s.core 2047).inboxes.length) ∧
    (let q := completion (word (3 * 2 ^ 41)) (word loadVa)
     let s := { boxed (senderWords 0) 0 post with completions := [q] }
     s.completionOf 3 3 = some q ∧ s.mgmt.power = 0 ∧
      ∃ b, { s with completions := s.completions.erase q }.box ⟨q.user, 3, (bareLaunch q.words 0 q.user).cores.headD 0⟩ (word loadVa) 1 = .ok b ∧
        { s with completions := s.completions.erase q }.boxHeld ⟨q.user, 3, (bareLaunch q.words 0 q.user).cores.headD 0⟩ (word loadVa) = false ∧
        { s with completions := s.completions.erase q }.boxPoison b = none ∧ b.free ≠ 0) := by
  refine ⟨by decide +kernel, by decide +kernel, by decide +kernel, ?_⟩
  have h : okAnd ({ boxed (senderWords 0) 0 post with completions := [] }.box
      ⟨true, 3, (bareLaunch (completion (word (3 * 2 ^ 41)) (word loadVa)).words 0 true).cores.headD 0⟩ (word loadVa) 1) (fun b =>
      decide ({ boxed (senderWords 0) 0 post with completions := [] }.boxHeld
          ⟨true, 3, (bareLaunch (completion (word (3 * 2 ^ 41)) (word loadVa)).words 0 true).cores.headD 0⟩ (word loadVa) = false ∧
        { boxed (senderWords 0) 0 post with completions := [] }.boxPoison b = none ∧ b.free ≠ 0)) = true := by decide +kernel
  obtain ⟨b, h1, h2⟩ := ok_and h
  have e : [completion (word (3 * 2 ^ 41)) (word loadVa)].erase (completion (word (3 * 2 ^ 41)) (word loadVa)) = [] := by decide +kernel
  simp only [e]
  exact ⟨b, h1, of_decide_eq_true h2⟩

/-- A copy in state n with action field opt, and its parameters. -/
def copyOf (n : Nat) (opt a b : Word) : EngOp :=
  { operation 0 5 ((copyFields.take 9) ++ [opt, a, b, 0, 0]) with state := n }

/-- A copy of rows of 64 bytes that start 16 bytes into an atom: pieces of 16, 32 and 16 bytes; one that packs; and where the pieces
of a copy within the page stand. -/
theorem witness_copyPieces :
    (let fs := modify copyFields 1 (fun _ => word (loadVa + 272))
     optForm fs = 0 ∧ (piecesOf fs).map (fun p => (p.dst, p.n)) =
      [(word (loadVa + 272), 16), (word (loadVa + 288), 32), (word (loadVa + 320), 16)] ∧ 0 < (nth fs 5 0).toNat * (nth fs 8 0).toNat) ∧
    (let o := { copyOf 0 0x100 0 0 with fields := copyFields }
     let s := engaged [o] [] (holding 0 5)
     s.engOp 0 0 o.xid = some o ∧ bitAt (nth o.fields 9 0) 11 = false ∧ isInject (nth o.fields 1 0) = false ∧ isExtract (nth o.fields 0 0) = false ∧
      s.accs = [] ∧ ∀ p ∈ piecesOf o.fields, ∃ src, s.pieceSrc ⟨o.user, o.lnum, 0⟩ o.fields p = .ok (.mem src p.conv) ∧
        (∃ l, s.locate' ⟨o.user, o.lnum, 0⟩ .copyWrite p.dst p.n = .ok l) ∧ p.dst.toNat % pieceSize o.fields + p.n ≤ pieceSize o.fields) ∧
    (let o := { copyOf 0 0x101 0 0 with fields := modify copyFields 9 (fun _ => 0x101) }
     (engaged [o] [] (holding 0 5)).engOp 0 0 o.xid = some o ∧ (optForm o.fields = 1 ∨ optForm o.fields = 2)) := by
  refine ⟨by decide +kernel, ⟨by decide +kernel, by decide +kernel, by decide +kernel, by decide +kernel, by decide +kernel, fun p hp => ?_⟩,
    by decide +kernel⟩
  have h : ((piecesOf copyFields).all (fun p => okAnd ((engaged [{ copyOf 0 0x100 0 0 with fields := copyFields }] [] (holding 0 5)).pieceSrc ⟨true, 0, 0⟩ copyFields p)
      (fun c => match c with
        | .mem _ k => decide (k = p.conv)
        | _ => false) && okAnd ((engaged [{ copyOf 0 0x100 0 0 with fields := copyFields }] [] (holding 0 5)).locate' ⟨true, 0, 0⟩ .copyWrite p.dst p.n) (fun _ => true) &&
      decide (p.dst.toNat % pieceSize copyFields + p.n ≤ pieceSize copyFields))) = true := by decide +kernel
  have h := List.all_eq_true.mp h p hp
  simp only [Bool.and_eq_true, decide_eq_true_eq] at h
  obtain ⟨⟨h1, h2⟩, h3⟩ := h
  obtain ⟨c, k1, k2⟩ := ok_and h1
  obtain ⟨l, k3, -⟩ := ok_and h2
  cases c with
  | mem src k => exact ⟨src, by rw [← of_decide_eq_true k2]; exact k1, ⟨l, k3⟩, h3⟩
  | extract => exact absurd k2 Bool.false_ne_true

/-- A copy that starts behind one that runs, and one whose action is due for each kind of action. -/
theorem witness_copySteps :
    (let o := copyOf 0 0x100 0 0
     let s := engaged [{ copyOf 1 0x100 0 0 with xid := 4 }, o] [] (holding 0 5)
     s.engOp 0 0 5 = some o ∧ s.mgmt.power = 0 ∧ o.state = 0 ∧
      (∀ q ∈ (s.core 0).eng0.takeWhile (fun q => decide (q.xid ≠ 5)), q.state ≠ 0) ∧ s.stillPending o.after = []) ∧
    (∀ opt ∈ [0x100, 0x150], let o := copyOf 2 opt 0 0
     Claim.AtHead (engaged [o] [] (holding 0 5)) 0 5 o ∧ o.finished = true ∧ (engaged [o] [] (holding 0 5)).stillPending o.pending = [] ∧
      (bits (nth o.fields 9 0) 7 4 = 0 ∨ bits (nth o.fields 9 0) 7 4 = 5)) ∧
    (let o := copyOf 2 0x130 (word loadVa) 0
     let s := engaged [o] [] (holding 0 5)
     Claim.AtHead s 0 5 o ∧ bits (nth o.fields 9 0) 7 4 = 3 ∧ s.thread o.tid = some (holding 0 5) ∧ (holding 0 5).uints.length < 8 ∧
      s.locate ⟨o.user, o.lnum, 0⟩ .load (nth o.fields 10 0) 8 = .ok (placeAt 0 0) ∧ (s.rdNum loadFrame 8 % 4 = 0 ∧ (holding 0 5).state ≠ .exited ∧
      s.lineHeld loadFrame = false ∧ s.lineShared (placeAt 0 65528).key = false ∧ s.readPoison (placeAt 0 0) 8 = none ∧ o.finished = true ∧
      s.stillPending o.pending = [])) ∧
    (let o := copyOf 2 0x110 (word (loadVa + 65528)) 9
     let s := engaged [o] [] (holding 0 5)
     Claim.AtHead s 0 5 o ∧ bits (nth o.fields 9 0) 7 4 = 1 ∧ (nth o.fields 9 0).getLsbD 11 = false ∧
      s.covered o (bits (nth o.fields 9 0) 10 8) = true ∧
      s.locate ⟨o.user, o.lnum, 0⟩ .atomic (nth o.fields 10 0) 8 = .ok (placeAt 0 65528)) ∧
    (let o := copyOf 2 0xF000120 0 9
     let s := engaged [o] [] (holding 0 5)
     Claim.AtHead s 0 5 o ∧ bits (nth o.fields 9 0) 7 4 = 2 ∧ (nth o.fields 9 0).getLsbD 11 = false ∧ s.merged o = true ∧
      s.inboxFree 0 15 2 = true ∧ bits (nth o.fields 9 0) 27 24 = 15) ∧
    (let o := copyOf 2 0x140 (word (5 * 2 ^ 16)) 9
     let s := { engaged [o] [] th with launches := [(0, pipeline 3)] }
     Claim.AtHead s 0 5 o ∧ bits (nth o.fields 9 0) 7 4 = 4 ∧ o.finished = true ∧ bits (nth o.fields 10 0) 63 62 = 0 ∧
      s.launchOf o.lnum = some (pipeline 3) ∧ bits (nth o.fields 10 0) 3 0 = 0 ∧ (pipeline 3).queues[0]? = some { home := 0, ordered := false, cap := 1 }) ∧
    (let o := copyOf 2 0x140 (word (2 ^ 62 + 15)) 9
     let s := (engaged [o] [] (holding 0 5)).modCore 0 (fun k => { k with chans := modify k.chans 15 (fun h => { h with owner := some 0 }) })
     Claim.AtHead s 0 5 o ∧ bits (nth o.fields 9 0) 7 4 = 4 ∧ o.finished = true ∧ bits (nth o.fields 10 0) 63 62 = 1 ∧
      (nth (s.core 0).chans 15 {}).owner = some o.lnum ∧ (nth (s.core 0).chans 15 {}).wide = false ∧
      s.available [⟨0, 15, false, true, 1⟩] = true) := by
  refine ⟨by decide +kernel, fun opt h => ?_, ⟨⟨⟨[], by decide +kernel⟩, by decide +kernel, by decide +kernel, by decide +kernel⟩, by decide +kernel,
      by decide +kernel, by decide +kernel, ok_of (by decide +kernel), by decide +kernel⟩,
    ⟨⟨⟨[], by decide +kernel⟩, by decide +kernel, by decide +kernel, by decide +kernel⟩, by decide +kernel, by decide +kernel, by decide +kernel,
      ok_of (by decide +kernel)⟩,
    ⟨⟨⟨[], by decide +kernel⟩, by decide +kernel, by decide +kernel, by decide +kernel⟩, by decide +kernel⟩,
    ⟨⟨⟨[], by decide +kernel⟩, by decide +kernel, by decide +kernel, by decide +kernel⟩, by decide +kernel⟩,
    ⟨⟨⟨[], by decide +kernel⟩, by decide +kernel, by decide +kernel, by decide +kernel⟩, by decide +kernel⟩⟩
  rcases List.mem_pair.mp h with h | h <;> subst h <;>
    exact ⟨⟨⟨[], by decide +kernel⟩, by decide +kernel, by decide +kernel, by decide +kernel⟩, by decide +kernel⟩

/-- A command of grove 255 to start, its core being visited with the weight used up but for one; a row of a running command; a
command that has ended. -/
theorem witness_matrixSteps :
    (let o := operation 1 5 commandFields
     let s := { (issuing th).modCore 2047 (fun k => { k with eng1 := [o], mxwgt := 15 }) with mxu := [(255, (7, 14))] }
     s.mgmt.power = 0 ∧ (look s.mxu 255).getD (0, 0) = (7, 14) ∧ (s.core (8 * 255 + 7)).startable = some o ∧
      14 < max 1 (s.core (8 * 255 + 7)).mxwgt) ∧
    (let o := { operation 1 5 (modify commandFields 2 (fun _ => word (128 + 128 * 2 ^ 8))) with state := 1, row := 127 }
     let s := (engaged [] [o] (holding 0 5)).modMgmt (fun m => { m with det := true })
     s.mgmt.power = 0 ∧ (s.core 0).running = some o ∧ o.xid = 5 ∧ o.state = 1 ∧ s.rowHeld 0 o.bankOf o.row = false ∧
      s.rowAwaited 0 5 o.bankOf o.row = false ∧ mxA 0 o.fields = some .b16 ∧ mxB o.fields = some .b16 ∧
      s.fixed = true ∧ s.readEarly 0 5 = none ∧ o.row < o.rows ∧
      (∃ row, s.aRow 0 o o.row = .ok row ∧ row.length = 128) ∧ bits (nth o.fields 5 0) 1 0 = 0 ∧
      o.row < ((s.core 0).bank o.bankOf).rows.length ∧ (s.core 0).eng1.filter (fun q => q.xid = 5) = [o]) ∧
    (∀ d ∈ [1, 2], let o := { operation 1 5 (modify (modify commandFields 5 (fun _ => word d)) 6 (fun _ => 0xF100000000000100)) with state := 1 }
     let s := engaged [] [o] (holding 0 5)
     (s.core 0).running = some o ∧ bits (nth o.fields 5 0) 1 0 = d ∧ ownPad 0 (nth o.fields 6 0) = some (1, 256) ∧
      o.row % 8 < (s.core 0).slots.length ∧ (s.core 0).eng1.filter (fun q => q.xid = 5) = [o]) ∧
    (let o := { operation 1 5 commandFields with state := 2, row := 1 }
     let s := engaged [] [o] (holding 0 5)
     s.mgmt.power = 0 ∧ (s.core 0).eng1 = o :: [] ∧ o.xid = 5 ∧ o.fault = none ∧ o.state = 2 ∧ o.pending = [] ∧ s.drainsOf 0 5 = [] ∧
      (s.core 0).slots.all (fun j => j.starts.all (fun h => ! isDrain 0 5 h)) = true ∧ bits (nth o.fields 9 0) 7 4 = 0) := by
  refine ⟨by decide +kernel, ⟨by decide +kernel, by decide +kernel, by decide +kernel, by decide +kernel, by decide +kernel, by decide +kernel,
    by decide +kernel, by decide +kernel, by decide +kernel, Option.isNone_iff_eq_none.mp (by decide +kernel), by decide +kernel, ?_,
    by decide +kernel, by decide +kernel, by decide +kernel⟩, by decide +kernel, by decide +kernel⟩
  have h : okAnd (((engaged [] [{ operation 1 5 (modify commandFields 2 (fun _ => word (128 + 128 * 2 ^ 8))) with state := 1, row := 127 }]
      (holding 0 5)).modMgmt (fun m => { m with det := true })).aRow 0
      { operation 1 5 (modify commandFields 2 (fun _ => word (128 + 128 * 2 ^ 8))) with state := 1, row := 127 } 127) (fun r => decide (r.length = 128)) = true := by
    decide +kernel
  obtain ⟨r, h1, h2⟩ := ok_and h
  exact ⟨r, h1, of_decide_eq_true h2⟩

/-- Entry 63 of a watch table with an action to start: an ADD at the page's last word, a SPAWN, a MAIL to the page's mailbox and a
COPY whose block its firing has read. -/
def fired (act : Word) (pa : Word) (block : List Word) : Watch :=
  { state := 1, words := [0, act, 0, 0, pa, 9, 0, 0], pend := [⟨1, 7, 8, block, none, false⟩, ⟨2, 7, 9, [], none, false⟩] }
def firing (w : Watch) (t : Thread) : State := { boxed (senderWords 0) 0 t with watch := [(0, List.replicate 63 {} ++ [w])], nextTid := 5 }
def copyBlock : List Word := copyFields ++ [0, 0]

theorem witness_watchActions :
    (let w := fired 0xC (word (loadVa + 65528)) []
     let s := firing w (holding 0 5)
     s.mgmt.power = 0 ∧ (nth (s.watchTable 0) 63 {}).pend = ⟨1, 7, 8, [], none, false⟩ :: [⟨2, 7, 9, [], none, false⟩] ∧
      bits (nth w.words 1 0) 3 2 = 3 ∧ s.locate ⟨w.user, w.lnum, 0⟩ .atomic (nth w.words 4 0) 8 = .ok (placeAt 0 65528) ∧
      s.lineHeld (placeAt 0 65528).key = false ∧ s.lineShared (placeAt 0 65528).key = false ∧ s.poisoned (placeAt 0 65528).key 8 = none ∧
      ({ s with poison := [loadFrame + 65504] } : State).poisoned (placeAt 0 65528).key 8 ≠ none) ∧
    (let s := firing (fired 8 0 []) (holding 0 5)
     bits (8 : Word) 3 2 = 2 ∧ s.launchOf (fired 8 0 []).lnum = some loadLaunch ∧ loadLaunch.pipeline = false ∧ s.thread s.nextTid = none) ∧
    (let w := fired 4 (word loadVa) []
     let go := (firing w (holding 0 5)).modWatch 0 63 (fun w => { w with pend := [⟨2, 7, 9, [], none, false⟩] })
     bits (4 : Word) 3 2 = 1 ∧ go.boxHeld ⟨w.user, w.lnum, 0⟩ (nth w.words 4 0) = false ∧ ∃ b, go.box ⟨w.user, w.lnum, 0⟩ (nth w.words 4 0) 1 = .ok b ∧ go.boxPoison b = none ∧ b.free ≠ 0) ∧
    (let w := fired 0 0 copyBlock
     let s := firing w (holding 0 5)
     let base := newThread .anchored .general w.lnum 0 8 0 0 0 []
     ∃ fs, watchCopy w 1 copyBlock = some fs ∧
      s.checkCopy { base with csr := { base.csr with ts := if w.user then 0 else 0x10000 } } 0 fs = none ∧ (s.core 0).eng0.length < 16 ∧
      (firing w trapped).mgmt.power = 0 ∧ ∃ r, s.checkCopy base 0 (modify fs 9 (fun _ => 7)) = some r) ∧
    copyBlock.length = 16 := by
  refine ⟨⟨by decide +kernel, by decide +kernel, by decide +kernel, ok_of (by decide +kernel), by decide +kernel, by decide +kernel,
      by decide +kernel, by decide +kernel⟩,
    by decide +kernel, ⟨by decide +kernel, by decide +kernel, ?_⟩, ⟨_, rfl, ?_, by decide +kernel, by decide +kernel, ?_⟩, by decide +kernel⟩
  · have h : okAnd ((((firing (fired 4 (word loadVa) []) (holding 0 5)).modWatch 0 63 (fun w => { w with pend := [⟨2, 7, 9, [], none, false⟩] }))).box
      ⟨(fired 4 (word loadVa) []).user, (fired 4 (word loadVa) []).lnum, 0⟩ (word loadVa) 1) (fun b => decide
        ((((firing (fired 4 (word loadVa) []) (holding 0 5)).modWatch 0 63 (fun w => { w with pend := [⟨2, 7, 9, [], none, false⟩] }))).boxPoison b =
          none ∧ b.free ≠ 0)) = true := by decide +kernel
    obtain ⟨b, h1, h2⟩ := ok_and h
    exact ⟨b, h1, of_decide_eq_true h2⟩
  · exact Option.isNone_iff_eq_none.mp (by decide +kernel)
  · exact Option.isSome_iff_exists.mp (by decide +kernel)

/-- A round of group 5 on a core of a launch, with the operand of another round queued before it, and seven results waiting, or
eight; and a held result above a core that has room again. -/
theorem witness_canopyRounds :
    (∀ n ∈ [7, 8], let s := grouped [⟨5, 4, 0, 0, 1⟩, ⟨5, 0, 0, 0, 2⟩] (List.replicate n ⟨5, 0, 1, false, false⟩) th
     s.mgmt.power = 0 ∧ s.heldResult 5 = none ∧ (s.core 0).canopyHeld = none ∧ (look s.canopy 5).getD 0 = 0 ∧
      (s.core 0).canopyIn.find? (fun o => decide (o.group = 5 ∧ o.round = 0)) = some ⟨5, 0, 0, 0, 2⟩ ∧
      (s.core 0).canopyOut.length = n ∧ someAnd (s.launches.find? (fun e => e.2.started && decide (e.2.cgroup = 5 ∧ 5 ≠ 0)))
        (fun e => decide (e.2.cores = [0])) = true) ∧
    (let r : CanopyResult := ⟨5, 0, 1, false, false⟩
     let s := (grouped [] (List.replicate 7 r) th).modCore 0 (fun k => { k with canopyHeld := some r })
     s.mgmt.power = 0 ∧ s.heldResult 5 = some (0, r)) ∧
    canopyTree 0 0 ([(3, 1), (1024, 2)].filter (fun e : Nat × Vec => decide (e.1 < 0 + 2 ^ 10))) 0 10 = some 1 ∧
    canopyTree 0 0 ([(3, 1), (1024, 2)].filter (fun e : Nat × Vec => decide (0 + 2 ^ 10 ≤ e.1))) (0 + 2 ^ 10) 10 = some 2 := by
  decide +kernel

/-! ### The fabric, replicas, the host, power, modes and debug -/

/-- The page, mapped for remote writes, with link 3 up; device 9 is reached over it, and device 10 over no link. -/
def connected (t : Thread) : State :=
  let s := paged 5 t
  { s with mgmt := { s.mgmt with ftbase := 0x60000 }, links := modify s.links 3 (fun k => { k with up := true }),
           mem := s.mem ++ [(0x60049, 131)] }
/-- A flit that arrives on link 3 from device 9, its check sequence good. -/
def sealed (f : Flit) : Flit := { f with crc := f.crcOf }
def arriving (f : Flit) : Flit := sealed { f with link := 3, sdev := 9 }
def noise : State := connected (holding 0 5)

theorem good_of {s : State} {f : Flit} {n : Nat} (h : decide (f.kind = n ∧ f.ok = true ∧ f.crc = f.crcOf ∧ s.linkCarries f = true) = true) :
    Claim.Good s f n := by
  obtain ⟨h1, h2, h3, h4⟩ := of_decide_eq_true h
  exact ⟨h1, h2, h3, h4⟩

theorem comes_of {s : State} {f : Flit} {n : Nat} (h : decide ((f.kind = n ∧ f.ok = true ∧ f.crc = f.crcOf ∧ s.linkCarries f = true) ∧
    f.linkLevel = false ∧ f.ddev = s.mgmt.devno ∧ s.inOrder f = true) = true) : Claim.Comes s f n := by
  obtain ⟨h1, h2, h3, h4⟩ := of_decide_eq_true h
  exact ⟨good_of (decide_eq_true h1), h2, h3, h4⟩

/-- A remote copy's data flit of n bytes to offset o of the page. -/
def dataFlit (o n : Nat) : Flit := { blankFlit with kind := 0, cls := 2, addr := loadVa + o, len := n, slcn := 2047, tag := 5 }

/-- Flits for another device with hop counts at the limit and below it; a link with one credit, and with none, and one on which two
flits wait; one that no link leads for any more; a check sequence that fails; a kind that is reserved. -/
theorem witness_flitsOnTheirWay :
    (∀ h ∈ [0, 30, 31], let f := arriving { dataFlit 0 32 with ddev := 9, hops := h }
     Claim.Good noise f f.kind ∧ f.linkLevel = false ∧ f.ddev ≠ noise.mgmt.devno ∧ Claim.stepOf f = some (.remoteCopyData f) ∧
      ¬ f.kind ∈ [6, 7, 8, 9]) ∧
    (noise.route 9 = some 3 ∧ noise.route 10 = none ∧ 32 ≤ 31 + 1 ∧ 30 + 1 < 32) ∧
    (∀ n ∈ [0, 1], let k : Link := { up := true, credits := [0, 0, 0, 0, n] }
     let f := { dataFlit 0 32 with cls := 3, sub := 1, ddev := 9 }
     let s := { noise with links := modify noise.links 3 (fun _ => k) }
     s.links[3]? = some k ∧ s.queued = [] ∧ s.linkOf f = some 3 ∧ s.carries f.cls = true ∧ f.credit = 4 ∧ nth k.credits f.credit 0 = n) ∧
    (let f := { dataFlit 0 32 with cls := 2, ddev := 9 }
     let g := { dataFlit 0 32 with cls := 3, ddev := 9 }
     let k : Link := { up := true, credits := [0, 0, 1, 1, 0] }
     ({ noise with links := modify noise.links 3 (fun _ => k), queued := [g, f] } : State).readyOn 3 = some f ∧
      (let s : State := { noise with queued := [{ f with ddev := 10 }] }
       s.linkOf { f with ddev := 10 } = none ∧ f.linkLevel = false)) ∧
    (let f := { arriving (dataFlit 0 32) with crc := 0 }
     noise.links[f.link]? = some { up := true } ∧ noise.linkCarries f = true ∧ f.crc ≠ f.crcOf) ∧
    (let f := arriving { dataFlit 0 32 with kind := 13 }
     noise.linkCarries f = true ∧ f.crc = f.crcOf ∧ f.ok = false) := by
  refine ⟨fun h hh => ?_, by decide +kernel, by decide +kernel, by decide +kernel, by decide +kernel, by decide +kernel⟩
  simp only [List.mem_cons, List.not_mem_nil, or_false] at hh
  rcases hh with hh | hh | hh <;> subst hh <;>
    exact ⟨good_of (by decide +kernel), by decide +kernel, by decide +kernel, rfl, by decide +kernel⟩

/-- A link flit of kind 11. -/
def control (param len : Nat) (ws : List Word) : Flit := { blankFlit with kind := 11, param := param, len := len, payload := payloadWords ws }

theorem witness_linkControl :
    Claim.Good noise (arriving { blankFlit with kind := 10, len := 8, payload := payloadWords [0xFFFFFFFFFFFFFFFF] }) 10 ∧
    (∀ f ∈ [control 3 1 [], control 2 8 [65535], control 1 48 [65535, 1, 2, 3, 4, 5]], Claim.Good noise (arriving f) 11) ∧
    (let k : Link := { up := true, sent := [{ blankFlit with lseq := 65534 }, { blankFlit with lseq := 65535 }, blankFlit] }
     let s := { noise with links := modify noise.links 3 (fun _ => k) }
     let f := arriving (control 1 48 [65535, 1, 2, 3, 4, 5])
     Claim.Good s f 11 ∧ (nth s.links f.link {}).sent = [{ blankFlit with lseq := 65534 }] ++ { blankFlit with lseq := 65535 } :: [blankFlit] ∧ s.queued = [] ∧
      65535 = (f.word 0).toNat % 2 ^ 16 ∧ (∀ h ∈ [{ blankFlit with lseq := 65534 }], h.lseq ≠ 65535) ∧
      (nth s.links f.link {}).credits.length = 5 ∧ (f.word 5).toNat = 5) ∧
    (∀ f ∈ [control 0 40 [1, 2, 3, 4, 1], control 4 16 [1, 2]], Claim.Comes noise (arriving f) 11) ∧
    (let o := copyOf 1 0x900 0 0
     let s := engaged [o] [] (holding 0 5)
     s.engOp 0 0 5 = some o ∧ (nth o.fields 9 0).getLsbD 11 = true) ∧
    (let st : Stream := { left := [5], sent := { placed := [(3, 0), (4, 1)] } }
     ({ noise with mgmt := { noise.mgmt with stream := some st } } : State).mgmt.stream = some st ∧ noise.mgmt.stream = none) ∧
    (noise.links[3]? = some { up := true } ∧
      noise.boundaries[9]? = some (48, []) ∧ 1 < 48 ∧ 47 < 48 ∧ ¬ 47 ∈ ([] : List Nat)) := by
  refine ⟨good_of (by decide +kernel), fun f h => ?_, ⟨good_of (by decide +kernel), by decide +kernel⟩, fun f h => ?_, by decide +kernel,
    by decide +kernel, by decide +kernel⟩
  · simp only [List.mem_cons, List.not_mem_nil, or_false] at h
    rcases h with h | h | h <;> subst h <;> exact good_of (by decide +kernel)
  · rcases List.mem_pair.mp h with h | h <;> subst h <;> exact comes_of (by decide +kernel)

/-- The machine with one arrival from core 2,047 of device 9. -/
def receiving (a : Arrival) : State := { noise with arrivals := [a] }
def arrival (mail : Bool) : Arrival := { dev := 9, core := 2047, tag := 5, mail := mail }

/-- Data that fills a 32-byte block to its end, of a copy and of a message, after no fault and after one. -/
theorem witness_dataFlits :
    (∀ mail ∈ [true, false],
      let f := arriving (if mail then { dataFlit 0 64 with kind := 3, cls := 1 } else dataFlit 8 24)
      Claim.Comes noise f (if mail then 3 else 0) ∧
      (Claim.accepted noise f).arrivalOf f mail = arrival mail ∧
      ((Claim.accepted (receiving { arrival mail with fault := some ⟨cECC, 0⟩ }) f).arrivalOf f mail).fault = some ⟨cECC, 0⟩) ∧
    (let f := arriving (dataFlit 8 24)
     f.len ≤ 32 - f.addr % 32 ∧ f.addr < 2 ^ 56 ∧
      (Claim.accepted noise f).locateRange ⟨false, 0, 0⟩ .remoteWrite (word f.addr) f.len (f.len + 1) = .ok [(placeAt 5 8, 24)]) := by
  refine ⟨fun m h => ?_, by decide +kernel, by decide +kernel, ok_of (by decide +kernel)⟩
  rcases List.mem_pair.mp h with h | h <;> subst h <;>
    exact ⟨comes_of (by decide +kernel), by decide +kernel, by decide +kernel⟩

/-- The completion request of a copy without an add and with one, its report, a sequence word, a released slot's notice, bulk data. -/
theorem witness_completionFlits :
    (let f := arriving { dataFlit 0 16 with kind := 1, param := 0, addr := 0, payload := payloadWords [0, 1] }
     let s := receiving { arrival false with count := 1 }
     Claim.Comes s f 1 ∧ (Claim.accepted s f).arrivalOf f false = { arrival false with count := 1 } ∧ (f.word 1).toNat = 1) ∧
    (let f := arriving { dataFlit 65528 16 with kind := 1, param := 1, payload := payloadWords [7, 1] }
     let s := receiving { arrival false with count := 1 }
     Claim.Comes s f 1 ∧
      ((Claim.accepted s f).dropArrival { arrival false with count := 1 }).locate ⟨false, 0, 0⟩ .remoteWrite (word f.addr) 8 =
        .ok (placeAt 5 65528) ∧
      ((Claim.accepted s f).dropArrival { arrival false with count := 1 }).poisoned (loadFrame + 65528) 8 = none ∧
      (let b := { arrival false with count := 1, closed := true, add := true, addr := word f.addr, value := 7, parts := 1 }
       let u := (Claim.accepted s f).putArrival b
       u.arrivals.find? (fun q => q.complete && ! u.mailBehind q) = some b ∧ u.endsAt b = some (placeAt 5 65528) ∧
        u.lineHeld (placeAt 5 65528).key = false ∧ u.lineShared (placeAt 5 65528).key = false)) ∧
    (let o := copyOf 1 0x900 0 0
     let s := { noise with cores := [(2047, { eng0 := [o] })] }
     let f := fun (p : Nat) => arriving { blankFlit with kind := 2, cls := 2, dlcn := 2047, tag := 5, param := p }
     Claim.Comes s (f 0) 2 ∧ Claim.Comes s (f 255) 2 ∧ (Claim.accepted s (f 255)).engOp 2047 0 5 = some o ∧ Claim.Comes s (f 256) 2 ∧
      Claim.Comes s (f 511) 2) ∧
    (let f := arriving { dataFlit 0 8 with kind := 4, cls := 1, param := 64, payload := payloadWords [9] }
     let s := receiving { arrival true with count := 64 }
     Claim.Comes s f 4 ∧ (Claim.accepted s f).arrivalOf f true = { arrival true with count := 64 } ∧
      ((Claim.accepted s f).dropArrival { arrival true with count := 64 }).locate ⟨false, 0, 0⟩ .remoteWrite (word f.addr) 8 = .ok (placeAt 5 0) ∧
      (let b := { arrival true with count := 64, closed := true, addr := word f.addr, value := 9, parts := 64 }
       let u := (Claim.accepted s f).putArrival b
       u.arrivals.find? (fun q => q.complete && ! u.mailBehind q) = some b ∧ u.endsAt b = some (placeAt 5 0) ∧
        u.lineHeld (placeAt 5 0).key = false ∧ u.lineShared (placeAt 5 0).key = false)) ∧
    (let f := arriving { dataFlit 0 64 with kind := 12, cls := 3, sub := 1, slcn := 0, payload := payloadWords [9] }
     Claim.Comes noise f 12 ∧
      (Claim.accepted noise f).locateRange ⟨false, 0, 0⟩ .remoteWrite (word f.addr) 64 65 = .ok [(placeAt 5 0, 64)]) := by
  refine ⟨⟨comes_of (by decide +kernel), by decide +kernel, by decide +kernel⟩, ⟨comes_of (by decide +kernel), ok_of (by decide +kernel), by decide +kernel,
      by decide +kernel⟩,
    ⟨comes_of (by decide +kernel), comes_of (by decide +kernel), by decide +kernel, comes_of (by decide +kernel), comes_of (by decide +kernel)⟩,
    ⟨comes_of (by decide +kernel), by decide +kernel, ok_of (by decide +kernel), by decide +kernel⟩,
    ⟨comes_of (by decide +kernel), ok_of (by decide +kernel)⟩⟩

/-- The notice of a released slot comes to ordinary memory: the page as a page of kind 0. -/
theorem witness_releasedSlots :
    let s : State := { paged 0 (holding 0 5) with links := modify (paged 0 (holding 0 5)).links 3 (fun k => { k with up := true }) }
    let f := arriving { dataFlit 8 8 with kind := 5, cls := 1, payload := payloadWords [9] }
    Claim.Comes s f 5 ∧ s.mailOut = [] ∧ (Claim.accepted s f).locate ⟨false, 0, 0⟩ .store (word f.addr) 8 = .ok (placeAt 0 8) :=
  ⟨comes_of (by decide +kernel), by decide +kernel, ok_of (by decide +kernel)⟩

/-- A member table of two members at the end of a page, the next page being absent. -/
theorem members_of_two {s : State} {o : Sot} (hd : o.device = false) (hn : o.n = 2) (hm : o.mlist = 2 ^ 46 - 64) (hr : bits s.roots.1 39 13 * 2 ^ 13 = 0x2000)
    (h : bitAt (s.rdWord 0x2008) 63 = false)
    (hv : (List.range 8).map (fun m => s.vword (2 ^ 46 - 64 + 8 * m)) = [0, 1, 0, 0, 0, 0, 0, 0]) : s.membersOk o = true := by
  have h8 : ∀ m, m < 8 → s.memberId o m = nth ([0, 1, 0, 0, 0, 0, 0, 0] : List Word) m 0 := by
    intro m h8
    unfold State.memberId nth
    rw [hm, ← hv]
    simp [h8]
  have hz : ∀ m, 8 ≤ m → m < 64 → s.memberId o m = 0 := by
    intro m hl h64
    have hk : ∀ i, i < 8 → s.vbyte (2 ^ 46 - 64 + 8 * m + i) = 0 := by
      intro i hi
      have hi : (2 ^ 46 - 64 + 8 * m + i) / 2 ^ 46 % 1024 = 1 := by omega
      have : s.walk (2 ^ 46 - 64 + 8 * m + i) = .absent := by
        unfold State.walk pageIndexes
        rw [hr, hi]
        unfold State.walkFrom
        rw [if_pos (by rw [h]; decide)]
      unfold State.vbyte State.vkey
      rw [this]
    have hb : s.vbytes (2 ^ 46 - 64 + 8 * m) 8 = List.replicate 8 0 := by
      unfold State.vbytes
      rw [List.map_congr_left (g := fun _ => (0 : Byte)) (fun i hi => hk i (List.mem_range.mp hi))]
      rfl
    unfold State.memberId State.vword State.vnum
    rw [hm, hb]
    rfl
  have h1 : ((List.range 62).all (fun i => decide (s.memberId o (2 + i) = 0))) = true := by
    refine List.all_eq_true.mpr (fun i hi => decide_eq_true ?_)
    have hi := List.mem_range.mp hi
    by_cases h6 : i < 6
    · rw [h8 _ (by omega)]
      have : i = 0 ∨ i = 1 ∨ i = 2 ∨ i = 3 ∨ i = 4 ∨ i = 5 := by omega
      rcases this with h | h | h | h | h | h <;> subst h <;> rfl
    · exact hz _ (by omega) (by omega)
  have h2 : (List.range 2).map (fun m => s.memberId o m) = [0, 1] := by
    simp only [show List.range 2 = [0, 1] from rfl, List.map_cons, List.map_nil, h8 0 (by omega), h8 1 (by omega)]
    rfl
  unfold State.membersOk
  rw [hn, hd]
  simp only [h2, h1]
  rfl

/-- A sum of two members, the other one on die 1: its table is at the end of the first half of the address space. -/
def pairWords : List Word := [0x80211, 0x7F7F7F7F7F7F7F00, 1, 32, 0x10000, 0x20000, 0x30000, 0x10000, 0x3FFFFFFFFFC0, 0x40000, 0, 0, 100, 0, 0, 0]
def pairSot : Sot := sotOf 1 pairWords .pcsum
def pair : Elem := ⟨pairSot, 0, 0, 0⟩
def paired : State :=
  { threads := [(1, th)], cur := 1, launches := [(0, loadLaunch)], ctl := [0x2000, 0, 0x60000, 0, 0, 0, 0, 0, 0, 0, 0],
    roots := (0x2000, 0), mem := [(8193, 64), (8199, 128), (16385, 96), (16391, 128), (24569, 160), (24575, 128), (24577, 128), (24583, 128), (32776, 16), (32778, 2),
      (32783, 174), (32784, 16), (32786, 3), (32791, 190), (32794, 4), (32799, 142), (32802, 5), (32807, 142), (49145, 192), (49151, 128),
      (57338, 7), (57343, 142), (393344, 17), (393345, 2), (393346, 8), (393353, 127), (393354, 127), (393355, 127), (393356, 127), (393357, 127),
      (393358, 127), (393359, 127), (393360, 1), (393368, 32), (393378, 1), (393386, 2), (393394, 3), (393402, 1), (393408, 192), (393409, 255), (393410, 255),
      (393411, 255), (393412, 255), (393413, 63), (393418, 4), (393440, 100), (524232, 1)] }

theorem pair_allowed (q : State) (h : q.membersOk (sotOf 0 pairWords .pcsum) = true) : q.sotFault pairWords = none := by
  simp only [State.sotFault, show otypeOf (bits (nth pairWords 0 0) 2 0) = some .pcsum from by decide +kernel, h]
  decide +kernel

/-- The walks and words that make the object valid, in a state that has the same tables. -/
structure Tables (s : State) : Prop where
  words : s.sotWords 1 = pairWords
  root : bits s.roots.1 39 13 * 2 ^ 13 = 0x2000
  absent : bitAt (s.rdWord 0x2008) 63 = false
  ids : (List.range 8).map (fun m => s.vword (2 ^ 46 - 64 + 8 * m)) = [0, 1, 0, 0, 0, 0, 0, 0]
  seen : (s.replica 1 0).seen = []

theorem sot_of_tables {s : State} (h : Tables s) : s.sot 1 = some pairSot := by
  simp only [State.sot]
  rw [h.words, pair_allowed s (members_of_two (by decide +kernel) (by decide +kernel) (by decide +kernel) h.root h.absent h.ids),
    show otypeOf (bits (nth pairWords 0 0) 2 0) = some .pcsum from by decide +kernel]
  rfl

theorem note_of_tables {s : State} (h : Tables s) : s.noteSot 1 = s := by
  simp only [State.noteSot]
  rw [h.words, pair_allowed s (members_of_two (by decide +kernel) (by decide +kernel) (by decide +kernel) h.root h.absent h.ids)]
  simp [h.seen]

theorem replica_of_tables {s : State} (h : Tables s) : s.replicaOn 1 0 = some pair := by
  unfold State.replicaOn
  rw [sot_of_tables h]
  simp only [show nth pairSot.locals 0 127 = 0 from by decide +kernel]
  rfl

theorem tables_of_paired : Tables paired := ⟨by decide +kernel, by decide +kernel, by decide +kernel, by decide +kernel, by decide +kernel⟩

/-- A flit of a cut between die 1 and die 0. -/
def cutFlit (kind n : Nat) : Flit :=
  { blankFlit with kind := kind, cls := 3, slcn := 256, param := 2 ^ 12 + 1, len := n }
theorem tables_of_same {s : State} (h : Tables s) (r : Tab Replica) (t : Word) (hr : (({ s with replicas := r } : State).replica 1 0).seen = []) :
    Tables { s with replicas := r, time := t } := ⟨h.words, h.root, h.absent, h.ids, hr⟩

def cutting (c : Cut) : State := { paired with replicas := [(8, { valid := true, cuts := [(7, c)] })] }

theorem tables_of_cutting : Tables (cutting { headed := true, units := 1 }) := tables_of_same tables_of_paired _ _ (by decide +kernel)

/-- A cut that may be sent to the other member; flits of cuts that come from another die and over a link; the header of a cut, and
what follows a complete header. -/
theorem witness_cutsAreShipped :
    (let r := paired.openReplica pair
     let q := r.vputWord pair.beat (r.vword pair.beat + 1)
     paired.replicaOn 1 0 = some pair ∧ pair.peer 0 = some 1 ∧ paired.shipping = true ∧ (paired.memberAt pair.o 1).1 = paired.mgmt.devno ∧
      q.cutPoison pair (q.dueUnits pair (q.vword (pair.shipped 0)).toNat (q.vword pair.csn).toNat) = none) ∧
    (∀ n ∈ [6, 7, 8, 9], let s : State := { paired with dieFlits := [cutFlit n 8] }
     Claim.CutComes s (cutFlit n 8) n { s with dieFlits := [] } { cutFlit n 8 with ddev := s.mgmt.devno, sdev := s.mgmt.devno }) ∧
    (∀ n ∈ [6, 7, 8, 9], Claim.CutComes noise (arriving (cutFlit n 8)) n (Claim.accepted noise (arriving (cutFlit n 8)))
      (arriving (cutFlit n 8))) ∧
    (let s := cutting { headed := true, units := 1 }
     let q := s.noteSot 1
     let c := (q.openReplica pair).cutFrom pair 7
     q.replicaOn 1 0 = some pair ∧ q.slotOf pair.o 0 1 = some 1 ∧ (q.openReplica pair).shipping = true ∧ c.stopped = false ∧
      c.headed = true ∧ c.tag = 0 ∧ c.part = 0 ∧ c.units ≠ 0 ∧ 0 < pair.o.units ∧ q.joinPoison pair 0 [] = none ∧ q.markerPoison pair = none ∧
      s.memberAt pair.o 1 = (0, 1) ∧ (∀ i p, i < 8 → i ≠ 0 → pair.peer i = some p → s.memberAt pair.o p ≠ (0, 1))) ∧
    (∀ n ∈ [6, 7, 8, 9], let f := cutFlit n 64
     f.param % 2 ^ 12 = 1 ∧ f.dlcn / 256 = 0 ∧ f.sdev = 0 ∧ f.slcn / 256 = 1 ∧ f.cls = 3 ∧ f.tag = 0 ∧ f.param / 2 ^ 12 % 2 = 1 ∧
      f.addr / 2 ^ 32 = 0) := by
  have hn := note_of_tables tables_of_cutting
  refine ⟨⟨replica_of_tables tables_of_paired, by decide +kernel, by decide +kernel, by decide +kernel, by decide +kernel⟩,
    fun n h => ?_, fun n h => ?_, ⟨?_, ?_, ?_, ?_, ?_, ?_, ?_, ?_, by decide +kernel, ?_, ?_, by decide +kernel, fun i p hi h0 hp => ?_⟩, by decide +kernel⟩
  · simp only [List.mem_cons, List.not_mem_nil, or_false] at h
    rcases h with h | h | h | h <;> subst h <;> exact .inl (by decide +kernel)
  · simp only [List.mem_cons, List.not_mem_nil, or_false] at h
    rcases h with h | h | h | h <;> subst h <;> exact .inr ⟨by decide +kernel, comes_of (by decide +kernel), rfl, rfl⟩
  · rw [hn]
    exact replica_of_tables tables_of_cutting
  iterate 9
    · rw [hn]
      decide +kernel
  · have h : ((List.range 8).all (fun i => decide (i = 0) || (pair.peer i).all (fun p => decide
      ((cutting { headed := true, units := 1 }).memberAt pair.o p ≠ (0, 1))))) = true := by decide +kernel
    have h := List.all_eq_true.mp h i (List.mem_range.mpr hi)
    rw [hp] at h
    simpa [h0] using h

/-- Objects of the types that join, a unit of a set with one page of one dot, and the joins of dots by R314's two conditions. -/
theorem witness_unitsAreJoined :
    pair.o.ty = .pcsum ∧ tileSot.ty = .lwwt ∧ pageSot.ty = .awset ∧
    carried (wordsBytes [word (3 + 2 ^ 32), word (5 * 2 ^ 40 + 9), 0, 0, 0, 0, 0, 0]) 2 = [(3, [⟨5, 9⟩])] ∧
    (∀ q ∈ (pages th).unitPages ⟨pageSot, 0, 0, 0⟩ 0, q.1 = 3) ∧
    joinDots [⟨1, 4⟩, ⟨2, 6⟩] [⟨5, 9⟩, ⟨6, 2⟩] (fun r => if r = 6 then 2 else 0) (fun r => if r = 1 then 4 else 5) = [⟨2, 6⟩, ⟨5, 9⟩] ∧
    0 < 16 ∧ 3 < 64 / 16 := by decide +kernel

/-- A replica whose other member has been silent for its time; one that HOLD names; one that is PRESENT again; a lift that ends. -/
def member (x : Word) (r : Replica) (s : State) : State := { s.vputWord (pair.member 1) x with replicas := [(8, r)], time := 100 }
theorem witness_membersOfReplicas :
    (paired.replicaOn 1 0 = some pair ∧ paired.shipping = true ∧ paired.fixed = false) ∧
    (let s : State := { paired with replicas := [(8, { valid := true, timers := [(1, 0)] })], time := 100 }
     s.replicaOn 1 0 = some pair ∧ (s.replica 1 0).valid = true ∧ 1 < pair.o.n ∧ 1 ≠ pair.self ∧ s.memberState pair 1 ≠ 1 ∧
      look (s.replica 1 0).timers 1 = some 0 ∧ (0 : Word).toNat + pair.o.silence ≤ s.time.toNat) ∧
    (let s := member 4 {} paired
     (s.vword (pair.member 1)).getLsbD 2 = true ∧ s.memberState pair 1 ≠ 1) ∧
    (let s := member 2 {} paired
     (s.vword (pair.member 1)).getLsbD 2 = false ∧ s.memberState pair 1 = 2 ∧
      ∀ c, c < pair.o.n → (s.vword (pair.front c)).toNat ≤ (s.vword (pair.hv 1 c)).toNat) ∧
    (let s := member 0 { lift := some (5, 100) } paired
     (s.replica 1 0).lift = some (5, 100) ∧ (100 : Word).toNat ≤ s.time.toNat) := by
  refine ⟨⟨replica_of_tables tables_of_paired, by decide +kernel⟩, ⟨replica_of_tables (tables_of_same tables_of_paired _ _ (by decide +kernel)), by decide +kernel⟩, by decide +kernel,
    ⟨by decide +kernel, by decide +kernel, ?_⟩, by decide +kernel⟩
  have h : ((List.range 2).all (fun c => decide (((member 2 {} paired).vword (pair.front c)).toNat ≤
    ((member 2 {} paired).vword (pair.hv 1 c)).toNat))) = true := by decide +kernel
  intro c hc
  exact of_decide_eq_true (List.all_eq_true.mp h c (List.mem_range.mpr hc))

/-- The bridge in SERVICE and D0 with its host side open. -/
theorem witness_hostAndManagementWrites :
    State.reset.hostOpen = true ∧ State.reset.mgmt.power = 0 ∧ State.reset.ctl.length = 11 ∧ 31 < State.reset.mgmt.cktgt.length := by
  decide +kernel

/-- The launch mailbox with a message in place whose block stands in its slot, and the same block submitted by the management
controller. -/
def launchBoxed : State :=
  let s := boxed [0, 0, word (loadVa + 256), word (loadVa + 128), word (2 ^ 63 + 256 * 2 ^ 32 + 2 ^ 16)] 0 (holding 0 5)
  { s.wrWord (loadFrame + 128) 1 with ctl := modify s.ctl 6 (fun _ => word loadVa) }
theorem witness_hostRequests :
    (let s := launchBoxed.modMgmt (fun m => { m with devno := 1, launchArea := word (loadVa + 512) })
     s.mode = .service ∧ s.mgmt.power = 0 ∧ s.bridge = false ∧ launchBoxed.bridge = true ∧
      ∃ b, s.launchBox = .ok b ∧ b.z = 256 ∧ s.seqWord ⟨false, noLaunch, 0⟩ b ((b.f 0).toNat % b.slots) = .ok 1 ∧
        (1 : Word).toNat % 2 ^ 63 = ((b.f 0).toNat + 1) % 2 ^ 63 ∧
        s.checkWords ⟨false, noLaunch, 0⟩ (b.f 2 + word ((b.f 0).toNat % b.slots * b.z)) 16 = .ok (blockPlaces 256 16) ∧
        s.locate' ⟨false, noLaunch, 0⟩ .store (b.f 2 + word ((b.f 0).toNat % b.slots * b.z) + 128) 8 = .ok (placeAt 0 384) ∧
        s.checkWords ⟨false, noLaunch, 0⟩ (s.mgmt.launchArea + word (256 * 0)) 16 = .ok (blockPlaces 512 16) ∧
        s.locate' ⟨false, noLaunch, 0⟩ .store (s.mgmt.launchArea + word (256 * 0) + 128) 8 = .ok (placeAt 0 640) ∧
        s.stageTable (s.wordsAt (blockPlaces 256 16)) = .ok [] ∧
        (∀ k ∈ s.seqKey ⟨false, noLaunch, 0⟩ b 0 ++ (blockPlaces 256 16).map (fun l => l.key) ++ s.tableKeys (s.wordsAt (blockPlaces 256 16)),
          s.lineHeld k = false) ∧
        ∀ l ∈ [b.loc, placeAt 0 384] ++ s.areaPlaces 0, s.lineHeld l.key = false ∧ s.lineShared l.key = false) ∧
    (let s := paged 0 (holding 0 5)
     s.mode ≠ .recovery ∧ s.mgmt.power = 0 ∧ s.mode ≠ .test ∧ (word loadVa).toNat % 8 = 0 ∧
      s.checkWords ⟨false, noLaunch, 0⟩ (word loadVa) 16 = .ok (blockPlaces 0 16) ∧
      s.locate' ⟨false, noLaunch, 0⟩ .store (word loadVa + 128) 8 = .ok (placeAt 0 128) ∧
      s.stageTable (s.wordsAt (blockPlaces 0 16)) = .ok []) := by
  refine ⟨⟨by decide +kernel, by decide +kernel, by decide +kernel, by decide +kernel, ?_⟩, by decide +kernel, by decide +kernel, by decide +kernel,
    by decide +kernel, ok_of (by decide +kernel), ok_of (by decide +kernel), ok_of (by decide +kernel)⟩
  have h : okAnd (launchBoxed.modMgmt (fun m => { m with devno := 1, launchArea := word (loadVa + 512) })).launchBox (fun b =>
      let s := launchBoxed.modMgmt (fun m => { m with devno := 1, launchArea := word (loadVa + 512) })
      let a := b.f 2 + word ((b.f 0).toNat % b.slots * b.z)
      decide (b.z = 256) && okIs (s.seqWord ⟨false, noLaunch, 0⟩ b ((b.f 0).toNat % b.slots)) 1 &&
      decide ((1 : Word).toNat % 2 ^ 63 = ((b.f 0).toNat + 1) % 2 ^ 63) &&
      okIs (s.checkWords ⟨false, noLaunch, 0⟩ a 16) (blockPlaces 256 16) &&
      okIs (s.locate' ⟨false, noLaunch, 0⟩ .store (a + 128) 8) (placeAt 0 384) &&
      ((s.seqKey ⟨false, noLaunch, 0⟩ b 0 ++ (blockPlaces 256 16).map (fun l => l.key) ++ s.tableKeys (s.wordsAt (blockPlaces 256 16))).all
        (fun k => decide (s.lineHeld k = false))) &&
      (([b.loc, placeAt 0 384] ++ s.areaPlaces 0).all (fun l => decide (s.lineHeld l.key = false ∧ s.lineShared l.key = false)))) = true := by
    decide +kernel
  obtain ⟨b, h1, h2⟩ := ok_and h
  simp only [Bool.and_eq_true] at h2
  obtain ⟨⟨⟨⟨⟨⟨k0, k1⟩, k2⟩, k3⟩, k4⟩, k5⟩, k6⟩ := h2
  exact ⟨b, h1, of_decide_eq_true k0, ok_of k1, of_decide_eq_true k2, ok_of k3, ok_of k4, ok_of (by decide +kernel), ok_of (by decide +kernel),
    ok_of (by decide +kernel), fun k hk => of_decide_eq_true (List.all_eq_true.mp k5 k hk),
    fun l hl => of_decide_eq_true (List.all_eq_true.mp k6 l hl)⟩

/-- A page that the host may own, with a request for it in each ring: of the device's, to come with its counter in the page, and of
the host's, to go; and an access of the page under way. -/
def migrating (ring : Bool) : State :=
  let s := paged 4 (holding 0 0)
  let key := if ring then 0x3F00000 else 0x40000
  let s := [(0, word loadVa), (1, 0x5000), (2, if ring then 1 else 0), (3, word (loadVa + 8))].foldl
    (fun (s : State) e => s.wrWord (key + 8 * e.1) e.2) s
  { s with ctl := modify (modify (modify s.ctl 7 (fun _ => 0)) 8 (fun _ => 0x40000)) 9 (fun _ => if ring then 0 else 1),
           host := { s.host with mhead := if ring then 1 else 0 } }
theorem witness_migrations :
    (∀ h ∈ [true, false], let s := migrating h
     s.hostOpen = true ∧ s.nextRing = some h ∧ nth (s.request (s.ringKey h)) 0 0 = word loadVa ∧
      nth (s.request (s.ringKey h)) 2 0 = (if h then 1 else 0) ∧
      s.leafKey (bits s.roots.1 39 13 * 2 ^ 13) (pageIndexes loadVa) = some 0x8008 ∧ (word loadVa).toNat % 65536 = 0 ∧
      bits (word loadVa) 63 56 = 0 ∧ s.ctl.length = 11 ∧
      ∃ e, s.walk loadVa = .leaf e false ∧ leafKind e = 4) ∧
    (let s := migrating true
     let u := { s.setOwner 0x8008 false with tlbs := [], stale := [], dropped := s.dropped + 1 }
     u.pageInUse loadVa loadFrame false = false ∧
      ({ u with accs := [issued (.store [5])] } : State).pageInUse loadVa loadFrame false = true) ∧
    (migrating true).MemWf ∧ 0x8008 + 8 ≤ controlPage ∧ [(65535, (7 : Byte))].find? (fun e => decide (e.1 = 65535)) = some (65535, 7) := by
  refine ⟨fun h _ => ?_, by decide +kernel, by unfold State.MemWf; decide +kernel, by decide +kernel, by decide +kernel⟩
  cases h <;>
    exact ⟨by decide +kernel, by decide +kernel, by decide +kernel, by decide +kernel, by decide +kernel, by decide +kernel, by decide +kernel,
      by decide +kernel, word (2 ^ 63 + 4 * 2 ^ 60 + 7 * 2 ^ 57 + loadFrame), by decide +kernel⟩

/-- GO with QUIET and without, a write while BUSY, a write without GO; a summary with a resident, without, and with all sections. -/
theorem witness_summaries :
    (State.reset.mgmt.power = 0 ∧ State.reset.bridge = true) ∧
    (let s : State := { State.reset with host := { State.reset.host with summary := 4 } }
     (s.recordBar0 0x20 1).host.summary.getLsbD 2 = true ∧ (State.reset.recordBar0 0x20 1).host.summary.getLsbD 2 = false) ∧
    (let s : State := { issuing th with host := { State.reset.host with summary := 6 } }
     s.host.summary.getLsbD 2 = true ∧ s.host.summary.getLsbD 1 = true ∧ s.host.sumPart.length = 0 ∧
      ∃ e ∈ s.live, e.2.place.isSome = true ∧ e.2.kind ≠ .handler) ∧
    (let s : State := { State.reset with host := { State.reset.host with summary := 4, sumHost := true, sumPart := List.replicate 8 [] } }
     s.host.summary.getLsbD 1 = false ∧ 8 ≤ s.host.sumPart.length ∧ s.host.sumHost = true) := by
  refine ⟨by decide +kernel, by decide +kernel, ⟨by decide +kernel, by decide +kernel, by decide +kernel, (1, th), by decide +kernel, by decide +kernel⟩,
    by decide +kernel⟩

theorem witness_powerAndClock :
    (State.reset.mgmt.power = 0 ∧ State.reset.mode ≠ .recovery ∧ State.reset.mgmt.ckpt = false ∧ State.reset.replaying = false ∧ State.reset.mgmt.det = false ∧ State.reset.betweenRotations = true ∧
      State.reset.emptied = true ∧ State.reset.drained = true) ∧
    (let s : State := { State.reset with mgmt := { State.reset.mgmt with power := 2, levelLater := some 2 } }
     (s.mgmt.power = 1 ∨ s.mgmt.power = 2) ∧ s.mgmt.power ≠ 3 ∧ (2 : BitVec 2) ≠ 3) ∧
    (let s : State := { State.reset with mgmt := { State.reset.mgmt with levelLater := some 2 } }
     s.mgmt.levelLater = some 2 ∧ s.mgmt.power = 0 ∧ s.mgmt.ckpt = false ∧ s.betweenRotations = true) := by decide +kernel

/-- Results of a bring-up with the images given, and with n modules left at the last boundary. -/
def brought (images : List Firmware) (train : Bool) (n : Nat) : BringUp :=
  { images := images, trainOk := train, badStep := 0, cause := 0, badUnit := 0, removed := List.replicate 9 [] ++ [List.range (48 - n)],
    devno := 4095, ftbase := 0, elbase := 0, recbase := 0, cktgt := [], control := [], queues := [], linksUp := 0xFFFF, launchArea := 0,
    relay := [], debugToken := none }
def lostModules (b : BringUp) (n : Nat) : Nat := (dedup ((nth b.removed n []).filter (fun m => decide (m < 48)))).length

theorem witness_deviceModes :
    (let s : State := { State.reset with mode := .boot }
     s.mode = .boot ∧ s.mgmt.power = 0 ∧ s.mgmt.modeLater ≠ some 3 ∧ s.emptied = true ∧ s.drained = true ∧ s.mgmt.held = false ∧ s.launches = [] ∧
      (((s.recordCommand .service []).modMgmt (fun m => { m with modeLater := some 1 })).saveBands).bandsSaved = true ∧
      (((s.recordCommand .test []).modMgmt (fun m => { m with modeLater := some 2 })).saveBands).bandsSaved = true) ∧
    (∀ f : Firmware, f ∉ (brought [] true 24).images) ∧ (brought [] true 24).trainOk = true ∧ (brought [] false 24).trainOk = false ∧
    (∀ n, n < 10 → lostModules (brought [] true 24) n ≤ 24) ∧ (∃ n, n < 10 ∧ 24 < lostModules (brought [] true 23) n) ∧
    (let f : Firmware := ⟨[], [], []⟩
     f ∈ (brought [f] true 24).images ∧ ¬ signedByFuses State.reset.mgmt.keyHash f.key f.image f.signature = true) :=
  ⟨by decide +kernel, fun f h => absurd h (by simp [brought]), by decide +kernel, by decide +kernel, by decide +kernel,
    ⟨9, by decide +kernel⟩, by decide +kernel⟩

/-- A device that a checkpoint's target reaches; an image that RESTORE finds good, and bad; the next record of a replay. -/
def targeted : State :=
  { State.reset with
    mem := [(0x60049, 131)], mgmt := { State.reset.mgmt with ftbase := 0x60000, cktgt := modify State.reset.mgmt.cktgt 30 (fun _ => 0x1009) },
    links := modify State.reset.links 3 (fun k => { k with up := true }) }
def sent : Image := {}

theorem witness_checkpoints :
    (targeted.mgmt.power = 0 ∧ targeted.mgmt.ckpt = false) ∧
    (let s := targeted.modMgmt (fun m => { m with ckpt := true })
     s.mgmt.stream = none ∧ s.replaying = false ∧ s.emptied = true ∧ s.drained = true ∧ s.saveBands.bandsSaved = true ∧ s.mgmt.powerLater = none) ∧
    targeted.targets = [(9, 15)] ∧ targeted.mgmt.devno ≠ 9 ∧ targeted.route 9 = some 3 ∧ State.reset.targets = [] ∧
    ({ targeted with mgmt := { targeted.mgmt with ftbase := 0 } } : State).route 9 = none ∧ targeted.bulkPending = false ∧
    (∀ f ∈ targeted.queued, f.kind ≠ 12) ∧
    (let live := targeted.targets.filter (fun t => ¬ t.2 ∈ ([] : List Nat))
     (live.find? (fun t => decide (t.2 ≥ 0))).or live.head? = some (9, 15)) := by decide +kernel

/-- A device in TEST with an image whose record has version v and device number d, its sections empty, at loadVa beyond 32 GiB. -/
def recorded (v d : Word) : State :=
  let s : State := (State.reset.loaded.wrWord 0x7000 (word (2 ^ 63 + 0x8000))).modMgmt (fun m => { m with devno := 0 })
  let s := [(0, v), (1, d), (55, 1), (56, 1), (57, 1), (58, 1)].foldl (fun (s : State) e => s.wrWord (loadFrame + 8 * e.1) e.2) s
  { s with mode := .test, ctl := modify s.ctl 3 (fun _ => word loadVa), image := some { sent with mem := s.mem, placed := [(5, 2)] } }

/-- RESTORE from every target and from none, of a good record, of another version, of another device; and in SERVICE. -/
theorem witness_restores :
    (∀ e ∈ [(1, 0), (1, 7), (2, 0)], let s := recorded e.1 e.2
     let q := s.recordCommand .restore (restoreWords ⟨[2], none⟩)
     s.mgmt.power = 0 ∧ (q.mode = .boot ∨ q.mode = .test) ∧ ∃ im, q.image = some im ∧ im.unreadable ⟨[2], none⟩ = none ∧
      im.unreadable ⟨[], none⟩ = some 5 ∧ im.unreadable ⟨[2], some 3⟩ = some 3 ∧
      (q.loadMemory im hbmEnd).headerWord 0 = e.1 ∧ (q.loadMemory im hbmEnd).headerWord 1 = e.2 ∧ (q.loadMemory im hbmEnd).mgmt.devno = 0 ∧
      ∃ r, (q.loadMemory im hbmEnd).readRecord = some r) ∧
    (State.reset.recordCommand .restore (restoreWords ⟨[], none⟩)).mode = .service ∧
    (State.reset.emptied = true ∧ State.reset.drained = true ∧
      (State.reset.modMgmt (fun m => { m with modeLater := some 3 })).saveBands.bandsSaved = true) := by
  refine ⟨fun e he => ?_, by decide +kernel, by decide +kernel⟩
  have h : ([(1, 0), (1, 7), (2, 0)].all (fun e => let s := recorded e.1 e.2
     let q := s.recordCommand .restore (restoreWords ⟨[2], none⟩)
     decide (s.mgmt.power = 0 ∧ (q.mode = .boot ∨ q.mode = .test)) && someAnd q.image (fun im =>
      decide (im.unreadable ⟨[2], none⟩ = none ∧ im.unreadable ⟨[], none⟩ = some 5 ∧ im.unreadable ⟨[2], some 3⟩ = some 3 ∧
      (q.loadMemory im hbmEnd).headerWord 0 = e.1 ∧ (q.loadMemory im hbmEnd).headerWord 1 = e.2 ∧ (q.loadMemory im hbmEnd).mgmt.devno = 0 ∧
      (q.loadMemory im hbmEnd).readRecord.isSome = true)))) = true := by decide +kernel
  have h := List.all_eq_true.mp h e he
  simp only [Bool.and_eq_true, decide_eq_true_eq] at h
  obtain ⟨⟨h1, h2⟩, h3⟩ := h
  obtain ⟨im, h4, h5⟩ := some_and h3
  obtain ⟨k1, k2, k3, k4, k5, k6, k7⟩ := of_decide_eq_true h5
  exact ⟨h1, h2, im, h4, k1, k2, k3, k4, k5, k6, Option.isSome_iff_exists.mp k7⟩

/-- A replay whose next record is a recorded value of the clock for core 5, which waits; the value supplied; a wait that expired,
and one whose rotation is past; a share of slots; an entry to D2. -/
def replay : State :=
  { State.reset with
    mode := .test, mem := [(0x10008, 5), (0x1000A, 5)], mgmt := { State.reset.mgmt with det := true, recbase := 0x10000, replayAt := some 0 } }
def pastExpiry : State := { replay with mem := [(0x10008, 5), (0x1000A, 7)], cores := [(5, { rotation := 1 })] }

theorem witness_replays :
    (replay.mode = .test ∧ replay.mgmt.det = true ∧ ∃ r, replay.recordedAt 0 = some r ∧ replay.unitRotation r.unit = r.rot ∧
      ∃ v, (replay.modMgmt (fun m => { m with replayAt := some (r.index + 1 + r.more) })).deliver r.unit r.kind 0 0 [] = some v) ∧
    (replay.replaying = true ∧ replay.awaitsRecord 5 = true) ∧
    (let s := replay.modMgmt (fun m => { m with supplied := [(5, unitCore 5, 7, 9)] })
     s.replaying = true ∧ s.mgmt.supplied = (5, unitCore 5, 7, 9) :: []) ∧
    (let t := blocked 7
     let s := issuing t
     s.live.find? (fun e => decide (e.2.state = .blocked ∧ e.2.tidWord = t.tidWord)) = some (1, t) ∧ t.wait.isSome = true) ∧
    (State.reset.betweenRotations = true ∧
      ({ State.reset with cores := [(0, { nextSlot := 3 })] } : State).betweenRotations = false) ∧
    (pastExpiry.mode = .test ∧ pastExpiry.mgmt.det = true ∧ ∃ r, pastExpiry.recordedAt 0 = some r ∧ r.kind = 7 ∧
      r.rot < pastExpiry.unitRotation r.unit) ∧
    (∀ e ∈ State.reset.live, e.2.state ≠ .blocked ∨ e.2.tidWord ≠ 7) ∧
    ((State.reset.core 5).slots.length = 8 ∧
      ({ State.reset with cores := [(5, { rotation := 2 ^ 20 })] } : State).shareDue 5 = true) ∧
    (bits (2 : Word) 1 0 = 2 ∧ bits (1 : Word) 1 0 ≠ 2 ∧ State.reset.mgmt.power ≠ 2 ∧ State.reset.emptied = true ∧
      State.reset.drained = true ∧ State.reset.saveBands.bandsSaved = true) := by
  refine ⟨⟨rfl, rfl, ?_⟩, by decide +kernel, by decide +kernel, by decide +kernel, by decide +kernel, ⟨by decide +kernel, by decide +kernel, ?_⟩,
    by decide +kernel, by decide +kernel, by decide +kernel⟩
  rotate_left
  · have h : someAnd (pastExpiry.recordedAt 0) (fun r => decide (r.kind = 7 ∧ r.rot < pastExpiry.unitRotation r.unit)) = true := by
      decide +kernel
    obtain ⟨r, h1, h2⟩ := some_and h
    exact ⟨r, h1, of_decide_eq_true h2⟩
  have h : someAnd (replay.recordedAt 0) (fun r => decide (replay.unitRotation r.unit = r.rot) &&
    ((replay.modMgmt (fun m => { m with replayAt := some (r.index + 1 + r.more) })).deliver r.unit r.kind 0 0 []).isSome) = true := by decide +kernel
  obtain ⟨r, h1, h2⟩ := some_and h
  rw [Bool.and_eq_true] at h2
  exact ⟨r, h1, of_decide_eq_true h2.1, Option.isSome_iff_exists.mp h2.2⟩

/-- SHA-384 of "abc", FIPS 180-4's example; the base point of RFC 5639 is a point of the curve. -/
theorem test_sha384 : bigNum (sha384 [0x61, 0x62, 0x63]) =
    0xcb00753f45a35e8bb5a03d699ac65007272c32ab0eded1631a8b605a43ff5bed8086072ba1e7cc2358baeca134c825a7 := by decide +kernel
theorem test_basePoint : onCurve (curveX, curveY) = true := by decide +kernel

theorem witness_debugSessions :
    (State.reset.mgmt.power < 2 ∧ State.reset.mgmt.secst = 0 ∧
      State.reset.verifiesToken { identity := [], launches := [0], expiry := 7, key := [], signature := [] } = false) ∧
    (let s : State := { State.reset with mgmt := { State.reset.mgmt with secst := 1, token := some ([0], 7) }, time := 7 }
     s.mgmt.token = some ([0], 7) ∧ s.mgmt.secst = 1 ∧ s.mgmt.power < 2 ∧ 7 ≤ s.time.toNat ∧ ({ s with time := 6 } : State).time.toNat < 7) ∧
    State.reset.security = 0 ∧ (debugged th).security ≠ 0 ∧
    (let t : Thread := { trapped with debugStop := true }
     (debugged t).thread 1 = some t ∧ t.debugStop = true ∧ t.state = .trapped ∧ (debugged t).mgmt.power = 0 ∧
      ((debugged t).mgmt.secst = 1 ∨ (debugged t).mgmt.secst = 2) ∧ t.inFrame = false) := by decide +kernel

/-- The bridge, whose key may be used and may not; a device that reports through its sender's mailbox; the bridge with that
device's message in place. -/
def relaying (ws : List Word) (q : Word) (dev : Nat) : State :=
  (boxed ws q (holding 0 0)).modMgmt (fun m => { m with relay := [(3, word loadVa)], devno := dev })
theorem witness_spdmAnswers :
    (State.reset.bridge = true ∧ State.reset.mgmt.power ≠ 3 ∧ State.reset.signs = true ∧
      ({ State.reset with mode := .recovery } : State).signs = false ∧ ({ State.reset with mode := .recovery } : State).bridge = true) ∧
    (let s : State := { relaying (senderWords 0) 0 3 with mode := .recovery }
     s.bridge = false ∧ s.mgmt.power ≠ 3 ∧ s.signs = false ∧ s.mgmt.devno = 3 ∧ ∃ b, s.relayBox 3 1 = some b ∧ b.free ≠ 0 ∧ 0 ≤ b.z) ∧
    (let s := relaying (receiverWords 0) 1 0
     s.bridge = true ∧ s.mgmt.power ≠ 3 ∧ s.mgmt.devno = 0 ∧ ∃ b, s.relayBox 3 2 = some b ∧
      s.seqWord ⟨false, noLaunch, 0⟩ b ((b.f 0).toNat % b.slots) = .ok 1 ∧
      s.locateBytes ⟨false, noLaunch, 0⟩ .load (b.f 2 + word ((b.f 0).toNat % b.slots * b.z)) b.z =
        .ok ((List.range 64).map (fun i => placeAt 0 (128 + i))) ∧ inPlace 1 (b.f 0).toNat = true ∧
      (∀ x ∈ s.seqKey ⟨false, noLaunch, 0⟩ b ((b.f 0).toNat % b.slots), s.lineHeld x = false) ∧
      (∀ l ∈ (List.range 64).map (fun i => placeAt 0 (128 + i)), s.lineHeld l.key = false) ∧
      ∃ v, (s.takeMail 0 b []).spdm .refused = some v) := by
  refine ⟨by decide +kernel, ⟨by decide +kernel, by decide +kernel, by decide +kernel, by decide +kernel, ?_⟩, by decide +kernel, by decide +kernel,
    by decide +kernel, ?_⟩
  · have h : someAnd ((({ relaying (senderWords 0) 0 3 with mode := .recovery } : State)).relayBox 3 1) (fun b => decide (b.free ≠ 0)) = true := by
      decide +kernel
    obtain ⟨b, h1, h2⟩ := some_and h
    exact ⟨b, h1, of_decide_eq_true h2, Nat.zero_le _⟩
  · have h : someAnd ((relaying (receiverWords 0) 1 0).relayBox 3 2) (fun b =>
        let s := relaying (receiverWords 0) 1 0
        let w : Who := ⟨false, noLaunch, 0⟩
        let k := (b.f 0).toNat % b.slots
        okIs (s.seqWord w b k) 1 && (okIs (s.locateBytes w .load (b.f 2 + word (k * b.z)) b.z) ((List.range 64).map (fun i => placeAt 0 (128 + i))) &&
          (inPlace 1 (b.f 0).toNat && ((s.seqKey w b k).all (fun x => decide (s.lineHeld x = false)) &&
            (((List.range 64).map (fun i => placeAt 0 (128 + i))).all (fun l => decide (s.lineHeld l.key = false)) &&
              ((s.takeMail 0 b []).spdm .refused).isSome))))) = true := by decide +kernel
    obtain ⟨b, h1, h2⟩ := some_and h
    simp only [Bool.and_eq_true] at h2
    obtain ⟨k1, k2, k3, k4, k5, k6⟩ := h2
    exact ⟨b, h1, ok_of k1, ok_of k2, k3, fun x hx => of_decide_eq_true (List.all_eq_true.mp k4 x hx),
      fun l hl => of_decide_eq_true (List.all_eq_true.mp k5 l hl), Option.isSome_iff_exists.mp k6⟩

/-! ### Encodings and the step -/

theorem witness_decodeAfterEncode :
    (Instr.addi 1 126 124 2047).WellFormed ∧ (encode (.addi 1 126 124 2047)).isSome = true ∧
    (∃ w, w < 2 ^ 32 ∧ parse w = some (.add 0 3 2 1)) :=
  ⟨by unfold Instr.WellFormed; decide +kernel, by decide +kernel, 0b0_000000_0000011_0000010_0000001_0000, by decide +kernel, by decide +kernel⟩

/-- The loaded machine at the turn of core 0, whose thread issues the word w; one that fetches where no page is; and an idle core. -/
def turning (w : Nat) (t : Thread) : State := { (mapped t).wrBytes loadFrame (bytesOf 4 w) with agenda := [.turn 0, .tick 5], cur := 0 }
def chosen (s : State) : Option (Nat × State) :=
  let q := { s with agenda := [.tick 5] }
  (q.beginTurn 0).choose 0 (q.core 0).nextSlot

theorem witness_stepRunsDecodedInstruction :
    (∀ w ∈ [0b0_000000_0000011_0000010_0000001_0000, 0xFFFFFFFF], let t := at2 0
      (turning w t).agenda = .turn 0 :: [.tick 5] ∧ ({ turning w t with agenda := [.tick 5] } : State).turnDue 0 = true ∧
      ({ turning w t with agenda := [.tick 5] } : State).lets (.turn 0) = true ∧
      ∃ tid p, chosen (turning w t) = some (tid, p) ∧ tid = 1 ∧ ({ turning w t with agenda := [.tick 5] } : State).eventFirst tid = none ∧
        p.thread tid = some t ∧ t.stalled = none ∧ p.nextWord t = .ok w) ∧
    (let t : Thread := { at2 0 with pc := 0x30000 }
     ∃ p, chosen (turning 0 t) = some (1, p) ∧ ({ turning 0 t with agenda := [.tick 5] } : State).eventFirst 1 = none ∧
      p.thread 1 = some t ∧ p.nextWord t = .error ⟨cNOTPRESENT, 0x30000⟩) ∧
    chosen { State.reset with agenda := [.turn 2047] } = none ∧
    ((∃ i, parse 0b0_000000_0000011_0000010_0000001_0000 = some i ∧ i.WellFormed) ∧ parse 0xFFFFFFFF = none) := by
  refine ⟨fun w hw => ?_, ?_, Option.isNone_iff_eq_none.mp (by decide +kernel), ⟨⟨.add 0 3 2 1, by decide +kernel, by unfold Instr.WellFormed; decide +kernel⟩, by decide +kernel⟩⟩
  · have h : ([0b0_000000_0000011_0000010_0000001_0000, 0xFFFFFFFF].all (fun w => decide ((turning w (at2 0)).agenda = .turn 0 :: [.tick 5] ∧
      ({ turning w (at2 0) with agenda := [.tick 5] } : State).turnDue 0 = true ∧
      ({ turning w (at2 0) with agenda := [.tick 5] } : State).lets (.turn 0) = true) && someAnd (chosen (turning w (at2 0))) (fun e =>
        decide (e.1 = 1 ∧ (({ turning w (at2 0) with agenda := [.tick 5] } : State).eventFirst e.1).isNone = true ∧ e.2.thread e.1 = some (at2 0) ∧ (at2 0).stalled = none) &&
        okIs (e.2.nextWord (at2 0)) w))) = true := by decide +kernel
    have h := List.all_eq_true.mp h w hw
    rw [Bool.and_eq_true] at h
    have h1 := of_decide_eq_true h.1
    obtain ⟨⟨tid, p⟩, h2, h3⟩ := some_and h.2
    rw [Bool.and_eq_true] at h3
    have h4 := of_decide_eq_true h3.1
    exact ⟨h1.1, h1.2.1, h1.2.2, tid, p, h2, h4.1, Option.isNone_iff_eq_none.mp h4.2.1, h4.2.2.1, h4.2.2.2, ok_of h3.2⟩
  · have h : someAnd (chosen (turning 0 { at2 0 with pc := 0x30000 })) (fun e => decide (e.1 = 1 ∧
      (({ turning 0 { at2 0 with pc := 0x30000 } with agenda := [.tick 5] } : State).eventFirst 1).isNone = true ∧
      e.2.thread 1 = some { at2 0 with pc := 0x30000 }) && errorIs (e.2.nextWord { at2 0 with pc := 0x30000 }) ⟨cNOTPRESENT, 0x30000⟩) = true := by
      decide +kernel
    obtain ⟨⟨tid, p⟩, h2, h3⟩ := some_and h
    rw [Bool.and_eq_true] at h3
    have h4 := of_decide_eq_true h3.1
    have h5 : tid = 1 := h4.1
    subst h5
    exact ⟨p, h2, Option.isNone_iff_eq_none.mp h4.2.1, h4.2.2, error_of h3.2⟩

/-- Bytes just below the control page, and a state whose memory has the form and that goes on. -/
theorem witness_memory :
    (State.reset.MemWf ∧ (controlPage - 8) + (List.replicate 8 (255 : Byte)).length ≤ controlPage) ∧
    Claim.FormKept { State.reset with agenda := [.tick 5] } ∧
    (match step { State.reset with agenda := [.tick 5] } with
     | .next t => decide (t.time = 5)
     | _ => false) = true := by
  refine ⟨⟨by unfold State.MemWf; decide +kernel, by decide +kernel⟩, ⟨by unfold State.MemWf; decide +kernel, fun im h => ?_, fun st h => ?_⟩, by decide +kernel⟩
  · exact absurd (h.symm.trans (show State.reset.image = none from rfl)) (by simp)
  · exact absurd (h.symm.trans (show State.reset.mgmt.stream = none from rfl)) (by simp)

end Sys2Proof.Tests
end

section
/-! Bytes and words read back as they were written; memories in canonical form that read alike are equal (R6, R182). -/
namespace Sys2Proof.Machine

theorem inControl_of_lt {k : Nat} (h : k < controlPage) : inControl k = false :=
  decide_eq_false (by omega)

/-- Bytes below the control page leave every byte outside them as it was. -/
theorem State.rdByte_wrBytes_of_outside {s : State} {k j : Nat} {bs : List Byte} (hk : k + bs.length ≤ controlPage)
    (hj : j < k ∨ k + bs.length ≤ j) : (s.wrBytes k bs).rdByte j = s.rdByte j := by
  induction bs generalizing s k with
  | nil => rfl
  | cons b r ih =>
    rw [List.length_cons] at hk hj
    calc ((s.wrByte k b).wrBytes (k + 1) r).rdByte j
      _ = (s.wrByte k b).rdByte j := ih (by omega) (by omega)
      _ = s.rdByte j := s.rdByte_wrByte_of_ne b (by omega) (inControl_of_lt (by omega))

theorem State.rdBytes_succ (s : State) (k n : Nat) : s.rdBytes k (n + 1) = s.rdByte k :: s.rdBytes (k + 1) n := by
  simp [State.rdBytes, List.range_succ_eq_map, Function.comp_def, Nat.add_comm, Nat.add_left_comm]

/-- Bytes below the control page read back as they were written. -/
theorem State.rdBytes_wrBytes_self {s : State} {k : Nat} {bs : List Byte} (hs : s.MemWf)
    (hk : k + bs.length ≤ controlPage) : (s.wrBytes k bs).rdBytes k bs.length = bs := by
  induction bs generalizing s k with
  | nil => rfl
  | cons b r ih =>
    rw [List.length_cons] at hk ⊢
    have head : ((s.wrByte k b).wrBytes (k + 1) r).rdByte k = b :=
      (rdByte_wrBytes_of_outside (by omega) (by omega)).trans (rdByte_wrByte_self b hs (inControl_of_lt (by omega)))
    have tail : ((s.wrByte k b).wrBytes (k + 1) r).rdBytes (k + 1) r.length = r :=
      ih (wrByte_wf k b hs) (by omega)
    rw [State.wrBytes, rdBytes_succ, head, tail]

theorem bytesOf_length (n x : Nat) : (bytesOf n x).length = n := by
  induction n generalizing x with
  | zero => rfl
  | succ n ih => simp [bytesOf, ih]

theorem ofBytes_bytesOf (n x : Nat) : ofBytes (bytesOf n x) = x % 256 ^ n := by
  induction n generalizing x with
  | zero => simp [bytesOf, ofBytes, Nat.mod_one]
  | succ n ih =>
    rw [bytesOf, ofBytes, ih, Nat.pow_succ', Nat.mod_mul]
    rfl

/-- A word below the control page reads back as it was written. -/
theorem State.rdWord_wrWord_self {s : State} {k : Nat} (x : Word) (hs : s.MemWf) (hk : k + 8 ≤ controlPage) :
    (s.wrWord k x).rdWord k = x := by
  have hl := bytesOf_length 8 x.toNat
  have hread := rdBytes_wrBytes_self hs (hl.symm ▸ hk)
  rw [hl] at hread
  have hx : x.toNat % 256 ^ 8 = x.toNat := Nat.mod_eq_of_lt x.isLt
  rw [State.rdWord, State.rdNum, State.wrWord, hread, ofBytes_bytesOf, hx, BitVec.ofNat_toNat, BitVec.setWidth_eq]

theorem Memory.wf_cons {a : Nat} {b : Byte} {m : List Host.Cell} :
    Memory.wf ((a, b) :: m) = true ↔ b ≠ 0 ∧ Memory.above a m = true := by
  simp [Memory.wf]

theorem Memory.above_cons {lo a : Nat} {b : Byte} {m : List Host.Cell} :
    Memory.above lo ((a, b) :: m) = true ↔ lo < a ∧ b ≠ 0 ∧ Memory.above a m = true := by
  simp [Memory.above, and_assoc]

theorem Memory.wf_of_above {lo : Nat} {m : List Host.Cell} (h : Memory.above lo m = true) : Memory.wf m = true := by
  cases m with
  | nil => rfl
  | cons e r => exact wf_cons.mpr (above_cons.mp h).2

theorem Memory.read_cons_self (a : Nat) (b : Byte) (m : List Host.Cell) : Memory.read ((a, b) :: m) a = b := by
  simp [Memory.read]

theorem Memory.read_cons_of_lt {a k : Nat} {b : Byte} {m : List Host.Cell} (hm : Memory.above a m = true) (h : k < a) :
    Memory.read ((a, b) :: m) k = 0 := by
  rw [Memory.read, if_neg (by omega), read_above hm (by omega)]

/-- The first address that a memory in canonical form lists is not below the first that one reading alike lists. -/
theorem Memory.head_le {a a' : Nat} {b b' : Byte} {m m' : List Host.Cell} (h : Memory.wf ((a, b) :: m) = true)
    (h' : Memory.wf ((a', b') :: m') = true)
    (heq : ∀ k, Memory.read ((a, b) :: m) k = Memory.read ((a', b') :: m') k) : a' ≤ a := by
  by_contra hlt
  have hb := heq a
  rw [read_cons_self, read_cons_of_lt (wf_cons.mp h').2 (by omega)] at hb
  exact (wf_cons.mp h).1 hb

/-- A memory in canonical form that reads zero everywhere lists nothing. -/
theorem Memory.eq_nil_of_read {m : List Host.Cell} (h : Memory.wf m = true) (hz : ∀ k, Memory.read m k = 0) : m = [] := by
  cases m with
  | nil => rfl
  | cons e r => exact absurd ((read_cons_self e.1 e.2 r).symm.trans (hz e.1)) (wf_cons.mp h).1

/-- Two memories in canonical form that read alike are equal. -/
theorem Memory.ext_of_wf {m m' : List Host.Cell} (h : Memory.wf m = true) (h' : Memory.wf m' = true)
    (heq : ∀ k, Memory.read m k = Memory.read m' k) : m = m' := by
  induction m generalizing m' with
  | nil => exact (eq_nil_of_read h' (fun k => (heq k).symm)).symm
  | cons e r ih =>
    cases m' with
    | nil => exact eq_nil_of_read h heq
    | cons e' r' =>
      obtain ⟨a, b⟩ := e
      obtain ⟨a', b'⟩ := e'
      have ha : a = a' := Nat.le_antisymm (head_le h' h (fun k => (heq k).symm)) (head_le h h' heq)
      subst ha
      have hb := heq a
      rw [read_cons_self, read_cons_self] at hb
      obtain ⟨-, hr⟩ := wf_cons.mp h
      obtain ⟨-, hr'⟩ := wf_cons.mp h'
      have htail : ∀ k, Memory.read r k = Memory.read r' k := fun k => by
        rcases Nat.lt_or_ge a k with hk | hk
        · have hne : ¬ a = k := by omega
          simpa [Memory.read, hne] using heq k
        · rw [read_above hr hk, read_above hr' hk]
      rw [hb, ih (wf_of_above hr) (wf_of_above hr') htail]

end Sys2Proof.Machine

namespace Sys2Proof.Claim
open Machine

/-- Settles O58: by induction on the bytes written, and on the two lists of cells. -/
theorem memoryReadsAndWrites : Obligations.MemoryReadsAndWrites :=
  ⟨fun _ k bs hs => ⟨State.wrBytes_wf k bs hs, fun hk =>
      ⟨State.rdBytes_wrBytes_self hs hk, fun _ hj => State.rdByte_wrBytes_of_outside hk hj⟩⟩,
    fun _ _ x hs hk => State.rdWord_wrWord_self x hs hk, fun _ _ => Memory.ext_of_wf⟩

end Sys2Proof.Claim
end
section
/-! The canonical form of memory and of images, and how it passes through folds, branches and results (R6, R360). -/
namespace Sys2Proof.Claim
open Machine
set_option Elab.async false
variable {s t a b : State}

/-- A state with the same memory, image and controller keeps the form. -/
theorem FormKept.frame (h : FormKept s) (hm : t.mem = s.mem := by rfl) (hi : t.image = s.image := by rfl)
    (hg : t.mgmt = s.mgmt := by rfl) : FormKept t := by
  unfold FormKept State.MemWf at *
  rwa [hm, hi, hg]

theorem FormKept.ite {c : Prop} {d : Decidable c} (ha : FormKept a) (hb : FormKept b) :
    FormKept (if c then a else b) := by
  split <;> assumption

theorem FormKept.foldl {α : Type} {f : State → α → State} {l : List α} (h : FormKept s)
    (k : ∀ s e, FormKept s → FormKept (f s e)) : FormKept (l.foldl f s) :=
  List.foldlRecOn l f h fun s hs e _ => k s e hs

theorem FormKept.foldr {α : Type} {f : α → State → State} {l : List α} (h : FormKept s)
    (k : ∀ e s, FormKept s → FormKept (f e s)) : FormKept (l.foldr f s) :=
  List.foldrRecOn l f h fun s hs e _ => k e s hs

/-- The state beside another result, folded. -/
theorem FormKept.foldlSnd {α β : Type} {f : β × State → α → β × State} {l : List α} {p : β × State} (h : FormKept p.2)
    (k : ∀ p e, FormKept p.2 → FormKept (f p e).2) : FormKept (l.foldl f p).2 :=
  List.foldlRecOn (motive := fun p => FormKept p.2) l f h fun p hp e _ => k p e hp

theorem FormKept.foldlFst {α β : Type} {f : State × β → α → State × β} {l : List α} {p : State × β} (h : FormKept p.1)
    (k : ∀ p e, FormKept p.1 → FormKept (f p e).1) : FormKept (l.foldl f p).1 :=
  List.foldlRecOn (motive := fun p => FormKept p.1) l f h fun p hp e _ => k p e hp

theorem FormKept.modMgmt {f : Mgmt → Mgmt} (h : FormKept s) (hf : ∀ m, (f m).stream = m.stream := by intro m; rfl) :
    FormKept (s.modMgmt f) := by
  obtain ⟨hm, hi, hs⟩ := h
  refine ⟨hm, hi, fun st e => hs st ?_⟩
  rw [← e]
  exact (hf s.mgmt).symm

/-- p holds of what an option holds. -/
def OnSome {α : Type} (p : α → Prop) : Option α → Prop
  | none => True
  | some x => p x

def OnOk {ε α : Type} (p : α → Prop) : Except ε α → Prop
  | .error _ => True
  | .ok x => p x

theorem OnSome.of_eq {α : Type} {p : α → Prop} {o : Option α} {x : α} (h : OnSome p o) (e : o = some x) : p x := by
  subst e
  exact h

theorem OnOk.of_eq {ε α : Type} {p : α → Prop} {o : Except ε α} {x : α} (h : OnOk p o) (e : o = .ok x) : p x := by
  subst e
  exact h

theorem OnSome.getD {o : Option State} (h : OnSome FormKept o) (ht : FormKept t) : FormKept (o.getD t) := by
  cases o with
  | none => exact ht
  | some s => exact h

theorem OnSome.ite {α : Type} {p : α → Prop} {c : Prop} {d : Decidable c} {x y : Option α} (hx : OnSome p x)
    (hy : OnSome p y) : OnSome p (if c then x else y) := by
  split <;> assumption

theorem OnSome.orElse {α : Type} {p : α → Prop} {o : Option α} {f : Unit → Option α} (h : OnSome p o)
    (hf : ∀ u, OnSome p (f u)) : OnSome p (o.orElse f) := by
  cases o with
  | none => exact hf ()
  | some x => exact h

theorem OnSome.map {α β : Type} {p : α → Prop} {q : β → Prop} {o : Option α} {f : α → β} (h : OnSome p o)
    (hf : ∀ x, p x → q (f x)) : OnSome q (o.map f) := by
  cases o with
  | none => trivial
  | some x => exact hf x h

theorem OnSome.bind {α β : Type} {p : α → Prop} {q : β → Prop} {o : Option α} {f : α → Option β} (h : OnSome p o)
    (hf : ∀ x, p x → OnSome q (f x)) : OnSome q (o.bind f) := by
  cases o with
  | none => trivial
  | some x => exact hf x h

theorem OnSome.findSome? {α β : Type} {p : β → Prop} {f : α → Option β} {l : List α} (h : ∀ a, OnSome p (f a)) :
    OnSome p (l.findSome? f) := by
  cases e : l.findSome? f with
  | none => trivial
  | some b =>
    obtain ⟨a, -, hb⟩ := List.exists_of_findSome?_eq_some e
    exact (h a).of_eq hb

theorem FormKept.of_eq {α : Type} {p : α × State} {x : α} (h : FormKept p.2) (e : p = (x, t)) : FormKept t := by
  subst e
  exact h

theorem FormKept.fst_of_eq {α : Type} {p : State × α} {x : α} (h : FormKept p.1) (e : p = (t, x)) : FormKept t := by
  subst e
  exact h

def OutKept : Out → Prop
  | .next t => FormKept t
  | _ => True

def ActKept : Act → Prop
  | .done s | .value _ s | .clean _ s | .link _ _ s | .pair _ _ s | .jump _ s | .release _ _ s | .left s => FormKept s
  | .trapAfter _ _ f | .register _ _ f | .stallAfter _ f => ∀ s, FormKept s → FormKept (f s)
  | .trap .. | .wait .. | .stall _ => True

theorem OutKept.partStep {o : Option State} (h : OnSome FormKept o) : OutKept (Machine.partStep o) := by
  cases o with
  | none => trivial
  | some s => exact FormKept.frame (s := s) h

end Sys2Proof.Claim
end

section
/-! The form kept. Memory, the error log and records, translations and replicas. -/
namespace Sys2Proof.Claim
open Machine
set_option Elab.async false
variable {s t a b : State}

theorem FormKept.wrControl {o : Nat} {b : Byte} (h : FormKept s) : FormKept (s.wrControl o b) :=
  .ite h.frame h

theorem FormKept.wrByte {k : Nat} {b : Byte} (h : FormKept s) : FormKept (s.wrByte k b) := by
  obtain ⟨hm, hi, hs⟩ := h
  unfold State.wrByte
  split
  · exact FormKept.wrControl ⟨hm, hi, hs⟩
  · exact ⟨Memory.write_wf k b hm, hi, hs⟩

theorem FormKept.wrBytes {k : Nat} {bs : List Byte} (h : FormKept s) : FormKept (s.wrBytes k bs) := by
  induction bs generalizing s k with
  | nil => exact h
  | cons b r ih => exact ih h.wrByte

theorem FormKept.wrWord {k : Nat} {x : Word} (h : FormKept s) : FormKept (s.wrWord k x) :=
  h.wrBytes

theorem FormKept.setCore {c : Nat} {k : Core} (h : FormKept s) : FormKept (s.setCore c k) :=
  h.frame

theorem FormKept.modCore {c : Nat} {f : Core → Core} (h : FormKept s) : FormKept (s.modCore c f) :=
  h.setCore

theorem FormKept.setThread {tid : Nat} {t : Thread} (h : FormKept s) : FormKept (s.setThread tid t) :=
  h.frame

theorem FormKept.modThread {tid : Nat} {f : Thread → Thread} (h : FormKept s) : FormKept (s.modThread tid f) := by
  unfold State.modThread
  split
  exacts [h.setThread, h]

theorem FormKept.setLaunch {n : Nat} {l : Launch} (h : FormKept s) : FormKept (s.setLaunch n l) :=
  h.frame

theorem FormKept.modLaunch {n : Nat} {f : Launch → Launch} (h : FormKept s) : FormKept (s.modLaunch n f) := by
  unfold State.modLaunch
  split
  exacts [h.setLaunch, h]

theorem FormKept.modSlot {c j : Nat} {f : Slot → Slot} (h : FormKept s) : FormKept (s.modSlot c j f) :=
  h.modCore

theorem FormKept.fresh (h : FormKept s) : FormKept (s.fresh).2 := by
  unfold State.fresh
  exact h.frame

theorem FormKept.count {c event n : Nat} (h : FormKept s) : FormKept (s.count c event n) :=
  .ite h.modCore h

theorem FormKept.logError {code unit : Nat} {w2 w3 : Word} (h : FormKept s) : FormKept (s.logError code unit w2 w3) :=
  .ite h.wrWord (h.wrWord.wrWord.wrWord.wrWord.modMgmt (f := fun m => { m with elIndex := _, elTotal := _ }))

theorem FormKept.record {unit kind : Nat} {w2 w3 : Word} {more : List Word} (h : FormKept s) :
    FormKept (s.record unit kind w2 w3 more) :=
  .ite h (.ite (h.modMgmt (f := fun m => { m with reclost := true })).logError
    (h.modMgmt (f := fun m => { m with recIndex := _ })).wrBytes)

theorem FormKept.timeValue {c kind : Nat} {who x : Word} (h : FormKept s) : FormKept (s.timeValue c kind who x).2 := by
  unfold State.timeValue
  split
  · exact h.modMgmt (f := fun m => { m with supplied := _ })
  · exact h.record

theorem FormKept.noteStale {old : State} (h : FormKept s) : FormKept (s.noteStale old) :=
  .ite h.frame (.ite h h.frame)

theorem FormKept.noteTlb {c : Nat} {a : Word} (h : FormKept s) : FormKept (s.noteTlb c a) := by
  unfold State.noteTlb
  split
  · exact h
  extract_lets
  split
  exacts [.ite h h.frame, h.logError, h]

theorem FormKept.noteWalk {c : Nat} {r : TrapRec} (h : FormKept s) : FormKept (s.noteWalk c r) := by
  unfold State.noteWalk
  split
  · exact h
  split
  exacts [h.logError, h]

theorem FormKept.vput {va : Nat} {bs : List Byte} (h : FormKept s) : FormKept (s.vput va bs) := by
  induction bs generalizing s va with
  | nil => exact h
  | cons b r ih =>
    unfold State.vput
    refine ih ?_
    split
    exacts [h.wrByte, h]

theorem FormKept.vputWord {va : Nat} {x : Word} (h : FormKept s) : FormKept (s.vputWord va x) :=
  h.vput

theorem FormKept.modReplica {x d : Nat} {f : Replica → Replica} (h : FormKept s) : FormKept (s.modReplica x d f) :=
  h.frame

theorem FormKept.closeObject {x : Nat} (h : FormKept s) : FormKept (s.closeObject x) :=
  h.frame

theorem FormKept.noteSot {x : Nat} (h : FormKept s) : FormKept (s.noteSot x) := by
  unfold State.noteSot
  extract_lets
  split
  exacts [.ite h h.modReplica, .ite h h.logError.closeObject.modReplica]

theorem FormKept.bumpCsn {e : Elem} {u : Nat} (h : FormKept s) : FormKept (s.bumpCsn e u) :=
  h.vputWord.vputWord

theorem FormKept.hlcNow {c : Nat} {who : Word} (h : FormKept s) : FormKept (s.hlcNow c who).2 := by
  unfold State.hlcNow
  extract_lets
  split
  · next hv1 => exact (h.timeValue.of_eq hv1).frame

theorem FormKept.putChain {blocks : List Nat} {ds : List Dot} (h : FormKept s) : FormKept (s.putChain blocks ds) := by
  induction blocks generalizing s ds with
  | nil => exact h
  | cons b r ih => exact ih h.vput

theorem FormKept.setEntry {e : Elem} {j p : Nat} {ds : List Dot} (h : FormKept s) :
    OnSome FormKept (s.setEntry e j p ds) := by
  unfold State.setEntry
  extract_lets
  split
  exacts [trivial, h.vput.putChain]

theorem FormKept.clearEntry {e : Elem} {j : Nat} (h : FormKept s) : FormKept (s.clearEntry e j) :=
  h.vput

theorem FormKept.closeGap {e : Elem} {i j fuel : Nat} (h : FormKept s) : FormKept (s.closeGap e i j fuel) := by
  induction fuel generalizing s i j with
  | zero => exact h.clearEntry
  | succ n ih =>
    unfold State.closeGap
    extract_lets
    split
    exacts [h.clearEntry, .ite (ih h) (ih h.vput)]

theorem FormKept.deletePage {e : Elem} {p : Nat} (h : FormKept s) : FormKept (s.deletePage e p) := by
  unfold State.deletePage
  split
  exacts [h.closeGap, h]

theorem FormKept.putPage {e : Elem} {p : Nat} {ds : List Dot} (h : FormKept s) :
    OnSome FormKept (s.putPage e p ds) := by
  unfold State.putPage
  split
  · exact h.setEntry
  · split
    exacts [trivial, h.setEntry]
  · trivial

theorem FormKept.recomputeFront {e : Elem} {c : Nat} (h : FormKept s) : FormKept (s.recomputeFront e c) :=
  .ite h.vputWord h

theorem FormKept.recomputeF {e : Elem} (h : FormKept s) : FormKept (s.recomputeF e) :=
  h.foldl fun _ _ h1 => h1.recomputeFront

theorem FormKept.localUpdate {e : Elem} {member : Nat} {x : Word} {src : List Byte} (h : FormKept s) :
    FormKept (s.localUpdate e member x src).s := by
  unfold State.localUpdate
  extract_lets
  split
  · exact h.vput.vputWord.bumpCsn
  · exact h.vput.bumpCsn
  · exact h.hlcNow.vput.vputWord.vputWord.bumpCsn
  · split
    · next hv => exact (h.putPage.of_eq hv).vputWord.bumpCsn
    · exact h
  · exact h.deletePage.bumpCsn
  · exact h.vputWord.vput.bumpCsn

theorem FormKept.setMember {e : Elem} {m st : Nat} (h : FormKept s) : FormKept (s.setMember e m st) :=
  .ite h.vputWord.vputWord.recomputeF.modReplica h.vputWord.vputWord.recomputeF

theorem FormKept.raiseWord {va : Nat} {x : Word} (h : FormKept s) : FormKept (s.raiseWord va x) :=
  .ite h.vputWord h

theorem FormKept.raiseAs {e : Elem} {pending : List Nat} (h : FormKept s) : FormKept (s.raiseAs e pending) :=
  h.raiseWord

theorem FormKept.noteUse {l : Loc} (h : FormKept s) : FormKept (s.noteUse l) :=
  .ite h.noteSot h

theorem FormKept.noteEntry {w : Who} {r : TrapRec} (h : FormKept s) : FormKept (s.noteEntry w r) := by
  unfold State.noteEntry
  split
  · exact h
  split
  exacts [h.noteUse, h]

end Sys2Proof.Claim
end

section
/-! The form kept. Operands, queues and homes. -/
namespace Sys2Proof.Claim
open Machine
set_option Elab.async false
variable {s t a b : State}

theorem FormKept.passAccounting {tid : Nat} {ids : List Nat} (h : FormKept s) : FormKept (s.passAccounting tid ids) :=
  h.frame

theorem FormKept.readField {tid f : Nat} (h : FormKept s) : OnSome (fun e => FormKept e.2) (s.readField tid f) := by
  unfold State.readField
  split
  · exact h
  split
  · exact h
  split
  · extract_lets
    split
    · split
      exacts [trivial, h.modCore]
    · split
      · trivial
      extract_lets
      exact h.modCore.modThread.passAccounting
    · split
      · exact h
      split
      exacts [trivial, h.setThread, h.setLaunch.setThread]
    · trivial
  split
  · split
    · trivial
    extract_lets
    split
    exacts [trivial, h.setThread]
  split
  · exact h
  split <;> exact h

theorem FormKept.readFields {tid : Nat} {fs : List Nat} (h : FormKept s) :
    OnSome (fun e => FormKept e.2) (s.readFields tid fs) := by
  induction fs generalizing s with
  | nil => exact h
  | cons f r ih =>
    unfold State.readFields
    split
    · trivial
    · next hv1 =>
      split
      · trivial
      · next hv2 =>
        have hr : FormKept _ := h.readField.of_eq hv1
        have hrs := (ih hr).of_eq hv2
        exact hrs

theorem FormKept.giveBack {g : Taken} (h : FormKept s) : FormKept (s.giveBack g) := by
  unfold State.giveBack
  extract_lets
  split
  exacts [h.modCore, h.modCore, h.modLaunch, h.modLaunch, h.modCore, h.modCore, h.modLaunch, h.modLaunch]

theorem FormKept.dropGrip {tid : Nat} (h : FormKept s) : FormKept (s.dropGrip tid) := by
  unfold State.dropGrip
  split
  exacts [h, .ite h ((h.foldr fun _ _ h1 => h1.giveBack).modThread)]

theorem FormKept.takeSource {tid f : Nat} (h : FormKept s) : FormKept (s.takeSource tid f).2 := by
  unfold State.takeSource
  split
  · exact h
  extract_lets
  split
  · exact h
  split
  · split
    exacts [h, h.modCore]
  · split
    exacts [h, h.modCore]
  · split
    · exact h
    split
    · exact h.setLaunch
    · exact h
  · exact h

theorem FormKept.takeRoom {tid : Nat} {item : Option Item} {f : Nat} (h : FormKept s) :
    FormKept (s.takeRoom tid item f).2 := by
  unfold State.takeRoom
  split
  · exact h
  extract_lets
  split
  · exact h
  split
  · exact h.modCore
  · exact h.modCore
  · split
    · exact h
    split
    · exact h
    split
    · split
      · exact h.setLaunch
      split
      exacts [h, h.setLaunch]
    · exact h
  · exact h

theorem FormKept.takeGrip {tid : Nat} {srcs dsts : List Nat} {ready : Bool} (h : FormKept s) :
    FormKept (s.takeGrip tid srcs dsts ready) := by
  unfold State.takeGrip
  extract_lets
  split
  next hv =>
    refine FormKept.modThread (FormKept.foldlSnd (FormKept.of_eq ?_ hv) fun _ _ hp => FormKept.takeRoom hp)
    exact FormKept.foldlSnd h fun _ _ hp => FormKept.takeSource hp

theorem FormKept.enqueue {tid i : Nat} {x : Word} (h : FormKept s) : FormKept (s.enqueue tid i x) := by
  unfold State.enqueue
  split
  · exact h
  extract_lets
  split
  · exact h.modCore
  · exact h.modCore
  · split
    · split
      · split
        · split
          exacts [h.setLaunch, h]
        · exact h
      · exact h
    · exact h
  · exact h

theorem FormKept.writeField {tid f : Nat} {x : Word} {taint : Bool} (h : FormKept s) :
    FormKept (s.writeField tid f x taint) :=
  .ite h.modThread (.ite h.enqueue (.ite h.modThread h))

theorem FormKept.slotPut {t : Thread} {off : Nat} {ws : List Word} (h : FormKept s) :
    FormKept (s.slotPut t off ws) := by
  unfold State.slotPut
  split
  exacts [h.vput, h]

theorem FormKept.queueTrap {tid : Nat} {r : TrapRec} (h : FormKept s) : FormKept (s.queueTrap tid r) := by
  unfold State.queueTrap
  split
  exacts [h, .ite h.setThread.slotPut h.logError]

theorem FormKept.settle {tid : Nat} (h : FormKept s) : FormKept (s.settle tid) := by
  unfold State.settle
  split
  exacts [h, (h.setThread.foldl fun _ _ h1 => h1.queueTrap).foldl fun _ _ h2 => h2.queueTrap]

theorem FormKept.retire {tid : Nat} {marker : Bool} {target : Option Word} (h : FormKept s) :
    FormKept (s.retire tid marker target) := by
  unfold State.retire
  split
  exacts [h,
    .ite h.setThread.fresh.count (.ite h.setThread.fresh.count.count.settle h.setThread.fresh.count.count.modThread)]

theorem FormKept.giveResult {tid num id : Nat} {f : Deferred → Deferred} (h : FormKept s) :
    FormKept (s.giveResult tid num id f) := by
  unfold State.giveResult
  split
  · exact h
  split
  · exact h
  extract_lets
  split
  exacts [.ite h.setThread.settle.modThread h.setThread, h.setThread.settle, h.setThread.settle, h.setThread]

theorem FormKept.roomDie {d n fuel : Nat} (h : FormKept s) : FormKept (s.roomDie d n fuel) := by
  induction fuel generalizing s with
  | zero => exact h
  | succ k ih =>
    unfold State.roomDie
    extract_lets
    split
    · exact h
    exact ih h.frame

theorem FormKept.pushDie {d : Nat} {b : List Nat} (h : FormKept s) : FormKept (s.pushDie d b) :=
  h.roomDie.frame

theorem FormKept.roomGrove {g n fuel : Nat} (h : FormKept s) : FormKept (s.roomGrove g n fuel) := by
  induction fuel generalizing s with
  | zero => exact h
  | succ k ih =>
    unfold State.roomGrove
    extract_lets
    split
    · exact h
    exact ih h.frame.pushDie

theorem FormKept.pushGrove {g : Nat} {b : List Nat} (h : FormKept s) : FormKept (s.pushGrove g b) :=
  h.roomGrove.frame

theorem FormKept.pushDeque {c tid : Nat} (h : FormKept s) : FormKept (s.pushDeque c tid) := by
  unfold State.pushDeque
  extract_lets
  split
  · exact h.modCore
  exact h.modCore.pushGrove

theorem FormKept.pushRun {c tid : Nat} (h : FormKept s) : FormKept (s.pushRun c tid) :=
  .ite h.modCore h.pushDeque

theorem FormKept.queueHandler {c j : Nat} {g : HandlerFor} (h : FormKept s) : FormKept (s.queueHandler c j g) :=
  h.modSlot

theorem FormKept.invalidate {key home : Nat} (h : FormKept s) : FormKept (s.invalidate key home) :=
  .ite h.frame.queueHandler h

theorem FormKept.atLine {key home : Nat} {write : Bool} {go : Option State} (h : FormKept s)
    (hgo : OnSome FormKept go) :
    OnSome FormKept (s.atLine key home write go) := by
  unfold State.atLine
  split
  · trivial
  split
  exacts [h.invalidate, hgo]

theorem FormKept.atLines {reads : List Nat} {writes : List Loc} {go : Option State} (h : FormKept s)
    (hgo : OnSome FormKept go) : OnSome FormKept (s.atLines reads writes go) := by
  unfold State.atLines
  split
  · trivial
  split
  exacts [h.invalidate, hgo]

theorem FormKept.issueAfter {tid core : Nat} {loc : Loc} {op : AccOp} {acq : Bool} {after : List Nat} (h : FormKept s) :
    FormKept (s.issueAfter tid core loc op acq after) :=
  h.frame

theorem FormKept.issueAcc {tid core : Nat} {loc : Loc} {op : AccOp} {acq : Bool} {extra : List Nat} (h : FormKept s) :
    FormKept (s.issueAcc tid core loc op acq extra) :=
  h.issueAfter

theorem FormKept.partAcc {tid core : Nat} {loc : Loc} {op : AccOp} {after : List Nat} (h : FormKept s) :
    FormKept (s.partAcc tid core loc op after) :=
  h.issueAfter

theorem FormKept.openResult {tid dest : Nat} {value : Vec} {taint : Bool} {waiting : List Nat} (h : FormKept s) :
    FormKept (s.openResult tid dest value taint waiting) :=
  h.modThread

theorem FormKept.setPoison {k home w3 : Nat} (h : FormKept s) : FormKept (s.setPoison k home w3) :=
  .ite h h.frame.logError

theorem FormKept.clearPoison {k n : Nat} (h : FormKept s) : FormKept (s.clearPoison k n) :=
  h.frame

theorem FormKept.setFull {k : Nat} {b : Bool} (h : FormKept s) : FormKept (s.setFull k b) :=
  h.frame

theorem FormKept.emptyWords {loc : Loc} {n : Nat} (h : FormKept s) : FormKept (s.emptyWords loc n) :=
  .ite h (h.foldl fun _ _ h1 => .ite h1.setFull h1)

theorem FormKept.evalWatch {k home : Nat} (h : FormKept s) : FormKept (s.evalWatch k home) :=
  .ite h.frame h

theorem FormKept.reserveHead {tid f : Nat} {take : Bool} (h : FormKept s) : FormKept (s.reserveHead tid f take) := by
  unfold State.reserveHead
  split
  · next hv1 => exact .ite (h.takeRoom.of_eq hv1) (h.foldl fun _ _ h2 => h2.giveBack)

theorem FormKept.wordValue {tid : Nat} {loc : Loc} (h : FormKept s) : FormKept (s.wordValue tid loc).2 := by
  unfold State.wordValue
  split
  exacts [h.queueTrap, h]

theorem FormKept.wakeJoin {tid c : Nat} (h : FormKept s) : FormKept (s.wakeJoin tid c) :=
  h.modThread.pushDeque

theorem FormKept.stallEnqueue {tid : Nat} {ws : List (Nat × Word)} {target : Option Word} {marker : Bool}
    (h : FormKept s) :
    FormKept (s.stallEnqueue tid ws target marker) := by
  unfold State.stallEnqueue
  split
  exacts [h, (h.foldl fun _ _ h1 => h1.reserveHead).modThread]

theorem FormKept.giveWaited {w : Waiter} {x : Word} (h : FormKept s) : FormKept (s.giveWaited w x) :=
  .ite h.writeField.retire h.stallEnqueue

theorem FormKept.takeSources {tid : Nat} (h : FormKept s) : FormKept (s.takeSources tid) := by
  unfold State.takeSources
  extract_lets
  split
  · next hv1 => exact h.dropGrip.readFields.of_eq hv1
  · exact h.dropGrip

theorem FormKept.completeWaiter {w : Waiter} {at' : Nat} (h : FormKept s) : FormKept (s.completeWaiter w at') := by
  unfold State.completeWaiter
  extract_lets
  split
  · split
    exacts [.ite h.frame.takeSources.wakeJoin h.frame.takeSources.retire, h.frame.takeSources]
  · exact h.frame.takeSources.retire
  · split
    · next hv1 => exact ((h.frame.takeSources.wordValue.of_eq hv1).setFull).giveWaited
  split
  · next hv2 => exact (h.frame.takeSources.wordValue.of_eq hv2).giveWaited

theorem FormKept.evalWaiters {k at' : Nat} (h : FormKept s) : FormKept (s.evalWaiters k at') :=
  h.foldl fun _ _ h1 => .ite h1.completeWaiter h1

theorem FormKept.afterWrite {loc : Loc} {n at' : Nat} (h : FormKept s) : FormKept (s.afterWrite loc n at') :=
  h.foldl fun _ _ h1 => .ite h1.evalWaiters.evalWatch h1

theorem FormKept.writeAt {loc : Loc} {bs : List Byte} {at' : Nat} (h : FormKept s) : FormKept (s.writeAt loc bs at') :=
  h.invalidate.wrBytes.clearPoison.emptyWords.afterWrite

theorem FormKept.addAt {loc : Loc} {x : Word} {at' : Nat} (h : FormKept s) : FormKept (s.addAt loc x at') :=
  .ite h h.writeAt

theorem FormKept.performUpdate {a : Access} {member : Nat} {x : Word} {src : Option (Nat × Nat)} {num : Nat} {u : Word}
    (h : FormKept s) :
    FormKept (s.performUpdate a member x src num u) := by
  unfold State.performUpdate
  split
  · exact h.giveResult
  extract_lets
  split
  · exact h.logError.raiseAs.giveResult
  · exact FormKept.giveResult (FormKept.ite h.localUpdate.raiseAs.logError h.localUpdate.raiseAs)

theorem FormKept.modAcc {id : Nat} {f : Access → Access} (h : FormKept s) : FormKept (s.modAcc id f) :=
  h.frame

theorem FormKept.dropAcc {id : Nat} (h : FormKept s) : FormKept (s.dropAcc id) :=
  h.frame

theorem FormKept.performOp {a : Access} (h : FormKept s) : FormKept (s.performOp a) := by
  unfold State.performOp
  split
  · split
    · exact h.giveResult
    exact h.giveResult
  · exact h.writeAt
  · split
    · split
      exacts [h.giveResult, h.queueTrap]
    extract_lets
    split
    exacts [(FormKept.ite h.wrBytes.afterWrite h).giveResult, h.writeAt]
  · exact h.wrBytes.setFull.afterWrite
  · exact h.modCore
  · split
    exacts [h.performUpdate, h]
  · split <;> exact h.giveResult
  · exact h

theorem FormKept.perform {a : Access} (h : FormKept s) : FormKept (s.perform a) := by
  unfold State.perform
  split
  · split
    exacts [h.vputWord.modAcc, h.dropAcc.performOp]
  · exact h.dropAcc.performOp

end Sys2Proof.Claim
end

section
/-! The form kept. Exits, saved contexts, and threads created. -/
namespace Sys2Proof.Claim
open Machine
set_option Elab.async false
variable {s t a b : State}

theorem FormKept.releaseChan {c n : Nat} (h : FormKept s) : FormKept (s.releaseChan c n) :=
  .ite h.modCore h

theorem FormKept.unbindHead {tid i : Nat} (h : FormKept s) : FormKept (s.unbindHead tid i) := by
  unfold State.unbindHead
  split
  exacts [h, .ite h.setThread.releaseChan h.setThread]

theorem FormKept.unbindAll {tid : Nat} (h : FormKept s) : FormKept (s.unbindAll tid) :=
  h.foldl fun _ _ h1 => h1.unbindHead

theorem FormKept.modBarrier {n : Nat} {f : Barrier → Barrier} (h : FormKept s) : FormKept (s.modBarrier n f) :=
  h.frame

theorem FormKept.leaveBarrier {tid n : Nat} (h : FormKept s) : FormKept (s.leaveBarrier tid n) :=
  h.modBarrier.modThread

theorem FormKept.leaveBarriers {tid : Nat} (h : FormKept s) : FormKept (s.leaveBarriers tid) := by
  unfold State.leaveBarriers
  split
  exacts [h, h.foldl fun _ _ h1 => h1.leaveBarrier]

theorem FormKept.freeBanks {tid c : Nat} (h : FormKept s) : FormKept (s.freeBanks tid c) :=
  h.modCore

theorem FormKept.dropPacket {tid : Nat} (h : FormKept s) : FormKept (s.dropPacket tid) := by
  unfold State.dropPacket
  split
  · exact h
  split
  exacts [h, h.setThread.modCore]

theorem FormKept.withdraw {tid : Nat} (h : FormKept s) : FormKept (s.withdraw tid) :=
  h.frame.dropGrip.modThread

theorem FormKept.releaseOps {tid c : Nat} (h : FormKept s) : FormKept (s.releaseOps tid c) :=
  h.modCore

theorem FormKept.releaseLine {line : Nat} (h : FormKept s) : FormKept (s.releaseLine line) :=
  (FormKept.ite h.frame h).foldl fun _ _ h1 => h1.evalWaiters

theorem FormKept.endThread {tid : Nat} (h : FormKept s) : FormKept (s.endThread tid) := by
  unfold State.endThread
  split
  · exact h
  extract_lets s₁ s₂ s₃
  have h₂ : FormKept s₂ := h.withdraw.dropPacket.unbindAll.leaveBarriers.freeBanks.releaseOps.modThread
  have h₃ : FormKept s₃ := by
    unfold s₃
    split
    exacts [h₂.modCore, h₂]
  split
  exacts [h₃.releaseLine, h₃]

theorem FormKept.writeWord16 {n state : Nat} {after : List Nat} (h : FormKept s) :
    FormKept (s.writeWord16 n state after) := by
  unfold State.writeWord16
  split
  · exact h
  split
  exacts [h, h.partAcc.setLaunch]

theorem FormKept.freeBands {n : Nat} (h : FormKept s) : FormKept (s.freeBands n) :=
  h.frame

theorem FormKept.clearLaunch {n : Nat} {l : Launch} (h : FormKept s) : FormKept (s.clearLaunch n l) := by
  unfold State.clearLaunch
  extract_lets s₁ s₂
  have h₂ : FormKept s₂ := .ite h.frame h.frame
  exact h₂.frame

theorem FormKept.completionAdd {n : Nat} {l : Launch} {after : List Nat} (h : FormKept s) :
    FormKept (s.completionAdd n l after) := by
  unfold State.completionAdd
  extract_lets
  split
  exacts [h.logError, h.partAcc]

theorem FormKept.complete {n : Nat} (h : FormKept s) : FormKept (s.complete n) := by
  unfold State.complete
  split
  · exact h
  split
  · exact h
  extract_lets _ s₁ _ s₂
  have h₁ : FormKept s₁ := h.clearLaunch.freeBands.writeWord16
  have h₂ : FormKept s₂ := by
    unfold s₂
    split
    exacts [h₁.completionAdd, h₁.frame, h₁.frame, h₁]
  exact h₂.frame

theorem FormKept.vputWords {va : Nat} {ws : List Word} (h : FormKept s) : FormKept (s.vputWords va ws) :=
  h.vput

theorem FormKept.writeContext {tid i : Nat} {cause : Word} (h : FormKept s) :
    FormKept (s.writeContext tid i cause) := by
  unfold State.writeContext
  split
  exacts [h, h.vputWords]

theorem FormKept.copyPoison {src dst n : Nat} (h : FormKept s) : FormKept (s.copyPoison src dst n) :=
  h.frame

/-! Bodies that look up the key of a band's or bank's address are taken as equal to the function's name, not to the
function at arguments: there the kernel would compute with the address, adding the save region's offsets in unary. -/

theorem FormKept.copyBand {c b i : Nat} {out : Bool} (h : FormKept s) : FormKept (s.copyBand c b i out) := by
  generalize hf : State.copyBand = f
  delta State.copyBand at hf
  subst hf
  beta_reduce
  extract_lets
  split
  exacts [h, .ite h.wrBytes.copyPoison h.wrBytes.copyPoison]

theorem FormKept.saveBank {c b i : Nat} (h : FormKept s) : FormKept (s.saveBank c b i) := by
  generalize hf : State.saveBank = f
  delta State.saveBank at hf
  subst hf
  beta_reduce
  extract_lets
  split
  exacts [h.vput, h.vput.foldl fun _ _ h => h.frame]

theorem FormKept.loadBank {c b i : Nat} (h : FormKept s) : FormKept (s.loadBank c b i) := by
  generalize hf : State.loadBank = f
  delta State.loadBank at hf
  subst hf
  beta_reduce
  split
  exacts [h, h.modCore]

theorem FormKept.logSlotWait {tid c kind : Nat} (h : FormKept s) : FormKept (s.logSlotWait tid c kind) := by
  unfold State.logSlotWait
  split
  exacts [.ite h h.logError.setThread, h]

theorem FormKept.discardOps {tid c : Nat} (h : FormKept s) : FormKept (s.discardOps tid c) := by
  unfold State.discardOps
  extract_lets
  split
  exacts [h.frame.modCore.modThread, h.frame.modCore]

theorem FormKept.saveOwned {tid c b : Nat} (h : FormKept s) : OnSome FormKept (s.saveOwned tid c b) := by
  unfold State.saveOwned
  split
  · trivial
  extract_lets
  exact h.saveBank.modCore.modThread

theorem FormKept.saveBanks {tid c : Nat} {keep : List Nat} (h : FormKept s) :
    OnSome FormKept (s.saveBanks tid c keep) := by
  refine List.foldlRecOn (motive := OnSome FormKept) _ _ h fun o ho b _ => ?_
  split
  · trivial
  · split
    exacts [FormKept.saveOwned ho, FormKept.modCore ho]

theorem FormKept.quiesce {tid : Nat} (h : FormKept s) : FormKept (s.quiesce tid) :=
  h.settle.withdraw.modThread

theorem FormKept.leavePosition {tid : Nat} (h : FormKept s) : OnSome FormKept (s.leavePosition tid) := by
  unfold State.leavePosition
  split
  · trivial
  extract_lets
  split
  · exact h.setThread.pushRun
  split
  · trivial
  extract_lets
  exact h.writeContext.modCore.setThread

theorem FormKept.preemptNow {tid : Nat} {keep : List Nat} (h : FormKept s) : FormKept (s.preemptNow tid keep) := by
  unfold State.preemptNow
  split
  · exact h
  extract_lets
  split
  · exact h.logSlotWait
  rename_i hv1
  split
  · exact h.logSlotWait
  · next hv2 => exact ((h.quiesce.saveBanks.of_eq hv1).leavePosition).of_eq hv2

theorem FormKept.preemptForced {tid : Nat} (h : FormKept s) : FormKept (s.preemptForced tid) := by
  unfold State.preemptForced
  split
  · exact h
  extract_lets
  split
  · next hv1 => exact h.discardOps.freeBanks.modThread.quiesce.leavePosition.of_eq hv1
  · exact h.logSlotWait

theorem FormKept.askPreempt {tid : Nat} (h : FormKept s) : FormKept (s.askPreempt tid) :=
  h.modThread

theorem FormKept.preemptAll (h : FormKept s) : FormKept (s.preemptAll) :=
  h.foldl fun _ _ h1 => h1.askPreempt

theorem FormKept.fatalError {unit cause : Nat} {w3 : Word} (h : FormKept s) : FormKept (s.fatalError unit cause w3) :=
  h.logError.preemptAll.modMgmt (f := fun m => { m with modeLater := some 3 })

theorem FormKept.addThread {t : Thread} (h : FormKept s) : FormKept (s.addThread t) :=
  h.frame

theorem FormKept.addBound {t : Thread} (h : FormKept s) : FormKept (s.addBound t) :=
  .ite h.addThread.pushRun h.addThread

theorem FormKept.createThreads {n : Nat} {l : Launch} (h : FormKept s) : FormKept (s.createThreads n l) := by
  unfold State.createThreads
  refine FormKept.modLaunch ?_
  split
  · exact h.foldl fun _ _ h => h.foldl fun _ _ h => h.addBound
  · exact h.foldl fun _ _ h => h.addThread.pushDeque
  · refine h.foldl fun _ _ h => ?_
    extract_lets
    split
    exacts [h, h.foldl fun _ _ h => h.addBound]

theorem FormKept.startLaunches (h : FormKept s) : FormKept (s.startLaunches) :=
  (h.foldl fun _ _ h1 => by
    split
    exacts [(.ite h1 h1.createThreads), h1])

theorem FormKept.finishMove {n c : Nat} (h : FormKept s) : FormKept (s.finishMove n c) := by
  unfold State.finishMove
  split
  · exact h
  extract_lets
  split
  · exact h
  split
  exacts [h, h.setLaunch.foldl fun _ _ h1 => .ite h1 h1.addBound]

theorem FormKept.completeAndStart {n : Nat} (h : FormKept s) : FormKept (s.completeAndStart n) :=
  h.complete.startLaunches

theorem FormKept.restartThread {tid : Nat} (h : FormKept s) : FormKept (s.restartThread tid) := by
  unfold State.restartThread
  split
  · exact h
  split
  · exact h
  extract_lets
  split
  exacts [h,
    .ite (FormKept.ite h.settle.withdraw.unbindAll.leaveBarriers.freeBanks.setThread.pushRun
      h.settle.withdraw.unbindAll.leaveBarriers.freeBanks.setThread).finishMove
      h.settle.endThread.finishMove.completeAndStart]

theorem FormKept.finishThread {tid : Nat} (h : FormKept s) : FormKept (s.finishThread tid) := by
  unfold State.finishThread
  split
  · exact h
  refine FormKept.completeAndStart ?_
  split
  exacts [.ite h.endThread.finishMove h.endThread, h.endThread]

end Sys2Proof.Claim
end

section
/-! The form kept. Operands read and written, and scalar instructions. -/
namespace Sys2Proof.Claim
open Machine
set_option Elab.async false
variable {s t a b : State}

theorem FormKept.modOp {c e xid : Nat} {f : EngOp → EngOp} (h : FormKept s) : FormKept (s.modOp c e xid f) :=
  h.modCore

theorem FormKept.endOp {c e xid : Nat} (h : FormKept s) : FormKept (s.endOp c e xid) :=
  h.modCore

theorem FormKept.reportFault {c e : Nat} {o : EngOp} {r : TrapRec} (h : FormKept s) :
    FormKept (s.reportFault c e o r) := by
  unfold State.reportFault
  extract_lets
  split
  exacts [h.noteWalk.logError,
    .ite h.noteWalk.logError ((h.noteWalk.setThread.slotPut.foldl fun _ _ h1 => h1.slotPut).queueTrap)]

theorem FormKept.faultEnd {c xid : Nat} (h : FormKept s) : FormKept (s.faultEnd c xid) := by
  unfold State.faultEnd
  split
  exacts [.ite h.endOp h, h]

theorem FormKept.stopCommand {c xid : Nat} {r : TrapRec} (h : FormKept s) : FormKept (s.stopCommand c xid r) :=
  h.modOp.modCore.faultEnd

theorem FormKept.execFault {c e : Nat} {o : EngOp} {r : TrapRec} (h : FormKept s) : FormKept (s.execFault c e o r) :=
  (FormKept.ite h.frame.endOp h.frame.modCore.modOp.stopCommand).reportFault

theorem FormKept.drainFault {c xid lnum owner : Nat} {r : TrapRec} (h : FormKept s) :
    FormKept (s.drainFault c xid lnum owner r) := by
  unfold State.drainFault
  split
  exacts [.ite h.reportFault.faultEnd h.execFault, h.reportFault]

theorem FormKept.enterTrap {tid : Nat} {async : Bool} {r : TrapRec} {tepc : Word} (h : FormKept s) :
    FormKept (s.enterTrap tid async r tepc) := by
  unfold State.enterTrap
  split
  · exact h
  split
  · exact h.noteWalk.logError.finishThread.settle.finishThread
  · exact h.noteWalk.endThread.fatalError
  · exact h.finishThread.drainFault
  extract_lets
  split
  exacts [((((((FormKept.ite h h.noteWalk).withdraw).dropPacket).settle).modThread).count).queueHandler,
    (((((FormKept.ite h h.noteWalk).withdraw).dropPacket).settle).modThread).count]

theorem FormKept.resumeAt {tid : Nat} {pc : Word} (h : FormKept s) : FormKept (s.resumeAt tid pc) := by
  unfold State.resumeAt
  extract_lets
  split
  · exact h.modThread
  split
  · exact h.modThread
  extract_lets
  split
  exacts [h.modThread.setThread, h.modThread.setThread.enterTrap]

theorem FormKept.returnFrom {tid target : Nat} (h : FormKept s) : FormKept (s.returnFrom tid target) := by
  unfold State.returnFrom
  extract_lets
  split
  exacts [h.finishThread, .ite h.finishThread h.finishThread.resumeAt.modThread]

theorem ActKept.whenLines {reads : List Nat} {writes : List Loc} {go : Act} (h : ActKept go) :
    ActKept (s.whenLines reads writes go) := by
  unfold State.whenLines
  split
  · trivial
  split
  exacts [fun _ h => h.invalidate, h]

theorem ActKept.ite {c : Prop} {d : Decidable c} {x y : Act} (hx : ActKept x) (hy : ActKept y) :
    ActKept (if c then x else y) := by
  split <;> assumption

theorem FormKept.sources {tid : Nat} {t : Thread} {u : Use} (h : FormKept s) :
    OnSome (fun e => FormKept e.2) (s.sources tid t u) := by
  unfold State.sources
  split
  · trivial
  split
  · trivial
  rename_i hv1
  split
  exacts [trivial, h.readFields.of_eq hv1]

theorem FormKept.unheld {tid : Nat} {u : Use} (h : FormKept s) : FormKept (s.unheld tid u) :=
  .ite h.dropGrip h

theorem FormKept.blockOn {tid : Nat} {what : WaitOn} {tval : Word} {srcs dsts : List Nat} (h : FormKept s) :
    FormKept (s.blockOn tid what tval srcs dsts) :=
  h.modThread

theorem FormKept.giveDsts {tid : Nat} {ws : List (Nat × Word × Bool)} {marker : Bool} {target : Option Word}
    (h : FormKept s) :
    FormKept (s.giveDsts tid ws marker target) := by
  unfold State.giveDsts
  split
  exacts [h, .ite ((h.foldl fun _ _ h1 => h1.writeField).retire) h.stallEnqueue]

theorem FormKept.closePacket {tid : Nat} {t : Thread} {q : Nat} {words : List Word} (h : FormKept s) :
    FormKept (s.closePacket tid t q words) :=
  h.modCore.modThread

theorem FormKept.spawnChild {th : Thread} {e : Word} {n : Nat} (h : FormKept s) : FormKept (s.spawnChild th e n) :=
  h.addThread.modLaunch.pushDeque

theorem FormKept.finishWrites {tid : Nat} {t : Thread} {ws : List (Nat × Word)} {target : Option Word}
    (h : FormKept s) :
    FormKept (s.finishWrites tid t ws target) := by
  induction ws generalizing s with
  | nil => exact h.retire
  | cons w r ih =>
    unfold State.finishWrites
    extract_lets
    split
    exacts [(h.reserveHead.foldl fun _ _ h => h.reserveHead).enterTrap.frame, ih h.reserveHead.writeField]

theorem FormKept.finishStall {tid : Nat} (h : FormKept s) : FormKept (s.finishStall tid) := by
  unfold State.finishStall
  split
  · exact h
  extract_lets
  split
  exacts [h, h.modThread.finishWrites, h.modThread.modCore.retire, h.modThread.closePacket.retire,
    h.modThread.spawnChild.retire]

theorem FormKept.stallOn {tid : Nat} {u : Use} {ids : List Nat} (h : FormKept s) : FormKept (s.stallOn tid u ids) :=
  .ite h.modThread h.blockOn.takeGrip.modThread

theorem FormKept.finish {tid : Nat} {t : Thread} {u : Use} {marker : Bool} {a : Act} (h : FormKept s) (ha : ActKept a) :
    FormKept (s.finish tid t u marker a) := by
  unfold State.finish
  extract_lets block trap put dst
  have hblock : ∀ w tv f, (∀ s, FormKept s → FormKept (f s)) → FormKept (block w tv f) :=
    fun w tv f hf => (hf _ h.blockOn).takeGrip.frame
  have htrap : ∀ r, FormKept (trap r) := fun r => h.enterTrap.frame
  have hput : ∀ ws target s, FormKept s → FormKept (put ws target s) := by
    clear_value block trap
    intro ws target s hs
    unfold put
    split
    exacts [htrap _, hblock _ _ _ fun _ h => h.modThread, hs.giveDsts]
  cases a with
  | done s => exact FormKept.retire ha
  | jump pc s => exact FormKept.retire ha
  | trap c v => exact htrap _
  | trapAfter c v f => exact (ha s h).enterTrap.frame
  | wait w tv => exact hblock _ _ _ fun _ h => h
  | register w tv f => exact hblock _ _ _ ha
  | stall ids => exact h.stallOn
  | stallAfter ids f => exact (ha s h).stallOn
  | release e ids s => exact FormKept.modThread ha
  | left s => exact ha
  | value x s => exact hput _ _ _ ha
  | clean x s => exact hput _ _ _ ha
  | link x a s => exact hput _ _ _ ha
  | pair x y s => exact hput _ _ _ ha

theorem FormKept.leave {tid : Nat} (h : FormKept s) : FormKept (s.leave tid) := by
  unfold State.leave
  split
  · exact h
  extract_lets
  split
  exacts [h.count.finishThread.settle.finishThread, h.count.finishThread.faultEnd, h.count.finishThread]

theorem FormKept.issueNow {kept : Bool} {marker : BitVec 1} {u : Use} {body : State → Nat → Thread → List Word → Act}
    (h : FormKept s)
    (hb : ∀ s tid t xs, FormKept s → ActKept (body s tid t xs)) : OutKept (Machine.issueNow kept marker u body s) := by
  unfold Machine.issueNow
  split
  · trivial
  split
  · trivial
  extract_lets
  split
  · exact h.enterTrap.frame
  split
  · exact h.restartThread
  split
  · exact h.modThread
  split
  · exact h.blockOn.frame
  · next hv => exact h.finish (hb _ _ _ _ (h.sources.of_eq hv))

theorem FormKept.issue {marker : BitVec 1} {u : Use} {body : State → Nat → Thread → List Word → Act} (h : FormKept s)
    (hb : ∀ s tid t xs, FormKept s → ActKept (body s tid t xs)) : OutKept (Machine.issue marker u body s) :=
  h.unheld.issueNow hb

theorem FormKept.intBinary {w : BitVec 1} {d a b : BitVec 7} {f : Word → Word → Word} (h : FormKept s) :
    OutKept (Machine.intBinary w d a b f s) := by
  unfold Machine.intBinary
  exact h.issue fun _ _ _ _ h1 => h1

theorem FormKept.intUnary {w : BitVec 1} {d a : BitVec 7} {f : Word → Word} (h : FormKept s) :
    OutKept (Machine.intUnary w d a f s) := by
  unfold Machine.intUnary
  exact h.issue fun _ _ _ _ h1 => h1

theorem FormKept.compareRegs {w p : BitVec 1} {k : BitVec 6} {a b : BitVec 7} {f : Word → Word → Bool}
    (h : FormKept s) :
    OutKept (Machine.compareRegs w p k a b f s) := by
  unfold Machine.compareRegs
  exact h.issue fun _ _ _ _ h1 => h1.modThread

theorem FormKept.compareImm {w p : BitVec 1} {k : BitVec 6} {a : BitVec 7} {f : Word → Bool} (h : FormKept s) :
    OutKept (Machine.compareImm w p k a f s) := by
  unfold Machine.compareImm
  exact h.issue fun _ _ _ _ h1 => h1.modThread

theorem FormKept.predLogic {w : BitVec 1} {k j m : BitVec 6} {f : Bool → Bool → Bool} (h : FormKept s) :
    OutKept (Machine.predLogic w k j m f s) := by
  unfold Machine.predLogic
  exact h.issue fun _ _ _ _ h1 => h1.modThread

theorem FormKept.branch {w : BitVec 1} {o : BitVec 15} {regs : List Nat} {c : Thread → Bool} (h : FormKept s) :
    OutKept (Machine.branch w o regs c s) := by
  unfold Machine.branch
  exact h.issue fun _ _ _ _ h1 => h1

theorem FormKept.execLqz {w : BitVec 1} {d : BitVec 7} {q : BitVec 2} {i : BitVec 16} (h : FormKept s) :
    OutKept (Machine.execLqz w d q i s) := by
  unfold Machine.execLqz
  exact h.issue fun _ _ _ _ h1 => h1

theorem FormKept.execLqk {w : BitVec 1} {d : BitVec 7} {q : BitVec 2} {i : BitVec 16} (h : FormKept s) :
    OutKept (Machine.execLqk w d q i s) := by
  unfold Machine.execLqk
  exact h.issue fun _ _ _ _ h1 => h1

theorem FormKept.execPcadd {w : BitVec 1} {d : BitVec 7} {q : BitVec 1} {i : BitVec 16} (h : FormKept s) :
    OutKept (Machine.execPcadd w d q i s) := by
  unfold Machine.execPcadd
  exact h.issue fun _ _ _ _ h1 => h1

theorem FormKept.execPsel {w : BitVec 1} {d a b : BitVec 7} {k : BitVec 4} (h : FormKept s) :
    OutKept (Machine.execPsel w d a b k s) := by
  unfold Machine.execPsel
  exact h.issue fun _ _ _ _ h1 => h1

theorem FormKept.execJmp {w : BitVec 1} {o : BitVec 25} (h : FormKept s) : OutKept (Machine.execJmp w o s) := by
  unfold Machine.execJmp
  exact h.issue fun _ _ _ _ h1 => h1

theorem FormKept.execJal {w : BitVec 1} {o : BitVec 25} (h : FormKept s) : OutKept (Machine.execJal w o s) := by
  unfold Machine.execJal
  exact h.issue fun _ _ _ _ h1 => h1.modThread

theorem FormKept.execJalr {w : BitVec 1} {d a : BitVec 7} {i : BitVec 11} (h : FormKept s) :
    OutKept (Machine.execJalr w d a i s) := by
  unfold Machine.execJalr
  refine h.issue fun _ _ _ _ h1 => ?_
  extract_lets
  split
  exacts [trivial, h1]

theorem FormKept.execRepf {w : BitVec 1} {n : BitVec 6} {m : BitVec 3} {t : BitVec 4} (h : FormKept s) :
    OutKept (Machine.execRepf w n m t s) := by
  unfold Machine.execRepf
  refine h.issue fun _ _ _ _ h1 => ?_
  split
  · trivial
  split
  exacts [trivial, h1.modThread]

theorem FormKept.execNop {w : BitVec 1} (h : FormKept s) : OutKept (Machine.execNop w s) := by
  unfold Machine.execNop
  exact h.issue fun _ _ _ _ h1 => h1

theorem FormKept.execYield {w : BitVec 1} (h : FormKept s) : OutKept (Machine.execYield w s) := by
  unfold Machine.execYield
  refine h.issue fun _ _ _ _ h1 => ?_
  split
  exacts [h1, h1.modSlot]

theorem FormKept.execTexit {w : BitVec 1} {a : BitVec 7} {j : BitVec 1} (h : FormKept s) :
    OutKept (Machine.execTexit w a j s) := by
  unfold Machine.execTexit
  refine h.issue fun _ _ _ _ h1 => ?_
  split
  · trivial
  extract_lets
  split
  · exact h1.settle.leave
  split
  · trivial
  refine ActKept.whenLines ?_
  exact h1.settle.addAt.leave

theorem FormKept.execHalt {w : BitVec 1} (h : FormKept s) : OutKept (Machine.execHalt w s) := by
  unfold Machine.execHalt
  exact h.issue fun _ _ _ _ h1 => h1.leave

theorem FormKept.execGrd {w : BitVec 1} {d : BitVec 7} {g : BitVec 5} (h : FormKept s) :
    OutKept (Machine.execGrd w d g s) := by
  unfold Machine.execGrd
  refine h.issue fun _ _ _ _ h1 => ?_
  extract_lets
  split
  exacts [h1, trivial]

theorem FormKept.execGwr {w : BitVec 1} {d : BitVec 7} {g : BitVec 5} (h : FormKept s) :
    OutKept (Machine.execGwr w d g s) := by
  unfold Machine.execGwr
  exact h.issue fun _ _ _ _ h1 => h1.issueAcc

end Sys2Proof.Claim
end

section
/-! The form kept. Floating point, vectors, accesses, and threads. -/
namespace Sys2Proof.Claim
open Machine
set_option Elab.async false
variable {s t a b : State}

theorem FormKept.floatResult {tid : Nat} {r : Nat × Flags} (h : FormKept s) :
    ActKept (Machine.floatResult s tid r) := by
  unfold Machine.floatResult
  exact h.modThread

theorem FormKept.floatBinary {w : BitVec 1} {d a b : BitVec 7} {f : RM → Nat → Nat → Nat × Flags} (h : FormKept s) :
    OutKept (Machine.floatBinary w d a b f s) := by
  unfold Machine.floatBinary
  exact h.issue fun _ _ _ _ h1 => h1.floatResult

theorem FormKept.floatUnary {w : BitVec 1} {d a : BitVec 7} {f : RM → Nat → Nat × Flags} (h : FormKept s) :
    OutKept (Machine.floatUnary w d a f s) := by
  unfold Machine.floatUnary
  exact h.issue fun _ _ _ _ h1 => h1.floatResult

theorem FormKept.floatTernary {w : BitVec 1} {d a b : BitVec 7} {f : RM → Nat → Nat → Nat → Nat × Flags}
    (h : FormKept s) :
    OutKept (Machine.floatTernary w d a b f s) := by
  unfold Machine.floatTernary
  exact h.issue fun _ _ _ _ h1 => h1.floatResult

theorem FormKept.floatCompare {w p : BitVec 1} {k : BitVec 6} {a b : BitVec 7} {f : Nat → Nat → Bool × Flags}
    (h : FormKept s) :
    OutKept (Machine.floatCompare w p k a b f s) := by
  unfold Machine.floatCompare
  refine h.issue fun _ _ _ _ h1 => ?_
  extract_lets
  exact h1.modThread

theorem FormKept.vecWrite {w : BitVec 1} {d : BitVec 5} {vs : List (BitVec 5)} {regs : List Nat}
    {f : Thread → Vec × Flags}
    (h : FormKept s) :
    OutKept (Machine.vecWrite w d vs regs f s) := by
  unfold Machine.vecWrite
  refine h.issue fun _ _ _ _ h1 => ?_
  extract_lets
  exact h1.modThread

theorem FormKept.laneOp {w : BitVec 1} {d a b : BitVec 5} {m : BitVec 1} {t : BitVec 3}
    {f : RM → Nat → Nat → Nat → Nat × Flags}
    (h : FormKept s) :
    OutKept (Machine.laneOp w d a b m t f s) := by
  unfold Machine.laneOp
  extract_lets
  exact h.vecWrite

theorem FormKept.laneUnary {w : BitVec 1} {d a : BitVec 5} {m : BitVec 1} {t : BitVec 3} {f : RM → Nat → Nat × Flags}
    (h : FormKept s) :
    OutKept (Machine.laneUnary w d a m t f s) := by
  unfold Machine.laneUnary
  extract_lets
  exact h.vecWrite

theorem FormKept.vecCompare {w c : BitVec 1} {a b : BitVec 5} {m : BitVec 1} {t : BitVec 3} {k : FCmp}
    {fi : ℤ → ℤ → Bool}
    (h : FormKept s) :
    OutKept (Machine.vecCompare w c a b m t k fi s) := by
  unfold Machine.vecCompare
  extract_lets
  exact h.issue fun _ _ _ _ h1 => h1.modThread

theorem FormKept.execVsel {w : BitVec 1} {d a b : BitVec 5} {t : BitVec 3} (h : FormKept s) :
    OutKept (Machine.execVsel w d a b t s) := by
  unfold Machine.execVsel
  extract_lets
  exact h.vecWrite

theorem FormKept.execVcvt {w : BitVec 1} {d a p : BitVec 5} {m : BitVec 1} {t u : BitVec 3} (h : FormKept s) :
    OutKept (Machine.execVcvt w d a p m t u s) := by
  unfold Machine.execVcvt
  extract_lets
  exact h.vecWrite

theorem FormKept.execVperm {w : BitVec 1} {d a b : BitVec 5} {m : BitVec 1} {t : BitVec 3} (h : FormKept s) :
    OutKept (Machine.execVperm w d a b m t s) := by
  unfold Machine.execVperm
  extract_lets
  exact h.vecWrite

theorem FormKept.execVbcst {w : BitVec 1} {d a l : BitVec 5} {m : BitVec 1} {t : BitVec 3} (h : FormKept s) :
    OutKept (Machine.execVbcst w d a l m t s) := by
  unfold Machine.execVbcst
  extract_lets
  exact h.vecWrite

theorem FormKept.execVins {w : BitVec 1} {d a l : BitVec 5} {m : BitVec 1} {t : BitVec 3} (h : FormKept s) :
    OutKept (Machine.execVins w d a l m t s) := by
  unfold Machine.execVins
  extract_lets
  exact h.vecWrite

theorem FormKept.execVext {w : BitVec 1} {d a l : BitVec 5} {m : BitVec 1} {t : BitVec 3} (h : FormKept s) :
    OutKept (Machine.execVext w d a l m t s) := by
  unfold Machine.execVext
  refine h.issue fun _ _ _ _ h1 => ?_
  extract_lets
  exact h1

theorem FormKept.laneMove {w : BitVec 1} {d a b : BitVec 5} {m : BitVec 1} {t : BitVec 3} {f : Nat → Bool × Nat}
    (h : FormKept s) :
    OutKept (Machine.laneMove w d a b m t f s) := by
  unfold Machine.laneMove
  extract_lets
  exact h.vecWrite

theorem FormKept.reduce {w : BitVec 1} {d a : BitVec 5} {m : BitVec 1} {t : BitVec 3} {u ident : Nat}
    {enter : Nat → Nat × Flags} {op : RM → Nat → Nat → Nat × Flags}
    (h : FormKept s) :
    OutKept (Machine.reduce w d a m t u ident enter op s) := by
  unfold Machine.reduce
  extract_lets
  exact h.vecWrite

theorem FormKept.execVrsum {w : BitVec 1} {d a : BitVec 5} {m : BitVec 1} {t : BitVec 3} (h : FormKept s) :
    OutKept (Machine.execVrsum w d a m t s) := by
  unfold Machine.execVrsum
  split <;> exact h.reduce

theorem FormKept.reduceMinMax {w : BitVec 1} {d a : BitVec 5} {m : BitVec 1} {t : BitVec 3} {isMax : Bool}
    (h : FormKept s) :
    OutKept (Machine.reduceMinMax w d a m t isMax s) := by
  unfold Machine.reduceMinMax
  extract_lets
  split <;> exact h.reduce

theorem FormKept.sendTo {tid c : Nat} (h : FormKept s) : FormKept (s.sendTo tid c) :=
  h.modThread

theorem FormKept.moveTo {tid : Nat} {t : Thread} {home : Nat} {k : State → Act} (h : FormKept s)
    (hk : ∀ s, FormKept s → ActKept (k s)) : ActKept (s.moveTo tid t home k) := by
  unfold State.moveTo
  split
  · trivial
  split
  · trivial
  extract_lets
  split
  exacts [hk _ h.settle, h.settle.sendTo]

theorem FormKept.issueLoad {tid : Nat} {t : Thread} {loc : Loc} {dest n : Nat} {sink : Sink} {taint acq : Bool}
    (h : FormKept s) :
    FormKept (s.issueLoad tid t loc dest n sink taint acq) :=
  h.openResult.issueAcc

theorem FormKept.scalarLoad {w : BitVec 1} {t b : BitVec 7} {r : BitVec 3} {o : BitVec 8} {n : Nat} {sgn : Bool}
    (h : FormKept s) :
    OutKept (Machine.scalarLoad w t b r o n sgn s) := by
  unfold Machine.scalarLoad
  refine h.issue fun _ _ _ _ h1 => ?_
  extract_lets
  split
  · exact fun _ h => h.noteEntry
  split
  · trivial
  extract_lets go
  have hgo : ∀ s, FormKept s → ActKept (go s) := fun _ h => h.noteTlb.noteUse.issueLoad
  split
  exacts [h1.moveTo hgo, hgo _ h1]

theorem FormKept.scalarStore {w : BitVec 1} {t b : BitVec 7} {r : BitVec 3} {o : BitVec 8} {n : Nat} (h : FormKept s) :
    OutKept (Machine.scalarStore w t b r o n s) := by
  unfold Machine.scalarStore
  refine h.issue fun _ _ _ _ h1 => ?_
  extract_lets
  split
  · trivial
  extract_lets go
  have hgo : ∀ s, FormKept s → ActKept (go s) := fun _ h => h.noteTlb.issueAcc
  split
  exacts [h1.moveTo hgo, hgo _ h1]

theorem FormKept.laneEnd {tid : Nat} {f : Option (Nat × TrapRec)} {g : State → State} (h : FormKept s)
    (hg : ∀ s, FormKept s → FormKept (g s)) : ActKept (Machine.laneEnd s tid f g) := by
  unfold Machine.laneEnd
  split
  · exact (hg _ h).modThread
  intro s hs
  beta_reduce
  extract_lets s₁
  have h₁ : FormKept s₁ := (hg _ hs).modThread
  split
  exacts [h₁.noteEntry, h₁]

theorem FormKept.issueLanes {tid core : Nat} {acq : Bool} {ls : List (Nat × Word × Loc)} {op : Nat → AccOp}
    {after : State → Loc → AccOp → List Nat}
    (h : FormKept s) :
    FormKept (s.issueLanes tid core acq ls op after) :=
  h.foldl fun _ _ h1 => h1.noteTlb.noteUse.issueAfter

theorem FormKept.vectorLoad {w : BitVec 1} {t : BitVec 5} {srcs : List Nat} {vs : List (BitVec 5)} {m : BitVec 1}
    {r : BitVec 2} {addr : Thread → List Word → Nat → Nat → Word}
    (h : FormKept s) :
    OutKept (Machine.vectorLoad w t srcs vs m r addr s) := by
  unfold Machine.vectorLoad
  refine h.issue fun _ _ _ _ h1 => ?_
  extract_lets
  split
  split
  exacts [trivial, h1.laneEnd fun _ h => h.openResult.issueLanes]

theorem FormKept.vectorStore {w : BitVec 1} {t : BitVec 5} {srcs : List Nat} {vs : List (BitVec 5)} {m : BitVec 1}
    {r : BitVec 2} {addr : Thread → List Word → Nat → Nat → Word}
    (h : FormKept s) :
    OutKept (Machine.vectorStore w t srcs vs m r addr s) := by
  unfold Machine.vectorStore
  refine h.issue fun _ _ _ _ h1 => ?_
  extract_lets
  split
  refine h1.laneEnd fun _ h => FormKept.modThread ?_
  exact h.foldl fun _ _ h => h.noteTlb.noteUse.issueAfter

theorem FormKept.atomic {w : BitVec 1} {d a b : BitVec 7} {r : BitVec 2} {n : Nat} {op : Rmw} (h : FormKept s) :
    OutKept (Machine.atomic w d a b r n op s) := by
  unfold Machine.atomic
  refine h.issue fun _ _ _ _ h1 => ?_
  split
  · trivial
  split
  · trivial
  extract_lets _ go
  have hgo : ∀ s, FormKept s → ActKept (go s) := fun _ h => h.noteTlb.openResult.issueAcc
  split
  exacts [h1.moveTo hgo, hgo _ h1]

theorem FormKept.reduction {w z : BitVec 1} {c : BitVec 3} {a b : BitVec 7} {op : Rmw} (h : FormKept s) :
    OutKept (Machine.reduction w z c a b op s) := by
  unfold Machine.reduction
  extract_lets
  refine h.issue fun _ _ _ _ h1 => ?_
  split
  exacts [trivial, h1.noteTlb.issueAcc]

theorem FormKept.vectorAtomic {w : BitVec 1} {d a b : BitVec 5} {m : BitVec 1} {r : BitVec 2} {op : Rmw}
    (h : FormKept s) :
    OutKept (Machine.vectorAtomic w d a b m r op s) := by
  unfold Machine.vectorAtomic
  refine h.issue fun _ _ _ _ h1 => ?_
  extract_lets
  split
  split
  exacts [trivial, h1.laneEnd fun _ h => h.openResult.issueLanes]

theorem FormKept.execFence {w : BitVec 1} {c : BitVec 3} (h : FormKept s) : OutKept (Machine.execFence w c s) := by
  unfold Machine.execFence
  refine h.issue fun _ _ _ _ h1 => ?_
  extract_lets
  split
  exacts [trivial, h1.frame]

theorem FormKept.fullLoad {w : BitVec 1} {d a : BitVec 7} {empties : Bool} (h : FormKept s) :
    OutKept (Machine.fullLoad w d a empties s) := by
  unfold Machine.fullLoad
  refine h.issue fun _ _ _ _ h1 => ?_
  split
  · trivial
  extract_lets
  split
  · trivial
  split
  · split
    · next hv2 => exact FormKept.ite ((h1.noteTlb.wordValue.of_eq hv2).setFull) (h1.noteTlb.wordValue.of_eq hv2)
  split
  exacts [trivial, fun _ h3 => h3.noteTlb.frame]

theorem FormKept.execStfe {w : BitVec 1} {d a : BitVec 7} (h : FormKept s) : OutKept (Machine.execStfe w d a s) := by
  unfold Machine.execStfe
  refine h.issue fun _ _ _ _ h1 => ?_
  split
  exacts [trivial, h1.noteTlb.issueAcc]

theorem FormKept.execWaitge {w : BitVec 1} {d a : BitVec 7} (h : FormKept s) :
    OutKept (Machine.execWaitge w d a s) := by
  unfold Machine.execWaitge
  refine h.issue fun _ _ _ _ h1 => ?_
  split
  · trivial
  extract_lets _ _ _ register
  have hregister : ActKept register := fun _ h => h.noteTlb.frame
  split
  · trivial
  split
  · exact hregister
  split
  · exact h1.noteTlb.queueTrap
  split
  exacts [h1.noteTlb, hregister]

theorem FormKept.execMigrate {w : BitVec 1} {a : BitVec 7} (h : FormKept s) : OutKept (Machine.execMigrate w a s) := by
  unfold Machine.execMigrate
  refine h.issue fun _ _ _ _ h1 => ?_
  split
  · trivial
  split
  · trivial
  split
  · trivial
  split
  · trivial
  extract_lets
  split
  exacts [h1.settle.noteTlb, h1.settle.noteTlb.retire.sendTo]

theorem FormKept.execPrefetch {w : BitVec 1} {a : BitVec 7} {_l : BitVec 1} (h : FormKept s) :
    OutKept (Machine.execPrefetch w a _l s) := by
  unfold Machine.execPrefetch
  refine h.issue fun _ _ _ _ h1 => ?_
  split
  exacts [FormKept.ite h1.noteTlb h1, h1]

theorem FormKept.execFork {w : BitVec 1} {d a : BitVec 7} {n : BitVec 5} (h : FormKept s) :
    OutKept (Machine.execFork w d a n s) := by
  unfold Machine.execFork
  extract_lets
  refine h.issue fun _ _ _ _ h1 => ?_
  extract_lets _ place create
  clear_value place
  have hcreate : ∀ s, FormKept s → ActKept (create s) := by
    intro s hs
    unfold create
    extract_lets
    split
    exacts [hs.spawnChild, hs]
  split
  · trivial
  refine ActKept.ite trivial ?_
  split
  · trivial
  · exact hcreate _ h1
  extract_lets
  split
  · trivial
  refine ActKept.whenLines (hcreate _ ?_)
  split
  exacts [h1.noteTlb.queueTrap, h1.noteTlb.addAt]

theorem FormKept.execJoinw {w : BitVec 1} {a : BitVec 7} (h : FormKept s) : OutKept (Machine.execJoinw w a s) := by
  unfold Machine.execJoinw
  refine h.issue fun _ _ _ _ h => ?_
  split
  · trivial
  extract_lets _ s₁ _
  have h₁ : FormKept s₁ := h.noteTlb
  clear_value s₁
  generalize s₁.rdWord _ = x
  split
  · trivial
  split
  · trivial
  split
  · exact h₁.queueTrap
  split
  · exact h₁
  split
  · exact fun _ h => h.noteTlb.frame
  split
  · trivial
  split
  · exact h₁.logSlotWait
  extract_lets s₂ s₃
  have h₃ : FormKept s₃ := h₁.settle.retire.writeContext.modCore
  exact FormKept.modThread h₃.frame

theorem FormKept.submit {tid core : Nat} {ws : List Word} {addr : Word} {user : Bool} {table : List Word}
    {loc : Option Loc}
    (h : FormKept s) :
    FormKept (s.submit tid core ws addr user table loc) := by
  unfold State.submit
  extract_lets _ _ _ _ s₁ _ _
  have h₁ : FormKept s₁ := by
    unfold s₁
    split
    exacts [h.issueAcc, h]
  clear_value s₁
  split
  · exact h₁
  · refine FormKept.startLaunches ?_
    exact h₁.frame

theorem FormKept.execLaunch {w : BitVec 1} {a : BitVec 7} (h : FormKept s) : OutKept (Machine.execLaunch w a s) := by
  unfold Machine.execLaunch
  refine h.issue fun _ _ _ _ h1 => ?_
  extract_lets
  split
  · trivial
  split
  · trivial
  split
  · trivial
  split
  · trivial
  extract_lets
  refine ActKept.whenLines ?_
  split
  · split
    · trivial
    split
    · trivial
    refine ActKept.whenLines ?_
    exact h1.noteTlb.noteTlb.submit
  · exact h1.noteTlb.submit

theorem FormKept.execTinfo {w : BitVec 1} {d : BitVec 7} {sel : BitVec 3} (h : FormKept s) :
    OutKept (Machine.execTinfo w d sel s) := by
  unfold Machine.execTinfo
  exact h.issue fun _ _ _ _ h1 => h1

theorem FormKept.execQbind {w : BitVec 1} {q : BitVec 3} {a : BitVec 7} (h : FormKept s) :
    OutKept (Machine.execQbind w q a s) := by
  unfold Machine.execQbind
  extract_lets
  refine h.issue fun _ _ _ _ h1 => ?_
  extract_lets
  split
  · trivial
  split
  exacts [trivial, (FormKept.ite h1.unbindHead.modCore (.ite h1.unbindHead.modCore h1.unbindHead)).modThread]

theorem FormKept.execQpoll {w : BitVec 1} {d : BitVec 7} {q : BitVec 3} (h : FormKept s) :
    OutKept (Machine.execQpoll w d q s) := by
  unfold Machine.execQpoll
  refine h.issue fun _ _ _ _ h1 => ?_
  split
  extract_lets
  exact h1.modThread

theorem FormKept.sendWord {w : BitVec 1} {q : BitVec 3} {a : BitVec 7} {close : Bool} (h : FormKept s) :
    OutKept (Machine.sendWord w q a close s) := by
  unfold Machine.sendWord
  refine h.issue fun _ _ _ _ h1 => ?_
  extract_lets
  split
  · trivial
  split
  · trivial
  split
  · trivial
  split
  · exact h1.modCore.modThread
  split
  exacts [h1.modCore.modThread.closePacket, h1.modCore.modThread]

theorem FormKept.execVqrd {w : BitVec 1} {v : BitVec 5} {q : BitVec 3} (h : FormKept s) :
    OutKept (Machine.execVqrd w v q s) := by
  unfold Machine.execVqrd
  refine h.issue fun _ _ _ _ h1 => ?_
  extract_lets
  split
  · trivial
  split
  exacts [trivial, h1.modCore.modThread]

theorem FormKept.execVqwr {w : BitVec 1} {q : BitVec 3} {v : BitVec 5} (h : FormKept s) :
    OutKept (Machine.execVqwr w q v s) := by
  unfold Machine.execVqwr
  refine h.issue fun _ _ _ _ h1 => ?_
  extract_lets
  split
  · trivial
  split
  · trivial
  split <;> exact h1.modCore

theorem FormKept.execItemget {w : BitVec 1} {d a : BitVec 7} (h : FormKept s) :
    OutKept (Machine.execItemget w d a s) := by
  unfold Machine.execItemget
  refine h.issue fun _ _ _ _ h1 => ?_
  split
  · trivial
  split
  · exact h1.restartThread
  extract_lets
  split
  exacts [fun _ h2 => h2.modThread, h1.setThread.modThread, h1.setThread.setLaunch.modThread]

theorem FormKept.execItemput {w : BitVec 1} {d a : BitVec 7} {o : BitVec 1} (h : FormKept s) :
    OutKept (Machine.execItemput w d a o s) := by
  unfold Machine.execItemput
  refine h.issue fun _ _ _ _ h1 => ?_
  split
  · trivial
  split
  · trivial
  split
  · trivial
  extract_lets
  split
  exacts [trivial, trivial, h1.setLaunch]

theorem FormKept.barrierOp {w : BitVec 1} {u : Use} {k : State → Nat → Thread → Word → Act} (h : FormKept s)
    (hk : ∀ s tid t x, FormKept s → ActKept (k s tid t x)) : OutKept (Machine.barrierOp w u k s) := by
  unfold Machine.barrierOp
  refine h.issue fun _ _ _ _ h1 => ?_
  split
  exacts [hk _ _ _ _ h1, trivial]

theorem FormKept.joinBarrier {tid : Nat} {x : Word} (h : FormKept s) : FormKept (s.joinBarrier tid x) :=
  .ite h h.modBarrier.modThread

theorem FormKept.execBarj {w : BitVec 1} {a : BitVec 7} (h : FormKept s) : OutKept (Machine.execBarj w a s) :=
  h.barrierOp fun _ _ _ _ h => h.joinBarrier

theorem FormKept.execBarl {w : BitVec 1} {a : BitVec 7} (h : FormKept s) : OutKept (Machine.execBarl w a s) :=
  h.barrierOp fun _ _ _ _ h => h.leaveBarrier

theorem FormKept.execBara {w : BitVec 1} {a : BitVec 7} (h : FormKept s) : OutKept (Machine.execBara w a s) := by
  unfold Machine.execBara
  refine h.barrierOp fun _ _ _ _ h => ?_
  extract_lets
  split
  · trivial
  split
  exacts [fun _ h => h.joinBarrier, h.joinBarrier.modThread.modBarrier]

theorem FormKept.execBarw {w : BitVec 1} {a : BitVec 7} (h : FormKept s) : OutKept (Machine.execBarw w a s) := by
  unfold Machine.execBarw
  refine h.barrierOp fun _ _ _ _ h => ?_
  extract_lets
  split
  exacts [.ite trivial h, h]

theorem FormKept.execBarm {w : BitVec 1} {d a : BitVec 7} (h : FormKept s) : OutKept (Machine.execBarm w d a s) :=
  h.barrierOp fun _ _ _ _ h => h

theorem FormKept.execCsig {w : BitVec 1} {d a : BitVec 7} {sc : BitVec 3} (h : FormKept s) :
    OutKept (Machine.execCsig w d a sc s) := by
  unfold Machine.execCsig
  refine h.issue fun _ _ _ _ h1 => ?_
  split
  exacts [trivial, h1.noteTlb.issueAcc]

end Sys2Proof.Claim
end

section
/-! The form kept. Links, copies, the matrix units, engines and shared objects. -/
namespace Sys2Proof.Claim
open Machine
set_option Elab.async false
variable {s t a b : State}

theorem FormKept.modLink {l : Nat} {f : Link → Link} (h : FormKept s) : FormKept (s.modLink l f) :=
  h.frame

theorem FormKept.sendOn {l : Nat} {f : Flit} (h : FormKept s) : FormKept (s.sendOn l f) :=
  h.frame.modLink

theorem FormKept.pump {fuel : Nat} (h : FormKept s) : FormKept (s.pump fuel) := by
  induction fuel generalizing s with
  | zero => exact h
  | succ n ih =>
    unfold State.pump
    split
    exacts [h, ih h.sendOn]

theorem FormKept.leaveOn {f : Flit} (h : FormKept s) : FormKept (s.leaveOn f) :=
  h.frame.pump

theorem FormKept.mailFault {m : Mail} {r : TrapRec} (h : FormKept s) : FormKept (s.mailFault m r) := by
  unfold State.mailFault
  split
  exacts [.ite h.logError h.setThread.slotPut.queueTrap, h.logError]

theorem FormKept.targetLost {dev seg : Nat} (h : FormKept s) : FormKept (s.targetLost dev seg) := by
  have h₁ : FormKept (s.logError 0x17 unitDevice (word dev) (word seg)) := h.logError
  unfold State.targetLost
  generalize s.logError 0x17 unitDevice (word dev) (word seg) = s₁ at h₁
  extract_lets
  split
  · exact h₁
  · next st hst =>
    obtain ⟨hm, hi, hs⟩ := h₁
    refine ⟨hm, hi, fun st' e => ?_⟩
    obtain rfl := Option.some.inj e
    exact hs st hst

theorem FormKept.lost_copy {f : Flit} (h : FormKept s) : FormKept (State.lost.copy f s) := by
  unfold State.lost.copy
  split
  exacts [.ite h.execFault h, h]

theorem FormKept.lost_mail {f : Flit} (h : FormKept s) : FormKept (State.lost.mail f s) := by
  unfold State.lost.mail
  split
  exacts [h.frame.logError.mailFault, h]

theorem FormKept.lost {f : Flit} (h : FormKept s) : FormKept (s.lost f) := by
  unfold State.lost
  split
  exacts [h.lost_copy, h.lost_copy, h.lost_mail, h.lost_mail, h.targetLost, h]

theorem FormKept.numbered {k : Nat} {f : Flit} (h : FormKept s) : FormKept (s.numbered k f).2 := by
  unfold State.numbered
  extract_lets
  exact h.frame

theorem FormKept.sendLinkLevel {f : Flit} (h : FormKept s) : FormKept (s.sendLinkLevel f) := by
  unfold State.sendLinkLevel
  split
  · next hv1 => exact (h.numbered.of_eq hv1).leaveOn

theorem FormKept.sendFlit {f : Flit} (h : FormKept s) : FormKept (s.sendFlit f) := by
  unfold State.sendFlit
  extract_lets
  split
  exacts [h.numbered.leaveOn, h.logError.lost]

theorem FormKept.discard {f : Flit} {why : Nat} (h : FormKept s) : FormKept (s.discard f why) :=
  .ite h.logError.lost h.logError.sendFlit

theorem FormKept.forward {f : Flit} (h : FormKept s) : FormKept (s.forward f) := by
  unfold State.forward
  split
  · exact h.discard
  split
  exacts [h.leaveOn, h.discard]

theorem FormKept.dropStranded (h : FormKept s) : FormKept (s.dropStranded) :=
  h.foldl fun _ _ h1 => .ite h1.frame h1.frame.discard

theorem FormKept.settleQueue (h : FormKept s) : FormKept (s.settleQueue) :=
  .ite h h.dropStranded.pump

theorem FormKept.syncLinks (h : FormKept s) : FormKept (s.syncLinks) :=
  (h.foldl fun _ _ h1 => by
    split
    · exact h1
    split
    · next hv2 => exact .ite ((h1.fresh.of_eq hv2).sendLinkLevel) (h1.fresh.of_eq hv2))

theorem FormKept.recordFlit {f : Flit} (h : FormKept s) : FormKept (s.recordFlit f) :=
  h.record

theorem FormKept.seenBy {f : Flit} (h : FormKept s) : FormKept (s.seenBy f) :=
  h.modLink

theorem FormKept.arrive {f : Flit} {kind : Nat} {k : State → Option State} (h : FormKept s)
    (hk : ∀ s, FormKept s → OnSome FormKept (k s)) : OnSome FormKept (s.arrive f kind k) := by
  unfold State.arrive
  split
  · trivial
  extract_lets r
  have hr : FormKept r := h.seenBy.recordFlit
  split
  · exact hk _ hr
  split
  · exact hr.forward
  split
  exacts [trivial, hk _ hr.frame]

theorem FormKept.opAcc {c e xid : Nat} {loc : Loc} {op : AccOp} {after : List Nat} (h : FormKept s) :
    FormKept (s.opAcc c e xid loc op after) :=
  h.partAcc.modOp

theorem FormKept.streamBytes {o : EngOp} {acc k n : Nat} (h : FormKept s) : FormKept (s.streamBytes o acc k n) :=
  .ite h h.modThread

theorem FormKept.issuePiece {c xid : Nat} {fs : List Word} {w : Who} {p : Piece} (h : FormKept s) :
    FormKept (s.issuePiece c xid fs w p) := by
  unfold State.issuePiece
  split
  · exact h
  split
  · exact h.noteEntry.opAcc
  extract_lets
  split
  · exact h.opAcc
  split
  · exact h.opAcc
  split
  · exact h.opAcc
  split
  exacts [h.opAcc, h.opAcc.streamBytes]

theorem FormKept.issueRows {c xid : Nat} {fs : List Word} (h : FormKept s) : FormKept (s.issueRows c xid fs) :=
  h.foldl fun _ _ h1 => h1.opAcc

theorem FormKept.startCopy {c : Nat} {o : EngOp} (h : FormKept s) : FormKept (s.startCopy c o) :=
  .ite h.modOp.issueRows (h.modOp.foldl fun _ _ h1 => h1.issuePiece)

theorem FormKept.readSome {a : Access} {parts : List (Loc × Nat)} (h : FormKept s) : FormKept (s.readSome a parts) :=
  h.modAcc

theorem FormKept.takeResult {c : Nat} {r : CanopyResult} (h : FormKept s) : FormKept (s.takeResult c r) :=
  h.modCore

theorem FormKept.injectOperand {c g op ty : Nat} {v : Vec} (h : FormKept s) : FormKept (s.injectOperand c g op ty v) :=
  h.modCore

theorem FormKept.closeRemote {c xid : Nat} (h : FormKept s) : FormKept (s.closeRemote c xid) := by
  unfold State.closeRemote
  split
  exacts [h, .ite h h.modOp.sendFlit]

theorem FormKept.opDone {c e xid id : Nat} (h : FormKept s) : FormKept (s.opDone c e xid id) :=
  .ite h.modOp.closeRemote h.modOp.faultEnd

theorem FormKept.shipBytes {c : Nat} {o : EngOp} {dst : Word} {bs : List (Byte × Bool)} (h : FormKept s) :
    FormKept (s.shipBytes c o dst bs) :=
  h.modOp.sendFlit

theorem FormKept.spawnPiece {c xid : Nat} {a : Word} {bs : List (Byte × Bool)} (h : FormKept s) :
    FormKept (s.spawnPiece c xid a bs) := by
  unfold State.spawnPiece
  split
  · exact h
  split
  · exact h.shipBytes
  split
  exacts [h.opAcc, h.opAcc.streamBytes]

theorem FormKept.spawnRow {c : Nat} {o : EngOp} {dst : Word} {bs : List (Byte × Bool)} (h : FormKept s) :
    FormKept (s.spawnRow c o dst bs) :=
  h.foldl fun _ _ h1 => h1.spawnPiece

theorem FormKept.readRowBytes {a : Access} {w : Who} {src : Word} {need : List Nat} (h : FormKept s) :
    OnOk FormKept (s.readRowBytes a w src need) := by
  unfold State.readRowBytes
  extract_lets
  split
  exacts [trivial, h.modAcc]

theorem FormKept.performRow {c : Nat} {o : EngOp} {a : Access} {src dst : Word} {pack : Bool} {room : Option Nat}
    (h : FormKept s) :
    FormKept (s.performRow c o a src dst pack room) := by
  unfold State.performRow
  extract_lets w fail more out
  have hfail : ∀ s e, FormKept s → FormKept (fail s e) := fun _ _ h => h.dropAcc.execFault
  have hmore : ∀ need, FormKept (more need) := by
    intro need
    unfold more
    split
    · exact hfail _ _ h.noteEntry
    · next hv => exact h.readRowBytes.of_eq hv
  have hout : ∀ bs, FormKept (out bs) := fun _ => h.spawnRow.dropAcc.opDone
  clear_value fail more out
  split
  · split
    exacts [hmore _, .ite (hfail _ _ h) (hout _)]
  split
  · exact hfail _ _ h
  split
  · exact hfail _ _ h
  split
  exacts [hmore _, hout _]

theorem FormKept.performSplit {c : Nat} {o : EngOp} {a : Access} {src : CopySrc} {dst : Word} {n : Nat}
    {left : List (Nat × Nat)}
    (h : FormKept s) :
    FormKept (s.performSplit c o a src dst n left) := by
  unfold State.performSplit
  split
  exacts [h,
    .ite h.readSome (.ite (((h.foldl fun _ _ h1 => h1.spawnPiece).dropAcc).opDone)
      ((h.foldl fun _ _ h2 => h2.spawnPiece).modAcc))]

theorem FormKept.takeSrc {c : Nat} {o : EngOp} {a : Access} {x : CopySrc} (h : FormKept s) :
    OnOk (fun e => FormKept e.1) (s.takeSrc c o a x) := by
  unfold State.takeSrc
  split
  · extract_lets
    split
    · exact h.readSome
    split <;> exact h.readSome
  split
  · trivial
  split
  exacts [trivial, h.takeResult]

theorem FormKept.writeSome {a : Access} {x : CopySrc} {n : Nat} {left : Tab (Byte × Bool)} {w3 : Nat} (h : FormKept s) :
    FormKept (s.writeSome a x n left w3).1 := by
  unfold State.writeSome
  extract_lets
  exact (h.foldl fun _ _ h2 => .ite h2.writeAt.setPoison h2.writeAt).modAcc

theorem FormKept.performPiece {a : Access} (h : FormKept s) : FormKept (s.performPiece a) := by
  unfold State.performPiece
  split
  · exact h.dropAcc
  extract_lets c done reading
  have hdone : ∀ s, FormKept s → FormKept (done s) := fun _ h => h.dropAcc.opDone
  have hreading : ∀ x k, (∀ s bs, FormKept s → FormKept (k s bs)) → FormKept (reading x k) := by
    intro x k hk
    unfold reading
    split
    · exact h.dropAcc.execFault
    · next hv => exact h.takeSrc.of_eq hv
    · next hv => exact hk _ _ (h.takeSrc.of_eq hv)
  clear_value done reading
  split
  · exact h.dropAcc.execFault
  · exact h.performRow
  · exact h.performSplit
  · exact hreading _ _ fun _ _ h => h.modAcc
  · exact .ite (hdone _ h.writeSome) h.writeSome
  · exact hreading _ _ fun _ _ h => hdone _ h.shipBytes
  · split
    exacts [h.dropAcc.execFault, hreading _ _ fun _ _ h => hdone _ h.injectOperand]
  · exact hdone _ h

theorem FormKept.putPacket {c i : Nat} {ws : List Word} {acct : List Nat} (h : FormKept s) :
    FormKept (s.putPacket c i ws acct) :=
  h.modCore

theorem FormKept.retireOp {c e : Nat} {o : EngOp} (h : FormKept s) : FormKept (s.retireOp c e o) :=
  .ite h.endOp h.endOp.modCore

theorem FormKept.actAdd {c e : Nat} {o : EngOp} (h : FormKept s) : OnSome FormKept (s.actAdd c e o) := by
  unfold State.actAdd
  split
  exacts [h.execFault, h.atLine h.addAt.retireOp]

theorem FormKept.actUint {c e : Nat} {o : EngOp} (h : FormKept s) : OnSome FormKept (s.actUint c e o) := by
  unfold State.actUint
  extract_lets
  split
  · exact h.logError.retireOp
  split
  · exact h.logError.retireOp
  split
  · trivial
  refine OnSome.ite trivial ?_
  extract_lets
  exact h.setThread.slotPut.slotPut.retireOp

theorem FormKept.actInbox {c e : Nat} {o : EngOp} (h : FormKept s) : OnSome FormKept (s.actInbox c e o) := by
  unfold State.actInbox
  extract_lets
  split
  exacts [trivial, h.putPacket.retireOp]

theorem FormKept.actPush {c e : Nat} {o : EngOp} (h : FormKept s) : OnSome FormKept (s.actPush c e o) := by
  unfold State.actPush
  extract_lets
  split
  · split
    · exact h.retireOp
    split
    · exact h.retireOp
    split
    exacts [trivial, h.execFault, h.setLaunch.retireOp]
  split
  · exact h.execFault
  split
  exacts [trivial, h.modCore.retireOp]

theorem FormKept.drainRow {c : Nat} {o : EngOp} {m : Nat} {x : BitVec 4096} {bad : Bool} (h : FormKept s) :
    FormKept (s.drainRow c o m x bad) := by
  unfold State.drainRow
  extract_lets
  split
  · split
    exacts [h, h.foldl fun _ _ h1 => h1.opAcc]
  · exact h.queueHandler
  · exact h

theorem FormKept.rowsDone {c : Nat} {o : EngOp} {m : Nat} (h : FormKept s) : FormKept (s.rowsDone c o m) :=
  h.modOp.modCore

theorem FormKept.readEarly {c xid : Nat} (h : FormKept s) : OnSome FormKept (s.readEarly c xid) := by
  unfold State.readEarly
  split
  · trivial
  extract_lets
  split
  exacts [trivial, h.frame.modOp]

theorem FormKept.rowStep {c xid : Nat} (h : FormKept s) : OnSome FormKept (s.rowStep c xid) := by
  unfold State.rowStep
  split
  · trivial
  extract_lets
  split
  · trivial
  split
  · split
    exact ((FormKept.ite h.modCore.logError h.modCore).drainRow).rowsDone
  · exact h.reportFault.stopCommand
  · trivial

theorem FormKept.mxuStep {c xid : Nat} (h : FormKept s) : OnSome FormKept (s.mxuStep c xid) :=
  h.readEarly.orElse fun _ => h.rowStep

theorem FormKept.arbitrate {g i n fuel : Nat} (h : FormKept s) : OnSome FormKept (s.arbitrate g i n fuel) := by
  induction fuel generalizing s i n with
  | zero => trivial
  | succ m ih =>
    unfold State.arbitrate
    extract_lets
    split
    · split
      exacts [h.frame.modOp, ih h]
    · exact ih h

theorem FormKept.mxuEnd {c xid : Nat} (h : FormKept s) : OnSome FormKept (s.mxuEnd c xid) := by
  unfold State.mxuEnd
  split
  · trivial
  extract_lets
  split
  · trivial
  split
  exacts [h.retireOp, h.actAdd, h.actInbox, h.actUint, h.actPush]

theorem FormKept.readRow {a : Access} {b m chunk num : Nat} (h : FormKept s) : FormKept (s.readRow a b m chunk num) :=
  .ite h.giveResult h.giveResult

theorem FormKept.execXset {w : BitVec 1} {d : BitVec 7} {f : BitVec 5} {e : BitVec 1} (h : FormKept s) :
    OutKept (Machine.execXset w d f e s) := by
  unfold Machine.execXset
  refine h.issue fun _ _ _ _ h1 => ?_
  extract_lets
  split
  · exact h1
  split
  · exact h1.modCore
  split <;> exact h1.modThread

theorem FormKept.execXget {w : BitVec 1} {d : BitVec 7} {f : BitVec 5} {e : BitVec 1} (h : FormKept s) :
    OutKept (Machine.execXget w d f e s) := by
  unfold Machine.execXget
  exact h.issue fun _ _ _ _ h1 => h1

theorem FormKept.handOver {tid : Nat} {t : Thread} {e : Nat} (h : FormKept s) : FormKept (s.handOver tid t e) :=
  .ite h.modCore.modCore (.ite h.modCore.modThread h.modCore)

theorem FormKept.execXlaunch {w : BitVec 1} {d : BitVec 7} {e : BitVec 1} (h : FormKept s) :
    OutKept (Machine.execXlaunch w d e s) := by
  unfold Machine.execXlaunch
  refine h.issue fun _ _ _ _ h1 => ?_
  split
  · trivial
  extract_lets
  split
  · trivial
  split
  exacts [trivial, h1.handOver]

theorem FormKept.waitEngine {w : BitVec 1} {a : BitVec 7} {e : Nat} (h : FormKept s) :
    OutKept (Machine.waitEngine w a e s) := by
  unfold Machine.waitEngine
  refine h.issue fun _ _ _ _ h1 => ?_
  extract_lets
  split
  exacts [h1, trivial]

theorem FormKept.execTrig {w : BitVec 1} {d a : BitVec 7} (h : FormKept s) : OutKept (Machine.execTrig w d a s) := by
  unfold Machine.execTrig
  refine h.issue fun _ _ _ _ h1 => ?_
  extract_lets
  split
  · trivial
  split
  · trivial
  split
  · trivial
  extract_lets
  exact h1.noteTlb.openResult.issueAcc

theorem FormKept.modWatch {c n : Nat} {f : Watch → Watch} (h : FormKept s) : FormKept (s.modWatch c n f) :=
  h.frame

theorem FormKept.armNow {a : Access} {block : List Loc} {user : Bool} {lnum num : Nat} (h : FormKept s) :
    FormKept (s.armNow a block user lnum num) := by
  unfold State.armNow
  extract_lets
  split
  · exact h.giveResult
  split
  · exact h.giveResult
  split
  · exact h.noteWalk.giveResult
  split
  · exact h.giveResult
  extract_lets
  split
  exacts [h.giveResult, h.frame.giveResult]

theorem FormKept.execTrigc {w : BitVec 1} {a : BitVec 7} (h : FormKept s) : OutKept (Machine.execTrigc w a s) := by
  unfold Machine.execTrigc
  refine h.issue fun _ _ _ _ h1 => ?_
  split
  · exact h1
  extract_lets
  split
  · exact h1
  split
  exacts [trivial, h1.modWatch]

theorem FormKept.execTrigq {w : BitVec 1} {d a : BitVec 7} (h : FormKept s) : OutKept (Machine.execTrigq w d a s) := by
  unfold Machine.execTrigq
  refine h.issue fun _ _ _ _ h1 => ?_
  split
  exacts [trivial, h1]

theorem FormKept.execMxrd {w : BitVec 1} {v : BitVec 5} {a : BitVec 7} (h : FormKept s) :
    OutKept (Machine.execMxrd w v a s) := by
  unfold Machine.execMxrd
  refine h.issue fun _ _ _ _ h1 => ?_
  extract_lets
  split
  · trivial
  split
  exacts [trivial, h1.openResult.issueAfter]

theorem FormKept.execHdone {w : BitVec 1} (h : FormKept s) : OutKept (Machine.execHdone w s) := by
  unfold Machine.execHdone
  refine h.issue fun _ _ _ _ h1 => ?_
  split
  exacts [h1.leave, h1.leave, trivial]

theorem FormKept.execPpt {w : BitVec 1} {m : BitVec 2} (h : FormKept s) : OutKept (Machine.execPpt w m s) := by
  unfold Machine.execPpt
  refine h.issue fun _ _ _ _ h1 => ?_
  extract_lets
  exact (h1.foldl fun _ _ h3 => h3.modCore).modThread

theorem FormKept.withElem {t : Thread} {u : For} {a : Word} {k : Elem → Loc → State → Act} (h : FormKept s)
    (hk : ∀ e l s, FormKept s → ActKept (k e l s)) : ActKept (Machine.withElem s t u a k) := by
  unfold Machine.withElem
  split
  exacts [trivial, fun _ h => h.noteSot, hk _ _ _ h.noteTlb.noteSot]

theorem FormKept.update {w : BitVec 1} {d a : BitVec 7} {member : Nat} (h : FormKept s) :
    OutKept (Machine.update w d a member s) := by
  unfold Machine.update
  refine h.issue fun _ _ _ _ h => ?_
  extract_lets
  refine h.withElem fun _ _ _ h => ?_
  extract_lets _ _ go
  have hgo : ∀ src, ActKept (go src) := by
    intro src
    unfold go
    split
    exacts [trivial, h.openResult.issueAfter]
  clear_value go
  split
  · trivial
  split
  · trivial
  split
  · trivial
  split
  · trivial
  split
  · split
    exacts [trivial, hgo _]
  · exact hgo _

theorem FormKept.execRshas {w : BitVec 1} {d a : BitVec 7} {k : BitVec 6} (h : FormKept s) :
    OutKept (Machine.execRshas w d a k s) := by
  unfold Machine.execRshas
  refine h.issue fun _ _ _ _ h => ?_
  extract_lets _ _ mark
  have hmark : ∀ s b, FormKept s → FormKept (mark s b) := fun _ _ h => h.modThread
  refine h.withElem fun _ _ _ h => ?_
  split
  · trivial
  split
  · trivial
  split
  exacts [(hmark _ _ h).queueTrap, hmark _ _ h]

theorem FormKept.execRfront {w : BitVec 1} {d a : BitVec 7} {c : BitVec 6} (h : FormKept s) :
    OutKept (Machine.execRfront w d a c s) := by
  unfold Machine.execRfront
  refine h.issue fun _ _ _ _ h => ?_
  extract_lets
  refine h.withElem fun _ _ _ h => ?_
  split
  · trivial
  split
  exacts [trivial, h.openResult.issueAcc]

theorem FormKept.execRwaitf {w : BitVec 1} {d a : BitVec 7} {c : BitVec 6} (h : FormKept s) :
    OutKept (Machine.execRwaitf w d a c s) := by
  unfold Machine.execRwaitf
  refine h.issue fun _ _ _ _ h => ?_
  extract_lets
  refine h.withElem fun _ _ _ h => ?_
  split
  · trivial
  split
  exacts [h, trivial]

theorem FormKept.execHlcrd {w : BitVec 1} {d : BitVec 7} (h : FormKept s) : OutKept (Machine.execHlcrd w d s) := by
  unfold Machine.execHlcrd
  refine h.issue fun _ _ _ _ h1 => ?_
  split
  · next hv2 => exact h1.hlcNow.of_eq hv2

theorem FormKept.execRship {w : BitVec 1} {a : BitVec 7} (h : FormKept s) : OutKept (Machine.execRship w a s) :=
  h.issue fun _ _ _ _ h => h.withElem fun _ _ _ h => h.modReplica

theorem FormKept.execRstat {w : BitVec 1} {d a : BitVec 7} {sel : BitVec 3} (h : FormKept s) :
    OutKept (Machine.execRstat w d a sel s) :=
  h.issue fun _ _ _ _ h => h.withElem fun _ _ _ h => ActKept.ite trivial h

end Sys2Proof.Claim
end

section
/-! The form kept. The fabric, cuts, and system instructions. -/
namespace Sys2Proof.Claim
open Machine
set_option Elab.async false
variable {s t a b : State}

theorem FormKept.putBox {b : Box} {i : Nat} {x : Word} (h : FormKept s) : FormKept (s.putBox b i x) :=
  h.writeAt

theorem FormKept.mailHere {c : Nat} {b : Box} {m : Mail} {parts : List (List Byte)} (h : FormKept s) :
    FormKept (s.mailHere c b m parts) := by
  unfold State.mailHere
  extract_lets
  split
  rename_i s₁ _ _ hv
  have h₁ : FormKept s₁ := by
    refine FormKept.fst_of_eq (FormKept.foldlFst h fun p _ hp => ?_) hv
    obtain ⟨s, ids, bad⟩ := p
    dsimp only
    split
    exacts [FormKept.noteWalk hp, FormKept.partAcc hp]
  extract_lets s₂
  have h₂ : FormKept s₂ := by
    unfold s₂
    split
    exacts [h₁.mailFault, h₁]
  clear_value s₂
  split
  exacts [h₂.partAcc, h₂.noteWalk.logError.mailFault]

theorem FormKept.mailAway {c : Nat} {m : Mail} {parts : List (List Byte)} (h : FormKept s) :
    FormKept (s.mailAway c m parts) :=
  (h.frame.foldl fun _ _ h1 => h1.sendFlit).sendFlit

theorem FormKept.sendMail {c tid : Nat} {b : Box} {bytes : List Byte} (h : FormKept s) :
    FormKept (s.sendMail c tid b bytes) :=
  .ite h.putBox.mailHere h.putBox.mailAway

theorem FormKept.execMbsend {w : BitVec 1} {d a : BitVec 7} (h : FormKept s) :
    OutKept (Machine.execMbsend w d a s) := by
  unfold Machine.execMbsend
  refine h.issue fun _ _ _ _ h1 => ?_
  extract_lets
  split
  · trivial
  split
  · trivial
  split
  · trivial
  split
  · exact h1.noteTlb.noteTlb.queueTrap
  split
  · trivial
  refine ActKept.whenLines ?_
  split
  extract_lets
  split
  exacts [h1.noteTlb.noteTlb.sendMail.queueTrap, h1.noteTlb.noteTlb.sendMail]

theorem FormKept.releaseSlot {c : Nat} {b : Box} {tail : Word} {after : List Nat} (h : FormKept s) :
    FormKept (s.releaseSlot c b tail after) := by
  unfold State.releaseSlot
  extract_lets
  split
  · split
    exacts [h.partAcc, h.noteWalk.logError]
  · exact h.sendFlit

theorem FormKept.takeMail {c : Nat} {b : Box} {after : List Nat} (h : FormKept s) : FormKept (s.takeMail c b after) :=
  ((FormKept.ite h.releaseSlot h).putBox).putBox

theorem FormKept.execMbrecv {w : BitVec 1} {d a : BitVec 7} (h : FormKept s) :
    OutKept (Machine.execMbrecv w d a s) := by
  unfold Machine.execMbrecv
  refine h.issue fun _ _ _ _ h1 => ?_
  extract_lets
  split
  · trivial
  split
  · trivial
  extract_lets
  split
  · trivial
  split
  · exact h1.noteTlb.queueTrap
  · trivial
  split
  · trivial
  split
  · trivial
  split
  · trivial
  refine ActKept.whenLines ?_
  exact h1.noteTlb.takeMail

theorem FormKept.execMbpoll {w : BitVec 1} {d a : BitVec 7} (h : FormKept s) :
    OutKept (Machine.execMbpoll w d a s) := by
  unfold Machine.execMbpoll
  refine h.issue fun _ _ _ _ h1 => ?_
  extract_lets
  split
  · trivial
  split
  · trivial
  extract_lets
  split
  · trivial
  split
  · exact h1.noteTlb.queueTrap
  · trivial
  split
  exacts [trivial, h1.noteTlb]

theorem FormKept.trput {w : BitVec 1} {v : BitVec 5} {op ty : Nat} (h : FormKept s) :
    OutKept (Machine.trput w v op ty s) := by
  unfold Machine.trput
  refine h.issue fun _ _ _ _ h1 => ?_
  extract_lets
  split
  · trivial
  split
  exacts [trivial, h1.injectOperand.modThread]

theorem FormKept.execTrget {w : BitVec 1} {v : BitVec 5} (h : FormKept s) : OutKept (Machine.execTrget w v s) := by
  unfold Machine.execTrget
  refine h.issue fun _ _ _ _ h1 => ?_
  extract_lets
  split
  · trivial
  split
  · trivial
  split
  · trivial
  split
  exacts [trivial, h1.takeResult.modThread]

theorem FormKept.deliverResult {c : Nat} {r : CanopyResult} (h : FormKept s) : FormKept (s.deliverResult c r) :=
  h.modCore

theorem FormKept.combineRound {g : Nat} (h : FormKept s) : OnSome FormKept (s.combineRound g) := by
  unfold State.combineRound
  split
  · trivial
  extract_lets r ops xs
  clear_value r ops xs
  split
  · trivial
  split
  · trivial
  extract_lets _ _ _ s₁
  have h₁ : FormKept s₁ := h.foldl fun _ _ h => h.modCore.deliverResult
  clear_value s₁
  exact h₁.frame

theorem FormKept.canopyRound {g : Nat} (h : FormKept s) : OnSome FormKept (s.canopyRound g) := by
  unfold State.canopyRound
  split
  exacts [h.modCore.deliverResult, h.combineRound]

theorem FormKept.putArrival {a : Arrival} (h : FormKept s) : FormKept (s.putArrival a) :=
  h.frame

theorem FormKept.dropArrival {a : Arrival} (h : FormKept s) : FormKept (s.dropArrival a) :=
  h.frame

theorem FormKept.report {a : Arrival} {code : Nat} {addr : Word} (h : FormKept s) : FormKept (s.report a code addr) :=
  h.sendFlit

theorem FormKept.finishMail {a : Arrival} (h : FormKept s) : FormKept (s.finishMail a) := by
  unfold State.finishMail
  extract_lets
  split
  · extract_lets
    split
    exacts [h.writeAt.report, h.writeAt]
  · exact h.noteWalk.logError.report

theorem FormKept.finishCopy {a : Arrival} (h : FormKept s) : FormKept (s.finishCopy a) := by
  unfold State.finishCopy
  split
  · exact h.report
  split
  · exact h.report
  split
  exacts [.ite h.report h.addAt.report, h.noteWalk.report]

theorem FormKept.endArrivals {fuel : Nat} (h : FormKept s) : FormKept (s.endArrivals fuel) := by
  induction fuel generalizing s with
  | zero => exact h
  | succ n ih =>
    unfold State.endArrivals
    split
    · exact h
    split
    · exact ih h.invalidate
    · refine ih ?_
      split
      exacts [h.dropArrival.finishMail, h.dropArrival.finishCopy]

theorem FormKept.settleArrivals (h : FormKept s) : FormKept (s.settleArrivals) :=
  h.endArrivals

theorem FormKept.finishArrival {a : Arrival} (h : FormKept s) : FormKept (s.finishArrival a) :=
  h.putArrival.settleArrivals

theorem FormKept.arrivalDone {id : Nat} (h : FormKept s) : FormKept (s.arrivalDone id) := by
  unfold State.arrivalDone
  split
  exacts [h, h.finishArrival]

theorem FormKept.landBytes {a : Arrival} {addr : Word} {bs : List (Byte × Bool)} (h : FormKept s) :
    FormKept (s.landBytes a addr bs) := by
  unfold State.landBytes
  extract_lets
  split
  · exact h.finishArrival
  split
  · extract_lets _ s₁
    have h₁ : FormKept s₁ := h.noteWalk
    clear_value s₁
    split
    · exact h₁.finishArrival
    · refine FormKept.finishArrival ?_
      exact h₁.frame
  · extract_lets
    exact FormKept.finishArrival (FormKept.foldlFst h fun _ _ h => h.partAcc)

theorem FormKept.execRemoteCopyData {f : Flit} (h : FormKept s) : OutKept (Machine.execRemoteCopyData f s) :=
  OutKept.partStep (h.arrive fun _ h => h.landBytes)

theorem FormKept.execRemoteCopyCompletionRequest {f : Flit} (h : FormKept s) :
    OutKept (Machine.execRemoteCopyCompletionRequest f s) :=
  OutKept.partStep (h.arrive fun _ h => h.finishArrival)

theorem FormKept.mailReport {f : Flit} (h : FormKept s) : FormKept (s.mailReport f) := by
  unfold State.mailReport
  split
  exacts [h, .ite h.frame.logError.mailFault h.frame.mailFault]

theorem FormKept.execRemoteCopyReport {f : Flit} (h : FormKept s) : OutKept (Machine.execRemoteCopyReport f s) := by
  unfold Machine.execRemoteCopyReport
  refine OutKept.partStep (h.arrive fun _ h => ?_)
  split
  · exact h.mailReport
  split
  · exact h
  split
  exacts [h.modOp, h.execFault]

theorem FormKept.execMailboxPayload {f : Flit} (h : FormKept s) : OutKept (Machine.execMailboxPayload f s) :=
  OutKept.partStep (h.arrive fun _ h => h.landBytes)

theorem FormKept.execMailboxSequenceWord {f : Flit} (h : FormKept s) : OutKept (Machine.execMailboxSequenceWord f s) :=
  OutKept.partStep (h.arrive fun _ h => h.finishArrival)

theorem FormKept.execSlotReleaseNotice {f : Flit} (h : FormKept s) : OutKept (Machine.execSlotReleaseNotice f s) := by
  unfold Machine.execSlotReleaseNotice
  refine OutKept.partStep (h.arrive fun _ h => ?_)
  extract_lets s₁
  have h₁ : FormKept s₁ := h.frame
  clear_value s₁
  split
  exacts [h₁.partAcc, h₁.noteWalk.logError]

theorem FormKept.execBulkData {f : Flit} (h : FormKept s) : OutKept (Machine.execBulkData f s) := by
  unfold Machine.execBulkData
  refine OutKept.partStep (h.arrive fun _ h => ?_)
  split
  exacts [h.noteWalk.sendFlit, FormKept.foldlFst h fun _ _ h => h.partAcc]

theorem FormKept.execCanopyRound {g : Nat} (h : FormKept s) : OutKept (Machine.execCanopyRound g s) := by
  unfold Machine.execCanopyRound
  apply OutKept.partStep
  split
  exacts [h.canopyRound, trivial]

theorem FormKept.countPoison {p : Nat × Nat} (h : FormKept s) : FormKept (s.countPoison p) :=
  h.logError

theorem FormKept.shipFlit {f : Flit} (h : FormKept s) : FormKept (s.shipFlit f) := by
  unfold State.shipFlit
  split
  · split
    · next hv1 => exact (h.numbered.of_eq hv1).frame
  · exact h.sendFlit

theorem FormKept.openReplica {e : Elem} (h : FormKept s) : FormKept (s.openReplica e) :=
  .ite h (((h.foldl fun _ _ h1 => .ite h1 h1.vputWord).modReplica).modReplica)

theorem FormKept.watchObjects (h : FormKept s) : FormKept (s.watchObjects) :=
  (h.foldl fun _ _ h1 => by
    split
    · exact .ite h1.noteSot.closeObject h1
    · exact (h1.foldl fun _ _ h2 => by
    split
    exacts [h2.openReplica, h2]))

theorem FormKept.settleLift {e : Elem} (h : FormKept s) : FormKept (s.settleLift e) := by
  unfold State.settleLift
  split
  exacts [.ite h.modReplica h, h]

theorem FormKept.cutSend {x die j : Nat} (h : FormKept s) : OnSome FormKept (s.cutSend x die j) := by
  unfold State.cutSend
  split
  · trivial
  split
  · trivial
  split
  split
  · trivial
  extract_lets
  split
  · exact h.openReplica.vputWord.countPoison
  exact h.openReplica.vputWord.foldl fun _ _ h1 => h1.shipFlit

theorem FormKept.serve {x die j : Nat} (h : FormKept s) : FormKept (s.serve x die j) :=
  .ite h h.modReplica

theorem FormKept.execCutSend {sotx die peer : Nat} (h : FormKept s) : OutKept (Machine.execCutSend sotx die peer s) :=
  OutKept.partStep (h.cutSend.map fun _ h => h.serve)

theorem FormKept.joinPage {e : Elem} {p : Nat} {ds : List Dot} {vvs : Nat → Nat} (h : FormKept s) :
    OnSome (fun e => FormKept e.1) (s.joinPage e p ds vvs) := by
  unfold State.joinPage
  extract_lets
  split
  · exact h
  split
  exacts [h.deletePage, h.putPage.map fun _ h => h]

theorem FormKept.joinUnit {e : Elem} {u : Nat} {bs : List Byte} {vv : List Word} (h : FormKept s) :
    FormKept (s.joinUnit e u bs vv).1 := by
  unfold State.joinUnit
  extract_lets _ _ write _ _ s₁ _ _ _
  have h₁ : FormKept s₁ := .ite h.frame h
  have hwrite : ∀ s new, FormKept s → FormKept (write s new) :=
    fun _ _ h => FormKept.foldlFst h fun _ _ h => h.vput
  clear_value write
  split
  · split
    exacts [hwrite _ _ h, h]
  · exact .ite (hwrite _ _ h) h
  · exact .ite (hwrite _ _ h₁) h₁
  · exact .ite (hwrite _ _ h) h
  · refine FormKept.foldlFst h fun p _ hp => ?_
    obtain ⟨s, ch, full⟩ := p
    dsimp only
    split
    · exact hp
    split
    · next hv => exact OnSome.of_eq (p := fun e => FormKept e.1) (FormKept.joinPage hp) hv
    · exact hp

theorem FormKept.evaluateMember {e : Elem} {m : Nat} (h : FormKept s) : FormKept (s.evaluateMember e m) :=
  .ite h.setMember (.ite h.setMember h)

theorem FormKept.evaluateMembers {e : Elem} (h : FormKept s) : FormKept (s.evaluateMembers e) :=
  (h.foldl fun _ _ h1 => h1.evaluateMember).settleLift

theorem FormKept.hearMember {e : Elem} {m : Nat} {beat : Word} (h : FormKept s) : FormKept (s.hearMember e m beat) :=
  .ite (FormKept.ite h.vputWord h) (.ite h (.ite h.vputWord.modReplica.setMember h.vputWord.modReplica))

theorem FormKept.applyMarker {e : Elem} {r : Nat} {ws : List Word} (h : FormKept s) : FormKept (s.applyMarker e r ws) :=
  ((((h.foldl fun _ _ h1 => h1.raiseWord).foldl fun _ _ h2 => h2.foldl fun _ _ h3 => h3.raiseWord).foldl
    fun _ _ h4 => h4.hearMember).recomputeF).evaluateMembers

theorem FormKept.putCut {e : Elem} {g : Nat} {c : Cut} (h : FormKept s) : FormKept (s.putCut e g c) :=
  h.modReplica

theorem FormKept.stopCut {e : Elem} {g : Nat} (h : FormKept s) : FormKept (s.stopCut e g) :=
  h.putCut

theorem FormKept.openCut {e : Elem} {g tag : Nat} {bs : List Byte} (h : FormKept s) : FormKept (s.openCut e g tag bs) :=
  .ite h.logError.stopCut (.ite h.stopCut h.modReplica.putCut)

theorem FormKept.takeUnit {e : Elem} {g : Nat} {c : Cut} {u : Nat} {bs : List Byte} (h : FormKept s) :
    FormKept (s.takeUnit e g c u bs) := by
  unfold State.takeUnit
  split
  · exact h.stopCut
  split
  · exact h.countPoison.stopCut
  split
  rename_i hv1
  extract_lets
  split
  exacts [((FormKept.ite ((h.joinUnit.fst_of_eq hv1).bumpCsn) (h.joinUnit.fst_of_eq hv1)).logError).stopCut,
    (FormKept.ite ((h.joinUnit.fst_of_eq hv1).bumpCsn) (h.joinUnit.fst_of_eq hv1)).putCut]

theorem FormKept.closeCut {e : Elem} {g : Nat} {c : Cut} {f : Flit} {bs : List Byte} (h : FormKept s) :
    FormKept (s.closeCut e g c f bs) := by
  unfold State.closeCut
  split
  · exact h.stopCut
  split
  · refine FormKept.stopCut ?_
    cases s.markerPoison e with
    | none => exact h
    | some p => exact h.countPoison
  · exact (h.foldl fun _ _ h => h.raiseWord).applyMarker.stopCut.shipFlit

theorem FormKept.takeCut {f : Flit} (h : FormKept s) : FormKept (s.takeCut f) := by
  unfold State.takeCut
  extract_lets
  split
  · exact h.noteSot
  split
  exacts [.ite h.noteSot.logError h.noteSot,
    .ite h.noteSot.openReplica.stopCut (.ite h.noteSot.openReplica.stopCut
      (.ite h.noteSot.openReplica.putCut (.ite h.noteSot.openReplica.openCut (.ite h.noteSot.openReplica.takeUnit h.noteSot.openReplica.closeCut))))]

theorem FormKept.takeAck {f : Flit} (h : FormKept s) : FormKept (s.takeAck f) := by
  unfold State.takeAck
  split
  exacts [h, (h.foldl fun _ _ h1 => h1.raiseWord).settleLift]

theorem FormKept.arriveCut {f : Flit} {kind : Nat} {k : State → Flit → State} (h : FormKept s)
    (hk : ∀ s f, FormKept s → FormKept (k s f)) : OnSome FormKept (s.arriveCut f kind k) := by
  unfold State.arriveCut
  split
  · split
    exacts [hk _ _ h.frame, trivial]
  · exact h.arrive fun _ h => hk _ _ h

theorem FormKept.execCutHeader {f : Flit} (h : FormKept s) : OutKept (Machine.execCutHeader f s) :=
  OutKept.partStep (h.arriveCut fun _ _ h => h.takeCut)

theorem FormKept.execCutUnit {f : Flit} (h : FormKept s) : OutKept (Machine.execCutUnit f s) :=
  OutKept.partStep (h.arriveCut fun _ _ h => h.takeCut)

theorem FormKept.execCutMarker {f : Flit} (h : FormKept s) : OutKept (Machine.execCutMarker f s) :=
  OutKept.partStep (h.arriveCut fun _ _ h => h.takeCut)

theorem FormKept.execCutAcknowledgement {f : Flit} (h : FormKept s) : OutKept (Machine.execCutAcknowledgement f s) :=
  OutKept.partStep (h.arriveCut fun _ _ h => h.takeAck)

theorem FormKept.execMembershipEvaluation {sotx die : Nat} (h : FormKept s) :
    OutKept (Machine.execMembershipEvaluation sotx die s) := by
  unfold Machine.execMembershipEvaluation
  apply OutKept.partStep
  split
  · split
    exacts [h.noteSot, trivial]
  split
  exacts [h.openReplica.evaluateMembers.serve, trivial]

theorem FormKept.execSilenceExpiry {sotx die member : Nat} (h : FormKept s) :
    OutKept (Machine.execSilenceExpiry sotx die member s) := by
  unfold Machine.execSilenceExpiry
  apply OutKept.partStep
  split
  · trivial
  extract_lets
  split
  exacts [trivial, h.setMember.evaluateMembers]

theorem FormKept.execRshipBoundExpiry {sotx die : Nat} (h : FormKept s) :
    OutKept (Machine.execRshipBoundExpiry sotx die s) := by
  unfold Machine.execRshipBoundExpiry
  apply OutKept.partStep
  split
  · split
    exacts [h.modReplica, trivial]
  · trivial

theorem FormKept.setHandlerCsr {tid : Nat} {t : Thread} {n : Nat} {x : Word} (h : FormKept s) :
    FormKept (s.setHandlerCsr tid t n x) := by
  unfold State.setHandlerCsr
  extract_lets
  split
  exacts [h.modThread, h, h.modThread, h.modThread, h.modThread, h.modThread]

theorem FormKept.writeCsr {tid : Nat} {t : Thread} {n : Nat} {x : Word} (h : FormKept s) :
    FormKept (s.writeCsr tid t n x) := by
  unfold State.writeCsr
  extract_lets
  split
  · exact h.modThread
  split
  · split
    exacts [h.modThread, h]
  · exact .ite h.setHandlerCsr h.modCore

theorem FormKept.execCsrrd {w : BitVec 1} {d : BitVec 7} {c n : BitVec 6} (h : FormKept s) :
    OutKept (Machine.execCsrrd w d c n s) := by
  unfold Machine.execCsrrd
  extract_lets
  refine h.issue fun _ _ _ _ h => ?_
  extract_lets
  split
  next hv =>
    refine FormKept.of_eq ?_ hv
    split
    exacts [h.timeValue, h]

theorem FormKept.csrWrite {w : BitVec 1} {d : BitVec 7} {c n : BitVec 6} {f : Word → Word → Word} (h : FormKept s) :
    OutKept (Machine.csrWrite w d c n f s) := by
  unfold Machine.csrWrite
  extract_lets
  refine h.issue fun _ _ _ _ h1 => ?_
  split
  exacts [h1.writeCsr, h1]

theorem FormKept.execTrap {w : BitVec 1} {c : BitVec 6} (h : FormKept s) : OutKept (Machine.execTrap w c s) := by
  unfold Machine.execTrap
  exact h.issue fun _ _ _ _ h1 => h1.enterTrap

theorem FormKept.execEret {w : BitVec 1} (h : FormKept s) : OutKept (Machine.execEret w s) := by
  unfold Machine.execEret
  refine h.issue fun _ _ _ _ h1 => ?_
  split
  exacts [h1.count.returnFrom, trivial]

theorem FormKept.execUiret {w : BitVec 1} (h : FormKept s) : OutKept (Machine.execUiret w s) := by
  unfold Machine.execUiret
  refine h.issue fun _ _ _ _ h1 => ?_
  split
  exacts [trivial, h1.modThread]

theorem FormKept.execBkpt {w : BitVec 1} (h : FormKept s) : OutKept (Machine.execBkpt w s) := by
  unfold Machine.execBkpt
  refine h.issue fun _ _ _ _ h1 => ?_
  split
  exacts [h1.settle.modThread, trivial]

theorem FormKept.dropTlbs {c scope : Nat} {page : Option Word} (h : FormKept s) :
    FormKept (s.dropTlbs c scope page).1 := by
  unfold State.dropTlbs
  extract_lets
  exact h.frame

theorem FormKept.tlbInvalidate {w : BitVec 1} {u : Use} {scope : Nat} {page : List Word → Option Word}
    (h : FormKept s) :
    OutKept (Machine.invalidate w u scope page s) := by
  unfold Machine.invalidate
  refine h.issue fun _ _ _ _ h => ?_
  extract_lets _ s₁
  have h₁ : FormKept s₁ := h.frame
  clear_value s₁
  split
  exacts [trivial, FormKept.modThread (FormKept.retire h₁.dropTlbs)]

end Sys2Proof.Claim
end

section
/-! The form kept. Placement, the schedulers, and the steps of the units and links. -/
namespace Sys2Proof.Claim
open Machine
set_option Elab.async false
variable {s t a b : State}

theorem FormKept.startHandler {c j lnum stage : Nat} {system : Bool} {pc : Word} {regs : List Word} {v : List Vec}
    {hsel : Word} {job : HandlerFor}
    (h : FormKept s) :
    FormKept (s.startHandler c j lnum stage system pc regs v hsel job) :=
  h.addThread

theorem FormKept.handlerStart {c j : Nat} (h : FormKept s) : OnSome FormKept (s.handlerStart c j) := by
  unfold State.handlerStart
  extract_lets
  split
  · trivial
  split
  · trivial
  extract_lets
  split
  · split
    · exact h.modSlot
    split
    · exact h.modSlot
    split
    · trivial
    extract_lets
    exact h.modSlot.startHandler
  · exact h.modSlot.startHandler
  split
  · exact h.modSlot
  extract_lets
  exact FormKept.ite h.modSlot.startHandler.queueTrap h.modSlot.startHandler

theorem FormKept.execHandlerStart {core slot : Nat} (h : FormKept s) :
    OutKept (Machine.execHandlerStart core slot s) := by
  unfold Machine.execHandlerStart
  exact OutKept.partStep h.handlerStart

theorem FormKept.settleClaims {c : Nat} (h : FormKept s) : FormKept (s.settleClaims c) :=
  .ite h h.modCore

theorem FormKept.restoreBand {c b n : Nat} (h : FormKept s) : FormKept (s.restoreBand c b n) := by
  unfold State.restoreBand
  split
  exacts [h, h.copyBand.modCore]

theorem FormKept.saveBand {c b m : Nat} (h : FormKept s) : OnSome FormKept (s.saveBand c b m) := by
  unfold State.saveBand
  split
  exacts [trivial, h.copyBand.modCore]

theorem FormKept.acquireBand {c n b : Nat} (h : FormKept s) : OnOk FormKept (s.acquireBand c n b) := by
  unfold State.acquireBand
  extract_lets
  split
  · exact h.modCore.restoreBand
  split
  · trivial
  split
  · next hv1 => exact ((h.saveBand.of_eq hv1).modCore).restoreBand
  · trivial

theorem FormKept.acquireBands {c n count : Nat} (h : FormKept s) : OnOk FormKept (s.acquireBands c n count) :=
  List.foldlRecOn (motive := OnOk FormKept) _ _ h fun o ho b _ => by
    split
    exacts [trivial, FormKept.acquireBand ho]

theorem FormKept.restoreBanks {c tid : Nat} {t : Thread} (h : FormKept s) : OnOk FormKept (s.restoreBanks c tid t) :=
  List.foldlRecOn (motive := OnOk FormKept) _ _ h fun o ho b _ => by
    split
    · trivial
    split
    · exact ho
    split
    exacts [trivial, FormKept.modCore (FormKept.loadBank ho)]

theorem FormKept.settleIn {tid : Nat} {t u : Thread} {c j p : Nat} {win : Nat × Nat} (h : FormKept s) :
    FormKept (s.settleIn tid t u c j p win) := by
  unfold State.settleIn
  extract_lets _ _ s₁ _ _ _ s₂ s₃ s₄ s₅
  have h₁ : FormKept s₁ := by
    unfold s₁
    split
    exacts [h.modCore, h]
  have h₄ : FormKept s₄ := h₁.setThread.modSlot.modCore
  have h₅ : FormKept s₅ := by
    unfold s₅
    split
    exacts [.ite h₄ h₄.setLaunch.writeWord16, h₄]
  clear_value s₅
  split
  · exact h₅.modThread
  · exact .ite h₅.resumeAt.enterTrap h₅.resumeAt

theorem FormKept.tryPlace {tid c j p : Nat} (h : FormKept s) : OnOk FormKept (s.tryPlace tid c j p) := by
  unfold State.tryPlace
  split
  · trivial
  split
  · trivial
  split
  · trivial
  extract_lets
  split
  · trivial
  split
  · trivial
  rename_i hv1
  split
  · trivial
  · next hv2 => exact (((h.acquireBands.of_eq hv1).restoreBanks).of_eq hv2).settleIn

theorem FormKept.bringDown {c : Nat} (h : FormKept s) : FormKept (s.bringDown c) := by
  unfold State.bringDown
  extract_lets
  split
  · exact h
  split
  exacts [h, h.frame.modCore]

theorem FormKept.takeOut {v : Victim} {tid : Nat} (h : FormKept s) : FormKept (s.takeOut v tid) := by
  unfold State.takeOut
  extract_lets
  split
  exacts [h.modCore, h.frame, h.frame, h.frame]

theorem FormKept.fillFor {c j : Nat} (h : FormKept s) : FormKept (s.fillFor c j) :=
  .ite h h.bringDown

theorem FormKept.findMt {c j : Nat} (h : FormKept s) : OnSome (fun e => FormKept e.2) (s.findMt c j) := by
  unfold State.findMt
  extract_lets
  split
  · exact h.modCore
  split
  · exact h.fillFor.takeOut
  split
  exacts [h.fillFor.takeOut.count, trivial]

theorem FormKept.placement {c j p : Nat} (h : FormKept s) : OnSome FormKept (s.placement c j p) := by
  unfold State.placement
  split
  · trivial
  extract_lets bound filled brought options placed logged
  have hfilled : FormKept filled := h.fillFor
  have hbound : ∀ e ∈ bound, FormKept e.2 := by
    intro e he
    obtain ⟨_, -, rfl⟩ := List.mem_map.mp he
    exact h
  have hoptions : ∀ e ∈ options, FormKept e.2 := by
    intro e he
    rcases List.mem_append.mp he with he | he
    · rcases List.mem_append.mp he with he | he
      · exact hbound e he
      · split at he
        · obtain ⟨_, -, rfl⟩ := List.mem_map.mp he
          exact hfilled
        · exact absurd he List.not_mem_nil
    · exact h.findMt.of_eq (Option.mem_toList.mp he)
  have hplaced : ∀ q ∈ placed, FormKept q := by
    intro q hq
    obtain ⟨e, he, hq⟩ := List.mem_filterMap.mp hq
    split at hq
    · next hv =>
      obtain rfl : _ = q := by
        split at hq
        exacts [absurd hq (Option.some_ne_none q).symm, Option.some.inj hq]
      exact (hoptions e he).tryPlace.of_eq hv
    · exact absurd hq (Option.some_ne_none q).symm
  have hlogged : OnSome FormKept logged := OnSome.findSome? fun e => by
    split
    · split
      exacts [OnSome.ite trivial hfilled.logSlotWait, trivial]
    · trivial
  clear_value placed logged filled
  split
  · next hq => exact hplaced _ (List.mem_of_getElem? hq)
  · split
    exacts [hfilled, hlogged]

theorem FormKept.execThreadPlacement {core slot pos : Nat} (h : FormKept s) :
    OutKept (Machine.execThreadPlacement core slot pos s) := by
  unfold Machine.execThreadPlacement
  exact OutKept.partStep h.placement

theorem FormKept.preemptSlot {c j : Nat} (h : FormKept s) : FormKept (s.preemptSlot c j) :=
  h.foldl fun _ _ h1 => h1.askPreempt

theorem FormKept.setNotify {q : Nat} (h : FormKept s) : FormKept (s.setNotify q) :=
  h.wrWord.frame

theorem FormKept.noteLost {c : Nat} {lost : List Nat} (h : FormKept s) : FormKept (s.noteLost c lost) :=
  (h.foldl fun _ _ h1 => by
    split
    · next hv2 => exact .ite ((h1.fresh.of_eq hv2).setNotify) (h1.fresh.of_eq hv2))

theorem FormKept.noteGains {old : State} (h : FormKept s) : FormKept (s.noteGains old) :=
  (h.foldl fun _ _ h1 => h1.foldl fun _ _ h2 => by
    split
    · split
      · next hv3 => exact .ite ((h2.fresh.of_eq hv3).setNotify) (h2.fresh.of_eq hv3)
    · exact h2)

theorem FormKept.noteUrgent (h : FormKept s) : FormKept (s.noteUrgent) :=
  .ite h (h.foldl fun _ _ h1 => .ite h1 h1.modCore)

theorem FormKept.passNotify {c : Nat} (h : FormKept s) : FormKept (s.passNotify c) :=
  h.foldl fun _ _ h1 => .ite h1.frame (.ite h1.wrWord.frame h1.frame)

theorem FormKept.claimBands {c : Nat} (h : FormKept s) : FormKept (s.claimBands c) :=
  h.foldl fun _ _ h1 => h1.modCore.foldl fun _ _ h2 => h2.askPreempt

theorem FormKept.shareTo {c : Nat} {new : List Nat} (h : FormKept s) : FormKept (s.shareTo c new) :=
  (h.modCore.noteLost.foldl fun _ _ h1 => h1.preemptSlot).record

theorem FormKept.shareNow {c : Nat} (h : FormKept s) : FormKept (s.shareNow c) :=
  h.shareTo

theorem FormKept.closeShare {c : Nat} (h : FormKept s) : FormKept (s.closeShare c) :=
  h.modCore.claimBands

theorem FormKept.execShareComputation {core : Nat} (h : FormKept s) :
    OutKept (Machine.execShareComputation core s) := by
  unfold Machine.execShareComputation
  apply OutKept.partStep
  split
  exacts [h.passNotify.shareNow.closeShare, trivial]

theorem FormKept.execUrgentShareComputation {core : Nat} (h : FormKept s) :
    OutKept (Machine.execUrgentShareComputation core s) := by
  unfold Machine.execUrgentShareComputation
  apply OutKept.partStep
  split
  exacts [h.shareNow, trivial]

theorem FormKept.execPreemption {tid : Nat} (h : FormKept s) : OutKept (Machine.execPreemption tid s) := by
  unfold Machine.execPreemption
  apply OutKept.partStep
  split
  · trivial
  split
  exacts [h.preemptNow, trivial]

theorem FormKept.execPreemptionGraceExpiry {tid : Nat} (h : FormKept s) :
    OutKept (Machine.execPreemptionGraceExpiry tid s) := by
  unfold Machine.execPreemptionGraceExpiry
  apply OutKept.partStep
  split
  · trivial
  split
  exacts [h.preemptForced, trivial]

theorem FormKept.readyNow {tid : Nat} (h : FormKept s) : OnSome FormKept (s.readyNow tid) := by
  unfold State.readyNow
  split
  · trivial
  extract_lets keep
  have hkeep : ∀ s g, FormKept s → OnSome FormKept (keep s g) := fun _ _ h => FormKept.modThread h
  clear_value keep
  split
  · trivial
  split
  · split
    exacts [h.takeGrip, trivial]
  · split
    exacts [hkeep _ _ h.modCore, trivial]
  · extract_lets
    split
    exacts [trivial, hkeep _ _ h.modCore]
  · trivial

theorem FormKept.settleWaits (h : FormKept s) : FormKept (s.settleWaits) :=
  h.foldl fun _ _ h1 => h1.readyNow.getD h1

theorem FormKept.execWaitLimitExpiry {tid : Nat} (h : FormKept s) : OutKept (Machine.execWaitLimitExpiry tid s) := by
  unfold Machine.execWaitLimitExpiry
  apply OutKept.partStep
  split
  · trivial
  split
  · trivial
  split
  · trivial
  extract_lets
  exact h.record.enterTrap

theorem FormKept.execAsyncTrapDelivery {tid : Nat} (h : FormKept s) :
    OutKept (Machine.execAsyncTrapDelivery tid s) := by
  unfold Machine.execAsyncTrapDelivery
  apply OutKept.partStep
  split
  · trivial
  split
  · trivial
  split
  exacts [trivial, h.setThread.enterTrap]

theorem FormKept.execUintDelivery {tid : Nat} (h : FormKept s) : OutKept (Machine.execUintDelivery tid s) := by
  unfold Machine.execUintDelivery
  apply OutKept.partStep
  split
  · trivial
  split
  · trivial
  split
  · trivial
  extract_lets
  split
  exacts [h.settle.withdraw.modThread.enterTrap, h.settle.withdraw.modThread.modThread]

theorem FormKept.execMtArrival {tid : Nat} (h : FormKept s) : OutKept (Machine.execMtArrival tid s) := by
  unfold Machine.execMtArrival
  apply OutKept.partStep
  split
  · trivial
  split
  exacts [trivial, h.setThread.pushRun.count]

theorem FormKept.execLaunchInboxCompletion {lnum : Nat} (h : FormKept s) :
    OutKept (Machine.execLaunchInboxCompletion lnum s) := by
  unfold Machine.execLaunchInboxCompletion
  apply OutKept.partStep
  split
  · trivial
  extract_lets
  split
  exacts [trivial, h.frame.putPacket]

theorem FormKept.partMail {core : Nat} {w : Who} {a : Word} {bytes : List Byte} {fail : TrapRec → State}
    (h : FormKept s)
    (hf : ∀ e, FormKept (fail e)) : OnSome FormKept (s.partMail core w a bytes fail) := by
  unfold State.partMail
  split
  · trivial
  split
  · exact hf _
  split
  · exact hf _
  split
  exacts [trivial, h.sendMail]

theorem FormKept.execLaunchMailboxCompletion {lnum : Nat} (h : FormKept s) :
    OutKept (Machine.execLaunchMailboxCompletion lnum s) := by
  unfold Machine.execLaunchMailboxCompletion
  apply OutKept.partStep
  split
  · trivial
  split
  · trivial
  extract_lets _ r
  have hr : FormKept r := h.frame
  clear_value r
  exact hr.partMail fun _ => hr.noteWalk.logError

theorem FormKept.moveThread {tid : Nat} (h : FormKept s) : FormKept (s.moveThread tid) := by
  unfold State.moveThread
  extract_lets
  split
  exacts [h.modThread, .ite h.modThread.restartThread h.modThread]

theorem FormKept.moveCore {n c donor k : Nat} (h : FormKept s) : FormKept (s.moveCore n c donor k) := by
  unfold State.moveCore
  split
  exacts [h, (h.setLaunch.count.record.foldl fun _ _ h1 => h1.moveThread).finishMove]

theorem FormKept.balance {n fuel : Nat} {d : Tab Nat} (h : FormKept s) : FormKept (s.balance n fuel d) := by
  induction fuel generalizing s d with
  | zero => exact h
  | succ k ih =>
    unfold State.balance
    split
    · exact h
    extract_lets _ _ _ _ _ raised drained
    clear_value raised drained
    split
    · split
      exacts [h, ih h.moveCore]
    · exact h

theorem FormKept.execStageBalancer {lnum : Nat} (h : FormKept s) : OutKept (Machine.execStageBalancer lnum s) := by
  unfold Machine.execStageBalancer
  apply OutKept.partStep
  split
  · trivial
  extract_lets
  split
  exacts [trivial, (FormKept.ite h h.balance).modLaunch]

theorem FormKept.whenFree {a : Access} {go : Option State} (h : FormKept s) (hgo : OnSome FormKept go) :
    OnSome FormKept (s.whenFree a go) :=
  OnSome.ite (h.atLine hgo) hgo

theorem FormKept.execDeferredResultReturn {acc : Nat} (h : FormKept s) :
    OutKept (Machine.execDeferredResultReturn acc s) := by
  unfold Machine.execDeferredResultReturn
  apply OutKept.partStep
  split
  · trivial
  split
  · trivial
  refine h.whenFree ?_
  split
  · split
    exacts [trivial, h.dropAcc.armNow]
  · split
    exacts [h.dropAcc.readRow, trivial]
  · exact h.perform

theorem FormKept.pruneTrailing {c : Nat} (h : FormKept s) : FormKept (s.pruneTrailing c) :=
  .ite h h.modCore

theorem FormKept.performUnit {a : Access} (h : FormKept s) : OnSome FormKept (s.performUnit a) := by
  unfold State.performUnit
  split
  · split
    · next hv1 => exact FormKept.ite (((h.writeSome.fst_of_eq hv1).dropAcc).arrivalDone) (h.writeSome.fst_of_eq hv1)
  split
  exacts [h.performPiece, trivial]

theorem FormKept.execHomeWrite {acc : Nat} (h : FormKept s) : OutKept (Machine.execHomeWrite acc s) := by
  unfold Machine.execHomeWrite
  apply OutKept.partStep
  split
  · trivial
  split
  · trivial
  refine h.whenFree (OnSome.map (p := FormKept) ?_ fun _ h => h.pruneTrailing)
  split
  exacts [h.performUnit, h.perform.arrivalDone]

theorem FormKept.memoryError {k : Nat} {symbol : Option Nat} (h : FormKept s) : OutKept (s.memoryError k symbol) := by
  unfold State.memoryError
  apply OutKept.partStep
  split
  · trivial
  cases s.storedAt k with
  | none => trivial
  | some c =>
    dsimp only [Option.map_some]
    split
    exacts [h.logError, h.setPoison]

theorem FormKept.execDirectoryOverflow {line : Nat} (h : FormKept s) :
    OutKept (Machine.execDirectoryOverflow line s) := by
  unfold Machine.execDirectoryOverflow
  apply OutKept.partStep
  split
  · trivial
  cases s.lineHome line with
  | none => trivial
  | some c => exact FormKept.queueHandler (s := { s with overflowed := _ }) h.frame

theorem FormKept.execCopyStart {core op : Nat} (h : FormKept s) : OutKept (Machine.execCopyStart core op s) := by
  unfold Machine.execCopyStart
  apply OutKept.partStep
  split
  · trivial
  extract_lets
  split
  exacts [trivial, h.startCopy]

theorem FormKept.execCopyCompletion {core op : Nat} (h : FormKept s) :
    OutKept (Machine.execCopyCompletion core op s) := by
  unfold Machine.execCopyCompletion
  apply OutKept.partStep
  split
  · trivial
  split
  · split
    exacts [h.retireOp, trivial]
  · split
    · split
      exacts [h.retireOp, trivial]
    split
    exacts [h.actAdd, trivial]
  · split
    exacts [h.actUint, trivial]
  · split
    exacts [h.retireOp, trivial]
  · trivial

theorem FormKept.execCopyInboxAction {core op : Nat} (h : FormKept s) :
    OutKept (Machine.execCopyInboxAction core op s) := by
  unfold Machine.execCopyInboxAction
  apply OutKept.partStep
  split
  · trivial
  split
  · trivial
  split
  · split
    exacts [h.actInbox, trivial]
  split
  exacts [h.actInbox, trivial]

theorem FormKept.execPushAction {core op : Nat} (h : FormKept s) : OutKept (Machine.execPushAction core op s) := by
  unfold Machine.execPushAction
  apply OutKept.partStep
  split
  · trivial
  split
  exacts [h.actPush, trivial]

theorem FormKept.execMxuCommandStart {grove : Nat} (h : FormKept s) :
    OutKept (Machine.execMxuCommandStart grove s) := by
  unfold Machine.execMxuCommandStart
  apply OutKept.partStep
  split
  · trivial
  exact h.arbitrate

theorem FormKept.execMxuRow {core op : Nat} (h : FormKept s) : OutKept (Machine.execMxuRow core op s) := by
  unfold Machine.execMxuRow
  apply OutKept.partStep
  split
  exacts [h.mxuStep, trivial]

theorem FormKept.execMxuCommandComplete {core op : Nat} (h : FormKept s) :
    OutKept (Machine.execMxuCommandComplete core op s) := by
  unfold Machine.execMxuCommandComplete
  apply OutKept.partStep
  split
  exacts [h.mxuEnd, trivial]

theorem FormKept.watchAction {c n : Nat} (h : FormKept s) : OnSome FormKept (s.watchAction c n) := by
  unfold State.watchAction
  extract_lets
  split
  · trivial
  extract_lets started failed fail fault
  have hstarted : ∀ s, FormKept s → FormKept (started s) := fun _ h => h.modWatch
  have hfailed : ∀ s code, FormKept s → FormKept (failed s code) := fun _ _ h => h.logError.modWatch
  have hfail : ∀ code, FormKept (fail code) := fun _ => hfailed _ _ h
  have hfault : ∀ e, FormKept (fault e) := fun _ => hfailed _ _ h.noteWalk
  clear_value fault fail failed started
  split
  · split
    · trivial
    split
    · exact hfault _
    · exact hfail _
    extract_lets
    split
    · exact hfault _
    split
    exacts [trivial, hstarted _ h.modCore]
  · exact (hstarted _ h).partMail hfault
  · split
    · exact hfail _
    split
    exacts [hfail _, h.addThread.modLaunch.pushDeque.modWatch]
  · split
    · exact hfault _
    split
    exacts [h.atLine (hfail _), h.atLine (hstarted _ h).addAt]

theorem FormKept.execWatchActionStart {slice entry : Nat} (h : FormKept s) :
    OutKept (Machine.execWatchActionStart slice entry s) := by
  unfold Machine.execWatchActionStart
  apply OutKept.partStep
  split
  exacts [h.watchAction, trivial]

theorem FormKept.execTimeBaseSynchronisation {f : Flit} (h : FormKept s) :
    OutKept (Machine.execTimeBaseSynchronisation f s) :=
  OutKept.partStep (h.arrive fun _ h => FormKept.ite h.frame h)

theorem FormKept.arriveControl {f : Flit} {sub : Nat} {k : State → State} (h : FormKept s)
    (hk : ∀ s, FormKept s → FormKept (k s)) : OnSome FormKept (s.arriveControl f sub k) :=
  OnSome.ite trivial (h.arrive hk)

theorem FormKept.execDiscardReport {f : Flit} (h : FormKept s) : OutKept (Machine.execDiscardReport f s) :=
  OutKept.partStep (h.arriveControl fun _ h => h.lost)

theorem FormKept.execLinkAcknowledgement {f : Flit} (h : FormKept s) : OutKept (Machine.execLinkAcknowledgement f s) :=
  OutKept.partStep (h.arriveControl fun _ h => h.modLink.pump)

theorem FormKept.execRetryRequest {f : Flit} (h : FormKept s) : OutKept (Machine.execRetryRequest f s) :=
  OutKept.partStep (h.arriveControl fun _ h => h.modLink)

theorem FormKept.execLinkIdle {f : Flit} (h : FormKept s) : OutKept (Machine.execLinkIdle f s) :=
  OutKept.partStep (h.arriveControl fun _ h => h)

theorem FormKept.execBulkWriteFault {f : Flit} (h : FormKept s) : OutKept (Machine.execBulkWriteFault f s) :=
  OutKept.partStep (h.arriveControl fun _ h => h.targetLost)

theorem FormKept.writeUp (h : FormKept s) : FormKept (s.writeUp) :=
  h.wrWord

theorem FormKept.execLinkOutOfService {link : Nat} (h : FormKept s) :
    OutKept (Machine.execLinkOutOfService link s) := by
  unfold Machine.execLinkOutOfService
  apply OutKept.partStep
  split
  · trivial
  split
  · trivial
  extract_lets s₁ s₂
  have h₂ : FormKept s₂ := h.modLink.writeUp.logError
  clear_value s₂
  refine FormKept.settleQueue ?_
  exact h₂.frame

theorem FormKept.execBoundaryModuleFailure {boundary module : Nat} (h : FormKept s) :
    OutKept (Machine.execBoundaryModuleFailure boundary module s) := by
  unfold Machine.execBoundaryModuleFailure
  apply OutKept.partStep
  split
  · trivial
  split
  · trivial
  extract_lets
  exact FormKept.ite h.frame.logError.fatalError h.frame.logError

theorem FormKept.execFlitCrcFailure {f : Flit} (h : FormKept s) : OutKept (Machine.execFlitCrcFailure f s) := by
  unfold Machine.execFlitCrcFailure
  apply OutKept.partStep
  split
  · trivial
  split
  exacts [trivial, h.sendLinkLevel]

theorem FormKept.execReservedKindFlit {f : Flit} (h : FormKept s) : OutKept (Machine.execReservedKindFlit f s) := by
  unfold Machine.execReservedKindFlit
  apply OutKept.partStep
  split
  exacts [trivial, h.seenBy.recordFlit.logError]

end Sys2Proof.Claim
end

section
/-! The form kept. The host and records. -/
namespace Sys2Proof.Claim
open Machine
set_option Elab.async false
variable {s t a b : State}

theorem FormKept.hostWrite {a : Word} {bs : List Byte} (h : FormKept s) : FormKept (s.hostWrite a bs) :=
  h.frame

theorem FormKept.recordBar0 {off : Nat} {v : Word} (h : FormKept s) : FormKept (s.recordBar0 off v) :=
  h.record

theorem FormKept.recordCommand {c : Command} {ws : List Word} (h : FormKept s) : FormKept (s.recordCommand c ws) :=
  h.record

theorem FormKept.physWrite {k : Nat} {bs : List Byte} (h : FormKept s) : FormKept (s.physWrite k bs) :=
  h.invalidate.wrBytes.clearPoison.foldl fun _ _ h1 => .ite (h1.evalWaiters.foldl fun _ _ h2 => h2.evalWatch) h1

theorem FormKept.execLdoor {v : Word} (h : FormKept s) : OutKept (Machine.execLdoor v s) := by
  unfold Machine.execLdoor
  apply OutKept.partStep
  split
  exacts [trivial, h.frame.recordBar0]

theorem FormKept.execMdoor {v : Word} (h : FormKept s) : OutKept (Machine.execMdoor v s) := by
  unfold Machine.execMdoor
  apply OutKept.partStep
  split
  exacts [trivial, h.frame.recordBar0]

theorem FormKept.execDmhead {v : Word} (h : FormKept s) : OutKept (Machine.execDmhead v s) := by
  unfold Machine.execDmhead
  apply OutKept.partStep
  split
  exacts [trivial, h.wrWord]

theorem FormKept.takeLaunchMail {b : Box} (h : FormKept s) : FormKept (s.takeLaunchMail b) := by
  unfold State.takeLaunchMail
  split
  · extract_lets s₁
    have h₁ : FormKept s₁ := .ite h.hostWrite h
    exact h₁.putBox.putBox
  · exact h.takeMail

theorem FormKept.submitMail {k : Nat} {ws : List Word} {l16 : Loc} (h : FormKept s) :
    FormKept (s.submitMail k ws l16) := by
  unfold State.submitMail
  extract_lets
  split
  exacts [((h.foldl fun _ _ h1 => h1.writeAt).submit).writeAt, h]

theorem FormKept.execLaunchMailboxTake (h : FormKept s) : OutKept (Machine.execLaunchMailboxTake s) := by
  unfold Machine.execLaunchMailboxTake
  apply OutKept.partStep
  split
  · trivial
  split
  · trivial
  extract_lets
  split
  · exact h.atLines h.takeLaunchMail
  split
  · exact h.atLines h.takeLaunchMail.submitMail
  split
  · exact h.atLines h.takeLaunchMail
  split
  exacts [trivial, h.atLines h.takeLaunchMail.sendMail]

theorem FormKept.execManagementLaunchSubmission {addr : Word} (h : FormKept s) :
    OutKept (Machine.execManagementLaunchSubmission addr s) := by
  unfold Machine.execManagementLaunchSubmission
  apply OutKept.partStep
  split
  · trivial
  extract_lets _ _ s₁
  split
  · extract_lets
    split
    · trivial
    split
    · exact h
    have h₁ : FormKept s₁ := .ite (h.modMgmt (f := fun m => { m with replayAt := _ })) h
    exact h₁.recordCommand.submit.modLaunch
  · exact h

theorem FormKept.endRequest {host notify : Bool} (h : FormKept s) : FormKept (s.endRequest host notify) :=
  .ite ((FormKept.ite h.frame h.frame).hostWrite) (.ite h.frame h.frame)

theorem FormKept.setOwner {key : Nat} {device : Bool} (h : FormKept s) : FormKept (s.setOwner key device) :=
  h.wrWord

theorem FormKept.migrate {host : Bool} {page : List (Nat × Byte)} (h : FormKept s) :
    FormKept (s.migrate host page) := by
  unfold State.migrate
  extract_lets _ _ key
  clear_value key
  split
  · split
    · exact h.endRequest
    extract_lets _ s₁ s₂ _ s₃
    split
    · have h₁ : FormKept s₁ := h.wrBytes.clearPoison.setOwner
      have h₂ : FormKept s₂ := by
        unfold s₂
        clear_value s₁
        split
        exacts [.ite h₁ h₁.addAt, h₁]
      exact h₂.endRequest
    · have h₃ : FormKept s₃ := FormKept.frame (s := s.setOwner _ false) h.setOwner
      clear_value s₃
      exact .ite h₃.frame h₃.hostWrite.endRequest
  · exact h.endRequest

theorem FormKept.execMigrationRequest {page : List (Nat × Byte)} (h : FormKept s) :
    OutKept (Machine.execMigrationRequest page s) := by
  unfold Machine.execMigrationRequest
  apply OutKept.partStep
  split
  · trivial
  cases s.nextRing with
  | none => trivial
  | some host => exact h.migrate

theorem FormKept.interruptHost {v : Nat} (h : FormKept s) : FormKept (s.interruptHost v) :=
  .ite h.frame h.hostWrite

theorem FormKept.announceSummary (h : FormKept s) : FormKept (s.announceSummary) :=
  .ite h.interruptHost h

theorem FormKept.finishSummary (h : FormKept s) : FormKept (s.finishSummary) := by
  unfold State.finishSummary
  extract_lets _ _ _ _ _ _ s₁
  refine .ite h ?_
  split
  · exact h.frame
  have h₁ : FormKept s₁ := .ite h.hostWrite h.modMgmt
  clear_value s₁
  refine FormKept.announceSummary ?_
  exact h₁.frame

theorem FormKept.startSummary {v : Word} {host : Bool} (h : FormKept s) : FormKept (s.startSummary v host) :=
  .ite h.frame (.ite h.frame.preemptAll h.frame)

theorem FormKept.takeSummary {host : Bool} {v : Word} (h : FormKept s) : OutKept (s.takeSummary host v) := by
  unfold State.takeSummary
  apply OutKept.partStep
  split
  · trivial
  extract_lets
  exact FormKept.ite (FormKept.ite h.recordBar0 h.recordCommand) ((FormKept.ite h.recordBar0 h.recordCommand).startSummary)

theorem FormKept.bar0Write {r : HostReg} {v : Word} (h : FormKept s) : FormKept (s.bar0Write r v) := by
  unfold State.bar0Write
  split
  · exact h.frame.recordBar0
  · exact h.frame.recordBar0
  · exact h.frame.recordBar0
  · exact h.recordBar0
  · extract_lets _ s₁
    have h₁ : FormKept s₁ := h.frame.recordBar0
    clear_value s₁
    split
    · refine FormKept.interruptHost ?_
      exact h₁.frame
    · exact h₁
  · exact h.recordBar0
  · exact h.recordBar0
  · exact h

theorem FormKept.bar2Put {off : Nat} {bs : List Byte} (h : FormKept s) : FormKept (s.bar2Put off bs) :=
  .ite ((FormKept.ite h.physWrite h).physWrite) (.ite h.physWrite h)

theorem FormKept.bar2Write {off : Nat} {bs : List Byte} (h : FormKept s) : OnSome FormKept (s.bar2Write off bs) := by
  unfold State.bar2Write
  split
  exacts [trivial, (h.foldl fun _ _ h1 => h1.record).bar2Put]

theorem FormKept.hostRead {bar2 : Bool} {off n : Nat} (h : FormKept s) : OutKept (s.hostRead bar2 off n) := by
  unfold State.hostRead
  exact OutKept.partStep (OnSome.ite trivial h.frame)

theorem FormKept.hostWrite2 {off : Nat} {bs : List Byte} (h : FormKept s) : OutKept (s.hostWrite2 off bs) := by
  unfold State.hostWrite2
  exact OutKept.partStep h.bar2Write

theorem FormKept.spdm {a : Answer} (h : FormKept s) : OnSome FormKept (s.spdm a) := by
  unfold State.spdm
  split
  exacts [trivial, h.frame]

theorem FormKept.mailReportOut {nonce : List Byte} (h : FormKept s) : OnSome FormKept (s.mailReportOut nonce) := by
  unfold State.mailReportOut
  split
  · trivial
  extract_lets
  split
  exacts [trivial, h.sendMail]

theorem FormKept.relayReport {dev : Nat} (h : FormKept s) : OnSome FormKept (s.relayReport dev) := by
  unfold State.relayReport
  extract_lets
  split
  · trivial
  extract_lets
  split
  · split
    · trivial
    split
    extract_lets
    exact h.takeMail.spdm
  · trivial

theorem FormKept.respond {dev : Nat} {nonce : List Byte} (h : FormKept s) : OnSome FormKept (s.respond dev nonce) := by
  unfold State.respond
  split
  · exact h.relayReport
  split
  · exact h.spdm
  split
  exacts [trivial, h.mailReportOut]

theorem FormKept.execGetVersion (h : FormKept s) : OutKept (Machine.execGetVersion s) := by
  unfold Machine.execGetVersion
  exact OutKept.partStep h.spdm

theorem FormKept.execGetCapabilities (h : FormKept s) : OutKept (Machine.execGetCapabilities s) := by
  unfold Machine.execGetCapabilities
  exact OutKept.partStep h.spdm

theorem FormKept.execNegotiateAlgorithms (h : FormKept s) : OutKept (Machine.execNegotiateAlgorithms s) := by
  unfold Machine.execNegotiateAlgorithms
  exact OutKept.partStep h.spdm

theorem FormKept.execGetDigests (h : FormKept s) : OutKept (Machine.execGetDigests s) := by
  unfold Machine.execGetDigests
  exact OutKept.partStep h.spdm

theorem FormKept.execGetCertificate (h : FormKept s) : OutKept (Machine.execGetCertificate s) := by
  unfold Machine.execGetCertificate
  exact OutKept.partStep h.spdm

theorem FormKept.execChallenge {r : ReportRequest} (h : FormKept s) : OutKept (Machine.execChallenge r s) := by
  unfold Machine.execChallenge
  exact OutKept.partStep h.respond

theorem FormKept.execGetMeasurements {r : ReportRequest} (h : FormKept s) :
    OutKept (Machine.execGetMeasurements r s) := by
  unfold Machine.execGetMeasurements
  exact OutKept.partStep h.respond

theorem FormKept.execSessionEstablishment (h : FormKept s) : OutKept (Machine.execSessionEstablishment s) := by
  unfold Machine.execSessionEstablishment
  exact OutKept.partStep h.spdm

theorem FormKept.writeRecord (h : FormKept s) : FormKept (s.writeRecord) :=
  .ite h (h.vputWords.foldl fun _ _ h1 => h1.vputWords)

end Sys2Proof.Claim
end

section
/-! Memories in canonical form, filtered and joined (R378, R380). -/
namespace Sys2Proof.Machine.Memory

theorem above_iff {lo : Nat} {m : List Host.Cell} :
    Memory.above lo m = true ↔ (∀ e ∈ m, lo < e.1) ∧ (∀ e ∈ m, e.2 ≠ 0) ∧ m.Pairwise (fun e f => e.1 < f.1) := by
  induction m generalizing lo with
  | nil => simp [Memory.above]
  | cons e r ih =>
    rw [Memory.above_cons, ih, List.forall_mem_cons, List.forall_mem_cons, List.pairwise_cons]
    constructor
    · rintro ⟨hlo, h0, hlt, hr, hp⟩
      exact ⟨⟨hlo, fun f hf => hlo.trans (hlt f hf)⟩, ⟨h0, hr⟩, hlt, hp⟩
    · rintro ⟨⟨hlo, -⟩, ⟨h0, hr⟩, hlt, hp⟩
      exact ⟨hlo, h0, hlt, hr, hp⟩

/-- Canonical form: no zero byte is listed, and addresses ascend. -/
theorem wf_iff {m : List Host.Cell} :
    Memory.wf m = true ↔ (∀ e ∈ m, e.2 ≠ 0) ∧ m.Pairwise (fun e f => e.1 < f.1) := by
  cases m with
  | nil => simp [Memory.wf]
  | cons e r =>
    rw [Memory.wf_cons, above_iff, List.forall_mem_cons, List.pairwise_cons]
    exact ⟨fun ⟨h0, hlt, hr, hp⟩ => ⟨⟨h0, hr⟩, hlt, hp⟩, fun ⟨⟨h0, hr⟩, hlt, hp⟩ => ⟨h0, hlt, hr, hp⟩⟩

theorem wf_filter {p : Host.Cell → Bool} {m : List Host.Cell}
    (h : Memory.wf m = true) : Memory.wf (m.filter p) = true := by
  obtain ⟨h0, hp⟩ := wf_iff.mp h
  exact wf_iff.mpr ⟨fun e he => h0 e (List.mem_of_mem_filter he), hp.filter p⟩

/-- Two memories in canonical form, one after the other, where every address of the first is below every one of the second. -/
theorem wf_append {m n : List Host.Cell} (hm : Memory.wf m = true) (hn : Memory.wf n = true)
    (h : ∀ e ∈ m, ∀ f ∈ n, e.1 < f.1) : Memory.wf (m ++ n) = true := by
  obtain ⟨hm0, hmp⟩ := wf_iff.mp hm
  obtain ⟨hn0, hnp⟩ := wf_iff.mp hn
  exact wf_iff.mpr ⟨fun e he => (List.mem_append.mp he).elim (hm0 e) (hn0 e), List.pairwise_append.mpr ⟨hmp, hnp, h⟩⟩

/-- What is below an address of one memory, with what is from it on of another. -/
theorem wf_join {k : Nat} {m n : List Host.Cell} (hm : Memory.wf m = true) (hn : Memory.wf n = true) :
    Memory.wf (m.filter (fun e => decide (e.1 < k)) ++ n.filter (fun e => decide (k ≤ e.1))) = true :=
  wf_append (wf_filter hm) (wf_filter hn) fun _ he _ hf =>
    Nat.lt_of_lt_of_le (of_decide_eq_true (List.mem_filter.mp he).2) (of_decide_eq_true (List.mem_filter.mp hf).2)
end Sys2Proof.Machine.Memory

namespace Sys2Proof.Machine

theorem Image.withSegment_wf {im : Image} {s : State} {seg place : Nat} (hi : Memory.wf im.mem = true) (hs : s.MemWf) :
    Memory.wf (im.withSegment s seg place).mem = true := by
  refine Memory.wf_append (Memory.wf_append (Memory.wf_filter hi) (Memory.wf_filter hs) ?_) (Memory.wf_filter hi) ?_
  · intro e he f hf
    simp only [List.mem_filter, decide_eq_true_eq] at he hf
    exact Nat.lt_of_lt_of_le he.2 hf.2.1
  · intro e he f hf
    simp only [List.mem_append, List.mem_filter, decide_eq_true_eq] at he hf
    omega

end Sys2Proof.Machine
end

section
/-! The form kept. The management controller. -/
namespace Sys2Proof.Claim
open Machine
set_option Elab.async false
variable {s t a b : State}

theorem FormKept.logBandWait {c : Nat} (h : FormKept s) : FormKept (s.logBandWait c) :=
  .ite h h.logError.modMgmt

theorem FormKept.saveBands (h : FormKept s) : FormKept (s.saveBands) :=
  h.foldl fun _ _ h1 => h1.foldl fun _ _ h2 => h2.saveBand.getD h2.logBandWait

theorem FormKept.setPstate {power level : Nat} (h : FormKept s) : FormKept (s.setPstate power level) :=
  h.modMgmt.record

theorem FormKept.modStream {f : Mgmt → Mgmt} (h : FormKept s)
    (hf : ∀ st, (f s.mgmt).stream = some st → Memory.wf st.sent.mem = true) : FormKept (s.modMgmt f) := by
  obtain ⟨hm, hi, -⟩ := h
  exact ⟨hm, hi, hf⟩

theorem FormKept.image_wf {im : Image} (h : FormKept s) (e : s.image = some im) : Memory.wf im.mem = true := by
  obtain ⟨-, hi, -⟩ := h
  exact hi im e

theorem FormKept.sent_wf {st : Stream}
    (h : FormKept s) (e : s.mgmt.stream = some st) : Memory.wf st.sent.mem = true := by
  obtain ⟨-, -, hs⟩ := h
  exact hs st e

theorem FormKept.bare (h : FormKept s) : FormKept (s.bare) := by
  obtain ⟨-, hi, -⟩ := h
  exact ⟨rfl, hi, fun _ e => nomatch e⟩

theorem FormKept.powerDown (h : FormKept s) : FormKept (s.powerDown) := by
  obtain ⟨hm, hi, hs⟩ := h
  exact ⟨Memory.wf_filter hm, hi, hs⟩

theorem FormKept.settlePower (h : FormKept s) : FormKept (s.settlePower) := by
  unfold State.settlePower
  split
  · exact h
  split
  · exact h
  extract_lets
  split
  exacts [h.modMgmt.setPstate, .ite h.modMgmt.setPstate h,
    .ite h (.ite h.saveBands h.saveBands.powerDown.modMgmt.setPstate), h.bare]

theorem FormKept.requestPower {p : Nat} (h : FormKept s) : FormKept (s.requestPower p) :=
  .ite (FormKept.ite h.modMgmt h.bare) (.ite h ((FormKept.ite h.modMgmt.preemptAll h.modMgmt).settlePower))

theorem FormKept.execEnterD1 (h : FormKept s) : OutKept (Machine.execEnterD1 s) := by
  unfold Machine.execEnterD1
  apply OutKept.partStep
  split
  exacts [trivial, h.recordCommand.requestPower]

theorem FormKept.execEnterD2 (h : FormKept s) : OutKept (Machine.execEnterD2 s) := by
  unfold Machine.execEnterD2
  apply OutKept.partStep
  split
  exacts [trivial, h.recordCommand.requestPower]

theorem FormKept.execEnterD3 (h : FormKept s) : OutKept (Machine.execEnterD3 s) := by
  unfold Machine.execEnterD3
  apply OutKept.partStep
  split
  exacts [trivial, h.recordCommand.requestPower]

theorem FormKept.endSession (h : FormKept s) : FormKept (s.endSession) :=
  h.modMgmt

theorem FormKept.wakeSecurity (h : FormKept s) : FormKept (s.wakeSecurity) := by
  unfold State.wakeSecurity
  split
  exacts [.ite h.endSession h, h.modMgmt, h]

theorem FormKept.wake (h : FormKept s) : OnSome FormKept (s.wake) := by
  unfold State.wake
  split
  · trivial
  extract_lets
  exact ((FormKept.ite h.wakeSecurity h).modMgmt).setPstate

theorem FormKept.execWakeD0 (h : FormKept s) : OutKept (Machine.execWakeD0 s) := by
  unfold Machine.execWakeD0
  exact OutKept.partStep h.recordCommand.wake

theorem FormKept.writeLevel {level power : Nat} (h : FormKept s) : FormKept (s.writeLevel level power) :=
  .ite h (.ite h.logError h.modMgmt)

theorem FormKept.execClockLevelWrite {level : BitVec 2} (h : FormKept s) :
    OutKept (Machine.execClockLevelWrite level s) := by
  unfold Machine.execClockLevelWrite
  exact OutKept.partStep h.recordCommand.writeLevel

theorem FormKept.execClockLevelChange (h : FormKept s) : OutKept (Machine.execClockLevelChange s) := by
  unfold Machine.execClockLevelChange
  apply OutKept.partStep
  split
  · trivial
  split
  exacts [trivial, h.modMgmt.setPstate]

theorem FormKept.settleMode (h : FormKept s) : FormKept (s.settleMode) := by
  unfold State.settleMode
  split
  · exact h
  refine .ite h ?_
  extract_lets _ s₁ s₂ s₃ s₄
  have h₁ : FormKept s₁ := h.saveBands
  have h₃ : FormKept s₃ := FormKept.frame (s := s₂) h₁.modMgmt
  have h₄ : FormKept s₄ := .ite h₃ h₃.frame
  exact .ite h₁ (.ite h₃ h₄.startLaunches)

theorem FormKept.requestMode {m : Nat} (h : FormKept s) : OnSome FormKept (s.requestMode m) := by
  unfold State.requestMode
  extract_lets
  split
  exacts [trivial, h.modMgmt.preemptAll.settleMode]

theorem FormKept.execEnterService (h : FormKept s) : OutKept (Machine.execEnterService s) := by
  unfold Machine.execEnterService
  exact OutKept.partStep h.recordCommand.requestMode

theorem FormKept.execEnterTest (h : FormKept s) : OutKept (Machine.execEnterTest s) := by
  unfold Machine.execEnterTest
  exact OutKept.partStep h.recordCommand.requestMode

theorem FormKept.execDebugToken {tok : Token} (h : FormKept s) : OutKept (Machine.execDebugToken tok s) := by
  unfold Machine.execDebugToken
  apply OutKept.partStep
  split
  · trivial
  extract_lets
  exact FormKept.ite h.recordCommand.modMgmt h.recordCommand

theorem FormKept.execDebugTokenExpiry (h : FormKept s) : OutKept (Machine.execDebugTokenExpiry s) := by
  unfold Machine.execDebugTokenExpiry
  apply OutKept.partStep
  split
  · split
    exacts [h.endSession, trivial]
  · trivial

theorem FormKept.execDebugTokenRevocation (h : FormKept s) : OutKept (Machine.execDebugTokenRevocation s) := by
  unfold Machine.execDebugTokenRevocation
  apply OutKept.partStep
  split
  exacts [h.recordCommand.endSession, trivial]

theorem FormKept.execDebugResume {tid : Nat} (h : FormKept s) : OutKept (Machine.execDebugResume tid s) := by
  unfold Machine.execDebugResume
  apply OutKept.partStep
  split
  · trivial
  split
  exacts [trivial, h.recordCommand.setThread.resumeAt]

theorem FormKept.spillAll (h : FormKept s) : FormKept (s.spillAll) :=
  h.frame

theorem FormKept.endCheckpoint (h : FormKept s) : FormKept (s.endCheckpoint) := by
  unfold State.endCheckpoint
  extract_lets s₁
  have h₁ : FormKept s₁ := h.modStream fun _ e => nomatch e
  clear_value s₁
  exact (FormKept.ite h₁.preemptAll h₁).settlePower

theorem FormKept.streamStep {st : Stream} (h : FormKept s) (hst : s.mgmt.stream = some st) :
    FormKept (s.streamStep st) := by
  unfold State.streamStep
  extract_lets _ turn
  refine .ite h.endCheckpoint ?_
  clear_value turn
  split
  · refine .ite h (FormKept.endCheckpoint ?_)
    obtain ⟨hm, -, hs⟩ := h
    refine ⟨hm, fun im e => ?_, hs⟩
    obtain rfl := Option.some.inj e
    exact hs _ hst
  · exact h.endCheckpoint
  · refine .ite h (.ite h.targetLost ?_)
    extract_lets s₁
    have h₁ : FormKept s₁ := h.modStream fun st' e => by
      obtain rfl := Option.some.inj e
      obtain ⟨hm, -, hs⟩ := h
      exact Image.withSegment_wf (hs _ hst) hm
    exact h₁.foldl fun _ _ h => h.sendFlit

theorem FormKept.finishCheckpoint (h : FormKept s) : FormKept (s.finishCheckpoint) := by
  unfold State.finishCheckpoint
  refine .ite h ?_
  split
  · next e => exact h.streamStep e
  · refine .ite h (.ite h.saveBands (FormKept.modStream h.saveBands.spillAll.writeRecord fun st e => ?_))
    obtain rfl := Option.some.inj e
    rfl

theorem FormKept.execCheckpoint (h : FormKept s) : OutKept (Machine.execCheckpoint s) := by
  unfold Machine.execCheckpoint
  apply OutKept.partStep
  split
  exacts [trivial, h.recordCommand.modMgmt.preemptAll]

theorem FormKept.loadMemory {im : Image} {limit : Nat} (h : FormKept s) (hb : Memory.wf im.mem = true) :
    FormKept (s.loadMemory im limit) := by
  obtain ⟨hm, hi, hs⟩ := h
  exact ⟨Memory.wf_join hb hm, hi, hs⟩

theorem FormKept.loadRecord {r : Loaded} (h : FormKept s) : FormKept (s.loadRecord r) := by
  obtain ⟨hm, hi, hs⟩ := h
  exact ⟨hm, hi, hs⟩

theorem FormKept.recover (h : FormKept s) : FormKept (s.recover) :=
  h.modMgmt.preemptAll.settleMode

theorem FormKept.logRestore {seg why : Nat} (h : FormKept s) : FormKept (s.logRestore seg why) :=
  h.logError

theorem FormKept.execRestore {src : RestoreSource} (h : FormKept s) : OutKept (Machine.execRestore src s) := by
  unfold Machine.execRestore
  apply OutKept.partStep
  refine OnSome.ite trivial ?_
  extract_lets q
  have hq : FormKept q := h.recordCommand
  clear_value q
  refine OnSome.ite hq.logRestore (OnSome.ite trivial ?_)
  split
  · exact hq.logRestore.recover
  next im e =>
  have hb := hq.image_wf e
  split
  · exact (hq.loadMemory hb).logRestore.recover
  extract_lets s₁
  have h₁ : FormKept s₁ := hq.loadMemory hb
  clear_value s₁
  generalize s₁.headerWord 0 = version, s₁.headerWord 1 = device
  refine OnSome.ite h₁.logRestore (OnSome.ite h₁.logRestore ?_)
  split
  exacts [h₁.logRestore, h₁.loadRecord.modMgmt]

theorem FormKept.writeFabricTable (h : FormKept s) : FormKept (s.writeFabricTable) :=
  h.wrWord.writeUp

theorem FormKept.verifyFirmware {images : List Firmware} (h : FormKept s) : FormKept (s.verifyFirmware images).1 := by
  unfold State.verifyFirmware
  extract_lets
  exact h.modMgmt

theorem FormKept.logRemoved {e : Nat × List Nat} (h : FormKept s) : FormKept (s.logRemoved e) :=
  h.foldl fun _ _ h1 => h1.logError

theorem FormKept.bringUp {b : BringUp} (h : FormKept s) : FormKept (s.bringUp b) := by
  unfold State.bringUp
  extract_lets s₁ stop
  have h₁ : FormKept s₁ := h.bare.modMgmt
  have hstop : ∀ s, FormKept s → FormKept (stop s) := fun _ h => h.frame
  clear_value s₁ stop
  split
  · next e => exact hstop _ (h₁.verifyFirmware.fst_of_eq e).modMgmt.logError
  next s₂ e =>
  have h₂ : FormKept s₂ := h₁.verifyFirmware.fst_of_eq e
  refine .ite (hstop _ h₂.logError) ?_
  extract_lets
  rename_i s₃ _ s₄ s₅ _ s₆ _ s₇
  have h₃ : FormKept s₃ := h₂.frame
  have h₄ : FormKept s₄ := h₃.modMgmt
  have h₅ : FormKept s₅ := h₄.foldl fun _ _ h => h.logRemoved
  have h₆ : FormKept s₆ := h₅.frame
  have h₇ : FormKept s₇ := FormKept.frame (s := s₆.writeFabricTable) h₆.writeFabricTable
  exact .ite (hstop _ (h₅.foldl fun _ _ h => h.logError)) (h₇.foldl fun _ _ h => h.wrWord)

theorem FormKept.execBringUp {b : BringUp} (h : FormKept s) : OutKept (Machine.execBringUp b s) := by
  unfold Machine.execBringUp
  exact OutKept.partStep h.bringUp

theorem FormKept.writeRegister {r : HostReg} {v : Word} (h : FormKept s) : OnSome FormKept (s.writeRegister r v) := by
  unfold State.writeRegister
  extract_lets s₁ s₂
  have h₁ : FormKept s₁ := by
    unfold s₁
    split
    exacts [h.recordCommand, h]
  have h₂ : FormKept s₂ := .ite h₁ h₁.writeLevel
  clear_value s₂ s₁
  split
  · exact h₁.bar2Write
  · exact h₁.modMgmt
  · exact h₁.modMgmt
  · exact h₁.modMgmt
  · exact h₁.modMgmt
  · exact h₁.requestMode.getD h₁
  · exact FormKept.ite h₂.requestPower (h₂.wake.getD h₂.modMgmt)
  · exact h₁
  · exact h₁.modMgmt
  · exact OnSome.ite h₁.wrWord trivial
  · exact OnSome.ite h₁.bar0Write trivial

theorem FormKept.execRegisterWrite {r : HostReg} {v : Word} (h : FormKept s) :
    OutKept (Machine.execRegisterWrite r v s) := by
  unfold Machine.execRegisterWrite
  exact OutKept.partStep h.writeRegister

theorem FormKept.putDebugWords {w : DebugAt} {ws : List Word} (h : FormKept s) :
    OnSome FormKept (s.putDebugWords w ws) := by
  unfold State.putDebugWords
  split
  · cases coreCodec.get ws with
    | none => trivial
    | some r => exact h.modCore
  · cases (watchCodec.list.pair homedCodec.list).get ws with
    | none => trivial
    | some r => exact FormKept.foldl h.frame fun _ _ h => h.modLaunch
  · cases deviceCodec.get ws with
    | none => trivial
    | some r => exact h.frame
  · trivial

theorem FormKept.debugPut {w : DebugAt} {bs : List Byte} (h : FormKept s) : OnSome FormKept (s.debugPut w bs) := by
  unfold State.debugPut
  extract_lets _ atWord
  have hat : ∀ i, OnSome FormKept (atWord i) := fun _ => h.putDebugWords
  clear_value atWord
  split
  · cases s.thread _ with
    | none => trivial
    | some t => exact h.setThread
  · split
    · trivial
    split
    exacts [h.foldl fun _ _ h => h.writeAt, trivial]
  · exact h.physWrite
  · exact hat _
  · exact hat _
  · exact hat _
  · exact h.writeRegister

theorem FormKept.debugRead {w : DebugAt} (h : FormKept s) : OutKept (s.debugRead w) := by
  unfold State.debugRead
  apply OutKept.partStep
  refine OnSome.ite trivial ?_
  cases s.debugBytes w with
  | none => trivial
  | some bs => exact h.modMgmt

theorem FormKept.debugWrite {w : DebugAt} {bs : List Byte} (h : FormKept s) : OutKept (s.debugWrite w bs) := by
  unfold State.debugWrite
  apply OutKept.partStep
  split
  · trivial
  split
  exacts [h.debugPut, h.recordCommand.debugPut]

theorem FormKept.deliverFlit {f : Flit} (h : FormKept s) : OutKept (Machine.deliverFlit f s) := by
  unfold Machine.deliverFlit
  split
  · exact h.execRemoteCopyData
  · exact h.execRemoteCopyCompletionRequest
  · exact h.execRemoteCopyReport
  · exact h.execMailboxPayload
  · exact h.execMailboxSequenceWord
  · exact h.execSlotReleaseNotice
  · exact h.execCutHeader
  · exact h.execCutUnit
  · exact h.execCutMarker
  · exact h.execCutAcknowledgement
  · exact h.execTimeBaseSynchronisation
  · split
    exacts [h.execDiscardReport, h.execLinkAcknowledgement, h.execRetryRequest, h.execLinkIdle, h.execBulkWriteFault,
      h.execReservedKindFlit]
  · exact h.execBulkData
  · exact h.execReservedKindFlit

theorem OutKept.of_eq {o : Out} (ho : OutKept o) (e : o = .next t) : FormKept t := by
  subst e
  exact ho

theorem FormKept.replayBar0 {off : Nat} {v : Word} (h : FormKept s) : FormKept (s.replayBar0 off v) := by
  unfold State.replayBar0
  extract_lets run
  have hrun : ∀ o, OutKept o → FormKept (run o) := by
    intro o ho
    cases o with
    | next t => exact ho
    | fault e => exact h
    | refused e => exact h
  clear_value run
  exact .ite (hrun _ h.execLdoor) (.ite (hrun _ h.execMdoor) (.ite (hrun _ h.takeSummary) h.bar0Write))

theorem FormKept.replayCommand {c : Command} {ps : List Word} (h : FormKept s) : FormKept (s.replayCommand c ps) := by
  unfold State.replayCommand
  extract_lets run
  have hrun : ∀ o, OutKept o → FormKept (run o) := by
    intro o ho
    cases o with
    | next t => exact ho
    | fault e => exact h
    | refused e => exact h
  clear_value run
  cases c with
  | service => exact hrun _ h.execEnterService
  | test => exact hrun _ h.execEnterTest
  | restore => exact hrun _ h.execRestore
  | token => exact hrun _ h.execDebugToken
  | debug => exact hrun _ h.debugWrite
  | level => exact hrun _ h.execClockLevelWrite
  | d1 => exact hrun _ h.execEnterD1
  | d2 => exact hrun _ h.execEnterD2
  | d3 => exact hrun _ h.execEnterD3
  | wake => exact hrun _ h.execWakeD0
  | checkpoint => exact hrun _ h.execCheckpoint
  | launch => exact hrun _ h.execManagementLaunchSubmission
  | revocation => exact hrun _ h.execDebugTokenRevocation
  | resume => exact hrun _ h.execDebugResume
  | summary => exact hrun _ h.takeSummary
  | register => exact h.writeRegister.getD h

theorem FormKept.deliverPower {p level : Nat} (h : FormKept s) : OnSome FormKept (s.deliverPower p level) := by
  unfold State.deliverPower
  extract_lets
  split
  · trivial
  split
  · split
    exacts [h.saveBands.powerDown.modMgmt, trivial]
  · exact h.modMgmt

theorem FormKept.deliver {unit kind : Nat} {w2 w3 : Word} {cont : List Word} (h : FormKept s) :
    OnSome FormKept (s.deliver unit kind w2 w3 cont) := by
  unfold State.deliver
  extract_lets _ live back
  have hlive : FormKept live := FormKept.frame (s := s.modMgmt (fun m => { m with det := false })) h.modMgmt
  have hback : ∀ t, FormKept t → FormKept (back t) := fun t ht =>
    .ite ht (FormKept.frame (s := t.modMgmt (fun m => { m with det := s.mgmt.det })) ht.modMgmt)
  clear_value back live
  split
  · split
    · next e => exact hback _ (hlive.deliverFlit.of_eq e)
    · exact h
  · exact hback _ hlive.replayBar0
  · exact hback _ hlive.bar2Put
  · split
    · extract_lets t
      have ht : FormKept t := hback _ hlive.replayCommand
      exact FormKept.ite ht (.ite ht.modMgmt (.ite ht.modMgmt ht))
    · exact h
  · cases s.live.find? _ with
    | none => trivial
    | some e => exact h.enterTrap
  · exact h.moveCore
  · exact FormKept.ite h.passNotify.shareTo.closeShare h.shareTo
  · exact h.deliverPower
  · exact h.modMgmt

theorem FormKept.execReplayEventDelivery (h : FormKept s) : OutKept (Machine.execReplayEventDelivery s) := by
  unfold Machine.execReplayEventDelivery
  apply OutKept.partStep
  split
  · trivial
  split
  · trivial
  extract_lets
  split
  · split
    exacts [h.modMgmt, trivial]
  · exact h.modMgmt.deliver

theorem FormKept.execIllegalEncoding {word : BitVec 32} (h : FormKept s) :
    OutKept (Machine.execIllegalEncoding word s) := by
  unfold Machine.execIllegalEncoding
  split
  · trivial
  split
  exacts [trivial, h.enterTrap.frame]

end Sys2Proof.Claim
end

section
/-! The form kept. Dispatch, turns, and the step. -/
namespace Sys2Proof.Claim
open Machine
set_option Elab.async false
variable {s t a b : State}

theorem FormKept.exec {i : Instr} (h : FormKept s) : OutKept (Machine.exec i s) := by
  unfold Machine.exec
  cases i with
  | handlerStart => exact h.execHandlerStart
  | threadPlacement => exact h.execThreadPlacement
  | shareComputation => exact h.execShareComputation
  | urgentShareComputation => exact h.execUrgentShareComputation
  | preemption => exact h.execPreemption
  | preemptionGraceExpiry => exact h.execPreemptionGraceExpiry
  | waitLimitExpiry => exact h.execWaitLimitExpiry
  | deferredResultReturn => exact h.execDeferredResultReturn
  | mtArrival => exact h.execMtArrival
  | launchInboxCompletion => exact h.execLaunchInboxCompletion
  | launchMailboxCompletion => exact h.execLaunchMailboxCompletion
  | stageBalancer => exact h.execStageBalancer
  | asyncTrapDelivery => exact h.execAsyncTrapDelivery
  | uintDelivery => exact h.execUintDelivery
  | homeWrite => exact h.execHomeWrite
  | directoryOverflow => exact h.execDirectoryOverflow
  | copyStart => exact h.execCopyStart
  | copyCompletion => exact h.execCopyCompletion
  | copyInboxAction => exact h.execCopyInboxAction
  | pushAction => exact h.execPushAction
  | mxuCommandStart => exact h.execMxuCommandStart
  | mxuRow => exact h.execMxuRow
  | mxuCommandComplete => exact h.execMxuCommandComplete
  | watchActionStart => exact h.execWatchActionStart
  | canopyRound => exact h.execCanopyRound
  | remoteCopyData => exact h.execRemoteCopyData
  | remoteCopyCompletionRequest => exact h.execRemoteCopyCompletionRequest
  | remoteCopyReport => exact h.execRemoteCopyReport
  | mailboxPayload => exact h.execMailboxPayload
  | mailboxSequenceWord => exact h.execMailboxSequenceWord
  | slotReleaseNotice => exact h.execSlotReleaseNotice
  | cutHeader => exact h.execCutHeader
  | cutUnit => exact h.execCutUnit
  | cutMarker => exact h.execCutMarker
  | cutAcknowledgement => exact h.execCutAcknowledgement
  | timeBaseSynchronisation => exact h.execTimeBaseSynchronisation
  | discardReport => exact h.execDiscardReport
  | linkAcknowledgement => exact h.execLinkAcknowledgement
  | retryRequest => exact h.execRetryRequest
  | linkIdle => exact h.execLinkIdle
  | bulkWriteFault => exact h.execBulkWriteFault
  | bulkData => exact h.execBulkData
  | linkOutOfService => exact h.execLinkOutOfService
  | boundaryModuleFailure => exact h.execBoundaryModuleFailure
  | cutSend => exact h.execCutSend
  | membershipEvaluation => exact h.execMembershipEvaluation
  | silenceExpiry => exact h.execSilenceExpiry
  | rshipBoundExpiry => exact h.execRshipBoundExpiry
  | migrationRequest => exact h.execMigrationRequest
  | ldoor => exact h.execLdoor
  | launchMailboxTake => exact h.execLaunchMailboxTake
  | mdoor => exact h.execMdoor
  | dmhead => exact h.execDmhead
  | summary => exact h.takeSummary
  | registerWrite => exact h.execRegisterWrite
  | checkpoint => exact h.execCheckpoint
  | restore => exact h.execRestore
  | bringUp => exact h.execBringUp
  | enterService => exact h.execEnterService
  | enterTest => exact h.execEnterTest
  | enterD1 => exact h.execEnterD1
  | enterD2 => exact h.execEnterD2
  | enterD3 => exact h.execEnterD3
  | wakeD0 => exact h.execWakeD0
  | clockLevelWrite => exact h.execClockLevelWrite
  | clockLevelChange => exact h.execClockLevelChange
  | debugToken => exact h.execDebugToken
  | debugTokenExpiry => exact h.execDebugTokenExpiry
  | debugTokenRevocation => exact h.execDebugTokenRevocation
  | debugResume => exact h.execDebugResume
  | getVersion => exact h.execGetVersion
  | getCapabilities => exact h.execGetCapabilities
  | negotiateAlgorithms => exact h.execNegotiateAlgorithms
  | getDigests => exact h.execGetDigests
  | getCertificate => exact h.execGetCertificate
  | challenge => exact h.execChallenge
  | getMeasurements => exact h.execGetMeasurements
  | sessionEstablishment => exact h.execSessionEstablishment
  | replayEventDelivery => exact h.execReplayEventDelivery
  | illegalEncoding => exact h.execIllegalEncoding
  | flitCrcFailure => exact h.execFlitCrcFailure
  | reservedKindFlit => exact h.execReservedKindFlit
  | managementLaunchSubmission => exact h.execManagementLaunchSubmission
  | add | sub | and | or | xor | andn | shl | shr | sra | min | max | minn | maxn | mul | mulh | mulhn | divs
  | divn | rems | remn | rotl | rotr | addsh1 | addsh2 | addsh3 => exact h.intBinary
  | clz | ctz | popc | spbank | sprow | brev | bswap | addi | andi | ori | xori | muli | shli | shri | srai
  | rotli | exti => exact h.intUnary
  | ceq | cne | clt | cle | cltn | clen | cbit => exact h.compareRegs
  | ceqi | cnei | clti | clei | cltni | cleni | cgti | cgei => exact h.compareImm
  | lqz => exact h.execLqz
  | lqk => exact h.execLqk
  | pcadd => exact h.execPcadd
  | psel => exact h.execPsel
  | pand | por | pxor | pandn | porn | pnand | pnor | pxnor => exact h.predLogic
  | brPset | brPclr | brZ | brNz | brEop | brEos | brQe | br => exact h.branch
  | jmp => exact h.execJmp
  | jal => exact h.execJal
  | jalr => exact h.execJalr
  | repf => exact h.execRepf
  | nop => exact h.execNop
  | yield => exact h.execYield
  | texit => exact h.execTexit
  | halt => exact h.execHalt
  | faddF32 | fsubF32 | fmulF32 | fdivF32 | fminF32 | fmaxF32 | fcpsF32 | faddF64 | fsubF64 | fmulF64
  | fdivF64 | fminF64 | fmaxF64 | fcpsF64 => exact h.floatBinary
  | fsqrtF32 | fabsF32 | fnegF32 | fsqrtF64 | fabsF64 | fnegF64 | fcvtF64F32 | fcvtF32F64 | fcvtF32S64
  | fcvtF32N64 | fcvtF64S64 | fcvtF64N64 | fcvtS64F32 | fcvtN64F32 | fcvtS64F64 | fcvtN64F64 | fcvtF32B16
  | fcvtB16F32 | fcvtF32F16 | fcvtF16F32 | fcvtF32E4 | fcvtF32E5 | fcvtE4F32 | fcvtE5F32 => exact h.floatUnary
  | fmaF32 | fmsF32 | fnmaF32 | fmaF64 | fmsF64 | fnmaF64 => exact h.floatTernary
  | fceqF32 | fcltF32 | fcleF32 | fceqF64 | fcltF64 | fcleF64 => exact h.floatCompare
  | vadd | vsub | vmul | vdiv | vfma | vfms | vfnma | vmin | vmax | vcps | vand | vor | vxor | vshl | vshr
  | vsra | vadds | vsubs | vmulh => exact h.laneOp
  | vsqrt | vabs | vneg | vrcp | vrsq | vexp2 | vlog2 => exact h.laneUnary
  | vdot | vmovs => exact h.vecWrite
  | vceq | vcne | vclt | vcle => exact h.vecCompare
  | vsel => exact h.execVsel
  | vcvt => exact h.execVcvt
  | vperm => exact h.execVperm
  | vbcst => exact h.execVbcst
  | vins => exact h.execVins
  | vext => exact h.execVext
  | vzipl | vziph | vuzpe | vuzpo => exact h.laneMove
  | vrsum => exact h.execVrsum
  | vrmax | vrmin => exact h.reduceMinMax
  | vrand | vror => exact h.reduce
  | lds8 | ldn8 | lds16 | ldn16 | lds32 | ldn32 | ld64 => exact h.scalarLoad
  | st8 | st16 | st32 | st64 => exact h.scalarStore
  | vld | vlds | vgth => exact h.vectorLoad
  | vst | vsts | vsct => exact h.vectorStore
  | amo64Swap | amo64Cas | amo64Add | amo64Fadd | amo32Swap | amo32Cas | amo32Add | amo32Fadd => exact h.atomic
  | redAdd | redAnd | redOr | redXor | redMax | redMin | redMaxn | redMinn | redFadd | redFmax | redFmin => exact h.reduction
  | vamoSwap | vamoAdd | vamoAnd | vamoOr | vamoXor | vamoMax | vamoMin | vamoFadd => exact h.vectorAtomic
  | fence => exact h.execFence
  | ldfe | ldfec => exact h.fullLoad
  | stfe => exact h.execStfe
  | waitge => exact h.execWaitge
  | migrate => exact h.execMigrate
  | prefetch => exact h.execPrefetch
  | fork => exact h.execFork
  | joinw => exact h.execJoinw
  | launch => exact h.execLaunch
  | tinfo => exact h.execTinfo
  | qbind => exact h.execQbind
  | qpoll => exact h.execQpoll
  | send | sende => exact h.sendWord
  | vqrd => exact h.execVqrd
  | vqwr => exact h.execVqwr
  | itemget => exact h.execItemget
  | itemput => exact h.execItemput
  | barj => exact h.execBarj
  | barl => exact h.execBarl
  | bara => exact h.execBara
  | barw => exact h.execBarw
  | barm => exact h.execBarm
  | csig => exact h.execCsig
  | xset => exact h.execXset
  | xget => exact h.execXget
  | xlaunch => exact h.execXlaunch
  | xwait | mxwait => exact h.waitEngine
  | trig => exact h.execTrig
  | trigc => exact h.execTrigc
  | trigq => exact h.execTrigq
  | mxrd => exact h.execMxrd
  | hdone => exact h.execHdone
  | ppt => exact h.execPpt
  | radd | rmax | rlww | rsadd | rsrem | rmean => exact h.update
  | rshas => exact h.execRshas
  | rfront => exact h.execRfront
  | rwaitf => exact h.execRwaitf
  | hlcrd => exact h.execHlcrd
  | rship => exact h.execRship
  | rstat => exact h.execRstat
  | mbsend => exact h.execMbsend
  | mbrecv => exact h.execMbrecv
  | mbpoll => exact h.execMbpoll
  | trputAdd | trputMin | trputMax | trputAnd | trputOr | trputXor | trputBcast | trputBarrier => exact h.trput
  | trget => exact h.execTrget
  | trap => exact h.execTrap
  | eret => exact h.execEret
  | uiret => exact h.execUiret
  | csrrd => exact h.execCsrrd
  | csrwr | csrset | csrclr => exact h.csrWrite
  | grd => exact h.execGrd
  | gwr => exact h.execGwr
  | tlbinv | tlbinvAll => exact h.tlbInvalidate
  | bkpt => exact h.execBkpt

theorem FormKept.execWord {w : Nat} (h : FormKept s) : OutKept (Machine.execWord w s) := by
  unfold Machine.execWord
  split
  · exact h.execIllegalEncoding
  split
  exacts [h.exec, h.execIllegalEncoding]

theorem FormKept.countResidents {c j : Nat} (h : FormKept s) : FormKept (s.countResidents c j) :=
  (h.foldl fun _ _ h1 => by
    split
    exacts [(.ite h1 h1.setLaunch), h1])

theorem FormKept.beginTurn {c : Nat} (h : FormKept s) : FormKept (s.beginTurn c) :=
  h.modCore.countResidents

theorem FormKept.issueNext {tid : Nat} (h : FormKept s) : OutKept (s.issueNext tid) := by
  unfold State.issueNext
  split
  · trivial
  next t _ =>
  split
  · exact h.finishStall
  split
  · exact FormKept.frame (s := s.enterTrap _ _ _ _) h.enterTrap
  · have h₁ : FormKept (if t.inFrame then s else s.noteTlb t.core t.pc) := .ite h h.noteTlb
    refine FormKept.execWord ?_
    exact h₁.frame

theorem FormKept.choose {c j : Nat} (h : FormKept s) : OnSome (fun e => FormKept e.2) (s.choose c j) := by
  unfold State.choose
  extract_lets handler _ _ chosen
  clear_value chosen handler
  split
  · exact h
  split
  · trivial
  split
  · trivial
  extract_lets s₁
  have h₁ : FormKept s₁ := h.modSlot
  exact h₁.foldl fun _ _ h => h.modThread

theorem FormKept.eventFirst {tid : Nat} (h : FormKept s) : OnSome OutKept (s.eventFirst tid) := by
  unfold State.eventFirst
  split
  · trivial
  split
  · trivial
  split
  · exact h.execAsyncTrapDelivery
  split
  exacts [h.execPreemption, h.execUintDelivery]

theorem FormKept.sampleQueues {c : Nat} (h : FormKept s) : FormKept (s.sampleQueues c) :=
  h.frame

theorem FormKept.newRotation {c : Nat} (h : FormKept s) : FormKept (s.newRotation c) :=
  h.sampleQueues

theorem FormKept.endTurn {c : Nat} (h : FormKept s) : FormKept (s.endTurn c) := by
  unfold State.endTurn
  extract_lets s₁ _ s₂ s₃ s₄
  have h₂ : FormKept s₂ := h.count.count.count.settleClaims
  have h₃ : FormKept s₃ := h₂.modCore
  have h₄ : FormKept s₄ := .ite h₃.frame h₃
  exact .ite h₂.modCore h₄.newRotation

theorem FormKept.turn {c : Nat} (h : FormKept s) : OutKept (s.turn c) := by
  unfold State.turn
  split
  · trivial
  extract_lets b
  have hb : FormKept b := h.beginTurn
  clear_value b
  split
  · exact hb.count.endTurn
  next hp =>
  split
  · next ho => exact h.eventFirst.of_eq ho
  split
  · next hu => exact ((hb.choose.of_eq hp).issueNext.of_eq hu).endTurn
  · trivial
  · trivial

theorem FormKept.safeTierHolds {im : Option Image} (h : FormKept s) : OutKept (s.safeTierHolds im) := by
  unfold State.safeTierHolds
  split
  · next hall =>
    obtain ⟨hm, -, hs⟩ := h
    refine ⟨hm, fun i e => ?_, hs⟩
    obtain rfl : im = some i := e
    exact hall
  · trivial

theorem FormKept.carryOut {c : Choice} (h : FormKept s) : OutKept (s.carryOut c) := by
  unfold State.carryOut
  split
  · trivial
  split
  · exact h.turn
  · split
    exacts [h.exec, trivial]
  · split
    exacts [trivial, h.frame.syncLinks]
  · exact h.memoryError
  · exact h.hostRead
  · exact h.hostWrite2
  · exact h.takeSummary
  · exact h.debugRead
  · exact h.debugWrite
  · exact h.safeTierHolds

theorem FormKept.settlePreempts (h : FormKept s) : FormKept (s.settlePreempts) :=
  (h.foldl fun _ _ h1 => by
    split
    exacts [(.ite h1.preemptNow h1), h1])

theorem FormKept.after {old : State} (h : FormKept s) : FormKept (s.after old) :=
  h.settlePreempts.settleArrivals.settleWaits.finishSummary.finishCheckpoint
    |>.settleMode.settlePower.noteStale.noteGains.noteUrgent.watchObjects.settleQueue

theorem FormKept.step (h : FormKept s) : OutKept (Machine.step s) := by
  unfold Machine.step
  split
  · next rest _ =>
    have h₁ : FormKept { s with agenda := rest } := h.frame
    split
    · next hv => exact (h₁.carryOut.of_eq hv).after
    · trivial
    · trivial
  · have h₁ : FormKept { s with freeN := s.freeN + 1 } := h.frame
    split
    · next hv => exact (h₁.carryOut.of_eq hv).after
    · exact h₁

/-- Settles O59: every step is a choice carried out and what the part then finishes, and each operation of both keeps the form. -/

theorem everyStepKeepsMemoryForm : Obligations.EveryStepKeepsMemoryForm :=
  fun _ _ h e => h.step.of_eq e

end Sys2Proof.Claim
end
section
/-! A COPY entry fires while a directory-overflow handler serves the line of its parameter block (R185, R273, R274). -/
namespace Sys2Proof.Claim
open Machine

/-- A word of the mapped page that an entry watches. -/
def watchedKey : Nat := loadFrame + 0x1000

/-- An ARMED COPY entry on that word: its condition is at least 0, its parameter block stands at the start of the page. -/
def copyEntry : Watch :=
  { state := 1, loc := ⟨watchedKey, 0, 0, 0, word (loadVa + 0x1000)⟩, words := [0, 0, 0, 0, word loadVa] }

/-- The places of the 16 words of the block. -/
def heldBlock : List Loc := (List.range 16).map (fun i => ⟨loadFrame + 8 * i, 0, 0, 0, word (loadVa + 8 * i)⟩)

/-- The machine with a page mapped, the entry in slice 0, and a handler queued that serves the line of the block. -/
def blockHeldBack : State :=
  ({ State.reset.loaded with watch := [(0, [copyEntry])] } : State).queueHandler 0 0 (.directory (loadFrame / 128))

theorem blockHeldBack_block :
    (blockHeldBack.checkWords ⟨copyEntry.user, copyEntry.lnum, 0⟩ (nth copyEntry.words 4 0) 16).toOption = some heldBlock := by
  decide +kernel

theorem blockHeldBack_poison : ∀ l ∈ heldBlock, blockHeldBack.readPoison l 8 = none := by
  decide +kernel

/-- The entry fires once, and its firing has read no block. -/
theorem blockHeldBack_fires :
    (nth ((blockHeldBack.evalWatch watchedKey 0).watchTable 0) 0 {}).pend.map (fun f => f.block) = [[]] := by
  decide +kernel

theorem copyEntry_meets (x : Word) : Meets copyEntry x (threshold copyEntry 0) := by
  show (threshold copyEntry 0).toNat ≤ x.toNat
  exact Nat.zero_le _

/-- A firing takes its block later where a home holds the line of the block back, so the claim fails there. -/
theorem not_watchFirings : ¬ WatchFirings := by
  intro h
  obtain ⟨-, hfires⟩ := h blockHeldBack watchedKey 0 0 copyEntry (by decide +kernel)
  obtain ⟨m, -, -, -, -, -, hfiring, hend⟩ := hfires rfl rfl
  have hm : 0 < m := by
    rcases hend with ⟨hm, -⟩ | ⟨-, -, -, -, hmeets⟩
    · omega
    · by_contra h0
      obtain rfl : m = 0 := by omega
      exact hmeets (copyEntry_meets _)
  obtain ⟨f, hf, -, -, -, hblock⟩ := hfiring 0 hm
  have hempty : f.block = [] := by
    have hmem := List.mem_map_of_mem (f := fun f : Firing => f.block) (List.mem_of_getElem? hf)
    rw [blockHeldBack_fires] at hmem
    exact List.mem_singleton.mp hmem
  have hplaces : blockHeldBack.checkWords ⟨copyEntry.user, copyEntry.lnum, 0⟩ (nth copyEntry.words 4 0) 16 = .ok heldBlock := by
    have hok := blockHeldBack_block
    cases hc : blockHeldBack.checkWords ⟨copyEntry.user, copyEntry.lnum, 0⟩ (nth copyEntry.words 4 0) 16 with
    | error e => rw [hc] at hok; exact absurd hok (Option.some_ne_none _).symm
    | ok ls => rw [hc] at hok; exact congrArg _ (Option.some.inj hok)
  obtain ⟨hwords, -⟩ := hblock rfl heldBlock hplaces blockHeldBack_poison
  have hlength := congrArg List.length (hempty.symm.trans hwords)
  simp [State.wordsAt, heldBlock] at hlength

/-- Refutes O19: where a directory-overflow handler serves the line of a COPY entry's parameter block, the entry fires without
reading the block (R185), and the claim on its firings says that it has. -/
theorem not_accessesAtTheirHome : ¬ Obligations.AccessesAtTheirHome := by
  rintro ⟨-, -, -, -, h⟩
  exact not_watchFirings h

end Sys2Proof.Claim
end

section
/-! Lists changed at one place, and the slots of a core. -/
namespace Sys2Proof.Machine

theorem modify_eq_list_modify {α : Type} (l : List α) (i : Nat) (f : α → α) : modify l i f = l.modify i f := by
  induction l generalizing i with
  | nil => simp [modify]
  | cons a r ih => cases i <;> simp [modify, ih]

theorem nth_modify_self {α : Type} {l : List α} {i : Nat} (h : i < l.length) (f : α → α) (d : α) :
    nth (modify l i f) i d = f (nth l i d) := by
  simp [nth, modify_eq_list_modify, h]

theorem nth_modify_of_ne {α : Type} (l : List α) {i j : Nat} (h : j ≠ i) (f : α → α) (d : α) :
    nth (modify l i f) j d = nth l j d := by
  simp [nth, modify_eq_list_modify, h.symm]

/-- An entry that differs from the default stands in the list. -/
theorem lt_length_of_nth_ne {α : Type} {l : List α} {i : Nat} {d : α} (h : nth l i d ≠ d) : i < l.length := by
  by_contra hge
  exact h (List.getD_eq_default _ _ (by omega))

@[simp] theorem State.thread_passAccounting (s : State) (tid : Nat) (ids : List Nat) (n : Nat) :
    (s.passAccounting tid ids).thread n = s.thread n := rfl
@[simp] theorem State.core_passAccounting (s : State) (tid : Nat) (ids : List Nat) (c : Nat) :
    (s.passAccounting tid ids).core c = s.core c := rfl

end Sys2Proof.Machine
end
section
/-! The entries of one channel changed (R54). -/
namespace Sys2Proof.Claim
open Machine

/-- The state with the entries of channel n of core c changed by f. -/
theorem oneChannel_modCore (s : State) {c n : Nat} (hn : n < (s.core c).chans.length) (f : List Vec → List Vec) :
    OneChannel s (s.modCore c (fun k => { k with chans := modify k.chans n (fun q => { q with entries := f q.entries }) })) c n
      (f (entries s c n)) := by
  refine ⟨rfl, ?_, ?_⟩
  · simp [entries, nth_modify_self hn]
  · intro d m hne
    by_cases hd : d = c
    · subst hd
      have hm : m ≠ n := fun e => hne (by rw [e])
      rw [State.core_modCore_self]
      exact nth_modify_of_ne _ hm _ _
    · rw [State.core_modCore_of_ne _ _ hd]

end Sys2Proof.Claim
end

section
/-! Each kind of channel head: the equation of reading it and of writing it (R54, R88, R97, R240, R246). -/
namespace Sys2Proof.Claim
open Machine
variable {s : State} {tid i : Nat} {t : Thread}

/-- A channel head is a field from 112 to 119. -/
theorem head_field (hi : i < 8) : ¬ 112 + i ≤ 111 ∧ 112 + i ≤ 119 ∧ 112 + i - 112 = i := by omega

theorem readField_channel (h : s.thread tid = some t) (hi : i < 8) (hk : headKind (t.headOf i) = 1) {e : Vec} {l : List Vec}
    (he : entries s t.core (headNum (t.headOf i)) = e :: l) :
    s.readField tid (112 + i) = some (e.truncate 64, s.modCore t.core (fun k =>
      { k with chans := modify k.chans (headNum (t.headOf i)) (fun c => { c with entries := l }) })) := by
  obtain ⟨h1, h2, h3⟩ := head_field hi
  rw [entries] at he
  simp only [State.readField, h, h1, h2, h3, hk, he, if_true, if_false]

theorem readField_channel_empty (h : s.thread tid = some t) (hi : i < 8) (hk : headKind (t.headOf i) = 1)
    (he : entries s t.core (headNum (t.headOf i)) = []) : s.readField tid (112 + i) = none := by
  obtain ⟨h1, h2, h3⟩ := head_field hi
  rw [entries] at he
  simp only [State.readField, h, h1, h2, h3, hk, he, if_true, if_false]

theorem readField_inbox (h : s.thread tid = some t) (hi : i < 8) (hk : headKind (t.headOf i) = 3) {e : InWord} {l : List InWord}
    (he : (nth (s.core t.core).inboxes (headNum (t.headOf i)) {}).words = e :: l) :
    s.readField tid (112 + i) = some (e.word, ((s.modCore t.core (fun k =>
      { k with inboxes := modify k.inboxes (headNum (t.headOf i)) (fun b => { b with words := l }) })).setThread tid
        (t.modCsr (fun c => { c with ts := setBits c.ts 0 0 (if e.last then 1 else 0) }))).passAccounting tid e.acct) := by
  obtain ⟨h1, h2, h3⟩ := head_field hi
  simp only [State.readField, h, h1, h2, h3, hk, he, if_true, if_false, State.modThread, State.thread_modCore]

theorem readField_inbox_empty (h : s.thread tid = some t) (hi : i < 8) (hk : headKind (t.headOf i) = 3)
    (he : (nth (s.core t.core).inboxes (headNum (t.headOf i)) {}).words = []) : s.readField tid (112 + i) = none := by
  obtain ⟨h1, h2, h3⟩ := head_field hi
  simp only [State.readField, h, h1, h2, h3, hk, he, if_true, if_false]

theorem readField_stage_item (h : s.thread tid = some t) (hi : i < 8) (hk : headKind (t.headOf i) = 5) {l l' : Launch} {it : Item}
    (hl : s.launchOf t.lnum = some l) (hin : (s.setThread tid { t with item := none }).inputOf t.lnum l t.stage = .item it l') :
    s.readField tid (112 + i) = some (it.handle, (s.setLaunch t.lnum l').setThread tid { t with item := some it }) := by
  obtain ⟨h1, h2, h3⟩ := head_field hi
  simp only [State.readField, h, h1, h2, h3, hk, hl, hin, if_true, if_false]

theorem readField_stage_end (h : s.thread tid = some t) (hi : i < 8) (hk : headKind (t.headOf i) = 5) {l : Launch}
    (hl : s.launchOf t.lnum = some l) (hin : (s.setThread tid { t with item := none }).inputOf t.lnum l t.stage = .atEnd) :
    s.readField tid (112 + i) =
      some (0, s.setThread tid { (t.modCsr (fun c => { c with ts := setBits c.ts 1 1 1 })) with item := none }) := by
  obtain ⟨h1, h2, h3⟩ := head_field hi
  simp only [State.readField, h, h1, h2, h3, hk, hl, hin, if_true, if_false]

theorem readField_stage_nothing (h : s.thread tid = some t) (hi : i < 8) (hk : headKind (t.headOf i) = 5) {l : Launch}
    (hl : s.launchOf t.lnum = some l) (hin : (s.setThread tid { t with item := none }).inputOf t.lnum l t.stage = .nothing) :
    s.readField tid (112 + i) = none := by
  obtain ⟨h1, h2, h3⟩ := head_field hi
  simp only [State.readField, h, h1, h2, h3, hk, hl, hin, if_true, if_false]

theorem writeField_head (s : State) (tid : Nat) (hi : i < 8) (x : Word) (taint : Bool) :
    s.writeField tid (112 + i) x taint = s.enqueue tid i x := by
  obtain ⟨h1, h2, h3⟩ := head_field hi
  simp only [State.writeField, h1, h2, h3, if_true, if_false]

theorem ts_end_of_stage (ts : Word) : (setBits ts 1 1 1).getLsbD 1 = true := by
  simp [setBits]

theorem writeField_channel (h : s.thread tid = some t) (hi : i < 8) (hk : headKind (t.headOf i) = 2) (x : Word) (taint : Bool) :
    s.writeField tid (112 + i) x taint = s.modCore t.core (fun k =>
      { k with chans := modify k.chans (headNum (t.headOf i)) (fun c => { c with entries := c.entries ++ [x.zeroExtend 512] }) }) := by
  rw [writeField_head s tid hi]
  simp only [State.enqueue, h, hk]

theorem writeField_inbox (h : s.thread tid = some t) (hi : i < 8) (hk : headKind (t.headOf i) = 4) (x : Word) (taint : Bool) :
    s.writeField tid (112 + i) x taint = s.modCore (headLcn (t.headOf i)) (fun k =>
      { k with inboxes := modify k.inboxes (headNum (t.headOf i)) (fun b => { b with words := b.words ++ [⟨x, true, []⟩] }) }) := by
  rw [writeField_head s tid hi]
  simp only [State.enqueue, h, hk]

theorem writeField_stage (h : s.thread tid = some t) (hi : i < 8) (hk : headKind (t.headOf i) = 6) {x : Word} {taint : Bool}
    {l : Launch} {it : Item} {q : Nat} {u u' : StageQueue} (hl : s.launchOf t.lnum = some l) (hit : t.item = some it)
    (hq : l.output t.stage (headSecond (t.headOf i)) = some q) (hu : l.queues[q]? = some u)
    (hoffer : offer u ⟨x, it.seq⟩ = .accepted u') :
    s.writeField tid (112 + i) x taint = s.setLaunch t.lnum { l with queues := modify l.queues q (fun _ => u') } := by
  rw [writeField_head s tid hi]
  simp only [State.enqueue, h, hk, hl, hit, hq, hu, hoffer]

/-- Settles O10: each kind of head by its own equation of readField and writeField. -/
theorem channelHeads : Obligations.ChannelHeads := by
  intro s tid i t h hi
  refine ⟨fun e l hk he => ⟨_, readField_channel h hi hk he, ?_⟩, fun hk he => readField_channel_empty h hi hk he,
    fun x taint hk hn => ?_, fun e l hk he => ?_, fun hk he => readField_inbox_empty h hi hk he,
    fun x taint hk => writeField_inbox h hi hk x taint, fun l hk hl => ⟨fun it l' hin => readField_stage_item h hi hk hl hin,
      fun hin => ?_, fun hin => readField_stage_nothing h hi hk hl hin⟩,
    fun x taint l it q u u' hk hl hit hq hu hoffer => writeField_stage h hi hk hl hit hq hu hoffer⟩
  · have hn : headNum (t.headOf i) < (s.core t.core).chans.length :=
      lt_length_of_nth_ne (d := {}) (fun hd => by simp [entries, hd] at he)
    exact oneChannel_modCore s hn (fun _ => l)
  · rw [writeField_channel h hi hk]
    exact oneChannel_modCore s hn (fun l => l ++ [x.zeroExtend 512])
  · refine ⟨_, _, readField_inbox h hi hk he, by simp, rfl, by simp, fun c hc => ?_, fun n hn => ?_, rfl⟩
    · simp [State.core_modCore_of_ne _ _ hc]
    · simp [State.thread_setThread_of_ne _ _ hn]
  · exact ⟨_, _, readField_stage_end h hi hk hl hin, State.thread_setThread_self .., rfl, ts_end_of_stage _, rfl⟩

end Sys2Proof.Claim
end

section
/-! What the error log, the records of deterministic mode and a save region leave alone: everything but memory, the control
page and the controller's registers (R355, R366, R381, R382). -/
namespace Sys2Proof.Machine
variable {s v : State}

/-- The machine is v, and at most memory, the control page and the controller's registers differ from s. -/
def Noted (s v : State) : Prop := v = { s with mem := v.mem, ctl := v.ctl, mgmt := v.mgmt }

theorem Noted.eq (h : Noted s v) : v = { s with mem := v.mem, ctl := v.ctl, mgmt := v.mgmt } := h

theorem Noted.mgmt (s : State) (m : Mgmt) : Noted s { s with mgmt := m } := rfl

theorem Noted.refl (s : State) : Noted s s := rfl

theorem Noted.trans {w : State} (h : Noted s v) (k : Noted v w) : Noted s w := by
  unfold Noted at *
  rw [k, h]

theorem Noted.ite {c : Prop} {d : Decidable c} {a b : State} (ha : Noted s a) (hb : Noted s b) : Noted s (if c then a else b) := by
  split <;> assumption

theorem Noted.threads (h : Noted s v) : v.threads = s.threads := (congrArg State.threads h.eq :)
theorem Noted.cores (h : Noted s v) : v.cores = s.cores := (congrArg State.cores h.eq :)
theorem Noted.launches (h : Noted s v) : v.launches = s.launches := (congrArg State.launches h.eq :)
theorem Noted.waiters (h : Noted s v) : v.waiters = s.waiters := (congrArg State.waiters h.eq :)
theorem Noted.accs (h : Noted s v) : v.accs = s.accs := (congrArg State.accs h.eq :)

theorem Noted.thread (h : Noted s v) (n : Nat) : v.thread n = s.thread n := by rw [State.thread, h.threads, State.thread]
theorem Noted.core (h : Noted s v) (c : Nat) : v.core c = s.core c := by rw [State.core, h.cores, State.core]
theorem Noted.launchOf (h : Noted s v) (n : Nat) : v.launchOf n = s.launchOf n := by rw [State.launchOf, h.launches, State.launchOf]

theorem Noted.wrByte (s : State) (k : Nat) (b : Byte) : Noted s (s.wrByte k b) := by
  unfold State.wrByte State.wrControl
  split
  · split <;> rfl
  · rfl

theorem Noted.wrBytes (s : State) (k : Nat) (bs : List Byte) : Noted s (s.wrBytes k bs) := by
  induction bs generalizing s k with
  | nil => rfl
  | cons b r ih => exact (wrByte s k b).trans (ih ..)

theorem Noted.wrWord (s : State) (k : Nat) (x : Word) : Noted s (s.wrWord k x) := wrBytes ..

theorem Noted.vput (s : State) (va : Nat) (bs : List Byte) : Noted s (s.vput va bs) := by
  induction bs generalizing s va with
  | nil => rfl
  | cons b r ih =>
    refine trans ?_ (ih ..)
    split
    · exact wrByte ..
    · rfl

theorem Noted.slotPut (s : State) (t : Thread) (off : Nat) (ws : List Word) : Noted s (s.slotPut t off ws) := by
  unfold State.slotPut
  split
  · exact vput ..
  · rfl

theorem Noted.logError (s : State) (code unit : Nat) (w2 w3 : Word) : Noted s (s.logError code unit w2 w3) := by
  refine ite (wrWord ..) ?_
  exact (((wrWord ..).trans (wrWord ..)).trans (wrWord ..)).trans (wrWord ..) |>.trans (mgmt _ _)

theorem Noted.record (s : State) (unit kind : Nat) (w2 w3 : Word) (more : List Word) : Noted s (s.record unit kind w2 w3 more) :=
  ite (refl s) (ite (trans (mgmt s _) (logError ..)) (trans (mgmt s _) (wrBytes ..)))

theorem Noted.noteWalk (s : State) (c : Nat) (r : TrapRec) : Noted s (s.noteWalk c r) := by
  refine ite (refl s) ?_
  split
  · exact logError ..
  · rfl

end Sys2Proof.Machine
end

section
/-! What the settlement of results does to a thread, and that it leaves the other threads alone (R32, R350). -/
namespace Sys2Proof.Machine
variable {s : State} {tid n : Nat} {t : Thread}

theorem State.thread_congr {s v : State} (h : v.threads = s.threads) (n : Nat) : v.thread n = s.thread n :=
  congrArg (fun l => look l n) h

theorem State.thread_modThread_of_ne (s : State) (f : Thread → Thread) (h : n ≠ tid) : (s.modThread tid f).thread n = s.thread n := by
  unfold State.modThread
  split
  · exact State.thread_setThread_of_ne _ _ h
  · rfl

/-- A result written changes registers, taint and flags, and nothing else of the thread. -/
theorem Thread.settleOne_eq (t : Thread) (d : Deferred) : t.settleOne d =
    { t with x := (t.settleOne d).x, taint := (t.settleOne d).taint, v := (t.settleOne d).v, csr := (t.settleOne d).csr } := by
  unfold Thread.settleOne
  split
  · rfl
  · split <;> rfl

/-- So do several. -/
theorem Thread.foldl_settleOne_eq (l : List Deferred) (t : Thread) : l.foldl settleOne t =
    { t with x := (l.foldl settleOne t).x, taint := (l.foldl settleOne t).taint, v := (l.foldl settleOne t).v,
             csr := (l.foldl settleOne t).csr } := by
  induction l generalizing t with
  | nil => rfl
  | cons d r ih =>
    rw [List.foldl_cons, ih, settleOne_eq]

/-- What is outstanding has no part in what a result writes. -/
theorem Thread.settleOne_outs (t : Thread) (d : Deferred) (o : List Deferred) :
    ({ t with outs := o } : Thread).settleOne d = { t.settleOne d with outs := o } := by
  unfold Thread.settleOne
  split
  · rfl
  · split <;> rfl

theorem Thread.foldl_settleOne_outs (l : List Deferred) (t : Thread) (o : List Deferred) :
    l.foldl settleOne { t with outs := o } = { l.foldl settleOne t with outs := o } := by
  induction l generalizing t with
  | nil => rfl
  | cons d r ih => rw [List.foldl_cons, settleOne_outs, ih, List.foldl_cons]

/-- A trap queued for a thread that is there changes its queued traps alone. -/
theorem State.thread_queueTrap_self (h : s.thread tid = some t) (r : TrapRec) :
    ∃ l, (s.queueTrap tid r).thread tid = some { t with traps := l } := by
  unfold State.queueTrap
  simp only [h]
  split
  · exact ⟨_, (Noted.slotPut ..).thread tid |>.trans (State.thread_setThread_self ..)⟩
  · exact ⟨t.traps, (Noted.logError ..).thread tid |>.trans h⟩

theorem State.thread_queueTrap_of_ne (s : State) (r : TrapRec) (hn : n ≠ tid) : (s.queueTrap tid r).thread n = s.thread n := by
  unfold State.queueTrap
  split
  · rfl
  · split
    · exact (Noted.slotPut ..).thread n |>.trans (State.thread_setThread_of_ne _ _ hn)
    · exact (Noted.logError ..).thread n

/-- Several traps queued. -/
theorem State.thread_foldl_queueTrap_self (f : Word → TrapRec) (l : List Word) (h : s.thread tid = some t) :
    ∃ q, (l.foldl (fun s a => s.queueTrap tid (f a)) s).thread tid = some { t with traps := q } := by
  induction l generalizing s t with
  | nil => exact ⟨t.traps, h⟩
  | cons a r ih =>
    obtain ⟨q, hq⟩ := State.thread_queueTrap_self h (f a)
    obtain ⟨q', hq'⟩ := ih hq
    exact ⟨q', hq'⟩

theorem State.thread_foldl_queueTrap_of_ne (s : State) (f : Word → TrapRec) (l : List Word) (hn : n ≠ tid) :
    (l.foldl (fun s a => s.queueTrap tid (f a)) s).thread n = s.thread n := by
  induction l generalizing s with
  | nil => rfl
  | cons a r ih => exact (ih _).trans (State.thread_queueTrap_of_ne s _ hn)

theorem State.thread_settle_of_ne (s : State) (hn : n ≠ tid) : (s.settle tid).thread n = s.thread n := by
  unfold State.settle
  split
  · rfl
  · exact (State.thread_foldl_queueTrap_of_ne _ _ _ hn).trans ((State.thread_foldl_queueTrap_of_ne _ _ _ hn).trans
      (State.thread_setThread_of_ne _ _ hn))

/-- The results that have returned are written, the others stay outstanding; poison and full sets add to the queued traps. -/
theorem State.thread_settle_self (h : s.thread tid = some t) : ∃ q, (s.settle tid).thread tid = some
    { (t.outs.filter (fun d => d.waiting.isEmpty)).foldl Thread.settleOne t with
      outs := t.outs.filter (fun d => !d.waiting.isEmpty), traps := q } := by
  unfold State.settle
  simp only [h]
  rw [Thread.foldl_settleOne_outs]
  obtain ⟨q, hq⟩ := State.thread_foldl_queueTrap_self (fun a => ⟨0x16, a⟩)
    ((t.outs.filter (fun d => d.waiting.isEmpty)).filterMap (fun d => d.full)) (s.thread_setThread_self tid
      { (t.outs.filter (fun d => d.waiting.isEmpty)).foldl Thread.settleOne t with outs := t.outs.filter (fun d => !d.waiting.isEmpty) })
  exact State.thread_foldl_queueTrap_self _ _ hq

/-- With no poison and no full set, no trap is queued. -/
theorem State.settle_clean (h : s.thread tid = some t) (hc : ∀ d ∈ t.outs, d.poison = none ∧ d.full = none) :
    s.settle tid = s.setThread tid { (t.outs.filter (fun d => d.waiting.isEmpty)).foldl Thread.settleOne t with
      outs := t.outs.filter (fun d => !d.waiting.isEmpty) } := by
  have hfull : (t.outs.filter (fun d => d.waiting.isEmpty)).filterMap (fun d => d.full) = [] :=
    List.filterMap_eq_nil_iff.mpr fun d hd => (hc d (List.mem_of_mem_filter hd)).2
  have hpoison : (t.outs.filter (fun d => d.waiting.isEmpty)).filterMap (fun d => d.poison) = [] :=
    List.filterMap_eq_nil_iff.mpr fun d hd => (hc d (List.mem_of_mem_filter hd)).1
  simp only [State.settle, h, hfull, hpoison, List.foldl_nil, Thread.foldl_settleOne_outs]

/-- With every result returned all of them are written, and none is left. -/
theorem Thread.outs_of_allReturned (h : t.allReturned = true) :
    t.outs.filter (fun d => d.waiting.isEmpty) = t.outs ∧ t.outs.filter (fun d => !d.waiting.isEmpty) = [] := by
  have hall : ∀ d ∈ t.outs, d.waiting.isEmpty = true := List.all_eq_true.mp h
  exact ⟨List.filter_eq_self.mpr hall, List.filter_eq_nil_iff.mpr fun d hd => by simp [hall d hd]⟩

/-- What the end of an instruction leaves of a thread, but for its csr, frame, state and pc, is what was there. -/
theorem Thread.advance_eq (t : Thread) (target : Option Word) : t.advance target =
    { t with pc := (t.advance target).pc, csr := (t.advance target).csr, frame := (t.advance target).frame } := by
  unfold Thread.advance
  split
  · rfl
  · split
    · rfl
    · dsimp only
      split
      · rfl
      · split <;> rfl

theorem Thread.after_eq (t : Thread) (target : Option Word) : t.after target =
    { t with pc := (t.after target).pc, csr := (t.after target).csr, frame := (t.after target).frame, state := .ready, wait := none,
             hold := [], marked := false } := by
  unfold Thread.after
  rw [Thread.advance_eq]

@[simp] theorem Thread.after_outs (t : Thread) (target : Option Word) : (t.after target).outs = t.outs := by
  rw [Thread.after_eq]
@[simp] theorem Thread.after_traps (t : Thread) (target : Option Word) : (t.after target).traps = t.traps := by
  rw [Thread.after_eq]
@[simp] theorem Thread.after_state (t : Thread) (target : Option Word) : (t.after target).state = .ready := rfl

/-- The end of an instruction with the marker: the thread is past it, and is settled or PARKED. -/
theorem State.retire_marked (h : s.thread tid = some t) (target : Option Word) :
    ∃ v : State, v.thread tid = some (t.after target) ∧ (∀ n, n ≠ tid → v.thread n = s.thread n) ∧
      s.retire tid true target = if t.allReturned then v.settle tid else v.modThread tid (fun t => { t with state := .parked }) := by
  have hall : (t.after target).allReturned = t.allReturned := by simp [Thread.allReturned]
  refine ⟨(({ s.setThread tid (t.after target) with freeN := s.freeN + 1 } : State).count (t.after target).core 2 1).count
    (t.after target).core 4 1, ?_, fun n hn => ?_, ?_⟩
  · simp [State.thread]
  · simp only [State.thread_count]
    exact State.thread_setThread_of_ne _ _ hn
  · simp only [State.retire, h, ← hall]
    rfl

end Sys2Proof.Machine

namespace Sys2Proof.Claim
open Machine
variable {s : State} {tid : Nat} {t : Thread}

theorem retire_parks (h : s.thread tid = some t) (target : Option Word) (hr : t.allReturned = false) :
    (s.retire tid true target).thread tid = some { t.after target with state := .parked } := by
  obtain ⟨v, hv, -, e⟩ := State.retire_marked h target
  rw [e, hr, if_neg Bool.false_ne_true, State.modThread_of_some hv, State.thread_setThread_self]

theorem retire_settles (h : s.thread tid = some t) (target : Option Word) (hr : t.allReturned = true) :
    ∃ u, (s.retire tid true target).thread tid = some u ∧
      u = { t.outs.foldl Thread.settleOne (t.after target) with outs := [], traps := u.traps } ∧
      ((∀ d ∈ t.outs, d.poison = none ∧ d.full = none) → u.traps = t.traps) := by
  obtain ⟨v, hv, -, e⟩ := State.retire_marked h target
  obtain ⟨hready, hleft⟩ := Thread.outs_of_allReturned (t := t.after target) (by simpa [Thread.allReturned] using hr)
  rw [Thread.after_outs] at hready hleft
  rw [e, if_pos hr]
  obtain ⟨q, hq⟩ := State.thread_settle_self hv
  rw [Thread.after_outs, hready, hleft] at hq
  refine ⟨_, hq, rfl, fun hc => ?_⟩
  have hclean := State.settle_clean hv (by simpa using hc)
  rw [hclean, State.thread_setThread_self, Thread.after_outs, hready, hleft, Thread.foldl_settleOne_eq] at hq
  exact (congrArg Thread.traps (Option.some.inj hq)).symm.trans (Thread.after_traps t target)

theorem retire_others (h : s.thread tid = some t) (target : Option Word) (n : Nat) (hn : n ≠ tid) :
    (s.retire tid true target).thread n = s.thread n := by
  obtain ⟨v, -, hv, e⟩ := State.retire_marked h target
  rw [e, ← hv n hn]
  split
  · exact State.thread_settle_of_ne v hn
  · exact State.thread_modThread_of_ne v _ hn

/-- A NOP that is plain retires, and does nothing else. -/
theorem exec_nop (w : BitVec 1) (h : Plain s t { packet := true }) : exec (.nop w) s = .next (s.retire s.cur (decide (w = 1)) none) := by
  show issue w { packet := true } (fun s _ _ _ => .done s) s = _
  rw [issue_plain h (h.unordered rfl rfl), State.finish_done]

/-- Settles O11: the end of an instruction with the marker parks the thread or settles its results, and NOP is no more than that. -/
theorem markerParksOrSettles : Obligations.MarkerParksOrSettles := by
  refine ⟨fun s tid t target h => ⟨retire_parks h target, retire_settles h target, retire_others h target⟩,
    fun s t h => ⟨fun hr => ⟨_, exec_nop 1 h, retire_parks h.here none hr⟩, fun hr => ?_⟩⟩
  obtain ⟨u, hu, he, -⟩ := retire_settles h.here none hr
  rw [Thread.foldl_settleOne_eq] at he
  exact ⟨_, u, exec_nop 1 h, hu, he ▸ rfl, he ▸ rfl, he ▸ rfl, he ▸ rfl, he ▸ rfl⟩

end Sys2Proof.Claim
end

section
/-! The task queues (R47, R49): what a push and a spill leave, and that they touch no thread. -/
namespace Sys2Proof.Machine
variable {s : State}

/-- A die queue that spills changes the die queues and the overflow area alone. -/
theorem State.roomDie_eq (s : State) (d n fuel : Nat) :
    s.roomDie d n fuel = { s with dieQ := (s.roomDie d n fuel).dieQ, overflow := (s.roomDie d n fuel).overflow } := by
  induction fuel generalizing s with
  | zero => rfl
  | succ k ih =>
    unfold State.roomDie
    dsimp only
    split
    · rfl
    · rw [ih]

/-- A block pushed on a die queue changes the die queues and the overflow area alone. -/
theorem State.pushDie_eq (s : State) (d : Nat) (b : List Nat) :
    s.pushDie d b = { s with dieQ := (s.pushDie d b).dieQ, overflow := (s.pushDie d b).overflow } := by
  unfold State.pushDie
  dsimp only
  rw [State.roomDie_eq]

/-- A grove queue that spills changes the queues above the cores alone. -/
theorem State.roomGrove_eq (s : State) (g n fuel : Nat) : s.roomGrove g n fuel =
    { s with groveQ := (s.roomGrove g n fuel).groveQ, dieQ := (s.roomGrove g n fuel).dieQ,
             overflow := (s.roomGrove g n fuel).overflow } := by
  induction fuel generalizing s with
  | zero => rfl
  | succ k ih =>
    unfold State.roomGrove
    dsimp only
    split
    · rfl
    · rw [ih, State.pushDie_eq]

/-- A block pushed on a grove queue changes the queues above the cores alone. -/
theorem State.pushGrove_eq (s : State) (g : Nat) (b : List Nat) : s.pushGrove g b =
    { s with groveQ := (s.pushGrove g b).groveQ, dieQ := (s.pushGrove g b).dieQ, overflow := (s.pushGrove g b).overflow } := by
  unfold State.pushGrove
  dsimp only
  rw [State.roomGrove_eq]

theorem State.pushGrove_threads (s : State) (g : Nat) (b : List Nat) : (s.pushGrove g b).threads = s.threads := by
  rw [State.pushGrove_eq]
theorem State.pushGrove_cores (s : State) (g : Nat) (b : List Nat) : (s.pushGrove g b).cores = s.cores := by
  rw [State.pushGrove_eq]
theorem State.pushGrove_waiters (s : State) (g : Nat) (b : List Nat) : (s.pushGrove g b).waiters = s.waiters := by
  rw [State.pushGrove_eq]

/-- The block stands at the bottom of its grove queue. -/
theorem State.pushGrove_bottom (s : State) (g : Nat) (b : List Nat) : ∃ l, (look (s.pushGrove g b).groveQ g).getD [] = l ++ b := by
  refine ⟨(look (s.roomGrove g b.length 8).groveQ g).getD [], ?_⟩
  simp [State.pushGrove]

theorem State.pushDeque_threads (s : State) (c tid : Nat) : (s.pushDeque c tid).threads = s.threads := by
  unfold State.pushDeque
  dsimp only
  split
  · rfl
  · exact State.pushGrove_threads ..

theorem State.pushDeque_waiters (s : State) (c tid : Nat) : (s.pushDeque c tid).waiters = s.waiters := by
  unfold State.pushDeque
  dsimp only
  split
  · rfl
  · exact State.pushGrove_waiters ..

theorem State.pushRun_threads (s : State) (c tid : Nat) : (s.pushRun c tid).threads = s.threads := by
  unfold State.pushRun
  split
  · rfl
  · exact State.pushDeque_threads ..

theorem State.pushRun_waiters (s : State) (c tid : Nat) : (s.pushRun c tid).waiters = s.waiters := by
  unfold State.pushRun
  split
  · rfl
  · exact State.pushDeque_waiters ..

/-- A block that a level spills is headed by its oldest entry, holds at most eight, and with the rest makes up the level. -/
theorem State.spillBlock_spec (s : State) {l up rest : List Nat} (hl : l ≠ []) (h : s.spillBlock l = (up, rest)) :
    up.head? = l.head? ∧ up.length ≤ 8 ∧ rest.length < l.length ∧ ∀ x, x ∈ l ↔ x ∈ up ∨ x ∈ rest := by
  cases l with
  | nil => exact absurd rfl hl
  | cons a r =>
    obtain ⟨rfl, rfl⟩ : _ = up ∧ _ = rest := Prod.mk.inj h
    have hsub : ∀ x ∈ (r.filter (s.sameBlock a)).take 7, x ∈ r := fun x hx => List.mem_of_mem_filter (List.mem_of_mem_take hx)
    refine ⟨rfl, ?_, ?_, fun x => ?_⟩
    · simp only [List.length_cons, List.length_take]
      omega
    · exact Nat.lt_succ_of_le (List.length_filter_le ..)
    · have hx := hsub x
      simp only [List.mem_cons, List.mem_filter, decide_eq_true_eq]
      tauto

end Sys2Proof.Machine

namespace Sys2Proof.Claim
open Machine

/-- The core's queues after a push on its deque, whose lists and the spilt block are as R47 has them. -/
theorem pushDeque_room (s : State) (c tid : Nat) (h : (s.core c).deque.length < 64) :
    (s.pushDeque c tid).core c = { s.core c with deque := (s.core c).deque ++ [tid] } := by
  simp [State.pushDeque, h]

theorem pushDeque_full (s : State) (c tid : Nat) (h : 64 ≤ (s.core c).deque.length) : ∃ up rest l,
    (s.pushDeque c tid).core c = { s.core c with deque := rest ++ [tid] } ∧ rest.length < (s.core c).deque.length ∧
      up.head? = (s.core c).deque.head? ∧ up.length ≤ 8 ∧ (∀ x, x ∈ (s.core c).deque ↔ x ∈ up ∨ x ∈ rest) ∧
      (look (s.pushDeque c tid).groveQ (c / 8)).getD [] = l ++ up := by
  obtain ⟨up, rest, hb⟩ : ∃ up rest, s.spillBlock (s.core c).deque = (up, rest) := ⟨_, _, rfl⟩
  have hne : (s.core c).deque ≠ [] := fun e => by simp [e] at h
  obtain ⟨hhead, hlen, hrest, hmem⟩ := s.spillBlock_spec hne hb
  have hpush : s.pushDeque c tid = (s.modCore c (fun k => { k with deque := rest ++ [tid] })).pushGrove (groveOf c) up := by
    simp only [State.pushDeque, hb, if_neg (Nat.not_lt.mpr h)]
  obtain ⟨l, hl⟩ := (s.modCore c (fun k => { k with deque := rest ++ [tid] })).pushGrove_bottom (groveOf c) up
  refine ⟨up, rest, l, ?_, hrest, hhead, hlen, hmem, ?_⟩
  · rw [hpush, State.core, State.pushGrove_cores]
    exact State.core_modCore_self ..
  · rw [hpush]
    exact hl

theorem pushRun_room (s : State) (c tid : Nat) (h : (s.core c).runq.length < 64) :
    (s.pushRun c tid).core c = { s.core c with runq := (s.core c).runq ++ [tid] } := by
  simp [State.pushRun, h]

/-- Settles O40: the arrival is a push on the run queue, whose cases are the lengths of the two lists. -/
theorem arrivalsByMigration : Obligations.ArrivalsByMigration := by
  intro s tid t h hfly hpow q
  let b := s.setThread tid { t with flying := false }
  have hcount : ∀ v : State, ((v.count t.core 8 1).core t.core).runq = (v.core t.core).runq ∧
      ((v.count t.core 8 1).core t.core).deque = (v.core t.core).deque := fun v => by
    rw [State.core_count]
    exact ⟨rfl, rfl⟩
  have hthread : ∀ n, (b.pushRun t.core tid).thread n = b.thread n := State.thread_congr (State.pushRun_threads ..)
  refine ⟨(b.pushRun t.core tid).count t.core 8 1, ?_, ?_, fun n hn => ?_, fun hroom => ?_, fun hfull => ?_⟩
  · show partStep _ = _
    simp [h, hfly, hpow, partStep, b]
  · rw [State.thread_count, hthread, State.thread_setThread_self]
  · rw [State.thread_count, hthread, State.thread_setThread_of_ne _ _ hn]
  · rw [(hcount _).1, (hcount _).2, pushRun_room b t.core tid hroom]
    exact ⟨rfl, rfl⟩
  · have hpush : b.pushRun t.core tid = b.pushDeque t.core tid := if_neg (Nat.not_lt.mpr hfull)
    rw [(hcount _).1, (hcount _).2, hpush, State.count_groveQ]
    refine ⟨?_, fun hroom => ?_, fun hdeque => ?_⟩
    · rcases Nat.lt_or_ge (b.core t.core).deque.length 64 with hd | hd
      · rw [pushDeque_room b _ _ hd]
        rfl
      · obtain ⟨up, rest, l, hcore, -⟩ := pushDeque_full b t.core tid hd
        rw [hcore]
        rfl
    · rw [pushDeque_room b _ _ hroom]
      rfl
    · obtain ⟨up, rest, l, hcore, hrest, hhead, hlen, hmem, hgrove⟩ := pushDeque_full b t.core tid hdeque
      exact ⟨up, rest, l, by rw [hcore], hrest, hhead, hlen, hmem, hgrove⟩

end Sys2Proof.Claim
end

section
/-! A turn of a core issues the instruction that its thread's word decodes to, or takes a trap (R26, R27, R107, R128, R132). -/
namespace Sys2Proof.Claim
open Machine
variable {s : State} {c : Nat} {rest : List Choice}

/-- The outcome of a step that carries out a choice, from the choice's own. -/
def stepEnds (s : State) : Out → Out
  | .next v => .next (v.after s)
  | .fault e => .fault e
  | .refused e => .refused e

/-- The outcome of a turn of core c that issues an instruction, from the instruction's own. -/
def turnEnds (c : Nat) : Out → Out
  | .next v => .next (v.endTurn c)
  | .fault e => .fault e
  | .refused e => .refused e

/-- A word issued does what its instruction does, or takes the trap of a word that is no instruction (R128). -/
theorem execWord_decoded {w : Nat} {i : Instr} (h : parse w = some i) (hi : i.WellFormed) (s : State) : execWord w s = exec i s := by
  rw [execWord, h]
  exact if_pos hi

theorem execWord_undecoded {w : Nat} (h : parse w = none ∨ ∃ i, parse w = some i ∧ ¬ i.WellFormed) (s : State) :
    execWord w s = exec (.illegalEncoding (BitVec.ofNat 32 w)) s := by
  rcases h with h | ⟨i, h, hi⟩
  · rw [execWord, h]
    rfl
  · rw [execWord, h]
    exact if_neg hi

/-- A turn that the agenda names, and that may be given, is the step. -/
theorem step_turn (h : s.agenda = .turn c :: rest) (hlets : ({ s with agenda := rest } : State).lets (.turn c) = true) :
    step s = stepEnds s (({ s with agenda := rest } : State).turn c) := by
  have hcarry : ({ s with agenda := rest } : State).carryOut (.turn c) = ({ s with agenda := rest } : State).turn c :=
    if_neg (not_not_intro hlets)
  unfold step
  simp only [h, hcarry]
  cases ({ s with agenda := rest } : State).turn c <;> rfl

/-- With no eligible resident the turn passes. -/
theorem turn_passes (hdue : s.turnDue c = true) (h : (s.beginTurn c).choose c (s.core c).nextSlot = none) :
    s.turn c = .next (((s.beginTurn c).count c 3 1).endTurn c) := by
  simp only [State.turn, hdue, h, not_true_eq_false, if_false]

/-- The chosen resident issues its next instruction, where no event comes first. -/
theorem turn_issues {tid : Nat} {p : State} (hdue : s.turnDue c = true)
    (h : (s.beginTurn c).choose c (s.core c).nextSlot = some (tid, p)) (hevent : s.eventFirst tid = none) :
    s.turn c = turnEnds c (p.issueNext tid) := by
  simp only [State.turn, hdue, h, hevent, not_true_eq_false, if_false]
  cases p.issueNext tid <;> rfl

/-- The next instruction of a thread whose word cannot be fetched or staggered is a trap. -/
theorem issueNext_trap {p : State} {tid : Nat} {t : Thread} {r : TrapRec} (h : p.thread tid = some t) (hs : t.stalled = none)
    (hr : p.nextWord t = .error r) :
    p.issueNext tid = .next { p.enterTrap tid false r t.pc with freeN := p.freeN + 1 } := by
  simp [State.issueNext, h, hs, hr]

theorem issueNext_word {p : State} {tid w : Nat} {t : Thread} (h : p.thread tid = some t) (hs : t.stalled = none)
    (hw : p.nextWord t = .ok w) :
    p.issueNext tid = execWord w { (if t.inFrame then p else p.noteTlb t.core t.pc) with cur := tid, iword := word w } := by
  simp [State.issueNext, h, hs, hw]

/-- Settles O56: by what the turn finds, a resident or none, and what the resident's word is. -/
theorem stepRunsDecodedInstruction : Obligations.StepRunsDecodedInstruction := by
  intro s c rest h q hdue hlets chosen
  have hstep : step s = stepEnds s (q.turn c) := step_turn h hlets
  refine ⟨fun hnone => ?_, fun tid p t hchosen hevent ht hstalled => ?_⟩
  · rw [hstep, turn_passes hdue hnone]
    rfl
  · have hissue : step s = stepEnds s (turnEnds c (p.issueNext tid)) := by rw [hstep, turn_issues hdue hchosen hevent]
    constructor
    · intro r hr
      rw [hissue, issueNext_trap ht hstalled hr]
      rfl
    · intro w hw u ends
      have hword : step s = ends (execWord w u) := by
        rw [hissue, issueNext_word ht hstalled hw]
        cases execWord w u <;> rfl
      exact ⟨fun i hi hwf => by rw [hword, execWord_decoded hi hwf], fun hi => by rw [hword, execWord_undecoded hi]⟩

end Sys2Proof.Claim
end

section
/-! A thread that stands while others go on: what happens to another thread, or to memory and queues, leaves a thread and its
registration as a waiter as they are (R30, R203). -/
namespace Sys2Proof.Claim
open Machine
variable {m tid : Nat} {p : Thread → Prop} {W : Prop} {s v : State} {α : Type}

/-- Thread m is there and as p says, and waits at a home only if W. -/
def Stands (m : Nat) (p : Thread → Prop) (W : Prop) (s : State) : Prop :=
  (∃ u, s.thread m = some u ∧ p u) ∧ ∀ w ∈ s.waiters, w.tid = m → W

/-- What may happen to thread tid by itself does not make p fail of thread m. -/
def Apart (tid m : Nat) (p : Thread → Prop) : Prop := tid = m → ∀ u, p u

theorem Apart.of_ne (h : tid ≠ m) : Apart tid m p := fun e => absurd e h
theorem Apart.of_true : Apart tid m (fun _ => True) := fun _ _ => trivial

theorem Stands.fewer (h : Stands m p W s) (ht : v.threads = s.threads) (hw : ∀ w ∈ v.waiters, w ∈ s.waiters) : Stands m p W v := by
  obtain ⟨⟨u, hu, hp⟩, hwait⟩ := h
  exact ⟨⟨u, (State.thread_congr ht m).trans hu, hp⟩, fun w hv => hwait w (hw w hv)⟩

theorem Stands.frame (h : Stands m p W s) (ht : v.threads = s.threads := by rfl) (hw : v.waiters = s.waiters := by rfl) :
    Stands m p W v :=
  h.fewer ht fun _ hv => hw ▸ hv

theorem Stands.noted (h : Stands m p W s) (hn : Noted s v) : Stands m p W v := h.frame hn.threads hn.waiters

theorem Stands.ite {c : Prop} {d : Decidable c} {a b : State} (ha : Stands m p W a) (hb : Stands m p W b) :
    Stands m p W (if c then a else b) := by
  split <;> assumption

theorem Stands.foldl {f : State → α → State} {l : List α} (h : Stands m p W s) (k : ∀ s e, Stands m p W s → Stands m p W (f s e)) :
    Stands m p W (l.foldl f s) :=
  List.foldlRecOn l f h fun s hs e _ => k s e hs

theorem Stands.foldr {f : α → State → State} {l : List α} (h : Stands m p W s) (k : ∀ e s, Stands m p W s → Stands m p W (f e s)) :
    Stands m p W (l.foldr f s) :=
  List.foldrRecOn l f h fun s hs e _ => k e s hs

/-- A state whose thread m is as q says, with the same waiters. -/
theorem Stands.becomes {q : Thread → Prop} (h : Stands m p W s) (ht : ∀ u, s.thread m = some u → p u → ∃ r, v.thread m = some r ∧ q r)
    (hw : v.waiters = s.waiters) : Stands m q W v := by
  obtain ⟨⟨u, hu, hp⟩, hwait⟩ := h
  exact ⟨ht u hu hp, fun w hv => hwait w (hw ▸ hv)⟩

theorem Stands.setThread {t : Thread} (h : Stands m p W s) (ht : Apart tid m p) : Stands m p W (s.setThread tid t) :=
  h.becomes (fun u hu hp => by
    by_cases e : m = tid
    · subst e
      exact ⟨t, State.thread_setThread_self .., ht rfl t⟩
    · exact ⟨u, (State.thread_setThread_of_ne _ _ e).trans hu, hp⟩) rfl

/-- A change of a thread that keeps p. -/
theorem Stands.modThreadKept {f : Thread → Thread} (h : Stands m p W s) (hf : ∀ u, p u → p (f u)) : Stands m p W (s.modThread tid f) :=
  h.becomes (fun u hu hp => by
    by_cases e : m = tid
    · subst e
      exact ⟨f u, by rw [State.modThread_of_some hu, State.thread_setThread_self], hf u hp⟩
    · exact ⟨u, (State.thread_modThread_of_ne s f e).trans hu, hp⟩) (by simp)

theorem Stands.modThread {f : Thread → Thread} (h : Stands m p W s) (ht : Apart tid m p) : Stands m p W (s.modThread tid f) := by
  unfold State.modThread
  split
  exacts [h.setThread ht, h]

theorem Stands.modCore {c : Nat} {f : Core → Core} (h : Stands m p W s) : Stands m p W (s.modCore c f) := h.frame
theorem Stands.modSlot {c j : Nat} {f : Slot → Slot} (h : Stands m p W s) : Stands m p W (s.modSlot c j f) := h.frame
theorem Stands.setLaunch {n : Nat} {l : Launch} (h : Stands m p W s) : Stands m p W (s.setLaunch n l) := h.frame
theorem Stands.modLaunch {n : Nat} {f : Launch → Launch} (h : Stands m p W s) : Stands m p W (s.modLaunch n f) :=
  h.frame (by simp) (by simp)
theorem Stands.count {c e n : Nat} (h : Stands m p W s) : Stands m p W (s.count c e n) := h.frame (by simp) (by simp)

theorem Stands.pushDeque {c n : Nat} (h : Stands m p W s) : Stands m p W (s.pushDeque c n) :=
  h.frame (State.pushDeque_threads ..) (State.pushDeque_waiters ..)
theorem Stands.pushRun {c n : Nat} (h : Stands m p W s) : Stands m p W (s.pushRun c n) :=
  h.frame (State.pushRun_threads ..) (State.pushRun_waiters ..)

/-! What a thread holds in reserve, reads and writes (R87, R90, R240). -/

theorem Stands.giveBack {g : Taken} (h : Stands m p W s) : Stands m p W (s.giveBack g) := by
  unfold State.giveBack
  extract_lets
  split
  exacts [h.modCore, h.modCore, h.modLaunch, h.modLaunch, h.modCore, h.modCore, h.modLaunch, h.modLaunch]

theorem Stands.dropGrip (h : Stands m p W s) (ht : Apart tid m p) : Stands m p W (s.dropGrip tid) := by
  unfold State.dropGrip
  split
  exacts [h, .ite h ((h.foldr fun _ _ h1 => h1.giveBack).modThread ht)]

theorem Stands.readField {f : Nat} (h : Stands m p W s) (ht : Apart tid m p) :
    OnSome (fun e => Stands m p W e.2) (s.readField tid f) := by
  unfold State.readField
  split
  · exact h
  split
  · exact h
  split
  · extract_lets
    split
    · split
      exacts [trivial, h.modCore]
    · split
      · trivial
      extract_lets
      exact (h.modCore.modThread ht).frame
    · split
      · exact h
      split
      exacts [trivial, h.setThread ht, h.setLaunch.setThread ht]
    · trivial
  split
  · split
    · trivial
    extract_lets
    split
    exacts [trivial, h.setThread ht]
  split
  · exact h
  split <;> exact h

theorem Stands.of_eq {q : α × State} {x : α} (h : Stands m p W q.2) (e : q = (x, v)) : Stands m p W v := by
  subst e
  exact h

theorem Stands.readFields {fs : List Nat} (h : Stands m p W s) (ht : Apart tid m p) :
    OnSome (fun e => Stands m p W e.2) (s.readFields tid fs) := by
  induction fs generalizing s with
  | nil => exact h
  | cons f r ih =>
    unfold State.readFields
    split
    · trivial
    · next hv1 =>
      split
      · trivial
      · next hv2 =>
        have hr : Stands m p W _ := (h.readField ht).of_eq hv1
        have hrs := (ih hr).of_eq hv2
        exact hrs

theorem Stands.takeRoom {item : Option Item} {f : Nat} (h : Stands m p W s) : Stands m p W (s.takeRoom tid item f).2 := by
  unfold State.takeRoom
  split
  · exact h
  extract_lets
  split
  · exact h
  split
  · exact h.modCore
  · exact h.modCore
  · split
    · exact h
    split
    · exact h
    split
    · split
      · exact h.setLaunch
      split
      exacts [h, h.setLaunch]
    · exact h
  · exact h

theorem Stands.reserveHead {f : Nat} {take : Bool} (h : Stands m p W s) : Stands m p W (s.reserveHead tid f take) := by
  unfold State.reserveHead
  split
  · next hv1 => exact .ite (h.takeRoom.of_eq hv1) (h.foldl fun _ _ h2 => h2.giveBack)

theorem Stands.enqueue {i : Nat} {x : Word} (h : Stands m p W s) : Stands m p W (s.enqueue tid i x) := by
  unfold State.enqueue
  split
  · exact h
  extract_lets
  split
  · exact h.modCore
  · exact h.modCore
  · split
    · split
      · split
        · split
          exacts [h.setLaunch, h]
        · exact h
      · exact h
    · exact h
  · exact h

theorem Stands.writeField {f : Nat} {x : Word} {taint : Bool} (h : Stands m p W s) (ht : Apart tid m p) :
    Stands m p W (s.writeField tid f x taint) :=
  .ite (h.modThread ht) (.ite h.enqueue (.ite (h.modThread ht) h))

/-! Settlement and retirement (R32, R350). -/

theorem Stands.queueTrap {r : TrapRec} (h : Stands m p W s) (ht : Apart tid m p) : Stands m p W (s.queueTrap tid r) := by
  unfold State.queueTrap
  split
  · exact h
  · exact .ite ((h.setThread ht).noted (.slotPut ..)) (h.noted (.logError ..))

theorem Stands.settle (h : Stands m p W s) (ht : Apart tid m p) : Stands m p W (s.settle tid) := by
  unfold State.settle
  split
  · exact h
  · exact ((h.setThread ht).foldl fun _ _ h1 => h1.queueTrap ht).foldl fun _ _ h1 => h1.queueTrap ht

theorem Stands.retire {marker : Bool} {target : Option Word} (h : Stands m p W s) (ht : Apart tid m p) :
    Stands m p W (s.retire tid marker target) := by
  unfold State.retire
  split
  · exact h
  · have hdone : ∀ t : Thread, ∀ c, Stands m p W (({ s.setThread tid t with freeN := s.freeN + 1 } : State).count c 2 1) :=
      fun t c => .count (.frame (h.setThread (t := t) ht))
    exact .ite (hdone _ _) (.ite ((hdone _ _).count.settle ht) ((hdone _ _).count.modThread ht))

/-! Waiters at a home (R201, R203, R233). -/

theorem Stands.wordValue {l : Loc} (h : Stands m p W s) (ht : Apart tid m p) : Stands m p W (s.wordValue tid l).2 := by
  unfold State.wordValue
  split
  exacts [h.queueTrap ht, h]

theorem Stands.stallEnqueue {ws : List (Nat × Word)} {target : Option Word} {marker : Bool} (h : Stands m p W s)
    (ht : Apart tid m p) : Stands m p W (s.stallEnqueue tid ws target marker) := by
  unfold State.stallEnqueue
  split
  exacts [h, (h.foldl fun _ _ h1 => h1.reserveHead).modThread ht]

theorem Stands.giveWaited {w : Waiter} {x : Word} (h : Stands m p W s) (ht : Apart w.tid m p) : Stands m p W (s.giveWaited w x) :=
  .ite ((h.writeField ht).retire ht) (h.stallEnqueue ht)

theorem Stands.takeSources (h : Stands m p W s) (ht : Apart tid m p) : Stands m p W (s.takeSources tid) := by
  unfold State.takeSources
  extract_lets
  split
  · next hv1 => exact ((h.dropGrip ht).readFields ht).of_eq hv1
  · exact h.dropGrip ht

theorem Stands.completeWaiter {w : Waiter} {at' : Nat} (h : Stands m p W s) (ht : Apart w.tid m p) :
    Stands m p W (s.completeWaiter w at') := by
  have hs : Stands m p W ({ s with waiters := s.waiters.filter (fun v => v.tid ≠ w.tid) }.takeSources w.tid) :=
    (h.fewer (v := { s with waiters := s.waiters.filter (fun v => v.tid ≠ w.tid) }) rfl fun _ hv => List.mem_of_mem_filter hv).takeSources ht
  unfold State.completeWaiter
  extract_lets
  split
  · split
    exacts [.ite (hs.modThread ht).pushDeque (hs.retire ht), hs]
  · exact hs.retire ht
  · split
    · next hv1 => exact (((hs.wordValue ht).of_eq hv1).frame).giveWaited ht
  split
  · next hv2 => exact ((hs.wordValue ht).of_eq hv2).giveWaited ht

/-- The waiters of a word leave alone a thread that waits nowhere. -/
theorem Stands.evalWaiters {k at' : Nat} (h : Stands m p W s) (hW : W → ∀ u, p u) : Stands m p W (s.evalWaiters k at') := by
  have hmine : ∀ w ∈ s.waiters.filter (fun w => w.loc.key = k), Apart w.tid m p := fun w hw e =>
    hW (h.2 w (List.mem_of_mem_filter hw) e)
  exact List.foldlRecOn (motive := Stands m p W) _ _ h fun v hv w hw => .ite (hv.completeWaiter (hmine w hw)) hv

end Sys2Proof.Claim
end

section
/-! A thread that stands while another ends: what it gives back, and the launch that it may end (R46, R151, R254). -/
namespace Sys2Proof.Claim
open Machine
variable {m tid : Nat} {p : Thread → Prop} {W : Prop} {s v : State}

/-- The wait of a thread withdrawn: it waits at no home any more. -/
theorem Stands.withdraw (h : Stands m p W s) (ht : Apart tid m p) : Stands m p (W ∧ tid ≠ m) (s.withdraw tid) := by
  obtain ⟨hu, hwait⟩ := h
  have hw : Stands m p (W ∧ tid ≠ m) { s with waiters := s.waiters.filter (fun w => w.tid ≠ tid) } :=
    ⟨hu, fun w hv e => ⟨hwait w (List.mem_of_mem_filter hv) e, fun e' => by simp [e, e'] at hv⟩⟩
  exact (hw.dropGrip ht).modThread ht

theorem Stands.weaken {W' : Prop} (h : Stands m p W s) (hW : W → W') : Stands m p W' s := ⟨h.1, fun w hv e => hW (h.2 w hv e)⟩

theorem Stands.dropPacket (h : Stands m p W s) (ht : Apart tid m p) : Stands m p W (s.dropPacket tid) := by
  unfold State.dropPacket
  split
  · exact h
  split
  exacts [h, (h.setThread ht).modCore]

theorem Stands.releaseChan {c n : Nat} (h : Stands m p W s) : Stands m p W (s.releaseChan c n) := .ite h.modCore h

theorem Stands.unbindAll (h : Stands m p W s) (ht : Apart tid m p) : Stands m p W (s.unbindAll tid) :=
  h.foldl fun s i h1 => by
    unfold State.unbindHead
    split
    exacts [h1, .ite (h1.setThread ht).releaseChan (h1.setThread ht)]

theorem Stands.leaveBarriers (h : Stands m p W s) (ht : Apart tid m p) : Stands m p W (s.leaveBarriers tid) := by
  unfold State.leaveBarriers
  split
  · exact h
  · exact h.foldl fun s n h1 => (h1.frame (v := s.modBarrier n _)).modThread ht

theorem Stands.releaseLine {line : Nat} (h : Stands m p W s) (hW : W → ∀ u, p u) : Stands m p W (s.releaseLine line) := by
  refine Stands.foldl ?_ fun _ _ h1 => h1.evalWaiters hW
  exact .ite h.frame h

/-- A thread that has ended (R151): EXITED, with no position. -/
def Ended (t : Thread) : Prop := t.state = .exited ∧ t.place = none

/-- What a thread gives back before it is EXITED leaves it there, and it waits nowhere. -/
theorem Stands.givesBack {c : Nat} (h : Stands m p W s) (ht : Apart tid m p) : Stands m p (W ∧ tid ≠ m)
    ((((((s.withdraw tid).dropPacket tid).unbindAll tid).leaveBarriers tid).freeBanks tid c).releaseOps tid c) :=
  ((((h.withdraw ht).dropPacket ht).unbindAll ht).leaveBarriers ht).modCore.modCore

/-- The end of a thread from the moment at which it is EXITED: its context slot is free, and so is the line that it has served. -/
theorem Stands.endThread_of {t : Thread} {q : Thread → Prop} {V : Prop} (ht : s.thread tid = some t)
    (h : ∀ f : Thread → Thread, (∀ u, Ended (f u)) → Stands m q V (((((((s.withdraw tid).dropPacket tid).unbindAll
      tid).leaveBarriers tid).freeBanks tid t.core).releaseOps tid t.core).modThread tid f))
    (hV : V → ∀ u, q u) : Stands m q V (s.endThread tid) := by
  unfold State.endThread
  simp only [ht]
  split <;> split
  · exact .releaseLine (.modCore (h _ fun _ => ⟨rfl, rfl⟩)) hV
  · exact .releaseLine (h _ fun _ => ⟨rfl, rfl⟩) hV
  · exact .modCore (h _ fun _ => ⟨rfl, rfl⟩)
  · exact h _ fun _ => ⟨rfl, rfl⟩

theorem Stands.endThread (h : Stands m p W s) (hne : tid ≠ m) (hW : W → ∀ u, p u) : Stands m p W (s.endThread tid) := by
  have hap : Apart tid m p := .of_ne hne
  cases ht : s.thread tid with
  | none =>
    unfold State.endThread
    rw [ht]
    exact h
  | some t => exact .endThread_of ht (fun f _ => ((h.givesBack hap).weaken And.left).modThread hap) hW

/-- A thread that ends is EXITED with no position, and waits nowhere. -/
theorem endThread_ends {t : Thread} (ht : s.thread tid = some t) : Stands tid Ended False (s.endThread tid) := by
  have hthere : Stands tid (fun _ => True) True s := ⟨⟨t, ht, trivial⟩, fun _ _ _ => trivial⟩
  refine .endThread_of ht (fun f hf => ?_) False.elim
  refine ((hthere.givesBack (tid := tid) (c := t.core) .of_true).weaken fun e => e.2 rfl).becomes (fun u hu _ => ?_) (by simp)
  exact ⟨f u, by rw [State.modThread_of_some hu, State.thread_setThread_self], hf u⟩

/-! Threads added, and launches that end and start (R38, R39, R46, R57). -/

theorem look_append_left {α : Type} {l : Tab α} {k : Nat} {a : α} (h : look l k = some a) (r : Tab α) : look (l ++ r) k = some a := by
  induction l with
  | nil => cases h
  | cons e l ih =>
    obtain ⟨j, b⟩ := e
    by_cases hj : j = k
    · simpa [look, hj] using h
    · simpa [look, hj] using ih (by simpa [look, hj] using h)

theorem Stands.addThread {t : Thread} (h : Stands m p W s) : Stands m p W (s.addThread t) :=
  h.becomes (fun u hu hp => ⟨u, look_append_left hu _, hp⟩) rfl

theorem Stands.addBound {t : Thread} (h : Stands m p W s) : Stands m p W (s.addBound t) := .ite h.addThread.pushRun h.addThread

theorem Stands.createThreads {n : Nat} {l : Launch} (h : Stands m p W s) : Stands m p W (s.createThreads n l) := by
  unfold State.createThreads
  refine Stands.modLaunch ?_
  split
  · exact h.foldl fun _ _ h1 => h1.foldl fun _ _ h2 => h2.addBound
  · exact h.foldl fun _ _ h1 => h1.addThread.pushDeque
  · refine h.foldl fun _ _ h1 => ?_
    extract_lets
    split
    exacts [h1, h1.foldl fun _ _ h2 => h2.addBound]

theorem Stands.finishMove {n c : Nat} (h : Stands m p W s) : Stands m p W (s.finishMove n c) := by
  unfold State.finishMove
  split
  · exact h
  extract_lets
  split
  · exact h
  split
  exacts [h, h.setLaunch.foldl fun _ _ h1 => .ite h1 h1.addBound]

theorem Stands.startLaunches (h : Stands m p W s) : Stands m p W s.startLaunches :=
  h.foldl fun s e h1 => by
    split
    exacts [.ite h1 h1.createThreads, h1]

theorem Stands.writeWord16 {n state : Nat} {after : List Nat} (h : Stands m p W s) : Stands m p W (s.writeWord16 n state after) := by
  unfold State.writeWord16
  split
  · exact h
  split
  exacts [h, h.frame]

theorem Stands.completionAdd {n : Nat} {l : Launch} {after : List Nat} (h : Stands m p W s) : Stands m p W (s.completionAdd n l after) := by
  unfold State.completionAdd
  extract_lets
  split
  exacts [h.noted (.logError ..), h.frame]

theorem Stands.clearLaunch {n : Nat} {l : Launch} (h : Stands m p W s) : Stands m p W (s.clearLaunch n l) := by
  unfold State.clearLaunch
  extract_lets s₁ s₂
  have h₂ : Stands m p W s₂ := .ite h.frame h.frame
  exact h₂.frame

theorem Stands.complete {n : Nat} (h : Stands m p W s) : Stands m p W (s.complete n) := by
  unfold State.complete
  split
  · exact h
  split
  · exact h
  extract_lets _ s₁ _ s₂
  have h₁ : Stands m p W s₁ := (Stands.frame h.clearLaunch).writeWord16
  have h₂ : Stands m p W s₂ := by
    unfold s₂
    split
    exacts [h₁.completionAdd, h₁.frame, h₁.frame, h₁]
  exact h₂.frame

theorem Stands.finishThread (h : Stands m p W s) (hne : tid ≠ m) (hW : W → ∀ u, p u) : Stands m p W (s.finishThread tid) := by
  have hend := h.endThread hne hW
  unfold State.finishThread
  split
  · exact h
  refine Stands.startLaunches (Stands.complete ?_)
  split
  exacts [.ite hend.finishMove hend, hend]

/-- A thread that finishes is EXITED with no position, and waits nowhere. -/
theorem finishThread_ends {t : Thread} (ht : s.thread tid = some t) : Stands tid Ended False (s.finishThread tid) := by
  have hend := endThread_ends ht
  unfold State.finishThread
  simp only [ht]
  refine Stands.startLaunches (Stands.complete ?_)
  split
  exacts [.ite hend.finishMove hend, hend]

end Sys2Proof.Claim
end

section
/-! What a thread gives up as it takes a trap: its wait and its open packet, and no slot of any core changes (R90, R243, R349). -/
namespace Sys2Proof.Machine
variable {s : State} {tid n : Nat} {t : Thread}

theorem State.core_congr {s v : State} (h : v.cores = s.cores) (c : Nat) : v.core c = s.core c := by
  rw [State.core, h, State.core]

/-- The slots of each core are f's. -/
def HasSlots (f : Nat → List Slot) (s : State) : Prop := ∀ c, (s.core c).slots = f c

theorem HasSlots.frame {f : Nat → List Slot} {v : State} (h : HasSlots f s) (hc : v.cores = s.cores := by rfl) : HasSlots f v :=
  fun c => by rw [State.core_congr hc, h c]

theorem HasSlots.modCore {f : Nat → List Slot} {d : Nat} {g : Core → Core} (h : HasSlots f s)
    (hg : ∀ k, (g k).slots = k.slots := by intro k; rfl) : HasSlots f (s.modCore d g) := fun c => by
  by_cases hc : c = d
  · subst hc
    rw [State.core_modCore_self, hg, h c]
  · rw [State.core_modCore_of_ne _ _ hc, h c]

theorem HasSlots.modLaunch {f : Nat → List Slot} {g : Launch → Launch} (h : HasSlots f s) : HasSlots f (s.modLaunch n g) :=
  h.frame (State.modLaunch_cores ..)
theorem HasSlots.count {f : Nat → List Slot} {d e k : Nat} (h : HasSlots f s) : HasSlots f (s.count d e k) := fun c => by
  rw [State.core_count, ← h c]

theorem HasSlots.modThread {f : Nat → List Slot} {g : Thread → Thread} (h : HasSlots f s) : HasSlots f (s.modThread n g) :=
  h.frame (State.modThread_cores ..)

theorem State.giveBack_threads (s : State) (g : Taken) : (s.giveBack g).threads = s.threads := by
  unfold State.giveBack
  extract_lets
  split
  exacts [rfl, rfl, State.modLaunch_threads .., State.modLaunch_threads .., rfl, rfl, State.modLaunch_threads .., State.modLaunch_threads ..]

theorem HasSlots.giveBack {f : Nat → List Slot} {g : Taken} (h : HasSlots f s) : HasSlots f (s.giveBack g) := by
  unfold State.giveBack
  extract_lets
  split
  exacts [h.modCore, h.modCore, h.modLaunch, h.modLaunch, h.modCore, h.modCore, h.modLaunch, h.modLaunch]

theorem State.foldr_giveBack_threads (s : State) (l : List Taken) : (l.foldr (fun g s => s.giveBack g) s).threads = s.threads := by
  induction l with
  | nil => rfl
  | cons g r ih => exact (State.giveBack_threads ..).trans ih

/-- A reserve given back changes the wait of its thread alone. -/
theorem State.thread_dropGrip_self (h : s.thread tid = some t) : ∃ w, (s.dropGrip tid).thread tid = some { t with wait := w } := by
  unfold State.dropGrip
  split
  · exact ⟨t.wait, h⟩
  · next w _ =>
    split
    · exact ⟨t.wait, h⟩
    · have hg := (State.thread_congr (s.foldr_giveBack_threads w.grip) tid).trans h
      rw [State.modThread_of_some hg]
      exact ⟨_, State.thread_setThread_self ..⟩

theorem State.thread_dropGrip_of_ne (s : State) (hn : n ≠ tid) : (s.dropGrip tid).thread n = s.thread n := by
  unfold State.dropGrip
  split
  · rfl
  · split
    · rfl
    · exact (State.thread_modThread_of_ne _ _ hn).trans (State.thread_congr (State.foldr_giveBack_threads ..) n)

theorem HasSlots.dropGrip {f : Nat → List Slot} (h : HasSlots f s) : HasSlots f (s.dropGrip tid) := by
  unfold State.dropGrip
  split
  · exact h
  · split
    · exact h
    · exact .modThread (List.foldrRecOn (motive := HasSlots f) _ _ h fun _ h1 _ _ => h1.giveBack)

/-- A wait withdrawn: the thread waits for nothing, and is READY where it was BLOCKED. -/
theorem State.thread_withdraw_self (h : s.thread tid = some t) : (s.withdraw tid).thread tid =
    some { t with wait := none, state := if t.state = .blocked then .ready else t.state } := by
  have hw : ({ s with waiters := s.waiters.filter (fun w => w.tid ≠ tid) } : State).thread tid = some t := h
  obtain ⟨w, hw⟩ := State.thread_dropGrip_self hw
  simp only [State.withdraw]
  rw [State.modThread_of_some hw, State.thread_setThread_self]

theorem State.thread_withdraw_of_ne (s : State) (hn : n ≠ tid) : (s.withdraw tid).thread n = s.thread n :=
  (State.thread_modThread_of_ne _ _ hn).trans (State.thread_dropGrip_of_ne _ hn)

theorem HasSlots.withdraw {f : Nat → List Slot} (h : HasSlots f s) : HasSlots f (s.withdraw tid) :=
  .modThread (.dropGrip h.frame)

/-- An open packet discarded leaves the thread with none. -/
theorem State.thread_dropPacket_self (h : s.thread tid = some t) : (s.dropPacket tid).thread tid = some { t with packet := none } := by
  unfold State.dropPacket
  simp only [h]
  split
  · next hp => rw [h, ← hp]
  · exact State.thread_setThread_self ..

theorem State.thread_dropPacket_of_ne (s : State) (hn : n ≠ tid) : (s.dropPacket tid).thread n = s.thread n := by
  unfold State.dropPacket
  split
  · rfl
  · split
    · rfl
    · exact State.thread_setThread_of_ne _ _ hn

theorem HasSlots.dropPacket {f : Nat → List Slot} (h : HasSlots f s) : HasSlots f (s.dropPacket tid) := by
  unfold State.dropPacket
  split
  · exact h
  · split
    · exact h
    · exact .modCore h.frame

/-- With no result returned, settlement writes nothing. -/
theorem State.settle_waiting (h : s.thread tid = some t) (hw : ∀ d ∈ t.outs, d.waiting ≠ []) : s.settle tid = s := by
  have hnone : t.outs.filter (fun d => d.waiting.isEmpty) = [] :=
    List.filter_eq_nil_iff.mpr fun d hd => by simpa using hw d hd
  have hall : t.outs.filter (fun d => !d.waiting.isEmpty) = t.outs :=
    List.filter_eq_self.mpr fun d hd => by simpa using hw d hd
  simp only [State.settle, h, hnone, hall, List.filterMap_nil, List.foldl_nil]
  exact State.setThread_same h

/-- What a thread with no result returned is when it has given up its wait and its packet. -/
theorem State.gives_up (h : s.thread tid = some t) (hw : ∀ d ∈ t.outs, d.waiting ≠ []) :
    let v := ((s.withdraw tid).dropPacket tid).settle tid
    v.thread tid = some { t with wait := none, packet := none, state := if t.state = .blocked then .ready else t.state } ∧
      (∀ n, n ≠ tid → v.thread n = s.thread n) ∧ HasSlots (fun c => (s.core c).slots) v := by
  have hgone := State.thread_dropPacket_self (State.thread_withdraw_self h)
  intro v
  have hv : v = (s.withdraw tid).dropPacket tid := State.settle_waiting hgone hw
  rw [hv]
  exact ⟨hgone, fun n hn => (State.thread_dropPacket_of_ne _ hn).trans (State.thread_withdraw_of_ne s hn),
    HasSlots.dropPacket (HasSlots.withdraw fun _ => rfl)⟩

end Sys2Proof.Machine

namespace Sys2Proof.Claim
open Machine
variable {s : State} {t : Thread}

/-- The trap of a thread that is no handler, from the state in which a malformed entry has been logged. -/
theorem enterTrap_resident {tid : Nat} {p : Place} (async : Bool) (r : TrapRec) (tepc : Word) (h : s.thread tid = some t)
    (hjob : t.job = none) (hplace : t.place = some p) (hw : ∀ d ∈ t.outs, d.waiting ≠ []) :
    ∃ v : State, s.enterTrap tid async r tepc = v.queueHandler p.core p.slot (.system tid r.code) ∧
      v.thread tid = some { t with
        csr := { t.csr with tcause := word (r.code + (if async then 2 ^ 31 else 0)), tepc := tepc, tval := r.tval },
        state := .trapped, wait := none, packet := none, marked := false, hold := [] } ∧
      (∀ n, n ≠ tid → v.thread n = s.thread n) ∧ HasSlots (fun c => (s.core c).slots) v := by
  have hnoted : Noted s (if async then s else s.noteWalk t.core r) := .ite (.refl s) (.noteWalk ..)
  obtain ⟨hself, hothers, hslots⟩ := State.gives_up ((hnoted.thread tid).trans h) hw
  refine ⟨_, by simp only [State.enterTrap, h, hjob, hplace]; rfl, ?_, fun n hn => ?_, fun c => ?_⟩
  · rw [State.thread_count, State.modThread_of_some hself, State.thread_setThread_self]
  · rw [State.thread_count, State.thread_modThread_of_ne _ _ hn, hothers n hn, hnoted.thread]
  · exact (hslots.modThread.count c).trans (congrArg Core.slots (hnoted.core c))

/-- The handler start of a trap is the last of its slot. -/
theorem starts_queueHandler {v : State} {f : Nat → List Slot} {c j : Nat} (job : HandlerFor) (hv : HasSlots f v) (hj : j < (f c).length) :
    (((v.queueHandler c j job).core c).slot j).starts = (nth (f c) j {}).starts ++ [job] := by
  rw [State.queueHandler, State.modSlot, State.core_modCore_self]
  simp only [Core.slot, hv c, nth_modify_self hj]

theorem enteringATrap : EnteringATrap := by
  intro s tid t async r tepc p h hjob hplace _ houts hslot
  obtain ⟨v, he, hself, hothers, hslots⟩ := enterTrap_resident async r tepc h hjob hplace houts
  rw [he]
  exact ⟨_, hself, rfl, rfl, rfl, rfl, rfl, rfl, rfl, rfl, rfl, rfl, starts_queueHandler _ hslots hslot, hothers⟩

/-- A fatal error keeps a thread that has ended so, and RECOVERY is to follow (R15, R367). -/
theorem Stands.fatalError {m unit cause : Nat} {W : Prop} {w3 : Word} (h : Stands m Ended W s) :
    Stands m Ended W (s.fatalError unit cause w3) := by
  have hall : Stands m Ended W (s.logError 0x05 unit (word cause) w3).preemptAll :=
    (h.noted (.logError ..)).foldl fun _ _ h1 => h1.modThreadKept fun u hu => by
      split
      exacts [hu, hu]
  exact hall.frame

/-- A trap in a handler of system code ends it and its target; one in a handler of a directory line is fatal. -/
theorem handlerTraps : HandlerTraps := by
  refine ⟨fun s tid target first t u async r tepc h hjob hu hne => ?_, fun s tid line t async r tepc h hjob => ?_⟩
  · intro v
    have hv : v = ((((s.noteWalk t.core r).logError 0x06 (unitCore t.core) (word first) (word r.code)).finishThread tid).settle
        target).finishThread target := by
      simp only [v, State.enterTrap, h, hjob]
    refine ⟨hv, ?_⟩
    rw [hv]
    have hlog := (Noted.noteWalk s t.core r).trans (.logError _ 0x06 (unitCore t.core) (word first) (word r.code))
    have hself := (finishThread_ends ((hlog.thread tid).trans h)).settle (.of_ne (Ne.symm hne))
    have hthere : Stands target (fun _ => True) True s := ⟨⟨u, hu, trivial⟩, fun _ _ _ => trivial⟩
    obtain ⟨⟨p, hp, -⟩, -⟩ := (((hthere.noted hlog).finishThread hne fun _ _ => trivial).settle (tid := target) .of_true)
    obtain ⟨⟨q, hq, hqs, hqp⟩, -⟩ := hself.finishThread (Ne.symm hne) False.elim
    obtain ⟨⟨p, hp, hps, hpp⟩, -⟩ := finishThread_ends hp
    exact ⟨q, p, hq, hqs, hqp, hp, hps, hpp⟩
  · intro v
    have hv : v = ((s.noteWalk t.core r).endThread tid).fatalError (unitCore t.core) 2 (word r.code) := by
      simp only [v, State.enterTrap, h, hjob]
    obtain ⟨⟨q, hq, hqs, hqp⟩, -⟩ := (endThread_ends (((Noted.noteWalk s t.core r).thread tid).trans h)).fatalError
      (unit := unitCore t.core) (cause := 2) (w3 := word r.code)
    rw [hv]
    exact ⟨rfl, rfl, q, hq, hqs, hqp⟩

theorem mem_dedup {x : Nat} {l : List Nat} : x ∈ dedup l ↔ x ∈ l := by
  have hfold : ∀ (l acc : List Nat), x ∈ l.foldl (fun acc x => if x ∈ acc then acc else acc ++ [x]) acc ↔ x ∈ acc ∨ x ∈ l := by
    intro l
    induction l with
    | nil => simp
    | cons a r ih =>
      intro acc
      rw [List.foldl_cons, ih]
      split
      · next ha =>
        constructor
        · rintro (h | h)
          · exact .inl h
          · exact .inr (List.mem_cons_of_mem _ h)
        · rintro (h | h)
          · exact .inl h
          · rcases List.mem_cons.mp h with rfl | h
            · exact .inl ha
            · exact .inr h
      · simp [or_assoc]
  simpa [dedup] using hfold l []

theorem dedup_ne_nil {x : Nat} {l : List Nat} (h : x ∈ l) : (dedup l).isEmpty = false := by
  have hx := mem_dedup.mpr h
  cases he : dedup l with
  | nil => simp [he] at hx
  | cons a r => rfl

theorem mem_badRegs {u : Use} (h : (∃ f ∈ u.fields ++ u.regs, t.slen ≤ f ∧ f ≤ 111) ∨ t.slen < u.upto ∧ t.slen ≤ 111 ∨
    ∃ v ∈ u.vregs, t.vlen ≤ v) : (u.badRegs t).isEmpty = false := by
  rcases h with ⟨f, hf, hlo, hhi⟩ | ⟨hup, hhi⟩ | ⟨v, hv, hlo⟩
  · refine dedup_ne_nil (x := f) (List.mem_append_left _ (List.mem_filter.mpr ⟨List.mem_append_left _ hf, ?_⟩))
    simp [hlo, hhi]
  · refine dedup_ne_nil (x := t.slen) (List.mem_append_left _ (List.mem_filter.mpr ⟨List.mem_append_right _ ?_, ?_⟩))
    · simp [hup]
    · simp [hhi]
  · exact dedup_ne_nil (x := 128 + v) (List.mem_append_right _ (List.mem_map_of_mem (List.mem_filter.mpr ⟨hv, by simp [hlo]⟩)))

theorem mem_unbound {u : Use} {f : Nat} (hf : f ∈ u.fields) (hlo : 112 ≤ f) (hhi : f ≤ 119)
    (h : t.kind = .mt ∨ headKind (t.headOf (f - 112)) = 0) : (u.unbound t).isEmpty = false := by
  refine dedup_ne_nil (x := f) (List.mem_filter.mpr ⟨List.mem_append_left _ hf, ?_⟩)
  simp [isHead, hlo, hhi, h]

theorem mem_pendingRegs {u : Use} {f : Nat} (hf : f ∈ u.fields ++ u.regs) (hhi : f ≤ 111) (h : ∃ d ∈ t.outs, d.dest = f) :
    (u.pendingRegs t).isEmpty = false := by
  refine dedup_ne_nil (x := f) (List.mem_filter.mpr ⟨List.mem_append_left _ (List.mem_filter.mpr ⟨List.mem_append_left _ hf, ?_⟩), ?_⟩)
  · simp [hhi]
  · simpa using h

/-- The order of the checks (R107): each is met where none before it is. -/
theorem firstTrap : FirstTrap := by
  intro s t u
  have hform (hm : u.mtOnly = true → t.kind = .mt) : ¬ (u.mtOnly && decide (t.kind ≠ Kind.mt)) = true := by
    simpa using hm
  have hmode (hs : u.system = true → t.user = false) : ¬ (u.system && t.user) = true := by
    simpa using hs
  refine ⟨fun hm hk => ?_, fun hm hs hu => ?_, fun hm hs => ⟨fun hr => ?_, fun hr => ⟨fun hbad => ⟨s.pick (u.badRegs t), ?_⟩,
    fun hbad => ⟨fun ⟨f, hf, hlo, hhi, h⟩ => ⟨s.pick (u.unbound t), ?_⟩,
      fun hunb ⟨f, hf, hhi, h⟩ => ⟨s.pick (u.pendingRegs t), ?_⟩⟩⟩⟩⟩ <;> unfold State.checks
  · exact if_pos (by simp [hm, hk])
  · rw [if_neg (hform hm)]
    exact if_pos (by simp [hs, hu])
  · rw [if_neg (hform hm), if_neg (hmode hs)]
    exact if_pos hr
  · rw [if_neg (hform hm), if_neg (hmode hs), if_neg hr]
    exact if_pos (by simp [mem_badRegs hbad])
  · rw [if_neg (hform hm), if_neg (hmode hs), if_neg hr]
    exact (if_neg (by simp [hbad])).trans (if_pos (by simp [mem_unbound hf hlo hhi h]))
  · rw [if_neg (hform hm), if_neg (hmode hs), if_neg hr]
    exact (if_neg (by simp [hbad])).trans ((if_neg (by simp [hunb])).trans (if_pos (by simp [mem_pendingRegs hf hhi h])))

/-- Settles O33: a trap of a resident, a trap in a handler, and the order of the checks before any. -/
theorem takingATrap : Obligations.TakingATrap := ⟨enteringATrap, handlerTraps, firstTrap⟩

end Sys2Proof.Claim
end

section
/-! Threads added at the next number, and the handlers that a slot starts (R25, R185, R285, R346, R347). -/
namespace Sys2Proof.Machine
variable {s : State} {tid n : Nat} {t : Thread}

theorem look_append_right {α : Type} {l : Tab α} {k : Nat} (h : look l k = none) (r : Tab α) : look (l ++ r) k = look r k := by
  induction l with
  | nil => rfl
  | cons e l ih =>
    obtain ⟨j, b⟩ := e
    by_cases hj : j = k
    · simp [look, hj] at h
    · simpa [look, hj] using ih (by simpa [look, hj] using h)

theorem look_append_singleton_of_ne {α : Type} (l : Tab α) {j k : Nat} (a : α) (h : j ≠ k) : look (l ++ [(k, a)]) j = look l j := by
  cases hl : look l j with
  | none => rw [look_append_right hl]; simp [look, h.symm]
  | some b => exact Claim.look_append_left hl _

/-- A thread added at a free number stands there. -/
theorem State.thread_addThread_self (h : s.thread s.nextTid = none) (t : Thread) : (s.addThread t).thread s.nextTid = some t :=
  (look_append_right h _).trans (by simp [look])

theorem State.thread_addThread_of_ne (s : State) (t : Thread) (h : n ≠ s.nextTid) : (s.addThread t).thread n = s.thread n :=
  look_append_singleton_of_ne s.threads t h

/-- A trap queued changes no core. -/
theorem State.core_queueTrap (s : State) (tid : Nat) (r : TrapRec) (c : Nat) : (s.queueTrap tid r).core c = s.core c := by
  unfold State.queueTrap
  split
  · rfl
  · split
    · exact (Noted.slotPut ..).core c
    · exact (Noted.logError ..).core c

/-- The first trap of a thread with no context slot stands in its queue. -/
theorem State.thread_queueTrap_first (h : s.thread tid = some t) (ht : t.traps = []) (r : TrapRec) :
    (s.queueTrap tid r).thread tid = some { t with traps := [r] } := by
  simp only [State.queueTrap, h, ht]
  exact ((Noted.slotPut ..).thread tid).trans (State.thread_setThread_self ..)

theorem nth_fit {α : Type} {l : List α} {n i : Nat} (d : α) (hl : l.length ≤ n) : nth (fit n d l) i d = nth l i d := by
  simp only [nth, fit, List.take_of_length_le hl, List.getD_eq_getElem?_getD]
  by_cases hi : i < l.length
  · rw [List.getElem?_append_left hi]
  · rw [List.getElem?_append_right (by omega), List.getElem?_eq_none (by omega : l.length ≤ i)]
    cases h : (List.replicate (n - l.length) d)[i - l.length]? with
    | none => rfl
    | some a => exact List.eq_of_mem_replicate (List.mem_of_getElem? h)

/-- The thread that startHandler adds. -/
def handlerThread (s : State) (c j lnum stage : Nat) (system : Bool) (pc : Word) (regs : List Word) (v : List Vec) (hsel : Word)
    (job : HandlerFor) : Thread :=
  let t := newThread .handler .general lnum (Config.free s.freeN) 32 8 c pc regs
  { t with v := fit 8 0 v, stage := stage, place := some ⟨c, j, 7⟩, state := .ready, sbase := 256 * j + 224, vbase := 64 * j + 56,
           csr := { t.csr with ts := if system then 0x10000 else 0, hsel := hsel }, job := some job, age := (s.core c).turns }

theorem State.startHandler_eq (s : State) (c j lnum stage : Nat) (system : Bool) (pc : Word) (regs : List Word) (v : List Vec)
    (hsel : Word) (job : HandlerFor) :
    s.startHandler c j lnum stage system pc regs v hsel job = s.addThread (handlerThread s c j lnum stage system pc regs v hsel job) := rfl

/-- The mode that a handler starts in: system mode but for a drain (R25, R285). -/
theorem Thread.user_of_ts {u : Thread} {system : Bool} (h : u.csr.ts = if system then 0x10000 else 0) : u.user = !system := by
  rw [Thread.user, h]
  cases system <;> decide

/-- What a handler start does: the handler stands at the next number, and its slot has one start fewer to make. -/
theorem State.startHandler_stands {c j : Nat} {rest : List HandlerFor} (hfree : s.thread s.nextTid = none)
    (hj : j < (s.core c).slots.length) (lnum stage : Nat) (system : Bool) (pc : Word) (regs : List Word) (v : List Vec) (hsel : Word)
    (job : HandlerFor) :
    let q := s.modSlot c j (fun q => { q with starts := rest })
    let w := q.startHandler c j lnum stage system pc regs v hsel job
    w.thread s.nextTid = some (handlerThread q c j lnum stage system pc regs v hsel job) ∧ ((w.core c).slot j).starts = rest ∧
      ∀ n, n ≠ s.nextTid → w.thread n = s.thread n := by
  intro q w
  refine ⟨State.thread_addThread_self (s := q) hfree _, ?_, fun n hn => State.thread_addThread_of_ne q _ hn⟩
  have hq : w.core c = (s.modSlot c j (fun q => { q with starts := rest })).core c := rfl
  rw [hq, State.modSlot, State.core_modCore_self, Core.slot, nth_modify_self hj]

end Sys2Proof.Machine

namespace Sys2Proof.Claim
open Machine
variable {s : State}

/-- A start of position 7 happens with the state it leaves. -/
theorem happens_handlerStart {c j : Nat} {v : State} (h : s.handlerStart c j = some v) : Happens (.handlerStart c j) s v :=
  congrArg partStep h

/-- A row of an MXU as vector registers, zeros where it is poisoned (R285, R287). -/
def rowRegs (bad : Bool) (data : BitVec 4096) : List Vec :=
  (List.range 8).map (fun i => if bad then 0 else BitVec.ofNat 512 (data.toNat / 2 ^ (512 * i)))

theorem nth_rowRegs (bad : Bool) (data : BitVec 4096) {i : Nat} (hi : i < 8) :
    nth (fit 8 0 (rowRegs bad data)) i 0 = if bad then 0 else BitVec.ofNat 512 (data.toNat / 2 ^ (512 * i)) := by
  rw [nth_fit 0 (by rw [rowRegs, List.length_map, List.length_range])]
  simp only [nth, rowRegs, List.getD_eq_getElem?_getD, List.getElem?_map, List.getElem?_range hi, Option.map_some, Option.getD_some]

/-- A directory line that a fifth L1 requests has overflowed sharers, and its home starts a handler. -/
theorem happens_directoryOverflow {line c : Nat} (hp : s.mgmt.power = 0) (hh : s.lineHeld (128 * line) = false)
    (hl : s.lineHome line = some c) :
    Happens (.directoryOverflow line) s (({ s with overflowed := Machine.put s.overflowed line false }).queueHandler c (line % 8)
      (.directory line)) := by
  show partStep _ = _
  rw [if_neg (by simp [hp, hh]), hl]
  rfl

/-- Settles O38: each kind of start gives its handler, and a directory overflow asks for one. -/
theorem handlersStart : Obligations.HandlersStart := by
  refine ⟨fun s c j h rest hstart hfree7 hpower hfree hj => ⟨?_, ?_, ?_⟩,
    fun s line c hp hh hl => happens_directoryOverflow hp hh hl⟩
  · rintro target code t rfl ht htrap hret haccs
    obtain ⟨hself, hrest, hothers⟩ := State.startHandler_stands (rest := rest) hfree hj t.lnum t.stage true
      ((s.core c).tbase + word (64 * code)) [word (t.place.getD ⟨c, j, 0⟩).pos, t.csr.tcause, t.csr.tepc, t.csr.tval] []
      (word (t.place.getD ⟨c, j, 0⟩).pos) (.system target code)
    refine ⟨_, _, ⟨happens_handlerStart ?_, hself, rfl, rfl, rfl, rfl, rfl, rfl, rfl, rfl, rfl, rfl, rfl, hrest, hothers⟩,
      Thread.user_of_ts (system := true) rfl, rfl, rfl⟩
    have hdone : s.accs.any (fun a => decide (a.tid = target)) = false := by simpa using haccs
    simp only [State.handlerStart, hstart, hfree7, hpower, ht, htrap, hret, hdone]
    rfl
  · rintro line rfl
    obtain ⟨hself, hrest, hothers⟩ := State.startHandler_stands (rest := rest) hfree hj noLaunch 0 true ((s.core c).tbase + 0x800) []
      [] 0 (.directory line)
    refine ⟨_, _, ⟨happens_handlerStart ?_, hself, rfl, rfl, rfl, rfl, rfl, rfl, rfl, rfl, rfl, rfl, rfl, hrest, hothers⟩,
      Thread.user_of_ts (system := true) rfl⟩
    simp only [State.handlerStart, hstart, hfree7, hpower]
    rfl
  · rintro d x b row n data bad own o rfl ho
    obtain ⟨hself, hrest, hothers⟩ := State.startHandler_stands (rest := rest) hfree hj n o.stage false ((s.core c).tbase + 0xC00)
      [word row, word x, nth o.fields 6 0, nth o.fields 7 0] (rowRegs bad data) 0 (.drain d x b row n data bad own)
    cases bad with
    | false =>
      refine ⟨_, _, ⟨happens_handlerStart ?_, hself, rfl, rfl, rfl, rfl, rfl, rfl, rfl, rfl, rfl, rfl, rfl, hrest, hothers⟩,
        Thread.user_of_ts (system := false) rfl, rfl, fun _ => ⟨rfl, fun i hi => nth_rowRegs false data hi⟩, nofun⟩
      simp only [State.handlerStart, hstart, hfree7, hpower, ho]
      rfl
    | true =>
      refine ⟨_, _, ⟨happens_handlerStart ?_, State.thread_queueTrap_first hself rfl ⟨cECC, Config.freeWord s.freeN⟩, rfl, rfl, rfl, rfl,
        rfl, rfl, rfl, rfl, rfl, rfl, rfl, ?_, fun k hk => ?_⟩, Thread.user_of_ts (system := false) rfl, rfl, nofun, fun _ =>
        ⟨⟨_, rfl⟩, fun i hi => nth_rowRegs true data hi⟩⟩
      · simp only [State.handlerStart, hstart, hfree7, hpower, ho]
        rfl
      · rw [State.core_queueTrap, hrest]
      · rw [State.thread_queueTrap_of_ne _ _ hk, hothers k hk]

end Sys2Proof.Claim
end

section
/-! What the acquisition of bands does, and where a thread stands once it is placed (R22, R39, R355, R357). -/
namespace Sys2Proof.Machine
variable {s v : State} {tid n c j p b count : Nat} {t : Thread}

/-- Threads and launches stay as they are. -/
def ThreadsKept (s v : State) : Prop := v.threads = s.threads ∧ v.launches = s.launches

theorem ThreadsKept.trans {w : State} (h : ThreadsKept s v) (k : ThreadsKept v w) : ThreadsKept s w := ⟨k.1.trans h.1, k.2.trans h.2⟩

theorem Noted.keeps (h : Noted s v) : ThreadsKept s v := ⟨h.threads, h.launches⟩

theorem ThreadsKept.thread (h : ThreadsKept s v) (n : Nat) : v.thread n = s.thread n := State.thread_congr h.1 n
theorem ThreadsKept.launchOf (h : ThreadsKept s v) (n : Nat) : v.launchOf n = s.launchOf n := congrArg (fun l => look l n) h.2

/-- Threads, launches and cores stay as they are. -/
def KeepsCores (s v : State) : Prop := ThreadsKept s v ∧ v.cores = s.cores

theorem KeepsCores.wrBytes_copyPoison (s : State) (k : Nat) (bs : List Byte) (src dst n : Nat) :
    KeepsCores s ((s.wrBytes k bs).copyPoison src dst n) :=
  (⟨(Noted.wrBytes s k bs).keeps, (Noted.wrBytes s k bs).cores⟩ : KeepsCores s (s.wrBytes k bs))

/-- A band copied; the body is taken as equal to the function's name, for at its arguments the kernel would compute with addresses. -/
theorem State.copyBand_keeps (s : State) (c b i : Nat) (out : Bool) : KeepsCores s (s.copyBand c b i out) := by
  generalize hf : State.copyBand = f
  delta State.copyBand at hf
  subst hf
  beta_reduce
  extract_lets
  split
  · exact ⟨⟨rfl, rfl⟩, rfl⟩
  · split
    · exact .wrBytes_copyPoison ..
    · exact .wrBytes_copyPoison ..

theorem ThreadsKept.modCore (h : ThreadsKept s v) (f : Core → Core) : ThreadsKept s (v.modCore c f) := h

theorem State.restoreBand_keeps (s : State) (c b n : Nat) : ThreadsKept s (s.restoreBand c b n) := by
  unfold State.restoreBand
  split
  · exact ⟨rfl, rfl⟩
  · exact (State.copyBand_keeps ..).1.modCore _

theorem State.saveBand_keeps (h : s.saveBand c b n = some v) : ThreadsKept s v := by
  unfold State.saveBand at h
  split at h
  · cases h
  · cases h
    exact (State.copyBand_keeps ..).1.modCore _

theorem State.acquireBand_keeps (h : s.acquireBand c n b = .ok v) : ThreadsKept s v := by
  unfold State.acquireBand at h
  extract_lets _ own at h
  have hown : ∀ s, ThreadsKept s (own s) := fun s => ThreadsKept.trans ⟨rfl, rfl⟩ (State.restoreBand_keeps ..)
  split at h
  · cases h
    exact hown s
  split at h
  · cases h
  split at h
  · next hs =>
    cases h
    exact (State.saveBand_keeps hs).trans (hown _)
  · cases h

theorem State.acquireBands_keeps (h : s.acquireBands c n count = .ok v) : ThreadsKept s v := by
  refine List.foldlRecOn (motive := fun acc : Except NoPlace State => ∀ v, acc = .ok v → ThreadsKept s v) (List.range count) _ ?_ ?_ v h
  · rintro v ⟨⟩
    exact ⟨rfl, rfl⟩
  · intro acc hacc b _ v hv
    cases acc with
    | error e => cases hv
    | ok w => exact (hacc w rfl).trans (State.acquireBand_keeps hv)

/-- The first bands of a core are free, or the launch's own. -/
def BandsFree (s : State) (c n count : Nat) : Prop :=
  ∀ b, b < count → (nth (s.core c).bands b {}).v = false ∨ (nth (s.core c).bands b {}).lnum = n

/-- A change that keeps V and the launch of each entry keeps the bands free. -/
theorem BandsFree.mono {w : State} (h : BandsFree s c n count)
    (hv : ∀ b, (nth (w.core c).bands b {}).v = (nth (s.core c).bands b {}).v ∧
      (nth (w.core c).bands b {}).lnum = (nth (s.core c).bands b {}).lnum) : BandsFree w c n count := fun b hb => by
  rw [(hv b).1, (hv b).2]
  exact h b hb

theorem nth_markSaved (k : Core) (a b : Nat) :
    (nth (k.markSaved a).bands b {}).v = (nth k.bands b {}).v ∧ (nth (k.markSaved a).bands b {}).lnum = (nth k.bands b {}).lnum := by
  by_cases hb : b = a
  · subst hb
    by_cases hlen : b < k.bands.length
    · simp [Core.markSaved, nth_modify_self hlen]
    · have hlen' : (modify k.bands b fun q => { q with saved := k.bandSlots.any (fun x => decide (x.2.2 = b)) }).length ≤ b := by
        rw [modify_eq_list_modify, List.length_modify]
        omega
      simp only [Core.markSaved, nth]
      rw [List.getD_eq_default _ _ hlen', List.getD_eq_default _ _ (by omega)]
      exact ⟨rfl, rfl⟩
  · simp [Core.markSaved, nth_modify_of_ne _ hb]

theorem BandsFree.restoreBand (h : BandsFree s c n count) : BandsFree (s.restoreBand c b n) c n count := by
  unfold State.restoreBand
  split
  · exact h
  · next i _ _ =>
    refine h.mono fun a => ?_
    rw [State.core_modCore_self, (nth_markSaved _ b a).1, (nth_markSaved _ b a).2, State.core_congr (State.copyBand_keeps ..).2]
    exact ⟨rfl, rfl⟩

/-- A free band is acquired, and the bands stay free for the launch. -/
theorem State.acquireBand_free (h : BandsFree s c n count) (hb : b < count) :
    ∃ v, s.acquireBand c n b = .ok v ∧ BandsFree v c n count := by
  refine ⟨_, if_pos (by simpa using h b hb), BandsFree.restoreBand fun a ha => ?_⟩
  rw [State.core_modCore_self]
  by_cases hab : a = b
  · subst hab
    by_cases hlen : a < (s.core c).bands.length
    · exact .inr (by simp [nth_modify_self hlen])
    · refine .inl ?_
      have hlen' : (modify (s.core c).bands a fun q => { q with v := true, lnum := n }).length ≤ a := by
        rw [modify_eq_list_modify, List.length_modify]
        omega
      simp only [nth]
      rw [List.getD_eq_default _ _ hlen']
  · simpa [nth_modify_of_ne _ hab] using h a ha

theorem State.acquireBands_free (h : BandsFree s c n count) : ∃ v, s.acquireBands c n count = .ok v := by
  have hall : ∃ v, s.acquireBands c n count = .ok v ∧ BandsFree v c n count := by
    refine List.foldlRecOn (motive := fun acc : Except NoPlace State => ∃ v, acc = .ok v ∧ BandsFree v c n count)
      (List.range count) _ ⟨s, rfl, h⟩ ?_
    rintro acc ⟨v, rfl, hv⟩ b hb
    exact State.acquireBand_free hv (List.mem_range.mp hb)
  obtain ⟨v, hv, -⟩ := hall
  exact ⟨v, hv⟩

/-- A thread with no saved bank gets none back. -/
theorem State.restoreBanks_none (h : t.saved = [none, none]) : s.restoreBanks c tid t = .ok s := by
  simp [State.restoreBanks, h, nth]

/-- A thread outside a frame is READY at the address given. -/
theorem State.resumeAt_outside (h : s.thread tid = some t) (hf : t.inFrame = false) (pc : Word) :
    s.resumeAt tid pc = s.setThread tid { t with state := .ready, pc := pc, wait := none, hold := [], frame := [] } := by
  have hout : ({ t with state := .ready, pc := pc, wait := none, hold := [], frame := [] } : Thread).inFrame = false := hf
  simp only [State.resumeAt, State.modThread_of_some h, State.thread_setThread_self, hout]
  exact if_pos Bool.false_ne_true

/-- Thread t as it stands in a position, before it is READY there (R22, R29, R255). -/
def placedThread (s : State) (t : Thread) (c j p : Nat) (win : Nat × Nat) : Thread :=
  let u := { t with
    place := some ⟨c, j, p⟩, core := c, sbase := win.1, vbase := win.2, age := (s.core c).turns, waitCount := 0, slotIdx := none,
    saved := [none, none], banks := [false, false], accLost := false, live := 3, preempt := false, ppt := false,
    slotLogged := false, stalled := none, flying := false }
  if u.kind = .mt then { u with shadow0 := freshShadow0, shadow1 := freshShadow1 } else u

/-- What a placement leaves of a thread but its place, windows, marks and shadow sets. -/
theorem placedThread_eq (s : State) (t : Thread) (c j p : Nat) (win : Nat × Nat) : placedThread s t c j p win =
    { t with
      place := some ⟨c, j, p⟩, core := c, sbase := win.1, vbase := win.2, age := (s.core c).turns, waitCount := 0, slotIdx := none,
      saved := [none, none], banks := [false, false], accLost := false, live := 3, preempt := false, ppt := false,
      slotLogged := false, stalled := none, flying := false,
      shadow0 := if t.kind = .mt then freshShadow0 else t.shadow0, shadow1 := if t.kind = .mt then freshShadow1 else t.shadow1 } := by
  unfold placedThread
  split <;> simp_all

end Sys2Proof.Machine
end

section
/-! The placement of threads: what happens in a position, where a thread may stand, and the sources of an MT
(R22, R29, R37, R39, R48). -/
namespace Sys2Proof.Claim
open Machine
variable {s q v : State} {tid c j p n m : Nat} {t : Thread} {l : Launch} {win : Nat × Nat}

/-- Among one possibility the part has no choice. -/
theorem pick_zero (s : State) : s.pick (List.range 1) = 0 := by
  have h := s.pick_mem (l := List.range 1) (by simp)
  simpa using h

/-- The anchored threads bound to a core that wait for a place there (R39). -/
def boundTo (s : State) (c : Nat) : List Nat :=
  (s.live.filter (fun e => decide (e.2.kind = .anchored ∧ e.2.core = c ∧ e.2.place = none ∧
    (e.2.state = .unplaced ∨ e.2.state = .suspended)))).map (fun e => e.1)

/-- The threads that a position of slot j may get, each with the state that it is taken from (R39, R47, R48). -/
def choices (s : State) (c j : Nat) : List (Nat × State) :=
  (boundTo s c).map (fun n => (n, s)) ++
  (if (s.core c).deque.isEmpty && ! ((s.fillFor c j).core c).deque.isEmpty then (boundTo s c).map (fun n => (n, s.fillFor c j)) else []) ++
  (s.findMt c j).toList

/-- With one thread that can be placed, and nowhere lower, a placement is that thread's. -/
theorem placement_of_choice {r : State} (hp : p < 7) (hfree : s.resident c j p = none) (hplacing : s.placing = true)
    (hone : choices s c j = [(tid, r)]) (hplace : r.tryPlace tid c j p = .ok q) (hlow : r.lowerSlot tid c j = false) :
    Happens (.threadPlacement c j p) s q := by
  have hopts := hone
  simp only [choices, boundTo, List.map_map, Function.comp_def] at hopts
  have hpl : s.placement c j p = some q := by
    unfold State.placement
    rw [if_neg (by simp [hfree, hplacing]; omega)]
    simp only [List.map_map, Function.comp_def, hopts, List.filterMap_cons, hplace, hlow, List.filterMap_nil, Bool.false_eq_true,
      if_false, List.length_singleton, pick_zero]
    rfl
  exact congrArg partStep hpl

/-- Where none is brought down, those bound to the core and the MT of R48 are all there are. -/
theorem choices_of_not_brought (h : (s.core c).deque.isEmpty = true → ((s.fillFor c j).core c).deque.isEmpty = true) :
    choices s c j = (boundTo s c).map (fun n => (n, s)) ++ (s.findMt c j).toList := by
  have hnot : ¬ ((s.core c).deque.isEmpty && ! ((s.fillFor c j).core c).deque.isEmpty) = true := by simpa using h
  rw [choices, if_neg hnot, List.append_nil]

/-- With none bound to the core there is only the MT of R48. -/
theorem choices_of_none_bound (h : boundTo s c = []) : choices s c j = (s.findMt c j).toList := by
  simp [choices, h]

theorem placements (s : State) (c j p : Nat) (hp : p < 7) (hfree : s.resident c j p = none) (hplacing : s.placing = true) :
    (∀ tid q, boundTo s c = [tid] → s.findMt c j = none → s.fillFor c j = s → s.tryPlace tid c j p = .ok q →
      s.lowerSlot tid c j = false → Happens (.threadPlacement c j p) s q) ∧
    ∀ tid r q, boundTo s c = [] → s.findMt c j = some (tid, r) → r.tryPlace tid c j p = .ok q → r.lowerSlot tid c j = false →
      Happens (.threadPlacement c j p) s q := by
  refine ⟨fun tid q hb hf hfill hplace hlow => placement_of_choice hp hfree hplacing ?_ hplace hlow,
    fun tid r q hb hf hplace hlow => placement_of_choice hp hfree hplacing ?_ hplace hlow⟩
  · rw [choices_of_not_brought (by rw [hfill]; exact id), hb, hf]
    rfl
  · rw [choices_of_none_bound hb, hf]
    rfl

/-- A thread that its launch and its core accept has a place (R22, R39, R357). -/
theorem tryPlace_admitted (ht : s.thread tid = some t) (hl : s.launchOf t.lnum = some l) (hq : l.queue = ((s.core c).slot j).owner)
    (hst : l.started = true) (hboot : s.mode ≠ .boot) (hin : s.inBounds c j t.lnum l = true) (hoff : s.keptOff c t.lnum = false)
    (hslot : t.slotIdx = none) (hsaved : t.saved = [none, none]) (hbands : BandsFree s c t.lnum l.bands)
    (htest : s.mode = .test → l.managed = true) (hwin : s.windows c j t = some win) : ∃ q, s.tryPlace tid c j p = .ok q := by
  obtain ⟨v, hv⟩ := State.acquireBands_free hbands
  have hback : s.readBack t = t := by simp [State.readBack, hslot]
  simp only [State.tryPlace, ht, hl, hback, hwin, hv, State.restoreBanks_none hsaved]
  exact ⟨_, if_neg (by simp [hq, hst, hboot, hin, hoff]; exact htest)⟩

/-- A placement that succeeds settles the thread in, its windows free and its bands acquired. -/
theorem tryPlace_ok (ht : s.thread tid = some t) (hl : s.launchOf t.lnum = some l) (hslot : t.slotIdx = none)
    (hsaved : t.saved = [none, none]) (h : s.tryPlace tid c j p = .ok q) :
    ∃ win v, s.windows c j t = some win ∧ ThreadsKept s v ∧ q = v.settleIn tid t t c j p win := by
  have hback : s.readBack t = t := by simp [State.readBack, hslot]
  simp only [State.tryPlace, ht, hl, hback] at h
  split at h
  · cases h
  split at h
  · cases h
  next win hwin =>
    split at h
    · cases h
    next v hv =>
      rw [State.restoreBanks_none hsaved] at h
      cases h
      exact ⟨win, v, hwin, State.acquireBands_keeps hv, rfl⟩

/-- Word 16 comes to say that the launch runs, by an access of the part (R37). -/
theorem writeWord16_placed {after : List Nat} {k : Loc} (hl : s.launchOf n = some l) (hk : l.loc = some k) (st : Nat) :
    ∃ a ∈ (s.writeWord16 n st after).accs, a.loc = k ∧ a.op = .store (bytesOf 8 (word16 n st 0).toNat) := by
  simp only [State.writeWord16, hl, hk]
  exact ⟨_, List.mem_append_right _ (List.mem_singleton_self _), rfl, rfl⟩

theorem launchOf_writeWord16 {after : List Nat} (hl : s.launchOf n = some l) (st : Nat) :
    ∃ w, (s.writeWord16 n st after).launchOf n = some { l with word16 := w } := by
  simp only [State.writeWord16, hl]
  split
  · exact ⟨_, hl⟩
  · exact ⟨_, State.launchOf_setLaunch_self ..⟩

theorem threads_writeWord16 (s : State) (n st : Nat) (after : List Nat) : (s.writeWord16 n st after).threads = s.threads := by
  unfold State.writeWord16
  split
  · rfl
  · split <;> rfl

/-- The launch of a placed thread runs. -/
def runs (s : State) (n : Nat) : State :=
  match s.launchOf n with
  | some l => if l.running then s else (s.setLaunch n { l with running := true }).writeWord16 n 1 []
  | none => s

theorem runs_spec (hl : s.launchOf n = some l) : (runs s n).threads = s.threads ∧
    ((runs s n).launchOf n).map (fun m => m.running) = some true ∧
    ∀ k, l.running = false → l.loc = some k → ∃ a ∈ (runs s n).accs, a.loc = k ∧ a.op = .store (bytesOf 8 (word16 n 1 0).toNat) := by
  simp only [runs, hl]
  by_cases hr : l.running = true
  · rw [if_pos hr]
    exact ⟨rfl, by rw [hl, Option.map_some, hr], fun k hf => absurd hf (by simp [hr])⟩
  · rw [if_neg hr]
    have hset := State.launchOf_setLaunch_self s n { l with running := true }
    refine ⟨threads_writeWord16 .., ?_, fun k _ hk => writeWord16_placed hset hk 1⟩
    obtain ⟨w, hw⟩ := launchOf_writeWord16 (after := []) hset 1
    rw [hw, Option.map_some]

/-- Thread u in its position: no GTO resident stands there, its commands are held back no more, its claims have had their effect. -/
def seated (s : State) (tid : Nat) (u : Thread) (c j p : Nat) : State :=
  ((s.setThread tid u).modSlot c j
    (fun q => if q.current = some p then { q with current := none, greed := 0, yielded := false } else q)).modCore c
    (fun k => { k with
      eng1 := k.eng1.map (fun (o : EngOp) => if o.tid = tid then { o with held := false } else o),
      claims := k.claims.map (fun (q : Nat × Nat × Bool) => if q.1 = u.lnum then (q.1, q.2.1, true) else q) })

/-- A thread with no context and no trap due is resumed in its place, and its launch runs. -/
theorem settleIn_resumes (hslot : t.slotIdx = none) (hacc : t.accLost = false) (hdebug : t.debugStop = false) :
    let u := placedThread s t c j p win
    s.settleIn tid t t c j p win = (runs (seated s tid u c j p) u.lnum).resumeAt tid t.pc := by
  simp only [State.settleIn, placedThread, seated, runs, hslot, hacc, hdebug, Option.isSome_none, Bool.false_and,
    Bool.false_eq_true, if_false, false_and] <;> rfl

/-- What stands in the position: the thread at its own pc, READY. -/
theorem settleIn_ready (hl : s.launchOf t.lnum = some l) (hslot : t.slotIdx = none) (hacc : t.accLost = false)
    (hdebug : t.debugStop = false) (hframe : t.inFrame = false) :
    let q := s.settleIn tid t t c j p win
    q.thread tid = some { placedThread s t c j p win with state := .ready, pc := t.pc, wait := none, hold := [], frame := [] } ∧
      (q.launchOf t.lnum).map (fun m => m.running) = some true ∧
      ∀ k, l.running = false → l.loc = some k →
        ∃ a ∈ q.accs, a.loc = k ∧ a.op = .store (bytesOf 8 (word16 t.lnum 1 0).toNat) := by
  have hlnum : (placedThread s t c j p win).lnum = t.lnum := by rw [placedThread_eq]
  have hout : (placedThread s t c j p win).inFrame = false := by rw [placedThread_eq]; exact hframe
  obtain ⟨hth, hrun, hword⟩ := runs_spec (s := seated s tid (placedThread s t c j p win) c j p) (n := t.lnum) hl
  have hself : (runs (seated s tid (placedThread s t c j p win) c j p) t.lnum).thread tid = some (placedThread s t c j p win) :=
    (State.thread_congr hth tid).trans (State.thread_setThread_self ..)
  rw [settleIn_resumes hslot hacc hdebug, hlnum, State.resumeAt_outside hself hout]
  exact ⟨State.thread_setThread_self .., hrun, hword⟩

/-- Where a placed thread stands, and what it keeps. -/
theorem placed (ht : s.thread tid = some t) (hl : s.launchOf t.lnum = some l) (h : s.tryPlace tid c j p = .ok q)
    (hslot : t.slotIdx = none) (hacc : t.accLost = false) (hdebug : t.debugStop = false) (hframe : t.inFrame = false)
    (hsaved : t.saved = [none, none]) :
    ∃ win u, s.windows c j t = some win ∧ q.thread tid = some u ∧ u.state = .ready ∧ u.place = some ⟨c, j, p⟩ ∧ u.core = c ∧
      u.kind = t.kind ∧ u.sbase = win.1 ∧ u.vbase = win.2 ∧ u.pc = t.pc ∧ u.x = t.x ∧ u.v = t.v ∧ u.pw = t.pw ∧
      u.taint = t.taint ∧ u.waitCount = 0 ∧ (t.kind = .mt → u.shadow0 = freshShadow0 ∧ u.shadow1 = freshShadow1) ∧
      (q.launchOf t.lnum).map (fun m => m.running) = some true ∧
      ∀ k, l.running = false → l.loc = some k →
        ∃ a ∈ q.accs, a.loc = k ∧ a.op = .store (bytesOf 8 (word16 t.lnum 1 0).toNat) := by
  obtain ⟨win, v, hwin, hkept, rfl⟩ := tryPlace_ok ht hl hslot hsaved h
  obtain ⟨hself, hrun, hword⟩ := settleIn_ready (s := v) (tid := tid) (c := c) (j := j) (p := p) (win := win)
    ((hkept.launchOf _).trans hl) hslot hacc hdebug hframe
  rw [placedThread_eq] at hself
  exact ⟨win, _, hwin, hself, rfl, rfl, rfl, rfl, rfl, rfl, rfl, rfl, rfl, rfl, rfl, rfl, fun hmt => ⟨if_pos hmt, if_pos hmt⟩, hrun,
    hword⟩

/-- The oldest of the run queue that may stand in the slot is the MT of R48. -/
theorem findMt_run (h : (s.core c).runq.find? (s.standsIn c j) = some m) :
    s.findMt c j = some (m, s.modCore c (fun k => { k with runq := k.runq.filter (fun x => x ≠ m) })) := by
  simp only [State.findMt, h]

/-- Next comes the bottom of the deque that may stand there. -/
theorem findMt_deque (hrun : (s.core c).runq.find? (s.standsIn c j) = none)
    (h : (s.core c).deque.reverse.find? (s.standsIn c j) = some m) :
    s.findMt c j = some (m, s.modCore c (fun k => { k with deque := k.deque.filter (fun x => x ≠ m) })) := by
  have hne : ¬ (s.core c).deque.isEmpty = true := by
    intro he
    simp [List.isEmpty_iff.mp he] at h
  have hfill : s.fillFor c j = s := by
    rw [State.fillFor, if_neg (by simp [hrun])]
    exact if_pos hne
  simp only [State.findMt, hrun, hfill, h]
  rfl

theorem sources (s : State) (c j m : Nat) :
    ((s.core c).runq.find? (s.standsIn c j) = some m → ∃ r, s.findMt c j = some (m, r) ∧
      (r.core c).runq = (s.core c).runq.filter (fun x => x ≠ m) ∧ (r.core c).deque = (s.core c).deque) ∧
    ((s.core c).runq.find? (s.standsIn c j) = none → (s.core c).deque.reverse.find? (s.standsIn c j) = some m →
      ∃ r, s.findMt c j = some (m, r) ∧ (r.core c).deque = (s.core c).deque.filter (fun x => x ≠ m)) :=
  ⟨fun h => ⟨_, findMt_run h, by rw [State.core_modCore_self], by rw [State.core_modCore_self]⟩,
    fun hrun h => ⟨_, findMt_deque hrun h, by rw [State.core_modCore_self]⟩⟩

/-- A run of registers that is free: aligned, within the slot's part of the file, and met by none in use (R22). -/
theorem freeRun_spec {used : List (Nat × Nat)} {lo size step n a : Nat} (h : freeRun used lo size step n = some a) :
    (∃ i, a = lo + step * i) ∧ a + n ≤ lo + size ∧ ∀ u ∈ used, overlap a n u.1 u.2 = false := by
  have hfree := List.find?_some h
  simp only [Bool.and_eq_true, decide_eq_true_eq, List.all_eq_true, Bool.not_eq_true'] at hfree
  obtain ⟨i, -, hi⟩ := List.mem_map.mp (List.mem_of_find?_eq_some h)
  exact ⟨⟨i, hi.symm⟩, hfree⟩

theorem windows_free (h : s.windows c j t = some win) :
    win.1 % 8 = 0 ∧ 256 * j ≤ win.1 ∧ win.1 + t.slen ≤ 256 * j + 224 ∧ win.2 % 4 = 0 ∧ 64 * j ≤ win.2 ∧
    win.2 + t.vlen ≤ 64 * j + 56 ∧ ∀ e ∈ s.inSlot c j, overlap win.1 t.slen e.2.sbase e.2.slen = false ∧
      overlap win.2 t.vlen e.2.vbase e.2.vlen = false := by
  simp only [State.windows] at h
  split at h
  · next a b ha hb =>
    cases h
    obtain ⟨⟨i, hi⟩, hahi, hause⟩ := freeRun_spec ha
    obtain ⟨⟨k, hk⟩, hbhi, hbuse⟩ := freeRun_spec hb
    exact ⟨by omega, by omega, hahi, by omega, by omega, hbhi, fun e he =>
      ⟨hause _ (List.mem_map_of_mem he), hbuse _ (List.mem_map_of_mem he)⟩⟩
  · cases h

/-- Settles O39: which threads a placement places, where, as what, and from where the MT of R48 comes. -/
theorem threadsArePlaced : Obligations.ThreadsArePlaced :=
  ⟨placements, fun _ _ _ _ _ _ _ _ => tryPlace_admitted, fun _ _ _ _ _ _ _ _ => placed, sources, fun _ _ _ _ _ => windows_free⟩

end Sys2Proof.Claim
end

section
/-! How a launch reports its completion, and what the balancer moves (R46, R55 to R57, R336). -/
namespace Sys2Proof.Claim
open Machine
variable {s v : State} {n c i : Nat} {l : Launch} {t : Thread}

/-! Completions (R46, R336). -/

/-- A packet stands at the end of its inbox's words. -/
theorem words_putPacket {acct : List Nat} (ws : List Word) (hi : i < (s.core c).inboxes.length) :
    (nth ((s.putPacket c i ws acct).core c).inboxes i {}).words = (nth (s.core c).inboxes i {}).words ++
      (ws.zip (List.range ws.length)).map (fun e => ⟨e.1, decide (e.2 + 1 = ws.length), if e.2 = 0 then acct else []⟩) := by
  rw [State.putPacket, State.core_modCore_self]
  simp only [nth_modify_self hi]

theorem inboxCompletion {q : Completion} (hq : s.completionOf n 2 = some q) (hp : s.mgmt.power = 0)
    (hfree : s.inboxFree ((nth q.words 6 0).toNat % 2 ^ 11) ((nth q.words 6 0).toNat / 2 ^ 11 % 16) 2 = true) :
    Happens (.launchInboxCompletion n) s ({ s with completions := s.completions.erase q }.putPacket
      ((nth q.words 6 0).toNat % 2 ^ 11) ((nth q.words 6 0).toNat / 2 ^ 11 % 16) [word n, nth q.words 7 0] []) := by
  have hc : bits (nth q.words 6 0) 10 0 = (nth q.words 6 0).toNat % 2 ^ 11 := by simp [bits]
  have hi : bits (nth q.words 6 0) 14 11 = (nth q.words 6 0).toNat / 2 ^ 11 % 16 := by simp [bits]
  show partStep _ = _
  simp only [hq, hc, hi, hp, hfree]
  rfl

/-- A message of the part goes out where its line is free, its descriptor good and a slot free (R336). -/
theorem partMail_sends {w : Who} {a : Word} {b : Box} (bytes : List Byte) (fail : TrapRec → State) (hheld : s.boxHeld w a = false)
    (hbox : s.box w a 1 = .ok b) (hpoison : s.boxPoison b = none) (hroom : b.free ≠ 0) :
    s.partMail c w a bytes fail = some (s.sendMail c 0 b bytes) := by
  simp only [State.partMail, hheld, hbox, hpoison]
  exact if_neg hroom

theorem mailboxCompletion {q : Completion} {b : Box} (hq : s.completionOf n 3 = some q) (hp : s.mgmt.power = 0) :
    let core := (bareLaunch q.words 0 q.user).cores.headD 0
    let r := { s with completions := s.completions.erase q }
    r.boxHeld ⟨q.user, n, core⟩ (nth q.words 6 0) = false → r.box ⟨q.user, n, core⟩ (nth q.words 6 0) 1 = .ok b →
      r.boxPoison b = none → b.free ≠ 0 →
    Happens (.launchMailboxCompletion n) s
      (r.sendMail core 0 b (bytesOf 8 (word16 n 2 0).toNat ++ bytesOf 8 (nth q.words 7 0).toNat)) := by
  intro core r hheld hbox hpoison hroom
  show partStep _ = _
  rw [hq]
  exact congrArg partStep ((if_neg (by simp [hp])).trans (partMail_sends _ _ hheld hbox hpoison hroom))

/-! The balancer's measures and its choice of stages (R55, R56). -/

theorem stageBalancer_waits (h : s.launchOf n = some l) (hdue : s.balanceDue l = false) :
    exec (.stageBalancer n) s = .refused .notEnabled := by
  show partStep _ = _
  rw [h]
  exact congrArg partStep (if_pos (.inl (by simp [hdue])))

theorem stageBalancer_acts (h : s.launchOf n = some l) (hdue : s.balanceDue l = true) (hp : s.mgmt.power = 0) :
    Happens (.stageBalancer n) s
      ((if s.replaying then s else s.balance n 4 ((List.range l.stages.length).map (fun k => (k, l.depth k)))).modLaunch n
        (fun m => { m with
          lastBal := s.dieRotation (dieOf (l.cores.headD 0)) / 2 ^ l.bal
          stages := m.stages.map (fun st => { st with depthSum := 0, samples := 0, blockedTurns := 0, residentTurns := 0 }) })) := by
  show partStep _ = _
  rw [h]
  exact congrArg partStep (if_neg (by simp [hdue, hp]))

theorem blockage_eq {k : Nat} {st : Stage} (h : l.stages[k]? = some st) :
    l.blockage k = fraction st.blockedTurns st.residentTurns := by
  simp only [Launch.blockage, h]
  rfl

theorem depth_first {st : Stage} (h : l.stages[0]? = some st) : l.depth 0 = if l.drawn < l.count ∨ l.taken ≠ [] then 65536 else 0 := by
  simp [Launch.depth, h]

theorem depth_later {k : Nat} {st : Stage} {q : StageQueue} (h : l.stages[k]? = some st) (hk : k ≠ 0)
    (hq : l.queues[st.inq]? = some q) : l.depth k = fraction st.depthSum (st.samples * q.cap) := by
  simp only [Launch.depth, h, if_neg hk, hq, fraction]
  by_cases hs : st.samples = 0
  · simp [hs]
  · by_cases hcap : q.cap = 0 <;> simp [hs, hcap]

/-! A fold that keeps the better of what it has and what comes: what it is left with (R29, R56). -/

section
variable {α : Type} {better : α → α → Bool} {f : Option α → α → Option α} (hnone : ∀ x, f none x = some x)
  (hsome : ∀ b x, f (some b) x = if better x b then some x else some b)
include hnone hsome

theorem foldl_better_mem {xs : List α} : ∀ {b}, xs.foldl f none = some b → b ∈ xs := by
  induction xs using List.reverseRecOn with
  | nil => nofun
  | append_singleton xs x ih =>
    intro b hb
    rw [List.foldl_append, List.foldl_cons, List.foldl_nil] at hb
    cases h : xs.foldl f none with
    | none =>
      rw [h, hnone] at hb
      cases hb
      simp
    | some a =>
      rw [h, hsome] at hb
      split at hb <;> cases hb
      · simp
      · exact List.mem_append_left _ (ih h)

/-- It is left with the one that is better than all before it and than which none after it is better. -/
theorem foldl_better_eq {r : α} {xs ys : List α} (hxs : ∀ b ∈ xs, better r b = true) (hys : ∀ y ∈ ys, better y r = false) :
    (xs ++ r :: ys).foldl f none = some r := by
  rw [List.foldl_append, List.foldl_cons]
  have hr : f (xs.foldl f none) r = some r := by
    cases h : xs.foldl f none with
    | none => exact hnone r
    | some b => rw [hsome, if_pos (hxs b (foldl_better_mem hnone hsome h))]
  rw [hr]
  refine List.foldlRecOn (motive := fun acc => acc = some r) ys f rfl ?_
  rintro _ rfl y hy
  rw [hsome, hys y hy, if_neg Bool.false_ne_true]

/-- In a list in ascending order of a key it is left with what stands first, of equals with the lower key. -/
theorem foldl_better_first {key : α → Nat} {l : List α} {r : α} (hasc : l.Pairwise (fun a b => key a < key b)) (hr : r ∈ l)
    (hasym : ∀ k, better r k = true → better k r = false)
    (hfirst : ∀ k ∈ l, key k ≠ key r → better r k = true ∨ (better k r = false ∧ key r < key k)) : l.foldl f none = some r := by
  obtain ⟨xs, ys, rfl⟩ := List.append_of_mem hr
  obtain ⟨-, hrest, hbefore⟩ := List.pairwise_append.mp hasc
  refine foldl_better_eq hnone hsome (fun b hb => ?_) fun y hy => ?_
  · have hlt := hbefore b hb r (List.mem_cons_self ..)
    rcases hfirst b (List.mem_append_left _ hb) (by omega) with hless | ⟨-, hgt⟩
    · exact hless
    · omega
  · have hlt := (List.pairwise_cons.mp hrest).1 y hy
    rcases hfirst y (by simp [hy]) (by omega) with hless | ⟨hnot, -⟩
    · exact hasym y hless
    · exact hnot
end

/-- Of nothing there is no best. -/
theorem best_nil (better : Nat → Nat → Bool) : best better [] = none := rfl

/-- In a list in ascending order the best is what stands first under the relation, ties by the lower number (R56). -/
theorem best_first {less : Nat → Nat → Prop} {d : ∀ a b, Decidable (less a b)} {p : Nat → Prop} {r : Nat} {l : List Nat}
    (hasc : l.Pairwise (· < ·)) (hmem : ∀ k, k ∈ l ↔ p k) (hasym : ∀ a b, less a b → ¬ less b a) (h : First p less r) :
    best (fun a b => decide (less a b)) l = some r := by
  obtain ⟨hp, hfirst⟩ := h
  refine foldl_better_first (better := fun a b => decide (less a b)) (key := id) (fun _ => rfl) (fun _ _ => rfl) hasc ((hmem r).mpr hp)
    (fun k hk => decide_eq_false (hasym r k (of_decide_eq_true hk))) fun k hk hne => ?_
  exact (hfirst k ((hmem k).mp hk) hne).imp decide_eq_true (And.imp_left decide_eq_false)

/-- The last of an ascending list is its greatest. -/
theorem getLastD_of_max {l : List Nat} {c : Nat} (hasc : l.Pairwise (· < ·)) (hc : c ∈ l) (hmax : ∀ e ∈ l, e ≤ c) (d : Nat) :
    l.getLastD d = c := by
  have hne := List.ne_nil_of_mem hc
  have hle : l.getLast hne ≤ c := hmax _ (List.getLast_mem hne)
  rw [List.getLastD_eq_getLast?, List.getLast?_eq_some_getLast hne, Option.getD_some]
  rw [← List.dropLast_append_getLast hne] at hc hasc
  rcases List.mem_append.mp hc with hd | hl
  · have := (List.pairwise_append.mp hasc).2.2 c hd _ (List.mem_singleton_self _)
    omega
  · exact (List.mem_singleton.mp hl).symm

/-- May stage k of a launch get one core more (R56). -/
def TakesCore (s : State) (n : Nat) (l : Launch) (k : Nat) : Prop :=
  k < l.stages.length ∧ k ∉ s.finishedStages n l ∧ (l.coresOf k).length < (nth l.stages k (stageOf [])).maxc

/-- May stage k of a launch give a core away (R56). -/
def GivesCore (s : State) (n : Nat) (l : Launch) (k : Nat) : Prop :=
  k < l.stages.length ∧ k ∉ s.finishedStages n l ∧ (nth l.stages k (stageOf [])).minc < (l.coresOf k).length

/-- The stages of a launch that go on and that `may` admits. -/
def unfinished (s : State) (n : Nat) (l : Launch) (may : Nat → Bool) : List Nat :=
  ((List.range l.stages.length).filter (fun k => ! decide (k ∈ s.finishedStages n l))).filter may

/-- Stage a has the higher D. -/
def Higher (d : Tab Nat) (a b : Nat) : Prop := (look d b).getD 0 < (look d a).getD 0

/-- Stage a has the lower D, or the same and the higher B. -/
def Lower (l : Launch) (d : Tab Nat) (a b : Nat) : Prop :=
  (look d a).getD 0 < (look d b).getD 0 ∨ ((look d a).getD 0 = (look d b).getD 0 ∧ l.blockage b < l.blockage a)

theorem Higher.asymm {d : Tab Nat} (a b : Nat) (h : Higher d a b) : ¬ Higher d b a := Nat.lt_asymm h

theorem Lower.asymm {d : Tab Nat} (a b : Nat) (h : Lower l d a b) : ¬ Lower l d b a := by
  unfold Lower at *
  omega

/-- The stage that a step of the balancer gives a core to. -/
def recipient (s : State) (n : Nat) (l : Launch) (d : Tab Nat) : Option Nat :=
  best (fun a b => decide ((look d a).getD 0 > (look d b).getD 0))
    (unfinished s n l (fun k => decide ((l.coresOf k).length < (nth l.stages k (stageOf [])).maxc)))

/-- The stage that it takes one from. -/
def donor (s : State) (n : Nat) (l : Launch) (d : Tab Nat) : Option Nat :=
  best (fun a b => decide ((look d a).getD 0 < (look d b).getD 0 ∨
      ((look d a).getD 0 = (look d b).getD 0 ∧ l.blockage a > l.blockage b)))
    (unfinished s n l (fun k => decide ((l.coresOf k).length > (nth l.stages k (stageOf [])).minc)))

theorem mem_unfinished {may : Nat → Bool} {k : Nat} :
    k ∈ unfinished s n l may ↔ k < l.stages.length ∧ k ∉ s.finishedStages n l ∧ may k = true := by
  simp [unfinished, and_comm (a := may k = true)]

theorem mem_takers {k : Nat} :
    k ∈ unfinished s n l (fun k => decide ((l.coresOf k).length < (nth l.stages k (stageOf [])).maxc)) ↔ TakesCore s n l k :=
  mem_unfinished.trans (by rw [decide_eq_true_eq, TakesCore])

theorem mem_givers {k : Nat} :
    k ∈ unfinished s n l (fun k => decide ((l.coresOf k).length > (nth l.stages k (stageOf [])).minc)) ↔ GivesCore s n l k :=
  mem_unfinished.trans (by rw [decide_eq_true_eq, GivesCore])

theorem unfinished_ascending (s : State) (n : Nat) (l : Launch) (may : Nat → Bool) : (unfinished s n l may).Pairwise (· < ·) :=
  (List.pairwise_lt_range.filter _).filter _

theorem recipient_first {d : Tab Nat} {r : Nat} (h : First (TakesCore s n l) (Higher d) r) : recipient s n l d = some r :=
  best_first (unfinished_ascending ..) (fun _ => mem_takers) Higher.asymm h

theorem donor_first {d : Tab Nat} {o : Nat} (h : First (GivesCore s n l) (Lower l d) o) : donor s n l d = some o :=
  best_first (unfinished_ascending ..) (fun _ => mem_givers) Lower.asymm h

theorem recipient_none (d : Tab Nat) (h : ∀ k, ¬ TakesCore s n l k) : recipient s n l d = none := by
  have hnil := List.eq_nil_iff_forall_not_mem.mpr fun k hk => h k (mem_takers.mp hk)
  rw [recipient, hnil, best_nil]

theorem donor_none (d : Tab Nat) (h : ∀ k, ¬ GivesCore s n l k) : donor s n l d = none := by
  have hnil := List.eq_nil_iff_forall_not_mem.mpr fun k hk => h k (mem_givers.mp hk)
  rw [donor, hnil, best_nil]

/-- A step with no recipient or no donor moves nothing. -/
theorem balance_none {d : Tab Nat} (f : Nat) (hl : s.launchOf n = some l) (h : recipient s n l d = none ∨ donor s n l d = none) :
    s.balance n (f + 1) d = s := by
  simp only [recipient, donor, unfinished] at h
  simp only [State.balance, hl]
  rcases h with h | h
  · rw [h]
  · rw [h]
    split
    · next ho => cases ho
    · rfl

/-- Where both are one, or their D's lie too near, nothing moves. -/
theorem balance_near {d : Tab Nat} {r o : Nat} (f : Nat) (hl : s.launchOf n = some l) (hr : recipient s n l d = some r)
    (ho : donor s n l d = some o) (h : r = o ∨ (look d r).getD 0 < (look d o).getD 0 + 8192) : s.balance n (f + 1) d = s := by
  simp only [recipient, donor, unfinished] at hr ho
  simp only [State.balance, hl, hr, ho]
  exact if_pos h

/-- Else the donor's highest core moves, and the balancer goes on with both D's adjusted. -/
theorem balance_moves {d : Tab Nat} {r o : Nat} (f : Nat) (hl : s.launchOf n = some l) (hr : recipient s n l d = some r)
    (ho : donor s n l d = some o) (hne : r ≠ o) (h : (look d o).getD 0 + 8192 ≤ (look d r).getD 0) :
    s.balance n (f + 1) d = (s.moveCore n ((l.coresOf o).getLastD 0) o r).balance n f
      (Machine.put (Machine.put d r ((look d r).getD 0 * (l.coresOf r).length / ((l.coresOf r).length + 1))) o
        (min 65536 ((look d o).getD 0 * (l.coresOf o).length / ((l.coresOf o).length - 1)))) := by
  simp only [recipient, donor, unfinished] at hr ho
  simp only [State.balance, hl, hr, ho]
  exact if_neg (by omega)

end Sys2Proof.Claim
end

section
/-! A core moved to another stage: its threads are marked, and nothing else befalls them (R57). -/
namespace Sys2Proof.Machine
variable {s v : State} {n c i tid : Nat} {l : Launch} {t : Thread}

theorem mem_of_look {α : Type} {l : Tab α} {k : Nat} {a : α} (h : look l k = some a) : (k, a) ∈ l := by
  induction l with
  | nil => cases h
  | cons e l ih =>
    obtain ⟨j, b⟩ := e
    by_cases hj : j = k
    · subst hj
      simp [look] at h
      simp [h]
    · exact List.mem_cons_of_mem _ (ih (by simpa [look, hj] using h))

theorem look_of_mem {α : Type} {l : Tab α} {k : Nat} {a : α} (hk : (l.map (fun e => e.1)).Nodup) (h : (k, a) ∈ l) :
    look l k = some a := by
  induction l with
  | nil => cases h
  | cons e l ih =>
    obtain ⟨j, b⟩ := e
    obtain ⟨hj, hl⟩ := List.nodup_cons.mp hk
    rcases List.mem_cons.mp h with he | hr
    · cases he
      simp [look]
    · have hne : j ≠ k := fun e => hj (List.mem_map.mpr ⟨(k, a), hr, e.symm⟩)
      simpa [look, hne] using ih hl hr

/-- A thread that is not BLOCKED is marked, and goes on. -/
theorem State.moveThread_running (h : ∀ t, s.thread tid = some t → t.state ≠ .blocked) :
    s.moveThread tid = s.modThread tid (fun t => { t with moved := true }) := by
  cases ht : s.thread tid with
  | none => simp [State.moveThread, State.modThread, ht]
  | some t =>
    have hrun : decide (t.state = .blocked) = false := decide_eq_false (h t ht)
    simp only [State.moveThread, State.modThread_of_some ht, State.thread_setThread_self, hrun, Bool.false_and, Bool.false_eq_true, if_false]

/-- The mark that a thread's core has changed stage. -/
def marked (t : Thread) : Thread := { t with moved := true }

theorem State.thread_moveThread (h : ∀ t, s.thread tid = some t → t.state ≠ .blocked) (i : Nat) :
    (s.moveThread tid).thread i = if i = tid then (s.thread i).map marked else s.thread i := by
  rw [State.moveThread_running h]
  by_cases hi : i = tid
  · subst hi
    cases ht : s.thread i with
    | none => simp [State.modThread, ht]
    | some t => simp [State.modThread_of_some ht, marked]
  · rw [if_neg hi, State.thread_modThread_of_ne _ _ hi]

theorem State.launches_moveThread (h : ∀ t, s.thread tid = some t → t.state ≠ .blocked) :
    (s.moveThread tid).launches = s.launches := by
  rw [State.moveThread_running h, State.modThread_launches]

/-- Several threads marked. -/
theorem State.foldl_moveThread {ts : List Nat} (h : ∀ i ∈ ts, ∀ t, s.thread i = some t → t.state ≠ .blocked) :
    let v := ts.foldl (fun s tid => s.moveThread tid) s
    v.launches = s.launches ∧ ∀ i, v.thread i = if i ∈ ts then (s.thread i).map marked else s.thread i := by
  induction ts generalizing s with
  | nil => exact ⟨rfl, fun i => (if_neg (List.not_mem_nil)).symm⟩
  | cons a ts ih =>
    have ha := h a (List.mem_cons_self ..)
    have hrest : ∀ i ∈ ts, ∀ t, (s.moveThread a).thread i = some t → t.state ≠ .blocked := by
      intro i hi t ht
      rw [State.thread_moveThread ha] at ht
      split at ht
      · obtain ⟨u, hu, rfl⟩ := Option.map_eq_some_iff.mp ht
        exact h i (List.mem_cons_of_mem _ hi) u hu
      · exact h i (List.mem_cons_of_mem _ hi) t ht
    obtain ⟨hlaunches, hthreads⟩ := ih hrest
    refine ⟨hlaunches.trans (State.launches_moveThread ha), fun i => (hthreads i).trans ?_⟩
    rw [State.thread_moveThread ha]
    have hidem : marked ∘ marked = marked := rfl
    by_cases hia : i = a
    · simp [hia, hidem]
    · simp [hia]

/-- While a thread of a moved core has still to change over, the move is not finished. -/
theorem State.finishMove_waits (hl : s.launchOf n = some l) {e : Nat × Thread} (he : e ∈ s.coreThreads n l c) (hm : e.2.moved = true) :
    s.finishMove n c = s := by
  simp only [State.finishMove, hl]
  exact if_pos (.inr (List.any_eq_true.mpr ⟨e, he, hm⟩))

end Sys2Proof.Machine

namespace Sys2Proof.Claim
open Machine
variable {s v : State} {n c : Nat} {l : Launch}

/-- The launch as a core of it has moved to stage r. -/
def movedLaunch (l : Launch) (c r : Nat) : Launch :=
  { l with coreStage := Machine.put l.coreStage c r, moving := dedup (l.moving ++ [c]) }

/-- The state in which the move of a core stands in its launch and in the record, before its threads are marked. -/
def moveNoted (s : State) (n c o r : Nat) (l : Launch) : State :=
  ((s.setLaunch n (movedLaunch l c r)).count c 10 1).record (unitDie (dieOf (l.cores.headD 0))) 8
    (word (n % 2 ^ 14 + o * 2 ^ 16 + r * 2 ^ 20)) (word c) []

theorem moveNoted_spec (s : State) (n c o r : Nat) (l : Launch) :
    (moveNoted s n c o r l).threads = s.threads ∧ (moveNoted s n c o r l).launchOf n = some (movedLaunch l c r) := by
  have hrec := Noted.record ((s.setLaunch n (movedLaunch l c r)).count c 10 1) (unitDie (dieOf (l.cores.headD 0))) 8
    (word (n % 2 ^ 14 + o * 2 ^ 16 + r * 2 ^ 20)) (word c) []
  exact ⟨hrec.threads.trans (by simp), (hrec.launchOf n).trans (by simp)⟩

theorem moveCore_eq (o r : Nat) (h : s.launchOf n = some l) : s.moveCore n c o r =
    (((s.coreThreads n l c).map (fun e => e.1)).foldl (fun s tid => s.moveThread tid) (moveNoted s n c o r l)).finishMove n c := by
  have hts : (moveNoted s n c o r l).coreThreads n l c = s.coreThreads n l c := by
    simp only [State.coreThreads, State.threadsOf, State.live, (moveNoted_spec s n c o r l).1]
  rw [← hts]
  simp only [State.moveCore, h]
  rfl

theorem mem_coreThreads {e : Nat × Thread} : e ∈ s.coreThreads n l c ↔
    e ∈ s.threads ∧ e.2.state ≠ .exited ∧ e.2.lnum = n ∧ e.2.kind ≠ .handler ∧ e.2.tnum / 64 = l.indexOf c := by
  simp [State.coreThreads, State.threadsOf, State.live, and_assoc, and_comm, and_left_comm]

/-- A core moved: it belongs to its new stage at once, and its threads are marked (R57). -/
theorem moveCore_spec (o r : Nat) (hl : s.launchOf n = some l) (hnodup : (s.threads.map (fun e => e.1)).Nodup)
    (hne : s.coreThreads n l c ≠ []) (hrun : ∀ e ∈ s.coreThreads n l c, e.2.state ≠ .blocked) :
    let v := s.moveCore n c o r
    v.launchOf n = some (movedLaunch l c r) ∧ (∀ e ∈ s.coreThreads n l c, v.thread e.1 = some { e.2 with moved := true }) ∧
    ∀ i, (∀ e ∈ s.coreThreads n l c, e.1 ≠ i) → v.thread i = s.thread i := by
  obtain ⟨hthreads, hlaunch⟩ := moveNoted_spec s n c o r l
  have hthere : ∀ e ∈ s.coreThreads n l c, s.thread e.1 = some e.2 := fun e he =>
    look_of_mem hnodup (mem_coreThreads.mp he).1
  have hrun' : ∀ i ∈ (s.coreThreads n l c).map (fun e => e.1), ∀ t, (moveNoted s n c o r l).thread i = some t → t.state ≠ .blocked := by
    intro i hi t ht
    obtain ⟨e, he, rfl⟩ := List.mem_map.mp hi
    rw [State.thread_congr hthreads, hthere e he] at ht
    cases ht
    exact hrun e he
  obtain ⟨hlaunches, hmarks⟩ := State.foldl_moveThread hrun'
  have hself : ∀ e ∈ s.coreThreads n l c, (((s.coreThreads n l c).map (fun e => e.1)).foldl (fun s tid => s.moveThread tid)
      (moveNoted s n c o r l)).thread e.1 = some (marked e.2) := fun e he => by
    rw [hmarks, if_pos (List.mem_map_of_mem he), State.thread_congr hthreads, hthere e he, Option.map_some]
  obtain ⟨e, he⟩ := List.exists_mem_of_ne_nil _ hne
  have hkept : ∀ {w : State}, w.thread e.1 = some (marked e.2) → (e.1, marked e.2) ∈ w.coreThreads n (movedLaunch l c r) c :=
    fun hw => mem_coreThreads.mpr ⟨mem_of_look hw, (mem_coreThreads.mp he).2⟩
  have hl' := (congrArg (fun m => look m n) hlaunches : _).trans hlaunch
  intro v
  have hv : v = ((s.coreThreads n l c).map (fun e => e.1)).foldl (fun s tid => s.moveThread tid) (moveNoted s n c o r l) :=
    (moveCore_eq o r hl).trans (State.finishMove_waits hl' (hkept (hself e he)) rfl)
  rw [hv]
  refine ⟨hl', hself, fun i hi => ?_⟩
  rw [hmarks, if_neg, State.thread_congr hthreads]
  intro hmem
  obtain ⟨e, he, hei⟩ := List.mem_map.mp hmem
  exact hi e he hei

theorem coresOf_ascending (h : l.cores.Pairwise (· < ·)) (k : Nat) : (l.coresOf k).Pairwise (· < ·) := by
  unfold Launch.coresOf
  exact h.filter _

theorem balancer : Balancer := by
  refine ⟨fun s n l hl hpipe hstart hp => ⟨fun hlate => ?_, fun hdue => ?_⟩, fun l k st hst =>
    ⟨blockage_eq hst, fun hk => ?_, fun q hk hq => depth_later hst hk hq⟩, fun s n f d l hl hasc => ⟨fun hnone => ?_, fun r o hr ho =>
      ⟨fun hnear => ?_, fun c hne hfar hc hmax => ?_⟩⟩, fun _ _ _ => rfl,
    fun s n c o r l hl hnodup hne hrun => moveCore_spec o r hl hnodup hne hrun⟩
  · exact stageBalancer_waits hl (by rw [State.balanceDue, decide_eq_false (Nat.not_lt.mpr hlate), Bool.and_false])
  · exact stageBalancer_acts hl (by rw [State.balanceDue, hpipe, hstart, decide_eq_true hdue]; rfl) hp
  · subst hk
    exact depth_first hst
  · exact balance_none f hl (hnone.imp (recipient_none d) (donor_none d))
  · exact balance_near f hl (recipient_first hr) (donor_first ho) hnear
  · have hlast : (l.coresOf o).getLastD 0 = c := getLastD_of_max (coresOf_ascending hasc o) hc hmax 0
    have hmoves := balance_moves f hl (recipient_first hr) (donor_first ho) hne hfar
    rw [hlast] at hmoves
    exact hmoves

/-- Settles O42: the two completions, and the balancer. -/
theorem launchCompletions : Obligations.LaunchCompletions := by
  refine ⟨fun s n q hq hp => ?_, fun s n q b hq hp => mailboxCompletion hq hp, balancer⟩
  intro c i hfree hi
  exact ⟨_, inboxCompletion hq hp hfree, rfl, words_putPacket _ hi, rfl⟩

end Sys2Proof.Claim
end

section
/-! Which resident takes a slot's turn, and what the turn leaves (R28, R29). -/
namespace Sys2Proof.Machine
variable {s v : State} {c j n : Nat} {α : Type}

/-- Each of several threads changed once. -/
theorem State.foldl_modThread {key : α → Nat} {val : α → Thread} {g : α → Thread → Thread} {l : List α}
    (hkeys : l.Pairwise (fun a b => key a ≠ key b)) (hval : ∀ a ∈ l, s.thread (key a) = some (val a)) :
    let v := l.foldl (fun s a => s.modThread (key a) (g a)) s
    (∀ a ∈ l, v.thread (key a) = some (g a (val a))) ∧ (∀ n, (∀ a ∈ l, key a ≠ n) → v.thread n = s.thread n) ∧
      v.cores = s.cores ∧ v.mem = s.mem := by
  induction l generalizing s with
  | nil => exact ⟨nofun, fun _ _ => rfl, rfl, rfl⟩
  | cons a l ih =>
    obtain ⟨ha, hl⟩ := List.pairwise_cons.mp hkeys
    have hset := State.modThread_of_some (hval a (List.mem_cons_self ..)) (g a)
    have hrest : ∀ b ∈ l, (s.modThread (key a) (g a)).thread (key b) = some (val b) := fun b hb => by
      rw [State.thread_modThread_of_ne _ _ (ha b hb).symm, hval b (List.mem_cons_of_mem _ hb)]
    obtain ⟨hself, hothers, hcores, hmem⟩ := ih hl hrest
    refine ⟨fun b hb => ?_, fun n hn => ?_, hcores.trans (State.modThread_cores ..), hmem.trans (by rw [hset]; rfl)⟩
    · rcases List.mem_cons.mp hb with rfl | hb
      · refine (hothers _ fun x hx e => ha x hx e.symm).trans ?_
        rw [hset, State.thread_setThread_self]
      · exact hself b hb
    · refine (hothers n fun x hx => hn x (List.mem_cons_of_mem _ hx)).trans ?_
      exact State.thread_modThread_of_ne _ _ (hn a (List.mem_cons_self ..)).symm

/-! The candidates of a slot. -/

theorem State.place_of_resident {p : Nat} {e : Nat × Thread} (h : s.resident c j p = some e) : e.2.place = some ⟨c, j, p⟩ :=
  by simpa using List.find?_some h

/-- The resident of a position, if it is eligible. -/
def State.candidateAt (s : State) (c j p : Nat) : Option (Nat × Nat × Thread) :=
  ((s.resident c j p).filter (fun e => s.eligible e.1 e.2)).map (fun e => (p, e.1, e.2))

theorem State.mem_candidateAt {p : Nat} {e : Nat × Nat × Thread} :
    s.candidateAt c j p = some e ↔ e.1 = p ∧ s.resident c j p = some e.2 ∧ s.eligible e.2.1 e.2.2 = true := by
  obtain ⟨q, tid, t⟩ := e
  simp only [State.candidateAt, Option.map_eq_some_iff, Option.filter_eq_some_iff, Prod.mk.injEq]
  constructor
  · rintro ⟨⟨n, u⟩, ⟨hr, he⟩, rfl, rfl, rfl⟩
    exact ⟨rfl, hr, he⟩
  · rintro ⟨rfl, hr, he⟩
    exact ⟨(tid, t), ⟨hr, he⟩, rfl, rfl, rfl⟩

theorem State.candidates_eq (s : State) (c j : Nat) : s.candidates c j = (List.range 7).filterMap (s.candidateAt c j) := by
  refine List.filterMap_congr fun p _ => ?_
  unfold State.candidateAt
  cases s.resident c j p with
  | none => rfl
  | some e => cases he : s.eligible e.1 e.2 <;> simp [Option.filter, he]

theorem State.mem_candidates {p tid : Nat} {t : Thread} :
    (p, tid, t) ∈ s.candidates c j ↔ p < 7 ∧ s.resident c j p = some (tid, t) ∧ s.eligible tid t = true := by
  simp only [State.candidates_eq, List.mem_filterMap, List.mem_range, State.mem_candidateAt]
  constructor
  · rintro ⟨q, hq, rfl, hr, he⟩
    exact ⟨hq, hr, he⟩
  · rintro ⟨hp, hr, he⟩
    exact ⟨p, hp, rfl, hr, he⟩

/-- Candidates stand in the order of their positions. -/
theorem State.candidates_ascending (s : State) (c j : Nat) : (s.candidates c j).Pairwise (fun a b => a.1 < b.1) := by
  rw [State.candidates_eq]
  refine List.Pairwise.filterMap _ (fun a b hab x hx y hy => ?_) List.pairwise_lt_range
  rw [(State.mem_candidateAt.mp hx).1, (State.mem_candidateAt.mp hy).1]
  exact hab

theorem State.candidate_of_pos {e f : Nat × Nat × Thread} (he : e ∈ s.candidates c j) (hf : f ∈ s.candidates c j) (h : f.1 = e.1) :
    f = e := by
  obtain ⟨-, hre, -⟩ := State.mem_candidates.mp he
  obtain ⟨-, hrf, -⟩ := State.mem_candidates.mp hf
  rw [h, hre] at hrf
  exact Prod.ext h (Option.some.inj hrf).symm

theorem State.find_candidate {e : Nat × Nat × Thread} (he : e ∈ s.candidates c j) :
    (s.candidates c j).find? (fun f => decide (f.1 = e.1)) = some e := by
  cases hf : (s.candidates c j).find? (fun f => decide (f.1 = e.1)) with
  | none => simpa using List.find?_eq_none.mp hf e he
  | some f => rw [State.candidate_of_pos he (List.mem_of_find?_eq_some hf) (by simpa using List.find?_some hf)]

/-- Different candidates are different threads. -/
theorem State.candidates_threads (h : ∀ e ∈ s.candidates c j, s.thread e.2.1 = some e.2.2) :
    (s.candidates c j).Pairwise (fun a b => a.2.1 ≠ b.2.1) := by
  refine (State.candidates_ascending s c j).imp_of_mem fun {a b} ha hb hlt e => ?_
  have hsame : a.2.2 = b.2.2 := Option.some.inj ((h a ha).symm.trans (e ▸ h b hb))
  have hpa := State.place_of_resident (State.mem_candidates.mp ha).2.1
  have hpb := State.place_of_resident (State.mem_candidates.mp hb).2.1
  rw [hsame, hpb] at hpa
  have := congrArg Place.pos (Option.some.inj hpa)
  dsimp only at this
  omega

end Sys2Proof.Machine
end

section
/-! The policies of a slot, and the choice that a turn makes by them (R28, R29). -/
namespace Sys2Proof.Claim
open Machine
variable {s : State} {c j : Nat} {q : Slot} {e : Nat × Nat × Thread} {l : List (Nat × Nat × Thread)}

/-- With no eligible handler the residents of positions 0 to 6 share the turn. -/
theorem handler_none (h : ∀ tid t, s.resident c j 7 = some (tid, t) → s.eligible tid t = false) :
    (s.resident c j 7).filter (fun e => s.eligible e.1 e.2) = none := by
  cases hr : s.resident c j 7 with
  | none => rfl
  | some e => simp [Option.filter, h e.1 e.2 hr]

/-- What a slot's policy selects: a position, and the slot with its greed. -/
def selection (s : State) (c j : Nat) : Option (Nat × Slot) :=
  if ((s.core c).slot j).pol then
    (((s.core c).slot j).byTurn ((s.candidates c j).map (fun e => e.1))).map (fun p => (p, (s.core c).slot j))
  else ((s.core c).slot j).greedy (s.candidates c j)

theorem choose_none (hno : ∀ tid t, s.resident c j 7 = some (tid, t) → s.eligible tid t = false) (hsel : selection s c j = none) :
    s.choose c j = none := by
  unfold selection at hsel
  simp only [State.choose, handler_none hno, hsel]

/-- The resident at the position selected takes the turn. -/
theorem choose_selected (hj : j < (s.core c).slots.length)
    (hno : ∀ tid t, s.resident c j 7 = some (tid, t) → s.eligible tid t = false)
    (hthere : ∀ e ∈ s.candidates c j, s.thread e.2.1 = some e.2.2) (he : e ∈ s.candidates c j)
    (hsel : selection s c j = some (e.1, q)) : Chosen s c j q e := by
  obtain ⟨hself, hothers, hcores, hmem⟩ := State.foldl_modThread (s := s.modSlot c j (fun _ => { q with lastPos := e.1 }))
    (key := fun f : Nat × Nat × Thread => f.2.1) (val := fun f => f.2.2)
    (g := fun f t => { t with waitCount := if f.1 = e.1 then 0 else t.waitCount + 1 }) (State.candidates_threads hthere) hthere
  unfold selection at hsel
  refine ⟨_, by simp only [State.choose, handler_none hno, hsel, State.find_candidate he], ?_, hself, hothers, hmem⟩
  rw [State.core_congr hcores, State.modSlot, State.core_modCore_self]
  exact nth_modify_self hj _ _

/-! Round robin. -/

/-- Under RR the position next after the last issues. -/
theorem byTurn_next (hlast : q.lastPos < 7) (hpos : ∀ f ∈ l, f.1 < 7) (he : e ∈ l)
    (hmin : ∀ f ∈ l, (e.1 + 6 - q.lastPos) % 7 ≤ (f.1 + 6 - q.lastPos) % 7) : q.byTurn (l.map (fun f => f.1)) = some e.1 := by
  have hhere : ∀ f ∈ l, (q.lastPos + 1 + (f.1 + 6 - q.lastPos) % 7) % 7 = f.1 := fun f hf => by
    have := hpos f hf
    omega
  rw [Slot.byTurn, List.find?_map, Option.map_eq_some_iff]
  refine ⟨(e.1 + 6 - q.lastPos) % 7, ?_, hhere e he⟩
  rw [List.find?_range_eq_some]
  refine ⟨?_, List.mem_range.mpr (Nat.mod_lt _ (by omega)), fun i hi => ?_⟩
  · simpa [hhere e he] using ⟨e.2.1, e.2.2, he⟩
  · simp only [Function.comp_apply, Bool.not_eq_true', decide_eq_false_iff_not, List.mem_map, not_exists, not_and]
    intro f hf hfi
    have h1 := hmin f hf
    have h2 := hpos f hf
    omega

/-! Greedy. -/

/-- The oldest of some residents in the order of their positions. -/
theorem oldest_eq {p : Nat × Nat × Thread → Prop} {d : DecidablePred p} (hasc : l.Pairwise (fun a b => a.1 < b.1)) (h : Oldest l p e) :
    oldest (l.filter (fun f => decide (p f))) = some e.1 := by
  obtain ⟨he, hp, hfirst⟩ := h
  have hbest := foldl_better_first (better := fun a b : Nat × Nat × Thread => decide (a.2.2.age < b.2.2.age)) (key := fun f => f.1)
    (f := fun acc e => match acc with
      | none => some e
      | some b => if e.2.2.age < b.2.2.age then some e else some b) (fun _ => rfl) (fun b x => by simp) (hasc.filter (fun f => decide (p f)))
    (List.mem_filter.mpr ⟨he, decide_eq_true hp⟩) (fun k hk => by simp at hk ⊢; omega) fun k hk hne => by
      obtain ⟨hk, hpk⟩ := List.mem_filter.mp hk
      have := hfirst k hk (of_decide_eq_true hpk) hne
      simp
      omega
  exact congrArg (Option.map fun f => f.1) hbest

theorem oldest_none {p : Nat × Nat × Thread → Prop} {d : DecidablePred p} (h : ∀ f ∈ l, ¬ p f) :
    oldest (l.filter (fun f => decide (p f))) = none := by
  rw [List.filter_eq_nil_iff.mpr fun f hf => by simpa using h f hf]
  rfl

/-- The slot as a resident newly chosen leaves it under GTO (R28). -/
def chosenAnew (q : Slot) (p : Nat) : Slot := { q with current := some p, greed := 1, yielded := false }

/-- Is a resident another than the current one. -/
def Other (q : Slot) (e : Nat × Nat × Thread) : Prop := q.current ≠ some e.1

/-- Has another resident been passed over 64 times. -/
def Overdue (q : Slot) (e : Nat × Nat × Thread) : Prop := Other q e ∧ 64 ≤ e.2.2.waitCount

/-- Is a resident the current one, and may it go on. -/
def Runs (q : Slot) (e : Nat × Nat × Thread) : Prop := q.current = some e.1 ∧ q.greed < 64 ∧ q.yielded = false

/-- Of the other residents those that are overdue. -/
theorem filter_overdue (q : Slot) (l : List (Nat × Nat × Thread)) {d : DecidablePred (Overdue q)} :
    (l.filter (fun e => decide (q.current ≠ some e.1))).filter (fun e => decide (e.2.2.waitCount ≥ 64)) =
      l.filter (fun e => decide (Overdue q e)) := by
  rw [List.filter_filter]
  exact List.filter_congr fun e _ => by simp [Overdue, Other, and_comm]

/-- An overdue resident, the oldest, comes first. -/
theorem greedy_overdue (hasc : l.Pairwise (fun a b => a.1 < b.1)) (h : Oldest l (Overdue q) e) :
    q.greedy l = some (e.1, chosenAnew q e.1) := by
  have hold := oldest_eq (d := Classical.decPred _) hasc h
  rw [← filter_overdue] at hold
  simp only [Slot.greedy, hold]
  rfl

/-- With none overdue the current one goes on while it may. -/
theorem greedy_runs (hno : ∀ f ∈ l, ¬ Overdue q f) (he : e ∈ l) (h : Runs q e) :
    q.greedy l = some (e.1, { q with greed := q.greed + 1 }) := by
  have hold := oldest_none (d := Classical.decPred _) hno
  rw [← filter_overdue] at hold
  obtain ⟨hcur, hgreed, hyield⟩ := h
  cases hf : l.find? (fun e => decide (q.current = some e.1)) with
  | none => exact absurd hcur (by simpa using List.find?_eq_none.mp hf e he)
  | some f =>
    have hpos : q.current = some f.1 := by simpa using List.find?_some hf
    have hsame : f.1 = e.1 := Option.some.inj (hpos.symm.trans hcur)
    simp only [Slot.greedy, hold, hf, hgreed, hyield, hsame]
    rfl

/-- With none that runs the oldest other is taken, or the current one again where it is alone. -/
theorem greedy_anew (hno : ∀ f ∈ l, ¬ Overdue q f) (hruns : ∀ f ∈ l, ¬ Runs q f) (he : e ∈ l)
    (h : oldest (l.filter (fun f => decide (q.current ≠ some f.1))) = some e.1 ∨
      oldest (l.filter (fun f => decide (q.current ≠ some f.1))) = none ∧ q.current = some e.1) :
    q.greedy l = some (e.1, chosenAnew q e.1) := by
  have hold := oldest_none (d := Classical.decPred _) hno
  rw [← filter_overdue] at hold
  cases hf : l.find? (fun e => decide (q.current = some e.1)) with
  | none =>
    rcases h with h | ⟨-, hcur⟩
    · simp only [Slot.greedy, hold, hf, h]
      rfl
    · exact absurd hcur (by simpa using List.find?_eq_none.mp hf e he)
  | some f =>
    have hpos : q.current = some f.1 := by simpa using List.find?_some hf
    have hnot : ¬ (q.greed < 64 ∧ ¬ q.yielded = true) := fun hg =>
      hruns f (List.mem_of_find?_eq_some hf) ⟨hpos, hg.1, by simpa using hg.2⟩
    simp only [Slot.greedy, hold, hf, if_neg hnot]
    rcases h with h | ⟨h, hcur⟩
    · rw [h]
      rfl
    · rw [h, Option.some.inj (hpos.symm.trans hcur)]
      rfl

/-- Of no residents none is selected. -/
theorem selection_none (h : s.candidates c j = []) : selection s c j = none := by
  rw [selection, h]
  split
  · simp [Slot.byTurn]
  · rfl

theorem residentChosen : ResidentChosen := by
  intro s c j hj l q
  refine ⟨fun _ _ _ => State.mem_candidates, fun tid t hr he => ?_, fun hno hthere hlast => ?_⟩
  · have hhandler : (s.resident c j 7).filter (fun e => s.eligible e.1 e.2) = some (tid, t) := by simp [Option.filter, hr, he]
    simp only [State.choose, hhandler]
  have hasc := State.candidates_ascending s c j
  have hgreedy : ∀ {e : Nat × Nat × Thread} {r : Slot}, e ∈ l → q.pol = false → q.greedy l = some (e.1, r) → Chosen s c j r e :=
    fun he hpol hsel => choose_selected hj hno hthere he ((if_neg (ne_true_of_eq_false hpol)).trans hsel)
  intro other overdue runs fresh
  refine ⟨fun hl => ?_, fun e he hpol hmin => ?_, fun hpol => ⟨fun e he => ?_, fun hover => ⟨fun e he hr => ?_, fun hruns =>
    ⟨fun e he => ?_, fun hsole e he => ?_⟩⟩⟩⟩
  · exact choose_none hno (selection_none hl)
  · refine choose_selected hj hno hthere he ((if_pos hpol).trans ?_)
    have hturn := byTurn_next hlast (fun f hf => (State.mem_candidates.mp hf).1) he hmin
    rw [hturn]
    rfl
  · exact hgreedy he.1 hpol (greedy_overdue hasc he)
  · exact hgreedy he hpol (greedy_runs hover he hr)
  · exact hgreedy he.1 hpol (greedy_anew hover hruns he.1 (.inl (oldest_eq hasc he)))
  · have hcur : q.current = some e.1 := not_not.mp (hsole e he)
    exact hgreedy he hpol (greedy_anew hover hruns he (.inr ⟨oldest_none hsole, hcur⟩))

end Sys2Proof.Claim
end

section
/-! The smallest change of owners that meets the counts of a share computation (R43). -/
namespace Sys2Proof.Claim
open Machine
variable {want : Nat → Nat} {q i j : Nat}

/-- How often q stands in a list. -/
def times (q : Nat) (l : List Nat) : Nat := (l.filter (fun o => o = q)).length

theorem times_append (q : Nat) (l r : List Nat) : times q (l ++ r) = times q l + times q r := by simp [times]

theorem times_cons (q a : Nat) (l : List Nat) : times q (a :: l) = (if a = q then 1 else 0) + times q l := by
  by_cases h : a = q
  · simp [times, h, Nat.add_comm]
  · simp [times, h]

theorem times_nil (q : Nat) : times q [] = 0 := rfl

theorem times_eq_count (q : Nat) (l : List Nat) : times q l = l.count q := by
  rw [times, List.count_eq_length_filter]
  exact congrArg List.length (List.filter_congr fun x _ => rfl)

/-- Each owner that stands before position i, with its position, is one of the first i. -/
theorem before_eq_times (l : List Nat) (q i : Nat) :
    ((l.zip (List.range l.length)).filter (fun o => decide (o.1 = q ∧ o.2 < i))).length = times q (l.take i) := by
  induction l using List.reverseRecOn with
  | nil => simp [times]
  | append_singleton l a ih =>
    rw [List.length_append, List.length_singleton, List.range_succ, List.zip_append (by simp), List.filter_append,
      List.length_append, ih]
    by_cases hi : i ≤ l.length
    · rw [List.take_append_of_le_length hi]
      simp [show ¬ l.length < i by omega]
    · rw [List.take_of_length_le (by omega : l.length ≤ i), List.take_of_length_le (by simp; omega), times_append]
      by_cases ha : a = q <;> simp [times_cons, times_nil, ha, show l.length < i by omega]

/-- What each slot keeps of its owner: a queue keeps its lowest slots, as many as its count. -/
def keptOf (want : Nat → Nat) (old : List Nat) : List (Option Nat) :=
  (old.zip (List.range old.length)).map (fun e =>
    let before := ((old.zip (List.range old.length)).filter (fun o => decide (o.1 = e.1 ∧ o.2 < e.2))).length
    if before < want e.1 then some e.1 else none)

theorem keptOf_eq (want : Nat → Nat) (old : List Nat) : keptOf want old =
    (old.zip (List.range old.length)).map (fun e => if times e.1 (old.take e.2) < want e.1 then some e.1 else none) :=
  List.map_congr_left fun e _ => by simp only [before_eq_times]

theorem keptOf_snoc (want : Nat → Nat) (old : List Nat) (a : Nat) :
    keptOf want (old ++ [a]) = keptOf want old ++ [if times a old < want a then some a else none] := by
  rw [keptOf_eq, keptOf_eq, List.length_append, List.length_singleton, List.range_succ, List.zip_append (by simp), List.map_append]
  congr 1
  · refine List.map_congr_left fun e he => ?_
    have hlt := List.mem_range.mp (List.of_mem_zip he).2
    rw [List.take_append_of_le_length (by omega)]
  · simp

theorem length_keptOf (want : Nat → Nat) (old : List Nat) : (keptOf want old).length = old.length := by simp [keptOf]

theorem keptOf_get {old : List Nat} (hi : i < old.length) :
    (keptOf want old)[i]? = some (if times (nth old i 0) (old.take i) < want (nth old i 0) then some (nth old i 0) else none) := by
  have hzip : (old.zip (List.range old.length))[i]? = some (old[i], i) :=
    List.getElem?_zip_eq_some.mpr ⟨List.getElem?_eq_getElem hi, List.getElem?_range hi⟩
  rw [keptOf_eq, List.getElem?_map, hzip, nth, List.getD_eq_getElem _ _ hi, Option.map_some]

/-- A queue keeps as many slots as it owned, at most its count. -/
theorem times_keptOf (want : Nat → Nat) (old : List Nat) (q : Nat) :
    times q ((keptOf want old).filterMap id) = min (times q old) (want q) := by
  induction old using List.reverseRecOn with
  | nil => simp [keptOf, times]
  | append_singleton old a ih =>
    rw [keptOf_snoc, List.filterMap_append, times_append, ih, times_append, times_cons, times_nil]
    by_cases hk : times a old < want a
    · have hone : [some a].filterMap id = [a] := rfl
      rw [if_pos hk, hone, times_cons, times_nil]
      by_cases ha : a = q
      · subst ha
        simp only [if_pos]
        omega
      · simp only [if_neg ha]
        omega
    · rw [if_neg hk]
      have hnone : [(none : Option Nat)].filterMap id = [] := rfl
      rw [hnone, times_nil]
      by_cases ha : a = q
      · subst ha
        simp only [if_pos]
        omega
      · simp only [if_neg ha]
        omega

/-- The slots filled in order: one that keeps its owner has it, another gets the next of those due. -/
def fill (ps : List (Option Nat × Nat)) (due : List Nat) : List Nat :=
  match ps with
  | [] => []
  | (some q, _) :: r => q :: fill r due
  | (none, o) :: r => due.headD o :: fill r (due.drop 1)

theorem foldl_fill {f : List Nat × List Nat → Option Nat × Nat → List Nat × List Nat}
    (hsome : ∀ acc q o, f acc (some q, o) = (acc.1 ++ [q], acc.2))
    (hnone : ∀ acc o, f acc (none, o) = (acc.1 ++ [acc.2.headD o], acc.2.drop 1)) (ps : List (Option Nat × Nat)) (acc due : List Nat) :
    (ps.foldl f (acc, due)).1 = acc ++ fill ps due := by
  induction ps generalizing acc due with
  | nil => simp [fill]
  | cons e ps ih =>
    obtain ⟨k, o⟩ := e
    cases k with
    | none => rw [List.foldl_cons, hnone, ih, fill, List.append_assoc]; rfl
    | some q => rw [List.foldl_cons, hsome, ih, fill, List.append_assoc]; rfl

theorem length_fill (ps : List (Option Nat × Nat)) (due : List Nat) : (fill ps due).length = ps.length := by
  induction ps generalizing due with
  | nil => rfl
  | cons e ps ih =>
    obtain ⟨k, o⟩ := e
    cases k <;> simp [fill, ih]

/-- A slot that keeps its owner has it. -/
theorem fill_kept {ps : List (Option Nat × Nat)} {o : Nat} (due : List Nat) (h : ps[i]? = some (some q, o)) : nth (fill ps due) i 0 = q := by
  induction ps generalizing i due with
  | nil => cases h
  | cons e ps ih =>
    obtain ⟨k, p⟩ := e
    cases i with
    | zero =>
      cases h
      rfl
    | succ i => cases k with
      | none => exact ih (due.drop 1) h
      | some a => exact ih due h

/-- How many slots have lost their owner. -/
def freed (ps : List (Option Nat × Nat)) : Nat := (ps.filter (fun e => e.1.isNone)).length

/-- With one owner due for each freed slot, all of them are given out. -/
theorem times_fill {ps : List (Option Nat × Nat)} {due : List Nat} (h : due.length = freed ps) (q : Nat) :
    times q (fill ps due) = times q (ps.filterMap (fun e => e.1)) + times q due := by
  induction ps generalizing due with
  | nil =>
    have hnil : due = [] := List.length_eq_zero_iff.mp h
    rw [hnil]
    rfl
  | cons e ps ih =>
    obtain ⟨k, o⟩ := e
    cases k with
    | none =>
      cases due with
      | nil => simp [freed] at h
      | cons d due =>
        have hrest := ih (due := due) (by simpa [freed] using h)
        rw [fill, times_cons, List.filterMap_cons_none rfl, times_cons q d due]
        rw [List.headD_cons, List.drop_succ_cons, List.drop_zero, hrest]
        omega
    | some a =>
      have hrest := ih (due := due) (by simpa [freed] using h)
      have hkept : ((some a, o) :: ps).filterMap (fun e => e.1) = a :: ps.filterMap (fun e => e.1) := rfl
      rw [fill, hkept, times_cons, times_cons, hrest]
      omega

/-- A freed slot has one of those due. -/
theorem fill_mem {ps : List (Option Nat × Nat)} {due : List Nat} {o : Nat} (hdue : due.length = freed ps) (h : ps[i]? = some (none, o)) :
    nth (fill ps due) i 0 ∈ due := by
  induction ps generalizing i due with
  | nil => cases h
  | cons e ps ih =>
    obtain ⟨k, p⟩ := e
    cases k with
    | none =>
      cases due with
      | nil => simp [freed] at hdue
      | cons d due =>
        cases i with
        | zero => exact List.mem_cons_self ..
        | succ i => exact List.mem_cons_of_mem _ (ih (by simpa [freed] using hdue) h)
    | some a =>
      cases i with
      | zero => cases h
      | succ i => exact ih (by simpa [freed] using hdue) h

/-- The freed slots, ascending, get those due in their order. -/
theorem fill_ascending {ps : List (Option Nat × Nat)} {due : List Nat} {o p : Nat} (hdue : due.length = freed ps)
    (hasc : due.Pairwise (· ≤ ·)) (hij : i < j) (hi : ps[i]? = some (none, o)) (hj : ps[j]? = some (none, p)) :
    nth (fill ps due) i 0 ≤ nth (fill ps due) j 0 := by
  induction ps generalizing i j due with
  | nil => cases hi
  | cons e ps ih =>
    obtain ⟨k, b⟩ := e
    obtain ⟨j, rfl⟩ : ∃ m, j = m + 1 := ⟨j - 1, by omega⟩
    cases k with
    | none =>
      cases due with
      | nil => simp [freed] at hdue
      | cons d due =>
        have hrest : due.length = freed ps := by simpa [freed] using hdue
        obtain ⟨hd, hasc⟩ := List.pairwise_cons.mp hasc
        cases i with
        | zero => exact hd _ (fill_mem hrest hj)
        | succ i => exact ih hrest hasc (by omega) hi hj
    | some a =>
      cases i with
      | zero => cases hi
      | succ i => exact ih (by simpa [freed] using hdue) hasc (by omega) hi hj

end Sys2Proof.Claim
end

section
/-! The smallest change of owners, from what is kept and what is due (R43). -/
namespace Sys2Proof.Claim
open Machine
variable {want : Nat → Nat} {old : List Nat} {counts : Tab Nat} {q i j : Nat}

/-- The queues that slots are due to, each as often as it lacks one, in ascending order. -/
def dueOf (want : Nat → Nat) (old : List Nat) : List Nat :=
  (List.range 16).flatMap (fun q => List.replicate (want q - min (times q old) (want q)) q)

theorem newOwners_eq (old : List Nat) (counts : Tab Nat) : newOwners old counts =
    fill ((keptOf (fun q => (look counts q).getD 0) old).zip old) (dueOf (fun q => (look counts q).getD 0) old) :=
  foldl_fill (fun _ _ _ => rfl) (fun _ _ => rfl) ((keptOf (fun q => (look counts q).getD 0) old).zip old) []
    (dueOf (fun q => (look counts q).getD 0) old)

theorem length_newOwners (old : List Nat) (counts : Tab Nat) : (newOwners old counts).length = old.length := by
  rw [newOwners_eq, length_fill, List.length_zip, length_keptOf, Nat.min_self]

/-! Sums over the queues. -/

theorem sum_range_eq (n : Nat) (f : Nat → Nat) : ((List.range n).map f).sum = ∑ q ∈ Finset.range n, f q := rfl

theorem sum_times {l : List Nat} {n : Nat} (h : ∀ a ∈ l, a < n) : ∑ q ∈ Finset.range n, times q l = l.length := by
  simp only [times_eq_count]
  simpa using Multiset.sum_count_eq_card (m := (l : Multiset Nat)) fun a ha => Finset.mem_range.mpr (h a ha)

theorem look_of_notMem {α : Type} {l : Tab α} {k : Nat} (h : k ∉ l.map (fun e => e.1)) : look l k = none := by
  cases hl : look l k with
  | none => rfl
  | some a => exact absurd (List.mem_map_of_mem (f := fun e => e.1) (mem_of_look hl)) h

theorem sum_look {n : Nat} (hn : (counts.map (fun e => e.1)).Nodup) (h : ∀ e ∈ counts, e.1 < n) :
    ∑ q ∈ Finset.range n, (look counts q).getD 0 = (counts.map (fun e => e.2)).sum := by
  induction counts with
  | nil => simp [look]
  | cons e r ih =>
    obtain ⟨k, a⟩ := e
    obtain ⟨hk, hr⟩ := List.nodup_cons.mp hn
    have hsplit : ∀ q ∈ Finset.range n, (look ((k, a) :: r) q).getD 0 = (if k = q then a else 0) + (look r q).getD 0 := fun q _ => by
      by_cases hq : k = q
      · subst hq
        simp [look, look_of_notMem hk]
      · simp [look, hq]
    have hkn := h (k, a) (List.mem_cons_self ..)
    rw [Finset.sum_congr rfl hsplit, Finset.sum_add_distrib, ih hr fun e he => h e (List.mem_cons_of_mem _ he), Finset.sum_ite_eq,
      if_pos (Finset.mem_range.mpr hkn)]
    simp

/-! What is due meets what is freed. -/

theorem length_dueOf (want : Nat → Nat) (old : List Nat) :
    (dueOf want old).length = ∑ q ∈ Finset.range 16, (want q - min (times q old) (want q)) := by
  rw [dueOf, List.length_flatMap]
  simp only [List.length_replicate]
  exact sum_range_eq ..

theorem mem_of_times_pos {l : List Nat} (h : 0 < times q l) : q ∈ l := by
  rw [times_eq_count] at h
  exact List.count_pos_iff.mp h

theorem times_pos_of_mem {l : List Nat} (h : q ∈ l) : 0 < times q l := by
  rw [times_eq_count]
  exact List.count_pos_iff.mpr h

theorem length_kept (hold : ∀ q ∈ old, q < 16) :
    ((keptOf want old).filterMap id).length = ∑ q ∈ Finset.range 16, min (times q old) (want q) := by
  rw [← sum_times (n := 16)]
  · exact Finset.sum_congr rfl fun q _ => times_keptOf want old q
  · intro a ha
    have hpos := times_pos_of_mem ha
    rw [times_keptOf] at hpos
    exact hold a (mem_of_times_pos (by omega))

theorem freed_add_kept (ps : List (Option Nat × Nat)) : freed ps + (ps.filterMap (fun e => e.1)).length = ps.length := by
  induction ps with
  | nil => rfl
  | cons e ps ih =>
    obtain ⟨k, o⟩ := e
    cases k <;> simp [freed] at ih ⊢ <;> omega

theorem kept_zip (want : Nat → Nat) (old : List Nat) :
    ((keptOf want old).zip old).filterMap (fun e => e.1) = (keptOf want old).filterMap id := by
  have hmap : ((keptOf want old).zip old).map Prod.fst = keptOf want old := List.map_fst_zip (by rw [length_keptOf])
  rw [← hmap, List.filterMap_map, hmap]
  rfl

/-- As many are due as slots are freed. -/
theorem due_eq_freed (hold : ∀ q ∈ old, q < 16) (hsum : ∑ q ∈ Finset.range 16, want q = old.length) :
    (dueOf want old).length = freed ((keptOf want old).zip old) := by
  have hkept := freed_add_kept ((keptOf want old).zip old)
  rw [kept_zip, length_kept hold, List.length_zip, length_keptOf, Nat.min_self, ← hsum] at hkept
  have hdue : ∑ q ∈ Finset.range 16, want q = ∑ q ∈ Finset.range 16, (want q - min (times q old) (want q)) +
      ∑ q ∈ Finset.range 16, min (times q old) (want q) := by
    rw [← Finset.sum_add_distrib]
    exact Finset.sum_congr rfl fun q _ => by omega
  rw [length_dueOf]
  omega

theorem times_replicate (n a : Nat) : times q (List.replicate n a) = if a = q then n else 0 := by
  rw [times_eq_count, List.count_replicate]
  simp

theorem times_dueOf (want : Nat → Nat) (old : List Nat) :
    times q (dueOf want old) = if q < 16 then want q - min (times q old) (want q) else 0 := by
  rw [dueOf, times_eq_count, List.count_flatMap]
  simp only [Function.comp_def, ← times_eq_count, times_replicate]
  rw [sum_range_eq, Finset.sum_ite_eq']
  simp

theorem dueOf_ascending (want : Nat → Nat) (old : List Nat) : (dueOf want old).Pairwise (· ≤ ·) := by
  rw [dueOf, List.pairwise_flatMap]
  refine ⟨fun q _ => ?_, List.pairwise_lt_range.imp fun {a b} hab x hx y hy => ?_⟩
  · exact List.pairwise_replicate.mpr (.inr (Nat.le_refl q))
  · rw [List.eq_of_mem_replicate hx, List.eq_of_mem_replicate hy]
    omega

theorem smallestChange (hlen : old.length = 8) (hold : ∀ q ∈ old, q < 16) (hkeys : (counts.map (fun e => e.1)).Nodup)
    (hlt : ∀ e ∈ counts, e.1 < 16) (hsum : (counts.map (fun e => e.2)).sum = 8) :
    SmallestChange old (newOwners old counts) counts := by
  have htotal : ∑ q ∈ Finset.range 16, (look counts q).getD 0 = old.length := by rw [sum_look hkeys hlt, hsum, hlen]
  have hfreed := due_eq_freed hold htotal
  have hslot : ∀ {i}, i < 8 → ((keptOf (fun q => (look counts q).getD 0) old).zip old)[i]? =
      some (if times (nth old i 0) (old.take i) < (look counts (nth old i 0)).getD 0 then some (nth old i 0) else none, nth old i 0) :=
    fun {i} hi => List.getElem?_zip_eq_some.mpr ⟨keptOf_get (by omega), by
      rw [nth, List.getD_eq_getElem _ _ (by omega), List.getElem?_eq_getElem (by omega)]⟩
  unfold SmallestChange
  intro wanted kept
  refine ⟨(length_newOwners ..).trans hlen, fun q => ?_, fun i hi hk => ?_, fun i j hij hj hki hkj => ?_⟩
  · have hfill := times_fill hfreed q
    rw [kept_zip, times_keptOf, times_dueOf] at hfill
    rw [newOwners_eq]
    refine hfill.trans ?_
    by_cases hq : q < 16
    · rw [if_pos hq, Nat.add_sub_cancel' (Nat.min_le_right ..)]
    · have hnone : look counts q = none := look_of_notMem fun hm => by
        obtain ⟨e, he, rfl⟩ := List.mem_map.mp hm
        exact hq (hlt e he)
      simp [hq, hnone, wanted]
  · rw [newOwners_eq]
    exact fill_kept _ ((hslot hi).trans (congrArg (fun k => some (k, nth old i 0)) (if_pos hk)))
  · rw [newOwners_eq]
    exact fill_ascending hfreed (dueOf_ascending ..) hij ((hslot (by omega)).trans (congrArg (fun k => some (k, nth old i 0)) (if_neg hki)))
      ((hslot hj).trans (congrArg (fun k => some (k, nth old j 0)) (if_neg hkj)))

end Sys2Proof.Claim
end

section
/-! The counts of a share computation (R42). -/
namespace Sys2Proof.Claim
open Machine
variable {s : State} {before : Nat → Nat → Bool} {x : Nat} {l acc qs A : List Nat}

/-! A list put in order by insertion. -/

/-- x inserted before the first that it comes before. -/
def insertBy (before : Nat → Nat → Bool) (acc : List Nat) (x : Nat) : List Nat :=
  acc.takeWhile (fun y => ! before x y) ++ [x] ++ acc.dropWhile (fun y => ! before x y)

theorem orderBy_eq (before : Nat → Nat → Bool) (l : List Nat) : orderBy before l = l.foldl (insertBy before) [] := rfl

theorem insertBy_perm (before : Nat → Nat → Bool) (acc : List Nat) (x : Nat) : (insertBy before acc x).Perm (x :: acc) := by
  have h : (x :: (acc.takeWhile (fun y => ! before x y) ++ acc.dropWhile (fun y => ! before x y))).Perm (x :: acc) := by
    rw [List.takeWhile_append_dropWhile]
  refine List.Perm.trans ?_ h
  rw [insertBy, List.append_assoc]
  exact List.perm_middle

theorem foldl_insertBy_perm (before : Nat → Nat → Bool) (l acc : List Nat) : (l.foldl (insertBy before) acc).Perm (acc ++ l) := by
  induction l generalizing acc with
  | nil => simp
  | cons x l ih =>
    refine (ih _).trans (((insertBy_perm before acc x).append_right l).trans ?_)
    exact List.perm_middle.symm

theorem orderBy_perm (before : Nat → Nat → Bool) (l : List Nat) : (orderBy before l).Perm l := foldl_insertBy_perm before l []

section
variable {T E : Nat → Nat → Prop} (htrans : ∀ a b c, T a b → T b c → T a c) (hbefore : ∀ a b, before a b = true → T a b)
  (hafter : ∀ a b, E b a → before a b = false → T b a)
include htrans hbefore hafter

theorem insertBy_ordered (hacc : acc.Pairwise T) (hx : ∀ y ∈ acc, E y x) : (insertBy before acc x).Pairwise T := by
  have hlate : ∀ z ∈ acc.dropWhile (fun y => ! before x y), T x z := by
    intro z hz
    have hsorted : (acc.dropWhile (fun y => ! before x y)).Pairwise T := hacc.sublist (List.dropWhile_sublist _)
    cases hd : acc.dropWhile (fun y => ! before x y) with
    | nil => simp [hd] at hz
    | cons d r =>
      have hfirst : T x d := hbefore x d (by
        have hnot := List.head_dropWhile_not (fun y => ! before x y) (l := acc) (by simp [hd])
        simpa [hd] using hnot)
      rw [hd] at hz hsorted
      rcases List.mem_cons.mp hz with rfl | hz
      · exact hfirst
      · exact htrans x d z hfirst ((List.pairwise_cons.mp hsorted).1 z hz)
  have hearly : ∀ y ∈ acc.takeWhile (fun y => ! before x y), T y x := fun y hy =>
    hafter x y (hx y ((List.takeWhile_sublist _).mem hy)) (by simpa using List.mem_takeWhile_imp hy)
  rw [insertBy, List.append_assoc, List.pairwise_append]
  refine ⟨hacc.sublist (List.takeWhile_sublist _), List.pairwise_cons.mpr ⟨hlate, hacc.sublist (List.dropWhile_sublist _)⟩,
    fun y hy z hz => ?_⟩
  rcases List.mem_cons.mp hz with rfl | hz
  · exact hearly y hy
  · exact htrans y x z (hearly y hy) (hlate z hz)

/-- What is put in order stands in the order that `before` gives, with what was there first on its side. -/
theorem orderBy_ordered (hl : l.Pairwise E) : (orderBy before l).Pairwise T := by
  have hfold : ∀ (l acc : List Nat), acc.Pairwise T → (∀ y ∈ acc, ∀ x ∈ l, E y x) → l.Pairwise E →
      (l.foldl (insertBy before) acc).Pairwise T := by
    intro l
    induction l with
    | nil => exact fun acc hacc _ _ => hacc
    | cons x l ih =>
      intro acc hacc hE hl
      obtain ⟨hx, hl⟩ := List.pairwise_cons.mp hl
      refine ih _ (insertBy_ordered htrans hbefore hafter hacc fun y hy => hE y hy x (List.mem_cons_self ..)) (fun y hy z hz => ?_) hl
      rcases List.mem_cons.mp ((insertBy_perm before acc x).mem_iff.mp hy) with rfl | hy
      · exact hx z hz
      · exact hE y hy z (List.mem_cons_of_mem _ hz)
  exact hfold l [] .nil nofun hl
end

/-! The queues that get slots, and the slots left over. -/

/-- Queue a comes before queue b where slots are too few: by urgency, weight, number (R42). -/
def Before (s : State) (a b : Nat) : Prop :=
  (s.isUrgent a = true ∧ s.isUrgent b = false) ∨ (s.isUrgent a = s.isUrgent b ∧
    (s.weight b < s.weight a ∨ (s.weight a = s.weight b ∧ a < b)))

theorem Before.trans (a b c : Nat) (h : Before s a b) (k : Before s b c) : Before s a c := by
  unfold Before at *
  cases ha : s.isUrgent a <;> cases hb : s.isUrgent b <;> cases hc : s.isUrgent c <;> simp [ha, hb, hc] at h k ⊢ <;> omega

/-- Is queue a the more urgent, or of the same urgency and more weight. -/
def urgencyFirst (s : State) (a b : Nat) : Bool :=
  decide ((if s.isUrgent a then 1 else 0) > (if s.isUrgent b then 1 else 0) ∨
    ((if s.isUrgent a then 1 else 0) = (if s.isUrgent b then 1 else 0) ∧ s.weight a > s.weight b))

/-- The queues that get slots: all active ones, or of more than eight the first eight. -/
def sharing (s : State) (qs : List Nat) : List Nat :=
  if qs.length > 8 then (orderBy (urgencyFirst s) qs).take 8 else qs

theorem ordered_by_urgency (s : State) (hqs : qs.Pairwise (· < ·)) :
    (orderBy (urgencyFirst s) qs).Pairwise (Before s) := by
  refine orderBy_ordered (E := (· < ·)) Before.trans (fun a b h => ?_) (fun a b hlt h => ?_) hqs <;>
    cases ha : s.isUrgent a <;> cases hb : s.isUrgent b <;> simp [urgencyFirst, ha, hb] at h <;> simp [Before, ha, hb] <;> omega

theorem length_sharing (s : State) (qs : List Nat) : (sharing s qs).length = min 8 qs.length := by
  unfold sharing
  split
  · rw [List.length_take, (orderBy_perm ..).length_eq]
  · omega

theorem sharing_nodup (s : State) (hqs : qs.Pairwise (· < ·)) : (sharing s qs).Nodup := by
  have hnodup : qs.Nodup := hqs.imp Nat.ne_of_lt
  unfold sharing
  split
  · exact ((orderBy_perm ..).nodup_iff.mpr hnodup).sublist (List.take_sublist ..)
  · exact hnodup

/-- A queue that gets slots is active, and comes before each active one that gets none. -/
theorem sharing_first (s : State) (hqs : qs.Pairwise (· < ·)) {a : Nat} (ha : a ∈ sharing s qs) :
    a ∈ qs ∧ ∀ b ∈ qs, b ∉ sharing s qs → Before s a b := by
  unfold sharing at ha ⊢
  split
  · next hlong =>
    rw [if_pos hlong] at ha
    have hordered := ordered_by_urgency s hqs
    refine ⟨(orderBy_perm ..).mem_iff.mp (List.mem_of_mem_take ha), fun b hb hnot => ?_⟩
    have hb := (orderBy_perm (urgencyFirst s) qs).mem_iff.mpr hb
    rw [← List.take_append_drop 8 (orderBy ..)] at hb hordered
    rcases List.mem_append.mp hb with hb | hb
    · exact absurd hb hnot
    · exact (List.pairwise_append.mp hordered).2.2 a ha b hb
  · next hshort =>
    rw [if_neg hshort] at ha
    exact ⟨ha, fun b hb hnot => absurd hb hnot⟩

/-- The weight of all queues that get slots. -/
def allWeight (s : State) (A : List Nat) : Nat := max 1 (total (A.map s.weight))

/-- A queue's part by weight of the slots that are left, times the weight of all (R42). -/
def partOf (s : State) (A : List Nat) (q : Nat) : Nat := (8 - A.length) * s.weight q

/-- Is the remainder of queue a the larger, or as large and its number lower. -/
def remainderFirst (s : State) (A : List Nat) (a b : Nat) : Bool :=
  decide (partOf s A a % allWeight s A > partOf s A b % allWeight s A ∨
    (partOf s A a % allWeight s A = partOf s A b % allWeight s A ∧ a < b))

/-- What each queue gets before remainders are looked at. -/
def atLeast (s : State) (A : List Nat) : Tab Nat := A.map (fun q => (q, 1 + partOf s A q / allWeight s A))

/-- The queues that get one slot more. -/
def extras (s : State) (A : List Nat) : List Nat :=
  (orderBy (remainderFirst s A) A).take (8 - total ((atLeast s A).map (fun e => e.2)))

theorem shareCounts_eq (s : State) (qs : List Nat) : s.shareCounts qs =
    (atLeast s (sharing s qs)).map (fun e => (e.1, e.2 + (if e.1 ∈ extras s (sharing s qs) then 1 else 0))) := rfl

end Sys2Proof.Claim
end

section
/-! The counts of a share computation add up to eight (R42). -/
namespace Sys2Proof.Claim
open Machine
variable {s : State} {qs A : List Nat}

theorem total_eq_sum (l : List Nat) : total l = l.sum := List.sum_eq_foldl.symm

/-- Of a list in some order, as many stand among its first k as there are. -/
theorem sum_first {o : List Nat} (k : Nat) (hperm : o.Perm A) (hnodup : A.Nodup) :
    (A.map (fun q => if q ∈ o.take k then 1 else 0)).sum = (o.take k).length := by
  have hdisjoint : (o.take k ++ o.drop k).Nodup := by
    rw [List.take_append_drop]
    exact hperm.nodup_iff.mpr hnodup
  rw [← (hperm.map _).sum_eq]
  conv_lhs => rw [← List.take_append_drop k o]
  rw [List.map_append, List.sum_append, List.take_append_drop]
  have hone : (o.take k).map (fun q => if q ∈ o.take k then 1 else 0) = (o.take k).map (fun _ => 1) :=
    List.map_congr_left fun q hq => if_pos hq
  have hzero : (o.drop k).map (fun q => if q ∈ o.take k then 1 else 0) = (o.drop k).map (fun _ => 0) :=
    List.map_congr_left fun q hq => if_neg fun h => (List.nodup_append.mp hdisjoint).2.2 q h q hq rfl
  rw [hone, hzero]
  simp

/-- A quotient and what is left of a product below n times the divisor. -/
theorem quotient_bounds {m W F R n : Nat} (h : m * W = W * F + R) (hR : R < n * W) : F ≤ m ∧ m < F + n := by
  have hW : 0 < W := Nat.pos_of_ne_zero fun e => by simp [e] at hR
  constructor
  · refine Nat.le_of_mul_le_mul_left (?_ : W * F ≤ W * m) hW
    rw [Nat.mul_comm W m]
    omega
  · refine Nat.lt_of_mul_lt_mul_right (a := W) ?_
    rw [Nat.add_mul, Nat.mul_comm F W]
    omega

section
variable (hne : A ≠ []) (hweight : ∀ q ∈ A, s.weight q ≠ 0)
include hne hweight

theorem allWeight_eq : allWeight s A = (A.map s.weight).sum ∧ 0 < (A.map s.weight).sum := by
  obtain ⟨q, hq⟩ := List.exists_mem_of_ne_nil A hne
  have hpos : s.weight q ≤ (A.map s.weight).sum := List.single_le_sum (fun _ _ => Nat.zero_le _) _ (List.mem_map_of_mem hq)
  have := hweight q hq
  rw [allWeight, total_eq_sum]
  omega

/-- The whole parts fit into the slots that are left, and the remainders leave fewer than there are queues. -/
theorem sum_parts : (A.map (fun q => partOf s A q / allWeight s A)).sum ≤ 8 - A.length ∧
    8 - A.length < (A.map (fun q => partOf s A q / allWeight s A)).sum + A.length := by
  obtain ⟨hW, hpos⟩ := allWeight_eq hne hweight
  have hsum : (A.map (partOf s A)).sum = (8 - A.length) * allWeight s A := by
    rw [hW]
    exact List.sum_map_mul_left ..
  have hsplit : (A.map (partOf s A)).sum = allWeight s A * (A.map (fun q => partOf s A q / allWeight s A)).sum +
      (A.map (fun q => partOf s A q % allWeight s A)).sum := by
    rw [← List.sum_map_mul_left, ← List.sum_map_add]
    exact congrArg List.sum (List.map_congr_left fun q _ => (Nat.div_add_mod ..).symm)
  have hrem : (A.map (fun q => partOf s A q % allWeight s A)).sum < (A.map (fun _ => allWeight s A)).sum :=
    List.sum_lt_sum_of_ne_nil hne _ _ fun q _ => Nat.mod_lt _ (by omega)
  rw [List.map_const', List.sum_replicate, smul_eq_mul] at hrem
  exact quotient_bounds (hsum.symm.trans hsplit) hrem
end

theorem sum_atLeast (s : State) (A : List Nat) :
    total ((atLeast s A).map (fun e => e.2)) = A.length + (A.map (fun q => partOf s A q / allWeight s A)).sum := by
  rw [total_eq_sum, atLeast, List.map_map]
  exact (List.sum_map_add ..).trans (by simp)

theorem sum_counts (hne : A ≠ []) (hweight : ∀ q ∈ A, s.weight q ≠ 0) (hlen : A.length ≤ 8) (hnodup : A.Nodup) :
    (((atLeast s A).map (fun e => (e.1, e.2 + (if e.1 ∈ extras s A then 1 else 0)))).map (fun e => e.2)).sum = 8 := by
  obtain ⟨hfit, hleft⟩ := sum_parts hne hweight
  have hbase := sum_atLeast s A
  have hperm := orderBy_perm (remainderFirst s A) A
  have hextra : (extras s A).length = 8 - total ((atLeast s A).map (fun e => e.2)) := by
    rw [extras, List.length_take, hperm.length_eq]
    omega
  have hone := sum_first (8 - total ((atLeast s A).map (fun e => e.2))) hperm hnodup
  rw [List.map_map]
  have hsum : ((atLeast s A).map (fun e => e.2 + (if e.1 ∈ extras s A then 1 else 0))).sum =
      ((atLeast s A).map (fun e => e.2)).sum + (A.map (fun q => if q ∈ extras s A then 1 else 0)).sum := by
    rw [List.sum_map_add]
    congr 1
    rw [atLeast, List.map_map]
    rfl
  have hmore : (A.map (fun q => if q ∈ extras s A then 1 else 0)).sum = (extras s A).length := hone
  refine hsum.trans ?_
  rw [← total_eq_sum]
  omega

/-- The queues that get one slot more have the largest remainders. -/
theorem extras_first (hnodup : A.Nodup) {a : Nat} (ha : a ∈ extras s A) : a ∈ A ∧ ∀ b ∈ A, b ∉ extras s A →
    remainderFirst s A a b = true := by
  have hperm := orderBy_perm (remainderFirst s A) A
  have hordered : (orderBy (remainderFirst s A) A).Pairwise (fun a b => remainderFirst s A a b = true) := by
    refine orderBy_ordered (E := (· ≠ ·)) (fun a b c h k => ?_) (fun _ _ h => h) (fun a b hne h => ?_) hnodup
    · simp only [remainderFirst, decide_eq_true_eq] at *
      omega
    · simp only [remainderFirst, decide_eq_true_eq, decide_eq_false_iff_not] at *
      omega
  refine ⟨hperm.mem_iff.mp (List.mem_of_mem_take ha), fun b hb hnot => ?_⟩
  have hb := hperm.mem_iff.mpr hb
  unfold extras at ha hnot
  rw [← List.take_append_drop (8 - total ((atLeast s A).map (fun e => e.2))) (orderBy ..)] at hb hordered
  rcases List.mem_append.mp hb with hb | hb
  · exact absurd hb hnot
  · exact (List.pairwise_append.mp hordered).2.2 a ha b hb

theorem counted (s : State) (qs : List Nat) (hne : qs ≠ []) (hasc : qs.Pairwise (fun a b => a < b))
    (hqs : ∀ q ∈ qs, q < 16 ∧ s.weight q ≠ 0) : Counted s qs (s.shareCounts qs) := by
  have hlen := length_sharing s qs
  have hnodup := sharing_nodup s hasc
  have hfirst := fun a => sharing_first s hasc (a := a)
  have hne' : sharing s qs ≠ [] := fun h => by
    have := List.length_pos_of_ne_nil hne
    simp [h] at hlen
    omega
  have hweight : ∀ q ∈ sharing s qs, s.weight q ≠ 0 := fun q hq => (hqs q (hfirst q hq).1).2
  have hA : (s.shareCounts qs).map (fun e => e.1) = sharing s qs := by
    simp [shareCounts_eq, atLeast, Function.comp_def]
  have hW := (allWeight_eq hne' hweight).1
  unfold Counted
  simp only [hA]
  refine ⟨hlen, hnodup, hfirst, ?_, extras s (sharing s qs), fun a ha => ?_, fun e he => ?_⟩
  · rw [shareCounts_eq]
    exact sum_counts hne' hweight (by omega) hnodup
  · obtain ⟨hmem, hbefore⟩ := extras_first hnodup ha
    refine ⟨hmem, fun b hb hnot => ?_⟩
    have hb := of_decide_eq_true (hbefore b hb hnot)
    rw [hW] at hb
    exact hb
  · simp only [shareCounts_eq, atLeast, List.map_map, List.mem_map] at he
    obtain ⟨q, hq, rfl⟩ := he
    rw [← hW]
    rfl

end Sys2Proof.Claim
end

section
/-! What a share computation changes: owners, the control words a core goes by, and who is to be pre-empted (R40 to R45). -/
namespace Sys2Proof.Machine
variable {s v w : State} {c j q tid : Nat} {t : Thread}

/-- At most memory, the control page, the controller's registers, what cores have seen of NP and the free values differ. -/
def Told (s v : State) : Prop := v = { s with mem := v.mem, ctl := v.ctl, mgmt := v.mgmt, npSeen := v.npSeen, freeN := v.freeN }

theorem Told.refl (s : State) : Told s s := rfl

theorem Told.trans (h : Told s v) (k : Told v w) : Told s w := by
  unfold Told at *
  rw [k, h]

theorem Told.cores (h : Told s v) : v.cores = s.cores := (congrArg State.cores h :)
theorem Told.threads (h : Told s v) : v.threads = s.threads := (congrArg State.threads h :)

theorem Noted.told (h : Noted s v) : Told s v := by
  unfold Told
  rw [h.eq]

theorem Told.foldl {α : Type} {f : State → α → State} {l : List α} (h : ∀ s a, Told s (f s a)) : Told s (l.foldl f s) :=
  List.foldlRecOn l f (motive := Told s) (.refl s) fun _ hv a _ => hv.trans (h _ a)

theorem Told.setNotify (s : State) (q : Nat) : Told s (s.setNotify q) := (Noted.wrWord ..).told.trans rfl

theorem Told.ite {p : Prop} {d : Decidable p} {a b : State} (ha : Told s a) (hb : Told s b) : Told s (if p then a else b) := by
  split <;> assumption

theorem Told.fresh (s : State) : Told s { s with freeN := s.freeN + 1 } := rfl

theorem Told.noteLost (s : State) (c : Nat) (lost : List Nat) : Told s (s.noteLost c lost) :=
  .foldl fun s _ => .ite ((Told.fresh s).trans (.setNotify ..)) (.fresh s)

theorem Told.passNotify (s : State) (c : Nat) : Told s (s.passNotify c) :=
  .foldl fun _ _ => .ite rfl (.ite ((Noted.wrWord ..).told.trans rfl) rfl)

/-! Pre-emption asked for. -/

theorem State.askPreempt_cores (s : State) (tid : Nat) : (s.askPreempt tid).cores = s.cores := State.modThread_cores ..

theorem State.foldl_askPreempt_cores (s : State) (l : List Nat) : (l.foldl (fun s n => s.askPreempt n) s).cores = s.cores :=
  List.foldlRecOn (motive := fun v : State => v.cores = s.cores) l _ rfl fun _ hv n _ => (State.askPreempt_cores _ n).trans hv

theorem State.preemptSlot_cores (s : State) (c j : Nat) : (s.preemptSlot c j).cores = s.cores := State.foldl_askPreempt_cores ..

/-- A thread that is asked for is to be pre-empted, and stays where it is. -/
theorem State.thread_askPreempt_self (h : s.thread tid = some t) :
    ∃ u, (s.askPreempt tid).thread tid = some u ∧ u.preempt = true ∧ u.place = t.place ∧ u.state = t.state := by
  rw [State.askPreempt, State.modThread_of_some h, State.thread_setThread_self]
  by_cases hp : t.preempt = true
  · exact ⟨t, by rw [if_pos hp], hp, rfl, rfl⟩
  · exact ⟨{ t with preempt := true, graceAt := s.time + word s.grace }, by rw [if_neg hp], rfl, rfl, rfl⟩

theorem State.thread_askPreempt_of_ne (s : State) {n : Nat} (h : n ≠ tid) : (s.askPreempt tid).thread n = s.thread n :=
  State.thread_modThread_of_ne _ _ h

/-- A thread in its place, and to be pre-empted if P holds. -/
def Standing (tid : Nat) (p : Option Place) (P : Prop) (s : State) : Prop :=
  ∃ u, s.thread tid = some u ∧ u.place = p ∧ u.state ≠ .exited ∧ (P → u.preempt = true)

theorem Standing.askPreempt {p : Option Place} {P : Prop} {n : Nat} (h : Standing tid p P s) :
    Standing tid p (P ∨ n = tid) (s.askPreempt n) := by
  obtain ⟨u, hu, hp, hs, hP⟩ := h
  by_cases hn : tid = n
  · subst hn
    obtain ⟨w, hw, hwp, hwplace, hws⟩ := State.thread_askPreempt_self hu
    exact ⟨w, hw, hwplace.trans hp, hws ▸ hs, fun _ => hwp⟩
  · exact ⟨u, (State.thread_askPreempt_of_ne s hn).trans hu, hp, hs, fun h => hP (h.resolve_right fun e => hn e.symm)⟩

theorem Standing.weaken {p : Option Place} {P Q : Prop} (h : Standing tid p P s) (k : Q → P) : Standing tid p Q s := by
  obtain ⟨u, hu, hp, hs, hP⟩ := h
  exact ⟨u, hu, hp, hs, fun hq => hP (k hq)⟩

theorem Standing.foldl_askPreempt {p : Option Place} {P : Prop} {l : List Nat} (h : Standing tid p P s) :
    Standing tid p (P ∨ tid ∈ l) (l.foldl (fun s n => s.askPreempt n) s) := by
  induction l generalizing s P with
  | nil => exact h.weaken fun h => h.resolve_right List.not_mem_nil
  | cons n l ih =>
    refine (ih h.askPreempt).weaken ?_
    rintro (h | h)
    · exact .inl (.inl h)
    · rcases List.mem_cons.mp h with rfl | h
      · exact .inl (.inr rfl)
      · exact .inr h

/-- Every resident of a slot that is pre-empted is asked for. -/
theorem Standing.preemptSlot {p : Place} {P : Prop} (h : Standing tid (some p) P s) (hp : p.core = c ∧ p.pos < 7) (j : Nat) :
    Standing tid (some p) (P ∨ p.slot = j) (s.preemptSlot c j) := by
  refine h.foldl_askPreempt.weaken (Or.imp_right fun hj => ?_)
  obtain ⟨u, hu, hplace, hstate, -⟩ := h
  refine List.mem_map.mpr ⟨(tid, u), List.mem_filter.mpr ⟨List.mem_filter.mpr ⟨mem_of_look hu, by simpa using hstate⟩, ?_⟩, rfl⟩
  simp [hplace, hp, hj]

theorem Standing.foldl_preemptSlot {p : Place} {P : Prop} {l : List Nat} (h : Standing tid (some p) P s) (hp : p.core = c ∧ p.pos < 7) :
    Standing tid (some p) (P ∨ p.slot ∈ l) (l.foldl (fun s j => s.preemptSlot c j) s) := by
  induction l generalizing s P with
  | nil => exact h.weaken fun h => h.resolve_right List.not_mem_nil
  | cons j l ih =>
    refine (ih (h.preemptSlot hp j)).weaken ?_
    rintro (h | h)
    · exact .inl (.inl h)
    · rcases List.mem_cons.mp h with h | h
      · exact .inl (.inr h)
      · exact .inr h

/-! A share computation. -/

/-- The core as a share computation leaves it: its slots have the owners given. -/
def sharedCore (s : State) (c : Nat) (new : List Nat) : Core :=
  { s.core c with
    slots := ((s.core c).slots.zip new).map (fun e => { e.1 with owner := e.2 }), urgent := false,
    unmapped := (dedup (s.core c).owners).filter (fun q => ! decide (q ∈ new)),
    queueWords := some ((List.range 16).map s.queueWord) }

theorem State.core_shareTo (s : State) (c : Nat) (new : List Nat) : (s.shareTo c new).core c = sharedCore s c new := by
  have hpre : ∀ (v : State) (l : List Nat), (l.foldl (fun s j => s.preemptSlot c j) v).cores = v.cores := fun v l =>
    List.foldlRecOn (motive := fun w : State => w.cores = v.cores) l _ rfl fun _ hw j _ => (State.preemptSlot_cores _ c j).trans hw
  simp only [State.shareTo]
  rw [(Noted.record ..).core, State.core_congr (hpre ..), State.core_congr (Told.noteLost ..).cores, State.core_modCore_self]
  rfl

theorem owners_sharedCore {new : List Nat} (h : new.length = (s.core c).slots.length) : (sharedCore s c new).owners = new := by
  simp only [Core.owners, sharedCore, List.map_map]
  exact List.map_snd_zip (by omega)

theorem State.length_sharedOwners (s : State) (c : Nat) : (s.sharedOwners c).length = (s.core c).slots.length := by
  have hlen : (s.core c).owners.length = (s.core c).slots.length := List.length_map _
  simp only [State.sharedOwners]
  split
  · exact hlen
  · rw [Claim.length_newOwners, hlen]

theorem State.sharedOwners_eq (s : State) (c : Nat) : s.sharedOwners c =
    if s.activeQueues c = [] then (s.core c).owners else newOwners (s.core c).owners (s.shareCounts (s.activeQueues c)) := by
  simp only [State.sharedOwners, List.isEmpty_iff]

theorem State.core_shareNow (s : State) (c : Nat) : (s.shareNow c).core c = sharedCore s c (s.sharedOwners c) := State.core_shareTo ..

theorem State.owners_shareNow (s : State) (c : Nat) : ((s.shareNow c).core c).owners = s.sharedOwners c := by
  rw [State.core_shareNow, owners_sharedCore (s.length_sharedOwners c)]

/-- Until its next share computation a core goes by the control words of this one. -/
theorem State.queueWordAt_shareNow (s : State) (c : Nat) (hq : q < 16) : (s.shareNow c).queueWordAt c q = s.queueWord q := by
  simp only [State.queueWordAt, State.core_shareNow, sharedCore, nth]
  simp [List.getD_eq_getElem?_getD, hq]

/-- A resident of a slot that changes owner is to be pre-empted. -/
theorem State.preempted_shareTo {new : List Nat} {p : Place} (ht : s.thread tid = some t) (hplace : t.place = some p)
    (hstate : t.state ≠ .exited) (hp : p.core = c ∧ p.pos < 7) (hj : p.slot < 8)
    (hnew : nth (s.core c).owners p.slot 0 ≠ nth new p.slot 0) : ∃ u, (s.shareTo c new).thread tid = some u ∧ u.preempt = true := by
  have hlost := Told.noteLost (s.modCore c (fun _ => sharedCore s c new)) c
    ((dedup (s.core c).owners).filter (fun q => ! decide (q ∈ new)))
  have hstand : Standing tid (some p) False ((s.modCore c (fun _ => sharedCore s c new)).noteLost c
      ((dedup (s.core c).owners).filter (fun q => ! decide (q ∈ new)))) :=
    ⟨t, (State.thread_congr hlost.threads tid).trans ht, hplace, hstate, False.elim⟩
  have hslot : p.slot ∈ (List.range 8).filter (fun j => decide (nth (s.core c).owners j 0 ≠ nth new j 0)) :=
    List.mem_filter.mpr ⟨List.mem_range.mpr hj, decide_eq_true hnew⟩
  obtain ⟨u, hu, -, -, hpre⟩ := hstand.foldl_preemptSlot
    (l := (List.range 8).filter (fun j => decide (nth (s.core c).owners j 0 ≠ nth new j 0))) hp
  refine ⟨u, ?_, hpre (.inr hslot)⟩
  simp only [State.shareTo]
  rw [(Noted.record ..).thread]
  exact hu

/-- Bands claimed change no more of a core than its claims. -/
theorem State.core_claimBands (s : State) (c : Nat) : ∃ cl, (s.claimBands c).core c = { s.core c with claims := cl } := by
  refine List.foldlRecOn (motive := fun v : State => ∃ cl, v.core c = { s.core c with claims := cl }) _ _ ⟨(s.core c).claims, rfl⟩ ?_
  rintro v ⟨cl, hv⟩ e -
  rw [State.core_congr (State.foldl_askPreempt_cores ..), State.core_modCore_self, hv]
  split
  · exact ⟨cl, rfl⟩
  · exact ⟨_, rfl⟩

/-- A boundary passed changes neither the owners of a core nor its urgent mark. -/
theorem State.core_closeShare (s : State) (c : Nat) : ((s.closeShare c).core c).lastShare = (s.core c).rotation ∧
    ((s.closeShare c).core c).urgent = (s.core c).urgent ∧ ((s.closeShare c).core c).owners = (s.core c).owners := by
  obtain ⟨cl, h⟩ := State.core_claimBands (s.modCore c (fun k => { k with lastShare := k.rotation })) c
  rw [State.closeShare, h, State.core_modCore_self]
  exact ⟨rfl, rfl, rfl⟩

end Sys2Proof.Machine
end

section
/-! When an urgent share computation is due, and the sharing of a core's slots (R40 to R45). -/
namespace Sys2Proof.Machine
variable {s v w : State} {c d q : Nat}

/-- At most the urgent marks of cores, and what queues were active there, differ. -/
def Alike (s v : State) : Prop :=
  v = { s with cores := v.cores } ∧ ∀ c, v.core c = { s.core c with urgent := (v.core c).urgent, wasActive := (v.core c).wasActive }

theorem Alike.refl (s : State) : Alike s s := ⟨rfl, fun _ => rfl⟩

theorem Alike.trans (h : Alike s v) (k : Alike v w) : Alike s w :=
  ⟨by rw [k.1, h.1], fun c => by rw [k.2 c, h.2 c]⟩

theorem Alike.modCore (s : State) (c : Nat) (u : Core → Bool) (l : List Nat) :
    Alike s (s.modCore c (fun k => { k with urgent := u k, wasActive := l })) := by
  refine ⟨rfl, fun d => ?_⟩
  by_cases hd : d = c
  · subst hd
    rw [State.core_modCore_self]
  · rw [State.core_modCore_of_ne _ _ hd]

theorem Alike.threads (h : Alike s v) : v.threads = s.threads := (congrArg State.threads h.1 :)
theorem Alike.launches (h : Alike s v) : v.launches = s.launches := (congrArg State.launches h.1 :)

theorem Alike.owners (h : Alike s v) (c : Nat) : (v.core c).owners = (s.core c).owners := by rw [h.2 c]; rfl

theorem Alike.queueWordAt (h : Alike s v) (c q : Nat) : v.queueWordAt c q = s.queueWordAt c q := by
  have hstart : v.lqtStart = s.lqtStart := (congrArg State.lqtStart h.1 :)
  have hwords : (v.core c).queueWords = (s.core c).queueWords := by rw [h.2 c]
  simp only [State.queueWordAt, hstart, hwords]

theorem Alike.held (h : Alike s v) (x : Victim) : v.held x = s.held x := by
  cases x with
  | core c =>
    simp only [State.held]
    rw [h.2 c]
  | grove g => exact (congrArg (fun s : State => s.held (.grove g)) h.1 :)
  | die d => exact (congrArg (fun s : State => s.held (.die d)) h.1 :)
  | overflow => exact (congrArg (fun s : State => s.held .overflow) h.1 :)

/-- A queue has the same runnable work. -/
theorem Alike.runnable (h : Alike s v) (c q : Nat) : v.runnable c q = s.runnable c q := by
  have hlive : v.live = s.live := by simp only [State.live, h.threads]
  have hof : ∀ n, v.launchOfThread n = s.launchOfThread n := fun n => by
    simp only [State.launchOfThread, State.thread, State.launchOf, h.threads, h.launches]
  have hmay : ∀ n, v.mayTake c n = s.mayTake c n := fun n => by
    simp only [State.mayTake, State.thread, State.launchOf, h.threads, h.launches]
  have hrunq : (v.core c).runq = (s.core c).runq := by rw [h.2 c]
  have hdeque : (v.core c).deque = (s.core c).deque := by rw [h.2 c]
  simp only [State.runnable, State.workOf, hlive, hof, hmay, hrunq, hdeque, h.held]

/-- The URGENT queues active on a core (R44). -/
def State.urgentOn (s : State) (c : Nat) : List Nat :=
  (List.range 16).filter (fun q => bitAt (s.queueWordAt c q) 8 && decide (bits (s.queueWordAt c q) 7 0 ≠ 0) && s.runnable c q)

/-- Has an URGENT queue become active on a core where it owns no slot (R44). -/
def State.rises (s : State) (c : Nat) : Bool :=
  (s.urgentOn c).any (fun q => ! decide (q ∈ (s.core c).wasActive) && ! decide (q ∈ (s.core c).owners))

/-- The mark of one core brought up to date. -/
def State.markUrgent (s : State) (c : Nat) : State :=
  if s.urgentOn c = (s.core c).wasActive then s
  else s.modCore c (fun k => { k with urgent := k.urgent || s.rises c, wasActive := s.urgentOn c })

theorem Alike.markUrgent (s : State) (c : Nat) : Alike s (s.markUrgent c) := by
  unfold State.markUrgent
  split
  · exact .refl s
  · exact .modCore s c (fun k => k.urgent || s.rises c) _

theorem State.core_markUrgent_of_ne (s : State) (h : d ≠ c) : (s.markUrgent c).core d = s.core d := by
  unfold State.markUrgent
  split
  · rfl
  · exact State.core_modCore_of_ne _ _ h

theorem State.urgent_markUrgent (s : State) (c : Nat) : ((s.markUrgent c).core c).urgent = ((s.core c).urgent || s.rises c) := by
  unfold State.markUrgent
  split
  · next h =>
    have hno : s.rises c = false := by
      rw [State.rises, List.any_eq_false]
      exact fun q hq => by simp [← h, hq]
    rw [hno, Bool.or_false]
  · rw [State.core_modCore_self]

/-- A core alike but for other cores rises as it did. -/
theorem Alike.rises (h : Alike s v) (hc : v.core c = s.core c) : v.rises c = s.rises c := by
  simp only [State.rises, State.urgentOn, h.queueWordAt, h.runnable, hc]

/-- Each core of a list is marked by its own state alone. -/
theorem State.urgent_foldl_markUrgent {l : List Nat} (hl : l.Nodup) (s : State) (c : Nat) :
    ((l.foldl State.markUrgent s).core c).urgent = if c ∈ l then ((s.core c).urgent || s.rises c) else (s.core c).urgent := by
  induction l generalizing s with
  | nil => simp
  | cons d l ih =>
    obtain ⟨hd, hl⟩ := List.nodup_cons.mp hl
    rw [List.foldl_cons, ih hl]
    by_cases hc : c = d
    · subst hc
      rw [if_neg hd, if_pos (List.mem_cons_self ..), State.urgent_markUrgent]
    · have hsame := s.core_markUrgent_of_ne hc
      rw [hsame, (Alike.markUrgent s d).rises hsame]
      simp [hc]

/-- Without an URGENT queue of any weight nothing is marked. -/
theorem State.urgentOn_nil (hstart : s.lqtStart.any (fun w => bitAt w 8 && decide (bits w 7 0 ≠ 0)) = false)
    (hcores : s.cores.any (fun e => e.2.queueWords.any (fun ws => ws.any (fun w => bitAt w 8 && decide (bits w 7 0 ≠ 0)))) = false)
    (c : Nat) : s.urgentOn c = [] := by
  have hword : ∀ ws : List Word, ws.any (fun w => bitAt w 8 && decide (bits w 7 0 ≠ 0)) = false → ∀ q,
      (bitAt (nth ws q 0) 8 && decide (bits (nth ws q 0) 7 0 ≠ 0)) = false := by
    intro ws hws q
    by_cases hq : q < ws.length
    · rw [nth, List.getD_eq_getElem _ _ hq]
      simpa using List.any_eq_false.mp hws _ (List.getElem_mem hq)
    · rw [nth, List.getD_eq_default _ _ (by omega)]
      decide
  have hat : ∀ q, (bitAt (s.queueWordAt c q) 8 && decide (bits (s.queueWordAt c q) 7 0 ≠ 0)) = false := by
    intro q
    unfold State.queueWordAt
    split
    · next ws hws =>
      refine hword ws ?_ q
      cases hk : look s.cores c with
      | none => simp [State.core, hk] at hws
      | some k =>
        have hcore : s.core c = k := by simp [State.core, hk]
        have := List.any_eq_false.mp hcores (c, k) (mem_of_look hk)
        rw [hcore] at hws
        simpa [hws] using this
    · exact hword _ hstart q
  exact List.filter_eq_nil_iff.mpr fun q _ => by rw [hat q]; simp

theorem State.urgent_noteUrgent (s : State) (hc : c < 2048) : ((s.noteUrgent).core c).urgent = ((s.core c).urgent || s.rises c) := by
  unfold State.noteUrgent
  extract_lets urgent
  split
  · next h =>
    simp only [Bool.not_eq_true, Bool.or_eq_false_iff] at h
    have hno : s.rises c = false := by rw [State.rises, State.urgentOn_nil h.1 h.2 c]; rfl
    rw [hno, Bool.or_false]
  · exact (State.urgent_foldl_markUrgent List.nodup_range s c).trans (if_pos (List.mem_range.mpr hc))

end Sys2Proof.Machine

namespace Sys2Proof.Claim
open Machine
variable {s : State} {c : Nat}

/-- A core is marked where it was, or where an URGENT queue becomes active that owns no slot there (R44). -/
theorem noteUrgent_iff (s : State) (c : Nat) (hc : c < 2048) : ((s.noteUrgent).core c).urgent = true ↔ (s.core c).urgent = true ∨
    ∃ q, q < 16 ∧ bits (s.queueWordAt c q) 7 0 ≠ 0 ∧ bitAt (s.queueWordAt c q) 8 = true ∧ s.runnable c q = true ∧
      q ∉ (s.core c).wasActive ∧ q ∉ (s.core c).owners := by
  rw [State.urgent_noteUrgent s hc, Bool.or_eq_true]
  refine or_congr_right ?_
  simp [State.rises, State.urgentOn, and_assoc, and_left_comm]

/-- A share boundary: the slots take their owners, and the boundary has been passed. -/
theorem shareComputation (hp : s.mgmt.power = 0) (hdue : s.shareDue c = true) :
    ∃ v, Happens (.shareComputation c) s v ∧ (v.core c).lastShare = (s.core c).rotation ∧ (v.core c).urgent = false ∧
      (v.core c).owners = (if (s.passNotify c).activeQueues c = [] then (s.core c).owners
        else newOwners (s.core c).owners ((s.passNotify c).shareCounts ((s.passNotify c).activeQueues c))) := by
  have hpass := State.core_congr (Told.passNotify s c).cores c
  obtain ⟨hlast, hmark, howners⟩ := State.core_closeShare ((s.passNotify c).shareNow c) c
  refine ⟨_, congrArg partStep (if_pos ⟨hp, hdue⟩), hlast.trans ?_, hmark.trans ?_, howners.trans ?_⟩
  · rw [State.core_shareNow, sharedCore, hpass]
  · rw [State.core_shareNow, sharedCore]
  · rw [State.owners_shareNow, State.sharedOwners_eq, hpass]

/-- An urgent computation comes at the start of a rotation, before any turn. -/
theorem urgentShareComputation (hp : s.mgmt.power = 0) (hurgent : (s.core c).urgent = true) (hstart : (s.core c).nextSlot = 0) :
    s.turnDue c = false ∧ (s.shareDue c = false → Happens (.urgentShareComputation c) s (s.shareNow c)) := by
  refine ⟨by simp [State.turnDue, hurgent, hstart], fun hdue => congrArg partStep (if_pos ⟨hp, hurgent, hstart, ?_⟩)⟩
  rw [hdue]
  exact Bool.false_ne_true

/-- A resident of a slot that changes owner is to be pre-empted. -/
theorem shareNow_preempts {j tid : Nat} {t : Thread} (hj : j < 8) (hin : (tid, t) ∈ s.inSlot c j) (ht : s.thread tid = some t)
    (hnew : nth ((s.shareNow c).core c).owners j 0 ≠ nth (s.core c).owners j 0) :
    ∃ u, (s.shareNow c).thread tid = some u ∧ (u.place = none ∨ u.preempt = true) := by
  obtain ⟨hlive, hslot⟩ := List.mem_filter.mp hin
  have hstate : t.state ≠ .exited := by simpa using (List.mem_filter.mp hlive).2
  rw [State.owners_shareNow] at hnew
  cases hplace : t.place with
  | none => simp [hplace] at hslot
  | some p =>
    have hp : p.core = c ∧ p.slot = j ∧ p.pos < 7 := by simpa [hplace] using hslot
    obtain ⟨hpc, rfl, hpos⟩ := hp
    obtain ⟨u, hu, hpre⟩ := State.preempted_shareTo ht hplace hstate ⟨hpc, hpos⟩ hj hnew.symm
    exact ⟨u, hu, .inr hpre⟩

/-- Settles O37: the policies of a slot, share computations with their counts and their smallest change, and urgent queues. -/
theorem slotSharing : Obligations.SlotSharing := by
  refine ⟨residentChosen, fun s c hp hdue _ => shareComputation hp hdue, fun s c hp hurgent hstart =>
    urgentShareComputation hp hurgent hstart, fun s c _ => ⟨?_, fun q hq => s.queueWordAt_shareNow c hq, fun j tid t hj hin ht hnew =>
    shareNow_preempts hj hin ht hnew⟩, noteUrgent_iff, counted, fun owners counts => smallestChange⟩
  rw [State.owners_shareNow, State.sharedOwners_eq]

end Sys2Proof.Claim
end

section
/-! Lanes read back after one of them is replaced (R170), and a vector instruction that names registers only (R161). -/
namespace Sys2Proof.Machine

/-- The bits of a vector after lane i is replaced. -/
theorem getLsbD_setLane (w i : Nat) (v : Vec) (x k : Nat) : (setLane w i v x).getLsbD k =
    if w * i ≤ k ∧ k < w * i + w then decide (k < 512) && x.testBit (k - w * i) else v.getLsbD k := by
  have hin : w * i ≤ k ∧ k < w * i + w ↔ w * i ≤ k ∧ k - w * i < w := by omega
  simp only [setLane, BitVec.getLsbD_or, BitVec.getLsbD_and, BitVec.getLsbD_not, BitVec.getLsbD_ofNat, Nat.testBit_mul_two_pow,
    Nat.testBit_two_pow_sub_one, Nat.testBit_mod_two_pow, hin]
  split
  · next h => simp [h.1, h.2]
  · next h =>
    by_cases hlo : w * i ≤ k
    · have hhi : ¬ k - w * i < w := fun hhi => h ⟨hlo, hhi⟩
      simpa [hlo, hhi] using v.lt_of_getLsbD
    · simpa [hlo] using v.lt_of_getLsbD

theorem testBit_getLane (w i : Nat) (v : Vec) (k : Nat) : (getLane w i v).testBit k = (decide (k < w) && v.getLsbD (w * i + k)) := by
  rw [getLane, Nat.testBit_mod_two_pow, Nat.testBit_div_two_pow, BitVec.testBit_toNat, Nat.add_comm]

/-- Bit k of lane j stands in lane i only where j is i. -/
theorem lane_bits {w i j k : Nat} (hk : k < w) : w * i ≤ w * j + k ∧ w * j + k < w * i + w ↔ j = i := by
  have hlane : (w * j + k) / w = j := by rw [Nat.mul_add_div (by omega), Nat.div_eq_of_lt hk, Nat.add_zero]
  have hdiv := Nat.div_eq_iff (k := w) (x := w * j + k) (y := i) (by omega)
  rw [hlane, Nat.mul_comm i] at hdiv
  omega

/-- Lane j once lane i is replaced. -/
theorem getLane_setLane {w i j : Nat} (v : Vec) (x : Nat) (hj : w * (j + 1) ≤ 512) :
    getLane w j (setLane w i v x) = if j = i then x % 2 ^ w else getLane w j v := by
  refine Nat.eq_of_testBit_eq fun k => ?_
  rw [testBit_getLane, getLsbD_setLane, apply_ite (Nat.testBit · k), Nat.testBit_mod_two_pow, testBit_getLane]
  by_cases hk : k < w
  · have hin : w * j + k < 512 := by
      rw [Nat.mul_succ] at hj
      omega
    simp only [lane_bits hk, hk, hin, decide_true, Bool.true_and]
    split
    · next h => rw [h, Nat.add_sub_cancel_left]
    · rfl
  · simp [hk]

theorem lane_fits {w i : Nat} (hi : i < 512 / w) : w * (i + 1) ≤ 512 :=
  (Nat.mul_le_mul_left w hi).trans (Nat.mul_div_le 512 w)

/-- Without the marker the thread goes on past the instruction (R30). -/
theorem State.thread_retire_unmarked {s : State} {tid : Nat} {t : Thread} (h : s.thread tid = some t) (target : Option Word) :
    (s.retire tid false target).thread tid = some (t.after target) := by
  rw [State.retire_unmarked h, State.thread_count]
  exact State.thread_setThread_self ..

end Sys2Proof.Machine

namespace Sys2Proof.Claim
open Machine
variable {i : Instr} {s : State} {w : BitVec 1} {t t' : Thread} {d : BitVec 5} {n : Nat} {old : Vec}
  {en : Nat → Bool} {g : Nat → Nat × Flags} {vs : List (BitVec 5)} {regs : List Nat} {f : Thread → Vec × Flags}

/-- An instruction that retires t' has taken effect: without the marker, retirement leaves the rest alone. -/
theorem ends_of_exec {target : Option Word}
    (he : exec i s = .next ((s.setThread s.cur t').retire s.cur (decide (w = 1)) target)) : Ends i s w t' target := by
  refine ⟨he, ?_⟩
  rintro rfl
  exact ⟨_, he, State.thread_retire_unmarked (State.thread_setThread_self ..) target, State.retire_still target⟩

/-- The lane loop of R161 computes the enabled lanes and their flags. -/
theorem lanesOf_overLanes (n : Nat) (old : Vec) (en : Nat → Bool) (g : Nat → Nat × Flags) :
    LanesOf n old en g (overLanes n old en g) :=
  ⟨fun _ hi => overLanes_lane old en g hi, overLanes_flags n old en g⟩

/-- Replacing lane j computes that lane alone, and raises no flag. -/
theorem lanesOf_setLane (n j : Nat) (old : Vec) (x : Nat) :
    LanesOf n old (fun i => i == j) (fun _ => (x, 0#5)) (setLane n j old x, 0#5) :=
  ⟨fun i hi => by simp [getLane_setLane old x (lane_fits hi)], by simp⟩

/-- A plain instruction that writes VD with flags ends with the lanes it writes. -/
theorem vectorEnds_of_vecWrite (he : exec i s = vecWrite w d vs regs f s) (hp : Plain s t (vectorUse (d :: vs) regs))
    (hl : LanesOf n old en g (f t)) : VectorEnds i s w t d n old en g := by
  refine ⟨f t, hl, ends_of_exec (he.trans ((issue_plain hp (hp.unordered rfl rfl)).trans ?_))⟩
  rw [State.finish_done, State.modThread_of_some hp.here]

/-- The same where VD is what the lane loop leaves. -/
theorem vectorEnds_of_overLanes (he : exec i s = vecWrite w d vs regs f s) (hp : Plain s t (vectorUse (d :: vs) regs))
    (hf : f t = overLanes n old en g) : VectorEnds i s w t d n old en g :=
  vectorEnds_of_vecWrite he hp (hf ▸ lanesOf_overLanes n old en g)

/-- VDOT and VCVT are lane loops; the four products of VDOT on S8 add up in any grouping. -/
theorem vectorDotAndConvert : VectorDotAndConvert := by
  refine ⟨fun w m d a b ty s t hp => vectorEnds_of_overLanes rfl hp (congrArg (overLanes 32 _ _) (funext fun i => ?_)),
    fun w m d a p ty su s t hp => vectorEnds_of_overLanes rfl hp rfl⟩
  split
  · rfl
  · simp [List.range_succ, add_assoc]

/-- The moves are lane loops, but for VINS, which replaces one lane, and VEXT, which writes a scalar register. -/
theorem vectorMoves : VectorMoves := by
  refine ⟨?_, fun w m d a b ty s t hp => vectorEnds_of_overLanes rfl hp rfl,
    fun w m d a l ty s t hp => vectorEnds_of_overLanes rfl hp rfl,
    fun w m d a l ty s t hp _ => vectorEnds_of_vecWrite rfl hp (lanesOf_setLane _ _ _ _),
    fun w m d a ty s t hp => vectorEnds_of_overLanes rfl hp rfl, fun w m d a l ty s t hp => ends_of_exec ?_⟩
  · intro op hop w m d a b ty s t hp
    simp only [laneMoves, List.mem_cons, List.not_mem_nil, or_false] at hop
    obtain rfl | rfl | rfl | rfl := hop <;> exact vectorEnds_of_overLanes rfl hp rfl
  · show execVext w d a l m ty s = _
    rw [execVext, issue_plain hp (hp.unordered rfl rfl), State.finish_clean rfl (hp.dst rfl) hp.here]
    rfl

/-- Settles O7: each member writes what the lane loop, or the one replaced lane of VINS, leaves. -/
theorem vectorDotConvertAndMoves : Obligations.VectorDotConvertAndMoves := ⟨vectorDotAndConvert, vectorMoves⟩

end Sys2Proof.Claim
end

section
/-! What an instruction finds when it is issued again (R90): its reserve given back, and nothing left to give back. -/
namespace Sys2Proof.Machine
variable {s v : State} {t : Thread} {tid : Nat}

/-- At most the threads, the cores and the launches of v differ from those of s. -/
def Regains (s v : State) : Prop := v = { s with threads := v.threads, cores := v.cores, launches := v.launches }

theorem Regains.eq (h : Regains s v) : v = { s with threads := v.threads, cores := v.cores, launches := v.launches } := h

theorem Regains.refl (s : State) : Regains s s := rfl

theorem Regains.trans {q : State} (h : Regains s v) (k : Regains v q) : Regains s q := by
  unfold Regains at *
  rw [k, h]

theorem Regains.modLaunch (s : State) (n : Nat) (f : Launch → Launch) : Regains s (s.modLaunch n f) := by
  unfold State.modLaunch
  split <;> rfl

theorem Regains.modThread (s : State) (n : Nat) (f : Thread → Thread) : Regains s (s.modThread n f) := by
  unfold State.modThread
  split <;> rfl

theorem Regains.giveBack (s : State) (g : Taken) : Regains s (s.giveBack g) := by
  unfold State.giveBack
  extract_lets
  split
  exacts [rfl, rfl, .modLaunch .., .modLaunch .., rfl, rfl, .modLaunch .., .modLaunch ..]

theorem Regains.dropGrip (s : State) (tid : Nat) : Regains s (s.dropGrip tid) := by
  unfold State.dropGrip
  split
  · exact .refl s
  · split
    · exact .refl s
    · exact .trans (List.foldrRecOn (motive := Regains s) _ _ (.refl s) fun _ h _ _ => h.trans (.giveBack ..)) (.modThread ..)

theorem Regains.unheld (s : State) (tid : Nat) (u : Use) : Regains s (s.unheld tid u) := by
  unfold State.unheld
  split
  exacts [.dropGrip s tid, .refl s]

theorem Regains.cur (h : Regains s v) : v.cur = s.cur := (congrArg State.cur h.eq :)
theorem Regains.iword (h : Regains s v) : v.iword = s.iword := (congrArg State.iword h.eq :)
theorem Regains.freeN (h : Regains s v) : v.freeN = s.freeN := (congrArg State.freeN h.eq :)

/-- The issuing thread is the same but for its wait. -/
theorem State.thread_unheld (h : s.thread tid = some t) (u : Use) : ∃ w, (s.unheld tid u).thread tid = some { t with wait := w } := by
  unfold State.unheld
  split
  · exact State.thread_dropGrip_self h
  · exact ⟨t.wait, h⟩

/-- A thread with an empty reserve has nothing to give back. -/
theorem State.dropGrip_empty (h : s.thread tid = some t) (hw : ∀ w, t.wait = some w → w.grip = [] ∧ w.ready = false) :
    s.dropGrip tid = s := by
  unfold State.dropGrip
  split
  · rfl
  · next w hwait =>
    obtain ⟨hgrip, hready⟩ := hw w (by simpa [h] using hwait)
    exact if_pos ⟨by simp [hgrip], by simp [hready]⟩

/-- What has been given back once is not given back again. -/
theorem State.dropGrip_dropGrip (h : s.thread tid = some t) : (s.dropGrip tid).dropGrip tid = s.dropGrip tid := by
  cases hwait : t.wait with
  | none =>
    have hsame : s.dropGrip tid = s := State.dropGrip_empty h (by simp [hwait])
    rw [hsame, hsame]
  | some w =>
    by_cases hempty : w.grip.isEmpty ∧ ¬ w.ready
    · have hsame : s.dropGrip tid = s := State.dropGrip_empty h (by simpa [hwait] using hempty)
      rw [hsame, hsame]
    · have hg := (State.thread_congr (s.foldr_giveBack_threads w.grip) tid).trans h
      have hdrop : s.dropGrip tid = (w.grip.foldr (fun g s => s.giveBack g) s).setThread tid
          { t with wait := some { w with grip := [], ready := false } } := by
        simp only [State.dropGrip, h, Option.bind_some, hwait, if_neg hempty, State.modThread_of_some hg, Option.map_some]
      rw [hdrop]
      exact State.dropGrip_empty (State.thread_setThread_self ..) (by simp)

end Sys2Proof.Machine

namespace Sys2Proof.Claim
open Machine
variable {s s' : State} {t : Thread} {u : Use} {m : BitVec 1} {body : State → Nat → Thread → List Word → Act}

/-- An instruction that names a head finds what was held in reserve for it again (R90). -/
theorem issue_dropGrip (h : s.thread s.cur = some t) (hn : u.named = true) (hr : u.restarts t = false) :
    issue m u body s = issue m u body (s.dropGrip s.cur) := by
  obtain ⟨w, hw⟩ := State.thread_dropGrip_self h
  have hr' : u.restarts { t with wait := w } = false := hr
  unfold issue State.unheld
  have hcur := (Regains.dropGrip s s.cur).cur
  rw [if_pos hn, if_pos hn, hcur, State.dropGrip_dropGrip h]
  simp only [issueNow, hcur, hw, hr', Bool.and_false]

/-- A destination that is open meets nothing (R240, R246). -/
theorem Opens.meetPuts {v : State} {tid f : Nat} {x : Word} (h : Opens v tid f x) : v.meetPuts tid [(f, x)] = none := by
  obtain ⟨htrap, p, hp, hroom, -⟩ := h
  have hlacks : v.lacksRoom tid f x = false := by
    by_cases hk : isHead f ∧ headKind (p.headOf (f - 112)) = 6
    · simp [State.lacksRoom, hp, hroom hk]
    · simp only [State.lacksRoom, hp, Bool.and_eq_false_iff, beq_eq_false_iff_ne]
      exact .inl (by simpa using not_and_or.mp hk)
  simp [State.meetPuts, htrap, hlacks]

/-- A result goes through an open destination at once (R90, R213). -/
theorem Opens.giveDsts {v : State} {tid f : Nat} {x : Word} (h : Opens v tid f x) (taint mk : Bool) (target : Option Word) :
    v.giveDsts tid [(f, x, taint)] mk target = (v.writeField tid f x taint).retire tid mk target := by
  obtain ⟨-, p, hp, -, hrel⟩ := h
  have hids : v.enqueueIds tid p [f] = [] := by
    simp only [State.enqueueIds, List.flatMap_cons, List.flatMap_nil, List.append_nil]
    split
    · next sc hsc =>
      obtain ⟨hr, ha⟩ := hrel sc hsc
      rw [hr, ha]
      rfl
    · rfl
  simp [State.giveDsts, hp, hids]

/-- The end of an instruction whose destination is open (R90, R129, R240). -/
theorem finish_value_opens {f tid : Nat} {x : Word} {mk : Bool} (hd : u.dst = some f) (ho : Opens s' tid f x) :
    s.finish tid t u mk (.value x s') = (s'.writeField tid f x (u.taint t)).retire tid mk none := by
  simp [State.finish, hd, ho.meetPuts, ho.giveDsts]

theorem finish_clean_opens {f tid : Nat} {x : Word} {mk : Bool} (hd : u.dst = some f) (ho : Opens s' tid f x) :
    s.finish tid t u mk (.clean x s') = (s'.writeField tid f x false).retire tid mk none := by
  simp [State.finish, hd, ho.meetPuts, ho.giveDsts]

/-- While a source or room is missing the thread blocks on its heads, with nothing dequeued (R30, R90). -/
theorem issue_blocks (h : s.thread s.cur = some t) (halive : t.state ≠ .exited) (hc : s.checks t u = none)
    (hr : u.restarts t = false) (ho : Unordered s t u) (hf : s.unheld s.cur u = s) (hn : s.sources s.cur t u = none) :
    issue m u body s = .next { s.blockOn s.cur (.heads u.srcs u.dsts) (word (s.waitingOn s.cur u)) u.srcs u.dsts with
      freeN := s.freeN + 1 } := by
  have hids : s.stillPending (s.before s.cur u t) = [] := ho
  simp [issue, issueNow, hf, h, halive, hc, hr, hids, hn]

/-- The wait of a thread that blocks: one in progress keeps its start and its limit (R353). -/
def blockedWait (s : State) (t : Thread) (what : WaitOn) (tval : Word) (srcs dsts : List Nat) : Wait :=
  match t.wait with
  | some w => { w with what := what, tval := tval, srcs := srcs, dsts := dsts }
  | none => { what := what, start := s.time, limit := t.csr.waitlim, tval := tval, srcs := srcs, dsts := dsts }

theorem blockOn_eq (h : s.thread s.cur = some t) (what : WaitOn) (tval : Word) (srcs dsts : List Nat) :
    s.blockOn s.cur what tval srcs dsts =
      s.setThread s.cur { t with state := .blocked, wait := some (blockedWait s t what tval srcs dsts) } :=
  State.modThread_of_some h _

theorem blockedWait_what (s : State) (t : Thread) (what : WaitOn) (tval : Word) (srcs dsts : List Nat) :
    (blockedWait s t what tval srcs dsts).what = what := by
  unfold blockedWait
  split <;> rfl

/-- A change of the issuing thread alone leaves everything else as it was. -/
theorem still_setThread (s : State) (t : Thread) (n : Nat) : Still s { s.setThread s.cur t with freeN := n } :=
  ⟨rfl, fun _ => rfl, fun _ hn => State.thread_setThread_of_ne _ _ hn, fun _ => rfl⟩

/-! The integer instructions with a destination (R133 to R142): each computes one value from its sources. -/

section
variable {w : BitVec 1} {d a b : BitVec 7}

theorem exec_binary {op : (BitVec 1 → BitVec 7 → BitVec 7 → BitVec 7 → Instr) × (Word → Word → Word)} (h : op ∈ binary) :
    exec (op.1 w d a b) s = intBinary w d a b op.2 s := by
  fin_cases h <;> rfl

/-- The bank and the row of R135 are taken from address bits 19 to 4. -/
theorem bits_19_4 (x : Word) : bits x 19 4 = x.toNat % 2 ^ 20 / 16 := by
  unfold bits
  omega

theorem exec_unary {op : (BitVec 1 → BitVec 7 → BitVec 7 → Instr) × (Word → Word)} (h : op ∈ unary) :
    exec (op.1 w d a) s = intUnary w d a op.2 s := by
  have hbank : execSpbank w d a s = intUnary w d a (fun x => BitVec.ofNat 64 (x.toNat % 2 ^ 20 / 16 % 31)) s := by
    simp only [execSpbank, spBank, bits_19_4, word]
  have hrow : execSprow w d a s = intUnary w d a (fun x => BitVec.ofNat 64 (x.toNat % 2 ^ 20 / 16 / 31)) s := by
    simp only [execSprow, spRow, bits_19_4, word]
  simp only [unary, List.mem_cons, List.not_mem_nil, or_false] at h
  obtain rfl | rfl | rfl | rfl | rfl | rfl | rfl := h
  exacts [rfl, rfl, rfl, hbank, hrow, rfl, rfl]

theorem exec_immediate {op : (BitVec 1 → BitVec 7 → BitVec 7 → BitVec 11 → Instr) × (Word → BitVec 11 → Word)}
    (h : op ∈ immediate) (i : BitVec 11) : exec (op.1 w d a i) s = intUnary w d a (fun x => op.2 x i) s := by
  fin_cases h <;> rfl

theorem exec_shifts {op : (BitVec 1 → BitVec 7 → BitVec 7 → BitVec 6 → Instr) × (Word → Nat → Word)} (h : op ∈ shifts)
    (n : BitVec 6) : exec (op.1 w d a n) s = intUnary w d a (fun x => op.2 x n.toNat) s := by
  fin_cases h <;> rfl

/-- Each of the instructions is issued with the body that offers its value. -/
theorem exec_calc {i : BitVec 11} {n : BitVec 6} {x : BitVec 5} {q : BitVec 2} {r : BitVec 1} {j : BitVec 16} {k : BitVec 4}
    {c : Calc} (hc : c ∈ calcs d a b i n x q r j k) (w : BitVec 1) (s : State) :
    exec (c.instr w) s = issue w c.use (fun s _ t xs => .value (c.value t xs) s) s := by
  simp only [calcs, List.mem_append, List.mem_map] at hc
  obtain (((⟨op, hop, rfl⟩ | ⟨op, hop, rfl⟩) | ⟨op, hop, rfl⟩) | ⟨op, hop, rfl⟩) | hc := hc
  · exact exec_binary hop
  · exact exec_unary hop
  · exact exec_immediate hop i
  · exact exec_shifts hop n
  · fin_cases hc <;> rfl

end

/-- Settles O9: each of the instructions is an issue that offers one value, and what an issue does in each of the three cases
does not depend on which it is. -/
theorem everyOperandForm : Obligations.EveryOperandForm := by
  intro d a b i n x q r j k c hc w s t
  refine ⟨fun xs s' f hready hd hopens => ?_, fun ht hn hr => ?_, fun ht halive hchecks hr ho hfree hnone => ?_⟩
  · rw [exec_calc hc, issue_ready hready, finish_value_opens hd hopens]
  · rw [exec_calc hc, exec_calc hc, issue_dropGrip ht hn hr]
  · have hblock := (exec_calc hc w s).trans (issue_blocks ht halive hchecks hr ho hfree hnone)
    rw [blockOn_eq ht] at hblock
    refine ⟨_, _, _, hblock, State.thread_setThread_self .., rfl, blockedWait_what .., fun hwait => ?_, still_setThread ..⟩
    simp [blockedWait, hwait]

end Sys2Proof.Claim
end

section
/-! The bits of a control register that a write changes (R364), and flags packed into a word (R96). -/
namespace Sys2Proof.Machine
variable {m old x y : Word} {i lo hi k n acc : Nat} {l : List Bool}

/-- A write through a mask takes the new bits where the mask has them, and keeps the old ones elsewhere. -/
theorem getLsbD_masked (m old x : Word) (i : Nat) :
    ((old &&& ~~~m) ||| (x &&& m)).getLsbD i = if m.getLsbD i then x.getLsbD i else old.getLsbD i := by
  by_cases hi : i < 64
  · rw [BitVec.getLsbD_or, BitVec.getLsbD_and, BitVec.getLsbD_and, BitVec.getLsbD_not]
    cases m.getLsbD i <;> simp [hi]
  · simp [BitVec.getLsbD_of_ge _ _ (Nat.not_lt.mp hi)]

theorem getLsbD_masked_of (h : m.getLsbD i = true) : ((old &&& ~~~m) ||| (x &&& m)).getLsbD i = x.getLsbD i := by
  rw [getLsbD_masked, if_pos h]

theorem masked_allOnes (old x : Word) : (old &&& ~~~allOnes) ||| (x &&& allOnes) = x := by
  rw [show allOnes = BitVec.allOnes 64 from rfl, BitVec.not_allOnes, BitVec.and_zero, BitVec.zero_or, BitVec.and_allOnes]

theorem masked_zero (old x : Word) : (old &&& ~~~(0 : Word)) ||| (x &&& 0) = old := by
  rw [show ~~~(0 : Word) = BitVec.allOnes 64 from rfl, BitVec.and_allOnes, show (0 : Word) = 0#64 from rfl, BitVec.and_zero,
    BitVec.or_zero]

theorem testBit_bits (x : Word) (hi lo i : Nat) : (bits x hi lo).testBit i = (decide (i < hi - lo + 1) && x.getLsbD (lo + i)) := by
  rw [bits, Nat.testBit_mod_two_pow, Nat.testBit_div_two_pow, BitVec.testBit_toNat, Nat.add_comm i]

/-- A field that two words share bit by bit. -/
theorem bits_congr (h : ∀ i, i < hi - lo + 1 → y.getLsbD (lo + i) = x.getLsbD (lo + i)) : bits y hi lo = bits x hi lo := by
  refine Nat.eq_of_testBit_eq fun i => ?_
  rw [testBit_bits, testBit_bits]
  by_cases hlt : i < hi - lo + 1
  · rw [h i hlt]
  · simp [hlt]

/-- The number whose bits are the flags of a list, the first one lowest. -/
def flagNum : List Bool → Nat
  | [] => 0
  | b :: r => Nat.bit b (flagNum r)

theorem testBit_flagNum (l : List Bool) (i : Nat) : (flagNum l).testBit i = nth l i false := by
  induction l generalizing i with
  | nil => simp [flagNum, nth]
  | cons b r ih =>
    cases i with
    | zero => simp [flagNum, nth]
    | succ i => simpa [flagNum, nth, Nat.testBit_bit_succ] using ih i

/-- The flags added up one after another, from flag k on. -/
theorem foldl_flags (l : List Bool) (k n acc : Nat) (h : l.length ≤ n) :
    (l.zip (List.range' k n)).foldl (fun acc e => if e.1 then acc + 2 ^ e.2 else acc) acc = acc + 2 ^ k * flagNum l := by
  induction l generalizing k n acc with
  | nil => simp [flagNum]
  | cons b r ih =>
    cases n with
    | zero => simp at h
    | succ n =>
      rw [List.range'_succ, List.zip_cons_cons, List.foldl_cons, ih _ _ _ (by simpa using h)]
      cases b <;> simp [flagNum, Nat.bit] <;> ring

/-- Flag i of a list stands at bit i of its word. -/
theorem getLsbD_flagWord (h : l.length ≤ 64) (hi : i < 64) : (flagWord l).getLsbD i = nth l i false := by
  rw [flagWord, List.range_eq_range', foldl_flags l 0 64 0 h, word, BitVec.getLsbD_ofNat]
  simp [hi, testBit_flagNum]

theorem getLsbD_chunk (v : Vec) (c : Nat) (hi : i < 64) : (chunk v c).getLsbD i = v.getLsbD (64 * c + i) := by
  rw [chunk, word, BitVec.getLsbD_ofNat, Nat.testBit_div_two_pow, BitVec.testBit_toNat, Nat.add_comm]
  simp [hi]

theorem getLsbD_setChunk (v : Vec) (c : Nat) (x : Word) (hi : i < 512) :
    (setChunk v c x).getLsbD i = if i / 64 = c then x.getLsbD (i % 64) else v.getLsbD i := by
  have hin : 64 * c ≤ i ∧ i < 64 * c + 64 ↔ i / 64 = c := by omega
  rw [setChunk, getLsbD_setLane, if_congr hin rfl rfl]
  split
  · next hc =>
    have hmod : i - 64 * c = i % 64 := by omega
    rw [hmod, decide_eq_true hi, Bool.true_and, BitVec.testBit_toNat]
  · rfl

end Sys2Proof.Machine
end

section
/-! Control registers (R95 to R102): what a write of each kind of CSR comes to. -/
namespace Sys2Proof.Machine
variable {s : State} {t u : Thread} {tid g n j p : Nat} {x y : Word}

/-- The bits of its own CSRs that a thread in user mode may write, and those of a thread in system mode (R96 to R99). -/
theorem ownMask_user : ∀ n ≤ 12, ownMask n false = nth [0x7F, 0x107, 0, 0, 0, 0, allOnes, 0, 0, allOnes, 0, 0, 0] n 0 := by decide
theorem ownMask_system : ∀ n ≤ 12, ownMask n true =
    nth [0x7F, 0x107, 0x800000FF, allOnes, allOnes, 0x7F, allOnes, 0xFFFF, allOnes, allOnes, 0xFFFFFF00, 0, 0] n 0 := by decide

/-- No mode writes `wnd` and `time` (R100). -/
theorem ownMask_readOnly (sys : Bool) (h : 11 ≤ n) : ownMask n sys = 0 := by
  obtain ⟨k, rfl⟩ := Nat.exists_eq_add_of_le h
  rw [Nat.add_comm]
  rfl

/-- A CSR set reads as it was set, and no other CSR differs. -/
theorem State.ownCsr_set (s : State) (t : Thread) (h : n ≤ 10) (y : Word) :
    s.ownCsr (t.modCsr (fun c => c.set n y)) n = y ∧
    ∀ j, j ≠ n → s.ownCsr (t.modCsr (fun c => c.set n y)) j = s.ownCsr t j := by
  interval_cases n
  all_goals
    refine ⟨rfl, fun j hj => ?_⟩
    unfold State.ownCsr
    split <;> simp [Thread.modCsr, Csrs.set, Thread.wnd] at hj ⊢

theorem Csrs.set_readOnly (c : Csrs) (h : 11 ≤ n) (y : Word) : c.set n y = c := by
  obtain ⟨k, rfl⟩ := Nat.exists_eq_add_of_le h
  rw [Nat.add_comm]
  rfl

/-- What a masked write of a thread's CSR leaves (R364). -/
theorem State.ownCsr_masked (s : State) (t : Thread) (n : Nat) (sys : Bool) (x : Word) :
    let u := t.modCsr (fun c => c.set n ((s.ownCsr t n &&& ~~~(ownMask n sys)) ||| (x &&& ownMask n sys)))
    s.ownCsr u n = (s.ownCsr t n &&& ~~~(ownMask n sys)) ||| (x &&& ownMask n sys) ∧ ∀ j, j ≠ n → s.ownCsr u j = s.ownCsr t j := by
  by_cases h : n ≤ 10
  · exact s.ownCsr_set t h _
  · have hro : 11 ≤ n := by omega
    simp only [Csrs.set_readOnly _ hro, ownMask_readOnly sys hro, masked_zero]
    exact ⟨rfl, fun _ _ => rfl⟩

/-- A thread's own CSR. -/
theorem State.writeCsr_own (h : n < 0x40) : s.writeCsr tid t n x =
    s.modThread tid (fun u => u.modCsr (fun c => c.set n
      ((s.ownCsr t n &&& ~~~(ownMask n (! t.user))) ||| (x &&& ownMask n (! t.user))))) := by
  simp [State.writeCsr, State.readCsr, csrMask, h]

theorem neighbour_number (h : n ≤ 12) (p : Nat) : (0x400 + 64 * p + n - 0x400) / 64 = p ∧ (0x400 + 64 * p + n - 0x400) % 64 = n := by
  omega

/-- The CSR of a resident of the slot. -/
theorem State.readCsr_neighbour (hp : p < 7) (hn : n ≤ 12) : s.readCsr t (0x400 + 64 * p + n) =
    match s.neighbour t p with
    | some (_, u) => s.ownCsr u n
    | none => 0 := by
  obtain ⟨hpos, hnum⟩ := neighbour_number hn p
  unfold State.readCsr
  rw [if_neg (by omega), if_pos (by omega), hpos, hnum] <;> rfl

theorem State.writeCsr_neighbour (hp : p < 7) (hn : n ≤ 12) : s.writeCsr tid t (0x400 + 64 * p + n) x =
    match s.neighbour t p with
    | some (g, u) => s.modThread g (fun v => v.modCsr (fun c => c.set n
        ((s.ownCsr u n &&& ~~~(ownMask n true)) ||| (x &&& ownMask n true))))
    | none => s := by
  obtain ⟨hpos, hnum⟩ := neighbour_number hn p
  have hread := s.readCsr_neighbour (t := t) hp hn
  unfold State.writeCsr csrMask
  rw [if_neg (by omega), if_pos (by omega), if_neg (by omega), if_pos (by omega), hpos, hnum]
  cases hnb : s.neighbour t p with
  | none => rfl
  | some e =>
    rw [hnb] at hread
    rw [hread]

/-- A CSR of a handler. -/
theorem State.readCsr_handler (h : n < 5) : s.readCsr t (0x7C0 + n) = s.handlerCsr t n := by
  unfold State.readCsr
  rw [if_neg (by omega), if_neg (by omega), if_pos (by omega), Nat.add_sub_cancel_left]

theorem State.writeCsr_handler (h : n < 5) : s.writeCsr tid t (0x7C0 + n) x = s.setHandlerCsr tid t n
    ((s.handlerCsr t n &&& ~~~(sysMask (0x7C0 + n))) ||| (x &&& sysMask (0x7C0 + n))) := by
  rw [← State.readCsr_handler h]
  have hown : ¬ 0x7C0 + n < 0x40 := by omega
  have hnear : ¬ 0x7C0 + n < 0x5C0 := by omega
  have hsys : 0x7C0 + n < 0x800 := by omega
  simp only [State.writeCsr, csrMask, hown, hnear, hsys, if_true, if_false, Nat.add_sub_cancel_left]

/-- A CSR of a core. -/
theorem State.readCsr_core (h : 0x800 ≤ n) : s.readCsr t n = (s.core t.core).csr n := by
  unfold State.readCsr
  rw [if_neg (by omega), if_neg (by omega), if_neg (by omega)]

theorem State.writeCsr_core (h : 0x800 ≤ n) : s.writeCsr tid t n x = s.modCore t.core (fun k => k.setCsr n
    (((s.core t.core).csr n &&& ~~~(sysMask n)) ||| (x &&& sysMask n))) := by
  rw [← State.readCsr_core h]
  have hown : ¬ n < 0x40 := by omega
  have hnear : ¬ n < 0x5C0 := by omega
  have hsys : ¬ n < 0x800 := by omega
  simp only [State.writeCsr, csrMask, hown, hnear, hsys, if_false]

end Sys2Proof.Machine
end

section
/-! The CSR instructions, and the CSRs of threads, handlers and cores (R95 to R102, R364). -/
namespace Sys2Proof.Claim
open Machine
variable {s s' : State} {t u : Thread} {m w : BitVec 1} {d : BitVec 7} {c n : BitVec 6} {x : Word}

theorem csrNumber_eq (c n : BitVec 6) : csrNumber c n = 64 * c.toNat + n.toNat := by rw [csrNumber, Nat.mul_comm]

/-- A value of the time base is the part's own, out of a replay, and is recorded in deterministic mode alone (R374). -/
theorem timeValue_own (h : s.replaying = false) (k kind : Nat) (who x : Word) :
    (s.timeValue k kind who x).1 = x ∧ (s.mgmt.det = false → (s.timeValue k kind who x).2 = s) := by
  have hown : s.timeValue k kind who x = (x, s.record (unitCore k) kind who x []) := by simp [State.timeValue, h]
  rw [hown]
  exact ⟨rfl, fun hdet => by simp [State.record, hdet]⟩

/-- A system instruction in user mode traps, whatever it waited for (R107). -/
theorem issue_privilege {use : Use} {body : State → Nat → Thread → List Word → Act} (h : s.thread s.cur = some t)
    (halive : t.state ≠ .exited) (huser : t.user = true) (hmt : use.mtOnly = false) (hsys : use.system = true) :
    issue m use body s =
      .next { (s.unheld s.cur use).enterTrap s.cur false ⟨cPRIVILEGE, s.iword⟩ t.pc with freeN := s.freeN + 1 } := by
  have hreg := Regains.unheld s s.cur use
  obtain ⟨wt, hwt⟩ := State.thread_unheld h use
  have hchecks : (s.unheld s.cur use).checks { t with wait := wt } use = some ⟨cPRIVILEGE, s.iword⟩ := by
    have huser' : Thread.user { t with wait := wt } = true := huser
    simp [State.checks, hmt, hsys, huser', hreg.iword]
  unfold issue issueNow
  rw [hreg.cur, hwt]
  simp only [if_neg halive, hchecks, hreg.freeN]

/-- The instructions that write a CSR, by the value they offer. -/
theorem exec_csrWrites {op : (BitVec 1 → BitVec 7 → BitVec 6 → BitVec 6 → Instr) × (Word → Word → Word)} (h : op ∈ csrWrites) :
    exec (op.1 w d c n) s = csrWrite w d c n op.2 s := by
  simp only [csrWrites, List.mem_cons, List.not_mem_nil, or_false] at h
  obtain rfl | rfl | rfl := h <;> rfl

/-- What CSRRD reads (R364): a read of the time base is a value of the part's. -/
def csrRead (s : State) (t : Thread) (k : Nat) : Word × State :=
  if isTime k then s.timeValue t.core 5 t.tidWord (s.readCsr t k) else (s.readCsr t k, s)

theorem exec_csrrd : exec (.csrrd w d c n) s = issue w { dst := some d.toNat, system := decide (0x400 ≤ csrNumber c n) }
    (fun s _ t _ => .clean (csrRead s t (csrNumber c n)).1 (csrRead s t (csrNumber c n)).2) s := rfl

theorem csrRead_own (h : s.replaying = false) (k : Nat) :
    (csrRead s t k).1 = s.readCsr t k ∧ (s.mgmt.det = false → (csrRead s t k).2 = s) := by
  unfold csrRead
  split
  · exact timeValue_own h ..
  · exact ⟨rfl, fun _ => rfl⟩

theorem csrInstructions : CsrInstructions := by
  refine ⟨fun w d c n s t => ?_, fun op hop w d c n s s' t u x => ?_, fun op hop w d c n s t => ?_⟩
  · intro k hready r
    have hr : r = csrRead s t k := (if_congr (by simp only [isTime, decide_eq_true_eq]) rfl rfl).symm
    rw [hr]
    refine ⟨fun hopens => ?_, fun hreplay => csrRead_own hreplay k⟩
    rw [Retires, exec_csrrd, csrNumber_eq, issue_ready hready, finish_clean_opens rfl hopens]
  · intro k hready hu
    rw [Retires, exec_csrWrites hop, csrWrite, csrNumber_eq, issue_ready hready, hu]
    rfl
  · intro h halive huser hc
    have hsys : decide (csrNumber c n ≥ 0x400) = true := by
      rw [csrNumber_eq]
      exact decide_eq_true (by omega)
    exact ⟨(exec_csrWrites hop).trans (issue_privilege h halive huser rfl hsys),
      exec_csrrd.trans (issue_privilege h halive huser rfl hsys)⟩

theorem ownCsrWrites : OwnCsrWrites := by
  intro s t n x h hn user system m
  have hm : m = ownMask n (! t.user) := by
    cases huser : t.user
    · exact (if_neg (by simp [huser])).trans (ownMask_system n hn).symm
    · exact (if_pos huser).trans (ownMask_user n hn).symm
  rw [State.writeCsr_own (by omega), State.modThread_of_some h, hm]
  obtain ⟨hself, hothers⟩ := s.ownCsr_masked t n (! t.user) x
  exact ⟨_, State.thread_setThread_self .., hself, fun j _ hj => hothers j hj, rfl, rfl, rfl, rfl, rfl⟩

theorem neighbourCsrs : NeighbourCsrs := by
  intro s t x q p n _ hplace hp hn k m v
  have hm : m = ownMask n true := (ownMask_system n hn).symm
  have hnear : s.neighbour t p = s.resident q.core q.slot p := by simp [State.neighbour, hplace]
  have hread := s.readCsr_neighbour (t := t) hp hn
  have hwrite : v = _ := s.writeCsr_neighbour (tid := s.cur) (t := t) (x := x) hp hn
  rw [hnear] at hread hwrite
  refine ⟨fun hnone => ?_, fun g u hres hg => ?_⟩
  · rw [hnone] at hread hwrite
    exact ⟨hread, hwrite⟩
  · rw [hres] at hread hwrite
    obtain ⟨hself, hothers⟩ := s.ownCsr_masked u n true x
    rw [hwrite, hm]
    simp only [State.modThread_of_some hg]
    exact ⟨hread, _, State.thread_setThread_self .., hself, fun j _ hj => hothers j hj, rfl, rfl, rfl, rfl,
      fun i hi => State.thread_setThread_of_ne _ _ hi, rfl, rfl⟩

end Sys2Proof.Claim
end

section
/-! The CSRs of a handler's target (R101) and of a core (R102). -/
namespace Sys2Proof.Claim
open Machine
variable {s : State} {t u : Thread} {q : Place} {g n j i tid : Nat} {x y : Word} {l : List Bool}

/-- The target that `hsel` selects is a resident of the slot; position 7 selects none. -/
theorem target_eq (h : t.place = some q) :
    s.target t = if bits t.csr.hsel 2 0 = 7 then none else s.resident q.core q.slot (bits t.csr.hsel 2 0) := by
  simp [State.target, State.neighbour, h]

theorem sysMask_handler : sysMask 0x7C0 = 0xFFC7 ∧ sysMask 0x7C1 = allOnes ∧ sysMask 0x7C2 = allOnes ∧ sysMask 0x7C3 = allOnes ∧
    sysMask 0x7C4 = 0xFFFFFFFFFFFF := by decide

theorem taintMask_bits : ∀ i < 48, (0xFFFFFFFFFFFF : Word).getLsbD i = true := by decide

theorem hselWrite (h : s.thread s.cur = some t) : s.readCsr t 0x7C0 = t.csr.hsel ∧ s.writeCsr s.cur t 0x7C0 x =
    s.setThread s.cur { t with csr := { t.csr with hsel := (t.csr.hsel &&& ~~~0xFFC7) ||| (x &&& 0xFFC7) } } := by
  refine ⟨rfl, (State.writeCsr_handler (n := 0) (by decide)).trans ?_⟩
  rw [sysMask_handler.1]
  exact State.modThread_of_some h _

/-- With no target the other four read zero and ignore writes (log 72). -/
theorem noTarget (h : s.target t = none) (hn : 0 < n) (hlt : n < 5) :
    s.readCsr t (0x7C0 + n) = 0 ∧ s.writeCsr tid t (0x7C0 + n) x = s := by
  rw [State.readCsr_handler hlt, State.writeCsr_handler hlt]
  obtain ⟨k, rfl⟩ := Nat.exists_eq_succ_of_ne_zero hn.ne'
  simp [State.handlerCsr, State.setHandlerCsr, h]

/-- What a write of one of the other four makes of the target. -/
def targetWrite (h : Word) (n : Nat) (y : Word) (u : Thread) : Thread :=
  match n with
  | 1 => if bits h 12 6 = 126 then { u with pw := y }
    else if bits h 12 6 ≤ 111 then { u with x := modify u.x (bits h 12 6) (fun _ => y) } else u
  | 2 => { u with v := modify u.v (bits h 12 6) (fun v => setChunk v (bits h 15 13) y) }
  | 3 => { u with taint := (u.taint.zip (List.range 112)).map (fun e => if e.2 < 64 then bitAt y e.2 else e.1) }
  | _ => { u with taint := (u.taint.zip (List.range 112)).map (fun e => if e.2 < 64 then e.1 else bitAt y (e.2 - 64)) }

/-- A write of one of the other four changes the target alone. -/
theorem writeCsr_target (h : s.target t = some (g, u)) (hg : s.thread g = some u) (hn : 0 < n) (hlt : n < 5) :
    s.writeCsr tid t (0x7C0 + n) x = s.setThread g (targetWrite t.csr.hsel n
      ((s.handlerCsr t n &&& ~~~(sysMask (0x7C0 + n))) ||| (x &&& sysMask (0x7C0 + n))) u) := by
  rw [State.writeCsr_handler hlt]
  interval_cases n <;> simp only [State.setHandlerCsr, h, State.modThread_of_some hg, targetWrite]

/-- Flag i of the target's taint bits, from flag k on. -/
theorem nth_drop_take (l : List Bool) (k m i : Nat) : nth ((l.drop k).take m) i false = decide (i < m ∧ nth l (k + i) false = true) := by
  by_cases hi : i < m
  · simp [nth, List.getD_eq_getElem?_getD, hi]
  · simp [nth, List.getD_eq_getElem?_getD, hi]

/-- Taint bits replaced by f of their numbers and what they were. -/
theorem nth_retaint (hl : l.length = 112) (f : Bool × Nat → Bool) (hi : i < 112) :
    nth ((l.zip (List.range 112)).map f) i false = f (nth l i false, i) := by
  simp [nth, List.getD_eq_getElem?_getD, hl, hi]

theorem length_retaint (hl : l.length = 112) (f : Bool × Nat → Bool) : ((l.zip (List.range 112)).map f).length = 112 := by
  simp [hl]

/-- One part of one vector register replaced, bit by bit. -/
theorem getLsbD_modify_setChunk {v : List Vec} {a r c : Nat} (ha : a < v.length) (hi : i < 512) :
    (nth (modify v r (fun e => setChunk e c x)) a 0).getLsbD i =
      if a = r ∧ i / 64 = c then x.getLsbD (i % 64) else (nth v a 0).getLsbD i := by
  by_cases har : a = r
  · subst har
    rw [nth_modify_self ha, getLsbD_setChunk _ _ _ hi]
    exact if_congr (and_iff_right rfl).symm rfl rfl
  · rw [nth_modify_of_ne _ har, if_neg (fun h => har h.1)]

theorem targetCsrs : TargetCsrs := by
  intro s t x q hs hplace h r c w
  refine ⟨hselWrite hs, fun hnone k hk hle => ?_, fun g u hpos hres hg hlen => ?_⟩
  · have htarget : s.target t = none := by
      rw [target_eq hplace]
      split
      · rfl
      · next hne => exact hnone.resolve_left hne
    obtain ⟨n, rfl⟩ := Nat.exists_eq_add_of_lt hk
    exact noTarget htarget (n := n + 1) (by omega) (by omega)
  have htarget : s.target t = some (g, u) := by rw [target_eq hplace, if_neg hpos, hres]
  obtain ⟨-, hm1, hm2, hm3, hm4⟩ := sysMask_handler
  have hwrite : ∀ n, 0 < n → n < 5 → w (0x7C0 + n) = _ := fun n hn hlt => writeCsr_target htarget hg hn hlt
  have h1 := hwrite 1 (by decide) (by decide)
  have h2 := hwrite 2 (by decide) (by decide)
  have h3 := hwrite 3 (by decide) (by decide)
  have h4 := hwrite 4 (by decide) (by decide)
  simp only [Nat.reduceAdd, hm1, hm2, hm3, hm4, masked_allOnes] at h1 h2 h3 h4
  refine ⟨?_, ?_, fun i hi => ?_, ?_, fun i hi => ⟨?_, ?_⟩, ?_, ?_, fun k hk hle => ?_⟩
  · rw [show (0x7C1 : Nat) = 0x7C0 + 1 from rfl, State.readCsr_handler (by decide)]
    simp only [State.handlerCsr, htarget]
    exact if_congr Iff.rfl rfl (if_congr Nat.lt_succ_iff.symm rfl rfl)
  · rw [h1, State.thread_setThread_self]
    refine congrArg some (if_congr Iff.rfl rfl (if_congr Nat.lt_succ_iff.symm rfl rfl))
  · rw [show (0x7C2 : Nat) = 0x7C0 + 2 from rfl, State.readCsr_handler (by decide)]
    simp only [State.handlerCsr, htarget]
    exact getLsbD_chunk _ _ hi
  · rw [h2, State.thread_setThread_self]
    refine ⟨_, rfl, rfl, length_modify .., fun a i ha hi => ?_⟩
    exact getLsbD_modify_setChunk ha hi
  · rw [show (0x7C3 : Nat) = 0x7C0 + 3 from rfl, State.readCsr_handler (by decide)]
    simp only [State.handlerCsr, htarget]
    rw [getLsbD_flagWord (by simp) hi]
    simpa [hi] using nth_drop_take u.taint 0 64 i
  · rw [show (0x7C4 : Nat) = 0x7C0 + 4 from rfl, State.readCsr_handler (by decide)]
    simp only [State.handlerCsr, htarget]
    rw [getLsbD_flagWord (by simp) hi, nth_drop_take]
  · rw [h3, State.thread_setThread_self]
    exact ⟨_, rfl, rfl, length_retaint hlen _, fun i hi => nth_retaint hlen _ hi⟩
  · rw [h4, State.thread_setThread_self]
    refine ⟨_, rfl, rfl, length_retaint hlen _, fun i hi => (nth_retaint hlen _ hi).trans ?_⟩
    by_cases hlow : i < 64
    · exact (if_pos hlow).trans (if_pos hlow).symm
    · exact (if_neg hlow).trans ((getLsbD_masked_of (taintMask_bits (i - 64) (by omega))).trans (if_neg hlow).symm)
  · obtain ⟨n, rfl⟩ := Nat.exists_eq_add_of_lt hk
    have hk := hwrite (n + 1) (by omega) (by omega)
    rw [show 0x7C0 + n + 1 = 0x7C0 + (n + 1) from rfl, hk]
    exact ⟨rfl, rfl, fun i hi => State.thread_setThread_of_ne _ _ hi⟩

/-- A CSR of the core, as the CSR is laid out (R101, R102): what it reads, what a write of x makes of the core, the bits written. -/
def CoreCsr (k : Core) (n : Nat) (r : Word) (f : Word → Core) (m : Word) : Prop :=
  k.csr n = r ∧ (∀ x, k.setCsr n x = f x) ∧ sysMask n = m

variable {k : Core}

theorem coreCsr_tbase : CoreCsr k 0x800 k.tbase (fun x => { k with tbase := x }) (~~~0xFFF) := ⟨rfl, fun _ => rfl, rfl⟩

theorem coreCsr_slotcfg (hj : j < 8) : CoreCsr k (0x808 + j)
    (word ((k.slot j).owner % 16 * 16 + if (k.slot j).polNext then 1 else 0))
    (fun x => { k with slots := modify k.slots j (fun q => { q with polNext := x.getLsbD 0 }) }) 1 := by
  have hbase : ¬ 0x808 + j = 0x800 := by omega
  have hhere : 0x808 + j ≤ 0x80F := by omega
  refine ⟨?_, fun x => ?_, ?_⟩
  · simp only [Core.csr, hbase, hhere, if_true, if_false, Nat.add_sub_cancel_left]
  · simp only [Core.setCsr, hbase, hhere, if_true, if_false, Nat.add_sub_cancel_left, bitAt]
  · unfold sysMask
    rw [if_neg (by omega), if_neg (by omega), if_neg (by omega), if_neg hbase, if_pos hhere]

theorem coreCsr_band (hj : j < 32) : CoreCsr k (0x820 + j) (nth k.bands j {}).word
    (fun x => { k with bands := modify k.bands j (fun b => { b with v := x.getLsbD 14, lnum := bits x 13 0 }) }) 0x7FFF := by
  have hbase : ¬ 0x820 + j = 0x800 := by omega
  have hslot : ¬ 0x820 + j ≤ 0x80F := by omega
  have hhere : 0x820 + j ≤ 0x83F := by omega
  refine ⟨?_, fun x => ?_, ?_⟩
  · simp only [Core.csr, hbase, hslot, hhere, if_true, if_false, Nat.add_sub_cancel_left]
  · simp only [Core.setCsr, hbase, hslot, hhere, if_true, if_false, Nat.add_sub_cancel_left, bitAt]
  · unfold sysMask
    rw [if_neg (by omega), if_neg (by omega), if_neg (by omega), if_neg hbase, if_neg hslot, if_pos hhere]

theorem coreCsr_pmc (hj : j < 16) :
    CoreCsr k (0x840 + j) (nth k.pmc j 0) (fun x => { k with pmcLater := Machine.put k.pmcLater j x }) allOnes := by
  have hbase : ¬ 0x840 + j = 0x800 := by omega
  have hslot : ¬ 0x840 + j ≤ 0x80F := by omega
  have hband : ¬ 0x840 + j ≤ 0x83F := by omega
  have hhere : 0x840 + j ≤ 0x84F := by omega
  refine ⟨?_, fun x => ?_, ?_⟩
  · simp only [Core.csr, hbase, hslot, hband, hhere, if_true, if_false, Nat.add_sub_cancel_left]
  · simp only [Core.setCsr, hbase, hslot, hband, hhere, if_true, if_false, Nat.add_sub_cancel_left]
  · unfold sysMask
    rw [if_neg (by omega), if_neg (by omega), if_neg (by omega), if_neg hbase, if_neg hslot, if_neg hband, if_pos hhere]

theorem coreCsr_pmsel : CoreCsr k (0x850 + j) ((nth k.pmsel j 0).zeroExtend 64)
    (fun x => { k with pmselLater := Machine.put k.pmselLater j (x.truncate 8) }) 0xFF := by
  have hbase : ¬ 0x850 + j = 0x800 := by omega
  have hslot : ¬ 0x850 + j ≤ 0x80F := by omega
  have hband : ¬ 0x850 + j ≤ 0x83F := by omega
  have hpmc : ¬ 0x850 + j ≤ 0x84F := by omega
  refine ⟨?_, fun x => ?_, ?_⟩
  · simp only [Core.csr, hbase, hslot, hband, hpmc, if_false, Nat.add_sub_cancel_left]
  · simp only [Core.setCsr, hbase, hslot, hband, hpmc, if_false, Nat.add_sub_cancel_left]
  · unfold sysMask
    rw [if_neg (by omega), if_neg (by omega), if_neg (by omega), if_neg hbase, if_neg hslot, if_neg hband, if_neg hpmc]

/-- What a CSR of the core reads, and what a write of it leaves of the core. -/
theorem CoreCsr.access {r m : Word} {f : Word → Core} (h : CoreCsr (s.core t.core) n r f m) (hn : 0x800 ≤ n) (tid : Nat) (x : Word) :
    s.readCsr t n = r ∧ (s.writeCsr tid t n x).core t.core = f ((r &&& ~~~m) ||| (x &&& m)) := by
  obtain ⟨hread, hset, hmask⟩ := h
  rw [State.readCsr_core hn, State.writeCsr_core hn, State.core_modCore_self, hset, hread, hmask]
  exact ⟨rfl, rfl⟩

theorem bandMask_bits : ∀ i < 15, (0x7FFF : Word).getLsbD i = true := by decide
theorem pmselMask_bits : ∀ i < 8, (0xFF : Word).getLsbD i = true := by decide

theorem truncate_masked (old x : Word) : ((old &&& ~~~(0xFF : Word)) ||| (x &&& 0xFF)).truncate 8 = x.truncate 8 := by
  refine BitVec.eq_of_getLsbD_eq fun i hi => ?_
  rw [BitVec.truncate_eq_setWidth, BitVec.truncate_eq_setWidth, BitVec.getLsbD_setWidth, BitVec.getLsbD_setWidth,
    getLsbD_masked_of (pmselMask_bits i hi)]

theorem coreCsrs : CoreCsrs := by
  intro s t x _ k w
  refine ⟨?_, fun j hj => ?_, fun j hj => ?_, fun j hj => ?_, fun j hj => ?_, fun n hn => ?_⟩
  · obtain ⟨hread, hwrite⟩ := coreCsr_tbase.access (by decide) s.cur x
    rw [BitVec.not_not] at hwrite
    exact ⟨hread, hwrite⟩
  · obtain ⟨hread, hwrite⟩ := (coreCsr_slotcfg hj).access (by omega) s.cur x
    rw [getLsbD_masked_of (by decide)] at hwrite
    exact ⟨hread, hwrite⟩
  · obtain ⟨hread, hwrite⟩ := (coreCsr_band hj).access (by omega) s.cur x
    rw [getLsbD_masked_of (bandMask_bits 14 (by decide)), bits_congr fun i hi => getLsbD_masked_of (bandMask_bits _ (by omega))] at hwrite
    exact ⟨hread, hwrite⟩
  · obtain ⟨hread, hwrite⟩ := (coreCsr_pmc hj).access (by omega) s.cur x
    rw [masked_allOnes] at hwrite
    have hw : w (0x840 + j) = { k with pmcLater := Machine.put k.pmcLater j x } := hwrite
    rw [hw]
    exact ⟨hread, rfl, rfl, fun hnil => by simp [Core.beginTurn, hnil, Machine.put]⟩
  · obtain ⟨hread, hwrite⟩ := coreCsr_pmsel.access (by omega) s.cur x
    rw [truncate_masked] at hwrite
    have hw : w (0x850 + j) = { k with pmselLater := Machine.put k.pmselLater j (x.truncate 8) } := hwrite
    rw [hw]
    exact ⟨hread, rfl, rfl, fun hnil => by simp [Core.beginTurn, hnil, Machine.put]⟩
  · rw [State.writeCsr_core hn]
    exact ⟨fun c hc => State.core_modCore_of_ne _ _ hc, rfl, rfl⟩

/-- Settles O35: what each kind of CSR reads and what a write of it leaves, and the instructions that read and write them. -/
theorem controlRegisters : Obligations.ControlRegisters :=
  ⟨csrInstructions, ownCsrWrites, neighbourCsrs, targetCsrs, coreCsrs⟩

end Sys2Proof.Claim
end

section
/-! A step that cannot be taken (R128): the thread that a turn chooses is not the one that its number stands for. -/
namespace Sys2Proof.Claim
open Machine

/-- A state whose list of threads names number 1 twice: an exited thread first, then a ready one in its position. A slot's turn
chooses among the residents listed, the issue takes the first thread of the number. -/
def listedTwice : State :=
  { State.reset.loaded with
    threads := [(1, { loadThread 0 0 with state := .exited }), (1, loadThread 0 0)]
    agenda := [.turn 0] }

/-- Does a step stop the machine. -/
def stops : Host.Outcome State Fault Refusal → Bool
  | .fault _ => true
  | _ => false

/-- The turn of slot 0 chooses number 1 for the ready thread listed under it, and the issue finds the exited one. -/
theorem stops_step_listedTwice : stops (step listedTwice) = true := by decide +kernel

/-- Refutes O60: where a thread number is listed twice, a turn issues for a thread that has exited, and the step faults. -/
theorem not_everyStepGoesOn : ¬ Obligations.EveryStepGoesOn := by
  intro h
  have hstops := stops_step_listedTwice
  obtain ⟨t, ht⟩ | ⟨hr, -⟩ := h listedTwice
  · rw [ht] at hstops
    cases hstops
  · rw [hr] at hstops
    cases hstops

end Sys2Proof.Claim
end

section
/-! Decoding and encoding agree (R103 to R128): an encoded instruction decodes to itself, and a word that decodes is its
instruction's own. -/
namespace Sys2Proof.Laws.RoundTrip

/-- Every instruction with a word is found in it. -/
theorem statement (i : Instr) : Statement i := by
  cases i
  exacts [
    handlerStart .., threadPlacement .., shareComputation .., urgentShareComputation .., preemption ..,
    preemptionGraceExpiry .., waitLimitExpiry .., deferredResultReturn .., mtArrival .., launchInboxCompletion ..,
    launchMailboxCompletion .., stageBalancer .., asyncTrapDelivery .., uintDelivery .., homeWrite ..,
    directoryOverflow .., copyStart .., copyCompletion .., copyInboxAction .., pushAction .., mxuCommandStart ..,
    mxuRow .., mxuCommandComplete .., watchActionStart .., canopyRound .., remoteCopyData ..,
    remoteCopyCompletionRequest .., remoteCopyReport .., mailboxPayload .., mailboxSequenceWord .., slotReleaseNotice
    .., cutHeader .., cutUnit .., cutMarker .., cutAcknowledgement .., timeBaseSynchronisation .., discardReport ..,
    linkAcknowledgement .., retryRequest .., linkIdle .., bulkWriteFault .., bulkData .., linkOutOfService ..,
    boundaryModuleFailure .., cutSend .., membershipEvaluation .., silenceExpiry .., rshipBoundExpiry ..,
    migrationRequest .., ldoor .., launchMailboxTake .., mdoor .., dmhead .., summary .., registerWrite .., checkpoint
    .., restore .., bringUp .., enterService .., enterTest .., enterD1 .., enterD2 .., enterD3 .., wakeD0 ..,
    clockLevelWrite .., clockLevelChange .., debugToken .., debugTokenExpiry .., debugTokenRevocation .., debugResume
    .., getVersion .., getCapabilities .., negotiateAlgorithms .., getDigests .., getCertificate .., challenge ..,
    getMeasurements .., sessionEstablishment .., replayEventDelivery .., illegalEncoding .., flitCrcFailure ..,
    reservedKindFlit .., managementLaunchSubmission .., add .., sub .., and .., or .., xor .., andn .., shl .., shr
    .., sra .., min .., max .., minn .., maxn .., mul .., mulh .., mulhn .., divs .., divn .., rems .., remn .., clz
    .., ctz .., popc .., rotl .., rotr .., addsh1 .., addsh2 .., addsh3 .., spbank .., sprow .., brev .., bswap ..,
    ceq .., cne .., clt .., cle .., cltn .., clen .., cbit .., addi .., andi .., ori .., xori .., muli .., shli ..,
    shri .., srai .., rotli .., ceqi .., cnei .., clti .., clei .., cltni .., cleni .., cgti .., cgei .., exti .., lqz
    .., lqk .., pcadd .., psel .., pand .., por .., pxor .., pandn .., porn .., pnand .., pnor .., pxnor .., brPset
    .., brPclr .., brZ .., brNz .., brEop .., brEos .., brQe .., br .., jmp .., jal .., jalr .., repf .., nop ..,
    yield .., texit .., halt .., faddF32 .., fsubF32 .., fmulF32 .., fdivF32 .., fsqrtF32 .., fminF32 .., fmaxF32 ..,
    fmaF32 .., fmsF32 .., fnmaF32 .., fabsF32 .., fnegF32 .., fcpsF32 .., fceqF32 .., fcltF32 .., fcleF32 .., faddF64
    .., fsubF64 .., fmulF64 .., fdivF64 .., fsqrtF64 .., fminF64 .., fmaxF64 .., fmaF64 .., fmsF64 .., fnmaF64 ..,
    fabsF64 .., fnegF64 .., fcpsF64 .., fceqF64 .., fcltF64 .., fcleF64 .., fcvtF64F32 .., fcvtF32F64 .., fcvtF32S64
    .., fcvtF32N64 .., fcvtF64S64 .., fcvtF64N64 .., fcvtS64F32 .., fcvtN64F32 .., fcvtS64F64 .., fcvtN64F64 ..,
    fcvtF32B16 .., fcvtB16F32 .., fcvtF32F16 .., fcvtF16F32 .., fcvtF32E4 .., fcvtF32E5 .., fcvtE4F32 .., fcvtE5F32
    .., vadd .., vsub .., vmul .., vdiv .., vfma .., vfms .., vfnma .., vsqrt .., vmin .., vmax .., vabs .., vneg ..,
    vcps .., vrcp .., vrsq .., vexp2 .., vlog2 .., vdot .., vand .., vor .., vxor .., vshl .., vshr .., vsra .., vceq
    .., vcne .., vclt .., vcle .., vsel .., vadds .., vsubs .., vmulh .., vcvt .., vperm .., vbcst .., vins .., vext
    .., vzipl .., vziph .., vuzpe .., vuzpo .., vrsum .., vrmax .., vrmin .., vrand .., vror .., vmovs .., lds8 ..,
    ldn8 .., lds16 .., ldn16 .., lds32 .., ldn32 .., ld64 .., st8 .., st16 .., st32 .., st64 .., vld .., vlds .., vgth
    .., vst .., vsts .., vsct .., amo64Swap .., amo64Cas .., amo64Add .., amo64Fadd .., amo32Swap .., amo32Cas ..,
    amo32Add .., amo32Fadd .., redAdd .., redAnd .., redOr .., redXor .., redMax .., redMin .., redMaxn .., redMinn
    .., redFadd .., redFmax .., redFmin .., vamoSwap .., vamoAdd .., vamoAnd .., vamoOr .., vamoXor .., vamoMax ..,
    vamoMin .., vamoFadd .., fence .., ldfe .., ldfec .., stfe .., waitge .., migrate .., prefetch .., fork .., joinw
    .., launch .., tinfo .., qbind .., qpoll .., send .., sende .., vqrd .., vqwr .., itemget .., itemput .., barj ..,
    barl .., bara .., barw .., barm .., csig .., xset .., xget .., xlaunch .., xwait .., trig .., trigc .., trigq ..,
    mxwait .., mxrd .., hdone .., ppt .., radd .., rmax .., rlww .., rsadd .., rsrem .., rshas .., rmean .., rfront
    .., rwaitf .., hlcrd .., rship .., rstat .., mbsend .., mbrecv .., mbpoll .., trputAdd .., trputMin .., trputMax
    .., trputAnd .., trputOr .., trputXor .., trputBcast .., trputBarrier .., trget .., trap .., eret .., uiret ..,
    csrrd .., csrwr .., csrset .., csrclr .., grd .., gwr .., tlbinv .., tlbinvAll .., bkpt ..]

end Sys2Proof.Laws.RoundTrip

namespace Sys2Proof.Claim
open Laws
variable {w lo n m v acc a : Nat} {i : Instr}

/-- Four bytes are a number below 2 ^ 32 (R6). -/
theorem wordOfBytes_bytesOfWord (h : w < 2 ^ 32) : wordOfBytes (bytesOfWord w) = w := by
  simp only [wordOfBytes, bytesOfWord, List.foldr, BitVec.toNat_ofNat]
  omega

theorem toNat_of_encode {x : IWord} (h : encode i = some x) : i.hasWord = true ∧ x.toNat = wordOf i := by
  unfold encode at h
  split at h
  · next hword =>
    refine ⟨hword, ?_⟩
    rw [← Option.some.inj h, BitVec.toNat_ofNat, Nat.mod_eq_of_lt (RoundTrip.statement i).1]
  · cases h

theorem decode_wordOf (hword : i.hasWord = true) (hi : i.WellFormed) : decode (wordOf i) = .ok i := by
  have hfault : i.encodingFault = none := hi
  simp only [decode, (RoundTrip.statement i).2 hword, hfault]

/-- Settles O53: the word of an instruction is below 2 ^ 32 and decodes to it, and its bytes hold it. -/
theorem decodeAfterEncode : Obligations.DecodeAfterEncode := by
  intro i x rest hi hx
  obtain ⟨hword, hval⟩ := toNat_of_encode hx
  have hbytes : decodeBytes (bytesOfWord x.toNat ++ rest) = some (decode (wordOfBytes (bytesOfWord x.toNat)), rest) := rfl
  rw [hbytes, wordOfBytes_bytesOfWord x.isLt, hval, decode_wordOf hword hi]

/-- Settles O55: each sample is the word of the instruction beside it, which is well formed. -/
theorem sampleWords : Obligations.SampleWords := by
  have hown : ∀ e ∈ samples, e.1 < 2 ^ 32 ∧ encode e.2 = some (BitVec.ofNat 32 e.1) ∧ e.2.encodingFault = none := by
    decide +kernel
  intro e he
  obtain ⟨hlt, hword, hi⟩ := hown e he
  have hdec := decodeAfterEncode e.2 _ [] hi hword
  rwa [BitVec.toNat_ofNat, Nat.mod_eq_of_lt hlt, List.append_nil] at hdec

/-- The part of w below p, where p is a power of two. A field of w from bit lo is what the part below its end has over the
part below lo, so that the fields and the fixed ranges of a word add up to it. -/
def low (w p : Nat) : Int := (w % p : Nat)

theorem low_one (w : Nat) : low w 1 = 0 := by simp [low, Nat.mod_one]

theorem low_mul (w a m : Nat) : low w (a * m) = low w a + a * (w / a % m : Nat) := by simp [low, Nat.mod_mul]

theorem put_fld : (put (fld w lo n) lo acc : Int) = low w (2 ^ lo * 2 ^ n) - low w (2 ^ lo) + acc := by
  rw [low_mul, put, fld, BitVec.toNat_ofNat]
  push_cast
  ring

theorem range_eq_iff : w / 2 ^ lo % m = v ↔ low w (2 ^ lo * m) = low w (2 ^ lo) + 2 ^ lo * v := by
  rw [low_mul]
  push_cast
  rw [add_right_inj, mul_right_inj' (pow_ne_zero lo two_ne_zero)]
  norm_cast

theorem wordOf_eq {N : Nat} (hw : w < 2 ^ 32) (h : wordOf i = N) (hN : (N : Int) = low w (2 ^ 32)) : wordOf i = w := by
  rw [h, ← Int.natCast_inj, hN, low, Nat.mod_eq_of_lt hw]

/-- What a decoder gives for w is an instruction whose own word is w, if it is one at all. -/
def OwnWord (w : Nat) (o : Option Instr) : Prop := ∀ i, o = some i → i.hasWord = true ∧ wordOf i = w

/-- In every row of the decoder the fields and the ranges that it has tested add up to the word. -/
theorem ownWord_parse (hw : w < 2 ^ 32) : OwnWord w (parse w) := by
  dsimp only [parse,
    decodeIop, decodeIop2, decodeCmp, decodeAddi, decodeAndi, decodeOri, decodeXori, decodeShfi, decodeCmpi,
    decodeExti, decodeMuli, decodeLqz, decodeLqk, decodePcadd, decodePsel, decodePlog, decodeBr, decodeJmp, decodeJal,
    decodeJalr, decodeRepf, decodeCtl, decodeFs, decodeFd, decodeFcv, decodeVa, decodeVx, decodeLds8, decodeLdn8,
    decodeLds16, decodeLdn16, decodeLds32, decodeLdn32, decodeLd64, decodeSt8, decodeSt16, decodeSt32, decodeSt64,
    decodeVmem, decodeAmo64, decodeAmo32, decodeRed, decodeVamo, decodeSync, decodeThr, decodeChn, decodeBar,
    decodeEng, decodeRep, decodeFab, decodeSys]
  repeat' split
  all_goals
    rintro i ⟨⟩
  all_goals
    refine ⟨rfl, wordOf_eq (N := put _ _ _) hw rfl ?_⟩
    simp only [range_eq_iff, put_fld] at *
    simp only [Nat.reducePow, Nat.reduceMul, low_one] at *
    omega

/-- Settles O54: no range of a word is left out of its fields and the ranges tested. -/
theorem noBitIgnored : Obligations.NoBitIgnored := fun _ i hn h => ownWord_parse hn i h

end Sys2Proof.Claim
end

section
/-! The integer instructions with a destination: each ends with the one value it offers written (R93, R133 to R142). -/
namespace Sys2Proof.Claim
open Machine
set_option Elab.async false
variable {i : Instr} {s : State} {w : BitVec 1} {t : Thread} {u : Use} {f : Nat} {x : Word}
  {body : State → Nat → Thread → List Word → Act}

/-- A plain instruction that gives its destination one value has taken effect with that value written (R90, R93). -/
theorem ends_of_value (he : exec i s = issue w u body s) (hp : Plain s t u) (hd : u.dst = some f)
    (hb : body s s.cur t (u.srcs.map t.reads) = .value x s) (ha : u.acq = false := by rfl) (hr : u.rel = none := by rfl) :
    Ends i s w (t.writes f x (u.taint t)) none := by
  refine ends_of_exec (he.trans ((issue_plain hp (hp.unordered ha hr)).trans ?_))
  rw [hb, State.finish_value hd (hp.dst hd) hp.here]

/-- Settles O1: each member is an issue that offers its result as a value. -/
theorem binaryIntegerResults : Obligations.BinaryIntegerResults :=
  fun _ hop _ _ _ _ _ _ hp => ends_of_value (exec_binary hop) hp rfl rfl

section
variable {d a b : BitVec 7}

theorem exec_exti (x : BitVec 5) (l : BitVec 6) : exec (.exti w d a x l) s =
    intUnary w d a (fun y => word (y.toNat / 2 ^ l.toNat % 2 ^ (x.toNat + 1))) s := rfl

theorem exec_lqz (q : BitVec 2) (i : BitVec 16) : exec (.lqz w d q i) s = execLqz w d q i s := rfl

theorem exec_lqk (q : BitVec 2) (i : BitVec 16) : exec (.lqk w d q i) s = execLqk w d q i s := rfl

theorem exec_pcadd (q : BitVec 1) (i : BitVec 16) : exec (.pcadd w d q i) s = execPcadd w d q i s := rfl

theorem exec_psel (k : BitVec 4) : exec (.psel w d a b k) s = execPsel w d a b k s := rfl

end

theorem unaryAndImmediateResults : UnaryAndImmediateResults := fun _ _ _ _ _ hp =>
  ⟨fun _ hop => ends_of_value (exec_unary hop) hp rfl rfl, fun _ hop i => ends_of_value (exec_immediate hop i) hp rfl rfl,
    fun _ hop n => ends_of_value (exec_shifts hop n) hp rfl rfl, fun x l => ends_of_value (exec_exti x l) hp rfl rfl⟩

theorem constantsAndSelect : ConstantsAndSelect :=
  ⟨fun _ _ q i _ _ hp => ends_of_value (exec_lqz q i) hp rfl rfl, fun _ _ q i _ _ hp => ends_of_value (exec_pcadd q i) hp rfl rfl,
    fun _ _ q i _ _ hp => ends_of_value (exec_lqk q i) hp rfl rfl, fun _ _ _ _ k _ _ hp => ends_of_value (exec_psel k) hp rfl rfl⟩

/-- Settles O2: as the binary members, each offers one value. -/
theorem unaryImmediateAndConstants : Obligations.UnaryImmediateAndConstants := ⟨unaryAndImmediateResults, constantsAndSelect⟩

end Sys2Proof.Claim
end

section
/-! Compares and predicate logic: one bit of pw replaced (R136, R140, R143). -/
namespace Sys2Proof.Machine
set_option Elab.async false

/-- A field replaced in a word: its bits are those of the number, every other bit stays. -/
theorem getLsbD_setBits (x : Word) {hi lo : Nat} (h : hi < 64) (hle : lo ≤ hi) (n i : Nat) :
    (setBits x hi lo n).getLsbD i = if lo ≤ i ∧ i ≤ hi then n.testBit (i - lo) else x.getLsbD i := by
  have hmask : ∀ j, ((2 ^ (hi - lo + 1) - 1) * 2 ^ lo).testBit j = decide (lo ≤ j ∧ j ≤ hi) := fun j => by
    rw [Nat.testBit_mul_two_pow, Nat.testBit_two_pow_sub_one]
    by_cases hlo : lo ≤ j
    · simp [hlo]
      omega
    · simp [hlo]
  simp only [setBits, BitVec.getLsbD_or, BitVec.getLsbD_and, BitVec.getLsbD_not, BitVec.getLsbD_ofNat, hmask,
    Nat.testBit_mul_two_pow]
  by_cases hi64 : i < 64
  · by_cases hin : lo ≤ i ∧ i ≤ hi
    · simp [hin, hi64]
    · simp [hin, hi64]
  · rw [if_neg (by omega), x.getLsbD_of_ge i (by omega)]
    simp [hi64]

end Sys2Proof.Machine

namespace Sys2Proof.Claim
open Machine
set_option Elab.async false
variable {i : Instr} {s : State} {w : BitVec 1} {t : Thread} {u : Use}
  {body : State → Nat → Thread → List Word → Act}

/-- The model's replacement of one bit of pw is the one of R136. -/
theorem setPw_eq_pwWith (pw : Word) (p : BitVec 1) (k : BitVec 6) (c : Bool) : setPw pw p k.toNat c = pwWith pw p k.toNat c := by
  have hk := k.isLt
  have hbit : ∀ b : Bool, (if b then 1 else 0).testBit 0 = b := by decide
  refine BitVec.eq_of_getLsbD_eq fun i hi => ?_
  rw [setPw, getLsbD_setBits pw hk le_rfl, pwWith, BitVec.getLsbD_ofFnLE, dif_pos hi]
  by_cases h : i = k.toNat
  · subst h
    rw [if_pos ⟨le_rfl, le_rfl⟩, Nat.sub_self, hbit, if_pos rfl]
  · rw [if_neg (by omega), if_neg h]

/-- A plain instruction that does no more than change its own thread (R136, R143). -/
theorem ends_of_change {f : Thread → Thread} (he : exec i s = issue w u body s) (hp : Plain s t u)
    (hb : body s s.cur t (u.srcs.map t.reads) = .done (s.modThread s.cur f)) (ha : u.acq = false := by rfl)
    (hr : u.rel = none := by rfl) :
    Ends i s w (f t) none := by
  refine ends_of_exec (he.trans ((issue_plain hp (hp.unordered ha hr)).trans ?_))
  rw [hb, State.finish_done, State.modThread_of_some hp.here]

theorem exec_compares {op : (BitVec 1 → BitVec 1 → BitVec 6 → BitVec 7 → BitVec 7 → Instr) × (Word → Word → Bool)}
    (h : op ∈ compares) {p : BitVec 1} {k : BitVec 6} {a b : BitVec 7} :
    exec (op.1 w p k a b) s = compareRegs w p k a b op.2 s := by
  fin_cases h <;> rfl

theorem exec_comparesImm {op : (BitVec 1 → BitVec 1 → BitVec 6 → BitVec 7 → BitVec 8 → Instr) × (Word → BitVec 8 → Bool)}
    (h : op ∈ comparesImm) {p : BitVec 1} {k : BitVec 6} {a : BitVec 7} (i : BitVec 8) :
    exec (op.1 w p k a i) s = compareImm w p k a (fun x => op.2 x i) s := by
  fin_cases h <;> rfl

/-- PXNOR holds where its sources are equal (R143). -/
theorem exec_pxnor {k j m : BitVec 6} : exec (.pxnor w k j m) s = predLogic w k j m (fun x y => x == y) s := by
  have hxnor : (fun x y : Bool => !(x ^^ y)) = fun x y => x == y := by
    funext x y
    cases x <;> cases y <;> rfl
  show execPxnor w k j m s = _
  rw [execPxnor, hxnor]

theorem exec_logic {op : (BitVec 1 → BitVec 6 → BitVec 6 → BitVec 6 → Instr) × (Bool → Bool → Bool)} (h : op ∈ logic)
    {k j m : BitVec 6} : exec (op.1 w k j m) s = predLogic w k j m op.2 s := by
  simp only [logic, List.mem_cons, List.not_mem_nil, or_false] at h
  obtain rfl | rfl | rfl | rfl | rfl | rfl | rfl | rfl := h
  exacts [rfl, rfl, rfl, rfl, rfl, rfl, rfl, exec_pxnor]

/-- Settles O3: each of them changes the one bit of pw that the model replaces. -/
theorem predicateBits : Obligations.PredicateBits := by
  refine ⟨fun op hop w p k a b s t hp => ?_, fun op hop w p k a i s t hp => ?_, fun op hop w k j m s t hp => ?_⟩
  all_goals rw [← setPw_eq_pwWith]
  · exact ends_of_change (exec_compares hop) hp rfl
  · exact ends_of_change (exec_comparesImm hop i) hp rfl
  · exact ends_of_change (exec_logic hop) hp rfl

end Sys2Proof.Claim
end

section
/-! Branches and jumps (R144 to R146). -/
namespace Sys2Proof.Claim
open Machine
set_option Elab.async false
variable {i : Instr} {s : State} {w : BitVec 1} {t : Thread} {u : Use}
  {body : State → Nat → Thread → List Word → Act}

/-- A plain instruction that jumps, with a change of its own thread or none (R144, R145). -/
theorem ends_of_jump {t' : Thread} {g : Word} (he : exec i s = issue w u body s) (hp : Plain s t u)
    (hb : body s s.cur t (u.srcs.map t.reads) = .jump g (s.setThread s.cur t'))
    (ha : u.acq = false := by rfl) (hr : u.rel = none := by rfl) :
    Ends i s w t' (some g) := by
  refine ends_of_exec (he.trans ((issue_plain hp (hp.unordered ha hr)).trans ?_))
  rw [hb, State.finish_jump]

theorem exec_branches {x : BitVec 6} {op : (BitVec 1 → BitVec 15 → Instr) × List Nat × (Thread → Bool)} (h : op ∈ branches x)
    (o : BitVec 15) : exec (op.1 w o) s = branch w o op.2.1 op.2.2 s := by
  simp only [branches, List.mem_cons, List.not_mem_nil, or_false] at h
  obtain rfl | rfl | rfl | rfl | rfl | rfl | rfl | rfl := h <;> rfl

theorem exec_jmp (o : BitVec 25) : exec (.jmp w o) s = execJmp w o s := rfl

theorem exec_jal (o : BitVec 25) : exec (.jal w o) s = execJal w o s := rfl

theorem exec_jalr (d a : BitVec 7) (o : BitVec 11) : exec (.jalr w d a o) s = execJalr w d a o s := rfl

/-- Settles O4: each is an issue that jumps; JALR links, or traps on the address before anything is written. -/
theorem branchesAndJumps : Obligations.BranchesAndJumps := by
  refine ⟨fun x op hop w o s t hp => ?_, fun w o s t hp => ?_, fun w o s t hp => ?_, fun w d a o s t hp => ?_⟩
  · refine ends_of_jump (exec_branches hop o) hp ?_
    rw [State.setThread_same hp.here]
  · refine ends_of_jump (exec_jmp o) hp ?_
    rw [State.setThread_same hp.here]
  · refine ends_of_jump (exec_jal o) hp ?_
    rw [State.modThread_of_some hp.here]
  · have hissue := (exec_jalr (w := w) d a o).trans (issue_plain hp (hp.unordered rfl rfl))
    refine ⟨fun h => ends_of_exec (hissue.trans ?_), fun h => hissue.trans ?_⟩
    · rw [← State.finish_link (s := s) (u := { srcs := [a.toNat], dst := some d.toNat }) rfl (hp.dst rfl) hp.here]
      exact congrArg (fun q => Host.Outcome.next (s.finish s.cur t _ _ q)) (if_neg (not_not.mpr h))
    · exact congrArg (fun q => Host.Outcome.next (s.finish s.cur t _ (decide (w = 1)) q)) (if_pos h)

end Sys2Proof.Claim
end

section
/-! A repeat frame: what follows an instruction in it, and what a REPF captures (R147, R148). -/
namespace Sys2Proof.Machine
set_option Elab.async false
variable {t : Thread} {s : State} {pc : Word} {l : List IWord}

theorem Thread.advance_outside (h : t.inFrame = false) : t.advance none = { t with pc := t.pc + 4 } := by
  simp [Thread.advance, h]

theorem Thread.advance_next (h : t.inFrame = true) (hidx : bits t.csr.repst 18 15 < 15) : t.advance none =
    { t.modCsr (fun c => { c with repst := setBits t.csr.repst 18 15 (bits t.csr.repst 18 15 + 1) }) with pc := t.pc + 4 } := by
  simp only [Thread.advance, h, not_true, if_false, if_pos hidx]

theorem Thread.advance_nextPass (h : t.inFrame = true) (hidx : ¬ bits t.csr.repst 18 15 < 15)
    (hpass : bits t.csr.repst 24 19 < bits t.csr.repst 30 25) : t.advance none =
    { t.modCsr (fun c => { c with repst := setBits (setBits t.csr.repst 18 15 0) 24 19 (bits t.csr.repst 24 19 + 1) }) with
      pc := t.pc - 60 } := by
  simp only [Thread.advance, h, not_true, if_false, if_neg hidx, if_pos hpass]

theorem Thread.advance_close (h : t.inFrame = true) (hidx : ¬ bits t.csr.repst 18 15 < 15)
    (hpass : ¬ bits t.csr.repst 24 19 < bits t.csr.repst 30 25) : t.advance none =
    { t.modCsr (fun c => { c with repst := setBits t.csr.repst 31 31 0 }) with pc := t.pc + 4, frame := [] } := by
  simp only [Thread.advance, h, not_true, if_false, if_neg hidx, if_neg hpass]

/-- The words captured so far, and the word at place i added to them, or the trap of its fetch (R147). -/
def State.fetchNext (s : State) (t : Thread) (pc : Word) (acc : Except TrapRec (List IWord)) (i : Nat) :
    Except TrapRec (List IWord) :=
  match acc with
  | .error e => .error e
  | .ok l =>
    match s.fetchAt t (pc + word (4 + 4 * i)) with
    | .ok x => .ok (l ++ [BitVec.ofNat 32 x])
    | .error e => .error e

theorem State.fetchFrame_eq : s.fetchFrame t pc = (List.range 16).foldl (s.fetchNext t pc) (.ok []) := rfl

/-- A word is added only behind those before it, and only if its fetch does not trap. -/
theorem State.fetchNext_ok {acc : Except TrapRec (List IWord)} {i : Nat} (h : s.fetchNext t pc acc i = .ok l) :
    ∃ k x, acc = .ok k ∧ s.fetchAt t (pc + word (4 + 4 * i)) = .ok x ∧ l = k ++ [BitVec.ofNat 32 x] := by
  cases acc with
  | error e => cases h
  | ok k =>
    simp only [State.fetchNext] at h
    split at h
    · next x hx => exact ⟨k, x, rfl, hx, (Except.ok.inj h).symm⟩
    · cases h

/-- The first n words after the REPF at pc are l. -/
def Fetched (s : State) (t : Thread) (pc : Word) (n : Nat) (l : List IWord) : Prop :=
  l.length = n ∧ ∀ i < n, ∃ x, s.fetchAt t (pc + BitVec.ofNat 64 (4 * i + 4)) = .ok x ∧ nth l i 0 = BitVec.ofNat 32 x

/-- By induction on the words fetched: the last is added behind those before it. -/
theorem fetched_of_foldl (n : Nat) (h : (List.range n).foldl (s.fetchNext t pc) (.ok []) = .ok l) : Fetched s t pc n l := by
  induction n generalizing l with
  | zero =>
    cases h
    exact ⟨rfl, fun i hi => absurd hi (Nat.not_lt_zero i)⟩
  | succ n ih =>
    rw [List.range_succ, List.foldl_append, List.foldl_cons, List.foldl_nil] at h
    obtain ⟨k, x, hk, hx, rfl⟩ := State.fetchNext_ok h
    obtain ⟨hlen, hwords⟩ := ih hk
    refine ⟨by simp [hlen], fun i hi => ?_⟩
    rcases Nat.lt_succ_iff_lt_or_eq.mp hi with hlt | rfl
    · obtain ⟨y, hy, hky⟩ := hwords i hlt
      exact ⟨y, hy, by rw [nth, List.getD_append _ _ _ _ (hlen ▸ hlt), ← nth, hky]⟩
    · exact ⟨x, by rwa [Nat.add_comm], by simp [nth, ← hlen]⟩

/-- A frame that is captured was fetched whole, and holds no word of another major (R147). -/
theorem State.capture_ok (h : s.capture t pc = .ok l) : Fetched s t pc 16 l ∧ ∀ x ∈ l, frameMajor x = true := by
  unfold State.capture at h
  split at h
  · cases h
  next k hk =>
    split at h
    · cases h
    next hnone =>
      cases h
      exact ⟨fetched_of_foldl 16 hk, by simpa using List.find?_eq_none.mp hnone⟩

end Sys2Proof.Machine

namespace Sys2Proof.Claim
open Machine
set_option Elab.async false

theorem frameOrder : FrameOrder := by
  intro t
  refine ⟨Thread.advance_outside, fun h hidx => ?_, fun h hidx hpass => ?_, fun h hidx hpass => ?_⟩
  · rw [Thread.advance_next h hidx]
    exact ⟨rfl, rfl, rfl⟩
  · rw [Thread.advance_nextPass h (by omega) hpass]
    exact ⟨rfl, rfl, rfl⟩
  · rw [Thread.advance_close h (by omega) (by omega)]
    exact ⟨rfl, getLsbD_setBits _ (by decide) le_rfl 0 31, rfl⟩

theorem frameCapture : FrameCapture := by
  intro s t pc l h
  obtain ⟨⟨hlen, hwords⟩, hmajor⟩ := State.capture_ok h
  refine ⟨hlen, fun x hx => ?_, hwords⟩
  have hm := hmajor x hx
  simp only [frameMajor, decide_eq_true_eq] at hm
  simp only [List.mem_cons, List.not_mem_nil, or_false]
  omega

end Sys2Proof.Claim
end

section
/-! A word with some of its fields raised (R148). -/
namespace Sys2Proof.Claim
open Machine
set_option Elab.async false
variable {w : IWord} {d y : Nat} {e f : Nat × Nat × Nat} {fs : List (Nat × Nat × Nat)}

theorem testBit_fieldOf (x : Nat) (e : Nat × Nat × Nat) (i : Nat) :
    (fieldOf x e).testBit i = (decide (i < e.2.1) && x.testBit (e.1 + i)) := by
  rw [fieldOf, Nat.testBit_mod_two_pow, Nat.testBit_div_two_pow, Nat.add_comm]

/-- A field is no more than its bits. -/
theorem fieldOf_congr {x : Nat} (h : ∀ i < e.2.1, y.testBit (e.1 + i) = x.testBit (e.1 + i)) : fieldOf y e = fieldOf x e := by
  refine Nat.eq_of_testBit_eq fun i => ?_
  rw [testBit_fieldOf, testBit_fieldOf]
  by_cases hi : i < e.2.1
  · rw [h i hi]
  · simp [hi]

theorem fieldOf_raise (x : Nat) (h : fieldOf x e + d < 2 ^ e.2.1) : fieldOf (x + d * 2 ^ e.1) e = fieldOf x e + d := by
  rw [fieldOf, Nat.add_mul_div_right _ _ (Nat.two_pow_pos _), Nat.add_mod, ← fieldOf, Nat.add_mod_mod, Nat.mod_eq_of_lt h]

/-- Raising a field that stays in its width changes no bit outside it. -/
theorem testBit_raise (x : Nat) (h : fieldOf x e + d < 2 ^ e.2.1) {i : Nat} (hi : i < e.1 ∨ e.1 + e.2.1 ≤ i) :
    (x + d * 2 ^ e.1).testBit i = x.testBit i := by
  rcases hi with hi | hi
  · have hlow : (x + d * 2 ^ e.1) % 2 ^ e.1 = x % 2 ^ e.1 := Nat.add_mul_mod_self_right ..
    have hbit := congrArg (fun n => Nat.testBit n i) hlow
    simp only [Nat.testBit_mod_two_pow, hi, decide_true, Bool.true_and] at hbit
    exact hbit
  · have hhigh : (x + d * 2 ^ e.1) / 2 ^ e.1 / 2 ^ e.2.1 = x / 2 ^ e.1 / 2 ^ e.2.1 := by
      have hsplit := Nat.div_add_mod (x / 2 ^ e.1) (2 ^ e.2.1)
      rw [← fieldOf] at hsplit
      rw [Nat.add_mul_div_right _ _ (Nat.two_pow_pos _), ← hsplit, Nat.add_assoc, Nat.mul_add_div (Nat.two_pow_pos _),
        Nat.mul_add_div (Nat.two_pow_pos _), Nat.div_eq_of_lt h, Nat.div_eq_of_lt ((Nat.le_add_right _ _).trans_lt h)]
    have hbit := congrArg (fun n => Nat.testBit n (i - (e.1 + e.2.1))) hhigh
    simp only [Nat.div_div_eq_div_mul, ← pow_add, Nat.testBit_div_two_pow, Nat.sub_add_cancel hi] at hbit
    exact hbit

/-- Do two fields share no bit. -/
def NoSharedBit (e f : Nat × Nat × Nat) : Prop := e.1 + e.2.1 ≤ f.1 ∨ f.1 + f.2.1 ≤ e.1

/-- Word y is the captured word w with each of some fields raised by d, if it moves and stays in its range (R148). -/
structure Raised (w : IWord) (d : Nat) (fs : List (Nat × Nat × Nat)) (y : Nat) : Prop where
  kept : ∀ e ∈ fs, Keeps w e → fieldOf y e = fieldOf w.toNat e
  moved : ∀ e ∈ fs, ¬ Keeps w e → Fits w d e → fieldOf y e = fieldOf w.toNat e + d
  rest : ∀ i, (∀ e ∈ fs, i < e.1 ∨ e.1 + e.2.1 ≤ i) → y.testBit i = w.toNat.testBit i

theorem NoSharedBit.symm (h : NoSharedBit e f) : NoSharedBit f e := Or.symm h

/-- A bit of the one field is no bit of the other. -/
theorem NoSharedBit.outside (h : NoSharedBit f e) {i : Nat} (hi : i < e.2.1) : e.1 + i < f.1 ∨ f.1 + f.2.1 ≤ e.1 + i := by
  unfold NoSharedBit at h
  omega

/-- A field apart from those raised is as captured. -/
theorem Raised.untouched (h : Raised w d fs y) (ha : ∀ f ∈ fs, NoSharedBit f e) : fieldOf y e = fieldOf w.toNat e :=
  fieldOf_congr fun _ hi => h.rest _ fun f hf => (ha f hf).outside hi

/-- The captured word itself. -/
theorem Raised.nil (w : IWord) (d : Nat) : Raised w d [] w.toNat :=
  ⟨fun _ he => absurd he List.not_mem_nil, fun _ he => absurd he List.not_mem_nil, fun _ _ => rfl⟩

/-- One more field, left as it is: it keeps its number, or has no room to move. -/
theorem Raised.skip (h : Raised w d fs y) (ha : ∀ f ∈ fs, NoSharedBit f e) (hs : Fits w d e → Keeps w e) :
    Raised w d (fs ++ [e]) y := by
  refine ⟨fun f hf hk => ?_, fun f hf hk hfit => ?_, fun i hi => h.rest i fun f hf => hi f (by simp [hf])⟩
  · rcases List.mem_append.mp hf with hf | hf
    · exact h.kept f hf hk
    · rw [List.mem_singleton.mp hf]
      exact h.untouched ha
  · rcases List.mem_append.mp hf with hf | hf
    · exact h.moved f hf hk hfit
    · rw [List.mem_singleton.mp hf] at hk hfit
      exact absurd (hs hfit) hk

/-- One more field, raised. -/
theorem Raised.raise (h : Raised w d fs y) (ha : ∀ f ∈ fs, NoSharedBit f e) (hk : ¬ Keeps w e)
    (hlt : fieldOf w.toNat e + d < 2 ^ e.2.1) : Raised w d (fs ++ [e]) (y + d * 2 ^ e.1) := by
  rw [← h.untouched ha] at hlt
  have hrest : ∀ i, (i < e.1 ∨ e.1 + e.2.1 ≤ i) → (y + d * 2 ^ e.1).testBit i = y.testBit i := fun i => testBit_raise y hlt
  have hfield : ∀ f ∈ fs, fieldOf (y + d * 2 ^ e.1) f = fieldOf y f := fun f hf =>
    fieldOf_congr fun _ hi => hrest _ ((ha f hf).symm.outside hi)
  refine ⟨fun f hf hkf => ?_, fun f hf hkf hfit => ?_, fun i hi => ?_⟩
  · rcases List.mem_append.mp hf with hf | hf
    · rw [hfield f hf, h.kept f hf hkf]
    · exact absurd (List.mem_singleton.mp hf ▸ hkf) hk
  · rcases List.mem_append.mp hf with hf | hf
    · rw [hfield f hf, h.moved f hf hkf hfit]
    · rw [List.mem_singleton.mp hf, fieldOf_raise y hlt, h.untouched ha]
  · rw [hrest i (hi e (by simp)), h.rest i fun f hf => hi f (by simp [hf])]

end Sys2Proof.Claim
end

section
/-! The model's moves of register fields, one after another (R148). -/
namespace Sys2Proof.Claim
open Machine
set_option Elab.async false
variable {w : IWord} {d y : Nat} {e : Nat × Nat × Nat} {fs gs : List (Nat × Nat × Nat)}

/-- What tval adds to the number of a field that leaves its range: a vector register is 128 higher (R148). -/
def tvalBase (e : Nat × Nat × Nat) : Nat := if e.2.1 = 5 then 128 else 0

/-- One register field of the word so far moved, and what leaves its range added to the numbers that have (R148). -/
def moveStep (d : Nat) (acc : Nat × List Nat) (e : Nat × Nat × Nat) : Nat × List Nat :=
  let r := moveField acc.1 d e.1 e.2.1 (tvalBase e) e.2.2
  (r.1, acc.2 ++ r.2.toList)

/-- A register field of R148: of a vector word, or of a scalar one. -/
def IsRegister (e : Nat × Nat × Nat) : Prop := (e.2.1 = 5 ∧ e.2.2 = 32) ∨ (e.2.1 = 7 ∧ e.2.2 = 112)

/-- A register field keeps its number, is raised, or gives the number with which it leaves its range (R148). -/
theorem moveField_cases (d : Nat) (hy : fieldOf y e = fieldOf w.toNat e) :
    (Keeps w e ∧ moveField y d e.1 e.2.1 (tvalBase e) e.2.2 = (y, none)) ∨
    (¬ Keeps w e ∧ fieldOf w.toNat e + d < e.2.2 ∧ moveField y d e.1 e.2.1 (tvalBase e) e.2.2 = (y + d * 2 ^ e.1, none)) ∨
    (¬ Fits w d e ∧ moveField y d e.1 e.2.1 (tvalBase e) e.2.2 = (y, some (tvalBase e + fieldOf w.toNat e + d))) := by
  have hmove : moveField y d e.1 e.2.1 (tvalBase e) e.2.2 =
      if e.2.1 = 7 ∧ fieldOf y e ≥ 112 then (y, none) else if fieldOf y e + d ≥ e.2.2 then (y, some (tvalBase e + fieldOf y e + d))
      else (y + d * 2 ^ e.1, none) := rfl
  rw [hmove, hy]
  by_cases hk : Keeps w e
  · exact .inl ⟨hk, if_pos hk⟩
  · have hk' : ¬ (e.2.1 = 7 ∧ fieldOf w.toNat e ≥ 112) := hk
    rw [if_neg hk']
    by_cases hlt : fieldOf w.toNat e + d < e.2.2
    · exact .inr (.inl ⟨hk, hlt, if_neg (by omega)⟩)
    · exact .inr (.inr ⟨fun h => h.elim hk hlt, if_pos (by omega)⟩)

/-- A list holds exactly the numbers of the fields that leave their range. -/
def Excess (w : IWord) (d : Nat) (fs : List (Nat × Nat × Nat)) (l : List Nat) : Prop :=
  ∀ n, n ∈ l ↔ ∃ e ∈ fs, ¬ Fits w d e ∧ n = tvalBase e + fieldOf w.toNat e + d

theorem Excess.fits {l : List Nat} (h : Excess w d fs l) (he : Fits w d e) : Excess w d (fs ++ [e]) l := fun n => by
  simp [h n, or_and_right, exists_or, he]

theorem Excess.leaves {l : List Nat} (h : Excess w d fs l) (he : ¬ Fits w d e) :
    Excess w d (fs ++ [e]) (l ++ [tvalBase e + fieldOf w.toNat e + d]) := fun n => by
  simp [h n, or_and_right, exists_or, he]

/-- One register field moved: the word and the numbers out of range stay what they are to be. -/
theorem moveStep_moves {acc : Nat × List Nat} (he : IsRegister e) (ha : ∀ f ∈ fs, NoSharedBit f e) (hy : Raised w d fs acc.1)
    (hl : Excess w d fs acc.2) :
    Raised w d (fs ++ [e]) (moveStep d acc e).1 ∧ Excess w d (fs ++ [e]) (moveStep d acc e).2 := by
  have hlimit : e.2.2 ≤ 2 ^ e.2.1 := by
    rcases he with ⟨h, h'⟩ | ⟨h, h'⟩ <;> rw [h, h'] <;> decide
  rw [moveStep]
  rcases moveField_cases d (hy.untouched ha) with ⟨hk, hm⟩ | ⟨hk, hlt, hm⟩ | ⟨hfit, hm⟩ <;> rw [hm]
  · exact ⟨hy.skip ha fun _ => hk, by simpa using hl.fits (.inl hk)⟩
  · exact ⟨hy.raise ha hk (hlt.trans_le hlimit), by simpa using hl.fits (.inr hlt)⟩
  · exact ⟨hy.skip ha fun h => absurd h hfit, hl.leaves hfit⟩

/-- So for several fields. -/
theorem foldl_moveStep {acc : Nat × List Nat} (hreg : ∀ e ∈ gs, IsRegister e) (happ : (fs ++ gs).Pairwise NoSharedBit)
    (hy : Raised w d fs acc.1) (hl : Excess w d fs acc.2) :
    Raised w d (fs ++ gs) (gs.foldl (moveStep d) acc).1 ∧ Excess w d (fs ++ gs) (gs.foldl (moveStep d) acc).2 := by
  induction gs generalizing fs acc with
  | nil => simpa using ⟨hy, hl⟩
  | cons e gs ih =>
    have ha : ∀ f ∈ fs, NoSharedBit f e := fun f hf => (List.pairwise_append.mp happ).2.2 f hf e (by simp)
    obtain ⟨hy', hl'⟩ := moveStep_moves (hreg e (by simp)) ha hy hl
    rw [List.append_cons] at happ ⊢
    exact ih (fun f hf => hreg f (by simp [hf])) happ hy' hl'

end Sys2Proof.Claim
end

section
/-! The fields that the mask enables, as the model moves them and as the statement lists them (R148, R172). -/
namespace Sys2Proof.Claim
open Machine
set_option Elab.async false
variable {w : IWord} {d mask : Nat} {e : Nat × Nat × Nat}

/-- Is the destination of a word a bit of pw that the mask enables (R172). -/
def movesBit (w : IWord) (mask : Nat) : Bool := frameCompare w.toNat && decide (mask % 2 = 1)

/-- The word with the number of that bit raised, of which six bits stay (R172). -/
def bitMoved (w : IWord) (d : Nat) : Nat :=
  w.toNat - w.toNat / 2 ^ 18 % 64 * 2 ^ 18 + (w.toNat / 2 ^ 18 % 64 + d) % 64 * 2 ^ 18

/-- The destination of a compare, where the mask enables it (R172). -/
def compareField (w : IWord) (mask : Nat) : List (Nat × Nat × Nat) := if movesBit w mask then [(18, 6, 64)] else []

/-- A register field, of which a scalar and a vector word have the lowest bits given (R148). -/
def registerField (w : IWord) (f : Nat × Nat) : Nat × Nat × Nat :=
  if 0x20 ≤ w.toNat / 2 ^ 25 % 64 then (f.2, 5, 32) else (f.1, 7, 112)

/-- The enabled fields that hold register numbers. -/
def registerFields (w : IWord) (mask : Nat) : List (Nat × Nat × Nat) :=
  ((if mask % 2 = 1 ∧ ¬ movesBit w mask then [(18, 20)] else []) ++
    (if mask / 2 % 2 = 1 then [(11, 15)] else []) ++ (if mask / 4 % 2 = 1 then [(4, 10)] else [])).map (registerField w)

/-- The field at place n of a word: its destination, its first source or its second. -/
def fieldAt (w : IWord) (n scalar vector : Nat) : Nat × Nat × Nat :=
  if 0x20 ≤ w.toNat / 2 ^ 25 % 64 then (vector, 5, 32)
  else if n = 0 ∧ frameCompare w.toNat = true then (18, 6, 64) else (scalar, 7, 112)

/-- The field at place n, where the mask enables it. -/
def maskedField (w : IWord) (mask n scalar vector : Nat) : List (Nat × Nat × Nat) :=
  if mask / 2 ^ n % 2 = 0 then [] else [fieldAt w n scalar vector]

theorem staggered_masked (w : IWord) (mask : Nat) : staggered w mask =
    maskedField w mask 0 18 20 ++ maskedField w mask 1 11 15 ++ maskedField w mask 2 4 10 := by
  have hone : ∀ n scalar vector, maskedField w mask n scalar vector =
      if mask / 2 ^ n % 2 = 0 then [] else if 0x20 ≤ w.toNat / 2 ^ 25 % 64 then [(vector, 5, 32)]
      else if n = 0 ∧ frameCompare w.toNat = true then [(18, 6, 64)] else [(scalar, 7, 112)] := fun n scalar vector => by
    simp only [maskedField, fieldAt, apply_ite (fun e => [e])]
  simp only [staggered, hone]

theorem maskedField_register {n : Nat} (hn : n ≠ 0) (scalar vector : Nat) : maskedField w mask n scalar vector =
    if mask / 2 ^ n % 2 = 1 then [registerField w (scalar, vector)] else [] := by
  simp only [maskedField, fieldAt, registerField, hn, false_and, if_false]
  rcases Nat.mod_two_eq_zero_or_one (mask / 2 ^ n) with h | h <;> simp only [h, zero_ne_one, one_ne_zero, if_true, if_false]

/-- A compare is a scalar word, and its destination is no register. -/
theorem maskedField_destination : maskedField w mask 0 18 20 = compareField w mask ++
    if mask % 2 = 1 ∧ ¬ movesBit w mask then [registerField w (18, 20)] else [] := by
  simp only [maskedField, fieldAt, registerField, compareField, movesBit, pow_zero, Nat.div_one, Bool.and_eq_true, decide_eq_true_eq]
  rcases Nat.mod_two_eq_zero_or_one mask with h | h
  · simp [h]
  · by_cases hc : frameCompare w.toNat = true
    · have hscalar : ¬ 0x20 ≤ w.toNat / 2 ^ 25 % 64 := by
        simp only [frameCompare, decide_eq_true_eq] at hc
        omega
      simp only [h, hc, hscalar, one_ne_zero, and_self, not_true, and_false, if_false, if_true, List.append_nil]
    · simp only [h, hc, one_ne_zero, and_true, if_false]
      split <;> rfl

/-- A compare's destination comes first, then the registers. -/
theorem staggered_eq (w : IWord) (mask : Nat) : staggered w mask = compareField w mask ++ registerFields w mask := by
  rw [staggered_masked, maskedField_destination, maskedField_register one_ne_zero, maskedField_register two_ne_zero]
  simp only [registerFields, List.map_append, apply_ite (List.map _), List.map_cons, List.map_nil, List.append_assoc, pow_one,
    Nat.reducePow]

/-- Staggering is a fold over the register fields, from a word in which a compare's destination has moved. -/
theorem stagger_eq (choose : List Nat → Nat) (w : IWord) (d mask : Nat) : stagger choose w d mask =
    if movesBit w mask ∧ w.toNat / 2 ^ 18 % 64 + d ≥ 64 then .error ⟨cILLEGAL, word (bitMoved w d)⟩
    else
      let out := (registerFields w mask).foldl (moveStep d) (if movesBit w mask then bitMoved w d else w.toNat, [])
      if out.2.isEmpty then .ok out.1 else .error ⟨cREGISTER, word (choose out.2)⟩ := by
  have hstep : ∀ (acc : Nat × List Nat) (f : Nat × Nat), moveStep d acc (registerField w f) =
        (let r := if decide (w.toNat / 2 ^ 25 % 64 ≥ 0x20) then moveField acc.1 d f.2 5 128 32 else moveField acc.1 d f.1 7 0 112
         (r.1, acc.2 ++ r.2.toList)) := fun acc f => by
    unfold registerField
    by_cases h : 0x20 ≤ w.toNat / 2 ^ 25 % 64
    · rw [if_pos h, if_pos (decide_eq_true h)]
      rfl
    · rw [if_neg h, if_neg (by simpa using h)]
      rfl
  simp only [registerFields, List.foldl_map, hstep]
  rfl

theorem registerFields_register : ∀ e ∈ registerFields w mask, IsRegister e := by
  intro e he
  obtain ⟨f, -, rfl⟩ := List.mem_map.mp he
  unfold registerField
  split
  exacts [.inl ⟨rfl, rfl⟩, .inr ⟨rfl, rfl⟩]

theorem maskedField_sublist (w : IWord) (mask n scalar vector : Nat) :
    (maskedField w mask n scalar vector).Sublist [fieldAt w n scalar vector] := by
  unfold maskedField
  split
  exacts [List.nil_sublist _, List.Sublist.refl _]

/-- No two of the three fields of a word share a bit. -/
theorem staggered_apart (w : IWord) (mask : Nat) : (staggered w mask).Pairwise NoSharedBit := by
  have hthree : [fieldAt w 0 18 20, fieldAt w 1 11 15, fieldAt w 2 4 10].Pairwise NoSharedBit := by
    unfold fieldAt
    split
    · simp [NoSharedBit]
    · split <;> simp [NoSharedBit]
  rw [staggered_masked]
  exact hthree.sublist (((maskedField_sublist ..).append (maskedField_sublist ..)).append (maskedField_sublist ..))

theorem mem_compareField : e ∈ compareField w mask ↔ movesBit w mask ∧ e = (18, 6, 64) := by
  unfold compareField
  split <;> simp [*]

/-- The destination of a compare fits where the low six bits do not overflow. -/
theorem fits_compare : Fits w d (18, 6, 64) ↔ w.toNat / 2 ^ 18 % 64 + d < 64 := by
  simp [Fits, Keeps, fieldOf]

end Sys2Proof.Claim
end

section
/-! The word that a thread in a frame issues next (R148, R172). -/
namespace Sys2Proof.Claim
open Machine
set_option Elab.async false
variable {w : IWord} {d mask : Nat} {e : Nat × Nat × Nat}

/-- The word before its registers move: a compare's destination has moved. -/
theorem raised_compare (hfit : ∀ e ∈ compareField w mask, Fits w d e) :
    Raised w d (compareField w mask) (if movesBit w mask then bitMoved w d else w.toNat) := by
  by_cases hc : movesBit w mask
  · have hlt := fits_compare.mp (hfit _ (mem_compareField.mpr ⟨hc, rfl⟩))
    have hmoved : bitMoved w d = w.toNat + d * 2 ^ 18 := by
      unfold bitMoved
      omega
    rw [if_pos hc, hmoved, compareField, if_pos hc]
    exact (Raised.nil w d).raise (e := (18, 6, 64)) (by simp) (fun hk => by simp [Keeps] at hk) hlt
  · rw [if_neg hc, compareField, if_neg hc]
    exact .nil w d

/-- The outcome of staggering where a compare's destination, if enabled, keeps its range. -/
theorem stagger_registers (choose : List Nat → Nat) (hfit : ∀ e ∈ compareField w mask, Fits w d e) :
    ∃ y l, Raised w d (staggered w mask) y ∧ Excess w d (staggered w mask) l ∧
      stagger choose w d mask = if l.isEmpty then .ok y else .error ⟨cREGISTER, word (choose l)⟩ := by
  have happ := staggered_apart w mask
  have hnone : Excess w d (compareField w mask) [] := fun n => by
    simp only [List.not_mem_nil, false_iff]
    rintro ⟨e, he, hn, -⟩
    exact hn (hfit e he)
  rw [staggered_eq] at happ ⊢
  obtain ⟨hy, hl⟩ := foldl_moveStep (acc := (_, [])) registerFields_register happ (raised_compare hfit) hnone
  refine ⟨_, _, hy, hl, ?_⟩
  rw [stagger_eq]
  refine if_neg fun ⟨hc, hge⟩ => ?_
  exact absurd (fits_compare.mp (hfit _ (mem_compareField.mpr ⟨hc, rfl⟩))) (by omega)

/-- A compare's destination that leaves its range makes the word an illegal encoding (R172). -/
theorem stagger_illegal (choose : List Nat → Nat) (he : e ∈ compareField w mask) (hfit : ¬ Fits w d e) :
    ∃ x, stagger choose w d mask = .error ⟨cILLEGAL, x⟩ := by
  obtain ⟨hc, rfl⟩ := mem_compareField.mp he
  rw [fits_compare] at hfit
  exact ⟨_, (stagger_eq ..).trans (if_pos ⟨hc, by omega⟩)⟩

/-- The only field of six bits is a compare's destination. -/
theorem mem_compareField_of_six (he : e ∈ staggered w mask) (hsix : e.2.1 = 6) : e ∈ compareField w mask := by
  rw [staggered_eq] at he
  refine (List.mem_append.mp he).resolve_right fun hreg => ?_
  rcases registerFields_register e hreg with ⟨h, -⟩ | ⟨h, -⟩ <;> omega

theorem nextWord_staggers {s : State} {t : Thread} (h : t.csr.repst.getLsbD 31 = true) (hf : t.frame ≠ []) : s.nextWord t =
    stagger s.pick (nth t.frame (bits t.csr.repst 18 15) 0) (bits t.csr.repst 24 19 * (bits t.csr.repst 11 8 + 1))
      (bits t.csr.repst 14 12) := if_pos ⟨h, by simpa using hf⟩

/-- The word is what the fold leaves if no field leaves its range; else the trap is of one that does. -/
theorem staggering : Staggering := by
  intro s t hin hframe
  dsimp only
  rw [nextWord_staggers hin hframe]
  generalize nth t.frame (bits t.csr.repst 18 15) 0 = w
  generalize bits t.csr.repst 24 19 * (bits t.csr.repst 11 8 + 1) = d
  generalize bits t.csr.repst 14 12 = mask
  have hcompare : ∀ e ∈ compareField w mask, e ∈ staggered w mask ∧ e.2.1 = 6 := fun e he =>
    ⟨staggered_eq w mask ▸ List.mem_append_left _ he, by rw [(mem_compareField.mp he).2]⟩
  refine ⟨fun hfits => ?_, fun hsix hleaves => ?_, fun e he hsix hfit => stagger_illegal _ (mem_compareField_of_six he hsix) hfit⟩
  · obtain ⟨y, l, hy, hl, hout⟩ := stagger_registers s.pick (fun e he => hfits e (hcompare e he).1)
    have hempty : l = [] := List.eq_nil_iff_forall_not_mem.mpr fun n hn => by
      obtain ⟨e, he, hfit, -⟩ := (hl n).mp hn
      exact hfit (hfits e he)
    refine ⟨y, by rw [hout, hempty]; rfl, fun e he => ⟨hy.kept e he, fun hk => hy.moved e he hk (hfits e he)⟩, hy.rest⟩
  · obtain ⟨y, l, hy, hl, hout⟩ := stagger_registers s.pick (fun e he => hsix e (hcompare e he).1 (hcompare e he).2)
    have hne : l ≠ [] := by
      obtain ⟨e, he, hfit⟩ := hleaves
      exact List.ne_nil_of_mem ((hl _).mpr ⟨e, he, hfit, rfl⟩)
    obtain ⟨e, he, hfit, hn⟩ := (hl _).mp (s.pick_mem hne)
    refine ⟨e, he, hfit, ?_⟩
    rw [hout, if_neg (by simpa using hne), hn, tvalBase]

/-- Settles O12: what follows an instruction in a frame, what is captured, and the word staggered. -/
theorem repeatFrames : Obligations.RepeatFrames := ⟨frameOrder, frameCapture, staggering⟩

end Sys2Proof.Claim
end

section
/-! NOP, YIELD, HALT, TEXIT and REPF, and the end of a thread (R147, R150 to R152). -/
namespace Sys2Proof.Claim
open Machine
set_option Elab.async false
variable {s s' : State} {w : BitVec 1} {t : Thread} {u : Use} {x : Word} {m tid : Nat} {p : Thread → Prop} {W : Prop}

/-- A command that ends changes no thread (R285). -/
theorem Stands.faultEnd {c xid : Nat} (h : Stands m p W s) : Stands m p W (s.faultEnd c xid) := by
  unfold State.faultEnd
  split
  exacts [.ite h.modCore h, h]

/-- A thread that leaves is EXITED with no position, and so is a system handler whose target ends with it (R151, R152, R348). -/
theorem leave_ends (ht : s.thread tid = some t) : Stands tid Ended False (s.leave tid) := by
  have hend : Stands tid Ended False ((s.count t.core 2 1).finishThread tid) :=
    finishThread_ends ((State.thread_count ..).trans ht)
  unfold State.leave
  simp only [ht]
  split
  · next target _ _ =>
    by_cases hself : target = tid
    · subst hself
      obtain ⟨⟨v, hv, -⟩, -⟩ := hend
      obtain ⟨q, hq⟩ := State.thread_settle_self hv
      exact finishThread_ends hq
    · exact (hend.settle (.of_ne hself)).finishThread hself False.elim
  · exact hend.faultEnd
  · exact hend

theorem exec_yield (hp : Plain s t {}) {p : Place} (hplace : t.place = some p) : exec (.yield w) s =
    .next ((s.modSlot p.core p.slot (fun q => if q.pol = false ∧ q.current = some p.pos then { q with yielded := true } else q)).retire
      s.cur (decide (w = 1)) none) := by
  show execYield w s = _
  rw [execYield, issue_plain hp (hp.unordered rfl rfl)]
  simp only [hplace, State.finish_done, Bool.not_eq_true]

theorem exec_halt (hp : Plain s t {}) : exec (.halt w) s = .next (s.leave s.cur) := by
  show execHalt w s = _
  rw [execHalt, issue_plain hp (hp.unordered rfl rfl), State.finish_left]

/-- A plain instruction that must wait for accesses keeps nothing in reserve: its thread holds until they are performed (R90). -/
theorem finish_stall (hp : Plain s t u) (mk : Bool) (ids : List Nat) :
    s.finish s.cur t u mk (.stall ids) = s.setThread s.cur { t with hold := ids, state := .ready, wait := none } := by
  show s.stallOn s.cur u ids = _
  rw [State.stallOn, if_pos (by simp [hp.named]), State.modThread_of_some hp.here]

/-- What TEXIT does once its source has been read (R151). -/
def texitBody (j : BitVec 1) (s : State) (tid : Nat) (t : Thread) (xs : List Word) : Act :=
  if ¬ t.allReturned then .stall t.outIds
  else if j = 0 then .left ((s.settle tid).leave tid)
  else
    match (s.settle tid).locate t.who .atomic (arg xs 0) 8 with
    | .error e => .trap e.code e.tval
    | .ok l => (s.settle tid).whenLines [] [l] (.left (((s.settle tid).addAt l allOnes t.core).leave tid))

theorem exec_texit_alone (a : BitVec 7) : exec (.texit w a 0) s = issue w {} (texitBody 0) s := rfl

theorem exec_texit_join (a : BitVec 7) : exec (.texit w a 1) s =
    issue w { srcs := [a.toNat], role := .address, rel := some 4 } (texitBody 1) s := rfl

theorem texit_leaves (hp : Plain s t {}) (a : BitVec 7) (h : t.allReturned = true) :
    exec (.texit w a 0) s = .next ((s.settle s.cur).leave s.cur) := by
  rw [exec_texit_alone, issue_plain hp (hp.unordered rfl rfl), texitBody, if_neg (by simp [h]), if_pos rfl, State.finish_left]

theorem texit_holds (hp : Plain s t {}) (a : BitVec 7) (h : t.allReturned = false) : exec (.texit w a 0) s =
    .next (s.setThread s.cur { t with hold := t.outIds, state := .ready, wait := none }) := by
  rw [exec_texit_alone, issue_plain hp (hp.unordered rfl rfl), texitBody, if_pos (by simp [h]), finish_stall hp]

theorem texit_joins {a : BitVec 7} {l : Loc} (hr : Ready s t { srcs := [a.toNat], role := .address, rel := some 4 } [x] s')
    (h : t.allReturned = true) (hl : (s'.settle s.cur).locate t.who .atomic x 8 = .ok l)
    (hheld : (s'.settle s.cur).lineHeld l.key = false) (hshared : (s'.settle s.cur).lineShared l.key = false) :
    exec (.texit w a 1) s = .next (((s'.settle s.cur).addAt l allOnes t.core).leave s.cur) := by
  have hl' : (s'.settle s.cur).locate t.who .atomic (arg [x] 0) 8 = .ok l := hl
  rw [exec_texit_join, issue_ready hr, texitBody, if_neg (by simp [h]), if_neg (by decide)]
  simp only [hl']
  rw [State.whenLines_free (by simp) (by simpa using ⟨hheld, hshared⟩), State.finish_left]

/-- The thread with a frame captured and its repeat state set (R147, R148). -/
def framed (t : Thread) (n : BitVec 6) (m : BitVec 3) (k : BitVec 4) (l : List IWord) : Thread :=
  { t with frame := l,
           csr := { t.csr with repst := BitVec.ofNat 64 (2 ^ 31 + n.toNat * 2 ^ 25 + m.toNat * 2 ^ 12 + k.toNat * 2 ^ 8) } }

/-- What REPF does (R147). -/
def repfBody (n : BitVec 6) (m : BitVec 3) (k : BitVec 4) (s : State) (tid : Nat) (t : Thread) (_ : List Word) : Act :=
  if s.frameHeld t t.pc then .stall []
  else
    match s.capture t t.pc with
    | .error e => .trap e.code e.tval
    | .ok l => .jump (t.pc + 4) (s.modThread tid (fun u => framed u n m k l))

theorem exec_repf (n : BitVec 6) (m : BitVec 3) (k : BitVec 4) : exec (.repf w n m k) s = issue w {} (repfBody n m k) s := by
  show execRepf w n m k s = _
  rfl

theorem repf_starts {n : BitVec 6} {m : BitVec 3} {k : BitVec 4} {l : List IWord} (hp : Plain s t {}) (hh : s.frameHeld t t.pc = false)
    (hl : s.capture t t.pc = .ok l) : Ends (.repf w n m k) s w (framed t n m k l) (some (t.pc + 4)) := by
  refine ends_of_exec ?_
  rw [exec_repf, issue_plain hp (hp.unordered rfl rfl), repfBody, if_neg (by simp [hh])]
  simp only [hl, State.finish_jump, State.modThread_of_some hp.here]

theorem repf_traps {n : BitVec 6} {m : BitVec 3} {k : BitVec 4} {e : TrapRec} (hp : Plain s t {}) (hh : s.frameHeld t t.pc = false)
    (he : s.capture t t.pc = .error e) :
    exec (.repf w n m k) s = .next { s.enterTrap s.cur false e t.pc with freeN := s.freeN + 1 } := by
  rw [exec_repf, issue_plain hp (hp.unordered rfl rfl), repfBody, if_neg (by simp [hh])]
  simp only [he]
  rfl

theorem nop_ends (hp : Plain s t { packet := true }) : Ends (.nop w) s w t none := by
  refine ends_of_exec ?_
  rw [exec_nop w hp, State.setThread_same hp.here]

/-- Settles O13: the five instructions, and the end of a thread, also of one that is its own handler's target. -/
theorem threadControl : Obligations.ThreadControl := by
  refine ⟨fun w s t hp => nop_ends hp, fun w s t p hp hplace => exec_yield hp hplace, fun w s t hp => exec_halt hp,
    fun w a s t hp => ⟨texit_leaves hp a, texit_holds hp a⟩,
    fun w a s s' t x l hr h hl hheld hshared => texit_joins hr h hl hheld hshared,
    fun s tid t h => ⟨(endThread_ends h).1, (leave_ends h).1⟩,
    fun w n m k s t hp hh => ⟨fun l hl => repf_starts hp hh hl, fun e he => repf_traps hp hh he⟩⟩

end Sys2Proof.Claim
end

section
/-! What the sources of an instruction leave: its turn and its thread (R90); what the end of an access leaves (R226). -/
namespace Sys2Proof.Machine
set_option Elab.async false
variable {s s' : State} {t : Thread} {u : Use} {xs : List Word} {tid f : Nat}

/-- A field read leaves the issuing thread the one whose turn it is. -/
theorem State.readField_cur : Claim.OnSome (fun e => e.2.cur = s.cur) (s.readField tid f) := by
  unfold State.readField
  split
  · rfl
  split
  · rfl
  split
  · extract_lets
    split
    · split
      exacts [trivial, rfl]
    · split
      · trivial
      extract_lets
      exact State.modThread_cur ..
    · split
      · rfl
      split
      exacts [trivial, rfl, rfl]
    · trivial
  split
  · split
    · trivial
    extract_lets
    split
    exacts [trivial, rfl]
  split
  · rfl
  split <;> rfl

theorem State.readFields_cur {fs : List Nat} : Claim.OnSome (fun e => e.2.cur = s.cur) (s.readFields tid fs) := by
  induction fs generalizing s with
  | nil => rfl
  | cons f r ih =>
    have hf := s.readField_cur (tid := tid) (f := f)
    unfold State.readFields
    cases hfield : s.readField tid f with
    | none => trivial
    | some e =>
      rw [hfield] at hf
      have hr := ih (s := e.2)
      simp only
      cases hrest : e.2.readFields tid r with
      | none => trivial
      | some q =>
        rw [hrest] at hr
        exact hr.trans hf

/-- The sources of an instruction that is ready are its source fields read in order (R90). -/
theorem State.readFields_of_sources (h : s.sources tid t u = some (xs, s')) : s.readFields tid u.srcs = some (xs, s') := by
  unfold State.sources at h
  split at h
  · cases h
  split at h
  · cases h
  next hr =>
    split at h
    · cases h
    · rw [hr, Option.some.inj h]

/-- Once the sources of an instruction have been dequeued, it is still the turn of its thread, which is still there. -/
theorem Ready.still_here (h : Ready s t u xs s') : s'.cur = s.cur ∧ ∃ v, s'.thread s.cur = some v := by
  have hread := State.readFields_of_sources h.values
  have hcur := s.readFields_cur (tid := s.cur) (fs := u.srcs)
  have hthere : Claim.Stands s.cur (fun _ => True) True s := ⟨⟨t, h.here, trivial⟩, fun _ _ _ => trivial⟩
  have hstands := hthere.readFields (tid := s.cur) (fs := u.srcs) .of_true
  rw [hread] at hcur hstands
  obtain ⟨⟨v, hv, -⟩, -⟩ := hstands
  exact ⟨hcur, v, hv⟩

/-! Copies forgotten (R226) leave memory and g registers. -/

theorem State.rdByte_pruneTrailing (s : State) (c k : Nat) : (s.pruneTrailing c).rdByte k = s.rdByte k := by
  unfold State.pruneTrailing
  split <;> rfl

theorem State.g_pruneTrailing (s : State) (c b : Nat) : ((s.pruneTrailing c).core b).g = (s.core b).g := by
  unfold State.pruneTrailing
  split
  · rfl
  · by_cases h : b = c
    · rw [h, State.core_modCore_self]
    · rw [State.core_modCore_of_ne _ _ h]

/-- With no arrival of another device pending, none ends with an access. -/
theorem State.arrivalDone_nil (h : s.arrivals = []) (id : Nat) : s.arrivalDone id = s := by
  simp only [State.arrivalDone, h, List.find?_nil]

end Sys2Proof.Machine
end

section
/-! The g registers of a core: GRD, GWR, and the write at its home (R153). -/
namespace Sys2Proof.Claim
open Machine
set_option Elab.async false
variable {s s' : State} {w : BitVec 1} {t : Thread} {x : Word} {g id : Nat} {a : Access}

theorem grd_reads {d : BitVec 7} {g : BitVec 5} (hp : Plain s t { dst := some d.toNat, acq := true })
    (ho : Unordered s t { dst := some d.toNat, acq := true }) (hids : s.meetIds s.cur (gLoc t.core g.toNat).key 1 true = []) :
    Ends (.grd w d g) s w (t.writes d.toNat (nth (s.core t.core).g g.toNat 0) false) none := by
  refine ends_of_exec ?_
  show execGrd w d g s = _
  rw [execGrd, issue_plain hp ho]
  simp only [hids, List.isEmpty_nil, if_true]
  rw [State.finish_clean rfl (hp.dst rfl) hp.here]

/-- An access issued for the thread whose turn it is adds that one access, and nothing else changes (R206). -/
theorem adds_issueAcc {v : Thread} (t : Thread) (l : Loc) (op : AccOp) (acq : Bool) (hv : s.thread s.cur = some v) :
    Adds s.cur s (s.issueAcc s.cur t.core l op acq [])
      [access s t l (s.meetIds s.cur l.key op.size op.isRead ++ s.acquireIds s.cur) acq op] v where
  rest := rfl
  accs := by simp [State.issueAcc, State.issueAfter, access]
  number := rfl
  thread := hv
  others := fun _ _ => rfl
  bytes := fun _ => rfl

theorem gwr_issues {d : BitVec 7} {g : BitVec 5} (hr : Ready s t { srcs := [d.toNat] } [x] s') :
    ∃ u v, s'.thread s.cur = some u ∧ Retires (.gwr w d g) s w v ∧ Adds s.cur s' v
      [access s' t (gLoc t.core g.toNat) (s'.meetIds s.cur (gLoc t.core g.toNat).key 1 false ++ s'.acquireIds s.cur)
        false (.gwr g.toNat x)] u := by
  obtain ⟨hcur, u, hu⟩ := hr.still_here
  refine ⟨u, s'.issueAcc s.cur t.core (gLoc t.core g.toNat) (.gwr g.toNat x) false [], hu, ?_, ?_⟩
  · show execGwr w d g s = _
    rw [execGwr, issue_ready hr, State.finish_done]
    rfl
  · rw [← hcur] at hu ⊢
    exact adds_issueAcc t _ (.gwr g.toNat x) false hu

/-- The state once a write of g register g of a core has been performed. -/
def gWritten (s : State) (a : Access) (g : Nat) (x : Word) : State :=
  (s.dropAcc a.id).modCore a.core (fun k => { k with g := modify k.g g (fun _ => x) })

theorem perform_gwr (hop : a.op = .gwr g x) : s.perform a = gWritten s a g x := by
  simp only [State.perform, State.performOp, hop, gWritten]

/-- A write of a g register at its home, whose line no directory-overflow handler serves (R182, R185). -/
theorem homeWrite_gwr (h : s.performable id = some a) (hop : a.op = .gwr g x) (harr : s.arrivals = [])
    (hheld : s.lineHeld a.loc.key = false) : Happens (.homeWrite id) s ((gWritten s a g x).pruneTrailing a.core) := by
  have hdone : (s.perform a).arrivalDone a.id = gWritten s a g x := by
    rw [perform_gwr hop, State.arrivalDone_nil (s := gWritten s a g x) harr]
  show execHomeWrite id s = _
  simp only [execHomeWrite, h, hop, hdone, State.whenFree, State.atLine, AccOp.isRead, AccOp.isPiece, AccOp.atHome,
    AccOp.merges, hheld, Bool.false_eq_true, Bool.false_and, if_false, if_true, Option.map_some]
  rfl

/-- Settles O18: GRD is an issue that offers the register, GWR one that issues an access, which its home performs. -/
theorem globalRegisters : Obligations.GlobalRegisters := by
  refine ⟨fun w d g s t => grd_reads, fun w d g s s' t x => gwr_issues, fun s id g a x h hop harr hheld =>
    ⟨_, homeWrite_gwr h hop harr hheld, ?_, fun c hc => ?_, fun k => ?_⟩⟩
  · refine (State.g_pruneTrailing ..).trans ?_
    rw [gWritten, State.core_modCore_self]
    rfl
  · refine (State.g_pruneTrailing ..).trans ?_
    rw [gWritten, State.core_modCore_of_ne _ _ hc]
    rfl
  · exact State.rdByte_pruneTrailing ..

end Sys2Proof.Claim
end

section
/-! Scalar floating point (R154 to R160): each member offers its rounded result, its flags in fcsr; a compare changes pw. -/
namespace Sys2Proof.Machine

/-- Of two entries written at one number the later stands. -/
theorem put_put_same {α : Type} (l : Tab α) (k : Nat) (x y : α) : put (put l k x) k y = put l k y := by
  induction l with
  | nil => simp [put]
  | cons e l ih =>
    by_cases h : e.1 = k
    · simp [put, h]
    · simp [put, h, ih]

theorem State.setThread_setThread (s : State) (tid : Nat) (t u : Thread) :
    (s.setThread tid t).setThread tid u = s.setThread tid u := by
  simp [State.setThread, put_put_same]

end Sys2Proof.Machine

namespace Sys2Proof.Claim
open Machine
variable {i : Instr} {s : State} {w : BitVec 1} {t : Thread} {d a b : BitVec 7} {r : Nat × Flags} {srcs : List (BitVec 7)}
  {body : State → Nat → Thread → List Word → Act}

theorem taint_floatUse : (floatUse srcs d).taint t = taints t (srcs.map BitVec.toNat) :=
  congrArg (List.any · _) (List.append_nil _)

/-- A plain instruction that offers a floating-point result has taken effect with its flags in fcsr and the result written
(R70, R154). -/
theorem ends_of_float (he : exec i s = issue w (floatUse srcs d) body s) (hp : Plain s t (floatUse srcs d))
    (hb : body s s.cur t ((floatUse srcs d).srcs.map t.reads) = floatResult s s.cur r) :
    Ends i s w (floatWrites t d r srcs) none := by
  refine ends_of_exec (he.trans ((issue_plain hp (hp.unordered rfl rfl)).trans ?_))
  rw [hb, floatResult, State.modThread_of_some hp.here, State.finish_value rfl (hp.dst rfl) (State.thread_setThread_self ..),
    State.setThread_setThread, taint_floatUse]
  rfl

theorem exec_floatBinary {op : (BitVec 1 → BitVec 7 → BitVec 7 → BitVec 7 → Instr) × (RM → Nat → Nat → Nat × Flags)}
    (h : op ∈ floatBinary) : exec (op.1 w d a b) s = Machine.floatBinary w d a b op.2 s := by
  fin_cases h <;> rfl

theorem exec_floatFused {op : (BitVec 1 → BitVec 7 → BitVec 7 → BitVec 7 → Instr) × (RM → Nat → Nat → Nat → Nat × Flags)}
    (h : op ∈ floatFused) : exec (op.1 w d a b) s = floatTernary w d a b op.2 s := by
  fin_cases h <;> rfl

theorem exec_floatUnary {op : (BitVec 1 → BitVec 7 → BitVec 7 → Instr) × (RM → Nat → Nat × Flags)} (h : op ∈ floatUnary) :
    exec (op.1 w d a) s = Machine.floatUnary w d a op.2 s := by
  fin_cases h <;> rfl

theorem exec_floatCompares {op : (BitVec 1 → BitVec 1 → BitVec 6 → BitVec 7 → BitVec 7 → Instr) × FCmp × Fmt}
    (h : op ∈ floatCompares) {p : BitVec 1} {k : BitVec 6} :
    exec (op.1 w p k a b) s = floatCompare w p k a b (fcompare op.2.1 op.2.2) s := by
  fin_cases h <;> rfl

theorem floatResults : FloatResults :=
  ⟨fun _ hop _ _ _ _ _ _ hp => ends_of_float (exec_floatBinary hop) hp rfl,
    fun _ hop _ _ _ _ _ _ hp => ends_of_float (exec_floatFused hop) hp rfl,
    fun _ hop _ _ _ _ _ hp => ends_of_float (exec_floatUnary hop) hp rfl⟩

theorem floatComparesInPw : FloatCompares := by
  intro op hop w p k a b s t hp
  simp only [← setPw_eq_pwWith]
  exact ends_of_change (f := fun u => { u.addFlags _ with pw := setPw u.pw p k.toNat _ }) (exec_floatCompares hop) hp rfl

/-- Settles O5: each member is an issue that offers its rounded result, and a compare one that changes a bit of pw. -/
theorem floatingPoint : Obligations.FloatingPoint := ⟨floatResults, floatComparesInPw⟩

end Sys2Proof.Claim
end

section
/-! The lane-wise vector instructions (R161, R163, R164, R166, R168): each is a lane loop with the function of its table. -/
namespace Sys2Proof.Machine
variable {w : BitVec 1} {d a b : BitVec 5} {m : BitVec 1} {ty : BitVec 3} {s : State}

/-- A lane keeps the low bits of what is computed for it. -/
theorem overLanes_mod (n : Nat) (c : Vec) (en : Nat → Bool) (f : Nat → Nat × Flags) :
    overLanes n c en (fun i => ((f i).1 % 2 ^ n, (f i).2)) = overLanes n c en f := by
  simp only [overLanes, packLanes, List.foldr_map, List.foldl_map, apply_ite Prod.fst, apply_ite Prod.snd,
    apply_ite (· % 2 ^ n), Nat.mod_mod]

theorem laneOp_mod (f : RM → Nat → Nat → Nat → Nat × Flags) :
    laneOp w d a b m ty (fun rm x y z => ((f rm x y z).1 % 2 ^ tyWidth ty.toNat, (f rm x y z).2)) s =
      laneOp w d a b m ty f s := by
  simp only [laneOp, overLanes_mod _ _ _ (fun i => f _ (getLane _ i _) (getLane _ i _) (getLane _ i _))]

end Sys2Proof.Machine

namespace Sys2Proof.Claim
open Machine
variable {w : BitVec 1} {d a b : BitVec 5} {m : BitVec 1} {ty : BitVec 3} {s : State}

theorem exec_vmin : exec (.vmin w d a b m ty) s =
    laneOp w d a b m ty (fun rm x y _ => byType ty (fun f _ => fmin f) (fun x y => min x y) rm x y) s := by
  simp only [min_def_lt]
  rfl

theorem exec_vmax : exec (.vmax w d a b m ty) s =
    laneOp w d a b m ty (fun rm x y _ => byType ty (fun f _ => fmax f) (fun x y => max x y) rm x y) s := by
  simp only [max_def_lt]
  rfl

theorem exec_vabs : exec (.vabs w d a m ty) s =
    Machine.laneUnary w d a m ty (fun rm x => byType ty (fun f _ x _ => fabs f x) (fun x _ => |x|) rm x 0) s := by
  simp only [Int.abs_eq_natAbs]
  rfl

/-- A shift left keeps the low bits of the lane. -/
theorem exec_vshl : exec (.vshl w d a b m ty) s =
    laneOp w d a b m ty (fun _ x y _ => (x * 2 ^ (y % tyWidth ty.toNat), 0#5)) s :=
  laneOp_mod (fun _ x y _ => (x * 2 ^ (y % tyWidth ty.toNat), 0#5))

theorem exec_laneBinary {op : (BitVec 1 → BitVec 5 → BitVec 5 → BitVec 5 → BitVec 1 → BitVec 3 → Instr) ×
    (BitVec 3 → RM → Nat → Nat → Nat → Nat × Flags)} (h : op ∈ laneBinary) :
    exec (op.1 w d a b m ty) s = laneOp w d a b m ty (op.2 ty) s := by
  simp only [laneBinary, List.mem_cons, List.not_mem_nil, or_false] at h
  obtain rfl | rfl | rfl | rfl | rfl | rfl | rfl | rfl | rfl | rfl | rfl | rfl | rfl | rfl | rfl | rfl | rfl | rfl | rfl := h
  exacts [rfl, rfl, rfl, rfl, rfl, rfl, rfl, exec_vmin, exec_vmax, rfl, rfl, rfl, rfl, exec_vshl, rfl, rfl, rfl, rfl, rfl]

theorem exec_laneUnary {op : (BitVec 1 → BitVec 5 → BitVec 5 → BitVec 1 → BitVec 3 → Instr) ×
    (BitVec 3 → RM → Nat → Nat × Flags)} (h : op ∈ laneUnary) :
    exec (op.1 w d a m ty) s = Machine.laneUnary w d a m ty (op.2 ty) s := by
  simp only [laneUnary, List.mem_cons, List.not_mem_nil, or_false] at h
  obtain rfl | rfl | rfl | rfl | rfl | rfl | rfl := h
  exacts [rfl, exec_vabs, rfl, rfl, rfl, rfl, rfl]

/-- Settles O6: each member writes what the lane loop leaves. -/
theorem vectorLaneResults : Obligations.VectorLaneResults :=
  ⟨fun _ hop _ _ _ _ _ _ _ _ hp => vectorEnds_of_overLanes (exec_laneBinary hop) hp rfl,
    fun _ hop _ _ _ _ _ _ _ hp => vectorEnds_of_overLanes (exec_laneUnary hop) hp rfl,
    fun _ _ _ _ _ _ _ hp => vectorEnds_of_overLanes rfl hp rfl⟩

end Sys2Proof.Claim
end

section
/-! Vector compares, whose lanes are the bits of pw, and the reductions in the fixed tree (R81, R167, R171). -/
namespace Sys2Proof.Machine

/-- No vector has more lanes than pw has bits (R123). -/
theorem tyLanes_le (ty : Nat) : tyLanes ty ≤ 64 := by
  unfold tyLanes tyWidth
  split <;> decide

end Sys2Proof.Machine

namespace Sys2Proof.Claim
open Machine
variable {i : Instr} {s : State} {w c m : BitVec 1} {t : Thread} {d a b : BitVec 5} {ty : BitVec 3} {vs : List (BitVec 5)}
  {regs : List Nat} {f : Thread → Vec × Flags} {k : FCmp} {fi : Int → Int → Bool}

theorem getLsbD_setPw {j n : Nat} (hj : j < 64) (hn : n < 64) (pw : Word) (x : Bool) : (setPw pw c j x).getLsbD n =
    if n = j then (if c = 1 then pw.getLsbD j && x else x) else pw.getLsbD n := by
  have hset := setPw_eq_pwWith pw c (BitVec.ofNatLT j hj) x
  rw [BitVec.toNat_ofNatLT] at hset
  rw [hset, pwWith, BitVec.getLsbD_ofFnLE, dif_pos hn]

/-- Bits replaced in turn, each once: no replacement sees another's bit. -/
theorem getLsbD_foldl_setPw {l : List Nat} (hl : l.Nodup) (hb : ∀ j ∈ l, j < 64) (x : Nat → Bool) {n : Nat} (hn : n < 64)
    (pw : Word) : (l.foldl (fun p j => setPw p c j (x j)) pw).getLsbD n =
      if n ∈ l then (if c = 1 then pw.getLsbD n && x n else x n) else pw.getLsbD n := by
  induction l generalizing pw with
  | nil => rfl
  | cons j l ih =>
    obtain ⟨hj, hl⟩ := List.nodup_cons.mp hl
    obtain ⟨hb, hbl⟩ := List.forall_mem_cons.mp hb
    rw [List.foldl_cons, ih hl hbl, getLsbD_setPw hb hn]
    by_cases h : n = j
    · subst h
      simp [hj]
    · simp [h]

/-- What a vector compare gives for lane j (R167). -/
def compareLane (k : FCmp) (fi : Int → Int → Bool) (a b : BitVec 5) (ty : BitVec 3) (t : Thread) (j : Nat) : Bool × Flags :=
  let x := getLane (tyWidth ty.toNat) j (t.vr a.toNat)
  let y := getLane (tyWidth ty.toNat) j (t.vr b.toNat)
  match tyFmt ty.toNat with
  | some f => fcompare k f x y
  | none => (fi (laneInt ty.toNat x) (laneInt ty.toNat y), 0#5)

/-- The lanes that a mask enables. -/
def lanesOn (m : BitVec 1) (ty : BitVec 3) (t : Thread) : List Nat := (List.range (tyLanes ty.toNat)).filter (enabled m t)

theorem mem_lanesOn {j : Nat} : j ∈ lanesOn m ty t ↔ j < tyLanes ty.toNat ∧ enabled m t j := by
  rw [lanesOn, List.mem_filter, List.mem_range]

theorem lanesOn_nodup : (lanesOn m ty t).Nodup := List.nodup_range.filter _

/-- A plain vector compare has taken effect with the bits of the enabled lanes replaced in turn. -/
theorem ends_of_vecCompare (he : exec i s = vecCompare w c a b m ty k fi s) (hp : Plain s t (vectorUse [a, b] [])) :
    Ends i s w { t.addFlags ((lanesOn m ty t).foldl (fun fl j => fl ||| (compareLane k fi a b ty t j).2) 0#5) with
      pw := (lanesOn m ty t).foldl (fun p j => setPw p c j (compareLane k fi a b ty t j).1) t.pw } none :=
  ends_of_change (f := fun u => { u.addFlags _ with pw := (lanesOn m ty t).foldl _ u.pw }) he hp rfl

theorem exec_vectorCompares {op : (BitVec 1 → BitVec 1 → BitVec 5 → BitVec 5 → BitVec 1 → BitVec 3 → Instr) × FCmp ×
    (Int → Int → Bool)} (h : op ∈ vectorCompares) :
    exec (op.1 w c a b m ty) s = vecCompare w c a b m ty op.2.1 op.2.2 s := by
  simp only [vectorCompares, List.mem_cons, List.not_mem_nil, or_false] at h
  obtain rfl | rfl | rfl | rfl := h <;> rfl

theorem vectorComparesInPw : VectorCompares := by
  intro op hop w c m a b ty s t hp
  refine ⟨_, _, fun j hj => ?_, ?_, ends_of_vecCompare (exec_vectorCompares hop) hp⟩
  · have hbound : ∀ j ∈ lanesOn m ty t, j < 64 := fun j hj => (mem_lanesOn.mp hj).1.trans_le (tyLanes_le _)
    rw [getLsbD_foldl_setPw lanesOn_nodup hbound _ hj, if_congr mem_lanesOn rfl rfl]
    rfl
  · exact List.foldl_filter

/-- A plain instruction that writes VD with flags has taken effect with both written (R70, R161). -/
theorem ends_of_vecWrite (he : exec i s = vecWrite w d vs regs f s) (hp : Plain s t (vectorUse (d :: vs) regs)) :
    Ends i s w ((t.setV d.toNat (f t).1).addFlags (f t).2) none :=
  ends_of_change (f := fun u => (u.setV d.toNat (f t).1).addFlags (f t).2) he hp rfl

/-- Each reduction is one with the identity, the entry and the operation of its table. -/
theorem exec_reductions {op : (BitVec 1 → BitVec 5 → BitVec 5 → BitVec 1 → BitVec 3 → Instr) ×
    (BitVec 3 → Nat × Nat × (Nat → Nat × Flags) × (RM → Nat → Nat → Nat × Flags))} (h : op ∈ reductions) :
    exec (op.1 w d a m ty) s =
      reduce w d a m ty (op.2 ty).1 (op.2 ty).2.1 (op.2 ty).2.2.1 (op.2 ty).2.2.2 s := by
  simp only [reductions, List.mem_cons, List.not_mem_nil, or_false] at h
  obtain rfl | rfl | rfl | rfl | rfl := h
  · show execVrsum w d a m ty s = _
    simp only [execVrsum]
    cases tyFmt ty.toNat <;> rfl
  · show reduceMinMax w d a m ty true s = _
    simp only [reduceMinMax]
    cases tyFmt ty.toNat with
    | some f => rfl
    | none => simp only [decide_eq_true_eq, if_true]
  · show reduceMinMax w d a m ty false s = _
    simp only [reduceMinMax]
    cases tyFmt ty.toNat with
    | some f => rfl
    | none => simp only [decide_eq_false_iff_not, ite_not, Bool.false_eq_true, if_false]
  · rfl
  · rfl

theorem vectorReductions : VectorReductions :=
  fun _ hop _ _ _ _ _ _ _ hp => ends_of_vecWrite (exec_reductions hop) hp

/-- Settles O8: a compare replaces each enabled lane's bit once; a reduction writes what the tree leaves. -/
theorem vectorComparesAndReductions : Obligations.VectorComparesAndReductions := ⟨vectorComparesInPw, vectorReductions⟩

end Sys2Proof.Claim
end

section
/-! Read-modify-writes: what they compute (R195 to R198), and the one step at the home by which an atomic is performed (R206). -/
namespace Sys2Proof.Machine
set_option Elab.async false
variable {s : State}

/-- Written bytes read back, and every other byte is as it was, where none of them is of the control page (R182). -/
theorem State.rdByte_wrBytes {k : Nat} {bs : List Byte} (hs : s.MemWf)
    (hk : ∀ j, k ≤ j → j < k + bs.length → inControl j = false) (j : Nat) :
    (s.wrBytes k bs).rdByte j = if k ≤ j ∧ j < k + bs.length then nth bs (j - k) 0 else s.rdByte j := by
  induction bs generalizing s k with
  | nil => exact (if_neg (by simp)).symm
  | cons b r ih =>
    rw [List.length_cons] at hk ⊢
    have hfirst : inControl k = false := hk k (Nat.le_refl k) (by omega)
    have hrest : ((s.wrByte k b).wrBytes (k + 1) r).rdByte j =
        if k + 1 ≤ j ∧ j < k + 1 + r.length then nth r (j - (k + 1)) 0 else (s.wrByte k b).rdByte j :=
      ih (s := s.wrByte k b) (wrByte_wf k b hs) fun i hi hlt => hk i (by omega) (by omega)
    rw [State.wrBytes, hrest]
    rcases Nat.lt_trichotomy j k with hlt | rfl | hgt
    · rw [if_neg (by omega), if_neg (by omega), State.rdByte_wrByte_of_ne s b (by omega) hfirst]
    · rw [if_neg (by omega), if_pos (by omega), State.rdByte_wrByte_self b hs hfirst, Nat.sub_self]
      rfl
    · by_cases hin : j < k + (r.length + 1)
      · obtain ⟨i, rfl⟩ : ∃ i, j = k + 1 + i := ⟨j - (k + 1), by omega⟩
        rw [if_pos (by omega), if_pos (by omega), Nat.add_sub_cancel_left, show k + 1 + i - k = i + 1 by omega]
        rfl
      · rw [if_neg (by omega), if_neg (by omega), State.rdByte_wrByte_of_ne s b (by omega) hfirst]

theorem State.fieldBytes_length (s : State) (k : Nat) (bs : List Byte) : (s.fieldBytes k bs).length = bs.length := by
  unfold State.fieldBytes
  split
  · simp
  · rfl

/-- At most the watch tables of v differ from those of s. -/
def OnlyWatches (s v : State) : Prop := v = { s with watch := v.watch }

theorem OnlyWatches.refl (s : State) : OnlyWatches s s := rfl

theorem OnlyWatches.evalWatch (s : State) (k home : Nat) : OnlyWatches s (s.evalWatch k home) := by
  unfold State.evalWatch
  extract_lets
  split <;> rfl

theorem OnlyWatches.trans {v w : State} (h : OnlyWatches s v) (k : OnlyWatches v w) : OnlyWatches s w := by
  unfold OnlyWatches at *
  rw [k, h]

theorem OnlyWatches.waiters {v : State} (h : OnlyWatches s v) : v.waiters = s.waiters := (congrArg State.waiters h :)
theorem OnlyWatches.threads {v : State} (h : OnlyWatches s v) : v.threads = s.threads := (congrArg State.threads h :)
theorem OnlyWatches.mem {v : State} (h : OnlyWatches s v) : v.mem = s.mem := (congrArg State.mem h :)
theorem OnlyWatches.ctl {v : State} (h : OnlyWatches s v) : v.ctl = s.ctl := (congrArg State.ctl h :)

/-- With no waiter registered, what follows a write changes at most the watch tables (R203, R274). -/
theorem OnlyWatches.afterWrite (h : s.waiters = []) (loc : Loc) (n at' : Nat) : OnlyWatches s (s.afterWrite loc n at') := by
  refine List.foldlRecOn (motive := OnlyWatches s) _ _ (.refl s) fun v hv k _ => ?_
  have hnone : v.evalWaiters k at' = v := by
    simp only [State.evalWaiters, hv.waiters, h, List.filter_nil, List.foldl_nil]
  rw [hnone]
  split
  exacts [hv.trans (.evalWatch ..), hv]

/-- Part of a result given to a thread that is READY: the result takes it, and nothing else happens (R32). -/
theorem State.giveResult_ready {t : Thread} {tid num id : Nat} {f : Deferred → Deferred} (h : s.thread tid = some t)
    (hr : t.state = .ready) : s.giveResult tid num id f = s.setThread tid { t with outs := t.outs.map (fun d =>
      if d.num = num then { f d with waiting := d.waiting.filter (fun i => i ≠ id) } else d) } := by
  simp [State.giveResult, h, hr]

end Sys2Proof.Machine

namespace Sys2Proof.Claim
open Machine
set_option Elab.async false
variable {s : State} {a : Access} {t : Thread} {op : Rmw} {n num id : Nat} {x c : Word}

theorem toSigned_ite_max (k a b : Nat) : toSigned k (if toSigned k a < toSigned k b then b else a) = max (toSigned k a) (toSigned k b) := by
  split <;> omega

theorem toSigned_ite_min (k a b : Nat) : toSigned k (if toSigned k b < toSigned k a then b else a) = min (toSigned k a) (toSigned k b) := by
  split <;> omega

theorem readModifyWriteValues : ReadModifyWriteValues := by
  intro w old b cmp hw _ hb hc
  have hb' : b % 2 ^ (8 * w) = b := Nat.mod_eq_of_lt hb
  have hc' : cmp % 2 ^ (8 * w) = cmp := Nat.mod_eq_of_lt hc
  have hf : (if w = 8 then F64 else F32) = if w = 4 then F32 else F64 := by
    rcases hw with rfl | rfl <;> rfl
  simp only [rmwValue, hb', hc', hf, toSigned_ite_max, toSigned_ite_min, and_self]

/-- Memory once a read-modify-write has been performed: a CAS whose comparand differs writes nothing (R196). -/
def rmwWritten (s : State) (l : Loc) (op : Rmw) (n : Nat) (x c : Word) : State :=
  if op = .cas ∧ s.rdNum l.key n ≠ c.toNat % 2 ^ (8 * n) then s
  else s.wrBytes l.key (s.fieldBytes l.key (bytesOf n (rmwValue op n (s.rdNum l.key n) x.toNat c.toNat)))

theorem rmwWritten_wf (hs : s.MemWf) (l : Loc) : (rmwWritten s l op n x c).MemWf := by
  unfold rmwWritten
  split
  · exact hs
  · exact State.wrBytes_wf _ _ hs

theorem rmwWritten_noted (s : State) (l : Loc) : Noted s (rmwWritten s l op n x c) := .ite (.refl s) (.wrBytes ..)

theorem rdByte_rmwWritten {l : Loc} (hs : s.MemWf) (hl : ∀ k, l.key ≤ k → k < l.key + n → inControl k = false) (k : Nat) :
    (rmwWritten s l op n x c).rdByte k =
      if l.key ≤ k ∧ k < l.key + n ∧ (op = .cas → s.rdNum l.key n = c.toNat % 2 ^ (8 * n))
      then nth (s.fieldBytes l.key (bytesOf n (rmwValue op n (s.rdNum l.key n) x.toNat c.toNat))) (k - l.key) 0
      else s.rdByte k := by
  have hlen (y : Nat) : (s.fieldBytes l.key (bytesOf n y)).length = n := by rw [State.fieldBytes_length, bytesOf_length]
  unfold rmwWritten
  split
  next hdiff => rw [if_neg fun h => hdiff.2 (h.2.2 hdiff.1)]
  next hsame =>
    have hcas : op = .cas → s.rdNum l.key n = c.toNat % 2 ^ (8 * n) := fun h => by simpa [h] using hsame
    rw [State.rdByte_wrBytes hs (by rw [hlen]; exact hl), hlen]
    simp only [eq_true hcas, and_true]

/-- An atomic with return performed where its word is not poisoned and has no waiter: memory takes the new value, and the
result the old one (R195, R206). -/
theorem perform_rmw (hop : a.op = .rmw op n x c (some (num, .whole))) (hp : s.poisoned a.loc.key n = none)
    (hw : s.waiters = []) : ∃ v, OnlyWatches (rmwWritten (s.dropAcc a.id) a.loc op n x c) v ∧
      s.perform a = v.giveResult a.tid num a.id (sinkValue .whole (s.rdNum a.loc.key n)) := by
  have hp' : (s.dropAcc a.id).poisoned a.loc.key n = none := hp
  have hwrites : (! (op == .cas && decide (s.rdNum a.loc.key n ≠ c.toNat % 2 ^ (8 * n)))) = true ↔
      ¬ (op = .cas ∧ s.rdNum a.loc.key n ≠ c.toNat % 2 ^ (8 * n)) := by
    simp [imp_iff_not_or]
  have hold : (s.dropAcc a.id).rdNum a.loc.key n = s.rdNum a.loc.key n := rfl
  simp only [State.perform, State.performOp, hop, hp', hold, rmwWritten]
  by_cases hcas : op = .cas ∧ s.rdNum a.loc.key n ≠ c.toNat % 2 ^ (8 * n)
  · rw [if_neg (mt hwrites.mp (not_not_intro hcas)), if_pos hcas]
    exact ⟨_, .refl _, rfl⟩
  · rw [if_pos (hwrites.mpr hcas), if_neg hcas]
    exact ⟨_, .afterWrite ((Noted.wrBytes (s.dropAcc a.id) _ _).waiters.trans hw) .., rfl⟩

/-- A read-modify-write with a result, on a line that no handler serves and that no cache shares, is performed at once (R185). -/
theorem exec_rmwReturn (h : s.performable id = some a) (hop : a.op = .rmw op n x c (some (num, .whole)))
    (hheld : s.lineHeld a.loc.key = false) (hshared : s.lineShared a.loc.key = false) :
    Happens (.deferredResultReturn id) s (s.perform a) := by
  show execDeferredResultReturn id s = _
  simp only [execDeferredResultReturn, h, hop, State.whenFree, AccOp.isRead, AccOp.atHome, AccOp.merges, Option.isSome_some,
    State.atLine_free hheld hshared, not_true, if_false, if_true, partStep]

theorem atomicsAtTheirHome : AtomicsAtTheirHome := by
  intro s id n num op x c a t h hid hop hs hheld hshared hp hw ht hr hl old new
  obtain ⟨v, hv, hperform⟩ := perform_rmw hop hp hw
  have hnoted := rmwWritten_noted (op := op) (n := n) (x := x) (c := c) (s.dropAcc a.id) a.loc
  have htv : v.thread a.tid = some t := (State.thread_congr (hv.threads.trans hnoted.threads) a.tid).trans ht
  refine ⟨_, exec_rmwReturn h hop hheld hshared, ?_, ?_, fun k => ?_⟩ <;> rw [hperform, State.giveResult_ready htv hr]
  · exact hv.mem ▸ rmwWritten_wf (s := s.dropAcc a.id) hs a.loc
  · rw [← hid]
    exact State.thread_setThread_self ..
  · exact (State.rdByte_congr hv.mem hv.ctl k).trans (rdByte_rmwWritten (s := s.dropAcc a.id) hs hl k)

/-- Settles O20: each value is the operation's own on operands in range; the step at the home is one write and one result. -/
theorem readModifyWrites : Obligations.ReadModifyWrites := ⟨readModifyWriteValues, atomicsAtTheirHome⟩

end Sys2Proof.Claim
end

section
/-! What an access does not touch before it is issued: the sources dequeued (R90), a translation noted (R361), what a wait or a
stall takes into reserve (R90). -/
namespace Sys2Proof.Machine
set_option Elab.async false
variable {s s' v : State} {t : Thread} {u : Use} {xs : List Word} {tid : Nat}

/-- At most the threads, the cores, the launches and the accounting of accesses of v differ from those of s. -/
def Dequeued (s v : State) : Prop :=
  v = { s with threads := v.threads, cores := v.cores, launches := v.launches, accs := v.accs }

theorem Dequeued.refl (s : State) : Dequeued s s := rfl

theorem Dequeued.trans {w : State} (h : Dequeued s v) (k : Dequeued v w) : Dequeued s w := by
  unfold Dequeued at *
  rw [k, h]

theorem Dequeued.modThread (s : State) (tid : Nat) (f : Thread → Thread) : Dequeued s (s.modThread tid f) := by
  unfold State.modThread
  split <;> rfl

theorem Dequeued.waiters (h : Dequeued s v) : v.waiters = s.waiters := (congrArg State.waiters h :)
theorem Dequeued.rdByte (h : Dequeued s v) (k : Nat) : v.rdByte k = s.rdByte k := (congrArg (fun q => State.rdByte q k) h :)
theorem Dequeued.leafFor (h : Dequeued s v) (c va : Nat) : v.leafFor c va = s.leafFor c va :=
  (congrArg (fun q => State.leafFor q c va) h :)

/-- A field read dequeues, and touches nothing that no queue, thread or launch holds. -/
theorem Dequeued.readField {f : Nat} : Claim.OnSome (fun e => Dequeued s e.2) (s.readField tid f) := by
  unfold State.readField
  split
  · rfl
  split
  · rfl
  split
  · extract_lets
    split
    · split
      exacts [trivial, rfl]
    · split
      · trivial
      extract_lets
      exact .trans (.trans (v := State.modCore ..) rfl (.modThread ..)) rfl
    · split
      · rfl
      split
      exacts [trivial, rfl, rfl]
    · trivial
  split
  · split
    · trivial
    extract_lets
    split
    exacts [trivial, rfl]
  split
  · rfl
  split <;> rfl

theorem Dequeued.readFields {fs : List Nat} : Claim.OnSome (fun e => Dequeued s e.2) (s.readFields tid fs) := by
  induction fs generalizing s with
  | nil => rfl
  | cons f r ih =>
    have hf := Dequeued.readField (s := s) (tid := tid) (f := f)
    unfold State.readFields
    cases hfield : s.readField tid f with
    | none => trivial
    | some e =>
      rw [hfield] at hf
      have hr := ih (s := e.2)
      simp only
      cases hrest : e.2.readFields tid r with
      | none => trivial
      | some q =>
        rw [hrest] at hr
        exact hf.trans hr

theorem Ready.dequeued (h : Ready s t u xs s') : Dequeued s s' := by
  have hread := Dequeued.readFields (s := s) (tid := s.cur) (fs := u.srcs)
  rw [State.readFields_of_sources h.values] at hread
  exact hread

/-- At most the translations that TLBs hold differ between s and v. -/
def OnlyTlbs (s v : State) : Prop := v = { s with tlbs := v.tlbs }

theorem OnlyTlbs.refl (s : State) : OnlyTlbs s s := rfl

theorem OnlyTlbs.thread (h : OnlyTlbs s v) (n : Nat) : v.thread n = s.thread n := (congrArg (fun q => State.thread q n) h :)
theorem OnlyTlbs.rdByte (h : OnlyTlbs s v) (k : Nat) : v.rdByte k = s.rdByte k := (congrArg (fun q => State.rdByte q k) h :)
theorem OnlyTlbs.isFull (h : OnlyTlbs s v) (k : Nat) : v.isFull k = s.isFull k := (congrArg (fun q => State.isFull q k) h :)
theorem OnlyTlbs.lineHeld (h : OnlyTlbs s v) (k : Nat) : v.lineHeld k = s.lineHeld k := (congrArg (fun q => State.lineHeld q k) h :)
theorem OnlyTlbs.poisoned (h : OnlyTlbs s v) (k n : Nat) : v.poisoned k n = s.poisoned k n :=
  (congrArg (fun q => State.poisoned q k n) h :)
theorem OnlyTlbs.rdWord (h : OnlyTlbs s v) (k : Nat) : v.rdWord k = s.rdWord k := (congrArg (fun q => State.rdWord q k) h :)

/-- Address a is none of global memory, or core c has a leaf that translates it. -/
def State.Leafed (s : State) (c : Nat) (a : Word) : Prop := bits a 63 56 ≠ 0 ∨ ∃ e big, s.leafFor c a.toNat = .leaf e big

theorem Dequeued.leafed {c : Nat} {a : Word} (h : Dequeued s v) (hl : v.Leafed c a) : s.Leafed c a := by
  rwa [State.Leafed, h.leafFor] at hl

/-- Where an address is translated, its translation is noted in TLBs and nothing is logged (R360, R361). -/
theorem OnlyTlbs.noteTlb {c : Nat} {a : Word} (h : s.Leafed c a) : OnlyTlbs s (s.noteTlb c a) := by
  unfold State.noteTlb
  split
  · exact .refl s
  next hglobal =>
    obtain ⟨e, big, hleaf⟩ := h.resolve_left hglobal
    simp only [hleaf]
    split <;> rfl

/-- An address that passes the checks of R188 is translated where it is one of global memory. -/
theorem State.leafed_of_locate' {w : Who} {u : For} {a : Word} {n : Nat} {l : Loc} (h : s.locate' w u a n = .ok l) :
    s.Leafed w.core a := by
  by_cases hglobal : bits a 63 56 = 0
  · refine .inr ?_
    have hplace : s.placeAt w u a n = s.globalLoc w u a := by simp [State.placeAt, regionOf, hglobal]
    cases hleaf : s.leafFor w.core a.toNat with
    | leaf e big => exact ⟨e, big, rfl⟩
    | absent => simp [State.locate', hplace, State.globalLoc, hleaf] at h
    | malformed k => simp [State.locate', hplace, State.globalLoc, hleaf] at h
  · exact .inl hglobal

theorem State.locate'_of_locate {w : Who} {u : For} {a : Word} {n : Nat} {l : Loc} (h : s.locate w u a n = .ok l) :
    s.locate' w u a n = .ok l := by
  unfold State.locate at h
  split at h
  · cases h
  · exact h

theorem State.leafed_of_locate {w : Who} {u : For} {a : Word} {n : Nat} {l : Loc} (h : s.locate w u a n = .ok l) :
    s.Leafed w.core a := State.leafed_of_locate' (State.locate'_of_locate h)

/-- At most the cores and the launches of v differ from those of s. -/
def Grips (s v : State) : Prop := v = { s with cores := v.cores, launches := v.launches }

theorem Grips.refl (s : State) : Grips s s := rfl

theorem Grips.trans {w : State} (h : Grips s v) (k : Grips v w) : Grips s w := by
  unfold Grips at *
  rw [k, h]

theorem Grips.thread (h : Grips s v) (n : Nat) : v.thread n = s.thread n := (congrArg (fun q => State.thread q n) h :)
theorem Grips.waiters (h : Grips s v) : v.waiters = s.waiters := (congrArg State.waiters h :)
theorem Grips.rdByte (h : Grips s v) (k : Nat) : v.rdByte k = s.rdByte k := (congrArg (fun q => State.rdByte q k) h :)

theorem Grips.takeSource (s : State) (tid f : Nat) : Grips s (s.takeSource tid f).2 := by
  unfold State.takeSource
  split
  · rfl
  extract_lets
  split
  · rfl
  split
  · split <;> rfl
  · split <;> rfl
  · split
    · rfl
    split
    · rfl
    · rfl
  · rfl

theorem Grips.takeRoom (s : State) (tid : Nat) (item : Option Item) (f : Nat) : Grips s (s.takeRoom tid item f).2 := by
  unfold State.takeRoom
  split
  · rfl
  extract_lets
  split
  · rfl
  split
  · rfl
  · rfl
  · split
    · rfl
    split
    · rfl
    split
    · split
      · rfl
      split <;> rfl
    · rfl
  · rfl

/-- What a wait takes into reserve, and whether step 1 of R90 is complete, is noted in the wait of its thread. -/
theorem State.takeGrip_eq (s : State) (tid : Nat) (srcs dsts : List Nat) (ready : Bool) : ∃ v g, Grips s v ∧
    s.takeGrip tid srcs dsts ready = v.modThread tid (fun t =>
      { t with wait := t.wait.map (fun w => { w with grip := w.grip ++ g, ready := ready }) }) := by
  have hfold (take : State → Nat → List Taken × State) (htake : ∀ s f, Grips s (take s f).2) (l : List Nat) (p : List Taken × State) :
      Grips p.2 (l.foldl (fun acc f => (acc.1 ++ (take acc.2 f).1, (take acc.2 f).2)) p).2 :=
    List.foldlRecOn (motive := fun q : List Taken × State => Grips p.2 q.2) _ _ (.refl _) fun q hq f _ => hq.trans (htake q.2 f)
  refine ⟨_, _, ?_, rfl⟩
  exact (hfold _ (fun s f => .takeSource s tid f) srcs ([], s)).trans (hfold _ (fun s f => .takeRoom s tid _ f) dsts _)

/-- The thread whose wait takes a reserve: its wait is the same but for the reserve. -/
theorem State.takeGrip_thread {w : Wait} (h : s.thread tid = some t) (hw : t.wait = some w) (srcs dsts : List Nat) (ready : Bool) :
    ∃ g, (s.takeGrip tid srcs dsts ready).thread tid =
      some { t with wait := some { w with grip := w.grip ++ g, ready := ready } } := by
  obtain ⟨v, g, hv, he⟩ := s.takeGrip_eq tid srcs dsts ready
  refine ⟨g, ?_⟩
  rw [he, State.modThread_of_some ((hv.thread tid).trans h), State.thread_setThread_self, hw]
  rfl

theorem State.takeGrip_waiters (s : State) (tid : Nat) (srcs dsts : List Nat) (ready : Bool) :
    (s.takeGrip tid srcs dsts ready).waiters = s.waiters := by
  obtain ⟨v, g, hv, he⟩ := s.takeGrip_eq tid srcs dsts ready
  rw [he, State.modThread_waiters, hv.waiters]

theorem State.takeGrip_rdByte (s : State) (tid : Nat) (srcs dsts : List Nat) (ready : Bool) (k : Nat) :
    (s.takeGrip tid srcs dsts ready).rdByte k = s.rdByte k := by
  obtain ⟨v, g, hv, he⟩ := s.takeGrip_eq tid srcs dsts ready
  rw [he, State.rdByte_congr (State.modThread_mem ..) (State.modThread_ctl ..), hv.rdByte]

end Sys2Proof.Machine
end

section
/-! Full/empty words, WAITGE, FENCE, MIGRATE and PREFETCH: where each goes on, waits or traps (R185, R200 to R205). -/
namespace Sys2Proof.Claim
open Machine
set_option Elab.async false
variable {s s' v : State} {t p : Thread} {u : Use} {w : BitVec 1} {d a : BitVec 7} {x y : Word} {l : Loc} {empties : Bool}

/-- An access issued for the thread whose turn it is, its translation noted, adds that one access (R206, R361). -/
theorem adds_issueAcc_noted (hv : OnlyTlbs s v) (hp : s.thread s.cur = some p) (t : Thread) (l : Loc) (op : AccOp) (acq : Bool)
    (extra : List Nat) : Adds s.cur s (v.issueAcc s.cur t.core l op acq extra)
      [access s t l (v.meetIds s.cur l.key op.size op.isRead ++ s.acquireIds s.cur ++ extra) acq op] p := by
  obtain ⟨tlbs, rfl⟩ : ∃ tlbs, v = { s with tlbs := tlbs } := ⟨v.tlbs, hv⟩
  exact ⟨rfl, rfl, rfl, hp, fun _ _ => rfl, fun _ => rfl⟩

/-- An instruction held at issue keeps what its sources give and its results need, complete (R90). -/
theorem stalls_of_exec {i : Instr} {ids : List Nat} (h : exec i s = .next (s.stallOn s.cur u ids)) (ht : s.thread s.cur = some t) :
    Stalls i s t u ids := by
  refine ⟨h, fun hn => ?_, fun hn => ?_⟩
  · rw [h, State.stallOn, if_pos (by simp [hn]), State.modThread_of_some ht]
  · obtain ⟨g, hg⟩ := State.takeGrip_thread (s := s.blockOn s.cur (.heads u.srcs u.dsts) 0 u.srcs u.dsts)
      (by rw [blockOn_eq ht]; exact State.thread_setThread_self ..) rfl u.srcs u.dsts true
    have hthread := State.thread_setThread_self ((s.blockOn s.cur (.heads u.srcs u.dsts) 0 u.srcs u.dsts).takeGrip s.cur u.srcs u.dsts
      true) s.cur { t with hold := ids, state := .ready, wait := some { blockedWait s t (.heads u.srcs u.dsts) 0 u.srcs u.dsts with
        grip := (blockedWait s t (.heads u.srcs u.dsts) 0 u.srcs u.dsts).grip ++ g, ready := true } }
    refine ⟨_, _, h, Eq.trans ?_ hthread, rfl⟩
    rw [State.stallOn, if_neg (by simp [hn]), State.modThread_of_some hg]

/-- The state once a waiter is registered, the translation of its address noted (R203, R361). -/
def withWaiter (c : Nat) (x : Word) (wt : Waiter) (q : State) : State := { q.noteTlb c x with waiters := q.waiters ++ [wt] }

/-- The waiter that an instruction registers at a home, its thread BLOCKED until the word lets it pass (R203). -/
theorem registers {c : Nat} {wt : Waiter} {mk : Bool} (ht : s.thread s.cur = some t) (hl : s.Leafed c x) :
    ∃ v q g, s.finish s.cur t u mk (.register .word x (withWaiter c x wt)) = v ∧
      v.thread s.cur = some q ∧ q.state = .blocked ∧ q.wait = some g ∧ g.what = .word ∧ v.waiters = s.waiters ++ [wt] ∧
      ∀ k, v.rdByte k = s.rdByte k := by
  have hblock := blockOn_eq ht .word x u.srcs u.dsts
  have hnote : OnlyTlbs (s.blockOn s.cur .word x u.srcs u.dsts) ((s.blockOn s.cur .word x u.srcs u.dsts).noteTlb c x) :=
    .noteTlb (by rw [hblock]; exact hl)
  obtain ⟨g, hg⟩ := State.takeGrip_thread (s := withWaiter c x wt (s.blockOn s.cur .word x u.srcs u.dsts))
    ((hnote.thread s.cur).trans (by rw [hblock]; exact State.thread_setThread_self ..)) rfl u.srcs u.dsts false
  refine ⟨_, _, _, rfl, hg, rfl, rfl, blockedWait_what .., (State.takeGrip_waiters ..).trans ?_, fun k =>
    (State.takeGrip_rdByte ..).trans ((hnote.rdByte k).trans ?_)⟩ <;> rw [hblock]
  all_goals rfl

/-! LDFE and LDFEC (R201, R203). -/

/-- What LDFE or LDFEC of thread t registers. -/
def fullWaiter (tid : Nat) (t : Thread) (l : Loc) (w : BitVec 1) (d a : BitVec 7) (empties : Bool) : Waiter :=
  ⟨tid, l, if empties then .ldfe else .ldfec, d.toNat, taints t [a.toNat], decide (w = 1)⟩

theorem exec_fullLoad : exec (if empties then .ldfe w d a else .ldfec w d a) s = fullLoad w d a empties s := by
  cases empties <;> rfl

/-- What LDFE and LDFEC do in state q, their word at l: they take it, trap, or register. -/
def fullAct (q : State) (tid : Nat) (t : Thread) (x : Word) (l : Loc) (w : BitVec 1) (d a : BitVec 7) (empties : Bool) : Act :=
  if q.isFull l.key ∧ ¬ q.lineHeld l.key then
    .value (q.wordValue tid l).1 (if empties then (q.wordValue tid l).2.setFull l.key false else (q.wordValue tid l).2)
  else
    match q.outputTrap tid d.toNat 1 with
    | some r => .trap r.code r.tval
    | none => .register .word x (withWaiter t.core x (fullWaiter tid t l w d a empties))

theorem taints_single (t : Thread) (f : Nat) : taints t [f] = t.taintOf f := by simp [taints, Thread.taintOf]

/-- An empty word, and one that its home holds back, is waited for, unless the stage output named would trap. -/
theorem fullAct_waits {tid : Nat} (hl : s.locate t.who .fullEmpty x 8 = .ok l)
    (hwait : s.isFull l.key = false ∨ s.lineHeld l.key = true) : fullAct (s.noteTlb t.core x) tid t x l w d a empties =
    match (s.noteTlb t.core x).outputTrap tid d.toNat 1 with
    | some r => .trap r.code r.tval
    | none => .register .word x (withWaiter t.core x (fullWaiter tid t l w d a empties)) := by
  have hnote : OnlyTlbs s (s.noteTlb t.core x) := .noteTlb (State.leafed_of_locate hl)
  refine if_neg fun ⟨hfull, hfree⟩ => ?_
  rw [hnote.isFull] at hfull
  rw [hnote.lineHeld] at hfree
  rcases hwait with h | h
  · rw [h] at hfull
    exact Bool.false_ne_true hfull
  · exact hfree h

/-- What LDFE and LDFEC name. -/
def fullUse (d a : BitVec 7) : Use := { srcs := [a.toNat], dst := some d.toNat, role := .address, acq := true }

section
variable (hr : Ready s t (fullUse d a) [x] s') (hl : s'.locate t.who .fullEmpty x 8 = .ok l)
  (hids : s'.meetIds s.cur l.key 8 true = [])
include hr hl hids

theorem exec_full : exec (if empties then .ldfe w d a else .ldfec w d a) s =
    .next (s.finish s.cur t (fullUse d a) (decide (w = 1)) (fullAct (s'.noteTlb t.core x) s.cur t x l w d a empties)) := by
  have harg : arg [x] 0 = x := rfl
  rw [exec_fullLoad, fullLoad]
  refine (issue_ready hr).trans ?_
  simp only [harg, hl, hids, List.isEmpty_nil, not_true, if_false, fullAct, fullWaiter, taints_single]
  rfl

theorem full_takes (hp : s'.thread s.cur = some p) (hd : d.toNat ≤ 111 ∨ 124 ≤ d.toNat) (hfull : s'.isFull l.key = true)
    (hfree : s'.lineHeld l.key = false) (hclean : s'.poisoned l.key 8 = none) :
    Retires (if empties then .ldfe w d a else .ldfec w d a) s w
      ((if empties then (s'.noteTlb t.core x).setFull l.key false else s'.noteTlb t.core x).setThread s.cur
        (p.writes d.toNat (s'.rdWord l.key) (taints t [a.toNat]))) := by
  have hnote : OnlyTlbs s' (s'.noteTlb t.core x) := .noteTlb (State.leafed_of_locate hl)
  have hvalue : (s'.noteTlb t.core x).wordValue s.cur l = (s'.rdWord l.key, s'.noteTlb t.core x) := by
    simp only [State.wordValue, hnote.poisoned, hclean, hnote.rdWord]
  have hthere : (if empties then (s'.noteTlb t.core x).setFull l.key false else s'.noteTlb t.core x).thread s.cur = some p := by
    rw [← hp, ← hnote.thread s.cur]
    split <;> rfl
  rw [Retires, exec_full hr hl hids, fullAct]
  simp only [hnote.isFull, hnote.lineHeld, hfull, hfree, hvalue, Bool.false_eq_true, not_false_iff, and_self, if_true]
  rw [State.finish_value rfl hd hthere]
  rfl

section
variable (hwait : s'.isFull l.key = false ∨ s'.lineHeld l.key = true)
include hwait

theorem full_traps {r : TrapRec} (hout : (s'.noteTlb t.core x).outputTrap s.cur d.toNat 1 = some r) :
    Traps (if empties then .ldfe w d a else .ldfec w d a) s t r := by
  rw [Traps, exec_full hr hl hids, fullAct_waits hl hwait, hout]
  rfl

theorem full_registers (hout : (s'.noteTlb t.core x).outputTrap s.cur d.toNat 1 = none) :
    ∃ v q g, exec (if empties then .ldfe w d a else .ldfec w d a) s = .next v ∧ v.thread s.cur = some q ∧ q.state = .blocked ∧
      q.wait = some g ∧ g.what = .word ∧ v.waiters = s'.waiters ++ [fullWaiter s.cur t l w d a empties] ∧
      ∀ k, v.rdByte k = s'.rdByte k := by
  obtain ⟨v, q, g, hv, hq, hstate, hg, hwhat, hwaiters, hbytes⟩ := registers (c := t.core) (u := fullUse d a) (mk := decide (w = 1))
    (wt := fullWaiter s.cur t l w d a empties) hr.here (hr.dequeued.leafed (State.leafed_of_locate hl))
  refine ⟨v, q, g, ?_, hq, hstate, hg, hwhat, hr.dequeued.waiters ▸ hwaiters, fun k => (hbytes k).trans (hr.dequeued.rdByte k).symm⟩
  rw [exec_full hr hl hids, fullAct_waits hl hwait, hout, ← hv]

end
end

/-! STFE and WAITGE (R201, R202). -/

theorem stfe_issues (hr : Ready s t { srcs := [d.toNat, a.toNat], role := .address } [x, y] s')
    (hl : s'.locate t.who .stfe y 8 = .ok l) : ∃ u v, s'.thread s.cur = some u ∧ Retires (.stfe w d a) s w v ∧
      Adds s.cur s' v [access s' t l ((s'.noteTlb t.core y).meetIds s.cur l.key 8 false ++ s'.acquireIds s.cur ++
        s'.releaseIds s.cur 4) false (.stfe x)] u := by
  obtain ⟨hcur, u, hu⟩ := hr.still_here
  refine ⟨u, (s'.noteTlb t.core y).issueAcc s.cur t.core l (.stfe x) false (s'.releaseIds s.cur 4), hu, ?_, ?_⟩
  · show execStfe w d a s = _
    rw [execStfe, issue_ready hr]
    have harg : arg [x, y] 1 = y := rfl
    simp only [harg, hl]
    rfl
  · rw [← hcur] at hu ⊢
    exact adds_issueAcc_noted (.noteTlb (State.leafed_of_locate hl)) hu t l (.stfe x) false _

/-- What WAITGE registers. -/
def geWaiter (tid : Nat) (l : Loc) (w : BitVec 1) (x : Word) : Waiter := ⟨tid, l, .waitge x, 124, false, decide (w = 1)⟩

/-- What WAITGE names. -/
def geUse (d a : BitVec 7) : Use := { srcs := [d.toNat, a.toNat], role := .address, acq := true }

section
variable (hr : Ready s t (geUse d a) [x, y] s') (hl : s'.locate t.who .waitge y 8 = .ok l)
  (hids : s'.meetIds s.cur l.key 8 true = []) (hclean : s'.poisoned l.key 8 = none)
include hr hl hids hclean

/-- WAITGE of a word that is not poisoned passes, or registers (R202). -/
theorem exec_waitge : exec (.waitge w d a) s = .next (s.finish s.cur t (geUse d a) (decide (w = 1))
    (if x.toNat ≤ (s'.rdWord l.key).toNat ∧ s'.lineHeld l.key = false then .done (s'.noteTlb t.core y)
     else .register .word y (withWaiter t.core y (geWaiter s.cur l w x)))) := by
  have hnote : OnlyTlbs s' (s'.noteTlb t.core y) := .noteTlb (State.leafed_of_locate hl)
  have harg0 : arg [x, y] 0 = x := rfl
  have harg1 : arg [x, y] 1 = y := rfl
  show execWaitge w d a s = _
  rw [execWaitge]
  refine (issue_ready hr).trans ?_
  simp only [harg0, harg1, hl, hids, List.isEmpty_nil, not_true, if_false, hnote.lineHeld, hnote.poisoned, hclean, hnote.rdWord]
  cases s'.lineHeld l.key with
  | true =>
    simp only [Bool.true_eq_false, and_false, if_false, if_true]
    rfl
  | false =>
    simp only [Bool.false_eq_true, if_false, and_true]
    rfl

theorem waitge_passes (hge : x.toNat ≤ (s'.rdWord l.key).toNat) (hfree : s'.lineHeld l.key = false) :
    Retires (.waitge w d a) s w (s'.noteTlb t.core y) := by
  rw [Retires, exec_waitge hr hl hids hclean, if_pos ⟨hge, hfree⟩, State.finish_done]

theorem waitge_registers (hwait : (s'.rdWord l.key).toNat < x.toNat ∨ s'.lineHeld l.key = true) :
    ∃ v q g, exec (.waitge w d a) s = .next v ∧ v.thread s.cur = some q ∧ q.state = .blocked ∧ q.wait = some g ∧ g.what = .word ∧
      v.waiters = s'.waiters ++ [geWaiter s.cur l w x] ∧ ∀ k, v.rdByte k = s'.rdByte k := by
  obtain ⟨v, q, g, hv, hq, hstate, hg, hwhat, hwaiters, hbytes⟩ := registers (c := t.core) (u := geUse d a) (mk := decide (w = 1))
    (wt := geWaiter s.cur l w x) hr.here (hr.dequeued.leafed (State.leafed_of_locate hl))
  refine ⟨v, q, g, ?_, hq, hstate, hg, hwhat, hr.dequeued.waiters ▸ hwaiters, fun k => (hbytes k).trans (hr.dequeued.rdByte k).symm⟩
  have hnot : ¬ (x.toNat ≤ (s'.rdWord l.key).toNat ∧ s'.lineHeld l.key = false) := by
    rintro ⟨hge, hfree⟩
    rcases hwait with h | h
    · omega
    · exact Bool.false_ne_true (hfree.symm.trans h)
  rw [exec_waitge hr hl hids hclean, if_neg hnot, ← hv]

end

theorem fullEmptyAndWaits : FullEmptyAndWaits :=
  ⟨fun _ _ _ _ _ _ _ _ _ _ hr hp hl hids => ⟨full_takes hr hl hids hp, fun _ hwait hout => full_traps hr hl hids hwait hout,
      fun hwait hout => full_registers hr hl hids hwait hout⟩,
    fun _ _ _ _ _ _ _ _ _ hr hl => stfe_issues hr hl,
    fun _ _ _ _ _ _ _ _ _ hr hl hids hclean =>
      ⟨waitge_passes hr hl hids hclean, waitge_registers hr hl hids hclean⟩⟩

/-! FENCE, MIGRATE and PREFETCH (R200, R204, R205). -/

/-- FENCE waits for the writes of its thread in its scope, and marks the reads as ones that later accesses follow. -/
theorem fences (hp : Plain s t {}) (c : BitVec 3) :
    let held := (s.accs.filter (fun a => a.tid = s.cur && a.op.isWrite && decide (a.level ≤ c.toNat))).map (fun a => a.id)
    (held ≠ [] → Stalls (.fence w c) s t {} held) ∧
    (held = [] → Retires (.fence w c) s w
      { s with accs := s.accs.map (fun a => if a.tid = s.cur && a.op.isRead then { a with acq := true } else a) }) := by
  intro held
  have hexec : exec (.fence w c) s = .next (s.finish s.cur t {} (decide (w = 1)) (if ¬ held.isEmpty then .stall held else
      .done { s with accs := s.accs.map (fun a => if a.tid = s.cur && a.op.isRead then { a with acq := true } else a) })) := by
    show execFence w c s = _
    rw [execFence]
    exact issue_plain hp (hp.unordered rfl rfl)
  refine ⟨fun hheld => stalls_of_exec ?_ hp.here, fun hnone => ?_⟩
  · rw [hexec, if_pos (by simpa using hheld)]
    rfl
  · rw [Retires, hexec, if_neg (by simp [hnone])]
    rfl

theorem migrate_traps (hr : Ready s t { srcs := [a.toNat], role := .address } [x] s') (hk : t.kind ≠ .mt) :
    Traps (.migrate w a) s t ⟨cMIGRATE, x⟩ := by
  show execMigrate w a s = _
  rw [execMigrate, issue_ready hr]
  simp only [hk, ne_eq, not_false_iff, if_true]
  rfl

theorem migrates (hr : Ready s t { srcs := [a.toNat], role := .address } [x] s') (hk : t.kind = .mt)
    (hl : s'.locate t.who .migrate x 1 = .ok l) (hret : t.allReturned = true) (hwr : s'.writeIds s.cur = []) :
    let v := (s'.settle s.cur).noteTlb t.core x
    (l.home % 4096 = t.core → Retires (.migrate w a) s w v) ∧
    (l.home % 4096 ≠ t.core → exec (.migrate w a) s = .next ((v.retire s.cur false none).sendTo s.cur (l.home % 4096))) := by
  intro v
  have hexec : exec (.migrate w a) s = .next (s.finish s.cur t { srcs := [a.toNat], role := .address } (decide (w = 1))
      (if l.home % 4096 = t.core then .done v else .left ((v.retire s.cur false none).sendTo s.cur (l.home % 4096)))) := by
    have harg : arg [x] 0 = x := rfl
    show execMigrate w a s = _
    rw [execMigrate, issue_ready hr]
    simp only [harg, hk, hl, hret, hwr, ne_eq, not_true, if_false, List.isEmpty_nil]
    rfl
  refine ⟨fun hhome => ?_, fun haway => ?_⟩
  · rw [Retires, hexec, if_pos hhome, State.finish_done]
  · rw [hexec, if_neg haway, State.finish_left]

theorem prefetches (hr : Ready s t { srcs := [a.toNat], role := .address } [x] s') (p : BitVec 1) :
    Retires (.prefetch w a p) s w (match s'.locate' t.who .load x 1 with
      | .ok l => if l.kind ≤ 1 ∨ l.kind = 4 ∨ l.kind = 5 then s'.noteTlb t.core x else s'
      | .error _ => s') := by
  have harg : arg [x] 0 = x := rfl
  show execPrefetch w a p s = _
  rw [execPrefetch, issue_ready hr, harg]
  cases s'.locate' t.who .load x 1 <;> rfl

theorem fenceMigratePrefetch : FenceMigratePrefetch :=
  ⟨fun _ c _ _ hp => fences hp c,
    fun _ _ _ _ _ _ hr => ⟨migrate_traps hr, fun _ hk hl hret hwr => migrates hr hk hl hret hwr⟩,
    fun _ p _ _ _ _ _ hr => prefetches hr p⟩

/-- Settles O17: each instruction goes on, waits or traps by what it finds at the word, the fence or the home. -/
theorem waitsAndFences : Obligations.WaitsAndFences := ⟨fullEmptyAndWaits, fenceMigratePrefetch⟩

end Sys2Proof.Claim
end

section
/-! What an instruction leaves that waits, or whose result meets its destination (R30, R90). -/
namespace Sys2Proof.Machine
set_option Elab.async false
variable {s v : State}

theorem Dequeued.iword (h : Dequeued s v) : v.iword = s.iword := (congrArg State.iword h :)
theorem Grips.freeN (h : Grips s v) : v.freeN = s.freeN := (congrArg State.freeN h :)

theorem State.takeGrip_freeN (s : State) (tid : Nat) (srcs dsts : List Nat) (ready : Bool) :
    (s.takeGrip tid srcs dsts ready).freeN = s.freeN := by
  obtain ⟨v, g, hv, he⟩ := s.takeGrip_eq tid srcs dsts ready
  rw [he, State.modThread_freeN, hv.freeN]

end Sys2Proof.Machine

namespace Sys2Proof.Claim
open Machine
set_option Elab.async false
variable {s v : State} {i : Instr} {t : Thread} {u : Use} {w : BitVec 1} {mk : Bool}

/-- An instruction that waits has dequeued nothing, and what it needs stands in reserve (R30, R90). -/
theorem waits_of_exec {what : WaitOn} {tval : Word} (h : exec i s = .next (s.finish s.cur t u mk (.wait what tval))) :
    Waits i s u.srcs u.dsts what tval := by
  have hfree : ((s.blockOn s.cur what tval u.srcs u.dsts).takeGrip s.cur u.srcs u.dsts false).freeN = s.freeN :=
    (State.takeGrip_freeN ..).trans (State.modThread_freeN ..)
  rw [Waits, h, State.finish]
  simp only [id, hfree]

/-- The thread of an instruction that registers its wait: what registering it leaves, with a reserve (R90, R203). -/
theorem finish_register_thread {what : WaitOn} {tval : Word} {f : State → State} {p : Thread} {q : Wait}
    (h : (f (s.blockOn s.cur what tval u.srcs u.dsts)).thread s.cur = some p) (hq : p.wait = some q) :
    ∃ g, (s.finish s.cur t u mk (.register what tval f)).thread s.cur =
      some { p with wait := some { q with grip := q.grip ++ g, ready := false } } := State.takeGrip_thread h hq ..

/-- An instruction that gives one untainted value through its destination (R90, R129). -/
theorem gives_of_exec {d : BitVec 7} {x : Word} (hd : u.dst = some d.toNat)
    (h : exec i s = .next (s.finish s.cur t u (decide (w = 1)) (.clean x v))) : Gives i s w d x v := fun hopens => by
  rw [Retires, h, finish_clean_opens hd hopens]

end Sys2Proof.Claim
end

section
/-! The barrier instructions and the phase of a barrier object (R248 to R252). -/
namespace Sys2Proof.Claim
open Machine
set_option Elab.async false
variable {s s' : State} {t : Thread} {u : Use} {w : BitVec 1} {a d : BitVec 7} {x : Word} {tid n : Nat}

/-- The object of an operand may be used just where R252 lets the thread use it. -/
theorem barrierAllowed_iff : s.barrierAllowed t x = true ↔ MayUse s t (bits x 11 0) := by
  unfold State.barrierAllowed MayUse
  cases s.launchOf t.lnum <;> simp [and_comm, and_left_comm]

/-- A barrier instruction on an object that the thread may use goes on. -/
theorem barrierOp_allowed {k : State → Nat → Thread → Word → Act} (hr : Ready s t u [x] s') (hm : MayUse s' t (bits x 11 0)) :
    barrierOp w u k s = .next (s.finish s.cur t u (decide (w = 1)) (k s' s.cur t x)) := by
  rw [barrierOp, issue_ready hr]
  exact congrArg (fun act => Host.Outcome.next (s.finish s.cur t u (decide (w = 1)) act)) (if_pos (barrierAllowed_iff.mpr hm))

/-- On any other object it traps (R252). -/
theorem barrierOp_refused {k : State → Nat → Thread → Word → Act} (hr : Ready s t u [x] s') (hm : ¬ MayUse s' t (bits x 11 0)) :
    barrierOp w u k s = .next { s.enterTrap s.cur false ⟨cUNAVAILABLE, x⟩ t.pc with freeN := s.freeN + 1 } := by
  rw [barrierOp, issue_ready hr]
  exact congrArg (fun act => Host.Outcome.next (s.finish s.cur t u (decide (w = 1)) act))
    (if_neg (mt barrierAllowed_iff.mp hm))

/-- What BARJ, BARL and BARA name. -/
def barrierUse (a : BitVec 7) : Use := { srcs := [a.toNat] }

theorem exec_barj (s : State) :
    exec (.barj w a) s = barrierOp w (barrierUse a) (fun s tid _ x => .done (s.joinBarrier tid x)) s := rfl

theorem exec_barl (s : State) :
    exec (.barl w a) s = barrierOp w (barrierUse a) (fun s tid _ x => .done (s.leaveBarrier tid (bits x 11 0))) s := rfl

/-- The accesses that an arrival of thread tid at object n waits for (R250). -/
def arrivalIds (s : State) (tid n : Nat) : List Nat :=
  s.stillPending (s.releaseIds tid (s.barrier n).scope ++ s.acquireIds tid)

/-- The state once thread tid has arrived at object n (R248, R250). -/
def arrived (s : State) (tid n : Nat) : State :=
  (s.modThread tid (fun t => { t with arrivals := Machine.put t.arrivals n (s.barrier n).phase.toNat })).modBarrier n
    (fun b => ({ b with arrived := b.arrived ++ [tid] } : Barrier).check)

/-- What BARA does on an object that the thread may use (R250). -/
def baraAct (s : State) (tid : Nat) (t : Thread) (x : Word) : Act :=
  let n := bits x 11 0
  if look t.arrivals n = some (s.barrier n).phase.toNat then .trap cUNAVAILABLE x
  else if ¬ (arrivalIds (s.joinBarrier tid x) tid n).isEmpty then
    .stallAfter (arrivalIds (s.joinBarrier tid x) tid n) (fun s => s.joinBarrier tid x)
  else .done (arrived (s.joinBarrier tid x) tid n)

theorem exec_bara (s : State) : exec (.bara w a) s = barrierOp w (barrierUse a) baraAct s := rfl

theorem barriers_trap (hr : Ready s t (barrierUse a) [x] s') (hm : ¬ MayUse s' t (bits x 11 0)) :
    Traps (.barj w a) s t ⟨cUNAVAILABLE, x⟩ ∧ Traps (.barl w a) s t ⟨cUNAVAILABLE, x⟩ ∧ Traps (.bara w a) s t ⟨cUNAVAILABLE, x⟩ :=
  ⟨(exec_barj s).trans (barrierOp_refused hr hm), (exec_barl s).trans (barrierOp_refused hr hm),
    (exec_bara s).trans (barrierOp_refused hr hm)⟩

section
variable (hr : Ready s t (barrierUse a) [x] s') (hm : MayUse s' t (bits x 11 0))
include hr hm

theorem barj_joins : Retires (.barj w a) s w (s'.joinBarrier s.cur x) := (exec_barj s).trans (barrierOp_allowed hr hm)

theorem barl_leaves : Retires (.barl w a) s w (s'.leaveBarrier s.cur (bits x 11 0)) :=
  (exec_barl s).trans (barrierOp_allowed hr hm)

theorem bara_traps (hin : look t.arrivals (bits x 11 0) = some (s'.barrier (bits x 11 0)).phase.toNat) :
    Traps (.bara w a) s t ⟨cUNAVAILABLE, x⟩ := by
  rw [Traps, exec_bara, barrierOp_allowed hr hm, baraAct, if_pos hin]
  rfl

section
variable (hnew : look t.arrivals (bits x 11 0) ≠ some (s'.barrier (bits x 11 0)).phase.toNat)
include hnew

theorem bara_arrives (hids : arrivalIds (s'.joinBarrier s.cur x) s.cur (bits x 11 0) = []) :
    Retires (.bara w a) s w (arrived (s'.joinBarrier s.cur x) s.cur (bits x 11 0)) := by
  rw [Retires, exec_bara, barrierOp_allowed hr hm, baraAct, if_neg hnew, if_neg (by simp [hids]), State.finish_done]

theorem bara_stalls (hids : arrivalIds (s'.joinBarrier s.cur x) s.cur (bits x 11 0) ≠ []) :
    exec (.bara w a) s = .next ((s.joinBarrier s.cur x).stallOn s.cur (barrierUse a)
      (arrivalIds (s'.joinBarrier s.cur x) s.cur (bits x 11 0))) := by
  rw [exec_bara, barrierOp_allowed hr hm, baraAct, if_neg hnew, if_pos (by simpa using hids)]
  rfl

end
end

/-- What BARW does: it waits while the phase of the last arrival stands (R250). -/
theorem exec_barw (hr : Ready s t { srcs := [a.toNat], acq := true } [x] s') (hm : MayUse s' t (bits x 11 0)) :
    exec (.barw w a) s = .next (s.finish s.cur t { srcs := [a.toNat], acq := true } (decide (w = 1))
      (if look t.arrivals (bits x 11 0) = some (s'.barrier (bits x 11 0)).phase.toNat
       then .wait (.barrier (bits x 11 0) (s'.barrier (bits x 11 0)).phase.toNat) x else .done s')) := by
  show execBarw w a s = _
  rw [execBarw, barrierOp_allowed hr hm]
  cases harr : look t.arrivals (bits x 11 0) with
  | none =>
    simp only [harr]
    rw [if_neg (Option.some_ne_none _).symm]
  | some p =>
    simp only [harr, Option.some.injEq]
    split
    · next hp => rw [hp]
    · rfl

theorem barm_tells (hr : Ready s t { srcs := [a.toNat], dst := some d.toNat } [x] s') (hm : MayUse s' t (bits x 11 0)) :
    let b := s'.barrier (bits x 11 0)
    Gives (.barm w d a) s w d (word ((if s.cur ∈ b.arrived then 2 ^ 54 else 0) +
      (if s.cur ∈ b.parts then 2 ^ 53 else 0) + b.parts.length % 2 ^ 21 * 2 ^ 32 + b.phase.toNat)) s' :=
  gives_of_exec (u := { srcs := [a.toNat], dst := some d.toNat }) (t := t) rfl (by
    show execBarm w d a s = _
    rw [execBarm, barrierOp_allowed hr hm])

/-! What an object is after a change of it. -/

theorem barrier_modBarrier (s : State) (n : Nat) (f : Barrier → Barrier) : (s.modBarrier n f).barrier n = f (s.barrier n) := by
  simp [State.modBarrier, State.barrier]

theorem barrier_modThread (s : State) (tid n : Nat) (f : Thread → Thread) : (s.modThread tid f).barrier n = s.barrier n := by
  rw [State.barrier, State.modThread_barriers, State.barrier]

theorem barrier_joinBarrier (s : State) (tid : Nat) (x : Word) :
    (s.joinBarrier tid x).barrier (bits x 11 0) = joined (s.barrier (bits x 11 0)) tid (bits x 14 12) := by
  by_cases hin : tid ∈ (s.barrier (bits x 11 0)).parts
  · rw [State.joinBarrier, if_pos hin, joined, if_pos hin]
  · rw [State.joinBarrier, if_neg hin, joined, if_neg hin, barrier_modThread, barrier_modBarrier]

theorem barrier_leaveBarrier (s : State) (tid n : Nat) : (s.leaveBarrier tid n).barrier n =
    if tid ∈ (s.barrier n).parts then
      ({ s.barrier n with parts := (s.barrier n).parts.filter (fun p => p ≠ tid) } : Barrier).check else s.barrier n := by
  rw [State.leaveBarrier, barrier_modThread, barrier_modBarrier]

theorem barrierInstructions : BarrierInstructions := by
  refine ⟨fun w d a s s' t x => ⟨fun hr => ⟨barriers_trap hr, fun hm => ?_⟩, fun hr hm => ⟨fun hin => ?_, fun hnew => ?_⟩, barm_tells⟩,
    fun s tid x t _ => ⟨barrier_joinBarrier s tid x, barrier_leaveBarrier s tid _⟩⟩
  · exact ⟨barj_joins hr hm, barl_leaves hr hm, bara_traps hr hm, bara_arrives hr hm, bara_stalls hr hm⟩
  · refine waits_of_exec (u := { srcs := [a.toNat], acq := true }) (t := t) (mk := decide (w = 1)) ?_
    rw [exec_barw hr hm, if_pos hin]
  · rw [Retires, exec_barw hr hm, if_neg hnew, State.finish_done]

/-- The phase advances just where there is an arrival and every participant has arrived (R248). -/
theorem barrierPhase : BarrierPhase := by
  refine fun b => ⟨fun harr hall => ?_, fun hwait => if_neg fun ⟨harr, hall⟩ => ?_⟩
  · have hcheck : b.check = { b with phase := b.phase + 1, arrived := [] } := if_pos ⟨by simpa using harr, by simpa using hall⟩
    rw [hcheck]
    exact ⟨rfl, rfl, rfl⟩
  · rcases hwait with hnone | ⟨p, hp, hmissing⟩
    · exact harr (by simp [hnone])
    · exact hmissing (by simpa using List.all_eq_true.mp hall p hp)

/-- Settles O26: each instruction by what it finds of the object, and the check that ends a phase. -/
theorem barriers : Obligations.Barriers := ⟨barrierInstructions, barrierPhase⟩

end Sys2Proof.Claim
end

section
/-! Changes of one element of a list and of one core, put together. -/
namespace Sys2Proof.Machine
set_option Elab.async false

theorem modify_congr {α : Type} {l : List α} {i : Nat} {f g : α → α} {d : α} (h : f (nth l i d) = g (nth l i d)) :
    modify l i f = modify l i g := by
  by_cases hi : i < l.length
  · have hnth : nth l i d = l[i] := by simp [nth, hi]
    rw [hnth] at h
    rw [modify_eq_list_modify, modify_eq_list_modify, List.modify_eq_set_getElem? , List.modify_eq_set_getElem?]
    simp [hi, h]
  · simp only [modify_eq_list_modify]
    rw [List.modify_eq_self (by omega), List.modify_eq_self (by omega)]

theorem modify_modify {α : Type} (l : List α) (i : Nat) (f g : α → α) : modify (modify l i f) i g = modify l i (fun a => g (f a)) := by
  simp only [modify_eq_list_modify, List.modify_modify_eq]
  rfl

/-- A channel, or an inbox, changed by functions that agree on what stands there. -/
theorem State.modCore_chan_congr {s : State} {c n : Nat} {f g : Chan → Chan}
    (h : f (nth (s.core c).chans n {}) = g (nth (s.core c).chans n {})) :
    s.modCore c (fun k => { k with chans := modify k.chans n f }) = s.modCore c (fun k => { k with chans := modify k.chans n g }) := by
  simp only [State.modCore, modify_congr h]

theorem State.modCore_inbox_congr {s : State} {c n : Nat} {f g : Inbox → Inbox}
    (h : f (nth (s.core c).inboxes n {}) = g (nth (s.core c).inboxes n {})) :
    s.modCore c (fun k => { k with inboxes := modify k.inboxes n f }) =
      s.modCore c (fun k => { k with inboxes := modify k.inboxes n g }) := by
  simp only [State.modCore, modify_congr h]

theorem State.modCore_modCore (s : State) (c : Nat) (f g : Core → Core) :
    (s.modCore c f).modCore c g = s.modCore c (fun k => g (f k)) := by
  simp [State.modCore, State.setCore, put_put_same, State.core]

theorem State.modCore_setThread (s : State) (tid : Nat) (t : Thread) (c : Nat) (f : Core → Core) :
    (s.setThread tid t).modCore c f = (s.modCore c f).setThread tid t := rfl

/-- One need is met out of what there is. -/
theorem State.available_singleton (s : State) (n : Need) : s.available [n] = decide (n.count ≤ s.supply n) := by
  simp [State.available, Need.same, total]

end Sys2Proof.Machine
end

section
/-! Wide channels (R241). -/
namespace Sys2Proof.Claim
open Machine
set_option Elab.async false
variable {s : State} {t : Thread} {w : BitVec 1} {v : BitVec 5} {q : BitVec 3}

/-- The entries of a channel replaced by what a function makes of those that stand there. -/
theorem withEntries_eq (s : State) (c n : Nat) (f : List Vec → List Vec) :
    s.modCore c (fun k => { k with chans := modify k.chans n (fun h => { h with entries := f h.entries }) }) =
      withEntries s c n (f (entries s c n)) :=
  State.modCore_chan_congr rfl

/-- An entry is there for VQRD just where the channel has one. -/
theorem available_entry (s : State) (c n : Nat) : s.available [⟨c, n, false, false, 1⟩] = ! (entries s c n).isEmpty := by
  rw [State.available_singleton]
  show decide (1 ≤ (entries s c n).length) = _
  cases entries s c n <;> simp

/-- What VQRD names, and what it does at channel n of its core (R241). -/
def vqrdUse (v : BitVec 5) (q : BitVec 3) : Use := { vregs := [v.toNat], heads := [q.toNat], acq := true }

def vqrdAct (s : State) (t : Thread) (v : BitVec 5) (q : BitVec 3) (n : Nat) : Act :=
  if ¬ (headKind (t.headOf q.toNat) = 1 ∧ headWide (t.headOf q.toNat)) then .trap cCHANNEL (word (112 + q.toNat))
  else
    match entries s t.core n with
    | [] => .wait (.wide t.core n true) (s.iword.zeroExtend 64)
    | e :: l => .done ((withEntries s t.core n l).setThread s.cur (t.setV v.toNat e))

theorem exec_vqrd (hr : Ready s t (vqrdUse v q) [] s) : exec (.vqrd w v q) s =
    .next (s.finish s.cur t (vqrdUse v q) (decide (w = 1)) (vqrdAct s t v q (headNum (t.headOf q.toNat)))) := by
  show execVqrd w v q s = _
  rw [execVqrd]
  refine (issue_ready hr).trans ?_
  refine congrArg (fun act => Host.Outcome.next (s.finish s.cur t _ _ act)) (if_congr not_and_or.symm rfl ?_)
  rw [available_entry]
  cases he : entries s t.core (headNum (t.headOf q.toNat)) with
  | nil => rfl
  | cons e l =>
    have hrest := withEntries_eq s t.core (headNum (t.headOf q.toNat)) (fun l => l.drop 1)
    have hhead : (nth (s.core t.core).chans (headNum (t.headOf q.toNat)) {}).entries = e :: l := he
    rw [he] at hrest
    rw [if_neg (by simp), hrest]
    dsimp only
    rw [hhead, State.modThread_of_some (s := withEntries ..) hr.here]
    rfl

/-- What VQWR names, and what it does at channel n of its core (R241). -/
def vqwrUse (v : BitVec 5) (q : BitVec 3) : Use := { vregs := [v.toNat], heads := [q.toNat] }

def vqwrAct (s : State) (t : Thread) (v : BitVec 5) (q : BitVec 3) (n : Nat) (ids : List Nat) : Act :=
  if ¬ (headKind (t.headOf q.toNat) = 2 ∧ headWide (t.headOf q.toNat)) then .trap cCHANNEL (word (112 + q.toNat))
  else if s.available [⟨t.core, n, false, true, 1⟩] = false then .wait (.wide t.core n false) (s.iword.zeroExtend 64)
  else if ids ≠ [] then
    .release (.wide q.toNat v.toNat) ids (s.modCore t.core (fun k =>
      { k with chans := modify k.chans n (fun c => { c with reserved := c.reserved + 1 }) }))
  else .done (withEntries s t.core n (entries s t.core n ++ [t.vr v.toNat]))

theorem exec_vqwr (hr : Ready s t (vqwrUse v q) [] s) : exec (.vqwr w q v) s =
    .next (s.finish s.cur t (vqwrUse v q) (decide (w = 1)) (vqwrAct s t v q (headNum (t.headOf q.toNat))
      (s.stillPending (s.releaseIds s.cur (headScope (t.headOf q.toNat)) ++ s.acquireIds s.cur)))) := by
  show execVqwr w q v s = _
  rw [execVqwr]
  refine (issue_ready hr).trans ?_
  rw [vqwrAct, ← withEntries_eq s t.core _ (fun l => l ++ [t.vr v.toNat])]
  exact congrArg (fun act => Host.Outcome.next (s.finish s.cur t _ _ act))
    (if_congr not_and_or.symm rfl (if_congr (iff_of_eq (Bool.not_eq_true _)) rfl (if_congr (not_congr List.isEmpty_iff) rfl rfl)))

theorem vqrd_cases (hr : Ready s t (vqrdUse v q) [] s) :
    let h := t.headOf q.toNat
    (¬ (headKind h = 1 ∧ headWide h) → Traps (.vqrd w v q) s t ⟨cCHANNEL, word (112 + q.toNat)⟩) ∧
    (headKind h = 1 → headWide h = true → entries s t.core (headNum h) = [] →
      Waits (.vqrd w v q) s [] [] (.wide t.core (headNum h) true) (s.iword.zeroExtend 64)) ∧
    (∀ e l, headKind h = 1 → headWide h = true → entries s t.core (headNum h) = e :: l →
      Retires (.vqrd w v q) s w ((withEntries s t.core (headNum h) l).setThread s.cur (t.setV v.toNat e))) := by
  refine ⟨fun hk => ?_, fun hk hw he => waits_of_exec (u := vqrdUse v q) (t := t) (mk := decide (w = 1)) ?_, fun e l hk hw he => ?_⟩
  · rw [Traps, exec_vqrd hr, vqrdAct, if_pos hk]
    rfl
  · rw [exec_vqrd hr, vqrdAct, if_neg (not_not.mpr ⟨hk, hw⟩), he]
  · rw [Retires, exec_vqrd hr, vqrdAct, if_neg (not_not.mpr ⟨hk, hw⟩), he]
    rfl

theorem vqwr_cases (hr : Ready s t (vqwrUse v q) [] s) :
    let h := t.headOf q.toNat
    let room := s.available [⟨t.core, headNum h, false, true, 1⟩]
    let ids := s.stillPending (s.releaseIds s.cur (headScope h) ++ s.acquireIds s.cur)
    (¬ (headKind h = 2 ∧ headWide h) → Traps (.vqwr w q v) s t ⟨cCHANNEL, word (112 + q.toNat)⟩) ∧
    (headKind h = 2 → headWide h = true →
      (room = false → Waits (.vqwr w q v) s [] [] (.wide t.core (headNum h) false) (s.iword.zeroExtend 64)) ∧
      (room = true → ids ≠ [] → Releases (.vqwr w q v) s w (.wide q.toNat v.toNat) ids
        (s.modCore t.core (fun k => { k with chans := modify k.chans (headNum h) (fun c =>
          { c with reserved := c.reserved + 1 }) }))) ∧
      (room = true → ids = [] → Retires (.vqwr w q v) s w
        (withEntries s t.core (headNum h) (entries s t.core (headNum h) ++ [t.vr v.toNat])))) := by
  refine ⟨fun hk => ?_, fun hk hw =>
    ⟨fun hroom => waits_of_exec (u := vqwrUse v q) (t := t) (mk := decide (w = 1)) ?_, fun hroom hids => ?_, fun hroom hids => ?_⟩⟩
  · rw [Traps, exec_vqwr hr, vqwrAct, if_pos hk]
    rfl
  · rw [exec_vqwr hr, vqwrAct, if_neg (not_not.mpr ⟨hk, hw⟩), if_pos hroom]
  · rw [Releases, exec_vqwr hr, vqwrAct, if_neg (not_not.mpr ⟨hk, hw⟩), if_neg (by simp [hroom]), if_pos hids]
    rfl
  · rw [Retires, exec_vqwr hr, vqwrAct, if_neg (not_not.mpr ⟨hk, hw⟩), if_neg (by simp [hroom]), if_neg (not_not.mpr hids)]
    rfl

theorem wideChannels : WideChannels := ⟨fun _ _ _ _ _ => vqrd_cases, fun _ _ _ _ _ => vqwr_cases⟩

end Sys2Proof.Claim
end

section
/-! Packets: SEND, SENDE, and what a turn does that ends a stalled enqueue (R90, R232, R243). -/
namespace Sys2Proof.Claim
open Machine
set_option Elab.async false
variable {s s' : State} {t : Thread} {w : BitVec 1} {q : BitVec 3} {a : BitVec 7} {x : Word} {close : Bool}

/-- The turn of a thread whose enqueue has waited for its release makes the enqueue (R90). -/
theorem issueNext_stalled {e : Stall} (ht : s.thread s.cur = some t) (he : t.stalled = some e) :
    s.issueNext s.cur = .next (s.finishStall s.cur) := by
  simp only [State.issueNext, ht, he, Option.isSome_some, if_true]

/-- The inbox that a head for sending names, that inbox replaced, and its words in reserve once a packet of thread t is open. -/
def boxOf (s : State) (h : Word) : Inbox := nth (s.core (headLcn h)).inboxes (headNum h) {}

def withBox (s : State) (h : Word) (b : Inbox) : State :=
  s.modCore (headLcn h) (fun k => { k with inboxes := modify k.inboxes (headNum h) (fun _ => b) })

def packetRoom (s : State) (t : Thread) (h : Word) : Nat :=
  if t.packet = none then (boxOf s h).reserved + 8 else (boxOf s h).reserved

/-- The state with word x added to the packet that thread tid has open or opens at head q (R243). -/
def packetOpened (s : State) (tid : Nat) (t : Thread) (q : Nat) (x : Word) : State :=
  (withBox s (t.headOf q) { boxOf s (t.headOf q) with reserved := packetRoom s t (t.headOf q) }).modThread tid
    (fun u => { u with packet := some ⟨q, packetWords t x⟩ })

/-- The state with word x added to the packet and the packet closed (R243). -/
def packetClosed (s : State) (tid : Nat) (t : Thread) (q : Nat) (x : Word) : State :=
  (withBox s (t.headOf q) { boxOf s (t.headOf q) with
    reserved := packetRoom s t (t.headOf q) - 8
    words := (boxOf s (t.headOf q)).words ++ (packetWords t x).dropLast.map (fun y => ⟨y, false, []⟩) ++ [⟨x, true, []⟩] }).modThread
      tid (fun u => { u with packet := none })

/-- The inbox changed by a function of what stands there. -/
theorem withBox_eq (s : State) (h : Word) (f : Inbox → Inbox) :
    s.modCore (headLcn h) (fun k => { k with inboxes := modify k.inboxes (headNum h) f }) = withBox s h (f (boxOf s h)) :=
  State.modCore_inbox_congr rfl

/-- The words of a packet as they join the inbox: the last one marked. -/
theorem marked_words (l : List Word) (x : Word) :
    ((l ++ [x]).zip ((List.range (l ++ [x]).length).map (fun i => decide (i + 1 = (l ++ [x]).length)))).map
      (fun e => (⟨e.1, e.2, []⟩ : InWord)) = l.map (fun y => ⟨y, false, []⟩) ++ [⟨x, true, []⟩] := by
  refine List.ext_getElem (by simp) fun i h1 h2 => ?_
  rcases Nat.lt_or_ge i l.length with hi | hi
  · simp [hi, List.getElem_append_left, Nat.ne_of_lt hi]
  · obtain rfl : i = l.length := by simp at h1; omega
    simp

theorem withBox_change (s : State) (h : Word) (b : Inbox) (f : Inbox → Inbox) : (withBox s h b).modCore (headLcn h) (fun k =>
    { k with inboxes := modify k.inboxes (headNum h) f }) = withBox s h (f b) := by
  simp only [withBox, State.modCore_modCore, modify_modify]

/-- SENDE closes the packet that it has added its word to. -/
theorem closePacket_opened {tid : Nat} {p : Thread} (hp : s.thread tid = some p) (t : Thread) (q : Nat) (x : Word) :
    (packetOpened s tid t q x).closePacket tid t q (packetWords t x) = packetClosed s tid t q x := by
  have hbox (b : Inbox) : (withBox s (t.headOf q) b).thread tid = some p := hp
  have hwords := marked_words ((t.packet.map (fun p => p.words)).getD []) x
  rw [packetOpened, State.modThread_of_some (hbox _), packetClosed, State.modThread_of_some (hbox _), State.closePacket, packetWords,
    List.dropLast_concat, hwords]
  dsimp only
  rw [State.modCore_setThread, withBox_change, State.modThread_of_some (State.thread_setThread_self ..), State.setThread_setThread,
    List.append_assoc]

/-- What SEND and SENDE name, and what they do with the packet of the thread (R243). -/
def sendUse (q : BitVec 3) (a : BitVec 7) : Use := { srcs := [a.toNat], heads := [q.toNat], packetHead := some q.toNat }

def sendAct (close : Bool) (s : State) (tid : Nat) (t : Thread) (q : Nat) (x : Word) (ids : List Nat) : Act :=
  let h := t.headOf q
  if headKind h ≠ 4 then .trap cCHANNEL (word (112 + q))
  else if ¬ (t.packet ≠ none ∨ s.available [⟨headLcn h, headNum h, true, true, 8⟩] = true) then
    .wait (.inboxRoom (headLcn h) (headNum h) 8) (s.iword.zeroExtend 64)
  else if (packetWords t x).length > 8 then .trap cPACKET 9
  else if close = false then .done (packetOpened s tid t q x)
  else if ids = [] then .done (packetClosed s tid t q x) else .release (.packet q) ids (packetOpened s tid t q x)

/-- The ids that the close of a packet waits for. -/
def closeIds (s : State) (tid : Nat) (t : Thread) (q : Nat) : List Nat :=
  s.stillPending (s.releaseIds tid (headScope (t.headOf q)) ++ s.acquireIds tid)

theorem sendWord_eq (hr : Ready s t (sendUse q a) [x] s') : sendWord w q a close s =
    .next (s.finish s.cur t (sendUse q a) (decide (w = 1))
      (sendAct close s' s.cur t q.toNat x (closeIds s' s.cur t q.toNat))) := by
  obtain ⟨-, p, hp⟩ := hr.still_here
  have hopened : (s'.modCore (headLcn (t.headOf q.toNat)) (fun k => { k with
      inboxes := modify k.inboxes (headNum (t.headOf q.toNat)) (fun b =>
        { b with reserved := b.reserved + if t.packet.isNone then 8 else 0 }) })).modThread s.cur
        (fun u => { u with packet := some ⟨q.toNat, packetWords t x⟩ }) = packetOpened s' s.cur t q.toNat x := by
    rw [withBox_eq, packetOpened, packetRoom]
    cases t.packet <;> rfl
  rw [sendWord]
  refine (issue_ready hr).trans ?_
  refine congrArg (fun act => Host.Outcome.next (s.finish s.cur t _ _ act)) (if_congr Iff.rfl rfl (if_congr ?_ rfl
    (if_congr Iff.rfl rfl ?_)))
  · cases t.packet <;> simp
  · dsimp only
    rw [show arg [x] 0 = x from rfl, ← closePacket_opened hp, ← hopened]
    exact if_congr (iff_of_eq (Bool.not_eq_true _)) rfl (if_congr List.isEmpty_iff rfl rfl)

theorem exec_send (s : State) : exec (.send w q a) s = sendWord w q a false s := rfl

theorem exec_sende (s : State) : exec (.sende w q a) s = sendWord w q a true s := rfl

section
variable (hr : Ready s t (sendUse q a) [x] s')
include hr

theorem send_traps_unbound (hk : headKind (t.headOf q.toNat) ≠ 4) :
    Traps (.send w q a) s t ⟨cCHANNEL, word (112 + q.toNat)⟩ ∧ Traps (.sende w q a) s t ⟨cCHANNEL, word (112 + q.toNat)⟩ := by
  have hact (close : Bool) : sendAct close s' s.cur t q.toNat x (closeIds s' s.cur t q.toNat) =
      .trap cCHANNEL (word (112 + q.toNat)) := if_pos hk
  constructor
  · rw [Traps, exec_send, sendWord_eq hr, hact]
    rfl
  · rw [Traps, exec_sende, sendWord_eq hr, hact]
    rfl

section
variable (hk : headKind (t.headOf q.toNat) = 4)
include hk

theorem send_waits (hroom : ¬ (t.packet ≠ none ∨
      s'.available [⟨headLcn (t.headOf q.toNat), headNum (t.headOf q.toNat), true, true, 8⟩] = true)) :
    Waits (.send w q a) s [a.toNat] [] (.inboxRoom (headLcn (t.headOf q.toNat)) (headNum (t.headOf q.toNat)) 8)
      (s.iword.zeroExtend 64) ∧
    Waits (.sende w q a) s [a.toNat] [] (.inboxRoom (headLcn (t.headOf q.toNat)) (headNum (t.headOf q.toNat)) 8)
      (s.iword.zeroExtend 64) := by
  have hact (close : Bool) : sendAct close s' s.cur t q.toNat x (closeIds s' s.cur t q.toNat) =
      .wait (.inboxRoom (headLcn (t.headOf q.toNat)) (headNum (t.headOf q.toNat)) 8) (s.iword.zeroExtend 64) := by
    rw [sendAct, if_neg (not_not.mpr hk), if_pos hroom, hr.dequeued.iword]
  constructor
  · refine waits_of_exec (u := sendUse q a) (t := t) (mk := decide (w = 1)) ?_
    rw [exec_send, sendWord_eq hr, hact]
  · refine waits_of_exec (u := sendUse q a) (t := t) (mk := decide (w = 1)) ?_
    rw [exec_sende, sendWord_eq hr, hact]

section
variable (hroom : t.packet ≠ none ∨
  s'.available [⟨headLcn (t.headOf q.toNat), headNum (t.headOf q.toNat), true, true, 8⟩] = true)
include hroom

theorem send_traps_ninth (hlen : (packetWords t x).length > 8) :
    Traps (.send w q a) s t ⟨cPACKET, 9⟩ ∧ Traps (.sende w q a) s t ⟨cPACKET, 9⟩ := by
  have hact (close : Bool) : sendAct close s' s.cur t q.toNat x (closeIds s' s.cur t q.toNat) = .trap cPACKET 9 := by
    rw [sendAct, if_neg (not_not.mpr hk), if_neg (not_not.mpr hroom), if_pos hlen]
  constructor
  · rw [Traps, exec_send, sendWord_eq hr, hact]
    rfl
  · rw [Traps, exec_sende, sendWord_eq hr, hact]
    rfl

section
variable (hlen : (packetWords t x).length ≤ 8)
include hlen

theorem send_opens : Retires (.send w q a) s w (packetOpened s' s.cur t q.toNat x) := by
  rw [Retires, exec_send, sendWord_eq hr, sendAct, if_neg (not_not.mpr hk), if_neg (not_not.mpr hroom), if_neg (by omega), if_pos rfl,
    State.finish_done]

theorem sende_releases (hids : closeIds s' s.cur t q.toNat ≠ []) :
    Releases (.sende w q a) s w (.packet q.toNat) (closeIds s' s.cur t q.toNat) (packetOpened s' s.cur t q.toNat x) := by
  rw [Releases, exec_sende, sendWord_eq hr, sendAct, if_neg (not_not.mpr hk), if_neg (not_not.mpr hroom), if_neg (by omega),
    if_neg (by decide), if_neg hids]
  rfl

theorem sende_closes (hids : closeIds s' s.cur t q.toNat = []) :
    Retires (.sende w q a) s w (packetClosed s' s.cur t q.toNat x) := by
  rw [Retires, exec_sende, sendWord_eq hr, sendAct, if_neg (not_not.mpr hk), if_neg (not_not.mpr hroom), if_neg (by omega),
    if_neg (by decide), if_pos hids, State.finish_done]

end
end
end
end

theorem packets : Packets := by
  refine ⟨fun s t e ht he => ?_, fun w q a s s' t x hr => ⟨send_traps_unbound hr, send_waits hr, fun hk hroom => send_traps_ninth hr hk hroom,
    fun hk hroom hlen => ⟨send_opens hr hk hroom hlen, sende_releases hr hk hroom hlen, sende_closes hr hk hroom hlen⟩⟩⟩
  rw [issueNext_stalled ht he]
  cases e with
  | heads ws target => rfl
  | fork e n => simp only [State.finishStall, ht, he]
  | wide q v => simp only [State.finishStall, ht, he]
  | packet q => simp only [State.finishStall, ht, he]

/-- Settles O24: each instruction by what it finds at its head, and the turn that ends a stalled enqueue. -/
theorem wideChannelsAndPackets : Obligations.WideChannelsAndPackets := ⟨wideChannels, packets⟩

end Sys2Proof.Claim
end

section
/-! The input of a stage: its numbers and its handles, and ITEMGET (R53, R245). -/
namespace Sys2Proof.Claim
open Machine
set_option Elab.async false
variable {s v : State} {t p : Thread} {u : Use} {w : BitVec 1} {d a : BitVec 7} {x y : Word} {l : Launch} {tid f g n : Nat} {mk : Bool}

/-- Of a list without its first element of a kind, that kind has lost its first, and every other kind is whole. -/
theorem filter_eraseP_self {α : Type} (p : α → Bool) (l : List α) : (l.eraseP p).filter p = (l.filter p).tail := by
  induction l with
  | nil => rfl
  | cons a r ih =>
    by_cases ha : p a
    · simp [ha]
    · simp [ha, ih]

theorem filter_eraseP_of_disjoint {α : Type} {p q : α → Bool} (hd : ∀ a, p a = true → q a = false) (l : List α) :
    (l.eraseP p).filter q = l.filter q := by
  induction l with
  | nil => rfl
  | cons a r ih =>
    by_cases ha : p a
    · simp [ha, hd a ha]
    · simp [ha, List.filter_cons, ih]

/-- What stage 0 takes: a number given back, then the next one, then the end (R53, R90). -/
theorem inputOf_returned {i : Nat} {r : List Nat} (s : State) (n : Nat) (h : l.returned = i :: r) :
    s.inputOf n l 0 = .item ⟨BitVec.ofNat 64 i, BitVec.ofNat 32 i⟩ { l with taken := l.taken.eraseP (fun e => ! e.2) } := by
  rw [State.inputOf, if_pos rfl]
  simp only [h]

theorem inputOf_drawn (s : State) (n : Nat) (h : l.returned = []) (hc : l.drawn < l.count) :
    s.inputOf n l 0 = .item ⟨BitVec.ofNat 64 l.drawn, BitVec.ofNat 32 l.drawn⟩ { l with drawn := l.drawn + 1 } := by
  rw [State.inputOf, if_pos rfl]
  simp only [h, hc, if_true]

theorem inputOf_end (s : State) (n : Nat) (h : l.returned = []) (hc : l.count ≤ l.drawn) : s.inputOf n l 0 = .atEnd := by
  rw [State.inputOf, if_pos rfl]
  simp only [h, Nat.not_lt.mpr hc, if_false]

theorem returned_eraseP {i : Nat} {r : List Nat} (h : l.returned = i :: r) :
    ({ l with taken := l.taken.eraseP (fun e => ! e.2) } : Launch).returned = r := by
  rw [Launch.returned] at h ⊢
  rw [filter_eraseP_self, List.map_tail, h, List.tail_cons]

/-- A launch that runs a pipeline, as ITEMGET and ITEMPUT find it. -/
theorem pipelineOf_none (h : inPipeline s t = false) : s.pipelineOf t = none := by
  unfold inPipeline at h
  unfold State.pipelineOf
  cases hl : s.launchOf t.lnum with
  | none => rfl
  | some l =>
    rw [hl] at h
    simp [show l.pipeline = false from h]

theorem pipelineOf_some (hl : s.launchOf t.lnum = some l) (hp : l.pipeline = true) : s.pipelineOf t = some l := by
  rw [State.pipelineOf, hl]
  exact if_pos hp

/-- Writes through fields that name no head meet nothing (R240). -/
theorem meetPuts_registers (v : State) (tid : Nat) {ws : List (Nat × Word)} (h : ∀ p ∈ ws, isHead p.1 = false) :
    v.meetPuts tid ws = none := by
  induction ws generalizing v with
  | nil => rfl
  | cons e r ih =>
    obtain ⟨he, hr⟩ := List.forall_mem_cons.mp h
    have htrap : v.outputTrap tid e.1 e.2 = none := by
      unfold State.outputTrap
      cases v.thread tid <;> simp [he]
    have hroom : v.lacksRoom tid e.1 e.2 = false := by
      unfold State.lacksRoom
      cases v.thread tid <;> simp [he]
    simp only [State.meetPuts, htrap, hroom, ih _ hr]
    rfl

/-- Two results go through destinations that meet nothing and wait for nothing (R90, R245). -/
theorem finish_pair (hf : u.dst2 = some f) (hg : u.dst = some g) (hp : v.thread tid = some p)
    (hm : v.meetPuts tid [(f, y), (g, x)] = none) (hi : ∀ q, v.thread tid = some q → v.enqueueIds tid q [f, g] = []) :
    s.finish tid t u mk (.pair x y v) = ((v.writeField tid f y false).writeField tid g x false).retire tid mk none := by
  simp [State.finish, hf, hg, hm, State.giveDsts, hp, hi p hp]

/-- What ITEMGET names, and what it does with what it finds for thread t of launch n in state free, in which the thread has
given up its item. -/
def itemgetUse (d a : BitVec 7) : Use := { dst := some d.toNat, dst2 := some a.toNat, acq := true }

def itemgetAct (free : State) (tid n : Nat) (i : Input) : Act :=
  match i with
  | .nothing => .register .itemGet (free.iword.zeroExtend 64) (fun s => s.modThread tid (fun t => { t with item := none }))
  | .atEnd => .pair 0 0 (free.modThread tid (fun t => t.modCsr (fun c => { c with ts := setBits c.ts 1 1 1 })))
  | .item it l' =>
    .pair it.handle (it.seq.zeroExtend 64) ((free.setLaunch n l').modThread tid (fun t => { t with item := some it }))

section
variable (hr : Ready s t (itemgetUse d a) [] s)
include hr

theorem itemget_traps (h : t.kind = .handler ∨ inPipeline s t = false) : Traps (.itemget w d a) s t ⟨cSTAGE, allOnes⟩ := by
  have hnone : (if t.kind = .handler then none else s.pipelineOf t) = none := by
    rcases h with hk | hp
    · exact if_pos hk
    · rw [pipelineOf_none hp, ite_self]
  show execItemget w d a s = _
  rw [execItemget]
  refine (issue_ready hr).trans ?_
  simp only [hnone]
  rfl

section
variable (hk : t.kind ≠ .handler) (hl : s.launchOf t.lnum = some l) (hp : l.pipeline = true) (hm : t.moved = false)
include hk hl hp hm

theorem exec_itemget : exec (.itemget w d a) s = .next (s.finish s.cur t (itemgetUse d a) (decide (w = 1))
    (itemgetAct (s.setThread s.cur { t with item := none }) s.cur t.lnum
      ((s.setThread s.cur { t with item := none }).inputOf t.lnum l t.stage))) := by
  show execItemget w d a s = _
  rw [execItemget]
  refine (issue_ready hr).trans ?_
  simp only [if_neg hk, pipelineOf_some hl hp, hm, Bool.false_eq_true, if_false]
  cases (s.setThread s.cur { t with item := none }).inputOf t.lnum l t.stage <;> rfl

/-- An item is taken: the thread holds it, and its number and its handle go through the destinations. -/
theorem itemget_takes {it : Item} {l' : Launch}
    (hin : (s.setThread s.cur { t with item := none }).inputOf t.lnum l t.stage = .item it l') :
    let v := ((s.setThread s.cur { t with item := none }).setLaunch t.lnum l').modThread s.cur (fun t => { t with item := some it })
    let y : Word := it.seq.zeroExtend 64
    v.meetPuts s.cur [(a.toNat, y), (d.toNat, it.handle)] = none →
    (∀ u, v.thread s.cur = some u → v.enqueueIds s.cur u [a.toNat, d.toNat] = []) →
    Retires (.itemget w d a) s w ((v.writeField s.cur a.toNat y false).writeField s.cur d.toNat it.handle false) := by
  intro v y hmeet hids
  have hthere : ((s.setThread s.cur { t with item := none }).setLaunch t.lnum l').thread s.cur = some { t with item := none } :=
    State.thread_setThread_self ..
  rw [Retires, exec_itemget hr hk hl hp hm, hin]
  exact congrArg Host.Outcome.next (finish_pair rfl rfl (by
    rw [State.modThread_of_some hthere]
    exact State.thread_setThread_self ..) hmeet hids)

/-- At the end of the input 0 goes through them, and ts.EOS is set. -/
theorem itemget_ends (hin : (s.setThread s.cur { t with item := none }).inputOf t.lnum l t.stage = .atEnd) :
    let v := (s.setThread s.cur { t with item := none }).modThread s.cur
      (fun t => t.modCsr (fun c => { c with ts := setBits c.ts 1 1 1 }))
    v.meetPuts s.cur [(a.toNat, 0), (d.toNat, 0)] = none →
    (∀ u, v.thread s.cur = some u → v.enqueueIds s.cur u [a.toNat, d.toNat] = []) →
    Retires (.itemget w d a) s w ((v.writeField s.cur a.toNat 0 false).writeField s.cur d.toNat 0 false) := by
  intro v hmeet hids
  rw [Retires, exec_itemget hr hk hl hp hm, hin]
  exact congrArg Host.Outcome.next (finish_pair rfl rfl (by
    rw [State.modThread_of_some (State.thread_setThread_self ..)]
    exact State.thread_setThread_self ..) hmeet hids)

/-- With nothing there yet the thread waits, its item given up. -/
theorem itemget_waits (hin : (s.setThread s.cur { t with item := none }).inputOf t.lnum l t.stage = .nothing) :
    ∃ v u wt, exec (.itemget w d a) s = .next v ∧ v.thread s.cur = some u ∧ u.state = .blocked ∧ u.item = none ∧
      u.wait = some wt ∧ wt.what = .itemGet := by
  have hthere : ((s.blockOn s.cur .itemGet (s.iword.zeroExtend 64) [] (itemgetUse d a).dsts).modThread s.cur
      (fun t => { t with item := none })).thread s.cur = some { t with
        state := .blocked, item := none
        wait := some (blockedWait s t .itemGet (s.iword.zeroExtend 64) [] (itemgetUse d a).dsts) } := by
    rw [blockOn_eq hr.here, State.modThread_of_some (State.thread_setThread_self ..), State.thread_setThread_self]
  obtain ⟨g, hg⟩ := finish_register_thread (s := s) (t := t) (u := itemgetUse d a) (mk := decide (w = 1))
    (f := fun v => v.modThread s.cur (fun t => { t with item := none })) hthere rfl
  exact ⟨_, _, _, (exec_itemget hr hk hl hp hm).trans (hin ▸ rfl), hg, rfl, rfl, rfl, blockedWait_what ..⟩

end
end

theorem itemsTaken : ItemsTaken := by
  refine fun w d a s t hr => ⟨itemget_traps hr, fun l hk hl hp hm => ⟨fun it l' hin => itemget_takes hr hk hl hp hm hin,
    itemget_ends hr hk hl hp hm, itemget_waits hr hk hl hp hm, fun i r hstage hret => ?_, fun hstage hret hc => ?_,
    fun hstage hret hc => ?_⟩, fun v ws hws => meetPuts_registers v _ hws⟩
  · rw [hstage]
    exact ⟨_, inputOf_returned _ _ hret, returned_eraseP hret, rfl, filter_eraseP_of_disjoint (by simp) _⟩
  · rw [hstage]
    exact inputOf_drawn _ _ hret hc
  · rw [hstage]
    exact inputOf_end _ _ hret hc

end Sys2Proof.Claim
end

section
/-! The queues between stages, and ITEMPUT (R53, R246). -/
namespace Sys2Proof.Claim
open Machine
set_option Elab.async false
variable {s s' : State} {t : Thread} {w o : BitVec 1} {d a : BitVec 7} {x y : Word} {l : Launch} {u : StageQueue} {it : Item} {q : Nat}

/-- What ITEMPUT names, and what it does with what its queue answers. -/
def itemputUse (d a : BitVec 7) : Use := { srcs := [d.toNat, a.toNat], rel := some 4 }

def itemputAct (s : State) (n : Nat) (l : Launch) (q : Nat) (seq : BitVec 32) (r : Offer) : Act :=
  match r with
  | .stage => .trap cSTAGE (seq.zeroExtend 64)
  | .wait => .wait (.itemPut q seq.toNat) (s.iword.zeroExtend 64)
  | .accepted u' => .done (s.setLaunch n { l with queues := modify l.queues q (fun _ => u') })

section
variable (hr : Ready s t (itemputUse d a) [x, y] s')
include hr

theorem itemput_traps (h : inPipeline s' t = false) : Traps (.itemput w d a o) s t ⟨cSTAGE, allOnes⟩ := by
  show execItemput w d a o s = _
  rw [execItemput]
  refine (issue_ready hr).trans ?_
  simp only [pipelineOf_none h]
  rfl

section
variable (hl : s'.launchOf t.lnum = some l) (hp : l.pipeline = true)
include hl hp

theorem itemput_traps_no_output (ho : l.output t.stage (o = 1) = none) : Traps (.itemput w d a o) s t ⟨cSTAGE, allOnes⟩ := by
  show execItemput w d a o s = _
  rw [execItemput]
  refine (issue_ready hr).trans ?_
  simp only [pipelineOf_some hl hp, ho]
  rfl

theorem exec_itemput (ho : l.output t.stage (o = 1) = some q) (hq : l.queues[q]? = some u) :
    exec (.itemput w d a o) s = .next (s.finish s.cur t (itemputUse d a) (decide (w = 1))
      (itemputAct s' t.lnum l q (y.truncate 32) (offer u ⟨x, y.truncate 32⟩))) := by
  have hx : arg [x, y] 0 = x := rfl
  have hy : arg [x, y] 1 = y := rfl
  show execItemput w d a o s = _
  rw [execItemput]
  refine (issue_ready hr).trans ?_
  simp only [pipelineOf_some hl hp, ho, hq, hx, hy]
  cases offer u ⟨x, y.truncate 32⟩ <;> rfl

theorem itemput_cases (ho : l.output t.stage (o = 1) = some q) (hq : l.queues[q]? = some u) :
    let it : Item := ⟨x, y.truncate 32⟩
    (offer u it = .stage → Traps (.itemput w d a o) s t ⟨cSTAGE, it.seq.zeroExtend 64⟩) ∧
    (offer u it = .wait → Waits (.itemput w d a o) s [d.toNat, a.toNat] [] (.itemPut q it.seq.toNat) (s'.iword.zeroExtend 64)) ∧
    (∀ u', offer u it = .accepted u' → Retires (.itemput w d a o) s w
      (s'.setLaunch t.lnum { l with queues := modify l.queues q (fun _ => u') })) := by
  refine ⟨fun h => ?_, fun h => waits_of_exec (u := itemputUse d a) (t := t) (mk := decide (w = 1)) ?_, fun u' h => ?_⟩
  · rw [Traps, exec_itemput hr hl hp ho hq, h]
    rfl
  · rw [exec_itemput hr hl hp ho hq, h]
    rfl
  · rw [Retires, exec_itemput hr hl hp ho hq, h]
    rfl

end
end

/-! What a queue answers to an offer. -/

theorem offer_unordered (ho : u.ordered = false) :
    let taken := u.items.length + u.taken.length + u.reserved
    (it.handle = 0 → taken < u.cap → offer u it = .accepted u) ∧
    (it.handle ≠ 0 → taken < u.cap → offer u it = .accepted { u with items := u.items ++ [it] }) ∧
    (u.cap ≤ taken → offer u it = .wait) := by
  have hoffer : offer u it = if u.cap ≤ u.items.length + u.taken.length + u.reserved then .wait
      else if it.handle = 0 then .accepted u else .accepted { u with items := u.items ++ [it] } := if_pos (by simp [ho])
  refine ⟨fun hh ht => ?_, fun hh ht => ?_, fun ht => ?_⟩
  · rw [hoffer, if_neg (by omega), if_pos hh]
  · rw [hoffer, if_neg (by omega), if_neg hh]
  · rw [hoffer, if_pos ht]

/-- The distance between sequence numbers is their difference modulo 2^32. -/
theorem seqDist_eq (n : Nat) (q : BitVec 32) : seqDist n q.toNat = (q - BitVec.ofNat 32 n).toNat := by
  rw [BitVec.toNat_sub, BitVec.toNat_ofNat, seqDist]
  have := Nat.mod_lt n (Nat.two_pow_pos 32)
  omega

/-- The distance of the oldest number that a queue has in reserve or given back. -/
def oldest (u : StageQueue) : Nat := (u.taken.map (fun e => seqDist e.1.seq.toNat u.next)).foldl max 0

theorem le_foldl_max {l : List Nat} {x : Nat} (a : Nat) (h : x ≤ a ∨ x ∈ l) : x ≤ l.foldl max a := by
  induction l generalizing a with
  | nil => simpa using h
  | cons b r ih =>
    rw [List.foldl_cons]
    rcases h with h | h
    · exact ih _ (.inl (h.trans (Nat.le_max_left a b)))
    · rcases List.mem_cons.mp h with rfl | h
      · exact ih _ (.inl (Nat.le_max_right a x))
      · exact ih _ (.inr h)

theorem foldl_max_lt {l : List Nat} {a b : Nat} (ha : a < b) (h : ∀ x ∈ l, x < b) : l.foldl max a < b :=
  List.foldlRecOn (motive := (· < b)) _ _ ha fun _ hx y hy => Nat.max_lt.mpr ⟨hx, h y hy⟩

theorem seqDist_lt (n q : Nat) : seqDist n q < 2 ^ 32 := Nat.mod_lt _ (Nat.two_pow_pos 32)

/-- An ordered queue starts as far before the next undelivered number as the oldest that it has in reserve or given back. -/
theorem next_sub_start (hn : u.next < 2 ^ 32) : (BitVec.ofNat 32 u.next - BitVec.ofNat 32 u.start).toNat = oldest u := by
  have hlt : oldest u < 2 ^ 32 := foldl_max_lt (Nat.two_pow_pos 32) (by
    simp only [List.mem_map]
    rintro _ ⟨e, -, rfl⟩
    exact seqDist_lt ..)
  have hstart : u.start = (u.next + 2 ^ 32 - oldest u) % 2 ^ 32 := rfl
  rw [BitVec.toNat_sub, BitVec.toNat_ofNat, BitVec.toNat_ofNat, hstart]
  omega

theorem start_of_none_taken (hn : u.next < 2 ^ 32) (h : u.taken = []) : u.start = u.next := by
  rw [StageQueue.start, h]
  simp only [List.map_nil, List.foldl_nil]
  omega

theorem taken_le_oldest (hn : u.next < 2 ^ 32) {e : Item × Bool} (he : e ∈ u.taken) :
    (BitVec.ofNat 32 u.next - e.1.seq).toNat ≤ (BitVec.ofNat 32 u.next - BitVec.ofNat 32 u.start).toNat := by
  rw [next_sub_start hn]
  refine le_foldl_max 0 (.inr (List.mem_map.mpr ⟨e, he, ?_⟩))
  have h := seqDist_eq e.1.seq.toNat (BitVec.ofNat 32 u.next)
  rwa [BitVec.ofNat_toNat, BitVec.setWidth_eq, BitVec.toNat_ofNat, Nat.mod_eq_of_lt hn] at h

/-- A queue that holds no handle 0 passes no number. -/
theorem passEmpty_of_full (n : Nat) (h : ∀ x ∈ u.items, x.handle ≠ 0) : passEmpty n u = u := by
  cases n with
  | zero => rfl
  | succ n =>
    have hnone : u.items.find? (fun it => decide (it.handle = 0 ∧ it.seq.toNat = u.next % 2 ^ 32)) = none :=
      List.find?_eq_none.mpr fun x hx => by simpa using fun h0 => absurd h0 (h x hx)
    rw [passEmpty, hnone]

theorem offer_ordered (ho : u.ordered = true) : offer u it =
    if 2 ^ 31 ≤ (it.seq - BitVec.ofNat 32 u.next).toNat ∨ (∃ x ∈ u.items, x.seq = it.seq) ∨ it.seq ∈ u.claimed then .stage
    else if (it.seq - BitVec.ofNat 32 u.start).toNat < u.cap then .accepted (passEmpty (u.cap + 1) { u with items := u.items ++ [it] })
    else .wait := by
  rw [offer, if_neg (by simp [ho]), seqDist_eq, seqDist_eq]
  exact if_congr (by simp) rfl rfl

theorem offer_ordered_cases (ho : u.ordered = true) :
    let δ := (it.seq - BitVec.ofNat 32 u.next).toNat
    let σ := (it.seq - BitVec.ofNat 32 u.start).toNat
    let free := δ < 2 ^ 31 ∧ (∀ x ∈ u.items, x.seq ≠ it.seq) ∧ it.seq ∉ u.claimed
    (2 ^ 31 ≤ δ ∨ (∃ x ∈ u.items, x.seq = it.seq) ∨ it.seq ∈ u.claimed → offer u it = .stage) ∧
    (free → u.cap ≤ σ → offer u it = .wait) ∧
    (free → σ < u.cap → it.handle ≠ 0 → (∀ x ∈ u.items, x.handle ≠ 0) →
      offer u it = .accepted { u with items := u.items ++ [it] }) := by
  intro δ σ free
  have hfree (h : free) : ¬ (2 ^ 31 ≤ δ ∨ (∃ x ∈ u.items, x.seq = it.seq) ∨ it.seq ∈ u.claimed) := by
    obtain ⟨hnear, hnew, hunclaimed⟩ := h
    rintro (hfar | ⟨x, hx, hseq⟩ | hclaimed)
    · omega
    · exact hnew x hx hseq
    · exact hunclaimed hclaimed
  refine ⟨fun h => ?_, fun h hcap => ?_, fun h hcap hh hitems => ?_⟩
  · rw [offer_ordered ho, if_pos h]
  · rw [offer_ordered ho, if_neg (hfree h), if_neg (by omega)]
  · have hnone (x : Item) (hx : x ∈ u.items ++ [it]) : x.handle ≠ 0 :=
      (List.mem_append.mp hx).elim (hitems x) fun hx => by rwa [List.mem_singleton.mp hx]
    rw [offer_ordered ho, if_neg (hfree h), if_pos hcap, passEmpty_of_full (u := { u with items := u.items ++ [it] }) _ hnone]

theorem itemsOffered : ItemsOffered :=
  ⟨fun _ _ _ _ _ _ _ _ _ hr => ⟨itemput_traps hr, fun _ hl hp => ⟨itemput_traps_no_output hr hl hp,
      fun _ _ ho hq => itemput_cases hr hl hp ho hq⟩⟩,
    fun _ _ ho => offer_unordered ho,
    fun _ _ ho hn _ => ⟨start_of_none_taken hn, fun _ he => taken_le_oldest hn he, offer_ordered_cases ho⟩⟩

/-- Settles O25: what stands at a stage's input, what ITEMGET makes of it, and what a queue answers to ITEMPUT. -/
theorem stageItems : Obligations.StageItems := ⟨itemsTaken, itemsOffered⟩

end Sys2Proof.Claim
end

section
/-! QBIND of a thread whose list of heads is empty (R236): no head is there to bind. -/
namespace Sys2Proof.Claim
open Machine
set_option Elab.async false

/-- A thread with no entry in its list of heads, which has a descriptor of local channel 0, narrow, for receiving in r0. -/
def headlessThread : Thread := { newThread .anchored .general 0 0 8 0 0 0 [word (2 ^ 29)] with state := .ready, heads := [] }

/-- The machine with that thread alone, whose turn it is. -/
def headless : State := { State.reset with threads := [(1, headlessThread)], cur := 1 }

/-- The heads of a thread after an instruction. -/
def headsAfter (o : Out) (n : Nat) : Option (List Word) :=
  match o with
  | .next v => (v.thread n).map (fun t => t.heads)
  | _ => none

theorem headless_plain : Plain headless headlessThread { srcs := [0] } where
  here := rfl
  alive := by decide
  window := ⟨by decide, by decide, by decide, by decide⟩
  allowed := ⟨by decide, by decide, by decide, by decide, .inr rfl⟩
  heads := rfl

/-- The binding rules of R238 let the thread bind the channel. -/
theorem headless_mayBind : (headless.unbindHead 1 0).mayBind headlessThread (word (2 ^ 29)) = true := by decide +kernel

/-- QBIND retires, and the thread has no head still. -/
theorem headless_stays : headsAfter (exec (.qbind 0 0 0) headless) 1 = some [] := by decide +kernel

theorem after_heads (t : Thread) (target : Option Word) : (t.after target).heads = t.heads := by
  rw [Thread.after_eq]

/-- Head 0 of the thread is not bound by what R236 lets it bind, so the claim fails there. -/
theorem not_bindAndPoll : ¬ BindAndPoll := by
  rintro ⟨h, -⟩
  obtain ⟨-, -, hbinds⟩ := h 0 0 0 headless headless headlessThread (word (2 ^ 29)) (headless_plain.ready (headless_plain.unordered rfl rfl))
  obtain ⟨y, u, hexec, hthread, hhead, -⟩ := hbinds (by decide) headless_mayBind
  have hkept : ((y.retire headless.cur false none).thread headless.cur).map (fun t => t.heads) = some [] := by
    have hstays := headless_stays
    rwa [hexec] at hstays
  rw [State.thread_retire_unmarked hthread none, Option.map_some, after_heads] at hkept
  rw [Thread.headOf, Option.some.inj hkept] at hhead
  exact absurd hhead (by decide)

/-- Refutes O23: a thread whose list of heads is shorter than eight has no head to bind, and QBIND retires without it; the claim
says that its head is bound. -/
theorem not_threadAndHeadInformation : ¬ Obligations.ThreadAndHeadInformation := fun ⟨_, h⟩ => not_bindAndPoll h

end Sys2Proof.Claim
end

section
/-! What the creation of an MT and the giving up of a position leave alone (R32, R47, R355). -/
namespace Sys2Proof.Machine
set_option Elab.async false
variable {s v : State} {tid : Nat} {t : Thread}

theorem OnlyTlbs.core (h : OnlyTlbs s v) (c : Nat) : v.core c = s.core c := State.core_congr (congrArg State.cores h :) c
theorem OnlyTlbs.waiters (h : OnlyTlbs s v) : v.waiters = s.waiters := (congrArg State.waiters h :)

/-- A push on a deque changes cores and queues alone. -/
theorem State.pushDeque_eq (s : State) (c tid : Nat) : s.pushDeque c tid =
    { s with cores := (s.pushDeque c tid).cores, groveQ := (s.pushDeque c tid).groveQ, dieQ := (s.pushDeque c tid).dieQ,
             overflow := (s.pushDeque c tid).overflow } := by
  by_cases h : (s.core c).deque.length < 64
  · rw [show s.pushDeque c tid = _ from if_pos h]
    rfl
  · rw [show s.pushDeque c tid = _ from if_neg h]
    dsimp only
    rw [State.pushGrove_eq]
    rfl

theorem State.launchOf_pushDeque (s : State) (c tid n : Nat) : (s.pushDeque c tid).launchOf n = s.launchOf n := by
  rw [State.pushDeque_eq]
  rfl

theorem State.launchOf_modLaunch_self (s : State) (n : Nat) (f : Launch → Launch) :
    (s.modLaunch n f).launchOf n = (s.launchOf n).map f := by
  unfold State.modLaunch
  cases h : s.launchOf n with
  | none => exact h
  | some l => exact s.launchOf_setLaunch_self ..

theorem State.queueTrap_waiters (s : State) (tid : Nat) (r : TrapRec) : (s.queueTrap tid r).waiters = s.waiters := by
  unfold State.queueTrap
  split
  · rfl
  · split
    · exact (Noted.slotPut ..).waiters
    · exact (Noted.logError ..).waiters

theorem State.foldl_queueTrap_waiters (f : Word → TrapRec) (l : List Word) (s : State) :
    (l.foldl (fun s a => s.queueTrap tid (f a)) s).waiters = s.waiters := by
  induction l generalizing s with
  | nil => rfl
  | cons a r ih => exact (ih _).trans (State.queueTrap_waiters ..)

theorem State.settle_waiters (s : State) (tid : Nat) : (s.settle tid).waiters = s.waiters := by
  unfold State.settle
  split
  · rfl
  · exact (State.foldl_queueTrap_waiters ..).trans (State.foldl_queueTrap_waiters ..)

theorem State.retire_unmarked_waiters (h : s.thread tid = some t) (target : Option Word) :
    (s.retire tid false target).waiters = s.waiters := by
  rw [State.retire_unmarked h, State.count_waiters]
  rfl

/-- A context written changes memory alone. -/
theorem Noted.writeContext (s : State) (tid i : Nat) (cause : Word) : Noted s (s.writeContext tid i cause) := by
  unfold State.writeContext
  split
  · exact .refl s
  · exact .vput ..

end Sys2Proof.Machine
end

section
/-! FORK, and the MT that it creates (R39, R232). -/
namespace Sys2Proof.Claim
open Machine
set_option Elab.async false
variable {s s' v : State} {t : Thread} {w : BitVec 1} {d a : BitVec 7} {n : BitVec 5} {j e : Word} {l : Loc}

/-- The creation of an MT: a thread added, counted by its launch, and pushed on the deque. -/
theorem spawnChild_eq (s : State) (t : Thread) (e : Word) (n : Nat) : s.spawnChild t e n =
    ((s.addThread (mtOf t.lnum (nextNumber s t.lnum) t.core e (t.x.take n) (t.taint.take n))).modLaunch t.lnum
      (fun l => { l with forked := l.forked + 1 })).pushDeque t.core s.nextTid := rfl

/-- The thread pushed stands at the bottom of the deque. -/
theorem getLast?_pushDeque (s : State) (c tid : Nat) : ((s.pushDeque c tid).core c).deque.getLast? = some tid := by
  rcases Nat.lt_or_ge (s.core c).deque.length 64 with h | h
  · rw [pushDeque_room s c tid h, List.getLast?_concat]
  · obtain ⟨-, rest, -, hcore, -⟩ := pushDeque_full s c tid h
    rw [hcore, List.getLast?_concat]

theorem thread_spawnChild (s : State) (t : Thread) (e : Word) (n m : Nat) : (s.spawnChild t e n).thread m =
    (s.addThread (mtOf t.lnum (nextNumber s t.lnum) t.core e (t.x.take n) (t.taint.take n))).thread m := by
  rw [spawnChild_eq]
  exact State.thread_congr ((State.pushDeque_threads ..).trans (State.modLaunch_threads ..)) m

theorem spawnChild_spec (hfree : s.thread s.nextTid = none) (t : Thread) (e : Word) (n : Nat) :
    let v := s.spawnChild t e n
    v.thread s.nextTid = some (mtOf t.lnum (nextNumber s t.lnum) t.core e (t.x.take n) (t.taint.take n)) ∧
    (∀ m, m ≠ s.nextTid → v.thread m = s.thread m) ∧ v.nextTid = s.nextTid + 1 ∧
    (v.core t.core).deque.getLast? = some s.nextTid ∧ v.mem = s.mem ∧
    v.launchOf t.lnum = (s.launchOf t.lnum).map (fun l => { l with forked := l.forked + 1 }) := by
  intro v
  refine ⟨(thread_spawnChild ..).trans (State.thread_addThread_self hfree _),
    fun m hm => (thread_spawnChild ..).trans (State.thread_addThread_of_ne s _ hm), ?_, getLast?_pushDeque .., ?_, ?_⟩
  · rw [show v = _ from spawnChild_eq .., State.pushDeque_eq]
    exact State.modLaunch_nextTid ..
  · rw [show v = _ from spawnChild_eq .., State.pushDeque_eq]
    exact State.modLaunch_mem ..
  · rw [show v = _ from spawnChild_eq .., State.launchOf_pushDeque, State.launchOf_modLaunch_self]
    rfl

/-- What FORK names. -/
def forkUse (d a : BitVec 7) (n : BitVec 5) : Use :=
  { srcs := [d.toNat, a.toNat], upto := n.toNat, role := if d.toNat ≠ 124 then .address else .any, acq := decide (d.toNat ≠ 124) }

/-- What the child that thread tid creates waits for, and its creation: at once, or once that has been performed (R232). -/
def forkIds (s : State) (tid : Nat) : List Nat := s.stillPending (s.releaseIds tid 4 ++ s.acquireIds tid)

def createAct (s : State) (tid : Nat) (t : Thread) (e : Word) (n : Nat) : Act :=
  if (forkIds s tid).isEmpty then .done (s.spawnChild t e n) else .release (.fork e n) (forkIds s tid) s

/-- What FORK does with the place of its join word. -/
def joinAct (s : State) (tid : Nat) (t : Thread) (j e : Word) (n : Nat) (place : Except TrapRec Loc) : Act :=
  match place with
  | .error r => .trap r.code r.tval
  | .ok l =>
    if ¬ (s.meetIds tid l.key 8 true).isEmpty then .stall (s.meetIds tid l.key 8 true)
    else
      s.whenLines [] [l] (createAct (match (s.noteTlb t.core j).poisoned l.key 8 with
        | some p => (s.noteTlb t.core j).queueTrap tid ⟨cECC, l.poisonAt p⟩
        | none => (s.noteTlb t.core j).addAt l 1 l.home) tid t e n)

def forkAct (s : State) (tid : Nat) (t : Thread) (join : Bool) (j e : Word) (n : Nat) : Act :=
  if e.toNat % 4 ≠ 0 then .trap cMISALIGNED e
  else if inPipeline s t = true then .trap cSTAGE allOnes
  else if join = true then joinAct s tid t j e n (s.locate t.who .atomic j 8) else createAct s tid t e n

theorem exec_fork (hr : Ready s t (forkUse d a n) [j, e] s') : exec (.fork w d a n) s =
    .next (s.finish s.cur t (forkUse d a n) (decide (w = 1)) (forkAct s' s.cur t (decide (d.toNat ≠ 124)) j e n.toNat)) := by
  have huse : forkUse d a n =
      { srcs := [d.toNat, a.toNat]
        upto := n.toNat
        role := if decide (d.toNat ≠ 124) = true then .address else .any
        acq := decide (d.toNat ≠ 124) } := by
    simp only [forkUse, decide_eq_true_eq]
  show execFork w d a n s = _
  rw [execFork, ← huse]
  refine (issue_ready hr).trans ?_
  refine congrArg (fun act => Host.Outcome.next (s.finish s.cur t _ _ act)) (if_congr Iff.rfl rfl (if_congr Iff.rfl rfl ?_))
  cases decide (d.toNat ≠ 124) with
  | false => rfl
  | true =>
    show _ = joinAct s' s.cur t j e n.toNat (s'.locate t.who .atomic j 8)
    cases hl : s'.locate t.who .atomic j 8 <;> simp only [show arg [j, e] 0 = j from rfl, hl] <;> rfl

/-- A join word that nothing holds back is incremented first. -/
theorem joinAct_creates {tid : Nat} (hl : s'.locate t.who .atomic j 8 = .ok l) (hids : s'.meetIds tid l.key 8 true = [])
    (hheld : s'.lineHeld l.key = false) (hshared : s'.lineShared l.key = false) (hclean : s'.poisoned l.key 8 = none) (e : Word) (n : Nat) :
    joinAct s' tid t j e n (s'.locate t.who .atomic j 8) = createAct ((s'.noteTlb t.core j).addAt l 1 l.home) tid t e n := by
  have hnote : OnlyTlbs s' (s'.noteTlb t.core j) := .noteTlb (State.leafed_of_locate hl)
  simp only [hl, joinAct, hids, List.isEmpty_nil, not_true, if_false]
  rw [State.whenLines_free (by simp) (by simpa using ⟨hheld, hshared⟩), hnote.poisoned, hclean]

section
variable (hr : Ready s t (forkUse d a n) [j, e] s')
include hr

theorem fork_traps_misaligned (h : e.toNat % 4 ≠ 0) : Traps (.fork w d a n) s t ⟨cMISALIGNED, e⟩ := by
  rw [Traps, exec_fork hr, forkAct, if_pos h]
  rfl

section
variable (he : e.toNat % 4 = 0)
include he

theorem fork_traps_stage (h : inPipeline s' t = true) : Traps (.fork w d a n) s t ⟨cSTAGE, allOnes⟩ := by
  rw [Traps, exec_fork hr, forkAct, if_neg (by omega), if_pos h]
  rfl

variable (hp : inPipeline s' t = false)
include hp

/-- The child is created in state v, or waits there for what FORK releases. -/
theorem fork_goes (hact : (if decide (d.toNat ≠ 124) = true then joinAct s' s.cur t j e n.toNat (s'.locate t.who .atomic j 8)
      else createAct s' s.cur t e n.toNat) = createAct v s.cur t e n.toNat) :
    (forkIds v s.cur = [] → Retires (.fork w d a n) s w (v.spawnChild t e n.toNat)) ∧
    (forkIds v s.cur ≠ [] → Releases (.fork w d a n) s w (.fork e n.toNat) (forkIds v s.cur) v) := by
  have hexec : exec (.fork w d a n) s = .next (s.finish s.cur t (forkUse d a n) (decide (w = 1)) (createAct v s.cur t e n.toNat)) := by
    rw [exec_fork hr, forkAct, if_neg (by omega), if_neg (by simp [hp]), hact]
  refine ⟨fun hids => ?_, fun hids => ?_⟩
  · rw [Retires, hexec, createAct, if_pos (by simp [hids])]
    rfl
  · rw [Releases, hexec, createAct, if_neg (by simpa using hids)]
    rfl

theorem fork_traps_join (hd : d.toNat ≠ 124) {r : TrapRec} (hl : s'.locate t.who .atomic j 8 = .error r) :
    Traps (.fork w d a n) s t r := by
  rw [Traps, exec_fork hr, forkAct, if_neg (by omega), if_neg (by simp [hp]), if_pos (by simpa using hd), hl]
  rfl

end
end

theorem forkCreatesMicrothread : ForkCreatesMicrothread := by
  refine ⟨fun w d a n s s' t j e hr => ⟨fork_traps_misaligned hr, fork_traps_stage hr, fun he hp => ⟨fun hd => ?_, fun hd =>
    ⟨fun r hl => fork_traps_join hr he hp hd hl, fun l hl hids hheld hshared hclean => ?_⟩⟩⟩, fun s t e n h => spawnChild_spec h t e n⟩
  · exact fork_goes hr he hp (if_neg (by simpa using hd))
  · exact fork_goes hr he hp ((if_pos (by simpa using hd)).trans (joinAct_creates hl hids hheld hshared hclean e n.toNat))

end Sys2Proof.Claim
end

section
/-! JOINW: where it passes, waits in its position, or gives it up (R50, R233). -/
namespace Sys2Proof.Claim
open Machine
set_option Elab.async false
variable {s s' : State} {t p : Thread} {u : Use} {w : BitVec 1} {a : BitVec 7} {x : Word} {l : Loc} {c tid i : Nat} {mk : Bool}

/-- The thread of an instruction that registers a waiter is BLOCKED, and nothing of it but its wait differs (R203). -/
theorem registers_thread {wt : Waiter} (ht : s.thread s.cur = some t) (hl : s.Leafed c x) :
    ∃ g, (s.finish s.cur t u mk (.register .word x (withWaiter c x wt))).thread s.cur =
      some { t with state := .blocked, wait := some g } := by
  have hblock := blockOn_eq ht .word x u.srcs u.dsts
  have hnote : OnlyTlbs (s.blockOn s.cur .word x u.srcs u.dsts) ((s.blockOn s.cur .word x u.srcs u.dsts).noteTlb c x) :=
    .noteTlb (by rw [hblock]; exact hl)
  obtain ⟨g, hg⟩ := finish_register_thread (s := s) (t := t) (u := u) (mk := mk) (f := withWaiter c x wt)
    ((hnote.thread s.cur).trans (by rw [hblock]; exact State.thread_setThread_self ..)) rfl
  exact ⟨_, hg⟩

/-- What JOINW names, and what it registers. -/
def joinwUse (a : BitVec 7) : Use := { srcs := [a.toNat], role := .address, acq := true }

def joinWaiter (tid : Nat) (l : Loc) (w : BitVec 1) : Waiter := ⟨tid, l, .joinw, 124, false, decide (w = 1)⟩

/-- The MT of thread t past its JOINW, its context in slot i. -/
def joinSaved (s : State) (tid : Nat) (t : Thread) (i : Nat) : State :=
  ((s.settle tid).retire tid false none).writeContext tid i t.csr.tcause

/-- The MT has given up its position, and waits at the home of its word (R50). -/
def joinLeft (s : State) (tid : Nat) (t : Thread) (l : Loc) (w : BitVec 1) (i : Nat) : State :=
  ({ (joinSaved s tid t i).modCore t.core (fun k => { k with ctxSlots := k.ctxSlots ++ [i] }) with
      waiters := (joinSaved s tid t i).waiters ++ [joinWaiter tid l w] } : State).modThread tid (fun t' =>
    { t' with state := .unplaced, place := none, slotIdx := some i, slotCore := t.core, slotLogged := false })

/-- What JOINW does at word l, its translation noted, for a word that is not poisoned. -/
def joinwAct (s : State) (tid : Nat) (t : Thread) (x : Word) (l : Loc) (w : BitVec 1) : Act :=
  if s.rdWord l.key = 0 then .done s
  else if t.kind ≠ .mt then .register .word x (withWaiter t.core x (joinWaiter tid l w))
  else if ¬ t.allReturned then .stall t.outIds
  else
    match firstFree (s.core t.core).ctxSlots 0 511 with
    | none => .left (s.logSlotWait tid t.core 0)
    | some i => .left (joinLeft s tid t l w i)

section
variable (hr : Ready s t (joinwUse a) [x] s') (hl : s'.locate t.who .atomic x 8 = .ok l)
  (hids : s'.meetIds s.cur l.key 8 true = []) (hheld : s'.lineHeld l.key = false) (hclean : s'.poisoned l.key 8 = none)
include hr hl hids hheld hclean

theorem exec_joinw : exec (.joinw w a) s = .next (s.finish s.cur t (joinwUse a) (decide (w = 1))
    (joinwAct (s'.noteTlb t.core x) s.cur t x l w)) := by
  have hnote : OnlyTlbs s' (s'.noteTlb t.core x) := .noteTlb (State.leafed_of_locate hl)
  show execJoinw w a s = _
  rw [execJoinw]
  refine (issue_ready hr).trans ?_
  simp only [show arg [x] 0 = x from rfl, hl, hids, List.isEmpty_nil, not_true, if_false, hnote.lineHeld, hheld, Bool.false_eq_true,
    hnote.poisoned, hclean, joinwAct]
  cases firstFree ((s'.noteTlb t.core x).core t.core).ctxSlots 0 511 <;> rfl

theorem joinw_passes (h : s'.rdWord l.key = 0) : Retires (.joinw w a) s w (s'.noteTlb t.core x) := by
  have hnote : OnlyTlbs s' (s'.noteTlb t.core x) := .noteTlb (State.leafed_of_locate hl)
  rw [Retires, exec_joinw hr hl hids hheld hclean, joinwAct, if_pos (by rwa [hnote.rdWord]), State.finish_done]

section
variable (h : s'.rdWord l.key ≠ 0)
include h

theorem joinw_registers (hk : t.kind ≠ .mt) :
    ∃ v u wt, exec (.joinw w a) s = .next v ∧ v.thread s.cur = some u ∧ u.state = .blocked ∧ u.place = t.place ∧
      u.wait = some wt ∧ wt.what = .word ∧ v.waiters = s'.waiters ++ [joinWaiter s.cur l w] ∧ ∀ k, v.rdByte k = s'.rdByte k := by
  have hnote : OnlyTlbs s' (s'.noteTlb t.core x) := .noteTlb (State.leafed_of_locate hl)
  have hleaf : s.Leafed t.core x := hr.dequeued.leafed (State.leafed_of_locate hl)
  obtain ⟨v, q, g, hv, hq, hstate, hg, hwhat, hwaiters, hbytes⟩ := registers (u := joinwUse a) (mk := decide (w = 1))
    (wt := joinWaiter s.cur l w) hr.here hleaf
  obtain ⟨g', hg'⟩ := registers_thread (u := joinwUse a) (mk := decide (w = 1)) (wt := joinWaiter s.cur l w) hr.here hleaf
  rw [hv, hq] at hg'
  refine ⟨v, q, g, ?_, hq, hstate, by rw [Option.some.inj hg'], hg, hwhat, hr.dequeued.waiters ▸ hwaiters,
    fun k => (hbytes k).trans (hr.dequeued.rdByte k).symm⟩
  rw [exec_joinw hr hl hids hheld hclean, joinwAct, if_neg (by rwa [hnote.rdWord]), if_pos hk, ← hv]

section
variable (hk : t.kind = .mt)
include hk

theorem joinw_stalls (hret : t.allReturned = false) : Stalls (.joinw w a) s t (joinwUse a) t.outIds := by
  have hnote : OnlyTlbs s' (s'.noteTlb t.core x) := .noteTlb (State.leafed_of_locate hl)
  refine stalls_of_exec ?_ hr.here
  rw [exec_joinw hr hl hids hheld hclean, joinwAct, if_neg (by rwa [hnote.rdWord]), if_neg (not_not.mpr hk), if_pos (by simp [hret])]
  rfl

theorem exec_joinw_leaves (hret : t.allReturned = true) (hfree : firstFree (s'.core t.core).ctxSlots 0 511 = some i) :
    exec (.joinw w a) s = .next (joinLeft (s'.noteTlb t.core x) s.cur t l w i) := by
  have hnote : OnlyTlbs s' (s'.noteTlb t.core x) := .noteTlb (State.leafed_of_locate hl)
  rw [exec_joinw hr hl hids hheld hclean, joinwAct, if_neg (by rwa [hnote.rdWord]), if_neg (not_not.mpr hk), if_neg (by simp [hret]),
    hnote.core, hfree]
  rfl

end
end
end

/-- The MT that has given up its position is UNPLACED, in its context slot, and its waiter stands at the home. -/
theorem joinLeft_spec (hp : s.thread tid = some p) (t : Thread) (l : Loc) (w : BitVec 1) (i : Nat) :
    ∃ u, (joinLeft s tid t l w i).thread tid = some u ∧ u.state = .unplaced ∧ u.place = none ∧ u.slotIdx = some i ∧
      u.slotCore = t.core ∧ i ∈ ((joinLeft s tid t l w i).core t.core).ctxSlots ∧
      (joinLeft s tid t l w i).waiters = s.waiters ++ [joinWaiter tid l w] := by
  obtain ⟨q, hq⟩ := State.thread_settle_self hp
  have hretired := State.thread_retire_unmarked hq none
  have hsaved : Noted _ (joinSaved s tid t i) := .writeContext ..
  have hthere := State.modThread_of_some (s := ({ (joinSaved s tid t i).modCore t.core (fun k =>
    { k with ctxSlots := k.ctxSlots ++ [i] }) with waiters := (joinSaved s tid t i).waiters ++ [joinWaiter tid l w] } : State))
    ((hsaved.thread tid).trans hretired) (fun t' =>
      { t' with state := .unplaced, place := none, slotIdx := some i, slotCore := t.core, slotLogged := false })
  refine ⟨_, (congrArg (fun v => State.thread v tid) hthere).trans (State.thread_setThread_self ..), rfl, rfl, rfl, rfl, ?_, ?_⟩
  · have hcores : (joinLeft s tid t l w i).cores = ((joinSaved s tid t i).modCore t.core (fun k =>
        { k with ctxSlots := k.ctxSlots ++ [i] })).cores := State.modThread_cores ..
    rw [State.core_congr hcores, State.core_modCore_self]
    exact List.mem_concat_self
  · rw [joinLeft, State.modThread_waiters]
    show (joinSaved s tid t i).waiters ++ _ = _
    rw [hsaved.waiters, State.retire_unmarked_waiters hq, State.settle_waiters]

theorem joinWaits : JoinWaits := by
  refine fun w a s s' t x l hr hl hids hheld hclean => ⟨joinw_passes hr hl hids hheld hclean, joinw_registers hr hl hids hheld hclean,
    joinw_stalls hr hl hids hheld hclean, fun i h hk hret hfree => ?_⟩
  have hnote : OnlyTlbs s' (s'.noteTlb t.core x) := .noteTlb (State.leafed_of_locate hl)
  obtain ⟨-, p, hp⟩ := hr.still_here
  obtain ⟨u, hu, hstate, hplace, hslot, hcore, hmem, hwaiters⟩ := joinLeft_spec ((hnote.thread s.cur).trans hp) t l w i
  exact ⟨_, u, exec_joinw_leaves hr hl hids hheld hclean h hk hret hfree, hu, hstate, hplace, hslot, hcore, hmem,
    hwaiters.trans (by rw [hnote.waiters]; rfl)⟩

/-- Settles O21: what FORK creates and when, and what JOINW finds at its word. -/
theorem forkAndJoin : Obligations.ForkAndJoin := ⟨forkCreatesMicrothread, joinWaits⟩

end Sys2Proof.Claim
end

section
/-! LAUNCH: what it checks, and what it submits (R234). -/
namespace Sys2Proof.Claim
open Machine
set_option Elab.async false
variable {s s' : State} {t : Thread} {w : BitVec 1} {a : BitVec 7} {x : Word} {ls ts : List Loc} {p : Loc} {e : TrapRec}

/-- What LAUNCH names. -/
def launchUse (a : BitVec 7) : Use := { srcs := [a.toNat], role := .address, rel := some 4 }

/-- What LAUNCH does with a block of kind PIPELINE whose stage table stands at address b, the place of word 16 at p. -/
def tableAct (s : State) (tid : Nat) (t : Thread) (x b : Word) (ws : List Word) (p : Loc) : Act :=
  if bits b 63 56 ≠ 0 then .trap cPERMISSION b
  else
    match s.checkWords t.who b 72 with
    | .error e => .trap e.code e.tval
    | .ok ts => s.whenLines (ts.map (fun l => l.key)) []
        (.done ((s.noteTlb t.core b).submit tid t.core ws x t.user (s.wordsAt ts) (some p)))

/-- What LAUNCH does with the words of its block, their translation noted. -/
def launchAct (s : State) (tid : Nat) (t : Thread) (x : Word) (ws : List Word) (p : Loc) : Act :=
  if bits (nth ws 0 0) 3 0 = 2 ∧ (nth ws 4 0).toNat % 64 = 0 then tableAct s tid t x (nth ws 4 0) ws p
  else .done (s.submit tid t.core ws x t.user [] (some p))

/-- What LAUNCH does with the block at address x (R234). -/
def blockAct (s : State) (tid : Nat) (t : Thread) (x : Word) : Act :=
  if x.toNat % 8 ≠ 0 then .trap cMISALIGNED x
  else if bits x 63 56 ≠ 0 then .trap cPERMISSION x
  else
    match s.checkWords t.who x 16 with
    | .error e => .trap e.code e.tval
    | .ok ls =>
      match s.locate' t.who .store (x + 128) 8 with
      | .error e => .trap e.code e.tval
      | .ok p => s.whenLines (ls.map (fun l => l.key)) [] (launchAct (s.noteTlb t.core x) tid t x (s.wordsAt ls) p)

section
variable (hr : Ready s t (launchUse a) [x] s')
include hr

theorem exec_launch : exec (.launch w a) s =
    .next (s.finish s.cur t (launchUse a) (decide (w = 1)) (blockAct s' s.cur t x)) := by
  show execLaunch w a s = _
  rw [execLaunch]
  refine (issue_ready hr).trans ?_
  refine congrArg (fun act => Host.Outcome.next (s.finish s.cur t _ _ act)) (if_congr Iff.rfl rfl (if_congr Iff.rfl rfl ?_))
  rw [show arg [x] 0 = x from rfl]
  cases s'.checkWords t.who x 16 with
  | error e => rfl
  | ok ls =>
    dsimp only
    cases s'.locate' t.who .store (x + 128) 8 with
    | error e => rfl
    | ok p =>
      refine congrArg (s'.whenLines _ _) (if_congr Iff.rfl (if_congr Iff.rfl rfl ?_) rfl)
      cases (s'.noteTlb t.core x).checkWords t.who (nth (s'.wordsAt ls) 4 0) 72 <;> rfl

theorem launch_traps_misaligned (h : x.toNat % 8 ≠ 0) : Traps (.launch w a) s t ⟨cMISALIGNED, x⟩ := by
  rw [Traps, exec_launch hr, blockAct, if_pos h]
  rfl

section
variable (h8 : x.toNat % 8 = 0)
include h8

theorem launch_traps_permission (h : bits x 63 56 ≠ 0) : Traps (.launch w a) s t ⟨cPERMISSION, x⟩ := by
  rw [Traps, exec_launch hr, blockAct, if_neg (not_not.mpr h8), if_pos h]
  rfl

section
variable (hg : bits x 63 56 = 0)
include hg

theorem launch_traps_load (hc : s'.checkWords t.who x 16 = .error e) : Traps (.launch w a) s t e := by
  rw [Traps, exec_launch hr, blockAct, if_neg (not_not.mpr h8), if_neg (not_not.mpr hg), hc]
  rfl

section
variable (hc : s'.checkWords t.who x 16 = .ok ls)
include hc

theorem launch_traps_store (hp : s'.locate' t.who .store (x + 128) 8 = .error e) : Traps (.launch w a) s t e := by
  rw [Traps, exec_launch hr, blockAct, if_neg (not_not.mpr h8), if_neg (not_not.mpr hg), hc, hp]
  rfl

theorem launch_cases (hfree : ∀ l ∈ ls, s'.lineHeld l.key = false) (hp : s'.locate' t.who .store (x + 128) 8 = .ok p) :
    let ws := s'.wordsAt ls
    let stages := nth ws 4 0
    let v := s'.noteTlb t.core x
    (bits (nth ws 0 0) 3 0 ≠ 2 ∨ stages.toNat % 64 ≠ 0 →
      Retires (.launch w a) s w (v.submit s.cur t.core ws x t.user [] (some p))) ∧
    (bits (nth ws 0 0) 3 0 = 2 → stages.toNat % 64 = 0 → bits stages 63 56 ≠ 0 →
      Traps (.launch w a) s t ⟨cPERMISSION, stages⟩) ∧
    (∀ ts, bits (nth ws 0 0) 3 0 = 2 → stages.toNat % 64 = 0 → bits stages 63 56 = 0 →
      v.checkWords t.who stages 72 = .ok ts → (∀ l ∈ ts, v.lineHeld l.key = false) →
      Retires (.launch w a) s w ((v.noteTlb t.core stages).submit s.cur t.core ws x t.user (v.wordsAt ts) (some p))) := by
  have hexec : exec (.launch w a) s = .next (s.finish s.cur t (launchUse a) (decide (w = 1))
      (launchAct (s'.noteTlb t.core x) s.cur t x (s'.wordsAt ls) p)) := by
    rw [exec_launch hr, blockAct, if_neg (not_not.mpr h8), if_neg (not_not.mpr hg), hc, hp]
    dsimp only
    rw [State.whenLines_free (by simpa using hfree) (by simp)]
  refine ⟨fun h => ?_, fun hk ha hb => ?_, fun ts hk ha hb hts htable => ?_⟩
  · rw [Retires, hexec, launchAct, if_neg (not_and_or.mpr h), State.finish_done]
  · rw [Traps, hexec, launchAct, if_pos ⟨hk, ha⟩, tableAct, if_pos hb]
    rfl
  · rw [Retires, hexec, launchAct, if_pos ⟨hk, ha⟩, tableAct, if_neg (not_not.mpr hb), hts]
    dsimp only
    rw [State.whenLines_free (by simpa using htable) (by simp), State.finish_done]

end
end
end
end

theorem launchSubmits : LaunchSubmits := fun _ _ _ _ _ _ hr =>
  ⟨launch_traps_misaligned hr, launch_traps_permission hr, fun h8 hg => ⟨fun _ hc => launch_traps_load hr h8 hg hc,
    fun _ hc hfree => ⟨fun _ hp => launch_traps_store hr h8 hg hc hp, fun _ hp => launch_cases hr h8 hg hc hfree hp⟩⟩⟩

end Sys2Proof.Claim
end

section
/-! A block submitted: the number of the launch, and what its start leaves alone (R38, R39). -/
namespace Sys2Proof.Claim
open Machine
set_option Elab.async false
variable {s v : State} {n m : Nat} {k l : Launch} {A : List Access} {α : Type}

theorem mem_keys_of_look {β : Type} {l : Tab β} {k : Nat} {a : β} (h : look l k = some a) : k ∈ l.map (fun e => e.1) := by
  by_contra hk
  rw [look_of_notMem hk] at h
  cases h

/-- With fewer than 16,384 launches the next number is one that no launch has. -/
theorem launchNumber_free (h : s.launches.length < 16384) :
    s.launchOf s.launchNumber = none ∧ s.launchNumber < 16384 := by
  unfold State.launchNumber
  cases hfind : ((List.range 16384).map (fun i => (s.nextLnum + i) % 16384)).find? (fun n => (s.launchOf n).isNone) with
  | some n =>
    obtain ⟨i, -, hi⟩ := List.mem_map.mp (List.mem_of_find?_eq_some hfind)
    refine ⟨Option.isNone_iff_eq_none.mp (List.find?_some (p := fun n => (s.launchOf n).isNone) hfind), ?_⟩
    rw [Option.getD_some, ← hi]
    exact Nat.mod_lt _ (by decide)
  | none =>
    have hall : List.range 16384 ⊆ s.launches.map (fun e => e.1) := by
      intro n hn
      have hn' := List.mem_range.mp hn
      have htaken := List.find?_eq_none.mp hfind n (List.mem_map.mpr
        ⟨(n + 16384 - s.nextLnum % 16384) % 16384, List.mem_range.mpr (Nat.mod_lt _ (by decide)), by omega⟩)
      obtain ⟨l, hl⟩ := Option.ne_none_iff_exists'.mp (mt Option.isNone_iff_eq_none.mpr htaken)
      exact mem_keys_of_look hl
    have hlen := (List.nodup_range.subperm hall).length_le
    rw [List.length_range, List.length_map] at hlen
    omega

/-- Launch n is there with the block of k, A are the accesses, and m is the next number. -/
structure Accepted (n : Nat) (k : Launch) (A : List Access) (m : Nat) (s : State) : Prop where
  there : ∃ l, s.launchOf n = some l ∧ l.words = k.words ∧ l.addr = k.addr ∧ l.user = k.user
  accs : s.accs = A
  next : s.nextLnum = m

theorem Accepted.frame (h : Accepted n k A m s) (hl : v.launches = s.launches := by rfl) (ha : v.accs = s.accs := by rfl)
    (hn : v.nextLnum = s.nextLnum := by rfl) : Accepted n k A m v where
  there := by
    rw [State.launchOf, hl]
    exact h.there
  accs := ha.trans h.accs
  next := hn.trans h.next

theorem Accepted.ite {c : Prop} {d : Decidable c} {a b : State} (ha : Accepted n k A m a) (hb : Accepted n k A m b) :
    Accepted n k A m (if c then a else b) := by
  split <;> assumption

theorem Accepted.foldl {f : State → α → State} {l : List α} (h : Accepted n k A m s)
    (hf : ∀ s e, Accepted n k A m s → Accepted n k A m (f s e)) : Accepted n k A m (l.foldl f s) :=
  List.foldlRecOn l f h fun s hs e _ => hf s e hs

theorem Accepted.pushDeque {c tid : Nat} (h : Accepted n k A m s) : Accepted n k A m (s.pushDeque c tid) := by
  rw [State.pushDeque_eq]
  exact h.frame

theorem Accepted.addBound {t : Thread} (h : Accepted n k A m s) : Accepted n k A m (s.addBound t) :=
  .ite (.ite h.frame (h.frame (v := s.addThread t)).pushDeque) h.frame

/-- A change of launches that keeps their blocks. -/
theorem Accepted.modLaunch {i : Nat} {f : Launch → Launch} (h : Accepted n k A m s)
    (hf : ∀ l, (f l).words = l.words ∧ (f l).addr = l.addr ∧ (f l).user = l.user) : Accepted n k A m (s.modLaunch i f) where
  there := by
    obtain ⟨l, hl, hwords, haddr, huser⟩ := h.there
    obtain ⟨hw, ha, hu⟩ := hf l
    by_cases hi : n = i
    · subst hi
      exact ⟨f l, by rw [State.launchOf_modLaunch_self, hl, Option.map_some], hw.trans hwords, ha.trans haddr, hu.trans huser⟩
    · refine ⟨l, ?_, hwords, haddr, huser⟩
      unfold State.modLaunch
      split
      · rwa [State.launchOf_setLaunch_of_ne _ _ hi]
      · exact hl
  accs := (State.modLaunch_accs ..).trans h.accs
  next := (State.modLaunch_nextLnum ..).trans h.next

theorem Accepted.createThreads {i : Nat} (h : Accepted n k A m s) : Accepted n k A m (s.createThreads i l) := by
  unfold State.createThreads
  refine Accepted.modLaunch ?_ fun _ => ⟨rfl, rfl, rfl⟩
  split
  · exact h.foldl fun _ _ h1 => h1.foldl fun _ _ h2 => h2.addBound
  · exact h.foldl fun s _ h1 => (h1.frame (v := s.addThread _)).pushDeque
  · refine h.foldl fun _ _ h1 => ?_
    extract_lets
    split
    exacts [h1, h1.foldl fun _ _ h2 => h2.addBound]

theorem Accepted.startLaunches (h : Accepted n k A m s) : Accepted n k A m s.startLaunches :=
  h.foldl fun _ _ h1 => by
    split
    exacts [.ite h1 h1.createThreads, h1]

/-- The write of word 16 that a submission issues for thread tid (R38). -/
def word16Write (s : State) (tid core : Nat) (p : Loc) (x : Word) : State :=
  s.issueAcc tid core p (.store (bytesOf 8 x.toNat)) false []

section
variable (s) (tid core : Nat) (ws : List Word) (a : Word) (user : Bool) (table : List Word) (p : Loc)

/-- A rejected block leaves its word 16 alone. -/
theorem submit_rejected (h : s.launchReason ws a table ≠ 0) :
    s.submit tid core ws a user table (some p) = word16Write s tid core p (word16 0 3 (s.launchReason ws a table)) := by
  have hx : s.submitted ws a table = word16 0 3 (s.launchReason ws a table) := if_neg h
  rw [← hx]
  exact if_pos h

/-- An accepted block becomes a launch under the next number. -/
theorem submit_accepted (h : s.launchReason ws a table = 0) (hroom : s.launches.length < 16384) :
    Accepted s.launchNumber (bareLaunch ws a user) (word16Write s tid core p (word16 s.launchNumber 0 0)).accs
      ((s.launchNumber + 1) % 16384) (s.submit tid core ws a user table (some p)) := by
  have hx : s.submitted ws a table = word16 s.launchNumber 0 0 := if_pos h
  obtain ⟨hnone, -⟩ := launchNumber_free hroom
  rw [← hx]
  unfold State.submit
  extract_lets reason n x id s1 b l0 l1
  have hs1 : s1.launches = s.launches := rfl
  have hblock : l1.words = ws ∧ l1.addr = a ∧ l1.user = user := by
    unfold l1
    split <;> exact ⟨rfl, rfl, rfl⟩
  rw [if_neg (not_not.mpr h)]
  refine Accepted.startLaunches ⟨⟨l1, ?_, hblock⟩, rfl, rfl⟩
  rw [State.launchOf, hs1, look_append_right hnone]
  exact if_pos rfl

end

end Sys2Proof.Claim
end

section
/-! The stages of a pipeline in an order without a cycle (R52): what the removal of stages without an input leaves. -/
namespace Sys2Proof.Claim
open Machine
set_option Elab.async false
variable {E : List (Nat × Nat)} {L : List Nat} {n : Nat}

/-- The stages of a list that another of it leads to. -/
def ledTo (E : List (Nat × Nat)) (L : List Nat) : List Nat := L.filter (fun b => E.any (fun e => decide (e.2 = b ∧ e.1 ∈ L)))

theorem mem_ledTo {b : Nat} : b ∈ ledTo E L ↔ b ∈ L ∧ ∃ k, (k, b) ∈ E ∧ k ∈ L := by
  simp [ledTo]

/-- A ranking of stages shows that no cycle is left. -/
theorem peel_of_rank {rank : Nat → Nat} (hrank : ∀ k b, (k, b) ∈ E → rank k < rank b) (hn : L.length ≤ n) : peel E L n = [] := by
  induction n generalizing L with
  | zero => exact List.length_eq_zero_iff.mp (Nat.le_zero.mp hn)
  | succ n ih =>
    show peel E (ledTo E L) n = []
    refine ih ?_
    rcases L.eq_nil_or_concat with rfl | ⟨r, a, hL⟩
    · exact Nat.zero_le _
    · have hne : L.toFinset.Nonempty := ⟨a, by simp [hL]⟩
      obtain ⟨b, hb, hmin⟩ := L.toFinset.exists_min_image rank hne
      have hb' : b ∉ ledTo E L := by
        rw [mem_ledTo]
        rintro ⟨-, k, hk, hkL⟩
        exact absurd (hrank k b hk) (Nat.not_lt.mpr (hmin k (List.mem_toFinset.mpr hkL)))
      have hlt : (ledTo E L).length < L.length := List.length_filter_lt_length_iff_exists.mpr
        ⟨b, List.mem_toFinset.mp hb, fun hkept => hb' (List.mem_filter.mpr ⟨List.mem_toFinset.mp hb, hkept⟩)⟩
      omega

/-- The rank of a stage: how many removals it outlasts. -/
def rankIn (E : List (Nat × Nat)) (L : List Nat) (n b : Nat) : Nat :=
  match n with
  | 0 => 0
  | n + 1 => if b ∈ ledTo E L then rankIn E (ledTo E L) n b + 1 else 0

theorem rankIn_lt (h : peel E L n = []) {k b : Nat} (he : (k, b) ∈ E) (hk : k ∈ L) (hb : b ∈ L) :
    rankIn E L n k < rankIn E L n b := by
  induction n generalizing L with
  | zero =>
    rw [show L = [] from h] at hk
    cases hk
  | succ n ih =>
    have hb' : b ∈ ledTo E L := mem_ledTo.mpr ⟨hb, k, he, hk⟩
    rw [rankIn, rankIn, if_pos hb']
    split
    · next hk' => exact Nat.succ_lt_succ (ih h hk' hb')
    · exact Nat.succ_pos _

theorem filter_length_one {α : Type} {l : List α} (hl : l.Nodup) (p : α → Bool) :
    (l.filter p).length = 1 ↔ ∃ a, a ∈ l ∧ p a = true ∧ ∀ b, b ∈ l → p b = true → b = a := by
  constructor
  · intro h
    obtain ⟨a, ha⟩ := List.length_eq_one_iff.mp h
    have hmem (b : α) : b ∈ l ∧ p b = true ↔ b = a := by rw [← List.mem_filter, ha, List.mem_singleton]
    obtain ⟨hal, hpa⟩ := (hmem a).mpr rfl
    exact ⟨a, hal, hpa, fun b hb hp => (hmem b).mp ⟨hb, hp⟩⟩
  · rintro ⟨a, ha, hp, hall⟩
    have hperm : (l.filter p).Perm [a] := (List.perm_ext_iff_of_nodup (hl.filter p) (List.nodup_singleton a)).mpr fun b => by
      rw [List.mem_filter, List.mem_singleton]
      exact ⟨fun ⟨hb, hpb⟩ => hall b hb hpb, fun e => e ▸ ⟨ha, hp⟩⟩
    exact hperm.length_eq

end Sys2Proof.Claim
end

section
/-! A valid stage table (R51, R52), and the template rules (R38). -/
namespace Sys2Proof.Claim
open Machine
set_option Elab.async false
variable {t : List Word} {n k j m : Nat}

theorem templateOk_iff {slen vlen resid slots role : Nat} {mt : Bool} :
    templateOk slen vlen resid slots role mt = true ↔ Template slen vlen resid slots role mt := by
  unfold templateOk Template
  cases mt <;> simp [and_assoc]

/-- A word of an entry of a table is one of the table. -/
theorem nth_entry (t : List Word) (m : Nat) (hj : j < 4) : nth ((t.drop m).take 4) j 0 = nth t (m + j) 0 := by
  simp [nth, List.getD_eq_getElem?_getD, hj, List.getElem?_drop]

/-- The fields of a stage that the validity of its table speaks of. -/
theorem stageOf_entry (t : List Word) (k : Nat) : stageOf ((t.drop (8 + 4 * k)).take 4) =
    { entry := nth t (8 + 4 * k) 0, inq := stageField t k 1 6 0, outa := stageField t k 1 13 7, outb := stageField t k 1 20 14,
      role := roleOf (stageField t k 1 22 21), kind := kindOf (bitAt (nth t (8 + 4 * k + 1) 0) 23), slen := stageField t k 1 30 24,
      vlen := stageField t k 1 36 31, resid := stageField t k 1 40 37, slots := stageField t k 1 44 41,
      minc := stageField t k 2 15 0, maxc := stageField t k 2 31 16, arg := nth t (8 + 4 * k + 3) 0 } := by
  simp only [stageOf, nth_entry t _ (show 0 < 4 by decide), nth_entry t _ (show 1 < 4 by decide), nth_entry t _ (show 2 < 4 by decide),
    nth_entry t _ (show 3 < 4 by decide), stageField, Nat.add_zero]

/-- The ways from one stage of a table of m stages to another. -/
def stageEdges (t : List Word) (m : Nat) : List (Nat × Nat) :=
  (List.range m).flatMap (fun k => ((List.range m).filter (fun b => decide (b ≠ 0) &&
    decide (stageField t b 1 6 0 = stageField t k 1 13 7 ∨ stageField t b 1 6 0 = stageField t k 1 20 14))).map (fun b => (k, b)))

theorem mem_stageEdges {b : Nat} : (k, b) ∈ stageEdges t m ↔ k < m ∧ b < m ∧ b ≠ 0 ∧
    (stageField t b 1 6 0 = stageField t k 1 13 7 ∨ stageField t b 1 6 0 = stageField t k 1 20 14) := by
  simp [stageEdges]

/-- No cycle is left just where the stages have a ranking. -/
theorem peel_stageEdges_iff : peel (stageEdges t m) (List.range m) m = [] ↔
    ∃ rank : Nat → Nat, ∀ k b, k < m → b < m → b ≠ 0 →
      stageField t b 1 6 0 = stageField t k 1 13 7 ∨ stageField t b 1 6 0 = stageField t k 1 20 14 → rank k < rank b := by
  constructor
  · intro h
    exact ⟨_, fun k b hk hb h0 hway => rankIn_lt h (mem_stageEdges.mpr ⟨hk, hb, h0, hway⟩) (List.mem_range.mpr hk) (List.mem_range.mpr hb)⟩
  · rintro ⟨rank, hrank⟩
    refine peel_of_rank (rank := rank) (fun k b he => ?_) (by rw [List.length_range])
    obtain ⟨hk, hb, h0, hway⟩ := mem_stageEdges.mp he
    exact hrank k b hk hb h0 hway

/-- The check of a table finds what R51 and R52 ask of it. -/
theorem stageTableOk_iff : stageTableOk t n = true ↔ TableValid t n := by
  have hedges : (List.range (bits (nth t 0 0) 3 0)).flatMap (fun k => ((List.range (bits (nth t 0 0) 3 0)).filter (fun b =>
      decide (b ≠ 0) && decide (stageField t b 1 6 0 = stageField t k 1 13 7 ∨ stageField t b 1 6 0 = stageField t k 1 20 14))).map
        (fun b => (k, b))) = stageEdges t (bits (nth t 0 0) 3 0) := rfl
  unfold stageTableOk
  simp only [stageOf_entry, Bool.and_eq_true, decide_eq_true_eq, List.all_eq_true, List.mem_range, templateOk_iff, hedges,
    nth_entry t _ (show 1 < 4 by decide), nth_entry t _ (show 2 < 4 by decide), filter_length_one List.nodup_range,
    List.isEmpty_iff, peel_stageEdges_iff, total_eq_sum, eq_iff_iff]
  constructor
  · rintro ⟨⟨⟨⟨⟨⟨⟨hzero, hst1, hst8, hq1, hq16, hbal⟩, hwords⟩, hentries⟩, hinputs⟩, hqueues⟩, hacyclic⟩, hcores⟩
    refine ⟨⟨hst1, hst8⟩, ⟨hq1, hq16⟩, hbal, ⟨hzero, hwords⟩, fun k hk => ?_, fun q hq => ⟨hinputs q hq, hqueues q hq⟩,
      hacyclic, hcores⟩
    obtain ⟨⟨⟨⟨⟨⟨⟨hw1, hw2, hrole⟩, htemplate⟩, hinq⟩, houta⟩, houtb⟩, hfirst⟩, hcount⟩ := hentries k hk
    refine ⟨hw1, hw2, hrole, htemplate, ?_, hfirst, hcount⟩
    exact List.forall_mem_cons.mpr ⟨hinq, List.forall_mem_cons.mpr ⟨houta, List.forall_mem_singleton.mpr houtb⟩⟩
  · rintro ⟨⟨hst1, hst8⟩, ⟨hq1, hq16⟩, hbal, ⟨hzero, hwords⟩, hentries, hinputs, hacyclic, hcores⟩
    refine ⟨⟨⟨⟨⟨⟨⟨hzero, hst1, hst8, hq1, hq16, hbal⟩, hwords⟩, fun k hk => ?_⟩, fun q hq => (hinputs q hq).1⟩,
      fun q hq => (hinputs q hq).2⟩, hacyclic⟩, hcores⟩
    obtain ⟨hw1, hw2, hrole, htemplate, hnamed, hfirst, hcount⟩ := hentries k hk
    obtain ⟨hinq, hnamed⟩ := List.forall_mem_cons.mp hnamed
    obtain ⟨houta, hnamed⟩ := List.forall_mem_cons.mp hnamed
    have houtb := hnamed _ (List.mem_singleton_self _)
    exact ⟨⟨⟨⟨⟨⟨⟨hw1, hw2, hrole⟩, htemplate⟩, hinq⟩, houta⟩, houtb⟩, hfirst⟩, hcount⟩

end Sys2Proof.Claim
end

section
/-! The reason of a rejection: the lowest whose cause holds (R38). -/
namespace Sys2Proof.Claim
open Machine
set_option Elab.async false
variable {s : State} {ws table : List Word} {a : Word} {i k : Nat} {l : List Prop}

open Classical in
/-- The number, counted from k + 1, of the first of some causes that holds; 0 where none does. -/
noncomputable def firstFrom (k : Nat) (l : List Prop) : Nat :=
  match l with
  | [] => 0
  | c :: r => if c then k + 1 else firstFrom (k + 1) r

theorem firstFrom_eq_zero : firstFrom k l = 0 ↔ ∀ c ∈ l, ¬ c := by
  induction l generalizing k with
  | nil => simp [firstFrom]
  | cons c r ih =>
    rw [firstFrom, List.forall_mem_cons]
    by_cases hc : c
    · simp [hc]
    · rw [if_neg hc, ih]
      exact ⟨fun h => ⟨hc, h⟩, fun h => h.2⟩

/-- None of the causes has a number below their first. -/
theorem firstFrom_bound : firstFrom k l = 0 ∨ k < firstFrom k l := by
  induction l generalizing k with
  | nil => exact .inl rfl
  | cons c r ih =>
    rw [firstFrom]
    split
    · exact .inr (Nat.lt_succ_self k)
    · exact ih.imp id Nat.lt_of_succ_lt

theorem firstFrom_eq_succ : firstFrom k l = k + i + 1 ↔ ∃ c, l[i]? = some c ∧ c ∧ ∀ b ∈ l.take i, ¬ b := by
  induction l generalizing k i with
  | nil =>
    refine iff_of_false (fun h => ?_) fun ⟨_, h, _⟩ => ?_
    · cases h
    · cases h
  | cons c r ih =>
    have hbound := firstFrom_bound (k := k + 1) (l := r)
    rw [firstFrom]
    by_cases hc : c
    · rw [if_pos hc]
      cases i with
      | zero => exact ⟨fun _ => ⟨c, rfl, hc, fun _ hb => nomatch hb⟩, fun _ => rfl⟩
      | succ i =>
        refine iff_of_false (by omega) fun ⟨_, _, _, hnone⟩ => ?_
        exact hnone c List.mem_cons_self hc
    · rw [if_neg hc]
      cases i with
      | zero =>
        refine iff_of_false (by omega) fun ⟨_, hd, hd', _⟩ => ?_
        exact hc (Option.some.inj hd ▸ hd')
      | succ i =>
        rw [show k + (i + 1) + 1 = k + 1 + i + 1 by omega, ih]
        refine exists_congr fun d => and_congr_right fun _ => and_congr_right fun _ => ?_
        rw [List.take_succ_cons, List.forall_mem_cons]
        exact (and_iff_right hc).symm

theorem firstFrom_cons {c d : Prop} [Decidable d] {x : Nat} (h : d ↔ c) (hx : x = firstFrom (k + 1) l) :
    (if d then k + 1 else x) = firstFrom k (c :: l) := by
  rw [firstFrom, hx]
  by_cases hc : c
  · rw [if_pos hc, if_pos (h.mpr hc)]
  · rw [if_neg hc, if_neg (mt h.mp hc)]

theorem cores_eq_filter (user : Bool) : (bareLaunch ws a user).cores = (List.range 2048).filter (inSet (nth ws 2 0)) :=
  List.filter_congr fun c hc => by
    simp only [Launch.hasCore, inSet, bitAt, List.mem_range.mp hc, decide_true, Bool.and_true]
    rfl

theorem not_eq_true_iff {b : Bool} {p : Prop} (h : b = true ↔ p) : (!b) = true ↔ ¬ p := by
  rw [Bool.not_eq_true', ← Bool.not_eq_true, h]

/-- The reason found is the first of the causes of R37 and R38. -/
theorem launchReason_eq : s.launchReason ws a table = firstFrom 0 (causes s ws a table) := by
  have hpipe : (bareLaunch ws a true).pipeline = true ↔ bits (nth ws 0 0) 3 0 = 2 := decide_eq_true_iff
  have hcores : (bareLaunch ws a true).cores = (List.range 2048).filter (inSet (nth ws 2 0)) := cores_eq_filter true
  unfold State.launchReason
  extract_lets l w cpa stages role cores cpaOk
  have hplace : (!cpaOk) = true ↔
      (l.cmpl = 0 ∧ cpa ≠ 0) ∨ (l.cmpl = 1 ∧ cpa.toNat % 8 ≠ 0) ∨ (l.cmpl = 2 ∧ bits cpa 63 15 ≠ 0) := by
    unfold cpaOk
    split <;> simp_all
  refine firstFrom_cons (or_congr Iff.rfl (or_congr Iff.rfl (and_congr_left' hpipe))) ?_
  refine firstFrom_cons ?_ ?_
  · iterate 9 refine or_congr Iff.rfl ?_
    exact hplace
  refine firstFrom_cons ?_ ?_
  · rw [← hcores]
    exact List.length_eq_zero_iff
  refine firstFrom_cons (or_congr (and_congr_right' (not_eq_true_iff templateOk_iff)) Iff.rfl) ?_
  refine firstFrom_cons (and_congr_right' (or_congr Iff.rfl ?_)) ?_
  · exact (BitVec.toNat_eq (y := 0)).symm
  refine firstFrom_cons (and_congr hpipe ?_) ?_
  · rw [← hcores]
    exact not_eq_true_iff stageTableOk_iff
  exact firstFrom_cons Iff.rfl (firstFrom_cons Iff.rfl rfl)

theorem submissionResult : SubmissionResult := by
  intro s tid core ws a user table p reason v
  have hreason : reason = firstFrom 0 (causes s ws a table) := launchReason_eq
  refine ⟨fun hrej => ?_, fun hacc => ?_, ?_, fun i => ?_⟩
  · have hv : v = word16Write s tid core p (word16 0 3 reason) := submit_rejected s tid core ws a user table p hrej
    rw [hv]
    exact ⟨rfl, rfl, rfl, rfl, _, rfl, rfl, rfl, rfl⟩
  · have hroom : s.launches.length < 16384 :=
      Nat.lt_of_not_le (firstFrom_eq_zero.mp (hreason ▸ hacc) _ (by simp [causes]))
    obtain ⟨hnone, hlt⟩ := launchNumber_free hroom
    obtain ⟨⟨l, hl, hwords, haddr, huser⟩, haccs, hnext⟩ := submit_accepted s tid core ws a user table p hacc hroom
    exact ⟨s.launchNumber, l, _, [], hl, hnone, hlt, hnext, hwords, haddr, huser, haccs, rfl, rfl⟩
  · rw [hreason]
    exact firstFrom_eq_zero
  · rw [hreason, ← Nat.zero_add i]
    exact firstFrom_eq_succ.trans (by rw [Nat.zero_add])

/-- Settles O22: what LAUNCH checks and submits, and the word that a submission writes, by its first cause of rejection. -/
theorem launchesSubmitted : Obligations.LaunchesSubmitted :=
  ⟨launchSubmits, submissionResult⟩

end Sys2Proof.Claim
end
